-- ==== Sys2Proof/Word.lean ====
section
/-! DEFINITION. The words of the block: a register is 64 bits, a byte is 8 bits (00_scope.md R4). -/

namespace Sys2Proof

/-- A 64-bit register or memory word. -/
abbrev Word := BitVec 64

/-- One byte of memory. -/
abbrev Byte := BitVec 8

end Sys2Proof
end

