-- ==== Sys2Proof/Types.lean ====
section
/-! DEFINITION. The plain data that commands and the state share: the status codes (R36) and the agents of an access. -/

namespace Sys2Proof

/-! The status codes of R36. -/

/-- Completed without fault. -/
def ST_OK : Nat := 0x00
/-- Accepted; not yet complete. -/
def ST_PENDING : Nat := 0x01
/-- Address in a hole, or access spans two ranges. -/
def ST_ADDR_UNMAPPED : Nat := 0x02
/-- Size or alignment not allowed. -/
def ST_ALIGN : Nat := 0x03
/-- Target unit is retired. -/
def ST_UNIT_RETIRED : Nat := 0x04
/-- Target compute die is power-gated. -/
def ST_DIE_STANDBY : Nat := 0x05
/-- Write by an agent that the page or register does not accept (R33 and the chapter of the page). -/
def ST_PAGE_PROTECTED : Nat := 0x06
/-- Work abandoned by reset or by an explicit abort. -/
def ST_ABORTED : Nat := 0x07
/-- A bounded wait expired. -/
def ST_TIMEOUT : Nat := 0x08
/-- A field holds a value outside its defined range. -/
def ST_BAD_ARG : Nat := 0x09
/-- Resource in use; retry later. -/
def ST_BUSY : Nat := 0x0A
/-- SRAM access by a port that does not own the bank. -/
def ST_NOT_OWNER : Nat := 0x10
/-- Same-word read and write in one cycle; read data undefined. -/
def ST_COLLISION : Nat := 0x11
/-- Atomic to an address not served by the shared cache. -/
def ST_ATOMIC_UNSUPPORTED : Nat := 0x12
/-- Sequencer thread trapped. -/
def ST_SEQ_TRAP : Nat := 0x13
/-- Malformed queue-engine descriptor. -/
def ST_QE_DESC_BAD : Nat := 0x14
/-- Data or result carries poison. -/
def ST_POISON : Nat := 0x20
/-- Uncorrectable error detected. -/
def ST_UNCORRECTABLE : Nat := 0x21
/-- Queue-engine channel halted on error. -/
def ST_CHANNEL_HALTED : Nat := 0x22
/-- Parity error on transient traffic. -/
def ST_PARITY : Nat := 0x23
/-- Check value differs from the expected value. -/
def ST_CHECK_MISMATCH : Nat := 0x24
/-- Bank unit forced to yield at 8 µs. -/
def ST_BU_FORCED_YIELD : Nat := 0x30
/-- Bank unit faulted. -/
def ST_BU_FAULT : Nat := 0x31
/-- Operation needs the other pseudo-channel mode. -/
def ST_BU_MODE : Nat := 0x32
/-- Invalid bank-unit instruction. -/
def ST_BU_PROGRAM : Nat := 0x33
/-- Free list empty. -/
def ST_KV_NO_PAGE : Nat := 0x40
/-- Reference count saturated. -/
def ST_KV_REFCOUNT_SAT : Nat := 0x41
/-- Page table entry not present. -/
def ST_KV_NOT_PRESENT : Nat := 0x42
/-- Token position outside the KV region. -/
def ST_KV_RANGE : Nat := 0x43
/-- Row remap table full. -/
def ST_REMAP_FULL : Nat := 0x48
/-- Scrub pass stopped before its end. -/
def ST_SCRUB_ABORTED : Nat := 0x49
/-- Diagnostic access outside DIAGNOSTIC or on a live range. -/
def ST_DIAG_DENIED : Nat := 0x4A
/-- Chart fails validation. -/
def ST_CHART_BAD : Nat := 0x50
/-- Route destination smaller than one segment. -/
def ST_CHART_BUFFER : Nat := 0x51
/-- Chart digest or signature fails. -/
def ST_CHART_SIGNATURE : Nat := 0x52
/-- Chart format version not supported. -/
def ST_CHART_VERSION : Nat := 0x53
/-- Apply requested with no staged chart. -/
def ST_CHART_NOT_STAGED : Nat := 0x54
/-- Step overran its edge plus slack. -/
def ST_TIDE_OVERRUN : Nat := 0x58
/-- Sequence dropped from a step by SHED policy. -/
def ST_SHED : Nat := 0x59
/-- Postmark tag does not verify. -/
def ST_POSTMARK_BAD : Nat := 0x60
/-- Postmark counter not above the last accepted value. -/
def ST_POSTMARK_REPLAY : Nat := 0x61
/-- Control command from a port without the control token. -/
def ST_NOT_CONTROLLER : Nat := 0x62
/-- Unknown command opcode. -/
def ST_OPCODE_BAD : Nat := 0x63
/-- Not allowed in the current lifecycle state. -/
def ST_LIFECYCLE : Nat := 0x64
/-- Feature or capacity not franked. -/
def ST_FRANK_MISSING : Nat := 0x68
/-- Frank signature or serial binding fails. -/
def ST_FRANK_BAD : Nat := 0x69
/-- Throttle in force. -/
def ST_THROTTLED : Nat := 0x70
/-- Thermal shutdown latched. -/
def ST_SHUTDOWN : Nat := 0x71
/-- Glewawin link not trained. -/
def ST_LINK_DOWN : Nat := 0x80
/-- Link trained below 4 lanes. -/
def ST_LINK_NARROW : Nat := 0x81
/-- Die-link module at 32 lanes. -/
def ST_DL_HALF_WIDTH : Nat := 0x82
/-- Die-link module in UCIe fallback mode. -/
def ST_DL_FALLBACK : Nat := 0x83
/-- No route to the remote module. -/
def ST_REMOTE_UNREACHABLE : Nat := 0x84
/-- Firmware signature fails. -/
def ST_FW_SIGNATURE : Nat := 0x90
/-- Driver and firmware interface revisions incompatible. -/
def ST_FW_INTERFACE : Nat := 0x91
/-- Bring-up stage failed. -/
def ST_STAGE_FAIL : Nat := 0x92
/-- Cell self-test failed. -/
def ST_SELFTEST : Nat := 0x93

/-- Who makes an access: a host port, a control core, the management core, a sequencer thread, a queue-engine channel, a
bank unit, the feeder, drain, vector unit, KVT or scrub engine of a cell, or another module over Glewawin. -/
inductive Agent where
  | host (p : Fin 2)
  | core (k : Fin 8)
  | mgmt
  | thread (c : Fin 128) (t : Fin 16)
  | engine (c : Fin 128) (k : Fin 8)
  | bankUnit (b : Fin 1024)
  | feeder (c : Fin 128)
  | drain (c : Fin 128)
  | vector (c : Fin 128)
  | kvt (c : Fin 128)
  | scrub (c : Fin 128)
  | remote (l : Fin 48)
  deriving DecidableEq, Repr

/-- The cache hint of an access (R274). -/
inductive Hint where
  | normal
  | stream
  | keep (k : Fin 8)
  | lastUse
  deriving DecidableEq, Repr

/-- What the training of a die-link module finds at S4 (R383, R386): the module's index d × 6 + m, the byte and revision that
each end offers, and the lanes that do not qualify in native and in fallback mode (bits 0–63 logical lanes, 64–67 spares) in the
direction from the I/O die and toward it, and the duration in µs. -/
structure DlTrain where
  module     : Fin 48
  ioCaps     : BitVec 8
  cdCaps     : BitVec 8
  ioRev      : BitVec 4
  cdRev      : BitVec 4
  nativeTx   : BitVec 68
  nativeRx   : BitVec 68
  fallbackTx : BitVec 68
  fallbackRx : BitVec 68
  us         : BitVec 16
  deriving DecidableEq, Repr

/-- What a field retrain of a die-link module finds (R391): the lanes that show an error in each direction, and its duration. -/
structure DlTest where
  module : Fin 48
  tx     : BitVec 68
  rx     : BitVec 68
  us     : BitVec 16
  deriving DecidableEq, Repr

/-- How a packet arrives over its hop (R405): intact, with a bad CRC, or with an uncorrectable FEC codeword. -/
inductive HopEnd where
  | good
  | badCrc
  | badFec
  deriving DecidableEq, Repr

/-- What the parity of a NoC access finds (R455): nothing, payload bytes (by their place in the payload) that fail, or a header that
fails, with whether its source field passes its own parity. -/
inductive Parity where
  | good
  | payload (bytes : List (Fin 4096))
  | header (source : Bool)
  deriving DecidableEq, Repr

/-- What a NoC access carries (R455): the bytes of a write (none: a read), and what its parity finds. -/
structure Carried where
  bytes  : Option (List Byte)
  parity : Parity
  deriving DecidableEq, Repr

/-- A read of a GATHER or SCATTER that meets a write (R174): whether it is that of a list entry, and the byte of the transfer. -/
structure ListHit where
  inList : Bool
  byte   : Nat
  deriving DecidableEq, Repr

/-- The restart of a narrowed link (R405, R414): how many of the newest packets of its hop buffer the switch port did not receive. -/
structure Restart where
  link   : Fin 48
  unseen : Nat
  deriving DecidableEq, Repr

/-- The header of a packet that arrives (R403): its link, destination and source fabric addresses, source module, group tag and
sequence number, and how it crossed the hop. -/
structure GwHdr where
  link   : Fin 48
  dst    : BitVec 24
  src    : BitVec 24
  member : Fin 128
  tag    : BitVec 16
  seq    : BitVec 32
  hop    : HopEnd
  deriving DecidableEq, Repr

/-- What the training of a Glewawin link finds (R400, R401): whether the physical layer comes up, whether the switch port offers
212.5 and 106.25 Gb/s, and at each rate the lanes that hold lock and the bit errors of lanes 0 to 3, the worse direction. -/
structure GwTrain where
  link     : Fin 48
  up       : Bool
  fast     : Bool
  slow     : Bool
  fastLock : BitVec 4
  fastErrs : List (BitVec 32)
  slowLock : BitVec 4
  slowErrs : List (BitVec 32)
  deriving DecidableEq, Repr

/-- Where a register access goes: an offset of a register page (R29), or, from a host, an offset of its BAR0 (R350). -/
inductive RegAt where
  | page (q off : BitVec 16)
  | bar0 (off : BitVec 26)
  deriving DecidableEq, Repr

/-- What the management host sends beside the vendor-defined commands (R508, R510): an endpoint ID, a question for it or for the
supported message types, a question for the supported PLDM types, a sensor reading, any other PLDM message, or the
acknowledgement of the n-th event message that waits for one. -/
inductive MgmtReq where
  | setEndpoint (eid : BitVec 8)
  | getEndpoint
  | messageTypes
  | pldmTypes
  | sensor (id : BitVec 16)
  | otherPldm
  | eventAck (n : Nat)
  deriving DecidableEq, Repr

end Sys2Proof
end

