-- ==== Sys2Proof/Syntax.lean ====
section
/-! DEFINITION. The commands of the block: one constructor per row of the opcode table (324 rows, none of which the
table gives bits), with the row's operands. Units are numbered as in R21; a number that the spec bounds is a `Fin`. -/

namespace Sys2Proof

/-- The commands, in the order of the opcode table. -/
inductive Instr where
  /-- POWER_APPLY (R500). -/
  | powerApply
  /-- INPUT_UNDERVOLTAGE (R500). -/
  | inputUndervoltage
  /-- INPUT_OVERVOLTAGE (R500). -/
  | inputOvervoltage
  /-- INPUT_POWER_REMOVED (R498). -/
  | inputPowerRemoved
  /-- WARM_RESET (R418). -/
  | warmReset
  /-- STAGE_S0 (R417). -/
  | stageS0 (us : BitVec 18) (mv : BitVec 32) (rail : Option (Fin 24)) (flow : BitVec 32)
  /-- STAGE_S1 (R417). -/
  | stageS1 (us : BitVec 16) (block : Option (BitVec 16)) (word : Option (BitVec 16)) (corrected : BitVec 32)
  /-- STAGE_S2 (R417). -/
  | stageS2
  /-- STAGE_S3 (R417). -/
  | stageS3
  /-- STAGE_S4 (R383). -/
  | stageS4 (us : BitVec 19) (trains : List DlTrain)
  /-- STAGE_S5 (R197). -/
  | stageS5 (us : BitVec 16) (rows : List (Fin 1024 × Fin 16 × Fin 3072))
  /-- STAGE_S6 (R284). -/
  | stageS6 (us : BitVec 20) (bins : List (Fin 24 × Fin 4)) (rows : List (Fin 24 × Fin 16 × BitVec 17))
  /-- STAGE_S7 (R417). -/
  | stageS7 (us : BitVec 17) (fails : List (Fin 128 × Fin 5))
  /-- STAGE_S8 (R402). -/
  | stageS8 (us : BitVec 22) (trains : List GwTrain)
  /-- STAGE_S9 (R417). -/
  | stageS9 (us : BitVec 16)
  /-- STAGE_LIMIT_EXPIRY (R418). -/
  | stageLimitExpiry
  /-- HEARTBEAT_TIMEOUT (R425). -/
  | heartbeatTimeout
  /-- TAMPER_DETECT (R435). -/
  | tamperDetect (source : Fin 3)
  /-- TAMPER_REWIPE (R435). -/
  | tamperRewipe (asserted : Bool)
  /-- REGISTER_WRITE (R32). -/
  | registerWrite (who : Agent) (target : RegAt) (data : List Byte)
  /-- COMMIT (R8). -/
  | commit (who : Agent) (page : BitVec 16)
  /-- ADDRESS_MAP_ACCESS (R28). -/
  | addressMapAccess (who : Agent) (a : BitVec 48) (n : BitVec 13) (data : Carried)
  /-- CUTOFF (R46). -/
  | cutoff
  /-- TIDE_EDGE (R46). -/
  | tideEdge
  /-- SLACK_CHECK (R48). -/
  | slackCheck
  /-- APPLY_HOLD_TIMEOUT (R47). -/
  | applyHoldTimeout
  /-- TIDE_HALT (R50). -/
  | tideHalt
  /-- TIDE_CTRL_RUN (R50). -/
  | tideCtrlRun (who : Agent) (run : Bool)
  /-- ANNOUNCE_MISSED (R58). -/
  | announceMissed
  /-- SYNC_TIMER (R412). -/
  | syncTimer
  /-- CREDIT_RETURN (R59). -/
  | creditReturn (parity : Bool)
  /-- SEGMENT_LAND (R64). -/
  | segmentLand
  /-- CODEBOOK_DESCRIPTOR_WRITE (R78). -/
  | codebookDescriptorWrite (who : Agent) (c : Fin 128) (k : Fin 64) (v : Word)
  /-- SEQ_NOP (R158). -/
  | seqNop (c : Fin 128) (t : Fin 16) (d : Fin 32) (a : Fin 32) (b : Fin 32) (fn : BitVec 9) (imm : BitVec 32)
  /-- SEQ_LI (R158). -/
  | seqLi (c : Fin 128) (t : Fin 16) (d : Fin 32) (a : Fin 32) (b : Fin 32) (fn : BitVec 9) (imm : BitVec 32)
  /-- SEQ_LIH (R158). -/
  | seqLih (c : Fin 128) (t : Fin 16) (d : Fin 32) (a : Fin 32) (b : Fin 32) (fn : BitVec 9) (imm : BitVec 32)
  /-- SEQ_ADD (R158). -/
  | seqAdd (c : Fin 128) (t : Fin 16) (d : Fin 32) (a : Fin 32) (b : Fin 32) (fn : BitVec 9) (imm : BitVec 32)
  /-- SEQ_SUB (R158). -/
  | seqSub (c : Fin 128) (t : Fin 16) (d : Fin 32) (a : Fin 32) (b : Fin 32) (fn : BitVec 9) (imm : BitVec 32)
  /-- SEQ_MUL (R158). -/
  | seqMul (c : Fin 128) (t : Fin 16) (d : Fin 32) (a : Fin 32) (b : Fin 32) (fn : BitVec 9) (imm : BitVec 32)
  /-- SEQ_AND (R158). -/
  | seqAnd (c : Fin 128) (t : Fin 16) (d : Fin 32) (a : Fin 32) (b : Fin 32) (fn : BitVec 9) (imm : BitVec 32)
  /-- SEQ_OR (R158). -/
  | seqOr (c : Fin 128) (t : Fin 16) (d : Fin 32) (a : Fin 32) (b : Fin 32) (fn : BitVec 9) (imm : BitVec 32)
  /-- SEQ_XOR (R158). -/
  | seqXor (c : Fin 128) (t : Fin 16) (d : Fin 32) (a : Fin 32) (b : Fin 32) (fn : BitVec 9) (imm : BitVec 32)
  /-- SEQ_SHL (R158). -/
  | seqShl (c : Fin 128) (t : Fin 16) (d : Fin 32) (a : Fin 32) (b : Fin 32) (fn : BitVec 9) (imm : BitVec 32)
  /-- SEQ_SHR (R158). -/
  | seqShr (c : Fin 128) (t : Fin 16) (d : Fin 32) (a : Fin 32) (b : Fin 32) (fn : BitVec 9) (imm : BitVec 32)
  /-- SEQ_SRA (R158). -/
  | seqSra (c : Fin 128) (t : Fin 16) (d : Fin 32) (a : Fin 32) (b : Fin 32) (fn : BitVec 9) (imm : BitVec 32)
  /-- SEQ_SLT (R158). -/
  | seqSlt (c : Fin 128) (t : Fin 16) (d : Fin 32) (a : Fin 32) (b : Fin 32) (fn : BitVec 9) (imm : BitVec 32)
  /-- SEQ_SLTU (R158). -/
  | seqSltu (c : Fin 128) (t : Fin 16) (d : Fin 32) (a : Fin 32) (b : Fin 32) (fn : BitVec 9) (imm : BitVec 32)
  /-- SEQ_LD (R158). -/
  | seqLd (c : Fin 128) (t : Fin 16) (d : Fin 32) (a : Fin 32) (b : Fin 32) (fn : BitVec 9) (imm : BitVec 32)
  /-- SEQ_ST (R158). -/
  | seqSt (c : Fin 128) (t : Fin 16) (d : Fin 32) (a : Fin 32) (b : Fin 32) (fn : BitVec 9) (imm : BitVec 32)
  /-- SEQ_BEQ (R158). -/
  | seqBeq (c : Fin 128) (t : Fin 16) (d : Fin 32) (a : Fin 32) (b : Fin 32) (fn : BitVec 9) (imm : BitVec 32)
  /-- SEQ_BNE (R158). -/
  | seqBne (c : Fin 128) (t : Fin 16) (d : Fin 32) (a : Fin 32) (b : Fin 32) (fn : BitVec 9) (imm : BitVec 32)
  /-- SEQ_BLT (R158). -/
  | seqBlt (c : Fin 128) (t : Fin 16) (d : Fin 32) (a : Fin 32) (b : Fin 32) (fn : BitVec 9) (imm : BitVec 32)
  /-- SEQ_BGE (R158). -/
  | seqBge (c : Fin 128) (t : Fin 16) (d : Fin 32) (a : Fin 32) (b : Fin 32) (fn : BitVec 9) (imm : BitVec 32)
  /-- SEQ_JAL (R158). -/
  | seqJal (c : Fin 128) (t : Fin 16) (d : Fin 32) (a : Fin 32) (b : Fin 32) (fn : BitVec 9) (imm : BitVec 32)
  /-- SEQ_JR (R158). -/
  | seqJr (c : Fin 128) (t : Fin 16) (d : Fin 32) (a : Fin 32) (b : Fin 32) (fn : BitVec 9) (imm : BitVec 32)
  /-- SEQ_PASS (R99). -/
  | seqPass (c : Fin 128) (t : Fin 16) (d : Fin 32) (a : Fin 32) (b : Fin 32) (fn : BitVec 9) (imm : BitVec 32) (collided : Fin 6)
  /-- SEQ_VOP (R161). -/
  | seqVop (c : Fin 128) (t : Fin 16) (d : Fin 32) (a : Fin 32) (b : Fin 32) (fn : BitVec 9) (imm : BitVec 32)
  /-- SEQ_QE (R176). -/
  | seqQe (c : Fin 128) (t : Fin 16) (d : Fin 32) (a : Fin 32) (b : Fin 32) (fn : BitVec 9) (imm : BitVec 32) (collided : Fin 6)
  /-- SEQ_BUC (R210). -/
  | seqBuc (c : Fin 128) (t : Fin 16) (d : Fin 32) (a : Fin 32) (b : Fin 32) (fn : BitVec 9) (imm : BitVec 32) (collided : Fin 6)
  /-- SEQ_SIGNAL (R300). -/
  | seqSignal (c : Fin 128) (t : Fin 16) (d : Fin 32) (a : Fin 32) (b : Fin 32) (fn : BitVec 9) (imm : BitVec 32)
  /-- SEQ_WAIT (R298). -/
  | seqWait (c : Fin 128) (t : Fin 16) (d : Fin 32) (a : Fin 32) (b : Fin 32) (fn : BitVec 9) (imm : BitVec 32)
  /-- SEQ_ARRIVE (R306). -/
  | seqArrive (c : Fin 128) (t : Fin 16) (d : Fin 32) (a : Fin 32) (b : Fin 32) (fn : BitVec 9) (imm : BitVec 32)
  /-- SEQ_OWN (R172). -/
  | seqOwn (c : Fin 128) (t : Fin 16) (d : Fin 32) (a : Fin 32) (b : Fin 32) (fn : BitVec 9) (imm : BitVec 32)
  /-- SEQ_FENCE (R158). -/
  | seqFence (c : Fin 128) (t : Fin 16) (d : Fin 32) (a : Fin 32) (b : Fin 32) (fn : BitVec 9) (imm : BitVec 32)
  /-- SEQ_HEAD_END (R39). -/
  | seqHeadEnd (c : Fin 128) (t : Fin 16) (d : Fin 32) (a : Fin 32) (b : Fin 32) (fn : BitVec 9) (imm : BitVec 32)
  /-- SEQ_STEP_END (R40). -/
  | seqStepEnd (c : Fin 128) (t : Fin 16) (d : Fin 32) (a : Fin 32) (b : Fin 32) (fn : BitVec 9) (imm : BitVec 32)
  /-- SEQ_RDSTEP (R158). -/
  | seqRdstep (c : Fin 128) (t : Fin 16) (d : Fin 32) (a : Fin 32) (b : Fin 32) (fn : BitVec 9) (imm : BitVec 32)
  /-- SEQ_RDTIME (R158). -/
  | seqRdtime (c : Fin 128) (t : Fin 16) (d : Fin 32) (a : Fin 32) (b : Fin 32) (fn : BitVec 9) (imm : BitVec 32)
  /-- SEQ_TRAP (R159). -/
  | seqTrap (c : Fin 128) (t : Fin 16) (d : Fin 32) (a : Fin 32) (b : Fin 32) (fn : BitVec 9) (imm : BitVec 32)
  /-- ICACHE_FILL (R154). -/
  | icacheFill (c : Fin 128) (t : Fin 16) (err : Fin 3)
  /-- LOAD_RESPONSE (R159). -/
  | loadResponse (c : Fin 128) (t : Fin 16) (collided : Fin 6)
  /-- THREAD_HALT (R160). -/
  | threadHalt (who : Agent) (c : Fin 128) (t : Fin 16)
  /-- THREAD_RESUME (R160). -/
  | threadResume (who : Agent) (c : Fin 128) (t : Fin 16)
  /-- THREAD_KILL (R160). -/
  | threadKill (who : Agent) (c : Fin 128) (t : Fin 16)
  /-- ICACHE_INVALIDATE (R154). -/
  | icacheInvalidate (who : Agent) (c : Fin 128)
  /-- VEC_ADD (R161). -/
  | vecAdd (c : Fin 128) (collided : Fin 6)
  /-- VEC_SUB (R161). -/
  | vecSub (c : Fin 128) (collided : Fin 6)
  /-- VEC_MUL (R161). -/
  | vecMul (c : Fin 128) (collided : Fin 6)
  /-- VEC_FMA (R161). -/
  | vecFma (c : Fin 128) (collided : Fin 6)
  /-- VEC_MAX (R161). -/
  | vecMax (c : Fin 128) (collided : Fin 6)
  /-- VEC_MIN (R161). -/
  | vecMin (c : Fin 128) (collided : Fin 6)
  /-- SCALE (R161). -/
  | scale (c : Fin 128) (collided : Fin 6)
  /-- CVT (R161). -/
  | cvt (c : Fin 128) (collided : Fin 6)
  /-- EXP (R92). -/
  | exp (c : Fin 128) (collided : Fin 6)
  /-- RCP (R92). -/
  | rcp (c : Fin 128) (collided : Fin 6)
  /-- RSQRT (R92). -/
  | rsqrt (c : Fin 128) (collided : Fin 6)
  /-- TANH (R92). -/
  | tanh (c : Fin 128) (collided : Fin 6)
  /-- LOGISTIC (R92). -/
  | logistic (c : Fin 128) (collided : Fin 6)
  /-- RSUM (R162). -/
  | rsum (c : Fin 128) (collided : Fin 6)
  /-- RMAX (R162). -/
  | rmax (c : Fin 128) (collided : Fin 6)
  /-- SOFTMAX (R162). -/
  | softmax (c : Fin 128) (collided : Fin 6)
  /-- TOPK (R163). -/
  | topk (c : Fin 128) (collided : Fin 6)
  /-- CODE (R80). -/
  | code (c : Fin 128) (collided : Fin 6)
  /-- SCAN (R164). -/
  | scan (c : Fin 128) (collided : Fin 6)
  /-- RNG (R165). -/
  | rng (c : Fin 128) (collided : Fin 6)
  /-- SAMPLE (R166). -/
  | sample (c : Fin 128) (collided : Fin 6)
  /-- MERGE (R167). -/
  | merge (c : Fin 128) (collided : Fin 6)
  /-- FEED_ISSUE (R99). -/
  | feedIssue (who : Agent) (c : Fin 128) (off : BitVec 16) (collided : Bool)
  /-- TILE_FETCH_START (R107). -/
  | tileFetchStart (c : Fin 128) (collided : Bool)
  /-- ZSKIP_SCAN_END (R139). -/
  | zskipScanEnd (c : Fin 128) (collided : Bool)
  /-- METADATA_ARRIVAL (R104). -/
  | metadataArrival (c : Fin 128)
  /-- PASS_START (R105). -/
  | passStart (c : Fin 128) (collided : Bool) (parity : Bool)
  /-- PASS_COMPLETE (R126). -/
  | passComplete (c : Fin 128) (collided : Fin 3)
  /-- FEED_ENABLE (R129). -/
  | feedEnable (who : Agent) (c : Fin 128) (enable : Bool)
  /-- FEED_ABORT (R129). -/
  | feedAbort (who : Agent) (c : Fin 128)
  /-- SRAM_ACCESS (R171). -/
  | sramAccess (who : Agent) (c : Fin 128) (way : Fin 3) (off : BitVec 22) (n : Nat) (data : Option (List Byte)) (collided : Bool)
  /-- OWNER_WRITE (R172). -/
  | ownerWrite (who : Agent) (c : Fin 128) (i : Fin 6) (v : Word) (half : Fin 3)
  /-- OWNER_SWITCH (R172). -/
  | ownerSwitch (c : Fin 128) (b : Fin 24)
  /-- QUE_CH_SUBMIT (R180). -/
  | queChSubmit (who : Agent) (c : Fin 128) (k : Fin 8) (off : BitVec 16) (collided : Bool)
  /-- QE_COPY (R177). -/
  | qeCopy (c : Fin 128) (k : Fin 8) (collide : Option Nat)
  /-- QE_SEND (R63). -/
  | qeSend (c : Fin 128) (k : Fin 8) (collide : Option Nat)
  /-- QE_FILL (R177). -/
  | qeFill (c : Fin 128) (k : Fin 8)
  /-- QE_GATHER (R177). -/
  | qeGather (c : Fin 128) (k : Fin 8) (collide : Option ListHit)
  /-- QE_SCATTER (R177). -/
  | qeScatter (c : Fin 128) (k : Fin 8) (collide : Option ListHit)
  /-- QE_RESPONSE (R179). -/
  | qeResponse (c : Fin 128) (k : Fin 8)
  /-- QUE_CH_PAUSE (R179). -/
  | queChPause (who : Agent) (c : Fin 128) (k : Fin 8) (pause : Bool)
  /-- QUE_CH_RESUME (R179). -/
  | queChResume (who : Agent) (c : Fin 128) (k : Fin 8)
  /-- QUE_CH_SKIP (R179). -/
  | queChSkip (who : Agent) (c : Fin 128) (k : Fin 8)
  /-- QUE_CH_FLUSH (R179). -/
  | queChFlush (who : Agent) (c : Fin 128) (k : Fin 8)
  /-- VAULT_REQUEST (R187). -/
  | vaultRequest (a : BitVec 48) (n : Fin 65) (data : Option (List Byte)) (ns : BitVec 32)
  /-- REMAP_PERSIST (R196). -/
  | remapPersist
  /-- REFRESH (R191). -/
  | refresh (u : Fin 1024) (bank : Fin 16)
  /-- TRACKER_WINDOW_EXPIRY (R195). -/
  | trackerWindowExpiry (u : Fin 1048)
  /-- SCRUB_START (R198). -/
  | scrubStart (who : Agent) (u : Option (Fin 128))
  /-- SCRUB_ABORT (R202). -/
  | scrubAbort (who : Agent) (u : Option (Fin 128)) (granules : Nat)
  /-- SCRUB_DONE (R199). -/
  | scrubDone (u : Option (Fin 128))
  /-- DIAG_LOCK (R200). -/
  | diagLock (who : Agent) (u : Option (Fin 128)) (v : Word)
  /-- DIAG_LOCK_GRANTED (R200). -/
  | diagLockGranted (u : Option (Fin 128))
  /-- RAW_WRITE (R201). -/
  | rawWrite (who : Agent) (u : Option (Fin 128)) (check : BitVec 16)
  /-- RAW_READ (R201). -/
  | rawRead (who : Agent) (u : Option (Fin 128))
  /-- BU_SUBMIT (R210). -/
  | buSubmit (who : Agent) (u : Fin 1024) (block : BitVec 48)
  /-- BU_COMMAND_START (R211). -/
  | buCommandStart (u : Fin 1024)
  /-- BU_SVC_COPY (R212). -/
  | buSvcCopy (u : Fin 1024)
  /-- BU_SVC_FILL (R212). -/
  | buSvcFill (u : Fin 1024)
  /-- BU_SVC_CHECK (R212). -/
  | buSvcCheck (u : Fin 1024)
  /-- BU_NOP (R216). -/
  | buNop (u : Fin 1024) (fetch : Fin 3)
  /-- BU_LI (R216). -/
  | buLi (u : Fin 1024) (fetch : Fin 3)
  /-- BU_LIH (R216). -/
  | buLih (u : Fin 1024) (fetch : Fin 3)
  /-- BU_ADD (R216). -/
  | buAdd (u : Fin 1024) (fetch : Fin 3)
  /-- BU_SUB (R216). -/
  | buSub (u : Fin 1024) (fetch : Fin 3)
  /-- BU_MUL (R216). -/
  | buMul (u : Fin 1024) (fetch : Fin 3)
  /-- BU_SHL (R216). -/
  | buShl (u : Fin 1024) (fetch : Fin 3)
  /-- BU_SHR (R216). -/
  | buShr (u : Fin 1024) (fetch : Fin 3)
  /-- BU_AND (R216). -/
  | buAnd (u : Fin 1024) (fetch : Fin 3)
  /-- BU_OR (R216). -/
  | buOr (u : Fin 1024) (fetch : Fin 3)
  /-- BU_BNE (R216). -/
  | buBne (u : Fin 1024) (fetch : Fin 3)
  /-- BU_BLTU (R216). -/
  | buBltu (u : Fin 1024) (fetch : Fin 3)
  /-- BU_JMP (R216). -/
  | buJmp (u : Fin 1024) (fetch : Fin 3)
  /-- BU_LOOP (R216). -/
  | buLoop (u : Fin 1024) (fetch : Fin 3)
  /-- BU_YIELD (R225). -/
  | buYield (u : Fin 1024) (fetch : Fin 3)
  /-- BU_END (R211). -/
  | buEnd (u : Fin 1024) (fetch : Fin 3)
  /-- BU_LDQ (R217). -/
  | buLdq (u : Fin 1024) (fetch : Fin 3)
  /-- BU_LDI (R217). -/
  | buLdi (u : Fin 1024) (fetch : Fin 3)
  /-- BU_LDS (R217). -/
  | buLds (u : Fin 1024) (fetch : Fin 3)
  /-- BU_LCB (R217). -/
  | buLcb (u : Fin 1024) (fetch : Fin 3)
  /-- BU_CLR (R217). -/
  | buClr (u : Fin 1024) (fetch : Fin 3)
  /-- BU_STR (R219). -/
  | buStr (u : Fin 1024) (fetch : Fin 3)
  /-- BU_GATHER (R217). -/
  | buGather (u : Fin 1024) (fetch : Fin 3)
  /-- BU_GATHER_REDUCE (R219). -/
  | buGatherReduce (u : Fin 1024) (fetch : Fin 3)
  /-- BU_ROW_DOT (R219). -/
  | buRowDot (u : Fin 1024) (fetch : Fin 3)
  /-- BU_SCAN_STATS (R219). -/
  | buScanStats (u : Fin 1024) (fetch : Fin 3)
  /-- BU_COPY (R217). -/
  | buCopy (u : Fin 1024) (fetch : Fin 3)
  /-- BU_FILL (R217). -/
  | buFill (u : Fin 1024) (fetch : Fin 3)
  /-- BU_CHECK (R217). -/
  | buCheck (u : Fin 1024) (fetch : Fin 3)
  /-- FORCED_YIELD (R226). -/
  | forcedYield (u : Fin 1024)
  /-- STACK_WINDOW (R222). -/
  | stackWindow (stack : Fin 8)
  /-- BU_MODE_PROCESSOR (R206). -/
  | buModeProcessor (who : Agent) (u : Fin 1024)
  /-- PROCESSOR_MODE_READY (R206). -/
  | processorModeReady (u : Fin 1024)
  /-- BU_MODE_MEMORY (R207). -/
  | buModeMemory (who : Agent) (u : Fin 1024)
  /-- MEMORY_MODE_DRAINED (R207). -/
  | memoryModeDrained (u : Fin 1024)
  /-- BU_ABORT_DRAIN (R207). -/
  | buAbortDrain (who : Agent) (u : Fin 1024)
  /-- BU_CLEAR_FAULT (R231). -/
  | buClearFault (who : Agent) (u : Fin 1024)
  /-- BU_ABORT (R232). -/
  | buAbort (who : Agent) (u : Fin 1024)
  /-- BU_PROG_WRITE (R214). -/
  | buProgWrite (who : Agent) (u : Fin 1024) (i : Fin 512) (v : Word) (half : Fin 3)
  /-- KVT_SUBMIT (R240). -/
  | kvtSubmit (who : Agent) (c : Fin 128) (off : BitVec 22)
  /-- KVT_WALK (R242). -/
  | kvtWalk (c : Fin 128) (n : Fin 36)
  /-- KVT_APPEND (R244). -/
  | kvtAppend (c : Fin 128) (n : Fin 36)
  /-- COW_COPY_COMPLETE (R252). -/
  | cowCopyComplete (c : Fin 128) (n : Fin 36)
  /-- KVT_SHARE (R249). -/
  | kvtShare (c : Fin 128) (n : Fin 36)
  /-- KVT_RELEASE (R250). -/
  | kvtRelease (c : Fin 128) (n : Fin 36)
  /-- KVT_MARK (R257). -/
  | kvtMark (c : Fin 128) (n : Fin 36)
  /-- KVT_STAGE (R259). -/
  | kvtStage (c : Fin 128) (n : Fin 36)
  /-- STAGE_COPY_COMPLETE (R259). -/
  | stageCopyComplete (c : Fin 128) (n : Fin 36)
  /-- KVT_MIGRATE (R261). -/
  | kvtMigrate (c : Fin 128) (n : Fin 36)
  /-- MIGRATION_COPY_COMPLETE (R261). -/
  | migrationCopyComplete (c : Fin 128)
  /-- KVT_EVACUATE (R266). -/
  | kvtEvacuate (c : Fin 128) (n : Fin 36)
  /-- KVT_ABORT (R268). -/
  | kvtAbort (who : Agent) (c : Fin 128)
  /-- KVT_FL_PUSH (R247). -/
  | kvtFlPush (who : Agent) (c : Fin 128) (i : Fin 9) (entry : Word)
  /-- SC_ACCESS (R274). -/
  | scAccess (who : Agent) (h : Hint) (a : BitVec 48) (len : BitVec 13) (write : Option (List Byte)) (tag : Fin 3) (upset : Option (Fin 16 × Bool)) (ns : Nat)
  /-- ATOM_ADD (R279). -/
  | atomAdd (who : Agent) (i : Fin 2056) (operand : Word)
  /-- ATOM_MIN (R279). -/
  | atomMin (who : Agent) (i : Fin 2056) (operand : Word)
  /-- ATOM_MAX (R279). -/
  | atomMax (who : Agent) (i : Fin 2056) (operand : Word)
  /-- ATOM_AND (R279). -/
  | atomAnd (who : Agent) (i : Fin 2056) (operand : Word)
  /-- ATOM_OR (R279). -/
  | atomOr (who : Agent) (i : Fin 2056) (operand : Word)
  /-- ATOM_XOR (R279). -/
  | atomXor (who : Agent) (i : Fin 2056) (operand : Word)
  /-- ATOM_SWAP (R279). -/
  | atomSwap (who : Agent) (i : Fin 2056) (operand : Word)
  /-- ATOM_CAS (R279). -/
  | atomCas (who : Agent) (i : Fin 2056) (operand : Word)
  /-- ATOM_VADD (R279). -/
  | atomVadd (who : Agent) (i : Fin 2056) (operand : Word)
  /-- PCIE_ATOMICOP (R282). -/
  | pcieAtomicop (p : Fin 2) (op : Fin 3) (size : Fin 3) (a : BitVec 38) (operand : Word) (compare : Word)
  /-- SC_FLUSH_START (R278). -/
  | scFlushStart (who : Agent) (invalidate : Bool)
  /-- SC_FLUSH_DONE (R278). -/
  | scFlushDone
  /-- KEEP_RELEASE (R275). -/
  | keepRelease (who : Agent) (k : Fin 8)
  /-- GDDR_REQUEST (R289). -/
  | gddrRequest (a : BitVec 48) (len : BitVec 9) (write : Option (List Byte)) (crc : Fin 5) (retrained : Bool) (flip : Word) (flipCheck : BitVec 16) (ns : Nat)
  /-- GDDR_REFRESH (R289). -/
  | gddrRefresh (g : Fin 24) (bank : Fin 16)
  /-- GDDR_PERIODIC_RETRAIN (R289). -/
  | gddrPeriodicRetrain (g : Fin 24)
  /-- POSTBOX_SIGNAL (R295). -/
  | postboxSignal
  /-- LANDING_NOTICE (R301). -/
  | landingNotice
  /-- PBX_SIGNAL (R296). -/
  | pbxSignal (who : Agent) (c : Fin 128) (n : Fin 64) (add : BitVec 16)
  /-- PBX_RESET (R314). -/
  | pbxReset (who : Agent) (c : Fin 128) (n : Fin 64) (value : BitVec 16)
  /-- SEAWALL_ARRIVAL (R306). -/
  | seawallArrival
  /-- SWL_ARRIVE (R306). -/
  | swlArrive (who : Agent) (w : Fin 64)
  /-- SEAWALL_RELEASE (R307). -/
  | seawallRelease (c : Fin 128)
  /-- CHART_LOAD (R336). -/
  | chartLoad (n : Fin 2048)
  /-- CHART_STAGING_DONE (R339). -/
  | chartStagingDone
  /-- CHART_APPLY (R340). -/
  | chartApply (n : Fin 2048)
  /-- CHT_ARM (R340). -/
  | chtArm (who : Agent) (target : BitVec 32)
  /-- CHT_DISARM (R346). -/
  | chtDisarm (who : Agent)
  /-- CHART_DISARM (R346). -/
  | chartDisarm (n : Fin 2048)
  /-- TIDE_RUN_START (R50). -/
  | tideRunStart (n : Fin 2048)
  /-- TIDE_RUN_STOP (R50). -/
  | tideRunStop (n : Fin 2048)
  /-- SQ_TAIL_DOORBELL (R354). -/
  | sqTailDoorbell (who : Agent) (p : Fin 2) (q : Fin 64) (index : BitVec 12)
  /-- CQ_HEAD_WRITE (R356). -/
  | cqHeadWrite (who : Agent) (p : Fin 2) (q : Fin 64) (index : BitVec 12)
  /-- QUEUE_PAIR_ENABLE (R353). -/
  | queuePairEnable (who : Agent) (p : Fin 2) (q : Fin 64) (enable : Bool)
  /-- DESCRIPTOR_FETCH (R360). -/
  | descriptorFetch (p : Fin 2) (answer : Fin 3)
  /-- RESERVE_MARK_WRITTEN (R371). -/
  | reserveMarkWritten (p : Fin 2)
  /-- COMPLETION_POST (R356). -/
  | completionPost (n : Fin 2048)
  /-- COMPLETION_AGG_TIMER (R357). -/
  | completionAggTimer (p : Fin 2) (q : Fin 64)
  /-- CMD_NOP (R361). -/
  | cmdNop (n : Fin 2048)
  /-- IDENTIFY (R361). -/
  | identify (n : Fin 2048)
  /-- FW_LOAD (R424). -/
  | fwLoad (n : Fin 2048) (answer : Fin 3)
  /-- SEQ_ADMIT (R365). -/
  | seqAdmit (n : Fin 2048)
  /-- STEP_SUBMIT (R365). -/
  | stepSubmit (n : Fin 2048) (answer : Fin 3)
  /-- STEP_SUBMIT_COMPLETION (R367). -/
  | stepSubmitCompletion (q : Fin 4096)
  /-- SEQ_RETIRE (R367). -/
  | seqRetire (n : Fin 2048)
  /-- COPY_TO_DEVICE (R361). -/
  | copyToDevice (n : Fin 2048) (answer : Fin 3) (upto : BitVec 33)
  /-- COPY_FROM_DEVICE (R364). -/
  | copyFromDevice (n : Fin 2048) (collided : Option (BitVec 33))
  /-- KV_OP (R361). -/
  | kvOp (n : Fin 2048)
  /-- EVACUATE (R361). -/
  | evacuate (n : Fin 2048)
  /-- SCRUB (R361). -/
  | scrub (n : Fin 2048)
  /-- MONITOR_READ (R450). -/
  | monitorRead (n : Fin 2048)
  /-- DISPATCH_READ (R421). -/
  | dispatchRead (n : Fin 2048)
  /-- RETIRE_CELL (R468). -/
  | retireCell (n : Fin 2048)
  /-- RETIRE_BANK_UNIT (R468). -/
  | retireBankUnit (n : Fin 2048)
  /-- RETIRE_DIE_LINK (R468). -/
  | retireDieLink (n : Fin 2048)
  /-- RETIRE_LINK (R415). -/
  | retireLink (n : Fin 2048)
  /-- FRANK_INSTALL (R430). -/
  | frankInstall (n : Fin 2048) (answer : Fin 3) (flashBad : Bool)
  /-- LIFECYCLE_SET (R433). -/
  | lifecycleSet (n : Fin 2048)
  /-- KEY_SET (R370). -/
  | keySet (n : Fin 2048) (answer : Fin 3)
  /-- KEY_QUERY (R370). -/
  | keyQuery (n : Fin 2048)
  /-- TOKEN_GIVE (R373). -/
  | tokenGive (n : Fin 2048)
  /-- TOKEN_ACCEPT (R373). -/
  | tokenAccept (n : Fin 2048)
  /-- TOKEN_OFFER_EXPIRY (R373). -/
  | tokenOfferExpiry
  /-- TOKEN_TAKEOVER (R374). -/
  | tokenTakeover (n : Fin 2048)
  /-- TOKEN_TIMEOUT (R374). -/
  | tokenTimeout (n : Fin 2048)
  /-- THERMAL_SET (R498). -/
  | thermalSet (n : Fin 2048)
  /-- POWER_STATE_STANDBY (R477). -/
  | powerStateStandby (n : Fin 2048)
  /-- POWER_STATE_RUN (R478). -/
  | powerStateRun (n : Fin 2048)
  /-- RESET (R361). -/
  | reset (n : Fin 2048)
  /-- HELLO (R427). -/
  | hello (n : Fin 2048) (answer : Fin 3)
  /-- JOB_SETUP (R427). -/
  | jobSetup (n : Fin 2048) (answer : Fin 3)
  /-- FW_INFO (R426). -/
  | fwInfo (n : Fin 2048) (answer : Fin 3)
  /-- SERVICE_TEST (R471). -/
  | serviceTest (n : Fin 2048) (answer : Fin 3)
  /-- SERVICE_TEST_DONE (R471). -/
  | serviceTestDone (block : Fin 6) (us : BitVec 24)
  /-- CE_READ (R462). -/
  | ceRead (n : Fin 2048) (answer : Fin 3)
  /-- BAR2_ACCESS (R352). -/
  | bar2Access (p : Fin 2) (resize : Option (Fin 11)) (a : BitVec 38) (n : BitVec 13) (data : Option (List Byte)) (collided : Bool)
  /-- PCIE_LINK_DOWN (R358). -/
  | pcieLinkDown (p : Fin 2)
  /-- PCIE_LINK_UP (R358). -/
  | pcieLinkUp (p : Fin 2) (speed : Fin 7) (width : Fin 9) (flit : Bool)
  /-- LINK_LOSS_TIMEOUT (R358). -/
  | linkLossTimeout (p : Fin 2)
  /-- FUNCTION_LEVEL_RESET (R358). -/
  | functionLevelReset (p : Fin 2)
  /-- PERST_ASSERT (R502). -/
  | perstAssert (p : Fin 2)
  /-- PERST_RELEASE (R502). -/
  | perstRelease (p : Fin 2)
  /-- LINK_FRAME (R378). -/
  | linkFrame (d : Fin 8) (m : Fin 6) (up : Bool) (kind : Fin 5) (vc : Fin 4) (dest : Fin 368) (flit : BitVec 512) (flip : BitVec 544)
  /-- REPLAY_TIMEOUT (R378). -/
  | replayTimeout (d : Fin 8) (m : Fin 6) (up : Bool)
  /-- LANE_LOSS_OF_LOCK (R391). -/
  | laneLossOfLock (d : Fin 8) (m : Fin 6)
  /-- DL_RETRAIN (R391). -/
  | dlRetrain (who : Agent) (d : Fin 8) (m : Fin 6)
  /-- DL_RETRAIN_COMPLETE (R391). -/
  | dlRetrainComplete (t : DlTest)
  /-- SLOT_MOVE_COMPLETE (R381). -/
  | slotMoveComplete (d : Fin 8) (slot : Fin 48)
  /-- DL_OFFLINE (R395). -/
  | dlOffline (who : Agent) (d : Fin 8) (m : Fin 6) (offline : Bool)
  /-- DL_TEST_START (R395). -/
  | dlTestStart (who : Agent) (d : Fin 8) (m : Fin 6) (mode : Fin 3) (pattern : Fin 3) (cdEnd : Bool)
  /-- DL_TEST_DONE (R395). -/
  | dlTestDone (d : Fin 8) (m : Fin 6) (lanes : BitVec 64) (spares : BitVec 4)
  /-- GW_WRITE (R410). -/
  | gwWrite (h : GwHdr) (addr : BitVec 48) (tag : BitVec 16) (data : List Byte)
  /-- GW_ACK (R406). -/
  | gwAck (h : GwHdr) (seq : BitVec 32) (vc : Fin 4) (status : BitVec 8)
  /-- GW_SIGNAL (R411). -/
  | gwSignal (h : GwHdr) (pbx : BitVec 13) (amount : BitVec 16)
  /-- SW_ARRIVE (R309). -/
  | swArrive (h : GwHdr) (wall : Fin 64) (gen : BitVec 16)
  /-- SW_RELEASE (R309). -/
  | swRelease (h : GwHdr) (wall : Fin 64) (gen : BitVec 16)
  /-- TIDE_ANNOUNCE (R56). -/
  | tideAnnounce (h : GwHdr) (edge : BitVec 64) (t : BitVec 64)
  /-- OVERRUN (R57). -/
  | overrun (h : GwHdr) (report : Bool) (cause : BitVec 8)
  /-- SYNC_REQ (R412). -/
  | syncReq (h : GwHdr) (t1 : BitVec 64)
  /-- SYNC_RSP (R412). -/
  | syncRsp (h : GwHdr) (t1 : BitVec 64) (t2 : BitVec 64) (t3 : BitVec 64)
  /-- ACK_TIMEOUT (R406). -/
  | ackTimeout (n : Nat)
  /-- GW_LANE_FAILURE (R414). -/
  | gwLaneFailure (l : Fin 48) (lane : Fin 4)
  /-- GW_LINK_RESTARTED (R414). -/
  | gwLinkRestarted (l : Restart)
  /-- GWL_REQUALIFY (R414). -/
  | gwlRequalify (who : Agent) (l : Fin 48)
  /-- GWL_XQ_TAIL (R413). -/
  | gwlXqTail (who : Agent) (x : Fin 8) (tail : BitVec 12)
  /-- GWL_XQ_RESUME (R413). -/
  | gwlXqResume (who : Agent) (x : Fin 8)
  /-- GWL_XQ_SKIP (R413). -/
  | gwlXqSkip (who : Agent) (x : Fin 8)
  /-- GWL_XQ_FLUSH (R413). -/
  | gwlXqFlush (who : Agent) (x : Fin 8)
  /-- EVC_EOS (R440). -/
  | evcEos (who : Agent) (dest : Fin 3) (src : Fin 2048)
  /-- EVC_SET (R442). -/
  | evcSet (src : Fin 2048)
  /-- MSIX_UNMASK (R439). -/
  | msixUnmask (p : Fin 2) (v : Fin 128)
  /-- MON_SNAP (R449). -/
  | monSnap (u : Fin 64)
  /-- MON_CLEAR (R449). -/
  | monClear (u : Fin 64)
  /-- CRC_START (R463). -/
  | crcStart (who : Agent) (e : Fin 16)
  /-- CRC_STOP (R465). -/
  | crcStop (who : Agent) (e : Fin 16)
  /-- CRC_RESUME (R465). -/
  | crcResume (who : Agent) (e : Fin 16)
  /-- CRC_COMPARE (R466). -/
  | crcCompare (who : Agent) (e : Fin 16)
  /-- CE_POLL (R460). -/
  | cePoll
  /-- HOUSEKEEPING_ROUND (R493). -/
  | housekeepingRound (readings : List (BitVec 32))
  /-- GRACE_EXPIRY (R490). -/
  | graceExpiry
  /-- FAST_LOOP_SAMPLE (R483). -/
  | fastLoopSample (p : BitVec 16)
  /-- MGMT_EVENT_RETRY (R510). -/
  | mgmtEventRetry (n : Nat)
  /-- PLDM_REQUEST (R508). -/
  | pldmRequest (r : MgmtReq)
  /-- MGMT_DISPATCH_READ (R511). -/
  | mgmtDispatchRead (first : BitVec 32) (count : BitVec 8)
  /-- REPLACE_READ (R511). -/
  | replaceRead
  /-- SOUNDING_READ (R511). -/
  | soundingRead (first : BitVec 8) (count : BitVec 8)
  /-- MGMT_WARM_RESET (R511). -/
  | mgmtWarmReset
  /-- MGMT_STATUS (R511). -/
  | mgmtStatus
  /-- STANDBY_EXIT (R511). -/
  | standbyExit
  /-- REGISTER_READ (R5). -/
  | registerRead (who : Agent) (target : RegAt) (n : Fin 17)
  /-- ILLEGAL_INSTRUCTION (R159). -/
  | illegalInstruction (c : Fin 128) (t : Fin 16)
  /-- KVT_OPERATION_COMPLETE (R245). -/
  | kvtOperationComplete (c : Fin 128) (n : Fin 36)
  /-- STANDBY_ENTRY_COMPLETE (R477). -/
  | standbyEntryComplete
  /-- STANDBY_EXIT_COMPLETE (R478). -/
  | standbyExitComplete (tests : List DlTest)
  /-- REQUALIFY_COMPLETE (R414). -/
  | requalifyComplete (t : GwTrain)
  deriving DecidableEq, Repr

end Sys2Proof
end

