-- ==== Sys2Proof/Decode.lean ====
section
/-! DEFINITION. Reading a command from a word: no row of the opcode table has bits, so no word spells a command. -/

namespace Sys2Proof

/-- The command that a word of `nbits` bits spells by the table's bits: none, for the table gives no row bits. -/
def decodeTableWord (_nbits _w : Nat) : Option Instr := none

end Sys2Proof
end

