-- ==== Sys2Proof/Config.lean ====
section
/-! DEFINITION. What the spec leaves open, as constants without a body: nothing can be proved of their values, so a
statement holds whatever they are. -/

namespace Sys2Proof

/-- The n-th value that the spec leaves undefined (log entry 3): a command that meets an undefined value takes the next
one and advances the counter. -/
opaque Config.freeWord : Nat → Word

/-- The number in the job's group of the module that is the root of a seawall: R309 says that the chart makes one module
the root and gives a branch no way to name it (log entry 14). -/
opaque Config.rootModule : Nat → Nat

/-- The number in the job's group of the tide master: R56 says that the chart names it, and the tide record (R330) gives a follower
no field for it (log entry 14). -/
opaque Config.masterModule : Nat

/-- Which of the FP32 values within the error bound of R92 a special function gives: function code and operand bits to a
number that picks one (log entry 19). -/
opaque Config.specialPick : Nat → Nat → Nat

/-- What the spec states no result for in MAX, MIN and RMAX (a NaN operand, or +0 against −0) and in rsqrt(−0): operation and
operand bits to a number that picks the result (log entry 20). -/
opaque Config.openPick : Nat → Nat → Nat → Nat

/-- Whether SCALE rounds once, as FMA does, or rounds the product and the sum (log entry 21). -/
opaque Config.scaleFused : Bool

/-- Whether MERGE adds each product w × o with one rounding, or rounds the product and the sum (log entry 21). -/
opaque Config.mergeFused : Bool

/-- The vendor firmware key in the boot ROM (R423): modulus and exponent, which the spec does not give (log entry 80). -/
opaque Config.firmwareKey : Nat × Nat

/-- The vendor frank key in the boot ROM (R429). -/
opaque Config.frankKey : Nat × Nat

/-- The module's enrolment public key (R370): modulus and exponent. -/
opaque Config.enrolKey : Nat × Nat

/-- Unwrapping under the module's enrolment private key (R370): the 64-byte key, or none. -/
opaque Config.unwrapKey : List Byte → Option (List Byte)

/-- The device serial in the fuses (R436): 16 bytes as a little-endian number. -/
opaque Config.serial : Nat

/-- The steering that the fuse map holds for the vaults (R197): bank unit, bank, row and spare row of each row steered at
manufacture (log entry 9). -/
opaque Config.fuseSteer : List (Nat × Nat × Nat × Nat)

/-- What the powers of a cell and of its stack add to the coolant inlet temperature in a sounding (R494: R × P_cell + K × P_stack),
in 1/16 °C: round, cell, 0 = logic or 1 = layer 0. The firmware refines R and K in service, and the spec gives no values
(log entry 169). -/
opaque Config.heatRise : Nat → Nat → Nat → Nat

/-- How far a temperature approaches its steady state within h ms (R494: 1 − e^(−h/τ)), in 1/65536: round, cell, h. -/
opaque Config.approach : Nat → Nat → Nat → Nat

end Sys2Proof
end

