-- ==== Sys2Proof/Machine/Map.lean ====
section
/-! DEFINITION. Sparse stores in one canonical form: a list of (key, value) pairs with strictly rising keys and no entry
equal to what an unlisted key reads as. Every memory and every per-unit store of the state has this form, so equal
stores are equal lists. -/

namespace Sys2Proof.Machine

/-- A sparse store of values of type `α`. -/
abbrev Map (α : Type) := List (Nat × α)

/-- The value at key `k`; an unlisted key reads as `d k`. -/
def Map.get {α : Type} (d : Nat → α) (m : Map α) (k : Nat) : α :=
  match m with
  | [] => d k
  | (a, v) :: rest => if a = k then v else Map.get d rest k

/-- The store without key `k`. -/
def Map.erase {α : Type} (k : Nat) (m : Map α) : Map α :=
  match m with
  | [] => []
  | (a, v) :: rest => if a = k then Map.erase k rest else (a, v) :: Map.erase k rest

/-- The store with the pair placed before the first larger key. -/
def Map.place {α : Type} (k : Nat) (v : α) (m : Map α) : Map α :=
  match m with
  | [] => [(k, v)]
  | (a, w) :: rest => if k < a then (k, v) :: (a, w) :: rest else (a, w) :: Map.place k v rest

/-- The store with key `k` reading `v`: writing the value an unlisted key reads as removes the entry. -/
def Map.set {α : Type} [DecidableEq α] (d : Nat → α) (k : Nat) (v : α) (m : Map α) : Map α :=
  if v = d k then Map.erase k m else Map.place k v (Map.erase k m)

/-- The canonical form: strictly rising keys, every key at or above `lo`, no entry equal to its default. -/
def Map.wfFrom {α : Type} [DecidableEq α] (d : Nat → α) (lo : Nat) (m : Map α) : Bool :=
  match m with
  | [] => true
  | (a, v) :: rest => decide (lo ≤ a) && decide (v ≠ d a) && Map.wfFrom d (a + 1) rest

/-- The canonical form of a store. -/
def Map.wf {α : Type} [DecidableEq α] (d : Nat → α) (m : Map α) : Bool := Map.wfFrom d 0 m

/-- The store without the entries whose key and value satisfy `p`. -/
def Map.drop {α : Type} (p : Nat → Bool) (m : Map α) : Map α :=
  m.filter (fun e => !p e.1)

end Sys2Proof.Machine
end

