-- ==== Sys2Proof/Machine/Regs.lean ====
section
/-! DEFINITION. The register catalogue of the block, written from the register headings of the spec's chapters:
for every register a key function `R.<NAME>` (page and offset, R29) and for every field that is not `spare`
an accessor `R.<NAME>_<field>` (its key, lowest bit and width). Index arguments come in the order page
instance (cell, die and module, port, slice, controller, link) and then the indices of the offset. -/

namespace Sys2Proof.Machine

/-- A field of a register: the register's key, the field's lowest bit and its width. -/
structure Fld where
  key : Nat
  lo  : Nat
  w   : Nat
  deriving DecidableEq, Repr

/-- The key of the register at an offset of a page (R29): page q begins at q × 0x1_0000. -/
def rk (page off : Nat) : Nat := 0x10000 * page + off

namespace R

/-! Registers of 02_tide.md. -/

/-- TIDE_CTRL (R66). -/
def TIDE_CTRL : Nat := rk (0x1000) (0x0)
def TIDE_CTRL_run : Fld := ⟨TIDE_CTRL, 0, 1⟩
def TIDE_CTRL_role : Fld := ⟨TIDE_CTRL, 1, 2⟩
def TIDE_CTRL_policy : Fld := ⟨TIDE_CTRL, 3, 1⟩

/-- TIDE_STATUS (R66). -/
def TIDE_STATUS : Nat := rk (0x1000) (0x8)
def TIDE_STATUS_state : Fld := ⟨TIDE_STATUS, 0, 2⟩
def TIDE_STATUS_apply_armed : Fld := ⟨TIDE_STATUS, 2, 1⟩
def TIDE_STATUS_hold : Fld := ⟨TIDE_STATUS, 3, 1⟩
def TIDE_STATUS_halt_cause : Fld := ⟨TIDE_STATUS, 8, 8⟩
def TIDE_STATUS_cfg_status : Fld := ⟨TIDE_STATUS, 16, 8⟩
def TIDE_STATUS_missed_announces : Fld := ⟨TIDE_STATUS, 24, 8⟩

/-- TIDE_PERIOD (R66). -/
def TIDE_PERIOD : Nat := rk (0x1000) (0x10)
def TIDE_PERIOD_period_us : Fld := ⟨TIDE_PERIOD, 0, 16⟩
def TIDE_PERIOD_slack_us : Fld := ⟨TIDE_PERIOD, 16, 16⟩
def TIDE_PERIOD_cutoff_us : Fld := ⟨TIDE_PERIOD, 32, 16⟩

/-- TIDE_POLICY (R66). -/
def TIDE_POLICY : Nat := rk (0x1000) (0x18)
def TIDE_POLICY_stretch_max_us : Fld := ⟨TIDE_POLICY, 0, 16⟩
def TIDE_POLICY_shed_pct : Fld := ⟨TIDE_POLICY, 16, 7⟩

/-- TIDE_EDGE_NUM (R66). -/
def TIDE_EDGE_NUM : Nat := rk (0x1000) (0x20)
def TIDE_EDGE_NUM_edge : Fld := ⟨TIDE_EDGE_NUM, 0, 64⟩

/-- TIDE_EDGE_TIME (R66). -/
def TIDE_EDGE_TIME : Nat := rk (0x1000) (0x28)
def TIDE_EDGE_TIME_edge_ns : Fld := ⟨TIDE_EDGE_TIME, 0, 64⟩

/-- TIDE_NEXT_EDGE (R66). -/
def TIDE_NEXT_EDGE : Nat := rk (0x1000) (0x30)
def TIDE_NEXT_EDGE_next_ns : Fld := ⟨TIDE_NEXT_EDGE, 0, 64⟩

/-- TIDE_TIME (R66). -/
def TIDE_TIME : Nat := rk (0x1000) (0x38)
def TIDE_TIME_time_ns : Fld := ⟨TIDE_TIME, 0, 64⟩

/-- TIDE_COUNTS (R66). -/
def TIDE_COUNTS : Nat := rk (0x1000) (0x40)
def TIDE_COUNTS_overruns : Fld := ⟨TIDE_COUNTS, 0, 16⟩
def TIDE_COUNTS_stretches : Fld := ⟨TIDE_COUNTS, 16, 16⟩
def TIDE_COUNTS_sheds : Fld := ⟨TIDE_COUNTS, 32, 16⟩
def TIDE_COUNTS_holds : Fld := ⟨TIDE_COUNTS, 48, 16⟩

/-- TIDE_LAST_OVERRUN (R66). -/
def TIDE_LAST_OVERRUN : Nat := rk (0x1000) (0x48)
def TIDE_LAST_OVERRUN_district : Fld := ⟨TIDE_LAST_OVERRUN, 0, 7⟩
def TIDE_LAST_OVERRUN_lateness_us : Fld := ⟨TIDE_LAST_OVERRUN, 8, 24⟩
def TIDE_LAST_OVERRUN_edge_low : Fld := ⟨TIDE_LAST_OVERRUN, 32, 32⟩

/-- TIDE_SYNC (R66). -/
def TIDE_SYNC : Nat := rk (0x1000) (0x50)
def TIDE_SYNC_offset_ns : Fld := ⟨TIDE_SYNC, 0, 32⟩
def TIDE_SYNC_rtt_ns : Fld := ⟨TIDE_SYNC, 32, 16⟩

/-- TIDE_DONE_LO (R66). -/
def TIDE_DONE_LO : Nat := rk (0x1000) (0x60)
def TIDE_DONE_LO_done : Fld := ⟨TIDE_DONE_LO, 0, 64⟩

/-- TIDE_DONE_HI (R66). -/
def TIDE_DONE_HI : Nat := rk (0x1000) (0x68)
def TIDE_DONE_HI_done : Fld := ⟨TIDE_DONE_HI, 0, 64⟩

/-- TIDE_ACTIVE_LO (R66). -/
def TIDE_ACTIVE_LO : Nat := rk (0x1000) (0x70)
def TIDE_ACTIVE_LO_active : Fld := ⟨TIDE_ACTIVE_LO, 0, 64⟩

/-- TIDE_ACTIVE_HI (R66). -/
def TIDE_ACTIVE_HI : Nat := rk (0x1000) (0x78)
def TIDE_ACTIVE_HI_active : Fld := ⟨TIDE_ACTIVE_HI, 0, 64⟩

/-- QUE_ROUTE_OUT_CFG (R66). -/
def QUE_ROUTE_OUT_CFG (c r : Nat) : Nat := rk (c * 16 + 5) (0x8000 + r * 0x20)
def QUE_ROUTE_OUT_CFG_dest_cell (c r : Nat) : Fld := ⟨QUE_ROUTE_OUT_CFG c r, 0, 7⟩
def QUE_ROUTE_OUT_CFG_valid (c r : Nat) : Fld := ⟨QUE_ROUTE_OUT_CFG c r, 7, 1⟩
def QUE_ROUTE_OUT_CFG_ring_base (c r : Nat) : Fld := ⟨QUE_ROUTE_OUT_CFG c r, 8, 10⟩
def QUE_ROUTE_OUT_CFG_granule_log2 (c r : Nat) : Fld := ⟨QUE_ROUTE_OUT_CFG c r, 19, 5⟩
def QUE_ROUTE_OUT_CFG_credits (c r : Nat) : Fld := ⟨QUE_ROUTE_OUT_CFG c r, 24, 9⟩

/-- QUE_ROUTE_OUT_STATE (R66). -/
def QUE_ROUTE_OUT_STATE (c r : Nat) : Nat := rk (c * 16 + 5) (0x8008 + r * 0x20)
def QUE_ROUTE_OUT_STATE_credits_avail (c r : Nat) : Fld := ⟨QUE_ROUTE_OUT_STATE c r, 0, 9⟩
def QUE_ROUTE_OUT_STATE_segs_in_flight (c r : Nat) : Fld := ⟨QUE_ROUTE_OUT_STATE c r, 9, 9⟩
def QUE_ROUTE_OUT_STATE_broken (c r : Nat) : Fld := ⟨QUE_ROUTE_OUT_STATE c r, 18, 1⟩
def QUE_ROUTE_OUT_STATE_last_status (c r : Nat) : Fld := ⟨QUE_ROUTE_OUT_STATE c r, 24, 8⟩

/-- QUE_ROUTE_OUT_SEGS (R66). -/
def QUE_ROUTE_OUT_SEGS (c r : Nat) : Nat := rk (c * 16 + 5) (0x8010 + r * 0x20)
def QUE_ROUTE_OUT_SEGS_segments_sent (c r : Nat) : Fld := ⟨QUE_ROUTE_OUT_SEGS c r, 0, 48⟩

/-- QUE_ROUTE_OUT_STALL (R66). -/
def QUE_ROUTE_OUT_STALL (c r : Nat) : Nat := rk (c * 16 + 5) (0x8018 + r * 0x20)
def QUE_ROUTE_OUT_STALL_no_credit_ck (c r : Nat) : Fld := ⟨QUE_ROUTE_OUT_STALL c r, 0, 48⟩

/-- QUE_ROUTE_IN_CFG (R66). -/
def QUE_ROUTE_IN_CFG (c r : Nat) : Nat := rk (c * 16 + 5) (0x9000 + r * 0x20)
def QUE_ROUTE_IN_CFG_src_cell (c r : Nat) : Fld := ⟨QUE_ROUTE_IN_CFG c r, 0, 7⟩
def QUE_ROUTE_IN_CFG_valid (c r : Nat) : Fld := ⟨QUE_ROUTE_IN_CFG c r, 7, 1⟩
def QUE_ROUTE_IN_CFG_ring_base (c r : Nat) : Fld := ⟨QUE_ROUTE_IN_CFG c r, 8, 10⟩
def QUE_ROUTE_IN_CFG_granule_log2 (c r : Nat) : Fld := ⟨QUE_ROUTE_IN_CFG c r, 19, 5⟩
def QUE_ROUTE_IN_CFG_credits (c r : Nat) : Fld := ⟨QUE_ROUTE_IN_CFG c r, 24, 9⟩

/-- QUE_ROUTE_IN_STATE (R66). -/
def QUE_ROUTE_IN_STATE (c r : Nat) : Nat := rk (c * 16 + 5) (0x9008 + r * 0x20)
def QUE_ROUTE_IN_STATE_slots_held (c r : Nat) : Fld := ⟨QUE_ROUTE_IN_STATE c r, 0, 9⟩
def QUE_ROUTE_IN_STATE_segments_received (c r : Nat) : Fld := ⟨QUE_ROUTE_IN_STATE c r, 9, 48⟩

/-- QUE_LIMITS (R66). -/
def QUE_LIMITS (c : Nat) : Nat := rk (c * 16 + 5) (0xa000)
def QUE_LIMITS_desc_max (c : Nat) : Fld := ⟨QUE_LIMITS c, 0, 9⟩
def QUE_LIMITS_desc_outstanding (c : Nat) : Fld := ⟨QUE_LIMITS c, 9, 9⟩

/-! Registers of 03_numerics.md. -/

/-- CELL_ROUND (R83). -/
def CELL_ROUND (c : Nat) : Nat := rk (c * 16 + 0) (0x100)
def CELL_ROUND_feed_cast (c : Nat) : Fld := ⟨CELL_ROUND c, 0, 2⟩
def CELL_ROUND_drn_acc (c : Nat) : Fld := ⟨CELL_ROUND c, 2, 2⟩
def CELL_ROUND_drn_scale (c : Nat) : Fld := ⟨CELL_ROUND c, 4, 2⟩
def CELL_ROUND_drn_out (c : Nat) : Fld := ⟨CELL_ROUND c, 6, 2⟩
def CELL_ROUND_vec_arith (c : Nat) : Fld := ⟨CELL_ROUND c, 8, 2⟩
def CELL_ROUND_vec_out (c : Nat) : Fld := ⟨CELL_ROUND c, 10, 2⟩
def CELL_ROUND_vec_code (c : Nat) : Fld := ⟨CELL_ROUND c, 12, 2⟩
def CELL_ROUND_bu_acc (c : Nat) : Fld := ⟨CELL_ROUND c, 14, 2⟩
def CELL_ROUND_bu_out (c : Nat) : Fld := ⟨CELL_ROUND c, 16, 2⟩

/-- CELL_NUM_EVENTS (R84). -/
def CELL_NUM_EVENTS (c : Nat) : Nat := rk (c * 16 + 0) (0x108)
def CELL_NUM_EVENTS_saturations (c : Nat) : Fld := ⟨CELL_NUM_EVENTS c, 0, 16⟩
def CELL_NUM_EVENTS_infinities (c : Nat) : Fld := ⟨CELL_NUM_EVENTS c, 16, 16⟩
def CELL_NUM_EVENTS_nans (c : Nat) : Fld := ⟨CELL_NUM_EVENTS c, 32, 16⟩
def CELL_NUM_EVENTS_nan_to_zero (c : Nat) : Fld := ⟨CELL_NUM_EVENTS c, 48, 16⟩

/-! Registers of 04_matrix_array.md. -/

/-- FEED_CTRL (R129). -/
def FEED_CTRL (c : Nat) : Nat := rk (c * 16 + 2) (0x0)
def FEED_CTRL_enable (c : Nat) : Fld := ⟨FEED_CTRL c, 0, 1⟩
def FEED_CTRL_abort (c : Nat) : Fld := ⟨FEED_CTRL c, 1, 1⟩
def FEED_CTRL_halt_on_poison (c : Nat) : Fld := ⟨FEED_CTRL c, 2, 1⟩

/-- FEED_STATUS (R129). -/
def FEED_STATUS (c : Nat) : Nat := rk (c * 16 + 2) (0x8)
def FEED_STATUS_queued (c : Nat) : Fld := ⟨FEED_STATUS c, 0, 6⟩
def FEED_STATUS_slots_used (c : Nat) : Fld := ⟨FEED_STATUS c, 6, 6⟩
def FEED_STATUS_state (c : Nat) : Fld := ⟨FEED_STATUS c, 12, 2⟩
def FEED_STATUS_last_status (c : Nat) : Fld := ⟨FEED_STATUS c, 16, 8⟩

/-- FEED_ISSUE (R129). -/
def FEED_ISSUE (c : Nat) : Nat := rk (c * 16 + 2) (0x10)
def FEED_ISSUE_desc_off (c : Nat) : Fld := ⟨FEED_ISSUE c, 6, 16⟩

/-- FEED_PASS_COUNT (R129). -/
def FEED_PASS_COUNT (c : Nat) : Nat := rk (c * 16 + 2) (0x18)
def FEED_PASS_COUNT_passes (c : Nat) : Fld := ⟨FEED_PASS_COUNT c, 0, 48⟩

/-- FEED_CK_FED (R129). -/
def FEED_CK_FED (c : Nat) : Nat := rk (c * 16 + 2) (0x40)
def FEED_CK_FED_count (c : Nat) : Fld := ⟨FEED_CK_FED c, 0, 48⟩

/-- FEED_CK_FLUSH (R129). -/
def FEED_CK_FLUSH (c : Nat) : Nat := rk (c * 16 + 2) (0x48)
def FEED_CK_FLUSH_count (c : Nat) : Fld := ⟨FEED_CK_FLUSH c, 0, 48⟩

/-- FEED_CK_IDLE (R129). -/
def FEED_CK_IDLE (c : Nat) : Nat := rk (c * 16 + 2) (0x50)
def FEED_CK_IDLE_count (c : Nat) : Fld := ⟨FEED_CK_IDLE c, 0, 48⟩

/-- FEED_FRZ_WGT (R129). -/
def FEED_FRZ_WGT (c : Nat) : Nat := rk (c * 16 + 2) (0x58)
def FEED_FRZ_WGT_count (c : Nat) : Fld := ⟨FEED_FRZ_WGT c, 0, 48⟩

/-- FEED_FRZ_ACT (R129). -/
def FEED_FRZ_ACT (c : Nat) : Nat := rk (c * 16 + 2) (0x60)
def FEED_FRZ_ACT_count (c : Nat) : Fld := ⟨FEED_FRZ_ACT c, 0, 48⟩

/-- FEED_ROWS_FED (R129). -/
def FEED_ROWS_FED (c : Nat) : Nat := rk (c * 16 + 2) (0x68)
def FEED_ROWS_FED_count (c : Nat) : Fld := ⟨FEED_ROWS_FED c, 0, 48⟩

/-- FEED_ROWS_MASKED (R129). -/
def FEED_ROWS_MASKED (c : Nat) : Nat := rk (c * 16 + 2) (0x70)
def FEED_ROWS_MASKED_count (c : Nat) : Fld := ⟨FEED_ROWS_MASKED c, 0, 48⟩

/-- FEED_PASS_SKIPPED (R129). -/
def FEED_PASS_SKIPPED (c : Nat) : Nat := rk (c * 16 + 2) (0x78)
def FEED_PASS_SKIPPED_count (c : Nat) : Fld := ⟨FEED_PASS_SKIPPED c, 0, 48⟩

/-- FEED_LAST_FAULT (R129). -/
def FEED_LAST_FAULT (c : Nat) : Nat := rk (c * 16 + 2) (0x80)
def FEED_LAST_FAULT_fault_addr (c : Nat) : Fld := ⟨FEED_LAST_FAULT c, 0, 48⟩
def FEED_LAST_FAULT_status (c : Nat) : Fld := ⟨FEED_LAST_FAULT c, 48, 8⟩
def FEED_LAST_FAULT_thread (c : Nat) : Fld := ⟨FEED_LAST_FAULT c, 56, 4⟩
def FEED_LAST_FAULT_via_issue (c : Nat) : Fld := ⟨FEED_LAST_FAULT c, 60, 1⟩

/-- DRN_STATUS (R129). -/
def DRN_STATUS (c : Nat) : Nat := rk (c * 16 + 3) (0x0)
def DRN_STATUS_out_credits (c : Nat) : Fld := ⟨DRN_STATUS c, 0, 6⟩
def DRN_STATUS_last_status (c : Nat) : Fld := ⟨DRN_STATUS c, 8, 8⟩

/-- DRN_FRZ_FULL (R129). -/
def DRN_FRZ_FULL (c : Nat) : Nat := rk (c * 16 + 3) (0x40)
def DRN_FRZ_FULL_count (c : Nat) : Fld := ⟨DRN_FRZ_FULL c, 0, 48⟩

/-- DRN_ROWS_OUT (R129). -/
def DRN_ROWS_OUT (c : Nat) : Nat := rk (c * 16 + 3) (0x48)
def DRN_ROWS_OUT_count (c : Nat) : Fld := ⟨DRN_ROWS_OUT c, 0, 48⟩

/-- DRN_POISON (R129). -/
def DRN_POISON (c : Nat) : Nat := rk (c * 16 + 3) (0x50)
def DRN_POISON_poisoned_passes (c : Nat) : Fld := ⟨DRN_POISON c, 0, 16⟩
def DRN_POISON_first_acc_row (c : Nat) : Fld := ⟨DRN_POISON c, 16, 10⟩
def DRN_POISON_thread (c : Nat) : Fld := ⟨DRN_POISON c, 26, 4⟩
def DRN_POISON_pass_num (c : Nat) : Fld := ⟨DRN_POISON c, 30, 34⟩

/-! Registers of 05_sparsity.md. -/

/-- FEED_SP_CTRL (R151). -/
def FEED_SP_CTRL (c : Nat) : Nat := rk (c * 16 + 2) (0x100)
def FEED_SP_CTRL_merge_en (c : Nat) : Fld := ⟨FEED_SP_CTRL c, 0, 1⟩
def FEED_SP_CTRL_max_run (c : Nat) : Fld := ⟨FEED_SP_CTRL c, 1, 5⟩

/-- FEED_SP_GRP_SCANNED (R151). -/
def FEED_SP_GRP_SCANNED (c : Nat) : Nat := rk (c * 16 + 2) (0x108)
def FEED_SP_GRP_SCANNED_count (c : Nat) : Fld := ⟨FEED_SP_GRP_SCANNED c, 0, 48⟩

/-- FEED_SP_GRP_SKIPPED (R151). -/
def FEED_SP_GRP_SKIPPED (c : Nat) : Nat := rk (c * 16 + 2) (0x110)
def FEED_SP_GRP_SKIPPED_count (c : Nat) : Fld := ⟨FEED_SP_GRP_SKIPPED c, 0, 48⟩

/-- FEED_SP_PASS_MERGED (R151). -/
def FEED_SP_PASS_MERGED (c : Nat) : Nat := rk (c * 16 + 2) (0x118)
def FEED_SP_PASS_MERGED_count (c : Nat) : Fld := ⟨FEED_SP_PASS_MERGED c, 0, 48⟩

/-- FEED_SP_BLK_ABSENT (R151). -/
def FEED_SP_BLK_ABSENT (c : Nat) : Nat := rk (c * 16 + 2) (0x120)
def FEED_SP_BLK_ABSENT_count (c : Nat) : Fld := ⟨FEED_SP_BLK_ABSENT c, 0, 48⟩

/-- FEED_SP_BYTES_SAVED (R151). -/
def FEED_SP_BYTES_SAVED (c : Nat) : Nat := rk (c * 16 + 2) (0x128)
def FEED_SP_BYTES_SAVED_count (c : Nat) : Fld := ⟨FEED_SP_BYTES_SAVED c, 0, 48⟩

/-- FEED_SP_SCAN_CK (R151). -/
def FEED_SP_SCAN_CK (c : Nat) : Nat := rk (c * 16 + 2) (0x130)
def FEED_SP_SCAN_CK_count (c : Nat) : Fld := ⟨FEED_SP_SCAN_CK c, 0, 48⟩

/-- FEED_SP24_PASSES (R151). -/
def FEED_SP24_PASSES (c : Nat) : Nat := rk (c * 16 + 2) (0x138)
def FEED_SP24_PASSES_count (c : Nat) : Fld := ⟨FEED_SP24_PASSES c, 0, 48⟩

/-! Registers of 06_cell.md. -/

/-- CELL_STATUS (R180). -/
def CELL_STATUS (c : Nat) : Nat := rk (c * 16 + 0) (0x0)
def CELL_STATUS_retired (c : Nat) : Fld := ⟨CELL_STATUS c, 0, 1⟩
def CELL_STATUS_idle (c : Nat) : Fld := ⟨CELL_STATUS c, 1, 1⟩
def CELL_STATUS_selftest_ok (c : Nat) : Fld := ⟨CELL_STATUS c, 2, 1⟩

/-- CELL_BANK_OWN (R180). -/
def CELL_BANK_OWN (c i : Nat) : Nat := rk (c * 16 + 0) (0x10 + i * 0x8)
def CELL_BANK_OWN_own_0 (c i : Nat) : Fld := ⟨CELL_BANK_OWN c i, 0, 16⟩
def CELL_BANK_OWN_own_1 (c i : Nat) : Fld := ⟨CELL_BANK_OWN c i, 16, 16⟩
def CELL_BANK_OWN_own_2 (c i : Nat) : Fld := ⟨CELL_BANK_OWN c i, 32, 16⟩
def CELL_BANK_OWN_own_3 (c i : Nat) : Fld := ⟨CELL_BANK_OWN c i, 48, 16⟩

/-- CELL_COLLISION (R180). -/
def CELL_COLLISION (c : Nat) : Nat := rk (c * 16 + 0) (0x40)
def CELL_COLLISION_count (c : Nat) : Fld := ⟨CELL_COLLISION c, 0, 32⟩
def CELL_COLLISION_last_bank (c : Nat) : Fld := ⟨CELL_COLLISION c, 32, 5⟩
def CELL_COLLISION_last_word (c : Nat) : Fld := ⟨CELL_COLLISION c, 37, 16⟩
def CELL_COLLISION_last_class (c : Nat) : Fld := ⟨CELL_COLLISION c, 53, 4⟩

/-- CELL_OWN_FAULT (R180). -/
def CELL_OWN_FAULT (c : Nat) : Nat := rk (c * 16 + 0) (0x48)
def CELL_OWN_FAULT_count (c : Nat) : Fld := ⟨CELL_OWN_FAULT c, 0, 32⟩
def CELL_OWN_FAULT_last_bank (c : Nat) : Fld := ⟨CELL_OWN_FAULT c, 32, 5⟩
def CELL_OWN_FAULT_last_class (c : Nat) : Fld := ⟨CELL_OWN_FAULT c, 37, 4⟩

/-- CELL_ECC (R180). -/
def CELL_ECC (c : Nat) : Nat := rk (c * 16 + 0) (0x50)
def CELL_ECC_gen_corr (c : Nat) : Fld := ⟨CELL_ECC c, 0, 12⟩
def CELL_ECC_acc_corr (c : Nat) : Fld := ⟨CELL_ECC c, 12, 12⟩
def CELL_ECC_cb_corr (c : Nat) : Fld := ⟨CELL_ECC c, 24, 12⟩
def CELL_ECC_uncorrectable (c : Nat) : Fld := ⟨CELL_ECC c, 36, 12⟩
def CELL_ECC_last_bank (c : Nat) : Fld := ⟨CELL_ECC c, 48, 5⟩

/-- SEQ_THR_CFG (R181). -/
def SEQ_THR_CFG (c t : Nat) : Nat := rk (c * 16 + 1) (0x0 + t * 0x40)
def SEQ_THR_CFG_active (c t : Nat) : Fld := ⟨SEQ_THR_CFG c t, 0, 1⟩
def SEQ_THR_CFG_group (c t : Nat) : Fld := ⟨SEQ_THR_CFG c t, 1, 2⟩
def SEQ_THR_CFG_head_pc (c t : Nat) : Fld := ⟨SEQ_THR_CFG c t, 3, 45⟩

/-- SEQ_THR_CTRL (R181). -/
def SEQ_THR_CTRL (c t : Nat) : Nat := rk (c * 16 + 1) (0x8 + t * 0x40)
def SEQ_THR_CTRL_halt (c t : Nat) : Fld := ⟨SEQ_THR_CTRL c t, 0, 1⟩
def SEQ_THR_CTRL_resume (c t : Nat) : Fld := ⟨SEQ_THR_CTRL c t, 1, 1⟩
def SEQ_THR_CTRL_kill (c t : Nat) : Fld := ⟨SEQ_THR_CTRL c t, 2, 1⟩

/-- SEQ_THR_STATUS (R181). -/
def SEQ_THR_STATUS (c t : Nat) : Nat := rk (c * 16 + 1) (0x10 + t * 0x40)
def SEQ_THR_STATUS_state (c t : Nat) : Fld := ⟨SEQ_THR_STATUS c t, 0, 3⟩
def SEQ_THR_STATUS_section (c t : Nat) : Fld := ⟨SEQ_THR_STATUS c t, 3, 2⟩
def SEQ_THR_STATUS_trap_cause (c t : Nat) : Fld := ⟨SEQ_THR_STATUS c t, 8, 8⟩
def SEQ_THR_STATUS_trap_status (c t : Nat) : Fld := ⟨SEQ_THR_STATUS c t, 16, 8⟩
def SEQ_THR_STATUS_trap_imm (c t : Nat) : Fld := ⟨SEQ_THR_STATUS c t, 24, 8⟩

/-- SEQ_THR_PC (R181). -/
def SEQ_THR_PC (c t : Nat) : Nat := rk (c * 16 + 1) (0x18 + t * 0x40)
def SEQ_THR_PC_pc (c t : Nat) : Fld := ⟨SEQ_THR_PC c t, 0, 48⟩

/-- SEQ_THR_FAULT (R181). -/
def SEQ_THR_FAULT (c t : Nat) : Nat := rk (c * 16 + 1) (0x20 + t * 0x40)
def SEQ_THR_FAULT_addr (c t : Nat) : Fld := ⟨SEQ_THR_FAULT c t, 0, 48⟩

/-- SEQ_THR_NEXT (R181). -/
def SEQ_THR_NEXT (c t : Nat) : Nat := rk (c * 16 + 1) (0x28 + t * 0x40)
def SEQ_THR_NEXT_next_pc (c t : Nat) : Fld := ⟨SEQ_THR_NEXT c t, 0, 48⟩

/-- SEQ_ICACHE (R181). -/
def SEQ_ICACHE (c : Nat) : Nat := rk (c * 16 + 1) (0x2000)
def SEQ_ICACHE_invalidate (c : Nat) : Fld := ⟨SEQ_ICACHE c, 0, 1⟩
def SEQ_ICACHE_corrected (c : Nat) : Fld := ⟨SEQ_ICACHE c, 16, 16⟩
def SEQ_ICACHE_misses (c : Nat) : Fld := ⟨SEQ_ICACHE c, 32, 32⟩

/-- VEC_STATUS (R181). -/
def VEC_STATUS (c : Nat) : Nat := rk (c * 16 + 4) (0x0)
def VEC_STATUS_queued (c : Nat) : Fld := ⟨VEC_STATUS c, 0, 5⟩
def VEC_STATUS_busy (c : Nat) : Fld := ⟨VEC_STATUS c, 5, 1⟩
def VEC_STATUS_last_status (c : Nat) : Fld := ⟨VEC_STATUS c, 8, 8⟩
def VEC_STATUS_last_thread (c : Nat) : Fld := ⟨VEC_STATUS c, 16, 4⟩

/-- VEC_OPS (R181). -/
def VEC_OPS (c : Nat) : Nat := rk (c * 16 + 4) (0x8)
def VEC_OPS_count (c : Nat) : Fld := ⟨VEC_OPS c, 0, 48⟩

/-- VEC_BUSY_CK (R181). -/
def VEC_BUSY_CK (c : Nat) : Nat := rk (c * 16 + 4) (0x10)
def VEC_BUSY_CK_count (c : Nat) : Fld := ⟨VEC_BUSY_CK c, 0, 48⟩

/-- QUE_CH_CTRL (R181). -/
def QUE_CH_CTRL (c k : Nat) : Nat := rk (c * 16 + 5) (0x0 + k * 0x100)
def QUE_CH_CTRL_pause (c k : Nat) : Fld := ⟨QUE_CH_CTRL c k, 0, 1⟩
def QUE_CH_CTRL_resume (c k : Nat) : Fld := ⟨QUE_CH_CTRL c k, 1, 1⟩
def QUE_CH_CTRL_skip (c k : Nat) : Fld := ⟨QUE_CH_CTRL c k, 2, 1⟩
def QUE_CH_CTRL_flush (c k : Nat) : Fld := ⟨QUE_CH_CTRL c k, 3, 1⟩

/-- QUE_CH_STATUS (R181). -/
def QUE_CH_STATUS (c k : Nat) : Nat := rk (c * 16 + 5) (0x8 + k * 0x100)
def QUE_CH_STATUS_state (c k : Nat) : Fld := ⟨QUE_CH_STATUS c k, 0, 2⟩
def QUE_CH_STATUS_queued (c k : Nat) : Fld := ⟨QUE_CH_STATUS c k, 2, 7⟩
def QUE_CH_STATUS_halt_cause (c k : Nat) : Fld := ⟨QUE_CH_STATUS c k, 16, 8⟩
def QUE_CH_STATUS_last_status (c k : Nat) : Fld := ⟨QUE_CH_STATUS c k, 24, 8⟩

/-- QUE_CH_PROGRESS (R181). -/
def QUE_CH_PROGRESS (c k : Nat) : Nat := rk (c * 16 + 5) (0x10 + k * 0x100)
def QUE_CH_PROGRESS_bytes_done (c k : Nat) : Fld := ⟨QUE_CH_PROGRESS c k, 0, 33⟩

/-- QUE_CH_FAULT (R181). -/
def QUE_CH_FAULT (c k : Nat) : Nat := rk (c * 16 + 5) (0x18 + k * 0x100)
def QUE_CH_FAULT_fault_addr (c k : Nat) : Fld := ⟨QUE_CH_FAULT c k, 0, 48⟩
def QUE_CH_FAULT_status (c k : Nat) : Fld := ⟨QUE_CH_FAULT c k, 48, 8⟩
def QUE_CH_FAULT_thread (c k : Nat) : Fld := ⟨QUE_CH_FAULT c k, 56, 4⟩
def QUE_CH_FAULT_via_submit (c k : Nat) : Fld := ⟨QUE_CH_FAULT c k, 60, 1⟩

/-- QUE_CH_SUBMIT (R181). -/
def QUE_CH_SUBMIT (c k : Nat) : Nat := rk (c * 16 + 5) (0x20 + k * 0x100)
def QUE_CH_SUBMIT_desc_off (c k : Nat) : Fld := ⟨QUE_CH_SUBMIT c k, 6, 16⟩

/-- QUE_CH_DONE (R181). -/
def QUE_CH_DONE (c k : Nat) : Nat := rk (c * 16 + 5) (0x28 + k * 0x100)
def QUE_CH_DONE_completed (c k : Nat) : Fld := ⟨QUE_CH_DONE c k, 0, 48⟩

/-! Registers of 07_vaults.md. -/

/-- VLT_BAND (R202). -/
def VLT_BAND (c : Nat) : Nat := rk (c * 16 + 8) (0x0)
def VLT_BAND_band (c : Nat) : Fld := ⟨VLT_BAND c, 0, 2⟩
def VLT_BAND_timing_ext (c : Nat) : Fld := ⟨VLT_BAND c, 2, 1⟩
def VLT_BAND_forced_worst (c : Nat) : Fld := ⟨VLT_BAND c, 3, 1⟩
def VLT_BAND_t_used (c : Nat) : Fld := ⟨VLT_BAND c, 8, 8⟩
def VLT_BAND_t_layer0 (c : Nat) : Fld := ⟨VLT_BAND c, 16, 8⟩
def VLT_BAND_t_layer1 (c : Nat) : Fld := ⟨VLT_BAND c, 24, 8⟩
def VLT_BAND_t_layer2 (c : Nat) : Fld := ⟨VLT_BAND c, 32, 8⟩
def VLT_BAND_t_layer3 (c : Nat) : Fld := ⟨VLT_BAND c, 40, 8⟩
def VLT_BAND_band_rises (c : Nat) : Fld := ⟨VLT_BAND c, 48, 16⟩

/-- VLT_REMAP_CFG (R202). -/
def VLT_REMAP_CFG (c : Nat) : Nat := rk (c * 16 + 8) (0x10)
def VLT_REMAP_CFG_enable (c : Nat) : Fld := ⟨VLT_REMAP_CFG c, 0, 1⟩
def VLT_REMAP_CFG_row_threshold (c : Nat) : Fld := ⟨VLT_REMAP_CFG c, 1, 8⟩
def VLT_REMAP_CFG_window_ms (c : Nat) : Fld := ⟨VLT_REMAP_CFG c, 9, 16⟩

/-- VLT_REMAP_STATUS (R202). -/
def VLT_REMAP_STATUS (c : Nat) : Nat := rk (c * 16 + 8) (0x18)
def VLT_REMAP_STATUS_cam_used (c : Nat) : Fld := ⟨VLT_REMAP_STATUS c, 0, 56⟩
def VLT_REMAP_STATUS_min_spares (c : Nat) : Fld := ⟨VLT_REMAP_STATUS c, 56, 5⟩

/-- VLT_ECC_CNT (R202). -/
def VLT_ECC_CNT (c p : Nat) : Nat := rk (c * 16 + 8) (0x100 + p * 0x20)
def VLT_ECC_CNT_single (c p : Nat) : Fld := ⟨VLT_ECC_CNT c p, 0, 16⟩
def VLT_ECC_CNT_double (c p : Nat) : Fld := ⟨VLT_ECC_CNT c p, 16, 16⟩
def VLT_ECC_CNT_uncorrectable (c p : Nat) : Fld := ⟨VLT_ECC_CNT c p, 32, 16⟩

/-- VLT_ECC_LAST (R202). -/
def VLT_ECC_LAST (c p : Nat) : Nat := rk (c * 16 + 8) (0x108 + p * 0x20)
def VLT_ECC_LAST_addr (c p : Nat) : Fld := ⟨VLT_ECC_LAST c p, 0, 48⟩
def VLT_ECC_LAST_kind (c p : Nat) : Fld := ⟨VLT_ECC_LAST c p, 48, 2⟩

/-- VLT_RMW_CNT (R202). -/
def VLT_RMW_CNT (c p : Nat) : Nat := rk (c * 16 + 8) (0x110 + p * 0x20)
def VLT_RMW_CNT_narrow_writes (c p : Nat) : Fld := ⟨VLT_RMW_CNT c p, 0, 48⟩

/-- VLT_SCRUB_BASE (R202). -/
def VLT_SCRUB_BASE (c : Nat) : Nat := rk (c * 16 + 8) (0x200)
def VLT_SCRUB_BASE_addr (c : Nat) : Fld := ⟨VLT_SCRUB_BASE c, 0, 48⟩

/-- VLT_SCRUB_LIMIT (R202). -/
def VLT_SCRUB_LIMIT (c : Nat) : Nat := rk (c * 16 + 8) (0x208)
def VLT_SCRUB_LIMIT_addr (c : Nat) : Fld := ⟨VLT_SCRUB_LIMIT c, 0, 48⟩

/-- VLT_SCRUB_CTRL (R202). -/
def VLT_SCRUB_CTRL (c : Nat) : Nat := rk (c * 16 + 8) (0x210)
def VLT_SCRUB_CTRL_start (c : Nat) : Fld := ⟨VLT_SCRUB_CTRL c, 0, 1⟩
def VLT_SCRUB_CTRL_abort (c : Nat) : Fld := ⟨VLT_SCRUB_CTRL c, 1, 1⟩
def VLT_SCRUB_CTRL_share (c : Nat) : Fld := ⟨VLT_SCRUB_CTRL c, 2, 5⟩
def VLT_SCRUB_CTRL_write_back (c : Nat) : Fld := ⟨VLT_SCRUB_CTRL c, 7, 1⟩
def VLT_SCRUB_CTRL_busy (c : Nat) : Fld := ⟨VLT_SCRUB_CTRL c, 8, 1⟩
def VLT_SCRUB_CTRL_last_status (c : Nat) : Fld := ⟨VLT_SCRUB_CTRL c, 16, 8⟩

/-- VLT_SCRUB_RECADDR (R202). -/
def VLT_SCRUB_RECADDR (c : Nat) : Nat := rk (c * 16 + 8) (0x218)
def VLT_SCRUB_RECADDR_addr (c : Nat) : Fld := ⟨VLT_SCRUB_RECADDR c, 0, 48⟩

/-- VLT_SCRUB_REC (R202). -/
def VLT_SCRUB_REC (c i : Nat) : Nat := rk (c * 16 + 8) (0x220 + i * 0x8)
def VLT_SCRUB_REC_rec (c i : Nat) : Fld := ⟨VLT_SCRUB_REC c i, 0, 64⟩

/-- VLT_DIAG_BASE (R202). -/
def VLT_DIAG_BASE (c : Nat) : Nat := rk (c * 16 + 8) (0x300)
def VLT_DIAG_BASE_lock (c : Nat) : Fld := ⟨VLT_DIAG_BASE c, 0, 1⟩
def VLT_DIAG_BASE_lock_ok (c : Nat) : Fld := ⟨VLT_DIAG_BASE c, 1, 1⟩
def VLT_DIAG_BASE_base (c : Nat) : Fld := ⟨VLT_DIAG_BASE c, 6, 42⟩

/-- VLT_DIAG_LIMIT (R202). -/
def VLT_DIAG_LIMIT (c : Nat) : Nat := rk (c * 16 + 8) (0x308)
def VLT_DIAG_LIMIT_limit (c : Nat) : Fld := ⟨VLT_DIAG_LIMIT c, 0, 48⟩

/-- VLT_DIAG_ADDR (R202). -/
def VLT_DIAG_ADDR (c : Nat) : Nat := rk (c * 16 + 8) (0x310)
def VLT_DIAG_ADDR_low (c : Nat) : Fld := ⟨VLT_DIAG_ADDR c, 0, 3⟩
def VLT_DIAG_ADDR_word (c : Nat) : Fld := ⟨VLT_DIAG_ADDR c, 3, 45⟩

/-- VLT_DIAG_DATA (R202). -/
def VLT_DIAG_DATA (c : Nat) : Nat := rk (c * 16 + 8) (0x318)
def VLT_DIAG_DATA_data (c : Nat) : Fld := ⟨VLT_DIAG_DATA c, 0, 64⟩

/-- VLT_DIAG_CHECK (R202). -/
def VLT_DIAG_CHECK (c : Nat) : Nat := rk (c * 16 + 8) (0x320)
def VLT_DIAG_CHECK_check (c : Nat) : Fld := ⟨VLT_DIAG_CHECK c, 0, 16⟩
def VLT_DIAG_CHECK_raw_write (c : Nat) : Fld := ⟨VLT_DIAG_CHECK c, 16, 1⟩
def VLT_DIAG_CHECK_raw_read (c : Nat) : Fld := ⟨VLT_DIAG_CHECK c, 17, 1⟩
def VLT_DIAG_CHECK_status (c : Nat) : Fld := ⟨VLT_DIAG_CHECK c, 24, 8⟩

/-- VLT_REMAP_CAM (R202). -/
def VLT_REMAP_CAM (c p e : Nat) : Nat := rk (c * 16 + 8) (0x1000 + p * 0x200 + e * 0x8)
def VLT_REMAP_CAM_valid (c p e : Nat) : Fld := ⟨VLT_REMAP_CAM c p e, 0, 1⟩
def VLT_REMAP_CAM_bank (c p e : Nat) : Fld := ⟨VLT_REMAP_CAM c p e, 1, 4⟩
def VLT_REMAP_CAM_row (c p e : Nat) : Fld := ⟨VLT_REMAP_CAM c p e, 5, 12⟩
def VLT_REMAP_CAM_spare_row (c p e : Nat) : Fld := ⟨VLT_REMAP_CAM c p e, 17, 5⟩

/-! Registers of 08_bank_units.md. -/

/-- BU_CTRL (R232). -/
def BU_CTRL (c p : Nat) : Nat := rk (c * 16 + 9) (0x0 + p * 0x1000)
def BU_CTRL_clear_fault (c p : Nat) : Fld := ⟨BU_CTRL c p, 0, 1⟩
def BU_CTRL_abort (c p : Nat) : Fld := ⟨BU_CTRL c p, 1, 1⟩
def BU_CTRL_snoop_mask (c p : Nat) : Fld := ⟨BU_CTRL c p, 2, 4⟩

/-- BU_STATUS (R232). -/
def BU_STATUS (c p : Nat) : Nat := rk (c * 16 + 9) (0x8 + p * 0x1000)
def BU_STATUS_state (c p : Nat) : Fld := ⟨BU_STATUS c p, 0, 3⟩
def BU_STATUS_mode (c p : Nat) : Fld := ⟨BU_STATUS c p, 3, 1⟩
def BU_STATUS_queued (c p : Nat) : Fld := ⟨BU_STATUS c p, 4, 5⟩
def BU_STATUS_pc (c p : Nat) : Fld := ⟨BU_STATUS c p, 9, 9⟩
def BU_STATUS_last_status (c p : Nat) : Fld := ⟨BU_STATUS c p, 18, 8⟩
def BU_STATUS_held (c p : Nat) : Fld := ⟨BU_STATUS c p, 26, 7⟩

/-- BU_MODE (R232). -/
def BU_MODE (c p : Nat) : Nat := rk (c * 16 + 9) (0x10 + p * 0x1000)
def BU_MODE_req (c p : Nat) : Fld := ⟨BU_MODE c p, 0, 1⟩
def BU_MODE_pending (c p : Nat) : Fld := ⟨BU_MODE c p, 1, 1⟩
def BU_MODE_abort_drain (c p : Nat) : Fld := ⟨BU_MODE c p, 2, 1⟩
def BU_MODE_status (c p : Nat) : Fld := ⟨BU_MODE c p, 8, 8⟩

/-- BU_SUBMIT (R232). -/
def BU_SUBMIT (c p : Nat) : Nat := rk (c * 16 + 9) (0x18 + p * 0x1000)
def BU_SUBMIT_block (c p : Nat) : Fld := ⟨BU_SUBMIT c p, 6, 42⟩

/-- BU_DUTY (R232). -/
def BU_DUTY (c p : Nat) : Nat := rk (c * 16 + 9) (0x20 + p * 0x1000)
def BU_DUTY_duty (c p : Nat) : Fld := ⟨BU_DUTY c p, 0, 5⟩

/-- BU_FAULT (R232). -/
def BU_FAULT (c p : Nat) : Nat := rk (c * 16 + 9) (0x28 + p * 0x1000)
def BU_FAULT_l_addr (c p : Nat) : Fld := ⟨BU_FAULT c p, 0, 26⟩
def BU_FAULT_pc (c p : Nat) : Fld := ⟨BU_FAULT c p, 26, 9⟩
def BU_FAULT_status (c p : Nat) : Fld := ⟨BU_FAULT c p, 35, 8⟩
def BU_FAULT_cause (c p : Nat) : Fld := ⟨BU_FAULT c p, 43, 4⟩

/-- BU_PROGRESS (R232). -/
def BU_PROGRESS (c p : Nat) : Nat := rk (c * 16 + 9) (0x30 + p * 0x1000)
def BU_PROGRESS_pc (c p : Nat) : Fld := ⟨BU_PROGRESS c p, 0, 9⟩
def BU_PROGRESS_record (c p : Nat) : Fld := ⟨BU_PROGRESS c p, 9, 11⟩
def BU_PROGRESS_bytes_done (c p : Nat) : Fld := ⟨BU_PROGRESS c p, 20, 26⟩

/-- BU_YIELD (R232). -/
def BU_YIELD (c p : Nat) : Nat := rk (c * 16 + 9) (0x38 + p * 0x1000)
def BU_YIELD_gap_ns (c p : Nat) : Fld := ⟨BU_YIELD c p, 0, 14⟩
def BU_YIELD_max_gap_ns (c p : Nat) : Fld := ⟨BU_YIELD c p, 14, 14⟩

/-- BU_CMDS (R232). -/
def BU_CMDS (c p : Nat) : Nat := rk (c * 16 + 9) (0x40 + p * 0x1000)
def BU_CMDS_count (c p : Nat) : Fld := ⟨BU_CMDS c p, 0, 48⟩

/-- BU_ACTS (R232). -/
def BU_ACTS (c p : Nat) : Nat := rk (c * 16 + 9) (0x48 + p * 0x1000)
def BU_ACTS_count (c p : Nat) : Fld := ⟨BU_ACTS c p, 0, 48⟩

/-- BU_RD_BYTES (R232). -/
def BU_RD_BYTES (c p : Nat) : Nat := rk (c * 16 + 9) (0x50 + p * 0x1000)
def BU_RD_BYTES_count (c p : Nat) : Fld := ⟨BU_RD_BYTES c p, 0, 48⟩

/-- BU_WR_BYTES (R232). -/
def BU_WR_BYTES (c p : Nat) : Nat := rk (c * 16 + 9) (0x58 + p * 0x1000)
def BU_WR_BYTES_count (c p : Nat) : Fld := ⟨BU_WR_BYTES c p, 0, 48⟩

/-- BU_WINDOWS (R232). -/
def BU_WINDOWS (c p : Nat) : Nat := rk (c * 16 + 9) (0x60 + p * 0x1000)
def BU_WINDOWS_count (c p : Nat) : Fld := ⟨BU_WINDOWS c p, 0, 48⟩

/-- BU_FORCED (R232). -/
def BU_FORCED (c p : Nat) : Nat := rk (c * 16 + 9) (0x68 + p * 0x1000)
def BU_FORCED_count (c p : Nat) : Fld := ⟨BU_FORCED c p, 0, 48⟩

/-- BU_WAIT_BK (R232). -/
def BU_WAIT_BK (c p : Nat) : Nat := rk (c * 16 + 9) (0x70 + p * 0x1000)
def BU_WAIT_BK_count (c p : Nat) : Fld := ⟨BU_WAIT_BK c p, 0, 48⟩

/-- BU_FETCH_CORR (R232). -/
def BU_FETCH_CORR (c p : Nat) : Nat := rk (c * 16 + 9) (0x78 + p * 0x1000)
def BU_FETCH_CORR_count (c p : Nat) : Fld := ⟨BU_FETCH_CORR c p, 0, 48⟩

/-- BU_G (R232). -/
def BU_G (c p g : Nat) : Nat := rk (c * 16 + 9) (0x80 + p * 0x1000 + g * 0x8)
def BU_G_value (c p g : Nat) : Fld := ⟨BU_G c p g, 0, 64⟩

/-- BU_PROG (R232). -/
def BU_PROG (c p i : Nat) : Nat := rk (c * 16 + 10) (0x0 + p * 0x1000 + i * 0x8)
def BU_PROG_instr (c p i : Nat) : Fld := ⟨BU_PROG c p i, 0, 64⟩

/-! Registers of 09_kv_attention.md. -/

/-- KVT_CTRL (R268). -/
def KVT_CTRL (c : Nat) : Nat := rk (c * 16 + 6) (0x0)
def KVT_CTRL_enable (c : Nat) : Fld := ⟨KVT_CTRL c, 0, 1⟩
def KVT_CTRL_abort (c : Nat) : Fld := ⟨KVT_CTRL c, 1, 1⟩

/-- KVT_STATUS (R268). -/
def KVT_STATUS (c : Nat) : Nat := rk (c * 16 + 6) (0x8)
def KVT_STATUS_queued (c : Nat) : Fld := ⟨KVT_STATUS c, 0, 6⟩
def KVT_STATUS_running (c : Nat) : Fld := ⟨KVT_STATUS c, 6, 3⟩
def KVT_STATUS_last_status (c : Nat) : Fld := ⟨KVT_STATUS c, 16, 8⟩
def KVT_STATUS_last_thread (c : Nat) : Fld := ⟨KVT_STATUS c, 24, 4⟩
def KVT_STATUS_last_via_core (c : Nat) : Fld := ⟨KVT_STATUS c, 28, 1⟩

/-- KVT_SUBMIT (R268). -/
def KVT_SUBMIT (c : Nat) : Nat := rk (c * 16 + 6) (0x10)
def KVT_SUBMIT_desc_off (c : Nat) : Fld := ⟨KVT_SUBMIT c, 5, 17⟩

/-- KVT_SEQ_BASE (R268). -/
def KVT_SEQ_BASE (c : Nat) : Nat := rk (c * 16 + 6) (0x18)
def KVT_SEQ_BASE_base (c : Nat) : Fld := ⟨KVT_SEQ_BASE c, 6, 42⟩

/-- KVT_RC_BASE (R268). -/
def KVT_RC_BASE (c : Nat) : Nat := rk (c * 16 + 6) (0x20)
def KVT_RC_BASE_base (c : Nat) : Fld := ⟨KVT_RC_BASE c, 6, 42⟩
def KVT_RC_BASE_entries_log2 (c : Nat) : Fld := ⟨KVT_RC_BASE c, 48, 5⟩

/-- KVT_MIG (R268). -/
def KVT_MIG (c : Nat) : Nat := rk (c * 16 + 6) (0x28)
def KVT_MIG_mig_max (c : Nat) : Fld := ⟨KVT_MIG c, 0, 11⟩
def KVT_MIG_queued (c : Nat) : Fld := ⟨KVT_MIG c, 11, 16⟩
def KVT_MIG_staged (c : Nat) : Fld := ⟨KVT_MIG c, 27, 12⟩

/-- KVT_LAYOUT (R268). -/
def KVT_LAYOUT (c lh : Nat) : Nat := rk (c * 16 + 6) (0x100 + lh * 0x8)
def KVT_LAYOUT_rec_log2 (c lh : Nat) : Fld := ⟨KVT_LAYOUT c lh, 0, 4⟩
def KVT_LAYOUT_home_pc (c lh : Nat) : Fld := ⟨KVT_LAYOUT c lh, 4, 3⟩
def KVT_LAYOUT_spread (c lh : Nat) : Fld := ⟨KVT_LAYOUT c lh, 7, 1⟩
def KVT_LAYOUT_valid (c lh : Nat) : Fld := ⟨KVT_LAYOUT c lh, 8, 1⟩

/-- KVT_FL_BASE (R268). -/
def KVT_FL_BASE (c i : Nat) : Nat := rk (c * 16 + 6) (0x800 + i * 0x20)
def KVT_FL_BASE_base (c i : Nat) : Fld := ⟨KVT_FL_BASE c i, 3, 45⟩
def KVT_FL_BASE_size_log2 (c i : Nat) : Fld := ⟨KVT_FL_BASE c i, 48, 5⟩

/-- KVT_FL_STATE (R268). -/
def KVT_FL_STATE (c i : Nat) : Nat := rk (c * 16 + 6) (0x808 + i * 0x20)
def KVT_FL_STATE_head (c i : Nat) : Fld := ⟨KVT_FL_STATE c i, 0, 32⟩
def KVT_FL_STATE_tail (c i : Nat) : Fld := ⟨KVT_FL_STATE c i, 32, 32⟩

/-- KVT_FL_CFG (R268). -/
def KVT_FL_CFG (c i : Nat) : Nat := rk (c * 16 + 6) (0x810 + i * 0x20)
def KVT_FL_CFG_low_water (c i : Nat) : Fld := ⟨KVT_FL_CFG c i, 0, 17⟩

/-- KVT_FL_PUSH (R268). -/
def KVT_FL_PUSH (c i : Nat) : Nat := rk (c * 16 + 6) (0x818 + i * 0x20)
def KVT_FL_PUSH_entry (c i : Nat) : Fld := ⟨KVT_FL_PUSH c i, 0, 64⟩

/-- KVT_ALLOCS (R268). -/
def KVT_ALLOCS (c : Nat) : Nat := rk (c * 16 + 6) (0x600)
def KVT_ALLOCS_count (c : Nat) : Fld := ⟨KVT_ALLOCS c, 0, 48⟩

/-- KVT_COWS (R268). -/
def KVT_COWS (c : Nat) : Nat := rk (c * 16 + 6) (0x608)
def KVT_COWS_count (c : Nat) : Fld := ⟨KVT_COWS c, 0, 48⟩

/-- KVT_FREES (R268). -/
def KVT_FREES (c : Nat) : Nat := rk (c * 16 + 6) (0x610)
def KVT_FREES_count (c : Nat) : Fld := ⟨KVT_FREES c, 0, 48⟩

/-- KVT_STAGES (R268). -/
def KVT_STAGES (c : Nat) : Nat := rk (c * 16 + 6) (0x618)
def KVT_STAGES_count (c : Nat) : Fld := ⟨KVT_STAGES c, 0, 48⟩

/-- KVT_MOVES (R268). -/
def KVT_MOVES (c : Nat) : Nat := rk (c * 16 + 6) (0x620)
def KVT_MOVES_count (c : Nat) : Fld := ⟨KVT_MOVES c, 0, 48⟩

/-- KVT_SPLIT (R268). -/
def KVT_SPLIT (c : Nat) : Nat := rk (c * 16 + 6) (0x628)
def KVT_SPLIT_count (c : Nat) : Fld := ⟨KVT_SPLIT c, 0, 48⟩

/-- KVT_SATS (R268). -/
def KVT_SATS (c : Nat) : Nat := rk (c * 16 + 6) (0x630)
def KVT_SATS_count (c : Nat) : Fld := ⟨KVT_SATS c, 0, 48⟩

/-- KVT_LAST_FAULT (R268). -/
def KVT_LAST_FAULT (c : Nat) : Nat := rk (c * 16 + 6) (0x640)
def KVT_LAST_FAULT_addr (c : Nat) : Fld := ⟨KVT_LAST_FAULT c, 0, 48⟩
def KVT_LAST_FAULT_status (c : Nat) : Fld := ⟨KVT_LAST_FAULT c, 48, 8⟩
def KVT_LAST_FAULT_thread (c : Nat) : Fld := ⟨KVT_LAST_FAULT c, 56, 4⟩
def KVT_LAST_FAULT_via_core (c : Nat) : Fld := ⟨KVT_LAST_FAULT c, 60, 1⟩

/-! Registers of 10_shared_cache_external.md. -/

/-- SC_ATOM_CTL (R292). -/
def SC_ATOM_CTL (i : Nat) : Nat := rk (0x1020) (0x0 + i * 0x10)
def SC_ATOM_CTL_target (i : Nat) : Fld := ⟨SC_ATOM_CTL i, 0, 48⟩
def SC_ATOM_CTL_op (i : Nat) : Fld := ⟨SC_ATOM_CTL i, 48, 4⟩
def SC_ATOM_CTL_type (i : Nat) : Fld := ⟨SC_ATOM_CTL i, 52, 3⟩
def SC_ATOM_CTL_last_status (i : Nat) : Fld := ⟨SC_ATOM_CTL i, 56, 8⟩

/-- SC_ATOM_GO (R292). -/
def SC_ATOM_GO (i : Nat) : Nat := rk (0x1020) (0x8 + i * 0x10)
def SC_ATOM_GO_operand (i : Nat) : Fld := ⟨SC_ATOM_GO i, 0, 64⟩

/-- SC_ATOM_CMP (R292). -/
def SC_ATOM_CMP (i : Nat) : Nat := rk (0x1020) (0x8100 + i * 0x8)
def SC_ATOM_CMP_compare (i : Nat) : Fld := ⟨SC_ATOM_CMP i, 0, 64⟩

/-- SC_CTRL (R292). -/
def SC_CTRL : Nat := rk (0x1020) (0xd000)
def SC_CTRL_atom_round : Fld := ⟨SC_CTRL, 0, 2⟩

/-- SC_KEEP_CFG (R292). -/
def SC_KEEP_CFG (k : Nat) : Nat := rk (0x1020) (0xd040 + k * 0x8)
def SC_KEEP_CFG_quota (k : Nat) : Fld := ⟨SC_KEEP_CFG k, 0, 15⟩
def SC_KEEP_CFG_release (k : Nat) : Fld := ⟨SC_KEEP_CFG k, 15, 1⟩

/-- SC_SHARED_BASE (R292). -/
def SC_SHARED_BASE (r : Nat) : Nat := rk (0x1020) (0xd100 + r * 0x10)
def SC_SHARED_BASE_valid (r : Nat) : Fld := ⟨SC_SHARED_BASE r, 0, 1⟩
def SC_SHARED_BASE_mib (r : Nat) : Fld := ⟨SC_SHARED_BASE r, 20, 16⟩

/-- SC_SHARED_LIMIT (R292). -/
def SC_SHARED_LIMIT (r : Nat) : Nat := rk (0x1020) (0xd108 + r * 0x10)
def SC_SHARED_LIMIT_valid (r : Nat) : Fld := ⟨SC_SHARED_LIMIT r, 0, 1⟩
def SC_SHARED_LIMIT_mib (r : Nat) : Fld := ⟨SC_SHARED_LIMIT r, 20, 16⟩

/-- SC_FLUSH_BASE (R292). -/
def SC_FLUSH_BASE : Nat := rk (0x1020) (0xd200)
def SC_FLUSH_BASE_addr : Fld := ⟨SC_FLUSH_BASE, 0, 48⟩

/-- SC_FLUSH_LIMIT (R292). -/
def SC_FLUSH_LIMIT : Nat := rk (0x1020) (0xd208)
def SC_FLUSH_LIMIT_addr : Fld := ⟨SC_FLUSH_LIMIT, 0, 48⟩

/-- SC_FLUSH_CTRL (R292). -/
def SC_FLUSH_CTRL : Nat := rk (0x1020) (0xd210)
def SC_FLUSH_CTRL_start : Fld := ⟨SC_FLUSH_CTRL, 0, 1⟩
def SC_FLUSH_CTRL_invalidate : Fld := ⟨SC_FLUSH_CTRL, 1, 1⟩
def SC_FLUSH_CTRL_busy : Fld := ⟨SC_FLUSH_CTRL, 2, 1⟩
def SC_FLUSH_CTRL_last_status : Fld := ⟨SC_FLUSH_CTRL, 8, 8⟩

/-- SC_SLICE_ECC (R292). -/
def SC_SLICE_ECC (s : Nat) : Nat := rk (0x1040 + s) (0x0)
def SC_SLICE_ECC_corrected (s : Nat) : Fld := ⟨SC_SLICE_ECC s, 0, 16⟩
def SC_SLICE_ECC_uncorrectable (s : Nat) : Fld := ⟨SC_SLICE_ECC s, 16, 16⟩
def SC_SLICE_ECC_tag_fail (s : Nat) : Fld := ⟨SC_SLICE_ECC s, 32, 1⟩
def SC_SLICE_ECC_tag_fail_set (s : Nat) : Fld := ⟨SC_SLICE_ECC s, 33, 11⟩

/-- SC_HITS (R292). -/
def SC_HITS (s : Nat) : Nat := rk (0x1040 + s) (0x40)
def SC_HITS_count (s : Nat) : Fld := ⟨SC_HITS s, 0, 48⟩

/-- SC_MISSES (R292). -/
def SC_MISSES (s : Nat) : Nat := rk (0x1040 + s) (0x48)
def SC_MISSES_count (s : Nat) : Fld := ⟨SC_MISSES s, 0, 48⟩

/-- SC_WBACKS (R292). -/
def SC_WBACKS (s : Nat) : Nat := rk (0x1040 + s) (0x50)
def SC_WBACKS_count (s : Nat) : Fld := ⟨SC_WBACKS s, 0, 48⟩

/-- SC_DROPS (R292). -/
def SC_DROPS (s : Nat) : Nat := rk (0x1040 + s) (0x58)
def SC_DROPS_count (s : Nat) : Fld := ⟨SC_DROPS s, 0, 48⟩

/-- SC_ATOMICS (R292). -/
def SC_ATOMICS (s : Nat) : Nat := rk (0x1040 + s) (0x60)
def SC_ATOMICS_count (s : Nat) : Fld := ⟨SC_ATOMICS s, 0, 48⟩

/-- SC_KEEP_DENIED (R292). -/
def SC_KEEP_DENIED (s : Nat) : Nat := rk (0x1040 + s) (0x68)
def SC_KEEP_DENIED_count (s : Nat) : Fld := ⟨SC_KEEP_DENIED s, 0, 48⟩

/-- SC_KEEP_USED (R292). -/
def SC_KEEP_USED (s i : Nat) : Nat := rk (0x1040 + s) (0x80 + i * 0x8)
def SC_KEEP_USED_used (s i : Nat) : Fld := ⟨SC_KEEP_USED s i, 0, 64⟩

/-- GD_CFG (R292). -/
def GD_CFG : Nat := rk (0x1060) (0x0)
def GD_CFG_bin : Fld := ⟨GD_CFG, 0, 2⟩
def GD_CFG_retrain_ms : Fld := ⟨GD_CFG, 16, 16⟩

/-- GD_STATUS (R292). -/
def GD_STATUS (g : Nat) : Nat := rk (0x1080 + g) (0x0)
def GD_STATUS_state (g : Nat) : Fld := ⟨GD_STATUS g, 0, 2⟩
def GD_STATUS_temp (g : Nat) : Fld := ⟨GD_STATUS g, 8, 8⟩

/-- GD_REMAP_CFG (R292). -/
def GD_REMAP_CFG (g : Nat) : Nat := rk (0x1080 + g) (0x10)
def GD_REMAP_CFG_enable (g : Nat) : Fld := ⟨GD_REMAP_CFG g, 0, 1⟩
def GD_REMAP_CFG_row_threshold (g : Nat) : Fld := ⟨GD_REMAP_CFG g, 1, 8⟩
def GD_REMAP_CFG_window_ms (g : Nat) : Fld := ⟨GD_REMAP_CFG g, 9, 16⟩

/-- GD_REMAP_STATUS (R292). -/
def GD_REMAP_STATUS (g : Nat) : Nat := rk (0x1080 + g) (0x18)
def GD_REMAP_STATUS_used (g : Nat) : Fld := ⟨GD_REMAP_STATUS g, 0, 11⟩

/-- GD_ECC_CNT (R292). -/
def GD_ECC_CNT (g : Nat) : Nat := rk (0x1080 + g) (0x100)
def GD_ECC_CNT_single (g : Nat) : Fld := ⟨GD_ECC_CNT g, 0, 16⟩
def GD_ECC_CNT_double (g : Nat) : Fld := ⟨GD_ECC_CNT g, 16, 16⟩
def GD_ECC_CNT_uncorrectable (g : Nat) : Fld := ⟨GD_ECC_CNT g, 32, 16⟩

/-- GD_ECC_LAST (R292). -/
def GD_ECC_LAST (g : Nat) : Nat := rk (0x1080 + g) (0x108)
def GD_ECC_LAST_addr (g : Nat) : Fld := ⟨GD_ECC_LAST g, 0, 48⟩
def GD_ECC_LAST_kind (g : Nat) : Fld := ⟨GD_ECC_LAST g, 48, 2⟩

/-- GD_LINK_CNT (R292). -/
def GD_LINK_CNT (g : Nat) : Nat := rk (0x1080 + g) (0x110)
def GD_LINK_CNT_crc_errors (g : Nat) : Fld := ⟨GD_LINK_CNT g, 0, 24⟩
def GD_LINK_CNT_retries_failed (g : Nat) : Fld := ⟨GD_LINK_CNT g, 24, 16⟩
def GD_LINK_CNT_retrains (g : Nat) : Fld := ⟨GD_LINK_CNT g, 40, 16⟩

/-- GD_REMAP_TABLE (R292). -/
def GD_REMAP_TABLE (g e : Nat) : Nat := rk (0x1080 + g) (0x1000 + e * 0x8)
def GD_REMAP_TABLE_valid (g e : Nat) : Fld := ⟨GD_REMAP_TABLE g e, 0, 1⟩
def GD_REMAP_TABLE_bank (g e : Nat) : Fld := ⟨GD_REMAP_TABLE g e, 1, 4⟩
def GD_REMAP_TABLE_row (g e : Nat) : Fld := ⟨GD_REMAP_TABLE g e, 5, 17⟩
def GD_REMAP_TABLE_spare_row (g e : Nat) : Fld := ⟨GD_REMAP_TABLE g e, 22, 13⟩

/-! Registers of 11_synchronisation.md. -/

/-- PBX_VALUE (R315). -/
def PBX_VALUE (c n : Nat) : Nat := rk (c * 16 + 7) (0x0 + n * 0x20)
def PBX_VALUE_value (c n : Nat) : Fld := ⟨PBX_VALUE c n, 0, 16⟩
def PBX_VALUE_ovf (c n : Nat) : Fld := ⟨PBX_VALUE c n, 16, 1⟩
def PBX_VALUE_land_ovf (c n : Nat) : Fld := ⟨PBX_VALUE c n, 17, 1⟩
def PBX_VALUE_waiters (c n : Nat) : Fld := ⟨PBX_VALUE c n, 32, 16⟩

/-- PBX_LANDED (R315). -/
def PBX_LANDED (c n : Nat) : Nat := rk (c * 16 + 7) (0x8 + n * 0x20)
def PBX_LANDED_landed (c n : Nat) : Fld := ⟨PBX_LANDED c n, 0, 32⟩

/-- PBX_LAST (R315). -/
def PBX_LAST (c n : Nat) : Nat := rk (c * 16 + 7) (0x10 + n * 0x20)
def PBX_LAST_last_src (c n : Nat) : Fld := ⟨PBX_LAST c n, 0, 16⟩
def PBX_LAST_last_edge (c n : Nat) : Fld := ⟨PBX_LAST c n, 32, 32⟩

/-- PBX_SIGNAL (R315). -/
def PBX_SIGNAL (c : Nat) : Nat := rk (c * 16 + 7) (0x600)
def PBX_SIGNAL_n (c : Nat) : Fld := ⟨PBX_SIGNAL c, 0, 6⟩
def PBX_SIGNAL_add (c : Nat) : Fld := ⟨PBX_SIGNAL c, 16, 16⟩

/-- PBX_RESET (R315). -/
def PBX_RESET (c : Nat) : Nat := rk (c * 16 + 7) (0x608)
def PBX_RESET_n (c : Nat) : Fld := ⟨PBX_RESET c, 0, 6⟩
def PBX_RESET_value (c : Nat) : Fld := ⟨PBX_RESET c, 16, 16⟩

/-- PBX_CFG (R315). -/
def PBX_CFG (c : Nat) : Nat := rk (c * 16 + 7) (0x700)
def PBX_CFG_ballast (c : Nat) : Fld := ⟨PBX_CFG c, 0, 1⟩

/-- PBX_COUNTS (R315). -/
def PBX_COUNTS (c : Nat) : Nat := rk (c * 16 + 7) (0x708)
def PBX_COUNTS_signals_dropped (c : Nat) : Fld := ⟨PBX_COUNTS c, 0, 16⟩
def PBX_COUNTS_overflows (c : Nat) : Fld := ⟨PBX_COUNTS c, 16, 16⟩
def PBX_COUNTS_last_drop_status (c : Nat) : Fld := ⟨PBX_COUNTS c, 32, 8⟩

/-- PBX_BALLAST_CK (R315). -/
def PBX_BALLAST_CK (c : Nat) : Nat := rk (c * 16 + 7) (0x710)
def PBX_BALLAST_CK_count (c : Nat) : Fld := ⟨PBX_BALLAST_CK c, 0, 48⟩

/-- PBX_WAIT_CK (R315). -/
def PBX_WAIT_CK (c : Nat) : Nat := rk (c * 16 + 7) (0x718)
def PBX_WAIT_CK_count (c : Nat) : Fld := ⟨PBX_WAIT_CK c, 0, 48⟩

/-- PBX_THR_WAIT (R315). -/
def PBX_THR_WAIT (c t : Nat) : Nat := rk (c * 16 + 7) (0x800 + t * 0x8)
def PBX_THR_WAIT_target (c t : Nat) : Fld := ⟨PBX_THR_WAIT c t, 0, 6⟩
def PBX_THR_WAIT_waiting (c t : Nat) : Fld := ⟨PBX_THR_WAIT c t, 6, 1⟩
def PBX_THR_WAIT_sleeping (c t : Nat) : Fld := ⟨PBX_THR_WAIT c t, 7, 1⟩
def PBX_THR_WAIT_v (c t : Nat) : Fld := ⟨PBX_THR_WAIT c t, 8, 16⟩
def PBX_THR_WAIT_b (c t : Nat) : Fld := ⟨PBX_THR_WAIT c t, 24, 32⟩

/-- SWL_CFG (R315). -/
def SWL_CFG (s : Nat) : Nat := rk (0x1002) (0x0 + s * 0x20)
def SWL_CFG_expected (s : Nat) : Fld := ⟨SWL_CFG s, 0, 12⟩
def SWL_CFG_valid (s : Nat) : Fld := ⟨SWL_CFG s, 12, 1⟩
def SWL_CFG_group (s : Nat) : Fld := ⟨SWL_CFG s, 13, 1⟩
def SWL_CFG_root (s : Nat) : Fld := ⟨SWL_CFG s, 14, 1⟩
def SWL_CFG_release_pbx (s : Nat) : Fld := ⟨SWL_CFG s, 15, 6⟩
def SWL_CFG_branches (s : Nat) : Fld := ⟨SWL_CFG s, 21, 7⟩

/-- SWL_STATE (R315). -/
def SWL_STATE (s : Nat) : Nat := rk (0x1002) (0x8 + s * 0x20)
def SWL_STATE_arrived (s : Nat) : Fld := ⟨SWL_STATE s, 0, 12⟩
def SWL_STATE_branch_arrived (s : Nat) : Fld := ⟨SWL_STATE s, 12, 7⟩
def SWL_STATE_broken (s : Nat) : Fld := ⟨SWL_STATE s, 19, 1⟩
def SWL_STATE_generation (s : Nat) : Fld := ⟨SWL_STATE s, 20, 16⟩
def SWL_STATE_last_src (s : Nat) : Fld := ⟨SWL_STATE s, 36, 16⟩

/-- SWL_MEMBERS_LO (R315). -/
def SWL_MEMBERS_LO (s : Nat) : Nat := rk (0x1002) (0x10 + s * 0x20)
def SWL_MEMBERS_LO_members (s : Nat) : Fld := ⟨SWL_MEMBERS_LO s, 0, 64⟩

/-- SWL_MEMBERS_HI (R315). -/
def SWL_MEMBERS_HI (s : Nat) : Nat := rk (0x1002) (0x18 + s * 0x20)
def SWL_MEMBERS_HI_members (s : Nat) : Fld := ⟨SWL_MEMBERS_HI s, 0, 64⟩

/-- SWL_ARRIVE (R315). -/
def SWL_ARRIVE : Nat := rk (0x1002) (0x800)
def SWL_ARRIVE_s : Fld := ⟨SWL_ARRIVE, 0, 6⟩

/-- SWL_FAULT (R315). -/
def SWL_FAULT : Nat := rk (0x1002) (0x808)
def SWL_FAULT_refused : Fld := ⟨SWL_FAULT, 0, 16⟩
def SWL_FAULT_last_s : Fld := ⟨SWL_FAULT, 16, 6⟩
def SWL_FAULT_last_src : Fld := ⟨SWL_FAULT, 22, 16⟩
def SWL_FAULT_last_status : Fld := ⟨SWL_FAULT, 38, 8⟩

/-! Registers of 12_chart.md. -/

/-- CHT_STATUS (R346). -/
def CHT_STATUS : Nat := rk (0x1001) (0x0)
def CHT_STATUS_state : Fld := ⟨CHT_STATUS, 0, 3⟩
def CHT_STATUS_live : Fld := ⟨CHT_STATUS, 3, 1⟩
def CHT_STATUS_rotation : Fld := ⟨CHT_STATUS, 4, 1⟩
def CHT_STATUS_last_status : Fld := ⟨CHT_STATUS, 8, 8⟩
def CHT_STATUS_detail : Fld := ⟨CHT_STATUS, 16, 8⟩
def CHT_STATUS_fail_type : Fld := ⟨CHT_STATUS, 24, 16⟩

/-- CHT_FAULT (R346). -/
def CHT_FAULT : Nat := rk (0x1001) (0x8)
def CHT_FAULT_record : Fld := ⟨CHT_FAULT, 0, 32⟩
def CHT_FAULT_offset : Fld := ⟨CHT_FAULT, 32, 32⟩

/-- CHT_ARM (R346). -/
def CHT_ARM : Nat := rk (0x1001) (0x10)
def CHT_ARM_arm : Fld := ⟨CHT_ARM, 0, 1⟩
def CHT_ARM_disarm : Fld := ⟨CHT_ARM, 1, 1⟩
def CHT_ARM_target_edge : Fld := ⟨CHT_ARM, 32, 32⟩

/-- CHT_LIVE_ID (R346). -/
def CHT_LIVE_ID : Nat := rk (0x1001) (0x18)
def CHT_LIVE_ID_chart_id : Fld := ⟨CHT_LIVE_ID, 0, 64⟩

/-- CHT_STAGED_ID (R346). -/
def CHT_STAGED_ID : Nat := rk (0x1001) (0x20)
def CHT_STAGED_ID_chart_id : Fld := ⟨CHT_STAGED_ID, 0, 64⟩

/-- CHT_LIVE_EDGE (R346). -/
def CHT_LIVE_EDGE : Nat := rk (0x1001) (0x28)
def CHT_LIVE_EDGE_edge : Fld := ⟨CHT_LIVE_EDGE, 0, 64⟩

/-- CHT_COUNTS (R346). -/
def CHT_COUNTS : Nat := rk (0x1001) (0x30)
def CHT_COUNTS_applies : Fld := ⟨CHT_COUNTS, 0, 16⟩
def CHT_COUNTS_rejects : Fld := ⟨CHT_COUNTS, 16, 16⟩
def CHT_COUNTS_abandoned : Fld := ⟨CHT_COUNTS, 32, 16⟩
def CHT_COUNTS_rotations : Fld := ⟨CHT_COUNTS, 48, 16⟩

/-- CHT_APPLY_NS (R346). -/
def CHT_APPLY_NS : Nat := rk (0x1001) (0x38)
def CHT_APPLY_NS_step3_ns : Fld := ⟨CHT_APPLY_NS, 0, 16⟩

/-- CHT_LIVE_DIGEST (R346). -/
def CHT_LIVE_DIGEST (i : Nat) : Nat := rk (0x1001) (0x40 + i * 0x8)
def CHT_LIVE_DIGEST_digest (i : Nat) : Fld := ⟨CHT_LIVE_DIGEST i, 0, 64⟩

/-! Registers of 13_host_interface.md. -/

/-- HIF_LINK (R375). -/
def HIF_LINK (p : Nat) : Nat := rk (0x1010 + p) (0x0)
def HIF_LINK_speed (p : Nat) : Fld := ⟨HIF_LINK p, 0, 3⟩
def HIF_LINK_width (p : Nat) : Fld := ⟨HIF_LINK p, 3, 4⟩
def HIF_LINK_flit (p : Nat) : Fld := ⟨HIF_LINK p, 7, 1⟩
def HIF_LINK_down_ms (p : Nat) : Fld := ⟨HIF_LINK p, 16, 32⟩
def HIF_LINK_downs (p : Nat) : Fld := ⟨HIF_LINK p, 48, 16⟩

/-- HIF_TOKEN (R375). -/
def HIF_TOKEN (p : Nat) : Nat := rk (0x1010 + p) (0x8)
def HIF_TOKEN_holder (p : Nat) : Fld := ⟨HIF_TOKEN p, 0, 1⟩
def HIF_TOKEN_held (p : Nat) : Fld := ⟨HIF_TOKEN p, 1, 1⟩
def HIF_TOKEN_offer (p : Nat) : Fld := ⟨HIF_TOKEN p, 2, 1⟩
def HIF_TOKEN_this_port (p : Nat) : Fld := ⟨HIF_TOKEN p, 3, 1⟩
def HIF_TOKEN_takeover_ms (p : Nat) : Fld := ⟨HIF_TOKEN p, 16, 16⟩
def HIF_TOKEN_passes (p : Nat) : Fld := ⟨HIF_TOKEN p, 32, 32⟩

/-- HIF_PM_STATE (R375). -/
def HIF_PM_STATE (p : Nat) : Nat := rk (0x1010 + p) (0x10)
def HIF_PM_STATE_key_present (p : Nat) : Fld := ⟨HIF_PM_STATE p, 0, 1⟩
def HIF_PM_STATE_pm_hold (p : Nat) : Fld := ⟨HIF_PM_STATE p, 1, 1⟩
def HIF_PM_STATE_last_status (p : Nat) : Fld := ⟨HIF_PM_STATE p, 8, 8⟩
def HIF_PM_STATE_failures (p : Nat) : Fld := ⟨HIF_PM_STATE p, 16, 16⟩

/-- HIF_PM_LAST (R375). -/
def HIF_PM_LAST (p : Nat) : Nat := rk (0x1010 + p) (0x18)
def HIF_PM_LAST_counter (p : Nat) : Fld := ⟨HIF_PM_LAST p, 0, 64⟩

/-- HIF_ACCESS_FAULT (R375). -/
def HIF_ACCESS_FAULT (p : Nat) : Nat := rk (0x1010 + p) (0x20)
def HIF_ACCESS_FAULT_addr (p : Nat) : Fld := ⟨HIF_ACCESS_FAULT p, 0, 48⟩
def HIF_ACCESS_FAULT_status (p : Nat) : Fld := ⟨HIF_ACCESS_FAULT p, 48, 8⟩
def HIF_ACCESS_FAULT_write (p : Nat) : Fld := ⟨HIF_ACCESS_FAULT p, 56, 1⟩
def HIF_ACCESS_FAULT_bar (p : Nat) : Fld := ⟨HIF_ACCESS_FAULT p, 57, 1⟩
def HIF_ACCESS_FAULT_atomic (p : Nat) : Fld := ⟨HIF_ACCESS_FAULT p, 58, 1⟩

/-- HIF_ACCESS_COUNT (R375). -/
def HIF_ACCESS_COUNT (p : Nat) : Nat := rk (0x1010 + p) (0x28)
def HIF_ACCESS_COUNT_count (p : Nat) : Fld := ⟨HIF_ACCESS_COUNT p, 0, 32⟩

/-- HIF_WIN (R375). -/
def HIF_WIN (p i : Nat) : Nat := rk (0x1010 + p) (0x40 + i * 0x8)
def HIF_WIN_base_page (p i : Nat) : Fld := ⟨HIF_WIN p i, 0, 16⟩

/-- HIF_CMDS (R375). -/
def HIF_CMDS (p : Nat) : Nat := rk (0x1010 + p) (0x60)
def HIF_CMDS_outstanding (p : Nat) : Fld := ⟨HIF_CMDS p, 0, 11⟩
def HIF_CMDS_completed (p : Nat) : Fld := ⟨HIF_CMDS p, 16, 48⟩

/-- QUE_QP_SQ_BASE (R375). -/
def QUE_QP_SQ_BASE (p q : Nat) : Nat := rk (0x1012 + p) (0x0 + q * 0x40)
def QUE_QP_SQ_BASE_base (p q : Nat) : Fld := ⟨QUE_QP_SQ_BASE p q, 12, 52⟩

/-- QUE_QP_CQ_BASE (R375). -/
def QUE_QP_CQ_BASE (p q : Nat) : Nat := rk (0x1012 + p) (0x8 + q * 0x40)
def QUE_QP_CQ_BASE_base (p q : Nat) : Fld := ⟨QUE_QP_CQ_BASE p q, 12, 52⟩

/-- QUE_QP_CFG (R375). -/
def QUE_QP_CFG (p q : Nat) : Nat := rk (0x1012 + p) (0x10 + q * 0x40)
def QUE_QP_CFG_enable (p q : Nat) : Fld := ⟨QUE_QP_CFG p q, 0, 1⟩
def QUE_QP_CFG_sq_log2 (p q : Nat) : Fld := ⟨QUE_QP_CFG p q, 1, 4⟩
def QUE_QP_CFG_cq_log2 (p q : Nat) : Fld := ⟨QUE_QP_CFG p q, 5, 4⟩
def QUE_QP_CFG_vector (p q : Nat) : Fld := ⟨QUE_QP_CFG p q, 9, 7⟩
def QUE_QP_CFG_agg_count (p q : Nat) : Fld := ⟨QUE_QP_CFG p q, 16, 8⟩
def QUE_QP_CFG_agg_us (p q : Nat) : Fld := ⟨QUE_QP_CFG p q, 24, 16⟩

/-- QUE_QP_STATUS (R375). -/
def QUE_QP_STATUS (p q : Nat) : Nat := rk (0x1012 + p) (0x18 + q * 0x40)
def QUE_QP_STATUS_state (p q : Nat) : Fld := ⟨QUE_QP_STATUS p q, 0, 2⟩
def QUE_QP_STATUS_err_status (p q : Nat) : Fld := ⟨QUE_QP_STATUS p q, 8, 8⟩
def QUE_QP_STATUS_sq_head (p q : Nat) : Fld := ⟨QUE_QP_STATUS p q, 16, 12⟩
def QUE_QP_STATUS_cq_tail (p q : Nat) : Fld := ⟨QUE_QP_STATUS p q, 28, 12⟩
def QUE_QP_STATUS_phase (p q : Nat) : Fld := ⟨QUE_QP_STATUS p q, 40, 1⟩

/-- QUE_QP_SQ_TAIL (R375). -/
def QUE_QP_SQ_TAIL (p q : Nat) : Nat := rk (0x1012 + p) (0x20 + q * 0x40)
def QUE_QP_SQ_TAIL_index (p q : Nat) : Fld := ⟨QUE_QP_SQ_TAIL p q, 0, 12⟩

/-- QUE_QP_CQ_HEAD (R375). -/
def QUE_QP_CQ_HEAD (p q : Nat) : Nat := rk (0x1012 + p) (0x28 + q * 0x40)
def QUE_QP_CQ_HEAD_index (p q : Nat) : Fld := ⟨QUE_QP_CQ_HEAD p q, 0, 12⟩

/-! Registers of 14_package_fabric.md. -/

/-- DL_CTRL (R396). -/
def DL_CTRL (d m : Nat) : Nat := rk (0x800 + d * 8 + m) (0x0)
def DL_CTRL_retrain (d m : Nat) : Fld := ⟨DL_CTRL d m, 0, 1⟩
def DL_CTRL_offline (d m : Nat) : Fld := ⟨DL_CTRL d m, 1, 1⟩
def DL_CTRL_force_fallback (d m : Nat) : Fld := ⟨DL_CTRL d m, 2, 1⟩
def DL_CTRL_fail_threshold (d m : Nat) : Fld := ⟨DL_CTRL d m, 16, 8⟩

/-- DL_STATUS (R396). -/
def DL_STATUS (d m : Nat) : Nat := rk (0x800 + d * 8 + m) (0x8)
def DL_STATUS_state (d m : Nat) : Fld := ⟨DL_STATUS d m, 0, 3⟩
def DL_STATUS_half (d m : Nat) : Fld := ⟨DL_STATUS d m, 3, 1⟩
def DL_STATUS_last_status (d m : Nat) : Fld := ⟨DL_STATUS d m, 8, 8⟩
def DL_STATUS_last_train_us (d m : Nat) : Fld := ⟨DL_STATUS d m, 16, 16⟩
def DL_STATUS_slots (d m : Nat) : Fld := ⟨DL_STATUS d m, 32, 8⟩

/-- DL_CAPS (R396). -/
def DL_CAPS (d m : Nat) : Nat := rk (0x800 + d * 8 + m) (0x10)
def DL_CAPS_io_caps (d m : Nat) : Fld := ⟨DL_CAPS d m, 0, 8⟩
def DL_CAPS_cd_caps (d m : Nat) : Fld := ⟨DL_CAPS d m, 8, 8⟩
def DL_CAPS_agreed (d m : Nat) : Fld := ⟨DL_CAPS d m, 16, 8⟩
def DL_CAPS_io_rev (d m : Nat) : Fld := ⟨DL_CAPS d m, 24, 4⟩
def DL_CAPS_cd_rev (d m : Nat) : Fld := ⟨DL_CAPS d m, 28, 4⟩

/-- DL_LANES_TX (R396). -/
def DL_LANES_TX (d m : Nat) : Nat := rk (0x800 + d * 8 + m) (0x18)
def DL_LANES_TX_failed (d m : Nat) : Fld := ⟨DL_LANES_TX d m, 0, 64⟩

/-- DL_LANES_RX (R396). -/
def DL_LANES_RX (d m : Nat) : Nat := rk (0x800 + d * 8 + m) (0x20)
def DL_LANES_RX_failed (d m : Nat) : Fld := ⟨DL_LANES_RX d m, 0, 64⟩

/-- DL_SPARE_TX (R396). -/
def DL_SPARE_TX (d m : Nat) : Nat := rk (0x800 + d * 8 + m) (0x28)
def DL_SPARE_TX_spares (d m : Nat) : Fld := ⟨DL_SPARE_TX d m, 0, 32⟩

/-- DL_SPARE_RX (R396). -/
def DL_SPARE_RX (d m : Nat) : Nat := rk (0x800 + d * 8 + m) (0x30)
def DL_SPARE_RX_spares (d m : Nat) : Fld := ⟨DL_SPARE_RX d m, 0, 32⟩

/-- DL_ERR (R396). -/
def DL_ERR (d m : Nat) : Nat := rk (0x800 + d * 8 + m) (0x38)
def DL_ERR_crc_errors (d m : Nat) : Fld := ⟨DL_ERR d m, 0, 24⟩
def DL_ERR_replays (d m : Nat) : Fld := ⟨DL_ERR d m, 24, 24⟩
def DL_ERR_retrains (d m : Nat) : Fld := ⟨DL_ERR d m, 48, 16⟩

/-- DL_TEST (R396). -/
def DL_TEST (d m : Nat) : Nat := rk (0x800 + d * 8 + m) (0x48)
def DL_TEST_mode (d m : Nat) : Fld := ⟨DL_TEST d m, 0, 2⟩
def DL_TEST_pattern (d m : Nat) : Fld := ⟨DL_TEST d m, 2, 2⟩
def DL_TEST_start (d m : Nat) : Fld := ⟨DL_TEST d m, 4, 1⟩
def DL_TEST_busy (d m : Nat) : Fld := ⟨DL_TEST d m, 5, 1⟩
def DL_TEST_end (d m : Nat) : Fld := ⟨DL_TEST d m, 6, 1⟩
def DL_TEST_status (d m : Nat) : Fld := ⟨DL_TEST d m, 16, 8⟩

/-- DL_TEST_BITS (R396). -/
def DL_TEST_BITS (d m : Nat) : Nat := rk (0x800 + d * 8 + m) (0x50)
def DL_TEST_BITS_bits (d m : Nat) : Fld := ⟨DL_TEST_BITS d m, 0, 48⟩

/-- DL_TEST_FAIL (R396). -/
def DL_TEST_FAIL (d m : Nat) : Nat := rk (0x800 + d * 8 + m) (0x58)
def DL_TEST_FAIL_lanes (d m : Nat) : Fld := ⟨DL_TEST_FAIL d m, 0, 64⟩

/-- DL_TEST_FAIL_SP (R396). -/
def DL_TEST_FAIL_SP (d m : Nat) : Nat := rk (0x800 + d * 8 + m) (0x60)
def DL_TEST_FAIL_SP_spares (d m : Nat) : Fld := ⟨DL_TEST_FAIL_SP d m, 0, 4⟩

/-- DL_DIE_ID (R396). -/
def DL_DIE_ID (d : Nat) : Nat := rk (0x800 + d * 8 + 6) (0x0)
def DL_DIE_ID_cd_rev (d : Nat) : Fld := ⟨DL_DIE_ID d, 0, 4⟩
def DL_DIE_ID_reachable (d : Nat) : Fld := ⟨DL_DIE_ID d, 4, 1⟩
def DL_DIE_ID_standby (d : Nat) : Fld := ⟨DL_DIE_ID d, 5, 1⟩
def DL_DIE_ID_modules_up (d : Nat) : Fld := ⟨DL_DIE_ID d, 6, 6⟩
def DL_DIE_ID_hash_status (d : Nat) : Fld := ⟨DL_DIE_ID d, 16, 8⟩

/-- DL_HASH (R396). -/
def DL_HASH (d i : Nat) : Nat := rk (0x800 + d * 8 + 6) (0x40 + i * 0x8)
def DL_HASH_slots (d i : Nat) : Fld := ⟨DL_HASH d i, 0, 64⟩

/-! Registers of 15_links.md. -/

/-- GWL_NODE (R416). -/
def GWL_NODE : Nat := rk (0x10A0) (0x0)
def GWL_NODE_fabric : Fld := ⟨GWL_NODE, 0, 24⟩

/-- GWL_GROUP (R416). -/
def GWL_GROUP : Nat := rk (0x10A0) (0x8)
def GWL_GROUP_member : Fld := ⟨GWL_GROUP, 0, 7⟩
def GWL_GROUP_group_size : Fld := ⟨GWL_GROUP, 7, 8⟩
def GWL_GROUP_group_tag : Fld := ⟨GWL_GROUP, 15, 16⟩

/-- GWL_AGG (R416). -/
def GWL_AGG : Nat := rk (0x10A0) (0x10)
def GWL_AGG_franked : Fld := ⟨GWL_AGG, 0, 6⟩
def GWL_AGG_min_le : Fld := ⟨GWL_AGG, 6, 8⟩
def GWL_AGG_qual_le : Fld := ⟨GWL_AGG, 14, 8⟩
def GWL_AGG_up_weight : Fld := ⟨GWL_AGG, 22, 9⟩

/-- GWL_UP (R416). -/
def GWL_UP : Nat := rk (0x10A0) (0x18)
def GWL_UP_up : Fld := ⟨GWL_UP, 0, 48⟩

/-- GWL_E2E (R416). -/
def GWL_E2E : Nat := rk (0x10A0) (0x20)
def GWL_E2E_resends : Fld := ⟨GWL_E2E, 0, 16⟩
def GWL_E2E_dup_drops : Fld := ⟨GWL_E2E, 16, 16⟩
def GWL_E2E_foreign_drops : Fld := ⟨GWL_E2E, 32, 16⟩
def GWL_E2E_reorder_drops : Fld := ⟨GWL_E2E, 48, 16⟩

/-- GWL_PEER (R416). -/
def GWL_PEER (k : Nat) : Nat := rk (0x10A0) (0x100 + k * 0x8)
def GWL_PEER_fabric (k : Nat) : Fld := ⟨GWL_PEER k, 0, 24⟩
def GWL_PEER_valid (k : Nat) : Fld := ⟨GWL_PEER k, 24, 1⟩
def GWL_PEER_reachable (k : Nat) : Fld := ⟨GWL_PEER k, 25, 1⟩

/-- GWL_XQ_BASE (R416). -/
def GWL_XQ_BASE (x : Nat) : Nat := rk (0x10A0) (0x800 + x * 0x20)
def GWL_XQ_BASE_base (x : Nat) : Fld := ⟨GWL_XQ_BASE x, 6, 42⟩
def GWL_XQ_BASE_size_log2 (x : Nat) : Fld := ⟨GWL_XQ_BASE x, 48, 4⟩

/-- GWL_XQ_CTRL (R416). -/
def GWL_XQ_CTRL (x : Nat) : Nat := rk (0x10A0) (0x808 + x * 0x20)
def GWL_XQ_CTRL_tail (x : Nat) : Fld := ⟨GWL_XQ_CTRL x, 0, 12⟩
def GWL_XQ_CTRL_resume (x : Nat) : Fld := ⟨GWL_XQ_CTRL x, 12, 1⟩
def GWL_XQ_CTRL_skip (x : Nat) : Fld := ⟨GWL_XQ_CTRL x, 13, 1⟩
def GWL_XQ_CTRL_flush (x : Nat) : Fld := ⟨GWL_XQ_CTRL x, 14, 1⟩

/-- GWL_XQ_STATUS (R416). -/
def GWL_XQ_STATUS (x : Nat) : Nat := rk (0x10A0) (0x810 + x * 0x20)
def GWL_XQ_STATUS_state (x : Nat) : Fld := ⟨GWL_XQ_STATUS x, 0, 2⟩
def GWL_XQ_STATUS_head (x : Nat) : Fld := ⟨GWL_XQ_STATUS x, 2, 12⟩
def GWL_XQ_STATUS_halt_cause (x : Nat) : Fld := ⟨GWL_XQ_STATUS x, 16, 8⟩
def GWL_XQ_STATUS_bytes_done (x : Nat) : Fld := ⟨GWL_XQ_STATUS x, 24, 33⟩

/-- GWL_LINK_CTRL (R416). -/
def GWL_LINK_CTRL (l : Nat) : Nat := rk (0x10C0 + l) (0x0)
def GWL_LINK_CTRL_requalify (l : Nat) : Fld := ⟨GWL_LINK_CTRL l, 0, 1⟩
def GWL_LINK_CTRL_force_rate (l : Nat) : Fld := ⟨GWL_LINK_CTRL l, 1, 1⟩

/-- GWL_LINK_STATUS (R416). -/
def GWL_LINK_STATUS (l : Nat) : Nat := rk (0x10C0 + l) (0x8)
def GWL_LINK_STATUS_state (l : Nat) : Fld := ⟨GWL_LINK_STATUS l, 0, 3⟩
def GWL_LINK_STATUS_width (l : Nat) : Fld := ⟨GWL_LINK_STATUS l, 3, 3⟩
def GWL_LINK_STATUS_rate (l : Nat) : Fld := ⟨GWL_LINK_STATUS l, 6, 1⟩
def GWL_LINK_STATUS_lanes (l : Nat) : Fld := ⟨GWL_LINK_STATUS l, 7, 4⟩
def GWL_LINK_STATUS_failed (l : Nat) : Fld := ⟨GWL_LINK_STATUS l, 11, 4⟩
def GWL_LINK_STATUS_weight (l : Nat) : Fld := ⟨GWL_LINK_STATUS l, 15, 4⟩
def GWL_LINK_STATUS_last_status (l : Nat) : Fld := ⟨GWL_LINK_STATUS l, 24, 8⟩

/-- GWL_LANE_QUAL0 (R416). -/
def GWL_LANE_QUAL0 (l : Nat) : Nat := rk (0x10C0 + l) (0x10)
def GWL_LANE_QUAL0_errs_a (l : Nat) : Fld := ⟨GWL_LANE_QUAL0 l, 0, 32⟩
def GWL_LANE_QUAL0_errs_b (l : Nat) : Fld := ⟨GWL_LANE_QUAL0 l, 32, 32⟩

/-- GWL_LANE_QUAL1 (R416). -/
def GWL_LANE_QUAL1 (l : Nat) : Nat := rk (0x10C0 + l) (0x18)
def GWL_LANE_QUAL1_errs_a (l : Nat) : Fld := ⟨GWL_LANE_QUAL1 l, 0, 32⟩
def GWL_LANE_QUAL1_errs_b (l : Nat) : Fld := ⟨GWL_LANE_QUAL1 l, 32, 32⟩

/-- GWL_LINK_ERR (R416). -/
def GWL_LINK_ERR (l : Nat) : Nat := rk (0x10C0 + l) (0x20)
def GWL_LINK_ERR_fec_corrected (l : Nat) : Fld := ⟨GWL_LINK_ERR l, 0, 24⟩
def GWL_LINK_ERR_uncorrectable (l : Nat) : Fld := ⟨GWL_LINK_ERR l, 24, 16⟩
def GWL_LINK_ERR_hop_replays (l : Nat) : Fld := ⟨GWL_LINK_ERR l, 40, 16⟩
def GWL_LINK_ERR_width_drops (l : Nat) : Fld := ⟨GWL_LINK_ERR l, 56, 8⟩

/-- GWL_LINK_TX (R416). -/
def GWL_LINK_TX (l : Nat) : Nat := rk (0x10C0 + l) (0x28)
def GWL_LINK_TX_bytes (l : Nat) : Fld := ⟨GWL_LINK_TX l, 0, 56⟩

/-- GWL_LINK_RX (R416). -/
def GWL_LINK_RX (l : Nat) : Nat := rk (0x10C0 + l) (0x30)
def GWL_LINK_RX_bytes (l : Nat) : Fld := ⟨GWL_LINK_RX l, 0, 56⟩

/-! Registers of 16_bringup_firmware.md. -/

/-- FW_STAGE (R436). -/
def FW_STAGE : Nat := rk (0x1007) (0x0)
def FW_STAGE_stage : Fld := ⟨FW_STAGE, 0, 4⟩
def FW_STAGE_failed : Fld := ⟨FW_STAGE, 4, 1⟩
def FW_STAGE_status : Fld := ⟨FW_STAGE, 8, 8⟩
def FW_STAGE_detail : Fld := ⟨FW_STAGE, 16, 16⟩
def FW_STAGE_boot : Fld := ⟨FW_STAGE, 32, 32⟩

/-- FW_VERSION (R436). -/
def FW_VERSION : Nat := rk (0x1007) (0x8)
def FW_VERSION_version : Fld := ⟨FW_VERSION, 0, 64⟩

/-- FW_IFACE (R436). -/
def FW_IFACE : Nat := rk (0x1007) (0x10)
def FW_IFACE_iface_minor : Fld := ⟨FW_IFACE, 0, 16⟩
def FW_IFACE_iface_major : Fld := ⟨FW_IFACE, 16, 16⟩
def FW_IFACE_drv_min : Fld := ⟨FW_IFACE, 32, 16⟩
def FW_IFACE_drv_max : Fld := ⟨FW_IFACE, 48, 16⟩

/-- FW_LOAD_STATUS (R436). -/
def FW_LOAD_STATUS : Nat := rk (0x1007) (0x18)
def FW_LOAD_STATUS_status : Fld := ⟨FW_LOAD_STATUS, 0, 8⟩
def FW_LOAD_STATUS_port : Fld := ⟨FW_LOAD_STATUS, 8, 1⟩
def FW_LOAD_STATUS_length : Fld := ⟨FW_LOAD_STATUS, 16, 24⟩

/-- FW_HEARTBEAT (R436). -/
def FW_HEARTBEAT : Nat := rk (0x1007) (0x20)
def FW_HEARTBEAT_beats : Fld := ⟨FW_HEARTBEAT, 0, 64⟩

/-- FW_DIGEST (R436). -/
def FW_DIGEST (i : Nat) : Nat := rk (0x1007) (0x40 + i * 0x8)
def FW_DIGEST_digest (i : Nat) : Fld := ⟨FW_DIGEST i, 0, 64⟩

/-- FW_FEAT (R436). -/
def FW_FEAT (i : Nat) : Nat := rk (0x1007) (0x80 + i * 0x8)
def FW_FEAT_bits (i : Nat) : Fld := ⟨FW_FEAT i, 0, 64⟩

/-- FW_AGREED (R436). -/
def FW_AGREED (p i : Nat) : Nat := rk (0x1007) (0xa0 + p * 0x20 + i * 0x8)
def FW_AGREED_bits (p i : Nat) : Fld := ⟨FW_AGREED p i, 0, 64⟩

/-- FW_CORE (R436). -/
def FW_CORE (k : Nat) : Nat := rk (0x1007) (0x200 + k * 0x8)
def FW_CORE_state (k : Nat) : Fld := ⟨FW_CORE k, 0, 2⟩
def FW_CORE_trap_status (k : Nat) : Fld := ⟨FW_CORE k, 8, 8⟩
def FW_CORE_trap_pc (k : Nat) : Fld := ⟨FW_CORE k, 16, 48⟩

/-- LIC_FEATURES (R436). -/
def LIC_FEATURES : Nat := rk (0x1008) (0x0)
def LIC_FEATURES_links : Fld := ⟨LIC_FEATURES, 0, 6⟩
def LIC_FEATURES_ext_gib : Fld := ⟨LIC_FEATURES, 6, 8⟩
def LIC_FEATURES_bu_proc : Fld := ⟨LIC_FEATURES, 14, 1⟩
def LIC_FEATURES_chart_key : Fld := ⟨LIC_FEATURES, 15, 1⟩
def LIC_FEATURES_min_tide_us : Fld := ⟨LIC_FEATURES, 16, 10⟩

/-- LIC_PENDING (R436). -/
def LIC_PENDING : Nat := rk (0x1008) (0x8)
def LIC_PENDING_links : Fld := ⟨LIC_PENDING, 0, 6⟩
def LIC_PENDING_ext_gib : Fld := ⟨LIC_PENDING, 6, 8⟩
def LIC_PENDING_bu_proc : Fld := ⟨LIC_PENDING, 14, 1⟩
def LIC_PENDING_chart_key : Fld := ⟨LIC_PENDING, 15, 1⟩
def LIC_PENDING_min_tide_us : Fld := ⟨LIC_PENDING, 16, 10⟩

/-- LIC_STATUS (R436). -/
def LIC_STATUS : Nat := rk (0x1008) (0x10)
def LIC_STATUS_last_status : Fld := ⟨LIC_STATUS, 0, 8⟩
def LIC_STATUS_last_kind : Fld := ⟨LIC_STATUS, 8, 3⟩

/-- LIC_SLOT (R436). -/
def LIC_SLOT (k : Nat) : Nat := rk (0x1008) (0x100 + k * 0x10)
def LIC_SLOT_value (k : Nat) : Fld := ⟨LIC_SLOT k, 0, 32⟩
def LIC_SLOT_frank_id (k : Nat) : Fld := ⟨LIC_SLOT k, 32, 32⟩

/-- LIC_KEY_DIGEST (R436). -/
def LIC_KEY_DIGEST (i : Nat) : Nat := rk (0x1008) (0x200 + i * 0x8)
def LIC_KEY_DIGEST_digest (i : Nat) : Fld := ⟨LIC_KEY_DIGEST i, 0, 64⟩

/-- LCY_STATE (R436). -/
def LCY_STATE : Nat := rk (0x1009) (0x0)
def LCY_STATE_state : Fld := ⟨LCY_STATE, 0, 3⟩
def LCY_STATE_last_status : Fld := ⟨LCY_STATE, 8, 8⟩
def LCY_STATE_wipes : Fld := ⟨LCY_STATE, 16, 16⟩
def LCY_STATE_keys_loaded : Fld := ⟨LCY_STATE, 32, 1⟩

/-- LCY_SERIAL_LO (R436). -/
def LCY_SERIAL_LO : Nat := rk (0x1009) (0x8)
def LCY_SERIAL_LO_serial : Fld := ⟨LCY_SERIAL_LO, 0, 64⟩

/-- LCY_SERIAL_HI (R436). -/
def LCY_SERIAL_HI : Nat := rk (0x1009) (0x10)
def LCY_SERIAL_HI_serial : Fld := ⟨LCY_SERIAL_HI, 0, 64⟩

/-- LCY_TAMPER (R436). -/
def LCY_TAMPER : Nat := rk (0x1009) (0x18)
def LCY_TAMPER_voltage : Fld := ⟨LCY_TAMPER, 0, 1⟩
def LCY_TAMPER_clock : Fld := ⟨LCY_TAMPER, 1, 1⟩
def LCY_TAMPER_enclosure : Fld := ⟨LCY_TAMPER, 2, 1⟩
def LCY_TAMPER_input_level : Fld := ⟨LCY_TAMPER, 3, 1⟩
def LCY_TAMPER_armed : Fld := ⟨LCY_TAMPER, 4, 1⟩

/-- LCY_FUSE (R436). -/
def LCY_FUSE : Nat := rk (0x1009) (0x20)
def LCY_FUSE_map_ok : Fld := ⟨LCY_FUSE, 0, 1⟩
def LCY_FUSE_corrected : Fld := ⟨LCY_FUSE, 16, 16⟩

/-- SVC_DISPATCH_HEAD (R436). -/
def SVC_DISPATCH_HEAD : Nat := rk (0x100c) (0x8000)
def SVC_DISPATCH_HEAD_next : Fld := ⟨SVC_DISPATCH_HEAD, 0, 32⟩

/-- SVC_DISPATCH_SEL (R436). -/
def SVC_DISPATCH_SEL : Nat := rk (0x100c) (0x8008)
def SVC_DISPATCH_SEL_index : Fld := ⟨SVC_DISPATCH_SEL, 0, 32⟩

/-- SVC_DISPATCH_REC (R436). -/
def SVC_DISPATCH_REC (i : Nat) : Nat := rk (0x100c) (0x8010 + i * 0x8)
def SVC_DISPATCH_REC_rec (i : Nat) : Fld := ⟨SVC_DISPATCH_REC i, 0, 64⟩

/-! Registers of 17_events_monitors.md. -/

/-- EVC_ROUTE (R452). -/
def EVC_ROUTE (s : Nat) : Nat := rk (0x1003) (0x0 + s * 0x8)
def EVC_ROUTE_cores (s : Nat) : Fld := ⟨EVC_ROUTE s, 0, 8⟩
def EVC_ROUTE_p0_en (s : Nat) : Fld := ⟨EVC_ROUTE s, 8, 1⟩
def EVC_ROUTE_p0_vector (s : Nat) : Fld := ⟨EVC_ROUTE s, 9, 7⟩
def EVC_ROUTE_p1_en (s : Nat) : Fld := ⟨EVC_ROUTE s, 16, 1⟩
def EVC_ROUTE_p1_vector (s : Nat) : Fld := ⟨EVC_ROUTE s, 17, 7⟩
def EVC_ROUTE_mgmt (s : Nat) : Fld := ⟨EVC_ROUTE s, 24, 1⟩
def EVC_ROUTE_level (s : Nat) : Fld := ⟨EVC_ROUTE s, 25, 1⟩
def EVC_ROUTE_asserted (s : Nat) : Fld := ⟨EVC_ROUTE s, 26, 1⟩

/-- EVC_PEND_CORE (R452). -/
def EVC_PEND_CORE (j : Nat) : Nat := rk (0x1003) (0x4000 + j * 0x8)
def EVC_PEND_CORE_pending (j : Nat) : Fld := ⟨EVC_PEND_CORE j, 0, 64⟩

/-- EVC_PEND_P0 (R452). -/
def EVC_PEND_P0 (j : Nat) : Nat := rk (0x1003) (0x4100 + j * 0x8)
def EVC_PEND_P0_pending (j : Nat) : Fld := ⟨EVC_PEND_P0 j, 0, 64⟩

/-- EVC_PEND_P1 (R452). -/
def EVC_PEND_P1 (j : Nat) : Nat := rk (0x1003) (0x4200 + j * 0x8)
def EVC_PEND_P1_pending (j : Nat) : Fld := ⟨EVC_PEND_P1 j, 0, 64⟩

/-- EVC_SET (R452). -/
def EVC_SET : Nat := rk (0x1003) (0x4300)
def EVC_SET_source : Fld := ⟨EVC_SET, 0, 11⟩

/-- EVC_EOS (R452). -/
def EVC_EOS : Nat := rk (0x1003) (0x4308)
def EVC_EOS_source : Fld := ⟨EVC_EOS, 0, 11⟩
def EVC_EOS_dest : Fld := ⟨EVC_EOS, 12, 2⟩

/-- EVC_SUMMARY (R452). -/
def EVC_SUMMARY : Nat := rk (0x1003) (0x4310)
def EVC_SUMMARY_cores : Fld := ⟨EVC_SUMMARY, 0, 32⟩

/-- EVC_COUNTS (R452). -/
def EVC_COUNTS : Nat := rk (0x1003) (0x4318)
def EVC_COUNTS_fired : Fld := ⟨EVC_COUNTS, 0, 32⟩
def EVC_COUNTS_merged : Fld := ⟨EVC_COUNTS, 32, 32⟩

/-- AOW_WATCH (R452). -/
def AOW_WATCH (i : Nat) : Nat := rk (0x1004) (0x0 + i * 0x8)
def AOW_WATCH_source (i : Nat) : Fld := ⟨AOW_WATCH i, 0, 11⟩
def AOW_WATCH_valid (i : Nat) : Fld := ⟨AOW_WATCH i, 11, 1⟩
def AOW_WATCH_wake (i : Nat) : Fld := ⟨AOW_WATCH i, 12, 1⟩
def AOW_WATCH_mgmt (i : Nat) : Fld := ⟨AOW_WATCH i, 13, 1⟩

/-- AOW_WAKE (R452). -/
def AOW_WAKE : Nat := rk (0x1004) (0x100)
def AOW_WAKE_slot : Fld := ⟨AOW_WAKE, 0, 5⟩
def AOW_WAKE_woke : Fld := ⟨AOW_WAKE, 5, 1⟩
def AOW_WAKE_firings : Fld := ⟨AOW_WAKE, 16, 16⟩

/-- MON_BIND (R452). -/
def MON_BIND (u : Nat) : Nat := rk (0x1005) (0x0 + u * 0x100)
def MON_BIND_measurement (u : Nat) : Fld := ⟨MON_BIND u, 0, 16⟩
def MON_BIND_instance (u : Nat) : Fld := ⟨MON_BIND u, 16, 32⟩
def MON_BIND_enable (u : Nat) : Fld := ⟨MON_BIND u, 48, 1⟩

/-- MON_SETTING (R452). -/
def MON_SETTING (u : Nat) : Nat := rk (0x1005) (0x8 + u * 0x100)
def MON_SETTING_setting (u : Nat) : Fld := ⟨MON_SETTING u, 0, 64⟩

/-- MON_CTRL (R452). -/
def MON_CTRL (u : Nat) : Nat := rk (0x1005) (0x10 + u * 0x100)
def MON_CTRL_snap (u : Nat) : Fld := ⟨MON_CTRL u, 0, 1⟩
def MON_CTRL_clear (u : Nat) : Fld := ⟨MON_CTRL u, 1, 1⟩
def MON_CTRL_overflow (u : Nat) : Fld := ⟨MON_CTRL u, 2, 1⟩

/-- MON_MINMAX (R452). -/
def MON_MINMAX (u : Nat) : Nat := rk (0x1005) (0x18 + u * 0x100)
def MON_MINMAX_value (u : Nat) : Fld := ⟨MON_MINMAX u, 0, 64⟩

/-- MON_COUNT (R452). -/
def MON_COUNT (u : Nat) : Nat := rk (0x1005) (0x20 + u * 0x100)
def MON_COUNT_value (u : Nat) : Fld := ⟨MON_COUNT u, 0, 64⟩

/-- MON_SUM (R452). -/
def MON_SUM (u : Nat) : Nat := rk (0x1005) (0x28 + u * 0x100)
def MON_SUM_value (u : Nat) : Fld := ⟨MON_SUM u, 0, 64⟩

/-- MON_SNAP_TIME (R452). -/
def MON_SNAP_TIME (u : Nat) : Nat := rk (0x1005) (0x30 + u * 0x100)
def MON_SNAP_TIME_value (u : Nat) : Fld := ⟨MON_SNAP_TIME u, 0, 64⟩

/-- MON_SNAP_EDGE (R452). -/
def MON_SNAP_EDGE (u : Nat) : Nat := rk (0x1005) (0x38 + u * 0x100)
def MON_SNAP_EDGE_value (u : Nat) : Fld := ⟨MON_SNAP_EDGE u, 0, 64⟩

/-- MON_HIST (R452). -/
def MON_HIST (u j : Nat) : Nat := rk (0x1005) (0x40 + u * 0x100 + j * 0x8)
def MON_HIST_bin_lo (u j : Nat) : Fld := ⟨MON_HIST u j, 0, 32⟩
def MON_HIST_bin_hi (u j : Nat) : Fld := ⟨MON_HIST u j, 32, 32⟩

/-! Registers of 18_errors_service.md. -/

/-- CRC_CFG (R474). -/
def CRC_CFG (e : Nat) : Nat := rk (0x1006) (0x0 + e * 0x100)
def CRC_CFG_width (e : Nat) : Fld := ⟨CRC_CFG e, 0, 7⟩
def CRC_CFG_refin (e : Nat) : Fld := ⟨CRC_CFG e, 7, 1⟩
def CRC_CFG_refout (e : Nat) : Fld := ⟨CRC_CFG e, 8, 1⟩
def CRC_CFG_final_inv (e : Nat) : Fld := ⟨CRC_CFG e, 9, 1⟩
def CRC_CFG_source (e : Nat) : Fld := ⟨CRC_CFG e, 10, 3⟩
def CRC_CFG_dir (e : Nat) : Fld := ⟨CRC_CFG e, 13, 1⟩
def CRC_CFG_instance (e : Nat) : Fld := ⟨CRC_CFG e, 16, 16⟩

/-- CRC_POLY (R474). -/
def CRC_POLY (e : Nat) : Nat := rk (0x1006) (0x8 + e * 0x100)
def CRC_POLY_value (e : Nat) : Fld := ⟨CRC_POLY e, 0, 64⟩

/-- CRC_INIT (R474). -/
def CRC_INIT (e : Nat) : Nat := rk (0x1006) (0x10 + e * 0x100)
def CRC_INIT_value (e : Nat) : Fld := ⟨CRC_INIT e, 0, 64⟩

/-- CRC_EXPECT (R474). -/
def CRC_EXPECT (e : Nat) : Nat := rk (0x1006) (0x28 + e * 0x100)
def CRC_EXPECT_value (e : Nat) : Fld := ⟨CRC_EXPECT e, 0, 64⟩

/-- CRC_VALUE (R474). -/
def CRC_VALUE (e : Nat) : Nat := rk (0x1006) (0x18 + e * 0x100)
def CRC_VALUE_value (e : Nat) : Fld := ⟨CRC_VALUE e, 0, 64⟩

/-- CRC_RESULT (R474). -/
def CRC_RESULT (e : Nat) : Nat := rk (0x1006) (0x20 + e * 0x100)
def CRC_RESULT_value (e : Nat) : Fld := ⟨CRC_RESULT e, 0, 64⟩

/-- CRC_WIN_BASE (R474). -/
def CRC_WIN_BASE (e : Nat) : Nat := rk (0x1006) (0x30 + e * 0x100)
def CRC_WIN_BASE_addr (e : Nat) : Fld := ⟨CRC_WIN_BASE e, 0, 48⟩

/-- CRC_WIN_LIMIT (R474). -/
def CRC_WIN_LIMIT (e : Nat) : Nat := rk (0x1006) (0x38 + e * 0x100)
def CRC_WIN_LIMIT_addr (e : Nat) : Fld := ⟨CRC_WIN_LIMIT e, 0, 48⟩

/-- CRC_CTRL (R474). -/
def CRC_CTRL (e : Nat) : Nat := rk (0x1006) (0x40 + e * 0x100)
def CRC_CTRL_start (e : Nat) : Fld := ⟨CRC_CTRL e, 0, 1⟩
def CRC_CTRL_stop (e : Nat) : Fld := ⟨CRC_CTRL e, 1, 1⟩
def CRC_CTRL_resume (e : Nat) : Fld := ⟨CRC_CTRL e, 2, 1⟩
def CRC_CTRL_compare (e : Nat) : Fld := ⟨CRC_CTRL e, 3, 1⟩
def CRC_CTRL_win_en (e : Nat) : Fld := ⟨CRC_CTRL e, 4, 1⟩
def CRC_CTRL_running (e : Nat) : Fld := ⟨CRC_CTRL e, 5, 1⟩

/-- CRC_STATUS (R474). -/
def CRC_STATUS (e : Nat) : Nat := rk (0x1006) (0x48 + e * 0x100)
def CRC_STATUS_bytes (e : Nat) : Fld := ⟨CRC_STATUS e, 0, 48⟩
def CRC_STATUS_last_status (e : Nat) : Fld := ⟨CRC_STATUS e, 48, 8⟩
def CRC_STATUS_mismatch (e : Nat) : Fld := ⟨CRC_STATUS e, 56, 1⟩

/-- SVC_REPLACE (R474). -/
def SVC_REPLACE : Nat := rk (0x100c) (0x0)
def SVC_REPLACE_flags : Fld := ⟨SVC_REPLACE, 0, 12⟩

/-- SVC_REPLACE_LAST (R474). -/
def SVC_REPLACE_LAST : Nat := rk (0x100c) (0x8)
def SVC_REPLACE_LAST_flag : Fld := ⟨SVC_REPLACE_LAST, 0, 4⟩
def SVC_REPLACE_LAST_status : Fld := ⟨SVC_REPLACE_LAST, 8, 8⟩
def SVC_REPLACE_LAST_unit : Fld := ⟨SVC_REPLACE_LAST, 16, 16⟩
def SVC_REPLACE_LAST_boot : Fld := ⟨SVC_REPLACE_LAST, 32, 32⟩

/-- SVC_RETIRED_CELL_LO (R474). -/
def SVC_RETIRED_CELL_LO : Nat := rk (0x100c) (0x10)
def SVC_RETIRED_CELL_LO_retired : Fld := ⟨SVC_RETIRED_CELL_LO, 0, 64⟩

/-- SVC_RETIRED_CELL_HI (R474). -/
def SVC_RETIRED_CELL_HI : Nat := rk (0x100c) (0x18)
def SVC_RETIRED_CELL_HI_retired : Fld := ⟨SVC_RETIRED_CELL_HI, 0, 64⟩

/-- SVC_RETIRED_DL (R474). -/
def SVC_RETIRED_DL : Nat := rk (0x100c) (0x20)
def SVC_RETIRED_DL_retired : Fld := ⟨SVC_RETIRED_DL, 0, 64⟩

/-- SVC_RETIRED_LINK (R474). -/
def SVC_RETIRED_LINK : Nat := rk (0x100c) (0x28)
def SVC_RETIRED_LINK_retired : Fld := ⟨SVC_RETIRED_LINK, 0, 64⟩

/-- SVC_RETIRED_BU (R474). -/
def SVC_RETIRED_BU (j : Nat) : Nat := rk (0x100c) (0x100 + j * 0x8)
def SVC_RETIRED_BU_retired (j : Nat) : Fld := ⟨SVC_RETIRED_BU j, 0, 64⟩

/-- SVC_CE_CFG (R474). -/
def SVC_CE_CFG (k : Nat) : Nat := rk (0x100c) (0x200 + k * 0x8)
def SVC_CE_CFG_warn (k : Nat) : Fld := ⟨SVC_CE_CFG k, 0, 16⟩
def SVC_CE_CFG_replace (k : Nat) : Fld := ⟨SVC_CE_CFG k, 16, 16⟩
def SVC_CE_CFG_window_s (k : Nat) : Fld := ⟨SVC_CE_CFG k, 32, 16⟩

/-- SVC_CE_LAST (R474). -/
def SVC_CE_LAST : Nat := rk (0x100c) (0x240)
def SVC_CE_LAST_class : Fld := ⟨SVC_CE_LAST, 0, 3⟩
def SVC_CE_LAST_replace : Fld := ⟨SVC_CE_LAST, 3, 1⟩
def SVC_CE_LAST_unit : Fld := ⟨SVC_CE_LAST, 8, 16⟩
def SVC_CE_LAST_count : Fld := ⟨SVC_CE_LAST, 32, 32⟩

/-- SVC_TEST (R474). -/
def SVC_TEST : Nat := rk (0x100c) (0x300)
def SVC_TEST_state : Fld := ⟨SVC_TEST, 0, 2⟩
def SVC_TEST_kind : Fld := ⟨SVC_TEST, 2, 2⟩
def SVC_TEST_unit : Fld := ⟨SVC_TEST, 16, 16⟩
def SVC_TEST_status : Fld := ⟨SVC_TEST, 32, 8⟩
def SVC_TEST_detail : Fld := ⟨SVC_TEST, 40, 8⟩
def SVC_TEST_duration_ms : Fld := ⟨SVC_TEST, 48, 16⟩

/-! Registers of 19_power_thermal.md. -/

/-- THM_CHAN (R498). -/
def THM_CHAN (ch : Nat) : Nat := rk (0x100a) (0x0 + ch * 0x8)
def THM_CHAN_lo (ch : Nat) : Fld := ⟨THM_CHAN ch, 0, 16⟩
def THM_CHAN_hi (ch : Nat) : Fld := ⟨THM_CHAN ch, 16, 16⟩
def THM_CHAN_lo_missing (ch : Nat) : Fld := ⟨THM_CHAN ch, 32, 1⟩
def THM_CHAN_hi_missing (ch : Nat) : Fld := ⟨THM_CHAN ch, 33, 1⟩
def THM_CHAN_lo_marked (ch : Nat) : Fld := ⟨THM_CHAN ch, 34, 1⟩
def THM_CHAN_hi_marked (ch : Nat) : Fld := ⟨THM_CHAN ch, 35, 1⟩
def THM_CHAN_pair_suspect (ch : Nat) : Fld := ⟨THM_CHAN ch, 36, 1⟩
def THM_CHAN_disagree (ch : Nat) : Fld := ⟨THM_CHAN ch, 37, 1⟩

/-- THM_STATUS (R498). -/
def THM_STATUS : Nat := rk (0x100a) (0x800)
def THM_STATUS_t_max : Fld := ⟨THM_STATUS, 0, 16⟩
def THM_STATUS_t_max_chan : Fld := ⟨THM_STATUS, 16, 8⟩
def THM_STATUS_warning : Fld := ⟨THM_STATUS, 24, 1⟩
def THM_STATUS_temp_cause : Fld := ⟨THM_STATUS, 25, 1⟩
def THM_STATUS_cooling_degraded : Fld := ⟨THM_STATUS, 26, 1⟩
def THM_STATUS_round : Fld := ⟨THM_STATUS, 32, 32⟩

/-- THM_SHUTDOWN (R498). -/
def THM_SHUTDOWN : Nat := rk (0x100a) (0x808)
def THM_SHUTDOWN_latched : Fld := ⟨THM_SHUTDOWN, 0, 1⟩
def THM_SHUTDOWN_cause : Fld := ⟨THM_SHUTDOWN, 1, 2⟩
def THM_SHUTDOWN_chan : Fld := ⟨THM_SHUTDOWN, 3, 8⟩
def THM_SHUTDOWN_reading : Fld := ⟨THM_SHUTDOWN, 11, 16⟩

/-- THM_GRACE (R498). -/
def THM_GRACE : Nat := rk (0x100a) (0x810)
def THM_GRACE_grace_ms : Fld := ⟨THM_GRACE, 0, 7⟩

/-- THM_SOUND_CFG (R498). -/
def THM_SOUND_CFG : Nat := rk (0x100a) (0x818)
def THM_SOUND_CFG_rot_en : Fld := ⟨THM_SOUND_CFG, 0, 1⟩
def THM_SOUND_CFG_horizon_ms : Fld := ⟨THM_SOUND_CFG, 1, 5⟩
def THM_SOUND_CFG_rotate_at : Fld := ⟨THM_SOUND_CFG, 6, 8⟩
def THM_SOUND_CFG_rot_margin : Fld := ⟨THM_SOUND_CFG, 14, 4⟩
def THM_SOUND_CFG_rot_min_ms : Fld := ⟨THM_SOUND_CFG, 18, 10⟩

/-- THM_COOL (R498). -/
def THM_COOL : Nat := rk (0x100a) (0x820)
def THM_COOL_flow_ml : Fld := ⟨THM_COOL, 0, 16⟩
def THM_COOL_dt_meas : Fld := ⟨THM_COOL, 16, 16⟩
def THM_COOL_dt_exp : Fld := ⟨THM_COOL, 32, 16⟩
def THM_COOL_resid : Fld := ⟨THM_COOL, 48, 16⟩

/-- THM_COOL_CFG (R498). -/
def THM_COOL_CFG : Nat := rk (0x100a) (0x828)
def THM_COOL_CFG_cp : Fld := ⟨THM_COOL_CFG, 0, 16⟩
def THM_COOL_CFG_inlet_max : Fld := ⟨THM_COOL_CFG, 16, 8⟩
def THM_COOL_CFG_flow_min : Fld := ⟨THM_COOL_CFG, 24, 16⟩
def THM_COOL_CFG_resid_max : Fld := ⟨THM_COOL_CFG, 40, 4⟩

/-- THM_COUNTS (R498). -/
def THM_COUNTS : Nat := rk (0x100a) (0x830)
def THM_COUNTS_warnings : Fld := ⟨THM_COUNTS, 0, 16⟩
def THM_COUNTS_temp_raises : Fld := ⟨THM_COUNTS, 16, 16⟩
def THM_COUNTS_disagreements : Fld := ⟨THM_COUNTS, 32, 16⟩
def THM_COUNTS_rotations : Fld := ⟨THM_COUNTS, 48, 16⟩

/-- THM_SOUND (R498). -/
def THM_SOUND (c : Nat) : Nat := rk (0x100a) (0x1000 + c * 0x8)
def THM_SOUND_logic_pred (c : Nat) : Fld := ⟨THM_SOUND c, 0, 16⟩
def THM_SOUND_dram_pred (c : Nat) : Fld := ⟨THM_SOUND c, 16, 16⟩
def THM_SOUND_made_round (c : Nat) : Fld := ⟨THM_SOUND c, 32, 32⟩

/-- PWR_STATE (R498). -/
def PWR_STATE : Nat := rk (0x100b) (0x0)
def PWR_STATE_state : Fld := ⟨PWR_STATE, 0, 2⟩
def PWR_STATE_pending : Fld := ⟨PWR_STATE, 2, 1⟩
def PWR_STATE_wake_cause : Fld := ⟨PWR_STATE, 3, 2⟩
def PWR_STATE_last_status : Fld := ⟨PWR_STATE, 8, 8⟩
def PWR_STATE_standby_entries : Fld := ⟨PWR_STATE, 16, 16⟩

/-- PWR_LIMIT (R498). -/
def PWR_LIMIT : Nat := rk (0x100b) (0x8)
def PWR_LIMIT_limit_w : Fld := ⟨PWR_LIMIT, 0, 16⟩
def PWR_LIMIT_target_w : Fld := ⟨PWR_LIMIT, 16, 16⟩

/-- PWR_INPUT (R498). -/
def PWR_INPUT : Nat := rk (0x100b) (0x10)
def PWR_INPUT_p_in : Fld := ⟨PWR_INPUT, 0, 16⟩
def PWR_INPUT_p_avg10 : Fld := ⟨PWR_INPUT, 16, 16⟩
def PWR_INPUT_p_book : Fld := ⟨PWR_INPUT, 32, 16⟩
def PWR_INPUT_v_in : Fld := ⟨PWR_INPUT, 48, 16⟩

/-- PWR_THROTTLE (R498). -/
def PWR_THROTTLE : Nat := rk (0x100b) (0x18)
def PWR_THROTTLE_request : Fld := ⟨PWR_THROTTLE, 0, 1⟩
def PWR_THROTTLE_level : Fld := ⟨PWR_THROTTLE, 1, 2⟩
def PWR_THROTTLE_causes : Fld := ⟨PWR_THROTTLE, 3, 4⟩
def PWR_THROTTLE_grace : Fld := ⟨PWR_THROTTLE, 7, 1⟩
def PWR_THROTTLE_grace_left_ms : Fld := ⟨PWR_THROTTLE, 8, 7⟩

/-- PWR_COUNTS (R498). -/
def PWR_COUNTS : Nat := rk (0x100b) (0x20)
def PWR_COUNTS_requests : Fld := ⟨PWR_COUNTS, 0, 16⟩
def PWR_COUNTS_enforcements : Fld := ⟨PWR_COUNTS, 16, 16⟩
def PWR_COUNTS_escalations : Fld := ⟨PWR_COUNTS, 32, 16⟩
def PWR_COUNTS_peak_events : Fld := ⟨PWR_COUNTS, 48, 16⟩

/-- PWR_LEVEL_MS (R498). -/
def PWR_LEVEL_MS : Nat := rk (0x100b) (0x28)
def PWR_LEVEL_MS_level1 : Fld := ⟨PWR_LEVEL_MS, 0, 16⟩
def PWR_LEVEL_MS_level2 : Fld := ⟨PWR_LEVEL_MS, 16, 16⟩
def PWR_LEVEL_MS_level3 : Fld := ⟨PWR_LEVEL_MS, 32, 16⟩

/-! Registers of 06_cell.md. -/

/-- SEQ_THR_REG (R181). -/
def SEQ_THR_REG (c t i : Nat) : Nat := rk (c * 16 + 1) (0x1000 + t * 0x100 + i * 0x8)
def SEQ_THR_REG_value (c t i : Nat) : Fld := ⟨SEQ_THR_REG c t i, 0, 64⟩

/-! Registers of 10_shared_cache_external.md. -/

/-- GD_SCRUB_BASE (R291). -/
def GD_SCRUB_BASE : Nat := rk (0x1060) (0x200)
def GD_SCRUB_BASE_addr : Fld := ⟨GD_SCRUB_BASE, 0, 48⟩

/-- GD_SCRUB_LIMIT (R291). -/
def GD_SCRUB_LIMIT : Nat := rk (0x1060) (0x208)
def GD_SCRUB_LIMIT_addr : Fld := ⟨GD_SCRUB_LIMIT, 0, 48⟩

/-- GD_SCRUB_CTRL (R291). -/
def GD_SCRUB_CTRL : Nat := rk (0x1060) (0x210)
def GD_SCRUB_CTRL_start : Fld := ⟨GD_SCRUB_CTRL, 0, 1⟩
def GD_SCRUB_CTRL_abort : Fld := ⟨GD_SCRUB_CTRL, 1, 1⟩
def GD_SCRUB_CTRL_share : Fld := ⟨GD_SCRUB_CTRL, 2, 5⟩
def GD_SCRUB_CTRL_write_back : Fld := ⟨GD_SCRUB_CTRL, 7, 1⟩
def GD_SCRUB_CTRL_busy : Fld := ⟨GD_SCRUB_CTRL, 8, 1⟩
def GD_SCRUB_CTRL_last_status : Fld := ⟨GD_SCRUB_CTRL, 16, 8⟩

/-- GD_SCRUB_RECADDR (R291). -/
def GD_SCRUB_RECADDR : Nat := rk (0x1060) (0x218)
def GD_SCRUB_RECADDR_addr : Fld := ⟨GD_SCRUB_RECADDR, 0, 48⟩

/-- GD_SCRUB_REC (R291). -/
def GD_SCRUB_REC (i : Nat) : Nat := rk (0x1060) (0x220 + i * 0x8)
def GD_SCRUB_REC_rec (i : Nat) : Fld := ⟨GD_SCRUB_REC i, 0, 64⟩

/-- GD_DIAG_BASE (R291). -/
def GD_DIAG_BASE : Nat := rk (0x1060) (0x300)
def GD_DIAG_BASE_lock : Fld := ⟨GD_DIAG_BASE, 0, 1⟩
def GD_DIAG_BASE_lock_ok : Fld := ⟨GD_DIAG_BASE, 1, 1⟩
def GD_DIAG_BASE_base : Fld := ⟨GD_DIAG_BASE, 6, 42⟩

/-- GD_DIAG_LIMIT (R291). -/
def GD_DIAG_LIMIT : Nat := rk (0x1060) (0x308)
def GD_DIAG_LIMIT_limit : Fld := ⟨GD_DIAG_LIMIT, 0, 48⟩

/-- GD_DIAG_ADDR (R291). -/
def GD_DIAG_ADDR : Nat := rk (0x1060) (0x310)
def GD_DIAG_ADDR_low : Fld := ⟨GD_DIAG_ADDR, 0, 3⟩
def GD_DIAG_ADDR_word : Fld := ⟨GD_DIAG_ADDR, 3, 45⟩

/-- GD_DIAG_DATA (R291). -/
def GD_DIAG_DATA : Nat := rk (0x1060) (0x318)
def GD_DIAG_DATA_data : Fld := ⟨GD_DIAG_DATA, 0, 64⟩

/-- GD_DIAG_CHECK (R291). -/
def GD_DIAG_CHECK : Nat := rk (0x1060) (0x320)
def GD_DIAG_CHECK_check : Fld := ⟨GD_DIAG_CHECK, 0, 16⟩
def GD_DIAG_CHECK_raw_write : Fld := ⟨GD_DIAG_CHECK, 16, 1⟩
def GD_DIAG_CHECK_raw_read : Fld := ⟨GD_DIAG_CHECK, 17, 1⟩
def GD_DIAG_CHECK_status : Fld := ⟨GD_DIAG_CHECK, 24, 8⟩

/-! Registers of 03_numerics.md. -/

/-- FEED_CB_LO (R77). -/
def FEED_CB_LO (c k i : Nat) : Nat := rk (c * 16 + 11) (0x0 + k * 0x400 + i * 0x8)
def FEED_CB_LO_value (c k i : Nat) : Fld := ⟨FEED_CB_LO c k i, 0, 64⟩

/-- FEED_CB_LO_DESC (R77). -/
def FEED_CB_LO_DESC (c k : Nat) : Nat := rk (c * 16 + 11) (0x3f8 + k * 0x400)
def FEED_CB_LO_DESC_valid (c k : Nat) : Fld := ⟨FEED_CB_LO_DESC c k, 0, 1⟩
def FEED_CB_LO_DESC_size (c k : Nat) : Fld := ⟨FEED_CB_LO_DESC c k, 1, 1⟩
def FEED_CB_LO_DESC_entry_fmt (c k : Nat) : Fld := ⟨FEED_CB_LO_DESC c k, 2, 2⟩
def FEED_CB_LO_DESC_ascending (c k : Nat) : Fld := ⟨FEED_CB_LO_DESC c k, 4, 1⟩

/-- FEED_CB_HI (R77). -/
def FEED_CB_HI (c k i : Nat) : Nat := rk (c * 16 + 12) (0x0 + k * 0x400 + i * 0x8)
def FEED_CB_HI_value (c k i : Nat) : Fld := ⟨FEED_CB_HI c k i, 0, 64⟩

/-- FEED_CB_HI_DESC (R77). -/
def FEED_CB_HI_DESC (c k : Nat) : Nat := rk (c * 16 + 12) (0x3f8 + k * 0x400)
def FEED_CB_HI_DESC_valid (c k : Nat) : Fld := ⟨FEED_CB_HI_DESC c k, 0, 1⟩
def FEED_CB_HI_DESC_size (c k : Nat) : Fld := ⟨FEED_CB_HI_DESC c k, 1, 1⟩
def FEED_CB_HI_DESC_entry_fmt (c k : Nat) : Fld := ⟨FEED_CB_HI_DESC c k, 2, 2⟩
def FEED_CB_HI_DESC_ascending (c k : Nat) : Fld := ⟨FEED_CB_HI_DESC c k, 4, 1⟩

end R

end Sys2Proof.Machine
end

