-- ==== Sys2Proof/Machine/RegTable.lean ====
section
/-! DEFINITION. The register table: for every page class of R29 its registers with their offsets, reset domain and
fields (access type of R5, sticky mark, reset value, and the encodings that R6 lets a write store). -/

namespace Sys2Proof.Machine

/-- The access types of R5 (W1S and W1C occur in no register of the spec); `row` is an RW field whose write has a command
of its own in the opcode table, so that the plain register write leaves it alone. -/
inductive Acc where
  | rw | ro | wo | rc | stg | row
  deriving DecidableEq, Repr

/-- The reset domains of R7. -/
inductive Dom where
  | aon | chip | die
  deriving DecidableEq, Repr

/-- One field: lowest bit, width, access, sticky (STK), reset value, and the ranges of encodings its Meaning cell lists
(no range: every encoding). -/
structure FieldSpec where
  lo  : Nat
  w   : Nat
  acc : Acc
  stk : Bool
  rst : Nat
  ok  : List (Nat × Nat)
  deriving DecidableEq, Repr

/-- One register: base offset in its page, the strides and counts of its indices (outermost first), domain, fields. -/
structure RegSpec where
  off    : Nat
  dims   : List (Nat × Nat)
  dom    : Dom
  fields : List FieldSpec
  deriving DecidableEq, Repr

/-- The page classes of R29. -/
inductive Cls where
  | cell | seq | feed | drn | vec | que | kvt | pbx | vlt | bu | buprog | dl | dlDie | hif | qp | scCommon | scSlice | gdCommon | gdCtrl | gwlCommon | gwlLink | tide | cht | swl | evc | aow | mon | crc | fw | lic | lcy | thm | pwr | svc | cbLo | cbHi
  deriving DecidableEq, Repr

/-- The class of page q and the number of the unit it belongs to (R29); `none` for a hole. -/
def clsOf (q : Nat) : Option (Cls × Nat) :=
  if q < 0x800 then
    let c := q / 16
    match q % 16 with
    | 0 => some (.cell, c) | 1 => some (.seq, c) | 2 => some (.feed, c) | 3 => some (.drn, c)
    | 4 => some (.vec, c) | 5 => some (.que, c) | 6 => some (.kvt, c) | 7 => some (.pbx, c)
    | 8 => some (.vlt, c) | 9 => some (.bu, c) | 10 => some (.buprog, c) | 11 => some (.cbLo, c)
    | 12 => some (.cbHi, c) | _ => none
  else if q < 0x840 then
    let d := (q - 0x800) / 8
    if (q - 0x800) % 8 < 6 then some (.dl, d * 6 + (q - 0x800) % 8)
    else if (q - 0x800) % 8 = 6 then some (.dlDie, d) else none
  else if q < 0x1000 then none
  else match q - 0x1000 with
    | 0 => some (.tide, 0) | 1 => some (.cht, 0) | 2 => some (.swl, 0) | 3 => some (.evc, 0)
    | 4 => some (.aow, 0) | 5 => some (.mon, 0) | 6 => some (.crc, 0) | 7 => some (.fw, 0)
    | 8 => some (.lic, 0) | 9 => some (.lcy, 0) | 10 => some (.thm, 0) | 11 => some (.pwr, 0)
    | 12 => some (.svc, 0)
    | _ =>
      if q = 0x1010 ∨ q = 0x1011 then some (.hif, q - 0x1010)
      else if q = 0x1012 ∨ q = 0x1013 then some (.qp, q - 0x1012)
      else if q = 0x1020 then some (.scCommon, 0)
      else if 0x1040 ≤ q ∧ q < 0x1060 then some (.scSlice, q - 0x1040)
      else if q = 0x1060 then some (.gdCommon, 0)
      else if 0x1080 ≤ q ∧ q < 0x1098 then some (.gdCtrl, q - 0x1080)
      else if q = 0x10A0 then some (.gwlCommon, 0)
      else if 0x10C0 ≤ q ∧ q < 0x10F0 then some (.gwlLink, q - 0x10C0)
      else none

/-- Registers of class cell. -/
def specsCell : List RegSpec := [
  -- CELL_ROUND
  ⟨0x100, [], .die, [
      ⟨0, 2, .stg, false, 0, []⟩,
      ⟨2, 2, .stg, false, 0, []⟩,
      ⟨4, 2, .stg, false, 0, []⟩,
      ⟨6, 2, .stg, false, 0, []⟩,
      ⟨8, 2, .stg, false, 0, []⟩,
      ⟨10, 2, .stg, false, 0, []⟩,
      ⟨12, 2, .stg, false, 0, []⟩,
      ⟨14, 2, .stg, false, 0, []⟩,
      ⟨16, 2, .stg, false, 0, []⟩]⟩,
  -- CELL_NUM_EVENTS
  ⟨0x108, [], .die, [
      ⟨0, 16, .rc, false, 0, []⟩,
      ⟨16, 16, .rc, false, 0, []⟩,
      ⟨32, 16, .rc, false, 0, []⟩,
      ⟨48, 16, .rc, false, 0, []⟩]⟩,
  -- CELL_STATUS
  ⟨0x0, [], .chip, [
      ⟨0, 1, .ro, false, 0, []⟩,
      ⟨1, 1, .ro, false, 0, []⟩,
      ⟨2, 1, .ro, false, 0, []⟩]⟩,
  -- CELL_BANK_OWN
  ⟨0x10, [(0x8, 6)], .die, [
      ⟨0, 16, .row, false, 0, []⟩,
      ⟨16, 16, .row, false, 0, []⟩,
      ⟨32, 16, .row, false, 0, []⟩,
      ⟨48, 16, .row, false, 0, []⟩]⟩,
  -- CELL_COLLISION
  ⟨0x40, [], .die, [
      ⟨0, 32, .rc, false, 0, []⟩,
      ⟨32, 5, .ro, false, 0, []⟩,
      ⟨37, 16, .ro, false, 0, []⟩,
      ⟨53, 4, .ro, false, 0, []⟩]⟩,
  -- CELL_OWN_FAULT
  ⟨0x48, [], .die, [
      ⟨0, 32, .rc, false, 0, []⟩,
      ⟨32, 5, .ro, false, 0, []⟩,
      ⟨37, 4, .ro, false, 0, []⟩]⟩,
  -- CELL_ECC
  ⟨0x50, [], .die, [
      ⟨0, 12, .rc, false, 0, []⟩,
      ⟨12, 12, .rc, false, 0, []⟩,
      ⟨24, 12, .rc, false, 0, []⟩,
      ⟨36, 12, .rc, false, 0, []⟩,
      ⟨48, 5, .ro, false, 0, []⟩]⟩]

/-- Registers of class seq. -/
def specsSeq : List RegSpec := [
  -- SEQ_THR_CFG
  ⟨0x0, [(0x40, 16)], .die, [
      ⟨0, 1, .stg, false, 0, []⟩,
      ⟨1, 2, .stg, false, 0, []⟩,
      ⟨3, 45, .stg, false, 0, []⟩]⟩,
  -- SEQ_THR_CTRL
  ⟨0x8, [(0x40, 16)], .die, [
      ⟨0, 1, .wo, false, 0, []⟩,
      ⟨1, 1, .wo, false, 0, []⟩,
      ⟨2, 1, .wo, false, 0, []⟩]⟩,
  -- SEQ_THR_STATUS
  ⟨0x10, [(0x40, 16)], .die, [
      ⟨0, 3, .ro, false, 0, []⟩,
      ⟨3, 2, .ro, false, 0, []⟩,
      ⟨8, 8, .ro, false, 0, []⟩,
      ⟨16, 8, .ro, false, 0, []⟩,
      ⟨24, 8, .ro, false, 0, []⟩]⟩,
  -- SEQ_THR_PC
  ⟨0x18, [(0x40, 16)], .die, [
      ⟨0, 48, .rw, false, 0, []⟩]⟩,
  -- SEQ_THR_FAULT
  ⟨0x20, [(0x40, 16)], .die, [
      ⟨0, 48, .ro, false, 0, []⟩]⟩,
  -- SEQ_THR_NEXT
  ⟨0x28, [(0x40, 16)], .die, [
      ⟨0, 48, .ro, false, 0, []⟩]⟩,
  -- SEQ_ICACHE
  ⟨0x2000, [], .die, [
      ⟨0, 1, .wo, false, 0, []⟩,
      ⟨16, 16, .rc, false, 0, []⟩,
      ⟨32, 32, .rc, false, 0, []⟩]⟩,
  -- SEQ_THR_REG
  ⟨0x1000, [(0x100, 16), (0x8, 32)], .die, [
      ⟨0, 64, .rw, false, 0, []⟩]⟩]

/-- Registers of class feed. -/
def specsFeed : List RegSpec := [
  -- FEED_CTRL
  ⟨0x0, [], .die, [
      ⟨0, 1, .row, false, 0, []⟩,
      ⟨1, 1, .wo, false, 0, []⟩,
      ⟨2, 1, .rw, false, 0, []⟩]⟩,
  -- FEED_STATUS
  ⟨0x8, [], .die, [
      ⟨0, 6, .ro, false, 0, []⟩,
      ⟨6, 6, .ro, false, 0, []⟩,
      ⟨12, 2, .ro, false, 0, []⟩,
      ⟨16, 8, .ro, false, 0, []⟩]⟩,
  -- FEED_ISSUE
  ⟨0x10, [], .die, [
      ⟨6, 16, .wo, false, 0, []⟩]⟩,
  -- FEED_PASS_COUNT
  ⟨0x18, [], .die, [
      ⟨0, 48, .ro, false, 0, []⟩]⟩,
  -- FEED_CK_FED
  ⟨0x40, [], .die, [
      ⟨0, 48, .rc, false, 0, []⟩]⟩,
  -- FEED_CK_FLUSH
  ⟨0x48, [], .die, [
      ⟨0, 48, .rc, false, 0, []⟩]⟩,
  -- FEED_CK_IDLE
  ⟨0x50, [], .die, [
      ⟨0, 48, .rc, false, 0, []⟩]⟩,
  -- FEED_FRZ_WGT
  ⟨0x58, [], .die, [
      ⟨0, 48, .rc, false, 0, []⟩]⟩,
  -- FEED_FRZ_ACT
  ⟨0x60, [], .die, [
      ⟨0, 48, .rc, false, 0, []⟩]⟩,
  -- FEED_ROWS_FED
  ⟨0x68, [], .die, [
      ⟨0, 48, .rc, false, 0, []⟩]⟩,
  -- FEED_ROWS_MASKED
  ⟨0x70, [], .die, [
      ⟨0, 48, .rc, false, 0, []⟩]⟩,
  -- FEED_PASS_SKIPPED
  ⟨0x78, [], .die, [
      ⟨0, 48, .rc, false, 0, []⟩]⟩,
  -- FEED_LAST_FAULT
  ⟨0x80, [], .die, [
      ⟨0, 48, .ro, false, 0, []⟩,
      ⟨48, 8, .ro, false, 0, []⟩,
      ⟨56, 4, .ro, false, 0, []⟩,
      ⟨60, 1, .ro, false, 0, []⟩]⟩,
  -- FEED_SP_CTRL
  ⟨0x100, [], .die, [
      ⟨0, 1, .stg, false, 1, []⟩,
      ⟨1, 5, .stg, false, 16, [(1, 16)]⟩]⟩,
  -- FEED_SP_GRP_SCANNED
  ⟨0x108, [], .die, [
      ⟨0, 48, .rc, false, 0, []⟩]⟩,
  -- FEED_SP_GRP_SKIPPED
  ⟨0x110, [], .die, [
      ⟨0, 48, .rc, false, 0, []⟩]⟩,
  -- FEED_SP_PASS_MERGED
  ⟨0x118, [], .die, [
      ⟨0, 48, .rc, false, 0, []⟩]⟩,
  -- FEED_SP_BLK_ABSENT
  ⟨0x120, [], .die, [
      ⟨0, 48, .rc, false, 0, []⟩]⟩,
  -- FEED_SP_BYTES_SAVED
  ⟨0x128, [], .die, [
      ⟨0, 48, .rc, false, 0, []⟩]⟩,
  -- FEED_SP_SCAN_CK
  ⟨0x130, [], .die, [
      ⟨0, 48, .rc, false, 0, []⟩]⟩,
  -- FEED_SP24_PASSES
  ⟨0x138, [], .die, [
      ⟨0, 48, .rc, false, 0, []⟩]⟩]

/-- Registers of class drn. -/
def specsDrn : List RegSpec := [
  -- DRN_STATUS
  ⟨0x0, [], .die, [
      ⟨0, 6, .ro, false, 32, []⟩,
      ⟨8, 8, .ro, false, 0, []⟩]⟩,
  -- DRN_FRZ_FULL
  ⟨0x40, [], .die, [
      ⟨0, 48, .rc, false, 0, []⟩]⟩,
  -- DRN_ROWS_OUT
  ⟨0x48, [], .die, [
      ⟨0, 48, .rc, false, 0, []⟩]⟩,
  -- DRN_POISON
  ⟨0x50, [], .die, [
      ⟨0, 16, .rc, false, 0, []⟩,
      ⟨16, 10, .ro, false, 0, []⟩,
      ⟨26, 4, .ro, false, 0, []⟩,
      ⟨30, 34, .ro, false, 0, []⟩]⟩]

/-- Registers of class vec. -/
def specsVec : List RegSpec := [
  -- VEC_STATUS
  ⟨0x0, [], .die, [
      ⟨0, 5, .ro, false, 0, []⟩,
      ⟨5, 1, .ro, false, 0, []⟩,
      ⟨8, 8, .ro, false, 0, []⟩,
      ⟨16, 4, .ro, false, 0, []⟩]⟩,
  -- VEC_OPS
  ⟨0x8, [], .die, [
      ⟨0, 48, .rc, false, 0, []⟩]⟩,
  -- VEC_BUSY_CK
  ⟨0x10, [], .die, [
      ⟨0, 48, .rc, false, 0, []⟩]⟩]

/-- Registers of class que. -/
def specsQue : List RegSpec := [
  -- QUE_ROUTE_OUT_CFG
  ⟨0x8000, [(0x20, 32)], .die, [
      ⟨0, 7, .stg, false, 0, []⟩,
      ⟨7, 1, .stg, false, 0, []⟩,
      ⟨8, 10, .stg, false, 0, [(0, 767)]⟩,
      ⟨19, 5, .stg, false, 12, [(12, 20)]⟩,
      ⟨24, 9, .stg, false, 1, [(1, 256)]⟩]⟩,
  -- QUE_ROUTE_OUT_STATE
  ⟨0x8008, [(0x20, 32)], .die, [
      ⟨0, 9, .ro, false, 0, []⟩,
      ⟨9, 9, .ro, false, 0, []⟩,
      ⟨18, 1, .ro, false, 0, []⟩,
      ⟨24, 8, .ro, false, 0, []⟩]⟩,
  -- QUE_ROUTE_OUT_SEGS
  ⟨0x8010, [(0x20, 32)], .die, [
      ⟨0, 48, .ro, false, 0, []⟩]⟩,
  -- QUE_ROUTE_OUT_STALL
  ⟨0x8018, [(0x20, 32)], .die, [
      ⟨0, 48, .rc, false, 0, []⟩]⟩,
  -- QUE_ROUTE_IN_CFG
  ⟨0x9000, [(0x20, 32)], .die, [
      ⟨0, 7, .stg, false, 0, []⟩,
      ⟨7, 1, .stg, false, 0, []⟩,
      ⟨8, 10, .stg, false, 0, [(0, 767)]⟩,
      ⟨19, 5, .stg, false, 12, [(12, 20)]⟩,
      ⟨24, 9, .stg, false, 1, [(1, 256)]⟩]⟩,
  -- QUE_ROUTE_IN_STATE
  ⟨0x9008, [(0x20, 32)], .die, [
      ⟨0, 9, .ro, false, 0, []⟩,
      ⟨9, 48, .ro, false, 0, []⟩]⟩,
  -- QUE_LIMITS
  ⟨0xa000, [], .die, [
      ⟨0, 9, .ro, false, 256, []⟩,
      ⟨9, 9, .ro, false, 0, []⟩]⟩,
  -- QUE_CH_CTRL
  ⟨0x0, [(0x100, 8)], .die, [
      ⟨0, 1, .row, false, 0, []⟩,
      ⟨1, 1, .wo, false, 0, []⟩,
      ⟨2, 1, .wo, false, 0, []⟩,
      ⟨3, 1, .wo, false, 0, []⟩]⟩,
  -- QUE_CH_STATUS
  ⟨0x8, [(0x100, 8)], .die, [
      ⟨0, 2, .ro, false, 0, []⟩,
      ⟨2, 7, .ro, false, 0, []⟩,
      ⟨16, 8, .ro, false, 0, []⟩,
      ⟨24, 8, .ro, false, 0, []⟩]⟩,
  -- QUE_CH_PROGRESS
  ⟨0x10, [(0x100, 8)], .die, [
      ⟨0, 33, .ro, false, 0, []⟩]⟩,
  -- QUE_CH_FAULT
  ⟨0x18, [(0x100, 8)], .die, [
      ⟨0, 48, .ro, false, 0, []⟩,
      ⟨48, 8, .ro, false, 0, []⟩,
      ⟨56, 4, .ro, false, 0, []⟩,
      ⟨60, 1, .ro, false, 0, []⟩]⟩,
  -- QUE_CH_SUBMIT
  ⟨0x20, [(0x100, 8)], .die, [
      ⟨6, 16, .wo, false, 0, []⟩]⟩,
  -- QUE_CH_DONE
  ⟨0x28, [(0x100, 8)], .die, [
      ⟨0, 48, .ro, false, 0, []⟩]⟩]

/-- Registers of class kvt. -/
def specsKvt : List RegSpec := [
  -- KVT_CTRL
  ⟨0x0, [], .die, [
      ⟨0, 1, .rw, false, 0, []⟩,
      ⟨1, 1, .wo, false, 0, []⟩]⟩,
  -- KVT_STATUS
  ⟨0x8, [], .die, [
      ⟨0, 6, .ro, false, 0, []⟩,
      ⟨6, 3, .ro, false, 0, []⟩,
      ⟨16, 8, .ro, false, 0, []⟩,
      ⟨24, 4, .ro, false, 0, []⟩,
      ⟨28, 1, .ro, false, 0, []⟩]⟩,
  -- KVT_SUBMIT
  ⟨0x10, [], .die, [
      ⟨5, 17, .wo, false, 0, []⟩]⟩,
  -- KVT_SEQ_BASE
  ⟨0x18, [], .die, [
      ⟨6, 42, .rw, false, 0, []⟩]⟩,
  -- KVT_RC_BASE
  ⟨0x20, [], .die, [
      ⟨6, 42, .rw, false, 0, []⟩,
      ⟨48, 5, .rw, false, 10, [(10, 20)]⟩]⟩,
  -- KVT_MIG
  ⟨0x28, [], .die, [
      ⟨0, 11, .rw, false, 64, [(0, 1024)]⟩,
      ⟨11, 16, .ro, false, 0, []⟩,
      ⟨27, 12, .ro, false, 0, []⟩]⟩,
  -- KVT_LAYOUT
  ⟨0x100, [(0x8, 128)], .die, [
      ⟨0, 4, .stg, false, 6, [(6, 10)]⟩,
      ⟨4, 3, .stg, false, 0, []⟩,
      ⟨7, 1, .stg, false, 0, []⟩,
      ⟨8, 1, .stg, false, 0, []⟩]⟩,
  -- KVT_FL_BASE
  ⟨0x800, [(0x20, 9)], .die, [
      ⟨3, 45, .rw, false, 0, []⟩,
      ⟨48, 5, .rw, false, 4, [(4, 16)]⟩]⟩,
  -- KVT_FL_STATE
  ⟨0x808, [(0x20, 9)], .die, [
      ⟨0, 32, .rw, false, 0, []⟩,
      ⟨32, 32, .rw, false, 0, []⟩]⟩,
  -- KVT_FL_CFG
  ⟨0x810, [(0x20, 9)], .die, [
      ⟨0, 17, .rw, false, 16, []⟩]⟩,
  -- KVT_FL_PUSH
  ⟨0x818, [(0x20, 9)], .die, [
      ⟨0, 64, .wo, false, 0, []⟩]⟩,
  -- KVT_ALLOCS
  ⟨0x600, [], .die, [
      ⟨0, 48, .rc, false, 0, []⟩]⟩,
  -- KVT_COWS
  ⟨0x608, [], .die, [
      ⟨0, 48, .rc, false, 0, []⟩]⟩,
  -- KVT_FREES
  ⟨0x610, [], .die, [
      ⟨0, 48, .rc, false, 0, []⟩]⟩,
  -- KVT_STAGES
  ⟨0x618, [], .die, [
      ⟨0, 48, .rc, false, 0, []⟩]⟩,
  -- KVT_MOVES
  ⟨0x620, [], .die, [
      ⟨0, 48, .rc, false, 0, []⟩]⟩,
  -- KVT_SPLIT
  ⟨0x628, [], .die, [
      ⟨0, 48, .rc, false, 0, []⟩]⟩,
  -- KVT_SATS
  ⟨0x630, [], .die, [
      ⟨0, 48, .rc, false, 0, []⟩]⟩,
  -- KVT_LAST_FAULT
  ⟨0x640, [], .die, [
      ⟨0, 48, .ro, false, 0, []⟩,
      ⟨48, 8, .ro, false, 0, []⟩,
      ⟨56, 4, .ro, false, 0, []⟩,
      ⟨60, 1, .ro, false, 0, []⟩]⟩]

/-- Registers of class pbx. -/
def specsPbx : List RegSpec := [
  -- PBX_VALUE
  ⟨0x0, [(0x20, 48)], .die, [
      ⟨0, 16, .ro, false, 0, []⟩,
      ⟨16, 1, .ro, false, 0, []⟩,
      ⟨17, 1, .ro, false, 0, []⟩,
      ⟨32, 16, .ro, false, 0, []⟩]⟩,
  -- PBX_LANDED
  ⟨0x8, [(0x20, 48)], .die, [
      ⟨0, 32, .ro, false, 0, []⟩]⟩,
  -- PBX_LAST
  ⟨0x10, [(0x20, 48)], .die, [
      ⟨0, 16, .ro, false, 0, []⟩,
      ⟨32, 32, .ro, false, 0, []⟩]⟩,
  -- PBX_SIGNAL
  ⟨0x600, [], .die, [
      ⟨0, 6, .wo, false, 0, []⟩,
      ⟨16, 16, .wo, false, 0, []⟩]⟩,
  -- PBX_RESET
  ⟨0x608, [], .die, [
      ⟨0, 6, .wo, false, 0, []⟩,
      ⟨16, 16, .wo, false, 0, []⟩]⟩,
  -- PBX_CFG
  ⟨0x700, [], .die, [
      ⟨0, 1, .stg, false, 0, []⟩]⟩,
  -- PBX_COUNTS
  ⟨0x708, [], .die, [
      ⟨0, 16, .rc, false, 0, []⟩,
      ⟨16, 16, .rc, false, 0, []⟩,
      ⟨32, 8, .ro, false, 0, []⟩]⟩,
  -- PBX_BALLAST_CK
  ⟨0x710, [], .die, [
      ⟨0, 48, .rc, false, 0, []⟩]⟩,
  -- PBX_WAIT_CK
  ⟨0x718, [], .die, [
      ⟨0, 48, .rc, false, 0, []⟩]⟩,
  -- PBX_THR_WAIT
  ⟨0x800, [(0x8, 16)], .die, [
      ⟨0, 6, .ro, false, 0, []⟩,
      ⟨6, 1, .ro, false, 0, []⟩,
      ⟨7, 1, .ro, false, 0, []⟩,
      ⟨8, 16, .ro, false, 0, []⟩,
      ⟨24, 32, .ro, false, 0, []⟩]⟩]

/-- Registers of class vlt. -/
def specsVlt : List RegSpec := [
  -- VLT_BAND
  ⟨0x0, [], .die, [
      ⟨0, 2, .ro, false, 3, []⟩,
      ⟨2, 1, .ro, false, 1, []⟩,
      ⟨3, 1, .ro, false, 0, []⟩,
      ⟨8, 8, .ro, false, 0, []⟩,
      ⟨16, 8, .ro, false, 0, []⟩,
      ⟨24, 8, .ro, false, 0, []⟩,
      ⟨32, 8, .ro, false, 0, []⟩,
      ⟨40, 8, .ro, false, 0, []⟩,
      ⟨48, 16, .rc, false, 0, []⟩]⟩,
  -- VLT_REMAP_CFG
  ⟨0x10, [], .die, [
      ⟨0, 1, .rw, false, 1, []⟩,
      ⟨1, 8, .rw, false, 4, [(1, 255)]⟩,
      ⟨9, 16, .rw, false, 1000, [(1, 60000)]⟩]⟩,
  -- VLT_REMAP_STATUS
  ⟨0x18, [], .die, [
      ⟨0, 56, .ro, false, 0, []⟩,
      ⟨56, 5, .ro, false, 0, []⟩]⟩,
  -- VLT_ECC_CNT
  ⟨0x100, [(0x20, 8)], .die, [
      ⟨0, 16, .rc, false, 0, []⟩,
      ⟨16, 16, .rc, false, 0, []⟩,
      ⟨32, 16, .rc, false, 0, []⟩]⟩,
  -- VLT_ECC_LAST
  ⟨0x108, [(0x20, 8)], .die, [
      ⟨0, 48, .ro, false, 0, []⟩,
      ⟨48, 2, .ro, false, 0, []⟩]⟩,
  -- VLT_RMW_CNT
  ⟨0x110, [(0x20, 8)], .die, [
      ⟨0, 48, .rc, false, 0, []⟩]⟩,
  -- VLT_SCRUB_BASE
  ⟨0x200, [], .die, [
      ⟨0, 48, .rw, false, 0, []⟩]⟩,
  -- VLT_SCRUB_LIMIT
  ⟨0x208, [], .die, [
      ⟨0, 48, .rw, false, 0, []⟩]⟩,
  -- VLT_SCRUB_CTRL
  ⟨0x210, [], .die, [
      ⟨0, 1, .wo, false, 0, []⟩,
      ⟨1, 1, .wo, false, 0, []⟩,
      ⟨2, 5, .rw, false, 2, [(1, 16)]⟩,
      ⟨7, 1, .rw, false, 1, []⟩,
      ⟨8, 1, .ro, false, 0, []⟩,
      ⟨16, 8, .ro, false, 0, []⟩]⟩,
  -- VLT_SCRUB_RECADDR
  ⟨0x218, [], .die, [
      ⟨0, 48, .rw, false, 0, []⟩]⟩,
  -- VLT_SCRUB_REC
  ⟨0x220, [(0x8, 8)], .die, [
      ⟨0, 64, .ro, false, 0, []⟩]⟩,
  -- VLT_DIAG_BASE
  ⟨0x300, [], .die, [
      ⟨0, 1, .row, false, 0, []⟩,
      ⟨1, 1, .ro, false, 0, []⟩,
      ⟨6, 42, .rw, false, 0, []⟩]⟩,
  -- VLT_DIAG_LIMIT
  ⟨0x308, [], .die, [
      ⟨0, 48, .rw, false, 0, []⟩]⟩,
  -- VLT_DIAG_ADDR
  ⟨0x310, [], .die, [
      ⟨0, 3, .rw, false, 0, []⟩,
      ⟨3, 45, .rw, false, 0, []⟩]⟩,
  -- VLT_DIAG_DATA
  ⟨0x318, [], .die, [
      ⟨0, 64, .rw, false, 0, []⟩]⟩,
  -- VLT_DIAG_CHECK
  ⟨0x320, [], .die, [
      ⟨0, 16, .rw, false, 0, []⟩,
      ⟨16, 1, .wo, false, 0, []⟩,
      ⟨17, 1, .wo, false, 0, []⟩,
      ⟨24, 8, .ro, false, 0, []⟩]⟩,
  -- VLT_REMAP_CAM
  ⟨0x1000, [(0x200, 8), (0x8, 64)], .die, [
      ⟨0, 1, .ro, false, 0, []⟩,
      ⟨1, 4, .ro, false, 0, []⟩,
      ⟨5, 12, .ro, false, 0, []⟩,
      ⟨17, 5, .ro, false, 0, []⟩]⟩]

/-- Registers of class bu. -/
def specsBu : List RegSpec := [
  -- BU_CTRL
  ⟨0x0, [(0x1000, 8)], .die, [
      ⟨0, 1, .wo, false, 0, []⟩,
      ⟨1, 1, .wo, false, 0, []⟩,
      ⟨2, 4, .rw, false, 0, []⟩]⟩,
  -- BU_STATUS
  ⟨0x8, [(0x1000, 8)], .die, [
      ⟨0, 3, .ro, false, 0, []⟩,
      ⟨3, 1, .ro, false, 0, []⟩,
      ⟨4, 5, .ro, false, 0, []⟩,
      ⟨9, 9, .ro, false, 0, []⟩,
      ⟨18, 8, .ro, false, 0, []⟩,
      ⟨26, 7, .ro, false, 0, []⟩]⟩,
  -- BU_MODE
  ⟨0x10, [(0x1000, 8)], .die, [
      ⟨0, 1, .row, false, 0, []⟩,
      ⟨1, 1, .ro, false, 0, []⟩,
      ⟨2, 1, .wo, false, 0, []⟩,
      ⟨8, 8, .ro, false, 0, []⟩]⟩,
  -- BU_SUBMIT
  ⟨0x18, [(0x1000, 8)], .die, [
      ⟨6, 42, .wo, false, 0, []⟩]⟩,
  -- BU_DUTY
  ⟨0x20, [(0x1000, 8)], .die, [
      ⟨0, 5, .rw, false, 16, [(1, 16)]⟩]⟩,
  -- BU_FAULT
  ⟨0x28, [(0x1000, 8)], .die, [
      ⟨0, 26, .ro, false, 0, []⟩,
      ⟨26, 9, .ro, false, 0, []⟩,
      ⟨35, 8, .ro, false, 0, []⟩,
      ⟨43, 4, .ro, false, 0, []⟩]⟩,
  -- BU_PROGRESS
  ⟨0x30, [(0x1000, 8)], .die, [
      ⟨0, 9, .ro, false, 0, []⟩,
      ⟨9, 11, .ro, false, 0, []⟩,
      ⟨20, 26, .ro, false, 0, []⟩]⟩,
  -- BU_YIELD
  ⟨0x38, [(0x1000, 8)], .die, [
      ⟨0, 14, .ro, false, 0, []⟩,
      ⟨14, 14, .rc, false, 0, []⟩]⟩,
  -- BU_CMDS
  ⟨0x40, [(0x1000, 8)], .die, [
      ⟨0, 48, .rc, false, 0, []⟩]⟩,
  -- BU_ACTS
  ⟨0x48, [(0x1000, 8)], .die, [
      ⟨0, 48, .rc, false, 0, []⟩]⟩,
  -- BU_RD_BYTES
  ⟨0x50, [(0x1000, 8)], .die, [
      ⟨0, 48, .rc, false, 0, []⟩]⟩,
  -- BU_WR_BYTES
  ⟨0x58, [(0x1000, 8)], .die, [
      ⟨0, 48, .rc, false, 0, []⟩]⟩,
  -- BU_WINDOWS
  ⟨0x60, [(0x1000, 8)], .die, [
      ⟨0, 48, .rc, false, 0, []⟩]⟩,
  -- BU_FORCED
  ⟨0x68, [(0x1000, 8)], .die, [
      ⟨0, 48, .rc, false, 0, []⟩]⟩,
  -- BU_WAIT_BK
  ⟨0x70, [(0x1000, 8)], .die, [
      ⟨0, 48, .rc, false, 0, []⟩]⟩,
  -- BU_FETCH_CORR
  ⟨0x78, [(0x1000, 8)], .die, [
      ⟨0, 48, .rc, false, 0, []⟩]⟩,
  -- BU_G
  ⟨0x80, [(0x1000, 8), (0x8, 48)], .die, [
      ⟨0, 64, .rw, false, 0, []⟩]⟩]

/-- Registers of class buprog. -/
def specsBuprog : List RegSpec := [
  -- BU_PROG
  ⟨0x0, [(0x1000, 8), (0x8, 512)], .die, [
      ⟨0, 64, .row, false, 0, []⟩]⟩]

/-- Registers of class dl. -/
def specsDl : List RegSpec := [
  -- DL_CTRL
  ⟨0x0, [], .die, [
      ⟨0, 1, .wo, false, 0, []⟩,
      ⟨1, 1, .row, false, 0, []⟩,
      ⟨2, 1, .rw, false, 0, []⟩,
      ⟨16, 8, .rw, false, 64, [(1, 255)]⟩]⟩,
  -- DL_STATUS
  ⟨0x8, [], .die, [
      ⟨0, 3, .ro, false, 0, []⟩,
      ⟨3, 1, .ro, false, 0, []⟩,
      ⟨8, 8, .ro, false, 0, []⟩,
      ⟨16, 16, .ro, false, 0, []⟩,
      ⟨32, 8, .ro, false, 0, []⟩]⟩,
  -- DL_CAPS
  ⟨0x10, [], .die, [
      ⟨0, 8, .ro, false, 0, []⟩,
      ⟨8, 8, .ro, false, 0, []⟩,
      ⟨16, 8, .ro, false, 0, []⟩,
      ⟨24, 4, .ro, false, 0, []⟩,
      ⟨28, 4, .ro, false, 0, []⟩]⟩,
  -- DL_LANES_TX
  ⟨0x18, [], .die, [
      ⟨0, 64, .ro, false, 0, []⟩]⟩,
  -- DL_LANES_RX
  ⟨0x20, [], .die, [
      ⟨0, 64, .ro, false, 0, []⟩]⟩,
  -- DL_SPARE_TX
  ⟨0x28, [], .die, [
      ⟨0, 32, .ro, false, 0, []⟩]⟩,
  -- DL_SPARE_RX
  ⟨0x30, [], .die, [
      ⟨0, 32, .ro, false, 0, []⟩]⟩,
  -- DL_ERR
  ⟨0x38, [], .die, [
      ⟨0, 24, .rc, false, 0, []⟩,
      ⟨24, 24, .rc, false, 0, []⟩,
      ⟨48, 16, .rc, false, 0, []⟩]⟩,
  -- DL_TEST
  ⟨0x48, [], .die, [
      ⟨0, 2, .rw, false, 0, [(0, 2)]⟩,
      ⟨2, 2, .rw, false, 2, [(0, 2)]⟩,
      ⟨4, 1, .wo, false, 0, []⟩,
      ⟨5, 1, .ro, false, 0, []⟩,
      ⟨6, 1, .rw, false, 0, []⟩,
      ⟨16, 8, .ro, false, 0, []⟩]⟩,
  -- DL_TEST_BITS
  ⟨0x50, [], .die, [
      ⟨0, 48, .rw, false, 2147483647, [(1, 281474976710655)]⟩]⟩,
  -- DL_TEST_FAIL
  ⟨0x58, [], .die, [
      ⟨0, 64, .ro, false, 0, []⟩]⟩,
  -- DL_TEST_FAIL_SP
  ⟨0x60, [], .die, [
      ⟨0, 4, .ro, false, 0, []⟩]⟩]

/-- Registers of class dlDie. -/
def specsDlDie : List RegSpec := [
  -- DL_DIE_ID
  ⟨0x0, [], .die, [
      ⟨0, 4, .ro, false, 0, []⟩,
      ⟨4, 1, .ro, false, 0, []⟩,
      ⟨5, 1, .ro, false, 0, []⟩,
      ⟨6, 6, .ro, false, 0, []⟩,
      ⟨16, 8, .ro, false, 0, []⟩]⟩,
  -- DL_HASH
  ⟨0x40, [(0x8, 3)], .die, [
      ⟨0, 4, .stg, false, 0, [(0, 5)]⟩,
      ⟨4, 4, .stg, false, 0, [(0, 5)]⟩,
      ⟨8, 4, .stg, false, 0, [(0, 5)]⟩,
      ⟨12, 4, .stg, false, 0, [(0, 5)]⟩,
      ⟨16, 4, .stg, false, 0, [(0, 5)]⟩,
      ⟨20, 4, .stg, false, 0, [(0, 5)]⟩,
      ⟨24, 4, .stg, false, 0, [(0, 5)]⟩,
      ⟨28, 4, .stg, false, 0, [(0, 5)]⟩,
      ⟨32, 4, .stg, false, 0, [(0, 5)]⟩,
      ⟨36, 4, .stg, false, 0, [(0, 5)]⟩,
      ⟨40, 4, .stg, false, 0, [(0, 5)]⟩,
      ⟨44, 4, .stg, false, 0, [(0, 5)]⟩,
      ⟨48, 4, .stg, false, 0, [(0, 5)]⟩,
      ⟨52, 4, .stg, false, 0, [(0, 5)]⟩,
      ⟨56, 4, .stg, false, 0, [(0, 5)]⟩,
      ⟨60, 4, .stg, false, 0, [(0, 5)]⟩]⟩]

/-- Registers of class hif. -/
def specsHif : List RegSpec := [
  -- HIF_LINK
  ⟨0x0, [], .chip, [
      ⟨0, 3, .ro, false, 0, []⟩,
      ⟨3, 4, .ro, false, 0, []⟩,
      ⟨7, 1, .ro, false, 0, []⟩,
      ⟨16, 32, .ro, false, 0, []⟩,
      ⟨48, 16, .rc, false, 0, []⟩]⟩,
  -- HIF_TOKEN
  ⟨0x8, [], .chip, [
      ⟨0, 1, .ro, false, 0, []⟩,
      ⟨1, 1, .ro, false, 0, []⟩,
      ⟨2, 1, .ro, false, 0, []⟩,
      ⟨3, 1, .ro, false, 0, []⟩,
      ⟨16, 16, .ro, false, 2000, []⟩,
      ⟨32, 32, .ro, false, 0, []⟩]⟩,
  -- HIF_PM_STATE
  ⟨0x10, [], .chip, [
      ⟨0, 1, .ro, false, 0, []⟩,
      ⟨1, 1, .ro, false, 0, []⟩,
      ⟨8, 8, .ro, false, 0, []⟩,
      ⟨16, 16, .rc, false, 0, []⟩]⟩,
  -- HIF_PM_LAST
  ⟨0x18, [], .chip, [
      ⟨0, 64, .ro, false, 0, []⟩]⟩,
  -- HIF_ACCESS_FAULT
  ⟨0x20, [], .chip, [
      ⟨0, 48, .ro, false, 0, []⟩,
      ⟨48, 8, .ro, false, 0, []⟩,
      ⟨56, 1, .ro, false, 0, []⟩,
      ⟨57, 1, .ro, false, 0, []⟩,
      ⟨58, 1, .ro, false, 0, []⟩]⟩,
  -- HIF_ACCESS_COUNT
  ⟨0x28, [], .chip, [
      ⟨0, 32, .rc, false, 0, []⟩]⟩,
  -- HIF_WIN
  ⟨0x40, [(0x8, 4)], .chip, [
      ⟨0, 16, .rw, false, 0, []⟩]⟩,
  -- HIF_CMDS
  ⟨0x60, [], .chip, [
      ⟨0, 11, .ro, false, 0, []⟩,
      ⟨16, 48, .ro, false, 0, []⟩]⟩]

/-- Registers of class qp. -/
def specsQp : List RegSpec := [
  -- QUE_QP_SQ_BASE
  ⟨0x0, [(0x40, 64)], .chip, [
      ⟨12, 52, .rw, false, 0, []⟩]⟩,
  -- QUE_QP_CQ_BASE
  ⟨0x8, [(0x40, 64)], .chip, [
      ⟨12, 52, .rw, false, 0, []⟩]⟩,
  -- QUE_QP_CFG
  ⟨0x10, [(0x40, 64)], .chip, [
      ⟨0, 1, .row, false, 0, []⟩,
      ⟨1, 4, .rw, false, 4, [(4, 12)]⟩,
      ⟨5, 4, .rw, false, 4, [(4, 12)]⟩,
      ⟨9, 7, .rw, false, 0, []⟩,
      ⟨16, 8, .rw, false, 0, []⟩,
      ⟨24, 16, .rw, false, 0, []⟩]⟩,
  -- QUE_QP_STATUS
  ⟨0x18, [(0x40, 64)], .chip, [
      ⟨0, 2, .ro, false, 0, []⟩,
      ⟨8, 8, .ro, false, 0, []⟩,
      ⟨16, 12, .ro, false, 0, []⟩,
      ⟨28, 12, .ro, false, 0, []⟩,
      ⟨40, 1, .ro, false, 1, []⟩]⟩,
  -- QUE_QP_SQ_TAIL
  ⟨0x20, [(0x40, 64)], .chip, [
      ⟨0, 12, .row, false, 0, []⟩]⟩,
  -- QUE_QP_CQ_HEAD
  ⟨0x28, [(0x40, 64)], .chip, [
      ⟨0, 12, .row, false, 0, []⟩]⟩]

/-- Registers of class scCommon. -/
def specsScCommon : List RegSpec := [
  -- SC_ATOM_CTL
  ⟨0x0, [(0x10, 2056)], .chip, [
      ⟨0, 48, .rw, false, 0, []⟩,
      ⟨48, 4, .rw, false, 0, [(0, 8)]⟩,
      ⟨52, 3, .rw, false, 0, [(0, 5)]⟩,
      ⟨56, 8, .ro, false, 0, []⟩]⟩,
  -- SC_ATOM_GO
  ⟨0x8, [(0x10, 2056)], .chip, [
      ⟨0, 64, .wo, false, 0, []⟩]⟩,
  -- SC_ATOM_CMP
  ⟨0x8100, [(0x8, 2056)], .chip, [
      ⟨0, 64, .rw, false, 0, []⟩]⟩,
  -- SC_CTRL
  ⟨0xd000, [], .chip, [
      ⟨0, 2, .stg, false, 0, []⟩]⟩,
  -- SC_KEEP_CFG
  ⟨0xd040, [(0x8, 8)], .chip, [
      ⟨0, 15, .stg, false, 0, [(0, 24576)]⟩,
      ⟨15, 1, .wo, false, 0, []⟩]⟩,
  -- SC_SHARED_BASE
  ⟨0xd100, [(0x10, 8)], .chip, [
      ⟨0, 1, .stg, false, 0, []⟩,
      ⟨20, 16, .stg, false, 0, []⟩]⟩,
  -- SC_SHARED_LIMIT
  ⟨0xd108, [(0x10, 8)], .chip, [
      ⟨0, 1, .stg, false, 0, []⟩,
      ⟨20, 16, .stg, false, 0, []⟩]⟩,
  -- SC_FLUSH_BASE
  ⟨0xd200, [], .chip, [
      ⟨0, 48, .rw, false, 0, []⟩]⟩,
  -- SC_FLUSH_LIMIT
  ⟨0xd208, [], .chip, [
      ⟨0, 48, .rw, false, 0, []⟩]⟩,
  -- SC_FLUSH_CTRL
  ⟨0xd210, [], .chip, [
      ⟨0, 1, .wo, false, 0, []⟩,
      ⟨1, 1, .rw, false, 0, []⟩,
      ⟨2, 1, .ro, false, 0, []⟩,
      ⟨8, 8, .ro, false, 0, []⟩]⟩]

/-- Registers of class scSlice. -/
def specsScSlice : List RegSpec := [
  -- SC_SLICE_ECC
  ⟨0x0, [], .chip, [
      ⟨0, 16, .rc, false, 0, []⟩,
      ⟨16, 16, .rc, false, 0, []⟩,
      ⟨32, 1, .ro, true, 0, []⟩,
      ⟨33, 11, .ro, true, 0, []⟩]⟩,
  -- SC_HITS
  ⟨0x40, [], .chip, [
      ⟨0, 48, .rc, false, 0, []⟩]⟩,
  -- SC_MISSES
  ⟨0x48, [], .chip, [
      ⟨0, 48, .rc, false, 0, []⟩]⟩,
  -- SC_WBACKS
  ⟨0x50, [], .chip, [
      ⟨0, 48, .rc, false, 0, []⟩]⟩,
  -- SC_DROPS
  ⟨0x58, [], .chip, [
      ⟨0, 48, .rc, false, 0, []⟩]⟩,
  -- SC_ATOMICS
  ⟨0x60, [], .chip, [
      ⟨0, 48, .rc, false, 0, []⟩]⟩,
  -- SC_KEEP_DENIED
  ⟨0x68, [], .chip, [
      ⟨0, 48, .rc, false, 0, []⟩]⟩,
  -- SC_KEEP_USED
  ⟨0x80, [(0x8, 2)], .chip, [
      ⟨0, 64, .ro, false, 0, []⟩]⟩]

/-- Registers of class gdCommon. -/
def specsGdCommon : List RegSpec := [
  -- GD_CFG
  ⟨0x0, [], .chip, [
      ⟨0, 2, .ro, false, 0, []⟩,
      ⟨16, 16, .rw, false, 100, [(10, 10000)]⟩]⟩,
  -- GD_SCRUB_BASE
  ⟨0x200, [], .chip, [
      ⟨0, 48, .rw, false, 0, []⟩]⟩,
  -- GD_SCRUB_LIMIT
  ⟨0x208, [], .chip, [
      ⟨0, 48, .rw, false, 0, []⟩]⟩,
  -- GD_SCRUB_CTRL
  ⟨0x210, [], .chip, [
      ⟨0, 1, .wo, false, 0, []⟩,
      ⟨1, 1, .wo, false, 0, []⟩,
      ⟨2, 5, .rw, false, 2, [(1, 16)]⟩,
      ⟨7, 1, .rw, false, 1, []⟩,
      ⟨8, 1, .ro, false, 0, []⟩,
      ⟨16, 8, .ro, false, 0, []⟩]⟩,
  -- GD_SCRUB_RECADDR
  ⟨0x218, [], .chip, [
      ⟨0, 48, .rw, false, 0, []⟩]⟩,
  -- GD_SCRUB_REC
  ⟨0x220, [(0x8, 8)], .chip, [
      ⟨0, 64, .ro, false, 0, []⟩]⟩,
  -- GD_DIAG_BASE
  ⟨0x300, [], .chip, [
      ⟨0, 1, .row, false, 0, []⟩,
      ⟨1, 1, .ro, false, 0, []⟩,
      ⟨6, 42, .rw, false, 0, []⟩]⟩,
  -- GD_DIAG_LIMIT
  ⟨0x308, [], .chip, [
      ⟨0, 48, .rw, false, 0, []⟩]⟩,
  -- GD_DIAG_ADDR
  ⟨0x310, [], .chip, [
      ⟨0, 3, .rw, false, 0, []⟩,
      ⟨3, 45, .rw, false, 0, []⟩]⟩,
  -- GD_DIAG_DATA
  ⟨0x318, [], .chip, [
      ⟨0, 64, .rw, false, 0, []⟩]⟩,
  -- GD_DIAG_CHECK
  ⟨0x320, [], .chip, [
      ⟨0, 16, .rw, false, 0, []⟩,
      ⟨16, 1, .wo, false, 0, []⟩,
      ⟨17, 1, .wo, false, 0, []⟩,
      ⟨24, 8, .ro, false, 0, []⟩]⟩]

/-- Registers of class gdCtrl. -/
def specsGdCtrl : List RegSpec := [
  -- GD_STATUS
  ⟨0x0, [], .chip, [
      ⟨0, 2, .ro, false, 0, []⟩,
      ⟨8, 8, .ro, false, 0, []⟩]⟩,
  -- GD_REMAP_CFG
  ⟨0x10, [], .chip, [
      ⟨0, 1, .rw, false, 1, []⟩,
      ⟨1, 8, .rw, false, 4, [(1, 255)]⟩,
      ⟨9, 16, .rw, false, 1000, [(1, 60000)]⟩]⟩,
  -- GD_REMAP_STATUS
  ⟨0x18, [], .chip, [
      ⟨0, 11, .ro, false, 0, []⟩]⟩,
  -- GD_ECC_CNT
  ⟨0x100, [], .chip, [
      ⟨0, 16, .rc, false, 0, []⟩,
      ⟨16, 16, .rc, false, 0, []⟩,
      ⟨32, 16, .rc, false, 0, []⟩]⟩,
  -- GD_ECC_LAST
  ⟨0x108, [], .chip, [
      ⟨0, 48, .ro, false, 0, []⟩,
      ⟨48, 2, .ro, false, 0, []⟩]⟩,
  -- GD_LINK_CNT
  ⟨0x110, [], .chip, [
      ⟨0, 24, .rc, false, 0, []⟩,
      ⟨24, 16, .rc, false, 0, []⟩,
      ⟨40, 16, .rc, false, 0, []⟩]⟩,
  -- GD_REMAP_TABLE
  ⟨0x1000, [(0x8, 1024)], .chip, [
      ⟨0, 1, .ro, false, 0, []⟩,
      ⟨1, 4, .ro, false, 0, []⟩,
      ⟨5, 17, .ro, false, 0, []⟩,
      ⟨22, 13, .ro, false, 0, []⟩]⟩]

/-- Registers of class gwlCommon. -/
def specsGwlCommon : List RegSpec := [
  -- GWL_NODE
  ⟨0x0, [], .chip, [
      ⟨0, 24, .rw, false, 0, []⟩]⟩,
  -- GWL_GROUP
  ⟨0x8, [], .chip, [
      ⟨0, 7, .ro, false, 0, []⟩,
      ⟨7, 8, .ro, false, 1, []⟩,
      ⟨15, 16, .ro, false, 0, []⟩]⟩,
  -- GWL_AGG
  ⟨0x10, [], .chip, [
      ⟨0, 6, .ro, false, 16, []⟩,
      ⟨6, 8, .ro, false, 48, []⟩,
      ⟨14, 8, .ro, false, 0, []⟩,
      ⟨22, 9, .ro, false, 0, []⟩]⟩,
  -- GWL_UP
  ⟨0x18, [], .chip, [
      ⟨0, 48, .ro, false, 0, []⟩]⟩,
  -- GWL_E2E
  ⟨0x20, [], .chip, [
      ⟨0, 16, .rc, false, 0, []⟩,
      ⟨16, 16, .rc, false, 0, []⟩,
      ⟨32, 16, .rc, false, 0, []⟩,
      ⟨48, 16, .rc, false, 0, []⟩]⟩,
  -- GWL_PEER
  ⟨0x100, [(0x8, 128)], .chip, [
      ⟨0, 24, .rw, false, 0, []⟩,
      ⟨24, 1, .rw, false, 0, []⟩,
      ⟨25, 1, .ro, false, 0, []⟩]⟩,
  -- GWL_XQ_BASE
  ⟨0x800, [(0x20, 8)], .chip, [
      ⟨6, 42, .rw, false, 0, []⟩,
      ⟨48, 4, .rw, false, 4, [(4, 12)]⟩]⟩,
  -- GWL_XQ_CTRL
  ⟨0x808, [(0x20, 8)], .chip, [
      ⟨0, 12, .row, false, 0, []⟩,
      ⟨12, 1, .wo, false, 0, []⟩,
      ⟨13, 1, .wo, false, 0, []⟩,
      ⟨14, 1, .wo, false, 0, []⟩]⟩,
  -- GWL_XQ_STATUS
  ⟨0x810, [(0x20, 8)], .chip, [
      ⟨0, 2, .ro, false, 0, []⟩,
      ⟨2, 12, .ro, false, 0, []⟩,
      ⟨16, 8, .ro, false, 0, []⟩,
      ⟨24, 33, .ro, false, 0, []⟩]⟩]

/-- Registers of class gwlLink. -/
def specsGwlLink : List RegSpec := [
  -- GWL_LINK_CTRL
  ⟨0x0, [], .chip, [
      ⟨0, 1, .wo, false, 0, []⟩,
      ⟨1, 1, .rw, false, 0, []⟩]⟩,
  -- GWL_LINK_STATUS
  ⟨0x8, [], .chip, [
      ⟨0, 3, .ro, false, 0, []⟩,
      ⟨3, 3, .ro, false, 0, []⟩,
      ⟨6, 1, .ro, false, 0, []⟩,
      ⟨7, 4, .ro, false, 0, []⟩,
      ⟨11, 4, .ro, false, 0, []⟩,
      ⟨15, 4, .ro, false, 0, []⟩,
      ⟨24, 8, .ro, false, 0, []⟩]⟩,
  -- GWL_LANE_QUAL0
  ⟨0x10, [], .chip, [
      ⟨0, 32, .ro, false, 0, []⟩,
      ⟨32, 32, .ro, false, 0, []⟩]⟩,
  -- GWL_LANE_QUAL1
  ⟨0x18, [], .chip, [
      ⟨0, 32, .ro, false, 0, []⟩,
      ⟨32, 32, .ro, false, 0, []⟩]⟩,
  -- GWL_LINK_ERR
  ⟨0x20, [], .chip, [
      ⟨0, 24, .rc, false, 0, []⟩,
      ⟨24, 16, .rc, false, 0, []⟩,
      ⟨40, 16, .rc, false, 0, []⟩,
      ⟨56, 8, .rc, false, 0, []⟩]⟩,
  -- GWL_LINK_TX
  ⟨0x28, [], .chip, [
      ⟨0, 56, .ro, false, 0, []⟩]⟩,
  -- GWL_LINK_RX
  ⟨0x30, [], .chip, [
      ⟨0, 56, .ro, false, 0, []⟩]⟩]

/-- Registers of class tide. -/
def specsTide : List RegSpec := [
  -- TIDE_CTRL
  ⟨0x0, [], .chip, [
      ⟨0, 1, .row, false, 0, []⟩,
      ⟨1, 2, .rw, false, 0, [(0, 2)]⟩,
      ⟨3, 1, .stg, false, 0, []⟩]⟩,
  -- TIDE_STATUS
  ⟨0x8, [], .chip, [
      ⟨0, 2, .ro, false, 0, []⟩,
      ⟨2, 1, .ro, false, 0, []⟩,
      ⟨3, 1, .ro, false, 0, []⟩,
      ⟨8, 8, .ro, false, 0, []⟩,
      ⟨16, 8, .ro, false, 0, []⟩,
      ⟨24, 8, .ro, false, 0, []⟩]⟩,
  -- TIDE_PERIOD
  ⟨0x10, [], .chip, [
      ⟨0, 16, .stg, false, 1000, []⟩,
      ⟨16, 16, .stg, false, 250, []⟩,
      ⟨32, 16, .stg, false, 20, []⟩]⟩,
  -- TIDE_POLICY
  ⟨0x18, [], .chip, [
      ⟨0, 16, .stg, false, 1000, [(1, 64000)]⟩,
      ⟨16, 7, .stg, false, 12, [(1, 50)]⟩]⟩,
  -- TIDE_EDGE_NUM
  ⟨0x20, [], .chip, [
      ⟨0, 64, .ro, true, 0, []⟩]⟩,
  -- TIDE_EDGE_TIME
  ⟨0x28, [], .chip, [
      ⟨0, 64, .ro, false, 0, []⟩]⟩,
  -- TIDE_NEXT_EDGE
  ⟨0x30, [], .chip, [
      ⟨0, 64, .ro, false, 0, []⟩]⟩,
  -- TIDE_TIME
  ⟨0x38, [], .chip, [
      ⟨0, 64, .ro, false, 0, []⟩]⟩,
  -- TIDE_COUNTS
  ⟨0x40, [], .chip, [
      ⟨0, 16, .rc, false, 0, []⟩,
      ⟨16, 16, .rc, false, 0, []⟩,
      ⟨32, 16, .rc, false, 0, []⟩,
      ⟨48, 16, .rc, false, 0, []⟩]⟩,
  -- TIDE_LAST_OVERRUN
  ⟨0x48, [], .chip, [
      ⟨0, 7, .ro, false, 0, []⟩,
      ⟨8, 24, .ro, false, 0, []⟩,
      ⟨32, 32, .ro, false, 0, []⟩]⟩,
  -- TIDE_SYNC
  ⟨0x50, [], .chip, [
      ⟨0, 32, .ro, false, 0, []⟩,
      ⟨32, 16, .ro, false, 0, []⟩]⟩,
  -- TIDE_DONE_LO
  ⟨0x60, [], .chip, [
      ⟨0, 64, .ro, false, 0, []⟩]⟩,
  -- TIDE_DONE_HI
  ⟨0x68, [], .chip, [
      ⟨0, 64, .ro, false, 0, []⟩]⟩,
  -- TIDE_ACTIVE_LO
  ⟨0x70, [], .chip, [
      ⟨0, 64, .ro, false, 0, []⟩]⟩,
  -- TIDE_ACTIVE_HI
  ⟨0x78, [], .chip, [
      ⟨0, 64, .ro, false, 0, []⟩]⟩]

/-- Registers of class cht. -/
def specsCht : List RegSpec := [
  -- CHT_STATUS
  ⟨0x0, [], .chip, [
      ⟨0, 3, .ro, false, 0, []⟩,
      ⟨3, 1, .ro, false, 0, []⟩,
      ⟨4, 1, .ro, false, 0, []⟩,
      ⟨8, 8, .ro, false, 0, []⟩,
      ⟨16, 8, .ro, false, 0, []⟩,
      ⟨24, 16, .ro, false, 0, []⟩]⟩,
  -- CHT_FAULT
  ⟨0x8, [], .chip, [
      ⟨0, 32, .ro, false, 0, []⟩,
      ⟨32, 32, .ro, false, 0, []⟩]⟩,
  -- CHT_ARM
  ⟨0x10, [], .chip, [
      ⟨0, 1, .wo, false, 0, []⟩,
      ⟨1, 1, .wo, false, 0, []⟩,
      ⟨32, 32, .rw, false, 0, []⟩]⟩,
  -- CHT_LIVE_ID
  ⟨0x18, [], .chip, [
      ⟨0, 64, .ro, false, 0, []⟩]⟩,
  -- CHT_STAGED_ID
  ⟨0x20, [], .chip, [
      ⟨0, 64, .ro, false, 0, []⟩]⟩,
  -- CHT_LIVE_EDGE
  ⟨0x28, [], .chip, [
      ⟨0, 64, .ro, false, 0, []⟩]⟩,
  -- CHT_COUNTS
  ⟨0x30, [], .chip, [
      ⟨0, 16, .rc, false, 0, []⟩,
      ⟨16, 16, .rc, false, 0, []⟩,
      ⟨32, 16, .rc, false, 0, []⟩,
      ⟨48, 16, .rc, false, 0, []⟩]⟩,
  -- CHT_APPLY_NS
  ⟨0x38, [], .chip, [
      ⟨0, 16, .ro, false, 0, []⟩]⟩,
  -- CHT_LIVE_DIGEST
  ⟨0x40, [(0x8, 8)], .chip, [
      ⟨0, 64, .ro, false, 0, []⟩]⟩]

/-- Registers of class swl. -/
def specsSwl : List RegSpec := [
  -- SWL_CFG
  ⟨0x0, [(0x20, 64)], .chip, [
      ⟨0, 12, .stg, false, 1, [(1, 4095)]⟩,
      ⟨12, 1, .stg, false, 0, []⟩,
      ⟨13, 1, .stg, false, 0, []⟩,
      ⟨14, 1, .stg, false, 0, []⟩,
      ⟨15, 6, .stg, false, 63, [(0, 47), (63, 63)]⟩,
      ⟨21, 7, .stg, false, 0, []⟩]⟩,
  -- SWL_STATE
  ⟨0x8, [(0x20, 64)], .chip, [
      ⟨0, 12, .ro, false, 0, []⟩,
      ⟨12, 7, .ro, false, 0, []⟩,
      ⟨19, 1, .ro, false, 0, []⟩,
      ⟨20, 16, .ro, false, 0, []⟩,
      ⟨36, 16, .ro, false, 0, []⟩]⟩,
  -- SWL_MEMBERS_LO
  ⟨0x10, [(0x20, 64)], .chip, [
      ⟨0, 64, .stg, false, 0, []⟩]⟩,
  -- SWL_MEMBERS_HI
  ⟨0x18, [(0x20, 64)], .chip, [
      ⟨0, 64, .stg, false, 0, []⟩]⟩,
  -- SWL_ARRIVE
  ⟨0x800, [], .chip, [
      ⟨0, 6, .wo, false, 0, []⟩]⟩,
  -- SWL_FAULT
  ⟨0x808, [], .chip, [
      ⟨0, 16, .rc, false, 0, []⟩,
      ⟨16, 6, .ro, false, 0, []⟩,
      ⟨22, 16, .ro, false, 0, []⟩,
      ⟨38, 8, .ro, false, 0, []⟩]⟩]

/-- Registers of class evc. -/
def specsEvc : List RegSpec := [
  -- EVC_ROUTE
  ⟨0x0, [(0x8, 2048)], .chip, [
      ⟨0, 8, .rw, false, 0, []⟩,
      ⟨8, 1, .rw, false, 0, []⟩,
      ⟨9, 7, .rw, false, 0, []⟩,
      ⟨16, 1, .rw, false, 0, []⟩,
      ⟨17, 7, .rw, false, 0, []⟩,
      ⟨24, 1, .rw, false, 0, []⟩,
      ⟨25, 1, .ro, false, 0, []⟩,
      ⟨26, 1, .ro, false, 0, []⟩]⟩,
  -- EVC_PEND_CORE
  ⟨0x4000, [(0x8, 32)], .chip, [
      ⟨0, 64, .ro, false, 0, []⟩]⟩,
  -- EVC_PEND_P0
  ⟨0x4100, [(0x8, 32)], .chip, [
      ⟨0, 64, .ro, false, 0, []⟩]⟩,
  -- EVC_PEND_P1
  ⟨0x4200, [(0x8, 32)], .chip, [
      ⟨0, 64, .ro, false, 0, []⟩]⟩,
  -- EVC_SET
  ⟨0x4300, [], .chip, [
      ⟨0, 11, .wo, false, 0, []⟩]⟩,
  -- EVC_EOS
  ⟨0x4308, [], .chip, [
      ⟨0, 11, .wo, false, 0, []⟩,
      ⟨12, 2, .wo, false, 0, [(0, 2)]⟩]⟩,
  -- EVC_SUMMARY
  ⟨0x4310, [], .chip, [
      ⟨0, 32, .ro, false, 0, []⟩]⟩,
  -- EVC_COUNTS
  ⟨0x4318, [], .chip, [
      ⟨0, 32, .rc, false, 0, []⟩,
      ⟨32, 32, .rc, false, 0, []⟩]⟩]

/-- Registers of class aow. -/
def specsAow : List RegSpec := [
  -- AOW_WATCH
  ⟨0x0, [(0x8, 32)], .aon, [
      ⟨0, 11, .rw, false, 0, []⟩,
      ⟨11, 1, .rw, false, 0, []⟩,
      ⟨12, 1, .rw, false, 0, []⟩,
      ⟨13, 1, .rw, false, 0, []⟩]⟩,
  -- AOW_WAKE
  ⟨0x100, [], .aon, [
      ⟨0, 5, .ro, false, 0, []⟩,
      ⟨5, 1, .ro, false, 0, []⟩,
      ⟨16, 16, .rc, false, 0, []⟩]⟩]

/-- Registers of class mon. -/
def specsMon : List RegSpec := [
  -- MON_BIND
  ⟨0x0, [(0x100, 64)], .chip, [
      ⟨0, 16, .stg, false, 0, [(0, 14)]⟩,
      ⟨16, 32, .stg, false, 0, []⟩,
      ⟨48, 1, .stg, false, 0, []⟩]⟩,
  -- MON_SETTING
  ⟨0x8, [(0x100, 64)], .chip, [
      ⟨0, 64, .stg, false, 0, []⟩]⟩,
  -- MON_CTRL
  ⟨0x10, [(0x100, 64)], .chip, [
      ⟨0, 1, .wo, false, 0, []⟩,
      ⟨1, 1, .wo, false, 0, []⟩,
      ⟨2, 1, .ro, false, 0, []⟩]⟩,
  -- MON_MINMAX
  ⟨0x18, [(0x100, 64)], .chip, [
      ⟨0, 64, .ro, false, 0, []⟩]⟩,
  -- MON_COUNT
  ⟨0x20, [(0x100, 64)], .chip, [
      ⟨0, 64, .ro, false, 0, []⟩]⟩,
  -- MON_SUM
  ⟨0x28, [(0x100, 64)], .chip, [
      ⟨0, 64, .ro, false, 0, []⟩]⟩,
  -- MON_SNAP_TIME
  ⟨0x30, [(0x100, 64)], .chip, [
      ⟨0, 64, .ro, false, 0, []⟩]⟩,
  -- MON_SNAP_EDGE
  ⟨0x38, [(0x100, 64)], .chip, [
      ⟨0, 64, .ro, false, 0, []⟩]⟩,
  -- MON_HIST
  ⟨0x40, [(0x100, 64), (0x8, 16)], .chip, [
      ⟨0, 32, .ro, false, 0, []⟩,
      ⟨32, 32, .ro, false, 0, []⟩]⟩]

/-- Registers of class crc. -/
def specsCrc : List RegSpec := [
  -- CRC_CFG
  ⟨0x0, [(0x100, 16)], .chip, [
      ⟨0, 7, .rw, false, 32, [(8, 64)]⟩,
      ⟨7, 1, .rw, false, 0, []⟩,
      ⟨8, 1, .rw, false, 0, []⟩,
      ⟨9, 1, .rw, false, 0, []⟩,
      ⟨10, 3, .rw, false, 0, [(0, 6)]⟩,
      ⟨13, 1, .rw, false, 0, []⟩,
      ⟨16, 16, .rw, false, 0, []⟩]⟩,
  -- CRC_POLY
  ⟨0x8, [(0x100, 16)], .chip, [
      ⟨0, 64, .rw, false, 79764919, []⟩]⟩,
  -- CRC_INIT
  ⟨0x10, [(0x100, 16)], .chip, [
      ⟨0, 64, .rw, false, 4294967295, []⟩]⟩,
  -- CRC_EXPECT
  ⟨0x28, [(0x100, 16)], .chip, [
      ⟨0, 64, .rw, false, 0, []⟩]⟩,
  -- CRC_VALUE
  ⟨0x18, [(0x100, 16)], .chip, [
      ⟨0, 64, .rw, false, 0, []⟩]⟩,
  -- CRC_RESULT
  ⟨0x20, [(0x100, 16)], .chip, [
      ⟨0, 64, .ro, false, 0, []⟩]⟩,
  -- CRC_WIN_BASE
  ⟨0x30, [(0x100, 16)], .chip, [
      ⟨0, 48, .rw, false, 0, []⟩]⟩,
  -- CRC_WIN_LIMIT
  ⟨0x38, [(0x100, 16)], .chip, [
      ⟨0, 48, .rw, false, 0, []⟩]⟩,
  -- CRC_CTRL
  ⟨0x40, [(0x100, 16)], .chip, [
      ⟨0, 1, .wo, false, 0, []⟩,
      ⟨1, 1, .wo, false, 0, []⟩,
      ⟨2, 1, .wo, false, 0, []⟩,
      ⟨3, 1, .wo, false, 0, []⟩,
      ⟨4, 1, .rw, false, 0, []⟩,
      ⟨5, 1, .ro, false, 0, []⟩]⟩,
  -- CRC_STATUS
  ⟨0x48, [(0x100, 16)], .chip, [
      ⟨0, 48, .ro, false, 0, []⟩,
      ⟨48, 8, .ro, false, 0, []⟩,
      ⟨56, 1, .ro, false, 0, []⟩]⟩]

/-- Registers of class fw. -/
def specsFw : List RegSpec := [
  -- FW_STAGE
  ⟨0x0, [], .chip, [
      ⟨0, 4, .ro, false, 1, []⟩,
      ⟨4, 1, .ro, false, 0, []⟩,
      ⟨8, 8, .ro, false, 0, []⟩,
      ⟨16, 16, .ro, false, 0, []⟩,
      ⟨32, 32, .ro, false, 0, []⟩]⟩,
  -- FW_VERSION
  ⟨0x8, [], .chip, [
      ⟨0, 64, .ro, false, 0, []⟩]⟩,
  -- FW_IFACE
  ⟨0x10, [], .chip, [
      ⟨0, 16, .ro, false, 0, []⟩,
      ⟨16, 16, .ro, false, 0, []⟩,
      ⟨32, 16, .ro, false, 0, []⟩,
      ⟨48, 16, .ro, false, 0, []⟩]⟩,
  -- FW_LOAD_STATUS
  ⟨0x18, [], .chip, [
      ⟨0, 8, .ro, false, 0, []⟩,
      ⟨8, 1, .ro, false, 0, []⟩,
      ⟨16, 24, .ro, false, 0, []⟩]⟩,
  -- FW_HEARTBEAT
  ⟨0x20, [], .chip, [
      ⟨0, 64, .rw, false, 0, []⟩]⟩,
  -- FW_DIGEST
  ⟨0x40, [(0x8, 8)], .chip, [
      ⟨0, 64, .ro, false, 0, []⟩]⟩,
  -- FW_FEAT
  ⟨0x80, [(0x8, 4)], .chip, [
      ⟨0, 64, .ro, false, 0, []⟩]⟩,
  -- FW_AGREED
  ⟨0xa0, [(0x20, 2), (0x8, 4)], .chip, [
      ⟨0, 64, .ro, false, 0, []⟩]⟩,
  -- FW_CORE
  ⟨0x200, [(0x8, 8)], .chip, [
      ⟨0, 2, .ro, false, 0, []⟩,
      ⟨8, 8, .ro, false, 0, []⟩,
      ⟨16, 48, .ro, false, 0, []⟩]⟩]

/-- Registers of class lic. -/
def specsLic : List RegSpec := [
  -- LIC_FEATURES
  ⟨0x0, [], .chip, [
      ⟨0, 6, .ro, false, 16, []⟩,
      ⟨6, 8, .ro, false, 36, []⟩,
      ⟨14, 1, .ro, false, 0, []⟩,
      ⟨15, 1, .ro, false, 0, []⟩,
      ⟨16, 10, .ro, false, 1000, []⟩]⟩,
  -- LIC_PENDING
  ⟨0x8, [], .chip, [
      ⟨0, 6, .ro, false, 16, []⟩,
      ⟨6, 8, .ro, false, 36, []⟩,
      ⟨14, 1, .ro, false, 0, []⟩,
      ⟨15, 1, .ro, false, 0, []⟩,
      ⟨16, 10, .ro, false, 1000, []⟩]⟩,
  -- LIC_STATUS
  ⟨0x10, [], .chip, [
      ⟨0, 8, .ro, false, 0, []⟩,
      ⟨8, 3, .ro, false, 0, []⟩]⟩,
  -- LIC_SLOT
  ⟨0x100, [(0x10, 6)], .chip, [
      ⟨0, 32, .ro, false, 0, []⟩,
      ⟨32, 32, .ro, false, 0, []⟩]⟩,
  -- LIC_KEY_DIGEST
  ⟨0x200, [(0x8, 8)], .chip, [
      ⟨0, 64, .ro, false, 0, []⟩]⟩]

/-- Registers of class lcy. -/
def specsLcy : List RegSpec := [
  -- LCY_STATE
  ⟨0x0, [], .chip, [
      ⟨0, 3, .ro, false, 0, []⟩,
      ⟨8, 8, .ro, false, 0, []⟩,
      ⟨16, 16, .ro, false, 0, []⟩,
      ⟨32, 1, .ro, false, 0, []⟩]⟩,
  -- LCY_SERIAL_LO
  ⟨0x8, [], .chip, [
      ⟨0, 64, .ro, false, 0, []⟩]⟩,
  -- LCY_SERIAL_HI
  ⟨0x10, [], .chip, [
      ⟨0, 64, .ro, false, 0, []⟩]⟩,
  -- LCY_TAMPER
  ⟨0x18, [], .chip, [
      ⟨0, 1, .ro, true, 0, []⟩,
      ⟨1, 1, .ro, true, 0, []⟩,
      ⟨2, 1, .ro, true, 0, []⟩,
      ⟨3, 1, .ro, false, 0, []⟩,
      ⟨4, 1, .ro, false, 0, []⟩]⟩,
  -- LCY_FUSE
  ⟨0x20, [], .chip, [
      ⟨0, 1, .ro, false, 0, []⟩,
      ⟨16, 16, .ro, false, 0, []⟩]⟩]

/-- Registers of class thm. -/
def specsThm : List RegSpec := [
  -- THM_CHAN
  ⟨0x0, [(0x8, 256)], .chip, [
      ⟨0, 16, .ro, false, 32768, []⟩,
      ⟨16, 16, .ro, false, 32768, []⟩,
      ⟨32, 1, .ro, false, 0, []⟩,
      ⟨33, 1, .ro, false, 0, []⟩,
      ⟨34, 1, .ro, true, 0, []⟩,
      ⟨35, 1, .ro, true, 0, []⟩,
      ⟨36, 1, .ro, true, 0, []⟩,
      ⟨37, 1, .ro, false, 0, []⟩]⟩,
  -- THM_STATUS
  ⟨0x800, [], .chip, [
      ⟨0, 16, .ro, false, 0, []⟩,
      ⟨16, 8, .ro, false, 0, []⟩,
      ⟨24, 1, .ro, false, 0, []⟩,
      ⟨25, 1, .ro, false, 0, []⟩,
      ⟨26, 1, .ro, false, 0, []⟩,
      ⟨32, 32, .ro, false, 0, []⟩]⟩,
  -- THM_SHUTDOWN
  ⟨0x808, [], .aon, [
      ⟨0, 1, .ro, false, 0, []⟩,
      ⟨1, 2, .ro, false, 0, []⟩,
      ⟨3, 8, .ro, false, 0, []⟩,
      ⟨11, 16, .ro, false, 0, []⟩]⟩,
  -- THM_GRACE
  ⟨0x810, [], .chip, [
      ⟨0, 7, .rw, false, 20, [(5, 100)]⟩]⟩,
  -- THM_SOUND_CFG
  ⟨0x818, [], .chip, [
      ⟨0, 1, .rw, false, 1, []⟩,
      ⟨1, 5, .rw, false, 10, [(2, 20)]⟩,
      ⟨6, 8, .rw, false, 93, [(60, 110)]⟩,
      ⟨14, 4, .rw, false, 6, [(1, 15)]⟩,
      ⟨18, 10, .rw, false, 50, [(10, 1000)]⟩]⟩,
  -- THM_COOL
  ⟨0x820, [], .chip, [
      ⟨0, 16, .ro, false, 0, []⟩,
      ⟨16, 16, .ro, false, 0, []⟩,
      ⟨32, 16, .ro, false, 0, []⟩,
      ⟨48, 16, .ro, false, 0, []⟩]⟩,
  -- THM_COOL_CFG
  ⟨0x828, [], .chip, [
      ⟨0, 16, .rw, false, 4180, [(1000, 5000)]⟩,
      ⟨16, 8, .rw, false, 40, [(20, 40)]⟩,
      ⟨24, 16, .rw, false, 2500, [(2500, 20000)]⟩,
      ⟨40, 4, .rw, false, 5, [(1, 15)]⟩]⟩,
  -- THM_COUNTS
  ⟨0x830, [], .chip, [
      ⟨0, 16, .rc, false, 0, []⟩,
      ⟨16, 16, .rc, false, 0, []⟩,
      ⟨32, 16, .rc, false, 0, []⟩,
      ⟨48, 16, .rc, false, 0, []⟩]⟩,
  -- THM_SOUND
  ⟨0x1000, [(0x8, 128)], .chip, [
      ⟨0, 16, .ro, false, 0, []⟩,
      ⟨16, 16, .ro, false, 0, []⟩,
      ⟨32, 32, .ro, false, 0, []⟩]⟩]

/-- Registers of class pwr. -/
def specsPwr : List RegSpec := [
  -- PWR_STATE
  ⟨0x0, [], .chip, [
      ⟨0, 2, .ro, false, 0, []⟩,
      ⟨2, 1, .ro, false, 0, []⟩,
      ⟨3, 2, .ro, false, 0, []⟩,
      ⟨8, 8, .ro, false, 0, []⟩,
      ⟨16, 16, .ro, false, 0, []⟩]⟩,
  -- PWR_LIMIT
  ⟨0x8, [], .chip, [
      ⟨0, 16, .rw, false, 2600, [(1000, 2600)]⟩,
      ⟨16, 16, .ro, false, 0, []⟩]⟩,
  -- PWR_INPUT
  ⟨0x10, [], .chip, [
      ⟨0, 16, .ro, false, 0, []⟩,
      ⟨16, 16, .ro, false, 0, []⟩,
      ⟨32, 16, .ro, false, 0, []⟩,
      ⟨48, 16, .ro, false, 0, []⟩]⟩,
  -- PWR_THROTTLE
  ⟨0x18, [], .chip, [
      ⟨0, 1, .ro, false, 0, []⟩,
      ⟨1, 2, .ro, false, 0, []⟩,
      ⟨3, 4, .ro, false, 0, []⟩,
      ⟨7, 1, .ro, false, 0, []⟩,
      ⟨8, 7, .ro, false, 0, []⟩]⟩,
  -- PWR_COUNTS
  ⟨0x20, [], .chip, [
      ⟨0, 16, .rc, false, 0, []⟩,
      ⟨16, 16, .rc, false, 0, []⟩,
      ⟨32, 16, .rc, false, 0, []⟩,
      ⟨48, 16, .rc, false, 0, []⟩]⟩,
  -- PWR_LEVEL_MS
  ⟨0x28, [], .chip, [
      ⟨0, 16, .rc, false, 0, []⟩,
      ⟨16, 16, .rc, false, 0, []⟩,
      ⟨32, 16, .rc, false, 0, []⟩]⟩]

/-- Registers of class svc. -/
def specsSvc : List RegSpec := [
  -- SVC_DISPATCH_HEAD
  ⟨0x8000, [], .aon, [
      ⟨0, 32, .ro, false, 0, []⟩]⟩,
  -- SVC_DISPATCH_SEL
  ⟨0x8008, [], .aon, [
      ⟨0, 32, .rw, false, 0, []⟩]⟩,
  -- SVC_DISPATCH_REC
  ⟨0x8010, [(0x8, 4)], .aon, [
      ⟨0, 64, .ro, false, 0, []⟩]⟩,
  -- SVC_REPLACE
  ⟨0x0, [], .chip, [
      ⟨0, 12, .ro, true, 0, []⟩]⟩,
  -- SVC_REPLACE_LAST
  ⟨0x8, [], .chip, [
      ⟨0, 4, .ro, false, 0, []⟩,
      ⟨8, 8, .ro, false, 0, []⟩,
      ⟨16, 16, .ro, false, 0, []⟩,
      ⟨32, 32, .ro, false, 0, []⟩]⟩,
  -- SVC_RETIRED_CELL_LO
  ⟨0x10, [], .chip, [
      ⟨0, 64, .ro, true, 0, []⟩]⟩,
  -- SVC_RETIRED_CELL_HI
  ⟨0x18, [], .chip, [
      ⟨0, 64, .ro, true, 0, []⟩]⟩,
  -- SVC_RETIRED_DL
  ⟨0x20, [], .chip, [
      ⟨0, 64, .ro, true, 0, []⟩]⟩,
  -- SVC_RETIRED_LINK
  ⟨0x28, [], .chip, [
      ⟨0, 64, .ro, true, 0, []⟩]⟩,
  -- SVC_RETIRED_BU
  ⟨0x100, [(0x8, 16)], .chip, [
      ⟨0, 64, .ro, true, 0, []⟩]⟩,
  -- SVC_CE_CFG
  ⟨0x200, [(0x8, 7)], .chip, [
      ⟨0, 16, .rw, false, 0, []⟩,
      ⟨16, 16, .rw, false, 0, []⟩,
      ⟨32, 16, .rw, false, 3600, [(1, 65535)]⟩]⟩,
  -- SVC_CE_LAST
  ⟨0x240, [], .chip, [
      ⟨0, 3, .ro, false, 0, []⟩,
      ⟨3, 1, .ro, false, 0, []⟩,
      ⟨8, 16, .ro, false, 0, []⟩,
      ⟨32, 32, .ro, false, 0, []⟩]⟩,
  -- SVC_TEST
  ⟨0x300, [], .chip, [
      ⟨0, 2, .ro, false, 0, []⟩,
      ⟨2, 2, .ro, false, 0, []⟩,
      ⟨16, 16, .ro, false, 0, []⟩,
      ⟨32, 8, .ro, false, 0, []⟩,
      ⟨40, 8, .ro, false, 0, []⟩,
      ⟨48, 16, .ro, false, 0, []⟩]⟩]

/-- Registers of class cbLo. -/
def specsCbLo : List RegSpec := [
  -- FEED_CB_LO
  ⟨0x0, [(0x400, 32), (0x8, 64)], .die, [
      ⟨0, 64, .rw, false, 0, []⟩]⟩,
  -- FEED_CB_LO_DESC
  ⟨0x3f8, [(0x400, 32)], .die, [
      ⟨0, 1, .row, false, 0, []⟩,
      ⟨1, 1, .row, false, 0, []⟩,
      ⟨2, 2, .row, false, 0, []⟩,
      ⟨4, 1, .ro, false, 0, []⟩]⟩]

/-- Registers of class cbHi. -/
def specsCbHi : List RegSpec := [
  -- FEED_CB_HI
  ⟨0x0, [(0x400, 32), (0x8, 64)], .die, [
      ⟨0, 64, .rw, false, 0, []⟩]⟩,
  -- FEED_CB_HI_DESC
  ⟨0x3f8, [(0x400, 32)], .die, [
      ⟨0, 1, .row, false, 0, []⟩,
      ⟨1, 1, .row, false, 0, []⟩,
      ⟨2, 2, .row, false, 0, []⟩,
      ⟨4, 1, .ro, false, 0, []⟩]⟩]

/-- The registers of each page class. -/
def specsOf : Cls → List RegSpec
  | .cell => specsCell
  | .seq => specsSeq
  | .feed => specsFeed
  | .drn => specsDrn
  | .vec => specsVec
  | .que => specsQue
  | .kvt => specsKvt
  | .pbx => specsPbx
  | .vlt => specsVlt
  | .bu => specsBu
  | .buprog => specsBuprog
  | .dl => specsDl
  | .dlDie => specsDlDie
  | .hif => specsHif
  | .qp => specsQp
  | .scCommon => specsScCommon
  | .scSlice => specsScSlice
  | .gdCommon => specsGdCommon
  | .gdCtrl => specsGdCtrl
  | .gwlCommon => specsGwlCommon
  | .gwlLink => specsGwlLink
  | .tide => specsTide
  | .cht => specsCht
  | .swl => specsSwl
  | .evc => specsEvc
  | .aow => specsAow
  | .mon => specsMon
  | .crc => specsCrc
  | .fw => specsFw
  | .lic => specsLic
  | .lcy => specsLcy
  | .thm => specsThm
  | .pwr => specsPwr
  | .svc => specsSvc
  | .cbLo => specsCbLo
  | .cbHi => specsCbHi

end Sys2Proof.Machine
end

