-- ==== Sys2Proof/Machine/RegReset.lean ====
section
/-! DEFINITION. Field access on 64-bit registers, the lookup of a register by its key, and the value every register holds
at reset. -/

namespace Sys2Proof.Machine

/-- The value of a field of a register. -/
def Fld.read (f : Fld) (v : Word) : Nat := v.toNat / 2 ^ f.lo % 2 ^ f.w

/-- Bits `[lo + w - 1 : lo]` of `v` replaced by the low `w` bits of `x`. -/
def putBits (v lo w x : Nat) : Nat :=
  v / 2 ^ (lo + w) * 2 ^ (lo + w) + (x % 2 ^ w) * 2 ^ lo + v % 2 ^ lo

/-- The register with the field replaced. -/
def Fld.write (f : Fld) (v : Word) (x : Nat) : Word := BitVec.ofNat 64 (putBits v.toNat f.lo f.w x)

/-- Whether an offset lies on one of the indices of a register: `rem` is the offset above the base. -/
def dimsMatch : List (Nat × Nat) → Nat → Bool
  | [], rem => rem == 0
  | (stride, count) :: rest, rem => decide (rem / stride < count) && dimsMatch rest (rem % stride)

/-- The register of a page class at an offset (the offset of its low byte). -/
def findSpec (rs : List RegSpec) (off : Nat) : Option RegSpec :=
  match rs with
  | [] => none
  | r :: rest => if decide (r.off ≤ off) && dimsMatch r.dims (off - r.off) then some r else findSpec rest off

/-- The register at a key, with its page class and the number of the unit it belongs to. -/
def specAt (key : Nat) : Option (Cls × Nat × RegSpec) :=
  match clsOf (key / 0x10000) with
  | none => none
  | some (c, n) =>
    match findSpec (specsOf c) (key % 0x10000) with
    | none => none
    | some r => some (c, n, r)

/-- The fields' reset values put together. -/
def resetBits : List FieldSpec → Nat
  | [] => 0
  | f :: rest => f.rst * 2 ^ f.lo + resetBits rest

/-- R437: the sources that the table lists (a cell source, or one of the listed numbers). -/
def srcListed (s : Nat) : Bool :=
  s < 0x430 || (0x430 ≤ s && s < 0x438) || (0x440 ≤ s && s < 0x480) || (0x500 ≤ s && s < 0x530) ||
  (0x540 ≤ s && s < 0x560) || (0x580 ≤ s && s < 0x598) || (0x5A0 ≤ s && s < 0x5B0) || (0x5C0 ≤ s && s < 0x600) ||
  (0x700 ≤ s && s ≤ 0x70D) || (0x710 ≤ s && s ≤ 0x715) || (0x7C0 ≤ s && s ≤ 0x7FF)

/-- R437: the level sources. -/
def srcLevel (s : Nat) : Bool :=
  (s < 0x400 && (s % 8 == 0 || s % 8 == 1 || s % 8 == 4)) || (0x430 ≤ s && s < 0x438) || s == 0x701 ||
  (0x710 ≤ s && s ≤ 0x714)

/-- R460: the warning and replacement counts of each corrected-error class. -/
def ceDefault (k : Nat) : Nat × Nat :=
  match k with
  | 0 => (64, 1024) | 1 => (256, 4096) | 2 => (16, 256) | 3 => (16, 256) | 4 => (4, 64)
  | 5 => (4096, 65535) | _ => (1024, 65535)

/-- R396: slot k of a die's hash map resets to module k mod 6; one register holds 16 slots. -/
def hashReset : Nat → Nat → Nat
  | _, 0 => 0
  | k, n + 1 => k % 6 + 16 * hashReset (k + 1) n

/-- The value a register holds at reset: the spec's reset values, 0 for a key that names no register. The reset values
that the spec gives by a rule and not by a number are computed here. -/
def regReset (key : Nat) : Word :=
  match specAt key with
  | none => 0
  | some (c, n, r) =>
    let base := resetBits r.fields
    let off := key % 0x10000
    BitVec.ofNat 64 (match c with
      | .evc => if off < 0x4000 then (if srcLevel (off / 8) then 2 ^ 25 else 0) else base
      | .hif => if r.off = 8 then base + 8 * n else if r.off = 0x40 then (off - 0x40) / 8 * 128 else base
      | .dlDie => if r.off = 0x40 then hashReset ((off - 0x40) / 8 * 16) 16 else base
      | .svc =>
        if r.off = 0x200 then
          let d := ceDefault ((off - 0x200) / 8)
          base + d.1 + d.2 * 0x10000
        else base
      | _ => base)

end Sys2Proof.Machine
end

