-- ==== Sys2Proof/Machine/Units.lean ====
section
/-! DEFINITION. The records that the state keeps per unit beside the registers. -/

namespace Sys2Proof.Machine

/-- R456: what an SRAM word holds beside its data: good check bits, one wrong bit that a read corrects, an uncorrectable
error, or poison. -/
inductive SramMark where
  | good | single | bad | poison
  deriving DecidableEq, Repr

/-- What the block sends to an outside agent. -/
inductive Out where
  /-- The answer of a register or memory access: its status (R36) and its data. -/
  | reply (status : Nat) (data : List Byte)
  /-- An MSI-X message of a port. -/
  | msix (port vector : Nat)
  /-- A PLDM event message: source and edge number (R510). -/
  | mgmtEvent (source edge : Nat)
  /-- A reply of the management port. -/
  | mgmtReply (bytes : List Nat)
  /-- A Glewawin packet on a link: header, payload and CRC-32 (R403). -/
  | packet (link : Nat) (bytes : List Byte)
  deriving DecidableEq, Repr

/-- One entry of a port's MSI-X table (R350). -/
structure MsixEntry where
  addr    : Nat
  data    : Nat
  masked  : Bool
  /-- The bit of the pending-bit array. -/
  pending : Bool
  deriving DecidableEq, Repr

/-- The entry at reset: masked, as PCIe has it (log entry 12). -/
def MsixEntry.reset : MsixEntry := ⟨0, 0, true, false⟩

/-- An event message the management host has not acknowledged (R510). -/
structure MgmtMsg where
  source : Nat
  edge   : Nat
  resent : Nat
  due    : Nat
  deriving DecidableEq, Repr

/-- The live capture of a monitor unit (R446). -/
structure MonCap where
  low    : Int
  high   : Int
  count  : Nat
  sum    : Int
  ovf    : Bool
  bins   : List Nat
  beyond : Bool
  deriving DecidableEq, Repr

/-- The empty capture. -/
def MonCap.zero : MonCap := ⟨0, 0, 0, 0, false, List.replicate 32 0, false⟩

/-- The answer of an access: its status (R36), its data, and for each byte whether it lies in a word that was delivered
with the poison marking. -/
structure Resp where
  status : Nat
  data   : List Byte
  bad    : List Bool
  deriving DecidableEq, Repr

/-- The index of the first byte of a bad word. -/
def Resp.firstBad (r : Resp) : Nat := (r.bad.findIdx? fun b => b).getD 0

/-- A line of the shared cache (R269): the device address of its first byte, whether it is dirty, the KEEP class it is
sticky in, its 128 bytes and the marks of its 16 words. -/
structure ScLine where
  base   : Nat
  dirty  : Bool
  sticky : Option Nat
  data   : List Byte
  marks  : List SramMark
  deriving DecidableEq, Repr

/-- A row in a repair tracker (R195): corrected errors counted since its first entry at `first` ns. -/
structure TrackRow where
  bank  : Nat
  row   : Nat
  count : Nat
  first : Nat
  deriving DecidableEq, Repr

/-- A remapped row (R196, R290): tracker unit (vault pseudo-channel number, or 1024 + GDDR7 device), bank, row, spare. -/
structure Remap where
  unit  : Nat
  bank  : Nat
  row   : Nat
  spare : Nat
  deriving DecidableEq, Repr

/-- A granule request that waits for a memory window of a PROCESSOR-mode pseudo-channel (R183, R205, R225): who made it, the number
its access is answered under (0: an engine's, which makes its accesses itself), its address, length, the bytes of a write, when it
arrived, and the address and length of the whole access. -/
structure HeldReq where
  who   : Agent
  tag   : Nat
  addr  : Nat
  len   : Nat
  write : Option (List Byte)
  since : Nat
  base  : Nat
  whole : Nat
  deriving DecidableEq, Repr

/-- A Glewawin packet that its source keeps until the acknowledgement arrives (R403, R406): type, vc, destination module,
sequence number, args, payload, the link that carried it last, when, how often it was resent, the cell that a refused
SIGNAL counts in, the stream it belongs to (a transfer queue, or 8 plus the number of an EVACUATE operation), the link and the
time of its first sending, and whether it is acknowledged and waits for earlier packets of its stream. -/
structure GwPkt where
  kind    : Nat
  vc      : Nat
  dest    : Nat
  seq     : Nat
  args    : Nat
  payload : List Byte
  link    : Nat
  sentAt  : Nat
  resent  : Nat
  cell    : Option Nat
  queue   : Option Nat
  first   : Nat
  since   : Nat
  acked   : Bool
  deriving DecidableEq, Repr

/-- A received Glewawin packet of an acknowledged type (R403, R407): type, link it arrived on, sequence number, args, payload. -/
structure RxPkt where
  kind    : Nat
  link    : Nat
  seq     : Nat
  args    : Nat
  payload : List Byte
  deriving DecidableEq, Repr

/-- A postbox signal under way (R296): the source's code (R297), the cell whose counters a discard counts in, the global
postbox, the amount, and the time at which it set out. -/
structure Sig where
  src  : Nat
  cell : Nat
  pbx  : Nat
  add  : Nat
  sent : Nat
  deriving DecidableEq, Repr

/-- A landing notice under way (R301): the cell of the endpoint that sends it (none: a slice of the shared cache, which has no
postbox block), the global postbox, the byte count, and the time at which it set out. -/
structure Landing where
  cell  : Option Nat
  pbx   : Nat
  bytes : Nat
  sent  : Nat
  deriving DecidableEq, Repr

/-- An arrival under way to a seawall (R306): seawall, source code (R297), and the thread that sleeps on it, if one does. -/
structure Arrival where
  wall    : Nat
  src     : Nat
  sleeper : Option (Nat × Nat)
  deriving DecidableEq, Repr

/-- A load or store that a thread has issued (R153, R158): its tag, whether it is a load, whether the thread waits for the
response of a store (fn[3]), the register it writes, size, sign extension, address, the pc of the instruction, and the
answer once it is there. -/
structure Access where
  tag    : Nat
  load   : Bool
  waits  : Bool
  dest   : Nat
  size   : Nat
  sext   : Bool
  addr   : Nat
  pc     : Nat
  answer : Option Resp
  deriving DecidableEq, Repr

/-- A line of an instruction cache (R154): its address and its 128 bytes. -/
structure IcLine where
  base : Nat
  data : List Byte
  deriving DecidableEq, Repr

/-- A vector operation in the queue of R161: its thread, the pc of the VOP, the thread's owner class, operation and mode, element count,
format codes and the values of s[d], s[a] and s[b]. -/
structure VecOp where
  thread : Nat
  pc     : Nat
  cls    : Nat
  op     : Nat
  mode   : Nat
  n      : Nat
  sfmt   : Nat
  dfmt   : Nat
  d      : Nat
  a      : Nat
  b      : Nat
  deriving DecidableEq, Repr

/-- A descriptor in the queue of a channel (R176, R177): its number, the fields of R177, the thread and step that issued it
(no thread: through QUE_CH_SUBMIT), whether it has started, how many bytes have been issued and acknowledged, and the
fault (address, status) that its next byte met. -/
structure QeDesc where
  id       : Nat
  op       : Nat
  flags    : Nat
  route    : Nat
  donePbx  : Nat
  tagPbx   : Nat
  hint     : Nat
  src      : Nat
  dst      : Nat
  length   : Nat
  count    : Nat
  rowBytes : Nat
  list     : Nat
  pattern  : Nat
  thread   : Option Nat
  step     : Nat
  started  : Bool
  pos      : Nat
  fault    : Option (Nat × Nat)
  deriving DecidableEq, Repr

/-- A QUE_CH_SUBMIT that waits (R60): its channel, the number of its 64-byte block, and whether the read of it collides. -/
structure QeSub where
  chan     : Nat
  off      : Nat
  collided : Bool
  deriving DecidableEq, Repr

/-- A segment under way on a route (R63, R64): source cell, channel and outbound route, its descriptor, the offset of its
first byte in the transfer, destination cell and offset in its SRAM, its bytes, and its landing tag. -/
structure Segment where
  cell  : Nat
  chan  : Nat
  route : Nat
  desc  : Nat
  pos   : Nat
  dest  : Nat
  off   : Nat
  data  : List Byte
  tag   : Option Nat
  deriving DecidableEq, Repr

/-- A credit on its way back to its producer (R59): source cell, channel and route, the descriptor and segment it belongs to,
the destination cell and inbound route whose slot is freed, and the status of the landing. -/
structure Credit where
  cell   : Nat
  chan   : Nat
  route  : Nat
  desc   : Nat
  pos    : Nat
  dest   : Nat
  slot   : Option Nat
  status : Nat
  deriving DecidableEq, Repr

/-- An exact value: NaN, an infinity, or (−1)^neg × m × 2^e. -/
inductive Num where
  | nan
  | inf (neg : Bool)
  | fin (neg : Bool) (m : Nat) (e : Int)
  deriving DecidableEq, Repr

/-- The stored bytes of a group's weights and 2:4 indices; the group may be skipped, or lie in an absent block. -/
inductive GroupIn where
  | skipped
  | absent
  | held (data idx : List Byte)
  deriving DecidableEq, Repr

/-- A tile record in the stager (R107): its groups, the Σ w of each column (R73), and how the codes of each column decode (R79). -/
structure Tile where
  gs     : List GroupIn
  wSums  : List Int
  tables : List (List Num)
  deriving DecidableEq, Repr

/-- A pass in the feeder or the array (R99, R100): its number, its 64-byte descriptor and where it lay, the thread and step
that issued it (no thread: through FEED_ISSUE), its phase (0 queued, 1 sampled, 2 scanned, 3 in the array, 4 waiting to complete
without having entered it), the fed rows (listed index and row offset), whether the rows could not be told (R129), the next
pass number when it was sampled, its metadata, whether they have been checked, its occupied groups (R136), the number of the
first pass of its run (R139), the fault (address, status) that poisons it, on the first pass of a run the result of every fed
row, and the tile record that the stager holds for it. -/
structure Pass where
  id       : Nat
  desc     : List Byte
  addr     : Nat
  thread   : Option Nat
  step     : Nat
  phase    : Nat
  fed      : List (Nat × Nat)
  rowsLost : Bool
  bound    : Nat
  mdata    : Option (List Byte)
  metaIn   : Bool
  occ      : List Bool
  run      : Nat
  fault    : Option (Nat × Nat)
  results  : List (Nat × List Num)
  tile     : Option Tile
  deriving DecidableEq, Repr

/-- A command of a bank unit (R209): its number, entry, flags, svc_ctl, postboxes, arguments, the thread (cell, thread, step)
whose STEP_END awaits it (R211) or that issued it, whether it carries step_bound, whether it runs, whether a forced yield
(R226) or poison (R231) met it, the local offset and instruction of its first access that met a bad word, and the cell whose
KVT issued it for a page copy (R252). -/
structure BuCmd where
  id        : Nat
  entry     : Nat
  flags     : Nat
  svcCtl    : Nat
  donePbx   : Nat
  tagPbx    : Nat
  args      : List Nat
  thread    : Option (Nat × Nat)
  step      : Nat
  stepBound : Bool
  running   : Bool
  forced    : Bool
  poisoned  : Bool
  badAt     : Option (Nat × Nat)
  kvt       : Option Nat
  deriving DecidableEq, Repr

/-- A word of a buffer of a bank unit (R213): its 32 bits, and whether it is poisoned. -/
structure BufWord where
  v   : Nat
  bad : Bool
  deriving DecidableEq, Repr

/-- A piece of a KVT operation: a layer-half, a token block, and whether the next layer-half belongs to the piece (R244). -/
structure KvItem where
  lh    : Nat
  block : Nat
  pair  : Bool
  deriving DecidableEq, Repr

/-- A page copy of a KVT operation (R252, R259): layer-half, token block, the entry of the page copied, the entry of the new
page, the service command that copies it (none: the page mover), and how that command ended. -/
structure KvCopy where
  lh    : Nat
  block : Nat
  old   : Nat
  new   : Nat
  cmd   : Option Nat
  done  : Option Nat
  deriving DecidableEq, Repr

/-- An operation of a KVT (R240, R241): its number, the offset of its descriptor (none: one that the firmware keeps), the
thread that submitted it (none: a control core), the class of its accesses, its descriptor, the module EVACUATE streams to
(0xFFFF: this one), its phase (0 queued, 1 running, 2 done but for its completion), the pieces left, whether its
once-only part is done, the page copies under way, the pages it holds locked, and its status and results so far. -/
structure KvOp where
  id      : Nat
  off     : Option Nat
  thread  : Option Nat
  cls     : Nat × Nat
  desc    : List Byte
  dest    : Nat
  phase   : Nat
  todo    : List KvItem
  checked : Bool
  copies  : List KvCopy
  locks   : List Nat
  status  : Nat
  res0    : Nat
  res1    : Nat
  deriving DecidableEq, Repr

/-- A page of a sequence that waits to move or is moving (R261): sequence, layer-half, block, target tier, the thread that
queued it (none: a control core), its old entry and, once it moves, its new one. -/
structure KvMove where
  seq    : Nat
  lh     : Nat
  block  : Nat
  tier   : Nat
  thread : Option Nat
  old    : Nat
  new    : Nat
  deriving DecidableEq, Repr

/-- A staged copy (R259): the page it is a copy of, its own entry, and the tide edges since. -/
structure KvStaged where
  seq   : Nat
  lh    : Nat
  block : Nat
  entry : Nat
  age   : Nat
  deriving DecidableEq, Repr

/-- A host command that has been fetched (R355, R359): its number, port and queue pair, its descriptor, whether a postmark was
consumed, the counter whose reserve mark it waits for (R371), its phase (0 waits to start, 1 running, 2 finished), its status
and result, whether a read of it collided, the interim completions it owes (R367), the bytes it has done, the KVT
operations (cell, number) it waits for, and when it was fetched. -/
structure HCmd where
  id       : Nat
  port     : Nat
  qp       : Nat
  desc     : List Byte
  consumed : Bool
  mark     : Option Nat
  phase    : Nat
  status   : Nat
  result   : Nat
  coll     : Bool
  interims : List Nat
  pos      : Nat
  ops      : List (Nat × Nat)
  since    : Nat
  deriving DecidableEq, Repr

/-- An admitted sequence (R365): its districts (bit d), priority, out_district and max_tokens; its position; the districts where
no step has run it yet; its outstanding submission (the number of the command and the descriptor) with the input bytes; by
district, the cutoffs at which it was held (R117), and the step it joined with the addresses of its table entry and of its staging; the statuses that its step has met (R367); by district, the address
where its input lies staged; and the
SEQ_RETIRE that waits for it. -/
structure SeqRec where
  districts : Nat
  prio      : Nat
  out       : Nat
  maxTok    : Nat
  pos       : Nat
  fresh     : List Nat
  sub       : Option (Nat × List Byte)
  input     : List Byte
  held      : List (Nat × Nat)
  joined    : List (Nat × Nat × Nat × Nat)
  marks     : List Nat
  staged    : List (Nat × Nat)
  retire    : Option Nat
  deriving DecidableEq, Repr

/-- A data frame in a replay buffer (R378): its sequence number, its hash slot and its bytes 0 to 65. -/
structure DlFrame where
  seq  : Nat
  slot : Nat
  body : List Byte
  deriving DecidableEq, Repr

/-- One direction of a die-link module (R377, R378): the unacknowledged frames, how many of them have been sent since the last
replay, the next sequence number, the number the receiver expects, the consecutive replays of the first frame, the time at which
its timeout began, the frames taken over from a retired module (R393), and the acks (false) and naks (true) on their way back. -/
structure DlEnd where
  held    : List DlFrame
  pos     : Nat
  next    : Nat
  expect  : Nat
  replays : Nat
  since   : Nat
  todo    : List DlFrame
  back    : List (Bool × Nat)
  deriving DecidableEq, Repr

/-- A direction on which no frame has crossed. -/
def DlEnd.zero : DlEnd := ⟨[], 0, 0, 0, 0, 0, [], []⟩

/-- Whether the module has power (R475, R500): OFF; stage S0 under way; S0 has failed; S0 has closed. -/
inductive Power where
  | off | s0 | s0Failed | on
  deriving DecidableEq, Repr

/-- The corrected-error account of a unit (R460, R461): one more than the start of the window (0 = none runs), the count in the
window, the count since power-on reset, and whether warn and replace have fired in the window. -/
structure CeRec where
  since    : Nat
  count    : Nat
  total    : Nat
  warned   : Bool
  replaced : Bool
  deriving DecidableEq, Repr

/-- No count. -/
def CeRec.zero : CeRec := ⟨0, 0, 0, false, false⟩

/-- What the power governor, the thresholds and the cooling checks remember from round to round (R482–R497); times in ns. -/
structure Governor where
  /-- R484: the time at which the latest housekeeping round ended. -/
  roundAt : Nat
  /-- R482: P_in of the latest 10 rounds, latest first. -/
  pIn : List Nat
  /-- R489: the throttle causes that stand: bit 0 = TEMP, 1 = LIMIT, 2 = PEAK, 3 = FLOW. -/
  standing : Nat
  /-- R489: the end of the grace time that runs. -/
  graceEnd : Option Nat
  /-- R492: the time of the latest change of the enforcement level. -/
  levelAt : Nat
  /-- R492: the time since which every round has shown the condition for a rise. -/
  hotSince : Option Nat
  /-- R492: the time since which every round has shown the conditions for a fall. -/
  coolSince : Option Nat
  /-- R489: the time since which the flow is below 1.0 L/min. -/
  flowLow : Option Nat
  /-- R483: the time since which the input power is above 3,000 W. -/
  over3000 : Option Nat
  /-- R483: the time since which the input power is above 2,600 W. -/
  over2600 : Option Nat
  /-- R487: the warnings that stand: bit 0 = t_max, 1 = GDDR7, 2 = power stage. -/
  warned : Nat
  /-- R497: ΔT and ΔT_exp of the latest 1,000 rounds, latest first. -/
  coolLog : List (Int × Int)
  /-- R497: the time since which no condition for degraded cooling holds. -/
  coolGood : Option Nat
  /-- R189, R193: a round has set the vault bands since the dies powered up. -/
  banded : Bool
  deriving DecidableEq, Repr

/-- The governor at reset. -/
def Governor.zero : Governor where
  roundAt := 0
  pIn := []
  standing := 0
  graceEnd := none
  levelAt := 0
  hotSince := none
  coolSince := none
  flowLow := none
  over3000 := none
  over2600 := none
  warned := 0
  coolLog := []
  coolGood := none
  banded := false

end Sys2Proof.Machine
end

