-- ==== Sys2Proof/Machine/State.lean ====
section
/-! DEFINITION. The state of the block: everything the spec gives it, as plain data, and the queue of waiting commands.
A store of like things is a `Map` (sparse, canonical); its unlisted entries read as the reset value named here. -/

namespace Sys2Proof.Machine

/-- The block stops with a fault on no command: the spec gives every failure a status code (R36), which the commands
write to registers, responses and completions. Nothing raises one; the type is empty. -/
inductive Fault where
  deriving DecidableEq, Repr

/-- Why a command has no meaning. -/
inductive Refusal where
  /-- Raised by an arm of `exec` for a command that has no meaning yet. Safe: the block stops. -/
  | notModelled (mnemonic : String)
  deriving DecidableEq, Repr

/-- What the tide controller keeps. -/
structure TideRec where
  /-- R39: the number of the first edge after the latest start of the tide, 0 = never started. -/
  tideFirst : Nat
  /-- R44: the nominal tide time of the next edge, ns. -/
  tideNext : Nat
  /-- R44, R491: the nominal period that the latest edge placed, ns. -/
  tidePer : Nat
  /-- R46: the tide time of step 7 of the latest edge, ns. -/
  slackAt : Nat
  /-- R46: the latest edge whose cutoff has passed. -/
  edgeCut : Nat
  /-- R46: the latest edge whose step 7 has passed. -/
  slackFor : Nat
  /-- R42, R47: the tide time since which the next edge is held. -/
  holdSince : Option Nat
  /-- R41: one more than the latest step that has become complete in every district, and the tide time at which the last of them did. -/
  stepTime : Nat × Nat
  /-- R55: the nominal tide time of an edge that an apply hold delays, until its step 7. -/
  edgeNom : Option Nat
  /-- R49: the latest edge that has been counted as stretched. -/
  stretchFor : Nat
  /-- R56: the edge and time of the announcement that a follower waits for. -/
  announced : Option (Nat × Nat)
  /-- R57: the modules whose overrun reports stand at the master. -/
  reports : List Nat
  /-- R57: this follower has an overrun report standing. -/
  reported : Bool
  /-- R412: a time sync has taken place since the latest chart apply. -/
  synced : Bool
  /-- R412: the tide time of the latest time sync. -/
  syncAt : Nat
  /-- R341: the tables of the next step have been built under the staged chart. -/
  cutNew : Bool
  deriving DecidableEq, Repr

set_option maxRecDepth 4000 in
/-- The state of the block. -/
structure State where
  /-- The commands that are waiting, first in, first out. -/
  pending : List Instr
  /-- Time since power was applied, in ns (the always-on 100 MHz clock, R20). -/
  now : Nat
  /-- Tide time minus `now`, in ns (R43): zero at reset, corrected on a follower (R56). -/
  tideOff : Int
  /-- THE MODEL'S OWN: how many free values have been taken (log entry 3). -/
  freeCtr : Nat
  /-- What the block has sent out so far, latest first (replies, MSI-X messages, management messages, packets). -/
  out : List Out
  /-- Every register of the block by key (R29); an unlisted key holds its reset value. -/
  regs : Map (Word)
  /-- R8: the shadow of a register with staged fields, from its write to the next copy. -/
  shadows : Map (Option Word)
  /-- The bytes of the device address map (R23): vaults, external memory and SRAM windows. -/
  mem : Map (Byte)
  /-- R184, R286: for each stored DRAM word (device address / 8), the stored check bits and address bit XOR those its data encode to. -/
  check : Map (BitVec 16)
  /-- R456: the state of an SRAM word (device address / 8) other than its data. -/
  marks : Map (SramMark)
  /-- The memory of the host of port p, at p × 2^64 + host address (R353). -/
  hostMem : Map (Byte)
  /-- R350: entry v of port p at key p × 128 + v. -/
  msix : Map (MsixEntry)
  /-- R510: event messages sent on the management port and not yet acknowledged. -/
  mgmtQ : List MgmtMsg
  /-- R510: event messages dropped. -/
  mgmtDropped : Nat
  /-- R446: the live capture of each monitor unit. -/
  mon : Map (MonCap)
  /-- R269: the valid lines of each set of the shared cache (key slice × 2048 + set), most recent first. -/
  cache : Map (List ScLine)
  /-- R283: a set of the shared cache that has lost both tag copies. -/
  tagLost : Map (Bool)
  /-- R195, R290: the repair tracker of each vault pseudo-channel (0–1023) and GDDR7 device (1024 + g), oldest first. -/
  tracker : Map (List TrackRow)
  /-- R194, R286: the spare rows in use of each bank (key unit × 16 + bank). -/
  spares : Map (List Nat)
  /-- R196: remaps made on the fly that the firmware has not yet written to the service flash. -/
  remapNew : List Remap
  /-- R196: the persistent remap lists of the service flash. -/
  remapFlash : List Remap
  /-- R225: the requests held at each pseudo-channel (bank unit number), in arrival order. -/
  held : Map (List HeldReq)
  /-- R225: engines whose held request a memory window of the pseudo-channel has served. -/
  granted : Map (List Agent)
  /-- R183, R225: the granule requests already answered of a held access (key its number), each with its address. -/
  heldParts : Map (List (Nat × Resp))
  /-- R205: a WRITE packet that a PROCESSOR-mode pseudo-channel holds (key the number of its access): stream (module × 4 + vc) and packet. -/
  rxWait : Map (Option (Nat × RxPkt))
  /-- R421: the number of the bring-up, kept in the service flash. -/
  boot : Nat
  /-- R472: the replacement flags kept in the service flash. -/
  replaceFlash : Nat
  /-- R406: the packets kept until their acknowledgement, oldest first. -/
  gwOut : List GwPkt
  /-- R405: the hop replay buffer of each link: the packets sent on it (vc and bytes), oldest first, at most 256 KiB. -/
  hopBuf : Map (List (Nat × List Byte))
  /-- R455: the parity errors that each block has counted (key State.parityBlock or agentBlock); no register shows them. -/
  parityCount : Map (Nat)
  /-- R403: the next sequence number to each module on each vc (key module × 4 + vc). -/
  gwSeq : Map (Nat)
  /-- R408: the current weight of each link in the smooth weighted round robin. -/
  gwSpray : Map (Int)
  /-- Signals under way to postboxes, oldest first (R296). -/
  sigQ : List Sig
  /-- Landing notices under way, oldest first (R301). -/
  landQ : List Landing
  /-- Arrivals under way to seawalls, oldest first (R306). -/
  arrQ : List Arrival
  /-- Releases under way: (cell, seawall), oldest first (R308). -/
  relQ : List (Nat × Nat)
  /-- R299: the threads that wait on each global postbox, oldest WAIT first. -/
  waiters : Map (List Nat)
  /-- R299, R307: the time at which thread t of cell c (key c × 16 + t) began to wait. -/
  waitSince : Map (Nat)
  /-- R84: the vault interface block's copy of bu_acc (bits 1:0) and bu_out (bits 3:2) of cell c. -/
  buRound : Map (Nat)
  /-- R307: the releases of seawall s that cell c has received (key c × 64 + s). -/
  relSeen : Map (Nat)
  /-- THE MODEL'S OWN: the number under which the next access of a thread is answered. -/
  tagNext : Nat
  /-- R153: the loads and stores of thread t of cell c (key c × 16 + t) that have not been answered to it, oldest first. -/
  loads : Map (List Access)
  /-- R154: the valid lines of each set of the instruction cache of cell c (key c × 64 + set), most recent first. -/
  icache : Map (List IcLine)
  /-- R153: the thread of cell c that issued last; before any has issued, the round starts at thread 0. -/
  rrLast : Map (Nat)
  /-- R158: the number of the edge that started the current step of thread t of cell c (key c × 16 + t). -/
  thrStep : Map (Nat)
  /-- R161: the vector queue of each cell, oldest first. -/
  vecQ : Map (List VecOp)
  /-- R176: the descriptors of channel k of cell c (key c × 8 + k), oldest first; started ones come first. -/
  qeQ : Map (List QeDesc)
  /-- R60: the QUE_CH_SUBMIT writes that wait at the limit of 256 descriptors of cell c, oldest first. -/
  qeSubs : Map (List QeSub)
  /-- R179: the descriptors of channel k of cell c (key c × 8 + k) that a flush ends once their issued requests are complete. -/
  qeFlush : Map (List Nat)
  /-- R63: the route segments under way, oldest first. -/
  segQ : List Segment
  /-- R59: the credits on their way back, oldest first. -/
  creditQ : List Credit
  /-- R64: the ring slot that the next segment of outbound route r of cell c (key c × 32 + r) takes. -/
  routeSlot : Map (Nat)
  /-- QUE_ROUTE_OUT_STALL: one more than the time at which a segment of the route (key c × 32 + r) found no credit, 0 = none waits. -/
  stallSince : Map (Nat)
  /-- R99: the passes of each cell that have not completed, in issue order. -/
  passQ : Map (List Pass)
  /-- R113: the time up to which the ck of cell c have been counted. -/
  feedAt : Map (Nat)
  /-- R191: the row that the next per-bank refresh of a bank takes (key bank unit × 16 + bank). -/
  refRow : Map (Nat)
  /-- R198: the running scrub of a vault (key its cell) or of external memory (key 128): base, limit and start time. -/
  scrubRun : Map (Option (Nat × Nat × Nat))
  /-- R211: the commands of each bank unit, oldest first; the first may be running. -/
  buQ : Map (List BuCmd)
  /-- R213: word i of buffer k (0 = Q, 1 = I, 2 = S, 3 = VA) of bank unit u at key u × 4096 + k × 1024 + i. -/
  buBuf : Map (BufWord)
  /-- R213: codebook slot k of bank unit u (key u × 4 + k): its bytes and whether each came from a poisoned word; an empty list reads 0. -/
  buBook : Map (List (Byte × Bool))
  /-- R222: whether a bank unit holds an activity slot of its stack (1) or waits for one (2). -/
  buSlot : Map (Nat)
  /-- R224: the time at which a bank unit last reached a yield point. -/
  yieldAt : Map (Nat)
  /-- R245: the operations of each KVT (key cell), in submission order. -/
  kvtQ : Map (List KvOp)
  /-- The status, res0 and res1 of a finished operation whose descriptor the firmware keeps (key its number). -/
  kvtEnd : Map (Option (Nat × Nat × Nat))
  /-- R261: the pages of each cell queued for a move, in queue order. -/
  kvtMigQ : Map (List KvMove)
  /-- R261: the pages of each cell that are moving, oldest first. -/
  kvtMoves : Map (List KvMove)
  /-- R261: the entries of the old pages that each cell frees at the following edge. -/
  kvtFrees : Map (List Nat)
  /-- R259: the staged copies each cell holds. -/
  kvtStaged : Map (List KvStaged)
  /-- R289: the time at which GDDR7 controller g was last retrained. -/
  gdRetrain : Map (Nat)
  /-- R355: the host commands that have not posted their final completion, in fetch order. -/
  cmds : List HCmd
  /-- R355: the queue pair whose turn it is at port p, times 16, plus the descriptors fetched in this turn. -/
  fetchAt : Map (Nat)
  /-- R357: the unsignalled completions of pair q of port p (key p × 64 + q) and the time of the first. -/
  cqAgg : Map (Nat × Nat)
  /-- R358: one more than the time at which the link of port p left DL_Active, 0 = it is up or was never up. -/
  linkDown : Map (Nat)
  /-- R370: the postmark key of port p in secure SRAM, empty = none. -/
  pmKey : Map (List Byte)
  /-- R370: the key of port p in the service flash (kept wrapped there). -/
  pmFlash : Map (List Byte)
  /-- R371: the reserve mark of port p in the service flash. -/
  pmMark : Map (Nat)
  /-- R370, R435: a tamper wipe has happened since the power-on reset. -/
  tampered : Bool
  /-- R373: the open token offer: its command and the time it was opened. -/
  offer : Option (Nat × Nat)
  /-- R365: the admitted sequences. -/
  seqs : Map (Option SeqRec)
  /-- R421: the ring of 1,024 dispatch records in always-on SRAM. -/
  dispatchLog : Map (List Byte)
  /-- R421: the dispatch records in the service flash, latest last, at most 8,192. -/
  dispatchFlash : List (List Byte)
  /-- R430: the stored frank of each kind in the service flash, empty = none. -/
  franks : Map (List Byte)
  /-- R432: the lifecycle state recorded in fuses. -/
  fuseLcy : Nat
  /-- R417: bring-up has closed S9. -/
  ready : Bool
  /-- R420: the time at which the current bring-up stage started. -/
  stageAt : Nat
  /-- R427: whether a HELLO of port p has been answered since S3 (1). -/
  agreed : Map (Nat)
  /-- R502: the PERST# pin of port p is asserted. -/
  perst : Map (Bool)
  /-- R336: the image in the chart area that is loading, staging, staged or armed. -/
  chart : List Byte
  /-- R344: the live image. -/
  chartLive : List Byte
  /-- R336: the CHART_LOAD that is running. -/
  chartLoad : Option Nat
  /-- R341: the cutoff of the next edge has passed with the staged chart armed for that edge. -/
  applyNow : Bool
  /-- R421: the index of the first dispatch record that is not yet in the service flash. -/
  flashAt : Nat
  /-- R417: the time at which the boot ROM accepted the firmware image. -/
  fwAt : Nat
  /-- R427: the status of the first HELLO of the token holder in S3 and the driver interface revision it named, until S3 closes. -/
  hello : Option (Nat × Nat)
  /-- R370, R432, R434: the service flash holds the wrapped enrolment key. -/
  enrolled : Bool
  /-- R361: the time at which a RESET command completed, until the warm reset that follows it. -/
  resetAt : Option Nat
  /-- R378: the sender and receiver of direction r of die-link module (d, m) (key (d × 6 + m) × 2 + r; r = 0 from the I/O die, 1 toward it). -/
  dlEnd : Map (DlEnd)
  /-- R391: the start of the 1 ms window of a die-link module (key d × 6 + m) and the CRC failures in it. -/
  dlFail : Map (Nat × Nat)
  /-- R391: the configuration that a TRAINING or OFFLINE module (key d × 6 + m) retrains from: its state × 2 + half. -/
  dlOld : Map (Nat)
  /-- R381: the slot moves under way: die, slot, old module, new module. -/
  dlMoves : List (Nat × Nat × Nat × Nat)
  /-- The tide controller. -/
  tide : TideRec
  /-- R48: for a district with an overrun step that is still incomplete, the edge at whose step 7 it was found; 0 = none. -/
  overAt : Map (Nat)
  /-- R41: for district d, key d × 2 + step mod 2: one more than the step of that parity recorded complete last. -/
  stepEnd : Map (Nat)
  /-- R41: the tide time at which the step that `stepEnd` names under the same key became complete in its district. -/
  stepAt : Map (Nat)
  /-- R468: RETIRE_UNIT commands that wait for a tide edge: command, kind, unit. -/
  retirePend : List (Nat × Nat × Nat)
  /-- R344: the live image is staged again after a STANDBY, to be applied at the next edge. -/
  restage : Bool
  /-- R407: the next sequence number, by source module and vc (module * 4 + vc). -/
  gwNext : Map (Nat)
  /-- R407: the reorder store, by source module and vc: early packets. -/
  gwHold : Map (List RxPkt)
  /-- R406, R410: the status of a delivered packet whose ACK carries a refusal, by module, vc and sequence number. -/
  gwRefused : Map (Nat)
  /-- R413: the descriptor that a transfer queue has fetched and not completed. -/
  xqDesc : Map (List Byte)
  /-- R352: the size the host of port p has set for BAR2, as log2 of its multiple of 256 MiB. -/
  bar2 : Map (Nat)
  /-- R475, R500: whether the module has power and how far stage S0 is; in OFF nothing happens. -/
  power : Power
  /-- R485: the rounds among the latest 1,000 in which a reading (key channel × 2 + half) was suspect, latest first. -/
  suspects : Map (List Nat)
  /-- R486: source 0x715 has fired for cell c and its difference has not fallen to 3 °C since. -/
  disagreed : Map (Bool)
  /-- R497: for each cell, the soundings whose round has not come: the round forecast and the logic forecast. -/
  soundings : Map (List (Nat × Int))
  /-- R497: the residuals of each cell over the latest 1,000 rounds, latest first. -/
  residuals : Map (List Int)
  /-- R496: a warning has been forecast for cell c and the forecast has not fallen below the clear value since. -/
  foretold : Map (Bool)
  /-- R495: one more than the time of the latest rotation of a rotation set of the live chart. -/
  rotAt : Map (Nat)
  /-- R460: the corrected-error account of a unit (key class × 65536 + unit). -/
  ceCount : Map (CeRec)
  /-- R471: the time at which the live test started. -/
  testFrom : Nat
  /-- R482–R497: what the power governor, the thresholds and the cooling checks remember. -/
  gov : Governor
  /-- R508: the MCTP endpoint ID that the bus owner has given the management port, 0 = none yet. -/
  eid : Nat
  deriving DecidableEq, Repr

/-- What an unlisted entry of `State.regs` reads as. -/
def dfltRegs (k : Nat) : Word := regReset k

/-- What an unlisted entry of `State.shadows` reads as. -/
def dfltShadows (_ : Nat) : Option Word := none

/-- What an unlisted entry of `State.mem` reads as. -/
def dfltMem (_ : Nat) : Byte := 0

/-- What an unlisted entry of `State.check` reads as. -/
def dfltCheck (_ : Nat) : BitVec 16 := 0

/-- What an unlisted entry of `State.marks` reads as. -/
def dfltMarks (_ : Nat) : SramMark := .good

/-- What an unlisted entry of `State.hostMem` reads as. -/
def dfltHostMem (_ : Nat) : Byte := 0

/-- What an unlisted entry of `State.msix` reads as. -/
def dfltMsix (_ : Nat) : MsixEntry := MsixEntry.reset

/-- What an unlisted entry of `State.mon` reads as. -/
def dfltMon (_ : Nat) : MonCap := MonCap.zero

/-- What an unlisted entry of `State.cache` reads as. -/
def dfltCache (_ : Nat) : List ScLine := []

/-- What an unlisted entry of `State.tagLost` reads as. -/
def dfltTagLost (_ : Nat) : Bool := false

/-- What an unlisted entry of `State.tracker` reads as. -/
def dfltTracker (_ : Nat) : List TrackRow := []

/-- What an unlisted entry of `State.spares` reads as. -/
def dfltSpares (_ : Nat) : List Nat := []

/-- What an unlisted entry of `State.held` reads as. -/
def dfltHeld (_ : Nat) : List HeldReq := []

/-- What an unlisted entry of `State.granted` reads as. -/
def dfltGranted (_ : Nat) : List Agent := []

/-- What an unlisted entry of `State.heldParts` reads as. -/
def dfltHeldParts (_ : Nat) : List (Nat × Resp) := []

/-- What an unlisted entry of `State.rxWait` reads as. -/
def dfltRxWait (_ : Nat) : Option (Nat × RxPkt) := none

/-- What an unlisted entry of `State.hopBuf` reads as. -/
def dfltHopBuf (_ : Nat) : List (Nat × List Byte) := []

/-- What an unlisted entry of `State.parityCount` reads as. -/
def dfltParityCount (_ : Nat) : Nat := 0

/-- What an unlisted entry of `State.gwSeq` reads as. -/
def dfltGwSeq (_ : Nat) : Nat := 0

/-- What an unlisted entry of `State.gwSpray` reads as. -/
def dfltGwSpray (_ : Nat) : Int := 0

/-- What an unlisted entry of `State.waiters` reads as. -/
def dfltWaiters (_ : Nat) : List Nat := []

/-- What an unlisted entry of `State.waitSince` reads as. -/
def dfltWaitSince (_ : Nat) : Nat := 0

/-- What an unlisted entry of `State.buRound` reads as. -/
def dfltBuRound (_ : Nat) : Nat := 0

/-- What an unlisted entry of `State.relSeen` reads as. -/
def dfltRelSeen (_ : Nat) : Nat := 0

/-- What an unlisted entry of `State.loads` reads as. -/
def dfltLoads (_ : Nat) : List Access := []

/-- What an unlisted entry of `State.icache` reads as. -/
def dfltIcache (_ : Nat) : List IcLine := []

/-- What an unlisted entry of `State.rrLast` reads as. -/
def dfltRrLast (_ : Nat) : Nat := 15

/-- What an unlisted entry of `State.thrStep` reads as. -/
def dfltThrStep (_ : Nat) : Nat := 0

/-- What an unlisted entry of `State.vecQ` reads as. -/
def dfltVecQ (_ : Nat) : List VecOp := []

/-- What an unlisted entry of `State.qeQ` reads as. -/
def dfltQeQ (_ : Nat) : List QeDesc := []

/-- What an unlisted entry of `State.qeSubs` reads as. -/
def dfltQeSubs (_ : Nat) : List QeSub := []

/-- What an unlisted entry of `State.qeFlush` reads as. -/
def dfltQeFlush (_ : Nat) : List Nat := []

/-- What an unlisted entry of `State.routeSlot` reads as. -/
def dfltRouteSlot (_ : Nat) : Nat := 0

/-- What an unlisted entry of `State.stallSince` reads as. -/
def dfltStallSince (_ : Nat) : Nat := 0

/-- What an unlisted entry of `State.passQ` reads as. -/
def dfltPassQ (_ : Nat) : List Pass := []

/-- What an unlisted entry of `State.feedAt` reads as. -/
def dfltFeedAt (_ : Nat) : Nat := 0

/-- What an unlisted entry of `State.refRow` reads as. -/
def dfltRefRow (_ : Nat) : Nat := 0

/-- What an unlisted entry of `State.scrubRun` reads as. -/
def dfltScrubRun (_ : Nat) : Option (Nat × Nat × Nat) := none

/-- What an unlisted entry of `State.buQ` reads as. -/
def dfltBuQ (_ : Nat) : List BuCmd := []

/-- What an unlisted entry of `State.buBuf` reads as. -/
def dfltBuBuf (_ : Nat) : BufWord := ⟨0, false⟩

/-- What an unlisted entry of `State.buBook` reads as. -/
def dfltBuBook (_ : Nat) : List (Byte × Bool) := []

/-- What an unlisted entry of `State.buSlot` reads as. -/
def dfltBuSlot (_ : Nat) : Nat := 0

/-- What an unlisted entry of `State.yieldAt` reads as. -/
def dfltYieldAt (_ : Nat) : Nat := 0

/-- What an unlisted entry of `State.kvtQ` reads as. -/
def dfltKvtQ (_ : Nat) : List KvOp := []

/-- What an unlisted entry of `State.kvtEnd` reads as. -/
def dfltKvtEnd (_ : Nat) : Option (Nat × Nat × Nat) := none

/-- What an unlisted entry of `State.kvtMigQ` reads as. -/
def dfltKvtMigQ (_ : Nat) : List KvMove := []

/-- What an unlisted entry of `State.kvtMoves` reads as. -/
def dfltKvtMoves (_ : Nat) : List KvMove := []

/-- What an unlisted entry of `State.kvtFrees` reads as. -/
def dfltKvtFrees (_ : Nat) : List Nat := []

/-- What an unlisted entry of `State.kvtStaged` reads as. -/
def dfltKvtStaged (_ : Nat) : List KvStaged := []

/-- What an unlisted entry of `State.gdRetrain` reads as. -/
def dfltGdRetrain (_ : Nat) : Nat := 0

/-- What an unlisted entry of `State.fetchAt` reads as. -/
def dfltFetchAt (_ : Nat) : Nat := 0

/-- What an unlisted entry of `State.cqAgg` reads as. -/
def dfltCqAgg (_ : Nat) : Nat × Nat := (0, 0)

/-- What an unlisted entry of `State.linkDown` reads as. -/
def dfltLinkDown (_ : Nat) : Nat := 0

/-- What an unlisted entry of `State.pmKey` reads as. -/
def dfltPmKey (_ : Nat) : List Byte := []

/-- What an unlisted entry of `State.pmFlash` reads as. -/
def dfltPmFlash (_ : Nat) : List Byte := []

/-- What an unlisted entry of `State.pmMark` reads as. -/
def dfltPmMark (_ : Nat) : Nat := 0

/-- What an unlisted entry of `State.seqs` reads as. -/
def dfltSeqs (_ : Nat) : Option SeqRec := none

/-- What an unlisted entry of `State.dispatchLog` reads as. -/
def dfltDispatchLog (_ : Nat) : List Byte := []

/-- What an unlisted entry of `State.franks` reads as. -/
def dfltFranks (_ : Nat) : List Byte := []

/-- What an unlisted entry of `State.agreed` reads as. -/
def dfltAgreed (_ : Nat) : Nat := 0

/-- What an unlisted entry of `State.perst` reads as. -/
def dfltPerst (_ : Nat) : Bool := false

/-- What an unlisted entry of `State.dlEnd` reads as. -/
def dfltDlEnd (_ : Nat) : DlEnd := DlEnd.zero

/-- What an unlisted entry of `State.dlFail` reads as. -/
def dfltDlFail (_ : Nat) : Nat × Nat := (0, 0)

/-- What an unlisted entry of `State.dlOld` reads as. -/
def dfltDlOld (_ : Nat) : Nat := 0

/-- What an unlisted entry of `State.overAt` reads as. -/
def dfltOverAt (_ : Nat) : Nat := 0

/-- What an unlisted entry of `State.stepEnd` reads as. -/
def dfltStepEnd (_ : Nat) : Nat := 0

/-- What an unlisted entry of `State.stepAt` reads as. -/
def dfltStepAt (_ : Nat) : Nat := 0

/-- What an unlisted entry of `State.gwNext` reads as. -/
def dfltGwNext (_ : Nat) : Nat := 0

/-- What an unlisted entry of `State.gwHold` reads as. -/
def dfltGwHold (_ : Nat) : List RxPkt := []

/-- What an unlisted entry of `State.gwRefused` reads as. -/
def dfltGwRefused (_ : Nat) : Nat := 0

/-- What an unlisted entry of `State.xqDesc` reads as. -/
def dfltXqDesc (_ : Nat) : List Byte := []

/-- What an unlisted entry of `State.bar2` reads as. -/
def dfltBar2 (_ : Nat) : Nat := 0

/-- What an unlisted entry of `State.suspects` reads as. -/
def dfltSuspects (_ : Nat) : List Nat := []

/-- What an unlisted entry of `State.disagreed` reads as. -/
def dfltDisagreed (_ : Nat) : Bool := false

/-- What an unlisted entry of `State.soundings` reads as. -/
def dfltSoundings (_ : Nat) : List (Nat × Int) := []

/-- What an unlisted entry of `State.residuals` reads as. -/
def dfltResiduals (_ : Nat) : List Int := []

/-- What an unlisted entry of `State.foretold` reads as. -/
def dfltForetold (_ : Nat) : Bool := false

/-- What an unlisted entry of `State.rotAt` reads as. -/
def dfltRotAt (_ : Nat) : Nat := 0

/-- What an unlisted entry of `State.ceCount` reads as. -/
def dfltCeCount (_ : Nat) : CeRec := CeRec.zero

/-- The block right after power-on reset, before bring-up stage S0. -/
def State.reset : State where
  pending := []
  now := 0
  tideOff := 0
  freeCtr := 0
  out := []
  regs := []
  shadows := []
  mem := []
  check := []
  marks := []
  hostMem := []
  msix := []
  mgmtQ := []
  mgmtDropped := 0
  mon := []
  cache := []
  tagLost := []
  tracker := []
  spares := []
  remapNew := []
  remapFlash := []
  held := []
  granted := []
  heldParts := []
  rxWait := []
  boot := 0
  replaceFlash := 0
  gwOut := []
  hopBuf := []
  parityCount := []
  gwSeq := []
  gwSpray := []
  sigQ := []
  landQ := []
  arrQ := []
  relQ := []
  waiters := []
  waitSince := []
  buRound := []
  relSeen := []
  tagNext := 0
  loads := []
  icache := []
  rrLast := []
  thrStep := []
  vecQ := []
  qeQ := []
  qeSubs := []
  qeFlush := []
  segQ := []
  creditQ := []
  routeSlot := []
  stallSince := []
  passQ := []
  feedAt := []
  refRow := []
  scrubRun := []
  buQ := []
  buBuf := []
  buBook := []
  buSlot := []
  yieldAt := []
  kvtQ := []
  kvtEnd := []
  kvtMigQ := []
  kvtMoves := []
  kvtFrees := []
  kvtStaged := []
  gdRetrain := []
  cmds := []
  fetchAt := []
  cqAgg := []
  linkDown := []
  pmKey := []
  pmFlash := []
  pmMark := []
  tampered := false
  offer := none
  seqs := []
  dispatchLog := []
  dispatchFlash := []
  franks := []
  fuseLcy := 0
  ready := false
  stageAt := 0
  agreed := []
  perst := []
  chart := []
  chartLive := []
  chartLoad := none
  applyNow := false
  flashAt := 0
  fwAt := 0
  hello := none
  enrolled := false
  resetAt := none
  dlEnd := []
  dlFail := []
  dlOld := []
  dlMoves := []
  tide := { tideFirst := 0, tideNext := 0, tidePer := 0, slackAt := 0, edgeCut := 0, slackFor := 0, holdSince := none, stepTime := (0, 0), edgeNom := none, stretchFor := 0, announced := none, reports := [], reported := false, synced := false, syncAt := 0, cutNew := false }
  overAt := []
  stepEnd := []
  stepAt := []
  retirePend := []
  restage := false
  gwNext := []
  gwHold := []
  gwRefused := []
  xqDesc := []
  bar2 := []
  power := .s0
  suspects := []
  disagreed := []
  soundings := []
  residuals := []
  foretold := []
  rotAt := []
  ceCount := []
  testFrom := 0
  gov := Governor.zero
  eid := 0

/-- R39: the number of the first edge after the latest start of the tide, 0 = never started. -/
def State.tideFirst (s : State) : Nat := s.tide.tideFirst

/-- R44: the nominal tide time of the next edge, ns. -/
def State.tideNext (s : State) : Nat := s.tide.tideNext

/-- R44, R491: the nominal period that the latest edge placed, ns. -/
def State.tidePer (s : State) : Nat := s.tide.tidePer

/-- R46: the tide time of step 7 of the latest edge, ns. -/
def State.slackAt (s : State) : Nat := s.tide.slackAt

/-- R46: the latest edge whose cutoff has passed. -/
def State.edgeCut (s : State) : Nat := s.tide.edgeCut

/-- R46: the latest edge whose step 7 has passed. -/
def State.slackFor (s : State) : Nat := s.tide.slackFor

/-- R42, R47: the tide time since which the next edge is held. -/
def State.holdSince (s : State) : Option Nat := s.tide.holdSince

/-- R41: one more than the latest step that has become complete in every district, and the tide time at which the last of them did. -/
def State.stepTime (s : State) : Nat × Nat := s.tide.stepTime

/-- R55: the nominal tide time of an edge that an apply hold delays, until its step 7. -/
def State.edgeNom (s : State) : Option Nat := s.tide.edgeNom

/-- R49: the latest edge that has been counted as stretched. -/
def State.stretchFor (s : State) : Nat := s.tide.stretchFor

/-- R56: the edge and time of the announcement that a follower waits for. -/
def State.announced (s : State) : Option (Nat × Nat) := s.tide.announced

/-- R57: the modules whose overrun reports stand at the master. -/
def State.reports (s : State) : List Nat := s.tide.reports

/-- R57: this follower has an overrun report standing. -/
def State.reported (s : State) : Bool := s.tide.reported

/-- R412: a time sync has taken place since the latest chart apply. -/
def State.synced (s : State) : Bool := s.tide.synced

/-- R412: the tide time of the latest time sync. -/
def State.syncAt (s : State) : Nat := s.tide.syncAt

/-- R341: the tables of the next step have been built under the staged chart. -/
def State.cutNew (s : State) : Bool := s.tide.cutNew

end Sys2Proof.Machine
end

