-- ==== Sys2Proof/Machine/Eff.lean ====
section
/-! DEFINITION. What a command may do to the state. An effect (`Eff`) is a sequence of primitive updates (`Upd`), each
of one field of the state, whose arguments may be read from the state reached so far (`look`). No primitive update
touches the queue. Every meaning is an effect, so a fact that every primitive update keeps is a fact of every command. -/

namespace Sys2Proof.Machine

/-- One primitive update: of a plain field, of one entry of a store, or the removal of entries of a store. -/
inductive Upd where
  | now (v : Nat)
  | tideOff (v : Int)
  | freeCtr (v : Nat)
  | out (v : List Out)
  | regs (k : Nat) (v : Word)
  | shadows (k : Nat) (v : Option Word)
  | mem (k : Nat) (v : Byte)
  | check (k : Nat) (v : BitVec 16)
  | marks (k : Nat) (v : SramMark)
  | hostMem (k : Nat) (v : Byte)
  | msix (k : Nat) (v : MsixEntry)
  | mgmtQ (v : List MgmtMsg)
  | mgmtDropped (v : Nat)
  | mon (k : Nat) (v : MonCap)
  | cache (k : Nat) (v : List ScLine)
  | tagLost (k : Nat) (v : Bool)
  | tracker (k : Nat) (v : List TrackRow)
  | spares (k : Nat) (v : List Nat)
  | remapNew (v : List Remap)
  | remapFlash (v : List Remap)
  | held (k : Nat) (v : List HeldReq)
  | granted (k : Nat) (v : List Agent)
  | heldParts (k : Nat) (v : List (Nat × Resp))
  | rxWait (k : Nat) (v : Option (Nat × RxPkt))
  | boot (v : Nat)
  | replaceFlash (v : Nat)
  | gwOut (v : List GwPkt)
  | hopBuf (k : Nat) (v : List (Nat × List Byte))
  | parityCount (k : Nat) (v : Nat)
  | gwSeq (k : Nat) (v : Nat)
  | gwSpray (k : Nat) (v : Int)
  | sigQ (v : List Sig)
  | landQ (v : List Landing)
  | arrQ (v : List Arrival)
  | relQ (v : List (Nat × Nat))
  | waiters (k : Nat) (v : List Nat)
  | waitSince (k : Nat) (v : Nat)
  | buRound (k : Nat) (v : Nat)
  | relSeen (k : Nat) (v : Nat)
  | tagNext (v : Nat)
  | loads (k : Nat) (v : List Access)
  | icache (k : Nat) (v : List IcLine)
  | rrLast (k : Nat) (v : Nat)
  | thrStep (k : Nat) (v : Nat)
  | vecQ (k : Nat) (v : List VecOp)
  | qeQ (k : Nat) (v : List QeDesc)
  | qeSubs (k : Nat) (v : List QeSub)
  | qeFlush (k : Nat) (v : List Nat)
  | segQ (v : List Segment)
  | creditQ (v : List Credit)
  | routeSlot (k : Nat) (v : Nat)
  | stallSince (k : Nat) (v : Nat)
  | passQ (k : Nat) (v : List Pass)
  | feedAt (k : Nat) (v : Nat)
  | refRow (k : Nat) (v : Nat)
  | scrubRun (k : Nat) (v : Option (Nat × Nat × Nat))
  | buQ (k : Nat) (v : List BuCmd)
  | buBuf (k : Nat) (v : BufWord)
  | buBook (k : Nat) (v : List (Byte × Bool))
  | buSlot (k : Nat) (v : Nat)
  | yieldAt (k : Nat) (v : Nat)
  | kvtQ (k : Nat) (v : List KvOp)
  | kvtEnd (k : Nat) (v : Option (Nat × Nat × Nat))
  | kvtMigQ (k : Nat) (v : List KvMove)
  | kvtMoves (k : Nat) (v : List KvMove)
  | kvtFrees (k : Nat) (v : List Nat)
  | kvtStaged (k : Nat) (v : List KvStaged)
  | gdRetrain (k : Nat) (v : Nat)
  | cmds (v : List HCmd)
  | fetchAt (k : Nat) (v : Nat)
  | cqAgg (k : Nat) (v : Nat × Nat)
  | linkDown (k : Nat) (v : Nat)
  | pmKey (k : Nat) (v : List Byte)
  | pmFlash (k : Nat) (v : List Byte)
  | pmMark (k : Nat) (v : Nat)
  | tampered (v : Bool)
  | offer (v : Option (Nat × Nat))
  | seqs (k : Nat) (v : Option SeqRec)
  | dispatchLog (k : Nat) (v : List Byte)
  | dispatchFlash (v : List (List Byte))
  | franks (k : Nat) (v : List Byte)
  | fuseLcy (v : Nat)
  | ready (v : Bool)
  | stageAt (v : Nat)
  | agreed (k : Nat) (v : Nat)
  | perst (k : Nat) (v : Bool)
  | chart (v : List Byte)
  | chartLive (v : List Byte)
  | chartLoad (v : Option Nat)
  | applyNow (v : Bool)
  | flashAt (v : Nat)
  | fwAt (v : Nat)
  | hello (v : Option (Nat × Nat))
  | enrolled (v : Bool)
  | resetAt (v : Option Nat)
  | dlEnd (k : Nat) (v : DlEnd)
  | dlFail (k : Nat) (v : Nat × Nat)
  | dlOld (k : Nat) (v : Nat)
  | dlMoves (v : List (Nat × Nat × Nat × Nat))
  | tideFirst (v : Nat)
  | tideNext (v : Nat)
  | tidePer (v : Nat)
  | slackAt (v : Nat)
  | edgeCut (v : Nat)
  | slackFor (v : Nat)
  | holdSince (v : Option Nat)
  | overAt (k : Nat) (v : Nat)
  | stepEnd (k : Nat) (v : Nat)
  | stepAt (k : Nat) (v : Nat)
  | stepTime (v : Nat × Nat)
  | edgeNom (v : Option Nat)
  | stretchFor (v : Nat)
  | announced (v : Option (Nat × Nat))
  | reports (v : List Nat)
  | reported (v : Bool)
  | synced (v : Bool)
  | syncAt (v : Nat)
  | retirePend (v : List (Nat × Nat × Nat))
  | restage (v : Bool)
  | cutNew (v : Bool)
  | gwNext (k : Nat) (v : Nat)
  | gwHold (k : Nat) (v : List RxPkt)
  | gwRefused (k : Nat) (v : Nat)
  | xqDesc (k : Nat) (v : List Byte)
  | bar2 (k : Nat) (v : Nat)
  | power (v : Power)
  | suspects (k : Nat) (v : List Nat)
  | disagreed (k : Nat) (v : Bool)
  | soundings (k : Nat) (v : List (Nat × Int))
  | residuals (k : Nat) (v : List Int)
  | foretold (k : Nat) (v : Bool)
  | rotAt (k : Nat) (v : Nat)
  | ceCount (k : Nat) (v : CeRec)
  | testFrom (v : Nat)
  | gov (v : Governor)
  | eid (v : Nat)
  | regsDrop (p : Nat → Bool)
  | shadowsDrop (p : Nat → Bool)
  | memDrop (p : Nat → Bool)
  | checkDrop (p : Nat → Bool)
  | marksDrop (p : Nat → Bool)
  | hostMemDrop (p : Nat → Bool)
  | msixDrop (p : Nat → Bool)
  | monDrop (p : Nat → Bool)
  | cacheDrop (p : Nat → Bool)
  | tagLostDrop (p : Nat → Bool)
  | trackerDrop (p : Nat → Bool)
  | sparesDrop (p : Nat → Bool)
  | heldDrop (p : Nat → Bool)
  | grantedDrop (p : Nat → Bool)
  | heldPartsDrop (p : Nat → Bool)
  | rxWaitDrop (p : Nat → Bool)
  | hopBufDrop (p : Nat → Bool)
  | parityCountDrop (p : Nat → Bool)
  | gwSeqDrop (p : Nat → Bool)
  | gwSprayDrop (p : Nat → Bool)
  | waitersDrop (p : Nat → Bool)
  | waitSinceDrop (p : Nat → Bool)
  | buRoundDrop (p : Nat → Bool)
  | relSeenDrop (p : Nat → Bool)
  | loadsDrop (p : Nat → Bool)
  | icacheDrop (p : Nat → Bool)
  | rrLastDrop (p : Nat → Bool)
  | thrStepDrop (p : Nat → Bool)
  | vecQDrop (p : Nat → Bool)
  | qeQDrop (p : Nat → Bool)
  | qeSubsDrop (p : Nat → Bool)
  | qeFlushDrop (p : Nat → Bool)
  | routeSlotDrop (p : Nat → Bool)
  | stallSinceDrop (p : Nat → Bool)
  | passQDrop (p : Nat → Bool)
  | feedAtDrop (p : Nat → Bool)
  | refRowDrop (p : Nat → Bool)
  | scrubRunDrop (p : Nat → Bool)
  | buQDrop (p : Nat → Bool)
  | buBufDrop (p : Nat → Bool)
  | buBookDrop (p : Nat → Bool)
  | buSlotDrop (p : Nat → Bool)
  | yieldAtDrop (p : Nat → Bool)
  | kvtQDrop (p : Nat → Bool)
  | kvtEndDrop (p : Nat → Bool)
  | kvtMigQDrop (p : Nat → Bool)
  | kvtMovesDrop (p : Nat → Bool)
  | kvtFreesDrop (p : Nat → Bool)
  | kvtStagedDrop (p : Nat → Bool)
  | gdRetrainDrop (p : Nat → Bool)
  | fetchAtDrop (p : Nat → Bool)
  | cqAggDrop (p : Nat → Bool)
  | linkDownDrop (p : Nat → Bool)
  | pmKeyDrop (p : Nat → Bool)
  | pmFlashDrop (p : Nat → Bool)
  | pmMarkDrop (p : Nat → Bool)
  | seqsDrop (p : Nat → Bool)
  | dispatchLogDrop (p : Nat → Bool)
  | franksDrop (p : Nat → Bool)
  | agreedDrop (p : Nat → Bool)
  | perstDrop (p : Nat → Bool)
  | dlEndDrop (p : Nat → Bool)
  | dlFailDrop (p : Nat → Bool)
  | dlOldDrop (p : Nat → Bool)
  | overAtDrop (p : Nat → Bool)
  | stepEndDrop (p : Nat → Bool)
  | stepAtDrop (p : Nat → Bool)
  | gwNextDrop (p : Nat → Bool)
  | gwHoldDrop (p : Nat → Bool)
  | gwRefusedDrop (p : Nat → Bool)
  | xqDescDrop (p : Nat → Bool)
  | bar2Drop (p : Nat → Bool)
  | suspectsDrop (p : Nat → Bool)
  | disagreedDrop (p : Nat → Bool)
  | soundingsDrop (p : Nat → Bool)
  | residualsDrop (p : Nat → Bool)
  | foretoldDrop (p : Nat → Bool)
  | rotAtDrop (p : Nat → Bool)
  | ceCountDrop (p : Nat → Bool)

/-- The state after a primitive update. -/
def Upd.run (u : Upd) (s : State) : State :=
  match u with
  | .now v => { s with now := v }
  | .tideOff v => { s with tideOff := v }
  | .freeCtr v => { s with freeCtr := v }
  | .out v => { s with out := v }
  | .regs k v => { s with regs := Map.set dfltRegs k v s.regs }
  | .shadows k v => { s with shadows := Map.set dfltShadows k v s.shadows }
  | .mem k v => { s with mem := Map.set dfltMem k v s.mem }
  | .check k v => { s with check := Map.set dfltCheck k v s.check }
  | .marks k v => { s with marks := Map.set dfltMarks k v s.marks }
  | .hostMem k v => { s with hostMem := Map.set dfltHostMem k v s.hostMem }
  | .msix k v => { s with msix := Map.set dfltMsix k v s.msix }
  | .mgmtQ v => { s with mgmtQ := v }
  | .mgmtDropped v => { s with mgmtDropped := v }
  | .mon k v => { s with mon := Map.set dfltMon k v s.mon }
  | .cache k v => { s with cache := Map.set dfltCache k v s.cache }
  | .tagLost k v => { s with tagLost := Map.set dfltTagLost k v s.tagLost }
  | .tracker k v => { s with tracker := Map.set dfltTracker k v s.tracker }
  | .spares k v => { s with spares := Map.set dfltSpares k v s.spares }
  | .remapNew v => { s with remapNew := v }
  | .remapFlash v => { s with remapFlash := v }
  | .held k v => { s with held := Map.set dfltHeld k v s.held }
  | .granted k v => { s with granted := Map.set dfltGranted k v s.granted }
  | .heldParts k v => { s with heldParts := Map.set dfltHeldParts k v s.heldParts }
  | .rxWait k v => { s with rxWait := Map.set dfltRxWait k v s.rxWait }
  | .boot v => { s with boot := v }
  | .replaceFlash v => { s with replaceFlash := v }
  | .gwOut v => { s with gwOut := v }
  | .hopBuf k v => { s with hopBuf := Map.set dfltHopBuf k v s.hopBuf }
  | .parityCount k v => { s with parityCount := Map.set dfltParityCount k v s.parityCount }
  | .gwSeq k v => { s with gwSeq := Map.set dfltGwSeq k v s.gwSeq }
  | .gwSpray k v => { s with gwSpray := Map.set dfltGwSpray k v s.gwSpray }
  | .sigQ v => { s with sigQ := v }
  | .landQ v => { s with landQ := v }
  | .arrQ v => { s with arrQ := v }
  | .relQ v => { s with relQ := v }
  | .waiters k v => { s with waiters := Map.set dfltWaiters k v s.waiters }
  | .waitSince k v => { s with waitSince := Map.set dfltWaitSince k v s.waitSince }
  | .buRound k v => { s with buRound := Map.set dfltBuRound k v s.buRound }
  | .relSeen k v => { s with relSeen := Map.set dfltRelSeen k v s.relSeen }
  | .tagNext v => { s with tagNext := v }
  | .loads k v => { s with loads := Map.set dfltLoads k v s.loads }
  | .icache k v => { s with icache := Map.set dfltIcache k v s.icache }
  | .rrLast k v => { s with rrLast := Map.set dfltRrLast k v s.rrLast }
  | .thrStep k v => { s with thrStep := Map.set dfltThrStep k v s.thrStep }
  | .vecQ k v => { s with vecQ := Map.set dfltVecQ k v s.vecQ }
  | .qeQ k v => { s with qeQ := Map.set dfltQeQ k v s.qeQ }
  | .qeSubs k v => { s with qeSubs := Map.set dfltQeSubs k v s.qeSubs }
  | .qeFlush k v => { s with qeFlush := Map.set dfltQeFlush k v s.qeFlush }
  | .segQ v => { s with segQ := v }
  | .creditQ v => { s with creditQ := v }
  | .routeSlot k v => { s with routeSlot := Map.set dfltRouteSlot k v s.routeSlot }
  | .stallSince k v => { s with stallSince := Map.set dfltStallSince k v s.stallSince }
  | .passQ k v => { s with passQ := Map.set dfltPassQ k v s.passQ }
  | .feedAt k v => { s with feedAt := Map.set dfltFeedAt k v s.feedAt }
  | .refRow k v => { s with refRow := Map.set dfltRefRow k v s.refRow }
  | .scrubRun k v => { s with scrubRun := Map.set dfltScrubRun k v s.scrubRun }
  | .buQ k v => { s with buQ := Map.set dfltBuQ k v s.buQ }
  | .buBuf k v => { s with buBuf := Map.set dfltBuBuf k v s.buBuf }
  | .buBook k v => { s with buBook := Map.set dfltBuBook k v s.buBook }
  | .buSlot k v => { s with buSlot := Map.set dfltBuSlot k v s.buSlot }
  | .yieldAt k v => { s with yieldAt := Map.set dfltYieldAt k v s.yieldAt }
  | .kvtQ k v => { s with kvtQ := Map.set dfltKvtQ k v s.kvtQ }
  | .kvtEnd k v => { s with kvtEnd := Map.set dfltKvtEnd k v s.kvtEnd }
  | .kvtMigQ k v => { s with kvtMigQ := Map.set dfltKvtMigQ k v s.kvtMigQ }
  | .kvtMoves k v => { s with kvtMoves := Map.set dfltKvtMoves k v s.kvtMoves }
  | .kvtFrees k v => { s with kvtFrees := Map.set dfltKvtFrees k v s.kvtFrees }
  | .kvtStaged k v => { s with kvtStaged := Map.set dfltKvtStaged k v s.kvtStaged }
  | .gdRetrain k v => { s with gdRetrain := Map.set dfltGdRetrain k v s.gdRetrain }
  | .cmds v => { s with cmds := v }
  | .fetchAt k v => { s with fetchAt := Map.set dfltFetchAt k v s.fetchAt }
  | .cqAgg k v => { s with cqAgg := Map.set dfltCqAgg k v s.cqAgg }
  | .linkDown k v => { s with linkDown := Map.set dfltLinkDown k v s.linkDown }
  | .pmKey k v => { s with pmKey := Map.set dfltPmKey k v s.pmKey }
  | .pmFlash k v => { s with pmFlash := Map.set dfltPmFlash k v s.pmFlash }
  | .pmMark k v => { s with pmMark := Map.set dfltPmMark k v s.pmMark }
  | .tampered v => { s with tampered := v }
  | .offer v => { s with offer := v }
  | .seqs k v => { s with seqs := Map.set dfltSeqs k v s.seqs }
  | .dispatchLog k v => { s with dispatchLog := Map.set dfltDispatchLog k v s.dispatchLog }
  | .dispatchFlash v => { s with dispatchFlash := v }
  | .franks k v => { s with franks := Map.set dfltFranks k v s.franks }
  | .fuseLcy v => { s with fuseLcy := v }
  | .ready v => { s with ready := v }
  | .stageAt v => { s with stageAt := v }
  | .agreed k v => { s with agreed := Map.set dfltAgreed k v s.agreed }
  | .perst k v => { s with perst := Map.set dfltPerst k v s.perst }
  | .chart v => { s with chart := v }
  | .chartLive v => { s with chartLive := v }
  | .chartLoad v => { s with chartLoad := v }
  | .applyNow v => { s with applyNow := v }
  | .flashAt v => { s with flashAt := v }
  | .fwAt v => { s with fwAt := v }
  | .hello v => { s with hello := v }
  | .enrolled v => { s with enrolled := v }
  | .resetAt v => { s with resetAt := v }
  | .dlEnd k v => { s with dlEnd := Map.set dfltDlEnd k v s.dlEnd }
  | .dlFail k v => { s with dlFail := Map.set dfltDlFail k v s.dlFail }
  | .dlOld k v => { s with dlOld := Map.set dfltDlOld k v s.dlOld }
  | .dlMoves v => { s with dlMoves := v }
  | .tideFirst v => { s with tide := { s.tide with tideFirst := v } }
  | .tideNext v => { s with tide := { s.tide with tideNext := v } }
  | .tidePer v => { s with tide := { s.tide with tidePer := v } }
  | .slackAt v => { s with tide := { s.tide with slackAt := v } }
  | .edgeCut v => { s with tide := { s.tide with edgeCut := v } }
  | .slackFor v => { s with tide := { s.tide with slackFor := v } }
  | .holdSince v => { s with tide := { s.tide with holdSince := v } }
  | .overAt k v => { s with overAt := Map.set dfltOverAt k v s.overAt }
  | .stepEnd k v => { s with stepEnd := Map.set dfltStepEnd k v s.stepEnd }
  | .stepAt k v => { s with stepAt := Map.set dfltStepAt k v s.stepAt }
  | .stepTime v => { s with tide := { s.tide with stepTime := v } }
  | .edgeNom v => { s with tide := { s.tide with edgeNom := v } }
  | .stretchFor v => { s with tide := { s.tide with stretchFor := v } }
  | .announced v => { s with tide := { s.tide with announced := v } }
  | .reports v => { s with tide := { s.tide with reports := v } }
  | .reported v => { s with tide := { s.tide with reported := v } }
  | .synced v => { s with tide := { s.tide with synced := v } }
  | .syncAt v => { s with tide := { s.tide with syncAt := v } }
  | .retirePend v => { s with retirePend := v }
  | .restage v => { s with restage := v }
  | .cutNew v => { s with tide := { s.tide with cutNew := v } }
  | .gwNext k v => { s with gwNext := Map.set dfltGwNext k v s.gwNext }
  | .gwHold k v => { s with gwHold := Map.set dfltGwHold k v s.gwHold }
  | .gwRefused k v => { s with gwRefused := Map.set dfltGwRefused k v s.gwRefused }
  | .xqDesc k v => { s with xqDesc := Map.set dfltXqDesc k v s.xqDesc }
  | .bar2 k v => { s with bar2 := Map.set dfltBar2 k v s.bar2 }
  | .power v => { s with power := v }
  | .suspects k v => { s with suspects := Map.set dfltSuspects k v s.suspects }
  | .disagreed k v => { s with disagreed := Map.set dfltDisagreed k v s.disagreed }
  | .soundings k v => { s with soundings := Map.set dfltSoundings k v s.soundings }
  | .residuals k v => { s with residuals := Map.set dfltResiduals k v s.residuals }
  | .foretold k v => { s with foretold := Map.set dfltForetold k v s.foretold }
  | .rotAt k v => { s with rotAt := Map.set dfltRotAt k v s.rotAt }
  | .ceCount k v => { s with ceCount := Map.set dfltCeCount k v s.ceCount }
  | .testFrom v => { s with testFrom := v }
  | .gov v => { s with gov := v }
  | .eid v => { s with eid := v }
  | .regsDrop p => { s with regs := Map.drop p s.regs }
  | .shadowsDrop p => { s with shadows := Map.drop p s.shadows }
  | .memDrop p => { s with mem := Map.drop p s.mem }
  | .checkDrop p => { s with check := Map.drop p s.check }
  | .marksDrop p => { s with marks := Map.drop p s.marks }
  | .hostMemDrop p => { s with hostMem := Map.drop p s.hostMem }
  | .msixDrop p => { s with msix := Map.drop p s.msix }
  | .monDrop p => { s with mon := Map.drop p s.mon }
  | .cacheDrop p => { s with cache := Map.drop p s.cache }
  | .tagLostDrop p => { s with tagLost := Map.drop p s.tagLost }
  | .trackerDrop p => { s with tracker := Map.drop p s.tracker }
  | .sparesDrop p => { s with spares := Map.drop p s.spares }
  | .heldDrop p => { s with held := Map.drop p s.held }
  | .grantedDrop p => { s with granted := Map.drop p s.granted }
  | .heldPartsDrop p => { s with heldParts := Map.drop p s.heldParts }
  | .rxWaitDrop p => { s with rxWait := Map.drop p s.rxWait }
  | .hopBufDrop p => { s with hopBuf := Map.drop p s.hopBuf }
  | .parityCountDrop p => { s with parityCount := Map.drop p s.parityCount }
  | .gwSeqDrop p => { s with gwSeq := Map.drop p s.gwSeq }
  | .gwSprayDrop p => { s with gwSpray := Map.drop p s.gwSpray }
  | .waitersDrop p => { s with waiters := Map.drop p s.waiters }
  | .waitSinceDrop p => { s with waitSince := Map.drop p s.waitSince }
  | .buRoundDrop p => { s with buRound := Map.drop p s.buRound }
  | .relSeenDrop p => { s with relSeen := Map.drop p s.relSeen }
  | .loadsDrop p => { s with loads := Map.drop p s.loads }
  | .icacheDrop p => { s with icache := Map.drop p s.icache }
  | .rrLastDrop p => { s with rrLast := Map.drop p s.rrLast }
  | .thrStepDrop p => { s with thrStep := Map.drop p s.thrStep }
  | .vecQDrop p => { s with vecQ := Map.drop p s.vecQ }
  | .qeQDrop p => { s with qeQ := Map.drop p s.qeQ }
  | .qeSubsDrop p => { s with qeSubs := Map.drop p s.qeSubs }
  | .qeFlushDrop p => { s with qeFlush := Map.drop p s.qeFlush }
  | .routeSlotDrop p => { s with routeSlot := Map.drop p s.routeSlot }
  | .stallSinceDrop p => { s with stallSince := Map.drop p s.stallSince }
  | .passQDrop p => { s with passQ := Map.drop p s.passQ }
  | .feedAtDrop p => { s with feedAt := Map.drop p s.feedAt }
  | .refRowDrop p => { s with refRow := Map.drop p s.refRow }
  | .scrubRunDrop p => { s with scrubRun := Map.drop p s.scrubRun }
  | .buQDrop p => { s with buQ := Map.drop p s.buQ }
  | .buBufDrop p => { s with buBuf := Map.drop p s.buBuf }
  | .buBookDrop p => { s with buBook := Map.drop p s.buBook }
  | .buSlotDrop p => { s with buSlot := Map.drop p s.buSlot }
  | .yieldAtDrop p => { s with yieldAt := Map.drop p s.yieldAt }
  | .kvtQDrop p => { s with kvtQ := Map.drop p s.kvtQ }
  | .kvtEndDrop p => { s with kvtEnd := Map.drop p s.kvtEnd }
  | .kvtMigQDrop p => { s with kvtMigQ := Map.drop p s.kvtMigQ }
  | .kvtMovesDrop p => { s with kvtMoves := Map.drop p s.kvtMoves }
  | .kvtFreesDrop p => { s with kvtFrees := Map.drop p s.kvtFrees }
  | .kvtStagedDrop p => { s with kvtStaged := Map.drop p s.kvtStaged }
  | .gdRetrainDrop p => { s with gdRetrain := Map.drop p s.gdRetrain }
  | .fetchAtDrop p => { s with fetchAt := Map.drop p s.fetchAt }
  | .cqAggDrop p => { s with cqAgg := Map.drop p s.cqAgg }
  | .linkDownDrop p => { s with linkDown := Map.drop p s.linkDown }
  | .pmKeyDrop p => { s with pmKey := Map.drop p s.pmKey }
  | .pmFlashDrop p => { s with pmFlash := Map.drop p s.pmFlash }
  | .pmMarkDrop p => { s with pmMark := Map.drop p s.pmMark }
  | .seqsDrop p => { s with seqs := Map.drop p s.seqs }
  | .dispatchLogDrop p => { s with dispatchLog := Map.drop p s.dispatchLog }
  | .franksDrop p => { s with franks := Map.drop p s.franks }
  | .agreedDrop p => { s with agreed := Map.drop p s.agreed }
  | .perstDrop p => { s with perst := Map.drop p s.perst }
  | .dlEndDrop p => { s with dlEnd := Map.drop p s.dlEnd }
  | .dlFailDrop p => { s with dlFail := Map.drop p s.dlFail }
  | .dlOldDrop p => { s with dlOld := Map.drop p s.dlOld }
  | .overAtDrop p => { s with overAt := Map.drop p s.overAt }
  | .stepEndDrop p => { s with stepEnd := Map.drop p s.stepEnd }
  | .stepAtDrop p => { s with stepAt := Map.drop p s.stepAt }
  | .gwNextDrop p => { s with gwNext := Map.drop p s.gwNext }
  | .gwHoldDrop p => { s with gwHold := Map.drop p s.gwHold }
  | .gwRefusedDrop p => { s with gwRefused := Map.drop p s.gwRefused }
  | .xqDescDrop p => { s with xqDesc := Map.drop p s.xqDesc }
  | .bar2Drop p => { s with bar2 := Map.drop p s.bar2 }
  | .suspectsDrop p => { s with suspects := Map.drop p s.suspects }
  | .disagreedDrop p => { s with disagreed := Map.drop p s.disagreed }
  | .soundingsDrop p => { s with soundings := Map.drop p s.soundings }
  | .residualsDrop p => { s with residuals := Map.drop p s.residuals }
  | .foretoldDrop p => { s with foretold := Map.drop p s.foretold }
  | .rotAtDrop p => { s with rotAt := Map.drop p s.rotAt }
  | .ceCountDrop p => { s with ceCount := Map.drop p s.ceCount }

/-- An effect on the state. -/
inductive Eff where
  | skip
  | upd (u : Upd)
  | seq (p q : Eff)
  | look (k : State → Eff)

/-- The state after an effect. -/
def Eff.run : Eff → State → State
  | .skip, s => s
  | .upd u, s => u.run s
  | .seq p q, s => q.run (p.run s)
  | .look k, s => (k s).run s

/-- Effects one after the other. -/
def Eff.all : List Eff → Eff
  | [] => .skip
  | [p] => p
  | p :: rest => .seq p (Eff.all rest)

/-- The effect, if the condition holds. -/
def Eff.when (b : Bool) (p : Eff) : Eff := if b then p else .skip

/-- An effect for each element, in order. -/
def Eff.each {α : Type} (xs : List α) (f : α → Eff) : Eff :=
  match xs with
  | [] => .skip
  | x :: rest => .seq (f x) (Eff.each rest f)

/-- The outcome of a command whose meaning is an effect, with or without power. -/
def Eff.always (p : Eff) (s : State) : Host.Outcome State Fault Refusal := .next (p.run s)

/-- The outcome of a command whose meaning is an effect: a module that is OFF does nothing (R475). -/
def Eff.done (p : Eff) (s : State) : Host.Outcome State Fault Refusal := .next (if s.power = .off then s else p.run s)

/-- Entry `k` of `State.regs`. -/
def State.regsAt (s : State) (k : Nat) : Word := Map.get dfltRegs s.regs k

/-- Entry `k` of `State.shadows`. -/
def State.shadowsAt (s : State) (k : Nat) : Option Word := Map.get dfltShadows s.shadows k

/-- Entry `k` of `State.mem`. -/
def State.memAt (s : State) (k : Nat) : Byte := Map.get dfltMem s.mem k

/-- Entry `k` of `State.check`. -/
def State.checkAt (s : State) (k : Nat) : BitVec 16 := Map.get dfltCheck s.check k

/-- Entry `k` of `State.marks`. -/
def State.marksAt (s : State) (k : Nat) : SramMark := Map.get dfltMarks s.marks k

/-- Entry `k` of `State.hostMem`. -/
def State.hostMemAt (s : State) (k : Nat) : Byte := Map.get dfltHostMem s.hostMem k

/-- Entry `k` of `State.msix`. -/
def State.msixAt (s : State) (k : Nat) : MsixEntry := Map.get dfltMsix s.msix k

/-- Entry `k` of `State.mon`. -/
def State.monAt (s : State) (k : Nat) : MonCap := Map.get dfltMon s.mon k

/-- Entry `k` of `State.cache`. -/
def State.cacheAt (s : State) (k : Nat) : List ScLine := Map.get dfltCache s.cache k

/-- Entry `k` of `State.tagLost`. -/
def State.tagLostAt (s : State) (k : Nat) : Bool := Map.get dfltTagLost s.tagLost k

/-- Entry `k` of `State.tracker`. -/
def State.trackerAt (s : State) (k : Nat) : List TrackRow := Map.get dfltTracker s.tracker k

/-- Entry `k` of `State.spares`. -/
def State.sparesAt (s : State) (k : Nat) : List Nat := Map.get dfltSpares s.spares k

/-- Entry `k` of `State.held`. -/
def State.heldAt (s : State) (k : Nat) : List HeldReq := Map.get dfltHeld s.held k

/-- Entry `k` of `State.granted`. -/
def State.grantedAt (s : State) (k : Nat) : List Agent := Map.get dfltGranted s.granted k

/-- Entry `k` of `State.heldParts`. -/
def State.heldPartsAt (s : State) (k : Nat) : List (Nat × Resp) := Map.get dfltHeldParts s.heldParts k

/-- Entry `k` of `State.rxWait`. -/
def State.rxWaitAt (s : State) (k : Nat) : Option (Nat × RxPkt) := Map.get dfltRxWait s.rxWait k

/-- Entry `k` of `State.hopBuf`. -/
def State.hopBufAt (s : State) (k : Nat) : List (Nat × List Byte) := Map.get dfltHopBuf s.hopBuf k

/-- Entry `k` of `State.parityCount`. -/
def State.parityCountAt (s : State) (k : Nat) : Nat := Map.get dfltParityCount s.parityCount k

/-- Entry `k` of `State.gwSeq`. -/
def State.gwSeqAt (s : State) (k : Nat) : Nat := Map.get dfltGwSeq s.gwSeq k

/-- Entry `k` of `State.gwSpray`. -/
def State.gwSprayAt (s : State) (k : Nat) : Int := Map.get dfltGwSpray s.gwSpray k

/-- Entry `k` of `State.waiters`. -/
def State.waitersAt (s : State) (k : Nat) : List Nat := Map.get dfltWaiters s.waiters k

/-- Entry `k` of `State.waitSince`. -/
def State.waitSinceAt (s : State) (k : Nat) : Nat := Map.get dfltWaitSince s.waitSince k

/-- Entry `k` of `State.buRound`. -/
def State.buRoundAt (s : State) (k : Nat) : Nat := Map.get dfltBuRound s.buRound k

/-- Entry `k` of `State.relSeen`. -/
def State.relSeenAt (s : State) (k : Nat) : Nat := Map.get dfltRelSeen s.relSeen k

/-- Entry `k` of `State.loads`. -/
def State.loadsAt (s : State) (k : Nat) : List Access := Map.get dfltLoads s.loads k

/-- Entry `k` of `State.icache`. -/
def State.icacheAt (s : State) (k : Nat) : List IcLine := Map.get dfltIcache s.icache k

/-- Entry `k` of `State.rrLast`. -/
def State.rrLastAt (s : State) (k : Nat) : Nat := Map.get dfltRrLast s.rrLast k

/-- Entry `k` of `State.thrStep`. -/
def State.thrStepAt (s : State) (k : Nat) : Nat := Map.get dfltThrStep s.thrStep k

/-- Entry `k` of `State.vecQ`. -/
def State.vecQAt (s : State) (k : Nat) : List VecOp := Map.get dfltVecQ s.vecQ k

/-- Entry `k` of `State.qeQ`. -/
def State.qeQAt (s : State) (k : Nat) : List QeDesc := Map.get dfltQeQ s.qeQ k

/-- Entry `k` of `State.qeSubs`. -/
def State.qeSubsAt (s : State) (k : Nat) : List QeSub := Map.get dfltQeSubs s.qeSubs k

/-- Entry `k` of `State.qeFlush`. -/
def State.qeFlushAt (s : State) (k : Nat) : List Nat := Map.get dfltQeFlush s.qeFlush k

/-- Entry `k` of `State.routeSlot`. -/
def State.routeSlotAt (s : State) (k : Nat) : Nat := Map.get dfltRouteSlot s.routeSlot k

/-- Entry `k` of `State.stallSince`. -/
def State.stallSinceAt (s : State) (k : Nat) : Nat := Map.get dfltStallSince s.stallSince k

/-- Entry `k` of `State.passQ`. -/
def State.passQAt (s : State) (k : Nat) : List Pass := Map.get dfltPassQ s.passQ k

/-- Entry `k` of `State.feedAt`. -/
def State.feedAtAt (s : State) (k : Nat) : Nat := Map.get dfltFeedAt s.feedAt k

/-- Entry `k` of `State.refRow`. -/
def State.refRowAt (s : State) (k : Nat) : Nat := Map.get dfltRefRow s.refRow k

/-- Entry `k` of `State.scrubRun`. -/
def State.scrubRunAt (s : State) (k : Nat) : Option (Nat × Nat × Nat) := Map.get dfltScrubRun s.scrubRun k

/-- Entry `k` of `State.buQ`. -/
def State.buQAt (s : State) (k : Nat) : List BuCmd := Map.get dfltBuQ s.buQ k

/-- Entry `k` of `State.buBuf`. -/
def State.buBufAt (s : State) (k : Nat) : BufWord := Map.get dfltBuBuf s.buBuf k

/-- Entry `k` of `State.buBook`. -/
def State.buBookAt (s : State) (k : Nat) : List (Byte × Bool) := Map.get dfltBuBook s.buBook k

/-- Entry `k` of `State.buSlot`. -/
def State.buSlotAt (s : State) (k : Nat) : Nat := Map.get dfltBuSlot s.buSlot k

/-- Entry `k` of `State.yieldAt`. -/
def State.yieldAtAt (s : State) (k : Nat) : Nat := Map.get dfltYieldAt s.yieldAt k

/-- Entry `k` of `State.kvtQ`. -/
def State.kvtQAt (s : State) (k : Nat) : List KvOp := Map.get dfltKvtQ s.kvtQ k

/-- Entry `k` of `State.kvtEnd`. -/
def State.kvtEndAt (s : State) (k : Nat) : Option (Nat × Nat × Nat) := Map.get dfltKvtEnd s.kvtEnd k

/-- Entry `k` of `State.kvtMigQ`. -/
def State.kvtMigQAt (s : State) (k : Nat) : List KvMove := Map.get dfltKvtMigQ s.kvtMigQ k

/-- Entry `k` of `State.kvtMoves`. -/
def State.kvtMovesAt (s : State) (k : Nat) : List KvMove := Map.get dfltKvtMoves s.kvtMoves k

/-- Entry `k` of `State.kvtFrees`. -/
def State.kvtFreesAt (s : State) (k : Nat) : List Nat := Map.get dfltKvtFrees s.kvtFrees k

/-- Entry `k` of `State.kvtStaged`. -/
def State.kvtStagedAt (s : State) (k : Nat) : List KvStaged := Map.get dfltKvtStaged s.kvtStaged k

/-- Entry `k` of `State.gdRetrain`. -/
def State.gdRetrainAt (s : State) (k : Nat) : Nat := Map.get dfltGdRetrain s.gdRetrain k

/-- Entry `k` of `State.fetchAt`. -/
def State.fetchAtAt (s : State) (k : Nat) : Nat := Map.get dfltFetchAt s.fetchAt k

/-- Entry `k` of `State.cqAgg`. -/
def State.cqAggAt (s : State) (k : Nat) : Nat × Nat := Map.get dfltCqAgg s.cqAgg k

/-- Entry `k` of `State.linkDown`. -/
def State.linkDownAt (s : State) (k : Nat) : Nat := Map.get dfltLinkDown s.linkDown k

/-- Entry `k` of `State.pmKey`. -/
def State.pmKeyAt (s : State) (k : Nat) : List Byte := Map.get dfltPmKey s.pmKey k

/-- Entry `k` of `State.pmFlash`. -/
def State.pmFlashAt (s : State) (k : Nat) : List Byte := Map.get dfltPmFlash s.pmFlash k

/-- Entry `k` of `State.pmMark`. -/
def State.pmMarkAt (s : State) (k : Nat) : Nat := Map.get dfltPmMark s.pmMark k

/-- Entry `k` of `State.seqs`. -/
def State.seqsAt (s : State) (k : Nat) : Option SeqRec := Map.get dfltSeqs s.seqs k

/-- Entry `k` of `State.dispatchLog`. -/
def State.dispatchLogAt (s : State) (k : Nat) : List Byte := Map.get dfltDispatchLog s.dispatchLog k

/-- Entry `k` of `State.franks`. -/
def State.franksAt (s : State) (k : Nat) : List Byte := Map.get dfltFranks s.franks k

/-- Entry `k` of `State.agreed`. -/
def State.agreedAt (s : State) (k : Nat) : Nat := Map.get dfltAgreed s.agreed k

/-- Entry `k` of `State.perst`. -/
def State.perstAt (s : State) (k : Nat) : Bool := Map.get dfltPerst s.perst k

/-- Entry `k` of `State.dlEnd`. -/
def State.dlEndAt (s : State) (k : Nat) : DlEnd := Map.get dfltDlEnd s.dlEnd k

/-- Entry `k` of `State.dlFail`. -/
def State.dlFailAt (s : State) (k : Nat) : Nat × Nat := Map.get dfltDlFail s.dlFail k

/-- Entry `k` of `State.dlOld`. -/
def State.dlOldAt (s : State) (k : Nat) : Nat := Map.get dfltDlOld s.dlOld k

/-- Entry `k` of `State.overAt`. -/
def State.overAtAt (s : State) (k : Nat) : Nat := Map.get dfltOverAt s.overAt k

/-- Entry `k` of `State.stepEnd`. -/
def State.stepEndAt (s : State) (k : Nat) : Nat := Map.get dfltStepEnd s.stepEnd k

/-- Entry `k` of `State.stepAt`. -/
def State.stepAtAt (s : State) (k : Nat) : Nat := Map.get dfltStepAt s.stepAt k

/-- Entry `k` of `State.gwNext`. -/
def State.gwNextAt (s : State) (k : Nat) : Nat := Map.get dfltGwNext s.gwNext k

/-- Entry `k` of `State.gwHold`. -/
def State.gwHoldAt (s : State) (k : Nat) : List RxPkt := Map.get dfltGwHold s.gwHold k

/-- Entry `k` of `State.gwRefused`. -/
def State.gwRefusedAt (s : State) (k : Nat) : Nat := Map.get dfltGwRefused s.gwRefused k

/-- Entry `k` of `State.xqDesc`. -/
def State.xqDescAt (s : State) (k : Nat) : List Byte := Map.get dfltXqDesc s.xqDesc k

/-- Entry `k` of `State.bar2`. -/
def State.bar2At (s : State) (k : Nat) : Nat := Map.get dfltBar2 s.bar2 k

/-- Entry `k` of `State.suspects`. -/
def State.suspectsAt (s : State) (k : Nat) : List Nat := Map.get dfltSuspects s.suspects k

/-- Entry `k` of `State.disagreed`. -/
def State.disagreedAt (s : State) (k : Nat) : Bool := Map.get dfltDisagreed s.disagreed k

/-- Entry `k` of `State.soundings`. -/
def State.soundingsAt (s : State) (k : Nat) : List (Nat × Int) := Map.get dfltSoundings s.soundings k

/-- Entry `k` of `State.residuals`. -/
def State.residualsAt (s : State) (k : Nat) : List Int := Map.get dfltResiduals s.residuals k

/-- Entry `k` of `State.foretold`. -/
def State.foretoldAt (s : State) (k : Nat) : Bool := Map.get dfltForetold s.foretold k

/-- Entry `k` of `State.rotAt`. -/
def State.rotAtAt (s : State) (k : Nat) : Nat := Map.get dfltRotAt s.rotAt k

/-- Entry `k` of `State.ceCount`. -/
def State.ceCountAt (s : State) (k : Nat) : CeRec := Map.get dfltCeCount s.ceCount k

end Sys2Proof.Machine
end

