-- ==== Sys2Proof/Machine/Ops.lean ====
section
/-! DEFINITION. The named operations on registers and on memories as bytes. -/

namespace Sys2Proof.Machine

/-! Registers -/

/-- The value of a register. -/
def State.reg (s : State) (key : Nat) : Word := s.regsAt key

/-- The value of a register's field. -/
def State.get (s : State) (f : Fld) : Nat := f.read (s.regsAt f.key)

/-- Whether a one-bit field is set. -/
def State.bit (s : State) (f : Fld) : Bool := s.get f == 1

/-- Set a register. -/
def putReg (key : Nat) (v : Word) : Eff := .upd (.regs key v)

/-- Set a field of a register. -/
def put (f : Fld) (x : Nat) : Eff := .look fun s => putReg f.key (f.write (s.regsAt f.key) x)

/-- Set a one-bit field. -/
def putBit (f : Fld) (b : Bool) : Eff := put f (if b then 1 else 0)

/-- Add to a counter that saturates at all ones. -/
def addSat (f : Fld) (n : Nat) : Eff := .look fun s => put f (min (s.get f + n) (2 ^ f.w - 1))

/-- Add to a counter that wraps. -/
def addWrap (f : Fld) (n : Nat) : Eff := .look fun s => put f (s.get f + n)

/-- Bit `i` of a register. -/
def State.regBit (s : State) (key i : Nat) : Bool := (s.regsAt key).toNat / 2 ^ i % 2 == 1

/-- Set bit `i` of a register. -/
def putRegBit (key i : Nat) (b : Bool) : Eff := put ⟨key, i, 1⟩ (if b then 1 else 0)

/-! Free values -/

/-- Take the next value that the spec leaves undefined. -/
def withFree (k : Word → Eff) : Eff :=
  .look fun s => .seq (.upd (.freeCtr (s.freeCtr + 1))) (k (Config.freeWord s.freeCtr))

/-- Take `n` undefined bytes. -/
def freeBytes (ctr : Nat) : Nat → List Byte
  | 0 => []
  | n + 1 => (Config.freeWord ctr).setWidth 8 :: freeBytes (ctr + 1) n

/-- Take `n` undefined bytes. -/
def withFreeBytes (n : Nat) (k : List Byte → Eff) : Eff :=
  .look fun s => .seq (.upd (.freeCtr (s.freeCtr + n))) (k (freeBytes s.freeCtr n))

/-! Bytes and little-endian values (R4) -/

/-- The value of bytes, the first the least significant. -/
def leNat : List Byte → Nat
  | [] => 0
  | b :: rest => b.toNat + 256 * leNat rest

/-- The low `n` bytes of a value, the least significant first. -/
def toLE : Nat → Nat → List Byte
  | 0, _ => []
  | n + 1, v => BitVec.ofNat 8 v :: toLE n (v / 256)

/-- The value of bytes, the first the most significant. -/
def beNat (bs : List Byte) : Nat := bs.foldl (fun a b => a * 256 + b.toNat) 0

/-- The low `n` bytes of a value, the most significant first. -/
def toBE (n v : Nat) : List Byte := (toLE n v).reverse

/-- Bytes `i` to `i + n - 1` of a list as a little-endian value; a byte beyond the list reads 0. -/
def leAt (bs : List Byte) (i n : Nat) : Nat := leNat ((bs.drop i).take n)

/-- One byte of a list; beyond the list 0. -/
def byteAt (bs : List Byte) (i : Nat) : Nat := (bs.getD i 0).toNat

/-- `n` bytes of the device memory from `a`. -/
def State.bytes (s : State) (a : Nat) : Nat → List Byte
  | 0 => []
  | n + 1 => s.memAt a :: s.bytes (a + 1) n

/-- `n` bytes of host memory from key `a`. -/
def State.hostBytes (s : State) (a : Nat) : Nat → List Byte
  | 0 => []
  | n + 1 => s.hostMemAt a :: s.hostBytes (a + 1) n

/-- The key of host address `a` of port `p`. -/
def hostKey (p a : Nat) : Nat := 2 ^ 64 * p + a

/-- Store bytes in the device memory, without looking at the checks of the words. -/
def pokeBytes (a : Nat) (bs : List Byte) : Eff :=
  match bs with
  | [] => .skip
  | b :: rest => .seq (.upd (.mem a b)) (pokeBytes (a + 1) rest)

/-- Store bytes in the memory of the host of port `p`. -/
def pokeHost (p a : Nat) (bs : List Byte) : Eff :=
  match bs with
  | [] => .skip
  | b :: rest => .seq (.upd (.hostMem (hostKey p a) b)) (pokeHost p (a + 1) rest)

/-- Something the block sends out. -/
def send (o : Out) : Eff := .look fun s => .upd (.out (o :: s.out))

/-- The tide time in ns (R43): it advances by 10 on each cycle of the 100 MHz reference. -/
def State.tideTime (s : State) : Nat := ((s.now : Int) / 10 * 10 + s.tideOff).toNat

/-- Let the time reach `t` (it never goes back). -/
def reachTime (t : Nat) : Eff := .look fun s => .upd (.now (max s.now t))

end Sys2Proof.Machine
end

