-- ==== Sys2Proof/Machine/Events.lean ====
section
/-! DEFINITION. The event collector, the always-on watcher and the monitor units (17_events_monitors.md), and the
management port's event messages (R510). Commands: EVC_EOS, EVC_SET, MSIX_UNMASK, MON_SNAP, MON_CLEAR. -/

namespace Sys2Proof.Machine

/-! Module conditions that many rules read -/

/-- The module is in STANDBY (R475). -/
def State.standby (s : State) : Bool := s.get R.PWR_STATE_state == 2

/-- The compute dies are power-gated: STANDBY or SHUTDOWN (R475; log entry 160). -/
def State.diesOff (s : State) : Bool := decide (2 ≤ s.get R.PWR_STATE_state)

/-- The link of port `p` is in DL_Active. -/
def State.linkUp (s : State) (p : Nat) : Bool := s.get (R.HIF_LINK_speed p) != 0

/-! MSI-X (R350, R439, R443) -/

/-- R439: send the MSI-X message of a vector, or hold it in the pending-bit array while the vector is masked or the
port's link is down (R443). -/
def msixSend (p v : Nat) : Eff := .look fun s =>
  let e := s.msixAt (p * 128 + v)
  if e.masked || !s.linkUp p then .upd (.msix (p * 128 + v) { e with pending := true })
  else send (.msix p v)

/-- MSI-X messages that were held go out when the vector is unmasked and the link is up. -/
def msixRelease (p v : Nat) : Eff := .look fun s =>
  let e := s.msixAt (p * 128 + v)
  if e.pending && !e.masked && s.linkUp p then
    .seq (.upd (.msix (p * 128 + v) { e with pending := false })) (send (.msix p v))
  else .skip

/-! Management-port event messages (R510) -/

/-- R510: send a PlatformEventMessage of a source with the latest edge number; it is due again after 1 s. -/
def mgmtEvent (src : Nat) : Eff := .look fun s =>
  let edge := s.get R.TIDE_EDGE_NUM_edge
  .all [.upd (.mgmtQ (s.mgmtQ ++ [⟨src, edge, 0, s.now + 1000000000⟩])), send (.mgmtEvent src edge)]

/-- R510: the sources that are sent on the management port whatever their routes. -/
def mgmtAlways (src : Nat) : Bool := src == 0x70B || src == 0x710 || src == 0x713 || src == 0x714

/-! Firing -/

/-- The register of pending bits of a destination (0 = cores, 1 = port 0, 2 = port 1) that holds source `src`. -/
def pendReg (dest src : Nat) : Nat :=
  match dest with
  | 0 => R.EVC_PEND_CORE (src / 64)
  | 1 => R.EVC_PEND_P0 (src / 64)
  | _ => R.EVC_PEND_P1 (src / 64)

/-- Whether source `src` is pending at a destination. -/
def State.evPending (s : State) (dest src : Nat) : Bool := s.regBit (pendReg dest src) (src % 64)

/-- Whether the route of source `src` enables a destination (R438). -/
def State.evRouted (s : State) (dest src : Nat) : Bool :=
  match dest with
  | 0 => s.get (R.EVC_ROUTE_cores src) != 0
  | 1 => s.bit (R.EVC_ROUTE_p0_en src)
  | _ => s.bit (R.EVC_ROUTE_p1_en src)

/-- R439: deliver a newly pending source at a destination. A control core's interrupt line follows the pending bits
(`coreLine`); a port gets the MSI-X message of the named vector. -/
def evDeliver (dest src : Nat) : Eff := .look fun s =>
  match dest with
  | 0 => .skip
  | 1 => msixSend 0 (s.get (R.EVC_ROUTE_p0_vector src))
  | _ => msixSend 1 (s.get (R.EVC_ROUTE_p1_vector src))

/-- R440: the interrupt line of control core `k` stays asserted while a source routed to it is pending at the cores
destination; in STANDBY nothing is delivered to the cores (R444). -/
def State.coreLine (s : State) (k : Nat) : Bool :=
  !s.standby && (List.range 2048).any fun src =>
    s.evPending 0 src && s.get (R.EVC_ROUTE_cores src) / 2 ^ k % 2 == 1

/-- R439: a destination's share of a firing: the pending bit rises and the event is delivered (not in STANDBY, R444). -/
def evFireAt (dest src : Nat) : Eff := .look fun s =>
  if s.evRouted dest src && !s.evPending dest src then
    .seq (putRegBit (pendReg dest src) (src % 64) true)
      (Eff.when (!s.standby) (evDeliver dest src))
  else .skip

/-- R444, R445: what the always-on watcher does with a firing: it records the first slot that names the source; in STANDBY
it counts, may request the wake, and may send a management message. A slot that names a cell source never fires in
STANDBY. -/
def watcherSee (src : Nat) : Eff := .look fun s =>
  match (List.range 32).find? fun i => s.bit (R.AOW_WATCH_valid i) && s.get (R.AOW_WATCH_source i) == src with
  | none => .skip
  | some i =>
    let woke := s.standby && s.bit (R.AOW_WATCH_wake i)
    if s.standby && src < 0x400 then .skip
    else .all [
      put R.AOW_WAKE_slot i,
      putBit R.AOW_WAKE_woke woke,
      Eff.when s.standby (addSat R.AOW_WAKE_firings 1),
      Eff.when (woke && !s.bit R.PWR_STATE_pending) (.all [put R.PWR_STATE_pending 1, put R.PWR_STATE_wake_cause 1]),
      Eff.when (s.standby && s.bit (R.AOW_WATCH_mgmt i)) (mgmtEvent src)]

/-- R439, R442: source `src` fires. A reserved source, or one with no destination enabled, only counts. -/
def evFire (src : Nat) : Eff := .look fun s =>
  let merged := (List.range 3).any fun d => s.evRouted d src && s.evPending d src
  .all [
    addSat R.EVC_COUNTS_fired 1,
    Eff.when (srcListed src) (.all [
      Eff.when merged (addSat R.EVC_COUNTS_merged 1),
      evFireAt 0 src, evFireAt 1 src, evFireAt 2 src,
      Eff.when (s.bit (R.EVC_ROUTE_mgmt src) || mgmtAlways src) (mgmtEvent src),
      watcherSee src])]

/-- R437: the condition of a level source takes the value `b`; when it becomes asserted the source fires. -/
def evLevel (src : Nat) (b : Bool) : Eff := .look fun s =>
  if s.bit (R.EVC_ROUTE_asserted src) == b then .skip
  else .seq (putBit (R.EVC_ROUTE_asserted src) b) (Eff.when b (evFire src))

/-- R440: a destination ends its service of a source: its pending bit clears; a level source that is still asserted
becomes pending again and is delivered. -/
def evcEndService (dest src : Nat) : Eff := .all [
  putRegBit (pendReg dest src) (src % 64) false,
  .look fun s => Eff.when (srcLevel src && s.bit (R.EVC_ROUTE_asserted src)) (evFireAt dest src)]

/-- R444: at the exit from STANDBY the collector samples every level source again and delivers every pending bit. -/
def evcStandbyExit : Eff := .look fun s =>
  Eff.each (List.range 2048) fun src => .all [
    Eff.when (srcLevel src && s.bit (R.EVC_ROUTE_asserted src)) (Eff.each [0, 1, 2] fun d => evFireAt d src),
    Eff.each [0, 1, 2] fun d => Eff.when (s.evPending d src) (evDeliver d src)]

/-! Access faults of a host port (R351) -/

/-- R351: record a refused or colliding host access and fire the port's access-fault source. -/
def hostFault (p addr status : Nat) (write bar2 atomic : Bool) : Eff := .all [
  put (R.HIF_ACCESS_FAULT_addr p) addr,
  put (R.HIF_ACCESS_FAULT_status p) status,
  putBit (R.HIF_ACCESS_FAULT_write p) write,
  putBit (R.HIF_ACCESS_FAULT_bar p) bar2,
  putBit (R.HIF_ACCESS_FAULT_atomic p) atomic,
  addSat (R.HIF_ACCESS_COUNT_count p) 1,
  evFire (0x70C + p)]

/-! Monitors -/

/-- The setting word of a monitor unit, bits `[lo + w - 1 : lo]` (R448). -/
def State.monSet (s : State) (u lo w : Nat) : Nat := (⟨R.MON_SETTING u, lo, w⟩ : Fld).read (s.regsAt (R.MON_SETTING u))

/-- A 32-bit pattern as a signed number. -/
def signed32 (n : Nat) : Int := if n % 2 ^ 32 < 2 ^ 31 then (n % 2 ^ 32 : Nat) else (n % 2 ^ 32 : Nat) - 2 ^ 32

/-- R447: a value beyond the signed 32-bit range saturates. -/
def sat32 (v : Int) : Int := max (-(2 ^ 31)) (min (2 ^ 31 - 1) v)

/-- R448: the bin of a sample under a shift. -/
def monBin (shift : Nat) (v : Int) : Nat :=
  if v < 2 ^ shift then 0 else min 31 ((v.toNat / 2 ^ shift).log2 + 1)

/-- R446: the sum saturates at ±(2^63 − 1) and marks the overflow. -/
def monSum (sum v : Int) (ovf : Bool) : Int × Bool :=
  let t := sum + v
  if t > 2 ^ 63 - 1 then (2 ^ 63 - 1, true) else if t < -(2 ^ 63 - 1) then (-(2 ^ 63 - 1), true) else (t, ovf)

/-- R451: whether a sample lies beyond the threshold. -/
def State.monBeyond (s : State) (u : Nat) (v : Int) : Bool :=
  let thr := signed32 (s.monSet u 8 32)
  if s.monSet u 41 1 == 1 then decide (v < thr) else decide (v ≥ thr)

/-- The capture with one more sample. -/
def MonCap.add (m : MonCap) (bin : Nat) (v : Int) (beyond : Bool) : MonCap :=
  let r := monSum m.sum v m.ovf
  { low := if m.count = 0 then v else min m.low v
    high := if m.count = 0 then v else max m.high v
    count := (m.count + 1) % 2 ^ 64
    sum := r.1
    ovf := r.2
    bins := m.bins.modify bin (fun n => min (n + 1) (2 ^ 32 - 1))
    beyond := beyond }

/-- R446, R451: unit `u` takes a sample. -/
def monTake (u : Nat) (w : Int) : Eff := .look fun s =>
  let v := sat32 w
  let m := s.monAt u
  let beyond := s.monSet u 40 1 == 1 && s.monBeyond u v
  .seq (.upd (.mon u (m.add (monBin (s.monSet u 0 5) v) v beyond)))
    (Eff.when (beyond && !m.beyond) (evFire (0x5C0 + u)))

/-- R446: a sample of a measurement of an instance reaches every unit that is enabled and bound to it. -/
def monSample (code inst : Nat) (v : Int) : Eff := .look fun s =>
  Eff.each (List.range 64) fun u =>
    Eff.when (s.bit (R.MON_BIND_enable u) && s.get (R.MON_BIND_measurement u) == code &&
      s.get (R.MON_BIND_instance u) == inst) (monTake u v)

/-- R447, R448: a host command's latency is a sample of the units whose opcode filter admits it. -/
def monCommand (p op : Nat) (v : Int) : Eff := .look fun s =>
  Eff.each (List.range 64) fun u =>
    Eff.when (s.bit (R.MON_BIND_enable u) && s.get (R.MON_BIND_measurement u) == 1 &&
      s.get (R.MON_BIND_instance u) == p && (s.monSet u 48 8 == 0xFF || s.monSet u 48 8 == op)) (monTake u v)

/-- R449: clear the live capture of a unit. -/
def monClear (u : Nat) : Eff := .upd (.mon u MonCap.zero)

/-- R449: copy the capture of a unit to its read registers, with the tide time and the latest edge number. -/
def monSnap (u : Nat) : Eff := .look fun s =>
  let m := s.monAt u
  .all [
    putReg (R.MON_MINMAX u) (BitVec.ofInt 32 m.high ++ BitVec.ofInt 32 m.low),
    putReg (R.MON_COUNT u) (BitVec.ofNat 64 m.count),
    putReg (R.MON_SUM u) (BitVec.ofInt 64 m.sum),
    putReg (R.MON_SNAP_TIME u) (BitVec.ofNat 64 s.tideTime),
    putReg (R.MON_SNAP_EDGE u) (BitVec.ofNat 64 (s.get R.TIDE_EDGE_NUM_edge)),
    putBit (R.MON_CTRL_overflow u) m.ovf,
    Eff.each (List.range 16) fun j =>
      putReg (R.MON_HIST u j) (BitVec.ofNat 64 (m.bins.getD (2 * j) 0 + m.bins.getD (2 * j + 1) 0 * 2 ^ 32))]

/-! The commands -/

/-- EVC_EOS (R440, R441): a host may write it only for its own port's destination. -/
def evcEos (who : Agent) (dest : Fin 3) (src : Fin 2048) : Eff :=
  match who with
  | .host p =>
    if dest.val = p.val + 1 then evcEndService dest src
    else hostFault p (0x01030000 + 0x4308) ST_PAGE_PROTECTED true false false
  | _ => evcEndService dest src

def execEvcEos (who : Agent) (dest : Fin 3) (src : Fin 2048) (s : State) : Host.Outcome State Fault Refusal :=
  (evcEos who dest src).done s

/-- EVC_SET (R442): the source fires as an edge. -/
def execEvcSet (src : Fin 2048) (s : State) : Host.Outcome State Fault Refusal := (evFire src).done s

/-- MSIX_UNMASK (R439): the host clears the mask of a vector; a pending message is sent. -/
def msixUnmask (p : Fin 2) (v : Fin 128) : Eff := .look fun s =>
  .seq (.upd (.msix (p * 128 + v) { s.msixAt (p * 128 + v) with masked := false })) (msixRelease p v)

def execMsixUnmask (p : Fin 2) (v : Fin 128) (s : State) : Host.Outcome State Fault Refusal := (msixUnmask p v).done s

/-- MON_SNAP (R449). -/
def execMonSnap (u : Fin 64) (s : State) : Host.Outcome State Fault Refusal := (monSnap u).done s

/-- MON_CLEAR (R449). -/
def execMonClear (u : Fin 64) (s : State) : Host.Outcome State Fault Refusal := (monClear u).done s

end Sys2Proof.Machine
end

