-- ==== Sys2Proof/Machine/Crc.lean ====
section
/-! DEFINITION. The arithmetic of the check-value engines and the streams they snoop (18_errors_service.md R463, R464). -/

namespace Sys2Proof.Machine

/-- The low `w` bits of a number in reverse order. -/
def reflect : Nat → Nat → Nat
  | 0, _ => 0
  | w + 1, v => v % 2 * 2 ^ w + reflect w (v / 2)

/-- One bit into the register of a CRC of width w and polynomial p. -/
def crcBit (w p reg bit : Nat) : Nat :=
  let top := Nat.xor (reg / 2 ^ (w - 1) % 2) bit
  Nat.xor (reg * 2 % 2 ^ w) (if top = 1 then p % 2 ^ w else 0)

/-- The eight bits of a byte, the most significant first. -/
def crcBits (w p : Nat) : Nat → Nat → Nat → Nat
  | 0, _, reg => reg
  | n + 1, b, reg => crcBits w p n b (crcBit w p reg (b / 2 ^ n % 2))

/-- One byte, least significant bit first under refin. -/
def crcByte (w p : Nat) (refin : Bool) (reg b : Nat) : Nat := crcBits w p 8 (if refin then reflect 8 b else b) reg

/-- R463: the result of a running register. -/
def crcResult (w reg : Nat) (refout inv : Bool) : Nat :=
  let r := if refout then reflect w reg else reg % 2 ^ w
  if inv then 2 ^ w - 1 - r else r

/-- R463: CRC_RESULT of engine e. -/
def State.crcResult (s : State) (e : Nat) : Nat :=
  Sys2Proof.Machine.crcResult (s.get (R.CRC_CFG_width e)) (s.get (R.CRC_VALUE_value e)) (s.bit (R.CRC_CFG_refout e))
    (s.bit (R.CRC_CFG_final_inv e))

/-- Engine e takes the bytes of a stream that lie in its window. -/
def crcTake (e : Nat) (bytes : List (Nat × Byte)) : Eff := .look fun s =>
  let lo := s.get (R.CRC_WIN_BASE_addr e)
  let hi := s.get (R.CRC_WIN_LIMIT_addr e)
  let bs := if s.bit (R.CRC_CTRL_win_en e) then bytes.filter fun b => decide (lo ≤ b.1) && decide (b.1 ≤ hi) else bytes
  let w := s.get (R.CRC_CFG_width e)
  .seq (put (R.CRC_VALUE_value e) (bs.foldl (fun r b =>
      crcByte w (s.get (R.CRC_POLY_value e)) (s.bit (R.CRC_CFG_refin e)) r b.2.toNat) (s.get (R.CRC_VALUE_value e))))
    (addWrap (R.CRC_STATUS_bytes e) bs.length)

/-- R464: bytes of a stream, each with its device address, reach every engine that runs on the stream. Source 5 has no
instance, and only sources 2 and 3 have a direction. -/
def snoop (source dir inst : Nat) (bytes : List (Nat × Byte)) : Eff := .look fun s =>
  Eff.each (List.range 16) fun e => Eff.when
    (s.bit (R.CRC_CTRL_running e) && s.get (R.CRC_CFG_source e) == source &&
      (source == 5 || s.get (R.CRC_CFG_instance e) == inst) &&
      (!(source == 2 || source == 3) || s.get (R.CRC_CFG_dir e) == dir)) (crcTake e bytes)

/-- Bytes at consecutive device addresses. -/
def at_ (a : Nat) (bs : List Byte) : List (Nat × Byte) := (List.range bs.length).map fun i => (a + i, bs.getD i 0)

end Sys2Proof.Machine
end

