-- ==== Sys2Proof/Machine/Bch.lean ====
section
/-! DEFINITION. The (80,64) code of every stored DRAM word (07_vaults.md R184, R185) and the poison marking (R456). -/

namespace Sys2Proof.Machine

/-- R184: g(x) = (x + 1)(x^7 + x^3 + 1)(x^7 + x^3 + x^2 + x + 1), of degree 15; the third factor is the minimal
polynomial of α^3. -/
def bchGen : Nat := 0xC599

/-- x^0, x^1, …, x^(n-1) modulo g(x), starting from the remainder `r`. -/
def bchPowers : Nat → Nat → List Nat
  | 0, _ => []
  | n + 1, r => r :: bchPowers n (if r * 2 / 2 ^ 15 = 1 then Nat.xor (r * 2) bchGen else r * 2)

/-- The remainders of x^0 to x^79. -/
def bchRems : List Nat := bchPowers 80 1

/-- The remainder of the polynomial whose coefficients are the bits of `bits`, the first at the head of `rems`. -/
def bchRem : List Nat → Nat → Nat
  | [], _ => 0
  | r :: rest, bits => Nat.xor (if bits % 2 = 1 then r else 0) (bchRem rest (bits / 2))

/-- The XOR of the bits of a number below 2^n. -/
def parity : Nat → Nat → Nat
  | 0, _ => 0
  | n + 1, v => (v + parity n (v / 2)) % 2

/-- R184: the address bit of a word: the XOR of bits [47:3] of its device address. -/
def addrBit (a : Nat) : Nat := parity 45 (a / 8)

/-- R184: the check bits c0–c14 and, in bit 15, the address bit that a word of data at a device address is stored with. -/
def checkOf (data a : Nat) : Nat :=
  bchRem bchRems ((data + addrBit a * 2 ^ 64) * 2 ^ 15) + addrBit a * 2 ^ 15

/-- The syndrome of a stored word whose check and address bits differ from the right ones by `δ`. -/
def bchSyndrome (δ : Nat) : Nat :=
  Nat.xor (δ % 2 ^ 15) (if δ / 2 ^ 15 = 1 then bchRems.getD 79 0 else 0)

/-- The first position whose remainder is `s`, counted from `i`. -/
def findOne : List Nat → Nat → Nat → Option Nat
  | [], _, _ => none
  | r :: rest, i, s => if r = s then some i else findOne rest (i + 1) s

/-- The first two positions whose remainders XOR to `s`, counted from `i`. -/
def findTwo : List Nat → Nat → Nat → Option (Nat × Nat)
  | [], _, _ => none
  | r :: rest, i, s =>
    match findOne rest (i + 1) (Nat.xor r s) with
    | some j => some (i, j)
    | none => findTwo rest (i + 1) s

/-- What a decoder finds (R185, R456). The numbers are the positions of the errors. -/
inductive Decoded where
  | good
  | single (i : Nat)
  | double (i j : Nat)
  | bad
  | addressFault
  | poison
  deriving DecidableEq, Repr

/-- The difference that marks a word as poisoned: c0, c7 and c14 inverted (R456). -/
def poisonDelta : Nat := 0x4081

/-- R185: what the decoder finds in a stored word, from the difference `δ` of its stored check and address bits from the
right ones: the corrected address bit must be the right one, in an error-free codeword (syndrome 0) too. -/
def bchDecode (δ : Nat) : Decoded :=
  let s := bchSyndrome δ
  let flipped := δ / 2 ^ 15 = 1
  if δ = 0 then .good
  else if s = 0 then .addressFault
  else if s = poisonDelta then .poison
  else match findOne bchRems 0 s with
    | some i => if decide (i = 79) == decide flipped then .single i else .addressFault
    | none =>
      match findTwo bchRems 0 s with
      | some (i, j) => if decide (j = 79) == decide flipped then .double i j else .addressFault
      | none => .bad

/-- The data with the error at a codeword position corrected (positions 15–78 are data bits). -/
def fixBit (data i : Nat) : Nat := if 15 ≤ i ∧ i < 79 then Nat.xor data (2 ^ (i - 15)) else data

end Sys2Proof.Machine
end

