-- ==== Sys2Proof/Machine/Memory.lean ====
section
/-! DEFINITION. The device address map (01_organisation.md R23–R28), the vault and GDDR7 words with their code, repair
tracker and remap (07_vaults.md R182–R196, 10_shared_cache_external.md R284–R290), the shared cache (R269–R276) and the
cell SRAM with its owners, aliases and marks (06_cell.md R168–R175, 18_errors_service.md R453–R459). -/

namespace Sys2Proof.Machine

/-! Retirement and the replacement request -/

/-- Cell `c` is retired (R15, R468). -/
def State.cellRetired (s : State) (c : Nat) : Bool :=
  if c < 64 then s.regBit R.SVC_RETIRED_CELL_LO c else s.regBit R.SVC_RETIRED_CELL_HI (c - 64)

/-- Bank unit `b` is retired. -/
def State.unitRetired (s : State) (b : Nat) : Bool := s.regBit (R.SVC_RETIRED_BU (b / 64)) (b % 64)

/-- R396: every module of die `d` is retired, so the die is unreachable. -/
def State.dieLost (s : State) (d : Nat) : Bool := (List.range 6).all fun m => s.get (R.DL_STATUS_state d m) == 7

/-- R472: a cause sets a flag of the replacement request, which is kept in the service flash and asserts source 0x710. -/
def setReplace (flag status unit : Nat) : Eff := .look fun s => .all [
  putRegBit R.SVC_REPLACE flag true,
  .upd (.replaceFlash (Nat.lor s.replaceFlash (2 ^ flag))),
  put R.SVC_REPLACE_LAST_flag flag,
  put R.SVC_REPLACE_LAST_status status,
  put R.SVC_REPLACE_LAST_unit unit,
  put R.SVC_REPLACE_LAST_boot s.boot,
  evLevel 0x710 true]

/-! The address map (R23–R26, R28) -/

/-- What an address names. -/
inductive Region where
  | vault (c : Nat)
  | ext
  | sram (c off : Nat)
  | setAlias (c off : Nat)
  | clrAlias (c off : Nat)
  | regs (page off : Nat)
  | hole
  deriving DecidableEq, Repr

/-- R24: whether an offset of a cell's SRAM window is general SRAM. -/
def generalOff (off : Nat) : Bool := off < 0x300000

/-- R23–R25: the region of a device address. -/
def regionOf (a : Nat) : Region :=
  if a < 0x0C00000000 then .vault (a / 0x18000000)
  else if a < 0x1000000000 then .hole
  else if a < 0x2200000000 then .ext
  else if a < 0x3000000000 then .hole
  else if a < 0x3020000000 then
    (if (a - 0x3000000000) % 0x400000 < 0x380000 then .sram ((a - 0x3000000000) / 0x400000) ((a - 0x3000000000) % 0x400000)
     else .hole)
  else if a < 0x3100000000 then .hole
  else if a < 0x3120000000 then
    (if generalOff ((a - 0x3100000000) % 0x400000) then
      .setAlias ((a - 0x3100000000) / 0x400000) ((a - 0x3100000000) % 0x400000) else .hole)
  else if a < 0x3200000000 then .hole
  else if a < 0x3220000000 then
    (if generalOff ((a - 0x3200000000) % 0x400000) then
      .clrAlias ((a - 0x3200000000) / 0x400000) ((a - 0x3200000000) % 0x400000) else .hole)
  else if a < 0x4000000000 then .hole
  else if a < 0x4100000000 then
    (match clsOf ((a - 0x4000000000) / 0x10000) with
     | some _ => .regs ((a - 0x4000000000) / 0x10000) ((a - 0x4000000000) % 0x10000)
     | none => .hole)
  else .hole

/-- R28: two bytes lie in one range of R23, one row of the window layout and one cell's window. -/
def sameRange : Region → Region → Bool
  | .vault _, .vault _ => true
  | .ext, .ext => true
  | .sram c o, .sram c' o' => c == c' && generalOff o == generalOff o'
  | .setAlias c _, .setAlias c' _ => c == c'
  | .clrAlias c _, .clrAlias c' _ => c == c'
  | .regs _ _, .regs _ _ => true
  | _, _ => false

/-- R26: the first address above the franked external capacity. -/
def State.extEnd (s : State) : Nat := if s.get R.LIC_FEATURES_ext_gib ≥ 72 then 0x2200000000 else 0x1900000000

/-- R28: whether a page belongs to a cell's logic, which a retirement powers off (the VLT_ and BU_ pages stay). -/
def cellLogicPage (page : Nat) : Bool := decide (page < 0x800) && !(page % 16 == 8 || page % 16 == 9 || page % 16 == 10)

/-- R28: the first row of the table that an access of `n` bytes at `a` meets; ST_OK when it meets none of the refusals. -/
def State.mapStatus (s : State) (a n : Nat) : Nat :=
  let last := a + n - 1
  let r := regionOf a
  if (regionOf a == .hole) || (regionOf last == .hole) then ST_ADDR_UNMAPPED
  else if !sameRange r (regionOf last) then ST_ADDR_UNMAPPED
  else if r == .ext && last ≥ s.extEnd then ST_FRANK_MISSING
  else if s.diesOff && (match r with
      | .vault _ | .ext | .sram _ _ | .setAlias _ _ | .clrAlias _ _ => true
      | .regs page _ => decide (page < 0x800)
      | .hole => false) then ST_DIE_STANDBY
  else match r with
    | .sram c _ | .setAlias c _ | .clrAlias c _ => if s.cellRetired c || s.dieLost (c / 16) then ST_UNIT_RETIRED else ST_OK
    | .vault c => if s.dieLost (c / 16) then ST_UNIT_RETIRED else ST_OK
    | .regs page _ =>
      if (cellLogicPage page && s.cellRetired (page / 16)) || (decide (page < 0x800) && s.dieLost (page / 256)) then ST_UNIT_RETIRED
      else ST_OK
    | _ => ST_OK

/-- All ones, the data of a refused read (R28). -/
def onesResp (status n : Nat) : Resp := ⟨status, List.replicate n 0xFF, List.replicate n false⟩

/-! Where a DRAM word lies -/

/-- R182: the pseudo-channel of a vault offset. -/
def vaultPc (v : Nat) : Nat := v / 64 % 8

/-- R182: the bank of a vault offset. -/
def vaultBank (v : Nat) : Nat := v / 0x2000 % 16

/-- R182: the row of a vault offset. -/
def vaultRow (v : Nat) : Nat := v / 0x20000

/-- The bank unit number of a vault address (R21). -/
def unitOf (a : Nat) : Nat := a / 0x18000000 * 8 + vaultPc (a % 0x18000000)

/-- R285: the GDDR7 device of an external address. -/
def extDev (a : Nat) : Nat := (a - 0x1000000000) / 256 % 24

/-- R285: the offset in its device of an external address. -/
def extOff (a : Nat) : Nat := (a - 0x1000000000) / 256 / 24 * 256 + (a - 0x1000000000) % 256

/-- R287: where a data word's check bits lie in its device. -/
def extCheckOff (d : Nat) : Nat := 0xC0000000 + d / 32 * 8 + d % 32 / 8 * 2

/-- Whether a device address lies in external memory. -/
def isExt (a : Nat) : Bool := 0x1000000000 ≤ a && a < 0x2200000000

/-- The tracker unit of a DRAM word: the pseudo-channel's number, or 1024 + the GDDR7 device. -/
def trackUnit (a : Nat) : Nat := if isExt a then 1024 + extDev a else unitOf a

/-- Bank and row of a data word, and of its check bits when `check` (R286, R290: in external memory they lie elsewhere). -/
def bankRow (a : Nat) (check : Bool) : Nat × Nat :=
  if isExt a then
    let d := if check then extCheckOff (extOff a) else extOff a
    (d / 2048 % 16, d / 32768)
  else (vaultBank (a % 0x18000000), vaultRow (a % 0x18000000))

/-- The device addresses of the words of a vault row, in address order: 16 granules of 8 words. -/
def vaultRowWords (unit bank row : Nat) : List Nat :=
  let base := unit / 8 * 0x18000000 + row * 0x20000 + bank * 0x2000 + unit % 8 * 64
  (List.range 128).map fun i => base + i / 8 * 0x200 + i % 8 * 8

/-- The device addresses of the data words of a row of GDDR7 device `g`; a row outside the data region holds none. -/
def extRowWords (g bank row : Nat) : List Nat :=
  let d := row * 32768 + bank * 2048
  if d < 0xC0000000 then
    (List.range 256).map fun i =>
      let o := d + i * 8
      0x1000000000 + (o / 256 * 24 + g) * 256 + o % 256
  else []

/-! The code on stored words -/

/-- The data of the word at an 8-aligned device address, as stored. -/
def State.word (s : State) (a : Nat) : Nat := leNat (s.bytes a 8)

/-- Store a word's data and the difference of its check bits. -/
def pokeWord (a data δ : Nat) : Eff := .all [pokeBytes a (toLE 8 data), .upd (.check (a / 8) (BitVec.ofNat 16 δ))]

/-- What the decoder finds in the stored word. -/
def State.decode (s : State) (a : Nat) : Decoded := bchDecode (s.checkAt (a / 8)).toNat

/-- The corrected data of the stored word. -/
def State.corrected (s : State) (a : Nat) : Nat :=
  match s.decode a with
  | .single i => fixBit (s.word a) i
  | .double i j => fixBit (fixBit (s.word a) i) j
  | _ => s.word a

/-! Counts of corrections (R185) -/

/-- The source that a tracker unit fires: its cell's vault source or its GDDR7 controller's. -/
def memSource (unit : Nat) : Nat := if unit < 1024 then unit / 8 * 8 + 5 else 0x580 + (unit - 1024)

/-- Count a correction or an uncorrectable word: 0 = single, 1 = double, 2 = uncorrectable, 3 = address fault. -/
def eccCount (a kind : Nat) : Eff :=
  let cnt := if isExt a then
      (match kind with
       | 0 => R.GD_ECC_CNT_single (extDev a) | 1 => R.GD_ECC_CNT_double (extDev a)
       | _ => R.GD_ECC_CNT_uncorrectable (extDev a))
    else
      (match kind with
       | 0 => R.VLT_ECC_CNT_single (unitOf a / 8) (unitOf a % 8) | 1 => R.VLT_ECC_CNT_double (unitOf a / 8) (unitOf a % 8)
       | _ => R.VLT_ECC_CNT_uncorrectable (unitOf a / 8) (unitOf a % 8))
  let last := if isExt a then R.GD_ECC_LAST (extDev a) else R.VLT_ECC_LAST (unitOf a / 8) (unitOf a % 8)
  .seq (addSat cnt 1)
    (Eff.when (kind != 0) (.all [
      putReg last (BitVec.ofNat 64 (a % 2 ^ 48 + kind * 2 ^ 48)),
      evFire (memSource (trackUnit a))]))

/-! Repair (R194–R196, R290) -/

/-- The lowest spare row of a bank that is not in use, out of `n`. -/
def freeSpare (used : List Nat) (n : Nat) : Option Nat := (List.range n).find? fun i => !used.contains i

/-- R194, R286: how many spare rows a bank has. -/
def spareCount (unit : Nat) : Nat :=
  if unit < 1024 then 24 else if unit < 1040 then 4096 else 8192

/-- A free entry of the pseudo-channel's CAM or of the device's table. -/
def State.freeRemap (s : State) (unit : Nat) : Option Nat :=
  if unit < 1024 then (List.range 64).find? fun e => !s.bit (R.VLT_REMAP_CAM_valid (unit / 8) (unit % 8) e)
  else (List.range 1024).find? fun e => !s.bit (R.GD_REMAP_TABLE_valid (unit - 1024) e)

/-- Fill an entry of the CAM or the table. -/
def putRemap (unit e bank row spare : Nat) : Eff :=
  if unit < 1024 then .all [
    putReg (R.VLT_REMAP_CAM (unit / 8) (unit % 8) e) (BitVec.ofNat 64 (1 + bank * 2 + row * 2 ^ 5 + spare * 2 ^ 17)),
    .look fun s => put ⟨R.VLT_REMAP_STATUS (unit / 8), 7 * (unit % 8), 7⟩
      (s.get ⟨R.VLT_REMAP_STATUS (unit / 8), 7 * (unit % 8), 7⟩ + 1)]
  else .all [
    putReg (R.GD_REMAP_TABLE (unit - 1024) e) (BitVec.ofNat 64 (1 + bank * 2 + row * 2 ^ 5 + spare * 2 ^ 22)),
    .look fun s => put (R.GD_REMAP_STATUS_used (unit - 1024)) (s.get (R.GD_REMAP_STATUS_used (unit - 1024)) + 1)]

/-- R202: the fewest free spare rows in any bank of a vault. -/
def State.minSpares (s : State) (c : Nat) : Nat :=
  (List.range 128).foldl (fun m i => min m (24 - (s.sparesAt (c * 128 + i)).length)) 24

/-- R196: copy a row: every word is read as R185 says, corrected and counted; an uncorrectable word is written with the poison
marking. -/
def copyRow (words : List Nat) : Eff := Eff.each words fun a => .look fun s =>
  match s.decode a with
  | .good | .poison => .skip
  | .single _ => .seq (eccCount a 0) (pokeWord a (s.corrected a) 0)
  | .double _ _ => .seq (eccCount a 1) (pokeWord a (s.corrected a) 0)
  | .bad => .seq (eccCount a 2) (pokeWord a (s.word a) poisonDelta)
  | .addressFault => .seq (eccCount a 3) (pokeWord a (s.word a) poisonDelta)

/-- R196, R290: remap a row to the lowest free spare row of its bank, or leave it and report ST_REMAP_FULL. -/
def remapRow (unit bank row : Nat) : Eff := .look fun s =>
  let used := s.sparesAt (unit * 16 + bank)
  match freeSpare used (spareCount unit), s.freeRemap unit with
  | some sp, some e => .all [
      copyRow (if unit < 1024 then vaultRowWords unit bank row else extRowWords (unit - 1024) bank row),
      .upd (.spares (unit * 16 + bank) (used ++ [sp])),
      putRemap unit e bank row sp,
      .upd (.remapNew (s.remapNew ++ [⟨unit, bank, row, sp⟩])),
      .look fun s => .upd (.tracker unit ((s.trackerAt unit).filter fun t => !(t.bank == bank && t.row == row))),
      Eff.when (unit < 1024) (.look fun s => put (R.VLT_REMAP_STATUS_min_spares (unit / 8)) (s.minSpares (unit / 8))),
      evFire (memSource unit)]
  | _, _ => .all [setReplace 9 ST_REMAP_FULL (if unit < 1024 then unit else unit - 1024), evFire (memSource unit)]

/-- The tracker settings of a unit: enable, threshold and window in ns. -/
def State.trackCfg (s : State) (unit : Nat) : Bool × Nat × Nat :=
  if unit < 1024 then (s.bit (R.VLT_REMAP_CFG_enable (unit / 8)), s.get (R.VLT_REMAP_CFG_row_threshold (unit / 8)),
    s.get (R.VLT_REMAP_CFG_window_ms (unit / 8)) * 1000000)
  else (s.bit (R.GD_REMAP_CFG_enable (unit - 1024)), s.get (R.GD_REMAP_CFG_row_threshold (unit - 1024)),
    s.get (R.GD_REMAP_CFG_window_ms (unit - 1024)) * 1000000)

/-- R195: rows whose window has expired leave the tracker. -/
def trackPrune (window now : Nat) (ts : List TrackRow) : List TrackRow := ts.filter fun t => now ≤ t.first + window

/-- The lowest count in a tracker. -/
def trackLow (ts : List TrackRow) : Nat := ts.foldl (fun m t => min m t.count) 0xFFFFFFFF

/-- Remove the first (oldest) row with a given count. -/
def trackEvict (n : Nat) : List TrackRow → List TrackRow
  | [] => []
  | t :: rest => if t.count = n then rest else t :: trackEvict n rest

/-- R195: the tracker after a corrected error of a row, whose count becomes `f` of what it was; a full tracker loses its lowest,
oldest entry. -/
def trackAdd (ts : List TrackRow) (bank row : Nat) (f : Nat → Nat) (now : Nat) : List TrackRow :=
  if ts.any fun t => t.bank == bank && t.row == row then
    ts.map fun t => if t.bank == bank && t.row == row then { t with count := f t.count } else t
  else (if ts.length < 16 then ts else trackEvict (trackLow ts) ts) ++ [⟨bank, row, f 0, now⟩]

/-- R195: a correction in a row: a single one adds 1, a double one sets the count to the threshold. -/
def trackHit (unit bank row : Nat) (double : Bool) : Eff := .look fun s =>
  let cfg := s.trackCfg unit
  let ts := trackAdd (trackPrune cfg.2.2 s.now (s.trackerAt unit)) bank row (fun n => if double then max n cfg.2.1 else n + 1) s.now
  .seq (.upd (.tracker unit ts))
    (Eff.when (cfg.1 && ts.any fun t => t.bank == bank && t.row == row && decide (cfg.2.1 ≤ t.count))
      (remapRow unit bank row))

/-- Whether an error position is a check or address bit. -/
def checkPos (i : Nat) : Bool := i < 15 || i == 79

/-- R292: device `g` is failed. -/
def State.gdFailed (s : State) (g : Nat) : Bool := s.get (R.GD_STATUS_state g) == 3

/-- R185, R456: read one DRAM word. The continuation gets the status and the data; the data of a word that is poisoned or
uncorrectable is undefined. A double correction is written back, and a correction enters the repair tracker. -/
def dramWord (a : Nat) (k : Nat → Nat → Eff) : Eff := .look fun s =>
  if isExt a && s.gdFailed (extDev a) then withFree fun v => k ST_POISON v.toNat
  else match s.decode a with
  | .good => k ST_OK (s.word a)
  | .single i => .all [
      eccCount a 0,
      (let br := bankRow a (checkPos i); trackHit (trackUnit a) br.1 br.2 false),
      k ST_OK (s.corrected a)]
  | .double i j => .all [
      pokeWord a (s.corrected a) 0,
      eccCount a 1,
      Eff.each [checkPos i, checkPos j].eraseDups (fun c => trackHit (trackUnit a) (bankRow a c).1 (bankRow a c).2 true),
      k ST_OK (s.corrected a)]
  | .poison => withFree fun v => k ST_POISON v.toNat
  | .addressFault => .seq (eccCount a 3) (withFree fun v => k ST_UNCORRECTABLE v.toNat)
  | .bad => .seq (eccCount a 2) (withFree fun v => k ST_UNCORRECTABLE v.toNat)

/-- The first word's status that is not ST_OK. -/
def worst (st st' : Nat) : Nat := if st = ST_OK then st' else st

/-- The words (8-aligned addresses) that `n` bytes at `a` touch. -/
def wordsOf (a n : Nat) : List Nat := if n = 0 then [] else (List.range ((a + n - 1) / 8 - a / 8 + 1)).map fun i => (a / 8 + i) * 8

/-- Read words and put the answer together. -/
def readWords (rd : Nat → (Nat → Nat → Eff) → Eff) : List Nat → Resp → (Resp → Eff) → Eff
  | [], r, k => k r
  | w :: rest, r, k => rd w fun st v =>
      readWords rd rest ⟨worst r.status st, r.data ++ toLE 8 v, r.bad ++ List.replicate 8 (st != ST_OK)⟩ k

/-- Cut the answer for whole words down to the bytes asked for. -/
def Resp.cut (r : Resp) (a n : Nat) : Resp := ⟨r.status, (r.data.drop (a % 8)).take n, (r.bad.drop (a % 8)).take n⟩

/-- Read `n` bytes of DRAM at `a`, decoding every word (R183, R185). -/
def dramRead (a n : Nat) (k : Resp → Eff) : Eff := readWords dramWord (wordsOf a n) ⟨ST_OK, [], []⟩ fun r => k (r.cut a n)

/-- The 8 bytes of a word with the bytes of a write laid over them. -/
def mergeWord (old : List Byte) (w a : Nat) (bs : List Byte) : List Byte :=
  (List.range 8).map fun i => if a ≤ w + i ∧ w + i < a + bs.length then bs.getD (w + i - a) 0 else old.getD i 0

/-- Whether a write covers the whole word. -/
def coversWord (w a n : Nat) : Bool := a ≤ w && w + 8 ≤ a + n

/-- R186: write the words of a DRAM write: a whole word with fresh check bits, a part as a read-modify-write that writes
nothing when the word read is poisoned or uncorrectable. -/
def dramWriteWords (a : Nat) (bs : List Byte) : List Nat → Nat → (Nat → Eff) → Eff
  | [], st, k => k st
  | w :: rest, st, k =>
    if coversWord w a bs.length then
      .seq (.look fun s => Eff.when (!(isExt w && s.gdFailed (extDev w))) (pokeWord w (leNat (mergeWord [] w a bs)) 0))
        (dramWriteWords a bs rest st k)
    else
      .seq (Eff.when (!isExt w) (addSat (R.VLT_RMW_CNT_narrow_writes (unitOf w / 8) (unitOf w % 8)) 1))
        (dramWord w fun st' v =>
          if st' = ST_OK then
            .seq (pokeWord w (leNat (mergeWord (toLE 8 v) w a bs)) 0) (dramWriteWords a bs rest st k)
          else dramWriteWords a bs rest (worst st st') k)

/-- Write bytes to DRAM at `a`. -/
def dramWrite (a : Nat) (bs : List Byte) (k : Nat → Eff) : Eff := dramWriteWords a bs (wordsOf a bs.length) ST_OK k

/-- Write a word to DRAM with the poison marking (R456). -/
def dramPoison (a data : Nat) : Eff := pokeWord a data poisonDelta

/-! The shared cache (R269–R276) -/

/-- R271: whether a vault address lies in a SHARED range. -/
def State.shared (s : State) (a : Nat) : Bool :=
  decide (a < 0x0C00000000) && (List.range 8).any fun r =>
    s.bit (R.SC_SHARED_BASE_valid r) && decide (s.get (R.SC_SHARED_BASE_mib r) ≤ a / 0x100000) &&
      decide (a / 0x100000 ≤ s.get (R.SC_SHARED_LIMIT_mib r))

/-- Whether the shared cache serves an address (R269). -/
def State.cached (s : State) (a : Nat) : Bool := isExt a || s.shared a

/-- R270: the line address. -/
def lineAddr (a : Nat) : Nat := if isExt a then (a - 0x1000000000) / 128 else a / 128

/-- R270: the slice of a line. -/
def sliceOf (a : Nat) : Nat :=
  let l := lineAddr a
  Nat.xor (l % 32) (Nat.xor (l / 256 % 32) (l / 65536 % 32))

/-- R270: the key (slice × 2048 + set) of a line's set. -/
def setKey (a : Nat) : Nat := sliceOf a * 2048 + lineAddr a / 32 % 2048

/-- The line that holds an address, if the cache holds it. -/
def State.line (s : State) (a : Nat) : Option ScLine := (s.cacheAt (setKey a)).find? fun l => l.base == a / 128 * 128

/-- The bytes that are stored at an address, in the cache line that holds it or in memory. -/
def State.plainBytes (s : State) (a n : Nat) : List Byte := (List.range n).map fun i =>
  match s.line (a + i) with
  | some l => l.data.getD ((a + i) % 128) 0
  | none => (s.bytes (a + i) 1).getD 0 0

/-- Lines of a slice that are sticky in class `k`. -/
def State.stickyCount (s : State) (slice k : Nat) : Nat :=
  s.cache.foldl (fun n e => if e.1 / 2048 = slice then
    n + (e.2.filter fun l => l.sticky == some k).length else n) 0

/-- R275: whether a KEEP access of class `k` may make the line at `a` sticky. -/
def State.mayStick (s : State) (a k : Nat) : Bool :=
  decide (s.stickyCount (sliceOf a) k < s.get (R.SC_KEEP_CFG_quota k)) &&
    decide (((s.cacheAt (setKey a)).filter fun l => l.sticky.isSome).length < 12)

/-- The 16 words' marks as written to memory: a marked word gets the poison marking. -/
def writeBackWords (base : Nat) (l : ScLine) : List Nat → Eff
  | [] => .skip
  | i :: rest =>
    .seq (.look fun s => Eff.when (!(isExt base && s.gdFailed (extDev (base + 8 * i))))
        (pokeWord (base + 8 * i) (leAt l.data (8 * i) 8)
          (if l.marks.getD i .good == .good || l.marks.getD i .good == .single then 0 else poisonDelta)))
      (writeBackWords base l rest)

/-- Write a dirty line back to memory (R273). -/
def writeBack (l : ScLine) : Eff := .seq (writeBackWords l.base l (List.range 16)) (addSat (R.SC_WBACKS_count (sliceOf l.base)) 1)

/-- Remove a line from its set. -/
def dropLine (a : Nat) : Eff := .look fun s =>
  .upd (.cache (setKey a) ((s.cacheAt (setKey a)).filter fun l => !(l.base == a / 128 * 128)))

/-- The victim of a full set: the least recent line that is not sticky, or the least recent line. -/
def victimOf (ls : List ScLine) : Option ScLine :=
  match ls.reverse.find? fun l => l.sticky.isNone with
  | some l => some l
  | none => ls.getLast?

/-- R273: make room in a line's set: a full set loses its victim, written back if dirty. -/
def makeRoom (a : Nat) : Eff := .look fun s =>
  let ls := s.cacheAt (setKey a)
  if ls.length < 16 then .skip
  else match victimOf ls with
    | some v => .seq (Eff.when v.dirty (writeBack v)) (dropLine v.base)
    | none => .skip

/-- Put a line in its set as most recent, or as least recent. -/
def putLine (l : ScLine) (recent : Bool) : Eff := .look fun s =>
  let rest := (s.cacheAt (setKey l.base)).filter fun x => !(x.base == l.base)
  .upd (.cache (setKey l.base) (if recent then l :: rest else rest ++ [l]))

/-- Replace a line in its set without changing its place. -/
def setLine (l : ScLine) : Eff := .look fun s =>
  .upd (.cache (setKey l.base) ((s.cacheAt (setKey l.base)).map fun x => if x.base == l.base then l else x))

/-- The line read from memory: the words that were delivered poisoned carry the marking. -/
def lineOf (base : Nat) (r : Resp) : ScLine :=
  ⟨base, false, none, r.data, (List.range 16).map fun i => if r.bad.getD (8 * i) false then .poison else .good⟩

/-- Bytes of a line, with the marking of their words; the data of a marked word is undefined (R456). -/
def lineResp (ctr : Nat) (l : ScLine) (a n : Nat) : Resp :=
  let marked := fun i => match l.marks.getD ((a % 128 + i) / 8) .good with
    | .good | .single => false
    | _ => true
  let st := (List.range n).foldl (fun st i => worst st (match l.marks.getD ((a % 128 + i) / 8) .good with
    | .poison => ST_POISON
    | .bad => ST_UNCORRECTABLE
    | _ => ST_OK)) ST_OK
  ⟨st, (List.range n).map fun i => if marked i then (freeBytes (ctr + i) 1).getD 0 0 else l.data.getD (a % 128 + i) 0,
    (List.range n).map marked⟩

/-- Answer from a line. -/
def answerLine (l : ScLine) (a n : Nat) (k : Resp → Eff) : Eff := .look fun s =>
  .seq (.upd (.freeCtr (s.freeCtr + n))) (k (lineResp s.freeCtr l a n))

/-- R275: the line made sticky by a KEEP access that may, or the denial counted. -/
def stick (h : Hint) (a : Nat) (l : ScLine) (k : ScLine → Eff) : Eff := .look fun s =>
  match h with
  | .keep c =>
    if l.sticky.isSome then k l
    else if s.mayStick a c then k { l with sticky := some c.val }
    else .seq (addSat (R.SC_KEEP_DENIED_count (sliceOf a)) 1) (k l)
  | _ => k l

/-- R283: a hit of a line whose data fails: a clean line is fetched again, a dirty line's failing words stay marked. -/
def checkLine (l : ScLine) (k : ScLine → Eff) : Eff :=
  let bad := (l.marks.filter fun m => m == .bad).length
  if bad = 0 then
    Eff.seq (Eff.when (l.marks.contains .single) (.all [
        addSat (R.SC_SLICE_ECC_corrected (sliceOf l.base)) (l.marks.filter fun m => m == .single).length,
        setLine { l with marks := l.marks.map fun m => if m == .single then .good else m }]))
      (k { l with marks := l.marks.map fun m => if m == .single then .good else m })
  else .seq (.all [addSat (R.SC_SLICE_ECC_uncorrectable (sliceOf l.base)) bad, evFire (0x540 + sliceOf l.base)])
    (if l.dirty then k l
     else dramRead l.base 128 fun r => .seq (setLine { lineOf l.base r with sticky := l.sticky })
       (k { lineOf l.base r with sticky := l.sticky }))

/-- R274: read within one line. -/
def scRead (h : Hint) (a n : Nat) (k : Resp → Eff) : Eff := .look fun s =>
  if s.tagLostAt (setKey a) then withFreeBytes n fun bs => k ⟨ST_UNCORRECTABLE, bs, List.replicate n true⟩
  else match s.line a with
  | some l => .seq (addSat (R.SC_HITS_count (sliceOf a)) 1) (checkLine l fun l =>
      match h with
      | .stream => answerLine l a n k
      | .lastUse => .all [
          Eff.when l.dirty (addSat (R.SC_DROPS_count (sliceOf a)) 1),
          dropLine a,
          answerLine l a n k]
      | _ => stick h a l fun l => .seq (putLine l true) (answerLine l a n k))
  | none => .seq (addSat (R.SC_MISSES_count (sliceOf a)) 1)
      (dramRead (a / 128 * 128) 128 fun r =>
        let l := lineOf (a / 128 * 128) r
        match h with
        | .stream | .lastUse => answerLine l a n k
        | _ => .seq (makeRoom a) (stick h a l fun l => .seq (putLine l true) (answerLine l a n k)))

/-- A line with bytes written at `a` (whole words lose their mark); `none` when a part of a marked word is written. -/
def ScLine.write (l : ScLine) (a : Nat) (bs : List Byte) : Option ScLine :=
  let off := a % 128
  let partialBad := (List.range 16).any fun i =>
    !(l.marks.getD i .good == .good) && decide (off < 8 * i + 8 ∧ 8 * i < off + bs.length) &&
      !(decide (off ≤ 8 * i) && decide (8 * i + 8 ≤ off + bs.length))
  if partialBad then none
  else some { l with
    dirty := true
    data := (List.range 128).map fun i => if off ≤ i ∧ i < off + bs.length then bs.getD (i - off) 0 else l.data.getD i 0
    marks := (List.range 16).map fun i =>
      if off ≤ 8 * i ∧ 8 * i + 8 ≤ off + bs.length then .good else l.marks.getD i .good }

/-- R457: what a partial write of a marked word reports. -/
def ScLine.markStatus (l : ScLine) : Nat := if l.marks.contains .bad then ST_UNCORRECTABLE else ST_POISON

/-- R274: a line that a write miss allocates takes its place: least recent for STREAM and LAST_USE. -/
def scPlace (h : Hint) (a : Nat) (l : ScLine) (k : Eff) : Eff := .seq (makeRoom a) (match h with
  | .stream | .lastUse => .seq (putLine l false) k
  | _ => stick h a l fun l => .seq (putLine l true) k)

/-- R274: write within one line. -/
def scWrite (h : Hint) (a : Nat) (bs : List Byte) (k : Nat → Eff) : Eff := .look fun s =>
  if s.tagLostAt (setKey a) then k ST_UNCORRECTABLE
  else match s.line a with
  | some l => .seq (addSat (R.SC_HITS_count (sliceOf a)) 1) (checkLine l fun l =>
      match l.write a bs with
      | none => k l.markStatus
      | some l => (match h with
        | .stream | .lastUse => .seq (setLine l) (k ST_OK)
        | _ => stick h a l fun l => .seq (putLine l true) (k ST_OK)))
  | none => .seq (addSat (R.SC_MISSES_count (sliceOf a)) 1) (
      if bs.length = 128 then
        (match h with
         | .stream | .lastUse => dramWrite a bs k
         | _ => scPlace h a ⟨a, true, none, bs, List.replicate 16 .good⟩ (k ST_OK))
      else dramRead (a / 128 * 128) 128 fun r =>
        let old := lineOf (a / 128 * 128) r
        match old.write a bs with
        | none => scPlace h a old (k old.markStatus)
        | some l => scPlace h a l (k ST_OK))

/-- The parts of an access, each within one block of `size` bytes. -/
def splitBy (size : Nat) : Nat → Nat → Nat → List (Nat × Nat)
  | 0, _, _ => []
  | fuel + 1, a, n =>
    if n = 0 then []
    else
      let m := min n (size - a % size)
      (a, m) :: splitBy size fuel (a + m) (n - m)

/-- Put two answers together. -/
def Resp.join (r r' : Resp) : Resp := ⟨worst r.status r'.status, r.data ++ r'.data, r.bad ++ r'.bad⟩

/-- Read parts one after the other. -/
def readParts (rd : Nat → Nat → (Resp → Eff) → Eff) : List (Nat × Nat) → Resp → (Resp → Eff) → Eff
  | [], r, k => k r
  | (a, n) :: rest, r, k => rd a n fun r' => readParts rd rest (r.join r') k

/-- Write parts one after the other. -/
def writeParts (wr : Nat → List Byte → (Nat → Eff) → Eff) (bs : List Byte) (a : Nat) :
    List (Nat × Nat) → Nat → (Nat → Eff) → Eff
  | [], st, k => k st
  | (b, n) :: rest, st, k => wr b ((bs.drop (b - a)).take n) fun st' => writeParts wr bs a rest (worst st st') k

/-! Vaults and external memory as an agent reaches them -/

/-- R200: whether a granule lies in a diagnostic lock that is in force or asked for. -/
def State.diagLocked (s : State) (a : Nat) : Bool :=
  if isExt a then s.bit R.GD_DIAG_BASE_lock && decide (s.get R.GD_DIAG_BASE_base * 64 ≤ a) &&
    decide (a ≤ s.get R.GD_DIAG_LIMIT_limit)
  else
    let c := a / 0x18000000
    s.bit (R.VLT_DIAG_BASE_lock c) && decide (s.get (R.VLT_DIAG_BASE_base c) * 64 ≤ a) &&
      decide (a ≤ s.get (R.VLT_DIAG_LIMIT_limit c))

/-- R183: the granule requests of an access. -/
def granules (a n : Nat) : List (Nat × Nat) := splitBy 64 (n / 64 + 2) a n

/-- The parts of an access, each within one line of the shared cache. -/
def lineParts (a n : Nat) : List (Nat × Nat) := splitBy 128 (n / 128 + 2) a n

/-- Whether a granule request is refused because of a diagnostic lock (R200); an access through the shared cache takes the whole
line that it would fill (R291). -/
def State.lockBars (s : State) (a : Nat) : Bool :=
  if s.cached a then s.diagLocked (a / 128 * 128) || s.diagLocked (a / 128 * 128 + 64) else s.diagLocked a

/-- Whether a lock refuses some granule request of an access. -/
def State.touchesLock (s : State) (a n : Nat) : Bool := (granules a n).any fun p => s.lockBars p.1

/-- R28, R271: read bytes that no lock bars. -/
def drRead (h : Hint) (a n : Nat) (k : Resp → Eff) : Eff := .look fun s =>
  if s.cached a then readParts (scRead h) (lineParts a n) ⟨ST_OK, [], []⟩ k else dramRead a n k

/-- R28, R271: write bytes that no lock bars. -/
def drWrite (h : Hint) (a : Nat) (bs : List Byte) (k : Nat → Eff) : Eff := .look fun s =>
  if s.cached a then writeParts (scWrite h) bs a (lineParts a bs.length) ST_OK k else dramWrite a bs k

/-- R28, R200: read `n` bytes of vault or external memory; under a lock each granule request is judged on its own (R183). -/
def drReadAll (h : Hint) (a n : Nat) (k : Resp → Eff) : Eff := .look fun s =>
  if s.touchesLock a n then
    readParts (fun g m k => if s.lockBars g then k (onesResp ST_BUSY m) else drRead h g m k) (granules a n) ⟨ST_OK, [], []⟩ k
  else drRead h a n k

/-- R28, R200: write bytes of vault or external memory; under a lock each granule request is judged on its own (R183). -/
def drWriteAll (h : Hint) (a : Nat) (bs : List Byte) (k : Nat → Eff) : Eff := .look fun s =>
  if s.touchesLock a bs.length then
    writeParts (fun g bs k => if s.lockBars g then k ST_BUSY else drWrite h g bs k) bs a (granules a bs.length) ST_OK k
  else drWrite h a bs k

/-! PROCESSOR mode (R28, R205, R225) -/

/-- R205, R206, R231: whether a request to the pseudo-channel of bank unit `b` is held: the unit owns the banks, or the
change to PROCESSOR mode is under way. A FAULTED unit's pseudo-channel serves requests at once. -/
def State.pcHolds (s : State) (b : Nat) : Bool :=
  s.get (R.BU_STATUS_state (b / 8) (b % 8)) != 4 &&
    (s.bit (R.BU_STATUS_mode (b / 8) (b % 8)) ||
      (s.bit (R.BU_MODE_pending (b / 8) (b % 8)) && s.bit (R.BU_MODE_req (b / 8) (b % 8))))

/-- R273, R283: the vault or external memory that the shared cache itself must reach for an access: the lines that it has to
fill, and the dirty victims that have to make room for them. -/
def State.cacheNeeds (s : State) (a n : Nat) : List (Nat × Nat) := (lineParts a n).flatMap fun p =>
  if (s.line p.1).isSome then []
  else (p.1 / 128 * 128, 128) ::
    (if (s.cacheAt (setKey p.1)).length < 16 then []
     else match victimOf (s.cacheAt (setKey p.1)) with
       | some v => if v.dirty then [(v.base, 128)] else []
       | none => [])

/-- R205, R283: the bank units that hold an access: to their pseudo-channels, or through the shared cache. -/
def State.holders (s : State) (a n : Nat) : List Nat :=
  let as := match regionOf a with
    | .vault _ | .ext => if s.cached a then s.cacheNeeds a n else [(a, n)]
    | _ => []
  ((((as.flatMap fun p => granules p.1 p.2).filter fun p => decide (p.1 < 0x0C00000000)).map fun p => unitOf p.1).filter
    fun b => s.pcHolds b).eraseDups

/-- The first unit that holds an access, if one does. -/
def State.holder (s : State) (a n : Nat) : Option Nat := (s.holders a n).head?

/-- R227: the requests that have left the ports (each port keeps at most 4 granule requests outstanding to a pseudo-channel, so a
later one waits in the port), given the requests outstanding from each port. -/
def inPorts : List HeldReq → Nat → Nat → List HeldReq
  | [], _, _ => []
  | r :: rest, n0, n1 =>
    match r.who with
    | .host p =>
      if 4 ≤ (if p.val = 0 then n0 else n1) then inPorts rest n0 n1
      else r :: inPorts rest (if p.val = 0 then n0 + 1 else n0) (if p.val = 1 then n1 + 1 else n1)
    | _ => r :: inPorts rest n0 n1

/-- The requests outstanding at a pseudo-channel: at most 64 (R60). -/
def atUnit (rs : List HeldReq) : List HeldReq := (inPorts rs 0 0).take 64

/-- Show how many requests a unit holds. -/
def heldShow (b : Nat) : Eff := .look fun s => put (R.BU_STATUS_held (b / 8) (b % 8)) (atUnit (s.heldAt b)).length

/-- Hold a request at a unit (R225). -/
def holdAt (b : Nat) (r : HeldReq) : Eff := .look fun s => .seq (.upd (.held b (s.heldAt b ++ [r]))) (heldShow b)

/-- The requests of an agent that wait at a unit go. -/
def unhold (p : HeldReq → Bool) : Eff := .look fun s =>
  Eff.each (s.held.filter fun e => e.2.any p) fun e => .seq (.upd (.held e.1 (e.2.filter fun r => !p r))) (heldShow e.1)

/-! Cell SRAM (R168–R175) -/

/-- The device address of an offset in cell `c`'s SRAM window (R23). -/
def sramAddr (c off : Nat) : Nat := 0x3000000000 + (0x400000 * c + off)

/-- The bank of an offset: 0–23 general SRAM, 24 the accumulator store. -/
def bankOf (off : Nat) : Nat := if off < 0x300000 then off / 0x20000 else 24

/-- The owner entry of bank `b` (R169). -/
def ownFld (c b : Nat) : Fld := ⟨R.CELL_BANK_OWN c (b / 4), 16 * (b % 4), 16⟩

/-- The pending bit of the owner entry of bank `b`. -/
def ownPending (c b : Nat) : Fld := { ownFld c b with lo := (ownFld c b).lo + 15, w := 1 }

/-- R170: the class and qualifier under which an agent reaches the SRAM of cell `c`. A bank unit comes over the NoC; its
accesses over the vertical path name their class themselves. -/
def State.accClass (s : State) (who : Agent) (c : Nat) : Nat × Nat :=
  match who with
  | .host p => (10, p)
  | .core _ | .mgmt | .remote _ => (9, 0xFF)
  | .thread c' t => if c'.val = c then (1 + s.get (R.SEQ_THR_CFG_group c t), 0) else (9, c')
  | .engine c' _ => if c'.val = c then (5, 0) else (9, c')
  | .bankUnit b => (9, b / 8)
  | .feeder c' => if c'.val = c then (6, 0) else (9, c')
  | .drain c' => if c'.val = c then (7, 0) else (9, c')
  | .vector c' => if c'.val = c then (1, 0) else (9, c')
  | .kvt c' => if c'.val = c then (9, 0xFF) else (9, c')
  | .scrub c' => (9, c')

/-- R169, R171: whether an owner entry admits a class and qualifier. -/
def ownAdmits (entry cls qual : Nat) : Bool :=
  entry % 16 == cls && cls != 0 &&
    (if cls == 9 then entry / 16 % 256 == 0xFF || (entry / 16 % 256 == qual && qual != 0xFF)
     else if cls == 10 then entry / 16 % 256 == 0xFF || entry / 16 % 256 == qual
     else true)

/-- R171: whether a class may reach a bank of cell `c`; the accumulator store has no owner. -/
def State.owns (s : State) (c b : Nat) (cq : Nat × Nat) : Bool := b == 24 || ownAdmits (s.get (ownFld c b)) cq.1 cq.2

/-- R175: count a refused access. -/
def ownFault (c b cls : Nat) : Eff := .all [
  addSat (R.CELL_OWN_FAULT_count c) 1, put (R.CELL_OWN_FAULT_last_bank c) b, put (R.CELL_OWN_FAULT_last_class c) cls]

/-- R174: count a collision. -/
def collision (c b word cls : Nat) : Eff := .all [
  addSat (R.CELL_COLLISION_count c) 1, put (R.CELL_COLLISION_last_bank c) b,
  put (R.CELL_COLLISION_last_word c) word, put (R.CELL_COLLISION_last_class c) cls]

/-- R454, R456: read a word of a cell's RAM whose mark has the given key and which holds `v`: a single error is corrected and
written back. -/
def eccWord (c b key v : Nat) (k : Nat → Nat → Eff) : Eff := .look fun s =>
  match s.marksAt key with
  | .good => k ST_OK v
  | .single => .all [
      .upd (.marks key .good),
      addSat (if b = 25 then R.CELL_ECC_cb_corr c else if b = 24 then R.CELL_ECC_acc_corr c else R.CELL_ECC_gen_corr c) 1,
      put (R.CELL_ECC_last_bank c) b,
      k ST_OK v]
  | .bad => .all [
      addSat (R.CELL_ECC_uncorrectable c) 1,
      put (R.CELL_ECC_last_bank c) b,
      withFree fun w => k ST_UNCORRECTABLE w.toNat]
  | .poison => withFree fun w => k ST_POISON w.toNat

/-- Read one SRAM word at a device address. -/
def sramWord (c b a : Nat) (k : Nat → Nat → Eff) : Eff := .look fun s => eccWord c b (a / 8) (s.word a) k

/-- Read `n` bytes at an offset of cell `c`'s window, without the owner check. -/
def sramReadRaw (c off n : Nat) (k : Resp → Eff) : Eff :=
  readWords (fun a => sramWord c (bankOf (a - sramAddr c 0)) a) (wordsOf (sramAddr c off) n) ⟨ST_OK, [], []⟩
    fun r => k (r.cut (sramAddr c off) n)

/-- Store an SRAM word with valid check bits. -/
def pokeSram (a data : Nat) : Eff := .all [pokeBytes a (toLE 8 data), .upd (.marks (a / 8) .good)]

/-- R168, R457: write the words of an SRAM write. -/
def sramWriteWords (c a : Nat) (bs : List Byte) : List Nat → Nat → (Nat → Eff) → Eff
  | [], st, k => k st
  | w :: rest, st, k =>
    if coversWord w a bs.length then
      .seq (pokeSram w (leNat (mergeWord [] w a bs))) (sramWriteWords c a bs rest st k)
    else sramWord c (bankOf (w - sramAddr c 0)) w fun st' v =>
      if st' = ST_OK then .seq (pokeSram w (leNat (mergeWord (toLE 8 v) w a bs))) (sramWriteWords c a bs rest st k)
      else sramWriteWords c a bs rest (worst st st') k

/-- Write bytes at an offset of cell `c`'s window, without the owner check. -/
def sramWriteRaw (c off : Nat) (bs : List Byte) (k : Nat → Eff) : Eff :=
  sramWriteWords c (sramAddr c off) bs (wordsOf (sramAddr c off) bs.length) ST_OK k

/-- Write a word of SRAM with the poison marking. -/
def sramPoison (a data : Nat) : Eff := .all [pokeBytes a (toLE 8 data), .upd (.marks (a / 8) .poison)]

/-- The bank of the access that does not belong to the class, if one does not. -/
def State.refusedBank (s : State) (c off n : Nat) (cq : Nat × Nat) : Option Nat :=
  ((splitBy 0x20000 26 off n).map fun p => bankOf p.1).find? fun b => !s.owns c b cq

/-- The banks of an access whose owner entry is pending (R172). -/
def State.unsettled (s : State) (c off n : Nat) : List Nat :=
  ((splitBy 0x20000 26 off n).map fun p => bankOf p.1).filter fun b => b != 24 && s.bit (ownPending c b)

/-- R172: the banks of an access whose owner entry is pending switch before they serve the new owner. -/
def ownSettle (c off n : Nat) : Eff := .look fun s =>
  Eff.each (s.unsettled c off n) fun b => putBit (ownPending c b) false

/-- R171: read under a class. -/
def sramRead (c off n : Nat) (cq : Nat × Nat) (k : Resp → Eff) : Eff := .look fun s =>
  match s.refusedBank c off n cq with
  | some b => .seq (ownFault c b cq.1) (k (onesResp ST_NOT_OWNER n))
  | none => .seq (ownSettle c off n) (sramReadRaw c off n k)

/-- R171: write under a class. -/
def sramWrite (c off : Nat) (bs : List Byte) (cq : Nat × Nat) (k : Nat → Eff) : Eff := .look fun s =>
  match s.refusedBank c off bs.length cq with
  | some b => .seq (ownFault c b cq.1) (k ST_NOT_OWNER)
  | none => .seq (ownSettle c off bs.length) (sramWriteRaw c off bs k)

/-- R173: a write through the bit-set or bit-clear alias; the continuation gets the status and the previous value. -/
def aliasWrite (set : Bool) (c off : Nat) (bs : List Byte) (cq : Nat × Nat) (k : Nat → Nat → Eff) : Eff := .look fun s =>
  let n := bs.length
  if !((n == 4 || n == 8) && off % n == 0) then k ST_ALIGN 0
  else match s.refusedBank c off n cq with
  | some b => .seq (ownFault c b cq.1) (k ST_NOT_OWNER 0)
  | none => .seq (ownSettle c off n) (sramReadRaw c off n fun r =>
      if r.status = ST_OK then
        let old := leNat r.data
        let m := leNat bs
        let new := if set then Nat.lor old m else Nat.xor old (Nat.land old m)
        sramWriteRaw c off (toLE n new) fun st => k st old
      else k r.status 0)

/-! Any access to memory -/

/-- R28, R170–R173: read `n` bytes of memory (not of register space) under a class and a hint. -/
def memReadAs (cq : Nat × Nat) (h : Hint) (a n : Nat) (k : Resp → Eff) : Eff := .look fun s =>
  let st := s.mapStatus a n
  if st ≠ ST_OK then k (onesResp st n)
  else match regionOf a with
  | .vault _ | .ext => drReadAll h a n k
  | .sram c off | .setAlias c off | .clrAlias c off => sramRead c off n cq k
  | .regs _ _ | .hole => k (onesResp ST_ADDR_UNMAPPED n)

/-- R28, R170–R173: write bytes of memory under a class and a hint; the continuation gets the status and what the response
returns (the previous value of an alias write, else 0). -/
def memWriteAs (cq : Nat × Nat) (h : Hint) (a : Nat) (bs : List Byte) (k : Nat → Nat → Eff) : Eff := .look fun s =>
  let st := s.mapStatus a bs.length
  if st ≠ ST_OK then k st 0
  else match regionOf a with
  | .vault _ | .ext => drWriteAll h a bs fun st => k st 0
  | .sram c off => sramWrite c off bs cq fun st => k st 0
  | .setAlias c off => aliasWrite true c off bs cq k
  | .clrAlias c off => aliasWrite false c off bs cq k
  | .regs _ _ | .hole => k ST_ADDR_UNMAPPED 0

/-- The cell whose SRAM an address names, for the class of an access. -/
def cellAt (a : Nat) : Nat :=
  match regionOf a with
  | .sram c _ | .setAlias c _ | .clrAlias c _ => c
  | _ => 0

/-- Read memory as an agent. -/
def memRead (who : Agent) (h : Hint) (a n : Nat) (k : Resp → Eff) : Eff := .look fun s =>
  memReadAs (s.accClass who (cellAt a)) h a n k

/-- Write memory as an agent. -/
def memWrite (who : Agent) (h : Hint) (a : Nat) (bs : List Byte) (k : Nat → Nat → Eff) : Eff := .look fun s =>
  memWriteAs (s.accClass who (cellAt a)) h a bs k

/-! Accesses that are held (R183, R225) -/

/-- The controller serves one granule request. -/
def granuleServe (r : HeldReq) (k : Resp → Eff) : Eff :=
  match r.write with
  | some bs => memWrite r.who .normal r.addr bs fun st _ => k ⟨st, [], []⟩
  | none => memRead r.who .normal r.addr r.len k

/-- The answer of one granule request of an access is kept until the others have come. -/
def granuleKeep (r : HeldReq) (resp : Resp) : Eff := .look fun s => .upd (.heldParts r.tag (s.heldPartsAt r.tag ++ [(r.addr, resp)]))

/-- The answer of a whole access, from those of its granule requests. -/
def joinAll (a n : Nat) (got : List (Nat × Resp)) : Resp :=
  (granules a n).foldl (fun r p => r.join (((got.find? fun g => g.1 == p.1).map fun g => g.2).getD ⟨ST_OK, [], []⟩)) ⟨ST_OK, [], []⟩

/-- An access, of whose granule requests some unit holds one, waits under a number of its own; the others are served at once. -/
def holdOr (who : Agent) (a n : Nat) (write : Option (List Byte)) (k : Eff) : Eff := .look fun s =>
  if s.mapStatus a n = ST_OK ∧ (s.holder a n).isSome then
    let tag := s.tagNext + 1
    .seq (.upd (.tagNext tag)) (Eff.each (granules a n) fun p => .look fun s =>
      let r : HeldReq := ⟨who, tag, p.1, p.2, write.map fun bs => (bs.drop (p.1 - a)).take p.2, s.now, a, n⟩
      match s.holder p.1 p.2 with
      | some b => holdAt b r
      | none => granuleServe r (granuleKeep r))
  else k

/-- Whether the accesses of an engine may go on at once. -/
def State.gatesOpen (s : State) (who : Agent) (as : List (Nat × Nat)) : Bool := as.all fun p =>
  (if s.mapStatus p.1 p.2 = ST_OK then s.holders p.1 p.2 else []).all fun b => (s.grantedAt b).contains who

/-- The first of an engine's granule requests that a unit holds waits there. -/
def gatesWait (who : Agent) : List (Nat × Nat) → Eff
  | [] => .skip
  | (a, n) :: rest => .look fun s =>
    match (if s.mapStatus a n = ST_OK then s.holders a n else []).find? fun b => !(s.grantedAt b).contains who with
    | none => gatesWait who rest
    | some b => if (s.heldAt b).any fun r => r.who == who then .skip else holdAt b ⟨who, 0, a, n, none, s.now, a, n⟩

/-- Accesses that an engine makes itself once nothing holds them: they go on at once, or the first that is held waits at its unit
until a memory window serves it, when the engine's step comes again. -/
def gates (who : Agent) (as : List (Nat × Nat)) (k : Eff) : Eff := .look fun s =>
  if s.gatesOpen who as then k else gatesWait who (as.flatMap fun p => granules p.1 p.2)

/-- The windows that served an engine are used up. -/
def ungate (who : Agent) : Eff := .look fun s =>
  Eff.each (s.granted.filter fun e => e.2.contains who) fun e => .upd (.granted e.1 (e.2.filter fun w => w != who))

/-- One access of an engine. -/
def whenFree (who : Agent) (a n : Nat) (k : Eff) : Eff := gates who [(a, n)] (.seq (ungate who) k)

/-- Write a whole word with the poison marking wherever it lies (R459). -/
def poisonWord (a data : Nat) : Eff := .look fun s =>
  if s.cached a then scWrite .normal (a / 8 * 8) (toLE 8 data) fun _ => .look fun s =>
    (match s.line a with
     | some l => setLine { l with marks := l.marks.set (a % 128 / 8) .poison }
     | none => dramPoison (a / 8 * 8) data)
  else match regionOf a with
  | .sram _ _ => sramPoison (a / 8 * 8) data
  | _ => dramPoison (a / 8 * 8) data

/-- The words of written bytes that hold a bad one get the poison marking; `all`: those written in part too. -/
def poisonBytes (all : Bool) (a : Nat) (bad : List Bool) : Eff := Eff.each (wordsOf a bad.length) fun w =>
  Eff.when ((all || coversWord w a bad.length) && ((List.range 8).any fun j => decide (a ≤ w + j) && bad.getD (w + j - a) false)) (.look fun s => poisonWord w (s.word w))

end Sys2Proof.Machine
end

