-- ==== Sys2Proof/Machine/Gating.lean ====
section
/-! DEFINITION. Clock gating of cells and the IDLE state (19_power_thermal.md R475, R476). -/

namespace Sys2Proof.Machine

/-- R476: cell `c` is clock-gated: every active thread parked, no work, nothing waiting or asleep, no ballast. -/
def State.cellGated (s : State) (c : Nat) : Bool :=
  ((List.range 16).all fun t => (!s.bit (R.SEQ_THR_CFG_active c t) || s.get (R.SEQ_THR_STATUS_state c t) == 0) &&
    s.get (R.SEQ_THR_STATUS_state c t) != 2 && !s.bit (R.PBX_THR_WAIT_sleeping c t)) &&
  (s.passQAt c).isEmpty && (s.vecQAt c).isEmpty && ((List.range 8).all fun k => (s.qeQAt (c * 8 + k)).isEmpty) &&
  (s.kvtQAt c).isEmpty && !s.bit (R.PBX_CFG_ballast c)

/-- R475: the module is IDLE: every non-retired cell clock-gated, no bank unit in RUN, WINDOW or WAIT. -/
def State.allIdle (s : State) : Bool :=
  ((List.range 128).all fun c => s.cellRetired c || s.cellGated c) &&
  (List.range 1024).all fun u => let st := s.get (R.BU_STATUS_state (u / 8) (u % 8)); st == 0 || decide (3 < st)

/-- The power state as PWR_STATE shows it: 0 = RUN, 1 = IDLE, 2 = STANDBY, 3 = SHUTDOWN. -/
def State.powerState (s : State) : Nat :=
  if s.get R.PWR_STATE_state = 0 then (if s.allIdle then 1 else 0) else s.get R.PWR_STATE_state

end Sys2Proof.Machine
end

