-- ==== Sys2Proof/Machine/RegAccess.lean ====
section
/-! DEFINITION. Reads and writes of register pages: access types (00_scope.md R5, R6), staged registers (R8, R9, R34),
page headers and protection (01_organisation.md R29–R33). -/

namespace Sys2Proof.Machine

/-! Block instances (R34) -/

/-- The page that stands for a block instance: the BU_ pages of a cell are one instance, the FEED_ pages are one. -/
def instPage (page : Nat) : Nat :=
  if page < 0x800 then
    (match page % 16 with
     | 10 => page - 1
     | 11 => page - 9
     | 12 => page - 10
     | _ => page)
  else page

/-- Whether a page class has a staged field. -/
def clsStaged (c : Cls) : Bool := (specsOf c).any fun r => r.fields.any fun f => f.acc == .stg

/-- R34: whether the instance of a page has a staged field. -/
def instStaged (page : Nat) : Bool :=
  match clsOf (instPage page) with
  | some (c, _) => clsStaged c
  | none => false

/-- The key of an instance's xx_STAGE_CTRL. -/
def stageKey (page : Nat) : Nat := rk (instPage page) 0xFFF0

/-- commit_at_tide of an instance. -/
def stageAtTide (page : Nat) : Fld := ⟨stageKey page, 0, 1⟩

/-- shadow_pending of an instance. -/
def stagePending (page : Nat) : Fld := ⟨stageKey page, 1, 1⟩

/-- commit_count of an instance. -/
def stageCount (page : Nat) : Fld := ⟨stageKey page, 16, 32⟩

/-! Reading -/

/-- R29, R33: the type code of a page class. -/
def clsType : Cls → Nat
  | .cell => 0x01 | .seq => 0x02 | .feed => 0x03 | .drn => 0x04 | .vec => 0x05 | .que => 0x06 | .kvt => 0x07 | .pbx => 0x08
  | .vlt => 0x09 | .bu => 0x0A | .buprog => 0x0B | .cbLo => 0x0C | .cbHi => 0x0D | .dl => 0x10 | .dlDie => 0x11
  | .tide => 0x20 | .cht => 0x21 | .swl => 0x22 | .evc => 0x23 | .aow => 0x24 | .mon => 0x25 | .crc => 0x26 | .fw => 0x27
  | .lic => 0x28 | .lcy => 0x29 | .thm => 0x2A | .pwr => 0x2B | .svc => 0x2C | .hif => 0x30 | .qp => 0x31 | .scCommon => 0x38
  | .scSlice => 0x39 | .gdCommon => 0x3A | .gdCtrl => 0x3B | .gwlCommon => 0x3C | .gwlLink => 0x3D

/-- R387: the revision of compute die `d`, from its identification word; CD-3 before the die has answered. -/
def State.cdRev (s : State) (d : Nat) : Nat := if s.get (R.DL_DIE_ID_cd_rev d) = 0 then 3 else s.get (R.DL_DIE_ID_cd_rev d)

/-- R387: the revision of the I/O die, which every die-link module reports; IOD-2 before one has been trained. -/
def State.ioRev (s : State) : Nat :=
  (((List.range 48).map fun i => s.get (R.DL_CAPS_io_rev (i / 6) (i % 6))).find? fun v => v != 0).getD 2

/-- R29, R387: the revision of the die a page belongs to; the die pages carry that of their compute die. -/
def State.pageRev (s : State) (page : Nat) : Nat :=
  if page < 0x800 then s.cdRev (page / 256)
  else if page < 0x840 ∧ page % 8 = 6 then s.cdRev ((page - 0x800) / 8)
  else s.ioRev

/-- A mask of `w` ones from bit `lo`. -/
def maskOf (lo w : Nat) : Nat := (2 ^ w - 1) * 2 ^ lo

/-- The bits of a register that reads return: those of its fields that are not write-only. -/
def readMask : List FieldSpec → Nat
  | [] => 0
  | f :: rest => Nat.lor (if f.acc == .wo then 0 else maskOf f.lo f.w) (readMask rest)

/-- The bits that a read clears. -/
def rcMask : List FieldSpec → Nat
  | [] => 0
  | f :: rest => Nat.lor (if f.acc == .rc then maskOf f.lo f.w else 0) (rcMask rest)

/-- 16 counts of 16 bits, class 4j + i at bits [16i + 15 : 16i] (SC_KEEP_USED). -/
def State.keepUsed (s : State) (slice j : Nat) : Nat :=
  s.stickyCount slice (4 * j) + s.stickyCount slice (4 * j + 1) * 2 ^ 16 + s.stickyCount slice (4 * j + 2) * 2 ^ 32 +
    s.stickyCount slice (4 * j + 3) * 2 ^ 48

/-- EVC_SUMMARY: bit j = 1 when the cores' pending register j is not zero. -/
def State.evcSummary (s : State) : Nat :=
  (List.range 32).foldl (fun n j => if s.reg (R.EVC_PEND_CORE j) = 0 then n else n + 2 ^ j) 0

/-- R421: record `i` of the dispatch log: one that has been overwritten is returned with kind 0xFF. -/
def State.dispatchRecord (s : State) (i : Nat) : List Byte :=
  if i + 1024 < s.get R.SVC_DISPATCH_HEAD_next + 1 then toLE 4 i ++ [0, 0xFF] ++ List.replicate 26 0
  else if s.get R.SVC_DISPATCH_HEAD_next ≤ i then List.replicate 32 0
  else s.dispatchLogAt (i % 1024)

/-- R491: the frequency of the cell clock in MHz. -/
def State.ckMHz (s : State) : Nat :=
  match s.get R.PWR_THROTTLE_level with
  | 0 => 1500 | 1 => 1200 | 2 => 1000 | _ => 750

/-- The ck that pass in `ns` nanoseconds. -/
def State.ckIn (s : State) (ns : Nat) : Nat := ns * s.ckMHz / 1000

/-! The counters of the array (R113, R304) -/

/-- The passes of a cell that hold a slot of the pass queue, and those that are in the array (R99). -/
def State.passesIn (s : State) (c : Nat) (array : Bool) : Nat := ((s.passQAt c).filter fun p => (p.phase == 3) == array).length

/-- R113: count the ck since the latest count: idle or flush when no pass can start; while passes wait, how many of the ck were
freezes of each kind, and how many fed, is free. R304: with an empty queue a ballast cell runs ballast rows. -/
def feedCount (c : Nat) : Eff := .look fun s =>
  let d := s.ckIn (s.now - s.feedAtAt c)
  Eff.when (d != 0) (.all [
    .upd (.feedAt c s.now),
    Eff.when (s.bit (R.FEED_CTRL_enable c) && !s.cellGated c) (
      if s.passesIn c false = 0 || s.get (R.FEED_STATUS_state c) = 3 then .seq
        (if s.passesIn c true = 0 then addSat (R.FEED_CK_IDLE_count c) d
         else withFree fun w => .seq (addSat (R.FEED_CK_FLUSH_count c) (w.toNat % (d + 1)))
           (addSat (R.FEED_CK_IDLE_count c) (d - w.toNat % (d + 1))))
        (Eff.when (s.passesIn c false == 0 && s.bit (R.PBX_CFG_ballast c)) (addSat (R.PBX_BALLAST_CK_count c) d))
      else withFree fun w => .all [
        addSat (R.FEED_FRZ_WGT_count c) (w.toNat % (d + 1)),
        addSat (R.FEED_FRZ_ACT_count c) (w.toNat / 2 ^ 32 % (d - w.toNat % (d + 1) + 1)),
        addSat (R.DRN_FRZ_FULL_count c)
          (w.toNat / 2 ^ 48 % (d - w.toNat % (d + 1) - w.toNat / 2 ^ 32 % (d - w.toNat % (d + 1) + 1) + 1))])])

/-- A read of a page of the feeder, the drain or the postboxes sees the counters of its time. -/
def countRead (page : Nat) : Eff :=
  Eff.when (decide (page < 0x800) && (page % 16 == 2 || page % 16 == 3 || page % 16 == 7)) (feedCount (page / 16))

/-- The value of a register whose fields the block keeps elsewhere; `none` when it is kept as a register. -/
def State.derived (s : State) (c : Cls) (n : Nat) (off : Nat) : Option Nat :=
  match c with
  | .tide => if off = 0x38 then some s.tideTime else none
  | .evc => if off = 0x4310 then some s.evcSummary else none
  | .scSlice => if off = 0x80 then some (s.keepUsed n 0) else if off = 0x88 then some (s.keepUsed n 1) else none
  | .hif =>
    if off = 0 && s.linkDownAt n != 0 then
      some ((s.reg (R.HIF_LINK n)).toNat + min (2 ^ 32 - 1) ((s.now + 1 - s.linkDownAt n) / 1000000) * 2 ^ 16)
    else none
  | .svc => if 0x8010 ≤ off ∧ off < 0x8030 then some (leAt (s.dispatchRecord (s.get R.SVC_DISPATCH_SEL_index)) (off - 0x8010) 8) else none
  | .dl => if off = 0x10 ∧ s.standby then some (Nat.land (s.reg (rk (0x800 + n / 6 * 8 + n % 6) 0x10)).toNat 0x0FFF00FF) else none
  | .dlDie => if off = 0 ∧ s.standby then some ((s.reg (rk (0x800 + n * 8 + 6) 0)).toNat / 16 * 16) else none
  | .que =>
    let r := (off - 0x8018) / 0x20
    if 0x8018 ≤ off ∧ off < 0x8418 ∧ off % 0x20 = 0x18 ∧ s.stallSinceAt (n * 32 + r) ≠ 0 then
      some (min (2 ^ 48 - 1) (s.get (R.QUE_ROUTE_OUT_STALL_no_credit_ck n r) + s.ckIn (s.now + 1 - s.stallSinceAt (n * 32 + r))))
    else none
  | .pwr => if off = 0 then some ((s.reg R.PWR_STATE).toNat / 4 * 4 + s.powerState) else none
  | .crc => if off % 0x100 = 0x20 then some (s.crcResult (off / 0x100)) else none
  | .bu =>
    if off % 0x1000 = 0x38 then
      let v := (s.reg (R.BU_YIELD n (off / 0x1000))).toNat
      let u := n * 8 + off / 0x1000
      some (v / 2 ^ 14 * 2 ^ 14 + (if s.get (R.BU_STATUS_state n (off / 0x1000)) = 1 then min 16383 (s.now - s.yieldAtAt u) else 0))
    else none
  | _ => none

/-- The 64-bit value that a read of a page at an 8-aligned offset returns (R5, R31, R33, R34). DESIGN CHOICE: an offset of the
header that holds no register reads 0, as R31 says of the offsets below it (log entry 208). -/
def State.regView (s : State) (page off : Nat) : Nat :=
  match clsOf page with
  | none => 2 ^ 64 - 1
  | some (c, n) =>
    if off = 0xFF00 then clsType c + n * 2 ^ 8 + s.pageRev page * 2 ^ 24
    else if off = 0xFFF0 then (if instStaged page then (s.reg (stageKey page)).toNat else 0)
    else match s.derived c n off with
      | some v => v
      | none =>
        match findSpec (specsOf c) off with
        | some r => Nat.land (s.reg (rk page off)).toNat (readMask r.fields)
        | none => 0

/-- R66: a read that clears the count of a stall that stands counts it from then on. -/
def stallRead (page off half : Nat) : Eff := .look fun s =>
  let k := page / 16 * 32 + (off - 0x8018) / 0x20
  Eff.when (decide (page < 0x800 ∧ page % 16 = 5 ∧ 0x8018 ≤ off ∧ off < 0x8418 ∧ off % 0x20 = 0x18 ∧ half ≠ 2) && s.stallSinceAt k != 0)
    (.upd (.stallSince k (s.now + 1)))

/-- R5: clear the RC fields that a read of the low half, the high half or the whole register takes. -/
def clearRc (page off half : Nat) : Eff :=
  match specAt (rk page off) with
  | some (_, _, r) =>
    let part := if half = 0 then 0xFFFFFFFFFFFFFFFF else if half = 1 then 0xFFFFFFFF else 0xFFFFFFFF00000000
    let m := Nat.land (rcMask r.fields) part
    if m = 0 then .skip
    else .look fun s => putReg (rk page off)
      (BitVec.ofNat 64 (Nat.xor (s.reg (rk page off)).toNat (Nat.land (s.reg (rk page off)).toNat m)))
  | none => .skip

/-- R32: an access of 8 bytes at an 8-aligned offset or 4 bytes at a 4-aligned offset. -/
def regAligned (off n : Nat) : Bool := (n == 8 && off % 8 == 0) || (n == 4 && off % 4 == 0)

/-- R28, R32: the status of a register access before the register is looked at. -/
def State.regStatus (s : State) (page off n : Nat) : Nat :=
  let st := s.mapStatus (0x4000000000 + (0x10000 * page + off)) n
  if st ≠ ST_OK then st else if regAligned off n then ST_OK else ST_ALIGN

/-- Which half an access reads or writes: 0 = both, 1 = low, 2 = high. -/
def halfOf (off n : Nat) : Nat := if n = 8 then 0 else if off % 8 = 0 then 1 else 2

/-- The device address of a register. -/
def regAddr (page off : Nat) : Nat := 0x4000000000 + (0x10000 * page + off)

/-- R77: a page of a codebook RAM. -/
def isCodebook (page : Nat) : Bool := decide (page < 0x800) && (page % 16 == 11 || page % 16 == 12)

/-- R5, R28, R32: read `n` bytes of a register page; a word of the codebook RAM comes through its SECDED (R168, R181). -/
def regRead (page off n : Nat) (k : Resp → Eff) : Eff := .seq (countRead page) (.look fun s =>
  let st := s.regStatus page off n
  let cut := fun st v => (⟨st, (toLE 8 v).drop (off % 8) |>.take n, List.replicate n (st != ST_OK)⟩ : Resp)
  if st ≠ ST_OK then k (onesResp st n)
  else
    let v := s.regView page (off / 8 * 8)
    if isCodebook page then eccWord (page / 16) 25 (regAddr page off / 8) v fun st v => k (cut st v)
    else .all [clearRc page (off / 8 * 8) (halfOf off n), stallRead page (off / 8 * 8) (halfOf off n), k (cut ST_OK v)])

/-! Writing -/

/-- GWL_NODE and GWL_PEER, which only the control cores and the management core may write (R416). -/
def peerReg (page off : Nat) : Bool :=
  decide (page = 0x10A0) && (off / 8 * 8 == 0 || decide (0x100 ≤ off ∧ off < 0x500))

/-- R33 and the pages' chapters: whether an agent may write a register. -/
def mayWrite (who : Agent) (page off : Nat) : Bool :=
  match who with
  | .core _ | .mgmt => true
  | .host p =>
    !(decide (0x1000 ≤ page ∧ page ≤ 0x1002) || decide (0x1007 ≤ page ∧ page ≤ 0x100C)) &&
    !(decide (page = 0x1010 + (1 - p.val)) || decide (page = 0x1012 + (1 - p.val))) &&
    !(decide (page = 0x1003) && !(off / 8 * 8 == 0x4300 || off / 8 * 8 == 0x4308)) &&
    !(decide (page = 0x1005) && (off % 0x100 / 8 == 0 || off % 0x100 / 8 == 1)) &&
    !(decide (0x800 ≤ page ∧ page < 0x840) &&
      (off / 8 * 8 == 0 || off / 8 * 8 == 0x48 || (page % 8 == 6 && decide (0x40 ≤ off ∧ off < 0x58)))) &&
    !peerReg page off
  | _ => !(decide (0x1000 ≤ page ∧ page ≤ 0x1002) || decide (0x1007 ≤ page ∧ page ≤ 0x100C)) && !peerReg page off

/-- R6: whether the field's Meaning cell lists an encoding. -/
def encOk (f : FieldSpec) (v : Nat) : Bool := f.ok.isEmpty || f.ok.any fun r => decide (r.1 ≤ v ∧ v ≤ r.2)

/-- R5, R6: the register's bits with the fields of an access type replaced by those of `new`, but for a field whose new
encoding is not listed. -/
def mergeFields (fs : List FieldSpec) (acc : Acc) (old new : Nat) : Nat :=
  match fs with
  | [] => old
  | f :: rest =>
    let v := new / 2 ^ f.lo % 2 ^ f.w
    mergeFields rest acc (if f.acc == acc && encOk f v then putBits old f.lo f.w v else old) new

/-- R32: the register's bits with the written half replaced. -/
def mergeHalf (old v half : Nat) : Nat :=
  if half = 0 then v % 2 ^ 64
  else if half = 1 then old / 2 ^ 32 * 2 ^ 32 + v % 2 ^ 32
  else v % 2 ^ 32 * 2 ^ 32 + old % 2 ^ 32

/-- Registers that accept a plain write only in some states: R181 (a thread's registers and pc while it is HALTED or
TRAPPED; s0 never), R232 (G registers in IDLE or FAULTED; G0 never), R268 (KVT free-list state from a control core while
the KVT is disabled), R353 (ring bases and sizes while the queue pair is disabled). -/
def State.accepts (s : State) (who : Agent) (c : Cls) (n off : Nat) : Bool :=
  match c with
  | .seq =>
    if 0x1000 ≤ off ∧ off < 0x2000 then
      let t := (off - 0x1000) / 0x100
      let st := s.get (R.SEQ_THR_STATUS_state n t)
      (st == 3 || st == 4) && off % 0x100 / 8 != 0
    else if off < 0x400 ∧ off % 0x40 / 8 = 3 then
      let st := s.get (R.SEQ_THR_STATUS_state n (off / 0x40))
      st == 3 || st == 4
    else true
  | .bu =>
    if 0x80 ≤ off % 0x1000 ∧ off % 0x1000 < 0x200 then
      let st := s.get (R.BU_STATUS_state n (off / 0x1000))
      (st == 0 || st == 4) && off % 0x1000 / 8 != 16
    else true
  | .kvt =>
    if 0x800 ≤ off ∧ off < 0x920 ∧ (off - 0x800) % 0x20 / 8 = 1 then
      (match who with
       | .core _ => !s.bit (R.KVT_CTRL_enable n)
       | _ => false)
    else true
  | .qp => if off % 0x40 / 8 < 2 then !s.bit (R.QUE_QP_CFG_enable n (off / 0x40)) else true
  | .hif => true
  | _ => true

/-- R8, R32: a write of staged fields goes to the shadow; without a pending write the shadow is the live value. DESIGN CHOICE: a
4-byte write so takes the other half of the shadow from the live value of its time, and a later copy writes that half back, over a
chart applied in between (log entry 209). -/
def writeShadow (page off v half : Nat) (fs : List FieldSpec) : Eff := .look fun s =>
  let key := rk page off
  let old := (match s.shadowsAt key with | some w => w | none => s.reg key).toNat
  .all [.upd (.shadows key (some (BitVec.ofNat 64 (mergeFields fs .stg old (mergeHalf old v half))))),
    put (stagePending page) 1]

/-- QUE_QP_CFG: the ring sizes keep their value while the pair is enabled (R353); HIF_WIN: bits [6:0] must be 0; a write of GWL_PEER
makes the module reachable again (R406). -/
def State.fixWrite (s : State) (c : Cls) (n off old new : Nat) : Nat :=
  match c with
  | .qp =>
    if off % 0x40 / 8 = 2 && s.bit (R.QUE_QP_CFG_enable n (off / 0x40)) then
      putBits (putBits new 1 4 (old / 2 % 16)) 5 4 (old / 32 % 16)
    else new
  | .hif => if 0x40 ≤ off ∧ off < 0x60 ∧ new % 128 ≠ 0 then old else new
  | .gwlCommon => if 0x100 ≤ off ∧ off < 0x500 then putBits new 25 1 1 else new
  | _ => new

/-- REGISTER_WRITE (R5, R6, R32–R34) of a page at an 8-aligned offset: `v` holds the written bytes, `half` says which. -/
def regWritePlain (who : Agent) (page off v half : Nat) : Eff := .look fun s =>
  match clsOf page with
  | none => .skip
  | some (c, n) =>
    if off = 0xFFF0 then
      Eff.when (instStaged page && half != 2) (put (stageAtTide page) (v % 2))
    else match findSpec (specsOf c) off with
      | none => .skip
      | some r =>
        if !s.accepts who c n off then .skip
        else
          let key := rk page off
          let old := (s.reg key).toNat
          let new := s.fixWrite c n off old (mergeFields r.fields .rw old (mergeHalf old v half))
          .seq (if new = old then .skip else putReg key (BitVec.ofNat 64 new))
            (Eff.when (r.fields.any fun f => f.acc == .stg) (writeShadow page off v half r.fields))

/-- R350: the BAR0 offset of port `p` at which a register lies. -/
def State.bar0 (s : State) (p page off : Nat) : Nat :=
  if page = 0x1010 + p then off
  else if page = 0x1012 + p then 0x10000 + off
  else if 0x1000 ≤ page ∧ page < 0x1100 then 0x01000000 + (page - 0x1000) * 0x10000 + off
  else match (List.range 4).find? fun w => decide (s.get (R.HIF_WIN_base_page p w) ≤ page) &&
      decide (page < s.get (R.HIF_WIN_base_page p w) + 128) with
    | some w => 0x02000000 + w * 0x800000 + (page - s.get (R.HIF_WIN_base_page p w)) * 0x10000 + off
    | none => off

/-! Registers whose write is a command of its own -/

/-- What a write does: the status of its response and its effect. -/
abbrev Act := State → Nat × Eff

/-- R28, R33: a write that the page does not accept. -/
def refuseWrite (who : Agent) (page off st : Nat) : Eff :=
  match who with
  | .host p => .look fun s => hostFault p (s.bar0 p page off) st true false false
  | _ => .skip

/-- R28, R33: a write of a register under the limits of its page. -/
def guardAct (who : Agent) (page off : Nat) (a : Act) : Act := fun s =>
  let st := s.mapStatus (regAddr page off) 8
  if st ≠ ST_OK then (st, refuseWrite who page off st)
  else if !mayWrite who page off then (ST_PAGE_PROTECTED, refuseWrite who page off ST_PAGE_PROTECTED)
  else a s

/-- R168, R457: a write of a codebook-RAM word: of the whole word it makes the check bits valid again; a 4-byte write reads the
word first, and writes nothing when the word is uncorrectable or poisoned. -/
def actCodebookWord (who : Agent) (page off half : Nat) (a : Act) : Act := guardAct who page off fun s =>
  let key := regAddr page off / 8
  let fix := eccWord (page / 16) 25 key 0 fun _ _ => .skip
  if half = 0 then ((a s).1, .seq (.upd (.marks key .good)) (a s).2)
  else match s.marksAt key with
    | .good => a s
    | .single => ((a s).1, .seq fix (a s).2)
    | .bad => (ST_UNCORRECTABLE, fix)
    | .poison => (ST_POISON, .skip)

/-- A write by an agent whose response the block sends out: a host write is posted, another agent gets the status. -/
def runAct (who : Agent) (a : Act) : Eff := .look fun s =>
  match who with
  | .host _ => (a s).2
  | _ => .seq (a s).2 (send (.reply (a s).1 []))

end Sys2Proof.Machine
end

