-- ==== Sys2Proof/Machine/LinkTx.lean ====
section
/-! DEFINITION. Sending Glewawin packets (15_links.md R399, R403–R409): header and CRC, sequence numbers, spray, the
packets kept until they are acknowledged, and what a transfer queue reads and sends (R413). -/

namespace Sys2Proof.Machine

/-- One bit of the IEEE 802.3 CRC-32 with reflected input. -/
def crc32Bits : Nat → Nat → Nat
  | 0, c => c
  | n + 1, c => crc32Bits n (if c % 2 = 1 then Nat.xor (c / 2) 0xEDB88320 else c / 2)

/-- R403: CRC-32 of bytes: initial value all ones, reflected input and output, final inversion. -/
def crc32 (bs : List Byte) : Nat :=
  Nat.xor (bs.foldl (fun c b => crc32Bits 8 (Nat.xor c b.toNat)) 0xFFFFFFFF) 0xFFFFFFFF

/-- Link `l` is in the spray (R408): UP and enabled. -/
def State.gwUp (s : State) (l : Nat) : Bool := s.regBit R.GWL_UP l

/-- R408: the link that smooth weighted round robin takes next, out of the up links but `avoid`: the largest current
weight after each link has gained its own, the lowest number among equals. -/
def State.sprayPick (s : State) (avoid : Option Nat) : Option Nat :=
  ((List.range 48).filter fun l => s.gwUp l && avoid != some l).foldl (fun best l =>
    match best with
    | none => some l
    | some b =>
      if s.gwSprayAt b + s.get (R.GWL_LINK_STATUS_weight b) < s.gwSprayAt l + s.get (R.GWL_LINK_STATUS_weight l)
      then some l else best) none

/-- R408: the current weights after link `l` was taken. -/
def sprayTake (l : Nat) : Eff := .look fun s =>
  let up := (List.range 48).filter fun i => s.gwUp i
  let total := up.foldl (fun n i => n + s.get (R.GWL_LINK_STATUS_weight i)) 0
  Eff.each up fun i =>
    .upd (.gwSpray i (s.gwSprayAt i + s.get (R.GWL_LINK_STATUS_weight i) - (if i = l then (total : Int) else 0)))

/-- R403: the bytes of a packet. -/
def State.pktBytes (s : State) (k : GwPkt) : List Byte :=
  let body := toLE 1 k.kind ++ toLE 1 k.vc ++ toLE 2 k.payload.length ++ toLE 3 (s.get (R.GWL_PEER_fabric k.dest)) ++
    toLE 1 0 ++ toLE 3 (s.get R.GWL_NODE_fabric) ++ toLE 1 (s.get R.GWL_GROUP_member) ++
    toLE 2 (s.get R.GWL_GROUP_group_tag) ++ toLE 2 0 ++ toLE 4 k.seq ++ toLE 8 k.args ++ toLE 4 0 ++ k.payload
  body ++ toLE 4 (crc32 body)

/-- R405: the newest packets that a hop replay buffer of 256 KiB holds. -/
def hopKeep : List (Nat × List Byte) → List (Nat × List Byte)
  | [] => []
  | x :: rest => if ((x :: rest).map fun y => y.2.length).sum ≤ 262144 then x :: rest else hopKeep rest

/-- Bytes of a packet leave on a link. -/
def gwLeave (l : Nat) (bs : List Byte) : Eff := .seq (addWrap (R.GWL_LINK_TX_bytes l) bs.length) (send (.packet l bs))

/-- Put a packet on a link; the hop replay buffer keeps it (R405). -/
def gwEmit (l : Nat) (k : GwPkt) : Eff := .look fun s => .seq
  (.upd (.hopBuf l (hopKeep (s.hopBufAt l ++ [(k.vc, s.pktBytes k)])))) (gwLeave l (s.pktBytes k))

/-- R405: the packets from the first of the newest `n` on are sent again in their order. -/
def hopReplay (l n : Nat) : Eff := .look fun s => .seq (addSat (R.GWL_LINK_ERR_hop_replays l) 1)
  (Eff.each ((s.hopBufAt l).drop ((s.hopBufAt l).length - n)) fun x => gwLeave l x.2)

/-- R406, R409: whether a packet for module `k` can be sent: in the group, not this module, a valid entry, reachable, and
some link up. -/
def State.gwReach (s : State) (k : Nat) : Bool :=
  decide (k < s.get R.GWL_GROUP_group_size) && k != s.get R.GWL_GROUP_member && s.bit (R.GWL_PEER_valid k) &&
    s.bit (R.GWL_PEER_reachable k) && (s.sprayPick none).isSome

/-- R404–R409: send a packet of an acknowledged type to module `k` on the next link of the spray and keep it; a packet that
cannot be sent runs `lost`. -/
def gwSend (kind vc k args : Nat) (payload : List Byte) (cell queue : Option Nat) (lost : Eff) : Eff := .look fun s =>
  match s.gwReach k, s.sprayPick none with
  | true, some l =>
    let p : GwPkt := ⟨kind, vc, k, s.gwSeqAt (k * 4 + vc), args, payload, l, s.now, 0, cell, queue, l, s.now, false⟩
    .all [
      .upd (.gwSeq (k * 4 + vc) ((s.gwSeqAt (k * 4 + vc) + 1) % 2 ^ 32)),
      .upd (.gwOut (s.gwOut ++ [p])),
      sprayTake l,
      gwEmit l p]
  | _, _ => lost

/-- Send a packet that is not acknowledged (ACK, SYNC_REQ, SYNC_RSP) on a named link. -/
def gwSendOn (l kind vc k args : Nat) (payload : List Byte) : Eff := .look fun s =>
  .seq (.upd (.gwSeq (k * 4 + vc) ((s.gwSeqAt (k * 4 + vc) + 1) % 2 ^ 32)))
    (gwEmit l ⟨kind, vc, k, s.gwSeqAt (k * 4 + vc), args, payload, l, s.now, 0, none, none, l, s.now, false⟩)

/-- The lowest-numbered up link (R412). -/
def State.syncLink (s : State) : Option Nat := (List.range 48).find? fun l => s.gwUp l

/-! Acknowledgements (R404, R406) -/

/-- Send an ACK with a status on the next link of the spray. -/
def gwAck (m seq vc st : Nat) : Eff := .look fun s =>
  match s.sprayPick none with
  | some l => .seq (sprayTake l) (gwSendOn l 0x02 1 m (seq + vc * 2 ^ 32 + st * 2 ^ 40) [])
  | none => .skip

/-- The key of a refusal. -/
def rxKey (m vc seq : Nat) : Nat := 2 ^ 32 * (m * 4 + vc) + seq

/-- A delivered packet is acknowledged with its status, which is kept for its duplicates. -/
def rxAnswer (m vc : Nat) (p : RxPkt) (st : Nat) : Eff := .seq (.upd (.gwRefused (rxKey m vc p.seq) st)) (gwAck m p.seq vc st)

/-! What a transfer queue reads and sends (R413) -/

/-- Fields of a descriptor. -/
def xqDst (d : List Byte) : Nat := leAt d 2 2
def xqTag (d : List Byte) : Nat := leAt d 4 2
def xqDone (d : List Byte) : Nat := leAt d 6 2
def xqLen (d : List Byte) : Nat := leAt d 24 8

/-- Bytes of a range are 0. -/
def zeroAt (bs : List Byte) (i n : Nat) : Bool := ((bs.drop i).take n).all fun b => b == 0

/-- A descriptor's fields are in their ranges. -/
def xqDescOk (d : List Byte) : Bool :=
  byteAt d 0 == 1 && decide (byteAt d 1 < 4) && decide (xqDst d < 128) && zeroAt d 32 32 && decide (1 ≤ xqLen d) &&
    decide (xqLen d ≤ 2 ^ 32) && decide (leAt d 8 8 < 2 ^ 48) && decide (leAt d 16 8 < 2 ^ 48) &&
    (byteAt d 1 % 2 == 0 || decide (xqTag d < 6144)) && (byteAt d 1 / 2 % 2 == 0 || decide (xqDone d < 6144))

/-- Descriptors in the ring of queue `x`. -/
def State.xqSize (s : State) (x : Nat) : Nat := 2 ^ s.get (R.GWL_XQ_BASE_size_log2 x)

/-- The address of a slot. -/
def State.xqSlot (s : State) (x i : Nat) : Nat := s.get (R.GWL_XQ_BASE_base x) * 64 + i % s.xqSize x * 64

/-- How many descriptors are queued. -/
def State.xqCount (s : State) (x : Nat) : Nat :=
  (s.get (R.GWL_XQ_CTRL_tail x) % s.xqSize x + s.xqSize x - s.get (R.GWL_XQ_STATUS_head x) % s.xqSize x) % s.xqSize x

/-- A transfer queue as an agent. -/
def xqAgent (x : Nat) : Agent := .remote (Fin.ofNat 48 x)

/-- Packets of queue `x` under way leave it: those without an ACK stay with the link layer. -/
def xqDetach (x : Nat) : Eff := .look fun s => .seq (unhold fun r => r.who == xqAgent x && r.write.isNone)
  (.upd (.gwOut ((s.gwOut.filter fun p => !(p.queue == some x && p.acked)).map fun p => if p.queue = some x then { p with queue := none } else p)))

/-- The queue halts with the failing descriptor at its head. -/
def xqHalt (x st : Nat) : Eff := .all [put (R.GWL_XQ_STATUS_state x) 3, put (R.GWL_XQ_STATUS_halt_cause x) st, xqDetach x]

/-- The bytes of the packet at an offset have been read: it is sent, and the queue goes on while it runs. -/
def xqGot (x : Nat) (d : List Byte) (o : Nat) (r : Resp) (k : Eff) : Eff :=
  if r.status ≠ ST_OK then xqHalt x r.status
  else if r.bad.any fun b => b then xqHalt x ST_POISON
  else .seq (gwSend 0x01 3 (xqDst d) (leAt d 16 8 + o + (if byteAt d 1 % 2 = 1 then xqTag d else 0xFFFF) * 2 ^ 48) r.data none (some x)
      (xqHalt x ST_REMOTE_UNREACHABLE))
    (.look fun s => Eff.when (s.get (R.GWL_XQ_STATUS_state x) == 1) k)

/-- Send the packets of a descriptor that start at the offsets of a list; a read that is held goes on in its memory window. -/
def xqSend (x : Nat) (d : List Byte) : List Nat → Eff
  | [] => .skip
  | o :: rest =>
    let a := leAt d 8 8 + o
    let n := min 2048 (xqLen d - o)
    holdOr (xqAgent x) a n none (memReadAs (9, 0xFF) .normal a n fun r => xqGot x d o r (xqSend x d rest))

/-- The offsets of the packets from a byte on. -/
def xqOffsets (d : List Byte) (pos : Nat) : List Nat := (List.range ((xqLen d - pos + 2047) / 2048)).map fun i => pos + 2048 * i

end Sys2Proof.Machine
end

