-- ==== Sys2Proof/Machine/Sync.lean ====
section
/-! DEFINITION. Postboxes and seawalls (11_synchronisation.md R293–R315). Commands: POSTBOX_SIGNAL, LANDING_NOTICE,
PBX_SIGNAL, PBX_RESET, SEAWALL_ARRIVAL, SWL_ARRIVE, SEAWALL_RELEASE. -/

namespace Sys2Proof.Machine

/-! Threads -/

/-- The states of a sequencer thread (SEQ_THR_STATUS). -/
def THR_PARKED : Nat := 0
def THR_RUN : Nat := 1
def THR_WAIT : Nat := 2
def THR_HALTED : Nat := 3
def THR_TRAPPED : Nat := 4
def THR_KILLED : Nat := 5

/-- The state of thread `t` of cell `c`. -/
def State.thr (s : State) (c t : Nat) : Nat := s.get (R.SEQ_THR_STATUS_state c t)

/-- Set the state of a thread; a cell's trap source follows its TRAPPED threads. -/
def putThr (c t st : Nat) : Eff := .all [
  put (R.SEQ_THR_STATUS_state c t) st,
  .look fun s => evLevel (c * 8) ((List.range 16).any fun i => s.thr c i == THR_TRAPPED)]

/-- The thread goes on to the next instruction. -/
def nextPc (c t : Nat) : Eff := addWrap (R.SEQ_THR_PC_pc c t) 8

/-- A thread's wait or sleep ends: its ck are counted and its thresholds are no longer shown. -/
def waitOver (c t : Nat) : Eff := .look fun s => .all [
  addSat (R.PBX_WAIT_CK_count c) (s.ckIn (s.now - s.waitSinceAt (c * 16 + t))),
  .upd (.waitSince (c * 16 + t) 0),
  putReg (R.PBX_THR_WAIT c t) 0]

/-- A waiting or sleeping thread goes on after its WAIT or ARRIVE. -/
def wakeThread (c t : Nat) : Eff := .all [waitOver c t, putThr c t THR_RUN, nextPc c t]

/-! Source codes (R297) -/

def srcThread (c t : Nat) : Nat := c * 16 + t
def srcDrain (c : Nat) : Nat := 2 ^ 13 + c
def srcEngine (c k : Nat) : Nat := 2 * 2 ^ 13 + c * 8 + k
def srcUnit (b : Nat) : Nat := 3 * 2 ^ 13 + b
def srcKvt (c : Nat) : Nat := 4 * 2 ^ 13 + c
def srcLink (l : Nat) : Nat := 6 * 2 ^ 13 + l
def srcWall (w : Nat) : Nat := 7 * 2 ^ 13 + w

/-- The code of an agent that writes a register. -/
def srcWriter : Agent → Nat
  | .core k => 5 * 2 ^ 13 + k
  | .host p => 5 * 2 ^ 13 + 8 + p
  | .mgmt => 5 * 2 ^ 13 + 10
  | .thread c t => srcThread c t
  | .engine c k => srcEngine c k
  | .bankUnit b => srcUnit b
  | .kvt c => srcKvt c
  | .feeder c | .drain c | .vector c | .scrub c => srcDrain c
  | .remote l => srcLink l

/-! Postboxes -/

/-- Thread `t` leaves the waiters of a postbox (R299, R314). -/
def leavePostbox (c n t : Nat) : Eff := .look fun s => .all [
  .upd (.waiters (c * 48 + n) ((s.waitersAt (c * 48 + n)).filter fun i => i != t)),
  putBit ⟨R.PBX_VALUE c n, 32 + t, 1⟩ false]

/-- R298: whether thresholds are met at a postbox. -/
def State.pbxMet (s : State) (c n v b : Nat) : Bool :=
  decide (v ≤ s.get (R.PBX_VALUE_value c n)) && decide (b ≤ s.get (R.PBX_LANDED_landed c n))

/-- R298: a met wait consumes its thresholds in one step. -/
def pbxConsume (c n v b : Nat) : Eff := .look fun s => .all [
  put (R.PBX_VALUE_value c n) (s.get (R.PBX_VALUE_value c n) - v),
  put (R.PBX_LANDED_landed c n) (s.get (R.PBX_LANDED_landed c n) - b)]

/-- R299: release one waiter if its wait is met by what is left. -/
def pbxTry (c n t : Nat) : Eff := .look fun s =>
  let v := s.get (R.PBX_THR_WAIT_v c t)
  let b := s.get (R.PBX_THR_WAIT_b c t)
  Eff.when (s.pbxMet c n v b) (.all [
    pbxConsume c n v b,
    leavePostbox c n t,
    monSample 0x0D c ((s.now : Int) - s.waitSinceAt (c * 16 + t)),
    wakeThread c t])

/-- R299: after a change of the postbox its waiters are evaluated, oldest WAIT first. -/
def pbxEval (c n : Nat) : Eff := .look fun s => Eff.each (s.waitersAt (c * 48 + n)) fun t => pbxTry c n t

/-- R294: a saturation counts and raises the postbox-overflow event. -/
def pbxOverflow (c : Nat) (flag : Fld) : Eff := .all [putBit flag true, addSat (R.PBX_COUNTS_overflows c) 1, evFire (c * 8 + 7)]

/-- R294–R297: a signal of `add` from a source reaches local postbox `n`; a signal of 0 changes nothing. -/
def pbxAdd (c n add src : Nat) : Eff :=
  if add = 0 then .skip
  else .look fun s =>
    let v := s.get (R.PBX_VALUE_value c n) + add
    .all [
      put (R.PBX_VALUE_value c n) (min v 0xFFFF),
      Eff.when (decide (0xFFFF < v)) (pbxOverflow c (R.PBX_VALUE_ovf c n)),
      put (R.PBX_LAST_last_src c n) src,
      put (R.PBX_LAST_last_edge c n) (s.get R.TIDE_EDGE_NUM_edge),
      pbxEval c n]

/-- R294, R301: a landing notice of `bytes` reaches local postbox `n`. -/
def pbxLand (c n bytes : Nat) : Eff := .look fun s =>
  let v := s.get (R.PBX_LANDED_landed c n) + bytes
  .all [
    put (R.PBX_LANDED_landed c n) (min v 0xFFFFFFFF),
    Eff.when (decide (0xFFFFFFFF < v)) (pbxOverflow c (R.PBX_VALUE_land_ovf c n)),
    pbxEval c n]

/-- R314: a signal or notice that cell `c` sent is discarded. -/
def pbxDropped (c st : Nat) : Eff := .all [
  addSat (R.PBX_COUNTS_signals_dropped c) 1, put (R.PBX_COUNTS_last_drop_status c) st]

/-- R314: the status under which a signal to a global postbox is discarded, ST_OK when it is not. -/
def State.pbxStatus (s : State) (g : Nat) : Nat :=
  if 6143 < g then ST_ADDR_UNMAPPED
  else if s.diesOff then ST_DIE_STANDBY
  else if s.cellRetired (g / 48) then ST_UNIT_RETIRED
  else ST_OK

/-- A signal sets out (R296). -/
def sendSignal (src cell pbx add : Nat) : Eff := .look fun s => .upd (.sigQ (s.sigQ ++ [⟨src, cell, pbx, add, s.now⟩]))

/-- R301: the cell whose general SRAM bank or vault controller performs a write at an address; none for the shared cache. -/
def State.landEnd (s : State) (a : Nat) : Option Nat :=
  match regionOf a with
  | .vault c => if s.shared a then none else some c
  | .sram c _ => some c
  | _ => none

/-- A landing notice sets out from the endpoint that performed a write at `a` (R301). -/
def sendLanding (a pbx bytes : Nat) : Eff := .look fun s => .upd (.landQ (s.landQ ++ [⟨s.landEnd a, pbx, bytes, s.now⟩]))

/-- Postbox block's clearing of a postbox at reset, STANDBY exit (R293) or chart apply (R312). -/
def pbxClear (c n : Nat) : Eff := .all [
  putReg (R.PBX_VALUE c n) 0, putReg (R.PBX_LANDED c n) 0, putReg (R.PBX_LAST c n) 0, .upd (.waiters (c * 48 + n) [])]

/-! Seawalls -/

/-- Cell `c` is a member of seawall `w`. -/
def State.wallMember (s : State) (w c : Nat) : Bool :=
  if c < 64 then s.regBit (R.SWL_MEMBERS_LO w) c else s.regBit (R.SWL_MEMBERS_HI w) (c - 64)

/-- R311: a seawall becomes broken; SWL_FAULT, from which the cause of the event is read (R437), takes it and the status. -/
def wallBreak (w : Nat) : Eff := .look fun s =>
  if s.bit (R.SWL_STATE_broken w) then .skip
  else .all [putBit (R.SWL_STATE_broken w) true, put R.SWL_FAULT_last_s w, put R.SWL_FAULT_last_status ST_REMOTE_UNREACHABLE,
    evFire (0x440 + w)]

/-- R311, R411: a peer is unreachable: every group seawall breaks. -/
def wallsBreak : Eff := .look fun s => Eff.each (List.range 64) fun w =>
  Eff.when (s.bit (R.SWL_CFG_valid w) && s.bit (R.SWL_CFG_group w)) (wallBreak w)

/-- R306: an arrival is refused. -/
def wallRefuse (w src st : Nat) : Eff := .all [
  addSat R.SWL_FAULT_refused 1, put R.SWL_FAULT_last_s w, put R.SWL_FAULT_last_src src, put R.SWL_FAULT_last_status st,
  evFire (0x440 + w)]

/-- R308: the release broadcast to every member cell. -/
def wallBroadcast (w : Nat) : Eff := .look fun s =>
  .upd (.relQ (s.relQ ++ ((List.range 128).filter fun c => s.wallMember w c).map fun c => (c, w)))

/-- R305: the generation rises and the counts return to 0. -/
def wallNext (w : Nat) : Eff := .look fun s => .all [
  put (R.SWL_STATE_generation w) (s.get (R.SWL_STATE_generation w) + 1),
  put (R.SWL_STATE_arrived w) 0,
  put (R.SWL_STATE_branch_arrived w) 0,
  wallBroadcast w]

/-- R309: a root sends its release to every branch. -/
def wallRelayRelease (w : Nat) : Eff := .look fun s =>
  Eff.each ((List.range (s.get R.GWL_GROUP_group_size)).filter fun k => k != s.get R.GWL_GROUP_member) fun k =>
    gwSend 0x05 2 k (w + s.get (R.SWL_STATE_generation w) * 2 ^ 16) [] none none (wallBreak w)

/-- R305, R309: the release of a local or root seawall whose counts are complete, or a branch's arrival message. -/
def wallCheck (w : Nat) : Eff := .look fun s =>
  let full := decide (s.get (R.SWL_CFG_expected w) ≤ s.get (R.SWL_STATE_arrived w))
  if !s.bit (R.SWL_CFG_group w) then Eff.when full (wallNext w)
  else if s.bit (R.SWL_CFG_root w) then
    Eff.when (full && decide (s.get (R.SWL_CFG_branches w) ≤ s.get (R.SWL_STATE_branch_arrived w)))
      (.seq (wallNext w) (wallRelayRelease w))
  else Eff.when full (.all [
    gwSend 0x04 2 (Config.rootModule w) (w + s.get (R.SWL_STATE_generation w) * 2 ^ 16) [] none none (wallBreak w),
    put (R.SWL_STATE_arrived w) 0])

/-- R306: the status under which an arrival is refused, ST_OK when it is counted. -/
def State.wallStatus (s : State) (w src : Nat) : Nat :=
  if !s.bit (R.SWL_CFG_valid w) then ST_BAD_ARG
  else if decide (src / 2 ^ 13 = 0) && !s.wallMember w (src / 16) then ST_BAD_ARG
  else if s.bit (R.SWL_STATE_broken w) then ST_REMOTE_UNREACHABLE
  else ST_OK

/-- R306: an arrival from a source reaches a seawall. -/
def wallArrive (w src : Nat) (refused : Eff) : Eff := .look fun s =>
  let st := s.wallStatus w src
  if st ≠ ST_OK then .seq (wallRefuse w src st) refused
  else .all [
    put (R.SWL_STATE_arrived w) (s.get (R.SWL_STATE_arrived w) + 1),
    put (R.SWL_STATE_last_src w) src,
    wallCheck w]

/-- R309: a branch's arrival reaches the root. -/
def wallBranchArrive (w link : Nat) : Eff := .look fun s =>
  let st := s.wallStatus w (srcLink link)
  if st ≠ ST_OK then wallRefuse w (srcLink link) st
  else .all [
    put (R.SWL_STATE_branch_arrived w) (s.get (R.SWL_STATE_branch_arrived w) + 1),
    put (R.SWL_STATE_last_src w) (srcLink link),
    wallCheck w]

/-- R311: clear broken and the counts of a seawall; the generation stays. -/
def wallClear (w : Nat) : Eff := .all [
  putBit (R.SWL_STATE_broken w) false, put (R.SWL_STATE_arrived w) 0, put (R.SWL_STATE_branch_arrived w) 0]

/-- Whether thread `t` of cell `c` sleeps at seawall `w`. -/
def State.sleepsAt (s : State) (c t w : Nat) : Bool :=
  s.bit (R.PBX_THR_WAIT_sleeping c t) && s.get (R.PBX_THR_WAIT_target c t) == w

/-- R307, R310: a release of seawall `w` reaches member cell `c`: its sleepers wake and release_pbx is signalled. -/
def wallReleaseAt (c w : Nat) : Eff := .look fun s => .all [
  .upd (.relSeen (c * 64 + w) (s.relSeenAt (c * 64 + w) + 1)),
  Eff.each ((List.range 16).filter fun t => s.sleepsAt c t w) fun t => wakeThread c t,
  Eff.when (decide (s.get (R.SWL_CFG_release_pbx w) < 48)) (pbxAdd c (s.get (R.SWL_CFG_release_pbx w)) 1 (srcWall w))]

/-! The commands -/

/-- The postbox of an addition under way and the time at which it set out. -/
def Sig.key (g : Sig) : Nat × Nat := (g.pbx, g.sent)
def Landing.key (g : Landing) : Nat × Nat := (g.pbx, g.sent)

/-- R295: the additions of a queue that reach their postbox in the same ck as one of them, and the others. Those reach it together
that set out for it at the same time (DESIGN CHOICE, log entry 249). -/
def takeSame (key : α → Nat × Nat) (g : α) (q : List α) : List α × List α :=
  (q.filter fun x => key x == key g, q.filter fun x => key x != key g)

/-- The source of the last signal of a sum that adds something. -/
def sumSrc (gs : List Sig) : Nat := ((gs.filter fun g => g.add != 0).getLast?.map Sig.src).getD 0

/-- POSTBOX_SIGNAL (R295, R314): the oldest signal under way reaches its postbox, with those that reach it in the same ck,
summed. -/
def postboxSignal : Eff := .look fun s =>
  match s.sigQ with
  | [] => .skip
  | g :: _ =>
    let r := takeSame Sig.key g s.sigQ
    .seq (.upd (.sigQ r.2))
      (if s.pbxStatus g.pbx = ST_OK then pbxAdd (g.pbx / 48) (g.pbx % 48) (r.1.map Sig.add).sum (sumSrc r.1)
       else Eff.each r.1 fun x => pbxDropped x.cell (s.pbxStatus g.pbx))

def execPostboxSignal (s : State) : Host.Outcome State Fault Refusal := postboxSignal.done s

/-- LANDING_NOTICE (R295, R301, R314): the oldest landing notice under way reaches its postbox, with those that reach it in the
same ck, summed. -/
def landingNotice : Eff := .look fun s =>
  match s.landQ with
  | [] => .skip
  | g :: _ =>
    let r := takeSame Landing.key g s.landQ
    .seq (.upd (.landQ r.2))
      (if s.pbxStatus g.pbx = ST_OK then pbxLand (g.pbx / 48) (g.pbx % 48) (r.1.map Landing.bytes).sum
       else Eff.each (r.1.filterMap Landing.cell) fun c => pbxDropped c (s.pbxStatus g.pbx))

def execLandingNotice (s : State) : Host.Outcome State Fault Refusal := landingNotice.done s

/-- Whether an agent is a control core, a host or the management core. -/
def outerAgent : Agent → Bool
  | .core _ | .host _ | .mgmt => true
  | _ => false

/-- Whether an agent is a control core. -/
def coreAgent : Agent → Bool
  | .core _ => true
  | _ => false

/-- PBX_SIGNAL (R296): a write by a control core, host or the management core; a number above 47 is discarded. -/
def actPbxSignal (who : Agent) (c n add : Nat) : Act := guardAct who (c * 16 + 7) 0x600 fun _ =>
  if !outerAgent who then (ST_PAGE_PROTECTED, put (R.PBX_COUNTS_last_drop_status c) ST_PAGE_PROTECTED)
  else (ST_OK, Eff.when (decide (n < 48)) (pbxAdd c n add (srcWriter who)))

def execPbxSignal (who : Agent) (c : Fin 128) (n : Fin 64) (add : BitVec 16) (s : State) :
    Host.Outcome State Fault Refusal := (runAct who (actPbxSignal who c n add.toNat)).done s

/-- PBX_RESET (R314): a control core sets the value and clears landed and the flags; the waiters are evaluated. -/
def actPbxReset (who : Agent) (c n v : Nat) : Act := guardAct who (c * 16 + 7) 0x608 fun _ =>
  if !coreAgent who then (ST_PAGE_PROTECTED,
    .seq (put (R.PBX_COUNTS_last_drop_status c) ST_PAGE_PROTECTED) (refuseWrite who (c * 16 + 7) 0x608 ST_PAGE_PROTECTED))
  else (ST_OK, Eff.when (decide (n < 48)) (.all [
    put (R.PBX_VALUE_value c n) v, putBit (R.PBX_VALUE_ovf c n) false, putBit (R.PBX_VALUE_land_ovf c n) false,
    put (R.PBX_LANDED_landed c n) 0, pbxEval c n]))

def execPbxReset (who : Agent) (c : Fin 128) (n : Fin 64) (value : BitVec 16) (s : State) :
    Host.Outcome State Fault Refusal := (runAct who (actPbxReset who c n value.toNat)).done s

/-- SEAWALL_ARRIVAL (R306, R307): the oldest arrival under way reaches its seawall; a refused arrival does not put its
thread to sleep. -/
def seawallArrival : Eff := .look fun s =>
  match s.arrQ with
  | [] => .skip
  | a :: rest => .seq (.upd (.arrQ rest)) (wallArrive a.wall a.src
      (match a.sleeper with
       | some (c, t) => .look fun s => Eff.when (s.sleepsAt c t a.wall) (wakeThread c t)
       | none => .skip))

def execSeawallArrival (s : State) : Host.Outcome State Fault Refusal := seawallArrival.done s

/-- SWL_ARRIVE (R306): a write by a control core (or the management core, which R33 admits) is one arrival. -/
def actSwlArrive (who : Agent) (w : Nat) : Act := guardAct who 0x1002 0x800 fun _ =>
  (ST_OK, wallArrive w (srcWriter who) .skip)

def execSwlArrive (who : Agent) (w : Fin 64) (s : State) : Host.Outcome State Fault Refusal :=
  (runAct who (actSwlArrive who w)).done s

/-- SEAWALL_RELEASE (R307, R308): the oldest release under way to cell `c` reaches it. -/
def seawallRelease (c : Nat) : Eff := .look fun s =>
  match s.relQ.find? fun r => r.1 == c with
  | none => .skip
  | some r => .seq (.upd (.relQ (s.relQ.erase r))) (wallReleaseAt c r.2)

def execSeawallRelease (c : Fin 128) (s : State) : Host.Outcome State Fault Refusal := (seawallRelease c).done s

end Sys2Proof.Machine
end

