-- ==== Sys2Proof/Machine/Numerics.lean ====
section
/-! DEFINITION. Number formats, rounding, codebooks and special functions (03_numerics.md R68–R94). Values are exact
(dyadic) until a conversion site of R83 rounds them. -/

namespace Sys2Proof.Machine

/-- The events that CELL_NUM_EVENTS counts (R94). -/
structure Ev where
  sat : Nat
  inf : Nat
  nan : Nat
  ntz : Nat
  deriving DecidableEq, Repr

/-- No event. -/
def Ev.zero : Ev := ⟨0, 0, 0, 0⟩

/-- A computation that counts numeric events. -/
abbrev Calc := StateM Ev

def countSat : Calc Unit := modify fun e => { e with sat := e.sat + 1 }
def countInf : Calc Unit := modify fun e => { e with inf := e.inf + 1 }
def countNan : Calc Unit := modify fun e => { e with nan := e.nan + 1 }
def countNtz : Calc Unit := modify fun e => { e with ntz := e.ntz + 1 }

/-- A rounding setting of CELL_ROUND: RNE or RNA, and infinity or saturate. -/
structure RMode where
  rne : Bool
  inf : Bool
  deriving DecidableEq, Repr

/-- The setting that a 2-bit field of CELL_ROUND names (R83). -/
def RMode.of (n : Nat) : RMode := ⟨n % 2 == 1, n / 2 % 2 == 1⟩

/-- The formats of R68, R69 and R101. -/
inductive Fmt where
  | e4m3 | e5m2 | e2m1 | bf16 | fp16 | fp32 | wide | int8 | uint8 | int4 | uint4 | int16 | int32
  deriving DecidableEq, Repr

/-- R101: the format of a code (codebook formats apart). -/
def Fmt.ofCode : Nat → Option Fmt
  | 0 => some .e4m3 | 1 => some .e5m2 | 2 => some .e2m1 | 3 => some .bf16 | 4 => some .fp16 | 5 => some .fp32
  | 8 => some .int8 | 9 => some .uint8 | 10 => some .int4 | 11 => some .uint4 | 12 => some .int16 | 13 => some .int32
  | _ => none

/-- Bits per element. -/
def Fmt.bits : Fmt → Nat
  | .e4m3 | .e5m2 | .int8 | .uint8 => 8
  | .e2m1 | .int4 | .uint4 => 4
  | .bf16 | .fp16 | .int16 => 16
  | .fp32 | .int32 => 32
  | .wide => 64

/-- An integer format. -/
def Fmt.isInt : Fmt → Bool
  | .int8 | .uint8 | .int4 | .uint4 | .int16 | .int32 => true
  | _ => false

/-- A signed integer format. -/
def Fmt.signed : Fmt → Bool
  | .uint8 | .uint4 => false
  | _ => true

/-- Exponent and fraction widths and bias of a floating-point format (R68). -/
def Fmt.shape : Fmt → Nat × Nat × Int
  | .e4m3 => (4, 3, 7) | .e5m2 => (5, 2, 15) | .e2m1 => (2, 1, 1) | .bf16 => (8, 7, 127) | .fp16 => (5, 10, 15)
  | .wide => (12, 51, 2047) | _ => (8, 23, 127)

/-- The largest finite value, as m × 2^e (R68). -/
def Fmt.top : Fmt → Nat × Int
  | .e4m3 => (14, 5) | .e2m1 => (3, 1)
  | f => let s := f.shape; (2 ^ (s.2.1 + 1) - 1, 2 ^ s.1 - 2 - s.2.2 - s.2.1)

/-- The bits of the largest finite value. -/
def Fmt.topBits : Fmt → Nat
  | .e4m3 => 0x7E | .e2m1 => 7
  | f => let s := f.shape; (2 ^ s.1 - 1) * 2 ^ s.2.1 - 1

/-- The canonical NaN (R71). -/
def Fmt.nanBits : Fmt → Nat
  | .e4m3 | .e5m2 => 0x7F | .bf16 => 0x7FC0 | .fp16 => 0x7E00 | .wide => 0x7FFC000000000000 | .fp32 => 0x7FC00000
  | _ => 0

/-- The bits of +∞ where the format has one. -/
def Fmt.infBits : Fmt → Option Nat
  | .e4m3 | .e2m1 => none
  | f => if f.isInt then none else (let s := f.shape; some ((2 ^ s.1 - 1) * 2 ^ s.2.1))

/-- An integer as an exact value. -/
def Num.ofInt (i : Int) : Num := .fin (decide (i < 0)) i.natAbs 0

/-- The value of a bit pattern (R68–R70). -/
def Fmt.decode (f : Fmt) (b : Nat) : Num :=
  let w := f.bits
  let b := b % 2 ^ w
  if f.isInt then Num.ofInt (if f.signed && decide (2 ^ (w - 1) ≤ b) then (b : Int) - 2 ^ w else b)
  else
    let s := f.shape
    let neg := b / 2 ^ (w - 1) == 1
    let ex := b / 2 ^ s.2.1 % 2 ^ s.1
    let fr := b % 2 ^ s.2.1
    let special := match f with
      | .e4m3 => ex == 15 && fr == 7
      | .e2m1 => false
      | _ => ex == 2 ^ s.1 - 1
    if special then (if fr = 0 then .inf neg else .nan)
    else if ex = 0 then .fin neg fr (1 - s.2.2 - s.2.1)
    else .fin neg (2 ^ s.2.1 + fr) ((ex : Int) - s.2.2 - s.2.1)

/-- R81: m × 2^e rounded to a whole number. -/
def roundInt (rne : Bool) (m : Nat) (e : Int) : Nat :=
  if 0 ≤ e then m * 2 ^ e.toNat
  else
    let s := (-e).toNat
    let q := m / 2 ^ s
    let r := m % 2 ^ s
    if 2 * r > 2 ^ s then q + 1
    else if 2 * r = 2 ^ s then (if rne && q % 2 == 0 then q else q + 1)
    else q

/-- Whether m × 2^e ≥ m' × 2^e'. -/
def geMag (m : Nat) (e : Int) (m' : Nat) (e' : Int) : Bool :=
  if e' ≤ e then decide (m' ≤ m * 2 ^ (e - e').toNat) else decide (m' * 2 ^ (e' - e).toNat ≤ m)

/-- R81: the bits of a magnitude below the overflow point of a floating-point format. -/
def Fmt.roundBits (f : Fmt) (rne : Bool) (m : Nat) (e : Int) : Nat :=
  if m = 0 then 0
  else
    let s := f.shape
    let ex := max ((m.log2 : Int) + e) (1 - s.2.2)
    let mant := roundInt rne m (e - (ex - s.2.1))
    if mant < 2 ^ s.2.1 then mant else (ex + s.2.2).toNat * 2 ^ s.2.1 + (mant - 2 ^ s.2.1)

/-- R82: the result of an overflow, or of an infinite input, in a floating-point format. -/
def Fmt.overflow (f : Fmt) (md : RMode) (neg fromInf : Bool) : Calc Nat := do
  let sign := if neg then 2 ^ (f.bits - 1) else 0
  if md.inf && f != .e2m1 then
    match f.infBits with
    | some b => if !fromInf then countInf
                pure (sign + b)
    | none => countNan
              pure f.nanBits
  else
    countSat
    pure (sign + f.topBits)

/-- R82: conversion of a value to a format at a site. -/
def Fmt.encode (f : Fmt) (md : RMode) (v : Num) : Calc Nat := do
  let w := f.bits
  if f.isInt then
    let lo : Int := if f.signed then -(2 ^ (w - 1)) else 0
    let hi : Int := if f.signed then 2 ^ (w - 1) - 1 else 2 ^ w - 1
    match v with
    | .nan => countNtz
              pure 0
    | .inf neg => countSat
                  pure (((if neg then lo else hi) % 2 ^ w).toNat)
    | .fin neg m e =>
      let r : Int := roundInt md.rne m e
      let r := if neg then -r else r
      if r < lo then
        countSat
        pure ((lo % 2 ^ w).toNat)
      else if hi < r then
        countSat
        pure ((hi % 2 ^ w).toNat)
      else pure ((r % 2 ^ w).toNat)
  else
    match v with
    | .nan => if f == .e2m1 then countNtz
              pure (if f == .e2m1 then 0 else f.nanBits)
    | .inf neg => f.overflow md neg true
    | .fin neg m e =>
      if m != 0 && geMag m e (2 * f.top.1 + 1) (f.top.2 - 1) then f.overflow md neg false
      else pure ((if neg then 2 ^ (w - 1) else 0) + f.roundBits md.rne m e)

/-- A value rounded to a format. -/
def Fmt.round (f : Fmt) (md : RMode) (v : Num) : Calc Num := do
  let b ← f.encode md v
  pure (f.decode b)

/-! Exact arithmetic (R70, R71, R93) -/

/-- The value as a signed whole number of 2^e, for an e at or below its own exponent. -/
def Num.scaled (neg : Bool) (m : Nat) (e e' : Int) : Int := (if neg then -1 else 1) * (m * 2 ^ (e - e').toNat : Nat)

/-- A sum: ∞ − ∞ is a NaN made from operands that are none. -/
def Num.add (a b : Num) : Calc Num :=
  match a, b with
  | .nan, _ | _, .nan => pure .nan
  | .inf x, .inf y => if x = y then pure (.inf x) else do
      countNan
      pure .nan
  | .inf x, _ | _, .inf x => pure (.inf x)
  | .fin n m e, .fin n' m' e' =>
    if m = 0 && m' = 0 then pure (.fin (n && n') 0 0)
    else
      let lo := min e e'
      let t := Num.scaled n m e lo + Num.scaled n' m' e' lo
      pure (.fin (decide (t < 0)) t.natAbs lo)

/-- The negated value. -/
def Num.neg : Num → Num
  | .nan => .nan
  | .inf n => .inf !n
  | .fin n m e => .fin (!n) m e

/-- A product: ∞ × 0 is a NaN made from operands that are none. -/
def Num.mul (a b : Num) : Calc Num :=
  match a, b with
  | .nan, _ | _, .nan => pure .nan
  | .inf x, .inf y => pure (.inf (x != y))
  | .inf x, .fin y m _ | .fin y m _, .inf x => if m = 0 then do
      countNan
      pure .nan
    else pure (.inf (x != y))
  | .fin n m e, .fin n' m' e' => pure (.fin (n != n') (m * m') (e + e'))

/-- A quotient to 96 bits with a sticky bit, enough for one correct rounding to any format. -/
def Num.div (a b : Num) : Calc Num :=
  match a, b with
  | .nan, _ | _, .nan => pure .nan
  | .inf _, .inf _ => do
      countNan
      pure .nan
  | .inf x, .fin y _ _ => pure (.inf (x != y))
  | .fin x _ _, .inf y => pure (.fin (x != y) 0 0)
  | .fin n m e, .fin n' m' e' =>
    if m' = 0 then (if m = 0 then do
      countNan
      pure .nan
    else pure (.inf (n != n')))
    else
      let k := 96 + m'.log2 - min m.log2 (96 + m'.log2)
      let q := m * 2 ^ k / m'
      let sticky := if m * 2 ^ k % m' = 0 then 0 else 1
      pure (.fin (n != n') (2 * q + sticky) (e - e' - k - 1))

/-- Zero. -/
def Num.zero : Num := .fin false 0 0

/-- Whether a value is a NaN. -/
def Num.isNan : Num → Bool
  | .nan => true
  | _ => false

/-- a < b for values that are no NaN; −0 and +0 are equal. -/
def Num.lt (a b : Num) : Bool :=
  match a, b with
  | .nan, _ | _, .nan => false
  | .inf true, .inf true => false
  | .inf true, _ => true
  | _, .inf true => false
  | .inf false, _ => false
  | _, .inf false => true
  | .fin n m e, .fin n' m' e' => decide (Num.scaled n m e (min e e') < Num.scaled n' m' e' (min e e'))

/-- The value rounded at a site and kept as FP32 bits. -/
def f32 (md : RMode) (v : Num) : Calc Nat := Fmt.fp32.encode md v

/-! Elements in memory (R72) -/

/-- Bytes that `n` elements of a format take. -/
def Fmt.size (f : Fmt) (n : Nat) : Nat := (n * f.bits + 7) / 8

/-- Element `i` of packed bytes, `bits` wide. -/
def elemAt (bits : Nat) (bs : List Byte) (i : Nat) : Nat :=
  if bits = 4 then byteAt bs (i / 2) / (if i % 2 = 0 then 1 else 16) % 16 else leAt bs (i * (bits / 8)) (bits / 8)

/-- Elements packed to bytes: two 4-bit elements a byte, the lower index in the low half. -/
def packElems (bits : Nat) : List Nat → List Byte
  | [] => []
  | a :: rest =>
    if bits = 4 then
      (match rest with
       | [] => [BitVec.ofNat 8 (a % 16)]
       | b :: rest' => BitVec.ofNat 8 (a % 16 + b % 16 * 16) :: packElems bits rest')
    else toLE (bits / 8) a ++ packElems bits rest

/-- All `n` elements of a format as values. -/
def Fmt.values (f : Fmt) (bs : List Byte) (n : Nat) : List Num :=
  (List.range n).map fun i => f.decode (elemAt f.bits bs i)

/-- R75: the value of an element with an E8M0 block scale folded in: 0xFF makes it NaN. -/
def foldScale (scale : Nat) (v : Num) : Num :=
  if scale = 0xFF then .nan
  else match v with
    | .fin n m e => .fin n m (e + (scale : Int) - 127)
    | v => v

/-! Special functions (R92) -/

/-- The largest whole number whose square is at most n. -/
def isqrt (n : Nat) : Nat := go (n.log2 / 2 + 1) n 0
where
  go : Nat → Nat → Nat → Nat
    | 0, n, r => if (r + 1) * (r + 1) ≤ n then r + 1 else r
    | k + 1, n, r => if (r + 2 ^ k) * (r + 2 ^ k) ≤ n then go k n (r + 2 ^ k) else go k n r

/-- ln 2 × 2^128. -/
def ln2 : Nat := 235865763225513294137944142764154484399

/-- Σ r^i / i! for r = x / 2^128, times 2^128. -/
def expSeries (x : Nat) : Nat → Nat → Nat → Nat
  | 0, _, _ => 0
  | n + 1, i, t => t + expSeries x n (i + 1) (t * x / 2 ^ 128 / (i + 1))

/-- exp of m × 2^e × ±1 as M × 2^E, to about 100 bits; a magnitude of 2^8 or more counts as 2^8. -/
def expApprox (neg : Bool) (m : Nat) (e : Int) : Nat × Int :=
  if m = 0 then (1, 0)
  else
    let big := geMag m e 256 0
    let x : Int := if big then 2 ^ 136 else (if 0 ≤ e + 128 then (m * 2 ^ (e + 128).toNat : Nat) else (m / 2 ^ (-(e + 128)).toNat : Nat))
    let x := if neg then -x else x
    let k := x / (ln2 : Int)
    (expSeries (x - k * ln2).toNat 60 0 (2 ^ 128), k - 128)

/-- |v − A| ≤ u × 2^q, for v = m × 2^e and A = M × 2^E, with a margin of 2^-40 of the bound. -/
def withinUlp (m : Nat) (e : Int) (M : Nat) (E : Int) (u : Nat) (q : Int) : Bool :=
  let lo := min (min e E) (q - 40)
  let d := Num.scaled false m e lo - Num.scaled false M E lo
  decide (d.natAbs ≤ (u * 2 ^ (q - lo).toNat + 2 ^ (q - 40 - lo).toNat))

/-- The FP32 values (as bits) within `u` units of their last place of M × 2^E. -/
def ulpCandidates (u M : Nat) (E : Int) : List Nat :=
  let b := Fmt.fp32.roundBits true M E
  ((List.range 9).map fun i => b + i - 4).filter fun c =>
    decide (c ≤ 0x7F7FFFFF) && (match Fmt.fp32.decode c with
      | .fin _ m e => withinUlp m e M E u (max (if c < 0x00800000 then -149 else (c / 2 ^ 23 : Nat) - 150) (-149))
      | _ => false)

/-- One of the values that the error bound admits. -/
def pickUlp (fn opnd u M : Nat) (E : Int) : Nat :=
  let cs := ulpCandidates u M E
  cs.getD (Config.specialPick fn opnd % cs.length) (Fmt.fp32.roundBits true M E)

/-- A positive result within its bound, or its overflow. -/
def special (md : RMode) (fn opnd u M : Nat) (E : Int) (neg : Bool) : Calc Nat :=
  if geMag M E (2 * Fmt.fp32.top.1 + 1) (Fmt.fp32.top.2 - 1) then Fmt.fp32.overflow md neg false
  else pure ((if neg then 2 ^ 31 else 0) + pickUlp fn opnd u M E)

/-- A quotient of positive numbers as M × 2^E. -/
def quot (m : Nat) (e : Int) (m' : Nat) (e' : Int) : Nat × Int :=
  let k := 160 + m'.log2
  (m * 2 ^ k / m', e - e' - k)

/-- A sum of positive numbers as M × 2^E. -/
def plus (m : Nat) (e : Int) (m' : Nat) (e' : Int) : Nat × Int :=
  let lo := min e e'
  (m * 2 ^ (e - lo).toNat + m' * 2 ^ (e' - lo).toNat, lo)

/-- exp of FP32 bits. -/
def fnExp (md : RMode) (b : Nat) : Calc Nat :=
  match Fmt.fp32.decode b with
  | .nan => pure Fmt.fp32.nanBits
  | .inf true => pure 0
  | .inf false => Fmt.fp32.overflow ⟨md.rne, true⟩ false true
  | .fin n m e => let a := expApprox n m e; special md 8 b 2 a.1 a.2 false

/-- The reciprocal of FP32 bits. -/
def fnRcp (md : RMode) (b : Nat) : Calc Nat :=
  match Fmt.fp32.decode b with
  | .nan => pure Fmt.fp32.nanBits
  | .inf n => pure (if n then 2 ^ 31 else 0)
  | .fin n m e => if m = 0 then pure ((if n then 2 ^ 31 else 0) + 0x7F800000)
    else let a := quot 1 0 m e; special md 9 b 1 a.1 a.2 n

/-- The reciprocal square root of FP32 bits. -/
def fnRsqrt (md : RMode) (b : Nat) : Calc Nat :=
  match Fmt.fp32.decode b with
  | .nan => pure Fmt.fp32.nanBits
  | .inf true => do
    countNan
    pure Fmt.fp32.nanBits
  | .inf false => pure 0
  | .fin n m e =>
    if m = 0 then pure (if n then Config.openPick 10 b 0 % 2 ^ 32 else 0x7F800000)
    else if n then do
      countNan
      pure Fmt.fp32.nanBits
    else
      let m2 := if e % 2 = 0 then m else 2 * m
      let e2 := if e % 2 = 0 then e else e - 1
      special md 10 b 1 (isqrt (2 ^ 320 / m2)) (-160 - e2 / 2) false

/-- tanh of FP32 bits: near 0 by x − x³/3, else from exp. -/
def fnTanh (md : RMode) (b : Nat) : Calc Nat :=
  match Fmt.fp32.decode b with
  | .nan => pure Fmt.fp32.nanBits
  | .inf n => pure ((if n then 2 ^ 31 else 0) + 0x3F800000)
  | .fin n m e =>
    if m = 0 then pure b
    else if !geMag m e 1 (-13) then
      special md 11 b 2 (m * (3 * 2 ^ (max 0 (-2 * e)).toNat - m * m) * 2 ^ 8 / 3) (e - (max 0 (-2 * e)) - 8) n
    else
      let a := expApprox false (2 * m) e
      let num : Nat × Int := if 0 ≤ a.2 then (a.1 * 2 ^ a.2.toNat - 1, 0) else (a.1 - 2 ^ (-a.2).toNat, a.2)
      let den := plus a.1 a.2 1 0
      let q := quot num.1 num.2 den.1 den.2
      special md 11 b 2 q.1 q.2 n

/-- The logistic function of FP32 bits: 1 / (1 + exp(−x)). -/
def fnLogistic (md : RMode) (b : Nat) : Calc Nat :=
  match Fmt.fp32.decode b with
  | .nan => pure Fmt.fp32.nanBits
  | .inf n => pure (if n then 0 else 0x3F800000)
  | .fin n m e =>
    let a := expApprox (!n) m e
    let den := plus a.1 a.2 1 0
    let q := quot 1 0 den.1 den.2
    special md 12 b 2 q.1 q.2 false

/-! Codebooks (R76–R80) -/

/-- 64-bit word `i` of slot `k` of cell `c`'s codebook RAM (R77). -/
def cbKey (c k i : Nat) : Nat := rk (c * 16 + 11 + k / 32) (k % 32 * 0x400 + i * 8)

/-- The descriptor of a slot. -/
def State.cbDesc (s : State) (c k : Nat) : Nat := (s.reg (cbKey c k 127)).toNat

/-- R78: the size and entry format of a usable slot that is valid. -/
def State.cbUsable (s : State) (c k : Nat) : Option (Nat × Fmt) :=
  let d := s.cbDesc c k
  let size := d / 2 % 2
  if d % 2 = 0 then none
  else match d / 4 % 4 with
    | 0 => if size = 0 then some (size, .e4m3) else none
    | 1 => if size = 0 then some (size, .e5m2) else none
    | 2 => some (size, .bf16)
    | _ => none

/-- The bytes of a slot's entries. -/
def State.cbBytes (s : State) (c k : Nat) : List Byte := (List.range 64).flatMap fun i => toLE 8 (s.reg (cbKey c k i)).toNat

/-- Read the entry words of a codebook slot (R168, R181); the continuation gets the first fault. -/
def readBook (c k : Nat) : List Nat → (Option (Nat × Nat) → Eff) → Eff
  | [], go => go none
  | i :: rest, go =>
    let a := 0x4000000000 + cbKey c k i
    eccWord c 25 (a / 8) 0 fun st _ => if st = ST_OK then readBook c k rest go else go (some (a, st))

/-- The words of a slot that hold its entries. -/
def State.bookWords (s : State) (c k : Nat) : List Nat :=
  match s.cbUsable c k with
  | some (size, f) => List.range ((if size = 0 then 16 else 256) * f.bits / 64)
  | none => []

/-- R79: the entry of a code. -/
def cbEntry (fmt : Fmt) (bs : List Byte) (code : Nat) : Num := fmt.decode (elemAt fmt.bits bs code)

/-- R78: entries ascend strictly and none is NaN. -/
def ascends : List Num → Bool
  | [] => true
  | [a] => !a.isNan
  | a :: b :: rest => a.lt b && ascends (b :: rest)

/-- R78: the descriptor as the feeder stores it, with ascending set by its check. -/
def cbChecked (size : Nat) (fmt : Fmt) (bs : List Byte) : Bool :=
  ascends ((List.range (if size = 0 then 16 else 256)).map fun i => cbEntry fmt bs i)

/-- The distance of two finite values as m × 2^e. -/
def Num.dist (a b : Num) : Nat × Int :=
  match a, b with
  | .fin n m e, .fin n' m' e' =>
    let lo := min e e'
    ((Num.scaled n m e lo - Num.scaled n' m' e' lo).natAbs, lo)
  | _, _ => (1, 4096)

/-- −1, 0, 1: whether distance d is smaller than, equal to or larger than d'. -/
def cmpDist (d d' : Nat × Int) : Int :=
  if geMag d.1 d.2 d'.1 d'.2 then (if geMag d'.1 d'.2 d.1 d.2 then 0 else 1) else -1

/-- R80: the better of two neighbouring codes for x. -/
def nearer (rne : Bool) (entries : List Num) (x : Num) (i j : Nat) : Nat :=
  let a := entries.getD i .zero
  let b := entries.getD j .zero
  match cmpDist (x.dist a) (x.dist b) with
  | 0 => if rne then (if i % 2 = 0 then i else j)
         else (if (a.dist .zero).1 = 0 then j
               else if cmpDist (a.dist .zero) (b.dist .zero) = 1 then i else j)
  | -1 => i
  | _ => j

/-- The number of the last entry not above x. -/
def lastBelow (x : Num) : List Num → Nat → Nat → Nat
  | [], _, best => best
  | a :: rest, i, best => lastBelow x rest (i + 1) (if x.lt a then best else i)

/-- The entry nearest to zero, the lower code on a tie. -/
def nearestZero : List Num → Nat → Nat → Nat × Int → Nat
  | [], _, best, _ => best
  | a :: rest, i, best, d =>
    if cmpDist (a.dist .zero) d = -1 then nearestZero rest (i + 1) i (a.dist .zero) else nearestZero rest (i + 1) best d

/-- R80: the code of the entry nearest to a value. -/
def nearestCode (rne : Bool) (entries : List Num) (x : Num) : Calc Nat :=
  match x with
  | .nan => do
    countNtz
    pure (nearestZero entries 0 0 ((entries.getD 0 .zero).dist .zero))
  | x =>
    if x.lt (entries.getD 0 .zero) then pure 0
    else
      let i := lastBelow x entries 0 0
      if i + 1 = entries.length then pure i else pure (nearer rne entries x i (i + 1))

/-! Counting, and the settings of a cell -/

/-- Add events to CELL_NUM_EVENTS (R94). -/
def countEv (c : Nat) (e : Ev) : Eff := .all [
  Eff.when (e.sat != 0) (addSat (R.CELL_NUM_EVENTS_saturations c) e.sat),
  Eff.when (e.inf != 0) (addSat (R.CELL_NUM_EVENTS_infinities c) e.inf),
  Eff.when (e.nan != 0) (addSat (R.CELL_NUM_EVENTS_nans c) e.nan),
  Eff.when (e.ntz != 0) (addSat (R.CELL_NUM_EVENTS_nan_to_zero c) e.ntz)]

/-- The setting of a conversion site of cell `c` (R83). -/
def State.site (s : State) (f : Fld) : RMode := RMode.of (s.get f)

/-- R84: the vault interface block's copy of bu_acc and bu_out of cell `c`. -/
def State.buAcc (s : State) (c : Nat) : RMode := RMode.of (s.buRoundAt c % 4)
def State.buOut (s : State) (c : Nat) : RMode := RMode.of (s.buRoundAt c / 4 % 4)

/-- Run a computation and count its events in a cell. -/
def runCalc {α : Type} (c : Nat) (m : Calc α) (k : α → Eff) : Eff :=
  let r := m.run Ev.zero
  .seq (countEv c r.2) (k r.1)

/-! The command -/

/-- CODEBOOK_DESCRIPTOR_WRITE (R78): the descriptor of a slot is written and the feeder checks the entries. -/
def actCodebookDesc (who : Agent) (c k v : Nat) : Act :=
  guardAct who (c * 16 + 11 + k / 32) (k % 32 * 0x400 + 0x3F8) fun s =>
    (ST_OK, .seq (putReg (cbKey c k 127) (BitVec.ofNat 64 (v % 16)))
      (.look fun t => match t.cbUsable c k with
        | some (size, fmt) => putRegBit (cbKey c k 127) 4 (cbChecked size fmt (s.cbBytes c k))
        | none => .skip))

def execCodebookDescriptorWrite (who : Agent) (c : Fin 128) (k : Fin 64) (v : Word) (s : State) :
    Host.Outcome State Fault Refusal := (runAct who (actCodebookDesc who c k v.toNat)).done s

end Sys2Proof.Machine
end

