-- ==== Sys2Proof/Machine/Sequencer.lean ====
section
/-! DEFINITION. The sequencer of a cell (06_cell.md R152–R160): registers, the scalar and control instructions, waits and
signals, traps, the instruction cache, the responses of loads and stores; and the owners of the SRAM banks (R169–R175).
LD, ST, PASS, VOP, QE, BUC, FENCE, HEAD_END, STEP_END and the kill of a thread stand with the units they act on. -/

namespace Sys2Proof.Machine

/-! Registers (R152) -/

/-- Register s_i of a thread: s0 reads as 0. -/
def State.sreg (s : State) (c t i : Nat) : Word := if i = 0 then 0 else s.reg (R.SEQ_THR_REG c t i)

/-- Write register s_i: a write of s0 is ignored. -/
def putSreg (c t i : Nat) (v : Word) : Eff := if i = 0 then .skip else putReg (R.SEQ_THR_REG c t i) v

/-- The program counter of a thread. -/
def State.pc (s : State) (c t : Nat) : Nat := s.get (R.SEQ_THR_PC_pc c t)

/-- The immediate as a signed number (R157). -/
def immInt (imm : BitVec 32) : Int := imm.toInt

/-- The immediate sign-extended to a register. -/
def immWord (imm : BitVec 32) : Word := imm.signExtend 64

/-! Traps (R159) -/

/-- Record a trap's cause, status and address, and stop the thread; `next` is the first instruction not issued. -/
def trapRecord (c t cause st addr next : Nat) : Eff := .all [
  put (R.SEQ_THR_STATUS_trap_cause c t) cause,
  put (R.SEQ_THR_STATUS_trap_status c t) st,
  put (R.SEQ_THR_FAULT_addr c t) addr,
  put (R.SEQ_THR_NEXT_next_pc c t) next,
  putThr c t THR_TRAPPED]

/-- A precise trap at the thread's own instruction. -/
def trapThread (c t cause st addr : Nat) : Eff := .look fun s => trapRecord c t cause st addr (s.pc c t)

/-- An imprecise trap at instruction `pc` (R159). -/
def trapImprecise (c t cause st addr pc : Nat) : Eff := .look fun s => .all [
  trapRecord c t cause st addr (s.pc c t), put (R.SEQ_THR_PC_pc c t) pc]

/-- An illegal instruction at the thread's pc. -/
def trapIllegal (c t : Nat) : Eff := .look fun s => trapThread c t 0x01 ST_BAD_ARG (s.pc c t)

/-! What an engine can accept (R153) -/

/-- A pass that holds a slot of the pass queue (R99). -/
def Pass.queued (p : Pass) : Bool := p.phase != 3

/-- The passes in the queue's slots. -/
def State.passCount (s : State) (c : Nat) : Nat := ((s.passQAt c).filter fun p => p.queued).length

/-- Descriptors outstanding in a cell (R60). -/
def State.qeOutstanding (s : State) (c : Nat) : Nat :=
  (List.range 8).foldl (fun n k => n + (s.qeQAt (c * 8 + k)).length) 0

/-- Whether a channel can take a descriptor (R60, R176). -/
def State.qeRoom (s : State) (c k : Nat) : Bool :=
  decide ((s.qeQAt (c * 8 + k)).length < 64) && decide (s.qeOutstanding c < 256)

/-- The queue of 16 entries has room; a running command holds none. -/
def State.buRoom (s : State) (u : Nat) : Bool := decide (((s.buQAt u).filter fun x => !x.running).length < 16)

/-- Whether the vector queue of 16 entries has room (R161). -/
def State.vecRoom (s : State) (c : Nat) : Bool := decide ((s.vecQAt c).length < 16)

/-- Whether the feeder takes a pass: a slot of its queue is free and it is not stopped (R99). -/
def State.passRoom (s : State) (c : Nat) : Bool := decide (s.passCount c < 32) && s.bit (R.FEED_CTRL_enable c)

/-! The instruction word (R157) -/

/-- R157: the 64-bit word of an instruction. -/
def seqWord (op d a b : Nat) (fn : BitVec 9) (imm : BitVec 32) : Nat :=
  op + d * 2 ^ 8 + a * 2 ^ 13 + b * 2 ^ 18 + fn.toNat * 2 ^ 23 + imm.toNat * 2 ^ 32

/-- The opcode of a word. -/
def wordOp (w : Nat) : Nat := w % 2 ^ 8

/-- R158: the opcodes of the table. -/
def opKnown (op : Nat) : Bool := op ≤ 0x0D || (decide (0x10 ≤ op) && decide (op ≤ 0x11)) ||
  (decide (0x18 ≤ op) && decide (op ≤ 0x1D)) || (decide (0x20 ≤ op) && decide (op ≤ 0x28)) ||
  (decide (0x30 ≤ op) && decide (op ≤ 0x33)) || op == 0x3F

/-- The registers that a word's instruction reads or writes (R153, R158). -/
def wordUses (w : Nat) : List Nat :=
  let d := w / 2 ^ 8 % 32
  let a := w / 2 ^ 13 % 32
  let b := w / 2 ^ 18 % 32
  let op := wordOp w
  if op = 0x00 ∨ op = 0x26 ∨ op = 0x28 ∨ op = 0x31 ∨ op = 0x3F then []
  else if op = 0x01 ∨ op = 0x02 ∨ op = 0x1C ∨ op = 0x30 ∨ op = 0x32 ∨ op = 0x33 then [d]
  else if op ≤ 0x0D ∨ op = 0x21 then [d, a, b]
  else if op = 0x10 ∨ op = 0x1D then [d, a]
  else if op = 0x11 then (if w / 2 ^ 26 % 2 = 1 then [d, a, b] else [a, b])
  else if op ≤ 0x1B ∨ op = 0x25 then [a, b]
  else if op = 0x20 ∨ op = 0x22 ∨ op = 0x23 ∨ op = 0x24 ∨ op = 0x27 then [a]
  else []

/-- R153: whether the engine that a word's instruction names can accept it. -/
def State.engineTakes (s : State) (c w : Nat) : Bool :=
  let imm := w / 2 ^ 32
  if wordOp w = 0x20 then s.passRoom c
  else if wordOp w = 0x21 then s.vecRoom c
  else if wordOp w = 0x22 then s.qeRoom c (imm % 8)
  else if wordOp w = 0x23 then s.buRoom (imm % 1024)
  else true

/-- The line of the instruction cache at an address, if it is present (R154). -/
def State.icLine (s : State) (c pc : Nat) : Option IcLine :=
  (s.icacheAt (c * 64 + pc / 128 % 64)).find? fun l => l.base == pc / 128 * 128

/-- The word at a thread's pc as the instruction cache holds it, whatever memory holds by now (R154). -/
def State.fetchWord (s : State) (c t : Nat) : Option Nat :=
  (s.icLine c (s.pc c t)).map fun l => leAt l.data (s.pc c t % 128) 8

/-- An instruction runs when its word is the one at the thread's pc; a miss waits for the fill. -/
def fetched (c t w : Nat) (k : Eff) : Eff := .look fun s => if s.fetchWord c t = some w then k else .skip

/-! Issue (R153) -/

/-- Whether register `i` awaits the result of an outstanding load. -/
def State.regBusy (s : State) (c t i : Nat) : Bool := i != 0 && (s.loadsAt (c * 16 + t)).any fun x => x.load && x.dest == i

/-- Whether the thread waits for the response of a store (fn[3]). -/
def State.storeWait (s : State) (c t : Nat) : Bool := (s.loadsAt (c * 16 + t)).any fun x => x.waits

/-- R153: whether a thread is ready. -/
def State.threadReady (s : State) (c t : Nat) : Bool :=
  s.thr c t == THR_RUN && !s.storeWait c t &&
    match s.fetchWord c t with
    | none => false
    | some w => s.engineTakes c w && (wordUses w).all fun i => !s.regBusy c t i

/-- FENCE, HEAD_END and STEP_END end once what they wait for is there; a thread at one of them never holds another back. -/
def State.atWait (s : State) (c t : Nat) : Bool :=
  match s.fetchWord c t with
  | none => false
  | some w => wordOp w == 0x28 || wordOp w == 0x30 || wordOp w == 0x31

/-- R153: no ready thread comes before this one in the round that starts after the thread that issued last. -/
def State.turn (s : State) (c t : Nat) : Bool :=
  (List.range ((t + 15 - s.rrLastAt c) % 16)).all fun i =>
    let u := (s.rrLastAt c + 1 + i) % 16
    !s.threadReady c u || s.atWait c u

/-- A fetch makes its line the most recent of its set (R154). -/
def touchIcache (c pc : Nat) : Eff := .look fun s =>
  let key := c * 64 + pc / 128 % 64
  match s.icLine c pc with
  | none => .skip
  | some l => .upd (.icache key (l :: (s.icacheAt key).filter fun x => !(x.base == l.base)))

/-- Issue an instruction of a ready thread whose turn it is; fn bits outside `mask` make the instruction illegal (R157, R159). -/
def issue (c t : Nat) (mask : Nat) (fn : BitVec 9) (k : Eff) : Eff := .look fun s =>
  if s.threadReady c t && s.turn c t then .all [
    touchIcache c (s.pc c t),
    .upd (.rrLast c t),
    if Nat.land fn.toNat mask = fn.toNat then k else trapIllegal c t]
  else .skip

/-- An instruction whose whole effect is one register result. -/
def scalar (c t d : Nat) (fn : BitVec 9) (f : State → Word) : Eff :=
  issue c t 0 fn (.look fun s => .seq (putSreg c t d (f s)) (nextPc c t))

/-- A two-operand instruction. -/
def scalar2 (c t d a b : Nat) (fn : BitVec 9) (f : Word → Word → Word) : Eff :=
  scalar c t d fn fun s => f (s.sreg c t a) (s.sreg c t b)

/-- A branch by imm × 8 bytes when its condition holds (R158). -/
def branch (c t a b : Nat) (fn : BitVec 9) (imm : BitVec 32) (p : Word → Word → Bool) : Eff :=
  issue c t 0 fn (.look fun s =>
    if p (s.sreg c t a) (s.sreg c t b) then
      put (R.SEQ_THR_PC_pc c t) ((((s.pc c t : Int) + immInt imm * 8) % 2 ^ 48).toNat)
    else nextPc c t)

/-- The shift amount (s[b] + imm) mod 64. -/
def shiftBy (b : Word) (imm : BitVec 32) : Nat := (b + immWord imm).toNat % 64

/-! SEQ instructions -/

def execSeqNop (c : Fin 128) (t : Fin 16) (d a b : Fin 32) (fn : BitVec 9) (imm : BitVec 32) (s : State) :
    Host.Outcome State Fault Refusal :=
  (fetched c t (seqWord 0x00 d a b fn imm) (issue c t 0 fn (nextPc c t))).done s

def execSeqLi (c : Fin 128) (t : Fin 16) (d a b : Fin 32) (fn : BitVec 9) (imm : BitVec 32) (s : State) :
    Host.Outcome State Fault Refusal :=
  (fetched c t (seqWord 0x01 d a b fn imm) (scalar c t d fn fun _ => immWord imm)).done s

def execSeqLih (c : Fin 128) (t : Fin 16) (d a b : Fin 32) (fn : BitVec 9) (imm : BitVec 32) (s : State) :
    Host.Outcome State Fault Refusal :=
  (fetched c t (seqWord 0x02 d a b fn imm) (scalar c t d fn fun s => imm ++ (s.sreg c t d).setWidth 32)).done s

def execSeqAdd (c : Fin 128) (t : Fin 16) (d a b : Fin 32) (fn : BitVec 9) (imm : BitVec 32) (s : State) :
    Host.Outcome State Fault Refusal :=
  (fetched c t (seqWord 0x03 d a b fn imm) (scalar2 c t d a b fn fun x y => x + y + immWord imm)).done s

def execSeqSub (c : Fin 128) (t : Fin 16) (d a b : Fin 32) (fn : BitVec 9) (imm : BitVec 32) (s : State) :
    Host.Outcome State Fault Refusal :=
  (fetched c t (seqWord 0x04 d a b fn imm) (scalar2 c t d a b fn fun x y => x - y)).done s

def execSeqMul (c : Fin 128) (t : Fin 16) (d a b : Fin 32) (fn : BitVec 9) (imm : BitVec 32) (s : State) :
    Host.Outcome State Fault Refusal :=
  (fetched c t (seqWord 0x05 d a b fn imm) (scalar2 c t d a b fn fun x y => x * y)).done s

def execSeqAnd (c : Fin 128) (t : Fin 16) (d a b : Fin 32) (fn : BitVec 9) (imm : BitVec 32) (s : State) :
    Host.Outcome State Fault Refusal :=
  (fetched c t (seqWord 0x06 d a b fn imm) (scalar2 c t d a b fn fun x y => x &&& y)).done s

def execSeqOr (c : Fin 128) (t : Fin 16) (d a b : Fin 32) (fn : BitVec 9) (imm : BitVec 32) (s : State) :
    Host.Outcome State Fault Refusal :=
  (fetched c t (seqWord 0x07 d a b fn imm) (scalar2 c t d a b fn fun x y => x ||| y)).done s

def execSeqXor (c : Fin 128) (t : Fin 16) (d a b : Fin 32) (fn : BitVec 9) (imm : BitVec 32) (s : State) :
    Host.Outcome State Fault Refusal :=
  (fetched c t (seqWord 0x08 d a b fn imm) (scalar2 c t d a b fn fun x y => x ^^^ y)).done s

def execSeqShl (c : Fin 128) (t : Fin 16) (d a b : Fin 32) (fn : BitVec 9) (imm : BitVec 32) (s : State) :
    Host.Outcome State Fault Refusal :=
  (fetched c t (seqWord 0x09 d a b fn imm) (scalar2 c t d a b fn fun x y => x <<< shiftBy y imm)).done s

def execSeqShr (c : Fin 128) (t : Fin 16) (d a b : Fin 32) (fn : BitVec 9) (imm : BitVec 32) (s : State) :
    Host.Outcome State Fault Refusal :=
  (fetched c t (seqWord 0x0A d a b fn imm) (scalar2 c t d a b fn fun x y => x >>> shiftBy y imm)).done s

def execSeqSra (c : Fin 128) (t : Fin 16) (d a b : Fin 32) (fn : BitVec 9) (imm : BitVec 32) (s : State) :
    Host.Outcome State Fault Refusal :=
  (fetched c t (seqWord 0x0B d a b fn imm) (scalar2 c t d a b fn fun x y => x.sshiftRight (shiftBy y imm))).done s

def execSeqSlt (c : Fin 128) (t : Fin 16) (d a b : Fin 32) (fn : BitVec 9) (imm : BitVec 32) (s : State) :
    Host.Outcome State Fault Refusal :=
  (fetched c t (seqWord 0x0C d a b fn imm) (scalar2 c t d a b fn fun x y => if x.slt y then 1 else 0)).done s

def execSeqSltu (c : Fin 128) (t : Fin 16) (d a b : Fin 32) (fn : BitVec 9) (imm : BitVec 32) (s : State) :
    Host.Outcome State Fault Refusal :=
  (fetched c t (seqWord 0x0D d a b fn imm) (scalar2 c t d a b fn fun x y => if x.ult y then 1 else 0)).done s

def execSeqBeq (c : Fin 128) (t : Fin 16) (d a b : Fin 32) (fn : BitVec 9) (imm : BitVec 32) (s : State) :
    Host.Outcome State Fault Refusal :=
  (fetched c t (seqWord 0x18 d a b fn imm) (branch c t a b fn imm fun x y => x == y)).done s

def execSeqBne (c : Fin 128) (t : Fin 16) (d a b : Fin 32) (fn : BitVec 9) (imm : BitVec 32) (s : State) :
    Host.Outcome State Fault Refusal :=
  (fetched c t (seqWord 0x19 d a b fn imm) (branch c t a b fn imm fun x y => x != y)).done s

def execSeqBlt (c : Fin 128) (t : Fin 16) (d a b : Fin 32) (fn : BitVec 9) (imm : BitVec 32) (s : State) :
    Host.Outcome State Fault Refusal :=
  (fetched c t (seqWord 0x1A d a b fn imm) (branch c t a b fn imm fun x y => x.slt y)).done s

def execSeqBge (c : Fin 128) (t : Fin 16) (d a b : Fin 32) (fn : BitVec 9) (imm : BitVec 32) (s : State) :
    Host.Outcome State Fault Refusal :=
  (fetched c t (seqWord 0x1B d a b fn imm) (branch c t a b fn imm fun x y => !x.slt y)).done s

/-- JAL (R158): link pc + 8, jump by imm × 8. -/
def execSeqJal (c : Fin 128) (t : Fin 16) (d a b : Fin 32) (fn : BitVec 9) (imm : BitVec 32) (s : State) :
    Host.Outcome State Fault Refusal :=
  (fetched c t (seqWord 0x1C d a b fn imm) (issue c t 0 fn (.look fun s => .seq (putSreg c t d (BitVec.ofNat 64 (s.pc c t + 8)))
    (put (R.SEQ_THR_PC_pc c t) ((((s.pc c t : Int) + immInt imm * 8) % 2 ^ 48).toNat))))).done s

/-- JR (R158, R159): link pc + 8, jump to s[a] + imm; a target that is no multiple of 8 traps. -/
def execSeqJr (c : Fin 128) (t : Fin 16) (d a b : Fin 32) (fn : BitVec 9) (imm : BitVec 32) (s : State) :
    Host.Outcome State Fault Refusal :=
  (fetched c t (seqWord 0x1D d a b fn imm) (issue c t 0 fn (.look fun s =>
    let target := (s.sreg c t a + immWord imm).toNat
    if target % 8 ≠ 0 then trapThread c t 0x02 ST_ALIGN target
    else .seq (putSreg c t d (BitVec.ofNat 64 (s.pc c t + 8))) (put (R.SEQ_THR_PC_pc c t) target)))).done s

/-- SIGNAL (R300): to a postbox of this module, or as a packet to another module of the group. -/
def seqSignal (c t a : Nat) (fn : BitVec 9) (imm : BitVec 32) : Eff := issue c t 0 fn (.look fun s =>
  let x := (s.sreg c t a).toNat
  let add := imm.toNat % 2 ^ 16
  .seq
    (if x / 2 ^ 13 % 2 = 0 then sendSignal (srcThread c t) c (x % 2 ^ 13) add
     else gwSend 0x03 2 (x / 2 ^ 14 % 2 ^ 16) (x % 2 ^ 13 + add * 2 ^ 16) [] (some c) none
       (pbxDropped c ST_REMOTE_UNREACHABLE))
    (nextPc c t))

def execSeqSignal (c : Fin 128) (t : Fin 16) (d a b : Fin 32) (fn : BitVec 9) (imm : BitVec 32) (s : State) :
    Host.Outcome State Fault Refusal :=
  (fetched c t (seqWord 0x24 d a b fn imm) (seqSignal c t a fn imm)).done s

/-- The thread goes into WAIT, from which a release takes it (R299, R307). -/
def goWait (c t target waiting sleeping v b : Nat) : Eff := .look fun s => .all [
  putReg (R.PBX_THR_WAIT c t) (BitVec.ofNat 64 (target + waiting * 2 ^ 6 + sleeping * 2 ^ 7 + v % 2 ^ 16 * 2 ^ 8 + b * 2 ^ 24)),
  .upd (.waitSince (c * 16 + t) s.now),
  putThr c t THR_WAIT]

/-- WAIT (R298, R299). -/
def seqWait (c t a b : Nat) (fn : BitVec 9) (imm : BitVec 32) : Eff := issue c t 0 fn (.look fun s =>
  let n := imm.toNat % 64
  let v := (s.sreg c t a).toNat % 2 ^ 16
  let l := (s.sreg c t b).toNat % 2 ^ 32
  if 47 < n then trapIllegal c t
  else if s.pbxMet c n v l then .seq (pbxConsume c n v l) (nextPc c t)
  else .all [
    .upd (.waiters (c * 48 + n) (s.waitersAt (c * 48 + n) ++ [t])),
    putBit ⟨R.PBX_VALUE c n, 32 + t, 1⟩ true,
    goWait c t n 1 0 v l])

def execSeqWait (c : Fin 128) (t : Fin 16) (d a b : Fin 32) (fn : BitVec 9) (imm : BitVec 32) (s : State) :
    Host.Outcome State Fault Refusal :=
  (fetched c t (seqWord 0x25 d a b fn imm) (seqWait c t a b fn imm)).done s

/-- ARRIVE (R306, R307): one arrival sets out; with fn[0] the thread sleeps, stamped with the releases its cell has seen. -/
def seqArrive (c t : Nat) (fn : BitVec 9) (imm : BitVec 32) : Eff := issue c t 1 fn (.look fun s =>
  let w := imm.toNat % 64
  let sleeps := fn.toNat % 2 == 1
  .seq (.upd (.arrQ (s.arrQ ++ [⟨w, srcThread c t, if sleeps then some (c, t) else none⟩])))
    (if sleeps then goWait c t w 0 1 (s.relSeenAt (c * 64 + w)) 0 else nextPc c t))

def execSeqArrive (c : Fin 128) (t : Fin 16) (d a b : Fin 32) (fn : BitVec 9) (imm : BitVec 32) (s : State) :
    Host.Outcome State Fault Refusal :=
  (fetched c t (seqWord 0x26 d a b fn imm) (seqArrive c t fn imm)).done s

/-- RDSTEP (R158). -/
def execSeqRdstep (c : Fin 128) (t : Fin 16) (d a b : Fin 32) (fn : BitVec 9) (imm : BitVec 32) (s : State) :
    Host.Outcome State Fault Refusal :=
  (fetched c t (seqWord 0x32 d a b fn imm) (scalar c t d fn fun s => BitVec.ofNat 64 (s.thrStepAt (c * 16 + t)))).done s

/-- RDTIME (R158, R43). -/
def execSeqRdtime (c : Fin 128) (t : Fin 16) (d a b : Fin 32) (fn : BitVec 9) (imm : BitVec 32) (s : State) :
    Host.Outcome State Fault Refusal :=
  (fetched c t (seqWord 0x33 d a b fn imm) (scalar c t d fn fun s => BitVec.ofNat 64 s.tideTime)).done s

/-- TRAP (R158, R159). -/
def execSeqTrap (c : Fin 128) (t : Fin 16) (d a b : Fin 32) (fn : BitVec 9) (imm : BitVec 32) (s : State) :
    Host.Outcome State Fault Refusal :=
  (fetched c t (seqWord 0x3F d a b fn imm) (issue c t 0 fn (.look fun s => .seq (put (R.SEQ_THR_STATUS_trap_imm c t) (imm.toNat % 256))
    (trapThread c t 0x0A ST_SEQ_TRAP (s.pc c t))))).done s

/-- ILLEGAL_INSTRUCTION (R158, R159): the word at the thread's pc has an opcode of none of the instructions. -/
def execIllegalInstruction (c : Fin 128) (t : Fin 16) (s : State) : Host.Outcome State Fault Refusal :=
  (.look fun s => match s.fetchWord c t with
    | some w => Eff.when (!opKnown (wordOp w)) (issue c t 0 0 (trapIllegal c t))
    | none => .skip : Eff).done s

/-! The instruction cache (R154) -/

/-- A SECDED error found in the cache itself at a fetch: 0 none, 1 corrected, 2 uncorrectable (R154). -/
def icacheError (c t : Nat) (err : Fin 3) : Eff := .look fun s => .seq
  (Eff.when (err.val == 1) (addSat (R.SEQ_ICACHE_corrected c) 1))
  (Eff.when (err.val == 2) (trapThread c t 0x05 ST_UNCORRECTABLE (s.pc c t)))

/-- ICACHE_FILL: the thread's fetch. A line that is present is read, with the error `err` found in it; a line that is not is
a miss: it is fetched and replaces the least recent line of its set, or the fetch traps the thread. -/
def icacheFill (c : Fin 128) (t : Fin 16) (err : Fin 3) : Eff := .look fun s =>
  let pc := s.pc c t
  let key := c.val * 64 + pc / 128 % 64
  if s.thr c t != THR_RUN then .skip
  else if (s.icLine c pc).isSome then icacheError c t err
  else whenFree (.thread c t) (pc / 128 * 128) 128 (
    memRead (.thread c t) .normal (pc / 128 * 128) 128 fun r => .seq (addSat (R.SEQ_ICACHE_misses c) 1)
      (if r.status ≠ ST_OK then trapThread c t 0x05 r.status pc
       else .all [
         .look fun s => .upd (.icache key (⟨pc / 128 * 128, r.data⟩ ::
           ((s.icacheAt key).filter fun l => !(l.base == pc / 128 * 128)).take 7)),
         icacheError c t err]))

def execIcacheFill (c : Fin 128) (t : Fin 16) (err : Fin 3) (s : State) : Host.Outcome State Fault Refusal :=
  (icacheFill c t err).done s

/-- ICACHE_INVALIDATE (R154). -/
def actIcacheInvalidate (who : Agent) (c : Nat) : Act := guardAct who (c * 16 + 1) 0x2000 fun _ =>
  (ST_OK, .upd (.icacheDrop fun k => k / 64 == c))

def execIcacheInvalidate (who : Agent) (c : Fin 128) (s : State) : Host.Outcome State Fault Refusal :=
  (runAct who (actIcacheInvalidate who c)).done s

/-! Responses (R153, R159) -/

/-- The value a load writes: its bytes, sign-extended when fn[2] says so. -/
def loadValue (x : Access) (bs : List Byte) : Word :=
  let v := leAt bs 0 x.size
  if x.sext && decide (2 ^ (8 * x.size - 1) ≤ v) then BitVec.ofInt 64 ((v : Int) - 2 ^ (8 * x.size)) else BitVec.ofNat 64 v

/-- A thread leaves its wait or sleep, consuming nothing (R160, R314). -/
def leaveWait (c t : Nat) : Eff := .look fun s => .all [
  Eff.when (s.bit (R.PBX_THR_WAIT_waiting c t)) (leavePostbox c (s.get (R.PBX_THR_WAIT_target c t)) t),
  Eff.when (s.thr c t == THR_WAIT) (waitOver c t)]

/-- The trap that a response takes the thread into; a thread that is TRAPPED or KILLED already stays as it is. -/
def responseTrap (c t : Nat) (x : Access) (st : Nat) : Eff := .look fun s =>
  if s.thr c t == THR_TRAPPED || s.thr c t == THR_KILLED then .skip
  else .seq (leaveWait c t)
    (trapImprecise c t (if st = ST_POISON ∨ st = ST_UNCORRECTABLE then 0x04 else 0x03) st x.addr x.pc)

/-- R174: the count of `n` collisions in the SRAM of a cell. -/
def countCollisions (addr cls n : Nat) : Eff :=
  match regionOf addr with
  | .sram c off | .setAlias c off | .clrAlias c off => .all [
      addSat (R.CELL_COLLISION_count c) n,
      put (R.CELL_COLLISION_last_bank c) (bankOf off),
      put (R.CELL_COLLISION_last_word c) ((off - (if off < 0x300000 then bankOf off * 0x20000 else 0x300000)) / 8),
      put (R.CELL_COLLISION_last_class c) cls]
  | _ => .skip

/-- An address in the SRAM of a cell or in one of its aliases. -/
def inSram (a : Nat) : Bool :=
  match regionOf a with
  | .sram _ _ | .setAlias _ _ | .clrAlias _ _ => true
  | _ => false

/-- LOAD_RESPONSE: the oldest answered access of the thread reaches it. `collided`: how many of the reads of a load in cell
SRAM, the first and up to four rereads, met a write to the word; all five trap the thread (R174). -/
def loadResponse (c : Fin 128) (t : Fin 16) (collided : Fin 6) : Eff := .look fun s =>
  let key := c.val * 16 + t.val
  match (s.loadsAt key).find? fun x => x.answer.isSome with
  | none => .skip
  | some x =>
    let r := x.answer.getD (onesResp ST_OK 8)
    .seq (.upd (.loads key ((s.loadsAt key).erase x)))
      (if r.status ≠ ST_OK then responseTrap c t x r.status
       else if x.load then .seq
         (Eff.when (inSram x.addr && collided.val != 0) (countCollisions x.addr (s.accClass (.thread c t) (cellAt x.addr)).1 collided))
         (if inSram x.addr && collided.val == 5 then responseTrap c t x ST_COLLISION else putSreg c t x.dest (loadValue x r.data))
       else Eff.when x.waits (putSreg c t x.dest (BitVec.ofNat 64 (leNat r.data))))

def execLoadResponse (c : Fin 128) (t : Fin 16) (collided : Fin 6) (s : State) : Host.Outcome State Fault Refusal :=
  (loadResponse c t collided).done s

/-! The control of a thread (R160, R314) -/

/-- THREAD_HALT: a running thread stops at its next instruction; a waiting one leaves its wait and issues it again later. -/
def actThreadHalt (who : Agent) (c t : Nat) : Act := guardAct who (c * 16 + 1) (t * 0x40 + 8) fun s =>
  (ST_OK, Eff.when (s.thr c t == THR_RUN || s.thr c t == THR_WAIT) (.seq (leaveWait c t) (putThr c t THR_HALTED)))

def execThreadHalt (who : Agent) (c : Fin 128) (t : Fin 16) (s : State) : Host.Outcome State Fault Refusal :=
  (runAct who (actThreadHalt who c t)).done s

/-- THREAD_RESUME: a trapped or halted thread goes on at SEQ_THR_PC. -/
def actThreadResume (who : Agent) (c t : Nat) : Act := guardAct who (c * 16 + 1) (t * 0x40 + 8) fun s =>
  (ST_OK, Eff.when (s.thr c t == THR_TRAPPED || s.thr c t == THR_HALTED) (putThr c t THR_RUN))

def execThreadResume (who : Agent) (c : Fin 128) (t : Fin 16) (s : State) : Host.Outcome State Fault Refusal :=
  (runAct who (actThreadResume who c t)).done s

/-! Owners (R169, R172) -/

/-- R172: whether an agent may write the owner entry of a bank. -/
def State.mayOwn (s : State) (who : Agent) (c b : Nat) : Bool :=
  let e := s.get (ownFld c b)
  let cls := e % 16
  ownAdmits e (s.accClass who c).1 (s.accClass who c).2 ||
    (match who with
     | .core _ => true
     | .thread c' _ => c'.val == c && (cls == 0 || decide (5 ≤ cls ∧ cls ≤ 8))
     | _ => false)

/-- R169, R172: an entry is written: accepted, it is pending until the switch; a reserved class is not stored (R6). -/
def ownWrite (who : Agent) (c b v : Nat) : Eff := .look fun s =>
  if !s.mayOwn who c b then ownFault c b (s.accClass who c).1
  else if 10 < v % 16 then .skip
  else put (ownFld c b) (v % 2 ^ 12 + 2 ^ 15)

/-- OWN (R158, R172): bank imm[4:0]; a bank above 23 is illegal. -/
def seqOwn (c : Fin 128) (t : Fin 16) (a : Nat) (fn : BitVec 9) (imm : BitVec 32) : Eff :=
  issue c t 0 fn (.look fun s =>
    if 23 < imm.toNat % 32 then trapIllegal c t
    else .seq (ownWrite (.thread c t) c (imm.toNat % 32) (s.sreg c t a).toNat) (nextPc c t))

def execSeqOwn (c : Fin 128) (t : Fin 16) (d a b : Fin 32) (fn : BitVec 9) (imm : BitVec 32) (s : State) :
    Host.Outcome State Fault Refusal :=
  (fetched c t (seqWord 0x27 d a b fn imm) (seqOwn c t a fn imm)).done s

/-- OWNER_WRITE (R172): each entry in the write (both halves, the low or the high one) is judged on its own. -/
def actOwnerWrite (who : Agent) (c i v half : Nat) : Act := guardAct who (c * 16) (0x10 + i * 8) fun s =>
  let js := if half = 0 then [0, 1, 2, 3] else if half = 1 then [0, 1] else [2, 3]
  (if js.all fun j => s.mayOwn who c (4 * i + j) then ST_OK else ST_NOT_OWNER,
   Eff.each js fun j => ownWrite who c (4 * i + j) (v / 2 ^ (16 * j) % 2 ^ 16))

def execOwnerWrite (who : Agent) (c : Fin 128) (i : Fin 6) (v : Word) (half : Fin 3) (s : State) :
    Host.Outcome State Fault Refusal := (runAct who (actOwnerWrite who c i v.toNat half)).done s

/-- OWNER_SWITCH (R172): the bank has finished the accesses it had accepted and clears pending. -/
def execOwnerSwitch (c : Fin 128) (b : Fin 24) (s : State) : Host.Outcome State Fault Refusal :=
  (putBit (ownPending c b) false).done s

/-! SRAM accesses (R168–R175) -/

/-- The address of an access: in the window, its bit-set alias or its bit-clear alias. -/
def sramWay (c way off : Nat) : Nat := sramAddr c off + 0x100000000 * way

/-- SRAM_ACCESS: an access of an agent to a cell's SRAM; `collided` says that it meets an access of the other kind to the same
word in the same ck (R174): the data of a read is then undefined, and a write takes effect with the flag in its response. -/
def sramAccess (who : Agent) (c way off n : Nat) (data : Option (List Byte)) (collided : Bool) : Eff := .look fun s =>
  let a := sramWay c way off
  match data with
  | some bs => memWrite who .normal a bs fun st old =>
      if collided && st == ST_OK then
        .seq (countCollisions a (s.accClass who c).1 1) (send (.reply ST_COLLISION (toLE 8 old)))
      else send (.reply st (toLE 8 old))
  | none => memRead who .normal a n fun r =>
      if collided && r.status == ST_OK then
        .seq (countCollisions a (s.accClass who c).1 1) (withFreeBytes n fun bs => send (.reply ST_COLLISION bs))
      else send (.reply r.status r.data)

def execSramAccess (who : Agent) (c : Fin 128) (way : Fin 3) (off : BitVec 22) (n : Nat) (data : Option (List Byte))
    (collided : Bool) (s : State) : Host.Outcome State Fault Refusal :=
  (sramAccess who c way off.toNat n data collided).done s

end Sys2Proof.Machine
end

