-- ==== Sys2Proof/Machine/Vector.lean ====
section
/-! DEFINITION. The vector unit (06_cell.md R161–R167): the checks of VOP at issue, the queue, and every operation. -/

namespace Sys2Proof.Machine

/-! Issue -/

/-- The defined operation codes, and for SCAN its modes (R161, R164). -/
def vecDefined (op mode : Nat) : Bool :=
  if op = 0x15 then decide (mode < 3) else mode == 0 && (decide (op ≤ 0x0C) || decide (0x10 ≤ op ∧ op ≤ 0x18))

/-- The bytes of one MERGE record of n values, padded to a multiple of 16 (R167). -/
def mergeRecord (n : Nat) : Nat := 16 + (n + 3) / 4 * 16

/-- The element width of a slot's codes: CB4 or CB8. -/
def State.codeBits (s : State) (c slot : Nat) : Nat := match s.cbUsable c slot with | some (1, _) => 8 | _ => 4

/-- Whether the slot may serve a nearest-code search (R78, R94). -/
def State.codeSlotOk (s : State) (c slot : Nat) : Bool :=
  (s.cbUsable c slot).isSome && s.regBit (cbKey c slot 127) 4

/-- Operands as (offset, length): those an operation reads in the SRAM. -/
def vecReads (v : VecOp) (sf df : Fmt) : List (Nat × Nat) :=
  match v.op with
  | 0x00 | 0x01 | 0x02 | 0x04 | 0x05 => [(v.a, sf.size v.n), (v.b, sf.size v.n)]
  | 0x03 => [(v.a, sf.size v.n), (v.b, sf.size v.n), (v.d, df.size v.n)]
  | 0x15 => [(v.a, if v.mode = 2 then 8 * v.n else sf.size v.n)]
  | 0x16 => []
  | 0x18 => [(v.a, v.b * mergeRecord v.n)]
  | _ => [(v.a, sf.size v.n)]

/-- The operand an operation writes. -/
def State.vecWrite (s : State) (c : Nat) (v : VecOp) (df : Fmt) : Nat × Nat :=
  match v.op with
  | 0x10 | 0x11 => (v.d, df.size 1)
  | 0x13 => (v.d, (v.b + 3) / 4 * 16 + 4 * v.b)
  | 0x14 => (v.d, (v.n * s.codeBits c (v.b % 64) + 7) / 8)
  | 0x16 => (v.d, 4 * v.n)
  | 0x17 => (v.d, 4)
  | 0x18 => (v.d, 16 + 4 * v.n)
  | _ => (v.d, df.size v.n)

/-- Whether the scalar of an operation lies in its range (R161). -/
def State.vecScalarOk (s : State) (c : Nat) (v : VecOp) : Bool :=
  match v.op with
  | 0x13 => decide (1 ≤ v.b ∧ v.b ≤ 64 ∧ v.b ≤ v.n)
  | 0x14 => s.codeSlotOk c (v.b % 64)
  | 0x18 => decide (2 ≤ v.b ∧ v.b ≤ 64)
  | _ => true

/-- The destination format; CODE has none and ignores the code (R161). -/
def VecOp.destFmt (v : VecOp) : Option Fmt := if v.op = 0x14 then some .fp32 else Fmt.ofCode v.dfmt

/-- R161: the status under which an operation is rejected at issue, ST_OK when it is queued. -/
def State.vecCheck (s : State) (c : Nat) (v : VecOp) : Nat :=
  match Fmt.ofCode v.sfmt, v.destFmt with
  | some sf, some df =>
    if !vecDefined v.op v.mode || v.n == 0 || !s.vecScalarOk c v then ST_BAD_ARG
    else
      let os := s.vecWrite c v df :: vecReads v sf df
      if os.any fun o => o.1 % 16 != 0 then ST_ALIGN
      else if os.any fun o => decide (0x300000 < o.1 + o.2) then ST_BAD_ARG
      else ST_OK
  | _, _ => ST_BAD_ARG

/-- VEC_STATUS shows the queue; the operation at its head is executing. -/
def vecShow (c : Nat) : Eff := .look fun s => .all [
  put (R.VEC_STATUS_queued c) (s.vecQAt c).length, putBit (R.VEC_STATUS_busy c) (!(s.vecQAt c).isEmpty)]

/-- SEQ_VOP (R161): queue the operation, stall on a full queue, or trap the thread. -/
def seqVop (c t d a b : Nat) (fn : BitVec 9) (imm : BitVec 32) : Eff := issue c t 0xFF fn (.look fun s =>
  let v : VecOp := ⟨t, s.pc c t, 1 + s.get (R.SEQ_THR_CFG_group c t), fn.toNat % 64, fn.toNat / 64 % 4, imm.toNat % 2 ^ 20,
    imm.toNat / 2 ^ 20 % 16, imm.toNat / 2 ^ 24 % 16, (s.sreg c t d).toNat, (s.sreg c t a).toNat, (s.sreg c t b).toNat⟩
  let st := s.vecCheck c v
  if st ≠ ST_OK then .all [
    put (R.VEC_STATUS_last_status c) st, put (R.VEC_STATUS_last_thread c) t, trapThread c t 0x07 st (s.pc c t)]
  else .all [.upd (.vecQ c (s.vecQAt c ++ [v])), vecShow c, nextPc c t])

def execSeqVop (c : Fin 128) (t : Fin 16) (d a b : Fin 32) (fn : BitVec 9) (imm : BitVec 32) (s : State) :
    Host.Outcome State Fault Refusal :=
  (fetched c t (seqWord 0x21 d a b fn imm) (seqVop c t d a b fn imm)).done s

/-! Arithmetic -/

/-- The rounding settings of the unit. -/
structure VSet where
  arith : RMode
  out   : RMode
  code  : RMode
  deriving DecidableEq, Repr

/-- The cell's settings (R83). -/
def State.vset (s : State) (c : Nat) : VSet :=
  ⟨s.site (R.CELL_ROUND_vec_arith c), s.site (R.CELL_ROUND_vec_out c), s.site (R.CELL_ROUND_vec_code c)⟩

/-- An FP32 result. -/
def VSet.r32 (m : VSet) (v : Num) : Calc Num := Fmt.fp32.round m.arith v

/-- The larger of two values, or the smaller; what the spec leaves open is picked (log entry 20). -/
def pickMax (larger : Bool) (a b : Num) : Calc Num := do
  let op := if larger then 4 else 5
  let bits ← f32 ⟨true, true⟩ a
  let bits' ← f32 ⟨true, true⟩ b
  if a.isNan || b.isNan then pure (Fmt.fp32.decode (Config.openPick op bits bits' % 2 ^ 32))
  else if a.lt b then pure (if larger then b else a)
  else if b.lt a then pure (if larger then a else b)
  else pure (if Config.openPick op bits bits' % 2 = 0 then a else b)

/-- One element of an element-wise operation, exact before its rounding. -/
def vecElem (op : Nat) (a b d : Num) : Calc Num :=
  match op with
  | 0x00 => a.add b
  | 0x01 => a.add b.neg
  | 0x02 => a.mul b
  | 0x03 => do
    let p ← a.mul b
    p.add d
  | 0x04 => pickMax true a b
  | 0x05 => pickMax false a b
  | _ => pure a

/-- Store a result element: an operation on BF16 alone rounds once to BF16; every other rounds to FP32 at VEC_ARITH and
converts at VEC_OUT (R92, R161). -/
def VSet.store (m : VSet) (sf df : Fmt) (v : Num) : Calc Nat := do
  if sf == .bf16 && df == .bf16 then df.encode m.arith v
  else
    let x ← m.r32 v
    if df == .fp32 then f32 m.arith x else df.encode m.out x

/-- Convert an FP32 value to the destination format. -/
def VSet.conv (m : VSet) (df : Fmt) (v : Num) : Calc Nat :=
  if df == .fp32 then f32 m.arith v else df.encode m.out v

/-- SCALE: a × x + y (log entry 21). -/
def VSet.scale (m : VSet) (a x y : Num) : Calc Num := do
  let p ← a.mul x
  if Config.scaleFused then p.add y
  else
    let p ← m.r32 p
    p.add y

/-- The bits of a value that FP32 holds exactly; an infinity stays one (R92). -/
def VSet.bits32 (m : VSet) (v : Num) : Calc Nat :=
  match v with
  | .inf neg => pure (if neg then 0xFF800000 else 0x7F800000)
  | _ => f32 m.arith v

/-- The result of a special function in the destination format. -/
def VSet.fnConv (m : VSet) (df : Fmt) (v : Num) : Calc Nat := if df == .fp32 then m.bits32 v else df.encode m.out v

/-- A special function of an FP32 value, with the special inputs of R92. -/
def VSet.fn (m : VSet) (op : Nat) (a : Num) : Calc Num := do
  let b ← m.bits32 a
  let r ← (match op with
    | 0x08 => fnExp m.arith b
    | 0x09 => fnRcp m.arith b
    | 0x0A => fnRsqrt m.arith b
    | 0x0B => fnTanh m.arith b
    | _ => fnLogistic m.arith b)
  pure (Fmt.fp32.decode r)

/-- A sum with one rounding. -/
def VSet.add (m : VSet) (a b : Num) : Calc Num := do
  let x ← a.add b
  m.r32 x

/-- A product with one rounding. -/
def VSet.mul (m : VSet) (a b : Num) : Calc Num := do
  let x ← a.mul b
  m.r32 x

/-- A quotient with one rounding. -/
def VSet.div (m : VSet) (a b : Num) : Calc Num := do
  let x ← a.div b
  m.r32 x

/-- The elements of lane `i` of 64. -/
def laneOf (xs : List Num) (i : Nat) : List Num :=
  ((List.range ((xs.length + 63 - i) / 64)).map fun j => xs.getD (i + 64 * j) .zero)

/-- One lane, in order. -/
def laneFold (f : Num → Num → Calc Num) (empty : Num) : List Num → Calc Num
  | [] => pure empty
  | x :: rest => rest.foldlM f x

/-- One level of the binary tree: lane 2j with lane 2j + 1. -/
def treeLevel (f : Num → Num → Calc Num) : List Num → Calc (List Num)
  | a :: b :: rest => do
    let x ← f a b
    let xs ← treeLevel f rest
    pure (x :: xs)
  | xs => pure xs

/-- R162: the fixed order of `lanes` lanes and the tree over them. -/
def laneTree (f : Num → Num → Calc Num) (empty : Num) (lanes : Nat) (xs : List Num) : Calc Num := do
  let l0 ← (List.range lanes).mapM fun i => laneFold f empty (laneOf xs i)
  let l1 ← treeLevel f l0
  let l2 ← treeLevel f l1
  let l3 ← treeLevel f l2
  let l4 ← treeLevel f l3
  let l5 ← treeLevel f l4
  let l6 ← treeLevel f l5
  pure (l6.getD 0 empty)

/-- R162: the sum; an empty lane holds +0. -/
def VSet.sum (m : VSet) (xs : List Num) : Calc Num := laneTree m.add .zero 64 xs

/-- R162: the maximum; a lane without an element takes no part. -/
def vecMaxOf (xs : List Num) : Calc Num := laneTree (pickMax true) (.inf true) (min 64 xs.length) xs

/-- R162: softmax. -/
def VSet.softmax (m : VSet) (xs : List Num) : Calc (List Num) := do
  if xs.any Num.isNan then pure (xs.map fun _ => .nan)
  else if xs.all fun x => x == .inf true then pure (xs.map fun _ => .zero)
  else
    let top ← vecMaxOf xs
    let es ← xs.mapM fun x => if x == .inf true then pure Num.zero else do
      let d ← m.add x top.neg
      m.fn 0x08 d
    let total ← m.sum es
    (xs.zip es).mapM fun p => if p.1 == .inf true then pure Num.zero else m.div p.2 total

/-- Whether element `i` ranks above element `j` (R163): larger first, NaN below −∞, the lower index among equals. -/
def ranksAbove (xs : List Num) (i j : Nat) : Bool :=
  let a := xs.getD i .zero
  let b := xs.getD j .zero
  if a.isNan then b.isNan && decide (i < j)
  else if b.isNan then true
  else b.lt a || (!a.lt b && decide (i < j))

/-- The rank of element `i`. -/
def rankOf (xs : List Num) (i : Nat) : Nat :=
  ((List.range xs.length).filter fun j => j != i && ranksAbove xs j i).length

/-- The index of the element of rank `r`. -/
def atRank (xs : List Num) (r : Nat) : Nat := ((List.range xs.length).find? fun i => rankOf xs i == r).getD 0

/-- R164, modes 0 and 1: running sums from c; the exclusive mode does not add the last element. -/
def runSums (f : Num → Num → Calc Num) (incl : Bool) : Num → List Num → Calc (List Num)
  | _, [] => pure []
  | acc, x :: rest =>
    if !incl && rest.isEmpty then pure [acc]
    else do
      let nxt ← f acc x
      let ys ← runSums f incl nxt rest
      pure ((if incl then nxt else acc) :: ys)

/-- Running sums with one FP32 rounding each. -/
def VSet.runSum (m : VSet) (incl : Bool) (acc : Num) (xs : List Num) : Calc (List Num) := runSums m.add incl acc xs

/-- R164 with INT32: the sum saturates (R82). -/
def runSumInt (md : RMode) (incl : Bool) (acc : Num) (xs : List Num) : Calc (List Num) :=
  runSums (fun a x => do
    let t ← a.add x
    Fmt.int32.round md t) incl acc xs

/-- R164, mode 2: h_i = p_i × h_{i−1} + q_i with one rounding a step. -/
def VSet.recur (m : VSet) : Num → List (Num × Num) → Calc (List Num)
  | _, [] => pure []
  | h, (p, q) :: rest => do
    let x ← p.mul h
    let y ← x.add q
    let h' ← m.r32 y
    let hs ← m.recur h' rest
    pure (h' :: hs)

/-- One round of Philox4x32: its counter words and key words. -/
def philoxRound (x : Nat × Nat × Nat × Nat) (k : Nat × Nat) : Nat × Nat × Nat × Nat :=
  let p0 := 0xD2511F53 * x.1
  let p1 := 0xCD9E8D57 * x.2.2.1
  (Nat.xor (Nat.xor (p1 / 2 ^ 32) x.2.1) k.1, p1 % 2 ^ 32, Nat.xor (Nat.xor (p0 / 2 ^ 32) x.2.2.2) k.2, p0 % 2 ^ 32)

/-- Philox4x32 with `n` rounds. -/
def philox : Nat → Nat × Nat × Nat × Nat → Nat × Nat → Nat × Nat × Nat × Nat
  | 0, x, _ => x
  | n + 1, x, k => philox n (philoxRound x k) ((k.1 + 0x9E3779B9) % 2 ^ 32, (k.2 + 0xBB67AE85) % 2 ^ 32)

/-- R165: element `i` of RNG as FP32 bits. -/
def rngElem (key ctr i : Nat) : Nat :=
  let c := (ctr + i / 4) % 2 ^ 64
  let o := philox 10 (c % 2 ^ 32, c / 2 ^ 32, 0, 0) (key % 2 ^ 32, key / 2 ^ 32 % 2 ^ 32)
  let w := match i % 4 with
    | 0 => o.1 | 1 => o.2.1 | 2 => o.2.2.1 | _ => o.2.2.2
  Fmt.fp32.roundBits true (w / 256) (-24)

/-- R166: the index that SAMPLE writes. -/
def VSet.sample (m : VSet) (ps : List Num) (u : Num) : Calc Nat := do
  let ps := ps.map fun p => if p.isNan || p.lt .zero then Num.zero else p
  if ps.all fun p => !Num.zero.lt p then pure 0xFFFFFFFF
  else
    let cs ← m.runSum true .zero ps
    let x ← m.mul u (cs.getD (ps.length - 1) .zero)
    match (List.range ps.length).find? fun i => x.lt (cs.getD i .zero) with
    | some i => pure i
    | none => pure (((List.range ps.length).reverse.find? fun i => Num.zero.lt (ps.getD i .zero)).getD 0xFFFFFFFF)

/-- A partial of MERGE: m, l and its values. -/
def mergePart (bs : List Byte) (n p : Nat) : Num × Num × List Num :=
  let at0 := p * mergeRecord n
  (Fmt.fp32.decode (leAt bs at0 4), Fmt.fp32.decode (leAt bs (at0 + 4) 4),
    (List.range n).map fun i => Fmt.fp32.decode (leAt bs (at0 + 16 + 4 * i) 4))

/-- Whether a value is a zero. -/
def Num.isZero : Num → Bool
  | .fin _ m _ => m == 0
  | _ => false

/-- acc + w × o. -/
def VSet.mergeAdd (m : VSet) (acc w o : Num) : Calc Num := do
  let p ← w.mul o
  if Config.mergeFused then
    let x ← p.add acc
    m.r32 x
  else
    let p ← m.r32 p
    m.add acc p

/-- R167: the merged record (M, l, o) as bytes. -/
def VSet.merge (m : VSet) (bs : List Byte) (n parts : Nat) : Calc (List Byte) := do
  let ps := ((List.range parts).map fun p => mergePart bs n p).filter fun p => !p.2.1.isZero
  if ps.isEmpty then pure (toLE 4 0xFF800000 ++ toLE 4 0 ++ toLE 8 0 ++ (List.range n).flatMap fun _ => toLE 4 0)
  else
    let top ← vecMaxOf (ps.map fun p => p.1)
    let ws ← ps.mapM fun p => do
      let d ← m.add p.1 top.neg
      let e ← m.fn 0x08 d
      m.mul p.2.1 e
    let l ← (match ws with
      | [] => pure Num.zero
      | w :: rest => rest.foldlM (fun acc x => m.add acc x) w)
    let os ← (List.range n).mapM fun i => do
      let t ← ((ws.zip ps).foldlM (fun acc x => m.mergeAdd acc x.1 (x.2.2.2.getD i .zero)) Num.zero)
      let o ← m.div t l
      f32 m.arith o
    let topB ← f32 m.arith top
    let lB ← f32 m.arith l
    pure (toLE 4 topB ++ toLE 4 lB ++ toLE 8 0 ++ os.flatMap fun o => toLE 4 o)

/-- All of an operation on its source bytes: the bytes it writes. -/
def vecCompute (m : VSet) (v : VecOp) (sf df : Fmt) (entries : List Num) (codeBits : Nat) (srcs : List (List Byte)) :
    Calc (List Byte) :=
  let a := srcs.getD 0 []
  let xs := sf.values a v.n
  match v.op with
  | 0x06 => do
    let rs ← xs.mapM fun x => do
      let r ← m.scale x (Fmt.fp32.decode (v.b % 2 ^ 32)) (Fmt.fp32.decode (v.b / 2 ^ 32 % 2 ^ 32))
      m.store sf df r
    pure (packElems df.bits rs)
  | 0x08 | 0x09 | 0x0A | 0x0B | 0x0C => do
    let rs ← xs.mapM fun x => do
      let r ← m.fn v.op x
      m.fnConv df r
    pure (packElems df.bits rs)
  | 0x10 => do
    let r ← m.sum xs
    let b ← m.conv df r
    pure (packElems df.bits [b])
  | 0x11 => do
    let r ← vecMaxOf xs
    let b ← m.conv df r
    pure (packElems df.bits [b])
  | 0x12 => do
    let rs ← m.softmax xs
    let bs ← rs.mapM fun r => m.conv df r
    pure (packElems df.bits bs)
  | 0x13 => do
    let is := (List.range v.b).map fun r => atRank xs r
    let vs ← is.mapM fun i => f32 m.arith (xs.getD i .zero)
    let head := packElems 32 vs
    pure (head ++ List.replicate ((v.b + 3) / 4 * 16 - head.length) 0 ++ packElems 32 is)
  | 0x14 => do
    let cs ← xs.mapM fun x => nearestCode m.code.rne entries x
    pure (packElems codeBits cs)
  | 0x15 => do
    let rs ← (if v.mode = 2 then
        m.recur (Fmt.fp32.decode (v.b % 2 ^ 32)) ((List.range v.n).map fun i =>
          (Fmt.fp32.decode (leAt a (8 * i) 4), Fmt.fp32.decode (leAt a (8 * i + 4) 4)))
      else if sf == .int32 then runSumInt m.arith (v.mode == 0) (Fmt.int32.decode v.b) xs
      else m.runSum (v.mode == 0) (Fmt.fp32.decode (v.b % 2 ^ 32)) xs)
    let bs ← rs.mapM fun r => m.conv df r
    pure (packElems df.bits bs)
  | 0x16 => pure (packElems 32 ((List.range v.n).map fun i => rngElem v.a v.b i))
  | 0x17 => do
    let i ← m.sample xs (Fmt.fp32.decode (v.b % 2 ^ 32))
    pure (toLE 4 i)
  | 0x18 => m.merge a v.n v.b
  | _ => do
    let ys := sf.values (srcs.getD 1 []) v.n
    let ds := df.values (srcs.getD 2 []) v.n
    let rs ← (List.range v.n).mapM fun i => do
      let r ← vecElem v.op (xs.getD i .zero) (ys.getD i .zero) (ds.getD i .zero)
      m.store sf df r
    pure (packElems df.bits rs)

/-! Execution -/

/-- Whether an operation's result elements depend on one source element each. -/
def elementwise (op : Nat) : Bool := decide (op ≤ 0x0C) || op == 0x14

/-- Whether any byte of an element is bad. -/
def elemBad (bits : Nat) (bad : List Bool) (i : Nat) : Bool :=
  if bits = 4 then bad.getD (i / 2) false else (List.range (bits / 8)).any fun j => bad.getD (i * (bits / 8) + j) false

/-- R458: the bytes of the result that the poison reaches. -/
def vecBad (v : VecOp) (sf df : Fmt) (codeBits len : Nat) (rs : List Resp) : List Bool :=
  let wOut := if v.op = 0x14 then codeBits else df.bits
  let hit := fun i => (rs.zip [sf.bits, sf.bits, df.bits]).any fun r => elemBad r.2 r.1.bad i
  if rs.any fun r => r.bad.any id then
    (if elementwise v.op then (List.range len).map fun j =>
      if wOut = 4 then hit (2 * j) || hit (2 * j + 1) else hit (j / (wOut / 8))
     else List.replicate len true)
  else List.replicate len false

/-- The clocks an operation takes (R161). -/
def vecCk (v : VecOp) (sf df : Fmt) (codeBits : Nat) : Nat :=
  let g := fun k => (v.n + k - 1) / k
  match v.op with
  | 0x08 | 0x09 | 0x0A | 0x0B | 0x0C => g 32 + 16
  | 0x10 | 0x11 => g 64 + 16
  | 0x12 => 3 * g 64 + 24
  | 0x13 => g 64 * ((v.b + 15) / 16) + 16
  | 0x14 => g 64 * codeBits + 12
  | 0x15 => if v.mode = 2 then g 32 + 8 else g 64 + 8
  | 0x16 => g 64 + 12
  | 0x17 => 2 * g 64 + 12
  | 0x18 => v.b * g 64 + 16
  | _ => (if sf == .bf16 && df == .bf16 then g 128 else g 64) + 12

/-- The issuing thread of a refused operation traps (log entry 29). -/
def vecTrap (c : Nat) (v : VecOp) (st addr : Nat) : Eff := .all [
  put (R.VEC_STATUS_last_status c) st, put (R.VEC_STATUS_last_thread c) v.thread,
  responseTrap c v.thread ⟨0, true, false, 0, 0, false, addr, v.pc, none⟩ st]

/-- Read the sources one after the other; a refused one ends the operation. -/
def vecReadAll (c : Nat) (v : VecOp) : List (Nat × Nat) → List Resp → (List Resp → Eff) → Eff
  | [], rs, k => k rs.reverse
  | (a, n) :: rest, rs, k => sramRead c a n (v.cls, 0) fun r =>
    if r.status = ST_OK ∨ r.status = ST_POISON ∨ r.status = ST_UNCORRECTABLE then vecReadAll c v rest (r :: rs) k
    else vecTrap c v r.status (sramAddr c a)

/-- Mark the words that hold poisoned bytes of the result. -/
def markBad (a : Nat) (bad : List Bool) : Eff := Eff.each (List.range bad.length) fun i =>
  Eff.when (bad.getD i false) (.upd (.marks ((a + i) / 8) .poison))

/-- The entries of the codebook slot that CODE names; a slot that is not usable has none. -/
def State.vecEntries (s : State) (c : Nat) (v : VecOp) : List Num :=
  match s.cbUsable c (v.b % 64) with
  | some (size, fmt) => (List.range (if size = 0 then 16 else 256)).map fun i => cbEntry fmt (s.cbBytes c (v.b % 64)) i
  | none => []

/-- The head operation leaves the queue and runs. `collided`: how many times the read of a source word met a write, in its first
read and up to four rereads (R174). -/
def vecRun (c op : Nat) (collided : Fin 6) : Eff := .look fun s =>
  match s.vecQAt c with
  | [] => .skip
  | v :: rest =>
    if v.op ≠ op then .skip
    else match Fmt.ofCode v.sfmt, v.destFmt with
    | some sf, some df =>
      let reads := vecReads v sf df
      let cb := s.codeBits c (v.b % 64)
      .all [
        .upd (.vecQ c rest), vecShow c,
        addSat (R.VEC_BUSY_CK_count c) (vecCk v sf df cb),
        Eff.when (collided.val != 0 && !reads.isEmpty) (countCollisions (sramAddr c (reads.getD 0 (0, 0)).1) v.cls collided),
        if collided.val == 5 && !reads.isEmpty then vecTrap c v ST_COLLISION (sramAddr c (reads.getD 0 (0, 0)).1)
        else if op = 0x14 && !s.codeSlotOk c (v.b % 64) then
          .all [put (R.VEC_STATUS_last_status c) ST_BAD_ARG, put (R.VEC_STATUS_last_thread c) v.thread]
        else vecReadAll c v reads [] fun rs =>
          readBook c (v.b % 64) (if op = 0x14 then s.bookWords c (v.b % 64) else []) fun bf =>
          runCalc c (vecCompute (s.vset c) v sf df (s.vecEntries c v) cb (rs.map fun r => r.data)) fun bs =>
            sramWrite c v.d bs (v.cls, 0) fun st =>
              let bad := if bf.isSome then List.replicate bs.length true else vecBad v sf df cb bs.length rs
              if st ≠ ST_OK then vecTrap c v st (sramAddr c v.d)
              else .all [
                markBad (sramAddr c v.d) bad,
                Eff.when (bad.any id) (.all [
                  put (R.VEC_STATUS_last_status c) ST_POISON, put (R.VEC_STATUS_last_thread c) v.thread]),
                addSat (R.VEC_OPS_count c) 1]]
    | _, _ => .skip

/-- VEC_ADD (R161). -/
def execVecAdd (c : Fin 128) (collided : Fin 6) (s : State) : Host.Outcome State Fault Refusal :=
  (vecRun c 0x00 collided).done s

/-- VEC_SUB (R161). -/
def execVecSub (c : Fin 128) (collided : Fin 6) (s : State) : Host.Outcome State Fault Refusal :=
  (vecRun c 0x01 collided).done s

/-- VEC_MUL (R161). -/
def execVecMul (c : Fin 128) (collided : Fin 6) (s : State) : Host.Outcome State Fault Refusal :=
  (vecRun c 0x02 collided).done s

/-- VEC_FMA (R161). -/
def execVecFma (c : Fin 128) (collided : Fin 6) (s : State) : Host.Outcome State Fault Refusal :=
  (vecRun c 0x03 collided).done s

/-- VEC_MAX (R161). -/
def execVecMax (c : Fin 128) (collided : Fin 6) (s : State) : Host.Outcome State Fault Refusal :=
  (vecRun c 0x04 collided).done s

/-- VEC_MIN (R161). -/
def execVecMin (c : Fin 128) (collided : Fin 6) (s : State) : Host.Outcome State Fault Refusal :=
  (vecRun c 0x05 collided).done s

/-- SCALE (R161). -/
def execScale (c : Fin 128) (collided : Fin 6) (s : State) : Host.Outcome State Fault Refusal :=
  (vecRun c 0x06 collided).done s

/-- CVT (R161). -/
def execCvt (c : Fin 128) (collided : Fin 6) (s : State) : Host.Outcome State Fault Refusal :=
  (vecRun c 0x07 collided).done s

/-- EXP (R161). -/
def execExp (c : Fin 128) (collided : Fin 6) (s : State) : Host.Outcome State Fault Refusal :=
  (vecRun c 0x08 collided).done s

/-- RCP (R161). -/
def execRcp (c : Fin 128) (collided : Fin 6) (s : State) : Host.Outcome State Fault Refusal :=
  (vecRun c 0x09 collided).done s

/-- RSQRT (R161). -/
def execRsqrt (c : Fin 128) (collided : Fin 6) (s : State) : Host.Outcome State Fault Refusal :=
  (vecRun c 0x0A collided).done s

/-- TANH (R161). -/
def execTanh (c : Fin 128) (collided : Fin 6) (s : State) : Host.Outcome State Fault Refusal :=
  (vecRun c 0x0B collided).done s

/-- LOGISTIC (R161). -/
def execLogistic (c : Fin 128) (collided : Fin 6) (s : State) : Host.Outcome State Fault Refusal :=
  (vecRun c 0x0C collided).done s

/-- RSUM (R161). -/
def execRsum (c : Fin 128) (collided : Fin 6) (s : State) : Host.Outcome State Fault Refusal :=
  (vecRun c 0x10 collided).done s

/-- RMAX (R161). -/
def execRmax (c : Fin 128) (collided : Fin 6) (s : State) : Host.Outcome State Fault Refusal :=
  (vecRun c 0x11 collided).done s

/-- SOFTMAX (R161). -/
def execSoftmax (c : Fin 128) (collided : Fin 6) (s : State) : Host.Outcome State Fault Refusal :=
  (vecRun c 0x12 collided).done s

/-- TOPK (R161). -/
def execTopk (c : Fin 128) (collided : Fin 6) (s : State) : Host.Outcome State Fault Refusal :=
  (vecRun c 0x13 collided).done s

/-- CODE (R161). -/
def execCode (c : Fin 128) (collided : Fin 6) (s : State) : Host.Outcome State Fault Refusal :=
  (vecRun c 0x14 collided).done s

/-- SCAN (R161). -/
def execScan (c : Fin 128) (collided : Fin 6) (s : State) : Host.Outcome State Fault Refusal :=
  (vecRun c 0x15 collided).done s

/-- RNG (R161). -/
def execRng (c : Fin 128) (collided : Fin 6) (s : State) : Host.Outcome State Fault Refusal :=
  (vecRun c 0x16 collided).done s

/-- SAMPLE (R161). -/
def execSample (c : Fin 128) (collided : Fin 6) (s : State) : Host.Outcome State Fault Refusal :=
  (vecRun c 0x17 collided).done s

/-- MERGE (R161). -/
def execMerge (c : Fin 128) (collided : Fin 6) (s : State) : Host.Outcome State Fault Refusal :=
  (vecRun c 0x18 collided).done s

end Sys2Proof.Machine
end

