-- ==== Sys2Proof/Machine/Engines.lean ====
section
/-! DEFINITION. The queue-engine channels of a cell (06_cell.md R176–R180) but for the movement of their bytes, and the
credit queues of the routes (02_tide.md R59–R67). -/

namespace Sys2Proof.Machine

/-! Reading a descriptor at issue (R159, R170) -/

/-- A 64-byte descriptor that a thread names at offset `off` of its cell's general SRAM; a failure traps the thread.
`collided`: how many of the read and its four rereads met a write. -/
def descRead (c t off : Nat) (collided : Fin 6) (k : List Byte → Eff) : Eff := .look fun s =>
  let cls := 1 + s.get (R.SEQ_THR_CFG_group c t)
  if off % 64 ≠ 0 then trapThread c t 0x02 ST_ALIGN off
  else if 0x300000 < off + 64 then trapThread c t 0x03 ST_ADDR_UNMAPPED off
  else sramRead c off 64 (cls, 0) fun r =>
    if r.status = ST_POISON ∨ r.status = ST_UNCORRECTABLE then trapThread c t 0x04 r.status (sramAddr c off)
    else if r.status ≠ ST_OK then trapThread c t 0x03 r.status (sramAddr c off)
    else .seq (Eff.when (collided.val != 0) (countCollisions (sramAddr c off) cls collided))
      (if collided.val = 5 then trapThread c t 0x03 ST_COLLISION (sramAddr c off) else k r.data)

/-- A 64-byte descriptor named by a register write (FEED_ISSUE, QUE_CH_SUBMIT): read once under a class; the continuation
gets the status of the read. -/
def descSubmitRead (c off cls : Nat) (collided : Bool) (k : Nat → List Byte → Eff) : Eff :=
  if 0x300000 < off + 64 then k ST_ADDR_UNMAPPED []
  else sramRead c off 64 (cls, 0) fun r =>
    if r.status = ST_OK ∧ collided then .seq (countCollisions (sramAddr c off) cls 1) (k ST_COLLISION [])
    else k r.status r.data

/-! Descriptors (R177, R178) -/

/-- The fields of a descriptor. -/
def qeParse (bs : List Byte) (id step : Nat) (thread : Option Nat) : QeDesc :=
  ⟨id, byteAt bs 0, byteAt bs 1, byteAt bs 2, byteAt bs 3, leAt bs 4 2, byteAt bs 6, leAt bs 8 8, leAt bs 16 8, leAt bs 24 8,
    leAt bs 32 4, leAt bs 36 4, leAt bs 40 8, leAt bs 48 8, thread, step, false, 0, none⟩

/-- R178: whether a descriptor is rejected. -/
def State.qeRejects (s : State) (c : Nat) (bs : List Byte) (d : QeDesc) : Bool :=
  decide (4 < d.op) || d.flags / 8 != 0 || byteAt bs 7 != 0 || d.hint / 32 != 0 || leAt bs 56 8 != 0 ||
    (d.op == 1 && (decide (31 < d.route) || !s.bit (R.QUE_ROUTE_OUT_CFG_valid c d.route))) ||
    (decide (d.op ≤ 2) && decide (2 ^ 32 < d.length)) ||
    (decide (3 ≤ d.op) && (d.count == 0 || decide (65536 < d.count) || d.rowBytes == 0 || decide (65536 < d.rowBytes) ||
      d.list % 8 != 0)) ||
    (d.flags / 2 % 2 == 1 && decide (6143 < d.tagPbx)) || (d.flags / 4 % 2 == 1 && decide (47 < d.donePbx))

/-- The bytes a descriptor moves. -/
def QeDesc.total (d : QeDesc) : Nat := if 3 ≤ d.op then d.count * d.rowBytes else d.length

/-- The hint of a descriptor (R177). -/
def QeDesc.hintOf (d : QeDesc) : Hint :=
  match d.hint % 4 with
  | 0 => .normal
  | 1 => .stream
  | 2 => .keep ⟨d.hint / 4 % 8, Nat.mod_lt _ (by decide)⟩
  | _ => .lastUse

/-- The landing tag of a descriptor. -/
def QeDesc.tag (d : QeDesc) : Option Nat := if d.flags / 2 % 2 = 1 then some d.tagPbx else none

/-! Channel state -/

/-- Channel states (QUE_CH_STATUS). -/
def CH_IDLE : Nat := 0
def CH_RUN : Nat := 1
def CH_PAUSED : Nat := 2
def CH_HALTED : Nat := 3

/-- A channel is HALTED. -/
def State.chHalted (s : State) (c k : Nat) : Bool := s.get (R.QUE_CH_STATUS_state c k) == CH_HALTED

/-- The state of a channel that is not HALTED (R179). -/
def State.chState (s : State) (c k : Nat) : Nat :=
  let q := s.qeQAt (c * 8 + k)
  if q.any fun d => d.started then CH_RUN
  else if s.bit (R.QUE_CH_CTRL_pause c k) then CH_PAUSED
  else if q.isEmpty then CH_IDLE else CH_RUN

/-- Show the queue in the channel's registers. -/
def qeShow (c k : Nat) : Eff := .look fun s => .all [
  put (R.QUE_CH_STATUS_queued c k) (s.qeQAt (c * 8 + k)).length,
  put (R.QUE_CH_PROGRESS_bytes_done c k) (match s.qeQAt (c * 8 + k) with | d :: _ => d.pos | [] => 0),
  put (R.QUE_LIMITS_desc_outstanding c) (s.qeOutstanding c),
  Eff.when (!s.chHalted c k) (put (R.QUE_CH_STATUS_state c k) (s.chState c k)),
  .look fun s => evLevel (c * 8 + 1) ((List.range 8).any fun i => s.chHalted c i)]

/-- Put a descriptor at the end of a channel's queue. -/
def qeEnqueue (c k : Nat) (d : QeDesc) : Eff := .look fun s => .all [
  .upd (.qeQ (c * 8 + k) (s.qeQAt (c * 8 + k) ++ [d])), .upd (.tagNext (s.tagNext + 1)), qeShow c k]

/-- Replace a descriptor in its queue. -/
def qeSet (c k : Nat) (d : QeDesc) : Eff := .look fun s =>
  .upd (.qeQ (c * 8 + k) ((s.qeQAt (c * 8 + k)).map fun x => if x.id == d.id then d else x))

/-- A descriptor that QUE_CH_SUBMIT names enters its channel (R180). -/
def qeTake (c k off : Nat) (collided : Bool) : Eff := .look fun s =>
  if !decide ((s.qeQAt (c * 8 + k)).length < 64) then put (R.QUE_CH_STATUS_last_status c k) ST_BUSY
  else descSubmitRead c (off * 64) 5 collided fun st bs => .look fun s =>
    if st ≠ ST_OK then put (R.QUE_CH_STATUS_last_status c k) st
    else
      let d := qeParse bs s.tagNext 0 none
      if s.qeRejects c bs d then put (R.QUE_CH_STATUS_last_status c k) ST_QE_DESC_BAD else qeEnqueue c k d

/-- R60: the submissions that wait at the cell's limit go on, oldest first, while it has room. -/
def qeSubNext (c : Nat) : Eff := .look fun s => Eff.each (s.qeSubsAt c) fun x => .look fun s =>
  match s.qeSubsAt c with
  | y :: rest => Eff.when (y == x && decide (s.qeOutstanding c < 256)) (.seq (.upd (.qeSubs c rest)) (qeTake c x.chan x.off x.collided))
  | [] => .skip

/-- The head descriptor completes: it counts, and signals its done_pbx (R177, R296). -/
def qeComplete (c k : Nat) (d : QeDesc) (st : Nat) : Eff := .look fun s => .all [
  .upd (.qeQ (c * 8 + k) ((s.qeQAt (c * 8 + k)).filter fun x => x.id != d.id)),
  .upd (.qeFlush (c * 8 + k) ((s.qeFlushAt (c * 8 + k)).filter fun x => x != d.id)),
  addWrap (R.QUE_CH_DONE_completed c k) 1,
  Eff.when (st != ST_OK) (put (R.QUE_CH_STATUS_last_status c k) st),
  Eff.when (d.flags / 4 % 2 == 1) (sendSignal (srcEngine c k) c (c * 48 + d.donePbx) 1),
  qeSubNext c]

/-- R179: the channel halts; `thread` issued the descriptor at the head of its queue. -/
def chHalt (c k : Nat) (thread : Option Nat) (addr st : Nat) : Eff := .all [
  put (R.QUE_CH_STATUS_state c k) CH_HALTED,
  put (R.QUE_CH_STATUS_halt_cause c k) st,
  put (R.QUE_CH_FAULT_fault_addr c k) addr,
  put (R.QUE_CH_FAULT_status c k) st,
  put (R.QUE_CH_FAULT_thread c k) (thread.getD 0),
  putBit (R.QUE_CH_FAULT_via_submit c k) thread.isNone,
  qeShow c k]

/-- R179: the channel halts with the failing descriptor at the head of its queue. -/
def qeHalt (c k : Nat) (d : QeDesc) (addr st : Nat) : Eff :=
  .seq (Eff.when (d.op == 1) (put (R.QUE_ROUTE_OUT_STATE_last_status c d.route) st)) (chHalt c k d.thread addr st)

/-! Issue -/

/-- SEQ_QE (R176, R178): the descriptor at offset s[a] is copied into channel imm[2:0]; a full queue stalls the thread. -/
def seqQe (c t a : Nat) (fn : BitVec 9) (imm : BitVec 32) (collided : Fin 6) : Eff := issue c t 0 fn (.look fun s =>
  let k := imm.toNat % 8
  let off := (s.sreg c t a).toNat
  descRead c t off collided fun bs => .look fun s =>
    let d := qeParse bs s.tagNext (s.thrStepAt (c * 16 + t)) (some t)
    if s.qeRejects c bs d then trapThread c t 0x08 ST_QE_DESC_BAD (sramAddr c off)
    else .seq (qeEnqueue c k d) (nextPc c t))

def execSeqQe (c : Fin 128) (t : Fin 16) (d a b : Fin 32) (fn : BitVec 9) (imm : BitVec 32) (collided : Fin 6)
    (s : State) : Host.Outcome State Fault Refusal :=
  (fetched c t (seqWord 0x22 d a b fn imm) (seqQe c t a fn imm collided)).done s

/-- QUE_CH_SUBMIT (R180): at the cell's limit of 256 descriptors it waits (R60). -/
def actQueChSubmit (who : Agent) (c k off : Nat) (collided : Bool) : Act := guardAct who (c * 16 + 5) (k * 0x100 + 0x20) fun _ =>
  (ST_OK, .look fun s =>
    if 256 ≤ s.qeOutstanding c ∧ (s.qeQAt (c * 8 + k)).length < 64 then .upd (.qeSubs c (s.qeSubsAt c ++ [⟨k, off, collided⟩]))
    else qeTake c k off collided)

def execQueChSubmit (who : Agent) (c : Fin 128) (k : Fin 8) (off : BitVec 16) (collided : Bool) (s : State) :
    Host.Outcome State Fault Refusal := (runAct who (actQueChSubmit who c k off.toNat collided)).done s

/-! Responses and control (R179) -/

/-- A segment of the descriptor has not yet landed. -/
def State.segsOut (s : State) (d : QeDesc) : Bool := s.segQ.any fun g => g.desc == d.id

/-- QE_RESPONSE (R179): the fault of the head descriptor halts the channel; its last acknowledgement completes it. -/
def qeResponse (c k : Nat) : Eff := .look fun s =>
  match s.qeQAt (c * 8 + k) with
  | [] => .skip
  | d :: _ =>
    if s.chHalted c k || !d.started then .skip
    else match d.fault with
    | some (addr, st) => qeHalt c k d addr st
    | none =>
      if d.total = 0 then .seq (qeComplete c k d ST_BAD_ARG) (qeShow c k)
      else Eff.when (decide (d.total ≤ d.pos) && !s.segsOut d && !(s.qeFlushAt (c * 8 + k)).contains d.id) (.seq (qeComplete c k d ST_OK) (qeShow c k))

def execQeResponse (c : Fin 128) (k : Fin 8) (s : State) : Host.Outcome State Fault Refusal := (qeResponse c k).done s

/-- QUE_CH_PAUSE (R179): a HALTED channel stays HALTED whatever pause holds. -/
def actQueChPause (who : Agent) (c k : Nat) (pause : Bool) : Act := guardAct who (c * 16 + 5) (k * 0x100) fun _ =>
  (ST_OK, .seq (putBit (R.QUE_CH_CTRL_pause c k) pause) (qeShow c k))

def execQueChPause (who : Agent) (c : Fin 128) (k : Fin 8) (pause : Bool) (s : State) : Host.Outcome State Fault Refusal :=
  (runAct who (actQueChPause who c k pause)).done s

/-- The channel leaves HALTED. -/
def qeUnhalt (c k : Nat) : Eff := .seq (put (R.QUE_CH_STATUS_state c k) CH_RUN) (qeShow c k)

/-- QUE_CH_RESUME (R179): a HALTED channel restarts from the first byte that was not acknowledged. -/
def actQueChResume (who : Agent) (c k : Nat) : Act := guardAct who (c * 16 + 5) (k * 0x100) fun s =>
  (ST_OK, Eff.when (s.chHalted c k) (match s.qeQAt (c * 8 + k) with
    | d :: _ => .seq (qeSet c k { d with fault := none }) (qeUnhalt c k)
    | [] => qeUnhalt c k))

def execQueChResume (who : Agent) (c : Fin 128) (k : Fin 8) (s : State) : Host.Outcome State Fault Refusal :=
  (runAct who (actQueChResume who c k)).done s

/-- QUE_CH_SKIP (R179): the failing descriptor completes with ST_CHANNEL_HALTED and the queue continues. -/
def actQueChSkip (who : Agent) (c k : Nat) : Act := guardAct who (c * 16 + 5) (k * 0x100) fun s =>
  (ST_OK, Eff.when (s.chHalted c k) (match s.qeQAt (c * 8 + k) with
    | d :: _ => .seq (qeComplete c k d ST_CHANNEL_HALTED) (qeUnhalt c k)
    | [] => qeUnhalt c k))

def execQueChSkip (who : Agent) (c : Fin 128) (k : Fin 8) (s : State) : Host.Outcome State Fault Refusal :=
  (runAct who (actQueChSkip who c k)).done s

/-- Every descriptor of a channel completes with a status, in queue order. -/
def qeEndAll (c k st : Nat) : Eff := .look fun s => Eff.each (s.qeQAt (c * 8 + k)) fun d => qeComplete c k d st

/-- The descriptors of a channel that a flush ends complete with ST_ABORTED once no segment of theirs is under way (R179). -/
def qeFlushEnd (c k : Nat) : Eff := .look fun s =>
  let ds := (s.qeQAt (c * 8 + k)).filter fun d => (s.qeFlushAt (c * 8 + k)).contains d.id
  Eff.when (!ds.isEmpty && !ds.any fun d => s.segsOut d) (.seq (Eff.each ds fun d => qeComplete c k d ST_ABORTED) (qeUnhalt c k))

/-- QUE_CH_FLUSH (R179). -/
def actQueChFlush (who : Agent) (c k : Nat) : Act := guardAct who (c * 16 + 5) (k * 0x100) fun s =>
  (ST_OK, .all [
    .upd (.qeFlush (c * 8 + k) ((s.qeQAt (c * 8 + k)).map fun d => d.id)),
    qeFlushEnd c k,
    .look fun s => Eff.when (s.qeQAt (c * 8 + k)).isEmpty (qeUnhalt c k)])

def execQueChFlush (who : Agent) (c : Fin 128) (k : Fin 8) (s : State) : Host.Outcome State Fault Refusal :=
  (runAct who (actQueChFlush who c k)).done s

/-! Routes (R59–R67) -/

/-- R67: the source side of a route is initialised from its outbound configuration; credits under way are void. -/
def routeInitOut (c r : Nat) : Eff := .look fun s => .all [
  put (R.QUE_ROUTE_OUT_STATE_credits_avail c r)
    (if s.bit (R.QUE_ROUTE_OUT_CFG_valid c r) then s.get (R.QUE_ROUTE_OUT_CFG_credits c r) else 0),
  put (R.QUE_ROUTE_OUT_STATE_segs_in_flight c r) 0,
  putBit (R.QUE_ROUTE_OUT_STATE_broken c r) false,
  put (R.QUE_ROUTE_OUT_SEGS_segments_sent c r) 0,
  .upd (.routeSlot (c * 32 + r) 0),
  .upd (.creditQ (s.creditQ.filter fun x => !(x.cell == c && x.route == r)))]

/-- R67: the destination side of a route is initialised. -/
def routeInitIn (c r : Nat) : Eff := .all [
  put (R.QUE_ROUTE_IN_STATE_slots_held c r) 0, put (R.QUE_ROUTE_IN_STATE_segments_received c r) 0]

/-- The inbound slot of the route that leaves on outbound slot `r` of cell `c`: the one of its destination with this source and
ring. -/
def State.routeTo (s : State) (c r : Nat) : Option (Nat × Nat) :=
  let d := s.get (R.QUE_ROUTE_OUT_CFG_dest_cell c r)
  if !s.bit (R.QUE_ROUTE_OUT_CFG_valid c r) then none
  else ((List.range 32).find? fun q => s.bit (R.QUE_ROUTE_IN_CFG_valid d q) && s.get (R.QUE_ROUTE_IN_CFG_src_cell d q) == c &&
    s.get (R.QUE_ROUTE_IN_CFG_ring_base d q) == s.get (R.QUE_ROUTE_OUT_CFG_ring_base c r)).map fun q => (d, q)

/-- The outbound slot of the route that arrives on inbound slot `r` of cell `c`. -/
def State.routeFrom (s : State) (c r : Nat) : Option (Nat × Nat) :=
  let d := s.get (R.QUE_ROUTE_IN_CFG_src_cell c r)
  if !s.bit (R.QUE_ROUTE_IN_CFG_valid c r) then none
  else ((List.range 32).find? fun q => s.bit (R.QUE_ROUTE_OUT_CFG_valid d q) && s.get (R.QUE_ROUTE_OUT_CFG_dest_cell d q) == c &&
    s.get (R.QUE_ROUTE_OUT_CFG_ring_base d q) == s.get (R.QUE_ROUTE_IN_CFG_ring_base c r)).map fun q => (d, q)

/-- R67: the route of an outbound slot is initialised on both of its sides. -/
def routeInitFrom (c r : Nat) : Eff := .look fun s => .seq (routeInitOut c r)
  (match s.routeTo c r with
   | some x => routeInitIn x.1 x.2
   | none => .skip)

/-- R67: the route of an inbound slot is initialised on both of its sides. -/
def routeInitTo (c r : Nat) : Eff := .look fun s => .seq (routeInitIn c r)
  (match s.routeFrom c r with
   | some x => routeInitOut x.1 x.2
   | none => .skip)

/-- The bytes of a ring of cell `c` start and end here. -/
def State.ringOf (s : State) (c r : Nat) : Nat × Nat :=
  let base := s.get (R.QUE_ROUTE_IN_CFG_ring_base c r) * 4096
  (base, base + s.get (R.QUE_ROUTE_IN_CFG_credits c r) * 2 ^ s.get (R.QUE_ROUTE_IN_CFG_granule_log2 c r))

/-- R64: the inbound route a segment belongs to. -/
def State.inRoute (s : State) (g : Segment) : Option Nat := (List.range 32).find? fun r =>
  s.bit (R.QUE_ROUTE_IN_CFG_valid g.dest r) && s.get (R.QUE_ROUTE_IN_CFG_src_cell g.dest r) == g.cell &&
    decide ((s.ringOf g.dest r).1 ≤ g.off) && decide (g.off < (s.ringOf g.dest r).2)

/-- A credit sets out for its producer. -/
def sendCredit (g : Segment) (slot : Option Nat) (st : Nat) : Eff := .look fun s =>
  .upd (.creditQ (s.creditQ ++ [⟨g.cell, g.chan, g.route, g.desc, g.pos, g.dest, slot, st⟩]))

/-- The source channel of a segment halts, and its descriptor restarts at that segment (R66, R179). -/
def haltSource (cell chan desc pos addr st : Nat) : Eff := .look fun s =>
  match (s.qeQAt (cell * 8 + chan)).find? fun d => d.id == desc with
  | none => .skip
  | some d => .seq (qeSet cell chan { d with pos := min d.pos pos, fault := some (addr, st) })
      (Eff.when (!s.chHalted cell chan) (qeHalt cell chan d addr st))

/-- R464: a landed segment's bytes enter the check-value engines of its channel once every earlier byte of its descriptor is
acknowledged: none after a segment that was refused. -/
def State.segOrder (s : State) (g : Segment) : Bool :=
  (s.qeQAt (g.cell * 8 + g.chan)).any (fun d => d.id == g.desc && d.fault.isNone && decide (g.pos < d.pos)) &&
    !s.creditQ.any fun x => x.desc == g.desc && x.status != ST_OK

/-- R67: a segment of a route is in flight: under way to its slot, or landed and its credit still to come. -/
def State.routeBusy (s : State) (x : Option (Nat × Nat)) : Bool :=
  match x with
  | some y => (s.segQ.any fun g => g.cell == y.1 && g.route == y.2) || s.creditQ.any fun z => z.cell == y.1 && z.route == y.2
  | none => false

/-- R47: a transfer on a route is in flight: a segment of it is, or a channel that is not HALTED is sending. -/
def State.routeMoving (s : State) (x : Option (Nat × Nat)) : Bool := s.routeBusy x ||
  match x with
  | some y => (List.range 8).any fun k => !s.chHalted y.1 k &&
      (s.qeQAt (y.1 * 8 + k)).any fun d => d.started && d.op == 1 && d.route == y.2 && decide (d.pos < d.total)
  | none => false

/-- R59, R66: the consumer cell of routes is retired: its unreleased credits stay with it, and a channel with a transfer to it halts
after the last segment that was acknowledged. -/
def routesRetire (c : Nat) : Eff := .look fun s => .all [
  .upd (.segQ (s.segQ.filter fun g => g.dest != c)),
  .upd (.creditQ (s.creditQ.filter fun x => x.dest != c || x.slot.isNone)),
  Eff.each (List.range 1024) fun i => Eff.each (s.qeQAt i) fun d =>
    let gs := s.segQ.filter fun g => g.desc == d.id && g.dest == c
    Eff.when (d.op == 1 && d.started && s.get (R.QUE_ROUTE_OUT_CFG_dest_cell (i / 8) d.route) == c &&
        (decide (d.pos < d.total) || !gs.isEmpty)) (.seq
      (haltSource (i / 8) (i % 8) d.id ((gs.map fun g => g.pos).foldl min d.pos)
        (sramAddr c (s.get (R.QUE_ROUTE_OUT_CFG_ring_base (i / 8) d.route) * 4096)) ST_UNIT_RETIRED)
      (qeFlushEnd (i / 8) (i % 8)))]

/-- SEGMENT_LAND (R64, R66): the oldest segment lands in the ring of its inbound route or is refused. -/
def segmentLand : Eff := .look fun s =>
  match s.segQ with
  | [] => .skip
  | g :: rest => .all [.upd (.segQ rest), (
      let addr := sramAddr g.dest g.off
      if s.cellRetired g.dest then haltSource g.cell g.chan g.desc g.pos addr ST_UNIT_RETIRED
      else match s.inRoute g with
      | none => sendCredit g none ST_ADDR_UNMAPPED
      | some r => sramWrite g.dest g.off g.data (9, g.cell) fun st =>
          if st = ST_NOT_OWNER then sendCredit g none ST_NOT_OWNER
          else .all [
            .look fun s => put (R.QUE_ROUTE_IN_STATE_slots_held g.dest r) (s.get (R.QUE_ROUTE_IN_STATE_slots_held g.dest r) + 1),
            addWrap (R.QUE_ROUTE_IN_STATE_segments_received g.dest r) 1,
            (match g.tag with | some p => sendLanding addr p g.data.length | none => .skip),
            Eff.when (s.segOrder g) (snoop 1 0 (g.cell * 8 + g.chan) (at_ addr g.data)),
            sendCredit g (some r) ST_OK]),
    qeFlushEnd g.cell g.chan]

def execSegmentLand (s : State) : Host.Outcome State Fault Refusal := segmentLand.done s

/-- A credit is added to its producer. -/
def creditArrive (x : Credit) : Eff := .look fun s => .all [
  put (R.QUE_ROUTE_OUT_STATE_credits_avail x.cell x.route) (min 256 (s.get (R.QUE_ROUTE_OUT_STATE_credits_avail x.cell x.route) + 1)),
  put (R.QUE_ROUTE_OUT_STATE_segs_in_flight x.cell x.route) (s.get (R.QUE_ROUTE_OUT_STATE_segs_in_flight x.cell x.route) - 1),
  Eff.when (s.stallSinceAt (x.cell * 32 + x.route) != 0) (.all [
    addSat (R.QUE_ROUTE_OUT_STALL_no_credit_ck x.cell x.route) (s.ckIn (s.now + 1 - s.stallSinceAt (x.cell * 32 + x.route))),
    .upd (.stallSince (x.cell * 32 + x.route) 0)])]

/-- CREDIT_RETURN (R59, R66): the consumer frees the slot and the oldest credit reaches its producer; a refusal halts the
channel; a parity error discards the credit, halts the channel and breaks the route. The credit of a consumer whose cell is retired
stays with it. -/
def creditReturn (parity : Bool) : Eff := .look fun s =>
  match s.creditQ with
  | [] => .skip
  | x :: rest => .seq (.upd (.creditQ rest)) (Eff.when (!(x.slot.isSome && s.cellRetired x.dest)) (.all [
      (match x.slot with
       | some r => put (R.QUE_ROUTE_IN_STATE_slots_held x.dest r) (s.get (R.QUE_ROUTE_IN_STATE_slots_held x.dest r) - 1)
       | none => .skip),
      if parity then .all [
        putBit (R.QUE_ROUTE_OUT_STATE_broken x.cell x.route) true,
        put (R.QUE_ROUTE_OUT_STATE_last_status x.cell x.route) ST_PARITY,
        Eff.when (!s.chHalted x.cell x.chan)
          (chHalt x.cell x.chan ((s.qeQAt (x.cell * 8 + x.chan)).head?.bind fun d => d.thread) 0 ST_PARITY)]
      else .seq (creditArrive x)
        (if x.status = ST_OK then .skip else haltSource x.cell x.chan x.desc x.pos 0 x.status)]))

def execCreditReturn (parity : Bool) (s : State) : Host.Outcome State Fault Refusal := (creditReturn parity).done s

end Sys2Proof.Machine
end

