-- ==== Sys2Proof/Machine/Passes.lean ====
section
/-! DEFINITION. The passes of a cell's matrix array before they enter it (04_matrix_array.md R99–R104, R114–R120;
05_sparsity.md R133–R139): descriptors and their checks, the pass queue, sampling, zero-skip scans, runs and metadata.
Commands: SEQ_PASS, FEED_ISSUE, TILE_FETCH_START, ZSKIP_SCAN_END, METADATA_ARRIVAL, FEED_ENABLE, FEED_ABORT. -/

namespace Sys2Proof.Machine

/-- Run a continuation for each element and collect what they give. -/
def collect {α β : Type} : List α → (α → (β → Eff) → Eff) → (List β → Eff) → Eff
  | [], _, k => k []
  | x :: rest, f, k => f x fun b => collect rest f fun bs => k (b :: bs)

/-! The descriptor (R100) -/

/-- An offset field that is not used. -/
def noOffset : Nat := 0xFFFFFFFF

def Pass.flag (p : Pass) (i : Nat) : Bool := leAt p.desc 4 2 / 2 ^ i % 2 == 1
def Pass.first (p : Pass) : Bool := p.flag 0
def Pass.last (p : Pass) : Bool := p.flag 1
def Pass.md (p : Pass) : Bool := p.flag 2
def Pass.sp24 (p : Pass) : Bool := p.flag 3
def Pass.zskip (p : Pass) : Bool := p.flag 4
def Pass.mxA (p : Pass) : Bool := p.flag 5
def Pass.mxW (p : Pass) : Bool := p.flag 6
def Pass.neg (p : Pass) : Bool := p.flag 7
def Pass.dual (p : Pass) : Bool := p.flag 8
def Pass.neg2 (p : Pass) : Bool := p.flag 9
def Pass.mode (p : Pass) : Nat := leAt p.desc 4 2 / 2 ^ 10 % 4
def Pass.stepBound (p : Pass) : Bool := p.flag 12
def Pass.first2 (p : Pass) : Bool := p.flag 13
def Pass.wFmt (p : Pass) : Nat := byteAt p.desc 0
def Pass.outFmt (p : Pass) : Nat := byteAt p.desc 3
def Pass.m (p : Pass) : Nat := leAt p.desc 6 2
def Pass.wAddr (p : Pass) : Nat := leAt p.desc 8 8
def Pass.aBase (p : Pass) : Nat := leAt p.desc 16 4
def Pass.aStride (p : Pass) : Nat := leAt p.desc 20 4
def Pass.accRow (p : Pass) : Nat := leAt p.desc 24 2
def Pass.acc2Row (p : Pass) : Nat := leAt p.desc 26 2
def Pass.cbSlot (p : Pass) : Nat := byteAt p.desc 28
def Pass.part (p : Pass) : Nat := byteAt p.desc 29 % 4
def Pass.cplx (p : Pass) : Nat := byteAt p.desc 29 / 4 % 4
def Pass.shift (p : Pass) : Nat := byteAt p.desc 29 / 16 % 4
def Pass.zA (p : Pass) : Nat := byteAt p.desc 30
def Pass.pbx (p : Pass) : Nat := byteAt p.desc 31
def Pass.outBase (p : Pass) : Nat := leAt p.desc 32 4
def Pass.outStride (p : Pass) : Nat := leAt p.desc 36 4
def Pass.maskBase (p : Pass) : Nat := leAt p.desc 40 4
def Pass.sTensor (p : Pass) : Nat := leAt p.desc 44 4
def Pass.sChan (p : Pass) : Nat := leAt p.desc 48 4
def Pass.sRow (p : Pass) : Nat := leAt p.desc 52 4
def Pass.kScale (p : Pass) : Nat := leAt p.desc 56 4
def Pass.mxBase (p : Pass) : Nat := leAt p.desc 60 4

/-- Codebook weights. -/
def Pass.cb (p : Pass) : Bool := p.wFmt == 0x10 || p.wFmt == 0x11

/-- The operand format of the activations. -/
def Pass.aOp (p : Pass) : Fmt := (Fmt.ofCode (byteAt p.desc 1)).getD .fp32

/-- The stored format of the activations. -/
def Pass.aSrc (p : Pass) : Fmt := (Fmt.ofCode (byteAt p.desc 2)).getD .fp32

/-- Bits of a stored weight. -/
def Pass.wBits (p : Pass) : Nat :=
  if p.wFmt = 0x10 then 4 else if p.wFmt = 0x11 then 8 else ((Fmt.ofCode p.wFmt).getD .fp32).bits

/-- R97: weight rows stored. -/
def Pass.stored (p : Pass) : Nat :=
  if p.aOp.bits = 16 then 64 else if !p.cb && p.wBits == 4 && p.aOp.bits == 4 then 256 else 128

/-- R97: logical K per pass. -/
def Pass.k (p : Pass) : Nat := if p.sp24 then 256 else p.stored

/-- R136: groups per pass. -/
def Pass.groups (p : Pass) : Nat := p.k / 8

/-- Stored weight rows per group. -/
def Pass.groupRows (p : Pass) : Nat := if p.sp24 then 4 else 8

/-- Weight bytes per group. -/
def Pass.groupBytes (p : Pass) : Nat := p.groupRows * 64 * p.wBits / 8

/-- R102: bytes of the tile data. -/
def Pass.dataBytes (p : Pass) : Nat := p.stored * 64 * p.wBits / 8

/-- R102: the device address of the metadata. -/
def Pass.metaAddr (p : Pass) : Nat := p.wAddr + p.dataBytes + (if p.sp24 then 2048 else 0)

/-- Elements stored per activation row: a planar complex row holds two halves (R100). -/
def Pass.rowElems (p : Pass) : Nat := if p.cplx = 0 then p.k else 2 * p.k

/-- Bytes of a stored activation row. -/
def Pass.rowBytes (p : Pass) : Nat := p.aSrc.size p.rowElems

/-- Whether the pass writes output rows. -/
def Pass.output (p : Pass) : Bool := p.last && p.outFmt != 0xFF

/-- The output format. -/
def Pass.oFmt (p : Pass) : Fmt := (Fmt.ofCode p.outFmt).getD .fp32

/-! The checks at issue (R85, R101, R104) -/

/-- R101: codes that may be stored weights, stored activations, operands and outputs. -/
def wCode (n : Nat) : Bool := decide (n ≤ 4) || decide (8 ≤ n ∧ n ≤ 0x0B) || n == 0x10 || n == 0x11
def aCode (n : Nat) : Bool := decide (n ≤ 5) || decide (8 ≤ n ∧ n ≤ 0x0C)
def opCode (n : Nat) : Bool := decide (n ≤ 4) || decide (8 ≤ n ∧ n ≤ 0x0B)
def outCode (n : Nat) : Bool := decide (n ≤ 5) || decide (8 ≤ n ∧ n ≤ 0x0B) || n == 0x0D || n == 0xFF

/-- An FP8 or FP4 format. -/
def Fmt.tiny : Fmt → Bool
  | .e4m3 | .e5m2 | .e2m1 => true
  | _ => false

/-- BF16 or FP16. -/
def Fmt.half : Fmt → Bool
  | .bf16 | .fp16 => true
  | _ => false

/-- An integer format of at most 8 bits. -/
def Fmt.smallInt (f : Fmt) : Bool := f.isInt && decide (f.bits ≤ 8)

/-- R85: whether activations and weights pair, with or without MX scales. -/
def pairOk (a w : Fmt) (mx : Bool) : Bool :=
  (a.tiny && w.tiny) || (!mx && ((a.half && w.half) || (a.smallInt && w.smallInt)))

/-- R78: the entry format of a slot that a weight format can use. -/
def State.slotFor (s : State) (c wFmt slot : Nat) : Option Fmt :=
  match s.cbUsable c slot with
  | some (size, f) => if size = wFmt - 0x10 ∧ slot < 64 then some f else none
  | none => none

/-- R104: the weight operand formats that the pass may have, as far as its issue tells. -/
def State.wFmts (s : State) (c : Nat) (p : Pass) : List Fmt :=
  if p.cb then
    (if p.cbSlot = 0xFF then (if p.wFmt = 0x10 then [.e4m3, .e5m2, .bf16] else [.bf16])
     else if p.cbSlot < 64 then (s.slotFor c p.wFmt p.cbSlot).toList
     else [])
  else (Fmt.ofCode p.wFmt).toList

/-- R101, R104: the casts of the feeder. -/
def Pass.castOk (p : Pass) : Bool :=
  if p.part = 0 then p.aSrc == p.aOp ||
    (!p.aSrc.isInt && !p.aOp.isInt && decide (16 ≤ p.aSrc.bits) && decide (p.aOp.bits < p.aSrc.bits))
  else (p.aSrc == .fp32 && p.aOp == .bf16) || (p.aSrc == .int16 && p.aOp == (if p.part = 1 then .uint8 else .int8))

/-- The (offset, length) pairs in general SRAM that the pass uses (R104). -/
def Pass.uses (p : Pass) : List (Nat × Nat) :=
  [(p.aBase, if p.mode = 0 then (p.m - 1) * p.aStride + p.rowBytes else if p.mode = 1 then 4 * p.m else 32)] ++
  (if p.maskBase = noOffset then [] else [(p.maskBase, (p.m + 7) / 8)]) ++
  (if p.mxA then [(p.mxBase, 8 * p.m)] else []) ++
  (if p.output then [(p.outBase, (p.m - 1) * p.outStride + p.oFmt.size 64)] ++
      (if p.sChan = noOffset then [] else [(p.sChan, 256)]) ++ (if p.sRow = noOffset then [] else [(p.sRow, 4 * p.m)])
   else [])

/-- R104: an offset, stride or base that the pass uses is not aligned. -/
def Pass.misaligned (p : Pass) : Bool :=
  p.uses.any (fun u => u.1 % 16 != 0) || (p.mode == 0 && p.aStride % 16 != 0) ||
    (p.output && p.outStride % 16 != 0) || p.wAddr % 64 != 0

/-- R104: the status under which a pass is rejected at issue, ST_OK when it is queued. -/
def State.passCheck (s : State) (c : Nat) (p : Pass) : Nat :=
  let mx := p.mxA || p.mxW
  let ws := (s.wFmts c p).filter fun w => pairOk p.aOp w mx
  if p.misaligned then ST_ALIGN
  else if !(wCode p.wFmt && opCode (byteAt p.desc 1) && aCode (byteAt p.desc 2) && outCode p.outFmt) || p.mode == 3 ||
      p.part == 3 || p.shift == 3 || (decide (48 ≤ p.pbx) && p.pbx != 0xFF) then ST_BAD_ARG
  else if ws.isEmpty || !p.castOk || (p.cb && p.cbSlot == 0xFF && !p.md) || (p.mxW && !p.md) ||
      (p.sp24 && !ws.any fun w => w.bits == 8) || p.m == 0 || decide (512 < p.m) || decide (1023 < p.accRow + p.m - 1) ||
      (p.dual && decide (1023 < p.acc2Row + p.m - 1)) || (p.cplx == 3 && p.aSrc.isInt) || (p.part != 0 && p.zA != 0) ||
      p.uses.any (fun u => decide (0x300000 < u.1 + u.2)) then ST_BAD_ARG
  else ST_OK

/-! The queue -/

/-- The state of the feeder when it is not HALTED. -/
def State.feedState (s : State) (c : Nat) : Nat :=
  let q := s.passQAt c
  if q.any fun p => p.phase == 3 then (if q.any fun p => p.queued then 1 else 2)
  else if q.isEmpty || !s.bit (R.FEED_CTRL_enable c) then 0 else 1

/-- The feeder is HALTED (R129). -/
def State.feedHalted (s : State) (c : Nat) : Bool := s.get (R.FEED_STATUS_state c) == 3

/-- The stager slots in use (R107): a pass holds its slot from its fetch until its last shadow write, which ends just before the
pass completes (R105, R106). -/
def State.stagerUsed (s : State) (c : Nat) : Nat := ((s.passQAt c).filter fun p => decide (1 ≤ p.phase) && decide (p.phase ≤ 3)).length

/-- FEED_STATUS shows the queue; while a last pass with output is in the array, its rows hold some of the 32 output-row credits
(R125). -/
def feedShow (c : Nat) : Eff := .look fun s => .all [
  put (R.FEED_STATUS_queued c) (s.passCount c),
  put (R.FEED_STATUS_slots_used c) (s.stagerUsed c),
  (if (s.passQAt c).any fun p => p.phase == 3 && p.output then withFree fun w => put (R.DRN_STATUS_out_credits c) (w.toNat % 33)
   else Eff.when (s.get (R.DRN_STATUS_out_credits c) != 32) (put (R.DRN_STATUS_out_credits c) 32)),
  Eff.when (!s.feedHalted c) (put (R.FEED_STATUS_state c) (s.feedState c))]

/-- Replace a pass in its queue. -/
def setPass (c : Nat) (p : Pass) : Eff := .look fun s =>
  .upd (.passQ c ((s.passQAt c).map fun x => if x.id == p.id then p else x))

/-- Record a fault of the feeder. -/
def feedFault (c : Nat) (p : Pass) (addr st : Nat) : Eff := .all [
  put (R.FEED_STATUS_last_status c) st,
  put (R.FEED_LAST_FAULT_fault_addr c) addr,
  put (R.FEED_LAST_FAULT_status c) st,
  put (R.FEED_LAST_FAULT_thread c) (p.thread.getD 0),
  putBit (R.FEED_LAST_FAULT_via_issue c) p.thread.isNone]

/-- A pass as it is issued. -/
def passNew (id addr step : Nat) (thread : Option Nat) (desc : List Byte) : Pass :=
  ⟨id, desc, addr, thread, step, 0, [], false, 0, none, false, [], id, none, [], none⟩

/-- Put a pass at the end of the queue. -/
def passEnqueue (c : Nat) (p : Pass) : Eff := .look fun s => .all [
  feedCount c,
  .upd (.passQ c (s.passQAt c ++ [p])), .upd (.tagNext (s.tagNext + 1)), feedShow c]

/-- SEQ_PASS (R99, R104): a full queue or a stopped feeder stalls the thread. -/
def seqPass (c t a : Nat) (fn : BitVec 9) (collided : Fin 6) : Eff := issue c t 0 fn (.look fun s =>
  let off := (s.sreg c t a).toNat
  descRead c t off collided fun bs => .look fun s =>
    let p := passNew s.tagNext (sramAddr c off) (s.thrStepAt (c * 16 + t)) (some t) bs
    let st := s.passCheck c p
    if st ≠ ST_OK then .seq (feedFault c p p.addr st) (trapThread c t 0x06 st p.addr)
    else .seq (passEnqueue c p) (nextPc c t))

def execSeqPass (c : Fin 128) (t : Fin 16) (d a b : Fin 32) (fn : BitVec 9) (imm : BitVec 32) (collided : Fin 6)
    (s : State) : Host.Outcome State Fault Refusal :=
  (fetched c t (seqWord 0x20 d a b fn imm) (seqPass c t a fn collided)).done s

/-- FEED_ISSUE (R99). -/
def actFeedIssue (who : Agent) (c off : Nat) (collided : Bool) : Act := guardAct who (c * 16 + 2) 0x10 fun _ =>
  (ST_OK, .look fun s =>
    if !s.passRoom c then put (R.FEED_STATUS_last_status c) ST_BUSY
    else descSubmitRead c (off * 64) 6 collided fun st bs => .look fun s =>
      if st ≠ ST_OK then put (R.FEED_STATUS_last_status c) st
      else
        let p := passNew s.tagNext (sramAddr c (off * 64)) 0 none bs
        let st := s.passCheck c p
        if st ≠ ST_OK then feedFault c p p.addr st else passEnqueue c p)

def execFeedIssue (who : Agent) (c : Fin 128) (off : BitVec 16) (collided : Bool) (s : State) :
    Host.Outcome State Fault Refusal := (runAct who (actFeedIssue who c off.toNat collided)).done s

/-! Sampling the rows (R114, R115, R119, R129) -/

/-- Poison a pass with the first fault it meets, and record it. -/
def Pass.hit (p : Pass) (f : Option (Nat × Nat)) : Pass := if p.fault.isSome then p else { p with fault := f }

/-- Record the fault of a pass, if there is one. -/
def noteFault (c : Nat) (p : Pass) (f : Option (Nat × Nat)) : Eff :=
  match f with
  | some (a, st) => feedFault c p a st
  | none => .skip

/-- A read of the feeder in its own general SRAM; a collision is counted and fails it (R174). -/
def feedRead (c off n : Nat) (collided : Bool) (k : Resp → Eff) : Eff :=
  if 0x300000 < off + n then k (onesResp ST_ADDR_UNMAPPED n)
  else sramRead c off n (6, 0) fun r =>
    if r.status = ST_OK ∧ collided then .seq (countCollisions (sramAddr c off) 6 1) (k (onesResp ST_COLLISION n)) else k r

/-- A read that the pass may not need. -/
def feedReadIf (need : Bool) (c off n : Nat) (collided : Bool) (k : Resp → Eff) : Eff :=
  if need then feedRead c off n collided k else k ⟨ST_OK, [], []⟩

/-- The gather-list entry of listed row m. -/
def gatherEntry (list : List Byte) (m : Nat) : Nat := leAt list (4 * m) 4

/-- Whether listed row m is masked (R114). -/
def Pass.masked (p : Pass) (list mask : List Byte) (m : Nat) : Bool :=
  (p.mode == 1 && gatherEntry list m / 2 ^ 31 == 1) || byteAt mask (m / 8) / 2 ^ (m % 8) % 2 == 1

/-- The offset of listed row m; an im2col row has none. -/
def Pass.rowOff (p : Pass) (list : List Byte) (m : Nat) : Nat :=
  if p.mode = 0 then p.aBase + m * p.aStride else if p.mode = 1 then gatherEntry list m % 2 ^ 22 else 0

/-- The fault of a gather-list entry that the feeder finds when it reads the list (R119, R129): an offset of any entry that is not
a multiple of 16, or a fed row outside general SRAM. -/
def Pass.listFault (p : Pass) (c : Nat) (list : List Byte) (fed : List (Nat × Nat)) : Option (Nat × Nat) :=
  if p.mode ≠ 1 then none
  else match (List.range p.m).find? fun m => p.rowOff list m % 16 != 0 with
    | some m => some (sramAddr c (p.rowOff list m), ST_ALIGN)
    | none => (fed.find? fun r => decide (0x300000 < r.2 + p.rowBytes)).map fun r => (sramAddr c r.2, ST_ADDR_UNMAPPED)

/-! Metadata (R103, R133, R104) -/

/-- Metadata bytes; a pass without metadata has zero points of 0 and every block present. -/
def Pass.metaAt (p : Pass) (i n : Nat) : Nat := leAt (p.mdata.getD []) i n

/-- Whether the block of a group is present. -/
def Pass.present (p : Pass) (g : Nat) : Bool :=
  !p.md || p.metaAt 0x180 1 / 2 ^ (g * p.groupRows / 64) % 2 == 1

/-- Fetch the metadata unless it is there. -/
def fetchMeta (c : Fin 128) (p : Pass) (k : Pass → Eff) : Eff :=
  if !p.md || p.mdata.isSome then k p
  else whenFree (.feeder c) p.metaAddr 1024 (memRead (.feeder c) .normal p.metaAddr 1024 fun r =>
    let f := if r.status = ST_OK then none else some (p.metaAddr + r.firstBad, r.status)
    .seq (noteFault c p f) (k ({ p with mdata := some r.data }.hit f)))

/-! The tile record (R102, R107, R128, R134, R138) -/

/-- A codebook as a table of its entries. -/
def State.cbTable (s : State) (c slot : Nat) : List Num :=
  match s.cbUsable c slot with
  | some (size, f) => let bs := s.cbBytes c slot
                      (List.range (if size = 0 then 16 else 256)).map fun i => cbEntry f bs i
  | none => []

/-- How the codes of each column decode (R79): its codebook, or the weight format. -/
def State.wTables (s : State) (c : Nat) (p : Pass) : List (List Num) :=
  if p.cb then (List.range 64).map fun j => s.cbTable c (if p.cbSlot = 0xFF then p.metaAt (0x100 + j) 1 % 64 else p.cbSlot)
  else []

/-- The value of a weight code in column j. -/
def wValue (p : Pass) (tables : List (List Num)) (j code : Nat) : Num :=
  if p.cb then (tables.getD j []).getD code .zero else ((Fmt.ofCode p.wFmt).getD .fp32).decode code

/-- Whether the stager fetches the weights of group g: they lie in a present block, and the group is not skipped (R134, R138). -/
def Pass.fetches (p : Pass) (g : Nat) : Bool := p.present g && !(p.zskip && !p.occ.getD g true)

/-- Where the weights and the indices of group g lie. -/
def Pass.groupAt (p : Pass) (g : Nat) : Nat := p.wAddr + g * p.groupBytes
def Pass.indexAt (p : Pass) (g : Nat) : Nat := p.wAddr + p.dataBytes + g * 64

/-- The pieces of the record that the stager fetches after the metadata. -/
def Pass.pieces (p : Pass) : List (Nat × Nat) := ((List.range p.groups).filter fun g => p.fetches g).flatMap fun g =>
  (p.groupAt g, p.groupBytes) :: (if p.sp24 then [(p.indexAt g, 64)] else [])

/-- The fault of an answer at a device address: its first faulting byte and its status. -/
def respFaultAt (a : Nat) (r : Resp) : Option (Nat × Nat) := if r.status = ST_OK then none else some (a + r.firstBad, r.status)

/-- Read the weights and indices of a group. -/
def readGroup (c : Fin 128) (p : Pass) (g : Nat) (k : GroupIn × Option (Nat × Nat) → Eff) : Eff :=
  if !p.fetches g then k (if p.zskip then .skipped else .absent, none)
  else memRead (.feeder c) .normal (p.groupAt g) p.groupBytes fun r =>
    if p.sp24 then memRead (.feeder c) .normal (p.indexAt g) 64 fun ri =>
      k (.held r.data ri.data, (respFaultAt (p.groupAt g) r).or (respFaultAt (p.indexAt g) ri))
    else k (.held r.data [], respFaultAt (p.groupAt g) r)

/-- The value of an integer operand. -/
def Num.toInt : Num → Int
  | .fin n m e => (if n then -1 else 1) * (m * 2 ^ e.toNat : Nat)
  | _ => 0

/-- Σ w of column j over the stored values. -/
def storedSum (p : Pass) (gs : List GroupIn) (j : Nat) : Int :=
  gs.foldl (fun n g => match g with
    | .held data _ => (List.range p.groupRows).foldl (fun n r => n + (wValue p [] j (elemAt p.wBits data (r * 64 + j))).toInt) n
    | _ => n) 0

/-- The groups with the stored bytes of the skipped ones. -/
def State.unskipped (s : State) (p : Pass) (gs : List GroupIn) : List GroupIn := (List.range p.groups).map fun g =>
  match gs.getD g .skipped with
  | .skipped => .held (s.plainBytes (p.groupAt g) p.groupBytes) []
  | x => x

/-- R73: Σ w of every column: from the metadata, or over the stored values. -/
def State.wSums (s : State) (p : Pass) (gs : List GroupIn) : List Int :=
  if !p.aOp.isInt then []
  else if p.md then (List.range 64).map fun j => signed32 (p.metaAt (4 * j) 4)
  else
    let gs := if p.zA = 0 then gs else s.unskipped p gs
    (List.range 64).map fun j => storedSum p gs j

/-- Bytes not fetched because of absent blocks or skipped groups, and absent blocks. -/
def Pass.saved (p : Pass) : Nat × Nat :=
  let gb := p.groupBytes + (if p.sp24 then 64 else 0)
  let skip := ((List.range p.groups).filter fun g => !p.fetches g).length
  let blocks := ((List.range (p.stored / 64)).filter fun b => p.md && p.metaAt 0x180 1 / 2 ^ b % 2 == 0).length
  (skip * gb, blocks)

/-- The codebook slots that a pass decodes from. -/
def Pass.slots (p : Pass) : List Nat :=
  if !p.cb then []
  else if p.cbSlot = 0xFF then (((List.range 64).map fun j => p.metaAt (0x100 + j) 1).filter fun k => decide (k < 64)).eraseDups
  else [p.cbSlot]

/-- Read the slots of a pass. -/
def readBooks (c : Nat) : List Nat → (Option (Nat × Nat) → Eff) → Eff
  | [], go => go none
  | k :: rest, go => .look fun s => readBook c k (s.bookWords c k) fun f => if f.isSome then go f else readBooks c rest go

/-- R107: the tile record of a pass comes into its stager slot, with its codes decoded; a write of it from then on is not seen. A
PROCESSOR-mode pseudo-channel may hold a piece back (R225); the pass then waits for it. -/
def fetchTile (c : Fin 128) (p : Pass) (k : Pass → Eff) : Eff :=
  if p.tile.isSome then k p
  else gates (.feeder c) p.pieces (collect (List.range p.groups) (fun g => readGroup c p g) fun gs =>
    readBooks c p.slots fun bf => .look fun s =>
      let f := ((gs.find? fun g => g.2.isSome).bind fun g => g.2).or bf
      let raw := gs.map fun g => g.1
      .all [
        ungate (.feeder c),
        noteFault c p f,
        addSat (R.FEED_SP_BYTES_SAVED_count c) p.saved.1,
        addSat (R.FEED_SP_BLK_ABSENT_count c) p.saved.2,
        k ({ p with tile := some ⟨raw, s.wSums p raw, s.wTables c p⟩ }.hit f)])

/-- Store a pass and fetch its tile. -/
def setFetch (c : Fin 128) (p : Pass) : Eff := .seq (setPass c p) (fetchTile c p fun p => setPass c p)

/-- TILE_FETCH_START (R107, R115): the oldest pass not yet sampled gets a stager slot and samples its rows; a zero-skip pass
starts its scan. `collided`: the sampling reads met a write. -/
def fetchStart (c : Fin 128) (collided : Bool) : Eff := .look fun s =>
  match if s.stagerUsed c < 36 then (s.passQAt c).find? fun p => p.phase == 0 else none with
  | none => .skip
  | some p =>
    feedReadIf (p.mode == 1) c p.aBase (4 * p.m) collided fun list =>
    feedReadIf (p.maskBase != noOffset) c p.maskBase ((p.m + 7) / 8) collided fun mask =>
    .look fun s =>
      let st := worst list.status mask.status
      if st ≠ ST_OK then
        let at_ := sramAddr c (if list.status ≠ ST_OK then p.aBase else p.maskBase)
        .all [feedFault c p at_ st, setPass c { p with phase := 4, rowsLost := true, fault := some (at_, st) }, feedShow c]
      else
        let fed := ((List.range p.m).filter fun m => !p.masked list.data mask.data m).map fun m => (m, p.rowOff list.data m)
        let f := p.listFault c list.data fed
        .all [
          addSat (R.FEED_ROWS_MASKED_count c) (p.m - fed.length),
          noteFault c p f,
          (let p := { p with phase := if fed.isEmpty then 4 else 1, fed := fed, bound := s.tagNext, fault := f }
           if fed.isEmpty || p.zskip || p.md then setPass c p else setFetch c p),
          feedShow c]

def execTileFetchStart (c : Fin 128) (collided : Bool) (s : State) : Host.Outcome State Fault Refusal :=
  (fetchStart c collided).done s

/-! Reading a row as it is stored (R118–R120) -/

/-- The stored codes of a row, and the fault that its read met. -/
structure RowIn where
  codes : List Nat
  fault : Option (Nat × Nat)
  deriving DecidableEq, Repr

/-- The fault of an answer for bytes at an offset of the cell's SRAM. -/
def respFault (c off : Nat) (r : Resp) : Option (Nat × Nat) := respFaultAt (sramAddr c off) r

/-- The place of element k of row m in the feature map (R120): an offset and an element number, or outside the map. The
parameter block may hold zeros where the spec gives a lower bound; then the element is open. -/
inductive MapAt where
  | inMap (i : Nat)
  | outside
  | open_

/-- R120: where element k of row m of an im2col pass reads. -/
def im2colAt (b : List Byte) (m k : Nat) : MapAt :=
  let h := leAt b 4 2
  let w := leAt b 6 2
  let ch := leAt b 8 2
  let kw := byteAt b 11
  let outW := leAt b 20 2
  if outW = 0 ∨ kw * ch = 0 then .open_
  else
    let p := leAt b 16 4 + m
    let q := leAt b 24 4 + k
    let iy : Int := (p / outW * byteAt b 12 + q / (kw * ch) * byteAt b 14 : Nat) - byteAt b 13
    let ix : Int := (p % outW * byteAt b 12 + q / ch % kw * byteAt b 14 : Nat) - byteAt b 13
    if 0 ≤ iy ∧ iy < h ∧ 0 ≤ ix ∧ ix < w then .inMap ((iy.toNat * w + ix.toNat) * ch + q % ch) else .outside

/-- One element of an im2col row. -/
def mapElem (c : Nat) (p : Pass) (b : List Byte) (collided : Bool) (m k : Nat) (cont : Nat × Option (Nat × Nat) → Eff) : Eff :=
  let bits := p.aSrc.bits
  match im2colAt b m k with
  | .open_ => withFree fun v => cont (v.toNat % 2 ^ bits, none)
  | .outside => cont (if p.aSrc.isInt then p.zA % 2 ^ bits else 0, none)
  | .inMap i =>
    let off := leAt b 0 4 + i * bits / 8
    feedRead c off ((bits + 7) / 8) collided fun r =>
      cont (if bits = 4 then byteAt r.data 0 / (if i % 2 = 0 then 1 else 16) % 16 else leAt r.data 0 (bits / 8),
        respFault c off r)

/-- The stored elements [lo, lo + n) of a fed row. -/
def readElems (c : Nat) (p : Pass) (collided : Bool) (row : Nat × Nat) (lo n : Nat) (k : RowIn → Eff) : Eff :=
  if p.mode = 2 then
    feedRead c p.aBase 32 collided fun b =>
      if b.status ≠ ST_OK then k ⟨List.replicate n 0, respFault c p.aBase b⟩
      else collect (List.range n) (fun i => mapElem c p b.data collided row.1 (lo + i)) fun es =>
        k ⟨es.map fun e => e.1, (es.find? fun e => e.2.isSome).bind fun e => e.2⟩
  else
    let off := row.2 + p.aSrc.size lo
    feedRead c off (p.aSrc.size n) collided fun r =>
      k ⟨(List.range n).map fun i => elemAt p.aSrc.bits r.data i, respFault c off r⟩

/-- The halves of a row that its operands are formed from: the whole row, the real or imaginary half, or both (R100). -/
def readRow (c : Nat) (p : Pass) (collided : Bool) (row : Nat × Nat) (k : List RowIn → Eff) : Eff :=
  collect (if p.cplx = 2 then [p.k] else if p.cplx = 3 then [0, p.k] else [0])
    (fun lo => readElems c p collided row lo p.k) k

/-- The first fault of rows. -/
def rowsFault (rs : List RowIn) : Option (Nat × Nat) := (rs.find? fun r => r.fault.isSome).bind fun r => r.fault

/-! The checks of the metadata (R104) -/

/-- R104: the first byte of the metadata at which the checks at fetch fail. -/
def State.metaFault (s : State) (c : Nat) (p : Pass) : Option Nat :=
  let fmtOf := fun j => s.slotFor c p.wFmt (p.metaAt (0x100 + j) 1)
  let wide := fun j => match fmtOf j with | some f => f.bits | none => 0
  match (List.range 64).find? fun j => p.part != 0 && p.metaAt (0x140 + j) 1 != 0 with
  | some j => some (0x140 + j)
  | none =>
    if !(p.cb && p.cbSlot == 0xFF) then none
    else (List.range 64).find? (fun j => match fmtOf j with
        | some f => wide j != wide 0 || !pairOk p.aOp f (p.mxA || p.mxW)
        | none => true) |>.map fun j => 0x100 + j

/-- METADATA_ARRIVAL (R104, R134): the metadata of the oldest fetching pass arrives and is checked. -/
def metadataArrival (c : Fin 128) : Eff := .look fun s =>
  match (s.passQAt c).find? fun p => p.md && !p.metaIn && (p.phase == 2 || (p.phase == 1 && !p.zskip)) with
  | none => .skip
  | some p => fetchMeta c p fun p => .look fun s =>
      let f := if p.fault.isSome then none else (s.metaFault c p).map fun i => (p.metaAddr + i, ST_BAD_ARG)
      .seq (noteFault c p f) (setFetch c { p.hit f with metaIn := true })

def execMetadataArrival (c : Fin 128) (s : State) : Host.Outcome State Fault Refusal := (metadataArrival c).done s

/-! Zero-skip (R136–R139) -/

/-- Whether a stored code counts as zero. -/
def Fmt.zeroCode (f : Fmt) (code : Nat) : Bool := if f.isInt then code == 0 else code % 2 ^ (f.bits - 1) == 0

/-- Whether some row has a stored element that is not zero in group g. -/
def groupLive (f : Fmt) (rows : List (List RowIn)) (g : Nat) : Bool :=
  rows.any fun hs => hs.any fun h => (List.range 8).any fun i => !f.zeroCode (h.codes.getD (8 * g + i) 0)

/-- R139: the conditions on one pass of a run. -/
def Pass.mergeable (p : Pass) : Bool :=
  p.zskip && !p.sp24 && !p.mxA && decide (p.mode ≤ 1) && decide (p.aSrc.size p.k ≤ 128) &&
    (p.mode == 1 || (p.aBase % 64 == 0 && (p.m == 1 || p.aStride % 64 == 0)))

/-- R139: what is equal in all passes of a run, but for the zero points of the columns. -/
def Pass.shape (p : Pass) : List Nat :=
  [p.wFmt, byteAt p.desc 1, byteAt p.desc 2, p.m, p.accRow, p.acc2Row, byteAt p.desc 29, p.zA, p.kScale, p.outFmt, p.maskBase,
    leAt p.desc 4 2 / 2 ^ 7 % 8]

/-- The zero points of the columns as stored. -/
def Pass.zWs (p : Pass) : List Nat := (List.range 64).map fun j => p.metaAt (0x140 + j) 1

/-- The passes of a run, in issue order. -/
def State.runOf (s : State) (c lead : Nat) : List Pass := (s.passQAt c).filter fun p => p.run == lead

/-- The occupied groups of passes. -/
def occCount (ps : List Pass) : Nat := ps.foldl (fun n p => n + (p.occ.filter fun b => b).length) 0

/-- R139: whether pass p joins the run `ps`. Which listed rows are masked is no condition beyond mask_base. -/
def State.joins (s : State) (c : Nat) (ps : List Pass) (p : Pass) : Bool :=
  match ps with
  | [] => false
  | l :: _ =>
    s.bit (R.FEED_SP_CTRL_merge_en c) && decide (ps.length < s.get (R.FEED_SP_CTRL_max_run c)) &&
    p.mergeable && l.mergeable && !p.first && !p.first2 && ps.all (fun q => !q.last) && decide (p.id < l.bound) &&
    p.shape == l.shape && p.zWs == l.zWs && (l :: [p]).all (fun q => q.fed.all fun r => r.2 % 64 == 0) && decide (occCount (ps ++ [p]) ≤ p.groups)

/-- The pass before `id` in the queue. -/
def passBefore (id : Nat) : List Pass → Option Pass
  | a :: b :: rest => if b.id = id then some a else passBefore id (b :: rest)
  | _ => none

/-- The pass after `id` in the queue. -/
def passAfter (id : Nat) : List Pass → Option Pass
  | [] => none
  | a :: rest => if a.id = id then rest.head? else passAfter id rest

/-- The run that pass p joins, or its own number. -/
def State.runFor (s : State) (c : Nat) (p : Pass) : Nat :=
  match passBefore p.id (s.passQAt c) with
  | some q => if q.phase == 2 && s.joins c (s.runOf c q.run) p then q.run else p.id
  | none => p.id

/-- Bytes of a row that the scanner reads. -/
def Pass.scanBytes (p : Pass) : Nat := p.aSrc.size p.k * (if p.cplx = 3 then 2 else 1)

/-- ZSKIP_SCAN_END (R136–R139): the scan of the oldest scanning pass ends. -/
def scanEnd (c : Fin 128) (collided : Bool) : Eff := .look fun s =>
  match (s.passQAt c).find? fun p => p.phase == 1 && p.zskip with
  | none => .skip
  | some p => fetchMeta c p fun p => collect p.fed (fun r => readRow c p collided r) fun rows => .look fun s =>
      let f := rowsFault rows.flatten
      let p := { p.hit f with
        occ := (List.range p.groups).map fun g => p.present g && (f.isSome || groupLive p.aSrc rows g), phase := 2 }
      let run := s.runFor c p
      .all [
        noteFault c p f,
        addSat (R.FEED_SP_GRP_SCANNED_count c) p.groups,
        addSat (R.FEED_SP_GRP_SKIPPED_count c) (p.groups - occCount [p]),
        addSat (R.FEED_SP_SCAN_CK_count c) ((p.fed.length * p.scanBytes + 1023) / 1024),
        Eff.when (run != p.id) (addSat (R.FEED_SP_PASS_MERGED_count c) 1),
        (if p.md then setPass c { p with run := run } else setFetch c { p with run := run })]

def execZskipScanEnd (c : Fin 128) (collided : Bool) (s : State) : Host.Outcome State Fault Refusal :=
  (scanEnd c collided).done s

/-! Enable and abort (R129) -/

/-- FEED_CTRL.enable written: 1 also takes the feeder out of HALTED. -/
def feedEnable (c : Nat) (b : Bool) : Eff := .all [
  feedCount c,
  putBit (R.FEED_CTRL_enable c) b, Eff.when b (put (R.FEED_STATUS_state c) 0), feedShow c]

def actFeedEnable (who : Agent) (c : Nat) (b : Bool) : Act := guardAct who (c * 16 + 2) 0 fun _ => (ST_OK, feedEnable c b)

def execFeedEnable (who : Agent) (c : Fin 128) (enable : Bool) (s : State) : Host.Outcome State Fault Refusal :=
  (runAct who (actFeedEnable who c enable)).done s

/-- R126: the drain signals the postbox of a completed pass. -/
def passSignal (c : Nat) (p : Pass) : Eff := Eff.when (p.pbx != 0xFF) (sendSignal (srcDrain c) c (c * 48 + p.pbx) 1)

/-- R129: every pass that has not started completes with ST_ABORTED. -/
def feedAbort (c : Nat) : Eff := .look fun s =>
  let out := (s.passQAt c).filter fun p => p.queued
  .all [
    feedCount c,
    .upd (.passQ c ((s.passQAt c).filter fun p => !p.queued)),
    Eff.each out fun p => .seq (addWrap (R.FEED_PASS_COUNT_passes c) 1) (passSignal c p),
    Eff.when (!out.isEmpty) (put (R.FEED_STATUS_last_status c) ST_ABORTED),
    feedShow c]

def actFeedAbort (who : Agent) (c : Nat) : Act := guardAct who (c * 16 + 2) 0 fun _ => (ST_OK, feedAbort c)

def execFeedAbort (who : Agent) (c : Fin 128) (s : State) : Host.Outcome State Fault Refusal :=
  (runAct who (actFeedAbort who c)).done s

end Sys2Proof.Machine
end

