-- ==== Sys2Proof/Machine/PassRun.lean ====
section
/-! DEFINITION. Passes in the matrix array and the drain (04_matrix_array.md R96–R129; 03_numerics.md R73–R94;
05_sparsity.md R130–R143). Commands: PASS_START, PASS_COMPLETE. -/

namespace Sys2Proof.Machine

/-! Operands -/

/-- An operand as it enters the array, and whether an MX scale of 0xFF made it NaN. -/
structure Opnd where
  v  : Num
  ff : Bool
  deriving DecidableEq, Repr

/-- The operand with an MX block scale folded in. -/
def Opnd.fold (use : Bool) (scale : Nat) (v : Num) : Opnd := if use then ⟨foldScale scale v, scale == 0xFF⟩ else ⟨v, false⟩

/-- One activation operand from the stored codes of its halves (R100, R101, R118): limbs, splits, complex sums and casts. -/
def castElem (p : Pass) (md : RMode) (codes : List Nat) : Calc Num :=
  let a := p.aSrc.decode (codes.getD 0 0)
  if p.aSrc == .int16 then
    pure (if p.part = 1 then Fmt.uint8.decode (codes.getD 0 0 % 256) else Fmt.int8.decode (codes.getD 0 0 / 256))
  else do
    let x ← (if p.cplx = 3 then do
        let t ← a.add (p.aSrc.decode (codes.getD 1 0))
        Fmt.fp32.round md t
      else pure a)
    if p.part = 0 then (if p.cplx = 3 || p.aSrc != p.aOp then p.aOp.round md x else pure x)
    else do
      let hi ← p.aOp.round md x
      if p.part = 1 then pure hi
      else do
        let r ← x.add hi.neg
        p.aOp.round md r

/-- The K operands of a fed row. -/
def castRow (p : Pass) (md : RMode) (scales : List Byte) (hs : List RowIn) : Calc (List Opnd) :=
  (List.range p.k).mapM fun k => do
    let v ← castElem p md (hs.map fun h => h.codes.getD k 0)
    pure (Opnd.fold p.mxA (byteAt scales (k / 32)) v)

/-- One product of a column: activation and weight. -/
structure Term where
  a : Opnd
  w : Opnd
  deriving DecidableEq, Repr

/-- The products of column j with one fed row (R97, R130): the stored rows of every group that is fed. -/
def colTerms (p : Pass) (tables : List (List Num)) (gs : List GroupIn) (row : List Opnd) (j : Nat) : List Term :=
  (List.range p.groups).flatMap fun g =>
    let term := fun (r : Nat) (i : Nat) (w : Num) =>
      let k := if p.sp24 then 4 * ((g * p.groupRows + r) / 2) + i else g * p.groupRows + r
      (⟨row.getD k ⟨.zero, false⟩, Opnd.fold p.mxW (p.metaAt (0x200 + j * 8 + k / 32) 1) w⟩ : Term)
    match gs.getD g .skipped with
    | .skipped => []
    | .absent => (List.range p.groupRows).map fun r => term r 0 .zero
    | .held data idx => (List.range p.groupRows).map fun r =>
        let e := r * 64 + j
        term r (byteAt idx (e / 4) / 4 ^ (e % 4) % 4) (wValue p tables j (elemAt p.wBits data e))

/-! The in-pass sum (R86, R93) -/

/-- floor(log2 |x|) of a finite value that is not zero. -/
def Num.expo : Num → Option Int
  | .fin _ m e => if m = 0 then none else some ((m.log2 : Int) + e)
  | _ => none

/-- The larger of two exponents. -/
def maxExpo (a b : Option Int) : Option Int :=
  match a, b with
  | some x, some y => some (max x y)
  | none, y => y
  | x, none => x

/-- The exponent of the largest-magnitude element. -/
def topExpo (xs : List Num) : Option Int := xs.foldl (fun b x => maxExpo b x.expo) none

/-- A product in units of 2^A, truncated toward zero. -/
def productAt (A : Int) (a w : Num) : Int :=
  match a, w with
  | .fin n m e, .fin n' m' e' =>
    let t : Nat := if A ≤ e + e' then m * m' * 2 ^ (e + e' - A).toNat else m * m' / 2 ^ (A - (e + e')).toNat
    if n = n' then t else -(t : Int)
  | _, _ => 0

/-- ∞ × 0. -/
def infZero (a w : Num) : Bool :=
  match a, w with
  | .inf _, .fin _ m _ | .fin _ m _, .inf _ => m == 0
  | _, _ => false

/-- The sign of an infinite product, if it is one. -/
def infSign (a w : Num) : Option Bool :=
  match a, w with
  | .inf x, .inf y => some (x != y)
  | .inf x, .fin y m _ | .fin y m _, .inf x => if m = 0 then none else some (x != y)
  | _, _ => none

/-- R93, R94: the special result of a column, if it has one, and whether it counts in nans. -/
def specialSum (ts : List Term) : Option (Num × Bool) :=
  let opNan := ts.any fun t => t.a.v.isNan || t.w.v.isNan
  let pos := ts.any fun t => infSign t.a.v t.w.v == some false
  let neg := ts.any fun t => infSign t.a.v t.w.v == some true
  if ts.any fun t => t.a.ff || t.w.ff then some (.nan, true)
  else if opNan then some (.nan, false)
  else if ts.any (fun t => infZero t.a.v t.w.v) || (pos && neg) then some (.nan, true)
  else if pos then some (.inf false, false)
  else if neg then some (.inf true, false)
  else none

/-- R86: the fixed-point sum of a column and the weight 2^A of its least significant bit. -/
def fixedSum (isInt : Bool) (g : Nat) (row : List Num) (ts : List Term) : Int × Int :=
  match isInt, topExpo row, topExpo (ts.map fun t => t.w.v) with
  | true, _, _ => (ts.foldl (fun n t => n + productAt 0 t.a.v t.w.v) 0, 0)
  | false, some ea, some ew =>
    let A := ea + ew - 38 + g
    (ts.foldl (fun n t => n + productAt A t.a.v t.w.v) 0, A)
  | _, _, _ => (0, 0)

/-- A whole number of 2^A. -/
def Num.ofScaled (n A : Int) : Num := .fin (decide (n < 0)) n.natAbs A

/-! A run (R140) -/

/-- One pass of a run with everything that was read for it. -/
structure PassIn where
  p      : Pass
  rows   : List (List Opnd)
  gs     : List GroupIn
  wSums  : List Int
  tables : List (List Num)
  deriving DecidableEq, Repr

/-- R73: the zero point of column j. -/
def Pass.zW (p : Pass) (j : Nat) : Int := (((Fmt.ofCode p.wFmt).getD .int8).decode (p.metaAt (0x140 + j) 1)).toInt

/-- The operands of listed row m; a row that the pass masks has none. -/
def PassIn.rowOf (x : PassIn) (m : Nat) : List Opnd := (((x.p.fed.zip x.rows).find? fun r => r.1.1 == m).map fun r => r.2).getD []

/-- The elements of listed row m that the run feeds. -/
def PassIn.fedElems (x : PassIn) (m : Nat) : List Num :=
  ((List.range x.p.groups).filter fun g => x.gs.getD g .skipped != .skipped).flatMap fun g =>
    (((x.rowOf m).drop (8 * g)).take 8).map fun o => o.v

/-- The listed rows that passes feed. -/
def fedRows (ps : List Pass) : List Nat :=
  (List.range ((ps.map fun p => p.m).foldl max 0)).filter fun m => ps.any fun p => p.fed.any fun r => r.1 == m

/-- R73, R86, R87, R93, R123: the result of listed row m and column j of a run, before the scale along K. -/
def runResult (xs : List PassIn) (m j : Nat) : Calc Num :=
  match xs with
  | [] => pure .zero
  | x :: _ =>
    let isInt := x.p.aOp.isInt
    let ts := xs.flatMap fun x => if (x.rowOf m).isEmpty then [] else colTerms x.p x.tables x.gs (x.rowOf m) j
    match specialSum ts with
    | some (v, counts) => do
      if counts then countNan
      pure v
    | none =>
      let s := fixedSum isInt (if x.p.k = 256 then 1 else 0) (xs.flatMap fun x => x.fedElems m) ts
      let y := if isInt then
          let za := (x.p.aOp.decode x.p.zA).toInt
          let zw := x.p.zW j
          let sa := xs.foldl (fun n x => n + (x.rowOf m).foldl (fun n o => n + o.v.toInt) 0) 0
          let sw := xs.foldl (fun n x => n + x.wSums.getD j 0) 0
          let k := xs.foldl (fun n x => n + (x.p.k : Int)) 0
          s.1 - zw * sa - za * sw + k * za * zw
        else s.1
      pure (Num.ofScaled (y * 2 ^ (8 * x.p.shift)) s.2)

/-- R87: the scale along K. -/
def scaleK (p : Pass) (rne : Bool) (v : Num) : Calc Num :=
  if p.kScale = 0x3F800000 then pure v
  else do
    let t ← v.mul (Fmt.fp32.decode p.kScale)
    Fmt.wide.round ⟨rne, true⟩ t

/-- Every result of a run. -/
def runResults (xs : List PassIn) (rne : Bool) : Calc (List (Nat × List Num)) :=
  match xs with
  | [] => pure []
  | x :: _ => (fedRows (xs.map fun x => x.p)).mapM fun m => do
    let vs ← (List.range 64).mapM fun j => do
      let v ← runResult xs m j
      scaleK x.p rne v
    pure (m, vs)

/-! Reading a pass at its start -/

/-- Read one fed row and its MX scales, and form its operands. -/
def readOpnds (c : Fin 128) (p : Pass) (collided : Bool) (row : Nat × Nat) (k : List Opnd × Option (Nat × Nat) → Eff) : Eff :=
  readRow c p collided row fun hs =>
  feedReadIf p.mxA c (p.mxBase + 8 * row.1) 8 collided fun sc => .look fun s =>
    let f := rowsFault hs
    runCalc c (castRow p (s.site (R.CELL_ROUND_feed_cast c)) sc.data hs) fun os =>
      k (os, if f.isSome then f else respFault c (p.mxBase + 8 * row.1) sc)

/-- Read the rows of a pass whose tile is in the stager. -/
def readPass (c : Fin 128) (collided : Bool) (p : Pass) (k : PassIn × Option (Nat × Nat) → Eff) : Eff :=
  collect p.fed (fun r => readOpnds c p collided r) fun rows =>
    let f := (rows.find? fun r => r.2.isSome).bind fun r => r.2
    let t := p.tile.getD ⟨[], [], []⟩
    .seq (noteFault c p f) (k (⟨p, rows.map fun r => r.1, t.gs, t.wSums, t.tables⟩, f))

/-- Whether the run that starts with p takes no further pass (R139). -/
def State.runClosed (s : State) (c : Nat) (ps : List Pass) : Bool :=
  match ps.head?, ps.getLast? with
  | some l, some q =>
    !l.mergeable || !s.bit (R.FEED_SP_CTRL_merge_en c) || decide (s.get (R.FEED_SP_CTRL_max_run c) ≤ ps.length) || q.last ||
      (match passAfter q.id (s.passQAt c) with
       | none => true
       | some n => decide (2 ≤ n.phase) || decide (l.bound ≤ n.id) || !n.mergeable || n.first || n.first2 || n.shape != l.shape)
  | _, _ => false

/-- Whether a pass has all that its start needs. -/
def Pass.ready (p : Pass) : Bool := p.phase == (if p.zskip then 2 else 1) && (!p.md || p.metaIn)

/-- The run that may start: its passes, in issue order. -/
def State.startable (s : State) (c : Nat) : List Pass :=
  match (s.passQAt c).find? fun p => decide (p.phase < 3) with
  | none => []
  | some l =>
    let ps := s.runOf c l.run
    if s.bit (R.FEED_CTRL_enable c) && !s.feedHalted c && ps.all (fun p => p.ready) && s.runClosed c ps then ps else []

/-- PASS_START (R105, R140): the oldest run that is ready enters the array and its sums are formed. `collided`: a read of
the feeder met a write; `parity`: a parity error on the way. -/
def passStart (c : Fin 128) (collided parity : Bool) : Eff := .look fun s =>
  match s.startable c with
  | [] => .skip
  | l :: rest =>
    let ps := l :: rest
    collect ps (fun p k => fetchTile c p fun p => .seq (setPass c p) (readPass c collided p k)) fun xs => .look fun s =>
      let ps := xs.map fun x => x.1.p
      let f := (((ps.find? fun p => p.fault.isSome).bind fun p => p.fault).or ((xs.find? fun x => x.2.isSome).bind fun x => x.2)).or
        (if parity then some (l.wAddr, ST_PARITY) else none)
      .all [
        feedCount c,
        Eff.when parity (feedFault c l l.wAddr ST_PARITY),
        addSat (R.FEED_ROWS_FED_count c) (ps.foldl (fun n p => n + p.fed.length) 0),
        Eff.when (!l.zskip || occCount ps != 0) (addSat (R.FEED_CK_FED_count c) (fedRows ps).length),
        (if f.isSome then Eff.each ps fun p => setPass c { p with phase := 3, fault := f, tile := none }
         else runCalc c (runResults (xs.map fun x => x.1) (s.site (R.CELL_ROUND_drn_scale c)).rne) fun rs =>
           Eff.each ps fun p => setPass c { p with phase := 3, results := if p.id = l.id then rs else [], tile := none }),
        feedShow c]

def execPassStart (c : Fin 128) (collided parity : Bool) (s : State) : Host.Outcome State Fault Refusal :=
  (passStart c collided parity).done s

/-! The drain (R123–R129) -/

/-- The device address of accumulator word (row, j). -/
def accAddr (c row j : Nat) : Nat := sramAddr c (0x300000 + row * 0x200 + j * 8)

/-- One accumulator word: replaced, or added to at DRN_ACC; the continuation gets whether it is poisoned. -/
def accWord (c a : Nat) (v : Num) (replace : Bool) (k : Bool → Eff) : Eff := .look fun s =>
  let md : RMode := ⟨(s.site (R.CELL_ROUND_drn_acc c)).rne, true⟩
  if replace then runCalc c (Fmt.wide.encode md v) fun b => .seq (pokeSram a b) (k false)
  else sramWord c 24 a fun st old =>
    if st ≠ ST_OK then .seq (sramPoison a 0) (k true)
    else runCalc c (do
        let t ← (Fmt.wide.decode old).add v
        Fmt.wide.encode md t) fun b => .seq (pokeSram a b) (k false)

/-- The writes of a run into its targets, in order: address, value, replace. -/
def accWrites (c : Nat) (p : Pass) (rs : List (Nat × List Num)) : List (Nat × Num × Bool) :=
  rs.flatMap fun r => (List.range 64).flatMap fun j =>
    let v := r.2.getD j .zero
    (accAddr c (p.accRow + r.1) j, if p.neg then v.neg else v, p.first) ::
      (if p.dual then [(accAddr c (p.acc2Row + r.1) j, if p.neg2 then v.neg else v, p.first2)] else [])

/-- The accumulator words that a pass writes for its rows. -/
def accAddrs (c : Nat) (p : Pass) (ms : List Nat) : List Nat :=
  ms.flatMap fun m => (List.range 64).flatMap fun j =>
    accAddr c (p.accRow + m) j :: (if p.dual then [accAddr c (p.acc2Row + m) j] else [])

/-- An output element: its bits, and whether it carries poison. -/
def outElem (c : Nat) (p : Pass) (m : Nat) (chan row : Option Num) (bad : Bool) (j : Nat) (k : Nat × Bool → Eff) : Eff :=
  if bad then k (0, true)
  else sramWord c 24 (accAddr c (p.accRow + m) j) fun st w => .look fun s =>
    if st ≠ ST_OK then k (0, true)
    else
      let md : RMode := ⟨(s.site (R.CELL_ROUND_drn_scale c)).rne, true⟩
      let times := fun (v : Num) (x : Option Num) => (match x with
        | none => pure v
        | some y => do
          let t ← v.mul y
          Fmt.wide.round md t : Calc Num)
      runCalc c (do
        let a ← times (Fmt.wide.decode w) (some (Fmt.fp32.decode p.sTensor))
        let b ← times a chan
        let d ← times b row
        p.oFmt.encode (s.site (R.CELL_ROUND_drn_out c)) d) fun b => k (b, false)

/-- Store the words of an output row: a word with a poisoned element gets the marking. -/
def outWords (c off : Nat) (p : Pass) (es : List (Nat × Bool)) : Eff :=
  let per := 64 / p.oFmt.bits
  let bs := packElems p.oFmt.bits (es.map fun e => e.1)
  Eff.each (List.range (64 / per)) fun i =>
    let data := leAt bs (8 * i) 8
    if ((es.drop (i * per)).take per).any (fun e => e.2) then sramPoison (sramAddr c (off + 8 * i)) data
    else pokeSram (sramAddr c (off + 8 * i)) data

/-- A scale read by the drain. -/
structure ScaleIn where
  vals    : List Num
  bad     : List Bool
  refused : Option Nat
  poison  : Bool
  deriving DecidableEq, Repr

/-- No scale. -/
def ScaleIn.none : ScaleIn := ⟨[], [], .none, false⟩

/-- Read n FP32 scales of a pass at an offset under the drain's class; a collision is recorded (R174). -/
def readScales (c : Nat) (p : Pass) (off n : Nat) (collided : Bool) (k : ScaleIn → Eff) : Eff :=
  sramRead c off (4 * n) (7, 0) fun r =>
    let vals := (List.range n).map fun i => Fmt.fp32.decode (leAt r.data (4 * i) 4)
    if r.status = ST_NOT_OWNER ∨ r.status = ST_ADDR_UNMAPPED then k ⟨[], [], some r.status, false⟩
    else if collided then .all [countCollisions (sramAddr c off) 7 1, feedFault c p (sramAddr c off) ST_COLLISION,
      k ⟨vals, List.replicate n true, .none, true⟩]
    else k ⟨vals, (List.range n).map fun i => r.bad.getD (4 * i) false, .none, r.status != ST_OK⟩

/-- Write one output row (R124, R129); the continuation gets a status and whether poison was written. -/
def outRow (c : Nat) (p : Pass) (allBad : Bool) (chan : ScaleIn) (rowHit : Bool) (m : Nat) (k : Nat × Bool → Eff) : Eff :=
  let off := p.outBase + m * p.outStride
  (if p.sRow = noOffset || allBad then fun k => k ScaleIn.none else readScales c p (p.sRow + 4 * m) 1 rowHit) fun row =>
  match chan.refused, row.refused with
  | some st, _ => k (st, false)
  | none, some st => k (st, false)
  | none, none => .look fun s => match s.refusedBank c off (p.oFmt.size 64) (7, 0) with
    | some b => .seq (ownFault c b 7) (k (ST_NOT_OWNER, false))
    | none => .seq (ownSettle c off (p.oFmt.size 64)) (
      collect (List.range 64) (fun j => outElem c p m (chan.vals[j]?) (row.vals[0]?)
          (allBad || chan.bad.getD j false || row.bad.getD 0 false) j) fun es =>
        .seq (outWords c off p es) (.seq (addSat (R.DRN_ROWS_OUT_count c) 1)
          (k (ST_OK, es.any fun e => e.2))))

/-- Write the output rows of a pass. -/
def outRows (c : Nat) (p : Pass) (allBad : Bool) (collided : Nat) (ms : List Nat) (k : List (Nat × Bool) → Eff) : Eff :=
  if !p.output then k []
  else (if p.sChan = noOffset || allBad then fun k => k ScaleIn.none else readScales c p p.sChan 64 (collided == 1)) fun chan =>
    collect ms (fun m => outRow c p allBad chan (collided == 2) m) k

/-- Passes complete together with a status, in issue order (R126, R129, R140). -/
def passesDone (c : Nat) (ps : List Pass) (accRow : Nat) (st : Nat) : Eff := .all [
  feedCount c,
  .look fun s => .upd (.passQ c ((s.passQAt c).filter fun p => !ps.any fun q => q.id == p.id)),
  Eff.each ps fun p => .all [
    addWrap (R.FEED_PASS_COUNT_passes c) 1,
    Eff.when p.sp24 (addSat (R.FEED_SP24_PASSES_count c) 1),
    Eff.when (st == ST_POISON) (.all [
      addSat (R.DRN_POISON_poisoned_passes c) 1,
      put (R.DRN_POISON_first_acc_row c) accRow,
      put (R.DRN_POISON_thread c) (p.thread.getD 0),
      .look fun s => put (R.DRN_POISON_pass_num c) (s.get (R.FEED_PASS_COUNT_passes c)),
      evFire (c * 8 + 2)]),
    passSignal c p],
  Eff.when (st != ST_OK) (put (R.DRN_STATUS_last_status c) st),
  .look fun s => Eff.when (st == ST_POISON && s.bit (R.FEED_CTRL_halt_on_poison c)) (put (R.FEED_STATUS_state c) 3),
  feedShow c]

/-- The rows whose words a poisoned run poisons: the fed rows, or all when they could not be told (R129). -/
def poisonRows (ps : List Pass) : List Nat :=
  if ps.any fun p => p.rowsLost then List.range ((ps.map fun p => p.m).foldl max 0) else fedRows ps

/-- PASS_COMPLETE (R123–R129): the oldest run that has passed the array completes. `collided`: the drain's read of
s_chan (1) or of s_row (2) met a write. -/
def passComplete (c : Fin 128) (collided : Nat) : Eff := .look fun s =>
  match s.passQAt c with
  | [] => .skip
  | l :: _ =>
    if l.phase < 3 then .skip
    else
      let ps := s.runOf c l.run
      let out := ps.getLast?.getD l
      if l.fault.isSome then .all [
        Eff.each (accAddrs c l (poisonRows ps)) fun a => sramPoison a 0,
        outRows c out true collided (poisonRows ps) fun _ => passesDone c ps l.accRow ST_POISON]
      else if l.phase = 4 then .seq (addSat (R.FEED_PASS_SKIPPED_count c) 1) (passesDone c [l] l.accRow ST_OK)
      else collect (accWrites c l l.results) (fun w => accWord c w.1 w.2.1 w.2.2) fun bads =>
        outRows c out false collided (l.results.map fun r => r.1) fun rs =>
          passesDone c ps l.accRow
            (if bads.any (fun b => b) || rs.any (fun r => r.2) then ST_POISON
             else rs.foldl (fun st r => worst st r.1) ST_OK)

def execPassComplete (c : Fin 128) (collided : Fin 3) (s : State) : Host.Outcome State Fault Refusal :=
  (passComplete c collided).done s

end Sys2Proof.Machine
end

