-- ==== Sys2Proof/Machine/Vaults.lean ====
section
/-! DEFINITION. The vault controllers and the scrub and diagnostic blocks of vaults and external memory (07_vaults.md
R182–R202, 10_shared_cache_external.md R291). Commands: VAULT_REQUEST, REMAP_PERSIST, REFRESH, TRACKER_WINDOW_EXPIRY,
SCRUB_START, SCRUB_ABORT, SCRUB_DONE, DIAG_LOCK, DIAG_LOCK_GRANTED, RAW_WRITE, RAW_READ. A unit is a vault (its cell) or
external memory (`none`): the registers of both have the same offsets. -/

namespace Sys2Proof.Machine

/-! Requests at the controller (R183, R186, R187) -/

/-- Whether `n` bytes at `a` lie within one granule. -/
def oneGranule (a n : Nat) : Bool := decide (0 < n) && decide (a % 64 + n ≤ 64)

/-- VAULT_REQUEST: the controller serves a request of bytes within one granule, or holds it in PROCESSOR mode (R205); a read returns
the whole granule. `ns` is the time the read took at the controller. -/
def vaultRequest (a n : Nat) (data : Option (List Byte)) (ns : Nat) : Eff := .look fun s =>
  let n := match data with | some bs => bs.length | none => n
  if !oneGranule a n then send (.reply ST_ALIGN [])
  else match regionOf a with
  | .vault _ =>
    let st := s.mapStatus a n
    if st ≠ ST_OK then send (.reply st [])
    else if s.touchesLock a n then send (.reply ST_BUSY [])
    else (match data with
      | some bs => holdOr .mgmt a n data (dramWrite a bs fun st => send (.reply st []))
      | none => holdOr .mgmt (a / 64 * 64) 64 none (dramRead (a / 64 * 64) 64 fun r =>
          .seq (monSample 0x05 (unitOf a) ns) (send (.reply r.status r.data))))
  | _ => send (.reply ST_ADDR_UNMAPPED [])

def execVaultRequest (a : BitVec 48) (n : Fin 65) (data : Option (List Byte)) (ns : BitVec 32) (s : State) :
    Host.Outcome State Fault Refusal := (vaultRequest a.toNat n data ns.toNat).done s

/-! Repair (R195, R196) and refresh (R191) -/

/-- REMAP_PERSIST: the oldest remap that the firmware has not yet written goes to the persistent list. -/
def remapPersist : Eff := .look fun s =>
  match s.remapNew with
  | [] => .skip
  | r :: rest => .seq (.upd (.remapNew rest)) (.upd (.remapFlash (s.remapFlash ++ [r])))

def execRemapPersist (s : State) : Host.Outcome State Fault Refusal := remapPersist.done s

/-- REFRESH: a bank refreshes its next row; the rows ascend and wrap at 3,071. -/
def refreshBank (b : Nat) : Eff := .look fun s => .upd (.refRow b ((s.refRowAt b + 1) % 3072))

def execRefresh (u : Fin 1024) (bank : Fin 16) (s : State) : Host.Outcome State Fault Refusal :=
  (refreshBank (u * 16 + bank)).done s

/-- TRACKER_WINDOW_EXPIRY: the window of the row that entered first runs out, and the rows whose window has expired leave. -/
def trackerExpiry (u : Nat) : Eff := .look fun s =>
  match s.trackerAt u with
  | [] => .skip
  | t :: rest =>
    let w := (s.trackCfg u).2.2
    .seq (reachTime (rest.foldl (fun m x => min m x.first) t.first + w + 1))
      (.look fun s => .upd (.tracker u (trackPrune w s.now (s.trackerAt u))))

def execTrackerWindowExpiry (u : Fin 1048) (s : State) : Host.Outcome State Fault Refusal := (trackerExpiry u).done s

/-! Scrub (R198, R199) -/

/-- The page of a unit's registers. -/
def unitPage (u : Option (Fin 128)) : Nat := match u with | some c => c * 16 + 8 | none => 0x1060

/-- The key of a unit in the scrub store. -/
def unitKey (u : Option (Fin 128)) : Nat := match u with | some c => c | none => 128

/-- Whether an address lies in the unit's memory. -/
def inUnit (u : Option (Fin 128)) (a : Nat) : Bool :=
  match u with
  | some c => decide (a / 0x18000000 = c)
  | none => isExt a

def scrubBase (u : Option (Fin 128)) : Fld := ⟨rk (unitPage u) 0x200, 0, 48⟩
def scrubLimit (u : Option (Fin 128)) : Fld := ⟨rk (unitPage u) 0x208, 0, 48⟩
def scrubWriteBack (u : Option (Fin 128)) : Fld := ⟨rk (unitPage u) 0x210, 7, 1⟩
def scrubBusy (u : Option (Fin 128)) : Fld := ⟨rk (unitPage u) 0x210, 8, 1⟩
def scrubLast (u : Option (Fin 128)) : Fld := ⟨rk (unitPage u) 0x210, 16, 8⟩
def scrubRecAddr (u : Option (Fin 128)) : Fld := ⟨rk (unitPage u) 0x218, 0, 48⟩

/-- The counts of a scrub (R199). -/
structure ScrubSum where
  words  : Nat
  single : Nat
  double : Nat
  bad    : Nat
  first  : Option Nat
  last   : Nat
  deriving DecidableEq, Repr

/-- A word that needed correction or was uncorrectable. -/
def ScrubSum.fail (r : ScrubSum) (a : Nat) : ScrubSum := { r with first := some (r.first.getD a), last := a }

/-- The counts after one more word. -/
def ScrubSum.see (r : ScrubSum) (a : Nat) (d : Decoded) : ScrubSum :=
  let r := { r with words := r.words + 1 }
  match d with
  | .single _ => { r.fail a with single := r.single + 1 }
  | .double _ _ => { r.fail a with double := r.double + 1 }
  | .bad | .addressFault | .poison => { r.fail a with bad := r.bad + 1 }
  | .good => r

/-- Scrub one word: decode it, and write back what was corrected. -/
def scrubWord (wb : Bool) (a : Nat) (r : ScrubSum) (k : ScrubSum → Eff) : Eff := .look fun s =>
  let d := s.decode a
  .seq (dramWord a fun _ _ => match d with
      | .single _ => .look fun s => Eff.when wb (pokeWord a (s.corrected a) 0)
      | _ => .skip)
    (k (r.see a d))

/-- Scrub words in address order. -/
def scrubWords (wb : Bool) : List Nat → ScrubSum → (ScrubSum → Eff) → Eff
  | [], r, k => k r
  | a :: rest, r, k => .look fun s =>
      if s.diagLocked a then scrubWords wb rest r k else scrubWord wb a r fun r => scrubWords wb rest r k

/-- The 64 bytes of a record. -/
def scrubRecord (r : ScrubSum) (st duration base limit : Nat) : List Byte :=
  toLE 8 r.words ++ toLE 4 r.single ++ toLE 4 r.double ++ toLE 4 r.bad ++ toLE 4 st ++ toLE 8 (r.first.getD 0) ++ toLE 8 r.last ++
    toLE 8 duration ++ toLE 8 base ++ toLE 8 limit

/-- Write a record to the unit's registers and to rec_addr. -/
def writeRecord (u : Option (Fin 128)) (bs : List Byte) : Eff := .look fun s => .all [
  Eff.each (List.range 8) fun i => putReg (rk (unitPage u) (0x220 + 8 * i)) (BitVec.ofNat 64 (leAt bs (8 * i) 8)),
  Eff.when (s.get (scrubRecAddr u) != 0)
    (memWriteAs (9, match u with | some c => c | none => 0xFF) .normal (s.get (scrubRecAddr u)) bs fun _ _ => .skip)]

/-- No words read. -/
def ScrubSum.none : ScrubSum := ⟨0, 0, 0, 0, .none, 0⟩

/-- R198, R202: start a scrub from the unit's registers. -/
def scrubStart (u : Option (Fin 128)) : Eff := .look fun s =>
  let base := s.get (scrubBase u)
  let limit := s.get (scrubLimit u)
  if s.bit (scrubBusy u) then put (scrubLast u) ST_BUSY
  else if base % 64 ≠ 0 ∨ limit % 64 ≠ 63 ∨ limit < base ∨ !inUnit u base ∨ !inUnit u limit then
    .seq (put (scrubLast u) ST_BAD_ARG) (writeRecord u (scrubRecord ScrubSum.none ST_BAD_ARG 0 base base))
  else .seq (putBit (scrubBusy u) true) (.upd (.scrubRun (unitKey u) (some (base, limit, s.now))))

def actScrubStart (who : Agent) (u : Option (Fin 128)) : Act := guardAct who (unitPage u) 0x210 fun _ => (ST_OK, scrubStart u)

def execScrubStart (who : Agent) (u : Option (Fin 128)) (s : State) : Host.Outcome State Fault Refusal :=
  (runAct who (actScrubStart who u)).done s

/-- The end of a running scrub after `g` granules, with its record and, in a vault, the scrub-done event. -/
def scrubEnd (u : Option (Fin 128)) (g : Option Nat) (st : Nat) : Eff := .look fun s =>
  match s.scrubRunAt (unitKey u) with
  | none => .skip
  | some (base, limit, start) =>
    let n := min (g.getD ((limit + 1 - base) / 64)) ((limit + 1 - base) / 64)
    scrubWords (s.bit (scrubWriteBack u)) ((List.range (n * 8)).map fun i => base + 8 * i) ScrubSum.none fun r =>
      .all [
        writeRecord u (scrubRecord r st (s.now - start) base (if n = 0 then base else base + 64 * n - 1)),
        putBit (scrubBusy u) false,
        .upd (.scrubRun (unitKey u) none),
        (match u with | some c => evFire (c * 8 + 5) | none => .skip)]

def actScrubAbort (who : Agent) (u : Option (Fin 128)) (g : Nat) : Act := guardAct who (unitPage u) 0x210 fun _ =>
  (ST_OK, scrubEnd u (some g) ST_SCRUB_ABORTED)

/-- SCRUB_ABORT: the running scrub stops after the granules it has read. -/
def execScrubAbort (who : Agent) (u : Option (Fin 128)) (granules : Nat) (s : State) : Host.Outcome State Fault Refusal :=
  (runAct who (actScrubAbort who u granules)).done s

/-- SCRUB_DONE: the running scrub of a vault has read its last granule, once its reads of PROCESSOR-mode pseudo-channels, which are
held like those of a cell, have been served (R198). The first 512 bytes of its range touch every pseudo-channel that it reads. -/
def scrubDone (u : Option (Fin 128)) : Eff := .look fun s =>
  match u, s.scrubRunAt (unitKey u) with
  | some c, some (base, limit, _) => gates (.scrub c) [(base, min 512 (limit + 1 - base))] (.seq (ungate (.scrub c)) (scrubEnd u none ST_OK))
  | _, _ => scrubEnd u none ST_OK

def execScrubDone (u : Option (Fin 128)) (s : State) : Host.Outcome State Fault Refusal := (scrubDone u).done s

/-! Diagnostic access (R200, R201) -/

/-- The lifecycle sub-mode DIAGNOSTIC (R432). -/
def State.diagnostic (s : State) : Bool := s.get R.LCY_STATE_state == 3

def diagLock (u : Option (Fin 128)) : Fld := ⟨rk (unitPage u) 0x300, 0, 1⟩
def diagLockOk (u : Option (Fin 128)) : Fld := ⟨rk (unitPage u) 0x300, 1, 1⟩
def diagBase (u : Option (Fin 128)) : Fld := ⟨rk (unitPage u) 0x300, 6, 42⟩
def diagLimit (u : Option (Fin 128)) : Fld := ⟨rk (unitPage u) 0x308, 0, 48⟩
def diagStatus (u : Option (Fin 128)) : Fld := ⟨rk (unitPage u) 0x320, 24, 8⟩

/-- Write back and drop every line of the shared cache within a range (R291). -/
def flushRange (lo hi : Nat) : Eff := .look fun s =>
  Eff.each (s.cache.flatMap fun e => e.2) fun l =>
    Eff.when (decide (lo ≤ l.base + 127) && decide (l.base ≤ hi)) (.seq (Eff.when l.dirty (writeBack l)) (dropLine l.base))

/-- R200, R202: a write of xx_DIAG_BASE: lock the range, release it, or refuse the lock. -/
def diagWrite (u : Option (Fin 128)) (v : Nat) : Eff := .look fun s => .all [
  put (diagBase u) (v / 64),
  putBit (diagLockOk u) false,
  if v % 2 = 0 then putBit (diagLock u) false
  else if !s.diagnostic then .seq (putBit (diagLock u) false) (put (diagStatus u) ST_DIAG_DENIED)
  else .seq (if u.isNone then .look fun s => flushRange (s.get (diagBase u) * 64) (s.get (diagLimit u)) else .skip)
    (putBit (diagLock u) true)]

def actDiagLock (who : Agent) (u : Option (Fin 128)) (v : Nat) : Act := guardAct who (unitPage u) 0x300 fun s =>
  (if v % 2 = 1 && !s.diagnostic then ST_DIAG_DENIED else ST_OK, diagWrite u v)

def execDiagLock (who : Agent) (u : Option (Fin 128)) (v : Word) (s : State) : Host.Outcome State Fault Refusal :=
  (runAct who (actDiagLock who u v.toNat)).done s

/-- DIAG_LOCK_GRANTED: the requests accepted before the lock have drained. -/
def diagGranted (u : Option (Fin 128)) : Eff := .look fun s => Eff.when (s.bit (diagLock u)) (putBit (diagLockOk u) true)

def execDiagLockGranted (u : Option (Fin 128)) (s : State) : Host.Outcome State Fault Refusal := (diagGranted u).done s

/-- The device address of the word that the diagnostic registers name. -/
def State.diagWord (s : State) (u : Option (Fin 128)) : Nat := s.get ⟨rk (unitPage u) 0x310, 3, 45⟩ * 8

/-- R200: the status of a raw operation. -/
def State.rawStatus (s : State) (u : Option (Fin 128)) : Nat :=
  let a := s.diagWord u
  if s.get ⟨rk (unitPage u) 0x310, 0, 3⟩ ≠ 0 then ST_ALIGN
  else if u.isSome && inUnit u a && s.bit (R.BU_STATUS_mode (unitOf a / 8) (unitOf a % 8)) then ST_BU_MODE
  else if !s.diagnostic || !s.bit (diagLockOk u) || !inUnit u a || !s.diagLocked a then ST_DIAG_DENIED
  else ST_OK

/-- A raw operation: its status is kept, and it acts when that is ST_OK. -/
def rawOp (u : Option (Fin 128)) (act : Nat → Eff) : Eff := .look fun s =>
  .seq (put (diagStatus u) (s.rawStatus u)) (Eff.when (s.rawStatus u == ST_OK) (act (s.diagWord u)))

/-- R201: store data and check bits exactly as given. -/
def rawWrite (u : Option (Fin 128)) : Eff := rawOp u fun a => .look fun s =>
  let data := (s.reg (rk (unitPage u) 0x318)).toNat
  pokeWord a data (Nat.xor (s.get ⟨rk (unitPage u) 0x320, 0, 16⟩) (checkOf data a))

/-- R201: load the stored bits. -/
def rawRead (u : Option (Fin 128)) : Eff := rawOp u fun a => .look fun s => .all [
  putReg (rk (unitPage u) 0x318) (BitVec.ofNat 64 (s.word a)),
  put ⟨rk (unitPage u) 0x320, 0, 16⟩ (Nat.xor (s.checkAt (a / 8)).toNat (checkOf (s.word a) a))]

/-- R201: a write of xx_DIAG_CHECK: the check bits, and the raw operations it asks for. -/
def actDiagCheck (who : Agent) (u : Option (Fin 128)) (v : Nat) : Act := guardAct who (unitPage u) 0x320 fun _ =>
  (ST_OK, .all [
    put ⟨rk (unitPage u) 0x320, 0, 16⟩ (v % 2 ^ 16),
    Eff.when (v / 2 ^ 16 % 2 == 1) (rawWrite u),
    Eff.when (v / 2 ^ 17 % 2 == 1) (rawRead u)])

def execRawWrite (who : Agent) (u : Option (Fin 128)) (check : BitVec 16) (s : State) : Host.Outcome State Fault Refusal :=
  (runAct who (actDiagCheck who u (check.toNat + 2 ^ 16))).done s

def execRawRead (who : Agent) (u : Option (Fin 128)) (s : State) : Host.Outcome State Fault Refusal :=
  (runAct who (fun s => actDiagCheck who u (s.get ⟨rk (unitPage u) 0x320, 0, 16⟩ + 2 ^ 17) s)).done s

end Sys2Proof.Machine
end

