-- ==== Sys2Proof/Machine/BankUnits.lean ====
section
/-! DEFINITION. Bank units (08_bank_units.md R203–R232) but for the memory and operation instructions: modes, held requests and
memory windows, commands and their ends, faults, the micro-program store, the scalar and control instructions. -/

namespace Sys2Proof.Machine

/-! State of a unit -/

def BU_IDLE : Nat := 0
def BU_RUN : Nat := 1
def BU_WAIT : Nat := 3
def BU_FAULTED : Nat := 4

/-- The cell above unit u, and its pseudo-channel. -/
def buC (u : Nat) : Nat := u / 8
def buP (u : Nat) : Nat := u % 8

/-- The state of a unit. -/
def State.bu (s : State) (u : Nat) : Nat := s.get (R.BU_STATUS_state (buC u) (buP u))

/-- Set the state of a unit. -/
def putBu (u st : Nat) : Eff := put (R.BU_STATUS_state (buC u) (buP u)) st

/-- The unit's pseudo-channel is in PROCESSOR mode. -/
def State.buMode (s : State) (u : Nat) : Bool := s.bit (R.BU_STATUS_mode (buC u) (buP u))

/-- A general register: G0 reads as 0 (R213). -/
def State.bug (s : State) (u g : Nat) : Word := if g = 0 then 0 else s.reg (R.BU_G (buC u) (buP u) g)

/-- Write a general register; a write of G0 is ignored. -/
def putBug (u g : Nat) (v : Word) : Eff := if g = 0 then .skip else putReg (R.BU_G (buC u) (buP u) g) v

/-- The unit's current instruction. -/
def State.buPc (s : State) (u : Nat) : Nat := s.get (R.BU_STATUS_pc (buC u) (buP u))

/-- Set the unit's current instruction. -/
def putBuPc (u pc : Nat) : Eff := .all [
  put (R.BU_STATUS_pc (buC u) (buP u)) pc, put (R.BU_PROGRESS_pc (buC u) (buP u)) pc]

/-- Record a status of the unit. -/
def buLast (u st : Nat) : Eff := put (R.BU_STATUS_last_status (buC u) (buP u)) st

/-- Show the length of the queue; a running command is not queued. -/
def buShow (u : Nat) : Eff := .look fun s =>
  put (R.BU_STATUS_queued (buC u) (buP u)) ((s.buQAt u).filter fun x => !x.running).length

/-! Submission (R209, R210) -/

/-- The fields of a command block. -/
def buParse (bs : List Byte) (id step : Nat) (thread : Option (Nat × Nat)) (bound : Bool) : BuCmd :=
  ⟨id, leAt bs 0 2, byteAt bs 2, byteAt bs 3, leAt bs 4 2, leAt bs 6 2, (List.range 7).map fun i => leAt bs (8 + 8 * i) 8,
    thread, step, bound, false, false, false, none, none⟩

/-- A service command. -/
def BuCmd.svc (x : BuCmd) : Bool := x.flags / 4 % 2 == 1

/-- R210: the fields of a block are in order. -/
def BuCmd.fieldsOk (x : BuCmd) : Bool :=
  x.flags / 8 == 0 && x.svcCtl / 32 == 0 && (if x.svc then decide (x.svcCtl % 8 < 3) else decide (x.entry < 512)) &&
    !(x.flags % 2 == 1 && decide (6143 < x.donePbx)) && !(x.flags / 2 % 2 == 1 && decide (6143 < x.tagPbx))

/-- R210: the status under which a unit rejects a command, ST_OK when it does not. -/
def State.buStatus (s : State) (u : Nat) (x : BuCmd) : Nat :=
  if s.unitRetired u then ST_UNIT_RETIRED
  else if s.bu u = BU_FAULTED then ST_BU_FAULT
  else if !x.svc && (!s.buMode u || (s.bit (R.BU_MODE_pending (buC u) (buP u)) && !s.bit (R.BU_MODE_req (buC u) (buP u)))) then
    ST_BU_MODE
  else if !x.fieldsOk then ST_BAD_ARG
  else ST_OK

/-- Queue a command. -/
def buEnqueue (u : Nat) (x : BuCmd) : Eff := .look fun s => .all [
  .upd (.buQ u (s.buQAt u ++ [x])), .upd (.tagNext (s.tagNext + 1)), buShow u]

/-- The block that BU_SUBMIT names has been read: the command is queued, or discarded with its status. -/
def buSubmitted (u : Nat) (r : Resp) : Eff := .look fun s =>
  let x := buParse r.data s.tagNext 0 none false
  let st := if r.status ≠ ST_OK then r.status else s.buStatus u x
  if st ≠ ST_OK then buLast u st
  else if !s.buRoom u then buLast u ST_BUSY
  else buEnqueue u x

/-! Held requests and memory windows (R224, R225, R231) -/

/-- R458: a bad word is poison to a host. -/
def hostStatus (st : Nat) : Nat := if st = ST_UNCORRECTABLE then ST_POISON else st

/-- R351, R458: the completion of a host's BAR2 read: a normal one in every case but poison, which completes with EP. -/
def hostAnswer (p : Fin 2) (a : Nat) (resp : Resp) : Eff :=
  let st := hostStatus resp.status
  .all [
    Eff.when (st != ST_OK) (hostFault p a st false true false),
    snoop 2 1 p (at_ a resp.data),
    send (.reply (if st = ST_POISON then ST_POISON else ST_OK) resp.data)]

/-- A WRITE of another module has been written: its bytes enter the check-value stream and its landing notice goes out (R301,
R410). -/
def rxWritten (p : RxPkt) (st : Nat) (k : Eff) : Eff :=
  let a := p.args % 2 ^ 48
  let tag := p.args / 2 ^ 48
  .all [
    Eff.when (st == ST_OK) (snoop 3 0 p.link (at_ a p.payload)),
    Eff.when (st == ST_OK && tag != 0xFFFF) (sendLanding a tag p.payload.length),
    k]

/-- The answer of a held access reaches its agent: a thread gets it with its next LOAD_RESPONSE, a posted host write answers
only by the access-fault record (R351), a bank unit takes the command block it reads, a packet of another module is acknowledged,
and a transfer queue sends what it has read. -/
def answerHeld (r : HeldReq) (resp : Resp) : Eff := .look fun s =>
  match r.who with
  | .thread c t => .upd (.loads (c * 16 + t) ((s.loadsAt (c * 16 + t)).map fun x =>
      if x.tag == r.tag then { x with answer := some resp } else x))
  | .host p =>
    if r.write.isSome then Eff.when (resp.status != ST_OK) (hostFault p r.base resp.status true true false)
    else hostAnswer p r.base resp
  | .bankUnit u => buSubmitted u resp
  | .remote l =>
    (match s.rxWaitAt r.tag, s.xqDescAt l with
     | some (stream, p), _ => .seq (.upd (.rxWait r.tag none)) (rxWritten p resp.status (rxAnswer (stream / 4) (stream % 4) p resp.status))
     | none, d => Eff.when (s.get (R.GWL_XQ_STATUS_state l) == 1)
        (xqGot l d (r.base - leAt d 8 8) resp (xqSend l d (xqOffsets d (r.base - leAt d 8 8 + 2048)))))
  | _ => send (.reply resp.status resp.data)

/-- One granule request of an access has been served; the last one answers the access. -/
def granuleCame (r : HeldReq) (resp : Resp) : Eff := .look fun s =>
  let got := s.heldPartsAt r.tag ++ [(r.addr, resp)]
  if got.length < (granules r.base r.whole).length then .upd (.heldParts r.tag got)
  else .seq (.upd (.heldParts r.tag [])) (answerHeld r (if r.write.isSome then { joinAll r.base r.whole got with data := toLE 8 0 } else joinAll r.base r.whole got))

/-- The controller serves one held request. An engine that waits makes its access itself when its step comes. -/
def serveHeld (u : Nat) (r : HeldReq) : Eff := .look fun s => .seq
  (monSample 0x0B u ((s.now : Int) - r.since))
  (if r.tag = 0 then .upd (.granted u (s.grantedAt u ++ [r.who])) else granuleServe r (granuleCame r))

/-- Whether a request is a host's. -/
def HeldReq.ofHost (r : HeldReq) : Bool := match r.who with | .host _ => true | _ => false

/-- R225: serve every request held at a unit: the hosts' first, each group in arrival order. -/
def serveAll (u : Nat) : Eff := .look fun s =>
  let rs := s.heldAt u
  .all [
    .upd (.held u []),
    put (R.BU_STATUS_held (buC u) (buP u)) 0,
    Eff.each (rs.filter fun r => r.ofHost) fun r => serveHeld u r,
    Eff.each (rs.filter fun r => !r.ofHost) fun r => serveHeld u r]

/-- R225: open a memory window when requests are held: it serves those held at its opening. -/
def memoryWindow (u : Nat) : Eff := .look fun s =>
  let now := atUnit (s.heldAt u)
  Eff.when (!(s.heldAt u).isEmpty) (.all [
    addSat (R.BU_WINDOWS_count (buC u) (buP u)) 1,
    .upd (.held u now),
    serveAll u,
    .upd (.held u ((s.heldAt u).filter fun r => !now.contains r)),
    heldShow u])

/-- The yield timer of a unit (R224). -/
def State.buGap (s : State) (u : Nat) : Nat := min 16383 (s.now - s.yieldAtAt u)

/-- R224: a yield point: the timer restarts, and held requests are served. -/
def yieldPoint (u : Nat) : Eff := .look fun s => .all [
  put (R.BU_YIELD_max_gap_ns (buC u) (buP u)) (max (s.get (R.BU_YIELD_max_gap_ns (buC u) (buP u))) (s.buGap u)),
  .upd (.yieldAt u s.now),
  memoryWindow u]

/-! The end of commands (R211, R231) -/

/-- BU_FAULT. -/
def buFault (u l st cause : Nat) : Eff := .look fun s => .all [
  put (R.BU_FAULT_l_addr (buC u) (buP u)) l,
  put (R.BU_FAULT_pc (buC u) (buP u)) (s.buPc u),
  put (R.BU_FAULT_status (buC u) (buP u)) st,
  put (R.BU_FAULT_cause (buC u) (buP u)) cause]

/-- R211: one command completes: status, event, postbox; its thread's STEP_END no longer awaits it. -/
def buComplete (u : Nat) (x : BuCmd) (st l cause : Nat) : Eff := .all [
  .look fun s => .upd (.buQ u ((s.buQAt u).filter fun y => y.id != x.id)),
  buLast u st,
  addSat (R.BU_CMDS_count (buC u) (buP u)) 1,
  Eff.when (st != ST_OK && st != ST_BU_FORCED_YIELD) (.all [
    buFault u l st cause,
    Eff.when (st == ST_POISON) (match x.badAt with | some (_, pc) => put (R.BU_FAULT_pc (buC u) (buP u)) pc | none => .skip),
    evFire (buC u * 8 + 3)]),
  Eff.when (x.flags % 2 == 1) (sendSignal (srcUnit u) (buC u) x.donePbx 1),
  (match x.kvt with
   | some c => .look fun s => .upd (.kvtQ c ((s.kvtQAt c).map fun y =>
       { y with copies := y.copies.map fun z => if z.cmd == some x.id then { z with done := some st } else z }))
   | none => .skip),
  buShow u]

/-- The running command. -/
def State.buRunning (s : State) (u : Nat) : Option BuCmd :=
  match s.buQAt u with
  | x :: _ => if x.running then some x else none
  | [] => none

/-- Change the running command. -/
def setRunning (u : Nat) (f : BuCmd → BuCmd) : Eff := .look fun s =>
  match s.buQAt u with
  | x :: rest => .upd (.buQ u (f x :: rest))
  | [] => .skip

/-- The running command ends with a status; the unit is IDLE and at a yield point. -/
def buEnd (u st l cause : Nat) : Eff := .look fun s =>
  match s.buRunning u with
  | some x => .all [buComplete u x st l cause, putBu u BU_IDLE, yieldPoint u]
  | none => .skip

/-- The status with which a command that reaches its end completes (R226, R231). -/
def BuCmd.endStatus (x : BuCmd) : Nat :=
  if x.poisoned then ST_POISON else if x.forced then ST_BU_FORCED_YIELD else ST_OK

/-- END (R211). -/
def buFinish (u : Nat) : Eff := .look fun s =>
  match s.buRunning u with
  | some x => buEnd u x.endStatus (if x.poisoned then (x.badAt.getD (0, 0)).1 else 0) (if x.poisoned then 4 else 0)
  | none => .skip

/-- Every command of a unit completes with a status, in queue order. -/
def buEndAll (u st cause : Nat) : Eff := .look fun s => Eff.each (s.buQAt u) fun x => buComplete u x st 0 cause

/-- R231: a trap: the unit is FAULTED, its commands complete, and the controller serves what is held. -/
def buTrap (u cause st : Nat) : Eff := .all [buEndAll u st cause, putBu u BU_FAULTED, serveAll u]

/-- R232: abort: the running and the queued commands complete with ST_ABORTED; a FAULTED unit stays FAULTED. -/
def buAbortAll (u : Nat) : Eff := .look fun s => .seq (buEndAll u ST_ABORTED 6)
  (Eff.when (s.bu u != BU_FAULTED) (.seq (putBu u BU_IDLE) (yieldPoint u)))

/-- The command block of a BUC at an offset of general SRAM (R159, R210). -/
def blockRead (c t u off : Nat) (collided : Fin 6) (k : List Byte → Eff) : Eff := .look fun s =>
  let cls := 1 + s.get (R.SEQ_THR_CFG_group c t)
  if off % 16 ≠ 0 then .seq (buLast u ST_ALIGN) (trapThread c t 0x09 ST_ALIGN off)
  else if 0x300000 < off + 64 then trapThread c t 0x03 ST_ADDR_UNMAPPED off
  else sramRead c off 64 (cls, 0) fun r =>
    if r.status = ST_POISON ∨ r.status = ST_UNCORRECTABLE then trapThread c t 0x04 r.status (sramAddr c off)
    else if r.status ≠ ST_OK then trapThread c t 0x03 r.status (sramAddr c off)
    else .seq (Eff.when (collided.val != 0) (countCollisions (sramAddr c off) cls collided))
      (if collided.val = 5 then trapThread c t 0x03 ST_COLLISION (sramAddr c off) else k r.data)

/-- SEQ_BUC (R158, R210, R211). -/
def seqBuc (c t a : Nat) (fn : BitVec 9) (imm : BitVec 32) (collided : Fin 6) : Eff := issue c t 1 fn (.look fun s =>
  let u := imm.toNat % 1024
  let off := (s.sreg c t a).toNat
  blockRead c t u off collided fun bs => .look fun s =>
    let x := buParse bs s.tagNext (s.thrStepAt (c * 16 + t)) (some (c, t)) (fn.toNat % 2 == 1)
    let st := s.buStatus u x
    if st ≠ ST_OK then .seq (buLast u st) (trapThread c t 0x09 st (sramAddr c off))
    else .seq (buEnqueue u x) (nextPc c t))

def execSeqBuc (c : Fin 128) (t : Fin 16) (d a b : Fin 32) (fn : BitVec 9) (imm : BitVec 32) (collided : Fin 6)
    (s : State) : Host.Outcome State Fault Refusal :=
  (fetched c t (seqWord 0x23 d a b fn imm) (seqBuc c t a fn imm collided)).done s

/-- BU_SUBMIT (R210): the block is read under the remote class, and a rejected command is discarded; a read that a PROCESSOR-mode
pseudo-channel holds comes with its memory window (R205). -/
def actBuSubmit (who : Agent) (u : Fin 1024) (a : Nat) : Act := guardAct who (buC u * 16 + 9) (buP u * 0x1000 + 0x18) fun _ =>
  (ST_OK, if a % 64 ≠ 0 then buLast u ST_ALIGN
    else holdOr (.bankUnit u) a 64 none (memReadAs (9, buC u) .normal a 64 fun r => buSubmitted u r))

def execBuSubmit (who : Agent) (u : Fin 1024) (block : BitVec 48) (s : State) : Host.Outcome State Fault Refusal :=
  (runAct who (actBuSubmit who u block.toNat)).done s

/-- BU_COMMAND_START (R211): the command at the head of the queue of an IDLE unit starts; a program needs PROCESSOR mode. -/
def buCommandStart (u : Nat) : Eff := .look fun s =>
  match s.buQAt u with
  | [] => .skip
  | x :: _ => Eff.when (s.bu u == BU_IDLE && !x.running && (x.svc || s.buMode u)) (.all [
      setRunning u fun x => { x with running := true },
      Eff.each (List.range 7) fun i => putBug u (i + 1) (BitVec.ofNat 64 (x.args.getD i 0)),
      Eff.when (!x.svc) (putBuPc u x.entry),
      put (R.BU_PROGRESS_record (buC u) (buP u)) 0,
      put (R.BU_PROGRESS_bytes_done (buC u) (buP u)) 0,
      putBu u BU_RUN,
      .upd (.yieldAt u s.now),
      buShow u])

def execBuCommandStart (u : Fin 1024) (s : State) : Host.Outcome State Fault Refusal := (buCommandStart u).done s

/-! Instructions (R214–R216) -/

/-- The fields of an instruction word. -/
structure BuInstr where
  op  : Nat
  d   : Nat
  a   : Nat
  b   : Nat
  c   : Nat
  imm : BitVec 32
  fmt : Nat
  sub : Nat
  aux : Nat
  cbk : Nat
  y   : Bool
  n   : Nat
  deriving DecidableEq, Repr

/-- R215: the fields of a word. -/
def buFields (w : Word) : BuInstr :=
  let x := w.toNat
  ⟨x % 256, x / 2 ^ 8 % 64, x / 2 ^ 14 % 64, x / 2 ^ 20 % 64, x / 2 ^ 26 % 64, BitVec.ofNat 32 (x / 2 ^ 32), x / 2 ^ 32 % 8,
    x / 2 ^ 35 % 4, x / 2 ^ 37 % 4, x / 2 ^ 39 % 4, x / 2 ^ 41 % 2 == 1, x / 2 ^ 42 % 2 ^ 11⟩

/-- The formats of an opcode (R217). -/
def BuInstr.fmtOk (i : BuInstr) : Bool :=
  match i.op with
  | 0x10 => decide (i.fmt ≤ 5)
  | 0x12 => i.fmt == 5
  | 0x15 => i.fmt == 5 || (i.aux != 1 && decide (i.fmt ≤ 2))
  | 0x20 | 0x21 | 0x22 => decide (i.fmt ≤ 4)
  | _ => decide (i.fmt ≤ 5)

/-- The sub and aux values of an opcode (R217). -/
def BuInstr.subOk (i : BuInstr) : Bool :=
  match i.op with
  | 0x10 | 0x11 | 0x12 | 0x13 | 0x24 => decide (i.sub < 3)
  | 0x14 => i.sub == 0 && decide (i.aux < 3)
  | 0x15 => decide (i.sub < 3) && decide (i.aux < 3)
  | 0x20 | 0x21 => decide (i.sub < 3) && decide (i.aux < 2)
  | 0x22 => i.sub == 0 && decide (i.aux < 2)
  | 0x23 => decide (i.sub < 2)
  | 0x25 => i.sub == 0
  | 0x26 => decide (i.sub < 2)
  | _ => true

/-- R215: whether a word is a legal instruction. -/
def buLegal (w : Word) : Bool :=
  let i := buFields w
  decide (i.d < 48) && decide (i.a < 48) && decide (i.b < 48) && decide (i.c < 48) &&
    (if i.op ≤ 0x0F then i.c == 0
     else (decide (0x10 ≤ i.op ∧ i.op ≤ 0x15) || decide (0x20 ≤ i.op ∧ i.op ≤ 0x26)) && i.fmtOk && i.subOk &&
      decide (w.toNat < 2 ^ 53))

/-- R214: go to the next instruction; a program counter that passes 511 traps. -/
def buNext (u : Nat) : Eff := .look fun s =>
  if s.buPc u = 511 then buTrap u 2 ST_BU_PROGRAM else putBuPc u (s.buPc u + 1)

/-- One instruction of a running program: the word at the unit's pc is fetched (`fetch`: 0 = as stored, 1 = corrected,
2 = uncorrectable), and an illegal word traps the unit; the step belongs to opcode `op`. -/
def buStep (u op fetch : Nat) (k : BuInstr → Eff) : Eff := .look fun s =>
  match s.buRunning u with
  | none => .skip
  | some x =>
    if x.svc || !(s.bu u == BU_RUN || s.bu u == BU_WAIT) then .skip
    else
      let w := s.reg (R.BU_PROG (buC u) (buP u) (s.buPc u))
      if fetch = 2 then buTrap u 1 ST_BU_FAULT
      else .seq (Eff.when (fetch == 1) (addSat (R.BU_FETCH_CORR_count (buC u) (buP u)) 1))
        (if !buLegal w then buTrap u 2 ST_BU_PROGRAM
         else if (buFields w).op ≠ op then .skip
         else k (buFields w))

/-- A scalar instruction that writes G[d]. -/
def buScalar (u op fetch : Nat) (f : BuInstr → Word → Word → Word → Word) : Eff := buStep u op fetch fun i => .look fun s =>
  .seq (putBug u i.d (f i (s.bug u i.d) (s.bug u i.a) (s.bug u i.b))) (buNext u)

/-- A jump to imm[8:0] when its condition holds. -/
def buBranch (u : Nat) (i : BuInstr) (b : Bool) : Eff := if b then putBuPc u (i.imm.toNat % 512) else buNext u

/-- The shift amount (G[b] + imm) mod 64. -/
def buShift (i : BuInstr) (b : Word) : Nat := (b + i.imm.signExtend 64).toNat % 64

def execBuNop (u : Fin 1024) (fetch : Fin 3) (s : State) : Host.Outcome State Fault Refusal :=
  (buStep u 0x00 fetch fun _ => buNext u).done s

def execBuLi (u : Fin 1024) (fetch : Fin 3) (s : State) : Host.Outcome State Fault Refusal :=
  (buScalar u 0x01 fetch fun i _ _ _ => i.imm.signExtend 64).done s

def execBuLih (u : Fin 1024) (fetch : Fin 3) (s : State) : Host.Outcome State Fault Refusal :=
  (buScalar u 0x02 fetch fun i d _ _ => i.imm ++ d.setWidth 32).done s

def execBuAdd (u : Fin 1024) (fetch : Fin 3) (s : State) : Host.Outcome State Fault Refusal :=
  (buScalar u 0x03 fetch fun i _ a b => a + b + i.imm.signExtend 64).done s

def execBuSub (u : Fin 1024) (fetch : Fin 3) (s : State) : Host.Outcome State Fault Refusal :=
  (buScalar u 0x04 fetch fun _ _ a b => a - b).done s

def execBuMul (u : Fin 1024) (fetch : Fin 3) (s : State) : Host.Outcome State Fault Refusal :=
  (buScalar u 0x05 fetch fun _ _ a b => a * b).done s

def execBuShl (u : Fin 1024) (fetch : Fin 3) (s : State) : Host.Outcome State Fault Refusal :=
  (buScalar u 0x06 fetch fun i _ a b => a <<< buShift i b).done s

def execBuShr (u : Fin 1024) (fetch : Fin 3) (s : State) : Host.Outcome State Fault Refusal :=
  (buScalar u 0x07 fetch fun i _ a b => a >>> buShift i b).done s

def execBuAnd (u : Fin 1024) (fetch : Fin 3) (s : State) : Host.Outcome State Fault Refusal :=
  (buScalar u 0x08 fetch fun _ _ a b => a &&& b).done s

def execBuOr (u : Fin 1024) (fetch : Fin 3) (s : State) : Host.Outcome State Fault Refusal :=
  (buScalar u 0x09 fetch fun _ _ a b => a ||| b).done s

def execBuBne (u : Fin 1024) (fetch : Fin 3) (s : State) : Host.Outcome State Fault Refusal :=
  (buStep u 0x0A fetch fun i => .look fun s => buBranch u i (s.bug u i.a != s.bug u i.b)).done s

def execBuBltu (u : Fin 1024) (fetch : Fin 3) (s : State) : Host.Outcome State Fault Refusal :=
  (buStep u 0x0B fetch fun i => .look fun s => buBranch u i ((s.bug u i.a).ult (s.bug u i.b))).done s

def execBuJmp (u : Fin 1024) (fetch : Fin 3) (s : State) : Host.Outcome State Fault Refusal :=
  (buStep u 0x0C fetch fun i => buBranch u i true).done s

/-- LOOP: the register is G[d]; G0 reads 0 and so never reaches 0 by the decrement. -/
def execBuLoop (u : Fin 1024) (fetch : Fin 3) (s : State) : Host.Outcome State Fault Refusal :=
  (buStep u 0x0D fetch fun i => .look fun s =>
    let v := s.bug u i.d - 1
    .seq (putBug u i.d v) (.look fun s => buBranch u i (s.bug u i.d != 0))).done s

def execBuYield (u : Fin 1024) (fetch : Fin 3) (s : State) : Host.Outcome State Fault Refusal :=
  (buStep u 0x0E fetch fun _ => .seq (yieldPoint u) (buNext u)).done s

def execBuEnd (u : Fin 1024) (fetch : Fin 3) (s : State) : Host.Outcome State Fault Refusal :=
  (buStep u 0x0F fetch fun _ => buFinish u).done s

/-! Windows that time opens (R222, R226) -/

/-- FORCED_YIELD (R226): with a request held and the yield timer at 8 µs, the unit opens a window, also when it runs no command. -/
def forcedYield (u : Nat) : Eff := .look fun s =>
  Eff.when (s.buMode u && s.bu u != BU_FAULTED && !(s.heldAt u).isEmpty) (.all [
    reachTime (s.yieldAtAt u + 8000),
    addSat (R.BU_FORCED_count (buC u) (buP u)) 1,
    Eff.when (s.buRunning u).isSome (setRunning u fun x => { x with forced := true }),
    yieldPoint u])

def execForcedYield (u : Fin 1024) (s : State) : Host.Outcome State Fault Refusal := (forcedYield u).done s

/-- Time moves on to the next whole microsecond of tide time. -/
def reachMicro : Eff := .look fun s => reachTime (((s.tideTime / 1000 + 1) * 1000 : Int) - s.tideOff).toNat

/-- R222: the units of a stack that get a slot: those that waited, then those that held one and still have work. -/
def State.grants (s : State) (stack : Nat) : List Nat :=
  let us := (List.range 128).map fun i => stack * 128 + i
  ((us.filter fun u => s.buSlotAt u == 2) ++ (us.filter fun u => s.buSlotAt u == 1 && !(s.buQAt u).isEmpty)).take 96

/-- STACK_WINDOW (R222): a window starts and the arbiter of a stack grants its slots. -/
def stackWindow (stack : Nat) : Eff := .seq reachMicro (.look fun s =>
  let gs := s.grants stack
  Eff.each ((List.range 128).map fun i => stack * 128 + i) fun u =>
    if gs.contains u then .seq (.upd (.buSlot u 1)) (Eff.when (s.bu u == BU_WAIT) (putBu u BU_RUN))
    else Eff.when (s.buSlotAt u == 1) (.upd (.buSlot u (if (s.buQAt u).isEmpty then 0 else 2))))

def execStackWindow (stack : Fin 8) (s : State) : Host.Outcome State Fault Refusal := (stackWindow stack).done s

/-! Modes (R205–R207) -/

/-- BU_MODE.req is written 1, or a chart asks for PROCESSOR mode. -/
def askProcessor (u : Nat) : Eff := .look fun s =>
  let st := if s.unitRetired u then ST_UNIT_RETIRED else if !s.bit R.LIC_FEATURES_bu_proc then ST_FRANK_MISSING else ST_OK
  .seq (put (R.BU_MODE_status (buC u) (buP u)) st)
    (Eff.when (st == ST_OK) (.seq (putBit (R.BU_MODE_req (buC u) (buP u)) true)
      (putBit (R.BU_MODE_pending (buC u) (buP u)) (!s.buMode u))))

/-- BU_MODE.req is written 0, or a chart asks for MEMORY mode. A change to PROCESSOR mode that has not taken place ends,
and what it held is served. -/
def askMemory (u : Nat) : Eff := .look fun s => .all [
  put (R.BU_MODE_status (buC u) (buP u)) (if s.unitRetired u then ST_UNIT_RETIRED else ST_OK),
  putBit (R.BU_MODE_req (buC u) (buP u)) false,
  putBit (R.BU_MODE_pending (buC u) (buP u)) (s.buMode u),
  Eff.when (!s.buMode u) (serveAll u)]

/-- R207: abort_drain while a change to MEMORY mode drains. -/
def abortDrain (u : Nat) : Eff := .look fun s =>
  Eff.when (s.bit (R.BU_MODE_pending (buC u) (buP u)) && !s.bit (R.BU_MODE_req (buC u) (buP u))) (buAbortAll u)

/-- A write of BU_MODE. -/
def actBuMode (who : Agent) (u v : Nat) : Act := guardAct who (buC u * 16 + 9) (buP u * 0x1000 + 0x10) fun s =>
  (ST_OK, .seq (if (v % 2 == 1) == s.bit (R.BU_MODE_req (buC u) (buP u)) then .skip
    else if v % 2 = 1 then askProcessor u else askMemory u) (Eff.when (v / 4 % 2 == 1) (abortDrain u)))

def execBuModeProcessor (who : Agent) (u : Fin 1024) (s : State) : Host.Outcome State Fault Refusal :=
  (runAct who (actBuMode who u 1)).done s

def execBuModeMemory (who : Agent) (u : Fin 1024) (s : State) : Host.Outcome State Fault Refusal :=
  (runAct who (actBuMode who u 0)).done s

/-- BU_ABORT_DRAIN: a write of abort_drain that keeps req. -/
def execBuAbortDrain (who : Agent) (u : Fin 1024) (s : State) : Host.Outcome State Fault Refusal :=
  (runAct who (fun s => actBuMode who u (4 + s.get (R.BU_MODE_req (buC u) (buP u))) s)).done s

/-- PROCESSOR_MODE_READY (R206): the banks pass to the unit. -/
def processorReady (u : Nat) : Eff := .look fun s =>
  Eff.when (s.bit (R.BU_MODE_pending (buC u) (buP u)) && s.bit (R.BU_MODE_req (buC u) (buP u))) (.all [
    putBit (R.BU_STATUS_mode (buC u) (buP u)) true, putBit (R.BU_MODE_pending (buC u) (buP u)) false,
    .upd (.yieldAt u s.now)])

def execProcessorModeReady (u : Fin 1024) (s : State) : Host.Outcome State Fault Refusal := (processorReady u).done s

/-- The pseudo-channel is in MEMORY mode and the unit IDLE. -/
def memoryModeNow (u : Nat) : Eff := .all [
  memoryWindow u,
  serveAll u,
  putBit (R.BU_STATUS_mode (buC u) (buP u)) false,
  putBit (R.BU_MODE_req (buC u) (buP u)) false,
  putBit (R.BU_MODE_pending (buC u) (buP u)) false,
  putBu u BU_IDLE,
  .upd (.buSlot u 0)]

/-- MEMORY_MODE_DRAINED (R207): no command is left; a final window, and the controller has the banks. -/
def memoryDrained (u : Nat) : Eff := .look fun s =>
  Eff.when (s.bit (R.BU_MODE_pending (buC u) (buP u)) && !s.bit (R.BU_MODE_req (buC u) (buP u)) && (s.buQAt u).isEmpty)
    (memoryModeNow u)

def execMemoryModeDrained (u : Fin 1024) (s : State) : Host.Outcome State Fault Refusal := (memoryDrained u).done s

/-! BU_CTRL and the store (R214, R231, R232) -/

/-- clear_fault. -/
def clearFault (u : Nat) : Eff := .look fun s => Eff.when (s.bu u == BU_FAULTED) (putBu u BU_IDLE)

/-- A write of BU_CTRL. -/
def actBuCtrl (who : Agent) (u v : Nat) : Act := guardAct who (buC u * 16 + 9) (buP u * 0x1000) fun _ =>
  (ST_OK, .all [
    put (R.BU_CTRL_snoop_mask (buC u) (buP u)) (v / 4),
    Eff.when (v % 2 == 1) (clearFault u),
    Eff.when (v / 2 % 2 == 1) (buAbortAll u)])

/-- A write of one action bit of BU_CTRL that keeps the mask. -/
def actBuCtrlBit (who : Agent) (u bit : Nat) : Act := fun s =>
  actBuCtrl who u (2 ^ bit + 4 * s.get (R.BU_CTRL_snoop_mask (buC u) (buP u))) s

def execBuClearFault (who : Agent) (u : Fin 1024) (s : State) : Host.Outcome State Fault Refusal :=
  (runAct who (actBuCtrlBit who u 0)).done s

def execBuAbort (who : Agent) (u : Fin 1024) (s : State) : Host.Outcome State Fault Refusal :=
  (runAct who (actBuCtrlBit who u 1)).done s

/-- BU_PROG_WRITE (R214). -/
def actBuProg (who : Agent) (u i v half : Nat) : Act := guardAct who (buC u * 16 + 10) (buP u * 0x1000 + i * 8) fun s =>
  (ST_OK, if s.bu u = BU_IDLE ∨ s.bu u = BU_FAULTED then
      putReg (R.BU_PROG (buC u) (buP u) i)
        (BitVec.ofNat 64 (mergeHalf (s.reg (R.BU_PROG (buC u) (buP u) i)).toNat v half))
    else buLast u ST_BUSY)

def execBuProgWrite (who : Agent) (u : Fin 1024) (i : Fin 512) (v : Word) (half : Fin 3) (s : State) :
    Host.Outcome State Fault Refusal := (runAct who (actBuProg who u i v.toNat half)).done s

end Sys2Proof.Machine
end

