-- ==== Sys2Proof/Machine/Crypto.lean ====
section
/-! DEFINITION. The standard algorithms that the spec names for digests, postmarks and signatures (13_host_interface.md R368,
12_chart.md R335, 16_bringup_firmware.md): SHA-512, HMAC-SHA-512 and RSASSA-PKCS1-v1_5 verification with RSA-4096. -/

namespace Sys2Proof.Machine

/-- The integer k-th root of `n`, found bit by bit below 2^bits on top of `r`. -/
def rootBits (k n : Nat) : Nat → Nat → Nat
  | 0, r => r
  | bits + 1, r => rootBits k n bits (if (r + 2 ^ bits) ^ k ≤ n then r + 2 ^ bits else r)

/-- The first 64 bits of the fractional part of the k-th root of a prime, from which SHA-512 takes its constants. -/
def rootWord (k p : Nat) : Word := BitVec.ofNat 64 (rootBits k (p * 2 ^ (64 * k)) 72 0)

/-- The primes below 410: the first 80. -/
def shaPrimes : List Nat := (List.range 410).filter fun n => 2 ≤ n && (List.range 21).all fun d => d < 2 || n % d != 0 || n == d

/-- The initial hash value of SHA-512: the square roots of the first 8 primes. -/
def shaInit : List Word := (shaPrimes.take 8).map (rootWord 2)

/-- The round constants of SHA-512: the cube roots of the first 80 primes. -/
def shaConsts : List Word := shaPrimes.map (rootWord 3)

/-- A word turned right by each of some distances, with the results combined. -/
def turns (x : Word) (by_ : List Nat) : Word := by_.foldl (fun y n => y ^^^ x.rotateRight n) 0

/-- One step of the message schedule: the last 16 words, latest first, give the next. -/
def shaNext (w : List Word) : Word :=
  let old := w.getD 14 0
  let new := w.getD 1 0
  w.getD 15 0 + (turns old [1, 8] ^^^ (old >>> 7)) + w.getD 6 0 + (turns new [19, 61] ^^^ (new >>> 6))

/-- The schedule of a block: its 16 words followed by 64 more. -/
def shaSchedule : Nat → List Word → List Word
  | 0, w => w.reverse
  | n + 1, w => shaSchedule n (shaNext w :: w)

/-- One round. -/
def shaRound (h : List Word) (k w : Word) : List Word :=
  match h with
  | [a, b, c, d, e, f, g, i] =>
    let pick := (e &&& f) ||| (~~~e &&& g)
    let most := (a &&& (b ||| c)) ||| (b &&& c)
    let x := k + w + i + pick + turns e [41, 18, 14]
    [x + most + turns a [39, 34, 28], a, b, c, x + d, e, f, g]
  | _ => h

/-- The rounds of a block. -/
def shaRounds : List Word → List Word → List Word → List Word
  | k :: ks, w :: ws, h => shaRounds ks ws (shaRound h k w)
  | _, _, h => h

/-- The hash after one more block of 128 bytes. -/
def shaBlock (h : List Word) (block : List Byte) : List Word :=
  let w := (List.range 16).map fun i => BitVec.ofNat 64 (beNat ((block.drop (8 * i)).take 8))
  let h' := shaRounds shaConsts (shaSchedule 64 w.reverse) h
  (h.zip h').map fun p => p.1 + p.2

/-- The hash after `n` blocks. -/
def shaBlocks : Nat → List Byte → List Word → List Word
  | 0, _, h => h
  | n + 1, m, h => shaBlocks n (m.drop 128) (shaBlock h (m.take 128))

/-- SHA-512 of a message: 64 bytes. -/
def sha512 (m : List Byte) : List Byte :=
  let pad := (111 + 128 - m.length % 128) % 128
  let p := m ++ [0x80] ++ List.replicate pad 0 ++ toBE 16 (8 * m.length)
  (shaBlocks (p.length / 128) p shaInit).flatMap fun w => toBE 8 w.toNat

/-- HMAC-SHA-512. -/
def hmac512 (key m : List Byte) : List Byte :=
  let k := if 128 < key.length then sha512 key else key
  let k := k ++ List.replicate (128 - k.length) 0
  sha512 (k.map (fun b => b ^^^ 0x5C) ++ sha512 (k.map (fun b => b ^^^ 0x36) ++ m))

/-- b^e mod n over the low `fuel` bits of e. -/
def powMod : Nat → Nat → Nat → Nat → Nat
  | 0, _, _, n => 1 % n
  | fuel + 1, b, e, n =>
    let r := powMod fuel (b * b % n) (e / 2) n
    if e % 2 = 1 then r * b % n else r

/-- The encoded message of RSASSA-PKCS1-v1_5 with SHA-512 for a 4,096-bit modulus. -/
def pkcsEncode (m : List Byte) : List Byte :=
  [0x00, 0x01] ++ List.replicate 426 0xFF ++ [0x00] ++
    [0x30, 0x51, 0x30, 0x0d, 0x06, 0x09, 0x60, 0x86, 0x48, 0x01, 0x65, 0x03, 0x04, 0x02, 0x03, 0x05, 0x00, 0x04, 0x40] ++ sha512 m

/-- Whether a 512-byte signature over a message verifies with the public key (modulus, exponent). -/
def rsaVerify (key : Nat × Nat) (m sig : List Byte) : Bool :=
  sig.length == 512 && decide (beNat sig < key.1) && powMod 64 (beNat sig) key.2 key.1 == beNat (pkcsEncode m)

end Sys2Proof.Machine
end

