-- ==== Sys2Proof/Machine/Ports.lean ====
section
/-! DEFINITION. The host ports (13_host_interface.md R347–R375): queue pairs, descriptor fetch with its checks and postmarks,
completions, link events and the control token. -/

namespace Sys2Proof.Machine

/-! Queue pairs (R353, R354, R356) -/

/-- Entries of the submission and the completion ring. -/
def State.sqSize (s : State) (p q : Nat) : Nat := 2 ^ s.get (R.QUE_QP_CFG_sq_log2 p q)
def State.cqSize (s : State) (p q : Nat) : Nat := 2 ^ s.get (R.QUE_QP_CFG_cq_log2 p q)

/-- States of a pair: 0 = DISABLED, 1 = RUN, 2 = ERROR. -/
def State.qpState (s : State) (p q : Nat) : Nat := s.get (R.QUE_QP_STATUS_state p q)

/-- A pair enters ERROR. -/
def qpError (p q st : Nat) : Eff := .all [put (R.QUE_QP_STATUS_state p q) 2, put (R.QUE_QP_STATUS_err_status p q) st]

/-- A pair that is to stop becomes DISABLED once no command of it is left. -/
def qpRest (p q : Nat) : Eff := .look fun s =>
  Eff.when (!s.bit (R.QUE_QP_CFG_enable p q) && !(s.cmds.any fun x => x.port == p && x.qp == q)) (put (R.QUE_QP_STATUS_state p q) 0)

/-- R353: a write of QUE_QP_CFG.enable. -/
def qpEnable (p q : Nat) (b : Bool) : Eff := .look fun s =>
  let was := s.bit (R.QUE_QP_CFG_enable p q)
  .all [
    putBit (R.QUE_QP_CFG_enable p q) b,
    if b then Eff.when (!was) (.all [
      put (R.QUE_QP_STATUS_state p q) 1, put (R.QUE_QP_STATUS_err_status p q) 0, put (R.QUE_QP_STATUS_sq_head p q) 0,
      put (R.QUE_QP_STATUS_cq_tail p q) 0, put (R.QUE_QP_STATUS_phase p q) 1, .upd (.cqAgg (p * 64 + q) (0, 0))])
    else qpRest p q]

def actQpEnable (who : Agent) (p q : Nat) (b : Bool) : Act := guardAct who (0x1012 + p) (q * 0x40 + 0x10) fun _ => (ST_OK, qpEnable p q b)

/-- QUEUE_PAIR_ENABLE. -/
def execQueuePairEnable (who : Agent) (p : Fin 2) (q : Fin 64) (enable : Bool) (s : State) : Host.Outcome State Fault Refusal :=
  (runAct who (actQpEnable who p q enable)).done s

/-- R354: the doorbell of a submission ring. -/
def actSqTail (who : Agent) (p q i : Nat) : Act := guardAct who (0x1012 + p) (q * 0x40 + 0x20) fun s =>
  (ST_OK, .seq (put (R.QUE_QP_SQ_TAIL_index p q) i)
    (Eff.when (s.qpState p q == 1 && decide (s.sqSize p q ≤ i)) (qpError p q ST_BAD_ARG)))

/-- SQ_TAIL_DOORBELL. -/
def execSqTailDoorbell (who : Agent) (p : Fin 2) (q : Fin 64) (index : BitVec 12) (s : State) : Host.Outcome State Fault Refusal :=
  (runAct who (actSqTail who p q index.toNat)).done s

/-- R356: the head of a completion ring; a head outside the ring is ignored. -/
def actCqHead (who : Agent) (p q i : Nat) : Act := guardAct who (0x1012 + p) (q * 0x40 + 0x28) fun s =>
  (ST_OK, Eff.when (decide (i < s.cqSize p q)) (put (R.QUE_QP_CQ_HEAD_index p q) i))

/-- CQ_HEAD_WRITE. -/
def execCqHeadWrite (who : Agent) (p : Fin 2) (q : Fin 64) (index : BitVec 12) (s : State) : Host.Outcome State Fault Refusal :=
  (runAct who (actCqHead who p q index.toNat)).done s

/-! Descriptors (R359–R361) -/

/-- Fields of a descriptor. -/
def HCmd.op (x : HCmd) : Nat := byteAt x.desc 0
def HCmd.fence (x : HCmd) : Bool := byteAt x.desc 1 % 2 == 1
def HCmd.pm (x : HCmd) : Bool := byteAt x.desc 1 / 2 % 2 == 1
def HCmd.irq (x : HCmd) : Bool := byteAt x.desc 1 / 4 % 2 == 1
def HCmd.tag (x : HCmd) : Nat := leAt x.desc 2 2
/-- Bytes `i` to `i + n - 1` of a descriptor as a number. -/
def HCmd.arg (x : HCmd) (i n : Nat) : Nat := leAt x.desc i n

/-- R361: the argument bytes that an opcode uses: ranges (first, last, mask). -/
def opArgs (op : Nat) : Option (List (Nat × Nat × Nat)) :=
  match op with
  | 0x00 | 0x22 | 0x68 | 0x69 | 0x6A | 0x72 => some []
  | 0x01 | 0x63 => some [(16, 23, 0xFF)]
  | 0x10 | 0x20 | 0x60 => some [(8, 19, 0xFF)]
  | 0x11 => some [(8, 31, 0xFF)]
  | 0x21 | 0x6B | 0x70 => some [(8, 11, 0xFF)]
  | 0x23 => some [(8, 8, 0x01)]
  | 0x30 => some [(8, 11, 0xFF), (12, 12, 0x01), (14, 39, 0xFF)]
  | 0x31 => some [(8, 19, 0xFF), (24, 47, 0xFF)]
  | 0x32 => some [(8, 9, 0xFF)]
  | 0x40 | 0x41 => some [(8, 32, 0xFF)]
  | 0x42 => some [(8, 8, 0xFF), (16, 47, 0xFF)]
  | 0x43 => some [(8, 11, 0xFF), (16, 39, 0xFF)]
  | 0x44 => some [(8, 23, 0xFF), (24, 24, 0x01), (25, 25, 0xFF), (32, 39, 0xFF)]
  | 0x50 => some [(8, 9, 0xFF), (16, 23, 0xFF)]
  | 0x51 => some [(8, 23, 0xFF)]
  | 0x52 => some [(8, 8, 0xFF), (10, 11, 0xFF)]
  | 0x61 | 0x71 => some [(8, 8, 0xFF)]
  | 0x62 => some [(8, 15, 0xFF)]
  | _ => none

/-- The bits of byte `i` that an argument list uses. -/
def usedBits (args : List (Nat × Nat × Nat)) (i : Nat) : Nat :=
  match args.find? fun r => decide (r.1 ≤ i ∧ i ≤ r.2.1) with
  | some r => r.2.2
  | none => 0

/-- R359: the spare bits of a descriptor are 0. -/
def spareZero (desc : List Byte) (args : List (Nat × Nat × Nat)) : Bool :=
  byteAt desc 1 < 8 && leAt desc 4 4 == 0 &&
    (List.range 56).all fun i => Nat.land (byteAt desc (8 + i)) (255 - usedBits args (8 + i)) == 0

/-- R361: control commands. -/
def opCtl (op : Nat) : Bool := [0x20, 0x21, 0x22, 0x23, 0x52, 0x60, 0x61, 0x68, 0x6B, 0x70, 0x71, 0x72].contains op

/-- R361: opcodes that require a postmark. -/
def opPm (op : Nat) : Bool :=
  [0x21, 0x22, 0x23, 0x43, 0x52, 0x60, 0x61, 0x68, 0x69, 0x6A, 0x6B, 0x70, 0x71, 0x72].contains op

/-- R361: whether an opcode is allowed in a lifecycle state. -/
def opState (op st : Nat) : Bool :=
  if [0x20, 0x21, 0x22, 0x23, 0x30, 0x31, 0x32, 0x42, 0x43, 0x52, 0x70, 0x71].contains op then decide (1 ≤ st ∧ st ≤ 3)
  else if [0x40, 0x41, 0x44, 0x60].contains op then decide (st ≤ 3)
  else true

/-- R360 step 4: opcodes that a latched thermal shutdown does not refuse. -/
def opAlways (op : Nat) : Bool := [0x01, 0x11, 0x50, 0x51].contains op

/-- R369: the status of a postmark that the port verifies. -/
def State.pmStatus (s : State) (p : Nat) (desc ext : List Byte) : Nat :=
  let key := s.pmKeyAt p
  if key.isEmpty ∨ byteAt ext 8 ≠ p ∨ (hmac512 key (desc ++ ext.take 32)).take 32 ≠ (ext.drop 32).take 32 then ST_POSTMARK_BAD
  else if leAt ext 0 8 ≤ s.get (R.HIF_PM_LAST_counter p) then ST_POSTMARK_REPLAY
  else ST_OK

/-- R370: whether a KEY_SET needs a postmark: the port has a key. -/
def State.needsPm (s : State) (p op : Nat) : Bool := opPm op || (op == 0x62 && !(s.pmKeyAt p).isEmpty)

/-- R360 steps 1–5: the status at fetch, and whether the postmark is consumed. -/
def State.fetchStatus (s : State) (p : Nat) (desc ext : List Byte) : Nat × Bool :=
  let op := byteAt desc 0
  let pm := byteAt desc 1 / 2 % 2 == 1
  match opArgs op with
  | none => (ST_OPCODE_BAD, false)
  | some args =>
    if !spareZero desc args ∨ (op = 0x20 ∧ pm) then (ST_BAD_ARG, false)
    else if pm && (leAt ext 9 8 != 0 || leAt ext 17 15 != 0) then (ST_BAD_ARG, false)
    else if !pm && s.needsPm p op then (ST_POSTMARK_BAD, false)
    else
      let st := if pm then s.pmStatus p desc ext else ST_OK
      if st ≠ ST_OK then (st, false)
      else if s.bit R.THM_SHUTDOWN_latched && !opAlways op then (ST_SHUTDOWN, pm)
      else if !opState op (s.get R.LCY_STATE_state) then (ST_LIFECYCLE, pm)
      else (ST_OK, pm)

/-- Commands outstanding at a port. -/
def State.outstanding (s : State) (p : Nat) : Nat := (s.cmds.filter fun x => x.port == p).length

/-- Show the number of outstanding commands. -/
def cmdShow (p : Nat) : Eff := .look fun s => put (R.HIF_CMDS_outstanding p) (s.outstanding p)

/-- Change a command. -/
def hcSet (id : Nat) (f : HCmd → HCmd) : Eff := .look fun s => .upd (.cmds (s.cmds.map fun x => if x.id == id then f x else x))

/-- A command has finished; its completion is posted by a step of its own. -/
def hcFinish (id st res : Nat) : Eff := hcSet id fun x => { x with phase := 2, status := st, result := res }

/-- A postmark failure (R369). -/
def pmFailure (p st : Nat) : Eff := .all [
  put (R.HIF_PM_STATE_last_status p) st, addSat (R.HIF_PM_STATE_failures p) 1, evFire (0x708 + p)]

/-- The host address of slot `i` of the submission ring. -/
def State.sqAddr (s : State) (p q i : Nat) : Nat := s.get (R.QUE_QP_SQ_BASE_base p q) * 4096 + i % s.sqSize p q * 64

/-- The descriptor at the head of a pair's ring. -/
def State.sqHeadDesc (s : State) (p q : Nat) : List Byte :=
  s.hostBytes (hostKey p (s.sqAddr p q (s.get (R.QUE_QP_STATUS_sq_head p q)))) 64

/-- R355, R369: whether a pair has a descriptor that the port may fetch. -/
def State.fetchable (s : State) (p q : Nat) : Bool :=
  let head := s.get (R.QUE_QP_STATUS_sq_head p q)
  let tail := s.get (R.QUE_QP_SQ_TAIL_index p q)
  let pm := byteAt (s.sqHeadDesc p q) 1 / 2 % 2 == 1
  s.qpState p q == 1 && s.bit (R.QUE_QP_CFG_enable p q) && head != tail &&
    !(pm && ((head + 1) % s.sqSize p q == tail || s.bit (R.HIF_PM_STATE_pm_hold p)))

/-- R355: the pair whose turn it is, with its count after this fetch. -/
def State.fetchPair (s : State) (p : Nat) : Option (Nat × Nat) :=
  let q := s.fetchAtAt p / 16 % 64
  let n := s.fetchAtAt p % 16
  if n < 8 && s.fetchable p q then some (q, n + 1)
  else (((List.range 64).map fun i => (q + 1 + i) % 64).find? fun r => s.fetchable p r).map fun r => (r, 1)

/-- DESCRIPTOR_FETCH (R355, R359, R360, R369, R371). `answer`: how the host answers the read: 0 with data, 1 not at all, 2 with
Unsupported Request or Completer Abort. -/
def descriptorFetch (p answer : Nat) : Eff := .look fun s =>
  match s.fetchPair p with
  | none => .skip
  | some (q, n) =>
    if !s.linkUp p ∨ 1024 ≤ s.outstanding p then .skip
    else if answer ≠ 0 then qpError p q (if answer = 1 then ST_TIMEOUT else ST_ADDR_UNMAPPED)
    else
      let head := s.get (R.QUE_QP_STATUS_sq_head p q)
      let desc := s.sqHeadDesc p q
      let pm := byteAt desc 1 / 2 % 2 == 1
      let ext := if pm then s.hostBytes (hostKey p (s.sqAddr p q (head + 1))) 64 else []
      let r := s.fetchStatus p desc ext
      let ctr := leAt ext 0 8
      .all [
        .upd (.fetchAt p (q * 16 + n)),
        put (R.QUE_QP_STATUS_sq_head p q) ((head + if pm then 2 else 1) % s.sqSize p q),
        Eff.when (r.1 == ST_POSTMARK_BAD || r.1 == ST_POSTMARK_REPLAY) (pmFailure p r.1),
        Eff.when r.2 (put (R.HIF_PM_LAST_counter p) ctr),
        .upd (.cmds (s.cmds ++ [⟨s.tagNext, p, q, desc, r.2, if r.2 && decide (s.pmMarkAt p < ctr) then some ctr else none,
          if r.1 = ST_OK then 0 else 2, r.1, 0, false, [], 0, [], s.now⟩])),
        .upd (.tagNext (s.tagNext + 1)),
        cmdShow p]

def execDescriptorFetch (p : Fin 2) (answer : Fin 3) (s : State) : Host.Outcome State Fault Refusal := (descriptorFetch p answer).done s

/-- RESERVE_MARK_WRITTEN (R371): the new mark lies 2^20 above the oldest counter that waits for it; every command at or below it
proceeds. -/
def reserveMarkWritten (p : Nat) : Eff := .look fun s =>
  match s.cmds.find? fun x => x.port == p && x.mark.isSome with
  | none => .skip
  | some x =>
    let m := min (x.mark.getD 0 + 2 ^ 20) (2 ^ 64 - 1)
    .all [
      .upd (.pmMark p m),
      .upd (.cmds (s.cmds.map fun y => if y.port == p && decide (y.mark.getD 0 ≤ m) then { y with mark := none } else y))]

def execReserveMarkWritten (p : Fin 2) (s : State) : Host.Outcome State Fault Refusal := (reserveMarkWritten p).done s

/-! Starting commands (R355, R360 steps 6 and 7, R419) -/

/-- Control core 0 runs the firmware. -/
def State.fwRuns (s : State) : Bool := s.get (R.FW_CORE_state 0) == 1

/-- R419: the status under which a command is refused before the module is READY. -/
def State.gateStatus (s : State) (op : Nat) : Nat :=
  let stage := s.get R.FW_STAGE_stage
  if s.ready then ST_OK
  else if stage < 4 then
    (if [0x00, 0x01, 0x10, 0x51, 0x72].contains op || (op == 0x11 && s.fwRuns) then ST_OK else ST_BUSY)
  else if [0x20, 0x21, 0x22, 0x23, 0x30, 0x31, 0x32, 0x40, 0x41, 0x42, 0x43, 0x44, 0x52, 0x70, 0x71].contains op then
    (if s.bit R.FW_STAGE_failed then ST_STAGE_FAIL else ST_BUSY)
  else ST_OK

/-- Port `p` holds the control token. -/
def State.holdsToken (s : State) (p : Nat) : Bool := s.bit (R.HIF_TOKEN_held 0) && s.get (R.HIF_TOKEN_holder 0) == p

/-- R480: the commands that STANDBY, its entry and its exit refuse. -/
def State.standbyRefuses (s : State) (x : HCmd) : Bool :=
  (s.standby || s.bit R.PWR_STATE_pending) &&
    ([0x20, 0x21, 0x23, 0x30, 0x31, 0x40, 0x41, 0x42, 0x43, 0x44].contains x.op || (x.op == 0x52 && decide (x.arg 8 1 < 2)))

/-- The status at the start of a command before its own checks. -/
def State.startStatus (s : State) (x : HCmd) : Nat :=
  if s.gateStatus x.op ≠ ST_OK then s.gateStatus x.op
  else if opCtl x.op && !s.holdsToken x.port then ST_NOT_CONTROLLER
  else if s.standbyRefuses x then ST_DIE_STANDBY
  else ST_OK

/-- R355: a fenced descriptor waits for every earlier command of its pair. -/
def State.fenced (s : State) (n : Nat) (x : HCmd) : Bool := x.fence && (s.cmds.take n).any fun y => y.port == x.port && y.qp == x.qp

/-- The n-th command, when it may start as opcode `op`. -/
def State.cmdStartable (s : State) (n op : Nat) : Option HCmd :=
  match s.cmds[n]? with
  | some x => if x.op = op && x.phase == 0 && x.mark.isNone && !s.fenced n x then some x else none
  | none => none

/-- Start the n-th command as opcode `op`: a refused one finishes with its status, else `k` runs. -/
def hostStart (n op : Nat) (k : HCmd → Eff) : Eff := .look fun s =>
  match s.cmdStartable n op with
  | none => .skip
  | some x => if s.startStatus x ≠ ST_OK then hcFinish x.id (s.startStatus x) 0 else k x

/-- Start a command that reads or writes host memory: it waits while the port's link is down (R358). -/
def hostStartIO (n op : Nat) (k : HCmd → Eff) : Eff := .look fun s =>
  match s.cmdStartable n op with
  | none => .skip
  | some x => Eff.when (s.linkUp x.port) (hostStart n op k)

/-- R364: read host memory. `answer`: 0 = the host answers with data, 1 = not at all, 2 = with Unsupported Request or Completer
Abort. -/
def hostGet (p a n answer : Nat) (bad : Nat → Eff) (k : List Byte → Eff) : Eff :=
  if answer = 1 then bad ST_TIMEOUT
  else if answer = 2 then bad ST_ADDR_UNMAPPED
  else .look fun s => k (s.hostBytes (hostKey p a) n)

/-- CMD_NOP. -/
def execCmdNop (n : Fin 2048) (s : State) : Host.Outcome State Fault Refusal :=
  (hostStart n 0x00 fun x => hcFinish x.id ST_OK 0).done s

/-! Completions (R356, R357, R362, R363) -/

/-- Signal the completions of a pair. -/
def cqSignal (p q : Nat) : Eff := .look fun s => .seq (.upd (.cqAgg (p * 64 + q) (0, 0))) (msixSend p (s.get (R.QUE_QP_CFG_vector p q)))

/-- R357: one more completion. -/
def cqCount (p q : Nat) (irq : Bool) : Eff := .look fun s =>
  let n := (s.cqAggAt (p * 64 + q)).1 + 1
  let agg := s.get (R.QUE_QP_CFG_agg_count p q)
  if irq ∨ agg ≤ n then cqSignal p q
  else .upd (.cqAgg (p * 64 + q) (n, if n = 1 then s.now else (s.cqAggAt (p * 64 + q)).2))

/-- R362: a completion entry. -/
def State.cqEntry (s : State) (x : HCmd) (st : Nat) (interim : Bool) (res : Nat) : List Byte :=
  toLE 2 x.tag ++ toLE 1 st ++
    toLE 1 (s.get (R.QUE_QP_STATUS_phase x.port x.qp) + (if interim then 2 else 0) + (if x.coll then 4 else 0) +
      (if x.consumed then 8 else 0)) ++
    toLE 2 (s.get (R.QUE_QP_STATUS_sq_head x.port x.qp)) ++ toLE 1 x.qp ++ toLE 1 x.op ++ toLE 8 res

/-- Write an entry at cq_tail. -/
def cqWrite (x : HCmd) (st : Nat) (interim : Bool) (res : Nat) : Eff := .look fun s =>
  let p := x.port
  let q := x.qp
  let tail := s.get (R.QUE_QP_STATUS_cq_tail p q)
  .all [
    pokeHost p (s.get (R.QUE_QP_CQ_BASE_base p q) * 4096 + tail * 16) (s.cqEntry x st interim res),
    put (R.QUE_QP_STATUS_cq_tail p q) ((tail + 1) % s.cqSize p q),
    Eff.when (tail + 1 == s.cqSize p q) (put (R.QUE_QP_STATUS_phase p q) (1 - s.get (R.QUE_QP_STATUS_phase p q))),
    cqCount p q x.irq]

/-- R356: the completion ring of a pair is full. -/
def State.cqFull (s : State) (p q : Nat) : Bool :=
  (s.get (R.QUE_QP_STATUS_cq_tail p q) + 1) % s.cqSize p q == s.get (R.QUE_QP_CQ_HEAD_index p q) % s.cqSize p q

/-- The command is gone. -/
def hcRemove (x : HCmd) : Eff := .all [
  .look fun s => .upd (.cmds (s.cmds.filter fun y => y.id != x.id)), cmdShow x.port, qpRest x.port x.qp]

/-- The result of a final completion: R361 states none for a command that failed, but for those whose result is always 0 or
that report what they did (R361, R364, R367). -/
def hcResult (x : HCmd) (k : Nat → Eff) : Eff :=
  if x.status ≠ ST_OK ∧ ([0x20, 0x21, 0x23, 0x30, 0x32, 0x50, 0x51].contains x.op ∨
      (x.op = 0x31 ∧ !([ST_POISON, ST_SEQ_TRAP, ST_TIDE_OVERRUN, ST_THROTTLED].contains x.status))) then
    withFree fun v => k v.toNat
  else k x.result

/-- COMPLETION_POST: an interim completion that the n-th command owes, or its final one. -/
def completionPost (n : Nat) : Eff := .look fun s =>
  match s.cmds[n]? with
  | none => .skip
  | some x =>
    if !s.linkUp x.port ∨ s.cqFull x.port x.qp then .skip
    else match x.interims with
    | st :: rest => withFree fun v => .seq (cqWrite x st true v.toNat) (hcSet x.id fun y => { y with interims := rest })
    | [] => Eff.when (x.phase == 2 && x.mark.isNone) (hcResult x fun res => .all [
        cqWrite x x.status false res,
        monCommand x.port x.op ((s.now : Int) - x.since),
        addWrap (R.HIF_CMDS_completed x.port) 1,
        hcRemove x])

def execCompletionPost (n : Fin 2048) (s : State) : Host.Outcome State Fault Refusal := (completionPost n).done s

/-- COMPLETION_AGG_TIMER (R357): agg_us after the first unsignalled completion. -/
def completionAggTimer (p q : Nat) : Eff := .look fun s =>
  let a := s.cqAggAt (p * 64 + q)
  Eff.when (a.1 != 0) (.seq (reachTime (a.2 + s.get (R.QUE_QP_CFG_agg_us p q) * 1000)) (cqSignal p q))

def execCompletionAggTimer (p : Fin 2) (q : Fin 64) (s : State) : Host.Outcome State Fault Refusal := (completionAggTimer p q).done s

/-! Link events (R358, R502) -/

/-- R358: the commands of a port end with ST_ABORTED, their completions are discarded and its pairs become DISABLED. -/
def portAbort (p : Nat) : Eff := .look fun s =>
  let gone := s.cmds.filter fun x => x.port == p
  .all [
    .upd (.cmds (s.cmds.filter fun x => x.port != p)),
    cmdShow p,
    putBit (R.HIF_PM_STATE_pm_hold p) false,
    Eff.each (List.range 64) fun q => .all [
      putBit (R.QUE_QP_CFG_enable p q) false, put (R.QUE_QP_STATUS_state p q) 0, .upd (.cqAgg (p * 64 + q) (0, 0))],
    Eff.each s.seqs fun e => match e.2 with
      | some r =>
        let mine := fun (id : Nat) => gone.any fun x => x.id == id
        Eff.when (r.sub.any (fun y => mine y.1) || r.retire.any mine) (.upd (.seqs e.1 (some { r with
          sub := if r.joined.isEmpty && r.sub.any (fun y => mine y.1) then none else r.sub
          retire := r.retire.filter fun id => !mine id })))
      | none => .skip]

/-- The data link layer of a port leaves DL_Active. -/
def linkGone (p : Nat) : Eff := .look fun s => Eff.when (s.linkUp p) (.all [
  put (R.HIF_LINK_speed p) 0, put (R.HIF_LINK_width p) 0, put (R.HIF_LINK_flit p) 0, addSat (R.HIF_LINK_downs p) 1,
  .upd (.linkDown p (s.now + 1))])

/-- PCIE_LINK_DOWN. -/
def execPcieLinkDown (p : Fin 2) (s : State) : Host.Outcome State Fault Refusal := (linkGone p).done s

/-- A port's link reaches DL_Active at a speed code and width; held MSI-X messages go out (R443). -/
def linkBack (p speed width : Nat) (flit : Bool) : Eff := .all [
  put (R.HIF_LINK_speed p) speed, put (R.HIF_LINK_width p) width, putBit (R.HIF_LINK_flit p) flit,
  .upd (.linkDown p 0), Eff.each (List.range 128) fun v => msixRelease p v]

/-- PCIE_LINK_UP (R348, R358). -/
def pcieLinkUp (p speed width : Nat) (flit : Bool) : Eff := .look fun s =>
  Eff.when (!s.linkUp p && !s.perstAt p && decide (1 ≤ speed) && [1, 2, 4, 8].contains width) (linkBack p speed width flit)

def execPcieLinkUp (p : Fin 2) (speed : Fin 7) (width : Fin 9) (flit : Bool) (s : State) : Host.Outcome State Fault Refusal :=
  (pcieLinkUp p speed width flit).done s

/-- LINK_LOSS_TIMEOUT (R358): the link has been down for 100 ms. -/
def linkLossTimeout (p : Nat) : Eff := .look fun s =>
  Eff.when (s.linkDownAt p != 0) (.seq (reachTime (s.linkDownAt p - 1 + 100000000)) (portAbort p))

def execLinkLossTimeout (p : Fin 2) (s : State) : Host.Outcome State Fault Refusal := (linkLossTimeout p).done s

/-- FUNCTION_LEVEL_RESET (R358). -/
def execFunctionLevelReset (p : Fin 2) (s : State) : Host.Outcome State Fault Refusal := (portAbort p).done s

/-- PERST_ASSERT (R502): the port is reset as by a function level reset, and its link goes down. -/
def execPerstAssert (p : Fin 2) (s : State) : Host.Outcome State Fault Refusal :=
  (Eff.all [.upd (.perst p true), portAbort p, linkGone p]).done s

/-- PERST_RELEASE (R502): link training may start. -/
def execPerstRelease (p : Fin 2) (s : State) : Host.Outcome State Fault Refusal := (Eff.upd (.perst p false)).done s

/-! The control token (R372–R375) -/

/-- Put a value in a field of both ports' HIF_TOKEN. -/
def tokenPut (f : Nat → Fld) (v : Nat) : Eff := .seq (put (f 0) v) (put (f 1) v)

/-- Port `p` becomes the holder. -/
def tokenPass (p : Nat) : Eff := .all [
  tokenPut R.HIF_TOKEN_holder p, tokenPut R.HIF_TOKEN_held 1,
  addWrap (R.HIF_TOKEN_passes 0) 1, addWrap (R.HIF_TOKEN_passes 1) 1, evFire 0x70A]

/-- The open offer ends and its TOKEN_GIVE completes. -/
def offerEnd (st : Nat) : Eff := .look fun s => .all [
  (match s.offer with | some o => hcFinish o.1 st 0 | none => .skip), .upd (.offer none), tokenPut R.HIF_TOKEN_offer 0]

/-- TOKEN_GIVE. -/
def tokenGive (n : Nat) : Eff := hostStart n 0x68 fun x => .look fun s =>
  if s.offer.isSome then hcFinish x.id ST_BUSY 0
  else .all [hcSet x.id fun y => { y with phase := 1 }, .upd (.offer (some (x.id, s.now))), tokenPut R.HIF_TOKEN_offer 1]

def execTokenGive (n : Fin 2048) (s : State) : Host.Outcome State Fault Refusal := (tokenGive n).done s

/-- TOKEN_ACCEPT. -/
def tokenAccept (n : Nat) : Eff := hostStart n 0x69 fun x => .look fun s =>
  if s.offer.isNone || s.holdsToken x.port then hcFinish x.id ST_BAD_ARG 0
  else .all [offerEnd ST_OK, tokenPass x.port, hcFinish x.id ST_OK 0]

def execTokenAccept (n : Fin 2048) (s : State) : Host.Outcome State Fault Refusal := (tokenAccept n).done s

/-- TOKEN_OFFER_EXPIRY (R373): 1,000 ms after the offer. -/
def tokenOfferExpiry : Eff := .look fun s =>
  match s.offer with
  | none => .skip
  | some o => .seq (reachTime (o.2 + 1000000000)) (offerEnd ST_TIMEOUT)

def execTokenOfferExpiry (s : State) : Host.Outcome State Fault Refusal := tokenOfferExpiry.done s

/-- R374: the holder's link has been down for the takeover timeout. -/
def State.mayTakeOver (s : State) : Bool :=
  let h := s.get (R.HIF_TOKEN_holder 0)
  s.bit (R.HIF_TOKEN_held 0) && s.linkDownAt h != 0 &&
    decide (s.linkDownAt h - 1 + s.get (R.HIF_TOKEN_takeover_ms 0) * 1000000 ≤ s.now)

/-- TOKEN_TAKEOVER. -/
def tokenTakeover (n : Nat) : Eff := hostStart n 0x6A fun x => .look fun s =>
  if s.holdsToken x.port then hcFinish x.id ST_BAD_ARG 0
  else if !s.mayTakeOver then hcFinish x.id ST_BUSY 0
  else .all [offerEnd ST_OK, tokenPass x.port, hcFinish x.id ST_OK 0]

def execTokenTakeover (n : Fin 2048) (s : State) : Host.Outcome State Fault Refusal := (tokenTakeover n).done s

/-- TOKEN_TIMEOUT: 100–60,000 ms. -/
def tokenTimeout (n : Nat) : Eff := hostStart n 0x6B fun x =>
  let v := x.arg 8 4
  if v < 100 ∨ 60000 < v then hcFinish x.id ST_BAD_ARG 0
  else .seq (tokenPut R.HIF_TOKEN_takeover_ms v) (hcFinish x.id ST_OK 0)

def execTokenTimeout (n : Fin 2048) (s : State) : Host.Outcome State Fault Refusal := (tokenTimeout n).done s

end Sys2Proof.Machine
end

