-- ==== Sys2Proof/Machine/Firmware.lean ====
section
/-! DEFINITION. The dispatch log, the firmware load, the letterbox, franks, the lifecycle, keys and tamper
(16_bringup_firmware.md R420–R436, 13_host_interface.md R361, R370). -/

namespace Sys2Proof.Machine

/-! The dispatch log (R420, R421) -/

/-- Copy the records that the service flash does not hold yet, once the firmware runs (R421). -/
def dispatchMirror : Eff := .look fun s =>
  let next := s.get R.SVC_DISPATCH_HEAD_next
  Eff.when s.fwRuns (.all [
    .upd (.dispatchFlash
      (let all := s.dispatchFlash ++ (List.range (next - s.flashAt)).map fun i => s.dispatchRecord (s.flashAt + i)
       all.drop (all.length - 8192))),
    .upd (.flashAt next)])

/-- R420: the bytes of a record. -/
def State.dispatchBytes (s : State) (stage kind result detail unit value a b : Nat) : List Byte :=
  toLE 4 (s.get R.SVC_DISPATCH_HEAD_next) ++ toLE 1 stage ++ toLE 1 kind ++ toLE 1 result ++ toLE 1 0 ++ toLE 2 detail ++
    toLE 2 unit ++ toLE 4 value ++ toLE 4 a ++ toLE 4 b ++ toLE 4 s.boot ++ toLE 4 0

/-- Write a record. -/
def dispatchWrite (stage kind result detail unit value a b : Nat) : Eff := .look fun s => .all [
  .upd (.dispatchLog (s.get R.SVC_DISPATCH_HEAD_next % 1024) (s.dispatchBytes stage kind result detail unit value a b)),
  addWrap R.SVC_DISPATCH_HEAD_next 1,
  dispatchMirror]

/-- R422: a unit record; one with a status other than ST_OK and ST_LINK_NARROW sets the replacement request. -/
def unitRecord (stage result detail unit value a b : Nat) : Eff := .seq
  (dispatchWrite stage 1 result detail unit value a b)
  (Eff.when (result != ST_OK && result != ST_LINK_NARROW) (setReplace 11 result unit))

/-- The stage under way, or the one that bring-up stopped in. -/
def State.stageNow (s : State) : Nat := if s.power = .on then s.get R.FW_STAGE_stage else 0

/-- R418, R420: the closing record of the current stage with a value of its own (R422). -/
def closingValue (result detail unit value a b : Nat) : Eff := .look fun s => .all [
  dispatchWrite s.stageNow 0 result detail unit value a b,
  put R.FW_STAGE_status result, put R.FW_STAGE_detail detail]

/-- The closing record of the current stage; its value is the elapsed time in µs. -/
def closingRecord (result detail unit a b : Nat) : Eff := .look fun s =>
  closingValue result detail unit ((s.now - s.stageAt) / 1000) a b

/-- Bring-up stops in the current stage. -/
def stageStop : Eff := .look fun s => if s.power = .on then putBit R.FW_STAGE_failed true else .upd (.power .s0Failed)

/-- R418: the current stage fails, and bring-up stops in it. -/
def stageFail (result detail unit a b : Nat) : Eff := .seq (closingRecord result detail unit a b) stageStop

/-- R417: the current stage closes with ST_OK and the next one starts. -/
def stagePass (detail a b : Nat) : Eff := .look fun s => .all [
  closingRecord ST_OK detail 0xFFFF a b, put R.FW_STAGE_stage (s.get R.FW_STAGE_stage + 1), .upd (.stageAt s.now)]

/-- Bring-up is in stage `k`. -/
def State.atStage (s : State) (k : Nat) : Bool :=
  s.power == .on && s.get R.FW_STAGE_stage == k && !s.bit R.FW_STAGE_failed && !s.ready

/-! Firmware load (R423, R424) -/

/-- R424: the status of an image under checks 1 to 3. -/
def imageStatus (img : List Byte) (len : Nat) : Nat :=
  if leAt img 4 4 ≠ len ∨ len < 1152 ∨ 12582912 < len ∨ len % 64 ≠ 0 then ST_BAD_ARG
  else if leAt img 0 4 ≠ 0x5746565A ∨ leAt img 28 4 ≠ 0 ∨ leAt img 64 64 ≠ 0 then ST_BAD_ARG
  else if !rsaVerify Config.firmwareKey (img.take (len - 512)) (img.drop (len - 512)) then ST_FW_SIGNATURE
  else ST_OK

/-- R424: the registers that an accepted image fills. -/
def imageAccepted (img : List Byte) (len : Nat) : Eff := .all [
  put R.FW_VERSION_version (leAt img 8 8),
  put R.FW_IFACE_iface_major (leAt img 16 2), put R.FW_IFACE_iface_minor (leAt img 18 2),
  put R.FW_IFACE_drv_min (leAt img 20 2), put R.FW_IFACE_drv_max (leAt img 22 2),
  Eff.each (List.range 4) fun i => put (R.FW_FEAT_bits i) (leAt img (32 + 8 * i) 8),
  Eff.each (List.range 8) fun i => put (R.FW_DIGEST_digest i) (leAt (sha512 (img.take (len - 512))) (8 * i) 8)]

/-- R370, R434: the firmware loads the port keys from the service flash into secure SRAM, but not after a tamper wipe. -/
def keysReload : Eff := .look fun s => Eff.when (s.fwRuns && !s.tampered) (.all [
  .upd (.pmKey 0 (s.pmFlashAt 0)), .upd (.pmKey 1 (s.pmFlashAt 1)), putBit R.LCY_STATE_keys_loaded true])

/-- The firmware starts: it loads the port keys, mirrors the records of S0–S2, and generates the enrolment key pair at the first
S3 of a module in MANUFACTURE (R432). -/
def firmwareStart : Eff := .look fun s => .all [
  put (R.FW_CORE_state 0) 1,
  .upd (.fwAt s.now), .upd (.hello none),
  keysReload,
  Eff.when (s.get R.LCY_STATE_state == 0) (.upd (.enrolled true)),
  dispatchMirror]

/-- FW_LOAD ends with a status. -/
def fwLoadEnd (x : HCmd) (st : Nat) : Eff := .all [
  put R.FW_LOAD_STATUS_status st, put R.FW_LOAD_STATUS_port x.port, put R.FW_LOAD_STATUS_length (x.arg 16 4), hcFinish x.id st 0]

/-- FW_LOAD. -/
def fwLoad (n answer : Nat) : Eff := hostStartIO n 0x10 fun x => .look fun s =>
  let len := x.arg 16 4
  let reject (st : Nat) : Eff := .seq (unitRecord 3 st 0x0301 x.port len 0 0) (fwLoadEnd x st)
  if !s.atStage 3 || s.fwRuns then fwLoadEnd x ST_BUSY
  else if 12582912 < len then reject ST_BAD_ARG
  else hostGet x.port (x.arg 8 8) len answer (fwLoadEnd x) fun img => .seq (snoop 5 0 0 (at_ 0 img))
    (if imageStatus img len ≠ ST_OK then reject (imageStatus img len)
     else .all [imageAccepted img len, tokenPass x.port, firmwareStart, fwLoadEnd x ST_OK])

def execFwLoad (n : Fin 2048) (answer : Fin 3) (s : State) : Host.Outcome State Fault Refusal := (fwLoad n answer).done s

/-- HEARTBEAT_TIMEOUT (R425): no increment for 100 ms of a firmware that had started. -/
def execHeartbeatTimeout (s : State) : Host.Outcome State Fault Refusal :=
  (Eff.when (s.get (R.FW_CORE_state 0) != 0) (evFire 0x706)).done s

/-! The letterbox (R426–R428) -/

/-- A feature bit of the agreed set of port `p` (R428). -/
def State.agrees (s : State) (p b : Nat) : Bool := s.regBit (R.FW_AGREED p (b / 64)) (b % 64)

/-- A feature bit of the token holder's agreed set. -/
def State.holderAgrees (s : State) (b : Nat) : Bool := s.bit (R.HIF_TOKEN_held 0) && s.agrees (s.get (R.HIF_TOKEN_holder 0)) b

/-- Answer a message: the reply is written when it fits, and the command completes (R426). -/
def letterReply (x : HCmd) (ty st : Nat) (body : List Byte) : Eff :=
  let n := 16 + body.length
  let reply := toLE 2 (ty + 0x8000) ++ toLE 1 st ++ toLE 1 0 ++ toLE 4 n ++ toLE 8 0 ++ body
  if x.arg 12 4 < n then hcFinish x.id ST_BAD_ARG n
  else .seq (pokeHost x.port (x.arg 24 8) reply) (hcFinish x.id st n)

/-- The message types of R426, R462 and R471. -/
def letterTypes : List Nat := [0x0001, 0x0002, 0x0003, 0x0010, 0x0011]

/-- R426: a message whose header does not agree with the command. -/
def letterBad (len : Nat) (m : List Byte) : Bool :=
  decide (len < 16) || decide (65536 < len) || leAt m 4 4 != len

/-- R426: a port's messages are served in fetch order. -/
def State.letterTurn (s : State) (n : Nat) : Bool := match s.cmds[n]? with
  | some x => !((s.cmds.take n).any fun y => y.port == x.port && y.op == 0x11 && y.phase == 0)
  | none => false

/-- A letterbox message of type `ty`; a malformed one and one of an undefined type are answered whatever `ty` is. -/
def letterbox (n answer ty : Nat) (k : HCmd → List Byte → Eff) : Eff := .look fun s =>
  Eff.when (s.letterTurn n) (hostStartIO n 0x11 fun x =>
    let len := x.arg 8 4
    hostGet x.port (x.arg 16 8) (min len 65536) answer (fun st => withFree fun v => hcFinish x.id st v.toNat) fun m =>
      if letterBad len m then withFree fun v => hcFinish x.id ST_BAD_ARG v.toNat
      else if !letterTypes.contains (leAt m 0 2) then letterReply x (leAt m 0 2) ST_OPCODE_BAD []
      else Eff.when (leAt m 0 2 == ty) (k x m))

/-- The 256-bit bitmaps as bytes. -/
def State.featBytes (s : State) (k : Nat → Nat) : List Byte := (List.range 4).flatMap fun i => toLE 8 (s.reg (k i)).toNat

/-- The body of a HELLO reply. -/
def State.helloBody (s : State) (p : Nat) : List Byte :=
  toLE 2 (s.get R.FW_IFACE_iface_major) ++ toLE 2 (s.get R.FW_IFACE_iface_minor) ++ toLE 2 (s.get R.FW_IFACE_drv_min) ++
    toLE 2 (s.get R.FW_IFACE_drv_max) ++ s.featBytes (R.FW_AGREED p)

/-- HELLO (R427). -/
def hello (n answer : Nat) : Eff := letterbox n answer 0x0001 fun x m => .look fun s =>
  let major := leAt m 16 2
  let ok := decide (s.get R.FW_IFACE_drv_min ≤ major) && decide (major ≤ s.get R.FW_IFACE_drv_max)
  if m.length < 56 then letterReply x 1 ST_BAD_ARG []
  else .all [
    Eff.when ok (.seq
      (Eff.each (List.range 4) fun i => put (R.FW_AGREED_bits x.port i) (Nat.land (leAt m (24 + 8 * i) 8) (s.get (R.FW_FEAT_bits i))))
      (.upd (.agreed x.port 1))),
    Eff.when (s.atStage 3 && s.holdsToken x.port && s.hello.isNone) (.look fun t =>
      .upd (.hello (some (if ok && t.agrees x.port 0 then ST_OK else ST_FW_INTERFACE, major * 2 ^ 16 + leAt m 18 2)))),
    .look fun t => letterReply x 1 (if ok then ST_OK else ST_FW_INTERFACE) (t.helloBody x.port)]

def execHello (n : Fin 2048) (answer : Fin 3) (s : State) : Host.Outcome State Fault Refusal := (hello n answer).done s

/-- JOB_SETUP (R427, R428, R409). -/
def jobSetup (n answer : Nat) : Eff := letterbox n answer 0x0002 fun x m => .look fun s =>
  let peers := leAt m 20 2
  if !s.holdsToken x.port then letterReply x 2 ST_NOT_CONTROLLER []
  else if !s.agrees x.port 4 then letterReply x 2 ST_OPCODE_BAD []
  else if 128 < peers ∨ m.length < 22 + 4 * peers then letterReply x 2 ST_BAD_ARG []
  else .all [
    put R.GWL_NODE_fabric (leAt m 16 3),
    Eff.each (List.range peers) fun k => .all [
      put (R.GWL_PEER_fabric k) (leAt m (22 + 4 * k) 3),
      put (R.GWL_PEER_valid k) (byteAt m (25 + 4 * k) % 2),
      put (R.GWL_PEER_reachable k) 1],
    letterReply x 2 ST_OK []]

def execJobSetup (n : Fin 2048) (answer : Fin 3) (s : State) : Host.Outcome State Fault Refusal := (jobSetup n answer).done s

/-- FW_DIGEST as bytes. -/
def State.digestBytes (s : State) : List Byte := (List.range 8).flatMap fun i => toLE 8 (s.reg (R.FW_DIGEST i)).toNat

/-- FW_INFO. -/
def fwInfo (n answer : Nat) : Eff := letterbox n answer 0x0003 fun x _ => .look fun s =>
  letterReply x 3 ST_OK (toLE 8 (s.get R.FW_VERSION_version) ++ s.digestBytes ++ s.featBytes R.FW_FEAT)

def execFwInfo (n : Fin 2048) (answer : Fin 3) (s : State) : Host.Outcome State Fault Refusal := (fwInfo n answer).done s

/-! Franks (R429–R431) -/

/-- R429: the values that a frank of a kind may carry. -/
def frankValueOk (kind v : Nat) : Bool :=
  match kind with
  | 1 => v == 16 || v == 32 || v == 48
  | 2 => v == 36 || v == 72
  | 3 => v == 1
  | 4 => decide (250 ≤ v ∧ v ≤ 999)
  | _ => v == 0

/-- R430 steps 2 to 5: the status of a frank. -/
def frankStatus (f : List Byte) : Nat :=
  let kind := byteAt f 6
  if leAt f 0 4 ≠ 0x4B46565A ∨ leAt f 4 2 ≠ 1 ∨ kind = 0 ∨ 5 < kind ∨ byteAt f 7 ≠ 0 ∨ leAt f 36 28 ≠ 0 then ST_FRANK_BAD
  else if !rsaVerify Config.frankKey (f.take 640) (f.drop 640) then ST_FRANK_BAD
  else if leAt f 8 16 ≠ Config.serial % 2 ^ 128 then ST_FRANK_BAD
  else if !frankValueOk kind (leAt f 32 4) then ST_BAD_ARG
  else ST_OK

/-- The value of the stored frank of a kind, or what R431 gives a module without one. -/
def State.frankValue (s : State) (kind none_ : Nat) : Nat :=
  let f := s.franksAt kind
  if f.isEmpty then none_ else leAt f 32 4

/-- R430: the kinds that take effect at once, as LIC_FEATURES and LIC_PENDING show them. -/
def frankNow (bu key tide : Fld) : Eff := .look fun s => .all [
  putBit bu (!(s.franksAt 3).isEmpty), putBit key (!(s.franksAt 5).isEmpty), put tide (s.frankValue 4 1000)]

/-- R430: the kinds that take effect at S1. -/
def frankAtS1 (links ext : Fld) : Eff := .look fun s => .seq (put links (s.frankValue 1 16)) (put ext (s.frankValue 2 36))

/-- Show the stored franks. -/
def frankShow : Eff := .look fun s => .all [
  frankNow R.LIC_FEATURES_bu_proc R.LIC_FEATURES_chart_key R.LIC_FEATURES_min_tide_us,
  frankNow R.LIC_PENDING_bu_proc R.LIC_PENDING_chart_key R.LIC_PENDING_min_tide_us,
  frankAtS1 R.LIC_PENDING_links R.LIC_PENDING_ext_gib,
  Eff.each (List.range 5) fun i => .all [
    put (R.LIC_SLOT_value (i + 1)) (s.frankValue (i + 1) 0),
    put (R.LIC_SLOT_frank_id (i + 1)) (leAt (s.franksAt (i + 1)) 24 4)],
  Eff.each (List.range 8) fun i => put (R.LIC_KEY_DIGEST_digest i)
    (if (s.franksAt 5).isEmpty then 0 else leAt (sha512 ((s.franksAt 5).drop 64 |>.take 576)) (8 * i) 8)]

/-- R430 steps 6 and 7. -/
def State.frankNew (s : State) (f : List Byte) : Nat :=
  let old := s.franksAt (byteAt f 6)
  if !old.isEmpty && decide (leAt f 24 8 ≤ leAt old 24 8) then ST_FRANK_BAD
  else if byteAt f 6 = 5 ∧ 1 < s.get R.LCY_STATE_state then ST_LIFECYCLE
  else ST_OK

/-- FRANK_INSTALL ends. -/
def frankEnd (x : HCmd) (st : Nat) : Eff := .seq (put R.LIC_STATUS_last_status st) (hcFinish x.id st 0)

/-- FRANK_INSTALL (R430, R436). -/
def frankInstall (n answer : Nat) (flashBad : Bool) : Eff := hostStartIO n 0x60 fun x =>
  if x.arg 16 4 ≠ 1152 then frankEnd x ST_BAD_ARG
  else hostGet x.port (x.arg 8 8) 1152 answer (frankEnd x) fun f => .look fun s =>
    let st := if frankStatus f ≠ ST_OK then frankStatus f else if s.frankNew f ≠ ST_OK then s.frankNew f
      else if flashBad then ST_UNCORRECTABLE else ST_OK
    .all [
      put R.LIC_STATUS_last_kind (byteAt f 6),
      Eff.when (st == ST_OK) (.seq (.upd (.franks (byteAt f 6) f)) frankShow),
      frankEnd x st]

def execFrankInstall (n : Fin 2048) (answer : Fin 3) (flashBad : Bool) (s : State) : Host.Outcome State Fault Refusal :=
  (frankInstall n answer flashBad).done s

/-! Lifecycle (R432–R434) -/

/-- The secure SRAM is wiped. -/
def secureWipe : Eff := .all [
  .upd (.pmKey 0 []), .upd (.pmKey 1 []), addSat R.LCY_STATE_wipes 1, putBit R.LCY_STATE_keys_loaded false]

/-- R200: a diagnostic lock is held. -/
def State.diagHeld (s : State) : Bool :=
  s.bit ⟨rk 0x1060 0x300, 0, 1⟩ || (List.range 128).any fun c => s.bit ⟨rk (c * 16 + 8) 0x300, 0, 1⟩

/-- R433: the status of a requested transition. -/
def State.lifecycleStatus (s : State) (target : Nat) : Nat :=
  let cur := s.get R.LCY_STATE_state
  if target = cur then ST_BAD_ARG
  else if cur = 0 ∧ target = 1 then ST_OK
  else if cur = 1 ∧ target = 2 then
    (if (s.pmKeyAt 0).isEmpty || (s.pmKeyAt 1).isEmpty || (s.franksAt 5).isEmpty then ST_LIFECYCLE else ST_OK)
  else if cur = 2 ∧ target = 3 then (if s.get R.TIDE_STATUS_state = 0 ∨ s.get R.TIDE_STATUS_state = 2 then ST_OK else ST_BUSY)
  else if cur = 3 ∧ target = 2 then (if s.diagHeld then ST_BUSY else ST_OK)
  else if (1 ≤ cur ∧ cur ≤ 3) ∧ target = 4 then ST_OK
  else if target = 5 then ST_OK
  else ST_LIFECYCLE

/-- A transition takes place. -/
def lifecycleMove (target : Nat) : Eff := .all [
  put R.LCY_STATE_state target,
  .upd (.fuseLcy (if target = 3 then 2 else target)),
  putBit R.LCY_TAMPER_armed (target != 0),
  secureWipe,
  Eff.when (target == 4) (.seq (Eff.each (List.range 5) fun i => .upd (.franks (i + 1) [])) frankShow),
  Eff.when (target == 5) (.seq (Eff.each [0, 1] fun p => .seq (.upd (.pmFlash p [])) (.upd (.pmMark p 0))) (.upd (.enrolled false))),
  keysReload]

/-- LIFECYCLE_SET. -/
def lifecycleSet (n : Nat) : Eff := hostStart n 0x61 fun x => .look fun s =>
  let st := s.lifecycleStatus (x.arg 8 1)
  .all [Eff.when (st == ST_OK) (lifecycleMove (x.arg 8 1)), put R.LCY_STATE_last_status st, hcFinish x.id st 0]

def execLifecycleSet (n : Fin 2048) (s : State) : Host.Outcome State Fault Refusal := (lifecycleSet n).done s

/-! Keys (R370) -/

/-- R370: whether a port accepts a key. -/
def State.keyAccept (s : State) (x : HCmd) : Nat :=
  if (s.pmKeyAt x.port).isEmpty then (if s.get R.LCY_STATE_state ≤ 1 then ST_OK else ST_LIFECYCLE)
  else if x.consumed then ST_OK else ST_POSTMARK_BAD

/-- A port's new key; after a tamper wipe the ports hold no key until the next power-on reset. -/
def keyInstall (p : Nat) (key : List Byte) : Eff := .look fun s => .all [
  .upd (.pmFlash p key),
  Eff.when (!s.tampered) (.seq (.upd (.pmKey p key)) (putBit R.LCY_STATE_keys_loaded true)),
  put (R.HIF_PM_LAST_counter p) 0]

/-- KEY_SET. -/
def keySet (n answer : Nat) : Eff := hostStartIO n 0x62 fun x => .look fun s =>
  if s.keyAccept x ≠ ST_OK then hcFinish x.id (s.keyAccept x) 0
  else hostGet x.port (x.arg 8 8) 512 answer (fun st => hcFinish x.id st 0) fun w =>
    match if s.enrolled then Config.unwrapKey w else none with
    | some key => if key.length = 64 then .seq (keyInstall x.port key) (hcFinish x.id ST_OK 0) else hcFinish x.id ST_BAD_ARG 0
    | none => hcFinish x.id ST_BAD_ARG 0

def execKeySet (n : Fin 2048) (answer : Fin 3) (s : State) : Host.Outcome State Fault Refusal := (keySet n answer).done s

/-- KEY_QUERY. -/
def keyQuery (n : Nat) : Eff := hostStartIO n 0x63 fun x => .seq
  (pokeHost x.port (x.arg 16 8) (toLE 512 Config.enrolKey.1 ++ toLE 4 Config.enrolKey.2 ++ List.replicate 508 0))
  (hcFinish x.id ST_OK 0)

def execKeyQuery (n : Fin 2048) (s : State) : Host.Outcome State Fault Refusal := (keyQuery n).done s

/-! Identity and log (R361, R421) -/

/-- The IDENTIFY page of port `p`. -/
def State.identifyPage (s : State) (p : Nat) : List Byte :=
  toLE 16 (Config.serial % 2 ^ 128) ++
    [0x5A, 0x56, 0x39, 0x34, 0x38, 0x2D, 0x4C] ++ List.replicate 9 0 ++
    [2, 3] ++ toLE 1 (s.get R.LCY_STATE_state) ++ toLE 1 (s.get R.FW_STAGE_stage) ++
    toLE 1 (if s.bit (R.HIF_TOKEN_held 0) then s.get (R.HIF_TOKEN_holder 0) else 0xFF) ++ toLE 1 p ++
    toLE 1 (s.get (R.HIF_LINK_speed p)) ++ toLE 1 (s.get (R.HIF_LINK_width p)) ++
    toLE 8 (s.reg R.LIC_FEATURES).toNat ++ s.digestBytes ++ toLE 8 (s.get R.FW_VERSION_version) ++ s.featBytes R.FW_FEAT ++
    toLE 8 (s.get R.TIDE_EDGE_NUM_edge) ++ toLE 8 (s.get R.SVC_REPLACE_flags) ++ List.replicate 3928 0

/-- IDENTIFY. -/
def identify (n : Nat) : Eff := hostStartIO n 0x01 fun x => .look fun s =>
  .seq (pokeHost x.port (x.arg 16 8) (s.identifyPage x.port)) (hcFinish x.id ST_OK 0)

def execIdentify (n : Fin 2048) (s : State) : Host.Outcome State Fault Refusal := (identify n).done s

/-- DISPATCH_READ: the records from the first index named, as far as they have been written. -/
def dispatchRead (n : Nat) : Eff := hostStartIO n 0x51 fun x => .look fun s =>
  let first := x.arg 8 4
  let count := min (x.arg 12 4) (s.get R.SVC_DISPATCH_HEAD_next - first)
  .seq (pokeHost x.port (x.arg 16 8) ((List.range count).flatMap fun i => s.dispatchRecord (first + i)))
    (hcFinish x.id ST_OK count)

def execDispatchRead (n : Fin 2048) (s : State) : Host.Outcome State Fault Refusal := (dispatchRead n).done s

/-! Tamper (R435) -/

/-- A detection: the secure SRAM is wiped, and the ports hold no key until the next power-on reset. -/
def tamper (source : Fld) : Eff := .all [secureWipe, .upd (.tampered true), putBit source true, evFire 0x70B]

/-- TAMPER_DETECT: 0 = voltage glitch, 1 = clock glitch, 2 = the enclosure loop has been open for 50 µs; the enclosure input is
not armed in MANUFACTURE. -/
def tamperDetect (source : Nat) : Eff := .look fun s =>
  match source with
  | 0 => tamper R.LCY_TAMPER_voltage
  | 1 => tamper R.LCY_TAMPER_clock
  | _ => .seq (putBit R.LCY_TAMPER_input_level true) (Eff.when (s.get R.LCY_STATE_state != 0) (tamper R.LCY_TAMPER_enclosure))

def execTamperDetect (source : Fin 3) (s : State) : Host.Outcome State Fault Refusal := (tamperDetect source).done s

/-- TAMPER_REWIPE: 1 ms on, the enclosure input is sampled; while it stays asserted the wipe is repeated. -/
def tamperRewipe (asserted : Bool) : Eff := .look fun s =>
  if !s.bit R.LCY_TAMPER_input_level then .skip
  else if !asserted then putBit R.LCY_TAMPER_input_level false
  else Eff.when (s.get R.LCY_STATE_state != 0) secureWipe

def execTamperRewipe (asserted : Bool) (s : State) : Host.Outcome State Fault Refusal := (tamperRewipe asserted).done s

end Sys2Proof.Machine
end

