-- ==== Sys2Proof/Machine/Chart.lean ====
section
/-! DEFINITION. The chart (12_chart.md R316–R346): image layout, validation, loading and staging, arming, and what its application
at a tide edge sets. -/

namespace Sys2Proof.Machine

/-! Image layout (R316–R319) -/

/-- A section of an image: type, record size, record count and the offset of its first record. -/
structure ChartSec where
  ty    : Nat
  size  : Nat
  count : Nat
  off   : Nat

/-- A record: its section's type, its index, its offset in the image and its bytes. -/
structure ChartRec where
  ty  : Nat
  idx : Nat
  off : Nat
  b   : List Byte

/-- Byte `i` of a record, or `n` bytes as a number. -/
def ChartRec.u8 (r : ChartRec) (i : Nat) : Nat := byteAt r.b i
def ChartRec.u (r : ChartRec) (i n : Nat) : Nat := leAt r.b i n

/-- R319: record size and the least and most records of a section type. -/
def secShape (ty : Nat) : Option (Nat × Nat × Nat) :=
  match ty with
  | 0x1 => some (32, 1, 128) | 0x2 => some (16, 1, 2048) | 0x3 => some (16, 0, 4096) | 0x4 => some (64, 0, 128)
  | 0x5 => some (32, 0, 1024) | 0x6 => some (128, 0, 1) | 0x7 => some (8, 0, 16384) | 0x8 => some (32, 0, 4096)
  | 0x9 => some (8, 0, 128) | 0xA => some (32, 1, 1) | 0xB => some (8, 0, 128) | 0xC => some (64, 0, 1)
  | 0xD => some (32, 0, 32) | 0xE => some (16, 0, 64)
  | _ => none

/-- The sections from an offset on, and the offset after them; `none` for a header that is not a section's (R318). -/
def chartSecs (img : List Byte) : Nat → Nat → Nat → Option (List ChartSec × Nat)
  | 0, _, off => some ([], off)
  | n + 1, last, off =>
    let ty := leAt img off 2
    let size := leAt img (off + 2) 2
    let count := leAt img (off + 4) 4
    match secShape ty with
    | none => none
    | some (sz, lo, hi) =>
      if ty ≤ last ∨ size ≠ sz ∨ leAt img (off + 8) 4 ≠ 16 + count * size ∨ count < lo ∨ hi < count then none
      else (chartSecs img n ty (off + 16 + count * size)).map fun r => (⟨ty, size, count, off + 16⟩ :: r.1, r.2)

/-- Header fields (R317). -/
def chartLen (img : List Byte) : Nat := leAt img 8 4
def chartId (img : List Byte) : Nat := leAt img 32 8
def chartTable (img : List Byte) : Nat := leAt img 40 8

/-- The sections of an image. -/
def chartSections (img : List Byte) : List ChartSec := ((chartSecs img (leAt img 12 2) 0 64).map fun r => r.1).getD []

/-- The records of a section. -/
def ChartSec.recs (img : List Byte) (x : ChartSec) : List ChartRec := (List.range x.count).map fun i =>
  ⟨x.ty, i, x.off + i * x.size, (img.drop (x.off + i * x.size)).take x.size⟩

/-- The records of a type; an absent section has none (R319). -/
def chartRecs (img : List Byte) (ty : Nat) : List ChartRec :=
  match (chartSections img).find? fun x => x.ty == ty with
  | some x => x.recs img
  | none => []

/-! The records as the rest of the model reads them -/

/-- The record of district `d` (R321). -/
def chartDistrict (img : List Byte) (d : Nat) : Option ChartRec := (chartRecs img 1).find? fun r => r.u8 0 == d

/-- The cells of a district record, as bits. -/
def ChartRec.cells (r : ChartRec) : Nat := r.u 16 16

/-- The fill parameters F, W and batch limit of a district (R329). -/
def chartFill (img : List Byte) (d : Nat) : Nat × Nat × Nat :=
  match (chartRecs img 9).find? fun r => r.u8 0 == d with
  | some r => (r.u8 1, r.u8 2, r.u 4 2)
  | none => (8, 1, 4096)

/-- The district of a cell. -/
def chartDistrictOf (img : List Byte) (c : Nat) : Option Nat :=
  ((chartRecs img 1).find? fun r => r.cells.testBit c).map fun r => r.u8 0

/-- The thread record of a thread (R322). -/
def chartThread (img : List Byte) (c t : Nat) : Option ChartRec := (chartRecs img 2).find? fun r => r.u8 0 == c && r.u8 1 == t

/-- The tide record (R330). -/
def chartTide (img : List Byte) : ChartRec := (chartRecs img 0xA).getD 0 ⟨0xA, 0, 0, []⟩

/-- R326: PROCESSOR mode is requested for bank unit `u`. -/
def chartMode (img : List Byte) (u : Nat) : Bool :=
  match chartRecs img 6 with
  | r :: _ => r.u8 (u / 8) / 2 ^ (u % 8) % 2 == 1
  | [] => false

/-- The owner entry of bank `b` of cell `c` (R324). -/
def chartOwner (img : List Byte) (c b : Nat) : Nat :=
  match (chartRecs img 4).find? fun r => r.u8 0 == c with
  | some r => r.u (16 + 2 * b) 2
  | none => 0

/-- Active districts (R321): those with an active thread. -/
def chartActive (img : List Byte) (d : Nat) : Bool :=
  match chartDistrict img d with
  | some r => (chartRecs img 2).any fun t => t.u8 2 % 2 == 1 && r.cells.testBit (t.u8 0)
  | none => false

/-- Bytes of the table region (R337). -/
def chartTableBytes (img : List Byte) : Nat := 32 * ((chartRecs img 8).length + (chartRecs img 1).length)

/-! Validation (R338) -/

/-- A failing check: its number, its status and the record (section type, index, offset in the image). -/
structure ChartFail where
  check : Nat
  st    : Nat
  ty    : Nat
  idx   : Nat
  off   : Nat

/-- A failure in the header or trailer. -/
def headFail (check st : Nat) (ok : Bool) : Option ChartFail := if ok then none else some ⟨check, st, 0, 0, 0⟩

/-- The first record that fails a check. -/
def recFail (check st : Nat) (rs : List ChartRec) (ok : ChartRec → Bool) : Option ChartFail :=
  (rs.find? fun r => !ok r).map fun r => ⟨check, st, r.ty, r.idx, r.off⟩

/-- The first record whose key an earlier record has. -/
def dupFail (check st : Nat) (rs : List ChartRec) (key : ChartRec → Nat) : Option ChartFail :=
  recFail check st rs fun r => !(rs.any fun q => decide (q.idx < r.idx) && key q == key r)

/-- The first failure of a list of checks. -/
def firstFail : List (Option ChartFail) → Option ChartFail
  | [] => none
  | some f :: _ => some f
  | none :: rest => firstFail rest

/-- The used bytes of a record: ranges (first, last, mask). -/
def recArgs (r : ChartRec) : List (Nat × Nat × Nat) :=
  match r.ty with
  | 0x1 => [(0, 0, 255), (4, 31, 255)]
  | 0x2 => [(0, 1, 255), (2, 2, 7), (8, 15, 255)]
  | 0x3 => [(0, 6, 255), (8, 11, 255)]
  | 0x4 => [(0, 0, 255), (16, 63, 255)]
  | 0x5 => (match r.u8 0 with
    | 1 => [(0, 3, 255), (4, 4, 3), (5, 6, 255), (16, 31, 255)]
    | 2 => [(0, 1, 255), (2, 2, 1)]
    | 3 => [(0, 1, 255), (8, 13, 255)]
    | _ => [(0, 31, 255)])
  | 0x6 => [(0, 127, 255)]
  | 0x7 => [(0, 3, 255), (4, 4, 1)]
  | 0x8 => [(0, 2, 255), (3, 3, 3), (4, 10, 255), (12, 15, 255)]
  | 0x9 => [(0, 2, 255), (4, 5, 255)]
  | 0xA => [(0, 10, 255), (12, 23, 255)]
  | 0xB => [(0, 0, 255), (4, 5, 255), (6, 6, 3)]
  | 0xC => [(0, 16, 255), (32, 63, 255)]
  | 0xD => [(0, 1, 255), (16, 31, 255)]
  | _ => [(0, 0, 255), (1, 1, 1), (2, 15, 255)]

/-- Check 0x01 of a record: its spare bits are 0. -/
def recSpare (r : ChartRec) : Bool := (List.range r.b.length).all fun i => Nat.land (r.u8 i) (255 - usedBits (recArgs r) i) == 0

/-- Every record of an image. -/
def chartAll (img : List Byte) : List ChartRec := (chartSections img).flatMap fun x => x.recs img

/-- The last byte of the sections. -/
def chartEnd (img : List Byte) : Nat := ((chartSecs img (leAt img 12 2) 0 64).map fun r => r.2).getD (chartLen img - 640)

/-- Check 0x01: magic, length, padding and spare fields. -/
def check01 (img : List Byte) (len : Nat) : Option ChartFail :=
  let n := chartLen img
  let t := n - 640
  firstFail [
    headFail 0x01 ST_CHART_BAD (leAt img 0 4 == 0x4843565A && n == len && decide (768 ≤ n) && decide (n ≤ 1048576) && n % 64 == 0),
    headFail 0x01 ST_CHART_BAD (zeroAt img 14 2 && zeroAt img 48 16 && zeroAt img (t + 585) 23 &&
      ((chartSections img).all fun x => zeroAt img (x.off - 4) 4) &&
      zeroAt img (chartEnd img) (t - chartEnd img)),
    recFail 0x01 ST_CHART_BAD (chartAll img) recSpare]

/-- Check 0x07: the sections tile the body. -/
def check07 (img : List Byte) : Option ChartFail := headFail 0x07 ST_CHART_BAD (
  decide (3 ≤ leAt img 12 2) && decide (leAt img 12 2 ≤ 14) &&
    (match chartSecs img (leAt img 12 2) 0 64 with
     | some (xs, e) => (e + 63) / 64 * 64 == chartLen img - 640 && [1, 2, 0xA].all fun ty => xs.any fun x => x.ty == ty
     | none => false))

/-- Check 0x08: listed encodings and ranges of one record. -/
def recRange (r : ChartRec) : Bool :=
  match r.ty with
  | 0x1 => r.u8 0 < 128 && decide (r.u 6 2 ≤ 4095) && decide (r.u 4 2 ≤ r.u 6 2) && r.u 8 8 % 64 == 0
  | 0x2 => r.u8 0 < 128 && decide (r.u8 1 < 16)
  | 0x3 => r.u8 0 < 128 && decide (r.u8 1 < 32) && decide (r.u8 2 < 128) && decide (r.u8 3 < 32) && decide (r.u 4 2 ≤ 767) &&
      decide (12 ≤ r.u8 6 ∧ r.u8 6 ≤ 20)
  | 0x4 => r.u8 0 < 128 && (List.range 24).all fun b => decide (r.u (16 + 2 * b) 2 < 4096)
  | 0x5 => (match r.u8 0 with
    | 1 => decide (r.u8 1 < 64) && decide (r.u8 6 < 128)
    | 2 | 3 => decide (r.u8 1 < 128)
    | _ => false)
  | 0x7 => r.u8 0 < 128 && decide (r.u8 1 < 128) && decide (6 ≤ r.u8 2 ∧ r.u8 2 ≤ 10) && decide (r.u8 3 < 8)
  | 0x8 => decide (r.u 0 2 ≤ 4095) && decide (r.u8 2 < 128) && decide (r.u 4 4 ≤ 65536) && decide (r.u8 8 ≤ 64) &&
      (r.u8 3 % 2 == 0 || decide (r.u8 10 < 64))
  | 0x9 => r.u8 0 < 128 && decide (1 ≤ r.u8 1 ∧ r.u8 1 ≤ 128) && decide (r.u8 2 ≤ 4) && decide (1 ≤ r.u 4 2 ∧ r.u 4 2 ≤ 4096)
  | 0xA => decide (250 ≤ r.u 0 2 ∧ r.u 0 2 ≤ 64000) && decide (5 ≤ r.u 4 2 ∧ r.u 4 2 ≤ 200) &&
      decide (1 ≤ r.u 6 2 ∧ r.u 6 2 ≤ 64000) && decide (1 ≤ r.u8 8 ∧ r.u8 8 ≤ 50) && decide (r.u8 9 ≤ 1) && decide (r.u8 10 ≤ 2) &&
      decide (1 ≤ r.u 14 2 ∧ r.u 14 2 ≤ 128)
  | 0xB => decide (r.u8 0 < 128)
  | 0xC => r.u8 16 ≤ 3 && (List.range 8).all fun k => decide (r.u (2 * k) 2 ≤ 24576)
  | 0xD => r.u8 0 < 32 && decide (2 ≤ r.u8 1 ∧ r.u8 1 ≤ 16) && (List.range 16).all fun i =>
      if i < r.u8 1 then decide (r.u8 (16 + i) < 128) else r.u8 (16 + i) == 255
  | 0xE => decide (r.u8 0 < 64)
  | _ => true

/-- The banks under the ring of a route record. -/
def ringBanks (r : ChartRec) : List Nat :=
  let lo := r.u 4 2 * 4096
  (List.range 24).filter fun b => decide (lo < (b + 1) * 0x20000) && decide (b * 0x20000 < lo + r.u 8 4)

/-- R169: a class and qualifier that R324 may name; R22: a retired cell is none. -/
def State.ownerOk (s : State) (e : Nat) : Bool :=
  let q := e / 16 % 256
  match e % 16 with
  | 9 => (decide (q < 128) && !s.cellRetired q) || q == 255
  | 10 => decide (q < 2) || q == 255
  | k => decide (k ≤ 10)

/-- The rings of two routes into one destination overlap. -/
def ringsMeet (a b : ChartRec) : Bool :=
  a.u8 2 == b.u8 2 && decide (a.u 4 2 * 4096 < b.u 4 2 * 4096 + b.u 8 4) && decide (b.u 4 2 * 4096 < a.u 4 2 * 4096 + a.u 8 4)

/-- A cell lies in some district of the image. -/
def inDistrict (img : List Byte) (c : Nat) : Bool := (chartDistrictOf img c).isSome

/-- R338 0x17 for a seawall record. -/
def wallOk (img : List Byte) (r : ChartRec) : Bool :=
  let size := (chartTide img).u 14 2
  let group := r.u8 4 % 2 == 1
  let root := r.u8 4 / 2 % 2 == 1
  decide (1 ≤ r.u 2 2 ∧ r.u 2 2 ≤ 4095) && r.u 16 16 != 0 &&
    ((List.range 128).all fun c => !(r.u 16 16).testBit c || inDistrict img c) &&
    (decide (r.u8 5 < 48) || r.u8 5 == 63) && (!group || decide (1 < size)) &&
    (!group || r.u8 6 == (if root then size - 1 else 0))

/-- Two cells have equal bank-owner, KV-layout and mode records (0x20). -/
def cellsAlike (img : List Byte) (a b : Nat) : Bool :=
  ((List.range 24).all fun k => chartOwner img a k == chartOwner img b k) &&
    ((chartRecs img 7).all fun r => !(r.u8 0 == a || r.u8 0 == b) ||
      ((chartRecs img 7).any fun q => q.u8 0 == (if r.u8 0 = a then b else a) && q.b.drop 1 == r.b.drop 1)) &&
    ((List.range 8).all fun p => chartMode img (a * 8 + p) == chartMode img (b * 8 + p))

/-- The member cells of a rotation set. -/
def setCells (r : ChartRec) : List Nat := (List.range (r.u8 1)).map fun i => r.u8 (16 + i)

/-- R271: the SHARED ranges of a cache record, as first and last MiB. -/
def ChartRec.sharedRanges (r : ChartRec) : List (Nat × Nat) :=
  ((List.range 8).map fun k => (r.u (32 + 4 * k) 2, r.u (34 + 4 * k) 2)).filter fun x => x != (0xFFFF, 0xFFFF)

/-- R271: the SHARED ranges lie in vaults none of whose pseudo-channels the image puts in PROCESSOR mode, and do not overlap. -/
def sharedOk (img : List Byte) : List (Nat × Nat) → Bool
  | [] => true
  | x :: rest => decide (x.1 ≤ x.2) && decide (x.2 < 49152) && (rest.all fun y => decide (x.2 < y.1) || decide (y.2 < x.1)) &&
      ((List.range 1024).all fun u => !chartMode img u || !(decide (x.1 / 384 ≤ u / 8) && decide (u / 8 ≤ x.2 / 384))) &&
      sharedOk img rest

/-- R22, R447: the instance of a monitor binding is no retired cell or bank unit. -/
def State.bindOk (s : State) (r : ChartRec) : Bool :=
  match r.u 2 2 with
  | 0x05 | 0x0B => !s.unitRetired (r.u 4 4)
  | 0x06 | 0x07 | 0x0D => !s.cellRetired (r.u 4 4)
  | _ => true

/-- R338 0x08 to 0x22. A rotation (R345) keeps the live chart's table region, which 0x22 does not hold against it. -/
def State.chartRecordFail (s : State) (rot : Bool) (img : List Byte) : Option ChartFail :=
  let bad := ST_CHART_BAD
  let rs := chartRecs img
  let tide := chartTide img
  let extOk := fun (a n : Nat) => isExt a && decide (a + n ≤ 0x2200000000)
  firstFail [
    recFail 0x08 bad (chartAll img) recRange,
    dupFail 0x10 bad (rs 1) fun r => r.u8 0,
    recFail 0x10 bad (rs 1) fun r =>
      !((rs 1).any fun q => decide (q.idx < r.idx) && Nat.land q.cells r.cells != 0) &&
        ((List.range 128).all fun c => !(r.cells.testBit c && s.cellRetired c)) && extOk (r.u 8 8) 1,
    dupFail 0x11 bad (rs 2) fun r => r.u8 0 * 16 + r.u8 1,
    recFail 0x11 bad (rs 2) fun r => inDistrict img (r.u8 0) && r.u 8 8 % 8 == 0 &&
      (match regionOf (r.u 8 8) with | .vault _ | .ext => true | _ => false),
    dupFail 0x12 bad (rs 3) fun r => r.u8 0 * 32 + r.u8 1,
    dupFail 0x12 bad (rs 3) fun r => r.u8 2 * 32 + r.u8 3,
    recFail 0x12 bad (rs 3) fun r => !s.cellRetired (r.u8 0) && !s.cellRetired (r.u8 2),
    recFail 0x13 ST_CHART_BUFFER (rs 3) fun r => decide (4096 ≤ r.u 8 4) && decide (2 ^ r.u8 6 ≤ r.u 8 4),
    recFail 0x14 bad (rs 3) fun r => r.u 8 4 % 2 ^ r.u8 6 == 0 && decide (r.u 8 4 / 2 ^ r.u8 6 ≤ 256) &&
      decide (r.u 4 2 * 4096 + r.u 8 4 ≤ 0x300000) && !((rs 3).any fun q => decide (q.idx < r.idx) && ringsMeet q r),
    recFail 0x15 bad (rs 3) fun r => (ringBanks r).all fun b =>
      let e := chartOwner img (r.u8 2) b
      e % 16 == 9 && (e / 16 % 256 == r.u8 0 || e / 16 % 256 == 255),
    dupFail 0x16 bad (rs 4) fun r => r.u8 0,
    recFail 0x16 bad (rs 4) fun r => !s.cellRetired (r.u8 0) && (List.range 24).all fun b => s.ownerOk (r.u (16 + 2 * b) 2),
    dupFail 0x17 bad ((rs 5).filter fun r => r.u8 0 == 1) fun r => r.u8 1,
    recFail 0x17 bad (rs 5) fun r => (match r.u8 0 with
      | 1 => wallOk img r
      | 3 => !s.cellRetired (r.u8 1)
      | _ => true),
    recFail 0x18 bad (rs 6) fun _ => (List.range 1024).all fun u => !(chartMode img u && s.unitRetired u),
    recFail 0x18 bad (rs 2) fun r => (match regionOf (r.u 8 8) with | .vault _ => !chartMode img (unitOf (r.u 8 8)) | _ => true),
    recFail 0x19 ST_FRANK_MISSING (rs 6) fun _ => s.bit R.LIC_FEATURES_bu_proc || (List.range 1024).all fun u => !chartMode img u,
    dupFail 0x1A bad (rs 7) fun r => r.u8 0 * 128 + r.u8 1,
    recFail 0x1A bad (rs 7) fun r => !s.cellRetired (r.u8 0) && !s.unitRetired (r.u8 0 * 8 + r.u8 3) &&
      ((rs 7).all fun q => !(q.u8 0 == r.u8 0 && q.u8 1 / 2 == r.u8 1 / 2) || (q.u8 2 == r.u8 2 && q.u8 3 == r.u8 3)),
    dupFail 0x1B bad (rs 8) fun r => r.u 0 2,
    recFail 0x1B bad (rs 8) fun r => decide (r.u8 9 ≤ r.u8 8) && (match chartDistrict img (r.u8 2) with
      | some d => decide (d.u 4 2 ≤ r.u 0 2) && decide (r.u 0 2 ≤ d.u 6 2)
      | none => false),
    dupFail 0x1C bad (rs 9) fun r => r.u8 0,
    recFail 0x1C bad (rs 9) fun r => (chartDistrict img (r.u8 0)).isSome,
    dupFail 0x1C bad (rs 0xB) fun r => r.u8 0,
    recFail 0x1C bad (rs 0xB) fun r => (chartDistrict img (r.u8 0)).isSome,
    recFail 0x1D ST_FRANK_MISSING (rs 0xA) fun r => decide (s.get R.LIC_FEATURES_min_tide_us ≤ r.u 0 2),
    recFail 0x1E bad (rs 0xA) fun r => decide (r.u 2 2 ≤ r.u 0 2 / 4) &&
      (if tide.u8 10 = 0 then r.u 12 2 == 0 && r.u 14 2 == 1 else decide (r.u 12 2 < r.u 14 2) && decide (1 < r.u 14 2)),
    recFail 0x1F bad (rs 0xC) fun r =>
      decide ((List.range 8).foldl (fun n k => n + r.u (2 * k) 2) 0 ≤ 24576) && sharedOk img r.sharedRanges,
    dupFail 0x20 bad (rs 0xD) fun r => r.u8 0,
    recFail 0x20 bad (rs 0xD) fun r =>
      !((rs 0xD).any fun q => decide (q.idx < r.idx) && (setCells q).any fun c => (setCells r).contains c) &&
        decide ((setCells r).eraseDups.length = r.u8 1) &&
        (setCells r).all fun c => inDistrict img c && chartDistrictOf img c == chartDistrictOf img (r.u8 16) &&
          cellsAlike img (r.u8 16) c,
    dupFail 0x21 bad (rs 0xE) fun r => r.u8 0,
    recFail 0x21 bad (rs 0xE) fun r => decide (1 ≤ r.u 2 2 ∧ r.u 2 2 ≤ 0x0E) && s.bindOk r,
    headFail 0x22 bad (chartTable img % 64 == 0 && isExt (chartTable img) &&
      decide (chartTable img + chartTableBytes img ≤ s.extEnd) &&
      !(!rot && s.bit R.CHT_STATUS_live && decide (chartTable img < chartTable s.chartLive + chartTableBytes s.chartLive) &&
        decide (chartTable s.chartLive < chartTable img + chartTableBytes img)))]

/-- The chart key, from the stored CHART_KEY frank (R429, R431). -/
def State.chartKey (s : State) : Option (Nat × Nat) :=
  let f := s.franksAt 5
  if f.isEmpty then none else some (leAt f 64 512, leAt f 576 4)

/-- Checks 0x02 to 0x07 of an image loaded by port `p`: the failure, and whether the counter was accepted. -/
def State.chartHeadFail (s : State) (p : Nat) (img : List Byte) : Option ChartFail × Bool :=
  let t := chartLen img - 640
  let body := img.take t
  let key := s.pmKeyAt p
  let early := firstFail [
    headFail 0x02 ST_CHART_VERSION (leAt img 4 2 == 2 && leAt img 6 2 == 0),
    headFail 0x03 ST_POSTMARK_BAD (!key.isEmpty && byteAt img (t + 584) == p &&
      (hmac512 key ((img.drop t).take 608)).take 32 == (img.drop (t + 608)).take 32),
    headFail 0x04 ST_POSTMARK_REPLAY (decide (s.get (R.HIF_PM_LAST_counter p) < leAt img (t + 576) 8))]
  match early with
  | some f => (some f, false)
  | none => (firstFail [
      headFail 0x05 ST_CHART_SIGNATURE ((img.drop t).take 64 == sha512 body && (match s.chartKey with
        | some k => rsaVerify k body ((img.drop (t + 64)).take 512)
        | none => false)),
      headFail 0x06 ST_CHART_BAD (leAt img 16 16 == 0 ||
        leAt img 16 16 == s.get R.LCY_SERIAL_LO_serial + s.get R.LCY_SERIAL_HI_serial * 2 ^ 64),
      check07 img], true)

/-! Loading and staging (R336, R339, R346) -/

/-- States of CHT_STATUS. -/
def CHT_EMPTY : Nat := 0
def CHT_LOADING : Nat := 1
def CHT_STAGING : Nat := 2
def CHT_STAGED : Nat := 3
def CHT_ARMED : Nat := 4

/-- Set the chart state; a change raises the chart event. -/
def chtState (st : Nat) : Eff := .look fun s => Eff.when (s.get R.CHT_STATUS_state != st) (.seq (put R.CHT_STATUS_state st) (evFire 0x704))

/-- Nothing is staged any more. -/
def chtDiscard : Eff := .all [.upd (.chart []), put R.CHT_STAGED_ID_chart_id 0, put R.CHT_STATUS_rotation 0, .upd (.applyNow false),
  put R.TIDE_STATUS_apply_armed 0, chtState CHT_EMPTY]

/-- A load is rejected: nothing is staged; the check and the record are shown. -/
def chtReject (x : HCmd) (f : ChartFail) : Eff := .all [
  addSat R.CHT_COUNTS_rejects 1,
  put R.CHT_STATUS_last_status f.st,
  put R.CHT_STATUS_detail f.check,
  put R.CHT_STATUS_fail_type f.ty,
  put R.CHT_FAULT_record f.idx,
  put R.CHT_FAULT_offset f.off,
  chtDiscard,
  hcFinish x.id f.st 0]

/-- The image is in order: staging begins. -/
def chtStage (x : HCmd) (img : List Byte) : Eff := .all [
  .upd (.chart img),
  put R.CHT_STATUS_rotation 0,
  put R.CHT_STATUS_detail 0,
  put R.CHT_STATUS_fail_type 0,
  put R.CHT_STAGED_ID_chart_id (chartId img),
  chtState CHT_STAGING,
  .upd (.chartLoad (some x.id)),
  putBit (R.HIF_PM_STATE_pm_hold x.port) true,
  hcSet x.id fun y => { y with phase := 1 }]

/-- The checks of R338 on a copied image, in table order; the trailer's counter is consumed once check 0x04 has passed. -/
def chtValidate (x : HCmd) (img : List Byte) (len : Nat) : Eff := .look fun s =>
  match check01 img len with
  | some f => chtReject x f
  | none =>
    let r := s.chartHeadFail x.port img
    let ctr := leAt img (chartLen img - 640 + 576) 8
    .all [
      Eff.when r.2 (.all [
        put (R.HIF_PM_LAST_counter x.port) ctr,
        hcSet x.id fun y => { y with
          consumed := true, mark := if s.pmMarkAt x.port < ctr then some ctr else none }]),
      match r.1 with
      | some f => .seq (Eff.when (f.st == ST_POSTMARK_BAD || f.st == ST_POSTMARK_REPLAY) (pmFailure x.port f.st)) (chtReject x f)
      | none => (match s.chartRecordFail false img with
        | some f => chtReject x f
        | none => chtStage x img)]

/-- CHART_LOAD (R336, R338, R346). -/
def chartLoad (n : Nat) : Eff := hostStart n 0x20 fun x => .look fun s =>
  let st := s.get R.CHT_STATUS_state
  let a := x.arg 8 8
  let len := x.arg 16 4
  if !s.bit R.CHT_STATUS_rotation && (st == CHT_LOADING || st == CHT_STAGING || st == CHT_ARMED) then hcFinish x.id ST_BUSY 0
  else if a % 64 ≠ 0 then hcFinish x.id ST_ALIGN 0
  else if !isExt a then hcFinish x.id ST_BAD_ARG 0
  else .all [
    chtDiscard,
    chtState CHT_LOADING,
    if len < 768 ∨ 1048576 < len then chtReject x ⟨0x01, ST_CHART_BAD, 0, 0, 0⟩
    else memRead (.core 0) .normal a len fun r =>
      if r.status ≠ ST_OK then .seq chtDiscard (hcFinish x.id r.status 0) else chtValidate x r.data len]

def execChartLoad (n : Fin 2048) (s : State) : Host.Outcome State Fault Refusal := (chartLoad n).done s

/-- The table region of an image (R337): the layer records, then the district records. -/
def chartRegion (img : List Byte) : List Byte := ((chartRecs img 8) ++ (chartRecs img 1)).flatMap fun r => r.b

/-- R283, R340: the firmware flushes with invalidation every live SHARED range that the staged chart removes or shrinks. -/
def flushShared : Eff := .look fun s =>
  let new := (chartRecs s.chart 0xC).flatMap fun r => r.sharedRanges
  Eff.each (List.range 8) fun k =>
    let lo := s.get (R.SC_SHARED_BASE_mib k)
    let hi := s.get (R.SC_SHARED_LIMIT_mib k)
    Eff.when (s.bit (R.SC_SHARED_BASE_valid k) && !(new.any fun x => decide (x.1 ≤ lo) && decide (hi ≤ x.2)))
      (flushRange (lo * 0x100000) (hi * 0x100000 + 0xFFFFF))

/-- The staged chart is armed. -/
def chtArm (target : Nat) : Eff := .all [
  flushShared,
  put R.CHT_ARM_target_edge target, put R.TIDE_STATUS_apply_armed 1, .upd (.applyNow false), chtState CHT_ARMED]

/-- CHART_STAGING_DONE (R337, R339): the table region is written and the chart is STAGED; a rotation is armed for the
next edge at once (R345). -/
def chartStagingDone : Eff := .look fun s =>
  Eff.when (s.get R.CHT_STATUS_state == CHT_STAGING) (.all [
    Eff.when (!s.bit R.CHT_STATUS_rotation) (memWrite (.core 0) .normal (chartTable s.chart) (chartRegion s.chart) fun _ _ => .skip),
    put R.CHT_STATUS_last_status ST_OK,
    chtState CHT_STAGED,
    (match s.chartLoad with
     | some id => .seq (hcFinish id ST_OK (chartId s.chart))
        (match s.cmds.find? fun x => x.id == id with
         | some x => putBit (R.HIF_PM_STATE_pm_hold x.port) false
         | none => .skip)
     | none => .skip),
    .upd (.chartLoad none),
    Eff.when (s.bit R.CHT_STATUS_rotation) (chtArm 0)])

def execChartStagingDone (s : State) : Host.Outcome State Fault Refusal := chartStagingDone.done s

/-! Arming (R340, R346) -/

/-- The status of arming for a target edge: 0 names the next edge; an edge already past is refused. -/
def State.armStatus (s : State) (target : Nat) : Nat :=
  let st := s.get R.CHT_STATUS_state
  let ahead := (target + 2 ^ 32 - s.get R.TIDE_EDGE_NUM_edge % 2 ^ 32) % 2 ^ 32
  if st = CHT_ARMED then ST_BUSY
  else if st ≠ CHT_STAGED then ST_CHART_NOT_STAGED
  else if target ≠ 0 ∧ (ahead = 0 ∨ 2 ^ 31 ≤ ahead) then ST_BAD_ARG
  else ST_OK

/-- An armed chart returns to STAGED; a CHART_APPLY that waits ends with a status. -/
def chtDisarm (st : Nat) : Eff := .look fun s => .all [
  put R.TIDE_STATUS_apply_armed 0, .upd (.applyNow false), chtState CHT_STAGED,
  Eff.each (s.cmds.filter fun x => x.op == 0x21 && x.phase == 1) fun x => hcFinish x.id st 0]

/-- CHART_APPLY: completes when the chart becomes live. A rotation that is STAGED is no loaded chart. -/
def chartApplyCmd (n : Nat) : Eff := hostStart n 0x21 fun x => .look fun s =>
  let st := if s.bit R.CHT_STATUS_rotation then ST_CHART_NOT_STAGED else s.armStatus (x.arg 8 4)
  if st ≠ ST_OK then .seq (put R.CHT_STATUS_last_status st) (hcFinish x.id st 0)
  else .seq (chtArm (x.arg 8 4)) (hcSet x.id fun y => { y with phase := 1 })

def execChartApply (n : Fin 2048) (s : State) : Host.Outcome State Fault Refusal := (chartApplyCmd n).done s

/-- A write of CHT_ARM: bit 0 arms, bit 1 disarms, [63:32] is the target edge. -/
def actChtArm (who : Agent) (v : Nat) : Act := guardAct who 0x1001 0x10 fun s =>
  let target := v / 2 ^ 32 % 2 ^ 32
  let st := s.armStatus target
  (ST_OK, .all [
    put R.CHT_ARM_target_edge target,
    Eff.when (v % 2 == 1) (if st = ST_OK then chtArm target else put R.CHT_STATUS_last_status st),
    .look fun s => Eff.when (v / 2 % 2 == 1 && s.get R.CHT_STATUS_state == CHT_ARMED) (chtDisarm ST_ABORTED)])

/-- CHT_ARM. -/
def execChtArm (who : Agent) (target : BitVec 32) (s : State) : Host.Outcome State Fault Refusal :=
  (runAct who (actChtArm who (1 + target.toNat * 2 ^ 32))).done s

/-- CHT_DISARM: the write keeps target_edge. -/
def execChtDisarm (who : Agent) (s : State) : Host.Outcome State Fault Refusal :=
  (Eff.look fun s => runAct who (actChtArm who (2 + s.get R.CHT_ARM_target_edge * 2 ^ 32))).done s

/-- CHART_DISARM: with nothing armed it has no effect. -/
def chartDisarmCmd (n : Nat) : Eff := hostStart n 0x22 fun x => .look fun s =>
  .seq (Eff.when (s.get R.CHT_STATUS_state == CHT_ARMED) (chtDisarm ST_ABORTED)) (hcFinish x.id ST_OK 0)

def execChartDisarm (n : Fin 2048) (s : State) : Host.Outcome State Fault Refusal := (chartDisarmCmd n).done s

/-! What an apply sets (R320–R334, R342) -/

/-- Set a field that changes. -/
def putNew (f : Fld) (v : Nat) : Eff := .look fun s => Eff.when (s.get f != v) (put f v)

/-- Thread configurations of a cell (R322). -/
def applyThreads (img : List Byte) (c : Nat) : Eff := Eff.each (List.range 16) fun t =>
  match chartThread img c t with
  | some r => .all [
      putNew (R.SEQ_THR_CFG_active c t) (r.u8 2 % 2),
      putNew (R.SEQ_THR_CFG_group c t) (r.u8 2 / 2 % 4),
      putNew (R.SEQ_THR_CFG_head_pc c t) (r.u 8 8 / 8)]
  | none => .all [putNew (R.SEQ_THR_CFG_active c t) 0, putNew (R.SEQ_THR_CFG_group c t) 0, putNew (R.SEQ_THR_CFG_head_pc c t) 0]

/-- The value of a route configuration register. -/
def routeCfg (peer : Nat) (r : ChartRec) : Nat :=
  peer + 2 ^ 7 + r.u 4 2 * 2 ^ 8 + r.u8 6 % 32 * 2 ^ 19 + r.u 8 4 / 2 ^ r.u8 6 * 2 ^ 24

/-- The configurations of the routes of a cell under an image (R323); a slot without a record becomes invalid. -/
def chartOutCfg (img : List Byte) (c r : Nat) : Nat :=
  match (chartRecs img 3).find? fun x => x.u8 0 == c && x.u8 1 == r with
  | some x => routeCfg (x.u8 2) x
  | none => (regReset (R.QUE_ROUTE_OUT_CFG c r)).toNat
def chartInCfg (img : List Byte) (c r : Nat) : Nat :=
  match (chartRecs img 3).find? fun x => x.u8 2 == c && x.u8 3 == r with
  | some x => routeCfg (x.u8 0) x
  | none => (regReset (R.QUE_ROUTE_IN_CFG c r)).toNat

/-- The route slots of the cells that a retirement has not taken. -/
def State.routeSlots (s : State) : List (Nat × Nat) :=
  ((List.range 128).filter fun c => !s.cellRetired c).flatMap fun c => (List.range 32).map fun r => (c, r)

/-- The outbound and the inbound slots that an image changes. -/
def State.outChanged (s : State) (img : List Byte) : List (Nat × Nat) :=
  s.routeSlots.filter fun x => (s.reg (R.QUE_ROUTE_OUT_CFG x.1 x.2)).toNat != chartOutCfg img x.1 x.2
def State.inChanged (s : State) (img : List Byte) : List (Nat × Nat) :=
  s.routeSlots.filter fun x => (s.reg (R.QUE_ROUTE_IN_CFG x.1 x.2)).toNat != chartInCfg img x.1 x.2

/-- Routes (R323, R67): every route that changes on either side is initialised on both. -/
def applyRoutes (img : List Byte) : Eff := .look fun s =>
  let outs := s.outChanged img
  let ins := s.inChanged img
  .all [
    Eff.each outs fun x => putReg (R.QUE_ROUTE_OUT_CFG x.1 x.2) (BitVec.ofNat 64 (chartOutCfg img x.1 x.2)),
    Eff.each ins fun x => putReg (R.QUE_ROUTE_IN_CFG x.1 x.2) (BitVec.ofNat 64 (chartInCfg img x.1 x.2)),
    Eff.each outs fun x => routeInitFrom x.1 x.2,
    Eff.each ins fun x => routeInitTo x.1 x.2]

/-- The settings of one cell: threads, owners (accepted as chart-apply writes, R172), KV layout, ballast and rounding. -/
def applyCell (img : List Byte) (c : Nat) : Eff :=
  let d := chartDistrictOf img c
  .all [
    applyThreads img c,
    Eff.each (List.range 24) fun b => putNew (ownFld c b) (chartOwner img c b),
    Eff.each (List.range 128) fun lh =>
      (match (chartRecs img 7).find? fun r => r.u8 0 == c && r.u8 1 == lh with
       | some r => .all [putNew (R.KVT_LAYOUT_rec_log2 c lh) (r.u8 2), putNew (R.KVT_LAYOUT_home_pc c lh) (r.u8 3),
          putNew (R.KVT_LAYOUT_spread c lh) (r.u8 4 % 2), putNew (R.KVT_LAYOUT_valid c lh) 1]
       | none => .all [putNew (R.KVT_LAYOUT_rec_log2 c lh) 6, putNew (R.KVT_LAYOUT_home_pc c lh) 0,
          putNew (R.KVT_LAYOUT_spread c lh) 0, putNew (R.KVT_LAYOUT_valid c lh) 0]),
    putNew (R.PBX_CFG_ballast c) (match (chartRecs img 5).find? fun r => r.u8 0 == 2 && d == some (r.u8 1) with
      | some r => r.u8 2 % 2
      | none => 0),
    (let v := match (chartRecs img 0xB).find? fun r => d == some (r.u8 0) with
       | some r => r.u 4 4 % 2 ^ 18
       | none => 0
     .seq (putNew ⟨R.CELL_ROUND c, 0, 18⟩ v) (.upd (.buRound c (v / 2 ^ 14 % 16))))]

/-- Seawalls (R325): a configuration that changes takes the commit effect of R311. -/
def applyWalls (img : List Byte) : Eff := Eff.each (List.range 64) fun w => .look fun s =>
  let r := (chartRecs img 5).find? fun r => r.u8 0 == 1 && r.u8 1 == w
  let cfg := match r with
    | some r => r.u 2 2 % 4096 + 2 ^ 12 + r.u8 4 % 4 * 2 ^ 13 + r.u8 5 % 64 * 2 ^ 15 + r.u8 6 % 128 * 2 ^ 21
    | none => (regReset (R.SWL_CFG w)).toNat
  let members := match r with | some r => r.u 16 16 | none => 0
  Eff.when ((s.reg (R.SWL_CFG w)).toNat != cfg || s.get (R.SWL_MEMBERS_LO_members w) + s.get (R.SWL_MEMBERS_HI_members w) * 2 ^ 64 != members)
    (.all [
      putReg (R.SWL_CFG w) (BitVec.ofNat 64 cfg),
      put (R.SWL_MEMBERS_LO_members w) members,
      put (R.SWL_MEMBERS_HI_members w) (members / 2 ^ 64),
      wallClear w])

/-- Postbox clears (R312). -/
def applyClears (img : List Byte) : Eff := Eff.each ((chartRecs img 5).filter fun r => r.u8 0 == 3) fun r =>
  Eff.each ((List.range 48).filter fun n => (r.u 8 6).testBit n) fun n => pbxClear (r.u8 1) n

/-- The tide record (R330) and the active districts (R321). -/
def applyTide (img : List Byte) : Eff :=
  let t := chartTide img
  let active := (List.range 128).foldl (fun n d => if chartActive img d then n + 2 ^ d else n) 0
  .all [
    put R.TIDE_PERIOD_period_us (t.u 0 2), put R.TIDE_PERIOD_slack_us (t.u 2 2), put R.TIDE_PERIOD_cutoff_us (t.u 4 2),
    put R.TIDE_POLICY_stretch_max_us (t.u 6 2), put R.TIDE_POLICY_shed_pct (t.u8 8),
    put R.TIDE_CTRL_policy (t.u8 9), put R.TIDE_CTRL_role (t.u8 10),
    put R.GWL_GROUP_member (t.u 12 2), put R.GWL_GROUP_group_size (t.u 14 2), put R.GWL_GROUP_group_tag (t.u 16 2),
    put R.TIDE_ACTIVE_LO_active active, put R.TIDE_ACTIVE_HI_active (active / 2 ^ 64)]

/-- The cache record (R332). -/
def applyCache (img : List Byte) : Eff :=
  let r := (chartRecs img 0xC).getD 0 ⟨0xC, 0, 0, List.replicate 32 0 ++ List.replicate 32 0xFF⟩
  .all [
    Eff.each (List.range 8) fun k => put (R.SC_KEEP_CFG_quota k) (r.u (2 * k) 2),
    put R.SC_CTRL_atom_round (r.u8 16),
    Eff.each (List.range 8) fun k =>
      let lo := r.u (32 + 4 * k) 2
      let hi := r.u (34 + 4 * k) 2
      let on := !(lo == 0xFFFF && hi == 0xFFFF)
      .all [
        putBit (R.SC_SHARED_BASE_valid k) on,
        put (R.SC_SHARED_BASE_mib k) (if on then lo else 0),
        put (R.SC_SHARED_LIMIT_mib k) (if on then hi else 0)]]

/-- Monitor bindings (R334, R343): a unit whose binding changes starts its capture empty. -/
def applyMonitors (img : List Byte) : Eff := Eff.each (List.range 64) fun u => .look fun s =>
  let r := (chartRecs img 0xE).find? fun r => r.u8 0 == u
  let bind := match r with | some r => r.u 2 2 + r.u 4 4 * 2 ^ 16 + r.u8 1 % 2 * 2 ^ 48 | none => 0
  let set := match r with | some r => r.u 8 8 | none => 0
  Eff.when ((s.reg (R.MON_BIND u)).toNat != bind || (s.reg (R.MON_SETTING u)).toNat != set) (.all [
    putReg (R.MON_BIND u) (BitVec.ofNat 64 bind), putReg (R.MON_SETTING u) (BitVec.ofNat 64 set), monClear u])

/-- R342 items 1 to 3: the chart shadows become live in every block instance not in a retired cell. -/
def chartCopy (img : List Byte) : Eff := .look fun s => .all [
  Eff.each ((List.range 128).filter fun c => !s.cellRetired c) fun c => applyCell img c,
  applyRoutes img,
  applyWalls img,
  applyClears img,
  applyTide img,
  applyCache img,
  applyMonitors img]

/-- The apply at an edge (R342): the staged chart is live from the end of step 3; `ns` is the duration of that step. -/
def chartGoLive (edge ns : Nat) : Eff := .look fun s =>
  let img := s.chart
  let rot := s.bit R.CHT_STATUS_rotation
  .all [
    chartCopy img,
    .upd (.chartLive img),
    putBit R.CHT_STATUS_live true,
    put R.CHT_LIVE_EDGE_edge edge,
    addSat R.CHT_COUNTS_applies 1,
    Eff.when rot (addSat R.CHT_COUNTS_rotations 1),
    put R.CHT_APPLY_NS_step3_ns ns,
    put R.CHT_STATUS_last_status ST_OK,
    Eff.when (!rot) (.all [
      put R.CHT_LIVE_ID_chart_id (chartId img),
      Eff.each (List.range 8) fun i => put (R.CHT_LIVE_DIGEST_digest i) (leAt img (chartLen img - 640 + 8 * i) 8),
      Eff.each (s.cmds.filter fun x => x.op == 0x21 && x.phase == 1) fun x => hcFinish x.id ST_OK edge]),
    chtDiscard]

/-- R46 step 6, R208: the pseudo-channel modes that the live chart requests. -/
def chartModes (img : List Byte) : Eff := .look fun s =>
  Eff.each ((List.range 1024).filter fun u => !s.unitRetired u && chartMode img u != s.bit (R.BU_MODE_req (buC u) (buP u))) fun u =>
    (actBuMode (.core 0) u (if chartMode img u then 1 else 0) s).2

/-- R346: a unit that the staged chart names is retired: the chart is discarded. -/
def chartRecheck : Eff := .look fun s =>
  let st := s.get R.CHT_STATUS_state
  if st ≠ CHT_STAGED ∧ st ≠ CHT_ARMED then .skip
  else match s.chartRecordFail (s.bit R.CHT_STATUS_rotation) s.chart with
    | none => .skip
    | some f => .all [
        put R.CHT_STATUS_last_status ST_CHART_BAD, put R.CHT_STATUS_detail f.check, put R.CHT_STATUS_fail_type f.ty,
        put R.CHT_FAULT_record f.idx, put R.CHT_FAULT_offset f.off,
        chtDiscard,
        Eff.each (s.cmds.filter fun x => x.op == 0x21 && x.phase == 1) fun x => hcFinish x.id ST_CHART_BAD 0]

end Sys2Proof.Machine
end

