-- ==== Sys2Proof/Machine/Kvt.lean ====
section
/-! DEFINITION. The KV translation units (09_kv_cache.md R233–R268): tables, free lists and counts, the operations with their
waits and page copies, staging, migration and evacuation. -/

namespace Sys2Proof.Machine

/-! Operations and their registers -/

/-- The opcode of an operation (R241). -/
def KvOp.code (x : KvOp) : Nat := byteAt x.desc 0
def KvOp.flags (x : KvOp) : Nat := byteAt x.desc 1
def KvOp.seq (x : KvOp) : Nat := leAt x.desc 4 2
def KvOp.lh (x : KvOp) : Nat := byteAt x.desc 6
def KvOp.n (x : KvOp) : Nat := byteAt x.desc 7
def KvOp.t0 (x : KvOp) : Nat := leAt x.desc 8 4
def KvOp.t1 (x : KvOp) : Nat := leAt x.desc 12 4
def KvOp.buf (x : KvOp) : Nat := leAt x.desc 16 4
def KvOp.bufMax (x : KvOp) : Nat := leAt x.desc 20 2
def KvOp.aux (x : KvOp) : Nat := leAt x.desc 22 2
def KvOp.dst (x : KvOp) : Nat := leAt x.desc 16 8

/-- An operation that has just been submitted. -/
def kvOp (id : Nat) (off thread : Option Nat) (cls : Nat × Nat) (desc : List Byte) : KvOp :=
  ⟨id, off, thread, cls, desc, 0xFFFF, 0, [], false, [], [], ST_OK, 0, 0⟩

/-- Show the counts of KVT_STATUS and KVT_MIG. -/
def kvShow (c : Nat) : Eff := .look fun s => .all [
  put (R.KVT_STATUS_queued c) ((s.kvtQAt c).filter fun x => x.phase == 0).length,
  put (R.KVT_STATUS_running c) ((s.kvtQAt c).filter fun x => x.phase != 0).length,
  put (R.KVT_MIG_queued c) (min (s.kvtMigQAt c).length 0xFFFF),
  put (R.KVT_MIG_staged c) (min (s.kvtStagedAt c).length 4095)]

/-- KVT_STATUS of a failed or refused operation. -/
def kvLast (c : Nat) (thread : Option Nat) (st : Nat) : Eff := .all [
  put (R.KVT_STATUS_last_status c) st,
  put (R.KVT_STATUS_last_thread c) (thread.getD 0),
  putBit (R.KVT_STATUS_last_via_core c) thread.isNone]

/-- KVT_LAST_FAULT. -/
def kvFault (c : Nat) (thread : Option Nat) (addr st : Nat) : Eff := .all [
  put (R.KVT_LAST_FAULT_addr c) addr,
  put (R.KVT_LAST_FAULT_status c) st,
  put (R.KVT_LAST_FAULT_thread c) (thread.getD 0),
  putBit (R.KVT_LAST_FAULT_via_core c) thread.isNone]

/-- Change an operation. -/
def kvSet (c id : Nat) (f : KvOp → KvOp) : Eff := .look fun s =>
  .upd (.kvtQ c ((s.kvtQAt c).map fun x => if x.id == id then f x else x))

/-- A status of one piece of an operation: the first that is not ST_OK stays; a saturated count gives way to any other. -/
def kvNote (c id st : Nat) : Eff := kvSet c id fun x =>
  { x with status := if x.status = ST_OK ∨ (x.status = ST_KV_REFCOUNT_SAT ∧ st ≠ ST_OK) then st else x.status }

/-- The operation has done all it will do; its completion is a step of its own. -/
def kvStop (c id : Nat) : Eff := .seq (kvSet c id fun x => { x with phase := 2, todo := [], copies := [], locks := [] }) (kvShow c)

/-- The operation ends with a status. -/
def kvFail (c id st : Nat) : Eff := .seq (kvNote c id st) (kvStop c id)

/-- R268: a table access failed: the operation stops and leaves what it has done. -/
def kvTableFail (c : Nat) (x : KvOp) (addr st : Nat) : Eff :=
  let st := if st = ST_POISON then ST_UNCORRECTABLE else st
  .seq (kvFault c x.thread addr st) (kvFail c x.id st)

/-! Access under R225 -/

/-- An access that a PROCESSOR-mode pseudo-channel may hold: go on when nothing holds it or a memory window has served it. -/
def kvGate (c : Fin 128) (a n : Nat) (k : Eff) : Eff := gates (.kvt c) [(a, n)] k

/-- Gate several accesses. -/
def kvGates (c : Fin 128) (as : List (Nat × Nat)) (k : Eff) : Eff := gates (.kvt c) as k

/-- The windows that served the KVT are used up. -/
def kvUngate (c : Fin 128) : Eff := ungate (.kvt c)

/-- Read a table: the KVT is an ordinary agent (R239). -/
def kvRead (c : Fin 128) (a n : Nat) (bad : Nat → Nat → Eff) (k : List Byte → Eff) : Eff :=
  memRead (.kvt c) .normal a n fun r => if r.status = ST_OK then k r.data else bad a r.status

/-- Write a table. -/
def kvWrite (c : Fin 128) (a : Nat) (bs : List Byte) (bad : Nat → Nat → Eff) (k : Eff) : Eff :=
  memWrite (.kvt c) .normal a bs fun st _ => if st = ST_OK then k else bad a st

/-! Layout, entries and pages (R233–R238) -/

/-- R: bytes of a record of a layer-half. -/
def State.kvR (s : State) (c lh : Nat) : Nat := 2 ^ s.get (R.KVT_LAYOUT_rec_log2 c lh)

/-- T: tokens of a page of a layer-half. -/
def State.kvT (s : State) (c lh : Nat) : Nat := 65536 / s.kvR c lh

/-- A layer-half is defined. -/
def State.kvValid (s : State) (c lh : Nat) : Bool := s.bit (R.KVT_LAYOUT_valid c lh)

/-- The address of the entry of a sequence. -/
def State.kvSeqAddr (s : State) (c q : Nat) : Nat := s.get (R.KVT_SEQ_BASE_base c) * 64 + q * 32

/-- A sequence entry (R236). -/
structure KvSeq where
  addr    : Nat
  base    : Nat
  ppl     : Nat
  nLh     : Nat
  flags   : Nat
  globals : Nat
  maxTok  : Nat

/-- The fields of a sequence entry. -/
def kvSeqOf (addr : Nat) (bs : List Byte) : KvSeq :=
  ⟨addr, leAt bs 0 8, leAt bs 8 2, byteAt bs 10, byteAt bs 11, leAt bs 12 2, leAt bs 24 4⟩

/-- The address of the page table entry of a block (R237). -/
def KvSeq.pte (e : KvSeq) (lh b : Nat) : Nat := e.base + 8 * (lh * e.ppl + b)

/-! Fields of a page table entry (R238) -/
def ptPresent (p : Nat) : Bool := p % 2 == 1
def ptExt (p : Nat) : Bool := p / 2 % 2 == 1
def ptCow (p : Nat) : Bool := p / 4 % 2 == 1
def ptGlobal (p : Nat) : Bool := p / 8 % 2 == 1
def ptPpn (p : Nat) : Nat := p / 16 % 2 ^ 22
def ptRc (p : Nat) : Nat := p / 2 ^ 26 % 2 ^ 20
/-- Tier and page number: the page an entry names. -/
def ptPage (p : Nat) : Nat := p / 2 % 2 * 2 ^ 22 + ptPpn p
/-- The bank unit of a vault page. -/
def ptUnit (p : Nat) : Nat := ptPpn p / 1024

/-- An entry with the page of a template and the given flags. -/
def ptMake (tmpl present cow glob : Nat) : Nat :=
  present + tmpl / 2 % 2 * 2 + cow * 4 + glob * 8 + ptPpn tmpl * 16 + ptRc tmpl * 2 ^ 26

/-- The device address of byte `off` of the page that an entry names (R203, R235). -/
def pageAt (p off : Nat) : Nat :=
  if ptExt p then 0x1000000000 + ptPpn p * 65536 + off
  else
    let l := ptPpn p % 1024 * 65536 + off
    ptUnit p / 8 * 0x18000000 + l / 64 * 512 + ptUnit p % 8 * 64 + l % 64

/-- Read bytes of a page, 64-byte granule by granule. -/
def pageRead (c : Fin 128) (h : Hint) (p off n : Nat) (k : Resp → Eff) : Eff :=
  readParts (fun o m k => memRead (.kvt c) h (pageAt p o) m k) (splitBy 64 (n / 64 + 2) off n) ⟨ST_OK, [], []⟩ k

/-- Mark the poisoned words of written bytes. -/
def pagePoison (p off : Nat) (bad : List Bool) (bs : List Byte) : Eff := Eff.each (List.range (bs.length / 8)) fun i =>
  Eff.when (((bad.drop (8 * i)).take 8).any id) (poisonWord (pageAt p (off + 8 * i)) (leAt bs (8 * i) 8))

/-- Write bytes of a page; a word that was read poisoned is written poisoned (R458). -/
def pageWrite (c : Fin 128) (h : Hint) (p off : Nat) (r : Resp) (k : Nat → Eff) : Eff :=
  writeParts (fun o bs k => memWrite (.kvt c) h (pageAt p o) bs fun st _ => k st) r.data off
    (splitBy 64 (r.data.length / 64 + 2) off r.data.length) ST_OK fun st =>
      if st = ST_OK then .seq (pagePoison p off r.bad r.data) (k st) else k st

/-- A refused read of page data is written like poison. -/
def Resp.taint (r : Resp) : Resp :=
  if r.status = ST_OK ∨ r.status = ST_POISON ∨ r.status = ST_UNCORRECTABLE then r
  else { r with bad := r.data.map fun _ => true }

/-- The status of a page copy: poison read is reported as ST_POISON (R254, R458). -/
def copyStatus (rd wr : Nat) : Nat :=
  if wr ≠ ST_OK then wr else if rd = ST_UNCORRECTABLE then ST_POISON else rd

/-- The page mover copies a page through the shared cache with the STREAM hint (R259); check-value engines may snoop it (R464). -/
def pageMove (c : Fin 128) (old new : Nat) (k : Nat → Eff) : Eff :=
  pageRead c .stream old 0 65536 fun r => pageWrite c .stream new 0 r.taint fun st =>
    .seq (snoop 6 0 c ((List.range 65536).map fun i => (pageAt new i, r.data.getD i 0))) (k (copyStatus r.status st))

/-! Reference counts (R247, R251) -/

/-- The address of a count. -/
def State.rcAddr (s : State) (c i : Nat) : Nat := s.get (R.KVT_RC_BASE_base c) * 64 + i * 4

/-- Read a count and its sat flag. -/
def rcRead (c : Fin 128) (i : Nat) (bad : Nat → Nat → Eff) (k : Nat → Bool → Eff) : Eff := .look fun s =>
  kvRead c (s.rcAddr c i) 4 bad fun bs => k (leAt bs 0 2) (leAt bs 2 1 % 2 == 1)

/-- Write a count. -/
def rcWrite (c : Fin 128) (i n : Nat) (sat : Bool) (bad : Nat → Nat → Eff) (k : Eff) : Eff := .look fun s =>
  kvWrite c (s.rcAddr c i) (toLE 4 (n + if sat then 2 ^ 16 else 0)) bad k

/-- R249, R251: one more sharer; the continuation gets whether the count is saturated. -/
def rcInc (c : Fin 128) (i : Nat) (bad : Nat → Nat → Eff) (k : Bool → Eff) : Eff := rcRead c i bad fun n sat =>
  if sat then k true
  else if n = 0xFFFF then rcWrite c i n true bad (.seq (addSat (R.KVT_SATS_count c) 1) (k true))
  else rcWrite c i (n + 1) false bad (k false)

/-- R250, R252: one sharer fewer, unless the count is saturated; the continuation gets whether it reached 0. -/
def rcDec (c : Fin 128) (i : Nat) (bad : Nat → Nat → Eff) (k : Bool → Eff) : Eff := rcRead c i bad fun n sat =>
  if sat || n == 0 then k false else rcWrite c i (n - 1) false bad (k (n == 1))

/-! Free lists (R244, R247, R248) -/

/-- Entries in a list. -/
def State.flCount (s : State) (c i : Nat) : Nat :=
  (s.get (R.KVT_FL_STATE_tail c i) + 2 ^ 32 - s.get (R.KVT_FL_STATE_head c i)) % 2 ^ 32

/-- Entries a ring holds. -/
def State.flSize (s : State) (c i : Nat) : Nat := 2 ^ s.get (R.KVT_FL_BASE_size_log2 c i)

/-- The address of the entry at a free-running index. -/
def State.flAddr (s : State) (c i at' : Nat) : Nat := s.get (R.KVT_FL_BASE_base c i) * 8 + at' % s.flSize c i * 8

/-- The list of the page that an entry names. -/
def flOf (p : Nat) : Nat := if ptExt p then 8 else ptUnit p % 8

/-- Push an entry at the tail of a list; the continuation gets whether there was room. -/
def flPush (c : Fin 128) (i p : Nat) (k : Bool → Eff) : Eff := .look fun s =>
  if s.flSize c i ≤ s.flCount c i then k false
  else memWrite (.kvt c) .normal (s.flAddr c i (s.get (R.KVT_FL_STATE_tail c i))) (toLE 8 p) fun _ _ =>
    .seq (addWrap (R.KVT_FL_STATE_tail c i) 1) (k true)

/-- The KVT pushes the page of an entry, with present = 0. -/
def flReturn (c : Fin 128) (p : Nat) (k : Eff) : Eff := flPush c (flOf p) (ptMake p 0 0 0) fun _ =>
  .seq (addSat (R.KVT_FREES_count c) 1) k

/-- R250: an entry no longer refers to its page. -/
def pageDrop (c : Fin 128) (p : Nat) (bad : Nat → Nat → Eff) (k : Eff) : Eff :=
  rcDec c (ptRc p) bad fun zero => if zero then flReturn c p k else k

/-- R248: the status under which a popped entry is discarded before its count is looked at. -/
def State.flCheck (s : State) (c i p : Nat) : Nat :=
  if ptExt p != (i == 8) then ST_BAD_ARG
  else if ptExt p then (if s.extEnd < 0x1000000000 + ptPpn p * 65536 + 65536 then ST_FRANK_MISSING
    else if 2 ^ s.get (R.KVT_RC_BASE_entries_log2 c) ≤ ptRc p then ST_BAD_ARG else ST_OK)
  else if ptUnit p ≠ c * 8 + i ∨ 768 ≤ ptPpn p % 1024 ∨ s.unitRetired (ptUnit p) ∨
    2 ^ s.get (R.KVT_RC_BASE_entries_log2 c) ≤ ptRc p then ST_BAD_ARG
  else ST_OK

/-- Pop the next entry of a list that passes the checks, with at most `fuel` tries. -/
def flPop (c : Fin 128) (i : Nat) (thread : Option Nat) (bad : Nat → Nat → Eff) : Nat → (Option Nat → Eff) → Eff
  | 0, k => k none
  | fuel + 1, k => .look fun s =>
    if s.flCount c i = 0 then k none
    else kvRead c (s.flAddr c i (s.get (R.KVT_FL_STATE_head c i))) 8 bad fun bs => .look fun s =>
      let p := leNat bs
      .seq (.seq (addWrap (R.KVT_FL_STATE_head c i) 1)
          (.look fun s => Eff.when (s.flCount c i == s.get (R.KVT_FL_CFG_low_water c i)) (evFire (c * 8 + 6))))
        (let discard := fun st => Eff.seq (.seq (kvFault c thread (pageAt p 0) st) (evFire (c * 8 + 6)))
            (flPop c i thread bad fuel k)
         if s.flCheck c i p ≠ ST_OK then discard (s.flCheck c i p)
         else rcRead c (ptRc p) bad fun n _ => if n ≠ 0 then discard ST_BAD_ARG else k (some p))

/-- Pop one entry of a list. -/
def flTake (c : Fin 128) (i : Nat) (thread : Option Nat) (bad : Nat → Nat → Eff) (k : Option Nat → Eff) : Eff :=
  .look fun s => flPop c i thread bad (min (s.flCount c i) 65536) k

/-- The vault lists in ascending order from a preferred one. -/
def flOrder (pref : Nat) : List Nat := (List.range 8).map fun i => (pref + i) % 8

/-- R244: single entries from any vault lists. -/
def flSingles (c : Fin 128) (thread : Option Nat) (bad : Nat → Nat → Eff) : List Nat → Nat → List Nat → (List Nat → Eff) → Eff
  | [], _, got, k => k got
  | i :: rest, need, got, k =>
    if need ≤ got.length then k got
    else flTake c i thread bad fun p => flSingles c thread bad rest need (got ++ p.toList) k

/-- R244: two entries from one list: the first list of the order that holds two. The continuation gets what was popped. -/
def flPairs (c : Fin 128) (thread : Option Nat) (bad : Nat → Nat → Eff) : List Nat → (List Nat → Eff) → Eff
  | [], k => k []
  | i :: rest, k => .look fun s =>
    if s.flCount c i < 2 then flPairs c thread bad rest k
    else flTake c i thread bad fun p =>
      match p with
      | none => flPairs c thread bad rest k
      | some p => flTake c i thread bad fun q =>
        match q with
        | none => flPush c (flOf p) p fun _ => flPairs c thread bad rest k
        | some q => k [p, q]

/-- Put popped entries back. -/
def flBack (c : Fin 128) : List Nat → Eff → Eff
  | [], k => k
  | p :: rest, k => flPush c (flOf p) p fun _ => flBack c rest k

/-- Set the counts of popped pages to 1. -/
def rcOnes (c : Fin 128) (bad : Nat → Nat → Eff) : List Nat → Eff → Eff
  | [], k => k
  | p :: rest, k => rcWrite c (ptRc p) 1 false bad (rcOnes c bad rest k)

/-- R239: what pops from some lists reach: the next two entries of each list and their counts. -/
def State.flReach (s : State) (c : Nat) (lists : List Nat) : List (Nat × Nat) :=
  let as := lists.flatMap fun i => (List.range (min 2 (s.flCount c i))).map fun j => s.flAddr c i (s.get (R.KVT_FL_STATE_head c i) + j)
  (as.map fun a => (a, 8)) ++ as.map fun a => (s.rcAddr c (ptRc (s.word a)), 4)

/-- R244: `need` (1 or 2) vault pages, a pair in one pseudo-channel when a list holds two. With fewer free, the continuation gets
those there are, or none of them when `whole`. Their counts become 1. -/
def takeVault (c : Fin 128) (pref need : Nat) (whole : Bool) (thread : Option Nat) (bad : Nat → Nat → Eff) (k : List Nat → Eff) : Eff :=
  let finish := fun (got : List Nat) =>
    if whole && decide (got.length < need) then flBack c got (k [])
    else rcOnes c bad got (.seq
      (Eff.when (got.length == 2 && (got.getD 0 0 / 2 ^ 14 % 8 != got.getD 1 0 / 2 ^ 14 % 8)) (addSat (R.KVT_SPLIT_count c) 1))
      (k got))
  let order := flOrder pref
  .look fun s => kvGates c (s.flReach c order) <|
  if need = 2 then flPairs c thread bad order fun got =>
    if 2 ≤ got.length then finish got else flSingles c thread bad (order ++ order) 2 got finish
  else flSingles c thread bad order need [] finish

/-- A page of the external tier. -/
def takeExt (c : Fin 128) (thread : Option Nat) (bad : Nat → Nat → Eff) (k : List Nat → Eff) : Eff :=
  .look fun s => kvGates c (s.flReach c [8]) (flTake c 8 thread bad fun p => rcOnes c bad p.toList (k p.toList))

/-- R244: the preferred pseudo-channel of a layer-half's block. -/
def State.kvHome (s : State) (c lh b : Nat) : Nat :=
  if s.bit (R.KVT_LAYOUT_spread c lh) then (s.get (R.KVT_LAYOUT_home_pc c lh) + b) % 8 else s.get (R.KVT_LAYOUT_home_pc c lh)

/-- R244: the preferred pseudo-channel of a single page: that of its partner page when the partner is present in the vault. -/
def kvPref (c : Fin 128) (e : KvSeq) (lh b : Nat) (bad : Nat → Nat → Eff) (k : Nat → Eff) : Eff := .look fun s =>
  if Nat.xor lh 1 < e.nLh then kvGate c (e.pte (Nat.xor lh 1) b) 8 (kvRead c (e.pte (Nat.xor lh 1) b) 8 bad fun bs =>
    k (if ptPresent (leNat bs) && !ptExt (leNat bs) then ptUnit (leNat bs) % 8 else s.kvHome c lh b))
  else k (s.kvHome c lh b)

/-! Locks (R245, R252, R261) -/

/-- A page that an earlier operation or a move holds locked; a WALK of another sequence reads through a copy-on-write (R254). -/
def State.kvLocked (s : State) (c : Nat) (x : KvOp) (p : Nat) : Bool :=
  ((s.kvtQAt c).any fun y => y.id != x.id && y.locks.contains (ptPage p) && !(x.code == 1 && y.seq != x.seq)) ||
    ((s.kvtMovesAt c).any fun m => ptPage m.old == ptPage p)

/-! Submission (R240) -/

/-- Whether an agent may submit: a thread of the cell or a control core. -/
def kvSubmitter (c : Nat) : Agent → Bool
  | .core _ => true
  | .thread c' _ => c'.val == c
  | _ => false

/-- The thread that an agent is. -/
def agentThread : Agent → Option Nat
  | .thread _ t => some t.val
  | _ => none

/-- Queue an operation; the continuation is for a full queue. -/
def kvEnqueue (c : Nat) (x : KvOp) : Eff := .look fun s => .all [
  .upd (.kvtQ c (s.kvtQAt c ++ [x])), .upd (.tagNext (s.tagNext + 1)), kvShow c]

/-- The queue of 32 has room. -/
def State.kvRoom (s : State) (c : Nat) : Bool := decide (((s.kvtQAt c).filter fun x => x.phase == 0).length < 32)

/-- R241: the status of a descriptor's own fields. -/
def KvOp.fieldStatus (x : KvOp) : Nat :=
  if x.code = 0 ∨ 8 < x.code ∨ 4095 < x.seq ∨ x.n = 0 ∨ 128 < x.n then ST_BAD_ARG
  else if x.flags % 2 = 1 ∧ 47 < byteAt x.desc 2 then ST_BAD_ARG
  else if x.code = 8 then (if x.dst % 64 ≠ 0 then ST_ALIGN else ST_OK)
  else if (x.code = 1 ∨ x.code = 6) ∧ (x.bufMax = 0 ∨ 4096 < x.bufMax) then ST_BAD_ARG
  else if (x.code = 1 ∨ x.code = 2 ∨ x.code = 6) ∧ x.buf % 16 ≠ 0 then ST_ALIGN
  else if x.code = 3 ∧ 4095 < x.aux then ST_BAD_ARG
  else ST_OK

/-- KVT_SUBMIT: the descriptor at an offset of general SRAM is read under the submitter's class and queued. -/
def actKvtSubmit (who : Agent) (c v : Nat) : Act := guardAct who (c * 16 + 6) 0x10 fun s =>
  let off := v / 32 % 2 ^ 17 * 32
  if !kvSubmitter c who then (ST_PAGE_PROTECTED,
    .seq (.seq (kvLast c (agentThread who) ST_PAGE_PROTECTED) (putBit (R.KVT_STATUS_last_via_core c) false)) (refuseWrite who (c * 16 + 6) 0x10 ST_PAGE_PROTECTED))
  else (ST_OK,
    if !s.kvRoom c then kvLast c (agentThread who) ST_BUSY
    else if 0x300000 < off + 32 then kvLast c (agentThread who) ST_ADDR_UNMAPPED
    else
      let cls := if (agentThread who).isNone then (9, 0xFF) else s.accClass who c
      sramRead c off 32 cls fun r => .look fun s =>
        if r.status ≠ ST_OK then kvLast c (agentThread who) r.status
        else kvEnqueue c (kvOp s.tagNext (some off) (agentThread who) cls r.data))

def execKvtSubmit (who : Agent) (c : Fin 128) (off : BitVec 22) (s : State) : Host.Outcome State Fault Refusal :=
  (runAct who (actKvtSubmit who c off.toNat)).done s

/-! Running an operation (R242, R245, R268) -/

/-- Whether the n-th operation of a cell may go on as opcode `code`: it runs and waits for no copy, or it is the next to
start while the KVT is enabled and fewer than four run. -/
def State.kvReady (s : State) (c n code : Nat) : Option KvOp :=
  match (s.kvtQAt c)[n]? with
  | none => none
  | some x =>
    if x.code ≠ code ∨ x.phase = 2 ∨ !x.copies.isEmpty then none
    else if x.phase = 1 then some x
    else if s.bit (R.KVT_CTRL_enable c) && ((s.kvtQAt c).take n).all (fun y => y.phase != 0) &&
        decide (((s.kvtQAt c).filter fun y => y.phase != 0).length < 4) then some x
    else none

/-- R241: the end token. -/
def KvOp.endTok (x : KvOp) (e : KvSeq) : Nat := if x.t1 = 0xFFFFFFFF then e.maxTok else x.t1

/-- R268: the status of one layer-half of an operation. -/
def State.kvLhStatus (s : State) (c : Nat) (x : KvOp) (e : KvSeq) (lh : Nat) : Nat :=
  if !s.kvValid c lh then ST_BAD_ARG
  else if x.code ≠ 3 ∧ e.maxTok ≤ x.t0 then ST_KV_RANGE
  else if (x.code = 1 ∨ x.code = 3 ∨ x.code = 4 ∨ 7 ≤ x.code) ∧ e.maxTok < x.endTok e then ST_KV_RANGE
  else ST_OK

/-- The blocks from `lo` to `hi - 1`. -/
def blocks (lo hi : Nat) : List Nat := (List.range (hi - lo)).map fun i => lo + i

/-- R242: the blocks of one layer-half that an operation takes. -/
def State.kvBlocks (s : State) (c : Nat) (x : KvOp) (e : KvSeq) (lh : Nat) : List Nat :=
  let t := s.kvT c lh
  let t1 := x.endTok e
  match x.code with
  | 1 => if x.t0 < t1 then blocks (x.t0 / t) ((t1 - 1) / t + 1) else []
  | 3 => blocks 0 ((t1 + t - 1) / t)
  | 4 | 7 | 8 => blocks ((x.t0 + t - 1) / t) (if e.maxTok ≤ t1 then (e.maxTok + t - 1) / t else t1 / t)
  | _ => [x.t0 / t]

/-- The pieces of an operation: of APPEND the K and V of a slot together, else one page each, in the order of R242. -/
def State.kvItems (s : State) (c : Nat) (x : KvOp) (e : KvSeq) (lhs : List Nat) : List KvItem :=
  lhs.flatMap fun lh =>
    if x.code = 2 then
      (if lh % 2 = 1 ∧ lhs.contains (lh - 1) then []
       else [⟨lh, x.t0 / s.kvT c lh, lh % 2 == 0 && lhs.contains (lh + 1)⟩])
    else (s.kvBlocks c x e lh).map fun b => ⟨lh, b, false⟩

/-- The layer-halves that an operation names. -/
def KvOp.lhs (x : KvOp) : List Nat := (List.range x.n).map fun i => x.lh + i

/-- Read the sequence entry of an operation, gated. -/
def kvSeqRead (c : Fin 128) (x : KvOp) (k : KvSeq → Eff) : Eff := .look fun s =>
  kvGate c (s.kvSeqAddr c x.seq) 32 (kvRead c (s.kvSeqAddr c x.seq) 32 (kvTableFail c x) fun bs =>
    k (kvSeqOf (s.kvSeqAddr c x.seq) bs))

/-- R267, R268: start an operation: its checks, its pieces and the statuses of the layer-halves it leaves out. -/
def kvStart (c : Fin 128) (x : KvOp) (e : KvSeq) (k : KvOp → Eff) : Eff := .look fun s =>
  if x.fieldStatus ≠ ST_OK then kvFail c x.id x.fieldStatus
  else if e.flags % 2 = 0 then kvFail c x.id ST_KV_NOT_PRESENT
  else if e.nLh < x.lh + x.n ∨ 128 < x.lh + x.n then kvFail c x.id ST_BAD_ARG
  else if e.flags / 2 % 2 = 1 ∧ (x.code = 2 ∨ x.code = 3 ∨ x.code = 4 ∨ x.code = 7) then kvFail c x.id ST_BUSY
  else
    let lhs := x.lhs.filter fun lh => s.kvLhStatus c x e lh == ST_OK
    let y := { x with
      phase := 1
      todo := s.kvItems c x e lhs
      status := x.lhs.foldl (fun st lh => worst st (s.kvLhStatus c x e lh)) ST_OK }
    .all [kvSet c x.id fun _ => y, kvShow c, k y]

/-- Do the pieces of an operation one after the other; a piece that must wait goes on with nothing. -/
def kvLoop (c : Fin 128) (id : Nat) (f : KvItem → Eff → Eff) : List KvItem → Eff
  | [] => kvStop c id
  | it :: rest => f it (.all [kvUngate c, kvSet c id fun x => { x with todo := rest }, kvLoop c id f rest])

/-- Run the n-th operation of a cell as opcode `code`. -/
def kvRun (c : Fin 128) (n code : Nat) (f : KvOp → KvSeq → KvItem → Eff → Eff) : Eff := .look fun s =>
  match s.kvReady c n code with
  | none => .skip
  | some x => kvSeqRead c x fun e =>
      if x.phase = 1 then kvLoop c x.id (f x e) x.todo
      else kvStart c x e fun y => kvLoop c y.id (f y e) y.todo

/-- R239: what changes of a page's count reach: the count, and the place in its free list where the page may go. -/
def State.rcReach (s : State) (c p : Nat) : List (Nat × Nat) :=
  if ptPresent p then [(s.rcAddr c (ptRc p), 4), (s.flAddr c (flOf p) (s.get (R.KVT_FL_STATE_tail c (flOf p))), 8)] else []

/-- Read a page table entry, gated with the count of its page; a locked page makes the operation wait. -/
def kvPte (c : Fin 128) (x : KvOp) (e : KvSeq) (it : KvItem) (k : Nat → Eff) : Eff :=
  kvGate c (e.pte it.lh it.block) 8 (kvRead c (e.pte it.lh it.block) 8 (kvTableFail c x) fun bs => .look fun s =>
    if ptPresent (leNat bs) && s.kvLocked c x (leNat bs) then .skip else kvGates c (s.rcReach c (leNat bs)) (k (leNat bs)))

/-- Write a page table entry. -/
def kvPut (c : Fin 128) (x : KvOp) (e : KvSeq) (lh b p : Nat) (k : Eff) : Eff :=
  kvWrite c (e.pte lh b) (toLE 8 p) (kvTableFail c x) k

/-- Add to an operation's results. -/
def kvCount (c id r0 r1 : Nat) : Eff := kvSet c id fun x => { x with res0 := x.res0 + r0, res1 := x.res1 + r1 }

/-- R243: a walk record. -/
def walkRecord (p first n lh : Nat) : List Byte := toLE 8 p ++ toLE 4 first ++ toLE 2 n ++ toLE 2 lh

/-- Write a walk record at the next place of the operation's buffer, or count one that does not fit. -/
def kvRecord (c : Fin 128) (x : KvOp) (p first n lh : Nat) (k : Eff) : Eff := .look fun s =>
  match (s.kvtQAt c).find? fun y => y.id == x.id with
  | none => .skip
  | some y =>
    if x.bufMax ≤ y.res0 then .seq (kvCount c x.id 0 1) k
    else if 0x300000 < x.buf + 16 * y.res0 + 16 then kvFail c x.id ST_ADDR_UNMAPPED
    else sramWrite c (x.buf + 16 * y.res0) (walkRecord p first n lh) x.cls fun st =>
      if st = ST_OK then .seq (kvCount c x.id 1 0) k else kvFail c x.id st

/-- WALK of one page (R242, R243). -/
def kvWalkItem (c : Fin 128) (x : KvOp) (e : KvSeq) (it : KvItem) (k : Eff) : Eff := kvPte c x e it fun p => .look fun s =>
  let t := s.kvT c it.lh
  let first := max x.t0 (it.block * t)
  kvRecord c x p first (min (x.endTok e) ((it.block + 1) * t) - first) it.lh k

def execKvtWalk (c : Fin 128) (n : Fin 36) (s : State) : Host.Outcome State Fault Refusal :=
  (kvRun c n 1 (kvWalkItem c)).done s

/-! APPEND (R244, R252) -/

/-- Where the source record of a layer-half lies: the records of the operation's layer-halves are consecutive. -/
def State.kvSource (s : State) (c : Nat) (x : KvOp) (lh : Nat) : Nat :=
  x.buf + (List.range (lh - x.lh)).foldl (fun n i => n + s.kvR c (x.lh + i)) 0

/-- Write the record of one layer-half into its page. -/
def kvAppendRecord (c : Fin 128) (x : KvOp) (lh p : Nat) (k : Eff) : Eff := .look fun s =>
  let off := s.kvSource c x lh
  if 0x300000 < off + s.kvR c lh then .seq (kvNote c x.id ST_ADDR_UNMAPPED) k
  else sramRead c off (s.kvR c lh) x.cls fun r =>
    if r.status = ST_OK ∨ r.status = ST_POISON ∨ r.status = ST_UNCORRECTABLE then
      pageWrite c .normal p (x.t0 % s.kvT c lh * s.kvR c lh) r fun st => .seq (kvNote c x.id (copyStatus r.status st)) k
    else .seq (kvNote c x.id r.status) k

/-- The records of the layer-halves of one piece. -/
def kvAppendRecords (c : Fin 128) (x : KvOp) : List (Nat × Nat) → Eff → Eff
  | [], k => k
  | (lh, p) :: rest, k => kvAppendRecord c x lh p (kvAppendRecords c x rest k)

/-- The layer-halves of a piece. -/
def KvItem.lhs (it : KvItem) : List Nat := if it.pair then [it.lh, it.lh + 1] else [it.lh]

/-- Read the entries of the layer-halves of a piece. -/
def kvPtes (c : Fin 128) (x : KvOp) (e : KvSeq) (b : Nat) : List Nat → List (Nat × Nat) → (List (Nat × Nat) → Eff) → Eff
  | [], got, k => k got
  | lh :: rest, got, k => kvPte c x e ⟨lh, b, false⟩ fun p => kvPtes c x e b rest (got ++ [(lh, p)]) k

/-- Write the entries of newly allocated pages. -/
def kvPutNew (c : Fin 128) (x : KvOp) (e : KvSeq) (b : Nat) : List (Nat × Nat) → Eff → Eff
  | [], k => k
  | (lh, p) :: rest, k => kvPut c x e lh b p (kvPutNew c x e b rest k)

/-- The counts of entries. -/
def rcReads (c : Fin 128) (bad : Nat → Nat → Eff) : List (Nat × Nat) → List (Nat × Nat × Bool) → (List (Nat × Nat × Bool) → Eff) → Eff
  | [], got, k => k got
  | (lh, p) :: rest, got, k => rcRead c (ptRc p) bad fun n sat => rcReads c bad rest (got ++ [(lh, p, sat || decide (1 < n))]) k

/-- R252, R254: whether the bank unit of a shared page copies it by a service command. -/
def State.kvByUnit (s : State) (p : Nat) : Bool :=
  !ptExt p && s.bu (ptUnit p) != BU_FAULTED && !s.unitRetired (ptUnit p)

/-- R252: the copy of a shared page starts: a service COPY of its bank unit, kind 0 to a page of the same pseudo-channel, or
the page mover. -/
def kvCopyStart (c : Nat) (x : KvOp) (lh b old new : Nat) : Eff := .look fun s =>
  let byUnit := s.kvByUnit old
  let near := ptUnit old == ptUnit new
  .seq (kvSet c x.id fun y => { y with copies := y.copies ++ [⟨lh, b, old, new, if byUnit then some s.tagNext else none, none⟩] })
    (Eff.when byUnit (buEnqueue (ptUnit old) ⟨s.tagNext, 0, 4, if near then 0 else 16, 0, 0,
      [ptPpn old % 1024 * 65536, if near then ptPpn new % 1024 * 65536 else pageAt new 0, 65536, 0, 0, 0, 0],
      none, 0, false, false, false, false, none, some c⟩))

/-- Start the copies of the shared pages of a piece. -/
def kvCopies (c : Nat) (x : KvOp) (b : Nat) : List (Nat × Nat) → List Nat → Eff
  | (lh, old) :: rest, new :: news => .seq (kvCopyStart c x lh b old new) (kvCopies c x b rest news)
  | _, _ => .skip

/-- R252: the present entries of a piece: owned pages lose cow; shared pages are locked and their copies start; with nothing to
copy the records are written in place. With no page free nothing changes (R254). -/
def kvAppendPresent (c : Fin 128) (x : KvOp) (e : KvSeq) (it : KvItem) (ps : List (Nat × Nat)) (k : Eff) : Eff :=
  rcReads c (kvTableFail c x) (ps.filter fun q => ptCow q.2) [] fun rs => .look fun s =>
    let shared := (rs.filter fun r => r.2.2).map fun r => (r.1, r.2.1)
    let owned := (rs.filter fun r => !r.2.2).map fun r => (r.1, ptMake r.2.1 1 0 (if ptGlobal r.2.1 then 1 else 0))
    if shared.isEmpty then
      kvPutNew c x e it.block owned (kvGates c (ps.map fun q => (pageAt q.2 (x.t0 % s.kvT c q.1 * s.kvR c q.1), 1))
        (kvAppendRecords c x ps k))
    else if shared.any fun q => s.kvByUnit q.2 && !s.buRoom (ptUnit q.2) then .skip
    else kvPref c e (shared.getD 0 (0, 0)).1 it.block (kvTableFail c x) fun pref =>
      let pref := match ps.find? fun q => q.1 % 2 == 0 && !ptExt q.2 with
        | some q => ptUnit q.2 % 8
        | none => pref
      takeVault c pref shared.length true x.thread (kvTableFail c x) fun news =>
        if news.isEmpty then .seq (kvNote c x.id ST_KV_NO_PAGE) k
        else kvPutNew c x e it.block owned (.all [
          kvSet c x.id fun y => { y with locks := ps.map fun q => ptPage q.2 },
          addSat (R.KVT_COWS_count c) shared.length,
          kvCopies c x it.block shared news])

/-- R244: the pages of a piece that are not present are allocated, as far as pages are free, then the piece goes on with those
present: a layer-half without a page writes nothing. -/
def kvAppendItem (c : Fin 128) (x : KvOp) (e : KvSeq) (it : KvItem) (k : Eff) : Eff :=
  kvPtes c x e it.block it.lhs [] fun ps => .look fun s =>
    let absent := ps.filter fun q => !ptPresent q.2
    if absent.isEmpty then kvAppendPresent c x e it ps k
    else kvPref c e it.lh it.block (kvTableFail c x) fun pref =>
      let pref := match ps.find? fun q => ptPresent q.2 && !ptExt q.2 with
        | some q => ptUnit q.2 % 8
        | none => if it.pair then s.kvHome c it.lh it.block else pref
      takeVault c pref absent.length false x.thread (kvTableFail c x) fun news =>
        let new := (absent.zip news).map fun q => (q.1.1, ptMake q.2 1 0 (if ptGlobal q.1.2 then 1 else 0))
        let all' := (ps.map fun q => match new.find? fun r => r.1 == q.1 with | some r => r | none => q).filter fun q => ptPresent q.2
        kvPutNew c x e it.block new (.all [
          addSat (R.KVT_ALLOCS_count c) new.length,
          kvCount c x.id new.length 0,
          Eff.when (decide (new.length < absent.length)) (kvNote c x.id ST_KV_NO_PAGE),
          if all'.isEmpty then k else kvAppendPresent c x e it all' k])

def execKvtAppend (c : Fin 128) (n : Fin 36) (s : State) : Host.Outcome State Fault Refusal :=
  (kvRun c n 2 (kvAppendItem c)).done s

/-- The page mover does the copies that no service command did; the continuation gets the status of all. -/
def kvMoves (c : Fin 128) : List KvCopy → Nat → (Nat → Eff) → Eff
  | [], st, k => k st
  | y :: rest, st, k =>
    if y.done = some ST_OK ∨ y.done = some ST_POISON ∨ y.done = some ST_BU_FORCED_YIELD then
      kvMoves c rest (worst st (if y.done = some ST_POISON then ST_POISON else ST_OK)) k
    else pageMove c y.old y.new fun st' => kvMoves c rest (worst st st') k

/-- R252 steps 5 and 6: the entries name the new pages and the old counts fall by 1. -/
def kvRepoint (c : Fin 128) (x : KvOp) (e : KvSeq) : List KvCopy → Eff → Eff
  | [], k => k
  | y :: rest, k => kvPut c x e y.lh y.block (ptMake y.new 1 0 (if ptGlobal y.old then 1 else 0))
      (rcDec c (ptRc y.old) (kvTableFail c x) fun _ => kvRepoint c x e rest k)

/-- COW_COPY_COMPLETE (R252): the copies of the n-th operation's piece are complete. -/
def cowCopyComplete (c : Fin 128) (n : Nat) : Eff := .look fun s =>
  match (s.kvtQAt c)[n]? with
  | none => .skip
  | some x =>
    match x.todo with
    | [] => .skip
    | it :: rest =>
      if x.code ≠ 2 ∨ x.copies.isEmpty ∨ x.copies.any (fun y => y.cmd.isSome && y.done.isNone) then .skip
      else kvSeqRead c x fun e => kvGates c
        ((x.copies.flatMap fun y => [(pageAt y.old 0, 1), (pageAt y.new 0, 1)]) ++ it.lhs.map fun lh => (e.pte lh it.block, 8))
        (kvMoves c x.copies ST_OK fun st => .seq (kvNote c x.id st) (kvRepoint c x e x.copies (.all [
          kvSet c x.id fun y => { y with copies := [], locks := [], todo := rest, res1 := y.res1 + x.copies.length },
          kvPtes c { x with copies := [], locks := [] } e it.block it.lhs [] fun ps => kvAppendRecords c x (ps.filter fun q => ptPresent q.2) (.all [
            kvUngate c, kvLoop c x.id (kvAppendItem c { x with copies := [], locks := [] } e) rest])])))

def execCowCopyComplete (c : Fin 128) (n : Fin 36) (s : State) : Host.Outcome State Fault Refusal :=
  (cowCopyComplete c n).done s

/-! SHARE and RELEASE (R249–R251) -/

/-- Whether the entries of a sequence for pieces are all not present. -/
def kvAllAbsent (c : Fin 128) (x : KvOp) (e : KvSeq) : List KvItem → (Bool → Eff) → Eff
  | [], k => k true
  | it :: rest, k => kvGate c (e.pte it.lh it.block) 8 (kvRead c (e.pte it.lh it.block) 8 (kvTableFail c x) fun bs =>
      if ptPresent (leNat bs) then k false else kvAllAbsent c x e rest k)

/-- R249: share one page of `src` with `e`. -/
def kvShareItem (c : Fin 128) (x : KvOp) (e src : KvSeq) (it : KvItem) (k : Eff) : Eff := kvPte c x src it fun p =>
  if !ptPresent p then k
  else
    let q := ptMake p 1 1 (if ptGlobal p then 1 else 0)
    kvGate c (e.pte it.lh it.block) 8 (kvPut c x src it.lh it.block q (kvPut c x e it.lh it.block q
      (rcInc c (ptRc p) (kvTableFail c x) fun sat =>
        .seq (Eff.when sat (kvNote c x.id ST_KV_REFCOUNT_SAT)) k)))

/-- SHARE (R249): the requirements are checked once, before any page is shared. -/
def kvShare (c : Fin 128) (n : Nat) : Eff := .look fun s =>
  match s.kvReady c n 3 with
  | none => .skip
  | some x => kvSeqRead c x fun e => kvSeqRead c { x with desc := x.desc.set 4 (x.desc.getD 22 0) |>.set 5 (x.desc.getD 23 0) } fun src =>
      let go := fun (y : KvOp) => kvLoop c y.id (kvShareItem c y e src) y.todo
      if x.checked then go x
      else kvStart c x e fun y =>
        if src.flags % 2 = 0 ∨ src.nLh ≠ e.nLh ∨ src.ppl ≠ e.ppl then kvFail c x.id ST_BAD_ARG
        else kvAllAbsent c y e y.todo fun ok =>
          if ok then .seq (kvSet c x.id fun z => { z with checked := true }) (go { y with checked := true })
          else kvFail c x.id ST_BAD_ARG

def execKvtShare (c : Fin 128) (n : Fin 36) (s : State) : Host.Outcome State Fault Refusal := (kvShare c n).done s

/-- RELEASE of one page (R250). -/
def kvReleaseItem (c : Fin 128) (x : KvOp) (e : KvSeq) (it : KvItem) (k : Eff) : Eff := kvPte c x e it fun p =>
  if !ptPresent p then k
  else kvPut c x e it.lh it.block (p - 1) (pageDrop c p (kvTableFail c x) (.seq (kvCount c x.id 1 0) k))

def execKvtRelease (c : Fin 128) (n : Fin 36) (s : State) : Host.Outcome State Fault Refusal :=
  (kvRun c n 4 (kvReleaseItem c)).done s

/-! MARK (R257) -/

/-- Queue a page for a move at the next edge. -/
def kvQueueMove (c : Nat) (m : KvMove) : Eff := .look fun s => .seq (.upd (.kvtMigQ c (s.kvtMigQAt c ++ [m]))) (kvShow c)

/-- MARK in one layer-half. The entry's globals change with the first page marked. -/
def kvMarkItem (c : Fin 128) (x : KvOp) (e : KvSeq) (it : KvItem) (k : Eff) : Eff := kvPte c x e it fun p => .look fun s =>
  let set := x.flags / 2 % 2 == 1
  let counted := ((s.kvtQAt c).find? fun y => y.id == x.id).elim true fun y => y.checked
  if !counted && set && decide (256 ≤ e.globals) then kvFail c x.id ST_BAD_ARG
  else if !ptPresent p then .seq (kvNote c x.id ST_KV_NOT_PRESENT) k
  else
    let q := ptMake p 1 (if ptCow p then 1 else 0) (if set then 1 else 0) + p / 2 ^ 46 % 2 * 2 ^ 46
    let go := kvPut c x e it.lh it.block q (.seq
      (Eff.when (set && ptExt p) (kvQueueMove c ⟨x.seq, it.lh, it.block, 0, x.thread, p, 0⟩)) k)
    if counted then go
    else kvWrite c (e.addr + 12) (toLE 2 (if set then e.globals + 1 else e.globals - 1)) (kvTableFail c x)
      (.seq (kvSet c x.id fun y => { y with checked := true }) go)

def execKvtMark (c : Fin 128) (n : Fin 36) (s : State) : Host.Outcome State Fault Refusal :=
  (kvRun c n 5 (kvMarkItem c)).done s

/-! STAGE (R259) -/

/-- The tokens of a block that lie in the region. -/
def State.kvTokens (s : State) (c : Nat) (e : KvSeq) (lh b : Nat) : Nat := min e.maxTok ((b + 1) * s.kvT c lh) - b * s.kvT c lh

/-- STAGE of one layer-half: a record of a page in the vault or not present, or a vault page for a copy of an external one. -/
def kvStageItem (c : Fin 128) (x : KvOp) (e : KvSeq) (it : KvItem) (k : Eff) : Eff := kvPte c x e it fun p => .look fun s =>
  let first := it.block * s.kvT c it.lh
  let n := s.kvTokens c e it.lh it.block
  if !(ptPresent p && ptExt p) then kvRecord c x p first n it.lh k
  else kvPref c e it.lh it.block (kvTableFail c x) fun pref => takeVault c pref 1 true x.thread (kvTableFail c x) fun news =>
    if news.isEmpty then .seq (kvNote c x.id ST_KV_NO_PAGE) (kvRecord c x (p - 1) first n it.lh k)
    else kvSet c x.id fun y => { y with
        copies := [⟨it.lh, it.block, p, ptMake (news.getD 0 0) 1 1 (if ptGlobal p then 1 else 0), none, none⟩]
        locks := [ptPage p] }

def execKvtStage (c : Fin 128) (n : Fin 36) (s : State) : Host.Outcome State Fault Refusal :=
  (kvRun c n 6 (kvStageItem c)).done s

/-- STAGE_COPY_COMPLETE (R259): the page mover has copied the page; the KVT writes the walk record of the copy. -/
def stageCopyComplete (c : Fin 128) (n : Nat) : Eff := .look fun s =>
  match (s.kvtQAt c)[n]? with
  | none => .skip
  | some x =>
    match x.todo, x.copies with
    | it :: rest, y :: _ =>
      if x.code ≠ 6 then .skip
      else kvSeqRead c x fun e => kvGates c [(pageAt y.new 0, 1)] (pageMove c y.old y.new fun st => .all [
        kvNote c x.id st,
        addSat (R.KVT_STAGES_count c) 1,
        .look fun s => .upd (.kvtStaged c (s.kvtStagedAt c ++ [⟨x.seq, it.lh, it.block, y.new, 0⟩])),
        kvSet c x.id fun z => { z with copies := [], locks := [], todo := rest },
        kvShow c,
        kvRecord c x y.new (it.block * s.kvT c it.lh) (s.kvTokens c e it.lh it.block) it.lh (.all [
          kvUngate c, kvLoop c x.id (kvStageItem c { x with copies := [], locks := [] } e) rest])])
    | _, _ => .skip

def execStageCopyComplete (c : Fin 128) (n : Fin 36) (s : State) : Host.Outcome State Fault Refusal :=
  (stageCopyComplete c n).done s

/-! Migration (R261, R262) -/

/-- MIGRATE of one page: queued, or skipped. -/
def kvMigrateItem (c : Fin 128) (x : KvOp) (e : KvSeq) (it : KvItem) (k : Eff) : Eff := kvPte c x e it fun p =>
  let tier := x.aux % 2
  if !ptPresent p then k
  else rcRead c (ptRc p) (kvTableFail c x) fun n _ =>
    if 1 < n ∨ (ptGlobal p ∧ tier = 1) ∨ (ptExt p = (tier == 1)) then .seq (kvCount c x.id 0 1) k
    else .all [kvQueueMove c ⟨x.seq, it.lh, it.block, tier, x.thread, p, 0⟩, kvCount c x.id 1 0, k]

def execKvtMigrate (c : Fin 128) (n : Fin 36) (s : State) : Host.Outcome State Fault Refusal :=
  (kvRun c n 7 (kvMigrateItem c)).done s

/-- The sequence entry of a page that moves. -/
def kvMoveSeq (c : Fin 128) (m : KvMove) (k : KvSeq → Eff) : Eff := .look fun s =>
  kvRead c (s.kvSeqAddr c m.seq) 32 (fun a st => kvFault c m.thread a st) fun bs =>
    k (kvSeqOf (s.kvSeqAddr c m.seq) bs)

/-- R261 steps 4 and 5: the entry names the new page and keeps its flags; the old page is freed at the following edge. -/
def kvMoveEnd (c : Fin 128) (m : KvMove) (pte : Nat) : Eff := kvWrite c pte
  (toLE 8 (ptMake m.new 1 (if ptCow m.old then 1 else 0) (if ptGlobal m.old then 1 else 0))) (fun a st => kvFault c m.thread a st) (.all [
    addSat (R.KVT_MOVES_count c) 1,
    .look fun s => .upd (.kvtFrees c (s.kvtFreesAt c ++ [m.old]))])

/-- MIGRATION_COPY_COMPLETE (R261): the oldest moving page of a cell has been copied. -/
def migrationCopyComplete (c : Fin 128) : Eff := .look fun s =>
  match s.kvtMovesAt c with
  | [] => .skip
  | m :: rest => kvGates c [(pageAt m.old 0, 1), (pageAt m.new 0, 1)] (pageMove c m.old m.new fun st => .all [
      Eff.when (st != ST_OK) (kvFault c m.thread (pageAt m.old 0) st),
      .upd (.kvtMoves c rest),
      kvMoveSeq c m fun e => kvMoveEnd c m (e.pte m.lh m.block),
      kvUngate c])

def execMigrationCopyComplete (c : Fin 128) (s : State) : Host.Outcome State Fault Refusal := (migrationCopyComplete c).done s

/-- What a move reads and changes before its page moves (R239). -/
def kvMoveReach (s : State) (c : Nat) (m : KvMove) : List (Nat × Nat) :=
  let e := kvSeqOf (s.kvSeqAddr c m.seq) (s.bytes (s.kvSeqAddr c m.seq) 32)
  [(s.kvSeqAddr c m.seq, 32), (e.pte m.lh m.block, 8), (e.pte (Nat.xor m.lh 1) m.block, 8)] ++
    s.flReach c (if m.tier = 1 then [8] else flOrder (s.kvHome c m.lh m.block))

/-- A queued move that cannot start yet stays queued, before those of later edges. -/
def kvMoveKeep (c : Fin 128) (later : Nat) (m : KvMove) : Eff := .look fun s =>
  let q := s.kvtMigQAt c
  .upd (.kvtMigQ c (q.take (q.length - later) ++ m :: q.drop (q.length - later)))

/-- R261: a queued page as its entry stands at the edge: it is left when it is no longer present, has the target tier, is global
and would be demoted (R257) or moves already; it stays queued while an operation holds it locked, or while a PROCESSOR-mode
pseudo-channel holds its tables; and a staged copy is taken over. Otherwise it goes on with its entry. -/
def kvMoveLook (c : Fin 128) (later : Nat) (m : KvMove) (no : Eff) (k : Nat → Nat → Eff) : Eff := .look fun s =>
  if !s.gatesOpen (.kvt c) (kvMoveReach s c m) then .seq (kvMoveKeep c later m) no
  else kvMoveSeq c m fun e =>
    let pte := e.pte m.lh m.block
    kvRead c pte 8 (fun a st => .seq (kvFault c m.thread a st) no) fun bs => .look fun s =>
      let p := leNat bs
      if !ptPresent p ∨ ptExt p = (m.tier == 1) ∨ (ptGlobal p ∧ m.tier = 1) ∨ (s.kvtMovesAt c).any (fun y => ptPage y.old == ptPage p) then no
      else if (s.kvtQAt c).any (fun y => y.locks.contains (ptPage p)) then .seq (kvMoveKeep c later m) no
      else match if m.tier = 0 then (s.kvtStagedAt c).find? fun y => y.seq == m.seq && y.lh == m.lh && y.block == m.block else none with
        | some y => .all [.upd (.kvtStaged c ((s.kvtStagedAt c).erase y)), kvMoveEnd c { m with old := p, new := y.entry } pte, no]
        | none => k pte p

/-- R261 steps 1 and 2: the page is marked moving, with its new page; without a free page the move is dropped and the KV event
reports it. -/
def kvMoveTo (c : Fin 128) (m : KvMove) (pte p : Nat) (new : Option Nat) : Eff :=
  match new with
  | none => .all [kvLast c m.thread ST_KV_NO_PAGE, kvFault c m.thread (pageAt p 0) ST_KV_NO_PAGE, evFire (c * 8 + 6)]
  | some new => kvWrite c pte (toLE 8 (p % 2 ^ 46 + 2 ^ 46)) (fun a st => kvFault c m.thread a st)
      (.look fun s => .upd (.kvtMoves c (s.kvtMovesAt c ++ [{ m with old := p, new := new }])))

/-- R261 at the edge: one page gets a page of its target tier. -/
def kvMoveOne (c : Fin 128) (m : KvMove) (e : KvSeq) (pte p : Nat) : Eff :=
  let bad := fun a st => kvFault c m.thread a st
  if m.tier = 1 then takeExt c m.thread bad fun got => kvMoveTo c m pte p got.head?
  else kvPref c e m.lh m.block bad fun pref => takeVault c pref 1 true m.thread bad fun got => kvMoveTo c m pte p got.head?

/-- The partner of a page that moves into the vault, among the moves that start with it (R244). -/
def KvMove.partner (m : KvMove) (ms : List KvMove) : Option KvMove :=
  ms.find? fun q => m.tier == 0 && q.tier == 0 && q.seq == m.seq && q.block == m.block && q.lh == Nat.xor m.lh 1

/-- R261: the moves of an edge start in queue order, the K and V pages of a block that both go into the vault as a pair. -/
def kvMovesStart (c : Fin 128) (later : Nat) : Nat → List KvMove → Eff
  | 0, _ => .skip
  | _, [] => .skip
  | fuel + 1, m :: rest =>
    let single := kvMoveLook c later m .skip fun pte p => kvMoveSeq c m fun e => kvMoveOne c m e pte p
    match m.partner rest with
    | none => .seq single (kvMovesStart c later fuel rest)
    | some q => .seq
        (kvMoveLook c later m (kvMoveLook c later q .skip fun pte p => kvMoveSeq c q fun e => kvMoveOne c q e pte p) fun pte p =>
          kvMoveLook c later q (kvMoveSeq c m fun e => kvMoveOne c m e pte p) fun pte' p' => .look fun s =>
            takeVault c (s.kvHome c m.lh m.block) 2 false m.thread (fun a st => kvFault c m.thread a st) fun got =>
              .seq (kvMoveTo c m pte p got.head?) (kvMoveTo c q pte' p' got[1]?))
        (kvMovesStart c later fuel (rest.erase q))

/-- Step 6 of a tide edge (R46, R259, R261): pages moved at the edge before are freed, staged copies of the second edge are
returned unless their page is queued for promotion, and up to mig_max queued pages start to move. -/
def kvEdge (c : Fin 128) : Eff := .look fun s =>
  let max' := s.get (R.KVT_MIG_mig_max c)
  let later := (s.kvtMigQAt c).drop max'
  let now := (s.kvtMigQAt c).take max'
  .all [
    .upd (.kvtFrees c []),
    Eff.each (s.kvtFreesAt c) fun p => pageDrop c p (fun a st => kvFault c none a st) .skip,
    .upd (.kvtMigQ c later),
    kvMovesStart c later.length now.length now,
    .look fun s =>
      let aged := (s.kvtStagedAt c).map fun y => { y with age := y.age + 1 }
      let back := aged.filter fun y => decide (2 ≤ y.age) &&
        !((s.kvtMigQAt c).any fun m => m.tier == 0 && m.seq == y.seq && m.lh == y.lh && m.block == y.block)
      .seq (.upd (.kvtStaged c (aged.filter fun y => !back.contains y)))
        (Eff.each back fun y => pageDrop c y.entry (fun a st => kvFault c none a st) .skip),
    kvShow c]

/-! Evacuation (R266, R267) -/

/-- The header of a streamed page. -/
def State.evacHeader (s : State) (x : KvOp) (it : KvItem) (p : Nat) (many poisoned : Bool) : List Byte :=
  toLE 4 0x50564B5A ++ toLE 2 x.seq ++ toLE 1 it.lh ++
    toLE 1 ((if ptCow p then 1 else 0) + (if ptGlobal p then 2 else 0) + (if many then 4 else 0) + (if poisoned then 8 else 0)) ++
    toLE 4 it.block ++ toLE 4 (ptRc p) ++ toLE 8 (s.get R.LCY_SERIAL_LO_serial) ++ toLE 8 (s.get R.LCY_SERIAL_HI_serial) ++
    List.replicate 32 0

/-- R459: a page sent to another module carries its poisoned words as zero. -/
def zeroBad (r : Resp) : List Byte := (List.range r.data.length).map fun i =>
  if ((r.bad.drop (i / 8 * 8)).take 8).any id then 0 else r.data.getD i 0

/-- The WRITE packets of bytes for another module (R404, R413). -/
def evacPackets (c : Fin 128) (x : KvOp) (a : Nat) (bs : List Byte) : Eff := Eff.each (List.range ((bs.length + 2047) / 2048)) fun i =>
  gwSend 0x01 3 x.dest (a + 2048 * i + 0xFFFF * 2 ^ 48) ((bs.drop (2048 * i)).take 2048) none (some (8 + x.id))
    (kvNote c x.id ST_REMOTE_UNREACHABLE)

/-- Stream the header and a page to the destination. -/
def evacStream (c : Fin 128) (x : KvOp) (a : Nat) (head : List Byte) (r : Resp) (k : Eff) : Eff :=
  if x.dest = 0xFFFF then
    memWriteAs x.cls .stream a head fun st _ =>
      readParts (fun o n k => memWriteAs x.cls .stream (a + 64 + o) ((r.data.drop o).take n)
          fun st _ => k ⟨st, [], []⟩) (splitBy 128 514 0 65536) ⟨st, [], []⟩ fun w => .all [
        Eff.when (w.status == ST_OK) (Eff.each (List.range 8192) fun i =>
          Eff.when (((r.bad.drop (8 * i)).take 8).any id) (poisonWord (a + 64 + 8 * i) (leAt r.data (8 * i) 8))),
        kvNote c x.id w.status,
        snoop 6 0 c (at_ a (head ++ r.data)),
        k]
  else .all [
    evacPackets c x a head,
    evacPackets c x (a + 64) (zeroBad r),
    snoop 6 0 c (at_ a (head ++ zeroBad r)),
    k]

/-- EVACUATE of one page. -/
def kvEvacuateItem (c : Fin 128) (x : KvOp) (e : KvSeq) (it : KvItem) (k : Eff) : Eff := kvPte c x e it fun p =>
  if !ptPresent p then k
  else kvGate c (pageAt p 0) 1 (rcRead c (ptRc p) (kvTableFail c x) fun n _ =>
    pageRead c .stream p 0 65536 fun r => .look fun s =>
      let done := ((s.kvtQAt c).find? fun y => y.id == x.id).elim 0 fun y => y.res0
      let plain := r.status = ST_OK ∨ r.status = ST_POISON ∨ r.status = ST_UNCORRECTABLE
      .seq (kvNote c x.id (if plain then ST_OK else r.status))
        (evacStream c x (x.dst + done * 65600) (s.evacHeader x it p (decide (1 < n)) (r.taint.bad.any id)) r.taint
          (.seq (kvCount c x.id 1 0) k)))

/-- EVACUATE: the entry is marked evacuating while it runs. -/
def kvEvacuate (c : Fin 128) (n : Nat) : Eff := .look fun s =>
  match s.kvReady c n 8 with
  | none => .skip
  | some x => kvSeqRead c x fun e =>
      let go := fun (y : KvOp) => kvLoop c y.id (kvEvacuateItem c y e) y.todo
      if x.phase = 1 then go x
      else kvStart c x e fun y => kvWrite c (e.addr + 11) [BitVec.ofNat 8 (Nat.lor e.flags 2)] (kvTableFail c x)
        (.seq (kvSet c x.id fun z => { z with checked := true }) (go { y with checked := true }))

def execKvtEvacuate (c : Fin 128) (n : Fin 36) (s : State) : Host.Outcome State Fault Refusal := (kvEvacuate c n).done s

/-! Completion (R240, R245) -/

/-- The results that a completion writes: where R241 and R242 name no result, it is undefined, but
that a RELEASE which dropped nothing has res0 = 0 (R268). -/
def kvResults (code r0 r1 : Nat) (k : Nat → Nat → Eff) : Eff :=
  match code with
  | 1 | 2 | 6 | 7 => k r0 r1
  | 8 => withFree fun v => k r0 (v.toNat % 2 ^ 32)
  | 4 => withFree fun v => withFree fun w => k (if r0 = 0 then 0 else v.toNat % 2 ^ 32) (w.toNat % 2 ^ 32)
  | _ => withFree fun v => withFree fun w => k (v.toNat % 2 ^ 32) (w.toNat % 2 ^ 32)

/-- An operation leaves the KVT: its status and results go to its descriptor, done_pbx is signalled. -/
def kvComplete (c : Nat) (x : KvOp) (st : Nat) : Eff := .all [
  .look fun s => .upd (.kvtQ c ((s.kvtQAt c).filter fun y => y.id != x.id)),
  Eff.when (st != ST_OK) (kvLast c x.thread st),
  (match x.off with
   | some off => kvResults x.code x.res0 x.res1 fun r0 r1 =>
       sramWrite c (off + 3) (toLE 1 st) x.cls fun _ => sramWrite c (off + 24) (toLE 4 r0 ++ toLE 4 r1) x.cls fun _ => .skip
   | none => .upd (.kvtEnd x.id (some (st, x.res0, x.res1)))),
  Eff.when (x.flags % 2 == 1 && decide (byteAt x.desc 2 < 48)) (sendSignal (srcKvt c) c (c * 48 + byteAt x.desc 2) 1),
  kvShow c]

/-- KVT_OPERATION_COMPLETE: the n-th operation has finished its accesses and every packet of its stream is acknowledged. -/
def kvtOperationComplete (c : Fin 128) (n : Nat) : Eff := .look fun s =>
  match (s.kvtQAt c)[n]? with
  | none => .skip
  | some x =>
    if x.phase ≠ 2 ∨ s.gwOut.any (fun p => p.queue == some (8 + x.id)) then .skip
    else .seq
      (Eff.when (x.code == 8 && x.checked) (kvRead c (s.kvSeqAddr c x.seq + 11) 1 (fun a st => kvFault c x.thread a st) fun bs =>
        kvWrite c (s.kvSeqAddr c x.seq + 11) [BitVec.ofNat 8 (byteAt bs 0 / 4 * 4 + byteAt bs 0 % 2)]
          (fun a st => kvFault c x.thread a st) .skip))
      (kvComplete c x x.status)

def execKvtOperationComplete (c : Fin 128) (n : Fin 36) (s : State) : Host.Outcome State Fault Refusal :=
  (kvtOperationComplete c n).done s

/-- A status that a packet of an EVACUATE stream came back with. -/
def kvAcked (id st : Nat) : Eff := Eff.when (st != ST_OK) (Eff.each (List.range 128) fun c => kvNote c id st)

/-- Every unstarted operation of a KVT completes with a status. -/
def kvEndQueued (c st : Nat) : Eff := .look fun s => Eff.each ((s.kvtQAt c).filter fun x => x.phase == 0) fun x => kvComplete c x st

/-- KVT_ABORT (R268): unstarted operations complete; running ones end with their current page. -/
def kvAbort (c : Nat) : Eff := .seq (kvEndQueued c ST_ABORTED) (.look fun s =>
  Eff.each ((s.kvtQAt c).filter fun x => x.phase == 1) fun x =>
    .seq (kvNote c x.id ST_ABORTED)
      (if x.copies.isEmpty then kvStop c x.id else kvSet c x.id fun y => { y with todo := y.todo.take 1 }))

def actKvtAbort (who : Agent) (c : Nat) : Act := guardAct who (c * 16 + 6) 0 fun _ => (ST_OK, kvAbort c)

def execKvtAbort (who : Agent) (c : Fin 128) (s : State) : Host.Outcome State Fault Refusal :=
  (runAct who (actKvtAbort who c)).done s

/-- KVT_FL_PUSH (R247). -/
def actKvtFlPush (who : Agent) (c : Fin 128) (i p : Nat) : Act := guardAct who (c * 16 + 6) (0x818 + i * 0x20) fun _ =>
  (ST_OK, flPush c i p fun ok => Eff.when (!ok) (kvLast c (agentThread who) ST_BUSY))

def execKvtFlPush (who : Agent) (c : Fin 128) (i : Fin 9) (entry : Word) (s : State) : Host.Outcome State Fault Refusal :=
  (runAct who (actKvtFlPush who c i entry.toNat)).done s

end Sys2Proof.Machine
end

