-- ==== Sys2Proof/Machine/HostCmds.lean ====
section
/-! DEFINITION. Host commands on memory, KV caches, scrubs and monitors (13_host_interface.md R361–R364): copies, KV_OP, EVACUATE,
SCRUB, MONITOR_READ, THERMAL_SET and RESET. A command that must wait keeps its place: the environment sends its row again. -/

namespace Sys2Proof.Machine

/-- Start a command or go on with a running one. -/
def hostGo (n op : Nat) (start go : HCmd → Eff) : Eff := .look fun s =>
  match s.cmds[n]? with
  | some x => if x.op = op ∧ x.phase = 1 then go x else hostStart n op start
  | none => .skip

/-- A command has started. -/
def hcRun (id : Nat) : Eff := hcSet id fun x => { x with phase := 1 }

/-! Copies (R361, R364) -/

/-- The hint of a hint byte (byte 6 of R177). -/
def hintOf (b : Nat) : Hint :=
  match b % 4 with
  | 0 => .normal
  | 1 => .stream
  | 2 => .keep ⟨b / 4 % 8, Nat.mod_lt _ (by decide)⟩
  | _ => .lastUse

/-- The arguments of a copy are in their ranges. -/
def HCmd.copyOk (x : HCmd) : Bool :=
  decide (1 ≤ x.arg 24 8) && decide (x.arg 24 8 ≤ 2 ^ 32) && decide (x.arg 32 1 < 32)

/-- The granules of a copy that are left. -/
def HCmd.copyParts (x : HCmd) : List (Nat × Nat) :=
  splitBy 64 ((x.arg 24 8 - x.pos) / 64 + 2) (x.arg 16 8 + x.pos) (x.arg 24 8 - x.pos)

/-- R28, R32: the status of a copy's access before memory is looked at; a granule of register space has no allowed size. -/
def State.copyStatus (s : State) (a n : Nat) : Nat :=
  if s.mapStatus a n ≠ ST_OK then s.mapStatus a n
  else match regionOf a with
  | .regs _ _ => ST_ALIGN
  | _ => ST_OK

/-- COPY_TO_DEVICE of the granules that are left; the host does not answer with data from byte `upto` on, if it does not. -/
def copyTo (x : HCmd) (answer upto : Nat) : List (Nat × Nat) → Eff
  | [] => hcFinish x.id ST_OK (x.arg 24 8)
  | (g, n) :: rest => .look fun s =>
    let done := g - x.arg 16 8
    if answer ≠ 0 ∧ upto < done + n then hcFinish x.id (if answer = 1 then ST_TIMEOUT else ST_ADDR_UNMAPPED) done
    else if s.copyStatus g n ≠ ST_OK then hcFinish x.id (s.copyStatus g n) done
    else whenFree (.core 0) g n (.look fun s =>
      let bs := s.hostBytes (hostKey x.port (x.arg 8 8 + done)) n
      .seq (snoop 2 0 x.port (at_ g bs)) (memWriteAs (10, x.port) (hintOf (x.arg 32 1)) g bs fun st _ =>
        if st ≠ ST_OK then hcFinish x.id st done
        else .seq (hcSet x.id fun y => { y with pos := done + n }) (copyTo x answer upto rest)))

/-- COPY_TO_DEVICE. -/
def copyToDevice (n answer upto : Nat) : Eff := .look fun s =>
  match s.cmds[n]? with
  | none => .skip
  | some y => Eff.when (s.linkUp y.port) (hostGo n 0x40
      (fun x => if !x.copyOk then hcFinish x.id ST_BAD_ARG 0 else .seq (hcRun x.id) (copyTo x answer upto x.copyParts))
      (fun x => copyTo x answer upto x.copyParts))

def execCopyToDevice (n : Fin 2048) (answer : Fin 3) (upto : BitVec 33) (s : State) : Host.Outcome State Fault Refusal :=
  (copyToDevice n answer upto.toNat).done s

/-- COPY_FROM_DEVICE of the granules that are left; the read of the one that holds byte `coll` collides, if it lies in SRAM. -/
def copyFrom (x : HCmd) (coll : Option Nat) : List (Nat × Nat) → Eff
  | [] => hcFinish x.id ST_OK (x.arg 24 8)
  | (g, n) :: rest => .look fun s =>
    let done := g - x.arg 16 8
    let hit := (match regionOf g with | .sram _ _ | .setAlias _ _ | .clrAlias _ _ => true | _ => false) &&
      coll.any fun b => decide (done ≤ b ∧ b < done + n)
    let give (bs : List Byte) : Eff := .all [
      snoop 2 1 x.port (at_ g bs),
      pokeHost x.port (x.arg 8 8 + done) bs,
      hcSet x.id fun y => { y with pos := done + n, coll := y.coll || hit },
      copyFrom x coll rest]
    if s.copyStatus g n ≠ ST_OK then hcFinish x.id (s.copyStatus g n) done
    else whenFree (.core 0) g n (memReadAs (10, x.port) (hintOf (x.arg 32 1)) g n fun r =>
      if r.status ≠ ST_OK then hcFinish x.id r.status done
      else if hit then .seq (countCollisions g 10 1) (withFreeBytes n give)
      else give r.data)

/-- COPY_FROM_DEVICE. -/
def copyFromDevice (n : Nat) (coll : Option Nat) : Eff := .look fun s =>
  match s.cmds[n]? with
  | none => .skip
  | some y => Eff.when (s.linkUp y.port) (hostGo n 0x41
      (fun x => if !x.copyOk then hcFinish x.id ST_BAD_ARG 0 else .seq (hcRun x.id) (copyFrom x coll x.copyParts))
      (fun x => copyFrom x coll x.copyParts))

def execCopyFromDevice (n : Fin 2048) (collided : Option (BitVec 33)) (s : State) : Host.Outcome State Fault Refusal :=
  (copyFromDevice n (collided.map fun b => b.toNat)).done s

/-! KVT operations of the firmware -/

/-- Submit an operation that the firmware keeps, for a command. -/
def kvForCmd (id c : Nat) (dest : Nat) (desc : List Byte) : Eff := .look fun s => .all [
  hcSet id fun x => { x with phase := 1, ops := x.ops ++ [(c, s.tagNext)] },
  kvEnqueue c { kvOp s.tagNext none none (9, 0xFF) desc with dest := dest }]

/-- The operations of a command have all finished. -/
def State.kvAllEnd (s : State) (x : HCmd) : Bool := x.ops.all fun o => (s.kvtEndAt o.2).isSome

/-- The first failure of a command's operations. -/
def State.kvEndStatus (s : State) (x : HCmd) : Nat := x.ops.foldl (fun st o => worst st ((s.kvtEndAt o.2).getD (ST_OK, 0, 0)).1) ST_OK

/-- The sum of their res0. -/
def State.kvEndSum (s : State) (x : HCmd) : Nat := x.ops.foldl (fun n o => n + ((s.kvtEndAt o.2).getD (ST_OK, 0, 0)).2.1) 0

/-- Forget the results of a command's operations. -/
def kvForget (x : HCmd) : Eff := .seq (Eff.each x.ops fun o => .upd (.kvtEnd o.2 none)) (hcSet x.id fun y => { y with ops := [] })

/-- KV_OP: done_pbx and its flag are ignored. -/
def kvOpCmd (n : Nat) : Eff := hostGo n 0x42
  (fun x => .look fun s =>
    let c := x.arg 8 1
    if 127 < c then hcFinish x.id ST_BAD_ARG 0
    else if s.cellRetired c then hcFinish x.id ST_UNIT_RETIRED 0
    else Eff.when (s.kvRoom c) (kvForCmd x.id c 0xFFFF
      (((x.desc.drop 16).take 32).modify 1 fun b => BitVec.ofNat 8 (b.toNat / 2 * 2))))
  (fun x => .look fun s => Eff.when (s.kvAllEnd x) (.seq
    (kvResults (x.arg 16 1) (s.kvEndSum x) (x.ops.foldl (fun n o => n + ((s.kvtEndAt o.2).getD (ST_OK, 0, 0)).2.2) 0) fun r0 r1 =>
      hcFinish x.id (s.kvEndStatus x) (r0 % 2 ^ 32 + r1 % 2 ^ 32 * 2 ^ 32))
    (kvForget x)))

def execKvOp (n : Fin 2048) (s : State) : Host.Outcome State Fault Refusal := (kvOpCmd n).done s

/-! EVACUATE (R361, R266, R267) -/

/-- The cells that hold a sequence: those of its districts under the live chart. -/
def State.seqCells (s : State) (r : SeqRec) : List Nat := (List.range 128).filter fun c =>
  match chartDistrictOf s.chartLive c with
  | some d => r.districts.testBit d
  | none => false

/-- A KVT descriptor (R241) of an operation on a whole sequence. -/
def kvDesc (code seq nLh t0 t1 : Nat) (tail : List Byte) : List Byte :=
  toLE 1 code ++ toLE 3 0 ++ toLE 2 seq ++ toLE 1 0 ++ toLE 1 nLh ++ toLE 4 t0 ++ toLE 4 t1 ++ (tail ++ List.replicate 16 0).take 16

/-- The sequence entry of a cell, as the firmware reads it. -/
def fwSeqEntry (c seq : Nat) (k : KvSeq → Eff) : Eff := .look fun s =>
  memRead (.core 0) .normal (s.kvSeqAddr c seq) 32 fun r => k (kvSeqOf (s.kvSeqAddr c seq) r.data)

/-- Count the present entries of a list. -/
def countPtes : List Nat → Nat → (Nat → Eff) → Eff
  | [], n, k => k n
  | a :: rest, n, k => memRead (.core 0) .normal a 8 fun r => countPtes rest (n + byteAt r.data 0 % 2) k

/-- The pages that an EVACUATE of a sequence would stream from the cells named. -/
def countPages (seq t0 t1 : Nat) : List Nat → Nat → (Nat → Eff) → Eff
  | [], n, k => k n
  | c :: rest, n, k => fwSeqEntry c seq fun e => .look fun s =>
    let x := kvOp 0 none none (9, 0xFF) (kvDesc 8 seq e.nLh t0 t1 [])
    let lhs := (List.range e.nLh).filter fun lh => s.kvLhStatus c x e lh == ST_OK
    if e.flags % 2 = 0 then countPages seq t0 t1 rest n k
    else countPtes ((s.kvItems c x e lhs).map fun it => e.pte it.lh it.block) n (countPages seq t0 t1 rest · k)

/-- The next cell of a running EVACUATE, or its end. `result` holds the first cell that has not been looked at. -/
def evacNext (x : HCmd) (r : SeqRec) : Eff := .look fun s =>
  let left := (s.seqCells r).filter fun c => decide (x.result ≤ c)
  let live := left.dropWhile fun c => s.cellRetired c
  let st := if live.length < left.length then worst x.status ST_UNIT_RETIRED else x.status
  match live.head? with
  | none => hcFinish x.id st x.pos
  | some c => Eff.when (s.kvRoom c) (fwSeqEntry c (x.arg 8 2) fun e => .seq
      (hcSet x.id fun y => { y with status := st, result := c + 1 })
      (kvForCmd x.id c (x.arg 10 2) (kvDesc 8 (x.arg 8 2) e.nLh (x.arg 16 4) (x.arg 20 4) (toLE 8 (x.arg 24 8 + x.pos)))))

/-- EVACUATE: the KVT operation in each cell, one after the other. -/
def evacuateCmd (n : Nat) : Eff := hostGo n 0x43
  (fun x => .look fun s =>
    match s.seqsAt (x.arg 8 2) with
    | none => hcFinish x.id ST_KV_NOT_PRESENT 0
    | some r =>
      if x.arg 24 8 % 64 ≠ 0 then hcFinish x.id ST_ALIGN 0
      else if x.arg 10 2 ≠ 0xFFFF ∧ !s.agrees x.port 5 then hcFinish x.id ST_BAD_ARG 0
      else countPages (x.arg 8 2) (x.arg 16 4) (x.arg 20 4) ((s.seqCells r).filter fun c => !s.cellRetired c) 0 fun pages =>
        if x.arg 32 8 < 65600 * pages then hcFinish x.id ST_BAD_ARG (65600 * pages)
        else .seq (hcRun x.id) (evacNext { x with result := 0 } r))
  (fun x => .look fun s =>
    match s.seqsAt (x.arg 8 2) with
    | none => hcFinish x.id x.status x.pos
    | some r => Eff.when (s.kvAllEnd x) (
        let y := { x with status := worst x.status (s.kvEndStatus x), pos := x.pos + 65600 * s.kvEndSum x, ops := [] }
        .all [kvForget x, hcSet x.id fun _ => y, evacNext y r]))

def execEvacuate (n : Fin 2048) (s : State) : Host.Outcome State Fault Refusal := (evacuateCmd n).done s

/-! SCRUB (R361, R198, R199, R291) -/

/-- The scrub engine of a range: the vault or external memory that its base lies in. -/
def scrubUnit (base : Nat) : Option (Option (Fin 128)) :=
  match regionOf base with
  | .vault c => if h : c < 128 then some (some ⟨c, h⟩) else none
  | .ext => some none
  | _ => none

/-- The bytes of the record registers. -/
def State.scrubRecordOf (s : State) (u : Option (Fin 128)) : List Byte :=
  (List.range 8).flatMap fun i => toLE 8 (s.reg (rk (unitPage u) (0x220 + 8 * i))).toNat

/-- SCRUB: the engine runs over the range; its record goes to the host. -/
def scrubCmd (n : Nat) : Eff := hostGo n 0x44
  (fun x => .look fun s =>
    let base := x.arg 8 8
    let limit := x.arg 16 8
    let share := x.arg 25 1
    match scrubUnit base with
    | none => hcFinish x.id (if s.mapStatus base 64 ≠ ST_OK then s.mapStatus base 64 else ST_BAD_ARG) 0
    | some u =>
      if base % 64 ≠ 0 ∨ (limit + 1) % 64 ≠ 0 then hcFinish x.id ST_ALIGN 0
      else if share = 0 ∨ 16 < share ∨ limit < base ∨ !inUnit u limit then hcFinish x.id ST_BAD_ARG 0
      else if s.mapStatus base 64 ≠ ST_OK then hcFinish x.id (s.mapStatus base 64) 0
      else if s.mapStatus (limit / 64 * 64) 64 ≠ ST_OK then hcFinish x.id (s.mapStatus (limit / 64 * 64) 64) 0
      else if s.bit (scrubBusy u) then hcFinish x.id ST_BUSY 0
      else .all [
        put (scrubBase u) base, put (scrubLimit u) limit, put (scrubWriteBack u) (x.arg 24 1),
        put ⟨rk (unitPage u) 0x210, 2, 5⟩ share,
        scrubStart u,
        hcRun x.id])
  (fun x => .look fun s =>
    match scrubUnit (x.arg 8 8) with
    | none => .skip
    | some u => Eff.when (!s.bit (scrubBusy u) && s.linkUp x.port) (.seq
        (pokeHost x.port (x.arg 32 8) (s.scrubRecordOf u))
        (hcFinish x.id (byteAt (s.scrubRecordOf u) 20) (leAt (s.scrubRecordOf u) 0 8))))

def execScrub (n : Fin 2048) (s : State) : Host.Outcome State Fault Refusal := (scrubCmd n).done s

/-! MONITOR_READ (R450) -/

/-- The 192-byte record of a unit that has just been snapped. -/
def State.monRecord (s : State) (u : Nat) : List Byte :=
  toLE 1 u ++ toLE 1 (s.get (R.MON_BIND_enable u) + 2 * s.get (R.MON_CTRL_overflow u)) ++ toLE 2 (s.get (R.MON_BIND_measurement u)) ++
    toLE 4 (s.get (R.MON_BIND_instance u)) ++ toLE 8 (s.reg (R.MON_SETTING u)).toNat ++ toLE 8 (s.reg (R.MON_MINMAX u)).toNat ++
    toLE 8 (s.reg (R.MON_COUNT u)).toNat ++ toLE 8 (s.reg (R.MON_SUM u)).toNat ++
    ((List.range 16).flatMap fun j => toLE 8 (s.reg (R.MON_HIST u j)).toNat) ++
    toLE 8 (s.reg (R.MON_SNAP_TIME u)).toNat ++ toLE 8 (s.reg (R.MON_SNAP_EDGE u)).toNat ++ toLE 8 0

/-- Snap a unit for a read; a unit with reset_on_read is cleared in the same clock. -/
def monReadOne (p a u : Nat) : Eff := .all [
  monSnap u,
  .look fun s => .seq (pokeHost p a (s.monRecord u)) (Eff.when (s.monSet u 5 1 == 1) (monClear u))]

/-- MONITOR_READ. -/
def monitorRead (n : Nat) : Eff := hostStartIO n 0x50 fun x =>
  let first := x.arg 8 1
  let count := x.arg 9 1
  if count = 0 ∨ 64 < first + count then hcFinish x.id ST_BAD_ARG 0
  else .seq (Eff.each (List.range count) fun i => monReadOne x.port (x.arg 16 8 + 192 * i) (first + i)) (hcFinish x.id ST_OK count)

def execMonitorRead (n : Fin 2048) (s : State) : Host.Outcome State Fault Refusal := (monitorRead n).done s

/-! RESET and THERMAL_SET -/

/-- RESET: completes with ST_OK; the warm reset follows 1 ms later. -/
def resetCmd (n : Nat) : Eff := hostStart n 0x72 fun x => .look fun s =>
  .seq (hcFinish x.id ST_OK 0) (.upd (.resetAt (some s.now)))

def execReset (n : Fin 2048) (s : State) : Host.Outcome State Fault Refusal := (resetCmd n).done s

/-- THERMAL_SET (R361, R498): grace time and host power limit. -/
def thermalSet (n : Nat) : Eff := hostStart n 0x70 fun x =>
  let grace := x.arg 8 2
  let limit := x.arg 10 2
  if grace < 5 ∨ 100 < grace ∨ limit < 1000 ∨ 2600 < limit then hcFinish x.id ST_BAD_ARG 0
  else .all [put R.THM_GRACE_grace_ms grace, put R.PWR_LIMIT_limit_w limit, hcFinish x.id ST_OK 0]

def execThermalSet (n : Fin 2048) (s : State) : Host.Outcome State Fault Refusal := (thermalSet n).done s

end Sys2Proof.Machine
end

