-- ==== Sys2Proof/Machine/DieLinks.lean ====
section
/-! DEFINITION. Die links (14_package_fabric.md R376–R396): frames and replay, hash slots, training, lane repair, retirement and the
stand-alone test. The NoC packets whose flits a frame carries have their effect in the commands of their agents. -/

namespace Sys2Proof.Machine

/-! Modules, numbered d × 6 + m -/

/-- State of module `i`: 0 DOWN, 1 TRAINING, 2 FULL, 3 HALF, 4 FB_FULL, 5 FB_HALF, 6 OFFLINE, 7 RETIRED. -/
def State.dl (s : State) (i : Nat) : Nat := s.get (R.DL_STATUS_state (i / 6) (i % 6))

/-- Module `i` carries traffic. -/
def State.dlUp (s : State) (i : Nat) : Bool := decide (2 ≤ s.dl i ∧ s.dl i ≤ 5)

/-- Module `i` runs at full width. -/
def State.dlFull (s : State) (i : Nat) : Bool := s.dl i == 2 || s.dl i == 4

/-- Module `i` runs at half width. -/
def State.dlHalf (s : State) (i : Nat) : Bool := s.dl i == 3 || s.dl i == 5

/-- An agreed feature of module `i` (R386). -/
def State.dlHas (s : State) (i b : Nat) : Bool := (s.get (R.DL_CAPS_agreed (i / 6) (i % 6))).testBit b

/-- The spares of a direction that may serve (R384). -/
def State.dlSpareCount (s : State) (i : Nat) : Nat := if s.dlHas i 1 then 4 else 2

/-- The module that slot `k` of die `d`'s map names. -/
def State.hashOf (s : State) (d k : Nat) : Nat := s.get ⟨R.DL_HASH d (k / 16), 4 * (k % 16), 4⟩

/-- The map of die `d`. -/
def State.hashMap (s : State) (d : Nat) : List Nat := (List.range 48).map fun k => s.hashOf d k

/-- Show what follows from the states and the map: slots, modules_up, reachable, and the die-unreachable source. -/
def dlShow (d : Nat) : Eff := .look fun s =>
  let up := (List.range 6).foldl (fun n m => if s.dlUp (d * 6 + m) then n + 2 ^ m else n) 0
  .all [
    Eff.each (List.range 6) fun m => put (R.DL_STATUS_slots d m) ((s.hashMap d).count m),
    put (R.DL_DIE_ID_modules_up d) up,
    putBit (R.DL_DIE_ID_reachable d) (up != 0),
    evLevel (0x430 + d) (s.dieLost d)]

/-- Set the state of a module. -/
def dlSet (i st half : Nat) : Eff := .all [
  put (R.DL_STATUS_state (i / 6) (i % 6)) st, put (R.DL_STATUS_half (i / 6) (i % 6)) half, dlShow (i / 6)]

/-- last_status of a module. -/
def dlStatus (i st : Nat) : Eff := put (R.DL_STATUS_last_status (i / 6) (i % 6)) st

/-! The hash map (R380–R382) -/

/-- Set the entries of a map. -/
def hashPut (d : Nat) (map : List Nat) : Eff :=
  Eff.each (List.range 48) fun k => put ⟨R.DL_HASH d (k / 16), 4 * (k % 16), 4⟩ (map.getD k 0)

/-- R380: the slot of a packet: its destination cell, or 128 + register page − 0x1000 for a block of the I/O die, mod 48. -/
def slotOf (dest : Nat) : Nat := dest % 48

/-- The module that still carries a slot: the old one of a move under way. -/
def State.slotModule (s : State) (d k : Nat) : Nat :=
  match s.dlMoves.find? fun x => x.1 == d && x.2.1 == k with
  | some x => x.2.2.1
  | none => s.hashOf d k

/-- R381: commit a map: one that names a module out of use keeps the whole previous map; else the slots that change start to
move. -/
def hashCommit (d : Nat) (map : List Nat) : Eff := .look fun s =>
  if map.any fun m => decide (5 < m) || !s.dlUp (d * 6 + m) then put (R.DL_DIE_ID_hash_status d) ST_BAD_ARG
  else
    let moves := ((List.range 48).filter fun k => s.slotModule d k != map.getD k 0).map fun k => (d, k, s.slotModule d k, map.getD k 0)
    .all [
      .upd (.dlMoves ((s.dlMoves.filter fun x => x.1 != d) ++ moves)),
      hashPut d map,
      put (R.DL_DIE_ID_hash_status d) ST_OK,
      dlShow d]

/-- R382: how many slots a module keeps, out of its own: all at full width, 4 at half width, none when it is out of use. -/
def State.slotKeep (s : State) (i : Nat) : Nat :=
  if s.dlFull i || s.dl i == 1 then 48 else if s.dlHalf i then 4 else 0

/-- R382: whether slot `k` stays where it is: it is one of the lowest-numbered ones that its module keeps. -/
def State.slotStays (s : State) (d : Nat) (map : List Nat) (k : Nat) : Bool :=
  let m := map.getD k 0
  decide (((map.take k).count m) < s.slotKeep (d * 6 + m))

/-- The module with the fewest slots among `ms`, the lowest number first. -/
def fewest (map : List (Option Nat)) (ms : List Nat) : Option Nat :=
  ms.foldl (fun best m => match best with
    | none => some m
    | some b => if map.count (some m) < map.count (some b) then some m else some b) none

/-- R382: the slots given up go, in ascending order, to the full-width modules with the fewest slots. -/
def placeSlots (ms : List Nat) : List Nat → List (Option Nat) → List (Option Nat)
  | [], map => map
  | k :: rest, map => placeSlots ms rest (if (map.getD k none).isSome then map else map.set k (fewest map ms))

/-- R382: the firmware's map of die `d` without the modules of `out`, starting from `map`; when no module is at full width the
half-width ones take the slots. -/
def State.hashPlanOff (s : State) (d : Nat) (out : Nat → Bool) (map : List Nat) : List Nat :=
  let full := (List.range 6).filter fun m => s.dlFull (d * 6 + m) && !out m
  let ms := if full.isEmpty then (List.range 6).filter fun m => s.dlHalf (d * 6 + m) && !out m else full
  let kept := (List.range 48).map fun k => if s.slotStays d map k && !out (map.getD k 0) then some (map.getD k 0) else none
  ((placeSlots ms (List.range 48) kept).zip map).map fun x => x.1.getD x.2

/-- R468: a module of die `d` that a RETIRE_UNIT command is about to retire. -/
def State.dlLeaving (s : State) (d m : Nat) : Bool := s.retirePend.any fun x => x.2 == (2, d * 6 + m)

/-- R382: the firmware's map of die `d`; a module that is about to be retired gets no slot. -/
def State.hashPlan (s : State) (d : Nat) (map : List Nat) : List Nat := s.hashPlanOff d (s.dlLeaving d) map

/-- The map at reset (R380). -/
def hashFirst : List Nat := (List.range 48).map fun k => k % 6

/-- R382, R392, R393: the firmware moves slots after a change of a module. -/
def hashRebalance (d : Nat) : Eff := .look fun s =>
  Eff.when (s.fwRuns && s.hashPlan d (s.hashMap d) != s.hashMap d) (hashCommit d (s.hashPlan d (s.hashMap d)))

/-- The firmware gives a module that has come back its share, starting from the map at reset. -/
def hashRestore (d : Nat) : Eff := .look fun s =>
  Eff.when (s.fwRuns && s.hashPlan d hashFirst != s.hashMap d) (hashCommit d (s.hashPlan d hashFirst))

/-- The frames of slot `k` that a direction still holds. -/
def DlEnd.ofSlot (e : DlEnd) (k : Nat) : List DlFrame := (e.held ++ e.todo).filter fun f => f.slot == k

/-- R393: frames of a slot go from a retired module to the one that takes the slot over. -/
def slotHand (old new k r : Nat) : Eff := .look fun s =>
  let e := s.dlEndAt (old * 2 + r)
  let n := s.dlEndAt (new * 2 + r)
  .all [
    .upd (.dlEnd (new * 2 + r) { n with todo := n.todo ++ e.ofSlot k }),
    .upd (.dlEnd (old * 2 + r) { e with
      held := e.held.filter (fun f => f.slot != k), todo := e.todo.filter (fun f => f.slot != k), pos := 0 })]

/-! Frames (R377, R378) -/

/-- One bit of the CRC-16 of R377. -/
def crc16Bits : Nat → Nat → Nat
  | 0, c => c
  | n + 1, c => crc16Bits n (if c / 2 ^ 15 % 2 = 1 then Nat.xor (c * 2 % 2 ^ 16) 0x8BB7 else c * 2)

/-- R377: CRC-16 with polynomial 0x8BB7, initial value 0, no reflection, no final inversion. -/
def crc16 (bs : List Byte) : Nat := bs.foldl (fun c b => crc16Bits 8 (Nat.xor c (b.toNat * 256))) 0

/-- The hdr field of a frame. -/
def frameHdr (seq vc ty : Nat) : Nat := seq % 1024 + vc * 2 ^ 10 + ty * 2 ^ 12

/-- The 68 bytes that arrive: the body and its CRC, with the bits of `flip` turned over. -/
def frameGot (body : List Byte) (flip : BitVec 544) : List Byte :=
  (body ++ toLE 2 (crc16 body)).zipWith (fun a b => a ^^^ b) (toLE 68 flip.toNat)

/-- The CRC of an arriving frame holds. -/
def frameGood (got : List Byte) : Bool := crc16 (got.take 66) == leAt got 66 2

/-- R391: a module starts a field retrain: its senders hold their frames. -/
def dlRetrain (i : Nat) : Eff := .look fun s => Eff.when (s.dlUp i) (.all [
  .upd (.dlOld i (s.dl i * 2 + s.get (R.DL_STATUS_half (i / 6) (i % 6)))),
  .upd (.dlFail i (0, 0)),
  addSat (R.DL_ERR_retrains (i / 6) (i % 6)) 1,
  dlSet i 1 (s.get (R.DL_STATUS_half (i / 6) (i % 6)))])

/-- R391, R396: a frame that fails its CRC counts, and DL_CTRL.fail_threshold of them in 1 ms start a retrain. -/
def dlCrcError (i : Nat) : Eff := .look fun s =>
  let w := s.dlFailAt i
  let now := if w.2 ≠ 0 ∧ s.now < w.1 + 1000000 then (w.1, w.2 + 1) else (s.now, 1)
  .all [
    addSat (R.DL_ERR_crc_errors (i / 6) (i % 6)) 1,
    .upd (.dlFail i now),
    Eff.when (decide (s.get (R.DL_CTRL_fail_threshold (i / 6) (i % 6)) ≤ now.2)) (dlRetrain i)]

/-- R378: the sender replays from the first frame not acknowledged; sixteen consecutive replays of one frame start a retrain. -/
def dlReplay (i r : Nat) : Eff := .look fun s =>
  let e := s.dlEndAt (i * 2 + r)
  Eff.when (!e.held.isEmpty) (.all [
    addSat (R.DL_ERR_replays (i / 6) (i % 6)) 1,
    .upd (.dlEnd (i * 2 + r) { e with pos := 0, replays := e.replays + 1, since := s.now }),
    Eff.when (decide (16 ≤ e.replays + 1)) (dlRetrain i)])

/-- A nak of direction `r` sets out. -/
def dlNak (i r : Nat) : Eff := .look fun s =>
  let e := s.dlEndAt (i * 2 + r)
  .upd (.dlEnd (i * 2 + r) { e with back := e.back ++ [(true, e.expect)] })

/-- R378: the receiver of direction `r` takes a data frame: it delivers and acknowledges it, or discards it and answers with a
nak. -/
def dlReceive (i r : Nat) (got : List Byte) : Eff := .look fun s =>
  let e := s.dlEndAt (i * 2 + r)
  if !frameGood got then .seq (dlNak i r) (dlCrcError i)
  else if leAt got 64 2 % 1024 = e.expect then
    .upd (.dlEnd (i * 2 + r) { e with expect := (e.expect + 1) % 1024, back := e.back ++ [(false, e.expect)] })
  else dlNak i r

/-- The frame that the sender of direction `r` sends next, and its end after that: a held one after a replay, one that it has
taken over, or a new one of a slot that the module carries; a full replay buffer sends no new one. -/
def State.dlNext (s : State) (i r vc slot : Nat) (flit : BitVec 512) : Option (DlFrame × DlEnd) :=
  let e := s.dlEndAt (i * 2 + r)
  let add (f : DlFrame) (todo : List DlFrame) : DlFrame × DlEnd :=
    let g := { f with seq := e.next, body := f.body.take 64 ++ toLE 2 (frameHdr e.next (leAt f.body 64 2 / 2 ^ 10 % 4) 0) }
    (g, { e with held := e.held ++ [g], pos := e.pos + 1, next := (e.next + 1) % 1024, todo := todo,
                 since := if e.held.isEmpty then s.now else e.since })
  match e.held[e.pos]? with
  | some f => some (f, { e with pos := e.pos + 1 })
  | none =>
    if 256 ≤ e.held.length then none
    else match e.todo with
    | f :: rest => some (add f rest)
    | [] =>
      if s.hashOf (i / 6) slot = i % 6 ∧ s.slotModule (i / 6) slot = i % 6 then
        some (add ⟨0, slot, toLE 64 flit.toNat ++ toLE 2 (frameHdr 0 vc 0)⟩ [])
      else none

/-- R378: an acknowledgement releases the frames up to the one it names. -/
def dlAck (i r seq : Nat) : Eff := .look fun s =>
  let e := s.dlEndAt (i * 2 + r)
  match e.held.findIdx? fun f => f.seq == seq with
  | none => .skip
  | some n => .upd (.dlEnd (i * 2 + r) { e with held := e.held.drop (n + 1), pos := e.pos - (n + 1), replays := 0, since := s.now })

/-- A control frame crosses in direction `r`: `ty` 1 or 2 is the oldest ack or nak for the other direction. -/
def dlControl (i r ty vc : Nat) (flit : BitVec 512) (flip : BitVec 544) : Eff := .look fun s =>
  let e := s.dlEndAt (i * 2 + (1 - r))
  let good (seq kind : Nat) : Bool := frameGood (frameGot (toLE 64 flit.toNat ++ toLE 2 (frameHdr seq vc kind)) flip)
  if ty = 1 ∨ ty = 2 then
    (match e.back with
     | [] => .skip
     | b :: rest => Eff.when (b.1 == (ty == 2)) (.seq (.upd (.dlEnd (i * 2 + (1 - r)) { e with back := rest }))
        (if !good b.2 ty then .seq (dlNak i r) (dlCrcError i)
         else if b.1 then dlReplay i (1 - r) else dlAck i (1 - r) b.2)))
  else Eff.when (!good 0 ty) (.seq (dlNak i r) (dlCrcError i))

/-- LINK_FRAME: a frame of type `kind` crosses in a direction; `flip` holds the bits that turn over on the way. A data frame is the
next one that the sender has to send, or a new one of a slot (R380). -/
def linkFrame (i r kind vc slot : Nat) (flit : BitVec 512) (flip : BitVec 544) : Eff := .look fun s =>
  if !s.dlUp i then .skip
  else if kind ≠ 0 then dlControl i r kind vc flit flip
  else match s.dlNext i r vc slot flit with
  | none => .skip
  | some (f, e) => .seq (.upd (.dlEnd (i * 2 + r) e)) (dlReceive i r (frameGot f.body flip))

def execLinkFrame (d : Fin 8) (m : Fin 6) (up : Bool) (kind : Fin 5) (vc : Fin 4) (dest : Fin 368) (flit : BitVec 512)
    (flip : BitVec 544) (s : State) : Host.Outcome State Fault Refusal :=
  (linkFrame (d.val * 6 + m.val) (if up then 1 else 0) kind vc (slotOf dest) flit flip).done s

/-- REPLAY_TIMEOUT (R378): 1 µs without an acknowledgement. -/
def replayTimeout (i r : Nat) : Eff := .look fun s =>
  let e := s.dlEndAt (i * 2 + r)
  Eff.when (s.dlUp i && !e.held.isEmpty && e.pos != 0) (.seq (reachTime (e.since + 1000)) (dlReplay i r))

def execReplayTimeout (d : Fin 8) (m : Fin 6) (up : Bool) (s : State) : Host.Outcome State Fault Refusal :=
  (replayTimeout (d.val * 6 + m.val) (if up then 1 else 0)).done s

/-- LANE_LOSS_OF_LOCK (R391). -/
def execLaneLossOfLock (d : Fin 8) (m : Fin 6) (s : State) : Host.Outcome State Fault Refusal := (dlRetrain (d.val * 6 + m.val)).done s

/-- A write of DL_CTRL.retrain. -/
def actDlRetrain (who : Agent) (d m : Nat) : Act := guardAct who (0x800 + d * 8 + m) 0 fun _ => (ST_OK, dlRetrain (d * 6 + m))

/-- DL_RETRAIN (R391). -/
def execDlRetrain (who : Agent) (d : Fin 8) (m : Fin 6) (s : State) : Host.Outcome State Fault Refusal :=
  (runAct who (actDlRetrain who d m)).done s

/-! Lane repair (R384, R391) -/

/-- The lane that spare `k` replaces, from DL_SPARE. -/
def spareLane (v k : Nat) : Option Nat := if v / 2 ^ (8 * k + 6) % 2 = 1 then some (v / 2 ^ (8 * k) % 64) else none

/-- Whether spare `k` itself has failed. -/
def spareBad (v k : Nat) : Bool := v / 2 ^ (8 * k + 7) % 2 == 1

/-- DL_SPARE from the assignments and the failed spares. -/
def sparesWord (as : List (Option Nat)) (bad : Nat) : Nat :=
  (List.range 4).foldl (fun n k => n + ((match as.getD k none with | some l => l + 64 | none => 0) +
    (if bad.testBit k then 128 else 0)) * 2 ^ (8 * k)) 0

/-- The first spare out of `n` that is free and whole. -/
def spareFree (as : List (Option Nat)) (bad n : Nat) : Option Nat :=
  (List.range n).find? fun k => (as.getD k none).isNone && !bad.testBit k

/-- Assign a spare to each lane. -/
def giveSpares (bad n : Nat) : List Nat → List (Option Nat) → Option (List (Option Nat))
  | [], as => some as
  | l :: rest, as => (spareFree as bad n).bind fun k => giveSpares bad n rest (as.set k (some l))

/-- Fill lanes `lo` to `hi - 1` of a direction: assignments to lanes of the range stay, and with `new` further spares of the first
`n` replace the failed lanes left. -/
def fillLanes (failed bad n lo hi : Nat) (new : Bool) (old : List (Option Nat)) : Option (List (Option Nat)) :=
  let kept := (List.range 4).map fun k => if bad.testBit k then none else (old.getD k none).filter fun l => decide (lo ≤ l ∧ l < hi)
  let need := ((List.range 64).filter fun l => decide (lo ≤ l ∧ l < hi) && failed.testBit l).filter fun l => !kept.contains (some l)
  if need.isEmpty then some kept else if new then giveSpares bad n need kept else none

/-- Both directions of a module: failed lanes, failed spares and assignments. -/
structure DlLanes where
  tx    : Nat
  txBad : Nat
  txAs  : List (Option Nat)
  rx    : Nat
  rxBad : Nat
  rxAs  : List (Option Nat)

/-- The configuration of a range of lanes, when it fits. -/
def DlLanes.fill (x : DlLanes) (n lo hi : Nat) (new : Bool) : Option DlLanes :=
  match fillLanes x.tx x.txBad n lo hi new x.txAs, fillLanes x.rx x.rxBad n lo hi new x.rxAs with
  | some a, some b => some { x with txAs := a, rxAs := b }
  | _, _ => none

/-- A half, the lower one preferred, when one fits. -/
def DlLanes.half (x : DlLanes) (n : Nat) (new : Bool) : Option (Nat × DlLanes) :=
  match x.fill n 0 32 new with
  | some y => some (0, y)
  | none => (x.fill n 32 64 new).map fun y => (1, y)

/-- The lanes of a module with the failures of a test added. -/
def State.dlLanes (s : State) (i : Nat) (tx rx : BitVec 68) : DlLanes :=
  let d := i / 6
  let m := i % 6
  let bad (v : Nat) : Nat := (List.range 4).foldl (fun n k => if spareBad v k then n + 2 ^ k else n) 0
  let as (v : Nat) : List (Option Nat) := (List.range 4).map fun k => spareLane v k
  { tx := Nat.lor (s.get (R.DL_LANES_TX_failed d m)) (tx.toNat % 2 ^ 64)
    txBad := Nat.lor (bad (s.get (R.DL_SPARE_TX_spares d m))) (tx.toNat / 2 ^ 64)
    txAs := as (s.get (R.DL_SPARE_TX_spares d m))
    rx := Nat.lor (s.get (R.DL_LANES_RX_failed d m)) (rx.toNat % 2 ^ 64)
    rxBad := Nat.lor (bad (s.get (R.DL_SPARE_RX_spares d m))) (rx.toNat / 2 ^ 64)
    rxAs := as (s.get (R.DL_SPARE_RX_spares d m)) }

/-- Show the lanes of a module. -/
def dlLanesPut (i : Nat) (x : DlLanes) : Eff := .all [
  put (R.DL_LANES_TX_failed (i / 6) (i % 6)) x.tx, put (R.DL_LANES_RX_failed (i / 6) (i % 6)) x.rx,
  put (R.DL_SPARE_TX_spares (i / 6) (i % 6)) (sparesWord x.txAs x.txBad),
  put (R.DL_SPARE_RX_spares (i / 6) (i % 6)) (sparesWord x.rxAs x.rxBad)]

/-- Lanes repaired in a direction. -/
def repaired (as : List (Option Nat)) : Nat := (as.filter fun a => a.isSome).length

/-- No work of an unreachable die survives (R396). -/
def dieWorkLost (d : Nat) : Eff := .all [
  Eff.each ((List.range 16).flatMap fun j => (List.range 16).map fun t => (d * 16 + j, t)) fun x => putThr x.1 x.2 THR_PARKED,
  .upd (.loadsDrop fun k => k / 256 == d), .upd (.vecQDrop fun k => k / 16 == d), .upd (.qeQDrop fun k => k / 128 == d),
  .upd (.passQDrop fun k => k / 16 == d), .upd (.buQDrop fun k => k / 128 == d), .upd (.kvtQDrop fun k => k / 16 == d),
  .upd (.kvtMigQDrop fun k => k / 16 == d), .upd (.kvtMovesDrop fun k => k / 16 == d), .upd (.heldDrop fun k => k / 128 == d),
  .upd (.waitersDrop fun k => k / 48 / 16 == d), .upd (.scrubRunDrop fun k => k / 16 == d)]

/-- The commands of the firmware that wait for a retirement end (R468). -/
def retireDone (kind unit : Nat) : Eff := .look fun s => .seq
  (Eff.each (s.retirePend.filter fun x => x.2 == (kind, unit)) fun x => hcFinish x.1 ST_OK 0)
  (.look fun s => .upd (.retirePend (s.retirePend.filter fun x => x.2 != (kind, unit))))

/-- R393, R396: a module retires. -/
def dlRetire (i st : Nat) : Eff := .seq
  (.all [
    dlStatus i st,
    putRegBit R.SVC_RETIRED_DL i true,
    dlSet i 7 0,
    evFire (0x400 + i),
    setReplace 3 ST_UNIT_RETIRED i,
    evFire 0x7C1,
    retireDone 2 i])
  (.look fun s => Eff.when (s.dieLost (i / 6)) (.seq (setReplace 4 ST_UNIT_RETIRED (i / 6)) (dieWorkLost (i / 6))))

/-- Whether a module carries a slot or still drains one (R381). -/
def State.dlHolds (s : State) (i : Nat) : Bool :=
  (List.range 48).any fun k => s.hashOf (i / 6) k == i % 6 || s.slotModule (i / 6) k == i % 6

/-- R18, R468: a module that RETIRE_UNIT names retires once every slot of it has drained and moved. -/
def dlLeave (i : Nat) : Eff := .look fun s =>
  Eff.when (s.dlLeaving (i / 6) (i % 6) && !s.dlHolds i) (dlRetire i ST_UNIT_RETIRED)

/-- SLOT_MOVE_COMPLETE (R381): no frame of the slot is left in the old module, or the old module has retired. -/
def slotMoveComplete (d k : Nat) : Eff := .look fun s =>
  match s.dlMoves.find? fun x => x.1 == d && x.2.1 == k with
  | none => .skip
  | some x =>
    let old := d * 6 + x.2.2.1
    let new := d * 6 + x.2.2.2
    let empty := [0, 1].all fun r => ((s.dlEndAt (old * 2 + r)).ofSlot k).isEmpty
    let gone := s.dl old == 7
    Eff.when ((empty || gone) && s.dl old != 1 && s.dl new != 1) (.all [
      .upd (.dlMoves (s.dlMoves.erase x)),
      Eff.when gone (Eff.each [0, 1] fun r => slotHand old new k r),
      dlLeave old])

def execSlotMoveComplete (d : Fin 8) (slot : Fin 48) (s : State) : Host.Outcome State Fault Refusal := (slotMoveComplete d slot).done s

/-- A module takes a configuration: `base` 2 = native, 4 = fallback; `half` none = full width. Entry to half width or to fallback
raises the die-link degraded event. -/
def dlTake (i base : Nat) (half : Option Nat) (was : Nat) (x : DlLanes) : Eff :=
  let st := base + if half.isSome then 1 else 0
  .all [
    dlLanesPut i x,
    dlStatus i (if half.isSome then ST_DL_HALF_WIDTH else if base = 4 then ST_DL_FALLBACK else ST_OK),
    dlSet i st (half.getD 0),
    Eff.when (st != was && st != 2) (evFire (0x400 + i)),
    Eff.when (half.isSome && !(was == 3 || was == 5)) (setReplace 2 ST_DL_HALF_WIDTH i)]

/-- After a training the module replays every frame not acknowledged. -/
def dlResume (i : Nat) : Eff := .look fun s => Eff.each [0, 1] fun r =>
  .upd (.dlEnd (i * 2 + r) { s.dlEndAt (i * 2 + r) with pos := 0, replays := 0, since := s.now })

/-- R391, R394: the end of a retrain of module `i` from configuration `old`: its width with spares (LIVE_SPARE), half width
(HALF_WIDTH), or retirement. Without LIVE_SPARE no further spare comes into use. -/
def dlRetrainEnd (i old : Nat) (tx rx : BitVec 68) (us : Nat) : Eff := .look fun s =>
  let st := old / 2
  let base := if st = 2 ∨ st = 3 then 2 else 4
  let x := s.dlLanes i tx rx
  let n := s.dlSpareCount i
  let live := s.dlHas i 2
  let same := if st = 2 ∨ st = 4 then x.fill n 0 64 live else x.fill n (32 * (old % 2)) (32 * (old % 2) + 32) live
  let half := if s.dlHas i 3 then x.half n live else none
  .all [
    put (R.DL_STATUS_last_train_us (i / 6) (i % 6)) us,
    (match same with
     | some y => dlTake i base (if st = 2 ∨ st = 4 then none else some (old % 2)) st y
     | none =>
       match half with
       | some (h, y) => dlTake i base (some h) st y
       | none => .seq (dlLanesPut i { x with txAs := [], rxAs := [] }) (dlRetire i ST_UNIT_RETIRED)),
    dlResume i]

/-- DL_RETRAIN_COMPLETE. -/
def dlRetrainComplete (t : DlTest) : Eff := .look fun s => Eff.when (s.dl t.module == 1) (.all [
  dlRetrainEnd t.module (s.dlOldAt t.module) t.tx t.rx t.us.toNat,
  .look fun u => if u.dlFull t.module then hashRestore (t.module / 6) else hashRebalance (t.module / 6)])

def execDlRetrainComplete (t : DlTest) (s : State) : Host.Outcome State Fault Refusal := (dlRetrainComplete t).done s

/-! Training at S4 (R383–R390) -/

/-- A module of the shipped pair IOD-2 and CD-3 whose lanes are all whole. -/
def dlWhole (i : Fin 48) : DlTrain := ⟨i, 0x1F, 0x1F, 2, 3, 0, 0, 0, 0, 0⟩

/-- The field force_fallback is in effect (R390). -/
def State.dlForced (s : State) (i : Nat) : Bool :=
  s.bit (R.DL_CTRL_force_fallback (i / 6) (i % 6)) && (s.get R.LCY_STATE_state == 0 || s.get R.LCY_STATE_state == 3)

/-- The lanes of a module at a training. -/
def trainLanes (tx rx : BitVec 68) : DlLanes :=
  ⟨tx.toNat % 2 ^ 64, tx.toNat / 2 ^ 64, List.replicate 4 none, rx.toNat % 2 ^ 64, rx.toNat / 2 ^ 64, List.replicate 4 none⟩

/-- R383: full width, then half width when HALF_WIDTH is agreed. -/
def DlLanes.train (x : DlLanes) (n : Nat) (halfOk : Bool) : Option (Option Nat × DlLanes) :=
  match x.fill n 0 64 true with
  | some y => some (none, y)
  | none => if halfOk then (x.half n true).map fun z => (some z.1, z.2) else none

/-- R383: one module trains. -/
def dlTrain (t : DlTrain) : Eff :=
  let i := t.module.val
  let agreed := t.ioCaps &&& t.cdCaps
  let n := if agreed.toNat.testBit 1 then 4 else 2
  let halfOk := agreed.toNat.testBit 3
  .all [
    put (R.DL_CAPS_io_caps (i / 6) (i % 6)) t.ioCaps.toNat, put (R.DL_CAPS_cd_caps (i / 6) (i % 6)) t.cdCaps.toNat,
    put (R.DL_CAPS_agreed (i / 6) (i % 6)) agreed.toNat,
    put (R.DL_CAPS_io_rev (i / 6) (i % 6)) t.ioRev.toNat, put (R.DL_CAPS_cd_rev (i / 6) (i % 6)) t.cdRev.toNat,
    put (R.DL_DIE_ID_cd_rev (i / 6)) t.cdRev.toNat,
    put (R.DL_STATUS_last_train_us (i / 6) (i % 6)) t.us.toNat,
    .upd (.dlEnd (i * 2) DlEnd.zero), .upd (.dlEnd (i * 2 + 1) DlEnd.zero),
    .look fun s =>
      if !agreed.toNat.testBit 0 ∨ !(t.ioRev == 1 || t.ioRev == 2) ∨ !(t.cdRev == 2 || t.cdRev == 3) then dlRetire i ST_STAGE_FAIL
      else match if s.dlForced i then none else (trainLanes t.nativeTx t.nativeRx).train n halfOk with
      | some (h, y) => dlTake i 2 h 0 y
      | none =>
        match (trainLanes t.fallbackTx t.fallbackRx).train n halfOk with
        | some (h, y) => .seq (dlTake i 4 h 0 y) (dlStatus i ST_DL_FALLBACK)
        | none => .seq (dlLanesPut i (trainLanes t.fallbackTx t.fallbackRx)) (dlRetire i ST_UNIT_RETIRED)]

/-- R385: the lanes repaired in module `i`, by direction. -/
def State.dlRepaired (s : State) (i : Nat) : Nat × Nat :=
  let n (v : Nat) : Nat := repaired ((List.range 4).map fun k => spareLane v k)
  (n (s.get (R.DL_SPARE_TX_spares (i / 6) (i % 6))), n (s.get (R.DL_SPARE_RX_spares (i / 6) (i % 6))))

/-! Out of use, and the stand-alone test (R395) -/

/-- R395, R396: a write of DL_CTRL.offline. -/
def dlOffline (i : Nat) (b : Bool) : Eff := .look fun s =>
  let d := i / 6
  let fld := R.DL_CTRL_offline d (i % 6)
  let last := (List.range 6).all fun m => d * 6 + m == i || decide (6 ≤ s.dl (d * 6 + m))
  if s.bit fld == b then .skip
  else if s.dl i = 0 ∨ s.dl i = 7 then putBit fld b
  else if b then
    (if s.dlHolds i then dlStatus i ST_BUSY
     else if last && s.get R.LCY_STATE_state != 3 then dlStatus i ST_LIFECYCLE
     else .all [putBit fld true, dlStatus i ST_OK, dlSet i 6 0])
  else .all [
    putBit fld false,
    .upd (.dlOld i (if s.dlForced i then 8 else 4)),
    addSat (R.DL_ERR_retrains d (i % 6)) 1,
    dlSet i 1 0]

def actDlOffline (who : Agent) (d m : Nat) (b : Bool) : Act := guardAct who (0x800 + d * 8 + m) 0 fun _ => (ST_OK, dlOffline (d * 6 + m) b)

/-- DL_OFFLINE. -/
def execDlOffline (who : Agent) (d : Fin 8) (m : Fin 6) (offline : Bool) (s : State) : Host.Outcome State Fault Refusal :=
  (runAct who (actDlOffline who d m offline)).done s

/-- R390, R396: a write of force_fallback. -/
def dlForce (i : Nat) (b : Bool) : Eff := .look fun s =>
  if b && !(s.get R.LCY_STATE_state == 0 || s.get R.LCY_STATE_state == 3) then dlStatus i ST_LIFECYCLE
  else putBit (R.DL_CTRL_force_fallback (i / 6) (i % 6)) b

/-- R395: a test starts on a module that is OFFLINE or RETIRED, while none runs; all six modules of a die out of use need
DIAGNOSTIC. Mode 0 (off) starts nothing. -/
def dlTestStart (i : Nat) : Eff := .look fun s =>
  let d := i / 6
  let m := i % 6
  let st := if s.dl i < 6 ∨ s.bit (R.DL_TEST_busy d m) then ST_BUSY
    else if ((List.range 6).all fun k => s.dl (d * 6 + k) == 6) && s.get R.LCY_STATE_state != 3 then ST_LIFECYCLE
    else ST_OK
  .seq (put (R.DL_TEST_status d m) st) (Eff.when (st == ST_OK && s.get (R.DL_TEST_mode d m) != 0) (putBit (R.DL_TEST_busy d m) true))

/-- A write of DL_TEST. -/
def actDlTest (who : Agent) (d m mode pattern cdEnd : Nat) (start : Bool) : Act := guardAct who (0x800 + d * 8 + m) 0x48 fun _ =>
  (ST_OK, .all [
    Eff.when (decide (mode < 3)) (put (R.DL_TEST_mode d m) mode),
    Eff.when (decide (pattern < 3)) (put (R.DL_TEST_pattern d m) pattern),
    put (R.DL_TEST_end d m) cdEnd,
    Eff.when start (dlTestStart (d * 6 + m))])

/-- DL_TEST_START. -/
def execDlTestStart (who : Agent) (d : Fin 8) (m : Fin 6) (mode pattern : Fin 3) (cdEnd : Bool) (s : State) :
    Host.Outcome State Fault Refusal := (runAct who (actDlTest who d m mode pattern (if cdEnd then 1 else 0) true)).done s

/-- DL_TEST_DONE: the lanes and spares that showed more than 2 errors. -/
def dlTestDone (d m lanes spares : Nat) : Eff := .look fun s => Eff.when (s.bit (R.DL_TEST_busy d m)) (.all [
  putBit (R.DL_TEST_busy d m) false, put (R.DL_TEST_FAIL_lanes d m) lanes, put (R.DL_TEST_FAIL_SP_spares d m) spares])

def execDlTestDone (d : Fin 8) (m : Fin 6) (lanes : BitVec 64) (spares : BitVec 4) (s : State) : Host.Outcome State Fault Refusal :=
  (dlTestDone d m lanes.toNat spares.toNat).done s

end Sys2Proof.Machine
end

