-- ==== Sys2Proof/Machine/Staging.lean ====
section
/-! DEFINITION. Commits of staged registers (00_scope.md R8, R9; 01_organisation.md R34, R35) with what a change of a field brings
about: TIDE_PERIOD (02_tide.md R55), routes (R67), seawalls (R311: whether or not the value differs), monitors (R449), hash maps (R381). -/

namespace Sys2Proof.Machine

/-- R45, R55: the result of a TIDE_PERIOD copy. -/
def State.periodStatus (s : State) (v : Nat) : Nat :=
  let p := v % 2 ^ 16
  let slack := v / 2 ^ 16 % 2 ^ 16
  let cut := v / 2 ^ 32 % 2 ^ 16
  if p < s.get R.LIC_FEATURES_min_tide_us then ST_FRANK_MISSING
  else if 64000 < p ∨ p / 4 < slack ∨ cut < 5 ∨ 200 < cut then ST_BAD_ARG
  else ST_OK

/-- R67: a commit of a route with segments in flight marks it broken, and the channel that sends on it halts. -/
def routeBreak (c r : Nat) : Eff := .look fun s => .seq (putBit (R.QUE_ROUTE_OUT_STATE_broken c r) true)
  (Eff.each (List.range 8) fun k =>
    match (s.qeQAt (c * 8 + k)).find? fun d => d.started && d.op == 1 && d.route == r with
    | some d => haltSource c k d.id d.pos (sramAddr (s.get (R.QUE_ROUTE_OUT_CFG_dest_cell c r))
        (s.get (R.QUE_ROUTE_OUT_CFG_ring_base c r) * 4096)) ST_CHANNEL_HALTED
    | none => .skip)

/-- A commit changes a route's configuration register; `s` is the state before the copy. -/
def routeCommit (s : State) (out : Bool) (c r : Nat) : Eff :=
  if out then (if s.routeBusy (some (c, r)) then routeBreak c r else routeInitFrom c r)
  else .look fun t =>
    let src := if s.routeBusy (s.routeFrom c r) then s.routeFrom c r else t.routeFrom c r
    if t.routeBusy src then (match src with | some y => routeBreak y.1 y.2 | none => .skip) else routeInitTo c r

/-- What follows from the copy of a register of a page class: `old` and `new` are its values, `s` the state before the copy. -/
def commitEffect (s : State) (c : Cls) (n off old new : Nat) : Eff :=
  if old = new ∧ c ≠ .swl then .skip
  else match c with
  | .cell => Eff.when (off == 0x100) (.upd (.buRound n (new / 2 ^ 14 % 16)))
  | .que =>
    if 0x8000 ≤ off ∧ off < 0x8400 then routeCommit s true n ((off - 0x8000) / 0x20)
    else if 0x9000 ≤ off ∧ off < 0x9400 then routeCommit s false n ((off - 0x9000) / 0x20)
    else .skip
  | .swl => Eff.when (decide (off < 0x800)) (wallClear (off / 0x20))
  | .mon => monClear (off / 0x100)
  | _ => .skip

/-- R8: one register's shadow becomes live. A TIDE_PERIOD out of its limits keeps the whole previous value. -/
def commitReg (key : Nat) (w : Word) : Eff := .look fun s =>
  match specAt key with
  | none => .skip
  | some (c, n, r) =>
    let old := (s.reg key).toNat
    let new := mergeFields r.fields .stg old w.toNat
    match c with
    | .dlDie => .skip
    | .tide =>
      if key = R.TIDE_PERIOD then
        .seq (put R.TIDE_STATUS_cfg_status (s.periodStatus new)) (Eff.when (s.periodStatus new == ST_OK) (putReg key (BitVec.ofNat 64 new)))
      else putReg key (BitVec.ofNat 64 new)
    | _ => .seq (putReg key (BitVec.ofNat 64 new)) (commitEffect s c n (key % 0x10000) old new)

/-- The shadows of an instance (R34). -/
def State.shadowsOf (s : State) (inst : Nat) : List (Nat × Option Word) := s.shadows.filter fun e => instPage (e.1 / 0x10000) == inst

/-- The map that a commit of a die page names (R381): entry by entry, from the shadow where there is one. -/
def State.hashShadow (s : State) (d : Nat) : List Nat := (List.range 48).map fun k =>
  (s.shadowsAt (R.DL_HASH d (k / 16))).elim (s.hashOf d k) fun w => w.toNat / 2 ^ (4 * (k % 16)) % 16

/-- R8, R34, R35: copy every shadow of a block instance; a copy counts, and no write is pending after it. -/
def commitInst (page : Nat) : Eff := .look fun s =>
  let inst := instPage page
  Eff.when (instStaged page) (.all [
    Eff.each (s.shadowsOf inst) fun e => (match e.2 with | some w => commitReg e.1 w | none => .skip),
    (match clsOf inst with
     | some (.dlDie, d) => Eff.when (!(s.shadowsOf inst).isEmpty) (hashCommit d (s.hashShadow d))
     | _ => .skip),
    Eff.each (s.shadowsOf inst) fun e => .upd (.shadows e.1 none),
    put (stagePending page) 0,
    addWrap (stageCount page) 1])

/-- A write of 1 to xx_COMMIT. -/
def actCommit (who : Agent) (page : Nat) : Act := guardAct who page 0xFFF8 fun _ => (ST_OK, commitInst page)

/-- COMMIT. -/
def execCommit (who : Agent) (page : BitVec 16) (s : State) : Host.Outcome State Fault Refusal := (runAct who (actCommit who page.toNat)).done s

/-- The instances whose commit_at_tide is 1 (R35). -/
def State.tideInsts (s : State) : List Nat :=
  ((s.regs.filter fun e => e.1 % 0x10000 == 0xFFF0 && e.2.toNat % 2 == 1).map fun e => e.1 / 0x10000).filter fun page =>
    s.mapStatus (regAddr page 0) 8 == ST_OK

/-- R35: the tide-edge copies. -/
def tideCopies : Eff := .look fun s => Eff.each s.tideInsts fun page => commitInst page

end Sys2Proof.Machine
end

