-- ==== Sys2Proof/Machine/Steps.lean ====
section
/-! DEFINITION. Steps (02_tide.md R37–R42, R48–R54, 06_cell.md R156, R160): the participation of threads, HEAD_END, STEP_END, FENCE,
the kill of a thread, and the completion of a district's step. -/

namespace Sys2Proof.Machine

/-! Participation (R38, R156) -/

/-- Thread `t` of cell `c` takes part in the steps of the live chart. -/
def State.inStep (s : State) (c t : Nat) : Bool :=
  s.bit (R.SEQ_THR_CFG_active c t) && !s.cellRetired c && !s.dieLost (c / 16) && (chartDistrictOf s.chartLive c).isSome

/-- A thread has retired STEP_END for step `k`, or counts as if it had (R160). -/
def State.thrDone (s : State) (c t k : Nat) : Bool :=
  s.thr c t == THR_PARKED || s.thr c t == THR_KILLED || decide (k < s.thrStepAt (c * 16 + t))

/-- R41, R55: step `k` is complete in a district; a district without participating threads counts as complete. -/
def State.stepDone (s : State) (d k : Nat) : Bool :=
  match chartDistrict s.chartLive d with
  | none => true
  | some r => (List.range 128).all fun c => !r.cells.testBit c ||
      (List.range 16).all fun t => !s.inStep c t || s.thrDone c t k

/-- The districts of the live chart. -/
def State.districts (s : State) : List Nat := (chartRecs s.chartLive 1).map fun r => r.u8 0

/-- Step `k` is complete in every district. -/
def State.allDone (s : State) (k : Nat) : Bool := s.districts.all fun d => s.stepDone d k

/-- The latest edge. -/
def State.edge (s : State) : Nat := s.get R.TIDE_EDGE_NUM_edge

/-- R41, R42: TIDE_DONE of a district: its oldest live step is complete. -/
def State.oldestDone (s : State) (d : Nat) : Bool := s.stepDone d s.edge && (s.edge == 0 || s.stepDone d (s.edge - 1))

/-- Show TIDE_DONE of a district. -/
def doneShow (d : Nat) : Eff := .look fun s =>
  putRegBit (if d < 64 then R.TIDE_DONE_LO else R.TIDE_DONE_HI) (d % 64) (s.oldestDone d)

/-- A thread starts step `n` at its head entry (R156). -/
def headStart (c t n : Nat) : Eff := .look fun s => .all [
  put (R.SEQ_THR_PC_pc c t) (s.get (R.SEQ_THR_CFG_head_pc c t) * 8),
  put (R.SEQ_THR_STATUS_section c t) 0,
  .upd (.thrStep (c * 16 + t) n),
  putThr c t THR_RUN]

/-! The edge after this one (R43, R44, R49, R57) -/

/-- The next whole microsecond (R43). -/
def ceilUs (x : Nat) : Nat := (x + 999) / 1000 * 1000

/-- Roles (TIDE_CTRL): 0 single, 1 master, 2 follower. -/
def State.role (s : State) : Nat := s.get R.TIDE_CTRL_role

/-- The overrun policy: a follower's TIDE_CTRL.policy has no effect (R57), its chart says what the group does. -/
def State.sheds (s : State) : Bool :=
  if s.role = 2 then (chartTide s.chartLive).u8 9 == 1 else s.bit R.TIDE_CTRL_policy

/-- The tide runs: RUNNING or HOLDOVER. -/
def State.tideRuns (s : State) : Bool := s.get R.TIDE_STATUS_state == 1 || s.get R.TIDE_STATUS_state == 3

/-- An overrun step of some district is still incomplete. -/
def State.overrunOpen (s : State) : Bool := s.overAt.any fun e => e.2 != 0

/-- R49, R57: a stretch stands: an overrun step is incomplete, or at a master, before it has announced the edge, reports stand. -/
def State.stretchOpen (s : State) : Bool := !s.sheds &&
  ((s.role == 0 && s.overrunOpen) || (s.role == 1 && s.edgeCut != s.edge + 1 && (s.overrunOpen || !s.reports.isEmpty)))

/-- The time of the next edge is open: a hold, a stretch, or a report at the master stands. -/
def State.nextOpen (s : State) : Bool :=
  s.holdSince.isSome || s.stretchOpen

/-- Show TIDE_NEXT_EDGE. -/
def nextShow : Eff := .look fun s => put R.TIDE_NEXT_EDGE_next_ns (if s.nextOpen then 2 ^ 64 - 1 else s.tideNext)

/-- Let the tide time reach `t`. -/
def reachTide (t : Nat) : Eff := .look fun s => reachTime ((t : Int) - s.tideOff).toNat

/-- R57: a follower reports that an overrun or a hold stands, or that it has ended. -/
def followerReport (st : Nat) : Eff := .look fun s =>
  let stands := s.overrunOpen || s.holdSince.isSome
  Eff.when (s.role == 2 && stands != s.reported) (.seq
    (gwSend 0x07 2 Config.masterModule ((if stands then 1 else 0) + st * 2 ^ 8) [] none none .skip)
    (.upd (.reported stands)))

/-! Completion of a district's step (R41, R48, R49, R54) -/

/-- R54: the latest overrun: the largest lateness at one edge, the lowest district among equals. -/
def lastOverrun (d n late : Nat) : Eff := .look fun s =>
  let same := s.get R.TIDE_LAST_OVERRUN_edge_low == n % 2 ^ 32
  let old := s.get R.TIDE_LAST_OVERRUN_lateness_us
  Eff.when (!same || decide (old < late) || (old == late && decide (d < s.get R.TIDE_LAST_OVERRUN_district))) (.all [
    put R.TIDE_LAST_OVERRUN_district d, put R.TIDE_LAST_OVERRUN_edge_low n,
    put R.TIDE_LAST_OVERRUN_lateness_us (min late (2 ^ 24 - 1))])

/-- R49, R57: the next edge is stretched to `t` or later; an edge counts as stretched once. -/
def stretchTo (t : Nat) : Eff := .look fun s => .all [
  .upd (.tideNext (ceilUs (max s.tideNext t))),
  Eff.when (s.stretchFor != s.edge + 1) (.seq (addSat R.TIDE_COUNTS_stretches 1) (.upd (.stretchFor (s.edge + 1)))),
  nextShow]

/-- R49: the last overrunning district is complete: the stretched edge, unless the tide no longer runs or a master has announced
the edge already (R57). -/
def stretchEnd : Eff := .look fun s =>
  Eff.when (s.tideRuns && !s.overrunOpen && !s.sheds && (s.role == 0 || (s.role == 1 && s.edgeCut != s.edge + 1)))
    (stretchTo (s.tideTime + s.tidePer - (s.slackAt - s.get R.TIDE_EDGE_TIME_edge_ns)))

/-- An overrun step is complete: its lateness, and what that ends. -/
def overrunEnd (d k : Nat) : Eff := .look fun s => Eff.when (s.overAtAt d == k + 1) (.all [
  lastOverrun d (k + 1) ((s.tideTime - s.slackAt + 999) / 1000),
  .upd (.overAt d 0),
  stretchEnd,
  followerReport ST_TIDE_OVERRUN])

/-- The deadline T + S of step `k`: of the edge after it, at its nominal time while it has not fired. -/
def State.deadline (s : State) (k : Nat) : Int :=
  if k + 1 = s.edge then s.slackAt else s.tideNext + s.get R.TIDE_PERIOD_slack_us * 1000

/-- R41: record that step `k` of a district has become complete, with its slack margin in µs. -/
def stepSettle (d k : Nat) : Eff := .look fun s =>
  Eff.when (s.stepDone d k && s.stepEndAt (d * 2 + k % 2) != k + 1) (.all [
    .upd (.stepEnd (d * 2 + k % 2) (k + 1)),
    .upd (.stepAt (d * 2 + k % 2) s.tideTime),
    Eff.when (s.allDone k) (.upd (.stepTime (k + 1, s.tideTime))),
    monSample 0x02 d ((s.deadline k - s.tideTime) / 1000),
    overrunEnd d k])

/-- After a thread of cell `c` has retired STEP_END or left the steps. -/
def stepCheck (c : Nat) : Eff := .look fun s =>
  match chartDistrictOf s.chartLive c with
  | none => .skip
  | some d => Eff.when (s.edge != 0) (.all [
      Eff.when (decide (1 < s.edge)) (stepSettle d (s.edge - 1)),
      stepSettle d s.edge,
      doneShow d])

/-! Outstanding work of a thread (R40, R126, R158, R161) -/

/-- Stores that have not been answered. -/
def State.storesOut (s : State) (c t : Nat) : Bool := (s.loadsAt (c * 16 + t)).any fun x => !x.load
/-- Passes. -/
def State.passesOut (s : State) (c t : Nat) (p : Pass → Bool) : Bool := (s.passQAt c).any fun x => x.thread == some t && p x
/-- Vector operations. -/
def State.vecOut (s : State) (c t : Nat) : Bool := (s.vecQAt c).any fun x => x.thread == t
/-- Descriptors. -/
def State.qeOut (s : State) (c t : Nat) (p : QeDesc → Bool) : Bool :=
  (List.range 8).any fun k => (s.qeQAt (c * 8 + k)).any fun x => x.thread == some t && p x
/-- Bank-unit commands. -/
def State.buWork (s : State) (c t : Nat) (p : BuCmd → Bool) : Bool :=
  s.buQ.any fun e => e.2.any fun x => x.thread == some (c, t) && p x

/-- FENCE: whether work of a kind set in fn is outstanding. -/
def State.fenceBusy (s : State) (c t fn : Nat) : Bool :=
  (fn.testBit 0 && s.storesOut c t) || (fn.testBit 1 && s.passesOut c t fun _ => true) || (fn.testBit 2 && s.vecOut c t) ||
    (fn.testBit 3 && s.qeOut c t fun _ => true) || (fn.testBit 4 && s.buWork c t fun _ => true)

/-- SEQ_FENCE: the thread goes on once nothing that it waits for is outstanding. -/
def execSeqFence (c : Fin 128) (t : Fin 16) (d a b : Fin 32) (fn : BitVec 9) (imm : BitVec 32) (s : State) :
    Host.Outcome State Fault Refusal :=
  (fetched c t (seqWord 0x28 d a b fn imm) (issue c t 31 fn (.look fun s => Eff.when (!s.fenceBusy c t fn.toNat) (nextPc c t)))).done s

/-- The work of step `k` that STEP_END awaits. -/
def State.stepBusy (s : State) (c t k : Nat) : Bool :=
  (s.passesOut c t fun x => x.stepBound && x.step == k) || s.vecOut c t ||
    (s.qeOut c t fun x => x.flags % 2 == 1 && x.step == k) || (s.buWork c t fun x => x.stepBound && x.step == k)

/-! The instructions -/

/-- Bytes of one batch table (R366). -/
def chartZ (img : List Byte) (d : Nat) : Nat := (64 * ((chartFill img d).2.2 + 1) + 4095) / 4096 * 4096

/-- The batch-table area of a district. -/
def chartBatch (img : List Byte) (d : Nat) : Nat := match chartDistrict img d with
  | some r => r.u 8 8
  | none => 0

/-- The table of step `n` (R366). -/
def batchTable (img : List Byte) (d n : Nat) : Nat := chartBatch img d + n % 4 * chartZ img d

/-- The staging of a sequence (R366). -/
def seqStaging (img : List Byte) (d seq : Nat) : Nat := chartBatch img d + 4 * chartZ img d + seq * 2048

/-- SEQ_HEAD_END (R39): the thread waits until step n − 1 of its district is complete, which it need not in the first step after
a tide start (step 0 is no step), and gets the address of the batch table. -/
def seqHeadEnd (c t d : Nat) (fn : BitVec 9) : Eff := issue c t 0 fn (.look fun s =>
  let n := s.thrStepAt (c * 16 + t)
  match chartDistrictOf s.chartLive c with
  | none => trapIllegal c t
  | some dist =>
    if !s.bit (R.SEQ_THR_CFG_active c t) then trapIllegal c t
    else Eff.when (n == s.tideFirst || n == 0 || s.stepDone dist (n - 1)) (.all [
      putSreg c t d (BitVec.ofNat 64 (batchTable s.chartLive dist n)),
      put (R.SEQ_THR_STATUS_section c t) 1,
      nextPc c t]))

def execSeqHeadEnd (c : Fin 128) (t : Fin 16) (d a b : Fin 32) (fn : BitVec 9) (imm : BitVec 32) (s : State) :
    Host.Outcome State Fault Refusal :=
  (fetched c t (seqWord 0x30 d a b fn imm) (seqHeadEnd c t d fn)).done s

/-- SEQ_STEP_END (R40, R156): once the step-bound work of the step is complete the thread parks; a thread that the next edge has
passed starts that step at once. -/
def seqStepEnd (c t : Nat) (fn : BitVec 9) : Eff := issue c t 0 fn (.look fun s =>
  let n := s.thrStepAt (c * 16 + t)
  if !s.bit (R.SEQ_THR_CFG_active c t) || (chartDistrictOf s.chartLive c).isNone then trapIllegal c t
  else Eff.when (!s.stepBusy c t n) (.all [
    put (R.SEQ_THR_STATUS_section c t) 2,
    nextPc c t,
    if n < s.edge then headStart c t s.edge else putThr c t THR_PARKED,
    stepCheck c]))

def execSeqStepEnd (c : Fin 128) (t : Fin 16) (d a b : Fin 32) (fn : BitVec 9) (imm : BitVec 32) (s : State) :
    Host.Outcome State Fault Refusal :=
  (fetched c t (seqWord 0x31 d a b fn imm) (seqStepEnd c t fn)).done s

/-! The kill of a thread (R160) -/

/-- A condition that the step `k` of a district has met, for the sequences in it (R367). -/
def markStep (d k st : Nat) : Eff := .look fun s => Eff.each s.seqs fun e =>
  match e.2 with
  | some r => Eff.when (r.joined.any fun j => j.1 == d && j.2.1 == k) (.upd (.seqs e.1 (some { r with marks := r.marks ++ [st] })))
  | none => .skip

/-- The step that a thread is in: the one it has not retired, else the latest. -/
def State.currentStep (s : State) (c t : Nat) : Nat := if s.thr c t == THR_PARKED then s.edge else s.thrStepAt (c * 16 + t)

/-- THREAD_KILL: in every state the thread leaves the steps until the next chart apply; the submissions of its district's current
step carry ST_SEQ_TRAP. -/
def actThreadKill (who : Agent) (c t : Nat) : Act := guardAct who (c * 16 + 1) (t * 0x40 + 8) fun s =>
  (ST_OK, Eff.when (s.thr c t != THR_KILLED) (.all [
    leaveWait c t,
    (match chartDistrictOf s.chartLive c with
     | some d => markStep d (s.currentStep c t) ST_SEQ_TRAP
     | none => .skip),
    putThr c t THR_KILLED,
    stepCheck c]))

def execThreadKill (who : Agent) (c : Fin 128) (t : Fin 16) (s : State) : Host.Outcome State Fault Refusal :=
  (runAct who (actThreadKill who c t)).done s

end Sys2Proof.Machine
end

