-- ==== Sys2Proof/Machine/Retire.lean ====
section
/-! DEFINITION. Retirement of cells, bank units and die-link modules (18_errors_service.md R468, R469, 01_organisation.md R15, R22) and
the rotations that the firmware derives from the live chart (12_chart.md R345). -/

namespace Sys2Proof.Machine

/-! Rotations (R345) -/

/-- Bytes of an image replaced from an offset on. -/
def splice (img : List Byte) (off : Nat) (bs : List Byte) : List Byte := img.take off ++ bs ++ img.drop (off + bs.length)

/-- A set of cells under a permutation. -/
def permMask (perm : Nat → Nat) (m : Nat) : Nat := (List.range 128).foldl (fun n c => if m.testBit c then n + 2 ^ perm c else n) 0

/-- One byte of a record under a permutation. -/
def permByte (perm : Nat → Nat) (i : Nat) (bs : List Byte) : List Byte := bs.set i (BitVec.ofNat 8 (perm (byteAt bs i)))

/-- An owner entry under a permutation: the qualifier of the NoC class is a cell (R169). -/
def permOwner (perm : Nat → Nat) (e : Nat) : Nat :=
  if e % 16 = 9 ∧ e / 16 % 256 < 128 then 9 + perm (e / 16 % 256) * 16 + e / 4096 * 4096 else e

/-- The bytes of a record with its cell numbers permuted. -/
def recPerm (perm : Nat → Nat) (r : ChartRec) : List Byte :=
  match r.ty with
  | 0x1 => splice r.b 16 (toLE 16 (permMask perm (r.u 16 16)))
  | 0x2 => permByte perm 0 r.b
  | 0x3 => permByte perm 0 (permByte perm 2 r.b)
  | 0x4 => splice (permByte perm 0 r.b) 16 ((List.range 24).flatMap fun b => toLE 2 (permOwner perm (r.u (16 + 2 * b) 2)))
  | 0x5 => (match r.u8 0 with
    | 1 => splice r.b 16 (toLE 16 (permMask perm (r.u 16 16)))
    | 3 => permByte perm 1 r.b
    | _ => r.b)
  | 0x6 => (List.range 128).map fun c => ((List.range 128).find? fun i => perm i == c).elim 0 fun i => r.b.getD i 0
  | 0x7 => permByte perm 0 r.b
  | 0xD => (List.range (r.u8 1)).foldl (fun bs i => permByte perm (16 + i) bs) r.b
  | 0xE => if [0x06, 0x07, 0x0D].contains (r.u 2 2) then splice r.b 4 (toLE 4 (perm (r.u 4 4))) else r.b
  | _ => r.b

/-- R345: an image with the cell numbers permuted in every section. -/
def rotateImg (perm : Nat → Nat) (img : List Byte) : List Byte :=
  (chartAll img).foldl (fun m r => splice m r.off (recPerm perm r)) img

/-- The permutation that swaps two cells. -/
def swapCells (a b : Nat) (c : Nat) : Nat := if c = a then b else if c = b then a else c

/-- R345: the firmware may derive the rotation: nothing is loaded, and the image passes checks 0x07 to 0x22. -/
def State.rotationOk (s : State) (img : List Byte) : Bool :=
  s.get R.CHT_STATUS_state == CHT_EMPTY && s.bit R.CHT_STATUS_live && (check07 img).isNone && (s.chartRecordFail true img).isNone

/-- A rotation begins: the derived image is staged; once it is STAGED the firmware arms it for the next edge. -/
def chartRotate (img : List Byte) : Eff := .all [
  .upd (.chart img),
  put R.CHT_STATUS_rotation 1,
  put R.CHT_STAGED_ID_chart_id (chartId img),
  .upd (.chartLoad none),
  chtState CHT_STAGING]

/-- A cell without an active thread in the live chart. -/
def State.cellIdle (s : State) (c : Nat) : Bool := !((chartRecs s.chartLive 2).any fun r => r.u8 0 == c && r.u8 2 % 2 == 1)

/-- The member that takes the place of cell `c`: the first of its rotation set without an active thread. -/
def State.cellStandIn (s : State) (c : Nat) : Option Nat :=
  match (chartRecs s.chartLive 0xD).find? fun r => (setCells r).contains c with
  | some r => (setCells r).find? fun m => m != c && !s.cellRetired m && s.cellIdle m
  | none => none

/-! The retirement of a unit -/

/-- The work of a cell whose logic is off: its threads, queues and waiters (R160, R180, R268, R314). -/
def cellWorkLost (c : Nat) : Eff := .all [
  .look fun s => Eff.each (s.kvtQAt c) fun x => kvComplete c x ST_UNIT_RETIRED,
  .upd (.qeSubs c []),
  Eff.each (List.range 8) fun k => .seq (qeEndAll c k ST_UNIT_RETIRED) (qeShow c k),
  Eff.each (List.range 16) fun t => putThr c t THR_PARKED,
  .upd (.loadsDrop fun k => k / 16 == c), .upd (.vecQDrop fun k => k == c),
  .upd (.passQDrop fun k => k == c), .upd (.waitersDrop fun k => k / 48 == c),
  .upd (.kvtMigQDrop fun k => k == c), .upd (.kvtMovesDrop fun k => k == c), .upd (.kvtFreesDrop fun k => k == c),
  .upd (.kvtStagedDrop fun k => k == c)]

/-- R15, R468, R469: a cell is retired. -/
def cellRetire (c st : Nat) : Eff := .look fun s => Eff.when (!s.cellRetired c) (.all [
  cellWorkLost c,
  routesRetire c,
  putRegBit (if c < 64 then R.SVC_RETIRED_CELL_LO else R.SVC_RETIRED_CELL_HI) (c % 64) true,
  evLevel (c * 8) false,
  evLevel (c * 8 + 1) false,
  setReplace 0 st c,
  evFire 0x7C1,
  chartRecheck,
  retireDone 0 c])

/-- R232, R468, R469: a bank unit is retired: MEMORY mode; its commands are rejected. -/
def unitRetire (u st : Nat) : Eff := .look fun s => Eff.when (!s.unitRetired u) (.all [
  buEndAll u ST_UNIT_RETIRED 6,
  memoryModeNow u,
  putRegBit (R.SVC_RETIRED_BU (u / 64)) (u % 64) true,
  setReplace 1 st u,
  evFire 0x7C1,
  chartRecheck,
  retireDone 1 u])

/-! The relocation of a pseudo-channel's pages (R468) -/

/-- The addresses of the entries of a sequence. -/
def KvSeq.ptes (e : KvSeq) : List Nat := (List.range e.nLh).flatMap fun lh => (List.range e.ppl).map fun b => e.pte lh b

/-- The entries (address, value) of a list of addresses that refer to a page of unit `u`. -/
def unitEntries (u : Nat) : List Nat → List (Nat × Nat) → (List (Nat × Nat) → Eff) → Eff
  | [], got, k => k got
  | a :: rest, got, k => memRead (.core 0) .normal a 8 fun r =>
      let p := leNat r.data
      unitEntries u rest (if ptPresent p && !ptExt p && ptUnit p == u then got ++ [(a, p)] else got) k

/-- The same over the valid sequence entries of a cell. -/
def unitRefs (c u : Nat) : List Nat → List (Nat × Nat) → (List (Nat × Nat) → Eff) → Eff
  | [], got, k => k got
  | q :: rest, got, k => fwSeqEntry c q fun e =>
      if e.flags % 2 = 0 then unitRefs c u rest got k else unitEntries u e.ptes got fun got => unitRefs c u rest got k

/-- A page that an operation or a move holds locked. -/
def State.pageLocked (s : State) (c p : Nat) : Bool :=
  ((s.kvtQAt c).any fun x => x.locks.contains (ptPage p)) || (s.kvtMovesAt c).any fun m => ptPage m.old == ptPage p

/-- Rewrite every entry that refers to a page. -/
def repointAll (new : Nat) : List (Nat × Nat) → Eff → Eff
  | [], k => k
  | (a, p) :: rest, k => memWrite (.core 0) .normal a
      (toLE 8 (ptMake new 1 (if ptCow p then 1 else 0) (if ptGlobal p then 1 else 0) + p / 2 ^ 46 % 2 * 2 ^ 46)) fun _ _ => repointAll new rest k

/-- Move one page to a free page of another pseudo-channel of the cell, with its count and every entry; without one the page
stays for a later edge. -/
def relocatePage (c : Fin 128) (u p : Nat) (refs : List (Nat × Nat)) : Eff := .look fun s =>
  let bad := fun a st => kvFault c none a st
  if s.pageLocked c p then .skip
  else flSingles c none bad ((flOrder (u % 8)).filter fun i => i != u % 8) 1 [] fun got =>
    match got with
    | [] => .skip
    | q :: _ => pageMove c p q fun st => .seq (Eff.when (st != ST_OK) (kvFault c none (pageAt p 0) st))
        (rcRead c (ptRc p) bad fun n sat => rcWrite c (ptRc q) n sat bad (rcWrite c (ptRc p) 0 false bad
          (repointAll q (refs.filter fun r => ptPage r.2 == ptPage p) .skip)))

/-- Move every page that entries refer to. -/
def relocateUnit (c : Fin 128) (u : Nat) : Eff := unitRefs c u (List.range 4096) [] fun refs =>
  Eff.each ((refs.map fun r => (ptPage r.2, r.2)).foldl (fun ps r => if ps.any fun q => q.1 == r.1 then ps else ps ++ [r]) [])
    fun r => relocatePage c u r.2 refs

/-- Pages of unit `u` that a staged copy, a move or a page to be freed still uses. -/
def State.unitHeld (s : State) (c u : Nat) : Bool :=
  let of := fun p => !ptExt p && ptUnit p == u
  ((s.kvtStagedAt c).any fun y => of y.entry) || ((s.kvtMovesAt c).any fun m => of m.old || of m.new) || (s.kvtFreesAt c).any of

/-- The retirement of a bank unit at an edge: relocation, and, once no page is left, the retirement. -/
def unitRetireEdge (u : Nat) : Eff :=
  let c : Fin 128 := ⟨u / 8 % 128, Nat.mod_lt _ (by decide)⟩
  .seq (relocateUnit c u) (unitRefs c u (List.range 4096) [] fun refs => .look fun s =>
    Eff.when (refs.isEmpty && !s.unitHeld c u) (unitRetire u ST_UNIT_RETIRED))

/-- Step 6 of an edge for the retirements that wait: a cell goes once the live chart names it in no district. -/
def retireEdge : Eff := .look fun s => Eff.each s.retirePend fun x => .look fun s =>
  if x.2.1 = 2 then .skip
  else if x.2.1 = 0 then Eff.when (chartDistrictOf s.chartLive x.2.2).isNone (cellRetire x.2.2 ST_UNIT_RETIRED)
  else unitRetireEdge x.2.2

/-! The commands -/

/-- RETIRE_UNIT of a kind (a kind that R468 does not list is out of range): identifier range and an earlier retirement are looked at first. -/
def retireUnit (n kind lim : Nat) (gone : State → Nat → Bool) (k : HCmd → Nat → Eff) : Eff := .look fun s =>
  match s.cmds[n]? with
  | none => .skip
  | some y =>
    if y.op ≠ 0x52 ∨ min (y.arg 8 1) 4 % 4 ≠ kind then .skip
    else hostStart n 0x52 fun x => .look fun s =>
      let u := x.arg 10 2
      if 3 < x.arg 8 1 ∨ lim ≤ u then hcFinish x.id ST_BAD_ARG 0
      else if gone s u then hcFinish x.id ST_UNIT_RETIRED 0
      else k x u

/-- A retirement waits for a tide edge. -/
def retireWait (x : HCmd) (kind u : Nat) : Eff := .look fun s => .seq (.upd (.retirePend (s.retirePend ++ [(x.id, kind, u)]))) (hcRun x.id)

/-- RETIRE_CELL. -/
def retireCell (n : Nat) : Eff := retireUnit n 0 128 (fun s c => s.cellRetired c) fun x c => .look fun s =>
  if (chartDistrictOf s.chartLive c).isNone then retireWait x 0 c
  else match s.cellStandIn c with
  | none => hcFinish x.id ST_BUSY 0
  | some m =>
    let img := rotateImg (swapCells c m) s.chartLive
    if s.rotationOk img then .seq (chartRotate img) (retireWait x 0 c) else hcFinish x.id ST_BUSY 0

def execRetireCell (n : Fin 2048) (s : State) : Host.Outcome State Fault Refusal := (retireCell n).done s

/-- The live chart asks for PROCESSOR mode of a unit or names it as a home. -/
def State.unitNamed (s : State) (u : Nat) : Bool :=
  chartMode s.chartLive u || (chartRecs s.chartLive 7).any fun r => r.u8 0 == u / 8 && r.u8 3 == u % 8

/-- RETIRE_BANK_UNIT. -/
def retireBankUnit (n : Nat) : Eff := retireUnit n 1 1024 (fun s u => s.unitRetired u) fun x u => .look fun s =>
  if s.unitNamed u then hcFinish x.id ST_BUSY 0
  else .seq (.look fun s => (actBuMode (.core 0) u 0 s).2) (retireWait x 1 u)

def execRetireBankUnit (n : Fin 2048) (s : State) : Host.Outcome State Fault Refusal := (retireBankUnit n).done s

/-- RETIRE_DIE_LINK: another module of the die must be up; the slots move, and once they have drained the module is RETIRED
(R18, R381, R468). -/
def retireDieLink (n : Nat) : Eff := retireUnit n 2 48 (fun s i => s.dl i == 7) fun x i => .look fun s =>
  if (List.range 6).any fun m => i / 6 * 6 + m != i && s.dlUp (i / 6 * 6 + m) then
    .all [retireWait x 2 i,
      .look fun s => Eff.when (s.dlHolds i) (hashCommit (i / 6) (s.hashPlan (i / 6) (s.hashMap (i / 6)))),
      dlLeave i]
  else hcFinish x.id ST_BUSY 0

def execRetireDieLink (n : Fin 2048) (s : State) : Host.Outcome State Fault Refusal := (retireDieLink n).done s

end Sys2Proof.Machine
end

