-- ==== Sys2Proof/Machine/Dispatcher.lean ====
section
/-! DEFINITION. The firmware dispatcher (04_matrix_array.md R117, 02_tide.md R46, R51, R52, 12_chart.md R341, 13_host_interface.md
R365–R367): admission, submissions, batch tables, shedding, completions and the retirement of sequences. -/

namespace Sys2Proof.Machine

/-! Sequences -/

/-- Change a sequence. -/
def seqSet (q : Nat) (f : SeqRec → SeqRec) : Eff := .look fun s => .upd (.seqs q ((s.seqsAt q).map f))

/-- The admitted sequences. -/
def State.seqList (s : State) : List (Nat × SeqRec) := s.seqs.filterMap fun e => e.2.map fun r => (e.1, r)

/-- `a` stands before `b` in a table: descending priority, then ascending number (R366). -/
def seqBefore (a b : Nat × SeqRec) : Bool := decide (b.2.prio < a.2.prio) || (a.2.prio == b.2.prio && decide (a.1 < b.1))

/-- Insert a sequence in table order. -/
def seqInsert (a : Nat × SeqRec) : List (Nat × SeqRec) → List (Nat × SeqRec)
  | [] => [a]
  | b :: rest => if seqBefore a b then a :: b :: rest else b :: seqInsert a rest

/-- Sequences in table order. -/
def seqSort (xs : List (Nat × SeqRec)) : List (Nat × SeqRec) := xs.foldl (fun ys a => seqInsert a ys) []

/-- At how many cutoffs a sequence has been held in a district. -/
def SeqRec.heldAt (r : SeqRec) (d : Nat) : Nat := ((r.held.find? fun h => h.1 == d).map fun h => h.2).getD 0

/-- Set that count. -/
def SeqRec.hold (r : SeqRec) (d n : Nat) : SeqRec := { r with held := (d, n) :: r.held.filter fun h => h.1 != d }

/-- Fields of a submission's descriptor (R365). -/
def subArg (desc : List Byte) (i n : Nat) : Nat := leAt desc i n

/-! Staging of the input (R365, R366) -/

/-- Copy the input of a sequence to the staging of a district, unless it lies there. -/
def stageInput (img : List Byte) (d q : Nat) : Eff := .look fun s =>
  match s.seqsAt q with
  | none => .skip
  | some r => Eff.when (!r.staged.contains (d, seqStaging img d q)) (.seq
      (memWrite (.core 0) .normal (seqStaging img d q) r.input fun _ _ => .skip)
      (seqSet q fun r => { r with staged := (d, seqStaging img d q) :: r.staged.filter fun x => x.1 != d }))

/-! Batch tables (R117, R366) -/

/-- The header of a table. -/
def batchHeader (n d count shed : Nat) : List Byte := toLE 8 n ++ toLE 4 count ++ toLE 2 d ++ toLE 2 shed ++ List.replicate 48 0

/-- The entry of a sequence. -/
def batchEntry (q : Nat) (r : SeqRec) (d staging : Nat) : List Byte :=
  let desc := (r.sub.map fun x => x.2).getD []
  toLE 2 q ++ toLE 1 r.prio ++ toLE 1 (if r.fresh.contains d then 2 else 0) ++ toLE 4 r.pos ++
    toLE 2 (subArg desc 10 2) ++ toLE 2 (subArg desc 12 2) ++ toLE 4 0 ++ toLE 8 (subArg desc 40 8) ++
    toLE 4 (subArg desc 14 2) ++ toLE 4 (subArg desc 16 4) ++ toLE 8 staging ++ toLE 8 (staging + 1024) ++ List.replicate 16 0

/-- A sequence is being evacuated, by a host command or by an operation of some KVT (R267). -/
def State.seqLeaving (s : State) (q : Nat) : Bool :=
  (s.cmds.any fun x => x.op == 0x43 && x.phase == 1 && x.arg 8 2 == q) ||
    s.kvtQ.any fun e => e.2.any fun x => x.code == 8 && x.phase != 0 && x.checked && x.seq == q

/-- R117: the sequences of a district with a pending submission, in table order. -/
def State.candidates (s : State) (d : Nat) : List (Nat × SeqRec) := seqSort (s.seqList.filter fun e =>
  e.2.sub.isSome && e.2.districts.testBit d && e.2.retire.isNone && !s.seqLeaving e.1 && !(e.2.joined.any fun j => j.1 == d))

/-- R117: the sequences that join the next step of a district. -/
def State.joiners (s : State) (img : List Byte) (d : Nat) : List (Nat × SeqRec) :=
  let xs := s.candidates d
  let (f, w, lim) := chartFill img d
  if f ≤ xs.length || xs.any fun e => decide (w ≤ e.2.heldAt d) then xs.take lim else []

/-- Close the table of step `n` of a district. -/
def cutDistrict (img : List Byte) (n d : Nat) : Eff := .look fun s =>
  let xs := s.joiners img d
  let rest := (s.candidates d).filter fun e => !(xs.any fun x => x.1 == e.1)
  let a := batchTable img d n
  .all [
    Eff.each xs fun e => stageInput img d e.1,
    memWrite (.core 0) .normal a (batchHeader n d xs.length 0 ++ xs.flatMap fun e => batchEntry e.1 e.2 d (seqStaging img d e.1))
      fun _ _ => .skip,
    Eff.each (xs.zip (List.range xs.length)) fun e => seqSet e.1.1 fun r =>
      { r with joined := r.joined ++ [(d, n, a + 64 + 64 * e.2, seqStaging img d e.1.1)] },
    Eff.each rest fun e => seqSet e.1 fun r => r.hold d (r.heldAt d + 1)]

/-- R340, R341, R346: the armed chart applies at edge `n`: the edge it is armed for, or a later one when that has passed. -/
def State.appliesAt (s : State) (n : Nat) : Bool :=
  let t := s.get R.CHT_ARM_target_edge
  s.get R.CHT_STATUS_state == CHT_ARMED && (t == 0 || decide ((n + 2 ^ 32 - t) % 2 ^ 32 < 2 ^ 31))

/-- The table of a district with no entry. -/
def emptyTable (img : List Byte) (n d : Nat) : Eff := memWrite (.core 0) .normal (batchTable img d n) (batchHeader n d 0 0) fun _ _ => .skip

/-- A sequence leaves step `n`; it joins the next step whatever the fill. -/
def SeqRec.leave (r : SeqRec) (n : Nat) : SeqRec :=
  let left := (r.joined.filter fun j => j.2.1 == n).map fun j => j.1
  let stay := r.joined.filter fun j => j.2.1 != n
  left.foldl (fun r d => r.hold d 255) { r with joined := stay, marks := if stay.isEmpty then [] else r.marks }

/-- Nothing has joined step `n`: its edge does not fire, or fires without the chart that its tables were built for. -/
def unjoin (n : Nat) : Eff := .look fun s =>
  Eff.each (s.seqList.filter fun e => e.2.joined.any fun j => j.2.1 == n) fun e => seqSet e.1 fun r => r.leave n

/-- R346: the batches of step `n` are empty under the live chart. -/
def emptyStep (n : Nat) : Eff := .look fun s => .seq (unjoin n) (Eff.each s.districts fun d => emptyTable s.chartLive n d)

/-! Shedding (R51, R52) -/

/-- Set the masked flag of an entry. -/
def maskEntry (a : Nat) : Eff := memRead (.core 0) .normal (a + 3) 1 fun r =>
  memWrite (.core 0) .normal (a + 3) (toLE 1 (Nat.lor (byteAt r.data 0) 1)) fun _ _ => .skip

/-- R52: a district has released HEAD_END for step `n`: a thread of it has gone past it. -/
def State.released (s : State) (d n : Nat) : Bool := (List.range 2048).any fun i =>
  s.inStep (i / 16) (i % 16) && chartDistrictOf s.chartLive (i / 16) == some d && s.thrStepAt i == n &&
    s.get (R.SEQ_THR_STATUS_section (i / 16) (i % 16)) != 0

/-- Shed a sequence from step `n`: a masked row in the districts that have not released HEAD_END; the others compute it in full,
and its results are discarded (R52). -/
def shedSeq (n : Nat) (e : Nat × SeqRec) : Eff := .all [
  .look fun s => Eff.each (e.2.joined.filter fun j => j.2.1 == n && !s.released j.1 n) fun j => maskEntry j.2.2.1,
  seqSet e.1 fun r => r.leave n,
  (match e.2.sub with
   | some x => hcSet x.1 fun y => { y with interims := y.interims ++ [ST_SHED] }
   | none => .skip)]

/-- The sequences of step `n`, in table order. -/
def State.stepSeqs (s : State) (n : Nat) : List (Nat × SeqRec) := seqSort (s.seqList.filter fun e => e.2.joined.any fun j => j.2.1 == n)

/-- R51: how many of `n` sequences are shed. -/
def shedCount (pct n : Nat) : Nat := if n = 0 then 0 else max 1 ((pct * n + 99) / 100)

/-- Shed from step `n`: the last in table order go. -/
def shed (n : Nat) : Eff := .look fun s =>
  let xs := s.stepSeqs n
  let k := shedCount (s.get R.TIDE_POLICY_shed_pct) xs.length
  Eff.when (k != 0) (.all [
    Eff.each (xs.drop (xs.length - k)) fun e => shedSeq n e,
    Eff.each s.districts fun d => memWrite (.core 0) .normal (batchTable s.chartLive d n + 14) (toLE 2 k) fun _ _ => .skip,
    addSat R.TIDE_COUNTS_sheds 1])

/-! Admission (R236, R237, R365) -/

/-- The layer-halves of a cell that are used: up to the highest that is defined. -/
def State.kvUsed (s : State) (c : Nat) : Nat := (List.range 128).foldl (fun n lh => if s.kvValid c lh then lh + 1 else n) 1

/-- R237: entries per layer-half for `tok` tokens. -/
def State.kvPpl (s : State) (c tok : Nat) : Nat :=
  let rMax := (List.range (s.kvUsed c)).foldl (fun m lh => if s.kvValid c lh then max m (s.kvR c lh) else m) 0
  max 1 ((tok * rMax + 65535) / 65536)

/-- The 32 bytes of a sequence entry. -/
def kvEntry (base ppl nLh unit sum tok : Nat) : List Byte :=
  toLE 8 base ++ toLE 2 ppl ++ toLE 1 nLh ++ toLE 1 1 ++ toLE 2 0 ++ toLE 2 unit ++ toLE 8 sum ++ toLE 4 tok ++ toLE 4 0

/-- The firmware takes memory for a table and summaries, clears the entries and writes the sequence entry. -/
def admitCell (q tok c : Nat) : Eff := withFree fun b => withFree fun u => withFree fun o => .look fun s =>
  let base := b.toNat % 2 ^ 48 / 64 * 64
  let ppl := s.kvPpl c tok
  let nLh := s.kvUsed c
  .seq (memWrite (.core 0) .normal base (List.replicate (8 * ppl * nLh) 0) fun _ _ => .skip)
    (memWrite (.core 0) .normal (s.kvSeqAddr c q) (kvEntry base ppl nLh (u.toNat % 1024) o.toNat tok) fun _ _ => .skip)

/-- The cells that a set of districts has under the live chart. -/
def State.maskCells (s : State) (mask : Nat) : List (Fin 128) := (List.finRange 128).filter fun c => !s.cellRetired c && !s.dieLost (c / 16) &&
  match chartDistrictOf s.chartLive c with
  | some d => mask.testBit d
  | none => false

/-- The record of a newly admitted sequence. -/
def admitRec (x : HCmd) (pos : Nat) : SeqRec :=
  let ds := x.arg 24 16
  ⟨ds, x.arg 10 1, x.arg 11 1, x.arg 16 4, pos, (List.range 128).filter fun d => ds.testBit d, none, [], [], [], [], [], none⟩

/-- The sequence entry of a cell as it stands in memory. -/
def State.seqEntry (s : State) (c q : Nat) : KvSeq := kvSeqOf (s.kvSeqAddr c q) (s.bytes (s.kvSeqAddr c q) 32)

/-- The page table entries of a sequence. -/
def State.seqPtes (s : State) (c q : Nat) : List Nat :=
  let e := s.seqEntry c q
  (List.range (e.nLh * e.ppl)).map fun i => leNat (s.bytes (e.base + 8 * i) 8)

/-- R251: the saturated pages of a sequence that no sequence table of the cell refers to any more. -/
def State.satPages (s : State) (c q : Nat) : List Nat :=
  let sats := ((s.seqPtes c q).filter fun p => ptRc p != 0 && leNat (s.bytes (s.rcAddr c (ptRc p) + 2) 1) % 2 == 1).eraseDups
  sats.filter fun p => (List.range 4096).all fun r =>
    (s.seqEntry c r).flags % 2 == 0 || (s.seqPtes c r).all fun x => !ptPresent x || ptPage x != ptPage p

/-- Clear valid in the entries of a sequence; the firmware reclaims the saturated pages that nothing refers to (R251). -/
def dropEntries (q : Nat) (cells : List (Fin 128)) : Eff := Eff.each cells fun c => .look fun s => .seq
  (memRead (.core 0) .normal (s.kvSeqAddr c q + 11) 1 fun r =>
    memWrite (.core 0) .normal (s.kvSeqAddr c q + 11) (toLE 1 (byteAt r.data 0 / 2 * 2)) fun _ _ => .skip)
  (.look fun s => Eff.each (s.satPages c q) fun p => rcWrite c (ptRc p) 0 false (fun _ _ => .skip) (flReturn c p .skip))

/-- The arguments of SEQ_ADMIT. -/
def HCmd.fork (x : HCmd) : Bool := x.arg 12 1 % 2 == 1

/-- R365: the outcome of an admission before anything is written. -/
def State.admitStatus (s : State) (x : HCmd) : Nat :=
  let ds := x.arg 24 16
  if 4095 < x.arg 8 2 ∨ 127 < x.arg 11 1 ∨ x.arg 16 4 = 0 ∨ 1048576 < x.arg 16 4 ∨ (x.fork ∧ 4095 < x.arg 14 2) then ST_BAD_ARG
  else if (s.seqsAt (x.arg 8 2)).isSome then ST_BUSY
  else if !ds.testBit (x.arg 11 1) || (List.range 128).any fun d => ds.testBit d && !chartActive s.chartLive d then ST_BAD_ARG
  else if x.fork then (match s.seqsAt (x.arg 14 2) with
    | none => ST_KV_NOT_PRESENT
    | some p => if p.pos < x.arg 20 4 then ST_KV_RANGE else ST_OK)
  else ST_OK

/-- SEQ_ADMIT: the entries are written; a fork waits for SHARE in every cell. -/
def seqAdmit (n : Nat) : Eff := hostGo n 0x30
  (fun x => .look fun s =>
    let q := x.arg 8 2
    let cells := s.maskCells (x.arg 24 16)
    if s.admitStatus x ≠ ST_OK then hcFinish x.id (s.admitStatus x) 0
    else if x.fork then Eff.when (cells.all fun c => s.kvRoom c) (.all [
      Eff.each cells fun c => admitCell q (x.arg 16 4) c,
      hcRun x.id,
      Eff.each cells fun c => .look fun s => kvForCmd x.id c 0xFFFF
        (kvDesc 3 q (s.kvUsed c) 0 (x.arg 20 4) (toLE 6 0 ++ toLE 2 (x.arg 14 2)))])
    else .all [
      Eff.each cells fun c => admitCell q (x.arg 16 4) c,
      .upd (.seqs q (some (admitRec x 0))),
      hcFinish x.id ST_OK 0])
  (fun x => .look fun s =>
    let st := s.kvEndStatus x
    let ok := st = ST_OK ∨ st = ST_KV_REFCOUNT_SAT
    Eff.when (s.kvAllEnd x) (.all [
      kvForget x,
      if ok then .seq (.upd (.seqs (x.arg 8 2) (some (admitRec x (x.arg 20 4))))) (hcFinish x.id ST_OK (x.arg 20 4))
      else .seq (dropEntries (x.arg 8 2) (s.maskCells (x.arg 24 16))) (hcFinish x.id st 0)]))

def execSeqAdmit (n : Fin 2048) (s : State) : Host.Outcome State Fault Refusal := (seqAdmit n).done s

/-! Submissions (R365–R367) -/

/-- R365: the outcome of a submission that is not taken. -/
def State.submitStatus (s : State) (x : HCmd) : Nat :=
  if 4095 < x.arg 8 2 ∨ 1024 < x.arg 10 2 ∨ 1024 < x.arg 12 2 then ST_BAD_ARG
  else match s.seqsAt (x.arg 8 2) with
  | none => ST_KV_NOT_PRESENT
  | some r => if r.sub.isSome || r.retire.isSome then ST_BUSY else ST_OK

/-- STEP_SUBMIT: the input goes to the staging of every named district; the completion comes from a step. -/
def stepSubmit (n answer : Nat) : Eff := hostStartIO n 0x31 fun x => .look fun s =>
  let q := x.arg 8 2
  if s.submitStatus x ≠ ST_OK then hcFinish x.id (s.submitStatus x) 0
  else hostGet x.port (x.arg 24 8) (x.arg 10 2) (if x.arg 10 2 = 0 then 0 else answer) (fun st => hcFinish x.id st 0) fun bs => .look fun s => .all [
    seqSet q fun r => { r with sub := some (x.id, x.desc), input := bs, staged := [], marks := [] },
    Eff.each (s.districts.filter fun d => (s.seqsAt q).any fun r => r.districts.testBit d) fun d => stageInput s.chartLive d q,
    hcRun x.id]

def execStepSubmit (n : Fin 2048) (answer : Fin 3) (s : State) : Host.Outcome State Fault Refusal := (stepSubmit n answer).done s

/-- The step of a sequence is complete in every named district. -/
def State.seqDone (s : State) (r : SeqRec) : Bool := (List.range 128).all fun d => !r.districts.testBit d ||
  (r.joined.any fun j => j.1 == d && decide (j.2.1 ≤ s.edge) && s.stepDone d j.2.1)

/-- Whether a step program has set the poisoned flag in an entry. -/
def anyPoisoned : List Nat → (Bool → Eff) → Eff
  | [], k => k false
  | a :: rest, k => memRead (.core 0) .normal (a + 3) 1 fun r => if byteAt r.data 0 / 4 % 2 = 1 then k true else anyPoisoned rest k

/-- R367: the first of the statuses that hold. -/
def stepStatus (poison : Bool) (marks : List Nat) : Nat :=
  if poison then ST_POISON
  else ([ST_SEQ_TRAP, ST_TIDE_OVERRUN, ST_THROTTLED].find? fun st => marks.contains st).getD ST_OK

/-- The submission of a sequence has ended; its position has advanced. -/
def seqFree (q advance : Nat) : Eff := seqSet q fun r =>
  { r with sub := none, input := [], held := [], joined := [], marks := [], fresh := [], staged := [], pos := (r.pos + advance) % 2 ^ 32 }

/-- STEP_SUBMIT_COMPLETION (R366, R367). -/
def stepSubmitCompletion (q : Nat) : Eff := .look fun s =>
  match s.seqsAt q with
  | none => .skip
  | some r =>
    match r.sub, r.joined.find? fun j => j.1 == r.out with
    | some (id, desc), some j =>
      let port := ((s.cmds.find? fun x => x.id == id).map fun x => x.port)
      if !s.seqDone r ∨ port.any (fun p => !s.linkUp p) then .skip
      else anyPoisoned (r.joined.map fun j => j.2.2.1) fun flag =>
        memRead (.core 0) .normal (j.2.2.1 + 12) 4 fun adv =>
          memRead (.core 0) .normal (j.2.2.2 + 1024) (subArg desc 12 2) fun out =>
            let lost := out.status != ST_OK || out.bad.any fun b => b
            let advance := leNat adv.data
            .all [
              (match port with
               | some p => Eff.when (!lost) (pokeHost p (subArg desc 32 8) out.data)
               | none => .skip),
              hcFinish id (stepStatus (flag || lost) r.marks)
                (j.2.1 % 2 ^ 32 + subArg desc 12 2 * 2 ^ 32 + advance % 2 ^ 16 * 2 ^ 48),
              seqFree q advance]
    | _, _ => .skip

def execStepSubmitCompletion (q : Fin 4096) (s : State) : Host.Outcome State Fault Refusal := (stepSubmitCompletion q).done s

/-! Retirement of a sequence (R361, R367) -/

/-- The steps that hold a sequence are complete. -/
def State.seqQuiet (s : State) (r : SeqRec) : Bool := r.joined.all fun j => decide (j.2.1 ≤ s.edge) && s.stepDone j.1 j.2.1

/-- The releases of a sequence start in every cell once no step holds it. -/
def retireRelease (x : HCmd) (r : SeqRec) : Eff := .look fun s =>
  let cells := s.maskCells r.districts
  Eff.when (s.seqQuiet r && cells.all fun c => s.kvRoom c) (.seq
    (hcSet x.id fun y => { y with pos := 1 })
    (Eff.each cells fun c => fwSeqEntry c (x.arg 8 2) fun e =>
      kvForCmd x.id c 0xFFFF (kvDesc 4 (x.arg 8 2) e.nLh 0 0xFFFFFFFF [])))

/-- SEQ_RETIRE. -/
def seqRetire (n : Nat) : Eff := hostGo n 0x32
  (fun x => .look fun s =>
    let q := x.arg 8 2
    if 4095 < q then hcFinish x.id ST_BAD_ARG 0
    else match s.seqsAt q with
    | none => hcFinish x.id ST_KV_NOT_PRESENT 0
    | some r =>
      if r.retire.isSome ∨ s.seqLeaving q then hcFinish x.id ST_BUSY 0
      else .all [
        (match r.sub with | some y => hcFinish y.1 ST_ABORTED 0 | none => .skip),
        seqSet q fun r => { r with sub := none, retire := some x.id },
        hcRun x.id,
        retireRelease x r])
  (fun x => .look fun s =>
    match s.seqsAt (x.arg 8 2) with
    | none => hcFinish x.id ST_KV_NOT_PRESENT 0
    | some r =>
      if x.pos = 0 then retireRelease x r
      else Eff.when (s.kvAllEnd x) (.all [
        dropEntries (x.arg 8 2) (s.maskCells r.districts),
        .upd (.seqs (x.arg 8 2) none),
        kvForget x,
        hcFinish x.id (s.kvEndStatus x) (s.kvEndSum x)]))

def execSeqRetire (n : Fin 2048) (s : State) : Host.Outcome State Fault Refusal := (seqRetire n).done s

end Sys2Proof.Machine
end

