-- ==== Sys2Proof/Machine/Tide.lean ====
section
/-! DEFINITION. The tide controller (02_tide.md R37–R58): cutoff, edges with their holds, the slack check, overrun policies, halts,
starts and stops, and the follower's holdover. -/

namespace Sys2Proof.Machine

/-! The period (R44, R491) -/

/-- R491: the tide period in ns under the throttle level in force: P, 1.25 P, 1.5 P or 2 P, in whole microseconds. -/
def State.periodNs (s : State) : Nat :=
  let p := s.get R.TIDE_PERIOD_period_us
  match s.get R.PWR_THROTTLE_level with
  | 0 => p * 1000
  | 1 => (5 * p + 3) / 4 * 1000
  | 2 => (3 * p + 1) / 2 * 1000
  | _ => 2 * p * 1000

/-! Cutoff (R46, R56, R341) -/

/-- The master announces an edge to every follower. -/
def announce (n t : Nat) : Eff := .look fun s => Eff.when (s.role == 1)
  (Eff.each ((List.range (s.get R.GWL_GROUP_group_size)).filter fun k => k != s.get R.GWL_GROUP_member) fun k =>
    gwSend 0x06 2 k n (toLE 8 t) none none .skip)

/-- CUTOFF: at T − C the tables of the next step are closed, under the staged chart when it applies at this edge. -/
def cutoff : Eff := .look fun s =>
  let n := s.edge + 1
  Eff.when (s.tideRuns && s.edgeCut != n && !s.nextOpen) (
    let armed := s.appliesAt n
    let img := if armed then s.chart else s.chartLive
    .all [
      reachTide (s.tideNext - s.get R.TIDE_PERIOD_cutoff_us * 1000),
      .upd (.edgeCut n),
      .upd (.applyNow armed),
      .upd (.cutNew armed),
      Eff.each ((chartRecs img 1).map fun r => r.u8 0) fun d => cutDistrict img n d,
      announce n s.tideNext])

def execCutoff (s : State) : Host.Outcome State Fault Refusal := cutoff.done s

/-! The edge (R46, R47) -/

/-- R42: the two-live hold at edge `n`. -/
def State.twoLive (s : State) (n : Nat) : Bool := decide (2 < n) && !s.allDone (n - 2)

/-- A route that the staged chart changes or removes has a transfer in flight. -/
def State.routesBusy (s : State) : Bool :=
  ((s.outChanged s.chart).any fun x => s.routeMoving (some x)) || ((s.inChanged s.chart).any fun x => s.routeMoving (s.routeFrom x.1 x.2))

/-- R47: the apply hold at edge `n`. -/
def State.applyHold (s : State) (n : Nat) : Bool := s.applyNow && ((decide (1 < n) && !s.allDone (n - 1)) || s.routesBusy)

/-- A hold begins. -/
def holdBegin : Eff := .look fun s => Eff.when s.holdSince.isNone (.all [
  reachTide s.tideNext,
  .upd (.holdSince (some s.tideNext)),
  addSat R.TIDE_COUNTS_holds 1,
  putBit R.TIDE_STATUS_hold true,
  nextShow,
  followerReport ST_BUSY])

/-- A hold ends. -/
def holdEnd : Eff := .look fun s => Eff.when s.holdSince.isSome (.all [
  .upd (.holdSince none), putBit R.TIDE_STATUS_hold false, followerReport ST_BUSY])

/-- Measurements of a cell taken at an edge (R447, codes 0x06 and 0x07): counts of cell clocks, which the spec gives no values for. -/
def State.edgeMeasures (s : State) : List (Nat × Nat) := (List.range 64).foldl (fun xs u =>
  let m := (s.get (R.MON_BIND_measurement u), s.get (R.MON_BIND_instance u))
  if s.bit (R.MON_BIND_enable u) && (m.1 == 6 || m.1 == 7) && !xs.contains m then xs ++ [m] else xs) []

/-- Step 2: the latch. -/
def edgeLatch (n t : Nat) : Eff := .look fun s => .all [
  Eff.when (decide (1 < n)) (monSample 0x03 0 (((t : Int) - s.get R.TIDE_EDGE_TIME_edge_ns) / 1000)),
  put R.TIDE_EDGE_NUM_edge n,
  put R.TIDE_EDGE_TIME_edge_ns t,
  .upd (.tidePer s.periodNs),
  .upd (.slackAt (t + s.get R.TIDE_PERIOD_slack_us * 1000)),
  evFire 0x700,
  Eff.each s.edgeMeasures fun m => withFree fun v => monSample m.1 m.2 (v.toNat % 2 ^ 32)]

/-- A killed thread takes part again after a chart apply (R160). -/
def reviveThreads : Eff := .look fun s => Eff.each ((List.range 2048).filter fun i => s.thr (i / 16) (i % 16) == THR_KILLED)
  fun i => putThr (i / 16) (i % 16) THR_PARKED

/-- Step 3: the apply, a restaged live chart (R344), and the tide-edge copies. The chart's tide values govern the apply edge (R343). -/
def edgeConfig (n t : Nat) : Eff := .look fun s => .all [
  Eff.when s.applyNow (.all [
    withFree fun w => chartGoLive n (w.toNat % 2001),
    reviveThreads,
    .upd (.synced false),
    .look fun s => .seq (.upd (.tidePer s.periodNs)) (.upd (.slackAt (t + s.get R.TIDE_PERIOD_slack_us * 1000)))]),
  Eff.when (!s.applyNow && s.restage) (.look fun s => chartCopy s.chartLive),
  .upd (.restage false),
  tideCopies]

/-- Step 5: the heads of step `n` start. -/
def edgeHeads (n : Nat) : Eff := .look fun s =>
  Eff.each ((List.range 2048).filter fun i => s.inStep (i / 16) (i % 16) && s.thr (i / 16) (i % 16) == THR_PARKED)
    fun i => headStart (i / 16) (i % 16) n

/-- Step 6: boundary work; the modes of a chart are set at the edge at which it applies (R208, R326). -/
def edgeBoundary (applied : Bool) : Eff := .look fun s => .all [
  Eff.when applied (chartModes s.chartLive),
  Eff.each ((List.finRange 128).filter fun (c : Fin 128) => !s.cellRetired c.val && !s.dieLost (c.val / 16)) fun (c : Fin 128) => kvEdge c,
  retireEdge]

/-- R491: the step that a stretched period starts carries ST_THROTTLED. -/
def throttleMark (n : Nat) : Eff := .look fun s => Eff.when (s.get R.PWR_THROTTLE_level != 0)
  (Eff.each s.districts fun d => markStep d n ST_THROTTLED)

/-- Edge `n` fires at tide time `t`. -/
def edgeFire (n t : Nat) : Eff := .look fun s => .all [
  reachTide t,
  holdEnd,
  .look fun s => Eff.when (s.cutNew && !s.applyNow) (emptyStep n),
  edgeLatch n t,
  edgeConfig n t,
  .look fun s => .upd (.tideNext (t + s.tidePer)),
  .look fun s => Eff.when (s.announced.isSome && s.get R.TIDE_STATUS_state == 3) (put R.TIDE_STATUS_state 1),
  .look fun s => Eff.when s.announced.isSome (put R.TIDE_STATUS_missed_announces 0),
  .upd (.announced none),
  edgeHeads n,
  edgeBoundary (s.applyNow || s.restage),
  throttleMark n,
  .look fun s => Eff.each s.districts fun d => stepSettle d n,
  Eff.each (List.range 128) doneShow,
  nextShow]

/-- Step 1 and, when no hold stands, the edge: at its nominal time or, after a hold, at the next whole microsecond. -/
def edgeTry : Eff := .look fun s =>
  let n := s.edge + 1
  if s.twoLive n || s.applyHold n then
    .seq (Eff.when (s.applyHold n && s.edgeNom.isNone) (.upd (.edgeNom (some s.tideNext)))) holdBegin
  else edgeFire n (max s.tideNext (ceilUs s.tideTime))

/-- Edge `n` may come: its tables are closed, the slack check of the edge before is over, and no stretch stands. -/
def State.edgeDue (s : State) : Bool := s.tideRuns && s.edgeCut == s.edge + 1 && s.slackFor == s.edge && !s.stretchOpen

/-- TIDE_EDGE. A follower fires when an announcement names the edge, or when a hold of a holdover edge clears. -/
def tideEdge : Eff := .look fun s => Eff.when (s.edgeDue &&
  (s.role != 2 || s.announced.isSome || (s.get R.TIDE_STATUS_state == 3 && s.holdSince.isSome))) edgeTry

def execTideEdge (s : State) : Host.Outcome State Fault Refusal := tideEdge.done s

/-- APPLY_HOLD_TIMEOUT (R47, R346): after one period of an apply hold the edge fires without the apply. -/
def applyHoldTimeout : Eff := .look fun s =>
  let n := s.edge + 1
  match s.holdSince with
  | none => .skip
  | some t0 => Eff.when (s.edgeDue && s.applyHold n) (.all [
      reachTide (t0 + s.tidePer),
      put R.CHT_STATUS_last_status ST_BUSY,
      addSat R.CHT_COUNTS_abandoned 1,
      chtDisarm ST_BUSY,
      Eff.when (!s.twoLive n) (.look fun s => edgeFire n (max s.tideNext (ceilUs s.tideTime)))])

def execApplyHoldTimeout (s : State) : Host.Outcome State Fault Refusal := applyHoldTimeout.done s

/-! The slack check (R48–R54) -/

/-- A district has overrun at edge `n`. -/
def overrunFound (n d : Nat) : Eff := .all [
  addSat R.TIDE_COUNTS_overruns 1,
  .upd (.overAt d n),
  markStep d (n - 1) ST_TIDE_OVERRUN]

/-- R55: by how many ns step n − 1 of a district became complete after the T + S of an edge `n` that an apply hold delayed. -/
def State.heldLate (s : State) (n d : Nat) : Nat :=
  match s.edgeNom with
  | some t => if s.stepDone d (n - 1) && s.stepEndAt (d * 2 + (n - 1) % 2) == n
      then s.stepAtAt (d * 2 + (n - 1) % 2) - (t + (s.slackAt - s.get R.TIDE_EDGE_TIME_edge_ns)) else 0
  | none => 0

/-- R55: an overrun that ended under an apply hold is counted at step 7 of the held edge. -/
def overrunHeld (n d : Nat) : Eff := .look fun s => .all [
  addSat R.TIDE_COUNTS_overruns 1, markStep d (n - 1) ST_TIDE_OVERRUN, lastOverrun d n ((s.heldLate n d + 999) / 1000)]

/-- SLACK_CHECK: step 7 of the latest edge. -/
def slackCheck : Eff := .look fun s =>
  let n := s.edge
  Eff.when (decide (s.slackFor < n)) (.seq (reachTide s.slackAt) (.look fun s =>
    let late := if 1 < n then s.districts.filter fun d => !s.stepDone d (n - 1) else []
    let held := if 1 < n then s.districts.filter fun d => s.heldLate n d != 0 else []
    .all [
      .upd (.slackFor n),
      Eff.when (!late.isEmpty) (.all [
        put R.TIDE_LAST_OVERRUN_district (late.foldl min 127),
        put R.TIDE_LAST_OVERRUN_edge_low n,
        put R.TIDE_LAST_OVERRUN_lateness_us 0,
        Eff.each late fun d => overrunFound n d]),
      Eff.each held fun d => overrunHeld n d,
      Eff.when (!late.isEmpty || !held.isEmpty) (.all [
        Eff.when s.sheds (shed n),
        nextShow,
        followerReport ST_TIDE_OVERRUN]),
      .upd (.edgeNom none)]))

def execSlackCheck (s : State) : Host.Outcome State Fault Refusal := slackCheck.done s

/-! Halts, starts and stops (R50, R53, R58) -/

/-- The next edge does not come: its tables are void and its sequences join a later step. -/
def edgeVoid : Eff := .look fun s => .all [
  unjoin (s.edge + 1), .upd (.edgeCut s.edge), .upd (.applyNow false), .upd (.cutNew false),
  .upd (.holdSince none), putBit R.TIDE_STATUS_hold false]

/-- The controller enters HALTED. -/
def tideStop (st : Nat) : Eff := .all [
  put R.TIDE_STATUS_state 2, put R.TIDE_STATUS_halt_cause st, edgeVoid, evLevel 0x701 true, nextShow]

/-- TIDE_HALT (R50, R53, R57): a stretch, or under SHED the two-live hold, has lasted too long; a follower leaves that to its master. -/
def tideHalt : Eff := .look fun s =>
  let held := s.sheds && s.role != 2 && s.holdSince.isSome && s.twoLive (s.edge + 1)
  Eff.when (s.tideRuns && (s.stretchOpen || held)) (.seq
    (reachTide (s.tideNext + s.get R.TIDE_POLICY_stretch_max_us * 1000))
    (tideStop ST_TIDE_OVERRUN))

def execTideHalt (s : State) : Host.Outcome State Fault Refusal := tideHalt.done s

/-- R50: the tide starts: its first edge falls at the first whole microsecond at least C later. -/
def tideStart : Eff := .look fun s => Eff.when (!s.tideRuns) (.all [
  putBit R.TIDE_CTRL_run true,
  put R.TIDE_STATUS_state 1,
  put R.TIDE_STATUS_missed_announces 0,
  .upd (.tideFirst (s.edge + 1)),
  .upd (.tideNext (ceilUs (s.tideTime + s.get R.TIDE_PERIOD_cutoff_us * 1000))),
  .upd (.tidePer s.periodNs),
  .upd (.edgeCut s.edge),
  .upd (.slackFor s.edge),
  .upd (.overAtDrop fun _ => true),
  .upd (.holdSince none),
  .upd (.edgeNom none),
  .upd (.announced none),
  evLevel 0x701 false,
  nextShow])

/-- The tide stops after the current edge. -/
def tideStopped : Eff := .all [
  putBit R.TIDE_CTRL_run false,
  edgeVoid,
  put R.TIDE_STATUS_state 0,
  evLevel 0x701 false,
  nextShow]

/-- Run or stop the tide. -/
def tideRun (b : Bool) : Eff := if b then tideStart else tideStopped

/-- A write of TIDE_CTRL.run. -/
def actTideRun (who : Agent) (b : Bool) : Act := guardAct who 0x1000 0 fun _ => (ST_OK, tideRun b)

/-- TIDE_CTRL_RUN. -/
def execTideCtrlRun (who : Agent) (run : Bool) (s : State) : Host.Outcome State Fault Refusal := (runAct who (actTideRun who run)).done s

/-- TIDE_RUN (R361): the result is the number of the latest edge. -/
def tideRunCmd (n : Nat) (b : Bool) : Eff := .look fun s =>
  match s.cmds[n]? with
  | none => .skip
  | some y => Eff.when (y.op == 0x23 && (y.arg 8 1 % 2 == 1) == b) (hostStart n 0x23 fun x => .look fun s =>
      .seq (tideRun b) (hcFinish x.id ST_OK s.edge))

def execTideRunStart (n : Fin 2048) (s : State) : Host.Outcome State Fault Refusal := (tideRunCmd n true).done s

def execTideRunStop (n : Fin 2048) (s : State) : Host.Outcome State Fault Refusal := (tideRunCmd n false).done s

/-! Followers (R56, R58, R412) -/

/-- ANNOUNCE_MISSED: a follower's expected edge time comes without an announcement. -/
def announceMissed : Eff := .look fun s =>
  Eff.when (s.edgeDue && s.role == 2 && s.announced.isNone && s.holdSince.isNone) (
    let m := s.get R.TIDE_STATUS_missed_announces + 1
    .all [
      reachTide s.tideNext,
      put R.TIDE_STATUS_missed_announces m,
      evFire 0x703,
      if m < 5 then .seq (put R.TIDE_STATUS_state 3) edgeTry else tideStop ST_REMOTE_UNREACHABLE])

def execAnnounceMissed (s : State) : Host.Outcome State Fault Refusal := announceMissed.done s

/-- Tide time with 1 ns resolution (R412). -/
def State.tideNs (s : State) : Nat := ((s.now : Int) + s.tideOff).toNat

/-- SYNC_TIMER: a follower sends SYNC_REQ with t1 on its sync link. -/
def syncTimer : Eff := .look fun s =>
  match s.syncLink with
  | some l => Eff.when (s.role == 2) (gwSendOn l 0x08 0 Config.masterModule 0 (toLE 8 s.tideNs))
  | none => .skip

def execSyncTimer (s : State) : Host.Outcome State Fault Refusal := syncTimer.done s

end Sys2Proof.Machine
end

