-- ==== Sys2Proof/Machine/Links.lean ====
section
/-! DEFINITION. The Glewawin links (15_links.md R397–R416): reception, acknowledgement and resending of packets, time sync, transfer
queues, and the training, failures and retirement of links. -/

namespace Sys2Proof.Machine

/-! Transfer queues (R413) -/

/-- Run the descriptor at the head from its first unacknowledged byte. -/
def xqRun (x : Nat) : Eff := .look fun s => .seq (put (R.GWL_XQ_STATUS_state x) 1)
  (if (s.xqDescAt x).isEmpty then
    (if !isExt (s.xqSlot x (s.get (R.GWL_XQ_STATUS_head x))) then xqHalt x ST_BAD_ARG
     else memReadAs (9, 0xFF) .normal (s.xqSlot x (s.get (R.GWL_XQ_STATUS_head x))) 64 fun r =>
      if r.status ≠ ST_OK then xqHalt x r.status
      else if r.bad.any fun b => b then xqHalt x ST_POISON
      else if !xqDescOk r.data then xqHalt x ST_BAD_ARG
      else .all [.upd (.xqDesc x r.data), put (R.GWL_XQ_STATUS_bytes_done x) 0, xqSend x r.data (xqOffsets r.data 0)])
  else xqSend x (s.xqDescAt x) (xqOffsets (s.xqDescAt x) (s.get (R.GWL_XQ_STATUS_bytes_done x))))

/-- An idle queue with a descriptor starts it. -/
def xqKick (x : Nat) : Eff := .look fun s => Eff.when (s.get (R.GWL_XQ_STATUS_state x) == 0 && s.xqCount x != 0) (xqRun x)

/-- The completion signal of a descriptor; R297 gives a transfer queue no source code, so last_src becomes an undefined value. -/
def xqSignal (d : List Byte) : Eff := Eff.when (byteAt d 1 / 2 % 2 == 1 && decide (xqDone d < 6144))
  (withFree fun v => sendSignal (v.toNat % 2 ^ 16) (xqDone d / 48) (xqDone d) 1)

/-- The descriptor at the head completes and the queue goes on. -/
def xqComplete (x : Nat) : Eff := .look fun s => .all [
  xqSignal (s.xqDescAt x),
  .upd (.xqDesc x []),
  put (R.GWL_XQ_STATUS_head x) ((s.get (R.GWL_XQ_STATUS_head x) + 1) % s.xqSize x),
  put (R.GWL_XQ_STATUS_bytes_done x) 0,
  put (R.GWL_XQ_STATUS_state x) 0,
  xqKick x]

/-- The descriptors of a list of slots are completed by a flush. -/
def xqFlushed (x : Nat) : List Nat → Eff
  | [] => .skip
  | i :: rest => .look fun s => memReadAs (9, 0xFF) .normal (s.xqSlot x i) 64 fun r =>
      .seq (Eff.when (r.status == ST_OK) (xqSignal r.data)) (xqFlushed x rest)

/-- flush: every queued descriptor completes with ST_ABORTED; its done_pbx is signalled. -/
def xqFlush (x : Nat) : Eff := .look fun s =>
  let head := s.get (R.GWL_XQ_STATUS_head x)
  let own := !(s.xqDescAt x).isEmpty
  .all [
    xqDetach x,
    xqSignal (s.xqDescAt x),
    xqFlushed x ((List.range (s.xqCount x - if own then 1 else 0)).map fun i => head + i + if own then 1 else 0),
    .upd (.xqDesc x []),
    put (R.GWL_XQ_STATUS_head x) (s.get (R.GWL_XQ_CTRL_tail x) % s.xqSize x),
    put (R.GWL_XQ_STATUS_bytes_done x) 0,
    put (R.GWL_XQ_STATUS_state x) 0]

/-- A write of GWL_XQ_CTRL: tail, resume, skip and flush. -/
def actXqCtrl (who : Agent) (x v : Nat) : Act := guardAct who 0x10A0 (0x808 + x * 0x20) fun s =>
  let halted := s.get (R.GWL_XQ_STATUS_state x) == 3
  (ST_OK, .all [
    put (R.GWL_XQ_CTRL_tail x) v,
    Eff.when (v / 2 ^ 12 % 2 == 1 && halted) (xqRun x),
    .look fun s => Eff.when (v / 2 ^ 13 % 2 == 1 && s.get (R.GWL_XQ_STATUS_state x) == 3) (xqComplete x),
    Eff.when (v / 2 ^ 14 % 2 == 1) (xqFlush x),
    xqKick x])

def execGwlXqTail (who : Agent) (x : Fin 8) (tail : BitVec 12) (s : State) : Host.Outcome State Fault Refusal :=
  (runAct who (actXqCtrl who x tail.toNat)).done s

/-- A write of one action bit that keeps the tail. -/
def actXqBit (who : Agent) (x bit : Nat) : Act := fun s => actXqCtrl who x (s.get (R.GWL_XQ_CTRL_tail x) + 2 ^ bit) s

def execGwlXqResume (who : Agent) (x : Fin 8) (s : State) : Host.Outcome State Fault Refusal := (runAct who (actXqBit who x 12)).done s

def execGwlXqSkip (who : Agent) (x : Fin 8) (s : State) : Host.Outcome State Fault Refusal := (runAct who (actXqBit who x 13)).done s

def execGwlXqFlush (who : Agent) (x : Fin 8) (s : State) : Host.Outcome State Fault Refusal := (runAct who (actXqBit who x 14)).done s

/-! Acknowledgements (R404, R406) -/

/-- The packets of a stream that are acknowledged up to the first that is not leave it; their bytes enter the check-value engines
(R464) and count as done. -/
def gwSweep (q : Nat) : Eff := .look fun s =>
  let done := (s.gwOut.filter fun p => p.queue == some q).takeWhile fun p => p.acked
  .all [
    .upd (.gwOut (s.gwOut.filter fun p => !done.contains p)),
    Eff.each done fun p => snoop 3 1 p.first (at_ (p.args % 2 ^ 48) p.payload),
    Eff.when (decide (q < 8)) (.look fun s =>
      let n := s.get (R.GWL_XQ_STATUS_bytes_done q) + done.foldl (fun n p => n + p.payload.length) 0
      .seq (put (R.GWL_XQ_STATUS_bytes_done q) n)
        (Eff.when (s.get (R.GWL_XQ_STATUS_state q) == 1 && n == xqLen (s.xqDescAt q)) (xqComplete q)))]

/-- What a refusal of a packet, or its loss, means at its source. -/
def gwFailed (p : GwPkt) (st : Nat) : Eff := .seq
  (match p.cell with | some c => pbxDropped c st | none => .skip)
  (match p.queue with
   | some q => if q < 8 then xqHalt q st else kvAcked (q - 8) st
   | none => .skip)

/-- An ACK: the packet is no longer kept. -/
def gwAcked (m seq vc st : Nat) : Eff := .look fun s =>
  match s.gwOut.find? fun p => p.dest == m && p.vc == vc && p.seq == seq && !p.acked with
  | none => .skip
  | some p => .all [
      monSample 0x04 p.first ((s.now : Int) - p.since),
      (match p.queue with
       | none => .upd (.gwOut (s.gwOut.erase p))
       | some q => if st ≠ ST_OK ∧ q < 8 then .upd (.gwOut (s.gwOut.erase p))
          else .upd (.gwOut (s.gwOut.map fun r => if r = p then { r with acked := true } else r))),
      Eff.when (st != ST_OK) (gwFailed p st),
      (match p.queue with | some q => gwSweep q | none => .skip)]

/-- R406, R411: a module is unreachable: every packet to it is lost, and the group's seawalls break. -/
def gwUnreachable (m : Nat) : Eff := .look fun s =>
  let lost := s.gwOut.filter fun p => p.dest == m && !p.acked
  .all [
    putBit (R.GWL_PEER_reachable m) false,
    Eff.each lost fun p => gwFailed p ST_REMOTE_UNREACHABLE,
    .look fun s => .upd (.gwOut (s.gwOut.filter fun p => p.dest != m || p.acked)),
    Eff.each ((lost.filterMap fun p => p.queue).filter fun q => decide (8 ≤ q)) fun q => gwSweep q,
    wallsBreak]

/-- ACK_TIMEOUT (R406): the n-th packet without an ACK is resent on another link, or its destination is given up. -/
def ackTimeout (n : Nat) : Eff := .look fun s =>
  match (s.gwOut.filter fun p => !p.acked)[n]? with
  | none => .skip
  | some p => .seq (reachTime (p.sentAt + 50000)) (.look fun s =>
      if 3 ≤ p.resent then gwUnreachable p.dest
      else
        let l := (s.sprayPick (some p.link)).orElse fun _ => s.sprayPick none
        let q := { p with resent := p.resent + 1, sentAt := s.now, link := l.getD p.link }
        .all [
          .upd (.gwOut (s.gwOut.map fun r => if r = p then q else r)),
          addSat R.GWL_E2E_resends 1,
          (match l with | some l => .seq (sprayTake l) (gwEmit l q) | none => .skip)])

def execAckTimeout (n : Nat) (s : State) : Host.Outcome State Fault Refusal := (ackTimeout n).done s

/-! Reception (R407, R410) -/

/-- R410: a packet is for this module, of its group and from the peer it names. -/
def State.gwAccepts (s : State) (h : GwHdr) : Bool :=
  h.dst.toNat == s.get R.GWL_NODE_fabric && h.tag.toNat == s.get R.GWL_GROUP_group_tag &&
    s.bit (R.GWL_PEER_valid h.member) && s.get (R.GWL_PEER_fabric h.member) == h.src.toNat

/-- A packet of `n` payload bytes arrives on an up link. One with a bad CRC or an uncorrectable codeword is discarded, for the far
end to replay (R405); a foreign one is discarded (R410). -/
def gwArrive (h : GwHdr) (n : Nat) (k : Eff) : Eff := .look fun s => Eff.when (s.gwUp h.link) (
  match h.hop with
  | .badCrc => .skip
  | .badFec => addSat (R.GWL_LINK_ERR_uncorrectable h.link) 1
  | .good => .seq (addWrap (R.GWL_LINK_RX_bytes h.link) (36 + n))
      (if s.gwAccepts h then k else addSat R.GWL_E2E_foreign_drops 1))

/-- R410: where a WRITE may land. -/
def rxLands (a n : Nat) : Bool :=
  let ok := fun r => match r with | Region.vault _ | .ext | .sram _ _ => true | _ => false
  ok (regionOf a) && ok (regionOf (a + n - 1))

/-- A WRITE (R404, R410): the bytes are written under the remote class, then the landing notice of its tag goes out; a WRITE that
a PROCESSOR-mode pseudo-channel holds is acknowledged when it has been written (R205). -/
def rxWrite (m vc : Nat) (p : RxPkt) (k : Nat → Eff) : Eff := .look fun s =>
  let a := p.args % 2 ^ 48
  let n := p.payload.length
  if s.mapStatus a n ≠ ST_OK then k (s.mapStatus a n)
  else if !rxLands a n then k ST_ADDR_UNMAPPED
  else .seq (Eff.when (s.holder a n).isSome (.upd (.rxWait (s.tagNext + 1) (some (m * 4 + vc, p)))))
    (holdOr (.remote (Fin.ofNat 48 p.link)) a n (some p.payload) (memWriteAs (9, 0xFF) .normal a p.payload fun st _ => rxWritten p st (k st)))

/-- A SIGNAL (R410, R411). -/
def rxSignal (p : RxPkt) (k : Nat → Eff) : Eff := .look fun s =>
  let g := p.args % 2 ^ 13
  .seq (Eff.when (s.pbxStatus g == ST_OK) (pbxAdd (g / 48) (g % 48) (p.args / 2 ^ 16 % 2 ^ 16) (srcLink p.link))) (k (s.pbxStatus g))

/-- SW_ARRIVE at the root (R309). -/
def rxArrive (p : RxPkt) (k : Nat → Eff) : Eff := .look fun s =>
  .seq (wallBranchArrive (p.args % 64) p.link) (k (s.wallStatus (p.args % 64) (srcLink p.link)))

/-- SW_RELEASE at a branch (R309). -/
def rxRelease (p : RxPkt) (k : Nat → Eff) : Eff := .look fun s =>
  let w := p.args % 64
  let st := s.wallStatus w (srcLink p.link)
  .seq (if st = ST_OK then wallNext w else wallRefuse w (srcLink p.link) st) (k st)

/-- TIDE_ANNOUNCE at a follower (R56, R58): an edge whose time has passed fires at once. -/
def rxAnnounce (p : RxPkt) (k : Nat → Eff) : Eff := .look fun s =>
  let t := leNat p.payload
  .seq (Eff.when (s.role == 2 && s.tideRuns && p.args == s.edge + 1) (.all [
      .upd (.announced (some (p.args, t))),
      .upd (.tideNext t),
      nextShow,
      .look fun s => Eff.when (decide (t < s.tideNs)) (.all [evFire 0x702, cutoff, tideEdge])]))
    (k ST_OK)

/-- OVERRUN at the master (R57): the next announcement waits until every report has cleared. -/
def rxOverrun (m : Nat) (p : RxPkt) (k : Nat → Eff) : Eff := .look fun s =>
  let left := s.reports.filter fun r => r != m
  let t := ceilUs (s.tideTime + s.get R.TIDE_PERIOD_cutoff_us * 1000)
  .seq (Eff.when (s.role == 1) (.all [
      .upd (.reports (if p.args % 2 = 1 then left ++ [m] else left)),
      Eff.when (p.args % 2 == 0 && s.reports.contains m && left.isEmpty && !s.sheds && s.tideRuns && s.edgeCut != s.edge + 1 &&
        decide (s.tideNext < t)) (stretchTo t),
      nextShow]))
    (k ST_OK)

/-- What a packet does; the continuation gets the status of its ACK. -/
def rxAct (m vc : Nat) (p : RxPkt) (k : Nat → Eff) : Eff :=
  match p.kind with
  | 0x01 => rxWrite m vc p k
  | 0x03 => rxSignal p k
  | 0x04 => rxArrive p k
  | 0x05 => rxRelease p k
  | 0x06 => rxAnnounce p k
  | _ => rxOverrun m p k

/-- Deliver a packet and acknowledge it. -/
def gwDeliver (m vc : Nat) (p : RxPkt) : Eff := .seq (.upd (.gwNext (m * 4 + vc) ((p.seq + 1) % 2 ^ 32)))
  (rxAct m vc p fun st => rxAnswer m vc p st)

/-- Deliver the packets of the reorder store that have become due. -/
def gwDrain (m vc : Nat) : Nat → Eff
  | 0 => .skip
  | n + 1 => .look fun s =>
    match (s.gwHoldAt (m * 4 + vc)).find? fun p => p.seq == s.gwNextAt (m * 4 + vc) with
    | none => .skip
    | some p => .all [.upd (.gwHold (m * 4 + vc) ((s.gwHoldAt (m * 4 + vc)).erase p)), gwDeliver m vc p, gwDrain m vc n]

/-- Bytes in the reorder store. -/
def State.rxHeld (s : State) : Nat := s.gwHold.foldl (fun n e => e.2.foldl (fun n p => n + 36 + p.payload.length) n) 0

/-- R406, R407: duplicates are acknowledged again, the packet that is due is delivered with those behind it, an early one is held. -/
def gwReceive (m vc : Nat) (p : RxPkt) : Eff := .look fun s =>
  let key := m * 4 + vc
  let ahead := (p.seq + 2 ^ 32 - s.gwNextAt key) % 2 ^ 32
  if 2 ^ 31 ≤ ahead then .seq (addSat R.GWL_E2E_dup_drops 1) (gwAck m p.seq vc (s.gwRefusedAt (rxKey m vc p.seq)))
  else if ahead = 0 then .seq (gwDeliver m vc p) (gwDrain m vc (s.gwHoldAt key).length)
  else if (s.gwHoldAt key).any fun q => q.seq == p.seq then addSat R.GWL_E2E_dup_drops 1
  else if 4194304 < s.rxHeld + 36 + p.payload.length then addSat R.GWL_E2E_reorder_drops 1
  else .upd (.gwHold key (s.gwHoldAt key ++ [p]))

/-- A packet of an acknowledged type arrives. -/
def gwPacket (h : GwHdr) (kind vc args : Nat) (payload : List Byte) : Eff := gwArrive h payload.length
  (gwReceive h.member vc ⟨kind, h.link, h.seq.toNat, args, payload⟩)

def execGwWrite (h : GwHdr) (addr : BitVec 48) (tag : BitVec 16) (data : List Byte) (s : State) :
    Host.Outcome State Fault Refusal := (gwPacket h 0x01 3 (addr.toNat + tag.toNat * 2 ^ 48) data).done s

def execGwSignal (h : GwHdr) (pbx : BitVec 13) (amount : BitVec 16) (s : State) : Host.Outcome State Fault Refusal :=
  (gwPacket h 0x03 2 (pbx.toNat + amount.toNat * 2 ^ 16) []).done s

def execSwArrive (h : GwHdr) (wall : Fin 64) (gen : BitVec 16) (s : State) : Host.Outcome State Fault Refusal :=
  (gwPacket h 0x04 2 (wall + gen.toNat * 2 ^ 16) []).done s

def execSwRelease (h : GwHdr) (wall : Fin 64) (gen : BitVec 16) (s : State) : Host.Outcome State Fault Refusal :=
  (gwPacket h 0x05 2 (wall + gen.toNat * 2 ^ 16) []).done s

def execTideAnnounce (h : GwHdr) (edge t : BitVec 64) (s : State) : Host.Outcome State Fault Refusal :=
  (gwPacket h 0x06 2 edge.toNat (toLE 8 t.toNat)).done s

def execOverrun (h : GwHdr) (report : Bool) (cause : BitVec 8) (s : State) : Host.Outcome State Fault Refusal :=
  (gwPacket h 0x07 2 ((if report then 1 else 0) + cause.toNat * 2 ^ 8) []).done s

/-- GW_ACK. -/
def execGwAck (h : GwHdr) (seq : BitVec 32) (vc : Fin 4) (status : BitVec 8) (s : State) : Host.Outcome State Fault Refusal :=
  (gwArrive h 0 (gwAcked h.member seq.toNat vc status.toNat)).done s

/-! Time sync (R412) -/

/-- SYNC_REQ at the master: SYNC_RSP leaves on the link of the same number, or on the lowest up link. -/
def syncReq (h : GwHdr) (t1 : Nat) : Eff := gwArrive h 8 (.look fun s =>
  match if s.gwUp h.link then some h.link.val else s.syncLink with
  | some l => Eff.when (s.role == 1) (gwSendOn l 0x09 1 h.member 0 (toLE 8 t1 ++ toLE 8 s.tideNs ++ toLE 8 s.tideNs))
  | none => .skip)

def execSyncReq (h : GwHdr) (t1 : BitVec 64) (s : State) : Host.Outcome State Fault Refusal := (syncReq h t1.toNat).done s

/-- The correction at a sync: the whole offset at the first after a chart apply, then at most 2 ns per µs. -/
def State.syncStep (s : State) (offset : Int) : Int :=
  let most : Int := (2 * ((s.tideNs - s.syncAt) / 1000) : Nat)
  if !s.synced then offset else max (-most) (min most offset)

/-- SYNC_RSP at a follower: the delay and the offset are reported, and the tide time is corrected. -/
def syncRsp (h : GwHdr) (t1 t2 t3 : Int) : Eff := gwArrive h 24 (.look fun s => Eff.when (s.role == 2) (
  let t4 : Int := s.tideNs
  let delay := (t4 - t1) - (t3 - t2)
  let offset := ((t2 - t1) + (t3 - t4)) / 2
  .all [
    put R.TIDE_SYNC_rtt_ns (min 65535 delay.toNat),
    put R.TIDE_SYNC_offset_ns ((-offset) % 2 ^ 32).toNat,
    Eff.when (decide (200 < offset) || decide (offset < -200)) (evFire 0x702),
    .upd (.tideOff (s.tideOff + s.syncStep offset)),
    .upd (.synced true),
    .look fun s => .upd (.syncAt s.tideNs)]))

def execSyncRsp (h : GwHdr) (t1 t2 t3 : BitVec 64) (s : State) : Host.Outcome State Fault Refusal :=
  (syncRsp h t1.toNat t2.toNat t3.toNat).done s

/-! Links (R398–R402, R414, R415) -/

/-- The states of GWL_LINK_STATUS. -/
def GL_OFF : Nat := 0
def GL_DOWN : Nat := 1
def GL_TRAINING : Nat := 2
def GL_UP : Nat := 4
def GL_RETIRED : Nat := 5

def State.gl (s : State) (l : Nat) : Nat := s.get (R.GWL_LINK_STATUS_state l)

/-- R398: link `l` is enabled by the link-tier frank. -/
def State.glEnabled (s : State) (l : Nat) : Bool := decide (l % 6 < s.get R.GWL_AGG_franked / 8)

/-- R399: the lanes of the widest configuration out of usable lanes. -/
def glLanes (usable : Nat) : Nat :=
  if usable % 16 = 15 then 15
  else if usable % 4 = 3 then 3
  else if usable / 4 % 4 = 3 then 12
  else ((List.range 4).find? fun i => usable.testBit i).elim 0 fun i => 2 ^ i

/-- How many lanes a mask has. -/
def glWidth (lanes : Nat) : Nat := ((List.range 4).filter fun i => lanes.testBit i).length

/-- GWL_AGG.up_weight. -/
def glAgg : Eff := .look fun s => put R.GWL_AGG_up_weight
  ((List.range 48).foldl (fun n l => if s.gwUp l then n + s.get (R.GWL_LINK_STATUS_weight l) else n) 0)

/-- R415, R416: the aggregate is below 3 × N LE, or every enabled link is DOWN: replacement flag 5. -/
def glCheck (l st : Nat) : Eff := .look fun s =>
  Eff.when (decide (s.get R.GWL_AGG_up_weight < 6 * s.get R.GWL_AGG_franked) ||
      ((List.range 48).all fun i => !s.glEnabled i || s.gl i == GL_DOWN)) (setReplace 5 st l)

/-- A link leaves the spray. -/
def glLeave (l st : Nat) : Eff := .all [
  putRegBit R.GWL_UP l false, .upd (.gwSpray l 0), put (R.GWL_LINK_STATUS_weight l) 0, glAgg, glCheck l st]

/-- A link takes a configuration and joins the spray. -/
def glJoin (l lanes rate : Nat) : Eff := .all [
  put (R.GWL_LINK_STATUS_state l) GL_UP,
  put (R.GWL_LINK_STATUS_lanes l) lanes,
  put (R.GWL_LINK_STATUS_width l) (glWidth lanes),
  put (R.GWL_LINK_STATUS_rate l) rate,
  put (R.GWL_LINK_STATUS_weight l) (glWidth lanes * (2 - rate)),
  put (R.GWL_LINK_STATUS_last_status l) (if lanes = 15 ∧ rate = 0 then ST_OK else ST_LINK_NARROW),
  .upd (.gwSpray l 0),
  putRegBit R.GWL_UP l true,
  glAgg]

/-- A link shows DOWN. -/
def glShowDown (l : Nat) : Eff := .all [
  put (R.GWL_LINK_STATUS_state l) GL_DOWN,
  put (R.GWL_LINK_STATUS_lanes l) 0,
  put (R.GWL_LINK_STATUS_width l) 0,
  put (R.GWL_LINK_STATUS_last_status l) ST_LINK_DOWN]

/-- A link is DOWN. -/
def glDown (l : Nat) : Eff := .all [.upd (.hopBuf l []), glShowDown l, glCheck l ST_LINK_DOWN]

/-- R401: the lanes that qualify. -/
def glQualified (lock : BitVec 4) (errs : List (BitVec 32)) : Nat := (List.range 4).foldl (fun m i =>
  if lock.toNat.testBit i && decide (((errs.map fun e => e.toNat).getD i 0) ≤ 200000) then m + 2 ^ i else m) 0

/-- GWL_LANE_QUAL and failed after a qualification. -/
def glRecord (l : Nat) (errs : List (BitVec 32)) (good : Nat) : Eff :=
  let e := fun i => (errs.map fun e => e.toNat).getD i 0
  .all [
    put (R.GWL_LANE_QUAL0_errs_a l) (e 0), put (R.GWL_LANE_QUAL0_errs_b l) (e 1),
    put (R.GWL_LANE_QUAL1_errs_a l) (e 2), put (R.GWL_LANE_QUAL1_errs_b l) (e 3),
    put (R.GWL_LINK_STATUS_failed l) (15 - good)]

/-- R400, R401: training and qualification of a link; `down` is what a link that does not come up becomes. -/
def glTrainElse (down : Nat → Eff) (t : GwTrain) : Eff := .look fun s =>
  let l := t.link.val
  let fast := t.fast && !s.bit (R.GWL_LINK_CTRL_force_rate l)
  let a := glQualified t.fastLock t.fastErrs
  let b := glQualified t.slowLock t.slowErrs
  let slowly := .seq (glRecord l t.slowErrs b) (if b = 0 then down l else glJoin l (glLanes b) 1)
  if !t.up then down l
  else if fast then
    (if a ≠ 0 then .seq (glRecord l t.fastErrs a) (glJoin l (glLanes a) 0)
     else if t.slow then slowly else .seq (glRecord l t.fastErrs 0) (down l))
  else if t.slow then slowly
  else down l

/-- Training of a link in service. -/
def glTrain (t : GwTrain) : Eff := glTrainElse glDown t

/-- A perfect link. -/
def glPerfect (l : Fin 48) : GwTrain := ⟨l, true, true, true, 15, [0, 0, 0, 0], 15, [0, 0, 0, 0]⟩

/-- GW_LANE_FAILURE (R414): the link leaves the spray and restarts narrower, or is DOWN. -/
def gwLaneFailure (l lane : Nat) : Eff := .look fun s => Eff.when (s.gwUp l) (
  let failed := Nat.lor (s.get (R.GWL_LINK_STATUS_failed l)) (2 ^ lane)
  let lanes := glLanes (15 - failed)
  let st := if lanes = 0 then ST_LINK_DOWN else ST_LINK_NARROW
  .all [
    put (R.GWL_LINK_STATUS_failed l) failed,
    put (R.GWL_LINK_STATUS_last_status l) st,
    addSat (R.GWL_LINK_ERR_width_drops l) 1,
    if lanes = 0 then .seq (glLeave l st) (glDown l)
    else .all [
      put (R.GWL_LINK_STATUS_state l) GL_TRAINING, put (R.GWL_LINK_STATUS_lanes l) lanes,
      put (R.GWL_LINK_STATUS_width l) (glWidth lanes), glLeave l st],
    evFire (0x500 + l)])

def execGwLaneFailure (l : Fin 48) (lane : Fin 4) (s : State) : Host.Outcome State Fault Refusal := (gwLaneFailure l lane).done s

/-- GW_LINK_RESTARTED (R405, R414): the narrowed link replays the packets of its hop buffer from the first that the switch port
did not receive, the newest `unseen`, and joins the spray. -/
def gwLinkRestarted (l unseen : Nat) : Eff := .look fun s =>
  Eff.when (s.gl l == GL_TRAINING && s.get (R.GWL_LINK_STATUS_lanes l) != 0) (.all [
    hopReplay l unseen,
    glJoin l (s.get (R.GWL_LINK_STATUS_lanes l)) (s.get (R.GWL_LINK_STATUS_rate l))])

def execGwLinkRestarted (l : Restart) (s : State) : Host.Outcome State Fault Refusal := (gwLinkRestarted l.link l.unseen).done s

/-- requalify: a link in use or DOWN trains again, unless it is the last one that is UP. -/
def glRequalify (l : Nat) : Eff := .look fun s =>
  let last := fun st => put (R.GWL_LINK_STATUS_last_status l) st
  if s.gl l = GL_RETIRED then last ST_UNIT_RETIRED
  else if s.gwUp l ∧ ((List.range 48).all fun i => i == l || !s.gwUp i) then last ST_BUSY
  else Eff.when (s.gl l == GL_UP || s.gl l == GL_DOWN) (.all [
    put (R.GWL_LINK_STATUS_state l) GL_TRAINING,
    put (R.GWL_LINK_STATUS_lanes l) 0,
    put (R.GWL_LINK_STATUS_width l) 0,
    Eff.when (s.gwUp l) (glLeave l ST_LINK_DOWN)])

/-- A write of GWL_LINK_CTRL. -/
def actLinkCtrl (who : Agent) (l v : Nat) : Act := guardAct who (0x10C0 + l) 0 fun _ =>
  (ST_OK, .seq (put (R.GWL_LINK_CTRL_force_rate l) (v / 2)) (Eff.when (v % 2 == 1) (glRequalify l)))

/-- GWL_REQUALIFY: the write keeps force_rate. -/
def execGwlRequalify (who : Agent) (l : Fin 48) (s : State) : Host.Outcome State Fault Refusal :=
  (runAct who (fun s => actLinkCtrl who l (1 + 2 * s.get (R.GWL_LINK_CTRL_force_rate l)) s)).done s

/-- REQUALIFY_COMPLETE. -/
def requalifyComplete (t : GwTrain) : Eff := .look fun s =>
  Eff.when (s.gl t.link == GL_TRAINING && s.get (R.GWL_LINK_STATUS_lanes t.link) == 0) (glTrain t)

def execRequalifyComplete (t : GwTrain) (s : State) : Host.Outcome State Fault Refusal := (requalifyComplete t).done s

/-- RETIRE_LINK (R415, R468): out of the spray, transmitters off; packets that await ACK are resent on other links. -/
def retireLink (n : Nat) : Eff := retireUnit n 3 48 (fun s l => s.gl l == GL_RETIRED) fun x l => .look fun s =>
  if (List.range 48).any fun i => i != l && s.gwUp i then .all [
    put (R.GWL_LINK_STATUS_state l) GL_RETIRED,
    .upd (.hopBuf l []),
    put (R.GWL_LINK_STATUS_lanes l) 0,
    put (R.GWL_LINK_STATUS_width l) 0,
    put (R.GWL_LINK_STATUS_last_status l) ST_UNIT_RETIRED,
    putRegBit R.SVC_RETIRED_LINK l true,
    glLeave l ST_UNIT_RETIRED,
    evFire 0x7C1,
    hcFinish x.id ST_OK 0]
  else hcFinish x.id ST_BUSY 0

def execRetireLink (n : Fin 2048) (s : State) : Host.Outcome State Fault Refusal := (retireLink n).done s

end Sys2Proof.Machine
end

