-- ==== Sys2Proof/Machine/Bringup.lean ====
section
/-! DEFINITION. Power, resets and the bring-up stages (00_scope.md R7, 16_bringup_firmware.md R417–R422, 19_power_thermal.md
R475, R481, R498, 20_module.md R500). -/

namespace Sys2Proof.Machine

/-! Resets (R7) -/

/-- What every reset discards: work, shadows, charts, the state of the ports and links, and what the firmware keeps. -/
def resetVolatile : Eff := .all [
  .upd (.shadowsDrop fun _ => true), .upd (.msixDrop fun _ => true), .upd (.monDrop fun _ => true),
  .upd (.cacheDrop fun _ => true), .upd (.tagLostDrop fun _ => true), .upd (.trackerDrop fun _ => true),
  .upd (.sparesDrop fun _ => true), .upd (.remapNew []), .upd (.heldDrop fun _ => true), .upd (.grantedDrop fun _ => true),
  .upd (.gwOut []), .upd (.hopBufDrop fun _ => true), .upd (.parityCountDrop fun _ => true), .upd (.gwSeqDrop fun _ => true), .upd (.gwSprayDrop fun _ => true), .upd (.sigQ []), .upd (.landQ []),
  .upd (.arrQ []), .upd (.relQ []), .upd (.waitersDrop fun _ => true), .upd (.waitSinceDrop fun _ => true),
  .upd (.buRoundDrop fun _ => true), .upd (.relSeenDrop fun _ => true), .upd (.tagNext 0), .upd (.loadsDrop fun _ => true),
  .upd (.heldPartsDrop fun _ => true), .upd (.rxWaitDrop fun _ => true),
  .upd (.icacheDrop fun _ => true), .upd (.rrLastDrop fun _ => true), .upd (.thrStepDrop fun _ => true), .upd (.vecQDrop fun _ => true),
  .upd (.qeQDrop fun _ => true), .upd (.qeSubsDrop fun _ => true), .upd (.qeFlushDrop fun _ => true), .upd (.segQ []), .upd (.creditQ []), .upd (.routeSlotDrop fun _ => true),
  .upd (.stallSinceDrop fun _ => true), .upd (.passQDrop fun _ => true), .upd (.feedAtDrop fun _ => true), .upd (.scrubRunDrop fun _ => true),
  .upd (.buQDrop fun _ => true), .upd (.buBufDrop fun _ => true), .upd (.buBookDrop fun _ => true),
  .upd (.buSlotDrop fun _ => true), .upd (.yieldAtDrop fun _ => true), .upd (.kvtQDrop fun _ => true),
  .upd (.kvtEndDrop fun _ => true), .upd (.kvtMigQDrop fun _ => true), .upd (.kvtMovesDrop fun _ => true),
  .upd (.kvtFreesDrop fun _ => true), .upd (.kvtStagedDrop fun _ => true), .upd (.gdRetrainDrop fun _ => true),
  .upd (.cmds []), .upd (.fetchAtDrop fun _ => true), .upd (.cqAggDrop fun _ => true), .upd (.linkDownDrop fun _ => true),
  .upd (.pmKeyDrop fun _ => true), .upd (.offer none), .upd (.seqsDrop fun _ => true), .upd (.ready false),
  .upd (.agreedDrop fun _ => true), .upd (.chart []), .upd (.chartLive []), .upd (.chartLoad none), .upd (.applyNow false),
  .upd (.fwAt 0), .upd (.hello none), .upd (.resetAt none), .upd (.dlEndDrop fun _ => true),
  .upd (.dlFailDrop fun _ => true), .upd (.dlOldDrop fun _ => true), .upd (.dlMoves []), .upd (.tideFirst 0),
  .upd (.tideNext 0), .upd (.tidePer 0), .upd (.slackAt 0), .upd (.edgeCut 0), .upd (.slackFor 0), .upd (.holdSince none),
  .upd (.overAtDrop fun _ => true), .upd (.stepEndDrop fun _ => true), .upd (.stepAtDrop fun _ => true),
  .upd (.stepTime (0, 0)), .upd (.edgeNom none), .upd (.stretchFor 0), .upd (.announced none), .upd (.reports []),
  .upd (.reported false), .upd (.synced false), .upd (.syncAt 0), .upd (.retirePend []), .upd (.restage false),
  .upd (.cutNew false), .upd (.gwNextDrop fun _ => true), .upd (.gwHoldDrop fun _ => true),
  .upd (.gwRefusedDrop fun _ => true), .upd (.xqDescDrop fun _ => true), .upd (.bar2Drop fun _ => true),
  .upd (.suspectsDrop fun _ => true), .upd (.disagreedDrop fun _ => true), .upd (.soundingsDrop fun _ => true),
  .upd (.residualsDrop fun _ => true), .upd (.foretoldDrop fun _ => true), .upd (.rotAtDrop fun _ => true),
  .upd (.testFrom 0)]

/-- What power-on reset clears beyond a warm reset: every register and memory, the dispatch log and the management port. -/
def resetPowered : Eff := .all [
  .upd (.regsDrop fun _ => true), .upd (.memDrop fun _ => true), .upd (.checkDrop fun _ => true),
  .upd (.marksDrop fun _ => true), .upd (.mgmtQ []), .upd (.mgmtDropped 0), .upd (.refRowDrop fun _ => true),
  .upd (.tampered false), .upd (.dispatchLogDrop fun _ => true), .upd (.flashAt 0), .upd (.ceCountDrop fun _ => true),
  .upd (.eid 0)]

/-- Loss of power, or power-on reset: only the service flash and the fuses keep their contents (R481, R507). -/
def powerClear : Eff := .look fun s => .all [
  resetVolatile, resetPowered, .upd (.gov Governor.zero), .upd (.tideOff (-(s.now : Int)))]

/-- The sticky bits of a register (R5). -/
def stkMask : List FieldSpec → Nat
  | [] => 0
  | f :: rest => Nat.lor (if f.stk then maskOf f.lo f.w else 0) (stkMask rest)

/-- What a register holds after a warm reset (R7): the AON domain keeps its value, sticky fields keep theirs, and every other field
takes its reset value. -/
def warmValue (key : Nat) (v : Word) : Word :=
  match specAt key with
  | none => 0
  | some (_, _, r) =>
    if r.dom = .aon then v
    else
      let keep := BitVec.ofNat 64 (stkMask r.fields)
      (v &&& keep) ||| (regReset key &&& ~~~keep)

/-- A warm reset: the stage under way, or the work in flight of a tide that runs, is aborted and the dispatch log says so (R55, R436);
bring-up restarts at S1 (R418). -/
def warmReset : Eff := .seq
  (.look fun s => Eff.when ((!s.ready && !s.bit R.FW_STAGE_failed) || (s.ready && s.tideRuns)) (closingRecord ST_ABORTED 0x00FE 0xFFFF 0 0))
  (.look fun s => .all [
    Eff.each s.regs fun e => putReg e.1 (warmValue e.1 e.2),
    resetVolatile,
    Eff.each s.ceCount fun e => .upd (.ceCount e.1 { CeRec.zero with total := e.2.total }),
    .upd (.gov { Governor.zero with roundAt := s.gov.roundAt, levelAt := s.now }),
    .upd (.tideOff (-(s.now : Int))),
    .upd (.stageAt s.now)])

/-- WARM_RESET (R361, R418, R511): 1 ms after the RESET command or the management request; under a latched shutdown only
power-on reset ends the state (R488). -/
def warmResetDue : Eff := .look fun s =>
  match s.resetAt with
  | some t => if s.bit R.THM_SHUTDOWN_latched then .upd (.resetAt none) else .seq (reachTime (t + 1000000)) warmReset
  | none => .skip

def execWarmReset (s : State) : Host.Outcome State Fault Refusal := warmResetDue.done s

/-! Input power (R498, R500) -/

/-- The module enters OFF: every memory content is lost. -/
def powerOff : Eff := .seq powerClear (.upd (.power .off))

/-- POWER_APPLY: the input has stayed at 40.0 V or above for 10 ms; power-on reset starts bring-up at S0. -/
def powerApply : Eff := .look fun s => Eff.when (s.power == .off) (.all [
  reachTime (s.now + 10000000), powerClear, .upd (.power .s0), .look fun s => .upd (.stageAt s.now)])

def execPowerApply (s : State) : Host.Outcome State Fault Refusal := powerApply.always s

/-- INPUT_UNDERVOLTAGE: below 38.0 V for 1 ms after S0 has closed. -/
def execInputUndervoltage (s : State) : Host.Outcome State Fault Refusal :=
  (Eff.when (s.power == .on) (.seq (reachTime (s.now + 1000000)) powerOff)).done s

/-- INPUT_OVERVOLTAGE: above 50.0 V for 10 µs after S0 has closed. -/
def execInputOvervoltage (s : State) : Host.Outcome State Fault Refusal :=
  (Eff.when (s.power == .on) (.seq (reachTime (s.now + 10000)) powerOff)).done s

/-- INPUT_POWER_REMOVED. -/
def execInputPowerRemoved (s : State) : Host.Outcome State Fault Refusal := powerOff.done s

/-! Stages (R417, R418) -/

/-- The limits of R417 in µs; S3 has its own, and S9 has none. -/
def stageLimit : Nat → Option Nat
  | 0 => some 200000 | 1 => some 50000 | 2 => some 1000000 | 4 => some 450000 | 5 => some 60000 | 6 => some 900000
  | 7 => some 120000 | 8 => some 3700000 | _ => none

/-- The time at which stage `k` exceeds its limit: S3 waits without limit until an image is accepted, then 30 s. -/
def State.stageEnds (s : State) (k : Nat) : Option Nat :=
  if k = 3 then (if s.fwRuns then some (s.fwAt + 30000000000) else none)
  else (stageLimit k).map fun us => s.stageAt + us * 1000

/-- HIF_LINK [6:0]. -/
def State.linkBits (s : State) (p : Nat) : Nat := (s.reg (R.HIF_LINK p)).toNat % 128

/-- R418, R422: a stage exceeds its limit. -/
def stageOverrun : Eff := .look fun s =>
  match s.stageNow with
  | 2 => .seq
      (Eff.each [0, 1] fun p => Eff.when (!s.linkUp p) (unitRecord 2 ST_LINK_DOWN 0x0201 p 0 0 0))
      (if s.linkUp 0 || s.linkUp 1 then stagePass 0 (s.linkBits 0) (s.linkBits 1)
       else stageFail ST_STAGE_FAIL 0x0202 0xFFFF (s.linkBits 0) (s.linkBits 1))
  | 3 => stageFail ST_TIMEOUT 0x0303 (s.get (R.HIF_TOKEN_holder 0)) 0 0
  | _ => stageFail ST_STAGE_FAIL 0x00FF 0xFFFF 0 0

/-- A stage is under way. -/
def State.inStage (s : State) : Bool := s.power == .s0 || (s.power == .on && !s.bit R.FW_STAGE_failed && !s.ready)

/-- STAGE_LIMIT_EXPIRY. -/
def stageLimitExpiry : Eff := .look fun s =>
  match s.stageEnds s.stageNow with
  | some t => Eff.when s.inStage (.seq (reachTime t) stageOverrun)
  | none => .skip

def execStageLimitExpiry (s : State) : Host.Outcome State Fault Refusal := stageLimitExpiry.done s

/-- The work of stage `k` takes `us` µs; work that would end after the limit does not. -/
def stageRun (k us : Nat) (work : Eff) : Eff := .look fun s =>
  let t := max s.now (s.stageAt + us * 1000)
  Eff.when (s.inStage && s.stageNow == k) (
    match s.stageEnds k with
    | some e => if e < t then .seq (reachTime e) stageOverrun else .seq (reachTime t) work
    | none => .seq (reachTime t) work)

/-- STAGE_S0: input voltage in mV, a rail at fault, coolant flow in mL/min. -/
def stageS0 (us mv : Nat) (rail : Option (Fin 24)) (flow : Nat) : Eff := stageRun 0 us (
  if mv < 40000 ∨ 48000 < mv then stageFail ST_STAGE_FAIL 0x0001 0xFFFF mv 0
  else match rail with
  | some r => stageFail ST_STAGE_FAIL 0x0002 r 0 0
  | none =>
    if flow < 2500 then stageFail ST_STAGE_FAIL 0x0003 0xFFFF flow 0
    else .all [closingRecord ST_OK 0 0xFFFF mv flow, .upd (.power .on), .look fun s => .upd (.stageAt s.now)])

def execStageS0 (us : BitVec 18) (mv : BitVec 32) (rail : Option (Fin 24)) (flow : BitVec 32) (s : State) :
    Host.Outcome State Fault Refusal := (stageS0 us.toNat mv.toNat rail flow.toNat).done s

/-- R431: a stored frank that no longer passes steps 2 to 5 of R430 is discarded. -/
def frankRecheck (kind : Nat) : Eff := .look fun s =>
  let f := s.franksAt kind
  Eff.when (!f.isEmpty && frankStatus f != ST_OK) (.seq
    (unitRecord 1 ST_FRANK_BAD 0x0103 kind (leAt f 24 4) 0 0) (.upd (.franks kind [])))

/-- S1: what the boot ROM loads from fuses and service flash. -/
def bootLoad : Eff := .all [
  Eff.each (List.range 5) fun i => frankRecheck (i + 1),
  frankShow, frankAtS1 R.LIC_FEATURES_links R.LIC_FEATURES_ext_gib,
  .look fun s => .all [
    put R.GWL_AGG_franked (s.get R.LIC_FEATURES_links), put R.GWL_AGG_min_le (3 * s.get R.LIC_FEATURES_links),
    put R.LCY_STATE_state s.fuseLcy, putBit R.LCY_TAMPER_armed (s.fuseLcy != 0),
    Eff.each [0, 1] fun p => put (R.HIF_PM_LAST_counter p) (s.pmMarkAt p),
    put R.SVC_REPLACE_flags (Nat.lor (s.get R.SVC_REPLACE_flags) s.replaceFlash),
    evLevel 0x710 (Nat.lor (s.get R.SVC_REPLACE_flags) s.replaceFlash != 0)]]

/-- STAGE_S1: the block page that fails self-test, the fuse word that is uncorrectable, the fuse words corrected. -/
def stageS1 (us : Nat) (block word : Option (BitVec 16)) (corrected : Nat) : Eff := stageRun 1 us (.all [
  .look fun s => .seq (.upd (.boot (s.boot + 1))) (put R.FW_STAGE_boot (s.boot + 1)),
  match block, word with
  | some b, _ => stageFail ST_STAGE_FAIL 0x0102 b.toNat 0 0
  | none, some w => stageFail ST_STAGE_FAIL 0x0101 w.toNat 0 0
  | none, none => .seq bootLoad (.look fun s =>
      stagePass 0 (((List.range 5).filter fun i => !(s.franksAt (i + 1)).isEmpty).length) corrected)])

def execStageS1 (us : BitVec 16) (block word : Option (BitVec 16)) (corrected : BitVec 32) (s : State) :
    Host.Outcome State Fault Refusal := (stageS1 us.toNat block word corrected.toNat).done s

/-- STAGE_S2: closes when both ports are trained. -/
def stageS2 : Eff := .look fun s => Eff.when (s.linkUp 0 && s.linkUp 1) (
  stageRun 2 ((s.now - s.stageAt) / 1000) (stagePass 0 (s.linkBits 0) (s.linkBits 1)))

def execStageS2 (s : State) : Host.Outcome State Fault Refusal := stageS2.done s

/-- STAGE_S3: closes at the first HELLO of the token holder (R427); a module in RETIRED stops here (R418). -/
def stageS3 : Eff := .look fun s =>
  let p := s.get (R.HIF_TOKEN_holder 0)
  match s.hello with
  | none => .skip
  | some (st, rev) => stageRun 3 ((s.now - s.stageAt) / 1000) (
      if st = ST_OK then .seq (stagePass 0 (s.get R.FW_LOAD_STATUS_length) p)
        (Eff.when (s.get R.LCY_STATE_state == 5) (withFree fun w => stageFail ST_LIFECYCLE (w.toNat % 65536) 0xFFFF 0 0))
      else .seq (closingValue ST_FW_INTERFACE 0x0302 p rev 0 0) stageStop)

def execStageS3 (s : State) : Host.Outcome State Fault Refusal := stageS3.done s

/-! S4: die links (R383–R385) -/

/-- A bring-up map takes effect at once. -/
def hashSet (d : Nat) (map : List Nat) : Eff := .look fun s => .all [
  .upd (.dlMoves (s.dlMoves.filter fun x => x.1 != d)), hashPut d map, put (R.DL_DIE_ID_hash_status d) ST_OK, dlShow d]

/-- R481: the SRAM of compute die `d` as it powers up. -/
def dieClear (d : Nat) : Eff :=
  let lo := 0x3000000000 + d * 0x4000000
  .all [
    .upd (.memDrop fun a => decide (lo ≤ a ∧ a < lo + 0x4000000)), .upd (.marksDrop fun w => decide (lo / 8 ≤ w ∧ w < (lo + 0x4000000) / 8)),
    .upd (.icacheDrop fun k => k / 64 / 16 == d), .upd (.buBufDrop fun k => k / 4096 / 128 == d),
    .upd (.buBookDrop fun k => k / 4 / 128 == d)]

/-- S4: one module trains; one that was retired before the reset stays out (R468). -/
def stageModule (trains : List DlTrain) (i : Fin 48) : Eff := .look fun s =>
  if s.regBit R.SVC_RETIRED_DL i then dlSet i 7 0
  else dlTrain ((trains.find? fun t => t.module == i).getD (dlWhole i))

/-- R422: the unit record of a module short of native full width. -/
def moduleRecord (i : Nat) : Eff := .look fun s =>
  let st := s.dl i
  let r := s.dlRepaired i
  Eff.when (st != 2) (unitRecord 4 (if st = 7 then ST_UNIT_RETIRED else if st = 4 then ST_DL_FALLBACK else ST_DL_HALF_WIDTH)
    0x0401 i (st + 256 * s.get (R.DL_CAPS_agreed (i / 6) (i % 6))) r.1 r.2)

/-- STAGE_S4: what each module finds; a module that the list does not name is whole. -/
def stageS4 (us : Nat) (trains : List DlTrain) : Eff := stageRun 4 us (.all [
  Eff.each (List.finRange 48) (stageModule trains),
  Eff.each (List.range 48) moduleRecord,
  .look fun s => match (List.range 8).find? fun d => !((List.range 6).any fun m => s.dlUp (d * 6 + m)) with
    | some d => stageFail ST_STAGE_FAIL 0x0402 d 0 0
    | none => .all [
        Eff.each (List.range 8) fun d => .seq (hashSet d (s.hashPlan d hashFirst)) (dieClear d),
        stagePass 0 (((List.range 48).filter fun i => s.dl i == 2).length)
          ((List.range 48).foldl (fun n i => n + (s.dlRepaired i).1 + (s.dlRepaired i).2) 0)]])

def execStageS4 (us : BitVec 19) (trains : List DlTrain) (s : State) : Host.Outcome State Fault Refusal :=
  (stageS4 us.toNat trains).done s

/-! S5 and S6: memories (R196, R197, R284, R286, R290) -/

/-- The steering of the vaults from fuse map and persistent list; the fuse map leaves at least 8 of the 24 spare rows of every bank
free (R194). -/
def steerLoad : Eff := .look fun s =>
  let fuse := Config.fuseSteer.filter fun x => (((Config.fuseSteer.filter fun y => y.1 == x.1 && y.2.1 == x.2.1).take 16).contains x)
  let all := fuse ++ ((s.remapFlash.filter fun r => r.unit < 1024).map fun r => (r.unit, r.bank, r.row, r.spare))
  Eff.each all fun x => .look fun s =>
    let key := x.1 * 16 + x.2.1
    Eff.when (!(s.sparesAt key).contains x.2.2.2 && decide (x.2.2.2 < 24)) (.upd (.spares key (s.sparesAt key ++ [x.2.2.2])))

/-- How many rows the sources of the steering name. -/
def State.steered (s : State) : Nat := Config.fuseSteer.length + (s.remapFlash.filter fun r => r.unit < 1024).length

/-- S5: steer each failing row (bank unit, bank, row) to a free spare row of its bank. -/
def steerRows (entry : Nat) : List (Fin 1024 × Fin 16 × Fin 3072) → Nat → Eff
  | [], n => .seq
      (Eff.each (List.range 128) fun c => .look fun s => put (R.VLT_REMAP_STATUS_min_spares c) (s.minSpares c))
      (stagePass 0 entry n)
  | (u, b, r) :: rest, n => .look fun s =>
      match freeSpare (s.sparesAt (u * 16 + b)) 24 with
      | some sp => .all [
          .upd (.spares (u * 16 + b) (s.sparesAt (u * 16 + b) ++ [sp])),
          .upd (.remapFlash (s.remapFlash ++ [⟨u, b, r, sp⟩])),
          steerRows entry rest (n + 1)]
      | none => .all [setReplace 9 ST_REMAP_FULL u, closingValue ST_STAGE_FAIL 0x0501 u r b 0, stageStop]

/-- STAGE_S5: the rows that fail the pattern test. -/
def stageS5 (us : Nat) (rows : List (Fin 1024 × Fin 16 × Fin 3072)) : Eff := stageRun 5 us (.all [
  .upd (.memDrop fun a => decide (a < 0x0C00000000)), .upd (.checkDrop fun w => decide (w < 0x0C00000000 / 8)),
  .upd (.regsDrop fun k => (List.range 8).any fun p => decide (k / 0x10000 < 0x800 ∧ k / 0x10000 % 16 = 8 ∧
    0x1000 + p * 0x200 ≤ k % 0x10000 ∧ k % 0x10000 < 0x1200 + p * 0x200)),
  Eff.each (List.range 128) fun c => put (R.VLT_REMAP_STATUS_cam_used c) 0,
  .upd (.sparesDrop fun k => decide (k < 1024 * 16)),
  steerLoad,
  .look fun s => steerRows s.steered rows 0])

def execStageS5 (us : BitVec 16) (rows : List (Fin 1024 × Fin 16 × Fin 3072)) (s : State) : Host.Outcome State Fault Refusal :=
  (stageS5 us.toNat rows).done s

/-- Load the remap tables of the GDDR7 devices from their persistent lists. -/
def tableLoad : Eff := .look fun s => Eff.each (s.remapFlash.filter fun r => 1024 ≤ r.unit) fun r => .look fun s =>
  match s.freeRemap r.unit with
  | some e => .seq (putRemap r.unit e r.bank r.row r.spare)
      (.upd (.spares (r.unit * 16 + r.bank) (s.sparesAt (r.unit * 16 + r.bank) ++ [r.spare])))
  | none => .skip

/-- The remap entries in force. -/
def State.tableUsed (s : State) : Nat := (List.range 24).foldl (fun n g => n + s.get (R.GD_REMAP_STATUS_used g)) 0

/-- S6: remap each failing row (device, bank, row). -/
def tableRows : List (Fin 24 × Fin 16 × BitVec 17) → Eff
  | [] => .look fun s => stagePass 0 (s.get R.GD_CFG_bin) s.tableUsed
  | (g, b, r) :: rest => .look fun s =>
      let key := (1024 + g.val) * 16 + b.val
      match freeSpare (s.sparesAt key) (spareCount (1024 + g)), s.freeRemap (1024 + g) with
      | some sp, some e => .all [
          putRemap (1024 + g) e b r.toNat sp,
          .upd (.spares key (s.sparesAt key ++ [sp])),
          .upd (.remapFlash (s.remapFlash ++ [⟨1024 + g, b, r.toNat, sp⟩])),
          tableRows rest]
      | _, _ => .all [
          unitRecord 6 ST_REMAP_FULL 0x0602 g r.toNat b.val 0, setReplace 9 ST_REMAP_FULL g,
          stageFail ST_STAGE_FAIL 0x0602 g 0 0]

/-- The best bin of a device: a device that the list does not name passes the highest. -/
def binOf (bins : List (Fin 24 × Fin 4)) (g : Nat) : Nat := ((bins.find? fun b => b.1.val == g).elim 3 fun b => b.2.val)

/-- STAGE_S6: the highest bin that each device passes (1 = 24, 2 = 28, 3 = 32 Gb/s, 0 = none), and the rows that fail. -/
def stageS6 (us : Nat) (bins : List (Fin 24 × Fin 4)) (rows : List (Fin 24 × Fin 16 × BitVec 17)) : Eff := stageRun 6 us (
  let bin := (List.range 24).foldl (fun m g => min m (binOf bins g)) 3
  match (List.range 24).find? fun g => binOf bins g == 0 with
  | some g => stageFail ST_STAGE_FAIL 0x0601 g 0 0
  | none => .all [
      .upd (.memDrop isExt), .upd (.checkDrop fun w => isExt (w * 8)),
      put R.GD_CFG_bin bin,
      Eff.each (List.range 24) fun g => put (R.GD_STATUS_state g) 1,
      Eff.when (bin != 3) (unitRecord 6 ST_OK 0x0603 0xFFFF 0 bin 0),
      tableLoad,
      tableRows rows])

def execStageS6 (us : BitVec 20) (bins : List (Fin 24 × Fin 4)) (rows : List (Fin 24 × Fin 16 × BitVec 17)) (s : State) :
    Host.Outcome State Fault Refusal := (stageS6 us.toNat bins rows).done s

/-! S7 to S9 -/

/-- The cells in service. -/
def State.cellsUp (s : State) : Nat := ((List.range 128).filter fun c => !s.cellRetired c).length

/-- STAGE_S7: the cells that fail self-test, each with its failing block (1 = array, 2 = SRAM, 3 = sequencer, 4 = vector unit,
5 = queue engine; the operand counts from 0). -/
def stageS7 (us : Nat) (fails : List (Fin 128 × Fin 5)) : Eff := stageRun 7 us (.all [
  Eff.each fails fun x => .look fun s => Eff.when (!s.cellRetired x.1) (
    .seq (unitRecord 7 ST_SELFTEST 0x0701 x.1 (x.2 + 1) 0 0) (cellRetire x.1 ST_SELFTEST)),
  .look fun s =>
    if s.cellsUp < 120 then stageFail ST_STAGE_FAIL 0x0702 0xFFFF s.cellsUp 0 else stagePass 0 s.cellsUp (128 - s.cellsUp)])

def execStageS7 (us : BitVec 17) (fails : List (Fin 128 × Fin 5)) (s : State) : Host.Outcome State Fault Refusal :=
  (stageS7 us.toNat fails).done s

/-- S8: one link trains; a retired one stays out and one that no frank enables stays OFF. -/
def stageLink (trains : List GwTrain) (l : Fin 48) : Eff := .look fun s =>
  if s.regBit R.SVC_RETIRED_LINK l then put (R.GWL_LINK_STATUS_state l) GL_RETIRED
  else if !s.glEnabled l then put (R.GWL_LINK_STATUS_state l) GL_OFF
  else glTrainElse glShowDown ((trains.find? fun t => t.link == l).getD (glPerfect l))

/-- The worst lane errors of a link. -/
def State.worstErrors (s : State) (l : Nat) : Nat :=
  max (max (s.get (R.GWL_LANE_QUAL0_errs_a l)) (s.get (R.GWL_LANE_QUAL0_errs_b l)))
    (max (s.get (R.GWL_LANE_QUAL1_errs_a l)) (s.get (R.GWL_LANE_QUAL1_errs_b l)))

/-- R402: the unit record of an enabled link that is DOWN or narrow. -/
def linkRecord (l : Nat) : Eff := .look fun s =>
  if s.gl l = GL_DOWN then unitRecord 8 ST_LINK_DOWN 0x0801 l 0 (s.worstErrors l) 0
  else Eff.when (s.gl l == GL_UP && s.get (R.GWL_LINK_STATUS_weight l) != 8)
    (unitRecord 8 ST_LINK_NARROW 0x0802 l ((s.reg (R.GWL_LINK_STATUS l)).toNat % 2 ^ 19) (s.worstErrors l) 0)

/-- STAGE_S8: what each link finds; a link that the list does not name is perfect. -/
def stageS8 (us : Nat) (trains : List GwTrain) : Eff := stageRun 8 us (.all [
  Eff.each (List.finRange 48) (stageLink trains),
  Eff.each (List.range 48) linkRecord,
  .look fun s =>
    let weight := s.get R.GWL_AGG_up_weight
    let franked := s.get R.GWL_AGG_franked
    .seq (put R.GWL_AGG_qual_le (weight / 2))
      (if weight < 6 * franked then .seq (setReplace 5 ST_LINK_DOWN 0xFFFF) (stageFail ST_STAGE_FAIL 0x0803 0xFFFF (weight / 2) (3 * franked))
       else stagePass 0 (weight / 2) (((List.range 48).filter fun l => s.gwUp l).length))])

def execStageS8 (us : BitVec 22) (trains : List GwTrain) (s : State) : Host.Outcome State Fault Refusal :=
  (stageS8 us.toNat trains).done s

/-- STAGE_S9: the module is READY, and the ready event is raised on both ports. -/
def stageS9 (us : Nat) : Eff := stageRun 9 us (.all [closingRecord ST_OK 0 0xFFFF 0 0, .upd (.ready true), evFire 0x707])

def execStageS9 (us : BitVec 16) (s : State) : Host.Outcome State Fault Refusal := (stageS9 us.toNat).done s

end Sys2Proof.Machine
end

