-- ==== Sys2Proof/Machine/Cache.lean ====
section
/-! DEFINITION. The commands of the shared cache and of the GDDR7 controllers (10_shared_cache_external.md R269–R292): accesses,
atomics, flush, release, device requests, refresh and retraining. -/

namespace Sys2Proof.Machine

/-! Accesses (R272–R276, R283) -/

/-- R283: a tag copy of the line's set fails: 1 = one copy, which is rewritten from the other; 2 = both. -/
def tagUpset (a tag : Nat) : Eff :=
  if tag = 1 then addSat (R.SC_SLICE_ECC_corrected (sliceOf a)) 1
  else if tag = 2 then .all [
    .upd (.tagLost (setKey a) true),
    putBit (R.SC_SLICE_ECC_tag_fail (sliceOf a)) true,
    put (R.SC_SLICE_ECC_tag_fail_set (sliceOf a)) (setKey a % 2048),
    setReplace 7 ST_UNCORRECTABLE (sliceOf a),
    evFire (0x540 + sliceOf a)]
  else .skip

/-- A word of the line that holds `a` is found in error: correctable or not. -/
def lineUpset (a : Nat) (u : Option (Fin 16 × Bool)) : Eff := .look fun s =>
  match u, s.line a with
  | some (i, hard), some l => setLine { l with marks := l.marks.set i (if hard then .bad else .single) }
  | _, _ => .skip

/-- SC_ACCESS (R274): an agent's read or write of an address that the cache serves, under a hint; `tag` and `upset` are errors
found in the cache at the access, `ns` is the latency of a miss. -/
def scAccess (who : Agent) (h : Hint) (a len : Nat) (write : Option (List Byte)) (tag : Nat)
    (upset : Option (Fin 16 × Bool)) (ns : Nat) : Eff := .look fun s =>
  if !s.cached a then .skip
  else .all [
    tagUpset a tag,
    lineUpset a upset,
    Eff.when (s.line a).isNone (monSample 0x0C (sliceOf a) ns),
    match write with
    | some bs => memWrite who h a bs fun st _ => send (.reply st [])
    | none => memRead who h a len fun r => send (.reply r.status r.data)]

def execScAccess (who : Agent) (h : Hint) (a : BitVec 48) (len : BitVec 13) (write : Option (List Byte)) (tag : Fin 3)
    (upset : Option (Fin 16 × Bool)) (ns : Nat) (s : State) : Host.Outcome State Fault Refusal :=
  (scAccess who h a.toNat len.toNat write tag upset ns).done s

/-! Atomics (R279–R282) -/

/-- The bytes of an operand of a type code. -/
def atomSize (op ty : Nat) : Nat :=
  if op = 8 then 128 else if ty = 5 then 2 else if ty = 1 ∨ ty = 3 then 8 else 4

/-- R279: the pairings of op and type. -/
def atomLegal (op ty : Nat) : Bool :=
  match op with
  | 0 => ty == 0 || ty == 1 || ty == 4 || ty == 5
  | 1 | 2 => decide (ty ≤ 4)
  | 3 | 4 | 5 | 6 | 7 => decide (ty ≤ 3)
  | 8 => ty == 0 || ty == 4 || ty == 5
  | _ => false

/-- The format of a floating-point type code. -/
def atomFmt (ty : Nat) : Fmt := if ty = 5 then .bf16 else .fp32

/-- A type code's bits read as a number. -/
def atomInt (ty n v : Nat) : Int := if ty ≤ 1 ∧ 2 ^ (8 * n - 1) ≤ v then (v : Int) - 2 ^ (8 * n) else v

/-- Floating-point order with −0 below +0. -/
def atomFpLt (f : Fmt) (a b : Nat) : Bool :=
  let x := f.decode a
  let y := f.decode b
  x.lt y || (!x.lt y && !y.lt x && decide (2 ^ (f.bits - 1) ≤ a) && decide (b < 2 ^ (f.bits - 1)))

/-- R279: one element of ADD. -/
def atomAdd (md : RMode) (ty n old v : Nat) : Nat :=
  if 4 ≤ ty then
    let f := atomFmt ty
    ((do f.encode md (← (f.decode old).add (f.decode v))) : Calc Nat).run Ev.zero |>.1
  else (old + v) % 2 ^ (8 * n)

/-- R279: MIN or MAX. -/
def atomPick (larger : Bool) (ty n old v : Nat) : Nat :=
  if ty = 4 then
    if (Fmt.fp32.decode old).isNan || (Fmt.fp32.decode v).isNan then Fmt.fp32.nanBits
    else if atomFpLt .fp32 old v == larger then v else old
  else if (decide (atomInt ty n old < atomInt ty n v)) == larger then v else old

/-- R279: the result in memory of a scalar atomic. -/
def atomResult (md : RMode) (op ty n old v cmp : Nat) : Nat :=
  match op with
  | 0 => atomAdd md ty n old v
  | 1 => atomPick false ty n old v
  | 2 => atomPick true ty n old v
  | 3 => Nat.land old v
  | 4 => Nat.lor old v
  | 5 => Nat.xor old v
  | 6 => v
  | _ => if old = cmp then v else old

/-- R279: VADD over 128 bytes. -/
def atomVadd (md : RMode) (ty : Nat) (old src : List Byte) : List Byte :=
  let n := if ty = 5 then 2 else 4
  (List.range (128 / n)).flatMap fun i => toLE n (atomAdd md ty n (leAt old (i * n) n) (leAt src (i * n) n))

/-- Write bytes of a line that the atomic has just read. -/
def lineStore (a : Nat) (bs : List Byte) : Eff := .look fun s =>
  match s.line a with
  | some l => (match l.write a bs with | some l => putLine l true | none => .skip)
  | none => .skip

/-- R281: the status of an atomic's target. -/
def State.atomTarget (s : State) (a op ty : Nat) : Nat :=
  if s.mapStatus a 1 ≠ ST_OK then s.mapStatus a 1
  else if !s.cached a then ST_ATOMIC_UNSUPPORTED
  else if atomLegal op ty && a % atomSize op ty != 0 then ST_ALIGN
  else if !atomLegal op ty then ST_BAD_ARG
  else if s.touchesLock a (atomSize op ty) then ST_BUSY
  else ST_OK

/-- R281: the slice of the target line executes the atomic, allocating the line as NORMAL. The continuation gets the status and
the old value. A poisoned word leaves memory unchanged (R458). -/
def atomic (a op ty v cmp : Nat) (k : Nat → Nat → Eff) : Eff := .look fun s =>
  let st := s.atomTarget a op ty
  if st ≠ ST_OK then k st 0
  else
    let n := atomSize op ty
    let md := RMode.of (s.get R.SC_CTRL_atom_round)
    let count := addSat (R.SC_ATOMICS_count (sliceOf a)) 1
    if op = 8 then
      (if v % 16 ≠ 0 then k ST_ALIGN 0
       else memReadAs (9, 0xFF) .normal v 128 fun src =>
        if src.status ≠ ST_OK then k src.status 0
        else scRead .normal a 128 fun r =>
          if r.status ≠ ST_OK then k r.status 0
          else .all [lineStore a (atomVadd md ty r.data src.data), count, k ST_OK 0])
    else scRead .normal a n fun r =>
      if r.status ≠ ST_OK then k r.status 0
      else
        let old := leNat r.data
        .all [lineStore a (toLE n (atomResult md op ty n old (v % 2 ^ (8 * n)) (cmp % 2 ^ (8 * n)))), count, k ST_OK old]

/-- R280: an 8-byte write of SC_ATOM_GO of slot i issues its atomic. -/
def atomGo (i v : Nat) (k : Nat → Nat → Eff) : Eff := .look fun s =>
  atomic (s.get (R.SC_ATOM_CTL_target i)) (s.get (R.SC_ATOM_CTL_op i)) (s.get (R.SC_ATOM_CTL_type i)) v
    (s.get (R.SC_ATOM_CMP_compare i)) fun st old => .seq (put (R.SC_ATOM_CTL_last_status i) st) (k st old)

/-- A GO of an agent for the op that the slot holds. -/
def atomRow (who : Agent) (op i v : Nat) : Eff := .look fun s =>
  Eff.when (s.get (R.SC_ATOM_CTL_op i) == op) (
    let st := s.mapStatus (regAddr 0x1020 (i * 16 + 8)) 8
    if st ≠ ST_OK then .seq (refuseWrite who 0x1020 (i * 16 + 8) st) (send (.reply st []))
    else atomGo i v fun st old => match who with
      | .host _ => .skip
      | _ => send (.reply st (toLE 8 old)))

def execAtomAdd (who : Agent) (i : Fin 2056) (operand : Word) (s : State) : Host.Outcome State Fault Refusal :=
  (atomRow who 0 i operand.toNat).done s

def execAtomMin (who : Agent) (i : Fin 2056) (operand : Word) (s : State) : Host.Outcome State Fault Refusal :=
  (atomRow who 1 i operand.toNat).done s

def execAtomMax (who : Agent) (i : Fin 2056) (operand : Word) (s : State) : Host.Outcome State Fault Refusal :=
  (atomRow who 2 i operand.toNat).done s

def execAtomAnd (who : Agent) (i : Fin 2056) (operand : Word) (s : State) : Host.Outcome State Fault Refusal :=
  (atomRow who 3 i operand.toNat).done s

def execAtomOr (who : Agent) (i : Fin 2056) (operand : Word) (s : State) : Host.Outcome State Fault Refusal :=
  (atomRow who 4 i operand.toNat).done s

def execAtomXor (who : Agent) (i : Fin 2056) (operand : Word) (s : State) : Host.Outcome State Fault Refusal :=
  (atomRow who 5 i operand.toNat).done s

def execAtomSwap (who : Agent) (i : Fin 2056) (operand : Word) (s : State) : Host.Outcome State Fault Refusal :=
  (atomRow who 6 i operand.toNat).done s

def execAtomCas (who : Agent) (i : Fin 2056) (operand : Word) (s : State) : Host.Outcome State Fault Refusal :=
  (atomRow who 7 i operand.toNat).done s

def execAtomVadd (who : Agent) (i : Fin 2056) (operand : Word) (s : State) : Host.Outcome State Fault Refusal :=
  (atomRow who 8 i operand.toNat).done s

/-- PCIE_ATOMICOP (R282): op 0 = FetchAdd, 1 = Swap, 2 = CompareAndSwap of 4, 8 or 16 bytes. -/
def pcieAtomic (p op size a v cmp : Nat) : Eff := .look fun s =>
  let refuse := fun st => Eff.seq (hostFault p a st true true true) (send (.reply st []))
  if !s.linkUp p then .skip
  else if size = 2 then refuse ST_ATOMIC_UNSUPPORTED
  else if !s.cached a then refuse (if s.mapStatus a 1 ≠ ST_OK then s.mapStatus a 1 else ST_ATOMIC_UNSUPPORTED)
  else atomic a (match op with | 0 => 0 | 1 => 6 | _ => 7) size v cmp fun st old =>
    if st ≠ ST_OK then refuse st else send (.reply ST_OK (toLE (if size = 1 then 8 else 4) old))

def execPcieAtomicop (p : Fin 2) (op size : Fin 3) (a : BitVec 38) (operand compare : Word) (s : State) :
    Host.Outcome State Fault Refusal := (pcieAtomic p op size a.toNat operand.toNat compare.toNat).done s

/-! Flush and release (R275, R278) -/

/-- Write back every dirty line in a range that the cache holds. -/
def cleanRange (lo hi : Nat) : Eff := .look fun s =>
  Eff.each (s.cache.flatMap fun e => e.2) fun l =>
    Eff.when (l.dirty && decide (lo ≤ l.base) && decide (l.base ≤ hi)) (.seq (writeBack l) (setLine { l with dirty := false }))

/-- R278: the status of a start. -/
def State.flushStatus (s : State) : Nat :=
  if s.bit R.SC_FLUSH_CTRL_busy then ST_BUSY
  else if s.get R.SC_FLUSH_BASE_addr % 128 ≠ 0 ∨ s.get R.SC_FLUSH_LIMIT_addr % 128 ≠ 127 then ST_ALIGN
  else if s.get R.SC_FLUSH_LIMIT_addr < s.get R.SC_FLUSH_BASE_addr then ST_BAD_ARG
  else ST_OK

/-- A write of SC_FLUSH_CTRL. -/
def flushCtrl (v : Nat) : Eff := .look fun s => .all [
  put R.SC_FLUSH_CTRL_invalidate (v / 2 % 2),
  Eff.when (v % 2 == 1) (
    if s.flushStatus ≠ ST_OK then put R.SC_FLUSH_CTRL_last_status s.flushStatus
    else .all [
      put R.SC_FLUSH_CTRL_last_status ST_OK,
      putBit R.SC_FLUSH_CTRL_busy true,
      if v / 2 % 2 = 1 then flushRange (s.get R.SC_FLUSH_BASE_addr) (s.get R.SC_FLUSH_LIMIT_addr)
      else cleanRange (s.get R.SC_FLUSH_BASE_addr) (s.get R.SC_FLUSH_LIMIT_addr)])]

def actScFlush (who : Agent) (v : Nat) : Act := guardAct who 0x1020 0xD210 fun _ => (ST_OK, flushCtrl v)

/-- SC_FLUSH_START (R278): the walk writes back, and invalidates where asked; its completion is a step of its own. -/
def execScFlushStart (who : Agent) (invalidate : Bool) (s : State) : Host.Outcome State Fault Refusal :=
  (runAct who (actScFlush who (if invalidate then 3 else 1))).done s

/-- SC_FLUSH_DONE (R278). -/
def scFlushDone : Eff := .look fun s =>
  Eff.when (s.bit R.SC_FLUSH_CTRL_busy) (.seq (putBit R.SC_FLUSH_CTRL_busy false) (evFire 0x705))

def execScFlushDone (s : State) : Host.Outcome State Fault Refusal := scFlushDone.done s

/-- R275: no line of any slice is sticky in class k any more. -/
def keepRelease (k : Nat) : Eff := .look fun s =>
  Eff.each (s.cache.flatMap fun e => e.2) fun l => Eff.when (l.sticky == some k) (setLine { l with sticky := none })

def actKeepRelease (who : Agent) (k : Nat) : Act := guardAct who 0x1020 (0xD040 + k * 8) fun _ => (ST_OK, keepRelease k)

/-- KEEP_RELEASE (R275). -/
def execKeepRelease (who : Agent) (k : Fin 8) (s : State) : Host.Outcome State Fault Refusal :=
  (runAct who (actKeepRelease who k)).done s

/-! GDDR7 (R285–R292) -/

/-- R292: device g fails: its reads return poison, its writes are discarded, the replacement request is set. -/
def gdFail (g : Nat) : Eff := .all [
  put (R.GD_STATUS_state g) 3, setReplace 6 ST_UNCORRECTABLE g, evFire (0x580 + g)]

/-- R288, R292: `crc` attempts of an access failed their CRC; four failed attempts make the controller retrain the device. -/
def gdLink (g crc : Nat) (retrained : Bool) : Eff := .all [
  addSat (R.GD_LINK_CNT_crc_errors g) crc,
  Eff.when (crc == 4) (.all [
    addSat (R.GD_LINK_CNT_retries_failed g) 1,
    addSat (R.GD_LINK_CNT_retrains g) 1,
    Eff.when (!retrained) (gdFail g)])]

/-- Bits of a stored word turn over: data bits and check bits. -/
def dramUpset (a flip flipCheck : Nat) : Eff := .look fun s =>
  let new := Nat.xor (s.word a) flip
  Eff.when (flip != 0 || flipCheck != 0) (pokeWord a new
    (Nat.xor (Nat.xor (s.checkAt (a / 8)).toNat flipCheck) (Nat.xor (checkOf (s.word a) a) (checkOf new a))))

/-- GDDR_REQUEST (R285–R292): a controller serves a request at its device, past the cache; bits of its first word may have
turned over, `crc` attempts fail, `ns` is the latency of a read. -/
def gddrRequest (a len : Nat) (write : Option (List Byte)) (crc : Nat) (retrained : Bool) (flip flipCheck ns : Nat) : Eff :=
  .look fun s =>
    let n := match write with | some bs => bs.length | none => len
    let refused := fun st => send (.reply st (if write.isNone then List.replicate n 0xFF else []))
    if !isExt a ∨ n = 0 then .skip
    else if s.mapStatus a n ≠ ST_OK then refused (s.mapStatus a n)
    else if s.touchesLock a n then refused ST_BUSY
    else .all [
      dramUpset (a / 8 * 8) flip flipCheck,
      Eff.when (!s.gdFailed (extDev a)) (gdLink (extDev a) crc retrained),
      match write with
      | some bs => dramWrite a bs fun st => send (.reply st [])
      | none => .seq (monSample 0x0E (extDev a) ns) (dramRead a n fun r => send (.reply r.status r.data))]

def execGddrRequest (a : BitVec 48) (len : BitVec 9) (write : Option (List Byte)) (crc : Fin 5) (retrained : Bool)
    (flip : Word) (flipCheck : BitVec 16) (ns : Nat) (s : State) : Host.Outcome State Fault Refusal :=
  (gddrRequest a.toNat len.toNat write crc retrained flip.toNat flipCheck.toNat ns).done s

/-- GDDR_REFRESH (R289): the next row of a bank is refreshed. -/
def gddrRefresh (g bank : Nat) : Eff := .look fun s =>
  .upd (.refRow ((1024 + g) * 16 + bank) ((s.refRowAt ((1024 + g) * 16 + bank) + 1) % 131072))

def execGddrRefresh (g : Fin 24) (bank : Fin 16) (s : State) : Host.Outcome State Fault Refusal := (gddrRefresh g bank).done s

/-- The first time from `t` on whose millisecond is not among those listed. -/
def freeMs (busy : List Nat) : Nat → Nat → Nat
  | 0, t => t
  | n + 1, t => if busy.contains (t / 1000000) then freeMs busy n ((t / 1000000 + 1) * 1000000) else t

/-- GDDR_PERIODIC_RETRAIN (R289): retrain_ms after its last retraining a running device is retrained, in a millisecond in which no
other controller has retrained. -/
def gddrRetrain (g : Nat) : Eff := .look fun s =>
  let due := max s.now (s.gdRetrainAt g + s.get R.GD_CFG_retrain_ms * 1000000)
  let busy := ((List.range 24).filter fun h => h != g && s.get (R.GD_STATUS_state h) == 1).map fun h => s.gdRetrainAt h / 1000000
  Eff.when (s.get (R.GD_STATUS_state g) == 1) (.seq (reachTime (freeMs busy 24 due)) (.look fun s => .upd (.gdRetrain g s.now)))

def execGddrPeriodicRetrain (g : Fin 24) (s : State) : Host.Outcome State Fault Refusal := (gddrRetrain g).done s

end Sys2Proof.Machine
end

