-- ==== Sys2Proof/Machine/CheckValues.lean ====
section
/-! DEFINITION. The commands of the check-value engines (18_errors_service.md R463–R467): CRC_START, CRC_STOP, CRC_RESUME,
CRC_COMPARE; and the writes of their configuration registers. -/

namespace Sys2Proof.Machine

/-- R463: load I and run; a running engine restarts. -/
def crcStart (e : Nat) : Eff := .look fun s => .all [
  put (R.CRC_VALUE_value e) (s.get (R.CRC_INIT_value e) % 2 ^ s.get (R.CRC_CFG_width e)),
  put (R.CRC_STATUS_bytes e) 0,
  putBit (R.CRC_CTRL_running e) true]

/-- R466: compare the result with the expected value. -/
def crcCompare (e : Nat) : Eff := .look fun s =>
  if s.crcResult e = s.get (R.CRC_EXPECT_value e) % 2 ^ s.get (R.CRC_CFG_width e) then
    .seq (put (R.CRC_STATUS_last_status e) ST_OK) (putBit (R.CRC_STATUS_mismatch e) false)
  else .all [put (R.CRC_STATUS_last_status e) ST_CHECK_MISMATCH, putBit (R.CRC_STATUS_mismatch e) true, evFire (0x5A0 + e)]

/-- A write of CRC_CTRL. -/
def crcCtrl (e v : Nat) : Eff := .all [
  put (R.CRC_CTRL_win_en e) (v / 2 ^ 4),
  Eff.when (v % 2 == 1) (crcStart e),
  Eff.when (v / 2 % 2 == 1) (putBit (R.CRC_CTRL_running e) false),
  Eff.when (v / 4 % 2 == 1) (putBit (R.CRC_CTRL_running e) true),
  Eff.when (v / 8 % 2 == 1) (crcCompare e)]

def actCrcCtrl (who : Agent) (e v : Nat) : Act := guardAct who 0x1006 (e * 0x100 + 0x40) fun _ => (ST_OK, crcCtrl e v)

/-- The bits of CRC_CTRL that a write of one action bit keeps. -/
def actCrcBit (who : Agent) (e bit : Nat) : Act := fun s =>
  actCrcCtrl who e (s.get (R.CRC_CTRL_win_en e) * 16 + 2 ^ bit) s

def execCrcStart (who : Agent) (e : Fin 16) (s : State) : Host.Outcome State Fault Refusal := (runAct who (actCrcBit who e 0)).done s

def execCrcStop (who : Agent) (e : Fin 16) (s : State) : Host.Outcome State Fault Refusal := (runAct who (actCrcBit who e 1)).done s

def execCrcResume (who : Agent) (e : Fin 16) (s : State) : Host.Outcome State Fault Refusal := (runAct who (actCrcBit who e 2)).done s

def execCrcCompare (who : Agent) (e : Fin 16) (s : State) : Host.Outcome State Fault Refusal :=
  (runAct who (actCrcBit who e 3)).done s

/-- R465, R467: a write of CRC_CFG (offset 0), CRC_POLY (8), CRC_INIT (0x10) or CRC_VALUE (0x18): discarded while the engine
runs, or for a width outside 8–64, or for a polynomial with bits at or above W. -/
def actCrcConfig (who : Agent) (e off v half : Nat) : Act := guardAct who 0x1006 (e * 0x100 + off) fun s =>
  let new := mergeHalf (s.reg (rk 0x1006 (e * 0x100 + off))).toNat v half
  (ST_OK,
    if s.bit (R.CRC_CTRL_running e) then put (R.CRC_STATUS_last_status e) ST_BUSY
    else if (off = 0 ∧ ¬ (8 ≤ new % 128 ∧ new % 128 ≤ 64)) ∨ (off = 8 ∧ 2 ^ s.get (R.CRC_CFG_width e) ≤ new) then
      put (R.CRC_STATUS_last_status e) ST_BAD_ARG
    else regWritePlain who 0x1006 (e * 0x100 + off) v half)

end Sys2Proof.Machine
end

