-- ==== Sys2Proof/Machine/Bus.lean ====
section
/-! DEFINITION. Reads and writes at any device address: register writes with the command bits of their registers
(00_scope.md R5, R6; 01_organisation.md R23–R34), BAR0 and BAR2 accesses of hosts (13_host_interface.md R349–R352), and the
loads and stores of sequencer threads (06_cell.md R153, R158, R159). Commands: REGISTER_WRITE, REGISTER_READ,
ADDRESS_MAP_ACCESS, BAR2_ACCESS, SEQ_LD, SEQ_ST. -/

namespace Sys2Proof.Machine

/-! Register writes -/

/-- Several effects of one write, in order; the response reports the first status that is not ST_OK. -/
def actSeq (as : List Act) : Act := fun s =>
  (as.foldl (fun st a => worst st (a s).1) ST_OK, Eff.each as fun a => .look fun s => (a s).2)

/-- An effect that a command bit asks for. -/
def actIf (b : Bool) (a : Act) : List Act := if b then [a] else []

/-- A plain write under the limits of its page. -/
def actPlain (who : Agent) (page off v half : Nat) : Act := guardAct who page off fun _ =>
  (ST_OK, regWritePlain who page off v half)

/-- The written bits with a low field replaced, when the write holds the low half. -/
def keepLow (v half lo w x : Nat) : Nat := if half = 2 then v else putBits v lo w x

/-- Bit `i` of a number. -/
def bitOf (v i : Nat) : Bool := v / 2 ^ i % 2 == 1

/-- An effect on a register page, with the page's limits checked. -/
def actDo (who : Agent) (page off : Nat) (e : Eff) : Act := guardAct who page off fun _ => (ST_OK, e)

/-- R32: a command register whose field lies in its low half: a 4-byte write of the other half is no command. -/
def actLow (who : Agent) (page off half : Nat) (a : Act) : Act := if half = 2 then actDo who page off .skip else a

/-- A write of SCRUB_CTRL: the settings, start and abort. How many granules the scrub had read when the abort reached it is
undefined here; SCRUB_ABORT gives it. -/
def actScrubCtrl (who : Agent) (u : Option (Fin 128)) (v half full : Nat) : Act := actSeq (
  [actPlain who (unitPage u) 0x210 v half] ++
  actIf (bitOf full 0) (actScrubStart who u) ++
  actIf (bitOf full 1) (actDo who (unitPage u) 0x210 (withFree fun w => scrubEnd u (some (w.toNat % 2 ^ 23)) ST_SCRUB_ABORTED)))

/-- A write of DL_CTRL. -/
def actDlCtrl (who : Agent) (i v half full : Nat) : Act := fun s =>
  let d := i / 6
  let m := i % 6
  let page := 0x800 + d * 8 + m
  let old := s.get ⟨rk page 0, 1, 2⟩
  actSeq ([actPlain who page 0 (keepLow v half 1 2 old) half,
    actDo who page 0 (Eff.when (bitOf full 2 != s.bit (R.DL_CTRL_force_fallback d m)) (dlForce i (bitOf full 2))),
    actDlOffline who d m (bitOf full 1)] ++ actIf (bitOf full 0) (actDlRetrain who d m)) s

/-- The effect of a write of a page at an 8-aligned offset. `v` holds the written bytes, `half` says which half they are;
`full` is the register with them in place, so that a command bit outside the written half is 0 (R32). -/
def writeAct (who : Agent) (page off v half : Nat) : Act := fun s =>
  let plain := actPlain who page off v half
  match clsOf page with
  | none => plain s
  | some (cls, n) =>
    let full := mergeHalf (s.reg (rk page off)).toNat v half
    if off = 0xFFF8 then (if bitOf v 0 && half != 2 then actCommit who page s else actDo who page off .skip s)
    else match cls with
    | .cell => if 0x10 ≤ off ∧ off < 0x40 then actOwnerWrite who n ((off - 0x10) / 8) full half s else plain s
    | .seq =>
      if off = 0x2000 then actSeq (actIf (bitOf full 0) (actIcacheInvalidate who n)) s
      else if off < 0x400 ∧ off % 0x40 = 8 then
        let t := off / 0x40
        actSeq (actIf (bitOf full 0) (actThreadHalt who n t) ++ actIf (bitOf full 1) (actThreadResume who n t) ++
          actIf (bitOf full 2) (actThreadKill who n t)) s
      else plain s
    | .feed =>
      if off = 0 then
        actSeq ([actPlain who page off (keepLow v half 0 1 (s.get (R.FEED_CTRL_enable n))) half,
          actFeedEnable who n (bitOf full 0)] ++ actIf (bitOf full 1) (actFeedAbort who n)) s
      else if off = 0x10 then actLow who page off half (actFeedIssue who n (full / 2 ^ 6 % 2 ^ 16) false) s
      else plain s
    | .que =>
      let k := off / 0x100
      if off < 0x800 ∧ off % 0x100 = 0 then
        actSeq ([actQueChPause who n k (bitOf full 0)] ++ actIf (bitOf full 1) (actQueChResume who n k) ++
          actIf (bitOf full 2) (actQueChSkip who n k) ++ actIf (bitOf full 3) (actQueChFlush who n k)) s
      else if off < 0x800 ∧ off % 0x100 = 0x20 then 
        actLow who page off half (actQueChSubmit who n k (full / 2 ^ 6 % 2 ^ 16) false) s
      else plain s
    | .kvt =>
      if off = 0 then actSeq ([plain] ++ actIf (bitOf full 1) (actKvtAbort who n)) s
      else if off = 0x10 then actKvtSubmit who n full s
      else if h : 0x800 ≤ off ∧ off < 0x920 ∧ (off - 0x800) % 0x20 = 0x18 ∧ n < 128 then
        actKvtFlPush who ⟨n, h.2.2.2⟩ ((off - 0x800) / 0x20) full s
      else plain s
    | .pbx =>
      if off = 0x600 then actLow who page off half (actPbxSignal who n (full % 64) (full / 2 ^ 16 % 2 ^ 16)) s
      else if off = 0x608 then actLow who page off half (actPbxReset who n (full % 64) (full / 2 ^ 16 % 2 ^ 16)) s
      else plain s
    | .vlt =>
      if h : n < 128 then
        (if off = 0x210 then actScrubCtrl who (some ⟨n, h⟩) v half full s
         else if off = 0x300 then actDiagLock who (some ⟨n, h⟩) full s
         else if off = 0x320 then actDiagCheck who (some ⟨n, h⟩) full s
         else plain s)
      else plain s
    | .gdCommon =>
      if off = 0x210 then actScrubCtrl who none v half full s
      else if off = 0x300 then actDiagLock who none full s
      else if off = 0x320 then actDiagCheck who none full s
      else plain s
    | .bu =>
      let u := n * 8 + off / 0x1000
      if off % 0x1000 = 0 then actBuCtrl who u (full % 64) s
      else if off % 0x1000 = 0x10 then actBuMode who u full s
      else if off % 0x1000 = 0x18 then actBuSubmit who (Fin.ofNat 1024 u) (full % 2 ^ 48) s
      else plain s
    | .buprog => actBuProg who (n * 8 + off / 0x1000) (off % 0x1000 / 8) v half s
    | .cbLo | .cbHi =>
      let slot := (if cls == .cbHi then 32 else 0) + off / 0x400
      if 0x8000 ≤ off then plain s
      else if off % 0x400 = 0x3F8 then actCodebookWord who page off half (actCodebookDesc who n slot full) s
      else if off % 0x400 < 0x200 then actCodebookWord who page off half plain s
      else plain s
    | .dl =>
      if off = 0 then actDlCtrl who n v half full s
      else if off = 0x48 then
        actDlTest who (n / 6) (n % 6) (full % 4) (full / 4 % 4) (full / 64 % 2) (bitOf full 4) s
      else plain s
    | .qp =>
      let p := page - 0x1012
      let q := off / 0x40
      if 0x1000 ≤ off then plain s
      else if off % 0x40 = 0x10 then
        actSeq [actPlain who page off (keepLow v half 0 1 (s.get (R.QUE_QP_CFG_enable p q))) half,
          actQpEnable who p q (bitOf full 0)] s
      else if off % 0x40 = 0x20 then actSqTail who p q (full % 2 ^ 12) s
      else if off % 0x40 = 0x28 then actCqHead who p q (full % 2 ^ 12) s
      else plain s
    | .scCommon =>
      if 0xD040 ≤ off ∧ off < 0xD080 then
        actSeq ([plain] ++ actIf (bitOf full 15) (actKeepRelease who ((off - 0xD040) / 8))) s
      else if off = 0xD210 then actScFlush who (full % 4) s
      else plain s
    | .gwlCommon =>
      if 0x808 ≤ off ∧ off < 0x908 ∧ (off - 0x808) % 0x20 = 0 then actXqCtrl who ((off - 0x808) / 0x20) (full % 2 ^ 15) s
      else plain s
    | .gwlLink => if off = 0 then actLinkCtrl who n (full % 4) s else plain s
    | .tide =>
      if off = 0 then
        actSeq [actPlain who page off (keepLow v half 0 1 (s.get R.TIDE_CTRL_run)) half,
          actDo who page off (Eff.when (half != 2) (tideRun (bitOf full 0)))] s
      else plain s
    | .cht => if off = 0x10 then actChtArm who full s else plain s
    | .swl => if off = 0x800 then actLow who page off half (actSwlArrive who (full % 64)) s else plain s
    | .evc =>
      if off = 0x4300 then actDo who page off (Eff.when (half != 2) (evFire (full % 2 ^ 11))) s
      else if off = 0x4308 then
        actDo who page off (if h : full / 2 ^ 12 % 4 < 3 then
            Eff.when (half != 2) (evcEos who ⟨full / 2 ^ 12 % 4, h⟩ ⟨full % 2048, Nat.mod_lt _ (by decide)⟩)
          else .skip) s
      else plain s
    | .mon =>
      if off < 0x4000 ∧ off % 0x100 = 0x10 then
        actDo who page off (.seq (Eff.when (bitOf full 0) (monSnap (off / 0x100))) (Eff.when (bitOf full 1) (monClear (off / 0x100)))) s
      else plain s
    | .crc =>
      let e := off / 0x100
      let o := off % 0x100
      if 0x1000 ≤ off then plain s
      else if o = 0 ∨ o = 8 ∨ o = 0x10 ∨ o = 0x18 then actCrcConfig who e o v half s
      else if o = 0x40 then actCrcCtrl who e (full % 32) s
      else plain s
    | .drn | .vec | .dlDie | .hif | .scSlice | .gdCtrl | .aow | .fw | .lic | .lcy | .thm | .pwr | .svc => plain s

/-- Whether a register is SC_ATOM_GO of an atomic slot (R280). -/
def isAtomGo (page off : Nat) : Bool := page == 0x1020 && decide (off < 2056 * 16) && off % 16 / 8 == 1

/-- R28, R32, R33, R280: a write of register space; the continuation gets the status and what the response returns. -/
def regWriteBus (who : Agent) (page off : Nat) (bs : List Byte) (k : Nat → Nat → Eff) : Eff := .look fun s =>
  let st := s.regStatus page off bs.length
  if isAtomGo page off && (bs.length != 8 || off % 8 != 0) then
    .seq (refuseWrite who page off ST_BAD_ARG) (k ST_BAD_ARG 0)
  else if st ≠ ST_OK then .seq (refuseWrite who page off st) (k st 0)
  else if isAtomGo page off then atomGo (off / 16) (leNat bs) k
  else
    let a := guardAct who page (off / 8 * 8) (writeAct who page (off / 8 * 8) (leNat bs) (halfOf off bs.length)) s
    .seq a.2 (k a.1 0)

/-- A read of register space. -/
def regReadBus (who : Agent) (page off n : Nat) (k : Resp → Eff) : Eff := regRead page off n fun r =>
  match who with
  | .host p => .look fun s => .seq (Eff.when (r.status != ST_OK) (hostFault p (s.bar0 p page off) (hostStatus r.status) false false false)) (k r)
  | _ => k r

/-- Write at a device address under a hint. -/
def hintWrite (who : Agent) (h : Hint) (a : Nat) (bs : List Byte) (k : Nat → Nat → Eff) : Eff :=
  match regionOf a with
  | .regs page off => regWriteBus who page off bs k
  | _ => memWrite who h a bs k

/-- Read at a device address under a hint. -/
def hintRead (who : Agent) (h : Hint) (a n : Nat) (k : Resp → Eff) : Eff :=
  match regionOf a with
  | .regs page off => regReadBus who page off n k
  | _ => memRead who h a n k

/-- Write at a device address. -/
def busWrite (who : Agent) (a : Nat) (bs : List Byte) (k : Nat → Nat → Eff) : Eff := hintWrite who .normal a bs k

/-- Read at a device address. -/
def busRead (who : Agent) (a n : Nat) (k : Resp → Eff) : Eff := hintRead who .normal a n k

/-! BAR0 (R350, R351) -/

/-- What a BAR0 offset names. -/
inductive Bar0 where
  | page (q off : Nat)
  | table (off : Nat)
  | pba (off : Nat)
  | hole
  deriving DecidableEq, Repr

/-- R350: the layout of BAR0 of port `p`. -/
def State.bar0At (s : State) (p x : Nat) : Bar0 :=
  if x < 0x10000 then .page (0x1010 + p) x
  else if x < 0x20000 then .page (0x1012 + p) (x - 0x10000)
  else if x < 0x20800 then .table (x - 0x20000)
  else if 0x21000 ≤ x ∧ x < 0x21010 then .pba (x - 0x21000)
  else if 0x1000000 ≤ x ∧ x < 0x2000000 then .page (0x1000 + (x - 0x1000000) / 0x10000) (x % 0x10000)
  else if 0x2000000 ≤ x ∧ x < 0x4000000 then
    .page (s.get (R.HIF_WIN_base_page p ((x - 0x2000000) / 0x800000)) + (x - 0x2000000) % 0x800000 / 0x10000) (x % 0x10000)
  else .hole

/-- The 16 bytes of an MSI-X table entry: address, data, and the mask in bit 0 of its last word. -/
def MsixEntry.bytes (e : MsixEntry) : List Byte := toLE 8 e.addr ++ toLE 4 e.data ++ toLE 4 (if e.masked then 1 else 0)

/-- The entry that 16 bytes hold; its pending bit stays. -/
def MsixEntry.ofBytes (e : MsixEntry) (bs : List Byte) : MsixEntry :=
  ⟨leAt bs 0 8, leAt bs 8 4, leAt bs 12 4 % 2 == 1, e.pending⟩

/-- Bytes with some replaced. -/
def patch (old : List Byte) (i : Nat) (new : List Byte) : List Byte := old.take i ++ new ++ old.drop (i + new.length)

/-- A write of the MSI-X table: an entry whose mask is cleared sends its pending message (R439). -/
def msixWrite (p off : Nat) (bs : List Byte) : Eff := .look fun s =>
  let key := p * 128 + off / 16
  let e := (s.msixAt key).ofBytes (patch (s.msixAt key).bytes (off % 16) bs)
  .seq (.upd (.msix key e)) (Eff.when (!e.masked) (msixRelease p (off / 16)))

/-- The pending-bit array of a port. -/
def State.pba (s : State) (p : Nat) : Nat :=
  (List.range 128).foldl (fun n v => if (s.msixAt (p * 128 + v)).pending then n + 2 ^ v else n) 0

/-- A refused BAR0 access. -/
def bar0Fault (p x st : Nat) (write : Bool) : Eff := hostFault p x st write false false

/-- A write of BAR0: it is posted. -/
def bar0Write (p : Fin 2) (x : Nat) (bs : List Byte) : Eff := .look fun s =>
  match s.bar0At p x with
  | .page q off =>
    if (clsOf q).isNone then bar0Fault p x ST_ADDR_UNMAPPED true
    else regWriteBus (.host p) q off bs fun _ _ => .skip
  | .table off => if regAligned off bs.length then msixWrite p off bs else bar0Fault p x ST_ALIGN true
  | .pba off => if regAligned off bs.length then .skip else bar0Fault p x ST_ALIGN true
  | .hole => bar0Fault p x ST_ADDR_UNMAPPED true

/-- A read of BAR0: it completes normally in every case, with all ones when it is refused; a poisoned word of a codebook RAM
completes with EP (R456). -/
def bar0Read (p : Fin 2) (x n : Nat) : Eff := .look fun s =>
  let refused := fun st => Eff.seq (bar0Fault p x st false) (send (.reply ST_OK (List.replicate n 0xFF)))
  match s.bar0At p x with
  | .page q off =>
    if (clsOf q).isNone then refused ST_ADDR_UNMAPPED
    else regReadBus (.host p) q off n fun r => send (.reply (if hostStatus r.status = ST_POISON then ST_POISON else ST_OK) r.data)
  | .table off =>
    if regAligned off n then send (.reply ST_OK (((s.msixAt (p * 128 + off / 16)).bytes.drop (off % 16)).take n))
    else refused ST_ALIGN
  | .pba off => if regAligned off n then send (.reply ST_OK (((toLE 16 (s.pba p)).drop off).take n)) else refused ST_ALIGN
  | .hole => refused ST_ADDR_UNMAPPED

/-! REGISTER_WRITE, REGISTER_READ -/

/-- A register write. A BAR0 offset is a host's; a host that names a page reaches it through its BAR0. -/
def registerWrite (who : Agent) (target : RegAt) (bs : List Byte) : Eff :=
  match target, who with
  | .bar0 x, .host p => bar0Write p x.toNat bs
  | .bar0 _, _ => .skip
  | .page q off, .host p =>
    if (clsOf q.toNat).isNone then .look fun s => bar0Fault p (s.bar0 p q.toNat off.toNat) ST_ADDR_UNMAPPED true
    else regWriteBus who q.toNat off.toNat bs fun _ _ => .skip
  | .page q off, _ => busWrite who (regAddr q.toNat off.toNat) bs fun st old => send (.reply st (toLE 8 old))

def execRegisterWrite (who : Agent) (target : RegAt) (data : List Byte) (s : State) : Host.Outcome State Fault Refusal :=
  (registerWrite who target data).done s

/-- A register read. -/
def registerRead (who : Agent) (target : RegAt) (n : Nat) : Eff :=
  match target, who with
  | .bar0 x, .host p => bar0Read p x.toNat n
  | .bar0 _, _ => .skip
  | .page q off, .host p =>
    if (clsOf q.toNat).isNone then .look fun s =>
      .seq (bar0Fault p (s.bar0 p q.toNat off.toNat) ST_ADDR_UNMAPPED false) (send (.reply ST_OK (List.replicate n 0xFF)))
    else regReadBus who q.toNat off.toNat n fun r => send (.reply ST_OK r.data)
  | .page q off, _ => busRead who (regAddr q.toNat off.toNat) n fun r => send (.reply r.status r.data)

def execRegisterRead (who : Agent) (target : RegAt) (n : Fin 17) (s : State) : Host.Outcome State Fault Refusal :=
  (registerRead who target n).done s

/-! ADDRESS_MAP_ACCESS, BAR2_ACCESS -/

/-- R352: the size of BAR2 of a port. -/
def State.bar2Size (s : State) (p : Nat) : Nat := 2 ^ (28 + s.bar2At p)

/-- The collision that a BAR2 read of cell SRAM meets (R174, R351). -/
def bar2Collide (p : Fin 2) (a n : Nat) : Eff := .all [
  countCollisions a 10 1,
  hostFault p a ST_COLLISION false true false,
  withFreeBytes n fun bs => .seq (snoop 2 1 p (at_ a bs)) (send (.reply ST_OK bs))]

/-- BAR2_ACCESS (R27, R349, R351, R352): an access beyond the size the host has set, or a write above 512 bytes, does not reach
the device; `resize` is the size that the host sets beforehand. -/
def bar2Access (p : Fin 2) (resize : Option (Fin 11)) (a n : Nat) (data : Option (List Byte)) (collided : Bool) : Eff := .all [
  (match resize with | some z => .upd (.bar2 p z) | none => .skip),
  .look fun s =>
    let len := match data with | some bs => bs.length | none => n
    if !s.linkUp p || len == 0 || decide (s.bar2Size p < a + len) then .skip
    else match data with
    | some bs => if 512 < bs.length then .skip
        else .seq (snoop 2 0 p (at_ a bs)) (holdOr (.host p) a bs.length data (memWrite (.host p) .normal a bs fun st _ =>
          Eff.when (st != ST_OK) (hostFault p a st true true false)))
    | none =>
      if collided && (match regionOf a with | .sram _ _ => true | _ => false) && s.mapStatus a n == ST_OK &&
          (s.refusedBank (cellAt a) ((a - 0x3000000000) % 0x400000) n (10, p)).isNone then
        bar2Collide p a n
      else holdOr (.host p) a n none (memRead (.host p) .normal a n fun r => hostAnswer p a r)]

def execBar2Access (p : Fin 2) (resize : Option (Fin 11)) (a : BitVec 38) (n : BitVec 13) (data : Option (List Byte))
    (collided : Bool) (s : State) : Host.Outcome State Fault Refusal :=
  (bar2Access p resize a.toNat n.toNat data collided).done s

/-! Parity on the way (R455) -/

/-- The block at which the payload of a request is checked: a vault, a cell's SRAM, a shared-cache slice or a register block. -/
def parityBlock (a : Nat) : Nat :=
  match regionOf a with
  | .vault c => c * 16 + 8
  | .sram c _ | .setAlias c _ | .clrAlias c _ => c * 16
  | .ext => 0x10000 + sliceOf a
  | .regs page _ => page
  | .hole => 0x11000

/-- The block at which the payload of a response is checked. -/
def agentBlock : Agent → Nat
  | .host p => 0x20000 + p
  | .core k => 0x20010 + k
  | .mgmt => 0x20020
  | .remote l => 0x20040 + l
  | .thread c _ => 0x20100 + c
  | .engine c _ => 0x20200 + c
  | .feeder c => 0x20300 + c
  | .drain c => 0x20400 + c
  | .vector c => 0x20500 + c
  | .kvt c => 0x20600 + c
  | .scrub c => 0x20700 + c
  | .bankUnit b => 0x21000 + b

/-- A block counts ST_PARITY. -/
def countParity (block : Nat) : Eff := .look fun s => .upd (.parityCount block (s.parityCountAt block + 1))

/-- The bytes of a payload that fail parity. -/
def failedBytes (n : Nat) (fs : List (Fin 4096)) : List Bool := (List.range n).map fun i => fs.any fun f => f.val == i

/-- The words of a request's payload that hold a failed byte arrive poisoned. -/
def parityWrite (a n st : Nat) (fs : List (Fin 4096)) : Eff :=
  let bad := failedBytes n fs
  Eff.when (bad.any id) (.seq (countParity (parityBlock a)) (match regionOf a with
    | .vault _ | .ext | .sram _ _ => Eff.when (st == ST_OK || st == ST_POISON || st == ST_UNCORRECTABLE) (poisonBytes (st == ST_OK) a bad)
    | _ => .skip))

/-- A response whose payload holds failed bytes. -/
def parityRead (who : Agent) (r : Resp) (fs : List (Fin 4096)) (k : Resp → Eff) : Eff :=
  let bad := failedBytes r.data.length fs
  if r.status = ST_OK ∧ bad.any id then .seq (countParity (agentBlock who)) (k ⟨ST_POISON, r.data, bad⟩) else k r

/-- An access whose header is dropped on the way: the status that its source gets, ST_TIMEOUT 100 µs later. -/
def parityLost (source : Bool) (k : Nat → Eff) : Eff :=
  if source then k ST_PARITY else .look fun s => .seq (reachTime (s.now + 100000)) (k ST_TIMEOUT)

/-- A host's BAR2 access that meets a parity error. -/
def bar2Parity (p : Fin 2) (a n : Nat) (data : Option (List Byte)) (parity : Parity) : Eff := .look fun s =>
  let len := (data.map List.length).getD n
  if !s.linkUp p || len == 0 || decide (s.bar2Size p < a + len) then .skip
  else match data, parity with
  | some bs, .payload fs => if 512 < bs.length then .skip
      else .seq (snoop 2 0 p (at_ a bs)) (holdOr (.host p) a bs.length data (memWrite (.host p) .normal a bs fun st _ =>
        .seq (parityWrite a bs.length st fs) (Eff.when (st != ST_OK) (hostFault p a st true true false))))
  | some bs, .header src => if 512 < bs.length then .skip
      else .seq (snoop 2 0 p (at_ a bs)) (parityLost src fun st => hostFault p a st true true false)
  | none, .payload fs => holdOr (.host p) a n none (memRead (.host p) .normal a n fun r =>
      parityRead (.host p) r fs fun r => hostAnswer p a r)
  | none, .header src => parityLost src fun st => hostAnswer p a (onesResp st n)
  | _, .good => bar2Access p none a n data false

/-- R23–R28: an access of an agent at a device address, with its response. A host reaches device addresses through its BAR2 (R27). -/
def addressMapAccess (who : Agent) (a n : Nat) (data : Option (List Byte)) (parity : Parity) : Eff :=
  match who, parity with
  | .host p, _ => bar2Parity p a n data parity
  | _, .header src => parityLost src fun st => send (.reply st (if data.isSome then [] else (onesResp st n).data))
  | _, _ =>
    let fs := match parity with | .payload fs => fs | _ => []
    match data with
    | some bs => holdOr who a bs.length data (busWrite who a bs fun st old =>
        .seq (parityWrite a bs.length st fs) (send (.reply st (toLE 8 old))))
    | none => holdOr who a n none (busRead who a n fun r => parityRead who r fs fun r => send (.reply r.status r.data))

def execAddressMapAccess (who : Agent) (a : BitVec 48) (n : BitVec 13) (data : Carried) (s : State) :
    Host.Outcome State Fault Refusal := (addressMapAccess who a.toNat n.toNat data.bytes data.parity).done s

/-! LD and ST (R153, R158, R159) -/

/-- The answer of a thread's access is there. -/
def accessAnswer (c t tag : Nat) (r : Resp) : Eff := .look fun s =>
  .upd (.loads (c * 16 + t) ((s.loadsAt (c * 16 + t)).map fun x => if x.tag == tag then { x with answer := some r } else x))

/-- A load or a store sets out. -/
def threadAccess (c : Fin 128) (t : Fin 16) (load waits : Bool) (dest size : Nat) (sext : Bool) (addr : Nat)
    (write : Option (List Byte)) : Eff := .look fun s =>
  let tag := s.tagNext + 1
  .all [
    .upd (.loads (c * 16 + t) (s.loadsAt (c * 16 + t) ++ [⟨tag, load, waits, dest, size, sext, addr, s.pc c t, none⟩])),
    nextPc c t,
    holdOr (.thread c t) addr size write (.seq (.upd (.tagNext tag)) (match write with
      | some bs => busWrite (.thread c t) addr bs fun st old => accessAnswer c t tag ⟨st, toLE 8 old, []⟩
      | none => busRead (.thread c t) addr size fun r => accessAnswer c t tag r))]

/-- LD: size 2^fn[1:0]; fn[2] sign-extends. -/
def seqLd (c : Fin 128) (t : Fin 16) (d a : Nat) (fn : BitVec 9) (imm : BitVec 32) : Eff := issue c t 7 fn (.look fun s =>
  let size := 2 ^ (fn.toNat % 4)
  let addr := (s.sreg c t a + immWord imm).toNat
  if addr % size ≠ 0 then trapThread c t 0x02 ST_ALIGN addr
  else threadAccess c t true false d size (bitOf fn.toNat 2) addr none)

def execSeqLd (c : Fin 128) (t : Fin 16) (d a b : Fin 32) (fn : BitVec 9) (imm : BitVec 32) (s : State) :
    Host.Outcome State Fault Refusal :=
  (fetched c t (seqWord 0x10 d a b fn imm) (seqLd c t d a fn imm)).done s

/-- ST: size 2^fn[1:0]; fn[3] waits for the response and writes s[d]. -/
def seqSt (c : Fin 128) (t : Fin 16) (d a b : Nat) (fn : BitVec 9) (imm : BitVec 32) : Eff :=
  issue c t 11 fn (.look fun s =>
    let size := 2 ^ (fn.toNat % 4)
    let addr := (s.sreg c t a + immWord imm).toNat
    if addr % size ≠ 0 then trapThread c t 0x02 ST_ALIGN addr
    else threadAccess c t false (bitOf fn.toNat 3) d size false addr (some (toLE size (s.sreg c t b).toNat)))

def execSeqSt (c : Fin 128) (t : Fin 16) (d a b : Fin 32) (fn : BitVec 9) (imm : BitVec 32) (s : State) :
    Host.Outcome State Fault Refusal :=
  (fetched c t (seqWord 0x11 d a b fn imm) (seqSt c t d a b fn imm)).done s

end Sys2Proof.Machine
end

