-- ==== Sys2Proof/Machine/BuRun.lean ====
section
/-! DEFINITION. The memory and operation instructions of bank units and their service commands (08_bank_units.md R203, R212–R219,
R222, R224, R229–R231). Commands: BU_SVC_COPY, BU_SVC_FILL, BU_SVC_CHECK, BU_LDQ, BU_LDI, BU_LDS, BU_LCB, BU_CLR, BU_STR,
BU_GATHER, BU_GATHER_REDUCE, BU_ROW_DOT, BU_SCAN_STATS, BU_COPY, BU_FILL, BU_CHECK. -/

namespace Sys2Proof.Machine

/-! Buffers (R213) -/

def BUF_Q : Nat := 0
def BUF_I : Nat := 1
def BUF_S : Nat := 2
def BUF_VA : Nat := 3

/-- The key of entry `i` of buffer `k`. -/
def bufKey (u k i : Nat) : Nat := u * 4096 + k * 1024 + i

/-- Entry `i` of a buffer. -/
def State.buf (s : State) (u k i : Nat) : BufWord := s.buBufAt (bufKey u k i)

/-- The first `n` entries of a buffer. -/
def State.bufList (s : State) (u k n : Nat) : List BufWord := (List.range n).map fun i => s.buf u k i

/-- Write entries from 0 on. -/
def putBuf (u k : Nat) (ws : List BufWord) : Eff := Eff.each (ws.zip (List.range ws.length)) fun p => .upd (.buBuf (bufKey u k p.2) p.1)

/-- The value of an FP32 entry. -/
def BufWord.num (w : BufWord) : Num := Fmt.fp32.decode w.v

/-- Whether one of some entries is bad. -/
def anyBad (ws : List BufWord) : Bool := ws.any fun w => w.bad

/-! Formats (R215) -/

/-- Bits per element of a format code. -/
def buBits (fmt : Nat) : Nat := match fmt with | 2 => 16 | 3 => 4 | 5 => 32 | _ => 8

/-- Bytes of `n` elements. -/
def buSize (fmt n : Nat) : Nat := (n * buBits fmt + 7) / 8

/-- A float format of a code below 3, and FP32. -/
def buFmt (fmt : Nat) : Fmt := match fmt with | 0 => .e4m3 | 1 => .e5m2 | 2 => .bf16 | _ => .fp32

/-- An element as FP32 bits; codes decode through a slot whose descriptor matches the format, and through any other slot to a
value that the spec does not state. FP32 elements are taken as they are. -/
def buElem (u fmt : Nat) (book : List Byte) (v : Nat) : Nat :=
  if fmt = 5 then v
  else if fmt = 3 ∨ fmt = 4 then
    let d := leAt book 0x3F8 8
    let ef := d / 4 % 4
    let size := fmt - 3
    if d % 2 = 1 ∧ d / 2 % 2 = size ∧ (ef = 2 ∨ (ef < 2 ∧ size = 0)) then
      ((f32 ⟨true, true⟩ (cbEntry (buFmt ef) book v)).run Ev.zero).1
    else Config.openPick 64 u v % 2 ^ 32
  else ((f32 ⟨true, true⟩ ((buFmt fmt).decode v)).run Ev.zero).1

/-- Whether the entry of a code, or the slot's descriptor, came from a bad word. -/
def bookBad (fmt : Nat) (book : List (Byte × Bool)) (v : Nat) : Bool :=
  if fmt = 3 ∨ fmt = 4 then
    let w := if leAt (book.map fun b => b.1) 0x3F8 8 / 4 % 4 = 2 then 2 else 1
    (List.range w).any (fun j => (book.getD (v * w + j) (0, false)).2) || (book.getD 0x3F8 (0, false)).2
  else false

/-- The elements of a record's bytes. -/
def State.buElems (s : State) (u : Nat) (i : BuInstr) (n : Nat) (r : Resp) : List BufWord :=
  let book := s.buBookAt (u * 4 + i.cbk)
  let raw := book.map fun b => b.1
  (List.range n).map fun j =>
    let v := elemAt (buBits i.fmt) r.data j
    ⟨buElem u i.fmt raw v, elemBad (buBits i.fmt) r.bad j || bookBad i.fmt book v⟩

/-! Accesses by kind (R203, R215) -/

/-- R203: the device address of a local offset. -/
def buAddr (u l : Nat) : Nat := 0x18000000 * (u / 8) + (512 * (l / 64) + (64 * (u % 8) + l % 64))

/-- The granule parts of local offsets, each with its device address and length. -/
def buParts (u l n : Nat) : List (Nat × Nat) := (splitBy 64 (n / 64 + 2) l n).map fun p => (buAddr u p.1, p.2)

/-- A word of an access met as uncorrectable or poisoned: the command ends with ST_POISON (R231), and the first such access is kept
for BU_FAULT (`addr` 0 where the bad word lies in a buffer). -/
def buTaint (u addr : Nat) (b : Bool) : Eff := Eff.when b (.look fun s =>
  setRunning u fun x => { x with poisoned := true, badAt := some (x.badAt.getD (addr % 2 ^ 26, s.buPc u)) })

/-- The running command ends with the status of a refused access. -/
def buRefuse (u l st : Nat) : Eff := buEnd u st (l % 2 ^ 26) 5

/-- Read parts of the unit's own banks, granule by granule. -/
def buReadLocal : List (Nat × Nat) → Resp → (Resp → Eff) → Eff
  | [], r, k => k r
  | (a, n) :: rest, r, k => .look fun s =>
    if s.diagLocked a then k (onesResp ST_BUSY 0) else dramRead a n fun r' => buReadLocal rest (r.join r') k

/-- R203, R215, R231: read `n` bytes at an address of a kind. -/
def buRead (u : Fin 1024) (kind addr n : Nat) (k : Resp → Eff) : Eff :=
  let got := fun (r : Resp) => if r.status = ST_OK ∨ r.status = ST_POISON ∨ r.status = ST_UNCORRECTABLE then
      Eff.all [buTaint u addr (r.status != ST_OK), addSat (R.BU_RD_BYTES_count (buC u) (buP u)) n, k r]
    else buRefuse u addr r.status
  match kind with
  | 0 => buReadLocal (buParts u addr n) ⟨ST_OK, [], []⟩ got
  | 1 => .look fun s =>
    if s.cellRetired (buC u) then got (onesResp ST_UNIT_RETIRED n)
    else if 0x300000 < addr + n then got (onesResp ST_ADDR_UNMAPPED n)
    else sramRead (buC u) addr n (8, 0) got
  | _ => hintRead (.bankUnit u) .normal addr n got

/-- The bytes that an instruction kind adds to the result stream (R230). -/
def buSnoop (u : Nat) (bit : Nat) (bytes : List (Nat × Byte)) : Eff := .look fun s =>
  Eff.when (s.get (R.BU_CTRL_snoop_mask (buC u) (buP u)) / 2 ^ bit % 2 == 1) (snoop 4 0 u bytes)

/-- The landing notice of a write of kind 1 or 2 (R301). -/
def buLanded (u a n : Nat) : Eff := .look fun s =>
  match s.buRunning u with
  | some x => Eff.when (x.flags / 2 % 2 == 1) (sendLanding a x.tagPbx n)
  | none => .skip

/-- Write parts of the unit's own banks, granule by granule, through the controller's code generator (R229): a word written in part
that is poisoned or uncorrectable keeps its bits, and its status is kept (R186, R457). -/
def buWriteLocal (bs : List Byte) (bad : List Bool) : List (Nat × Nat) → Nat → Nat → (Nat → Eff) → Eff
  | [], _, st, k => k st
  | (a, n) :: rest, i, st, k => .look fun s =>
    if s.diagLocked a then k ST_BUSY
    else dramWrite a ((bs.drop i).take n) fun st' =>
      .seq (poisonBytes (st' == ST_OK) a ((bad.drop i).take n)) (buWriteLocal bs bad rest (i + n) (worst st st') k)

/-- Bytes with the device addresses of local parts. -/
def partBytes (bs : List Byte) : List (Nat × Nat) → Nat → List (Nat × Byte)
  | [], _ => []
  | (a, n) :: rest, i => at_ a ((bs.drop i).take n) ++ partBytes bs rest (i + n)

/-- R215, R229–R231: write bytes at an address of a kind, with the stream that an instruction kind selects. -/
def buWrite (u : Fin 1024) (kind addr : Nat) (bs : List Byte) (bad : List Bool) (bit : Nat) (k : Eff) : Eff :=
  let done := fun (st : Nat) (dev : List (Nat × Byte)) (a : Nat) => if st = ST_OK ∨ st = ST_POISON ∨ st = ST_UNCORRECTABLE then
      Eff.all [
        buTaint u addr (st != ST_OK || bad.any id),
        addSat (R.BU_WR_BYTES_count (buC u) (buP u)) bs.length,
        buSnoop u bit dev,
        Eff.when (kind != 0) (.seq (Eff.when (bad.any id && kind != 0) (poisonBytes (st == ST_OK) a bad)) (buLanded u a bs.length)),
        k]
    else buRefuse u addr st
  match kind with
  | 0 => buWriteLocal bs bad (buParts u addr bs.length) 0 ST_OK fun st => done st (partBytes bs (buParts u addr bs.length) 0) 0
  | 1 => .look fun s =>
    let a := sramAddr (buC u) addr
    if s.cellRetired (buC u) then done ST_UNIT_RETIRED [] a
    else if 0x300000 < addr + bs.length then done ST_ADDR_UNMAPPED [] a
    else sramWrite (buC u) addr bs (8, 0) fun st => done st (at_ a bs) a
  | _ => hintWrite (.bankUnit u) .normal addr bs fun st _ => done st (at_ addr bs) addr

/-- Accesses of kind 2: the unit waits, at a yield point (R224), while another pseudo-channel holds one. -/
def buGates (u : Fin 1024) (as : List (Nat × Nat)) (k : Eff) : Eff := .look fun s =>
  if s.gatesOpen (.bankUnit u) as then .all [Eff.when (s.bu u == BU_WAIT) (putBu u BU_RUN), k]
  else .all [gates (.bankUnit u) as .skip, putBu u BU_WAIT, yieldPoint u]

/-- R222: an instruction that uses the banks needs a slot of its stack in PROCESSOR mode. The activations that it makes, and the
bk that a wait for the slot takes, are not stated. -/
def buActive (u : Nat) (k : Eff) : Eff := .look fun s =>
  if s.buMode u && s.buSlotAt u != 1 then .all [
    .upd (.buSlot u 2), putBu u BU_WAIT, yieldPoint u,
    withFree fun w => addSat (R.BU_WAIT_BK_count (buC u) (buP u)) (w.toNat % 2 ^ 16)]
  else .all [withFree fun w => addSat (R.BU_ACTS_count (buC u) (buP u)) (w.toNat % 2 ^ 20), k]

/-- The slot that a kind of access needs: only local ones use the banks. -/
def buActiveIf (u : Nat) (b : Bool) (k : Eff) : Eff := if b then buActive u k else k

/-- R218: the running command ends with the status of a breach. -/
def buBreach (u l st : Nat) : Eff := buEnd u st (l % 2 ^ 26) 3

/-- Limits in order: (broken, status); the first broken one ends the command. -/
def buLimits (u l : Nat) : List (Bool × Nat) → Eff → Eff
  | [], k => k
  | (b, st) :: rest, k => if b then buBreach u l st else buLimits u l rest k

/-- The highest local offset. -/
def localTop : Nat := 0x3000000

/-- R218: the limits of a buffer transfer of `n` bytes at an address of a kind; one of kind 0 starts anywhere. -/
def bufLimits (kind addr n : Nat) : List (Bool × Nat) := [
  (kind == 0 && decide (localTop < addr + n), ST_BAD_ARG),
  (kind != 0 && addr % 16 != 0, ST_ALIGN)]

/-! Records (R217, R218) -/

/-- The addresses of the records: strided, or indexed by I, whose bad entries spoil their record. -/
def State.records (s : State) (u : Nat) (i : BuInstr) (cnt : Nat) : List (Nat × Bool) := (List.range cnt).map fun k =>
  let x := if i.aux % 2 = 1 then s.buf u BUF_I k else ⟨k, false⟩
  (((s.bug u i.a).toNat + x.v * (s.bug u i.b).toNat) % 2 ^ 64, x.bad)

/-- R218: the limits of records. -/
def recordLimits (i : BuInstr) (cnt most : Nat) (rs : List (Nat × Bool)) : List (Bool × Nat) :=
  let rb := buSize i.fmt i.n
  [ (i.n == 0 || decide (1024 < i.n), ST_BAD_ARG),
    (i.fmt == 3 && i.n % 2 == 1, ST_BAD_ARG),
    (cnt == 0 || decide (most < cnt), ST_BAD_ARG),
    (rs.any (fun r => decide (localTop < r.1 + rb)), ST_BAD_ARG),
    (rs.any (fun r => decide (1024 < r.1 % 1024 + rb)), ST_BAD_ARG),
    (rs.any (fun r => r.1 % 8 != 0), ST_ALIGN)]

/-- Read records one after the other; with y = 1 every record boundary is a yield point (R224). -/
def eachRecord (u : Fin 1024) (i : BuInstr) (f : Nat → Resp → Eff → Eff) : List (Nat × Bool) → Nat → Eff → Eff
  | [], _, k => k
  | (l, spoilt) :: rest, j, k =>
    buRead u 0 l (buSize i.fmt i.n) fun r =>
      f j (if spoilt then { r with bad := r.bad.map fun _ => true } else r) (.all [
        put (R.BU_PROGRESS_record (buC u) (buP u)) ((j + 1) % 2048),
        Eff.when i.y (yieldPoint u),
        eachRecord u i f rest (j + 1) k])

/-- G[c]. -/
def State.buCnt (s : State) (u : Nat) (i : BuInstr) : Nat := (s.bug u i.c).toNat

/-! Loads of the buffers -/

/-- A buffer transfer into the unit. -/
def buLoad (u : Fin 1024) (i : BuInstr) (n : Nat) (limits : List (Bool × Nat)) (k : Resp → Eff) : Eff := .look fun s =>
  let a := (s.bug u i.a).toNat
  buLimits u a (limits ++ bufLimits i.sub a n) (buActiveIf u (i.sub == 0)
    (buGates u (if i.sub = 2 then [(a, n)] else []) (buRead u i.sub a n fun r => .all [
      k r, ungate (.bankUnit u), Eff.when (i.y || i.sub == 2) (yieldPoint u), buNext u])))

/-- LDQ. -/
def buLdq (u : Fin 1024) (i : BuInstr) : Eff :=
  buLoad u i (buSize i.fmt i.n) [(i.n == 0 || decide (1024 < i.n), ST_BAD_ARG), (i.fmt == 3 && i.n % 2 == 1, ST_BAD_ARG)]
    fun r => .look fun s => putBuf u BUF_Q (s.buElems u i i.n r)

def execBuLdq (u : Fin 1024) (fetch : Fin 3) (s : State) : Host.Outcome State Fault Refusal :=
  (buStep u 0x10 fetch fun i => buLdq u i).done s

/-- LDI and LDS: cnt 32-bit values. -/
def buLoad32 (u : Fin 1024) (i : BuInstr) (buf : Nat) : Eff := .look fun s =>
  let cnt := s.buCnt u i
  buLoad u i (cnt * 4) [(cnt == 0 || decide (1024 < cnt), ST_BAD_ARG)] fun r =>
    putBuf u buf ((List.range cnt).map fun j => ⟨leAt r.data (4 * j) 4, elemBad 32 r.bad j⟩)

def execBuLdi (u : Fin 1024) (fetch : Fin 3) (s : State) : Host.Outcome State Fault Refusal :=
  (buStep u 0x11 fetch fun i => buLoad32 u i BUF_I).done s

def execBuLds (u : Fin 1024) (fetch : Fin 3) (s : State) : Host.Outcome State Fault Refusal :=
  (buStep u 0x12 fetch fun i => buLoad32 u i BUF_S).done s

/-- LCB. -/
def execBuLcb (u : Fin 1024) (fetch : Fin 3) (s : State) : Host.Outcome State Fault Refusal :=
  (buStep u 0x13 fetch fun i => buLoad u i 1024 [] fun r => .upd (.buBook (u * 4 + i.cbk) (r.data.zip r.bad))).done s

/-- CLR. -/
def buClr (u : Nat) (i : BuInstr) : Eff := .look fun s =>
  let n := if i.aux = 2 then s.buCnt u i else i.n
  buLimits u 0 [(n == 0 || decide (1024 < n), ST_BAD_ARG)] (.all [
    putBuf u (if i.aux = 2 then BUF_S else BUF_VA) (List.replicate (min n 1024) ⟨if i.aux = 1 then 0xFF800000 else 0, false⟩), buNext u])

def execBuClr (u : Fin 1024) (fetch : Fin 3) (s : State) : Host.Outcome State Fault Refusal :=
  (buStep u 0x14 fetch fun i => buClr u i).done s

/-! Arithmetic (R219) -/

/-- One fused multiply-add rounded at a site. -/
def buFma (md : RMode) (acc a b : Num) : Calc Num := do
  let p ← a.mul b
  let x ← p.add acc
  Fmt.fp32.round md x

/-- A sum rounded at a site. -/
def buAdd (md : RMode) (a b : Num) : Calc Num := do
  let x ← a.add b
  Fmt.fp32.round md x

/-- A product rounded at a site. -/
def buMul (md : RMode) (a b : Num) : Calc Num := do
  let x ← a.mul b
  Fmt.fp32.round md x

/-- exp of FP32 (R92). -/
def buExp (md : RMode) (a : Num) : Calc Num := do
  let b ← f32 md a
  let r ← fnExp md b
  pure (Fmt.fp32.decode r)

/-- One level of the tree: lane 2j with lane 2j + 1. -/
def buLevel (md : RMode) : List Num → Calc (List Num)
  | a :: b :: rest => do
    let x ← buAdd md a b
    let xs ← buLevel md rest
    pure (x :: xs)
  | xs => pure xs

/-- The binary tree over 256 lane results. -/
def buTree (md : RMode) : Nat → List Num → Calc Num
  | 0, xs => pure (xs.getD 0 .zero)
  | k + 1, xs => do
    let ys ← buLevel md xs
    buTree md k ys

/-- Lane `i` of 256 of a list. -/
def lane256 {α : Type} (xs : List α) (i : Nat) (d : α) : List α :=
  (List.range ((xs.length + 255 - i) / 256)).map fun j => xs.getD (i + 256 * j) d

/-- ROW_DOT: lanes of fused multiply-adds from +0, then the tree. -/
def buDot (md : RMode) (ps : List (Num × Num)) : Calc Num := do
  let lanes ← (List.range 256).mapM fun i => (lane256 ps i (.zero, .zero)).foldlM (fun acc p => buFma md acc p.1 p.2) Num.zero
  buTree md 8 lanes

/-- A sum in the lane and tree order of ROW_DOT. -/
def buSum (md : RMode) (xs : List Num) : Calc Num := do
  let lanes ← (List.range 256).mapM fun i => (lane256 xs i .zero).foldlM (fun acc x => buAdd md acc x) Num.zero
  buTree md 8 lanes

/-- A value kept as FP32 bits. -/
def bits32 (a : Num) : Nat := ((f32 ⟨true, true⟩ a).run Ev.zero).1

/-- A result entry. -/
def bufOf (a : Num) (bad : Bool) : BufWord := ⟨bits32 a, bad⟩

/-! Operations -/

/-- An operation over records of the unit's banks. -/
def buOverRecords (u : Fin 1024) (i : BuInstr) (most : Nat) (f : Nat → Resp → Eff → Eff) : Eff := .look fun s =>
  let cnt := s.buCnt u i
  let rs := if cnt ≤ most then s.records u i cnt else []
  let l := match rs.find? (fun r => decide (localTop < r.1 + buSize i.fmt i.n) || decide (1024 < r.1 % 1024 + buSize i.fmt i.n) || r.1 % 8 != 0) with
    | some r => r.1
    | none => 0
  buLimits u l (recordLimits i cnt most rs) (buActive u (eachRecord u i f rs 0 (.seq (ungate (.bankUnit u)) (buNext u))))

/-- ROW_DOT. -/
def buRowDot (u : Fin 1024) (i : BuInstr) : Eff := buOverRecords u i 1024 fun j r k => .look fun s =>
  let xs := s.buElems u i i.n r
  let qs := s.bufList u BUF_Q i.n
  let bad := anyBad xs || anyBad qs
  runCalc (buC u) (buDot (s.buAcc (buC u)) ((qs.map fun q => q.num).zip (xs.map fun x => x.num))) fun v => .all [
    .upd (.buBuf (bufKey u BUF_S j) (bufOf v bad)), buTaint u 0 bad, k]

def execBuRowDot (u : Fin 1024) (fetch : Fin 3) (s : State) : Host.Outcome State Fault Refusal :=
  (buStep u 0x22 fetch fun i => buRowDot u i).done s

/-- One element of GATHER_REDUCE. -/
def buReduce (md : RMode) (sub : Nat) (va x sk : Num) : Calc Num :=
  match sub with
  | 0 => buAdd md va x
  | 1 => buFma md va sk x
  | _ => if va.isNan || x.isNan then pure .nan else pickMax true va x

/-- GATHER_REDUCE. -/
def buGatherReduce (u : Fin 1024) (i : BuInstr) : Eff := buOverRecords u i 1024 fun j r k => .look fun s =>
  let xs := s.buElems u i i.n r
  let va := s.bufList u BUF_VA i.n
  let sk := s.buf u BUF_S j
  let skBad := i.sub == 1 && sk.bad
  runCalc (buC u) ((va.zip xs).mapM fun p => buReduce (s.buAcc (buC u)) i.sub p.1.num p.2.num sk.num) fun vs => .all [
    putBuf u BUF_VA ((vs.zip (va.zip xs)).map fun p => bufOf p.1 (p.2.1.bad || p.2.2.bad || skBad)),
    buTaint u 0 (anyBad va || anyBad xs || skBad),
    k]

def execBuGatherReduce (u : Fin 1024) (fetch : Fin 3) (s : State) : Host.Outcome State Fault Refusal :=
  (buStep u 0x21 fetch fun i => buGatherReduce u i).done s

/-- GATHER: record k is copied unchanged to G[d] + k × record bytes of kind sub. -/
def buGather (u : Fin 1024) (i : BuInstr) : Eff := .look fun s =>
  let rb := buSize i.fmt i.n
  let cnt := s.buCnt u i
  let d := (s.bug u i.d).toNat
  let most := if i.aux % 2 = 1 then 1024 else 65536
  let gate := if i.sub = 2 ∧ cnt ≤ most then (List.range cnt).map fun j => (d + j * rb, rb) else []
  buLimits u d (if cnt ≤ most then bufLimits i.sub d (cnt * rb) else []) (buGates u gate (
    buOverRecords u i most fun j r k =>
      buWrite u i.sub (d + j * rb) r.data r.bad 1 (.seq (Eff.when (i.sub == 2) (yieldPoint u)) k)))

def execBuGather (u : Fin 1024) (fetch : Fin 3) (s : State) : Host.Outcome State Fault Refusal :=
  (buStep u 0x20 fetch fun i => buGather u i).done s

/-- m and l of SCAN_STATS (R213). -/
def State.buM (s : State) (u : Nat) : Num := Fmt.fp32.decode ((s.bug u 46).toNat % 2 ^ 32)
def State.buL (s : State) (u : Nat) : Num := Fmt.fp32.decode ((s.bug u 47).toNat % 2 ^ 32)

/-- Write the low half of a register. -/
def putLow (u g : Nat) (v : Num) : Eff := .look fun s => putBug u g (BitVec.ofNat 64 ((s.bug u g).toNat / 2 ^ 32 * 2 ^ 32 + bits32 v))

/-- The results of SCAN_STATS: m, l, the new S, and the new VA. -/
def buScanCalc (md : RMode) (sub : Nat) (m l : Num) (ss va : List Num) : Calc (Num × Num × List Num × List Num) := do
  let top ← vecMaxOf (if sub = 1 then m :: ss else ss)
  if top == .inf true then pure (top, if sub = 1 then l else .zero, ss.map fun _ => Num.zero, va)
  else
    let es ← ss.mapM fun x => do
      let d ← buAdd md x top.neg
      buExp md d
    let total ← buSum md es
    if sub = 0 then pure (top, total, es, va)
    else
      let d ← buAdd md m top.neg
      let f ← buExp md d
      let l1 ← buMul md l f
      let va' ← va.mapM fun x => buMul md x f
      let l2 ← buAdd md l1 total
      pure (top, l2, es, va')

/-- SCAN_STATS. -/
def buScan (u : Fin 1024) (i : BuInstr) : Eff := .look fun s =>
  let cnt := s.buCnt u i
  buLimits u 0 [(cnt == 0 || decide (1024 < cnt), ST_BAD_ARG), (i.sub == 1 && (i.n == 0 || decide (1024 < i.n)), ST_BAD_ARG)] (
    let ss := s.bufList u BUF_S (min cnt 1024)
    let va := s.bufList u BUF_VA (if i.sub = 1 then i.n else 0)
    let bad := anyBad ss
    runCalc (buC u) (buScanCalc (s.buAcc (buC u)) i.sub (s.buM u) (s.buL u) (ss.map fun w => w.num) (va.map fun w => w.num)) fun v =>
      .all [
        putLow u 46 v.1, putLow u 47 v.2.1,
        putBuf u BUF_S (v.2.2.1.map fun x => bufOf x bad),
        Eff.when (i.sub == 1) (putBuf u BUF_VA ((v.2.2.2.zip va).map fun p => bufOf p.1 (bad || p.2.bad))),
        buTaint u 0 (bad || anyBad va),
        buNext u])

def execBuScanStats (u : Fin 1024) (fetch : Fin 3) (s : State) : Host.Outcome State Fault Refusal :=
  (buStep u 0x23 fetch fun i => buScan u i).done s

/-- STR: VA converted, the partial record of R167, or S. -/
def buStrBytes (out : RMode) (i : BuInstr) (m l : Num) (ws : List BufWord) : Calc (List Byte × List Bool) := do
  let w := buBits i.fmt / 8
  let body ← ws.mapM fun x =>
    if i.aux = 1 then
      (if l.isZero then pure (toLE 4 0) else do
        let q ← x.num.div l
        let r ← f32 out q
        pure (toLE 4 r))
    else if i.fmt ≠ 5 then do
      let r ← (buFmt i.fmt).encode out x.num
      pure (toLE w r)
    else pure (toLE 4 x.v)
  let bad := ws.flatMap fun x => List.replicate w x.bad
  if i.aux = 1 then
    let head := if l.isZero then toLE 4 0xFF800000 ++ toLE 4 0 else toLE 4 (bits32 m) ++ toLE 4 (bits32 l)
    pure (head ++ toLE 8 0 ++ body.flatten, List.replicate 16 false ++ (if l.isZero then bad.map fun _ => false else bad))
  else pure (body.flatten, bad)

/-- STR. -/
def buStr (u : Fin 1024) (i : BuInstr) : Eff := .look fun s =>
  let d := (s.bug u i.d).toNat
  let n := if i.aux = 2 then s.buCnt u i else i.n
  let len := (if i.aux = 1 then 16 else 0) + n * buBits i.fmt / 8
  buLimits u d ((n == 0 || decide (1024 < n), ST_BAD_ARG) :: bufLimits i.sub d len) (buActiveIf u (i.sub == 0)
    (buGates u (if i.sub = 2 then [(d, len)] else []) (
      runCalc (buC u) (buStrBytes (s.buOut (buC u)) i (s.buM u) (s.buL u) (s.bufList u (if i.aux = 2 then BUF_S else BUF_VA) (min n 1024))) fun v =>
        buWrite u i.sub d v.1 v.2 0 (.all [ungate (.bankUnit u), Eff.when (i.y || i.sub == 2) (yieldPoint u), buNext u]))))

def execBuStr (u : Fin 1024) (fetch : Fin 3) (s : State) : Host.Outcome State Fault Refusal :=
  (buStep u 0x15 fetch fun i => buStr u i).done s

/-! COPY, FILL and CHECK, as instructions and as service commands (R212, R217) -/

/-- R218: the limits of COPY, FILL and CHECK: multiples of 64 bytes at multiples of 64. -/
def blockLimits (l cnt : Nat) : List (Bool × Nat) := [
  (cnt % 64 != 0 || l % 64 != 0, ST_BAD_ARG), (decide (localTop < l + cnt), ST_BAD_ARG)]

/-- Copy granule by granule. `step` is the distance of the destination granules. -/
def buCopyLoop (u : Fin 1024) (kind : Nat) (y : Bool) (step : Nat) : Nat → Nat → Nat → Nat → Eff → Eff
  | 0, _, _, _, k => k
  | n + 1, l, dst, done, k => buRead u 0 l 64 fun r => buWrite u kind dst r.data r.bad 2 (.all [
      put (R.BU_PROGRESS_bytes_done (buC u) (buP u)) ((done + 64) % 2 ^ 26),
      Eff.when (y || kind == 2) (yieldPoint u),
      buCopyLoop u kind y step n (l + 64) (dst + step) (done + 64) k])

/-- COPY: cnt bytes from local `l` to `dst` of a kind. -/
def buCopy (u : Fin 1024) (kind l dst cnt step : Nat) (y : Bool) (k : Eff) : Eff :=
  buLimits u l (blockLimits l cnt ++ [
      (dst % 64 != 0, ST_BAD_ARG), (kind == 0 && decide (localTop < dst + cnt), ST_BAD_ARG)])
    (buActive u (buGates u (if kind = 2 then (List.range (min cnt localTop / 64)).map fun i => (dst + i * step, 64) else [])
      (buCopyLoop u kind y step (cnt / 64) l dst 0 (.seq (ungate (.bankUnit u)) k))))

def execBuCopy (u : Fin 1024) (fetch : Fin 3) (s : State) : Host.Outcome State Fault Refusal :=
  (buStep u 0x24 fetch fun i => .look fun s =>
    buCopy u i.sub (s.bug u i.a).toNat (s.bug u i.b).toNat (s.buCnt u i) 64 i.y (buNext u)).done s

/-- Fill granule by granule. -/
def buFillLoop (u : Fin 1024) (pattern : Nat) (y : Bool) : Nat → Nat → Nat → Eff → Eff
  | 0, _, _, k => k
  | n + 1, l, done, k =>
    buWrite u 0 l ((List.range 64).map fun j => BitVec.ofNat 8 (pattern / 2 ^ (8 * (j % 8)))) (List.replicate 64 false) 3 (.all [
      put (R.BU_PROGRESS_bytes_done (buC u) (buP u)) ((done + 64) % 2 ^ 26),
      Eff.when y (yieldPoint u),
      buFillLoop u pattern y n (l + 64) (done + 64) k])

/-- FILL. -/
def buFill (u : Fin 1024) (l pattern cnt : Nat) (y : Bool) (k : Eff) : Eff :=
  buLimits u l (blockLimits l cnt) (buActive u (buFillLoop u pattern y (cnt / 64) l 0 k))

def execBuFill (u : Fin 1024) (fetch : Fin 3) (s : State) : Host.Outcome State Fault Refusal :=
  (buStep u 0x25 fetch fun i => .look fun s =>
    buFill u (s.bug u i.a).toNat (s.bug u i.b).toNat (s.buCnt u i) i.y (buNext u)).done s

/-- A count in 16 bits; what a larger one reads as is not stated. -/
def count16 (n : Nat) (k : Nat → Eff) : Eff := if n < 2 ^ 16 then k n else withFree fun w => k (w.toNat % 2 ^ 16)

/-- Check granule by granule. -/
def buCheckLoop (u : Fin 1024) (wb y : Bool) : Nat → Nat → Nat → ScrubSum → (ScrubSum → Eff) → Eff
  | 0, _, _, r, k => k r
  | n + 1, l, done, r, k => .look fun s =>
    if s.diagLocked (buAddr u l) then buRefuse u l ST_BUSY
    else scrubWords wb ((List.range 8).map fun j => buAddr u l + 8 * j) r fun r => .all [
      addSat (R.BU_RD_BYTES_count (buC u) (buP u)) 64,
      put (R.BU_PROGRESS_bytes_done (buC u) (buP u)) ((done + 64) % 2 ^ 26),
      Eff.when y (yieldPoint u),
      buCheckLoop u wb y n (l + 64) (done + 64) r k]

/-- CHECK: the counts go to G[d]. -/
def buCheck (u : Fin 1024) (d l cnt : Nat) (wb y : Bool) (k : Eff) : Eff :=
  buLimits u l (blockLimits l cnt) (buActive u (buCheckLoop u wb y (cnt / 64) l 0 ScrubSum.none fun r =>
    count16 r.single fun a => count16 r.double fun b => count16 r.bad fun c =>
      .seq (putBug u d (BitVec.ofNat 64 (a + b * 2 ^ 16 + c * 2 ^ 32))) k))

def execBuCheck (u : Fin 1024) (fetch : Fin 3) (s : State) : Host.Outcome State Fault Refusal :=
  (buStep u 0x26 fetch fun i => .look fun s =>
    buCheck u i.d (s.bug u i.a).toNat (s.buCnt u i) (i.sub == 1) i.y (buNext u)).done s

/-- A running service command of an operation: its sub field and arguments; a sub that the operation does not define is a
breach of R218. -/
def buSvc (u : Nat) (op subs : Nat) (k : BuCmd → Nat → Eff) : Eff := .look fun s =>
  match s.buRunning u with
  | none => .skip
  | some x =>
    let sub := x.svcCtl / 8 % 4
    if !x.svc || x.svcCtl % 8 ≠ op then .skip
    else if subs ≤ sub then buBreach u 0 ST_BAD_ARG
    else k x sub

/-- An argument of a command. -/
def BuCmd.arg (x : BuCmd) (i : Nat) : Nat := x.args.getD i 0

/-- BU_SVC_COPY. A copy of a KVT goes from page to page: its granules lie 512 bytes apart in a vault (R203, R252). -/
def execBuSvcCopy (u : Fin 1024) (s : State) : Host.Outcome State Fault Refusal :=
  (buSvc u 0 3 fun x sub => buCopy u sub (x.arg 0) (x.arg 1) (x.arg 2)
    (if x.kvt.isSome ∧ sub = 2 ∧ x.arg 1 < 0x0C00000000 then 512 else 64) false (buFinish u)).done s

/-- BU_SVC_FILL. -/
def execBuSvcFill (u : Fin 1024) (s : State) : Host.Outcome State Fault Refusal :=
  (buSvc u 1 4 fun x _ => buFill u (x.arg 0) (x.arg 1) (x.arg 2) false (buFinish u)).done s

/-- BU_SVC_CHECK: the counts go to G4. -/
def execBuSvcCheck (u : Fin 1024) (s : State) : Host.Outcome State Fault Refusal :=
  (buSvc u 2 2 fun x sub => buCheck u 4 (x.arg 0) (x.arg 2) (sub == 1) false (buFinish u)).done s

end Sys2Proof.Machine
end

