-- ==== Sys2Proof/Machine/Power.lean ====
section
/-! DEFINITION. The power states: STANDBY and its exit (19_power_thermal.md R475–R481), and the enforcement level of the
throttle (R491, R498). -/

namespace Sys2Proof.Machine

/-! The enforcement level (R491) -/

/-- BU_DUTY.duty of a level. -/
def levelDuty : Nat → Nat
  | 0 => 16 | 1 => 12 | 2 => 8 | _ => 4

/-- Enforce a level. -/
def levelPut (n : Nat) : Eff := .look fun s =>
  let old := s.get R.PWR_THROTTLE_level
  Eff.when (n != old) (.all [
    put R.PWR_THROTTLE_level n,
    Eff.each (List.range 1024) fun u => put (R.BU_DUTY_duty (u / 8) (u % 8)) (levelDuty n),
    .upd (.gov { s.gov with levelAt := s.now }),
    Eff.when (old == 0) (addSat R.PWR_COUNTS_enforcements 1),
    Eff.when (decide (old < n)) (addSat R.PWR_COUNTS_escalations 1)])

/-- The throttle request ends, with its causes. -/
def requestEnd : Eff := .look fun s => .all [
  putBit R.PWR_THROTTLE_request false, put R.PWR_THROTTLE_causes 0, putBit R.PWR_THROTTLE_grace false,
  put R.PWR_THROTTLE_grace_left_ms 0, put R.PWR_LIMIT_target_w 0,
  .upd (.gov { s.gov with graceEnd := none }),
  evLevel 0x711 false]

/-! Entry to STANDBY (R477) -/

/-- The conditions of R477. -/
def State.standbyOk (s : State) : Bool :=
  (s.get R.TIDE_STATUS_state == 0 || s.get R.TIDE_STATUS_state == 2) && s.get R.CHT_STATUS_state != CHT_ARMED &&
  !(s.cmds.any fun x => x.op == 0x31 && x.phase != 2) && decide (s.get R.PWR_STATE_state < 2) && !s.bit R.PWR_STATE_pending

/-- A POWER_STATE command ends. -/
def powerStateEnd (x : HCmd) (st : Nat) : Eff := .seq (put R.PWR_STATE_last_status st) (hcFinish x.id st 0)

/-- R268, R479: the KVT ends every operation, returns staged copies and the targets of moves, and drops its migrations. -/
def kvStandby (c : Fin 128) : Eff :=
  let bad := fun a st => kvFault c none a st
  .look fun s => .all [
    Eff.each (s.kvtQAt c) fun x => kvComplete c x ST_ABORTED,
    Eff.each (s.kvtStagedAt c) fun y => pageDrop c y.entry bad .skip,
    Eff.each (s.kvtMovesAt c) fun m => pageDrop c m.new bad .skip,
    .upd (.kvtStaged c []), .upd (.kvtMoves c []), .upd (.kvtMigQ c []),
    kvShow c]

/-- R314: every postbox of a cell is cleared. -/
def pbxClearAll (c : Nat) : Eff := .upd (.regsDrop fun k => decide (k / 0x10000 = c * 16 + 7 ∧ k % 0x10000 < 0x600))

/-- Steps 1 and 2 of the entry: the ports refuse what R480 lists, and remaining work ends. -/
def standbyBegin : Eff := .all [
  putBit R.PWR_STATE_pending true,
  Eff.each (List.range 1024) fun q => qeEndAll (q / 8) (q % 8) ST_ABORTED,
  Eff.each (List.range 1024) fun u => .seq (buEndAll u ST_ABORTED 6) (memoryModeNow u),
  Eff.each (List.finRange 128) kvStandby,
  Eff.each (List.range 128) pbxClearAll]

/-- POWER_STATE_STANDBY: POWER_STATE with a value other than 0. -/
def powerStandby (n : Nat) : Eff := .look fun s =>
  match s.cmds[n]? with
  | none => .skip
  | some y => Eff.when (y.arg 8 1 != 0) (hostStart n 0x71 fun x => .look fun s =>
      if x.arg 8 1 ≠ 2 then powerStateEnd x ST_BAD_ARG
      else if !s.standbyOk then powerStateEnd x ST_BUSY
      else .seq standbyBegin (hcRun x.id))

def execPowerStateStandby (n : Fin 2048) (s : State) : Host.Outcome State Fault Refusal := (powerStandby n).done s

/-- The shared cache writes back its dirty lines and powers off (R283). -/
def cacheOff : Eff := .look fun s => .seq
  (Eff.each (s.cache.flatMap fun e => e.2) fun l => Eff.when l.dirty (writeBack l)) (.upd (.cacheDrop fun _ => true))

/-- The compute dies power off: nothing under way survives, and the level sources of the cells fall (R443). -/
def diesDown : Eff := .all [
  Eff.each (List.range 8) dieWorkLost,
  .upd (.segQ []), .upd (.creditQ []), .upd (.icacheDrop fun _ => true),
  Eff.each (List.range 128) fun c => .all [evLevel (c * 8) false, evLevel (c * 8 + 1) false, evLevel (c * 8 + 4) false]]

/-- The POWER_STATE commands that wait end. -/
def powerStateDone (st : Nat) : Eff := .look fun s =>
  Eff.each (s.cmds.filter fun x => x.op == 0x71 && x.phase == 1) fun x => powerStateEnd x st

/-- STANDBY_ENTRY_COMPLETE: steps 3 to 5 of the entry. -/
def standbyEntryComplete : Eff := .look fun s =>
  Eff.when (s.bit R.PWR_STATE_pending && decide (s.get R.PWR_STATE_state < 2)) (.all [
    cacheOff,
    levelPut 0, requestEnd,
    diesDown,
    put R.PWR_STATE_state 2, putBit R.PWR_STATE_pending false, addWrap R.PWR_STATE_standby_entries 1,
    Eff.each (List.range 8) fun d => putBit (R.DL_DIE_ID_standby d) true,
    powerStateDone ST_OK])

def execStandbyEntryComplete (s : State) : Host.Outcome State Fault Refusal := standbyEntryComplete.done s

/-! Exit from STANDBY (R478, R479) -/

/-- Start the exit, with its wake cause: 0 = command, 1 = watcher, 2 = management port. -/
def standbyWake (cause : Nat) : Eff := .look fun s => Eff.when (s.standby && !s.bit R.PWR_STATE_pending) (
  .all [putBit R.PWR_STATE_pending true, put R.PWR_STATE_wake_cause cause, .upd (.gov { s.gov with banded := false }),
    Eff.each (List.range 128) fun c => putReg (R.VLT_BAND c) (regReset (R.VLT_BAND c))])

/-- POWER_STATE_RUN: POWER_STATE with value 0. -/
def powerRun (n : Nat) : Eff := .look fun s =>
  match s.cmds[n]? with
  | none => .skip
  | some y => Eff.when (y.arg 8 1 == 0) (hostStart n 0x71 fun x => .look fun s =>
      if s.standby then .seq (standbyWake 0) (hcRun x.id) else powerStateEnd x ST_OK)

def execPowerStateRun (n : Fin 2048) (s : State) : Host.Outcome State Fault Refusal := (powerRun n).done s

/-- The bits of a DIE register that R479 restores, and those that the same sources give again (R197, R394). -/
def standbyMask (c : Cls) (off : Nat) : Nat :=
  match c with
  | .kvt => if off = 0 then 1 else if off = 0x18 ∨ off = 0x20 ∨ (0x800 ≤ off ∧ off < 0xA00) then 2 ^ 64 - 1 else if off = 0x28 then 0x7FF else 0
  | .vlt => if off = 0 ∨ off = 0x10 ∨ off = 0x18 ∨ off = 0x218 ∨ 0x1000 ≤ off then 2 ^ 64 - 1 else if off = 0x210 then 0xFC else 0
  | .bu => if off % 0x1000 = 0 then 0x3C else 0
  | .feed => if off = 0 then 5 else if off = 0x100 then 2 ^ 64 - 1 else 0
  | .dl => if off = 8 then 0xFF0000000F else if off < 0x38 then 2 ^ 64 - 1 else 0
  | .dlDie => if off = 0 then 0xFFFF else 2 ^ 64 - 1
  | _ => 0

/-- A register of the DIE domain, the staging headers of its pages included. -/
def dieKey (key : Nat) : Bool :=
  match specAt key with
  | some (_, _, r) => r.dom == .die
  | none => decide (key / 0x10000 < 0x840)

/-- What a register holds after the exit: the DIE domain is reset and the restored bits are written back. -/
def standbyValue (key : Nat) (v : Word) : Word :=
  match specAt key with
  | some (c, _, r) =>
    if r.dom = .die then
      let keep := BitVec.ofNat 64 (standbyMask c (key % 0x10000))
      (v &&& keep) ||| (regReset key &&& ~~~keep)
    else v
  | none => if key / 0x10000 < 0x840 then 0 else v

/-- The compute dies power up: their registers reset, their SRAM cleared, the settings of R479 restored. -/
def diesUp : Eff := .look fun s => .all [
  Eff.each s.regs fun e => putReg e.1 (standbyValue e.1 e.2),
  .upd (.shadowsDrop dieKey),
  Eff.each (List.range 8) dieClear,
  .upd (.thrStepDrop fun _ => true), .upd (.waitSinceDrop fun _ => true), .upd (.buRoundDrop fun _ => true),
  .upd (.relSeenDrop fun _ => true), .upd (.routeSlotDrop fun _ => true), .upd (.stallSinceDrop fun _ => true),
  .upd (.buSlotDrop fun _ => true), .upd (.yieldAtDrop fun _ => true)]

/-- R394: each module in use retrains; one that the list does not name shows no error. -/
def standbyRetrain (tests : List DlTest) (i : Fin 48) : Eff := .look fun s =>
  let t := (tests.find? fun t => t.module == i).getD ⟨i, 0, 0, 0⟩
  Eff.when (s.dlUp i) (dlRetrainEnd i (s.dl i * 2 + s.get (R.DL_STATUS_half (i / 6) (i % 6))) t.tx t.rx t.us.toNat)

/-- STANDBY_EXIT_COMPLETE: the exit ends once a housekeeping round since the wake has given the vaults their bands (R193). -/
def standbyExitComplete (tests : List DlTest) : Eff := .look fun s =>
  Eff.when (s.standby && s.bit R.PWR_STATE_pending && s.gov.banded) (.all [
    diesUp,
    Eff.each (List.range 8) fun d => putBit (R.DL_DIE_ID_standby d) false,
    Eff.each (List.finRange 48) (standbyRetrain tests),
    .look fun s => Eff.each (List.range 8) fun d => Eff.when (!s.dieLost d) (hashSet d (s.hashPlan d (s.hashMap d))),
    .upd (.restage (!s.chartLive.isEmpty)),
    put R.PWR_STATE_state 0, putBit R.PWR_STATE_pending false,
    evcStandbyExit,
    powerStateDone ST_OK])

def execStandbyExitComplete (tests : List DlTest) (s : State) : Host.Outcome State Fault Refusal :=
  (standbyExitComplete tests).done s

end Sys2Proof.Machine
end

