-- ==== Sys2Proof/Machine/Mgmt.lean ====
section
/-! DEFINITION. The management port (20_module.md R508–R512). A reply is the list of its fields. -/

namespace Sys2Proof.Machine

/-- R508: the port works from the end of S0 onward. -/
def State.mgmtUp (s : State) : Bool := s.power == .on || s.power == .s0Failed

/-- The management port serves a request. -/
def mgmtServe (k : Eff) : Eff := .look fun s => Eff.when s.mgmtUp k

/-- Reply with fields. -/
def mgmtAnswer (fields : List Nat) : Eff := send (.mgmtReply fields)

/-- Bytes as fields. -/
def fieldsOf (bs : List Byte) : List Nat := bs.map fun b => b.toNat

/-! Events (R510) -/

/-- MGMT_EVENT_RETRY: 1 s without an acknowledgement of the n-th message. -/
def mgmtRetry (n : Nat) : Eff := .look fun s =>
  match s.mgmtQ[n]? with
  | none => .skip
  | some m => .seq (reachTime m.due) (
      if m.resent < 3 then .look fun t => .seq
        (.upd (.mgmtQ (t.mgmtQ.set n { m with resent := m.resent + 1, due := t.now + 1000000000 }))) (send (.mgmtEvent m.source m.edge))
      else .seq (.upd (.mgmtQ (s.mgmtQ.eraseIdx n))) (.upd (.mgmtDropped (s.mgmtDropped + 1))))

def execMgmtEventRetry (n : Nat) (s : State) : Host.Outcome State Fault Refusal := (mgmtRetry n).done s

/-! Sensors (R509) -/

/-- A temperature reading of a channel in 1/16 °C as a 16-bit pattern; `none` when it is missing. -/
def State.chanHalf (s : State) (ch half : Nat) : Option Nat :=
  let missing := if half = 0 then s.bit (R.THM_CHAN_lo_missing ch) else s.bit (R.THM_CHAN_hi_missing ch)
  if missing then none else some (if half = 0 then s.get (R.THM_CHAN_lo ch) else s.get (R.THM_CHAN_hi ch))

/-- A 16-bit pattern in 1/16 °C as a number of °C, rounded down, as a 16-bit pattern. -/
def degrees (n : Nat) : Nat := ((((n : Int) - if n < 2 ^ 15 then 0 else 2 ^ 16) / 16) % 2 ^ 16).toNat

/-- The higher of two temperatures as 16-bit patterns. -/
def hotter (a b : Nat) : Nat := if (a + 2 ^ 15) % 2 ^ 16 < (b + 2 ^ 15) % 2 ^ 16 then b else a

/-- The reading of channel `ch` in the form of the monitor codes. -/
def State.chanSensor (s : State) (ch : Nat) : Option Nat :=
  if ch = 209 ∨ 242 ≤ ch then none
  else if 218 ≤ ch then (s.chanHalf ch 1).map fun n => n * 10
  else match s.chanHalf ch 0, s.chanHalf ch 1 with
    | some a, some b => some (hotter a b)
    | some a, none => some a
    | none, b => b

/-- R509: a sensor of the repository: none = no such sensor; some none = unavailable. -/
def State.sensor (s : State) (id : Nat) : Option (Option Nat) :=
  if id = 0x0001 then some (some (degrees (s.get R.THM_STATUS_t_max)))
  else if id = 0x0002 then some (some (s.get R.PWR_INPUT_p_in))
  else if id = 0x0003 then some ((s.chanHalf 208 0).map degrees)
  else if id = 0x0004 then some ((s.chanHalf 208 1).map degrees)
  else if id = 0x0005 then some (some (s.get R.THM_COOL_flow_ml))
  else if 0x1000 ≤ id ∧ id < 0x1100 then some (s.chanSensor (id - 0x1000))
  else if id = 0x2001 then some (some s.powerState)
  else if id = 0x2002 then some (some (s.get R.PWR_THROTTLE_level))
  else if id = 0x2003 then some (some (s.get R.THM_STATUS_cooling_degraded))
  else if id = 0x2004 then some (some (if s.get R.SVC_REPLACE_flags = 0 then 0 else 1))
  else if id = 0x2005 then some (some (s.get R.LCY_STATE_state))
  else none

/-- PLDM_REQUEST (R508): a request that is not supported, a sensor that does not exist (2) or is unavailable (1) is answered so. -/
def mgmtRequest (r : MgmtReq) : Eff := .look fun s =>
  match r with
  | .setEndpoint eid => .seq (.upd (.eid eid.toNat)) (mgmtAnswer [0, eid.toNat])
  | .getEndpoint => mgmtAnswer [0, s.eid]
  | .messageTypes => mgmtAnswer [0, 0, 1, 0x7E]
  | .pldmTypes => mgmtAnswer [0, 0, 2]
  | .sensor id => (match s.sensor id.toNat with
    | none => mgmtAnswer [2]
    | some none => mgmtAnswer [1]
    | some (some v) => mgmtAnswer [0, v])
  | .otherPldm => mgmtAnswer [2]
  | .eventAck n => .upd (.mgmtQ (s.mgmtQ.eraseIdx n))

def execPldmRequest (r : MgmtReq) (s : State) : Host.Outcome State Fault Refusal := (mgmtServe (mgmtRequest r)).done s

/-! Vendor-defined commands (R511) -/

/-- 0x01 DISPATCH_READ. -/
def mgmtDispatch (first count : Nat) : Eff := mgmtServe (.look fun s =>
  if count = 0 ∨ 8 < count then mgmtAnswer [ST_BAD_ARG]
  else
    let n := min count (s.get R.SVC_DISPATCH_HEAD_next - first)
    mgmtAnswer (ST_OK :: fieldsOf ((List.range n).flatMap fun i => s.dispatchRecord (first + i))))

def execMgmtDispatchRead (first : BitVec 32) (count : BitVec 8) (s : State) : Host.Outcome State Fault Refusal :=
  (mgmtDispatch first.toNat count.toNat).done s

/-- 0x02 REPLACE_READ. -/
def replaceRead : Eff := mgmtServe (.look fun s =>
  mgmtAnswer (ST_OK :: fieldsOf (toLE 8 (s.reg R.SVC_REPLACE).toNat ++ toLE 8 (s.reg R.SVC_REPLACE_LAST).toNat)))

def execReplaceRead (s : State) : Host.Outcome State Fault Refusal := replaceRead.done s

/-- 0x03 SOUNDING_READ. -/
def soundingRead (first count : Nat) : Eff := mgmtServe (.look fun s =>
  if !s.fwRuns then mgmtAnswer [ST_BUSY]
  else if count = 0 ∨ 16 < count ∨ 128 < first + count then mgmtAnswer [ST_BAD_ARG]
  else mgmtAnswer (ST_OK :: fieldsOf ((List.range count).flatMap fun i => toLE 8 (s.reg (R.THM_SOUND (first + i))).toNat)))

def execSoundingRead (first count : BitVec 8) (s : State) : Host.Outcome State Fault Refusal :=
  (soundingRead first.toNat count.toNat).done s

/-- 0x04 WARM_RESET: the reset starts 1 ms after the reply; a RESET that is pending already makes it one. -/
def mgmtReset : Eff := mgmtServe (.look fun s =>
  if s.bit R.THM_SHUTDOWN_latched then mgmtAnswer [ST_SHUTDOWN]
  else .seq (.upd (.resetAt (some (s.resetAt.getD s.now)))) (mgmtAnswer [ST_OK]))

def execMgmtWarmReset (s : State) : Host.Outcome State Fault Refusal := mgmtReset.done s

/-- 0x05 STATUS: bring-up stage, power state, token holder (0xFF = none), dropped event messages. -/
def mgmtStatus : Eff := mgmtServe (.look fun s => mgmtAnswer [ST_OK, s.stageNow, s.powerState,
  if s.bit (R.HIF_TOKEN_held 0) then s.get (R.HIF_TOKEN_holder 0) else 0xFF, s.mgmtDropped])

def execMgmtStatus (s : State) : Host.Outcome State Fault Refusal := mgmtStatus.done s

/-- 0x06 STANDBY_EXIT. -/
def mgmtStandbyExit : Eff := mgmtServe (.look fun s =>
  if s.standby then .seq (standbyWake 2) (mgmtAnswer [ST_OK]) else mgmtAnswer [ST_BUSY])

def execStandbyExit (s : State) : Host.Outcome State Fault Refusal := mgmtStandbyExit.done s

end Sys2Proof.Machine
end

