-- ==== Sys2Proof/Machine/QeRun.lean ====
section
/-! DEFINITION. What the queue engines move (06_cell.md R176–R180, 02_tide.md R59–R66). Commands: QE_COPY, QE_SEND, QE_FILL,
QE_GATHER, QE_SCATTER: the channel's next descriptor starts, or goes on, and issues its requests; QE_RESPONSE completes it. -/

namespace Sys2Proof.Machine

/-- A channel as an agent. -/
abbrev qeAgent (c : Fin 128) (k : Fin 8) : Agent := .engine c k

/-- The next byte of a descriptor met a fault (R179). -/
def qeFail (c k : Nat) (d : QeDesc) (addr st : Nat) : Eff := qeSet c k { d with fault := some (addr, st) }

/-- The first descriptor of a channel that has not issued its last request. -/
def State.qeNext (s : State) (c k : Nat) : Option QeDesc :=
  (s.qeQAt (c * 8 + k)).find? fun d => !(d.started && decide (d.total ≤ d.pos)) && !(s.qeFlushAt (c * 8 + k)).contains d.id

/-- R180: the status with which a SEND may not start: its route is broken or no longer valid. -/
def State.routeBar (s : State) (c r : Nat) : Nat :=
  if !s.bit (R.QUE_ROUTE_OUT_CFG_valid c r) then ST_BAD_ARG
  else if s.bit (R.QUE_ROUTE_OUT_STATE_broken c r) then s.get (R.QUE_ROUTE_OUT_STATE_last_status c r)
  else ST_OK

/-- R176, R179, R180: the next descriptor starts, or goes on, if its operation is `op`. -/
def qeStart (c k op : Nat) (go : QeDesc → Eff) : Eff := .look fun s =>
  if s.chHalted c k then .skip
  else match s.qeNext c k with
  | none => .skip
  | some d =>
    let bar := s.routeBar c d.route
    if d.op ≠ op || d.fault.isSome || (!d.started && s.bit (R.QUE_CH_CTRL_pause c k)) then .skip
    else if op = 1 && (!s.bit (R.QUE_ROUTE_OUT_CFG_valid c d.route) || s.bit (R.QUE_ROUTE_OUT_STATE_broken c d.route)) then
      Eff.when ((s.qeQAt (c * 8 + k)).head? == some d) (.seq (qeFail c k d 0 bar) (qeHalt c k d 0 bar))
    else .all [qeSet c k { d with started := true }, go { d with started := true }, qeShow c k]

/-- The length of the next request: at most 128 bytes, within one 128-byte block of each of its addresses. -/
def pieceLen (left src dst : Nat) : Nat := min left (min (128 - src % 128) (128 - dst % 128))

/-- Whether the read of `n` bytes at transfer offset `pos` is the one that collides: only one of cell SRAM can (R174). -/
def collidesAt (collide : Option Nat) (pos n a : Nat) : Bool :=
  match collide, regionOf a with
  | some i, .sram _ _ => decide (pos ≤ i) && decide (i < pos + n)
  | _, _ => false

/-- A read of a channel: a refusal, a bad word or a collision is the fault of the descriptor. -/
def qeRead (c : Fin 128) (k : Fin 8) (d : QeDesc) (a n : Nat) (collides : Bool) (go : List Byte → Eff) : Eff :=
  hintRead (qeAgent c k) d.hintOf a n fun r => .look fun s =>
    if r.status ≠ ST_OK then .seq (ungate (qeAgent c k)) (qeFail c k d (a + r.firstBad) r.status)
    else if collides then .all [
      ungate (qeAgent c k), countCollisions a (s.accClass (qeAgent c k) (cellAt a)).1 1, qeFail c k d a ST_COLLISION]
    else go r.data

/-- R177: bytes of a COPY that lie in its source as well as its destination are undefined. -/
def blurred (d : QeDesc) (dst : Nat) (bs : List Byte) (k : List Byte → Eff) : Eff :=
  let both := fun a => d.op == 0 && decide (d.src ≤ a) && decide (a < d.src + d.length)
  if (List.range bs.length).any fun i => both (dst + i) then
    withFreeBytes bs.length fun fs => k ((List.range bs.length).map fun i =>
      if both (dst + i) then fs.getD i 0 else bs.getD i 0)
  else k bs

/-- A write of a channel, with its landing notice and its part of the check-value stream (R301, R464). -/
def qeWrite (c : Fin 128) (k : Fin 8) (d : QeDesc) (dst : Nat) (bs : List Byte) (go : QeDesc → Eff) : Eff :=
  hintWrite (qeAgent c k) d.hintOf dst bs fun st _ =>
    if st ≠ ST_OK then .seq (ungate (qeAgent c k)) (qeFail c k d dst st)
    else
      let d' := { d with pos := d.pos + bs.length }
      .all [
        (match d.tag with | some p => sendLanding dst p bs.length | none => .skip),
        snoop 1 0 (c * 8 + k) (at_ dst bs),
        ungate (qeAgent c k),
        qeSet c k d',
        go d']

/-! COPY and FILL -/

/-- The rest of a COPY. -/
def qeCopyLoop (c : Fin 128) (k : Fin 8) (collide : Option Nat) : Nat → QeDesc → Eff
  | 0, _ => .skip
  | fuel + 1, d =>
    if d.length ≤ d.pos then .skip
    else
      let src := d.src + d.pos
      let dst := d.dst + d.pos
      let n := pieceLen (d.length - d.pos) src dst
      gates (qeAgent c k) [(src, n), (dst, n)] (
        qeRead c k d src n (collidesAt collide d.pos n src) fun bs =>
          blurred d dst bs fun bs => qeWrite c k d dst bs (qeCopyLoop c k collide fuel))

def execQeCopy (c : Fin 128) (k : Fin 8) (collide : Option Nat) (s : State) : Host.Outcome State Fault Refusal :=
  (qeStart c k 0 fun d => qeCopyLoop c k collide (d.length - d.pos) d).done s

/-- Bytes `pos` to `pos + n − 1` of a FILL. -/
def fillBytes (pattern pos n : Nat) : List Byte :=
  (List.range n).map fun i => BitVec.ofNat 8 (pattern / 2 ^ (8 * ((pos + i) % 8)))

/-- The rest of a FILL. -/
def qeFillLoop (c : Fin 128) (k : Fin 8) : Nat → QeDesc → Eff
  | 0, _ => .skip
  | fuel + 1, d =>
    if d.length ≤ d.pos then .skip
    else
      let dst := d.dst + d.pos
      let n := pieceLen (d.length - d.pos) dst dst
      gates (qeAgent c k) [(dst, n)] (qeWrite c k d dst (fillBytes d.pattern d.pos n) (qeFillLoop c k fuel))

def execQeFill (c : Fin 128) (k : Fin 8) (s : State) : Host.Outcome State Fault Refusal :=
  (qeStart c k 2 fun d => qeFillLoop c k (d.length - d.pos) d).done s

/-! GATHER and SCATTER -/

/-- The byte of a collision with the reads of list entries, or with those of rows. -/
def hitIn (inList : Bool) (collide : Option ListHit) : Option Nat :=
  (collide.filter fun h => h.inList == inList).map ListHit.byte

/-- The rest of a GATHER or SCATTER. `row` is the address that the list gives the row under way, read at the row's first
request and again after a resume. -/
def qeRowLoop (c : Fin 128) (k : Fin 8) (collide : Option ListHit) : Nat → Option Nat → QeDesc → Eff
  | 0, _, _ => .skip
  | fuel + 1, row, d =>
    if d.total ≤ d.pos then .skip
    else
      let i := d.pos / d.rowBytes
      let j := d.pos % d.rowBytes
      match row with
      | none =>
        let at' := d.list + 8 * i
        gates (qeAgent c k) [(at', 8)] (qeRead c k d at' 8 (collidesAt (hitIn true collide) d.pos d.rowBytes at') fun bs =>
          .seq (ungate (qeAgent c k)) (qeRowLoop c k collide fuel (some (leNat bs)) d))
      | some a =>
        let src := if d.op = 3 then a + j else d.src + d.pos
        let dst := if d.op = 3 then d.dst + d.pos else a + j
        let n := pieceLen (d.rowBytes - j) src dst
        gates (qeAgent c k) [(src, n), (dst, n)] (
          qeRead c k d src n (collidesAt (hitIn false collide) d.pos n src) fun bs => qeWrite c k d dst bs fun d' =>
            qeRowLoop c k collide fuel (if j + n = d.rowBytes then none else some a) d')

/-- Enough turns for the bytes left and one list entry before each. -/
def rowFuel (d : QeDesc) : Nat := 2 * (d.total - d.pos) + 1

def execQeGather (c : Fin 128) (k : Fin 8) (collide : Option ListHit) (s : State) : Host.Outcome State Fault Refusal :=
  (qeStart c k 3 fun d => qeRowLoop c k collide (rowFuel d) none d).done s

def execQeScatter (c : Fin 128) (k : Fin 8) (collide : Option ListHit) (s : State) : Host.Outcome State Fault Refusal :=
  (qeStart c k 4 fun d => qeRowLoop c k collide (rowFuel d) none d).done s

/-! SEND (R59, R63, R64) -/

/-- The source bytes of a segment, read as it is serialised. -/
def qeSegRead (c : Fin 128) (k : Fin 8) (d : QeDesc) (collide : Option Nat) : Nat → Nat → Nat → List Byte → (List Byte → Eff) → Eff
  | 0, _, _, acc, go => go acc
  | fuel + 1, pos, left, acc, go =>
    if left = 0 then go acc
    else
      let n := pieceLen left (d.src + pos) (d.src + pos)
      gates (qeAgent c k) [(d.src + pos, n)] (qeRead c k d (d.src + pos) n (collidesAt collide pos n (d.src + pos)) fun bs =>
        qeSegRead c k d collide fuel (pos + n) (left - n) (acc ++ bs) go)

/-- A segment sets out: it takes a credit and the next ring slot. -/
def qeSegSend (c : Fin 128) (k : Fin 8) (d : QeDesc) (bs : List Byte) (go : QeDesc → Eff) : Eff := .look fun s =>
  let r := d.route
  let slot := s.routeSlotAt (c * 32 + r)
  let off := s.get (R.QUE_ROUTE_OUT_CFG_ring_base c r) * 4096 + slot * 2 ^ s.get (R.QUE_ROUTE_OUT_CFG_granule_log2 c r)
  let d' := { d with pos := d.pos + bs.length }
  .all [
    put (R.QUE_ROUTE_OUT_STATE_credits_avail c r) (s.get (R.QUE_ROUTE_OUT_STATE_credits_avail c r) - 1),
    put (R.QUE_ROUTE_OUT_STATE_segs_in_flight c r) (s.get (R.QUE_ROUTE_OUT_STATE_segs_in_flight c r) + 1),
    addWrap (R.QUE_ROUTE_OUT_SEGS_segments_sent c r) 1,
    .upd (.routeSlot (c * 32 + r) ((slot + 1) % max 1 (s.get (R.QUE_ROUTE_OUT_CFG_credits c r)))),
    .upd (.segQ (s.segQ ++ [⟨c, k, r, d.id, d.pos, s.get (R.QUE_ROUTE_OUT_CFG_dest_cell c r), off, bs, d.tag⟩])),
    ungate (qeAgent c k),
    qeSet c k d',
    go d']

/-- The rest of a SEND: segments go out while credits last; without one the route's stall begins. -/
def qeSendLoop (c : Fin 128) (k : Fin 8) (collide : Option Nat) : Nat → QeDesc → Eff
  | 0, _ => .skip
  | fuel + 1, d => .look fun s =>
    if d.length ≤ d.pos then .skip
    else if s.get (R.QUE_ROUTE_OUT_STATE_credits_avail c d.route) = 0 then
      Eff.when (s.stallSinceAt (c * 32 + d.route) == 0) (.upd (.stallSince (c * 32 + d.route) (s.now + 1)))
    else
      let n := min (2 ^ s.get (R.QUE_ROUTE_OUT_CFG_granule_log2 c d.route)) (d.length - d.pos)
      qeSegRead c k d collide n d.pos n [] fun bs => qeSegSend c k d bs (qeSendLoop c k collide fuel)

def execQeSend (c : Fin 128) (k : Fin 8) (collide : Option Nat) (s : State) : Host.Outcome State Fault Refusal :=
  (qeStart c k 1 fun d => qeSendLoop c k collide (d.length - d.pos) d).done s

end Sys2Proof.Machine
end

