-- ==== Sys2Proof/Machine/Service.lean ====
section
/-! DEFINITION. Corrected-error accounting and live tests (18_errors_service.md R460–R462, R470, R471). -/

namespace Sys2Proof.Machine

/-! Corrected errors (R460, R461) -/

/-- The codes of R36, from which every status field takes its value (R10). -/
def statusCodes : List Nat := [
  ST_OK, ST_PENDING, ST_ADDR_UNMAPPED, ST_ALIGN, ST_UNIT_RETIRED, ST_DIE_STANDBY, ST_PAGE_PROTECTED, ST_ABORTED, ST_TIMEOUT,
  ST_BAD_ARG, ST_BUSY, ST_NOT_OWNER, ST_COLLISION, ST_ATOMIC_UNSUPPORTED, ST_SEQ_TRAP, ST_QE_DESC_BAD, ST_POISON,
  ST_UNCORRECTABLE, ST_CHANNEL_HALTED, ST_PARITY, ST_CHECK_MISMATCH, ST_BU_FORCED_YIELD, ST_BU_FAULT, ST_BU_MODE,
  ST_BU_PROGRAM, ST_KV_NO_PAGE, ST_KV_REFCOUNT_SAT, ST_KV_NOT_PRESENT, ST_KV_RANGE, ST_REMAP_FULL, ST_SCRUB_ABORTED,
  ST_DIAG_DENIED, ST_CHART_BAD, ST_CHART_BUFFER, ST_CHART_SIGNATURE, ST_CHART_VERSION, ST_CHART_NOT_STAGED,
  ST_TIDE_OVERRUN, ST_SHED, ST_POSTMARK_BAD, ST_POSTMARK_REPLAY, ST_NOT_CONTROLLER, ST_OPCODE_BAD, ST_LIFECYCLE,
  ST_FRANK_MISSING, ST_FRANK_BAD, ST_THROTTLED, ST_SHUTDOWN, ST_LINK_DOWN, ST_LINK_NARROW, ST_DL_HALF_WIDTH,
  ST_DL_FALLBACK, ST_REMOTE_UNREACHABLE, ST_FW_SIGNATURE, ST_FW_INTERFACE, ST_STAGE_FAIL, ST_SELFTEST]

/-- A cause of the replacement request for which the spec names no status: one of the codes, left free. -/
def setReplaceFree (flag unit : Nat) : Eff := withFree fun w =>
  setReplace flag (statusCodes.getD (w.toNat % statusCodes.length) ST_OK) unit

/-- How many units a class has. -/
def ceUnits : Nat → Nat
  | 0 => 1024 | 1 => 24 | 2 => 128 | 3 => 32 | 4 => 1024 | 5 => 48 | 6 => 48 | _ => 0

/-- The correction counters of a unit. -/
def ceFields (cls u : Nat) : List Fld :=
  match cls with
  | 0 => [R.VLT_ECC_CNT_single (u / 8) (u % 8), R.VLT_ECC_CNT_double (u / 8) (u % 8)]
  | 1 => [R.GD_ECC_CNT_single u, R.GD_ECC_CNT_double u]
  | 2 => [R.SEQ_ICACHE_corrected u, R.CELL_ECC_gen_corr u, R.CELL_ECC_acc_corr u, R.CELL_ECC_cb_corr u]
  | 3 => [R.SC_SLICE_ECC_corrected u]
  | 4 => [R.BU_FETCH_CORR_count (u / 8) (u % 8)]
  | 5 => [R.DL_ERR_crc_errors (u / 6) (u % 6)]
  | 6 => [R.GWL_LINK_ERR_uncorrectable u]
  | _ => []

/-- The firmware can read the counters of a unit: its registers answer (R28). -/
def State.ceReach (s : State) (cls u : Nat) : Bool := (ceFields cls u).all fun f =>
  s.mapStatus (regAddr (f.key / 0x10000) (f.key % 0x10000)) 8 == ST_OK

/-- A crossing of a threshold. -/
def ceCross (cls u count : Nat) (replace : Bool) : Eff := .all [
  put R.SVC_CE_LAST_class cls, putBit R.SVC_CE_LAST_replace replace, put R.SVC_CE_LAST_unit u, put R.SVC_CE_LAST_count count,
  evFire 0x7C0,
  Eff.when replace (setReplaceFree 10 u)]

/-- The account with a reading added at time `now`; the window is `len` ns long and starts at the first count. -/
def CeRec.add (r : CeRec) (now len n : Nat) : CeRec :=
  let total := min (r.total + n) (2 ^ 32 - 1)
  if r.since = 0 ∨ r.since - 1 + len ≤ now then ⟨now + 1, n, total, false, false⟩
  else { r with count := r.count + n, total := total }

/-- The window of a class in ns. -/
def State.ceLen (s : State) (cls : Nat) : Nat := s.get (R.SVC_CE_CFG_window_s cls) * 1000000000

/-- Add a reading to a unit's account. -/
def ceAdd (cls u n : Nat) : Eff := .look fun s =>
  let r := (s.ceCountAt (cls * 65536 + u)).add s.now (s.ceLen cls) n
  let warn := !r.warned && decide (s.get (R.SVC_CE_CFG_warn cls) ≤ r.count)
  let replace := !r.replaced && decide (s.get (R.SVC_CE_CFG_replace cls) ≤ r.count)
  .all [
    .upd (.ceCount (cls * 65536 + u) { r with warned := r.warned || warn, replaced := r.replaced || replace }),
    Eff.when warn (ceCross cls u r.count false),
    Eff.when replace (ceCross cls u r.count true)]

/-- Read the counters of a unit; the read clears them. -/
def cePollUnit (cls u : Nat) : Eff := .look fun s =>
  let n := (ceFields cls u).foldl (fun n f => n + s.get f) 0
  Eff.when (s.ceReach cls u && n != 0) (.seq
    (Eff.each ((ceFields cls u).map fun f => f.key).eraseDups fun k => clearRc (k / 0x10000) (k % 0x10000) 0)
    (ceAdd cls u n))

/-- CE_POLL: every 10 ms while the firmware runs. -/
def cePoll : Eff := .look fun s => Eff.when s.fwRuns (.seq
  (reachTime ((s.now / 10000000 + 1) * 10000000))
  (Eff.each (List.range 7) fun cls => Eff.each (List.range (ceUnits cls)) fun u => cePollUnit cls u))

def execCePoll (s : State) : Host.Outcome State Fault Refusal := cePoll.done s

/-- The count of a unit in the current window: a window that has ended counts nothing. -/
def State.ceNow (s : State) (cls u : Nat) : Nat :=
  let r := s.ceCountAt (cls * 65536 + u)
  if r.since = 0 ∨ r.since - 1 + s.ceLen cls ≤ s.now then 0 else min r.count (2 ^ 32 - 1)

/-- CE_READ (R462). -/
def ceRead (n answer : Nat) : Eff := letterbox n answer 0x0011 fun x m => .look fun s =>
  let cls := byteAt m 16
  let first := leAt m 18 2
  let count := leAt m 20 2
  if m.length < 22 ∨ 6 < cls ∨ count = 0 ∨ 1024 < count ∨ ceUnits cls < first + count then letterReply x 0x11 ST_BAD_ARG []
  else letterReply x 0x11 ST_OK ((List.range count).flatMap fun i =>
    toLE 4 (s.ceNow cls (first + i)) ++ toLE 4 (s.ceCountAt (cls * 65536 + first + i)).total)

def execCeRead (n : Fin 2048) (answer : Fin 3) (s : State) : Host.Outcome State Fault Refusal := (ceRead n answer).done s

/-! Live tests (R470, R471) -/

/-- How many units a kind has (R468). -/
def testUnits : Nat → Nat
  | 0 => 128 | 1 => 1024 | 2 => 48 | 3 => 48 | _ => 0

/-- The unit is retired. -/
def State.testRetired (s : State) (kind u : Nat) : Bool :=
  match kind with
  | 0 => s.cellRetired u
  | 1 => s.unitRetired u
  | 2 => s.dl u == 7
  | _ => s.gl u == GL_RETIRED

/-- R470: the unit may be tested live. -/
def State.testable (s : State) (kind u : Nat) : Bool :=
  match kind with
  | 0 => !s.diesOff && (chartDistrictOf s.chartLive u).isNone
  | 1 => !s.diesOff && !s.buMode u && (s.buQAt u).isEmpty
  | 2 => !s.diesOff && s.dlUp u && (List.range 6).any fun m => u / 6 * 6 + m != u && s.dlUp (u / 6 * 6 + m)
  | _ => (s.gl u == GL_UP || s.gl u == GL_DOWN) && (List.range 48).any fun i => i != u && s.gwUp i

/-- A test starts: the firmware takes a die-link module OFFLINE, its slots moved away; a link requalifies. -/
def testBegin (kind u : Nat) : Eff := .all [
  put R.SVC_TEST_state 1, put R.SVC_TEST_kind kind, put R.SVC_TEST_unit u,
  .look fun s => .upd (.testFrom s.now),
  (match kind with
   | 2 => .all [putBit (R.DL_CTRL_offline (u / 6) (u % 6)) true, dlSet u 6 0, hashRebalance (u / 6)]
   | 3 => glRequalify u
   | _ => .skip)]

/-- SERVICE_TEST. -/
def serviceTest (n answer : Nat) : Eff := letterbox n answer 0x0010 fun x m => .look fun s =>
  let kind := byteAt m 16
  let u := leAt m 18 2
  if !s.holdsToken x.port then letterReply x 0x10 ST_NOT_CONTROLLER []
  else if m.length < 20 ∨ 3 < kind ∨ testUnits kind ≤ u then letterReply x 0x10 ST_BAD_ARG []
  else if s.testRetired kind u then letterReply x 0x10 ST_UNIT_RETIRED []
  else if s.get R.SVC_TEST_state = 1 ∨ !s.testable kind u then letterReply x 0x10 ST_BUSY []
  else .seq (testBegin kind u) (letterReply x 0x10 ST_OK [])

def execServiceTest (n : Fin 2048) (answer : Fin 3) (s : State) : Host.Outcome State Fault Refusal := (serviceTest n answer).done s

/-- The cell test overwrites the cell's SRAM and accumulator store; what it leaves there is undefined. -/
def cellOverwrite (c : Nat) : Eff := .seq
  (withFreeBytes 0x380000 fun bs => pokeBytes (sramAddr c 0) bs)
  (.upd (.marksDrop fun w => decide (sramAddr c 0 / 8 ≤ w ∧ w < (sramAddr c 0 + 0x380000) / 8)))

/-- The bank-unit test leaves every instruction at 0; what it leaves in the buffers is undefined. -/
def unitOverwrite (u : Nat) : Eff := .seq
  (Eff.each (List.range 512) fun i => putReg (R.BU_PROG (u / 8) (u % 8) i) 0)
  (Eff.each (List.range 4096) fun i => withFree fun w => .upd (.buBuf (u * 4096 + i) ⟨w.toNat, false⟩))

/-- The status of a link's test. -/
def State.linkTestStatus (s : State) (l : Nat) : Nat :=
  if s.gl l ≠ GL_UP then ST_SELFTEST else if s.get (R.GWL_LINK_STATUS_weight l) = 8 then ST_OK else ST_LINK_NARROW

/-- What the end of a test does to the unit: a failing cell, bank unit or module is retired; a passing module trains back. -/
def testEffect (kind u : Nat) (good : Bool) : Eff :=
  match kind with
  | 0 => .seq (cellOverwrite u) (Eff.when (!good) (cellRetire u ST_SELFTEST))
  | 1 => .seq (unitOverwrite u) (Eff.when (!good) (unitRetire u ST_SELFTEST))
  | 2 => if good then dlOffline u false else dlRetire u ST_SELFTEST
  | _ => .skip

/-- SERVICE_TEST_DONE: `block` = 0 for a pass, else the failing block in the codes of detail 0x0701; a link's result is what
its requalification left. -/
def serviceTestDone (block us : Nat) : Eff := .look fun s =>
  let kind := s.get R.SVC_TEST_kind
  let u := s.get R.SVC_TEST_unit
  let retired := s.testRetired kind u
  let st := if retired then ST_UNIT_RETIRED else if kind = 3 then s.linkTestStatus u else if block = 0 then ST_OK else ST_SELFTEST
  Eff.when (s.get R.SVC_TEST_state == 1 && !(kind == 3 && s.gl u == GL_TRAINING)) (.all [
    reachTime (s.testFrom + us * 1000),
    Eff.when (!retired) (testEffect kind u (block == 0)),
    put R.SVC_TEST_state 2, put R.SVC_TEST_status st,
    put R.SVC_TEST_detail (if st = ST_SELFTEST && kind != 3 then block else 0),
    .look fun t => put R.SVC_TEST_duration_ms (min ((t.now - s.testFrom) / 1000000) 65535),
    evFire 0x7C2])

def execServiceTestDone (block : Fin 6) (us : BitVec 24) (s : State) : Host.Outcome State Fault Refusal :=
  (serviceTestDone block us.toNat).done s

end Sys2Proof.Machine
end

