-- ==== Sys2Proof/Machine/Thermal.lean ====
section
/-! DEFINITION. The housekeeping round: readings, vault bands, thresholds, throttle, soundings and cooling
(19_power_thermal.md R482–R498, 07_vaults.md R189, R190). Temperatures are in 1/16 °C. -/

namespace Sys2Proof.Machine

/-! Readings (R484, R485) -/

/-- One reading of the round: its value, whether it is missing and whether it is suspect. -/
structure Temp where
  v       : Int
  missing : Bool
  suspect : Bool
  deriving DecidableEq, Repr

/-- A 16-bit pattern as a signed number. -/
def signed16 (n : Nat) : Int := if n % 2 ^ 16 < 2 ^ 15 then (n % 2 ^ 16 : Nat) else (n % 2 ^ 16 : Nat) - 2 ^ 16

/-- The channels that carry temperatures. -/
def tempChan (ch : Nat) : Bool := decide (ch < 209) || decide (210 ≤ ch ∧ ch < 218)

/-- A reading that is missing: no conversion, or a temperature outside −40 to +150 °C. -/
def missing16 (ch n : Nat) : Bool :=
  n == 0x8000 || (tempChan ch && (decide (signed16 n < -640) || decide (2400 < signed16 n)))

/-- The word of a channel: a channel that the list does not reach is missing, as are the reserved ones and, with the dies off,
those of the dies. -/
def State.chanWord (s : State) (rs : List (BitVec 32)) (ch : Nat) : Nat :=
  if (s.diesOff && decide (ch < 192)) || decide (242 ≤ ch) then 0x80008000 else (rs.getD ch 0x80008000).toNat

/-- Half of a channel's word. -/
def halfWord (w half : Nat) : Nat := w / 2 ^ (16 * half) % 2 ^ 16

/-- A reading of the round, held against the previous round's, which THM_CHAN still shows. -/
def State.reading (s : State) (rs : List (BitVec 32)) (ch half : Nat) : Temp :=
  let n := halfWord (s.chanWord rs ch) half
  let old := halfWord (s.reg (R.THM_CHAN ch)).toNat half
  let gone := missing16 ch n
  let d := signed16 n - signed16 old
  ⟨signed16 n, gone, tempChan ch && !gone && !missing16 ch old && (decide (320 < d) || decide (d < -320))⟩

/-- A round's readings by channel and half. -/
abbrev Readings := Nat → Nat → Temp

/-- The channels of the kind of a channel (R485): cells of one compute die, layers of one stack, the I/O die, GDDR7 devices, power
stages; any other channel has no kind. -/
def kindChans (ch : Nat) : List Nat :=
  if ch < 128 then (List.range 16).map fun i => ch / 16 * 16 + i
  else if ch < 192 then (List.range 8).map fun i => ch / 8 * 8 + i
  else if ch < 196 then (List.range 4).map fun i => 192 + i
  else if ch < 208 then (List.range 12).map fun i => 196 + i
  else if 210 ≤ ch ∧ ch < 218 then (List.range 8).map fun i => 210 + i
  else []

/-- The highest of the readings. -/
def highest (ts : List Int) : Option Int := ts.foldl (fun m t => match m with | none => some t | some x => some (max x t)) none

/-- The substitute of a channel's readings. -/
def substitute (g : Readings) (ch : Nat) : Option Int :=
  (highest ((kindChans ch).flatMap fun i => [g i 0, g i 1].filterMap fun t => if t.missing || t.suspect then none else some t.v)).map
    fun t => t + 80

/-- The value of a reading that the rules of the chapter use. -/
def usedHalf (g : Readings) (ch half : Nat) : Option Int :=
  let t := g ch half
  if t.missing || t.suspect then substitute g ch else some t.v

/-- R486: the used reading of a cell. -/
def usedCell (g : Readings) (c : Nat) : Option Int :=
  let side := fun h => if (g c h).missing then none else usedHalf g c h
  match side 0, side 1 with
  | some a, some b => some (max a b)
  | some a, none => some a
  | none, some b => some b
  | none, none => substitute g c

/-- The quadrant of a cell in its stack (R189). -/
def quadrant (c : Nat) : Nat := c % 16 / 4 / 2 * 2 + c % 4 / 2

/-- The channel and half of layer `h` above a cell. -/
def layerAt (c h : Nat) : Nat × Nat := (128 + c / 16 * 8 + quadrant c * 2 + h / 2, h % 2)

/-! Step 1: publish -/

/-- R484: the samples of the monitor units. -/
def roundSamples (g : Readings) : Eff := .all [
  Eff.each ((List.range 218).filter fun ch => ch != 209) fun ch =>
    match highest ([g ch 0, g ch 1].filterMap fun t => if t.missing then none else some t.v) with
    | some t => monSample 0x08 ch t
    | none => .skip,
  Eff.each ((List.range 24).filter fun r => !(g (218 + r) 1).missing) fun r => monSample 0x09 r (((g (218 + r) 1).v % 2 ^ 16) * 10),
  Eff.when (!(g 209 1).missing) (monSample 0x0A 0 ((g 209 1).v % 2 ^ 16))]

/-- Publish the readings. -/
def publish (s : State) (rs : List (BitVec 32)) (g : Readings) : Eff := .all [
  Eff.each (List.range 256) fun ch => .all [
    put (R.THM_CHAN_lo ch) (halfWord (s.chanWord rs ch) 0), put (R.THM_CHAN_hi ch) (halfWord (s.chanWord rs ch) 1),
    putBit (R.THM_CHAN_lo_missing ch) (g ch 0).missing, putBit (R.THM_CHAN_hi_missing ch) (g ch 1).missing],
  addWrap R.THM_STATUS_round 1,
  Eff.each (List.range 24) fun d => put (R.GD_STATUS_temp d) ((g (196 + d / 2) (d % 2)).v / 16 % 256).toNat,
  put R.PWR_INPUT_v_in (halfWord (s.chanWord rs 218) 0 / 10),
  put R.THM_COOL_flow_ml (halfWord (s.chanWord rs 209) 0),
  roundSamples g]

/-! Step 2: suspects (R485, R486) -/

/-- A reading is suspect: in 10 rounds out of 1,000 it is marked. -/
def suspectNote (ch half : Nat) : Eff := .look fun s =>
  let round := s.get R.THM_STATUS_round
  let seen := (round :: (s.suspectsAt (ch * 2 + half)).filter fun r => decide (round - r < 1000)).take 10
  let fld := if half = 0 then R.THM_CHAN_lo_marked ch else R.THM_CHAN_hi_marked ch
  .seq (.upd (.suspects (ch * 2 + half) seen))
    (Eff.when (decide (10 ≤ seen.length) && !s.bit fld) (.seq (putBit fld true) (setReplaceFree 8 ch)))

/-- The pair of a cell is marked suspect. -/
def pairSuspect (c : Nat) : Eff := .look fun s =>
  Eff.when (!s.bit (R.THM_CHAN_pair_suspect c)) (.seq (putBit (R.THM_CHAN_pair_suspect c) true) (setReplaceFree 8 c))

/-- The two sensors of a cell. -/
def pairCheck (g : Readings) (c : Nat) : Eff := .look fun s =>
  let a := g c 0
  let b := g c 1
  if a.missing && b.missing then putBit (R.THM_CHAN_disagree c) false
  else if a.missing || b.missing then .seq (putBit (R.THM_CHAN_disagree c) false) (pairSuspect c)
  else
    let d := max (a.v - b.v) (b.v - a.v)
    .all [
      putBit (R.THM_CHAN_disagree c) (decide (64 < d)),
      Eff.when (decide (64 < d) && !s.disagreedAt c) (.all [
        .upd (.disagreed c true), addSat R.THM_COUNTS_disagreements 1, evFire 0x715]),
      Eff.when (decide (d ≤ 48)) (.upd (.disagreed c false)),
      Eff.when (decide (160 < d)) (pairSuspect c)]

/-- R485, R486 applied to every reading; the channels of dies that are off are left out. -/
def suspectStep (g : Readings) (off : Bool) : Eff := .seq
  (Eff.each (List.range 512) fun k => Eff.when (g (k / 2) (k % 2)).suspect (suspectNote (k / 2) (k % 2)))
  (Eff.when (!off) (Eff.each (List.range 128) (pairCheck g)))

/-! Step 3: vault bands (R189, R190) -/

/-- The band that a reading calls for on rising. -/
def bandRise (t : Int) : Nat := if t ≤ 85 * 16 then 0 else if t ≤ 95 * 16 then 1 else if t ≤ 105 * 16 then 2 else 3

/-- The falling point of a band. -/
def bandFall (b : Nat) : Int := if b = 1 then 82 * 16 else if b = 2 then 92 * 16 else 102 * 16

/-- The next band from a valid reading: it rises at once and falls by one. -/
def bandNext (first : Bool) (old : Nat) (t : Int) : Nat :=
  if first || old < bandRise t then bandRise t
  else if 0 < old ∧ t ≤ bandFall old then old - 1
  else old

/-- The band of a vault. -/
def bandSet (g : Readings) (c : Nat) : Eff := .look fun s =>
  let ls := (List.range 4).map fun h => g (layerAt c h).1 (layerAt c h).2
  let worst := ls.any fun t => t.missing || t.suspect
  let t := (highest (ls.filterMap fun t => if t.missing then none else some t.v)).getD 0
  let old := s.get (R.VLT_BAND_band c)
  let new := if worst then 3 else bandNext (!s.gov.banded) old t
  let deg := fun (x : Int) => (x / 16 % 256).toNat
  .all [
    put (R.VLT_BAND_band c) new, putBit (R.VLT_BAND_timing_ext c) (decide (2 ≤ new)), putBit (R.VLT_BAND_forced_worst c) worst,
    put (R.VLT_BAND_t_used c) (deg t),
    put (R.VLT_BAND_t_layer0 c) (deg ((ls.map fun t => t.v).getD 0 0)), put (R.VLT_BAND_t_layer1 c) (deg ((ls.map fun t => t.v).getD 1 0)),
    put (R.VLT_BAND_t_layer2 c) (deg ((ls.map fun t => t.v).getD 2 0)), put (R.VLT_BAND_t_layer3 c) (deg ((ls.map fun t => t.v).getD 3 0)),
    Eff.when (decide (old < new)) (addSat (R.VLT_BAND_band_rises c) 1),
    evLevel (c * 8 + 4) (new == 3)]

/-- The bands of the round; in the exit from STANDBY too (R193, R479). -/
def bandStep (g : Readings) : Eff := .look fun s => Eff.when (!s.diesOff || (s.standby && s.bit R.PWR_STATE_pending)) (.seq
  (Eff.each (List.range 128) (bandSet g)) (.look fun s => .upd (.gov { s.gov with banded := true })))

/-! Step 4: thresholds and shutdown (R487, R488) -/

/-- The used readings that t_max ranges over, with their channels. -/
def tMaxOver (g : Readings) (off : Bool) : List (Option Int × Nat) :=
  (if off then [] else
    ((List.range 128).map fun c => (usedCell g c, c)) ++
      ((List.range 128).map fun k => (usedHalf g (128 + k / 2) (k % 2), 128 + k / 2))) ++
  ((List.range 8).map fun k => (usedHalf g (192 + k / 2) (k % 2), 192 + k / 2))

/-- The used readings of the GDDR7 devices, and of the power stages. -/
def gddrOver (g : Readings) : List (Option Int × Nat) := (List.range 24).map fun k => (usedHalf g (196 + k / 2) (k % 2), 196 + k / 2)
def stageOver (g : Readings) : List (Option Int × Nat) := (List.range 16).map fun k => (usedHalf g (210 + k / 2) (k % 2), 210 + k / 2)

/-- The highest of used readings and its channel, the first among equals. -/
def hottest (xs : List (Option Int × Nat)) : Option (Int × Nat) :=
  xs.foldl (fun m x => match x.1, m with
    | none, m => m
    | some t, none => some (t, x.2)
    | some t, some (u, ch) => if u < t then some (t, x.2) else some (u, ch)) none

/-- A reading without a substitute forces level 3 with cause TEMP (R485). -/
def noKind (g : Readings) (off : Bool) : Bool :=
  (tMaxOver g off ++ gddrOver g ++ stageOver g).any fun x => x.1.isNone

/-- A warning after the round: it trips at or above `trip` and clears at or below `clear`. -/
def warnNext (was : Bool) (t : Option (Int × Nat)) (trip clear : Int) : Bool :=
  match t with
  | some (v, _) => if trip ≤ v then true else if v ≤ clear then false else was
  | none => was

/-- One warning. -/
def warnStep (bit : Nat) (t : Option (Int × Nat)) (trip clear : Int) : Eff := .look fun s =>
  let was := s.gov.warned.testBit bit
  let now := warnNext was t trip clear
  .seq (.upd (.gov { s.gov with warned := if was == now then s.gov.warned else if now then s.gov.warned + 2 ^ bit else s.gov.warned - 2 ^ bit }))
    (Eff.when (now && !was) (addSat R.THM_COUNTS_warnings 1))

/-- A latched shutdown. -/
def shutdown (cause : Nat) (t : Int × Nat) : Eff := .look fun s => .all [
  putBit R.THM_SHUTDOWN_latched true, put R.THM_SHUTDOWN_cause cause, put R.THM_SHUTDOWN_chan t.2,
  put R.THM_SHUTDOWN_reading (t.1 % 2 ^ 16).toNat,
  Eff.each (s.cmds.filter fun x => x.phase != 2) fun x => .seq
    (Eff.when (x.op == 0x71) (put R.PWR_STATE_last_status ST_SHUTDOWN)) (hcFinish x.id ST_SHUTDOWN 0),
  Eff.when s.inStage (.seq (closingRecord ST_SHUTDOWN 0x00FE 0xFFFF 0 0) stageStop),
  diesDown,
  .upd (.cacheDrop fun _ => true), .upd (.memDrop fun _ => true), .upd (.checkDrop fun _ => true), .upd (.marksDrop fun _ => true),
  Eff.each (List.range 48) fun l => Eff.when (s.gl l != GL_RETIRED) (.all [
    put (R.GWL_LINK_STATUS_state l) GL_OFF, put (R.GWL_LINK_STATUS_weight l) 0]),
  putReg R.GWL_UP 0, put R.GWL_AGG_up_weight 0,
  put R.PWR_STATE_state 3, putBit R.PWR_STATE_pending false,
  evLevel 0x713 true]

/-- The first shutdown trip of the round. -/
def shutdownTrip (m d p : Option (Int × Nat)) : Option (Nat × (Int × Nat)) :=
  match ([(1, m, 112 * 16), (2, d, 105 * 16), (3, p, 125 * 16)] : List (Nat × Option (Int × Nat) × Int)).find? fun x =>
    (match x.2.1 with | some t => decide (x.2.2 ≤ t.1) | none => false) with
  | some (k, some t, _) => some (k, t)
  | _ => none

/-- Thresholds and shutdown. -/
def thresholdStep (m d p : Option (Int × Nat)) : Eff := .all [
  (match m with
   | some (t, ch) => .seq (put R.THM_STATUS_t_max (t % 2 ^ 16).toNat) (put R.THM_STATUS_t_max_chan ch)
   | none => .skip),
  warnStep 0 m (95 * 16) (90 * 16), warnStep 1 d (95 * 16) (90 * 16), warnStep 2 p (115 * 16) (110 * 16),
  .look fun s => .seq (putBit R.THM_STATUS_warning (s.gov.warned != 0)) (evLevel 0x712 (s.gov.warned != 0)),
  .look fun s => match shutdownTrip m d p with
    | some (k, t) => Eff.when (!s.bit R.THM_SHUTDOWN_latched) (shutdown k t)
    | none => .skip]

/-! Step 5: throttle (R482, R483, R489–R492) -/

/-- P_book in units of 10 mW. -/
def State.book100 (s : State) : Nat := 108 * (670 + (List.range 128).foldl (fun n c =>
  if s.cellRetired c then n else if s.cellGated c then n + 1 else n + 13) 0)

/-- The sum of the rounds of P_avg10. -/
def State.pSum (s : State) : Nat := s.gov.pIn.foldl (fun n p => n + p) 0

/-- P_gov > w (R482). -/
def State.govAbove (s : State) (w : Nat) : Bool := decide (w * s.gov.pIn.length < s.pSum) || decide (100 * w < s.book100)

/-- P_gov ≤ 0.9 × L. -/
def State.govLow (s : State) : Bool :=
  let l := s.get R.PWR_LIMIT_limit_w
  decide (10 * s.pSum ≤ 9 * l * s.gov.pIn.length) && decide (s.book100 ≤ 90 * l)

/-- R489: the target of a request that TEMP raises. -/
def State.tempTarget (s : State) : Nat :=
  let avg := if s.gov.pIn.isEmpty then 0 else 85 * s.pSum / (100 * s.gov.pIn.length) / 10 * 10
  max 1000 (min avg (s.get R.PWR_LIMIT_limit_w))

/-- Causes are raised (bits of R489): with no request standing, one begins; `timed`: the grace time runs. -/
def causeRaise (bits : Nat) (timed : Bool) : Eff := .look fun s =>
  .seq (put R.PWR_THROTTLE_causes (Nat.lor (s.get R.PWR_THROTTLE_causes) bits))
    (Eff.when (!s.bit R.PWR_THROTTLE_request) (.all [
      putBit R.PWR_THROTTLE_request true,
      put R.PWR_LIMIT_target_w (if bits.testBit 0 then s.tempTarget else s.get R.PWR_LIMIT_limit_w),
      addSat R.PWR_COUNTS_requests 1,
      Eff.when timed (.all [
        putBit R.PWR_THROTTLE_grace true, put R.PWR_THROTTLE_grace_left_ms (s.get R.THM_GRACE_grace_ms),
        .upd (.gov { s.gov with graceEnd := some (s.now + s.get R.THM_GRACE_grace_ms * 1000000) })]),
      evLevel 0x711 true]))

/-- A time since which a condition has held without a break. -/
def sinceWhen (was : Option Nat) (now : Nat) (b : Bool) : Option Nat := if b then some (was.getD now) else none

/-- Enough time since the later of two times. -/
def heldFor (since : Option Nat) (from_ now ns : Nat) : Bool := match since with
  | some t => decide (max t from_ + ns ≤ now)
  | none => false

/-- The powers of the round. -/
def powerStep (pIn : Option Nat) : Eff := .seq
  (.look fun s => match pIn with
    | some p => .seq (put R.PWR_INPUT_p_in p) (.upd (.gov { s.gov with pIn := (p :: s.gov.pIn).take 10 }))
    | none => .skip)
  (.look fun s => .seq
    (put R.PWR_INPUT_p_avg10 (if s.gov.pIn.isEmpty then 0 else s.pSum / s.gov.pIn.length))
    (put R.PWR_INPUT_p_book (s.book100 / 100)))

/-- The causes that stand after the round. -/
def State.causesNow (s : State) (t : Option (Int × Nat)) (forced : Bool) (flow : Option Nat) : Nat :=
  let temp := forced || warnNext (s.gov.standing.testBit 0) t (102 * 16) (97 * 16)
  (if temp then 1 else 0) + (if s.govAbove (s.get R.PWR_LIMIT_limit_w) then 2 else 0) +
    (if s.gov.standing.testBit 2 then 4 else 0) +
    (if flow.isNone || heldFor s.gov.flowLow 0 s.now 100000000 then 8 else 0)

/-- R490: enforcement at level 1 after the grace time. -/
def enforceFirst : Eff := .look fun s =>
  Eff.when (s.gov.graceEnd.isNone && s.bit R.PWR_THROTTLE_request && s.get R.PWR_THROTTLE_level == 0) (
    if s.gov.standing = 0 then requestEnd else Eff.when (s.govAbove (s.get R.PWR_LIMIT_target_w)) (levelPut 1))

/-- R492: the level of the round. -/
def levelStep : Eff := .look fun s =>
  let lv := s.get R.PWR_THROTTLE_level
  if lv = 0 then enforceFirst
  else if lv < 3 && heldFor s.gov.hotSince s.gov.levelAt s.now 10000000 then levelPut (lv + 1)
  else Eff.when (heldFor s.gov.coolSince s.gov.levelAt s.now 50000000) (
    .seq (levelPut (lv - 1)) (Eff.when (lv == 1) requestEnd))

/-- Throttle causes and levels. -/
def throttleStep (t : Option (Int × Nat)) (forced : Bool) (flow pIn : Option Nat) : Eff := .all [
  .look fun s => match s.get R.PWR_THROTTLE_level with
    | 1 => addSat R.PWR_LEVEL_MS_level1 1
    | 2 => addSat R.PWR_LEVEL_MS_level2 1
    | 3 => addSat R.PWR_LEVEL_MS_level3 1
    | _ => .skip,
  powerStep pIn,
  .look fun s => .upd (.gov { s.gov with flowLow := sinceWhen s.gov.flowLow s.now (match flow with | some f => decide (f < 1000) | none => false) }),
  .look fun s =>
    let now := s.causesNow t forced flow
    let raised := now - Nat.land now s.gov.standing
    let hot := (now.testBit 0 && (forced || warnNext false t (102 * 16) (102 * 16))) || now.testBit 1
    let cool := (match t with | some (v, _) => decide (v ≤ 97 * 16) | none => false) && !forced && s.govLow &&
      (match flow with | some f => decide (2500 ≤ f) | none => false) && !now.testBit 2
    .all [
      .upd (.gov { s.gov with
        standing := now, hotSince := sinceWhen s.gov.hotSince s.now hot, coolSince := sinceWhen s.gov.coolSince s.now cool }),
      putBit R.THM_STATUS_temp_cause (now.testBit 0),
      Eff.when (raised.testBit 0) (addSat R.THM_COUNTS_temp_raises 1),
      Eff.when (raised != 0) (causeRaise raised (raised % 4 != 0 && !forced)),
      (if forced || raised.testBit 3 then levelPut 3 else levelStep)],
  .look fun s => match s.gov.graceEnd with
    | some e => put R.PWR_THROTTLE_grace_left_ms ((e - s.now + 999999) / 1000000)
    | none => .skip]

/-- GRACE_EXPIRY (R490). -/
def graceExpiry : Eff := .look fun s =>
  match s.gov.graceEnd with
  | none => .skip
  | some e => .all [
      reachTime e,
      .look fun s => .upd (.gov { s.gov with graceEnd := none }),
      putBit R.PWR_THROTTLE_grace false, put R.PWR_THROTTLE_grace_left_ms 0,
      .look fun s => Eff.when (s.gov.standing != 0) enforceFirst]

def execGraceExpiry (s : State) : Host.Outcome State Fault Refusal := graceExpiry.done s

/-- FAST_LOOP_SAMPLE (R483): every 10 µs, the input power in W. -/
def fastLoop (p : Nat) : Eff := .seq
  (.look fun s => reachTime ((s.now / 10000 + 1) * 10000))
  (.look fun s =>
    let a := sinceWhen s.gov.over3000 s.now (decide (3000 < p))
    let b := sinceWhen s.gov.over2600 s.now (decide (2600 < p))
    let peak := heldFor a 0 s.now 20000 || heldFor b 0 s.now 10000000
    let was := s.gov.standing.testBit 2
    .all [
      .upd (.gov { s.gov with
        over3000 := a, over2600 := b,
        standing := if peak == was then s.gov.standing else if peak then s.gov.standing + 4 else s.gov.standing - 4 }),
      Eff.when (peak && !was) (.all [addSat R.PWR_COUNTS_peak_events 1, causeRaise 4 false, levelPut 3])])

def execFastLoopSample (p : BitVec 16) (s : State) : Host.Outcome State Fault Refusal := (fastLoop p.toNat).done s

/-! Step 6: soundings and rotation (R494–R496) -/

/-- R494: a forecast from a reading, the inlet, what the powers add and the approach. -/
def forecast (t inlet : Int) (rise approach : Nat) : Int := t + (inlet + rise - t) * (approach % 65537 : Nat) / 65536

/-- The forecast of a reading; without a reading or an inlet it is undefined. -/
def forecastOf (t inlet : Option Int) (rise approach : Nat) (k : Int → Eff) : Eff :=
  match t, inlet with
  | some t, some i => k (forecast t i rise approach)
  | _, _ => withFree fun w => k (signed16 w.toNat)

/-- R497: the residual of a sounding whose time has come. -/
def residualNote (c round : Nat) (t : Option Int) : Eff := .look fun s =>
  let due := (s.soundingsAt c).find? fun x => x.1 == round
  .seq (.upd (.soundings c ((s.soundingsAt c).filter fun x => decide (round < x.1))))
    (match t, due with
     | some t, some x => .upd (.residuals c (((t - x.2) :: s.residualsAt c).take 1000))
     | _, _ => .skip)

/-- The sounding of a cell. -/
def sound (g : Readings) (c : Nat) : Eff := .look fun s =>
  let round := s.get R.THM_STATUS_round
  let h := s.get R.THM_SOUND_CFG_horizon_ms
  let inlet := if (g 208 0).missing then none else some (g 208 0).v
  let l0 := layerAt c 0
  .seq (residualNote c round (usedCell g c))
    (forecastOf (usedCell g c) inlet (Config.heatRise round c 0) (Config.approach round c h) fun logic =>
      forecastOf (usedHalf g l0.1 l0.2) inlet (Config.heatRise round c 1) (Config.approach round c h) fun dram => .look fun s =>
        let hot := decide (95 * 16 ≤ logic ∨ 95 * 16 ≤ dram)
        .all [
          put (R.THM_SOUND_logic_pred c) (logic % 2 ^ 16).toNat, put (R.THM_SOUND_dram_pred c) (dram % 2 ^ 16).toNat,
          put (R.THM_SOUND_made_round c) round,
          .upd (.soundings c (s.soundingsAt c ++ [(round + h, logic)])),
          Eff.when (hot && !s.foretoldAt c) (.seq (.upd (.foretold c true))
            (Eff.when (s.agrees 0 3 || s.agrees 1 3) (evFire 0x7C3))),
          Eff.when (decide (logic < 90 * 16 ∧ dram < 90 * 16)) (.upd (.foretold c false))])

/-- The forecasts of a cell. -/
def State.logicPred (s : State) (c : Nat) : Int := signed16 (s.get (R.THM_SOUND_logic_pred c))
def State.dramPred (s : State) (c : Nat) : Int := signed16 (s.get (R.THM_SOUND_dram_pred c))

/-- The member of a set that cell `c` swaps with: both forecasts a margin lower, the coolest logic forecast, the lowest number. -/
def State.coolMember (s : State) (c : Nat) (set : List Nat) : Option Nat :=
  let margin : Int := 16 * s.get R.THM_SOUND_CFG_rot_margin
  let fit := (List.range 128).filter fun m => set.contains m && m != c && !s.cellRetired m &&
    decide (s.logicPred m + margin ≤ s.logicPred c) && decide (s.dramPred m + margin ≤ s.dramPred c)
  fit.foldl (fun best m => match best with
    | none => some m
    | some b => if s.logicPred m < s.logicPred b then some m else some b) none

/-- The rotation that R495 calls for: set, hot cell and its partner. -/
def State.rotation (s : State) : Option (Nat × Nat × Nat) :=
  let at_ : Int := 16 * s.get R.THM_SOUND_CFG_rotate_at
  let gap := s.get R.THM_SOUND_CFG_rot_min_ms * 1000000
  let sets := chartRecs s.chartLive 0xD
  let try_ (c : Nat) : Option (Nat × Nat × Nat) :=
    if s.cellRetired c || !(decide (at_ ≤ s.logicPred c) || decide (at_ ≤ s.dramPred c)) then none
    else match sets.findIdx? fun r => (setCells r).contains c with
      | none => none
      | some i =>
        if s.rotAtAt i ≠ 0 ∧ s.now < s.rotAtAt i - 1 + gap then none
        else (s.coolMember c ((sets[i]?.map setCells).getD [])).map fun m => (i, c, m)
  (List.range 128).foldl (fun got c => match got with | some x => some x | none => try_ c) none

/-- R495: the firmware derives the rotation and stages it. -/
def rotationStep : Eff := .look fun s =>
  Eff.when (s.bit R.THM_SOUND_CFG_rot_en && s.holderAgrees 1) (
    match s.rotation with
    | none => .skip
    | some (i, c, m) =>
      let img := rotateImg (swapCells c m) s.chartLive
      Eff.when (s.rotationOk img) (.all [
        .upd (.rotAt i (s.now + 1)), addSat R.THM_COUNTS_rotations 1, chartRotate img]))

/-- Soundings, formed by the firmware. -/
def soundStep (g : Readings) : Eff := .look fun s => Eff.when (s.fwRuns && !s.diesOff) (.seq
  (Eff.each ((List.range 128).filter fun c => !s.cellRetired c) (sound g)) rotationStep)

/-! Step 7: cooling (R497) -/

/-- ΔT_exp = 0.95 × P_in ÷ (flow in L/s × cp), in 1/16 °C. -/
def dtExpected (p flow cp : Nat) : Nat := 912000 * p / (flow * cp)

/-- The sum of a list of numbers. -/
def sumInt (xs : List Int) : Int := xs.foldl (fun n x => n + x) 0

/-- The coolant differs from its expectation over 1,000 rounds. -/
def coolOff (log : List (Int × Int)) : Bool :=
  decide (log.length = 1000) &&
    decide (5 * (32 * 1000) + sumInt (log.map fun x => x.2) < 5 * sumInt (log.map fun x => max (x.1 - x.2) (x.2 - x.1)))

/-- A cell's mean residual over 1,000 rounds exceeds resid_max. -/
def State.residOff (s : State) (c : Nat) : Bool :=
  decide ((s.residualsAt c).length = 1000) && decide (16000 * (s.get R.THM_COOL_CFG_resid_max : Int) < sumInt (s.residualsAt c))

/-- The mean of a list, rounded down; of an empty list 0. -/
def meanInt (xs : List Int) : Int := if xs.isEmpty then 0 else sumInt xs / xs.length

/-- A condition of R497 holds. -/
def State.coolBad (s : State) (inlet : Option Int) (flow : Option Nat) : Bool :=
  (match inlet with | some t => decide (16 * (s.get R.THM_COOL_CFG_inlet_max : Int) < t) | none => false) ||
  (match flow with | some f => decide (f < s.get R.THM_COOL_CFG_flow_min) | none => false) ||
  coolOff s.gov.coolLog || (List.range 128).any fun c => s.residOff c

/-- The cooling checks. -/
def coolStep (g : Readings) (flow pIn : Option Nat) : Eff := .all [
  .look fun s =>
    let a := g 208 0
    let b := g 208 1
    match flow, pIn with
    | some f, some p => Eff.when (!a.missing && !b.missing && f != 0 && s.get R.THM_COOL_CFG_cp != 0) (
        .upd (.gov { s.gov with coolLog := ((b.v - a.v, (dtExpected p f (s.get R.THM_COOL_CFG_cp) : Int)) :: s.gov.coolLog).take 1000 }))
    | _, _ => .skip,
  .look fun s =>
    let bad := s.coolBad (if (g 208 0).missing then none else some (g 208 0).v) flow
    let good := sinceWhen s.gov.coolGood s.now (!bad)
    let on := bad || (s.bit R.THM_STATUS_cooling_degraded && !heldFor good 0 s.now 10000000000)
    let resid := (highest ((List.range 128).map fun c => meanInt (s.residualsAt c))).getD 0
    .all [
      .upd (.gov { s.gov with coolGood := good }),
      put R.THM_COOL_dt_meas (meanInt (s.gov.coolLog.map Prod.fst) % 2 ^ 16).toNat,
      put R.THM_COOL_dt_exp (meanInt (s.gov.coolLog.map Prod.snd) % 2 ^ 16).toNat,
      put R.THM_COOL_resid (resid % 2 ^ 16).toNat,
      putBit R.THM_STATUS_cooling_degraded on,
      evLevel 0x714 on]]

/-! The round (R493) -/

/-- R500: the input has been marginal for a round. -/
def marginal (s : State) (rs : List (BitVec 32)) : Eff :=
  let v := halfWord (s.chanWord rs 218) 0
  Eff.when (s.fwRuns && v != 0x8000 && (decide (38000 ≤ v ∧ v < 40000) || decide (48000 < v ∧ v ≤ 50000))) (evFire 0x7C4)

/-- HOUSEKEEPING_ROUND: the 256 channel words of the round, low readings in bits 15:0. -/
def housekeeping (rs : List (BitVec 32)) : Eff := .look fun s => Eff.when (s.power == .on) (
  let g := s.reading rs
  let off := s.diesOff
  let flow := if (g 209 0).missing then none else some (halfWord (s.chanWord rs 209) 0)
  let pIn := if (g 209 1).missing then none else some (halfWord (s.chanWord rs 209) 1)
  let tmax := hottest (tMaxOver g off)
  .all [
    reachTime (s.gov.roundAt + 1000000),
    .look fun t => .upd (.gov { t.gov with roundAt := t.now }),
    publish s rs g,
    suspectStep g off,
    bandStep g,
    thresholdStep tmax (hottest (gddrOver g)) (hottest (stageOver g)),
    throttleStep tmax (noKind g off) flow pIn,
    soundStep g,
    coolStep g flow pIn,
    marginal s rs])

def execHousekeepingRound (readings : List (BitVec 32)) (s : State) : Host.Outcome State Fault Refusal := (housekeeping readings).done s

end Sys2Proof.Machine
end

