-- ==== Sys2Proof/Machine/Dispatch.lean ====
section
/-! DEFINITION. The effect of every command on everything but the queue: one arm per constructor of `Instr`, each one
direct call of the command's meaning. -/

namespace Sys2Proof.Machine

def exec (i : Instr) (s : State) : Host.Outcome State Fault Refusal :=
  match i with
  | .powerApply => Sys2Proof.Machine.execPowerApply s
  | .inputUndervoltage => Sys2Proof.Machine.execInputUndervoltage s
  | .inputOvervoltage => Sys2Proof.Machine.execInputOvervoltage s
  | .inputPowerRemoved => Sys2Proof.Machine.execInputPowerRemoved s
  | .warmReset => Sys2Proof.Machine.execWarmReset s
  | .stageS0 us mv rail flow => Sys2Proof.Machine.execStageS0 us mv rail flow s
  | .stageS1 us block word corrected => Sys2Proof.Machine.execStageS1 us block word corrected s
  | .stageS2 => Sys2Proof.Machine.execStageS2 s
  | .stageS3 => Sys2Proof.Machine.execStageS3 s
  | .stageS4 us trains => Sys2Proof.Machine.execStageS4 us trains s
  | .stageS5 us rows => Sys2Proof.Machine.execStageS5 us rows s
  | .stageS6 us bins rows => Sys2Proof.Machine.execStageS6 us bins rows s
  | .stageS7 us fails => Sys2Proof.Machine.execStageS7 us fails s
  | .stageS8 us trains => Sys2Proof.Machine.execStageS8 us trains s
  | .stageS9 us => Sys2Proof.Machine.execStageS9 us s
  | .stageLimitExpiry => Sys2Proof.Machine.execStageLimitExpiry s
  | .heartbeatTimeout => Sys2Proof.Machine.execHeartbeatTimeout s
  | .tamperDetect source => Sys2Proof.Machine.execTamperDetect source s
  | .tamperRewipe asserted => Sys2Proof.Machine.execTamperRewipe asserted s
  | .registerWrite who target data => Sys2Proof.Machine.execRegisterWrite who target data s
  | .commit who page => Sys2Proof.Machine.execCommit who page s
  | .addressMapAccess who a n data => Sys2Proof.Machine.execAddressMapAccess who a n data s
  | .cutoff => Sys2Proof.Machine.execCutoff s
  | .tideEdge => Sys2Proof.Machine.execTideEdge s
  | .slackCheck => Sys2Proof.Machine.execSlackCheck s
  | .applyHoldTimeout => Sys2Proof.Machine.execApplyHoldTimeout s
  | .tideHalt => Sys2Proof.Machine.execTideHalt s
  | .tideCtrlRun who run => Sys2Proof.Machine.execTideCtrlRun who run s
  | .announceMissed => Sys2Proof.Machine.execAnnounceMissed s
  | .syncTimer => Sys2Proof.Machine.execSyncTimer s
  | .creditReturn parity => Sys2Proof.Machine.execCreditReturn parity s
  | .segmentLand => Sys2Proof.Machine.execSegmentLand s
  | .codebookDescriptorWrite who c k v => Sys2Proof.Machine.execCodebookDescriptorWrite who c k v s
  | .seqNop c t d a b fn imm => Sys2Proof.Machine.execSeqNop c t d a b fn imm s
  | .seqLi c t d a b fn imm => Sys2Proof.Machine.execSeqLi c t d a b fn imm s
  | .seqLih c t d a b fn imm => Sys2Proof.Machine.execSeqLih c t d a b fn imm s
  | .seqAdd c t d a b fn imm => Sys2Proof.Machine.execSeqAdd c t d a b fn imm s
  | .seqSub c t d a b fn imm => Sys2Proof.Machine.execSeqSub c t d a b fn imm s
  | .seqMul c t d a b fn imm => Sys2Proof.Machine.execSeqMul c t d a b fn imm s
  | .seqAnd c t d a b fn imm => Sys2Proof.Machine.execSeqAnd c t d a b fn imm s
  | .seqOr c t d a b fn imm => Sys2Proof.Machine.execSeqOr c t d a b fn imm s
  | .seqXor c t d a b fn imm => Sys2Proof.Machine.execSeqXor c t d a b fn imm s
  | .seqShl c t d a b fn imm => Sys2Proof.Machine.execSeqShl c t d a b fn imm s
  | .seqShr c t d a b fn imm => Sys2Proof.Machine.execSeqShr c t d a b fn imm s
  | .seqSra c t d a b fn imm => Sys2Proof.Machine.execSeqSra c t d a b fn imm s
  | .seqSlt c t d a b fn imm => Sys2Proof.Machine.execSeqSlt c t d a b fn imm s
  | .seqSltu c t d a b fn imm => Sys2Proof.Machine.execSeqSltu c t d a b fn imm s
  | .seqLd c t d a b fn imm => Sys2Proof.Machine.execSeqLd c t d a b fn imm s
  | .seqSt c t d a b fn imm => Sys2Proof.Machine.execSeqSt c t d a b fn imm s
  | .seqBeq c t d a b fn imm => Sys2Proof.Machine.execSeqBeq c t d a b fn imm s
  | .seqBne c t d a b fn imm => Sys2Proof.Machine.execSeqBne c t d a b fn imm s
  | .seqBlt c t d a b fn imm => Sys2Proof.Machine.execSeqBlt c t d a b fn imm s
  | .seqBge c t d a b fn imm => Sys2Proof.Machine.execSeqBge c t d a b fn imm s
  | .seqJal c t d a b fn imm => Sys2Proof.Machine.execSeqJal c t d a b fn imm s
  | .seqJr c t d a b fn imm => Sys2Proof.Machine.execSeqJr c t d a b fn imm s
  | .seqPass c t d a b fn imm collided => Sys2Proof.Machine.execSeqPass c t d a b fn imm collided s
  | .seqVop c t d a b fn imm => Sys2Proof.Machine.execSeqVop c t d a b fn imm s
  | .seqQe c t d a b fn imm collided => Sys2Proof.Machine.execSeqQe c t d a b fn imm collided s
  | .seqBuc c t d a b fn imm collided => Sys2Proof.Machine.execSeqBuc c t d a b fn imm collided s
  | .seqSignal c t d a b fn imm => Sys2Proof.Machine.execSeqSignal c t d a b fn imm s
  | .seqWait c t d a b fn imm => Sys2Proof.Machine.execSeqWait c t d a b fn imm s
  | .seqArrive c t d a b fn imm => Sys2Proof.Machine.execSeqArrive c t d a b fn imm s
  | .seqOwn c t d a b fn imm => Sys2Proof.Machine.execSeqOwn c t d a b fn imm s
  | .seqFence c t d a b fn imm => Sys2Proof.Machine.execSeqFence c t d a b fn imm s
  | .seqHeadEnd c t d a b fn imm => Sys2Proof.Machine.execSeqHeadEnd c t d a b fn imm s
  | .seqStepEnd c t d a b fn imm => Sys2Proof.Machine.execSeqStepEnd c t d a b fn imm s
  | .seqRdstep c t d a b fn imm => Sys2Proof.Machine.execSeqRdstep c t d a b fn imm s
  | .seqRdtime c t d a b fn imm => Sys2Proof.Machine.execSeqRdtime c t d a b fn imm s
  | .seqTrap c t d a b fn imm => Sys2Proof.Machine.execSeqTrap c t d a b fn imm s
  | .icacheFill c t err => Sys2Proof.Machine.execIcacheFill c t err s
  | .loadResponse c t collided => Sys2Proof.Machine.execLoadResponse c t collided s
  | .threadHalt who c t => Sys2Proof.Machine.execThreadHalt who c t s
  | .threadResume who c t => Sys2Proof.Machine.execThreadResume who c t s
  | .threadKill who c t => Sys2Proof.Machine.execThreadKill who c t s
  | .icacheInvalidate who c => Sys2Proof.Machine.execIcacheInvalidate who c s
  | .vecAdd c collided => Sys2Proof.Machine.execVecAdd c collided s
  | .vecSub c collided => Sys2Proof.Machine.execVecSub c collided s
  | .vecMul c collided => Sys2Proof.Machine.execVecMul c collided s
  | .vecFma c collided => Sys2Proof.Machine.execVecFma c collided s
  | .vecMax c collided => Sys2Proof.Machine.execVecMax c collided s
  | .vecMin c collided => Sys2Proof.Machine.execVecMin c collided s
  | .scale c collided => Sys2Proof.Machine.execScale c collided s
  | .cvt c collided => Sys2Proof.Machine.execCvt c collided s
  | .exp c collided => Sys2Proof.Machine.execExp c collided s
  | .rcp c collided => Sys2Proof.Machine.execRcp c collided s
  | .rsqrt c collided => Sys2Proof.Machine.execRsqrt c collided s
  | .tanh c collided => Sys2Proof.Machine.execTanh c collided s
  | .logistic c collided => Sys2Proof.Machine.execLogistic c collided s
  | .rsum c collided => Sys2Proof.Machine.execRsum c collided s
  | .rmax c collided => Sys2Proof.Machine.execRmax c collided s
  | .softmax c collided => Sys2Proof.Machine.execSoftmax c collided s
  | .topk c collided => Sys2Proof.Machine.execTopk c collided s
  | .code c collided => Sys2Proof.Machine.execCode c collided s
  | .scan c collided => Sys2Proof.Machine.execScan c collided s
  | .rng c collided => Sys2Proof.Machine.execRng c collided s
  | .sample c collided => Sys2Proof.Machine.execSample c collided s
  | .merge c collided => Sys2Proof.Machine.execMerge c collided s
  | .feedIssue who c off collided => Sys2Proof.Machine.execFeedIssue who c off collided s
  | .tileFetchStart c collided => Sys2Proof.Machine.execTileFetchStart c collided s
  | .zskipScanEnd c collided => Sys2Proof.Machine.execZskipScanEnd c collided s
  | .metadataArrival c => Sys2Proof.Machine.execMetadataArrival c s
  | .passStart c collided parity => Sys2Proof.Machine.execPassStart c collided parity s
  | .passComplete c collided => Sys2Proof.Machine.execPassComplete c collided s
  | .feedEnable who c enable => Sys2Proof.Machine.execFeedEnable who c enable s
  | .feedAbort who c => Sys2Proof.Machine.execFeedAbort who c s
  | .sramAccess who c way off n data collided => Sys2Proof.Machine.execSramAccess who c way off n data collided s
  | .ownerWrite who c ix v half => Sys2Proof.Machine.execOwnerWrite who c ix v half s
  | .ownerSwitch c b => Sys2Proof.Machine.execOwnerSwitch c b s
  | .queChSubmit who c k off collided => Sys2Proof.Machine.execQueChSubmit who c k off collided s
  | .qeCopy c k collide => Sys2Proof.Machine.execQeCopy c k collide s
  | .qeSend c k collide => Sys2Proof.Machine.execQeSend c k collide s
  | .qeFill c k => Sys2Proof.Machine.execQeFill c k s
  | .qeGather c k collide => Sys2Proof.Machine.execQeGather c k collide s
  | .qeScatter c k collide => Sys2Proof.Machine.execQeScatter c k collide s
  | .qeResponse c k => Sys2Proof.Machine.execQeResponse c k s
  | .queChPause who c k pause => Sys2Proof.Machine.execQueChPause who c k pause s
  | .queChResume who c k => Sys2Proof.Machine.execQueChResume who c k s
  | .queChSkip who c k => Sys2Proof.Machine.execQueChSkip who c k s
  | .queChFlush who c k => Sys2Proof.Machine.execQueChFlush who c k s
  | .vaultRequest a n data ns => Sys2Proof.Machine.execVaultRequest a n data ns s
  | .remapPersist => Sys2Proof.Machine.execRemapPersist s
  | .refresh u bank => Sys2Proof.Machine.execRefresh u bank s
  | .trackerWindowExpiry u => Sys2Proof.Machine.execTrackerWindowExpiry u s
  | .scrubStart who u => Sys2Proof.Machine.execScrubStart who u s
  | .scrubAbort who u granules => Sys2Proof.Machine.execScrubAbort who u granules s
  | .scrubDone u => Sys2Proof.Machine.execScrubDone u s
  | .diagLock who u v => Sys2Proof.Machine.execDiagLock who u v s
  | .diagLockGranted u => Sys2Proof.Machine.execDiagLockGranted u s
  | .rawWrite who u check => Sys2Proof.Machine.execRawWrite who u check s
  | .rawRead who u => Sys2Proof.Machine.execRawRead who u s
  | .buSubmit who u block => Sys2Proof.Machine.execBuSubmit who u block s
  | .buCommandStart u => Sys2Proof.Machine.execBuCommandStart u s
  | .buSvcCopy u => Sys2Proof.Machine.execBuSvcCopy u s
  | .buSvcFill u => Sys2Proof.Machine.execBuSvcFill u s
  | .buSvcCheck u => Sys2Proof.Machine.execBuSvcCheck u s
  | .buNop u fetch => Sys2Proof.Machine.execBuNop u fetch s
  | .buLi u fetch => Sys2Proof.Machine.execBuLi u fetch s
  | .buLih u fetch => Sys2Proof.Machine.execBuLih u fetch s
  | .buAdd u fetch => Sys2Proof.Machine.execBuAdd u fetch s
  | .buSub u fetch => Sys2Proof.Machine.execBuSub u fetch s
  | .buMul u fetch => Sys2Proof.Machine.execBuMul u fetch s
  | .buShl u fetch => Sys2Proof.Machine.execBuShl u fetch s
  | .buShr u fetch => Sys2Proof.Machine.execBuShr u fetch s
  | .buAnd u fetch => Sys2Proof.Machine.execBuAnd u fetch s
  | .buOr u fetch => Sys2Proof.Machine.execBuOr u fetch s
  | .buBne u fetch => Sys2Proof.Machine.execBuBne u fetch s
  | .buBltu u fetch => Sys2Proof.Machine.execBuBltu u fetch s
  | .buJmp u fetch => Sys2Proof.Machine.execBuJmp u fetch s
  | .buLoop u fetch => Sys2Proof.Machine.execBuLoop u fetch s
  | .buYield u fetch => Sys2Proof.Machine.execBuYield u fetch s
  | .buEnd u fetch => Sys2Proof.Machine.execBuEnd u fetch s
  | .buLdq u fetch => Sys2Proof.Machine.execBuLdq u fetch s
  | .buLdi u fetch => Sys2Proof.Machine.execBuLdi u fetch s
  | .buLds u fetch => Sys2Proof.Machine.execBuLds u fetch s
  | .buLcb u fetch => Sys2Proof.Machine.execBuLcb u fetch s
  | .buClr u fetch => Sys2Proof.Machine.execBuClr u fetch s
  | .buStr u fetch => Sys2Proof.Machine.execBuStr u fetch s
  | .buGather u fetch => Sys2Proof.Machine.execBuGather u fetch s
  | .buGatherReduce u fetch => Sys2Proof.Machine.execBuGatherReduce u fetch s
  | .buRowDot u fetch => Sys2Proof.Machine.execBuRowDot u fetch s
  | .buScanStats u fetch => Sys2Proof.Machine.execBuScanStats u fetch s
  | .buCopy u fetch => Sys2Proof.Machine.execBuCopy u fetch s
  | .buFill u fetch => Sys2Proof.Machine.execBuFill u fetch s
  | .buCheck u fetch => Sys2Proof.Machine.execBuCheck u fetch s
  | .forcedYield u => Sys2Proof.Machine.execForcedYield u s
  | .stackWindow stack => Sys2Proof.Machine.execStackWindow stack s
  | .buModeProcessor who u => Sys2Proof.Machine.execBuModeProcessor who u s
  | .processorModeReady u => Sys2Proof.Machine.execProcessorModeReady u s
  | .buModeMemory who u => Sys2Proof.Machine.execBuModeMemory who u s
  | .memoryModeDrained u => Sys2Proof.Machine.execMemoryModeDrained u s
  | .buAbortDrain who u => Sys2Proof.Machine.execBuAbortDrain who u s
  | .buClearFault who u => Sys2Proof.Machine.execBuClearFault who u s
  | .buAbort who u => Sys2Proof.Machine.execBuAbort who u s
  | .buProgWrite who u ix v half => Sys2Proof.Machine.execBuProgWrite who u ix v half s
  | .kvtSubmit who c off => Sys2Proof.Machine.execKvtSubmit who c off s
  | .kvtWalk c n => Sys2Proof.Machine.execKvtWalk c n s
  | .kvtAppend c n => Sys2Proof.Machine.execKvtAppend c n s
  | .cowCopyComplete c n => Sys2Proof.Machine.execCowCopyComplete c n s
  | .kvtShare c n => Sys2Proof.Machine.execKvtShare c n s
  | .kvtRelease c n => Sys2Proof.Machine.execKvtRelease c n s
  | .kvtMark c n => Sys2Proof.Machine.execKvtMark c n s
  | .kvtStage c n => Sys2Proof.Machine.execKvtStage c n s
  | .stageCopyComplete c n => Sys2Proof.Machine.execStageCopyComplete c n s
  | .kvtMigrate c n => Sys2Proof.Machine.execKvtMigrate c n s
  | .migrationCopyComplete c => Sys2Proof.Machine.execMigrationCopyComplete c s
  | .kvtEvacuate c n => Sys2Proof.Machine.execKvtEvacuate c n s
  | .kvtAbort who c => Sys2Proof.Machine.execKvtAbort who c s
  | .kvtFlPush who c ix entry => Sys2Proof.Machine.execKvtFlPush who c ix entry s
  | .scAccess who h a len write tag upset ns => Sys2Proof.Machine.execScAccess who h a len write tag upset ns s
  | .atomAdd who ix operand => Sys2Proof.Machine.execAtomAdd who ix operand s
  | .atomMin who ix operand => Sys2Proof.Machine.execAtomMin who ix operand s
  | .atomMax who ix operand => Sys2Proof.Machine.execAtomMax who ix operand s
  | .atomAnd who ix operand => Sys2Proof.Machine.execAtomAnd who ix operand s
  | .atomOr who ix operand => Sys2Proof.Machine.execAtomOr who ix operand s
  | .atomXor who ix operand => Sys2Proof.Machine.execAtomXor who ix operand s
  | .atomSwap who ix operand => Sys2Proof.Machine.execAtomSwap who ix operand s
  | .atomCas who ix operand => Sys2Proof.Machine.execAtomCas who ix operand s
  | .atomVadd who ix operand => Sys2Proof.Machine.execAtomVadd who ix operand s
  | .pcieAtomicop p op size a operand compare => Sys2Proof.Machine.execPcieAtomicop p op size a operand compare s
  | .scFlushStart who invalidate => Sys2Proof.Machine.execScFlushStart who invalidate s
  | .scFlushDone => Sys2Proof.Machine.execScFlushDone s
  | .keepRelease who k => Sys2Proof.Machine.execKeepRelease who k s
  | .gddrRequest a len write crc retrained flip flipCheck ns => Sys2Proof.Machine.execGddrRequest a len write crc retrained flip flipCheck ns s
  | .gddrRefresh g bank => Sys2Proof.Machine.execGddrRefresh g bank s
  | .gddrPeriodicRetrain g => Sys2Proof.Machine.execGddrPeriodicRetrain g s
  | .postboxSignal => Sys2Proof.Machine.execPostboxSignal s
  | .landingNotice => Sys2Proof.Machine.execLandingNotice s
  | .pbxSignal who c n add => Sys2Proof.Machine.execPbxSignal who c n add s
  | .pbxReset who c n value => Sys2Proof.Machine.execPbxReset who c n value s
  | .seawallArrival => Sys2Proof.Machine.execSeawallArrival s
  | .swlArrive who w => Sys2Proof.Machine.execSwlArrive who w s
  | .seawallRelease c => Sys2Proof.Machine.execSeawallRelease c s
  | .chartLoad n => Sys2Proof.Machine.execChartLoad n s
  | .chartStagingDone => Sys2Proof.Machine.execChartStagingDone s
  | .chartApply n => Sys2Proof.Machine.execChartApply n s
  | .chtArm who target => Sys2Proof.Machine.execChtArm who target s
  | .chtDisarm who => Sys2Proof.Machine.execChtDisarm who s
  | .chartDisarm n => Sys2Proof.Machine.execChartDisarm n s
  | .tideRunStart n => Sys2Proof.Machine.execTideRunStart n s
  | .tideRunStop n => Sys2Proof.Machine.execTideRunStop n s
  | .sqTailDoorbell who p q index => Sys2Proof.Machine.execSqTailDoorbell who p q index s
  | .cqHeadWrite who p q index => Sys2Proof.Machine.execCqHeadWrite who p q index s
  | .queuePairEnable who p q enable => Sys2Proof.Machine.execQueuePairEnable who p q enable s
  | .descriptorFetch p answer => Sys2Proof.Machine.execDescriptorFetch p answer s
  | .reserveMarkWritten p => Sys2Proof.Machine.execReserveMarkWritten p s
  | .completionPost n => Sys2Proof.Machine.execCompletionPost n s
  | .completionAggTimer p q => Sys2Proof.Machine.execCompletionAggTimer p q s
  | .cmdNop n => Sys2Proof.Machine.execCmdNop n s
  | .identify n => Sys2Proof.Machine.execIdentify n s
  | .fwLoad n answer => Sys2Proof.Machine.execFwLoad n answer s
  | .seqAdmit n => Sys2Proof.Machine.execSeqAdmit n s
  | .stepSubmit n answer => Sys2Proof.Machine.execStepSubmit n answer s
  | .stepSubmitCompletion q => Sys2Proof.Machine.execStepSubmitCompletion q s
  | .seqRetire n => Sys2Proof.Machine.execSeqRetire n s
  | .copyToDevice n answer upto => Sys2Proof.Machine.execCopyToDevice n answer upto s
  | .copyFromDevice n collided => Sys2Proof.Machine.execCopyFromDevice n collided s
  | .kvOp n => Sys2Proof.Machine.execKvOp n s
  | .evacuate n => Sys2Proof.Machine.execEvacuate n s
  | .scrub n => Sys2Proof.Machine.execScrub n s
  | .monitorRead n => Sys2Proof.Machine.execMonitorRead n s
  | .dispatchRead n => Sys2Proof.Machine.execDispatchRead n s
  | .retireCell n => Sys2Proof.Machine.execRetireCell n s
  | .retireBankUnit n => Sys2Proof.Machine.execRetireBankUnit n s
  | .retireDieLink n => Sys2Proof.Machine.execRetireDieLink n s
  | .retireLink n => Sys2Proof.Machine.execRetireLink n s
  | .frankInstall n answer flashBad => Sys2Proof.Machine.execFrankInstall n answer flashBad s
  | .lifecycleSet n => Sys2Proof.Machine.execLifecycleSet n s
  | .keySet n answer => Sys2Proof.Machine.execKeySet n answer s
  | .keyQuery n => Sys2Proof.Machine.execKeyQuery n s
  | .tokenGive n => Sys2Proof.Machine.execTokenGive n s
  | .tokenAccept n => Sys2Proof.Machine.execTokenAccept n s
  | .tokenOfferExpiry => Sys2Proof.Machine.execTokenOfferExpiry s
  | .tokenTakeover n => Sys2Proof.Machine.execTokenTakeover n s
  | .tokenTimeout n => Sys2Proof.Machine.execTokenTimeout n s
  | .thermalSet n => Sys2Proof.Machine.execThermalSet n s
  | .powerStateStandby n => Sys2Proof.Machine.execPowerStateStandby n s
  | .powerStateRun n => Sys2Proof.Machine.execPowerStateRun n s
  | .reset n => Sys2Proof.Machine.execReset n s
  | .hello n answer => Sys2Proof.Machine.execHello n answer s
  | .jobSetup n answer => Sys2Proof.Machine.execJobSetup n answer s
  | .fwInfo n answer => Sys2Proof.Machine.execFwInfo n answer s
  | .serviceTest n answer => Sys2Proof.Machine.execServiceTest n answer s
  | .serviceTestDone block us => Sys2Proof.Machine.execServiceTestDone block us s
  | .ceRead n answer => Sys2Proof.Machine.execCeRead n answer s
  | .bar2Access p resize a n data collided => Sys2Proof.Machine.execBar2Access p resize a n data collided s
  | .pcieLinkDown p => Sys2Proof.Machine.execPcieLinkDown p s
  | .pcieLinkUp p speed width flit => Sys2Proof.Machine.execPcieLinkUp p speed width flit s
  | .linkLossTimeout p => Sys2Proof.Machine.execLinkLossTimeout p s
  | .functionLevelReset p => Sys2Proof.Machine.execFunctionLevelReset p s
  | .perstAssert p => Sys2Proof.Machine.execPerstAssert p s
  | .perstRelease p => Sys2Proof.Machine.execPerstRelease p s
  | .linkFrame d m up kind vc dest flit flip => Sys2Proof.Machine.execLinkFrame d m up kind vc dest flit flip s
  | .replayTimeout d m up => Sys2Proof.Machine.execReplayTimeout d m up s
  | .laneLossOfLock d m => Sys2Proof.Machine.execLaneLossOfLock d m s
  | .dlRetrain who d m => Sys2Proof.Machine.execDlRetrain who d m s
  | .dlRetrainComplete t => Sys2Proof.Machine.execDlRetrainComplete t s
  | .slotMoveComplete d slot => Sys2Proof.Machine.execSlotMoveComplete d slot s
  | .dlOffline who d m offline => Sys2Proof.Machine.execDlOffline who d m offline s
  | .dlTestStart who d m mode pattern cdEnd => Sys2Proof.Machine.execDlTestStart who d m mode pattern cdEnd s
  | .dlTestDone d m lanes spares => Sys2Proof.Machine.execDlTestDone d m lanes spares s
  | .gwWrite h addr tag data => Sys2Proof.Machine.execGwWrite h addr tag data s
  | .gwAck h seq vc status => Sys2Proof.Machine.execGwAck h seq vc status s
  | .gwSignal h pbx amount => Sys2Proof.Machine.execGwSignal h pbx amount s
  | .swArrive h wall gen => Sys2Proof.Machine.execSwArrive h wall gen s
  | .swRelease h wall gen => Sys2Proof.Machine.execSwRelease h wall gen s
  | .tideAnnounce h edge t => Sys2Proof.Machine.execTideAnnounce h edge t s
  | .overrun h report cause => Sys2Proof.Machine.execOverrun h report cause s
  | .syncReq h t1 => Sys2Proof.Machine.execSyncReq h t1 s
  | .syncRsp h t1 t2 t3 => Sys2Proof.Machine.execSyncRsp h t1 t2 t3 s
  | .ackTimeout n => Sys2Proof.Machine.execAckTimeout n s
  | .gwLaneFailure l lane => Sys2Proof.Machine.execGwLaneFailure l lane s
  | .gwLinkRestarted l => Sys2Proof.Machine.execGwLinkRestarted l s
  | .gwlRequalify who l => Sys2Proof.Machine.execGwlRequalify who l s
  | .gwlXqTail who x tail => Sys2Proof.Machine.execGwlXqTail who x tail s
  | .gwlXqResume who x => Sys2Proof.Machine.execGwlXqResume who x s
  | .gwlXqSkip who x => Sys2Proof.Machine.execGwlXqSkip who x s
  | .gwlXqFlush who x => Sys2Proof.Machine.execGwlXqFlush who x s
  | .evcEos who dest src => Sys2Proof.Machine.execEvcEos who dest src s
  | .evcSet src => Sys2Proof.Machine.execEvcSet src s
  | .msixUnmask p v => Sys2Proof.Machine.execMsixUnmask p v s
  | .monSnap u => Sys2Proof.Machine.execMonSnap u s
  | .monClear u => Sys2Proof.Machine.execMonClear u s
  | .crcStart who e => Sys2Proof.Machine.execCrcStart who e s
  | .crcStop who e => Sys2Proof.Machine.execCrcStop who e s
  | .crcResume who e => Sys2Proof.Machine.execCrcResume who e s
  | .crcCompare who e => Sys2Proof.Machine.execCrcCompare who e s
  | .cePoll => Sys2Proof.Machine.execCePoll s
  | .housekeepingRound readings => Sys2Proof.Machine.execHousekeepingRound readings s
  | .graceExpiry => Sys2Proof.Machine.execGraceExpiry s
  | .fastLoopSample p => Sys2Proof.Machine.execFastLoopSample p s
  | .mgmtEventRetry n => Sys2Proof.Machine.execMgmtEventRetry n s
  | .pldmRequest r => Sys2Proof.Machine.execPldmRequest r s
  | .mgmtDispatchRead first count => Sys2Proof.Machine.execMgmtDispatchRead first count s
  | .replaceRead => Sys2Proof.Machine.execReplaceRead s
  | .soundingRead first count => Sys2Proof.Machine.execSoundingRead first count s
  | .mgmtWarmReset => Sys2Proof.Machine.execMgmtWarmReset s
  | .mgmtStatus => Sys2Proof.Machine.execMgmtStatus s
  | .standbyExit => Sys2Proof.Machine.execStandbyExit s
  | .registerRead who target n => Sys2Proof.Machine.execRegisterRead who target n s
  | .illegalInstruction c t => Sys2Proof.Machine.execIllegalInstruction c t s
  | .kvtOperationComplete c n => Sys2Proof.Machine.execKvtOperationComplete c n s
  | .standbyEntryComplete => Sys2Proof.Machine.execStandbyEntryComplete s
  | .standbyExitComplete tests => Sys2Proof.Machine.execStandbyExitComplete tests s
  | .requalifyComplete t => Sys2Proof.Machine.execRequalifyComplete t s

end Sys2Proof.Machine
end

