-- ==== Sys2Proof/Machine/Idle.lean ====
section
/-! DEFINITION. What the block does while no command is waiting. -/

namespace Sys2Proof.Machine

/-- DESIGN CHOICE (log entry 1): with no command waiting, one cycle of the 100 MHz module reference passes, which
advances the time, and with it the tide time, by 10 ns (R43). -/
def idle (s : State) : State := (Eff.upd (.now (s.now + 10))).run s

end Sys2Proof.Machine
end

