-- ==== Sys2Proof/Machine/Parts.lean ====
section
/-! DEFINITION. The parts of the state by name, and what it means that nothing changed but some of them. -/

namespace Sys2Proof.Machine

/-- The parts of the state, one for each field but the queue. -/
inductive Part where
  | now
  | tideOff
  | freeCtr
  | out
  | regs
  | shadows
  | mem
  | check
  | marks
  | hostMem
  | msix
  | mgmtQ
  | mgmtDropped
  | mon
  | cache
  | tagLost
  | tracker
  | spares
  | remapNew
  | remapFlash
  | held
  | granted
  | heldParts
  | rxWait
  | boot
  | replaceFlash
  | gwOut
  | hopBuf
  | parityCount
  | gwSeq
  | gwSpray
  | sigQ
  | landQ
  | arrQ
  | relQ
  | waiters
  | waitSince
  | buRound
  | relSeen
  | tagNext
  | loads
  | icache
  | rrLast
  | thrStep
  | vecQ
  | qeQ
  | qeSubs
  | qeFlush
  | segQ
  | creditQ
  | routeSlot
  | stallSince
  | passQ
  | feedAt
  | refRow
  | scrubRun
  | buQ
  | buBuf
  | buBook
  | buSlot
  | yieldAt
  | kvtQ
  | kvtEnd
  | kvtMigQ
  | kvtMoves
  | kvtFrees
  | kvtStaged
  | gdRetrain
  | cmds
  | fetchAt
  | cqAgg
  | linkDown
  | pmKey
  | pmFlash
  | pmMark
  | tampered
  | offer
  | seqs
  | dispatchLog
  | dispatchFlash
  | franks
  | fuseLcy
  | ready
  | stageAt
  | agreed
  | perst
  | chart
  | chartLive
  | chartLoad
  | applyNow
  | flashAt
  | fwAt
  | hello
  | enrolled
  | resetAt
  | dlEnd
  | dlFail
  | dlOld
  | dlMoves
  | tideFirst
  | tideNext
  | tidePer
  | slackAt
  | edgeCut
  | slackFor
  | holdSince
  | overAt
  | stepEnd
  | stepAt
  | stepTime
  | edgeNom
  | stretchFor
  | announced
  | reports
  | reported
  | synced
  | syncAt
  | retirePend
  | restage
  | cutNew
  | gwNext
  | gwHold
  | gwRefused
  | xqDesc
  | bar2
  | power
  | suspects
  | disagreed
  | soundings
  | residuals
  | foretold
  | rotAt
  | ceCount
  | testFrom
  | gov
  | eid
  deriving DecidableEq, Repr

/-- The value of a part, with its type. -/
def State.val (s : State) : Part → (α : Type) × α
  | .now => ⟨_, s.now⟩
  | .tideOff => ⟨_, s.tideOff⟩
  | .freeCtr => ⟨_, s.freeCtr⟩
  | .out => ⟨_, s.out⟩
  | .regs => ⟨_, s.regs⟩
  | .shadows => ⟨_, s.shadows⟩
  | .mem => ⟨_, s.mem⟩
  | .check => ⟨_, s.check⟩
  | .marks => ⟨_, s.marks⟩
  | .hostMem => ⟨_, s.hostMem⟩
  | .msix => ⟨_, s.msix⟩
  | .mgmtQ => ⟨_, s.mgmtQ⟩
  | .mgmtDropped => ⟨_, s.mgmtDropped⟩
  | .mon => ⟨_, s.mon⟩
  | .cache => ⟨_, s.cache⟩
  | .tagLost => ⟨_, s.tagLost⟩
  | .tracker => ⟨_, s.tracker⟩
  | .spares => ⟨_, s.spares⟩
  | .remapNew => ⟨_, s.remapNew⟩
  | .remapFlash => ⟨_, s.remapFlash⟩
  | .held => ⟨_, s.held⟩
  | .granted => ⟨_, s.granted⟩
  | .heldParts => ⟨_, s.heldParts⟩
  | .rxWait => ⟨_, s.rxWait⟩
  | .boot => ⟨_, s.boot⟩
  | .replaceFlash => ⟨_, s.replaceFlash⟩
  | .gwOut => ⟨_, s.gwOut⟩
  | .hopBuf => ⟨_, s.hopBuf⟩
  | .parityCount => ⟨_, s.parityCount⟩
  | .gwSeq => ⟨_, s.gwSeq⟩
  | .gwSpray => ⟨_, s.gwSpray⟩
  | .sigQ => ⟨_, s.sigQ⟩
  | .landQ => ⟨_, s.landQ⟩
  | .arrQ => ⟨_, s.arrQ⟩
  | .relQ => ⟨_, s.relQ⟩
  | .waiters => ⟨_, s.waiters⟩
  | .waitSince => ⟨_, s.waitSince⟩
  | .buRound => ⟨_, s.buRound⟩
  | .relSeen => ⟨_, s.relSeen⟩
  | .tagNext => ⟨_, s.tagNext⟩
  | .loads => ⟨_, s.loads⟩
  | .icache => ⟨_, s.icache⟩
  | .rrLast => ⟨_, s.rrLast⟩
  | .thrStep => ⟨_, s.thrStep⟩
  | .vecQ => ⟨_, s.vecQ⟩
  | .qeQ => ⟨_, s.qeQ⟩
  | .qeSubs => ⟨_, s.qeSubs⟩
  | .qeFlush => ⟨_, s.qeFlush⟩
  | .segQ => ⟨_, s.segQ⟩
  | .creditQ => ⟨_, s.creditQ⟩
  | .routeSlot => ⟨_, s.routeSlot⟩
  | .stallSince => ⟨_, s.stallSince⟩
  | .passQ => ⟨_, s.passQ⟩
  | .feedAt => ⟨_, s.feedAt⟩
  | .refRow => ⟨_, s.refRow⟩
  | .scrubRun => ⟨_, s.scrubRun⟩
  | .buQ => ⟨_, s.buQ⟩
  | .buBuf => ⟨_, s.buBuf⟩
  | .buBook => ⟨_, s.buBook⟩
  | .buSlot => ⟨_, s.buSlot⟩
  | .yieldAt => ⟨_, s.yieldAt⟩
  | .kvtQ => ⟨_, s.kvtQ⟩
  | .kvtEnd => ⟨_, s.kvtEnd⟩
  | .kvtMigQ => ⟨_, s.kvtMigQ⟩
  | .kvtMoves => ⟨_, s.kvtMoves⟩
  | .kvtFrees => ⟨_, s.kvtFrees⟩
  | .kvtStaged => ⟨_, s.kvtStaged⟩
  | .gdRetrain => ⟨_, s.gdRetrain⟩
  | .cmds => ⟨_, s.cmds⟩
  | .fetchAt => ⟨_, s.fetchAt⟩
  | .cqAgg => ⟨_, s.cqAgg⟩
  | .linkDown => ⟨_, s.linkDown⟩
  | .pmKey => ⟨_, s.pmKey⟩
  | .pmFlash => ⟨_, s.pmFlash⟩
  | .pmMark => ⟨_, s.pmMark⟩
  | .tampered => ⟨_, s.tampered⟩
  | .offer => ⟨_, s.offer⟩
  | .seqs => ⟨_, s.seqs⟩
  | .dispatchLog => ⟨_, s.dispatchLog⟩
  | .dispatchFlash => ⟨_, s.dispatchFlash⟩
  | .franks => ⟨_, s.franks⟩
  | .fuseLcy => ⟨_, s.fuseLcy⟩
  | .ready => ⟨_, s.ready⟩
  | .stageAt => ⟨_, s.stageAt⟩
  | .agreed => ⟨_, s.agreed⟩
  | .perst => ⟨_, s.perst⟩
  | .chart => ⟨_, s.chart⟩
  | .chartLive => ⟨_, s.chartLive⟩
  | .chartLoad => ⟨_, s.chartLoad⟩
  | .applyNow => ⟨_, s.applyNow⟩
  | .flashAt => ⟨_, s.flashAt⟩
  | .fwAt => ⟨_, s.fwAt⟩
  | .hello => ⟨_, s.hello⟩
  | .enrolled => ⟨_, s.enrolled⟩
  | .resetAt => ⟨_, s.resetAt⟩
  | .dlEnd => ⟨_, s.dlEnd⟩
  | .dlFail => ⟨_, s.dlFail⟩
  | .dlOld => ⟨_, s.dlOld⟩
  | .dlMoves => ⟨_, s.dlMoves⟩
  | .tideFirst => ⟨_, s.tideFirst⟩
  | .tideNext => ⟨_, s.tideNext⟩
  | .tidePer => ⟨_, s.tidePer⟩
  | .slackAt => ⟨_, s.slackAt⟩
  | .edgeCut => ⟨_, s.edgeCut⟩
  | .slackFor => ⟨_, s.slackFor⟩
  | .holdSince => ⟨_, s.holdSince⟩
  | .overAt => ⟨_, s.overAt⟩
  | .stepEnd => ⟨_, s.stepEnd⟩
  | .stepAt => ⟨_, s.stepAt⟩
  | .stepTime => ⟨_, s.stepTime⟩
  | .edgeNom => ⟨_, s.edgeNom⟩
  | .stretchFor => ⟨_, s.stretchFor⟩
  | .announced => ⟨_, s.announced⟩
  | .reports => ⟨_, s.reports⟩
  | .reported => ⟨_, s.reported⟩
  | .synced => ⟨_, s.synced⟩
  | .syncAt => ⟨_, s.syncAt⟩
  | .retirePend => ⟨_, s.retirePend⟩
  | .restage => ⟨_, s.restage⟩
  | .cutNew => ⟨_, s.cutNew⟩
  | .gwNext => ⟨_, s.gwNext⟩
  | .gwHold => ⟨_, s.gwHold⟩
  | .gwRefused => ⟨_, s.gwRefused⟩
  | .xqDesc => ⟨_, s.xqDesc⟩
  | .bar2 => ⟨_, s.bar2⟩
  | .power => ⟨_, s.power⟩
  | .suspects => ⟨_, s.suspects⟩
  | .disagreed => ⟨_, s.disagreed⟩
  | .soundings => ⟨_, s.soundings⟩
  | .residuals => ⟨_, s.residuals⟩
  | .foretold => ⟨_, s.foretold⟩
  | .rotAt => ⟨_, s.rotAt⟩
  | .ceCount => ⟨_, s.ceCount⟩
  | .testFrom => ⟨_, s.testFrom⟩
  | .gov => ⟨_, s.gov⟩
  | .eid => ⟨_, s.eid⟩

/-- Nothing has changed but the listed parts (and nothing of the queue). -/
def changesOnly (ps : List Part) (s t : State) : Prop := t.pending = s.pending ∧ ∀ p, p ∉ ps → t.val p = s.val p

end Sys2Proof.Machine
end

