-- ==== Sys2Proof/Safety.lean ====
section
/-! DEFINITION. What a well-kept state is: every store in its canonical form. -/

namespace Sys2Proof.Machine

/-- The device memory is canonical: addresses strictly rising, no byte listed that reads as an unlisted one. -/
def Memory.wf (s : State) : Bool := Map.wf dfltMem s.mem

/-- Every store of the state is canonical. -/
def State.wf (s : State) : Bool :=
  Map.wf dfltRegs s.regs &&
  Map.wf dfltShadows s.shadows &&
  Map.wf dfltMem s.mem &&
  Map.wf dfltCheck s.check &&
  Map.wf dfltMarks s.marks &&
  Map.wf dfltHostMem s.hostMem &&
  Map.wf dfltMsix s.msix &&
  Map.wf dfltMon s.mon &&
  Map.wf dfltCache s.cache &&
  Map.wf dfltTagLost s.tagLost &&
  Map.wf dfltTracker s.tracker &&
  Map.wf dfltSpares s.spares &&
  Map.wf dfltHeld s.held &&
  Map.wf dfltGranted s.granted &&
  Map.wf dfltHeldParts s.heldParts &&
  Map.wf dfltRxWait s.rxWait &&
  Map.wf dfltHopBuf s.hopBuf &&
  Map.wf dfltParityCount s.parityCount &&
  Map.wf dfltGwSeq s.gwSeq &&
  Map.wf dfltGwSpray s.gwSpray &&
  Map.wf dfltWaiters s.waiters &&
  Map.wf dfltWaitSince s.waitSince &&
  Map.wf dfltBuRound s.buRound &&
  Map.wf dfltRelSeen s.relSeen &&
  Map.wf dfltLoads s.loads &&
  Map.wf dfltIcache s.icache &&
  Map.wf dfltRrLast s.rrLast &&
  Map.wf dfltThrStep s.thrStep &&
  Map.wf dfltVecQ s.vecQ &&
  Map.wf dfltQeQ s.qeQ &&
  Map.wf dfltQeSubs s.qeSubs &&
  Map.wf dfltQeFlush s.qeFlush &&
  Map.wf dfltRouteSlot s.routeSlot &&
  Map.wf dfltStallSince s.stallSince &&
  Map.wf dfltPassQ s.passQ &&
  Map.wf dfltFeedAt s.feedAt &&
  Map.wf dfltRefRow s.refRow &&
  Map.wf dfltScrubRun s.scrubRun &&
  Map.wf dfltBuQ s.buQ &&
  Map.wf dfltBuBuf s.buBuf &&
  Map.wf dfltBuBook s.buBook &&
  Map.wf dfltBuSlot s.buSlot &&
  Map.wf dfltYieldAt s.yieldAt &&
  Map.wf dfltKvtQ s.kvtQ &&
  Map.wf dfltKvtEnd s.kvtEnd &&
  Map.wf dfltKvtMigQ s.kvtMigQ &&
  Map.wf dfltKvtMoves s.kvtMoves &&
  Map.wf dfltKvtFrees s.kvtFrees &&
  Map.wf dfltKvtStaged s.kvtStaged &&
  Map.wf dfltGdRetrain s.gdRetrain &&
  Map.wf dfltFetchAt s.fetchAt &&
  Map.wf dfltCqAgg s.cqAgg &&
  Map.wf dfltLinkDown s.linkDown &&
  Map.wf dfltPmKey s.pmKey &&
  Map.wf dfltPmFlash s.pmFlash &&
  Map.wf dfltPmMark s.pmMark &&
  Map.wf dfltSeqs s.seqs &&
  Map.wf dfltDispatchLog s.dispatchLog &&
  Map.wf dfltFranks s.franks &&
  Map.wf dfltAgreed s.agreed &&
  Map.wf dfltPerst s.perst &&
  Map.wf dfltDlEnd s.dlEnd &&
  Map.wf dfltDlFail s.dlFail &&
  Map.wf dfltDlOld s.dlOld &&
  Map.wf dfltOverAt s.overAt &&
  Map.wf dfltStepEnd s.stepEnd &&
  Map.wf dfltStepAt s.stepAt &&
  Map.wf dfltGwNext s.gwNext &&
  Map.wf dfltGwHold s.gwHold &&
  Map.wf dfltGwRefused s.gwRefused &&
  Map.wf dfltXqDesc s.xqDesc &&
  Map.wf dfltBar2 s.bar2 &&
  Map.wf dfltSuspects s.suspects &&
  Map.wf dfltDisagreed s.disagreed &&
  Map.wf dfltSoundings s.soundings &&
  Map.wf dfltResiduals s.residuals &&
  Map.wf dfltForetold s.foretold &&
  Map.wf dfltRotAt s.rotAt &&
  Map.wf dfltCeCount s.ceCount

end Sys2Proof.Machine
end

