-- ==== Sys2Proof/Certificates/Slice0/Obligations.lean ====
section
/-! DEFINITION. The statements for the provers, in the order of the families of commands. `Sys2Proof.Claims` holds helper
definitions and the parts of those statements that have several parts. -/

namespace Sys2Proof.Claims
open Sys2Proof.Machine

/-- The command answers a next state, of which `post` holds. -/
def yields (i : Instr) (s : State) (post : State → Prop) : Prop := ∃ t, exec i s = .next t ∧ post t

/-- Every register of a cell, a bank unit, a vault or a die link keeps its value but those of the given keys. -/
def keepsLow (keys : List Nat) (s t : State) : Prop := ∀ k, k < 0x10000000 → k ∉ keys → t.regsAt k = s.regsAt k

/-- Every register keeps its value but those of the given keys. -/
def keepsRegs (keys : List Nat) (s t : State) : Prop := ∀ k, k ∉ keys → t.regsAt k = s.regsAt k

/-- Every register keeps its value but those of the given keys and what events are recorded in: the event collector and the
always-on watcher (pages 0x1003 and 0x1004) and PWR_STATE. -/
def keepsQuiet (keys : List Nat) (s t : State) : Prop :=
  ∀ k, (k < 0x10030000 ∨ 0x10050000 ≤ k) → k ≠ R.PWR_STATE → k ∉ keys → t.regsAt k = s.regsAt k

/-- Bytes of cell SRAM that the class `cq` owns, in banks that wait for no switch, and whose words carry no mark (R169–R172, R456). -/
def sramReady (s : State) (c off n : Nat) (cq : Nat × Nat) : Prop :=
  n ≠ 0 ∧ s.refusedBank c off n cq = none ∧ s.unsettled c off n = [] ∧ ∀ w ∈ wordsOf (sramAddr c off) n, s.marksAt (w / 8) = .good

/-- A DRAM word without an error: its check bits fit its data and its device has not failed (R201, R286). -/
def wordSound (s : State) (w : Nat) : Prop := s.decode w = .good ∧ (isExt w && s.gdFailed (extDev w)) = false

/-- Memory that an agent reaches at once and reads without an error: general SRAM or the accumulator store of a cell under the
agent's class, or vault memory that no lock, cache or bank unit stands before. -/
def memReady (s : State) (who : Agent) (a n : Nat) : Prop :=
  n ≠ 0 ∧ s.mapStatus a n = ST_OK ∧
  match regionOf a with
  | .sram c off => sramReady s c off n (s.accClass who c)
  | .vault _ => s.touchesLock a n = false ∧ s.cached a = false ∧ s.holder a n = none ∧ ∀ w ∈ wordsOf a n, wordSound s w
  | _ => False

/-- The bytes `bs` stand at `a`, and every other byte of the device memory is as before. -/
def stored (a : Nat) (bs : List Byte) (s t : State) : Prop :=
  ∀ x, t.memAt x = if a ≤ x ∧ x < a + bs.length then bs.getD (x - a) 0 else s.memAt x

/-- The agent's write of the register reaches it and its page accepts the agent (R28, R33). -/
def writable (who : Agent) (page off : Nat) (s : State) : Prop :=
  s.power ≠ .off ∧ s.mapStatus (regAddr page off) 8 = ST_OK ∧ mayWrite who page off = true

end Sys2Proof.Claims
open Sys2Proof Sys2Proof.Machine Sys2Proof.Claims

/-- A step with a command at the front of the queue is that command's effect on the state with the queue's rest. -/
def Obligations.StepRunsFront : Prop :=
  ∀ (c : Instr) (rest : List Instr) (s : State),
    step { s with pending := c :: rest } = exec c { s with pending := rest }

/-- On an empty queue one cycle of the 100 MHz reference passes and nothing else happens (the model's choice, log entry 1). -/
def Sys2Proof.Claims.IdleStep : Prop :=
  ∀ s : State, s.pending = [] → step s = .next { s with now := s.now + 10 }

/-- A command neither takes waiting commands nor adds any. -/
def Obligations.CommandsKeepQueue : Prop :=
  ∀ (c : Instr) (s : State), yields c s fun t => t.pending = s.pending

/-- Every step from a state whose stores are canonical leads to one whose stores are canonical. -/
def Obligations.StepKeepsCanonicalForm : Prop :=
  ∀ s t : State, s.wf = true → step s = .next t → t.wf = true

/-- The state after reset has its stores in canonical form. -/
def Obligations.ResetCanonicalForm : Prop := State.reset.wf = true

/-- A module without power does nothing but come up (the model's choice, log entry 166). -/
def Sys2Proof.Claims.OffModuleIgnores : Prop :=
  ∀ (c : Instr) (s : State), s.power = .off → c ≠ .powerApply → exec c s = .next s

/-- A step on an empty queue, and a module without power (the model's choices, log entries 1 and 166). -/
def Obligations.IdleAndOffSteps : Prop := Claims.IdleStep ∧ Claims.OffModuleIgnores

namespace Sys2Proof.Claims
open Sys2Proof.Machine

/-- The thread and the word (R157, R158) of a sequencer instruction. -/
def encoded : Instr → Option (Nat × Nat × Nat)
  | .seqNop c th d a b fn imm => some (c, th, seqWord 0x00 d a b fn imm)
  | .seqLi c th d a b fn imm => some (c, th, seqWord 0x01 d a b fn imm)
  | .seqLih c th d a b fn imm => some (c, th, seqWord 0x02 d a b fn imm)
  | .seqAdd c th d a b fn imm => some (c, th, seqWord 0x03 d a b fn imm)
  | .seqSub c th d a b fn imm => some (c, th, seqWord 0x04 d a b fn imm)
  | .seqMul c th d a b fn imm => some (c, th, seqWord 0x05 d a b fn imm)
  | .seqAnd c th d a b fn imm => some (c, th, seqWord 0x06 d a b fn imm)
  | .seqOr c th d a b fn imm => some (c, th, seqWord 0x07 d a b fn imm)
  | .seqXor c th d a b fn imm => some (c, th, seqWord 0x08 d a b fn imm)
  | .seqShl c th d a b fn imm => some (c, th, seqWord 0x09 d a b fn imm)
  | .seqShr c th d a b fn imm => some (c, th, seqWord 0x0A d a b fn imm)
  | .seqSra c th d a b fn imm => some (c, th, seqWord 0x0B d a b fn imm)
  | .seqSlt c th d a b fn imm => some (c, th, seqWord 0x0C d a b fn imm)
  | .seqSltu c th d a b fn imm => some (c, th, seqWord 0x0D d a b fn imm)
  | .seqLd c th d a b fn imm => some (c, th, seqWord 0x10 d a b fn imm)
  | .seqSt c th d a b fn imm => some (c, th, seqWord 0x11 d a b fn imm)
  | .seqBeq c th d a b fn imm => some (c, th, seqWord 0x18 d a b fn imm)
  | .seqBne c th d a b fn imm => some (c, th, seqWord 0x19 d a b fn imm)
  | .seqBlt c th d a b fn imm => some (c, th, seqWord 0x1A d a b fn imm)
  | .seqBge c th d a b fn imm => some (c, th, seqWord 0x1B d a b fn imm)
  | .seqJal c th d a b fn imm => some (c, th, seqWord 0x1C d a b fn imm)
  | .seqJr c th d a b fn imm => some (c, th, seqWord 0x1D d a b fn imm)
  | .seqPass c th d a b fn imm _ => some (c, th, seqWord 0x20 d a b fn imm)
  | .seqVop c th d a b fn imm => some (c, th, seqWord 0x21 d a b fn imm)
  | .seqQe c th d a b fn imm _ => some (c, th, seqWord 0x22 d a b fn imm)
  | .seqBuc c th d a b fn imm _ => some (c, th, seqWord 0x23 d a b fn imm)
  | .seqSignal c th d a b fn imm => some (c, th, seqWord 0x24 d a b fn imm)
  | .seqWait c th d a b fn imm => some (c, th, seqWord 0x25 d a b fn imm)
  | .seqArrive c th d a b fn imm => some (c, th, seqWord 0x26 d a b fn imm)
  | .seqOwn c th d a b fn imm => some (c, th, seqWord 0x27 d a b fn imm)
  | .seqFence c th d a b fn imm => some (c, th, seqWord 0x28 d a b fn imm)
  | .seqHeadEnd c th d a b fn imm => some (c, th, seqWord 0x30 d a b fn imm)
  | .seqStepEnd c th d a b fn imm => some (c, th, seqWord 0x31 d a b fn imm)
  | .seqRdstep c th d a b fn imm => some (c, th, seqWord 0x32 d a b fn imm)
  | .seqRdtime c th d a b fn imm => some (c, th, seqWord 0x33 d a b fn imm)
  | .seqTrap c th d a b fn imm => some (c, th, seqWord 0x3F d a b fn imm)
  | _ => none

/-- Thread `th` of cell `c` issues the word `w` next: the module has power, the thread runs and waits for no store's response, its
cell's instruction cache holds `w` at its pc, the engine that `w` names takes it, none of the registers of `w` awaits a load, and
no ready thread comes before it (R153, R154). -/
def ready (s : State) (c th w : Nat) : Prop :=
  s.power ≠ .off ∧ s.thr c th = THR_RUN ∧ s.storeWait c th = false ∧ s.fetchWord c th = some w ∧ s.engineTakes c w = true ∧
  (∀ i ∈ wordUses w, s.regBusy c th i = false) ∧ s.turn c th = true

/-- Where its thread issues the instruction's word, the instruction answers a next state, of which `post` holds. -/
def issues (i : Instr) (s : State) (post : State → Prop) : Prop :=
  ∀ c th w, encoded i = some (c, th, w) → ready s c th w → yields i s post

/-- Nothing has changed but registers, the order of instruction-cache lines and the thread that issued last. -/
def restKept (s t : State) : Prop := changesOnly [.regs, .icache, .rrLast] s t

/-- Register `d` of the thread has taken `v` (s0 stays 0), the pc has gone to `pc`, and nothing else has changed. -/
def seqDone (c th d : Nat) (v : Word) (pc : Nat) (s t : State) : Prop :=
  t.sreg c th d = (if d = 0 then 0 else v) ∧ t.pc c th = pc % 2 ^ 48 ∧
  (∀ k, k ≠ R.SEQ_THR_PC c th → (k ≠ R.SEQ_THR_REG c th d ∨ d = 0) → t.regsAt k = s.regsAt k) ∧ restKept s t

/-- The thread is trapped at the instruction it was about to issue, with the cause, status and address recorded and the trap
source of its cell asserted; no other register of a cell changes, and nothing else but what tells of events. -/
def trapped (c th cause st addr : Nat) (s t : State) : Prop :=
  t.thr c th = THR_TRAPPED ∧ t.get (R.SEQ_THR_STATUS_trap_cause c th) = cause ∧
  t.get (R.SEQ_THR_STATUS_trap_status c th) = st ∧ t.get (R.SEQ_THR_FAULT_addr c th) = addr % 2 ^ 48 ∧
  t.pc c th = s.pc c th ∧ t.get (R.SEQ_THR_NEXT_next_pc c th) = s.pc c th ∧
  t.bit (R.EVC_ROUTE_asserted (c * 8)) = true ∧
  keepsQuiet [R.SEQ_THR_STATUS c th, R.SEQ_THR_FAULT c th, R.SEQ_THR_NEXT c th] s t ∧
  changesOnly [.regs, .icache, .rrLast, .msix, .mgmtQ, .out] s t

/-- The sequencer instructions with the function bits that each defines (R157, R158). -/
def seqForms (c : Fin 128) (th : Fin 16) (d a b : Fin 32) (fn : BitVec 9) (imm : BitVec 32) (x : Fin 6) : List (Nat × Instr) := [
  (0, .seqNop c th d a b fn imm), (0, .seqLi c th d a b fn imm), (0, .seqLih c th d a b fn imm), (0, .seqAdd c th d a b fn imm),
  (0, .seqSub c th d a b fn imm), (0, .seqMul c th d a b fn imm), (0, .seqAnd c th d a b fn imm), (0, .seqOr c th d a b fn imm),
  (0, .seqXor c th d a b fn imm), (0, .seqShl c th d a b fn imm), (0, .seqShr c th d a b fn imm), (0, .seqSra c th d a b fn imm),
  (0, .seqSlt c th d a b fn imm), (0, .seqSltu c th d a b fn imm), (7, .seqLd c th d a b fn imm), (11, .seqSt c th d a b fn imm),
  (0, .seqBeq c th d a b fn imm), (0, .seqBne c th d a b fn imm), (0, .seqBlt c th d a b fn imm), (0, .seqBge c th d a b fn imm),
  (0, .seqJal c th d a b fn imm), (0, .seqJr c th d a b fn imm), (0, .seqPass c th d a b fn imm x), (255, .seqVop c th d a b fn imm),
  (0, .seqQe c th d a b fn imm x), (1, .seqBuc c th d a b fn imm x), (0, .seqSignal c th d a b fn imm),
  (0, .seqWait c th d a b fn imm), (1, .seqArrive c th d a b fn imm), (0, .seqOwn c th d a b fn imm), (31, .seqFence c th d a b fn imm),
  (0, .seqHeadEnd c th d a b fn imm), (0, .seqStepEnd c th d a b fn imm), (0, .seqRdstep c th d a b fn imm),
  (0, .seqRdtime c th d a b fn imm), (0, .seqTrap c th d a b fn imm)]

end Sys2Proof.Claims

/-- NOP, the loads of an immediate, arithmetic, logic, shifts, comparisons and the reads of the step number and of the tide time
give their results; nothing else changes. -/
def Sys2Proof.Claims.SeqScalarResults : Prop :=
  ∀ (c : Fin 128) (th : Fin 16) (d a b : Fin 32) (imm : BitVec 32) (s : State),
    let x := s.sreg c th a
    let y := s.sreg c th b
    let n := (y + imm.signExtend 64).toNat % 64
    let next := s.pc c th + 8
    issues (.seqNop c th d a b 0 imm) s (seqDone c th 0 0 next s) ∧
    issues (.seqLi c th d a b 0 imm) s (seqDone c th d (imm.signExtend 64) next s) ∧
    issues (.seqLih c th d a b 0 imm) s (seqDone c th d (imm ++ (s.sreg c th d).setWidth 32) next s) ∧
    issues (.seqAdd c th d a b 0 imm) s (seqDone c th d (x + y + imm.signExtend 64) next s) ∧
    issues (.seqSub c th d a b 0 imm) s (seqDone c th d (x - y) next s) ∧
    issues (.seqMul c th d a b 0 imm) s (seqDone c th d (x * y) next s) ∧
    issues (.seqAnd c th d a b 0 imm) s (seqDone c th d (x &&& y) next s) ∧
    issues (.seqOr c th d a b 0 imm) s (seqDone c th d (x ||| y) next s) ∧
    issues (.seqXor c th d a b 0 imm) s (seqDone c th d (x ^^^ y) next s) ∧
    issues (.seqShl c th d a b 0 imm) s (seqDone c th d (x <<< n) next s) ∧
    issues (.seqShr c th d a b 0 imm) s (seqDone c th d (x >>> n) next s) ∧
    issues (.seqSra c th d a b 0 imm) s (seqDone c th d (x.sshiftRight n) next s) ∧
    issues (.seqSlt c th d a b 0 imm) s (seqDone c th d (if x.toInt < y.toInt then 1 else 0) next s) ∧
    issues (.seqSltu c th d a b 0 imm) s (seqDone c th d (if x.toNat < y.toNat then 1 else 0) next s) ∧
    issues (.seqRdstep c th d a b 0 imm) s
      (seqDone c th d (BitVec.ofNat 64 (s.thrStepAt (c.val * 16 + th.val))) next s) ∧
    issues (.seqRdtime c th d a b 0 imm) s (seqDone c th d (BitVec.ofNat 64 s.tideTime) next s)

/-- Branches and jumps: where the pc goes, and the link that JAL and JR leave. -/
def Sys2Proof.Claims.SeqControlFlow : Prop :=
  ∀ (c : Fin 128) (th : Fin 16) (d a b : Fin 32) (imm : BitVec 32) (s : State),
    let x := (s.sreg c th a).toInt
    let y := (s.sreg c th b).toInt
    let next := s.pc c th + 8
    let away := (((s.pc c th : Int) + imm.toInt * 8) % 2 ^ 48).toNat
    let target := (s.sreg c th a + imm.signExtend 64).toNat
    issues (.seqBeq c th d a b 0 imm) s (seqDone c th 0 0 (if x = y then away else next) s) ∧
    issues (.seqBne c th d a b 0 imm) s (seqDone c th 0 0 (if x ≠ y then away else next) s) ∧
    issues (.seqBlt c th d a b 0 imm) s (seqDone c th 0 0 (if x < y then away else next) s) ∧
    issues (.seqBge c th d a b 0 imm) s (seqDone c th 0 0 (if y ≤ x then away else next) s) ∧
    issues (.seqJal c th d a b 0 imm) s (seqDone c th d (BitVec.ofNat 64 next) away s) ∧
    (target % 8 = 0 → issues (.seqJr c th d a b 0 imm) s (seqDone c th d (BitVec.ofNat 64 next) target s))

/-- Scalar sequencer instructions and branches complete with their results. -/
def Obligations.SeqScalarAndBranches : Prop := Claims.SeqScalarResults ∧ Claims.SeqControlFlow

/-- TRAP, an unknown opcode, an undefined function bit, a jump to no multiple of 8 and the postbox and bank numbers that do not
exist trap the thread. -/
def Obligations.SeqTraps : Prop :=
  ∀ (c : Fin 128) (th : Fin 16) (d a b : Fin 32) (fn : BitVec 9) (imm : BitVec 32) (x : Fin 6) (s : State),
    let pc := s.pc c th
    let target := (s.sreg c th a + imm.signExtend 64).toNat
    issues (.seqTrap c th d a b 0 imm) s (fun t =>
      trapped c th 0x0A ST_SEQ_TRAP pc s t ∧ t.get (R.SEQ_THR_STATUS_trap_imm c th) = imm.toNat % 256) ∧
    (∀ w, ready s c th w → opKnown (w % 2 ^ 8) = false → yields (.illegalInstruction c th) s (trapped c th 0x01 ST_BAD_ARG pc s)) ∧
    (∀ row ∈ seqForms c th d a b fn imm x, Nat.land fn.toNat row.1 ≠ fn.toNat →
      issues row.2 s (trapped c th 0x01 ST_BAD_ARG pc s)) ∧
    (target % 8 ≠ 0 → issues (.seqJr c th d a b 0 imm) s (trapped c th 0x02 ST_ALIGN target s)) ∧
    (47 < imm.toNat % 64 → issues (.seqWait c th d a b 0 imm) s (trapped c th 0x01 ST_BAD_ARG pc s)) ∧
    (23 < imm.toNat % 32 → issues (.seqOwn c th d a b 0 imm) s (trapped c th 0x01 ST_BAD_ARG pc s))

/-- WAIT: a met wait consumes its thresholds and the thread goes on; one that is not met puts the thread in WAIT. -/
def Sys2Proof.Claims.SeqWaitOutcomes : Prop :=
  ∀ (c : Fin 128) (th : Fin 16) (d a b : Fin 32) (imm : BitVec 32) (s : State),
    let n := imm.toNat % 64
    let v := (s.sreg c th a).toNat % 2 ^ 16
    let l := (s.sreg c th b).toNat % 2 ^ 32
    n < 48 →
    (v ≤ s.get (R.PBX_VALUE_value c n) ∧ l ≤ s.get (R.PBX_LANDED_landed c n) →
      issues (.seqWait c th d a b 0 imm) s fun t =>
        t.get (R.PBX_VALUE_value c n) = s.get (R.PBX_VALUE_value c n) - v ∧
        t.get (R.PBX_LANDED_landed c n) = s.get (R.PBX_LANDED_landed c n) - l ∧
        t.pc c th = (s.pc c th + 8) % 2 ^ 48 ∧ t.thr c th = THR_RUN ∧
        keepsRegs [R.PBX_VALUE c n, R.PBX_LANDED c n, R.SEQ_THR_PC c th] s t ∧ restKept s t) ∧
    (¬(v ≤ s.get (R.PBX_VALUE_value c n) ∧ l ≤ s.get (R.PBX_LANDED_landed c n)) →
      issues (.seqWait c th d a b 0 imm) s fun t =>
        t.thr c th = THR_WAIT ∧ t.pc c th = s.pc c th ∧
        t.waitersAt (c * 48 + n) = s.waitersAt (c * 48 + n) ++ [th.val] ∧ t.regBit (R.PBX_VALUE c n) (32 + th) = true ∧
        t.get (R.PBX_VALUE_value c n) = s.get (R.PBX_VALUE_value c n) ∧
        t.get (R.PBX_THR_WAIT_target c th) = n ∧ t.bit (R.PBX_THR_WAIT_waiting c th) = true ∧
        t.bit (R.PBX_THR_WAIT_sleeping c th) = false ∧ t.get (R.PBX_THR_WAIT_v c th) = v ∧
        t.get (R.PBX_THR_WAIT_b c th) = l ∧ t.waitSinceAt (c * 16 + th) = s.now ∧
        keepsQuiet [R.PBX_VALUE c n, R.PBX_THR_WAIT c th, R.SEQ_THR_STATUS c th] s t ∧
        changesOnly [.regs, .icache, .rrLast, .waiters, .waitSince, .msix, .mgmtQ, .out] s t)

/-- SIGNAL and ARRIVE: a signal or an arrival sets out; the thread goes on, or sleeps. -/
def Sys2Proof.Claims.SeqSignalArrive : Prop :=
  ∀ (c : Fin 128) (th : Fin 16) (d a b : Fin 32) (imm : BitVec 32) (s : State),
    let x := (s.sreg c th a).toNat
    let w := imm.toNat % 64
    let next := (s.pc c th + 8) % 2 ^ 48
    (x / 2 ^ 13 % 2 = 0 → issues (.seqSignal c th d a b 0 imm) s fun t =>
      t.sigQ = s.sigQ ++ [⟨c * 16 + th, c, x % 2 ^ 13, imm.toNat % 2 ^ 16, s.now⟩] ∧ t.pc c th = next ∧
      keepsRegs [R.SEQ_THR_PC c th] s t ∧ changesOnly [.regs, .icache, .rrLast, .sigQ] s t) ∧
    (x / 2 ^ 13 % 2 = 1 ∧ s.gwReach (x / 2 ^ 14 % 2 ^ 16) = false → issues (.seqSignal c th d a b 0 imm) s fun t =>
      t.get (R.PBX_COUNTS_signals_dropped c) = min (s.get (R.PBX_COUNTS_signals_dropped c) + 1) 65535 ∧
      t.get (R.PBX_COUNTS_last_drop_status c) = ST_REMOTE_UNREACHABLE ∧ t.pc c th = next ∧
      keepsRegs [R.PBX_COUNTS c, R.SEQ_THR_PC c th] s t ∧ restKept s t) ∧
    (x / 2 ^ 13 % 2 = 1 ∧ s.gwReach (x / 2 ^ 14 % 2 ^ 16) = true → issues (.seqSignal c th d a b 0 imm) s fun t =>
      (∃ p, t.gwOut = s.gwOut ++ [p] ∧ p.kind = 0x03 ∧ p.vc = 2 ∧ p.dest = x / 2 ^ 14 % 2 ^ 16 ∧
        p.args = x % 2 ^ 13 + imm.toNat % 2 ^ 16 * 2 ^ 16 ∧ p.payload = []) ∧ t.pc c th = next ∧
      changesOnly [.regs, .icache, .rrLast, .gwOut, .hopBuf, .gwSeq, .gwSpray, .out] s t) ∧
    issues (.seqArrive c th d a b 0 imm) s (fun t =>
      t.arrQ = s.arrQ ++ [⟨w, c * 16 + th, none⟩] ∧ t.pc c th = next ∧
      keepsRegs [R.SEQ_THR_PC c th] s t ∧ changesOnly [.regs, .icache, .rrLast, .arrQ] s t) ∧
    issues (.seqArrive c th d a b 1 imm) s (fun t =>
      t.arrQ = s.arrQ ++ [⟨w, c * 16 + th, some (c, th)⟩] ∧ t.thr c th = THR_WAIT ∧ t.pc c th = s.pc c th ∧
      t.bit (R.PBX_THR_WAIT_sleeping c th) = true ∧ t.get (R.PBX_THR_WAIT_target c th) = w ∧
      keepsQuiet [R.PBX_THR_WAIT c th, R.SEQ_THR_STATUS c th] s t ∧
      changesOnly [.regs, .icache, .rrLast, .arrQ, .waitSince, .msix, .mgmtQ, .out] s t)

/-- WAIT, SIGNAL and ARRIVE of a thread. -/
def Obligations.SeqSynchronisation : Prop := Claims.SeqWaitOutcomes ∧ Claims.SeqSignalArrive

namespace Sys2Proof.Claims
open Sys2Proof.Machine

/-- A postbox after additions: its counts, its flags and who added last (R293, R294, R297). -/
def postbox (t : State) (c n value landed : Nat) (ovf landOvf : Bool) (src edge : Nat) : Prop :=
  t.get (R.PBX_VALUE_value c n) = value ∧ t.get (R.PBX_LANDED_landed c n) = landed ∧
  t.bit (R.PBX_VALUE_ovf c n) = ovf ∧ t.bit (R.PBX_VALUE_land_ovf c n) = landOvf ∧
  t.get (R.PBX_LAST_last_src c n) = src ∧ t.get (R.PBX_LAST_last_edge c n) = edge

/-- The postbox without waiters takes a signal of `add` from `src` (R294, R297); an overflow is counted and no other register
changes but what events are recorded in. -/
def signalled (c n add src : Nat) (s t : State) : Prop :=
  let v := s.get (R.PBX_VALUE_value c n) + add
  postbox t c n (min v 65535) (s.get (R.PBX_LANDED_landed c n)) (s.bit (R.PBX_VALUE_ovf c n) || decide (65535 < v))
    (s.bit (R.PBX_VALUE_land_ovf c n)) (src % 2 ^ 16) (s.get R.TIDE_EDGE_NUM_edge % 2 ^ 32) ∧
  t.get (R.PBX_COUNTS_overflows c) = min (s.get (R.PBX_COUNTS_overflows c) + if 65535 < v then 1 else 0) 65535 ∧
  keepsQuiet [R.PBX_VALUE c n, R.PBX_LAST c n, R.PBX_COUNTS c] s t

/-- A signal or notice is dropped: the sender's cell counts it under a status (R314). -/
def dropped (c st : Nat) (s t : State) : Prop :=
  t.get (R.PBX_COUNTS_signals_dropped c) = min (s.get (R.PBX_COUNTS_signals_dropped c) + 1) 65535 ∧
  t.get (R.PBX_COUNTS_last_drop_status c) = st ∧ keepsRegs [R.PBX_COUNTS c] s t

end Sys2Proof.Claims

/-- The oldest signal and the oldest landing notice under way, with those that set out for the same postbox at the same time (the
model's choice for 'in the same ck', log entry 249): what they add, and why they are dropped. -/
def Sys2Proof.Claims.PostboxDelivery : Prop :=
  ∀ s : State, s.power ≠ .off →
    (∀ (g : Sig) (rest : List Sig), s.sigQ = g :: rest →
      let r := takeSame Sig.key g s.sigQ
      let sum := (r.1.map Sig.add).sum
      (s.pbxStatus g.pbx = ST_OK → 0 < sum → s.waitersAt g.pbx = [] →
        yields .postboxSignal s fun t => t.sigQ = r.2 ∧ signalled (g.pbx / 48) (g.pbx % 48) sum (sumSrc r.1) s t ∧
          changesOnly [.sigQ, .regs, .msix, .mgmtQ, .out] s t) ∧
      (s.pbxStatus g.pbx = ST_OK → sum = 0 →
        yields .postboxSignal s fun t => t.sigQ = r.2 ∧ changesOnly [.sigQ] s t) ∧
      (s.pbxStatus g.pbx ≠ ST_OK →
        yields .postboxSignal s fun t => t.sigQ = r.2 ∧
          (∀ c, t.get (R.PBX_COUNTS_signals_dropped c) = min (s.get (R.PBX_COUNTS_signals_dropped c) +
            (r.1.filter fun x => x.cell == c).length) 65535) ∧
          (∀ x ∈ r.1, t.get (R.PBX_COUNTS_last_drop_status x.cell) = s.pbxStatus g.pbx) ∧
          keepsRegs (r.1.map fun x => R.PBX_COUNTS x.cell) s t ∧ changesOnly [.sigQ, .regs] s t)) ∧
    (∀ (g : Landing) (rest : List Landing), s.landQ = g :: rest →
      let r := takeSame Landing.key g s.landQ
      let ends := r.1.filterMap Landing.cell
      (s.pbxStatus g.pbx = ST_OK → s.waitersAt g.pbx = [] →
        let c := g.pbx / 48
        let n := g.pbx % 48
        let v := s.get (R.PBX_LANDED_landed c n) + (r.1.map Landing.bytes).sum
        yields .landingNotice s fun t => t.landQ = r.2 ∧
          postbox t c n (s.get (R.PBX_VALUE_value c n)) (min v 0xFFFFFFFF) (s.bit (R.PBX_VALUE_ovf c n))
            (s.bit (R.PBX_VALUE_land_ovf c n) || decide (0xFFFFFFFF < v)) (s.get (R.PBX_LAST_last_src c n))
            (s.get (R.PBX_LAST_last_edge c n)) ∧
          t.get (R.PBX_COUNTS_overflows c) =
            min (s.get (R.PBX_COUNTS_overflows c) + if 0xFFFFFFFF < v then 1 else 0) 65535 ∧
          keepsQuiet [R.PBX_VALUE c n, R.PBX_LANDED c n, R.PBX_COUNTS c] s t ∧
          changesOnly [.landQ, .regs, .msix, .mgmtQ, .out] s t) ∧
      (s.pbxStatus g.pbx ≠ ST_OK →
        yields .landingNotice s fun t => t.landQ = r.2 ∧
          (∀ c, t.get (R.PBX_COUNTS_signals_dropped c) = min (s.get (R.PBX_COUNTS_signals_dropped c) +
            (ends.filter fun x => x == c).length) 65535) ∧
          (∀ x ∈ ends, t.get (R.PBX_COUNTS_last_drop_status x) = s.pbxStatus g.pbx) ∧
          keepsRegs (ends.map fun x => R.PBX_COUNTS x) s t ∧ changesOnly [.landQ, .regs] s t))

/-- Which postboxes cannot be reached, and under what status a signal to them is dropped. -/
def Sys2Proof.Claims.PostboxReach : Prop :=
  ∀ (s : State) (g : Nat),
    (6143 < g → s.pbxStatus g = ST_ADDR_UNMAPPED) ∧
    (g ≤ 6143 → s.standby = true → s.pbxStatus g = ST_DIE_STANDBY) ∧
    (g ≤ 6143 → s.diesOff = false → s.cellRetired (g / 48) = true → s.pbxStatus g = ST_UNIT_RETIRED) ∧
    (g ≤ 6143 → s.diesOff = false → s.cellRetired (g / 48) = false → s.pbxStatus g = ST_OK)

/-- A signal, with those of the same ck (log entry 249), that meets the thresholds of the one waiting thread releases it and is consumed; one that does not meet them stays
in the postbox. -/
def Sys2Proof.Claims.SignalReleasesWaiter : Prop :=
  ∀ (s : State) (g : Sig) (rest : List Sig) (th : Fin 16), s.power ≠ .off → s.sigQ = g :: rest →
    let add := ((takeSame Sig.key g s.sigQ).1.map Sig.add).sum
    s.pbxStatus g.pbx = ST_OK → 0 < add → s.waitersAt g.pbx = [th.val] →
    let c := g.pbx / 48
    let n := g.pbx % 48
    let v := s.get (R.PBX_VALUE_value c n) + add
    let want := s.get (R.PBX_THR_WAIT_v c th)
    let bytes := s.get (R.PBX_THR_WAIT_b c th)
    s.get (R.PBX_THR_WAIT_target c th) = n → v ≤ 65535 →
    (want ≤ v → bytes ≤ s.get (R.PBX_LANDED_landed c n) → yields .postboxSignal s fun t =>
      t.get (R.PBX_VALUE_value c n) = v - want ∧
      t.get (R.PBX_LANDED_landed c n) = s.get (R.PBX_LANDED_landed c n) - bytes ∧ t.waitersAt g.pbx = [] ∧
      t.thr c th = THR_RUN ∧ t.pc c th = (s.pc c th + 8) % 2 ^ 48 ∧
      changesOnly [.sigQ, .regs, .waiters, .waitSince, .mon, .msix, .mgmtQ, .out] s t) ∧
    (v < want ∨ s.get (R.PBX_LANDED_landed c n) < bytes → yields .postboxSignal s fun t =>
      t.get (R.PBX_VALUE_value c n) = v ∧ t.waitersAt g.pbx = [th.val] ∧ t.thr c th = s.thr c th ∧
      t.pc c th = s.pc c th ∧ changesOnly [.sigQ, .regs] s t)

/-- Writes of PBX_SIGNAL and PBX_RESET: by agents that may make them, and by others. -/
def Sys2Proof.Claims.PostboxRegisters : Prop :=
  ∀ (who : Agent) (c : Fin 128) (n : Fin 64) (x : BitVec 16) (s : State),
    (writable who (c * 16 + 7) 0x600 s →
      (outerAgent who = true → n.val < 48 → 0 < x.toNat → s.waitersAt (c * 48 + n) = [] →
        yields (.pbxSignal who c n x) s fun t => signalled c n x.toNat (srcWriter who) s t ∧
          changesOnly [.regs, .msix, .mgmtQ, .out] s t) ∧
      (outerAgent who = true → 48 ≤ n.val → yields (.pbxSignal who c n x) s fun t => changesOnly [.out] s t) ∧
      (outerAgent who = false → yields (.pbxSignal who c n x) s fun t =>
        t.get (R.PBX_COUNTS_last_drop_status c) = ST_PAGE_PROTECTED ∧ keepsRegs [R.PBX_COUNTS c] s t ∧
        t.out = .reply ST_PAGE_PROTECTED [] :: s.out ∧ changesOnly [.regs, .out] s t)) ∧
    (writable who (c * 16 + 7) 0x608 s →
      (coreAgent who = true → n.val < 48 → s.waitersAt (c * 48 + n) = [] →
        yields (.pbxReset who c n x) s fun t =>
          postbox t c n x.toNat 0 false false (s.get (R.PBX_LAST_last_src c n)) (s.get (R.PBX_LAST_last_edge c n)) ∧
          keepsRegs [R.PBX_VALUE c n, R.PBX_LANDED c n] s t ∧ t.out = .reply ST_OK [] :: s.out ∧
          changesOnly [.regs, .out] s t) ∧
      (coreAgent who = false → yields (.pbxReset who c n x) s fun t =>
        t.get (R.PBX_COUNTS_last_drop_status c) = ST_PAGE_PROTECTED ∧
        t.get (R.PBX_VALUE_value c n) = s.get (R.PBX_VALUE_value c n) ∧ changesOnly [.regs, .msix, .mgmtQ, .out] s t))

/-- Signals and landing notices at a postbox, and the writes of PBX_SIGNAL and PBX_RESET. -/
def Obligations.Postboxes : Prop :=
  Claims.PostboxDelivery ∧ Claims.PostboxReach ∧ Claims.SignalReleasesWaiter ∧ Claims.PostboxRegisters

/-- Arrivals at a seawall of this module: counted, released when complete, or refused; and the release in a member cell. -/
def Obligations.SeawallSteps : Prop :=
  ∀ s : State, s.power ≠ .off →
    (∀ (a : Arrival) (rest : List Arrival), s.arrQ = a :: rest → a.wall < 64 → s.wallStatus a.wall a.src = ST_OK →
      s.bit (R.SWL_CFG_group a.wall) = false → s.get (R.SWL_STATE_arrived a.wall) < 4095 →
      let w := a.wall
      let n := s.get (R.SWL_STATE_arrived w) + 1
      yields .seawallArrival s fun t =>
        t.arrQ = rest ∧ t.get (R.SWL_STATE_last_src w) = a.src % 2 ^ 16 ∧
        (if s.get (R.SWL_CFG_expected w) ≤ n then
          t.get (R.SWL_STATE_arrived w) = 0 ∧
          t.get (R.SWL_STATE_generation w) = (s.get (R.SWL_STATE_generation w) + 1) % 2 ^ 16 ∧
          t.relQ = s.relQ ++ ((List.range 128).filter fun c => s.wallMember w c).map fun c => (c, w)
        else t.get (R.SWL_STATE_arrived w) = n ∧
          t.get (R.SWL_STATE_generation w) = s.get (R.SWL_STATE_generation w) ∧ t.relQ = s.relQ) ∧
        keepsRegs [R.SWL_STATE w] s t ∧ changesOnly [.arrQ, .regs, .relQ] s t) ∧
    (∀ (a : Arrival) (rest : List Arrival), s.arrQ = a :: rest → a.wall < 64 → s.wallStatus a.wall a.src ≠ ST_OK →
      a.sleeper = none →
      yields .seawallArrival s fun t =>
        t.arrQ = rest ∧ t.get R.SWL_FAULT_refused = min (s.get R.SWL_FAULT_refused + 1) 65535 ∧
        t.get R.SWL_FAULT_last_s = a.wall ∧ t.get R.SWL_FAULT_last_src = a.src % 2 ^ 16 ∧
        t.get R.SWL_FAULT_last_status = s.wallStatus a.wall a.src ∧ keepsQuiet [R.SWL_FAULT] s t ∧
        changesOnly [.arrQ, .regs, .msix, .mgmtQ, .out] s t) ∧
    (∀ (who : Agent) (w : Fin 64), writable who 0x1002 0x800 s → s.wallStatus w (srcWriter who) = ST_OK →
      s.bit (R.SWL_CFG_group w) = false → s.get (R.SWL_STATE_arrived w) + 1 < s.get (R.SWL_CFG_expected w) →
      yields (.swlArrive who w) s fun t =>
        t.get (R.SWL_STATE_arrived w) = s.get (R.SWL_STATE_arrived w) + 1 ∧
        t.get (R.SWL_STATE_last_src w) = srcWriter who ∧ keepsRegs [R.SWL_STATE w] s t ∧ changesOnly [.regs, .out] s t) ∧
    (∀ (c : Fin 128) (w : Nat) (th : Fin 16), w < 64 → s.relQ.find? (fun r => r.1 == c.val) = some (c.val, w) →
      48 ≤ s.get (R.SWL_CFG_release_pbx w) →
      yields (.seawallRelease c) s fun t =>
        t.relQ = s.relQ.erase (c.val, w) ∧ t.relSeenAt (c * 64 + w) = s.relSeenAt (c * 64 + w) + 1 ∧
        (s.sleepsAt c th w = true → t.thr c th = THR_RUN ∧ t.pc c th = (s.pc c th + 8) % 2 ^ 48) ∧
        (s.sleepsAt c th w = false → t.thr c th = s.thr c th ∧ t.pc c th = s.pc c th))

/-- FENCE, HEAD_END and STEP_END: when the thread goes on, and when it waits. -/
def Sys2Proof.Claims.SeqStepSections : Prop :=
  ∀ (c : Fin 128) (th : Fin 16) (d a b : Fin 32) (fn : BitVec 9) (imm : BitVec 32) (dist : Nat) (s : State),
    let n := s.thrStepAt (c * 16 + th)
    let next := (s.pc c th + 8) % 2 ^ 48
    let busy := (fn.toNat.testBit 0 = true ∧ s.storesOut c th = true) ∨
      (fn.toNat.testBit 1 = true ∧ (s.passesOut c th fun _ => true) = true) ∨ (fn.toNat.testBit 2 = true ∧ s.vecOut c th = true) ∨
      (fn.toNat.testBit 3 = true ∧ (s.qeOut c th fun _ => true) = true) ∨
      (fn.toNat.testBit 4 = true ∧ (s.buWork c th fun _ => true) = true)
    (fn.toNat < 32 → ¬busy → issues (.seqFence c th d a b fn imm) s fun t =>
      t.pc c th = next ∧ keepsRegs [R.SEQ_THR_PC c th] s t ∧ restKept s t) ∧
    (fn.toNat < 32 → busy → issues (.seqFence c th d a b fn imm) s fun t => changesOnly [.icache, .rrLast] s t) ∧
    (chartDistrictOf s.chartLive c = some dist → s.bit (R.SEQ_THR_CFG_active c th) = true →
      (n = s.tideFirst ∨ n = 0 ∨ s.stepDone dist (n - 1) = true → issues (.seqHeadEnd c th d a b 0 imm) s fun t =>
        t.sreg c th d = (if d.val = 0 then 0 else BitVec.ofNat 64 (batchTable s.chartLive dist n)) ∧
        t.get (R.SEQ_THR_STATUS_section c th) = 1 ∧ t.thr c th = THR_RUN ∧ t.pc c th = next ∧
        keepsRegs [R.SEQ_THR_REG c th d, R.SEQ_THR_STATUS c th, R.SEQ_THR_PC c th] s t ∧ restKept s t) ∧
      (¬(n = s.tideFirst ∨ n = 0 ∨ s.stepDone dist (n - 1) = true) →
        issues (.seqHeadEnd c th d a b 0 imm) s fun t => changesOnly [.icache, .rrLast] s t) ∧
      (s.stepBusy c th n = false → s.edge ≤ n → issues (.seqStepEnd c th d a b 0 imm) s fun t =>
        t.thr c th = THR_PARKED ∧ t.get (R.SEQ_THR_STATUS_section c th) = 2 ∧ t.pc c th = next) ∧
      (s.stepBusy c th n = false → n < s.edge → issues (.seqStepEnd c th d a b 0 imm) s fun t =>
        t.thr c th = THR_RUN ∧ t.get (R.SEQ_THR_STATUS_section c th) = 0 ∧
        t.pc c th = s.get (R.SEQ_THR_CFG_head_pc c th) * 8 ∧ t.thrStepAt (c * 16 + th) = s.edge) ∧
      (s.stepBusy c th n = true → issues (.seqStepEnd c th d a b 0 imm) s fun t => changesOnly [.icache, .rrLast] s t)) ∧
    (chartDistrictOf s.chartLive c = none ∨ s.bit (R.SEQ_THR_CFG_active c th) = false →
      issues (.seqHeadEnd c th d a b 0 imm) s (trapped c th 0x01 ST_BAD_ARG (s.pc c th) s) ∧
      issues (.seqStepEnd c th d a b 0 imm) s (trapped c th 0x01 ST_BAD_ARG (s.pc c th) s))

/-- Halt, resume and kill of a thread, in every state of the thread. -/
def Sys2Proof.Claims.ThreadControl : Prop :=
  ∀ (who : Agent) (c : Fin 128) (th : Fin 16) (s : State), writable who (c * 16 + 1) (th * 0x40 + 8) s →
    let n := s.get (R.PBX_THR_WAIT_target c th)
    (s.thr c th = THR_RUN → s.bit (R.PBX_THR_WAIT_waiting c th) = false → yields (.threadHalt who c th) s fun t =>
      t.thr c th = THR_HALTED ∧ keepsQuiet [R.SEQ_THR_STATUS c th] s t ∧
      changesOnly [.regs, .msix, .mgmtQ, .out] s t) ∧
    (s.thr c th = THR_WAIT → s.bit (R.PBX_THR_WAIT_waiting c th) = true → n < 48 → yields (.threadHalt who c th) s fun t =>
      t.thr c th = THR_HALTED ∧ t.pc c th = s.pc c th ∧
      t.waitersAt (c * 48 + n) = (s.waitersAt (c * 48 + n)).filter (fun i => i != th.val) ∧
      t.regBit (R.PBX_VALUE c n) (32 + th) = false ∧ t.get (R.PBX_VALUE_value c n) = s.get (R.PBX_VALUE_value c n) ∧
      t.get (R.PBX_LANDED_landed c n) = s.get (R.PBX_LANDED_landed c n) ∧
      changesOnly [.regs, .waiters, .waitSince, .msix, .mgmtQ, .out] s t) ∧
    (s.thr c th ≠ THR_RUN → s.thr c th ≠ THR_WAIT → yields (.threadHalt who c th) s fun t => changesOnly [.out] s t) ∧
    (s.thr c th = THR_TRAPPED ∨ s.thr c th = THR_HALTED → yields (.threadResume who c th) s fun t =>
      t.thr c th = THR_RUN ∧ t.pc c th = s.pc c th ∧ keepsQuiet [R.SEQ_THR_STATUS c th] s t ∧
      changesOnly [.regs, .msix, .mgmtQ, .out] s t) ∧
    (s.thr c th ≠ THR_TRAPPED → s.thr c th ≠ THR_HALTED →
      yields (.threadResume who c th) s fun t => changesOnly [.out] s t) ∧
    (s.thr c th ≠ THR_KILLED → yields (.threadKill who c th) s fun t =>
      t.thr c th = THR_KILLED ∧ t.pc c th = s.pc c th ∧
      (s.bit (R.PBX_THR_WAIT_waiting c th) = true → n < 48 → th.val ∉ t.waitersAt (c * 48 + n))) ∧
    (s.thr c th = THR_KILLED → yields (.threadKill who c th) s fun t => changesOnly [.out] s t)

/-- FENCE, HEAD_END and STEP_END; halt, resume and kill of a thread. -/
def Obligations.SeqThreads : Prop := Claims.SeqStepSections ∧ Claims.ThreadControl

namespace Sys2Proof.Claims
open Sys2Proof.Machine

/-- An access of a thread has set out with the given number: the thread goes on and its answer is there. -/
def accessed (c th : Nat) (x : Access) (s t : State) : Prop :=
  t.loadsAt (c * 16 + th) = s.loadsAt (c * 16 + th) ++ [x] ∧ t.tagNext = s.tagNext + 1 ∧
  t.pc c th = (s.pc c th + 8) % 2 ^ 48 ∧ t.thr c th = THR_RUN

end Sys2Proof.Claims

/-- LD and ST at memory that answers at once: what a load returns, what a store leaves, and the trap of a misaligned one. -/
def Sys2Proof.Claims.SeqLoadStore : Prop :=
  ∀ (c : Fin 128) (th : Fin 16) (d a b : Fin 32) (k : Fin 4) (sext waits : Bool) (imm : BitVec 32) (s : State),
    let size := 2 ^ k.val
    let addr := (s.sreg c th a + imm.signExtend 64).toNat
    let ld : BitVec 9 := BitVec.ofNat 9 (k + if sext then 4 else 0)
    let st : BitVec 9 := BitVec.ofNat 9 (k + if waits then 8 else 0)
    let bs := toLE size (s.sreg c th b).toNat
    (addr % size ≠ 0 →
      issues (.seqLd c th d a b ld imm) s (trapped c th 0x02 ST_ALIGN addr s) ∧
      issues (.seqSt c th d a b st imm) s (trapped c th 0x02 ST_ALIGN addr s)) ∧
    (addr % size = 0 → (∀ x ∈ s.loadsAt (c * 16 + th), x.tag ≤ s.tagNext) → memReady s (.thread c th) addr size →
      (issues (.seqLd c th d a b ld imm) s fun t =>
        accessed c th ⟨s.tagNext + 1, true, false, d, size, sext, addr, s.pc c th,
          some ⟨ST_OK, s.bytes addr size, List.replicate size false⟩⟩ s t ∧
        keepsRegs [R.SEQ_THR_PC c th] s t ∧ changesOnly [.regs, .icache, .rrLast, .loads, .tagNext] s t) ∧
      (issues (.seqSt c th d a b st imm) s fun t =>
        accessed c th ⟨s.tagNext + 1, false, waits, d, size, false, addr, s.pc c th, some ⟨ST_OK, toLE 8 0, []⟩⟩ s t ∧
        stored addr bs s t ∧ changesOnly [.regs, .icache, .rrLast, .loads, .tagNext, .mem, .check, .marks] s t))

/-- The response of a load or a store reaches its thread: the register it writes, or the imprecise trap. A load from cell SRAM that
collides is read again; five collisions trap the thread. -/
def Sys2Proof.Claims.LoadResponses : Prop :=
  ∀ (c : Fin 128) (th : Fin 16) (n : Fin 6) (x : Access) (r : Resp) (s : State), s.power ≠ .off → x.dest < 32 →
    (s.loadsAt (c * 16 + th)).find? (fun y => y.answer.isSome) = some x → x.answer = some r →
    let cell := cellAt x.addr
    let hits := x.load = true ∧ inSram x.addr = true ∧ n ≠ 0
    let struck := fun t : State =>
      t.get (R.CELL_COLLISION_count cell) = min (s.get (R.CELL_COLLISION_count cell) + n) (2 ^ 32 - 1)
    let stopped := fun (t : State) (cause st : Nat) =>
      t.thr c th = THR_TRAPPED ∧ t.get (R.SEQ_THR_STATUS_trap_cause c th) = cause ∧
      t.get (R.SEQ_THR_STATUS_trap_status c th) = st ∧
      t.get (R.SEQ_THR_FAULT_addr c th) = x.addr % 2 ^ 48 ∧ t.pc c th = x.pc % 2 ^ 48 ∧
      t.get (R.SEQ_THR_NEXT_next_pc c th) = s.pc c th ∧ t.loadsAt (c * 16 + th) = (s.loadsAt (c * 16 + th)).erase x
    let trapKeys := [R.SEQ_THR_STATUS c th, R.SEQ_THR_FAULT c th, R.SEQ_THR_NEXT c th, R.SEQ_THR_PC c th]
    (r.status = ST_OK → x.load = true → (hits → n.val < 5) → yields (.loadResponse c th n) s fun t =>
      t.sreg c th x.dest = (if x.dest = 0 then 0 else loadValue x r.data) ∧
      t.loadsAt (c * 16 + th) = (s.loadsAt (c * 16 + th)).erase x ∧ (hits → struck t) ∧
      (hits → keepsRegs [R.SEQ_THR_REG c th x.dest, R.CELL_COLLISION cell] s t) ∧
      (¬hits → keepsRegs [R.SEQ_THR_REG c th x.dest] s t) ∧ changesOnly [.regs, .loads] s t) ∧
    (r.status = ST_OK → hits → n = 5 → s.thr c th = THR_RUN → s.bit (R.PBX_THR_WAIT_waiting c th) = false →
      yields (.loadResponse c th n) s fun t =>
        stopped t 0x03 ST_COLLISION ∧ struck t ∧ keepsQuiet (R.CELL_COLLISION cell :: trapKeys) s t) ∧
    (r.status = ST_OK → x.load = false → x.waits = true → yields (.loadResponse c th n) s fun t =>
      t.sreg c th x.dest = (if x.dest = 0 then 0 else BitVec.ofNat 64 (leNat r.data)) ∧
      t.loadsAt (c * 16 + th) = (s.loadsAt (c * 16 + th)).erase x ∧
      keepsRegs [R.SEQ_THR_REG c th x.dest] s t ∧ changesOnly [.regs, .loads] s t) ∧
    (r.status = ST_OK → x.load = false → x.waits = false → yields (.loadResponse c th n) s fun t =>
      t.loadsAt (c * 16 + th) = (s.loadsAt (c * 16 + th)).erase x ∧ changesOnly [.loads] s t) ∧
    (r.status ≠ ST_OK → r.status < 256 → s.thr c th = THR_RUN → s.bit (R.PBX_THR_WAIT_waiting c th) = false →
      yields (.loadResponse c th n) s fun t =>
        stopped t (if r.status = ST_POISON ∨ r.status = ST_UNCORRECTABLE then 0x04 else 0x03) r.status ∧
        keepsQuiet trapKeys s t)

/-- The instruction cache: a fill from vault memory, and the invalidate. -/
def Sys2Proof.Claims.InstructionCache : Prop :=
  ∀ (c : Fin 128) (th : Fin 16) (who : Agent) (s : State),
    let pc := s.pc c th
    let line := pc / 128 * 128
    let key := c * 64 + pc / 128 % 64
    (s.power ≠ .off → s.thr c th = THR_RUN → s.icLine c pc = none → memReady s (.thread c th) line 128 →
      yields (.icacheFill c th 0) s fun t =>
        t.icacheAt key = ⟨line, s.bytes line 128⟩ :: ((s.icacheAt key).filter fun l => !(l.base == line)).take 7 ∧
        (∀ k, k ≠ key → t.icacheAt k = s.icacheAt k) ∧
        t.get (R.SEQ_ICACHE_misses c) = min (s.get (R.SEQ_ICACHE_misses c) + 1) (2 ^ (R.SEQ_ICACHE_misses c).w - 1) ∧
        keepsRegs [R.SEQ_ICACHE c] s t ∧ changesOnly [.icache, .regs] s t) ∧
    (∀ l, s.power ≠ .off → s.thr c th = THR_RUN → s.icLine c pc = some l →
      (yields (.icacheFill c th 0) s fun t => changesOnly [] s t) ∧
      (yields (.icacheFill c th 1) s fun t =>
        t.get (R.SEQ_ICACHE_corrected c) = min (s.get (R.SEQ_ICACHE_corrected c) + 1) (2 ^ (R.SEQ_ICACHE_corrected c).w - 1) ∧
        keepsRegs [R.SEQ_ICACHE c] s t ∧ changesOnly [.regs] s t)) ∧
    (s.power ≠ .off → s.thr c th = THR_RUN → (s.icLine c pc).isSome = true ∨ memReady s (.thread c th) line 128 →
      yields (.icacheFill c th 2) s fun t =>
        t.thr c th = THR_TRAPPED ∧ t.get (R.SEQ_THR_STATUS_trap_cause c th) = 0x05 ∧
        t.get (R.SEQ_THR_STATUS_trap_status c th) = ST_UNCORRECTABLE ∧ t.get (R.SEQ_THR_FAULT_addr c th) = pc ∧
        t.pc c th = pc) ∧
    (writable who (c * 16 + 1) 0x2000 s → yields (.icacheInvalidate who c) s fun t =>
      (∀ k, t.icacheAt k = if k / 64 = c.val then [] else s.icacheAt k) ∧ changesOnly [.icache, .out] s t)

/-- LD and ST, their responses, and the instruction cache. -/
def Obligations.SeqMemoryOrder : Prop := Claims.SeqLoadStore ∧ Claims.LoadResponses ∧ Claims.InstructionCache

/-- Who may write the owner entry of a bank. -/
def Sys2Proof.Claims.WhoMayOwn : Prop :=
  ∀ (c : Fin 128) (b : Fin 24) (s : State),
    let entry := s.get (ownFld c b)
    let cls := entry % 16
    (∀ k, s.mayOwn (.core k) c b = true) ∧
    (∀ th : Fin 16, s.mayOwn (.thread c th) c b = true ↔
      cls = 0 ∨ (5 ≤ cls ∧ cls ≤ 8) ∨ cls = 1 + s.get (R.SEQ_THR_CFG_group c th)) ∧
    (∀ p : Fin 2, s.mayOwn (.host p) c b = true ↔ cls = 10 ∧ (entry / 16 % 256 = 0xFF ∨ entry / 16 % 256 = p.val)) ∧
    (∀ (c' : Fin 128) (th : Fin 16), c' ≠ c → (s.mayOwn (.thread c' th) c b = true ↔
      cls = 9 ∧ (entry / 16 % 256 = 0xFF ∨ entry / 16 % 256 = c'.val)))

/-- OWN, writes of the owner entries, and the switch. -/
def Sys2Proof.Claims.BankOwnership : Prop :=
  ∀ (c : Fin 128) (s : State),
    (∀ (th : Fin 16) (d a b : Fin 32) (imm : BitVec 32), imm.toNat % 32 < 24 →
      let bank := imm.toNat % 32
      let v := (s.sreg c th a).toNat % 2 ^ 16
      let next := (s.pc c th + 8) % 2 ^ 48
      (s.mayOwn (.thread c th) c bank = true → issues (.seqOwn c th d a b 0 imm) s fun t =>
        t.get (ownFld c bank) = (if v % 16 ≤ 10 then v % 2 ^ 12 + 2 ^ 15 else s.get (ownFld c bank)) ∧ t.pc c th = next ∧
        keepsRegs [R.SEQ_THR_PC c th, R.CELL_BANK_OWN c (bank / 4)] s t ∧ restKept s t) ∧
      (s.mayOwn (.thread c th) c bank = false → issues (.seqOwn c th d a b 0 imm) s fun t =>
        t.get (R.CELL_OWN_FAULT_count c) = min (s.get (R.CELL_OWN_FAULT_count c) + 1) (2 ^ 32 - 1) ∧
        t.get (R.CELL_OWN_FAULT_last_bank c) = bank ∧
        t.get (R.CELL_OWN_FAULT_last_class c) = 1 + s.get (R.SEQ_THR_CFG_group c th) ∧ t.pc c th = next ∧
        keepsRegs [R.SEQ_THR_PC c th, R.CELL_OWN_FAULT c] s t ∧ restKept s t)) ∧
    (∀ (who : Agent) (i : Fin 6) (v : Word) (half : Fin 3), writable who (c * 16) (0x10 + i * 8) s →
      yields (.ownerWrite who c i v half) s fun t =>
        (∀ j : Fin 4, t.get (ownFld c (4 * i + j)) =
          (let x := v.toNat / 2 ^ (16 * j.val) % 2 ^ 16
           if (half.val = 0 ∨ (half.val = 1 ↔ j.val < 2)) ∧ s.mayOwn who c (4 * i + j) = true ∧ x % 16 ≤ 10
           then x % 2 ^ 12 + 2 ^ 15 else s.get (ownFld c (4 * i + j)))) ∧
        keepsRegs [R.CELL_BANK_OWN c i, R.CELL_OWN_FAULT c] s t ∧ changesOnly [.regs, .out] s t) ∧
    (∀ b : Fin 24, s.power ≠ .off → yields (.ownerSwitch c b) s fun t =>
      t.get (ownFld c b) = s.get (ownFld c b) % 2 ^ 15 ∧
      (∀ b' : Fin 24, b' ≠ b → t.get (ownFld c b') = s.get (ownFld c b')) ∧
      keepsRegs [R.CELL_BANK_OWN c (b / 4)] s t ∧ changesOnly [.regs] s t)

/-- Who may write an owner entry, what OWN and the writes of CELL_BANK_OWN leave, and the switch. -/
def Obligations.BankOwners : Prop := Claims.WhoMayOwn ∧ Claims.BankOwnership

/-- Accesses of cell SRAM: plain, through the aliases, colliding, and under a class that does not own the bank. -/
def Sys2Proof.Claims.SramAccesses : Prop :=
  ∀ (who : Agent) (c : Fin 128) (off : BitVec 22) (n : Nat) (bs : List Byte) (s : State),
    let o := off.toNat
    let a := sramAddr c o
    let cq := s.accClass who c
    let old := leNat (s.bytes a bs.length)
    s.power ≠ .off →
    (s.mapStatus a n = ST_OK → sramReady s c o n cq →
      (yields (.sramAccess who c 0 off n none false) s fun t =>
        t.out = .reply ST_OK (s.bytes a n) :: s.out ∧ changesOnly [.out] s t) ∧
      (yields (.sramAccess who c 0 off n none true) s fun t =>
        (∃ junk, junk.length = n ∧ t.out = .reply ST_COLLISION junk :: s.out) ∧
        t.get (R.CELL_COLLISION_count c) = min (s.get (R.CELL_COLLISION_count c) + 1) (2 ^ 32 - 1) ∧
        t.get (R.CELL_COLLISION_last_bank c) = bankOf o ∧ t.get (R.CELL_COLLISION_last_class c) = cq.1 ∧
        keepsRegs [R.CELL_COLLISION c] s t ∧ changesOnly [.out, .regs, .freeCtr] s t)) ∧
    (s.mapStatus a bs.length = ST_OK → sramReady s c o bs.length cq →
      yields (.sramAccess who c 0 off n (some bs) false) s fun t =>
        t.out = .reply ST_OK (toLE 8 0) :: s.out ∧ stored a bs s t ∧ changesOnly [.out, .mem, .marks] s t) ∧
    (s.mapStatus a bs.length = ST_OK → sramReady s c o bs.length cq → o < 0x300000 →
      yields (.sramAccess who c 0 off n (some bs) true) s fun t =>
        t.out = .reply ST_COLLISION (toLE 8 0) :: s.out ∧ stored a bs s t ∧
        t.get (R.CELL_COLLISION_count c) = min (s.get (R.CELL_COLLISION_count c) + 1) (2 ^ 32 - 1) ∧
        t.get (R.CELL_COLLISION_last_class c) = cq.1 ∧ keepsRegs [R.CELL_COLLISION c] s t ∧
        changesOnly [.out, .mem, .marks, .regs] s t) ∧
    (s.mapStatus a n = ST_OK → n ≠ 0 → s.refusedBank c o n cq = none → o + n ≤ 0x300000 →
      (∀ w ∈ wordsOf a n, s.marksAt (w / 8) = .good) →
      yields (.sramAccess who c 0 off n none false) s fun t =>
        t.out = .reply ST_OK (s.bytes a n) :: s.out ∧
        (∀ b ∈ s.unsettled c o n, t.get (ownFld c b) = s.get (ownFld c b) % 2 ^ 15) ∧
        keepsRegs ((List.range 6).map fun i => R.CELL_BANK_OWN c i) s t ∧ changesOnly [.out, .regs] s t) ∧
    (∀ way : Fin 3, way ≠ 0 → (bs.length = 4 ∨ bs.length = 8) → o % bs.length = 0 → o < 0x300000 →
      s.mapStatus (sramWay c way o) bs.length = ST_OK → sramReady s c o bs.length cq →
      let new := if way = 1 then Nat.lor old (leNat bs) else Nat.xor old (Nat.land old (leNat bs))
      yields (.sramAccess who c way off n (some bs) false) s fun t =>
        t.out = .reply ST_OK (toLE 8 old) :: s.out ∧ stored a (toLE bs.length new) s t ∧
        changesOnly [.out, .mem, .marks] s t) ∧
    (∀ b, s.mapStatus a n = ST_OK → s.refusedBank c o n cq = some b → b < 24 →
      yields (.sramAccess who c 0 off n none false) s fun t =>
        t.out = .reply ST_NOT_OWNER (List.replicate n 0xFF) :: s.out ∧
        t.get (R.CELL_OWN_FAULT_count c) = min (s.get (R.CELL_OWN_FAULT_count c) + 1) (2 ^ 32 - 1) ∧
        t.get (R.CELL_OWN_FAULT_last_bank c) = b ∧ t.get (R.CELL_OWN_FAULT_last_class c) = cq.1 ∧
        keepsRegs [R.CELL_OWN_FAULT c] s t ∧ changesOnly [.out, .regs] s t) ∧
    (∀ b, s.mapStatus a bs.length = ST_OK → s.refusedBank c o bs.length cq = some b → b < 24 →
      yields (.sramAccess who c 0 off n (some bs) false) s fun t =>
        t.out = .reply ST_NOT_OWNER (toLE 8 0) :: s.out ∧ keepsRegs [R.CELL_OWN_FAULT c] s t ∧
        changesOnly [.out, .regs] s t)

/-- The write of a codebook descriptor: what is stored, and when the ascending bit is set. -/
def Sys2Proof.Claims.CodebookDescriptors : Prop :=
  ∀ (who : Agent) (c : Fin 128) (k : Fin 64) (v : Word) (s : State),
    writable who (c * 16 + 11 + k / 32) (k % 32 * 0x400 + 0x3F8) s →
    let d := v.toNat % 16
    let size := d / 2 % 2
    let fmt := d / 4
    let f : Fmt := if fmt = 0 then .e4m3 else if fmt = 1 then .e5m2 else .bf16
    let entry := fun i => cbEntry f (s.cbBytes c k) i
    let usable := d % 2 = 1 ∧ fmt ≠ 3 ∧ (size = 1 → fmt = 2)
    let rising := ∀ i, i + 1 < (if size = 0 then 16 else 256) → (entry i).lt (entry (i + 1)) = true
    (usable → rising → yields (.codebookDescriptorWrite who c k v) s fun t =>
      t.cbDesc c k = d + 16 ∧ keepsRegs [cbKey c k 127] s t ∧ changesOnly [.regs, .out] s t) ∧
    (¬(usable ∧ rising) → yields (.codebookDescriptorWrite who c k v) s fun t =>
      t.cbDesc c k = d ∧ keepsRegs [cbKey c k 127] s t ∧ changesOnly [.regs, .out] s t)

/-- Accesses of cell SRAM, through both aliases too, and codebook descriptors. -/
def Obligations.CellMemory : Prop := Claims.SramAccesses ∧ Claims.CodebookDescriptors

namespace Sys2Proof.Claims
open Sys2Proof.Machine

/-- What a vector operation writes, from the bytes of its sources in the state at its start. -/
def vecResult (s : State) (c : Nat) (v : VecOp) (sf df : Fmt) : List Byte :=
  ((vecCompute (s.vset c) v sf df (s.vecEntries c v) (s.codeBits c (v.b % 64))
    ((vecReads v sf df).map fun r => s.bytes (sramAddr c r.1) r.2)).run Ev.zero).1

/-- Where the operation at the front of the queue of cell `c` has code `op` and its operands are readable, the command `i` completes:
its result stands where its descriptor says, every other byte keeps its value, and the operation leaves the queue and is counted. -/
def vecDone (c : Nat) (op : Nat) (i : Instr) (s : State) : Prop :=
  ∀ (v : VecOp) (rest : List VecOp) (sf df : Fmt), s.vecQAt c = v :: rest → v.op = op →
    Fmt.ofCode v.sfmt = some sf → v.destFmt = some df →
    (op = 0x14 → s.codeSlotOk c (v.b % 64) = true ∧
      ∀ j ∈ s.bookWords c (v.b % 64), s.marksAt ((0x4000000000 + cbKey c (v.b % 64) j) / 8) = .good) →
    (∀ r ∈ vecReads v sf df, sramReady s c r.1 r.2 (v.cls, 0)) →
    let bs := vecResult s c v sf df
    sramReady s c v.d bs.length (v.cls, 0) →
    yields i s fun t =>
      t.vecQAt c = rest ∧ t.get (R.VEC_OPS_count c) = min (s.get (R.VEC_OPS_count c) + 1) (2 ^ (R.VEC_OPS_count c).w - 1) ∧
      stored (sramAddr c v.d) bs s t

/-- Five collisions of the first source word (R174) stop the operation at the front of the queue: nothing is written, and the
status is recorded. -/
def vecStruck (c : Nat) (op : Nat) (i : Instr) (s : State) : Prop :=
  ∀ (v : VecOp) (rest : List VecOp) (sf df : Fmt) (r : Nat × Nat) (rs : List (Nat × Nat)), s.vecQAt c = v :: rest → v.op = op →
    Fmt.ofCode v.sfmt = some sf → v.destFmt = some df → vecReads v sf df = r :: rs → r.1 < 0x300000 →
    yields i s fun t =>
      t.vecQAt c = rest ∧ t.get (R.VEC_STATUS_last_status c) = ST_COLLISION ∧
      t.get (R.CELL_COLLISION_count c) = min (s.get (R.CELL_COLLISION_count c) + 5) (2 ^ 32 - 1) ∧
      ∀ x, t.memAt x = s.memAt x

end Sys2Proof.Claims

/-- The vector operation at the front of a cell's queue writes its result where its descriptor says, leaves the queue and is
counted; every other byte keeps its value (R161–R167). Reads that collide up to four times are repeated (R174). -/
def Sys2Proof.Claims.VectorResults : Prop :=
  ∀ (c : Fin 128) (n : Fin 6) (s : State), s.power ≠ .off → n.val < 5 →
    vecDone c 0x00 (.vecAdd c n) s ∧ vecDone c 0x01 (.vecSub c n) s ∧ vecDone c 0x02 (.vecMul c n) s ∧
    vecDone c 0x03 (.vecFma c n) s ∧ vecDone c 0x04 (.vecMax c n) s ∧ vecDone c 0x05 (.vecMin c n) s ∧
    vecDone c 0x06 (.scale c n) s ∧ vecDone c 0x07 (.cvt c n) s ∧ vecDone c 0x08 (.exp c n) s ∧ vecDone c 0x09 (.rcp c n) s ∧
    vecDone c 0x0a (.rsqrt c n) s ∧ vecDone c 0x0b (.tanh c n) s ∧ vecDone c 0x0c (.logistic c n) s ∧
    vecDone c 0x10 (.rsum c n) s ∧ vecDone c 0x11 (.rmax c n) s ∧ vecDone c 0x12 (.softmax c n) s ∧ vecDone c 0x13 (.topk c n) s ∧
    vecDone c 0x14 (.code c n) s ∧ vecDone c 0x15 (.scan c n) s ∧ vecDone c 0x16 (.rng c n) s ∧ vecDone c 0x17 (.sample c n) s ∧
    vecDone c 0x18 (.merge c n) s

/-- The fifth collision of a source word ends a vector operation (R174). -/
def Sys2Proof.Claims.VectorCollisions : Prop :=
  ∀ (c : Fin 128) (s : State), s.power ≠ .off →
    vecStruck c 0x00 (.vecAdd c 5) s ∧ vecStruck c 0x01 (.vecSub c 5) s ∧ vecStruck c 0x02 (.vecMul c 5) s ∧
    vecStruck c 0x03 (.vecFma c 5) s ∧ vecStruck c 0x04 (.vecMax c 5) s ∧ vecStruck c 0x05 (.vecMin c 5) s ∧
    vecStruck c 0x06 (.scale c 5) s ∧ vecStruck c 0x07 (.cvt c 5) s ∧ vecStruck c 0x08 (.exp c 5) s ∧
    vecStruck c 0x09 (.rcp c 5) s ∧ vecStruck c 0x0a (.rsqrt c 5) s ∧ vecStruck c 0x0b (.tanh c 5) s ∧
    vecStruck c 0x0c (.logistic c 5) s ∧ vecStruck c 0x10 (.rsum c 5) s ∧ vecStruck c 0x11 (.rmax c 5) s ∧
    vecStruck c 0x12 (.softmax c 5) s ∧ vecStruck c 0x13 (.topk c 5) s ∧ vecStruck c 0x14 (.code c 5) s ∧
    vecStruck c 0x15 (.scan c 5) s ∧ vecStruck c 0x16 (.rng c 5) s ∧ vecStruck c 0x17 (.sample c 5) s ∧
    vecStruck c 0x18 (.merge c 5) s

/-- Every vector operation writes its result, leaves its queue and is counted. -/
def Obligations.VectorOperations : Prop := Claims.VectorResults ∧ Claims.VectorCollisions

namespace Sys2Proof.Claims
open Sys2Proof.Machine

/-- The descriptor that a thread names in the general SRAM of its cell is aligned, in range and readable (R159). -/
def descReady (s : State) (c th off align : Nat) : Prop :=
  off % align = 0 ∧ off + 64 ≤ 0x300000 ∧ sramReady s c off 64 (1 + s.get (R.SEQ_THR_CFG_group c th), 0)

/-- A thread is trapped with a cause and a status, and stays at its instruction. -/
def trappedAt (c th cause st addr : Nat) (s t : State) : Prop :=
  t.thr c th = THR_TRAPPED ∧ t.get (R.SEQ_THR_STATUS_trap_cause c th) = cause ∧
  t.get (R.SEQ_THR_STATUS_trap_status c th) = st ∧ t.get (R.SEQ_THR_FAULT_addr c th) = addr % 2 ^ 48 ∧ t.pc c th = s.pc c th

/-- The counters of the ck that have passed at a feeder and in ballast (R113, R304). -/
def feedKeys (c : Nat) : List Nat :=
  [R.FEED_CK_FLUSH c, R.FEED_CK_IDLE c, R.FEED_FRZ_WGT c, R.FEED_FRZ_ACT c, R.DRN_FRZ_FULL c, R.PBX_BALLAST_CK c]

/-- The vector operation that a VOP names (R158). -/
def vopOf (s : State) (c th d a b fn imm : Nat) : VecOp :=
  ⟨th, s.pc c th, 1 + s.get (R.SEQ_THR_CFG_group c th), fn % 64, fn / 64 % 4, imm % 2 ^ 20, imm / 2 ^ 20 % 16,
    imm / 2 ^ 24 % 16, (s.sreg c th d).toNat, (s.sreg c th a).toNat, (s.sreg c th b).toNat⟩

end Sys2Proof.Claims

/-- PASS, VOP, QE and BUC: the descriptor goes to the end of its queue and the thread on; a full queue stalls the thread, and a
descriptor that the unit rejects traps it. -/
def Sys2Proof.Claims.SeqIssue : Prop :=
  ∀ (c : Fin 128) (th : Fin 16) (d a b : Fin 32) (imm : BitVec 32) (s : State),
    let off := (s.sreg c th a).toNat
    let addr := sramAddr c off
    let bs := s.bytes addr 64
    let n := s.thrStepAt (c * 16 + th)
    let next := (s.pc c th + 8) % 2 ^ 48
    (descReady s c th off 64 →
      let p := passNew s.tagNext addr n (some th) bs
      let k := imm.toNat % 8
      let q := qeParse bs s.tagNext n (some th)
      (s.passCheck c p = ST_OK →
        issues (.seqPass c th d a b 0 imm 0) s fun t =>
          t.passQAt c = s.passQAt c ++ [p] ∧ t.tagNext = s.tagNext + 1 ∧ t.pc c th = next ∧ t.thr c th = THR_RUN ∧
          t.get (R.FEED_STATUS_queued c) = s.passCount c + 1 ∧
          keepsRegs (R.FEED_STATUS c :: R.SEQ_THR_PC c th :: feedKeys c) s t ∧
          changesOnly [.regs, .icache, .rrLast, .passQ, .tagNext, .feedAt, .freeCtr] s t) ∧
      (s.passCheck c p ≠ ST_OK →
        issues (.seqPass c th d a b 0 imm 0) s fun t =>
          trappedAt c th 0x06 (s.passCheck c p) addr s t ∧ t.get (R.FEED_LAST_FAULT_status c) = s.passCheck c p ∧
          changesOnly [.regs, .icache, .rrLast, .msix, .mgmtQ, .out] s t) ∧
      (s.qeRejects c bs q = false → issues (.seqQe c th d a b 0 imm 0) s fun t =>
        t.qeQAt (c * 8 + k) = s.qeQAt (c * 8 + k) ++ [q] ∧ t.tagNext = s.tagNext + 1 ∧ t.pc c th = next ∧
        t.thr c th = THR_RUN ∧ t.get (R.QUE_CH_STATUS_queued c k) = (s.qeQAt (c * 8 + k)).length + 1 ∧
        changesOnly [.regs, .icache, .rrLast, .qeQ, .tagNext, .msix, .mgmtQ, .out] s t) ∧
      (s.qeRejects c bs q = true → issues (.seqQe c th d a b 0 imm 0) s fun t =>
        trappedAt c th 0x08 ST_QE_DESC_BAD addr s t ∧ changesOnly [.regs, .icache, .rrLast, .msix, .mgmtQ, .out] s t)) ∧
    (∀ (fn : BitVec 9) (x : Fin 6),
      (s.passRoom c = false → yields (.seqPass c th d a b fn imm x) s fun t => changesOnly [] s t) ∧
      (s.vecRoom c = false → yields (.seqVop c th d a b fn imm) s fun t => changesOnly [] s t) ∧
      (s.qeRoom c (imm.toNat % 8) = false → yields (.seqQe c th d a b fn imm x) s fun t => changesOnly [] s t) ∧
      (s.buRoom (imm.toNat % 1024) = false → yields (.seqBuc c th d a b fn imm x) s fun t => changesOnly [] s t)) ∧
    (descReady s c th off 16 → ∀ bound : Bool,
      let u := imm.toNat % 1024
      let x := buParse bs s.tagNext n (some (c.val, th.val)) bound
      let fn : BitVec 9 := if bound then 1 else 0
      (s.buStatus u x = ST_OK → issues (.seqBuc c th d a b fn imm 0) s fun t =>
        t.buQAt u = s.buQAt u ++ [x] ∧ t.tagNext = s.tagNext + 1 ∧ t.pc c th = next ∧ t.thr c th = THR_RUN ∧
        keepsRegs [R.BU_STATUS (u / 8) (u % 8), R.SEQ_THR_PC c th] s t ∧
        changesOnly [.regs, .icache, .rrLast, .buQ, .tagNext] s t) ∧
      (s.buStatus u x ≠ ST_OK → issues (.seqBuc c th d a b fn imm 0) s fun t =>
        trappedAt c th 0x09 (s.buStatus u x) addr s t ∧
        t.get (R.BU_STATUS_last_status (u / 8) (u % 8)) = s.buStatus u x ∧
        changesOnly [.regs, .icache, .rrLast, .msix, .mgmtQ, .out] s t)) ∧
    (∀ fn : BitVec 9, fn.toNat < 256 →
      let v := vopOf s c th d a b fn.toNat imm.toNat
      (s.vecCheck c v = ST_OK → issues (.seqVop c th d a b fn imm) s fun t =>
        t.vecQAt c = s.vecQAt c ++ [v] ∧ t.pc c th = next ∧ t.thr c th = THR_RUN ∧
        t.get (R.VEC_STATUS_queued c) = (s.vecQAt c).length + 1 ∧ t.bit (R.VEC_STATUS_busy c) = true ∧
        keepsRegs [R.VEC_STATUS c, R.SEQ_THR_PC c th] s t ∧ changesOnly [.regs, .icache, .rrLast, .vecQ] s t) ∧
      (s.vecCheck c v ≠ ST_OK → issues (.seqVop c th d a b fn imm) s fun t =>
        trappedAt c th 0x07 (s.vecCheck c v) (s.pc c th) s t ∧ t.get (R.VEC_STATUS_last_status c) = s.vecCheck c v ∧
        changesOnly [.regs, .icache, .rrLast, .msix, .mgmtQ, .out] s t))

/-- Descriptors submitted by a register write: to a feeder, to a queue-engine channel and to a bank unit. -/
def Sys2Proof.Claims.RegisterIssue : Prop :=
  ∀ (who : Agent) (c : Fin 128) (off : BitVec 16) (s : State),
    let o := off.toNat * 64
    let bs := s.bytes (sramAddr c o) 64
    (writable who (c * 16 + 2) 0x10 s → o + 64 ≤ 0x300000 → sramReady s c o 64 (6, 0) →
      let p := passNew s.tagNext (sramAddr c o) 0 none bs
      (s.passCount c < 32 → s.bit (R.FEED_CTRL_enable c) = true → s.passCheck c p = ST_OK →
        yields (.feedIssue who c off false) s fun t =>
          t.passQAt c = s.passQAt c ++ [p] ∧ t.tagNext = s.tagNext + 1 ∧ keepsRegs (R.FEED_STATUS c :: feedKeys c) s t ∧
          changesOnly [.regs, .passQ, .tagNext, .feedAt, .freeCtr, .out] s t) ∧
      (s.passCount c < 32 → s.bit (R.FEED_CTRL_enable c) = true → s.passCheck c p ≠ ST_OK →
        yields (.feedIssue who c off false) s fun t =>
          t.get (R.FEED_LAST_FAULT_status c) = s.passCheck c p ∧ t.bit (R.FEED_LAST_FAULT_via_issue c) = true ∧
          keepsRegs [R.FEED_STATUS c, R.FEED_LAST_FAULT c] s t ∧ changesOnly [.regs, .out] s t) ∧
      (s.passCount c = 32 ∨ s.bit (R.FEED_CTRL_enable c) = false → yields (.feedIssue who c off false) s fun t =>
        t.get (R.FEED_STATUS_last_status c) = ST_BUSY ∧ keepsRegs [R.FEED_STATUS c] s t ∧
        changesOnly [.regs, .out] s t)) ∧
    (∀ k : Fin 8, writable who (c * 16 + 5) (k * 0x100 + 0x20) s → o + 64 ≤ 0x300000 → sramReady s c o 64 (5, 0) →
      let q := qeParse bs s.tagNext 0 none
      (s.qeRoom c k = true → s.qeRejects c bs q = false → yields (.queChSubmit who c k off false) s fun t =>
        t.qeQAt (c * 8 + k) = s.qeQAt (c * 8 + k) ++ [q] ∧ t.tagNext = s.tagNext + 1 ∧
        changesOnly [.regs, .qeQ, .tagNext, .msix, .mgmtQ, .out] s t) ∧
      (s.qeRoom c k = true → s.qeRejects c bs q = true → yields (.queChSubmit who c k off false) s fun t =>
        t.get (R.QUE_CH_STATUS_last_status c k) = ST_QE_DESC_BAD ∧ keepsRegs [R.QUE_CH_STATUS c k] s t ∧
        changesOnly [.regs, .out] s t) ∧
      (s.qeRoom c k = false → yields (.queChSubmit who c k off false) s fun t =>
        t.get (R.QUE_CH_STATUS_last_status c k) = ST_BUSY ∧ keepsRegs [R.QUE_CH_STATUS c k] s t ∧
        changesOnly [.regs, .out] s t)) ∧
    (∀ (u : Fin 1024) (block : BitVec 48), writable who (u / 8 * 16 + 9) (u % 8 * 0x1000 + 0x18) s →
      let a := block.toNat
      (a % 64 ≠ 0 → yields (.buSubmit who u block) s fun t =>
        t.get (R.BU_STATUS_last_status (u / 8) (u % 8)) = ST_ALIGN ∧ keepsRegs [R.BU_STATUS (u / 8) (u % 8)] s t ∧
        changesOnly [.regs, .out] s t) ∧
      ∀ c' o', a % 64 = 0 → regionOf a = .sram c' o' → s.mapStatus a 64 = ST_OK → sramReady s c' o' 64 (9, u / 8) →
      let x := buParse (s.bytes a 64) s.tagNext 0 none false
      (s.buStatus u x = ST_OK → s.buRoom u = true → yields (.buSubmit who u block) s fun t =>
        t.buQAt u = s.buQAt u ++ [x] ∧ t.tagNext = s.tagNext + 1 ∧ keepsRegs [R.BU_STATUS (u / 8) (u % 8)] s t ∧
        changesOnly [.regs, .buQ, .tagNext, .out] s t) ∧
      (s.buStatus u x ≠ ST_OK ∨ s.buRoom u = false → yields (.buSubmit who u block) s fun t =>
        t.get (R.BU_STATUS_last_status (u / 8) (u % 8)) =
          (if s.buStatus u x ≠ ST_OK then s.buStatus u x else ST_BUSY) ∧
        keepsRegs [R.BU_STATUS (u / 8) (u % 8)] s t ∧ changesOnly [.regs, .out] s t))

/-- PASS, VOP, QE and BUC, and the same descriptors submitted by register writes. -/
def Obligations.SeqCompoundIssue : Prop := Claims.SeqIssue ∧ Claims.RegisterIssue

namespace Sys2Proof.Claims
open Sys2Proof.Machine

/-- The pass `p` of the queue has become `q`, and no other pass of the cell has changed. -/
def passNow (c : Nat) (p q : Pass) (s t : State) : Prop :=
  t.passQAt c = (s.passQAt c).map fun x => if x.id == p.id then q else x

/-- A dense INT8 pass with one descriptor row stride, one scale of 1.0 and no metadata (R100). -/
def plainInt8 (p : Pass) : Prop :=
  p.md = false ∧ p.sp24 = false ∧ p.zskip = false ∧ p.mxA = false ∧ p.mxW = false ∧ p.mode = 0 ∧ p.part = 0 ∧ p.cplx = 0 ∧
  p.shift = 0 ∧ p.zA = 0 ∧ p.kScale = 0x3F800000 ∧ p.aOp = .int8 ∧ p.aSrc = .int8 ∧ Fmt.ofCode p.wFmt = some .int8

/-- The tile record of a pass without 2:4 pairs and codebooks as it stands in memory (R107, R134). -/
def tileOf (s : State) (c : Nat) (p : Pass) : Tile :=
  let gs : List GroupIn := (List.range p.groups).map fun g =>
    if p.fetches g = true then .held (s.bytes (p.groupAt g) p.groupBytes) [] else if p.zskip = true then .skipped else .absent
  ⟨gs, s.wSums p gs, s.wTables c p⟩

/-- The groups of the pass that the stager fetches answer at once; it has no 2:4 pairs and no codebook, and no tile yet. -/
def tileReady (s : State) (c : Fin 128) (p : Pass) : Prop :=
  p.sp24 = false ∧ p.cb = false ∧ p.tile = none ∧
    ∀ g < p.groups, p.fetches g = true → memReady s (.feeder c) (p.groupAt g) p.groupBytes

/-- The bytes and the blocks that the stager has not fetched are counted (R137). -/
def savedBy (c : Nat) (p : Pass) (s t : State) : Prop :=
  t.get (R.FEED_SP_BYTES_SAVED_count c) = min (s.get (R.FEED_SP_BYTES_SAVED_count c) + p.saved.1) (2 ^ 48 - 1) ∧
  t.get (R.FEED_SP_BLK_ABSENT_count c) = min (s.get (R.FEED_SP_BLK_ABSENT_count c) + p.saved.2) (2 ^ 48 - 1)

/-- A dense tile of 8-bit weights: 16 groups of 8 rows of 64. -/
def denseTile (x : Tile) : Prop := x.gs.length = 16 ∧ ∀ g ∈ x.gs, ∃ data, g = .held data [] ∧ data.length = 512

/-- Weight (k, j) of a dense INT8 tile. -/
def weightAt (x : Tile) (k j : Nat) : Int :=
  match x.gs.getD (k / 8) .absent with
  | .held data _ => (data.getD (64 * (k % 8) + j) 0).toInt
  | _ => 0

/-- The sum of products of an activation row of 128 bytes at `a` with column `j` of a tile. -/
def dotInt8 (s : State) (a : Nat) (x : Tile) (j : Nat) : Int :=
  (List.range 128).foldl (fun n k => n + (s.memAt (a + k)).toInt * weightAt x k j) 0

/-- The bytes of accumulator word (row, j) hold the bits `v`. -/
def accHolds (t : State) (c row j v : Nat) : Prop := t.bytes (accAddr c row j) 8 = toLE 8 v

end Sys2Proof.Claims

/-- TILE_FETCH_START samples the rows of the oldest pass: all of a strided pass without a mask, or those whose mask bit is 0; a pass
without metadata and zero-skip has its tile fetched. With no pass to sample, or no slot in the stager, nothing changes. -/
def Sys2Proof.Claims.PassSampling : Prop :=
  ∀ (c : Fin 128) (s : State), s.power ≠ .off →
    (∀ p, s.stagerUsed c < 36 → (s.passQAt c).find? (fun p => p.phase == 0) = some p → p.mode = 0 → p.maskBase = noOffset →
      0 < p.m →
      let q := { p with phase := 1, fed := (List.range p.m).map fun m => (m, p.aBase + m * p.aStride), bound := s.tagNext,
                        fault := none }
      (p.zskip = true ∨ p.md = true → yields (.tileFetchStart c false) s fun t =>
        passNow c p q s t ∧ keepsRegs [R.FEED_STATUS c, R.FEED_ROWS_MASKED c] s t ∧ changesOnly [.passQ, .regs] s t) ∧
      (p.zskip = false → p.md = false → tileReady s c q → yields (.tileFetchStart c false) s fun t =>
        passNow c p { q with tile := some (tileOf s c q) } s t ∧
        keepsRegs [R.FEED_STATUS c, R.FEED_ROWS_MASKED c] s t ∧ changesOnly [.passQ, .regs] s t)) ∧
    (∀ p, s.stagerUsed c < 36 → (s.passQAt c).find? (fun p => p.phase == 0) = some p → p.mode = 0 → p.maskBase ≠ noOffset →
      p.m ≤ 512 → p.maskBase + (p.m + 7) / 8 ≤ 0x300000 → sramReady s c p.maskBase ((p.m + 7) / 8) (6, 0) →
      let live := (List.range p.m).filter fun m => !(s.memAt (sramAddr c p.maskBase + m / 8)).toNat.testBit (m % 8)
      let q := { p with phase := if live = [] then 4 else 1, fed := live.map fun m => (m, p.aBase + m * p.aStride),
                        bound := s.tagNext, fault := none }
      let plain := live ≠ [] ∧ p.zskip = false ∧ p.md = false
      (plain → tileReady s c q) → yields (.tileFetchStart c false) s fun t =>
        passNow c p (if plain then { q with tile := some (tileOf s c q) } else q) s t ∧
        t.get (R.FEED_ROWS_MASKED_count c) =
          min (s.get (R.FEED_ROWS_MASKED_count c) + (p.m - live.length)) (2 ^ (R.FEED_ROWS_MASKED_count c).w - 1) ∧
        keepsRegs [R.FEED_STATUS c, R.FEED_ROWS_MASKED c] s t ∧ changesOnly [.passQ, .regs] s t) ∧
    ((s.passQAt c).find? (fun p => p.phase == 0) = none ∨ 36 ≤ s.stagerUsed c →
      yields (.tileFetchStart c false) s fun t => changesOnly [] s t)

/-- METADATA_ARRIVAL and ZSKIP_SCAN_END: the metadata is held by its pass; the scan of a strided pass of 8-bit activations
marks the groups in which some row has an element that is not zero. What is then left of the tile is fetched. -/
def Sys2Proof.Claims.PassInputs : Prop :=
  ∀ (c : Fin 128) (s : State) (p : Pass), s.power ≠ .off →
    ((s.passQAt c).find? (fun p => p.md && !p.metaIn && (p.phase == 2 || (p.phase == 1 && !p.zskip))) = some p →
      p.mdata = none → p.fault = none → memReady s (.feeder c) p.metaAddr 1024 →
      s.metaFault c { p with mdata := some (s.bytes p.metaAddr 1024) } = none →
      let q := { p with mdata := some (s.bytes p.metaAddr 1024), metaIn := true }
      tileReady s c q → yields (.metadataArrival c) s fun t =>
        passNow c p { q with tile := some (tileOf s c q) } s t ∧ savedBy c q s t ∧
        keepsRegs [R.FEED_SP_BYTES_SAVED c, R.FEED_SP_BLK_ABSENT c] s t ∧ changesOnly [.passQ, .regs] s t) ∧
    ((s.passQAt c).find? (fun p => p.phase == 1 && p.zskip) = some p → p.md = false → p.fault = none → p.mode = 0 → p.cplx = 0 →
      p.aSrc.bits = 8 → p.sp24 = false → p.stored = 128 →
      (∀ r ∈ p.fed, r.2 + 128 ≤ 0x300000 ∧ sramReady s c r.2 128 (6, 0)) →
      let live := fun g => p.fed.any fun r => (List.range 8).any fun i =>
        (s.memAt (sramAddr c (r.2 + 8 * g + i))).toNat % (if p.aSrc.isInt then 256 else 128) != 0
      let occ := (List.range 16).map live
      let q := { p with phase := 2, occ := occ, run := s.runFor c { p with phase := 2, occ := occ } }
      tileReady s c q → yields (.zskipScanEnd c false) s fun t =>
        passNow c p { q with tile := some (tileOf s c q) } s t ∧ savedBy c q s t ∧
        keepsRegs [R.FEED_SP_GRP_SCANNED c, R.FEED_SP_GRP_SKIPPED c, R.FEED_SP_SCAN_CK c, R.FEED_SP_PASS_MERGED c,
          R.FEED_SP_BYTES_SAVED c, R.FEED_SP_BLK_ABSENT c] s t ∧
        t.get (R.FEED_SP_GRP_SKIPPED_count c) =
          min (s.get (R.FEED_SP_GRP_SKIPPED_count c) + (16 - (occ.filter fun b => b).length))
            (2 ^ (R.FEED_SP_GRP_SKIPPED_count c).w - 1) ∧
        changesOnly [.passQ, .regs] s t)

/-- Row sampling, metadata and the zero-skip scan of a pass. -/
def Obligations.PassSources : Prop := Claims.PassSampling ∧ Claims.PassInputs

/-- PASS_START of a dense INT8 pass: its results are the integer dot products of its rows with the columns of its tile, which the
stager holds, or fetches now, and gives up. -/
def Sys2Proof.Claims.MatrixPassResults : Prop :=
  ∀ (c : Fin 128) (p : Pass) (x : Tile) (s : State), s.power ≠ .off →
    (s.passQAt c).find? (fun q => decide (q.phase < 3)) = some p → p.phase = 1 → p.fault = none → p.mdata = none →
    plainInt8 p → p.run = p.id → s.runOf c p.id = [p] → s.bit (R.FEED_CTRL_enable c) = true → s.feedHalted c = false →
    ((p.tile = some x ∧ denseTile x) ∨ (x = tileOf s c p ∧ tileReady s c p)) →
    (∀ r ∈ p.fed, r.2 + 128 ≤ 0x300000 ∧ sramReady s c r.2 128 (6, 0)) →
    yields (.passStart c false false) s fun t =>
      passNow c p { p with
        phase := 3
        tile := none
        results := p.fed.map fun r =>
          (r.1, (List.range 64).map fun j => Num.ofScaled (dotInt8 s (sramAddr c r.2) x j) 0) } s t ∧
      t.get (R.FEED_ROWS_FED_count c) =
        min (s.get (R.FEED_ROWS_FED_count c) + p.fed.length) (2 ^ (R.FEED_ROWS_FED_count c).w - 1) ∧
      keepsRegs (R.FEED_STATUS c :: R.FEED_ROWS_FED c :: R.FEED_CK_FED c :: feedKeys c) s t ∧
      changesOnly [.passQ, .regs, .feedAt, .freeCtr] s t

/-- PASS_COMPLETE of a pass with one target and no output: the accumulator words take the results, or add them to what they
hold; the pass leaves the queue and is counted. -/
def Sys2Proof.Claims.AccumulatorWrites : Prop :=
  ∀ (c : Fin 128) (p : Pass) (rest : List Pass) (s : State), s.power ≠ .off →
    s.passQAt c = p :: rest → p.phase = 3 → p.fault = none → s.runOf c p.run = [p] → p.output = false → p.dual = false →
    p.neg = false → p.sp24 = false → (∀ q ∈ rest, q.id ≠ p.id) → (p.results.map fun r => r.1).Nodup →
    (∀ r ∈ p.results, r.2.length = 64 ∧ p.accRow + r.1 ≤ 1023 ∧ ∀ j < 64, s.marksAt (accAddr c (p.accRow + r.1) j / 8) = .good) →
    let mode : RMode := ⟨(s.site (R.CELL_ROUND_drn_acc c)).rne, true⟩
    yields (.passComplete c 0) s fun t =>
      (∀ r ∈ p.results, ∀ j < 64,
        let v := r.2.getD j .zero
        let old := Fmt.wide.decode (leNat (s.bytes (accAddr c (p.accRow + r.1) j) 8))
        accHolds t c (p.accRow + r.1) j (if p.first then ((Fmt.wide.encode mode v).run Ev.zero).1
          else ((do let x ← old.add v
                    Fmt.wide.encode mode x).run Ev.zero).1)) ∧
      (∀ x, (∀ r ∈ p.results, x < accAddr c (p.accRow + r.1) 0 ∨ accAddr c (p.accRow + r.1) 64 ≤ x) → t.memAt x = s.memAt x) ∧
      t.passQAt c = rest ∧
      t.get (R.FEED_PASS_COUNT_passes c) = (s.get (R.FEED_PASS_COUNT_passes c) + 1) % 2 ^ (R.FEED_PASS_COUNT_passes c).w ∧
      (p.pbx ≠ 0xFF → ∃ g, t.sigQ = s.sigQ ++ [g] ∧ g.pbx = c * 48 + p.pbx ∧ g.add = 1) ∧
      changesOnly [.passQ, .regs, .mem, .marks, .sigQ, .feedAt, .freeCtr] s t

/-- A dense INT8 pass: its results, and their way into the accumulator. -/
def Obligations.MatrixPasses : Prop := Claims.MatrixPassResults ∧ Claims.AccumulatorWrites

/-- FEED_ENABLE and FEED_ABORT. -/
def Obligations.FeedControl : Prop :=
  ∀ (who : Agent) (c : Fin 128) (on : Bool) (s : State), writable who (c * 16 + 2) 0 s →
    (yields (.feedEnable who c on) s fun t =>
      t.bit (R.FEED_CTRL_enable c) = on ∧ (on = true → t.feedHalted c = false) ∧
      (on = false → s.feedHalted c = true → t.feedHalted c = true) ∧
      keepsRegs (R.FEED_CTRL c :: R.FEED_STATUS c :: feedKeys c) s t ∧ changesOnly [.regs, .feedAt, .freeCtr, .out] s t) ∧
    (yields (.feedAbort who c) s fun t =>
      let gone := (s.passQAt c).filter fun p => p.phase != 3
      t.passQAt c = (s.passQAt c).filter (fun p => p.phase == 3) ∧
      t.get (R.FEED_PASS_COUNT_passes c) =
        (s.get (R.FEED_PASS_COUNT_passes c) + gone.length) % 2 ^ (R.FEED_PASS_COUNT_passes c).w ∧
      (gone ≠ [] → t.get (R.FEED_STATUS_last_status c) = ST_ABORTED) ∧
      t.sigQ.map (fun g => (g.pbx, g.add)) =
        (s.sigQ.map fun g => (g.pbx, g.add)) ++ ((gone.filter fun p => p.pbx != 0xFF).map fun p => (c.val * 48 + p.pbx, 1)) ∧
      keepsRegs (R.FEED_STATUS c :: R.FEED_PASS_COUNT c :: feedKeys c) s t ∧
      changesOnly [.passQ, .sigQ, .regs, .feedAt, .freeCtr, .out] s t)

namespace Sys2Proof.Claims
open Sys2Proof.Machine

/-- Two ranges of addresses have no byte in common. -/
def apart (a n b m : Nat) : Prop := a + n ≤ b ∨ b + m ≤ a

/-- Channel `k` of cell `c` takes up descriptor `d` from its first byte: the operation is `op`, the channel is not halted, and
not paused before a descriptor that has not started (R176, R179). -/
def channelStarts (s : State) (c k op : Nat) (d : QeDesc) : Prop :=
  s.power ≠ .off ∧ s.chHalted c k = false ∧ s.qeNext c k = some d ∧ d.op = op ∧ d.fault = none ∧ d.pos = 0 ∧
  (d.started = true ∨ s.bit (R.QUE_CH_CTRL_pause c k) = false) ∧ d.hint % 4 = 0

/-- Descriptor `d` of the channel has issued all its requests without a fault; the other descriptors are as before. -/
def moved (c k : Nat) (d : QeDesc) (s t : State) : Prop :=
  t.qeQAt (c * 8 + k) = (s.qeQAt (c * 8 + k)).map fun x => if x.id == d.id then { d with started := true, pos := d.total } else x

/-- What a channel may change beside its descriptors: memory, notices, the check-value engines and what tells of events. -/
def channelParts : List Part := [.qeQ, .mem, .check, .marks, .landQ, .regs, .tracker, .mon, .msix, .mgmtQ, .out]

/-- The bytes of a descriptor land under a tag when it has one. -/
def landsOnly (d : QeDesc) (s t : State) : Prop := d.tag = none → t.landQ = s.landQ

/-- A read of the descriptor has collided at an address: no memory changes, the collision is counted, and it is the descriptor's
fault (R174). -/
def struckAt (c k : Nat) (d : QeDesc) (a : Nat) (s t : State) : Prop :=
  (∀ x, t.memAt x = s.memAt x) ∧
  t.qeQAt (c * 8 + k) = ((s.qeQAt (c * 8 + k)).map fun x => if x.id == d.id then { d with started := true, fault := some (a, ST_COLLISION) } else x) ∧
  t.get (R.CELL_COLLISION_count (cellAt a)) = min (s.get (R.CELL_COLLISION_count (cellAt a)) + 1) (2 ^ 32 - 1)

end Sys2Proof.Claims

/-- COPY, FILL, GATHER and SCATTER between memories that answer at once: which bytes move where; and what a first read that collides
leaves (R174). -/
def Sys2Proof.Claims.QueueEngineMoves : Prop :=
  ∀ (c : Fin 128) (k : Fin 8) (d : QeDesc) (s : State),
    let who : Agent := .engine c k
    let row := fun i => leNat (s.bytes (d.list + 8 * i) 8)
    (channelStarts s c k 0 d → memReady s who d.src d.length → memReady s who d.dst d.length → apart d.src d.length d.dst d.length →
      yields (.qeCopy c k none) s fun t =>
        stored d.dst (s.bytes d.src d.length) s t ∧ moved c k d s t ∧ landsOnly d s t ∧ changesOnly channelParts s t) ∧
    (channelStarts s c k 2 d → memReady s who d.dst d.length → yields (.qeFill c k) s fun t =>
      stored d.dst ((List.range d.length).map fun i => BitVec.ofNat 8 (d.pattern / 2 ^ (8 * (i % 8)))) s t ∧ moved c k d s t ∧
      landsOnly d s t ∧ changesOnly channelParts s t) ∧
    (channelStarts s c k 3 d → 0 < d.rowBytes → memReady s who d.list (8 * d.count) → memReady s who d.dst d.total →
      apart d.list (8 * d.count) d.dst d.total →
      (∀ i < d.count, memReady s who (row i) d.rowBytes ∧ apart (row i) d.rowBytes d.dst d.total) →
      yields (.qeGather c k none) s fun t =>
        stored d.dst ((List.range d.count).flatMap fun i => s.bytes (row i) d.rowBytes) s t ∧ moved c k d s t ∧
        landsOnly d s t ∧ changesOnly channelParts s t) ∧
    (channelStarts s c k 4 d → 0 < d.rowBytes → memReady s who d.list (8 * d.count) → memReady s who d.src d.total →
      (∀ i < d.count, memReady s who (row i) d.rowBytes ∧ apart (row i) d.rowBytes d.src d.total ∧
        apart (row i) d.rowBytes d.list (8 * d.count) ∧ ∀ j < d.count, i ≠ j → apart (row i) d.rowBytes (row j) d.rowBytes) →
      yields (.qeScatter c k none) s fun t =>
        (∀ i < d.count, ∀ j < d.rowBytes, t.memAt (row i + j) = s.memAt (d.src + i * d.rowBytes + j)) ∧
        (∀ x, (∀ i < d.count, x < row i ∨ row i + d.rowBytes ≤ x) → t.memAt x = s.memAt x) ∧ moved c k d s t ∧
        landsOnly d s t ∧ changesOnly channelParts s t) ∧
    (0 < d.length → (∃ c' o, regionOf d.src = .sram c' o) → memReady s who d.src d.length → memReady s who d.dst d.length →
      channelStarts s c k 0 d → yields (.qeCopy c k (some 0)) s (struckAt c k d d.src s)) ∧
    (0 < d.rowBytes → 0 < d.count → (∃ c' o, regionOf d.list = .sram c' o) → memReady s who d.list (8 * d.count) →
      (channelStarts s c k 3 d → yields (.qeGather c k (some ⟨true, 0⟩)) s (struckAt c k d d.list s)) ∧
      (channelStarts s c k 4 d → yields (.qeScatter c k (some ⟨true, 0⟩)) s (struckAt c k d d.list s)))

/-- SEND of one segment with a credit, or the stall without one; the landing of the segment in the ring of its route; the
return of its credit. -/
def Obligations.RouteCredits : Prop :=
  ∀ (c : Fin 128) (s : State), s.power ≠ .off →
    (∀ (k : Fin 8) (d : QeDesc), channelStarts s c k 1 d → memReady s (.engine c k) d.src d.length →
      s.bit (R.QUE_ROUTE_OUT_CFG_valid c d.route) = true → s.bit (R.QUE_ROUTE_OUT_STATE_broken c d.route) = false →
      let r := d.route
      let slot := s.routeSlotAt (c * 32 + r)
      let step := 2 ^ s.get (R.QUE_ROUTE_OUT_CFG_granule_log2 c r)
      (d.length ≤ step → 0 < s.get (R.QUE_ROUTE_OUT_STATE_credits_avail c r) →
        s.get (R.QUE_ROUTE_OUT_STATE_segs_in_flight c r) < 256 → yields (.qeSend c k none) s fun t =>
          t.segQ = s.segQ ++ [⟨c, k, r, d.id, 0, s.get (R.QUE_ROUTE_OUT_CFG_dest_cell c r),
            s.get (R.QUE_ROUTE_OUT_CFG_ring_base c r) * 4096 + slot * step, s.bytes d.src d.length, d.tag⟩] ∧
          t.routeSlotAt (c * 32 + r) = (slot + 1) % max 1 (s.get (R.QUE_ROUTE_OUT_CFG_credits c r)) ∧
          t.get (R.QUE_ROUTE_OUT_STATE_credits_avail c r) = s.get (R.QUE_ROUTE_OUT_STATE_credits_avail c r) - 1 ∧
          t.get (R.QUE_ROUTE_OUT_STATE_segs_in_flight c r) = s.get (R.QUE_ROUTE_OUT_STATE_segs_in_flight c r) + 1 ∧
          t.get (R.QUE_ROUTE_OUT_SEGS_segments_sent c r) =
            (s.get (R.QUE_ROUTE_OUT_SEGS_segments_sent c r) + 1) % 2 ^ (R.QUE_ROUTE_OUT_SEGS_segments_sent c r).w ∧
          moved c k d s t ∧ (∀ x, t.memAt x = s.memAt x)) ∧
      (s.get (R.QUE_ROUTE_OUT_STATE_credits_avail c r) = 0 → s.stallSinceAt (c * 32 + r) = 0 →
        yields (.qeSend c k none) s fun t =>
          t.stallSinceAt (c * 32 + r) = s.now + 1 ∧ t.segQ = s.segQ ∧
          t.get (R.QUE_ROUTE_OUT_STATE_credits_avail c r) = 0 ∧ ∀ x, t.memAt x = s.memAt x)) ∧
    (∀ (g : Segment) (rest : List Segment), s.segQ = g :: rest → s.cellRetired g.dest = false →
      s.qeFlushAt (g.cell * 8 + g.chan) = [] →
      (∀ r, s.inRoute g = some r → sramReady s g.dest g.off g.data.length (9, g.cell) →
        s.get (R.QUE_ROUTE_IN_STATE_slots_held g.dest r) < 256 →
        yields .segmentLand s fun t =>
          t.segQ = rest ∧ stored (sramAddr g.dest g.off) g.data s t ∧
          t.get (R.QUE_ROUTE_IN_STATE_slots_held g.dest r) = s.get (R.QUE_ROUTE_IN_STATE_slots_held g.dest r) + 1 ∧
          t.get (R.QUE_ROUTE_IN_STATE_segments_received g.dest r) =
            (s.get (R.QUE_ROUTE_IN_STATE_segments_received g.dest r) + 1) % 2 ^ (R.QUE_ROUTE_IN_STATE_segments_received g.dest r).w ∧
          t.creditQ = s.creditQ ++ [⟨g.cell, g.chan, g.route, g.desc, g.pos, g.dest, some r, ST_OK⟩] ∧
          t.landQ = s.landQ ++ g.tag.toList.map fun p => ⟨some g.dest, p, g.data.length, s.now⟩) ∧
      (s.inRoute g = none → yields .segmentLand s fun t =>
        t.segQ = rest ∧ t.creditQ = s.creditQ ++ [⟨g.cell, g.chan, g.route, g.desc, g.pos, g.dest, none, ST_ADDR_UNMAPPED⟩] ∧
        changesOnly [.segQ, .creditQ] s t)) ∧
    (∀ (y : Credit) (later : List Credit) (r : Nat), s.creditQ = y :: later → y.slot = some r →
      (∀ parity : Bool, s.cellRetired y.dest = true → yields (.creditReturn parity) s fun t =>
        t.creditQ = later ∧ changesOnly [.creditQ] s t) ∧
      (s.cellRetired y.dest = false → y.status = ST_OK → s.get (R.QUE_ROUTE_OUT_STATE_credits_avail y.cell y.route) ≤ 256 → yields (.creditReturn false) s fun t =>
        t.creditQ = later ∧
        t.get (R.QUE_ROUTE_OUT_STATE_credits_avail y.cell y.route) =
          min 256 (s.get (R.QUE_ROUTE_OUT_STATE_credits_avail y.cell y.route) + 1) ∧
        t.get (R.QUE_ROUTE_OUT_STATE_segs_in_flight y.cell y.route) =
          s.get (R.QUE_ROUTE_OUT_STATE_segs_in_flight y.cell y.route) - 1 ∧
        t.get (R.QUE_ROUTE_IN_STATE_slots_held y.dest r) = s.get (R.QUE_ROUTE_IN_STATE_slots_held y.dest r) - 1 ∧
        t.stallSinceAt (y.cell * 32 + y.route) = 0 ∧
        keepsRegs [R.QUE_ROUTE_OUT_STATE y.cell y.route, R.QUE_ROUTE_IN_STATE y.dest r,
          R.QUE_ROUTE_OUT_STALL y.cell y.route] s t ∧ changesOnly [.creditQ, .regs, .stallSince] s t) ∧
      (s.cellRetired y.dest = false → s.qeQAt (y.cell * 8 + y.chan) = [] → yields (.creditReturn true) s fun t =>
        t.creditQ = later ∧ t.bit (R.QUE_ROUTE_OUT_STATE_broken y.cell y.route) = true ∧
        t.get (R.QUE_ROUTE_OUT_STATE_last_status y.cell y.route) = ST_PARITY ∧
        t.get (R.QUE_ROUTE_OUT_STATE_credits_avail y.cell y.route) =
          s.get (R.QUE_ROUTE_OUT_STATE_credits_avail y.cell y.route) ∧
        changesOnly [.creditQ, .regs] s t))

/-- The end of a channel's descriptor, and the channel's pause, resume, skip and flush. -/
def Sys2Proof.Claims.ChannelControl : Prop :=
  ∀ (who : Agent) (c : Fin 128) (k : Fin 8) (s : State),
    let q := s.qeQAt (c * 8 + k)
    let done := s.get (R.QUE_CH_DONE_completed c k)
    let wrap := 2 ^ (R.QUE_CH_DONE_completed c k).w
    let ends := fun (ds : List QeDesc) => (ds.filter fun d => d.flags / 4 % 2 == 1).map fun d => (c.val * 48 + d.donePbx, 1)
    let told := fun (t : State) (ds : List QeDesc) => t.sigQ.map (fun g => (g.pbx, g.add)) = (s.sigQ.map fun g => (g.pbx, g.add)) ++ ends ds
    let parts : List Part := [.qeQ, .sigQ, .regs, .msix, .mgmtQ, .out]
    (∀ (d : QeDesc) (rest : List QeDesc), s.power ≠ .off → q = d :: rest → (∀ x ∈ rest, x.id ≠ d.id) → s.chHalted c k = false →
      d.started = true →
      (d.fault = none → d.total ≤ d.pos → s.segsOut d = false → yields (.qeResponse c k) s fun t =>
        t.qeQAt (c * 8 + k) = rest ∧ t.get (R.QUE_CH_DONE_completed c k) = (done + 1) % wrap ∧ told t [d] ∧
        (d.total = 0 → t.get (R.QUE_CH_STATUS_last_status c k) = ST_BAD_ARG) ∧
        (0 < d.total → t.get (R.QUE_CH_STATUS_last_status c k) = s.get (R.QUE_CH_STATUS_last_status c k)) ∧
        changesOnly parts s t) ∧
      (∀ a st, d.fault = some (a, st) → st < 256 → yields (.qeResponse c k) s fun t =>
        t.chHalted c k = true ∧ t.get (R.QUE_CH_STATUS_halt_cause c k) = st ∧ t.get (R.QUE_CH_FAULT_status c k) = st ∧
        t.get (R.QUE_CH_FAULT_fault_addr c k) = a % 2 ^ (R.QUE_CH_FAULT_fault_addr c k).w ∧ t.qeQAt (c * 8 + k) = q ∧
        t.bit (R.EVC_ROUTE_asserted (c * 8 + 1)) = true ∧ changesOnly [.regs, .msix, .mgmtQ, .out] s t)) ∧
    (writable who (c * 16 + 5) (k * 0x100) s →
      (∀ on : Bool, yields (.queChPause who c k on) s fun t =>
        t.bit (R.QUE_CH_CTRL_pause c k) = on ∧ t.chHalted c k = s.chHalted c k ∧
        changesOnly [.regs, .msix, .mgmtQ, .out] s t) ∧
      (s.chHalted c k = true →
        (yields (.queChResume who c k) s fun t =>
          t.chHalted c k = false ∧
          t.qeQAt (c * 8 + k) = (match q with
            | d :: rest => { d with fault := none } :: rest.map fun x => if x.id == d.id then { d with fault := none } else x
            | [] => []) ∧ t.sigQ = s.sigQ ∧ changesOnly parts s t) ∧
        (∀ (d : QeDesc) (rest : List QeDesc), q = d :: rest → (∀ x ∈ rest, x.id ≠ d.id) →
          yields (.queChSkip who c k) s fun t =>
            t.chHalted c k = false ∧ t.qeQAt (c * 8 + k) = rest ∧
            t.get (R.QUE_CH_STATUS_last_status c k) = ST_CHANNEL_HALTED ∧
            t.get (R.QUE_CH_DONE_completed c k) = (done + 1) % wrap ∧ told t [d] ∧ changesOnly parts s t)) ∧
      (s.chHalted c k = false →
        yields (.queChResume who c k) s (fun t => changesOnly [.out] s t) ∧
        yields (.queChSkip who c k) s fun t => changesOnly [.out] s t) ∧
      ((∃ d ∈ q, s.segsOut d = true) → yields (.queChFlush who c k) s fun t =>
        t.qeFlushAt (c * 8 + k) = q.map (fun d => d.id) ∧ t.qeQAt (c * 8 + k) = q ∧ changesOnly [.qeFlush, .out] s t) ∧
      ((∀ d ∈ q, s.segsOut d = false) → yields (.queChFlush who c k) s fun t =>
        t.chHalted c k = false ∧ t.qeQAt (c * 8 + k) = [] ∧
        t.get (R.QUE_CH_DONE_completed c k) = (done + q.length) % wrap ∧ told t q ∧
        (q ≠ [] → t.get (R.QUE_CH_STATUS_last_status c k) = ST_ABORTED) ∧ changesOnly (.qeFlush :: parts) s t))

/-- COPY, FILL, GATHER and SCATTER move exactly their bytes; a channel's end, halt, pause, resume, skip and flush. -/
def Obligations.QueueEngines : Prop := Claims.QueueEngineMoves ∧ Claims.ChannelControl

namespace Sys2Proof.Claims
open Sys2Proof.Machine

/-- Bytes of a vault that the address map answers and no diagnostic lock covers (R183, R200). -/
def vaultOpen (s : State) (a n : Nat) : Prop :=
  (∃ c, regionOf a = .vault c) ∧ s.mapStatus a n = ST_OK ∧ s.touchesLock a n = false

/-- What the samples of a monitoring unit may change beside the unit. -/
def sampleParts : List Part := [.out, .mon, .regs, .msix, .mgmtQ]

/-- A word that reads as `v` without an error. -/
def reads (t : State) (w v : Nat) : Prop := t.decode w = .good ∧ t.word w = v

/-- Register `i` of the scrub record of a unit. -/
def recordWord (u : Option (Fin 128)) (i : Nat) : Nat := rk (unitPage u) (0x220 + 8 * i)

end Sys2Proof.Claims

/-- VAULT_REQUEST: reads return the granule, writes store their bytes, a request over a granule's end is refused, and so is one
into a locked range. -/
def Sys2Proof.Claims.VaultAccesses : Prop :=
  ∀ (addr : BitVec 48) (n : Fin 65) (bs : List Byte) (ns : BitVec 32) (s : State), s.power ≠ .off →
    let a := addr.toNat
    let g := a / 64 * 64
    (oneGranule a n = true → vaultOpen s a n → (∀ w ∈ wordsOf g 64, wordSound s w) →
      yields (.vaultRequest addr n none ns) s fun t =>
        (∃ rest, t.out = .reply ST_OK (s.bytes g 64) :: rest) ∧ changesOnly sampleParts s t) ∧
    (oneGranule a n = true → vaultOpen s a n → ∀ w i, w ∈ wordsOf g 64 → s.decode w = .single i →
      (∀ v ∈ wordsOf g 64, v ≠ w → wordSound s v) → yields (.vaultRequest addr n none ns) s fun t =>
        (∃ rest, t.out = .reply ST_OK ((wordsOf g 64).flatMap fun v => toLE 8 (if v = w then s.corrected w else s.word v)) :: rest) ∧
        (∀ x, t.memAt x = s.memAt x)) ∧
    (oneGranule a bs.length = true → vaultOpen s a bs.length → (∀ w ∈ wordsOf a bs.length, wordSound s w) →
      yields (.vaultRequest addr n (some bs) ns) s fun t =>
        t.out = .reply ST_OK [] :: s.out ∧ stored a bs s t ∧ (∀ w ∈ wordsOf a bs.length, t.decode w = .good) ∧
        keepsRegs [R.VLT_RMW_CNT (unitOf a / 8) (unitOf a % 8)] s t ∧ changesOnly [.out, .mem, .check, .regs] s t) ∧
    (oneGranule a n = false → yields (.vaultRequest addr n none ns) s fun t =>
      t.out = .reply ST_ALIGN [] :: s.out ∧ changesOnly [.out] s t) ∧
    (oneGranule a bs.length = true → (∃ c, regionOf a = .vault c) → s.mapStatus a bs.length = ST_OK →
      s.touchesLock a bs.length = true → yields (.vaultRequest addr n (some bs) ns) s fun t =>
        t.out = .reply ST_BUSY [] :: s.out ∧ changesOnly [.out] s t)

/-- Refresh, the repair tracker's windows and the writing of remaps to the persistent list. -/
def Sys2Proof.Claims.VaultUpkeep : Prop :=
  ∀ s : State, s.power ≠ .off →
    (∀ (u : Fin 1024) (b : Fin 16), yields (.refresh u b) s fun t =>
      t.refRowAt (u * 16 + b) = (s.refRowAt (u * 16 + b) + 1) % 3072 ∧
      (∀ k, k ≠ u.val * 16 + b.val → t.refRowAt k = s.refRowAt k) ∧ changesOnly [.refRow] s t) ∧
    (∀ r rest, s.remapNew = r :: rest → yields .remapPersist s fun t =>
      t.remapNew = rest ∧ t.remapFlash = s.remapFlash ++ [r] ∧ changesOnly [.remapNew, .remapFlash] s t) ∧
    (∀ (u : Fin 1048) (x : TrackRow) (rest : List TrackRow), s.trackerAt u = x :: rest → (∀ y ∈ rest, x.first ≤ y.first) →
      let w := (s.trackCfg u).2.2
      yields (.trackerWindowExpiry u) s fun t =>
        t.now = max s.now (x.first + w + 1) ∧ x ∉ t.trackerAt u ∧
        t.trackerAt u = (s.trackerAt u).filter (fun y => decide (t.now ≤ y.first + w)) ∧
        (∀ k, k ≠ u.val → t.trackerAt k = s.trackerAt k) ∧ changesOnly [.now, .tracker] s t)

/-- Vault requests, refresh, the repair tracker's window and the persistent remap list. -/
def Obligations.VaultReadsWrites : Prop := Claims.VaultAccesses ∧ Claims.VaultUpkeep

/-- Scrubs: what a start accepts, and what the end of a scrub of one granule records. -/
def Sys2Proof.Claims.ScrubRuns : Prop :=
  ∀ (who : Agent) (u : Option (Fin 128)) (s : State),
    let base := s.get (scrubBase u)
    let limit := s.get (scrubLimit u)
    let good := base % 64 = 0 ∧ limit % 64 = 63 ∧ base ≤ limit ∧ inUnit u base = true ∧ inUnit u limit = true
    (writable who (unitPage u) 0x210 s →
      (s.bit (scrubBusy u) = true → yields (.scrubStart who u) s fun t =>
        t.get (scrubLast u) = ST_BUSY ∧ t.scrubRunAt (unitKey u) = s.scrubRunAt (unitKey u) ∧ changesOnly [.regs, .out] s t) ∧
      (s.bit (scrubBusy u) = false → good → yields (.scrubStart who u) s fun t =>
        t.bit (scrubBusy u) = true ∧ t.scrubRunAt (unitKey u) = some (base, limit, s.now) ∧
        keepsRegs [rk (unitPage u) 0x210] s t ∧ changesOnly [.regs, .scrubRun, .out] s t) ∧
      (s.bit (scrubBusy u) = false → ¬good → s.get (scrubRecAddr u) = 0 → yields (.scrubStart who u) s fun t =>
        t.get (scrubLast u) = ST_BAD_ARG ∧ t.bit (scrubBusy u) = false ∧
        t.reg (recordWord u 0) = 0 ∧ t.reg (recordWord u 2) = BitVec.ofNat 64 (ST_BAD_ARG * 2 ^ 32) ∧
        changesOnly [.regs, .out] s t) ∧
      (s.scrubRunAt (unitKey u) = some (base, limit, s.now) → good → s.get (scrubRecAddr u) = 0 →
        yields (.scrubAbort who u 0) s fun t =>
          t.bit (scrubBusy u) = false ∧ t.scrubRunAt (unitKey u) = none ∧ t.reg (recordWord u 0) = 0 ∧
          t.reg (recordWord u 2) = BitVec.ofNat 64 (ST_SCRUB_ABORTED * 2 ^ 32) ∧
          changesOnly [.regs, .scrubRun, .msix, .mgmtQ, .out] s t)) ∧
    (∀ start, s.power ≠ .off → s.scrubRunAt (unitKey u) = some (base, base + 63, start) → base % 64 = 0 → base + 64 ≤ 2 ^ 48 →
      s.diagLocked base = false → (∀ w ∈ wordsOf base 64, isExt w = false ∧ s.diagLocked w = false) → s.get (scrubRecAddr u) = 0 →
      (∀ w ∈ wordsOf base 64, s.decode w = .good ∨ ∃ i, s.decode w = .single i) →
      let hurt := (wordsOf base 64).filter fun w => s.decode w != .good
      yields (.scrubDone u) s fun t =>
        t.bit (scrubBusy u) = false ∧ t.scrubRunAt (unitKey u) = none ∧ t.reg (recordWord u 0) = 8 ∧
        t.reg (recordWord u 1) = BitVec.ofNat 64 hurt.length ∧ t.reg (recordWord u 2) = 0 ∧
        (∀ w ∈ wordsOf base 64,
          reads t w (if s.bit (scrubWriteBack u) then s.corrected w else s.word w) ∨
            (s.bit (scrubWriteBack u) = false ∧ t.decode w = s.decode w ∧ t.word w = s.word w)))

/-- The diagnostic lock and raw accesses: only in DIAGNOSTIC, under a granted lock over the word; what raw writes and raw reads
move. -/
def Sys2Proof.Claims.DiagnosticAccess : Prop :=
  ∀ (who : Agent) (u : Fin 128) (v : Word) (check : BitVec 16) (s : State),
    let a := s.diagWord (some u)
    let page := unitPage (some u)
    (writable who page 0x300 s →
      (v.toNat % 2 = 1 → s.diagnostic = false → yields (.diagLock who (some u) v) s fun t =>
        t.bit (diagLock (some u)) = false ∧ t.get (diagStatus (some u)) = ST_DIAG_DENIED ∧ changesOnly [.regs, .out] s t) ∧
      (v.toNat % 2 = 1 → s.diagnostic = true → yields (.diagLock who (some u) v) s fun t =>
        t.bit (diagLock (some u)) = true ∧ t.bit (diagLockOk (some u)) = false ∧
        t.get (diagBase (some u)) = v.toNat / 64 % 2 ^ 42 ∧ keepsRegs [rk page 0x300] s t ∧ changesOnly [.regs, .out] s t) ∧
      (v.toNat % 2 = 0 → yields (.diagLock who (some u) v) s fun t =>
        t.bit (diagLock (some u)) = false ∧ t.bit (diagLockOk (some u)) = false ∧ changesOnly [.regs, .out] s t)) ∧
    (s.power ≠ .off → yields (.diagLockGranted (some u)) s fun t =>
      t.bit (diagLockOk (some u)) = (s.bit (diagLock (some u)) || s.bit (diagLockOk (some u))) ∧
      keepsRegs [rk page 0x300] s t ∧ changesOnly [.regs] s t) ∧
    (writable who page 0x320 s → s.rawStatus (some u) = ST_OK →
      (yields (.rawWrite who (some u) check) s fun t =>
        t.word a = (s.reg (rk page 0x318)).toNat ∧
        (t.checkAt (a / 8)).toNat = Nat.xor check.toNat (checkOf (s.reg (rk page 0x318)).toNat a) ∧
        (∀ x, x < a ∨ a + 8 ≤ x → t.memAt x = s.memAt x) ∧ t.get (diagStatus (some u)) = ST_OK ∧
        changesOnly [.regs, .mem, .check, .out] s t) ∧
      (yields (.rawRead who (some u)) s fun t =>
        t.reg (rk page 0x318) = BitVec.ofNat 64 (s.word a) ∧
        t.get ⟨rk page 0x320, 0, 16⟩ = Nat.xor (s.checkAt (a / 8)).toNat (checkOf (s.word a) a) ∧
        t.get (diagStatus (some u)) = ST_OK ∧ keepsRegs [rk page 0x318, rk page 0x320] s t ∧ changesOnly [.regs, .out] s t)) ∧
    (writable who page 0x320 s → s.rawStatus (some u) ≠ ST_OK → yields (.rawWrite who (some u) check) s fun t =>
      t.get (diagStatus (some u)) = s.rawStatus (some u) ∧ changesOnly [.regs, .out] s t)

/-- Scrub engines and diagnostic access. -/
def Obligations.ScrubAndDiagnostics : Prop := Claims.ScrubRuns ∧ Claims.DiagnosticAccess

namespace Sys2Proof.Claims
open Sys2Proof.Machine

/-- Unit `u` is about to execute the legal instruction word `w` of a running program, with opcode `op` (R214, R215). -/
def unitAt (s : State) (u : Nat) (w : Word) (op : Nat) : Prop :=
  s.power ≠ .off ∧ s.bu u = BU_RUN ∧ (∃ x, s.buRunning u = some x ∧ x.svc = false) ∧
  s.reg (R.BU_PROG (u / 8) (u % 8) (s.buPc u)) = w ∧ buLegal w = true ∧ (buFields w).op = op

/-- The unit goes on at `pc`; register `d` has taken `v` (G0 stays 0); no other register and nothing else has changed. -/
def unitDone (u d : Nat) (v : Word) (pc : Nat) (s t : State) : Prop :=
  t.bug u d = (if d = 0 then 0 else v) ∧ t.buPc u = pc ∧ t.get (R.BU_PROGRESS_pc (u / 8) (u % 8)) = pc ∧ t.bu u = BU_RUN ∧
  (∀ k, k ≠ R.BU_STATUS (u / 8) (u % 8) → k ≠ R.BU_PROGRESS (u / 8) (u % 8) →
    (k ≠ R.BU_G (u / 8) (u % 8) d ∨ d = 0) → t.regsAt k = s.regsAt k) ∧ changesOnly [.regs] s t

/-- The unit is FAULTED; every command it held has ended, and the fault record tells the cause (R231). -/
def unitTrapped (u cause st : Nat) (s t : State) : Prop :=
  t.bu u = BU_FAULTED ∧ t.buQAt u = [] ∧ t.get (R.BU_FAULT_cause (u / 8) (u % 8)) = cause ∧
  t.get (R.BU_FAULT_status (u / 8) (u % 8)) = st ∧ t.get (R.BU_FAULT_pc (u / 8) (u % 8)) = s.buPc u ∧
  t.get (R.BU_STATUS_last_status (u / 8) (u % 8)) = st ∧ ∀ x, t.memAt x = s.memAt x

end Sys2Proof.Claims

/-- The scalar instructions of a bank unit give their results and go on to the next instruction. -/
def Sys2Proof.Claims.UnitScalarResults : Prop :=
  ∀ (u : Fin 1024) (w : Word) (s : State), s.buPc u < 511 →
    let i := buFields w
    let x := s.bug u i.a
    let y := s.bug u i.b
    let n := (y + i.imm.signExtend 64).toNat % 64
    let gives := fun (c : Instr) (d : Nat) (v : Word) => yields c s (unitDone u d v (s.buPc u + 1) s)
    (unitAt s u w 0x00 → gives (.buNop u 0) 0 0) ∧
    (unitAt s u w 0x01 → gives (.buLi u 0) i.d (i.imm.signExtend 64)) ∧
    (unitAt s u w 0x02 → gives (.buLih u 0) i.d (i.imm ++ (s.bug u i.d).setWidth 32)) ∧
    (unitAt s u w 0x03 → gives (.buAdd u 0) i.d (x + y + i.imm.signExtend 64)) ∧
    (unitAt s u w 0x04 → gives (.buSub u 0) i.d (x - y)) ∧
    (unitAt s u w 0x05 → gives (.buMul u 0) i.d (x * y)) ∧
    (unitAt s u w 0x06 → gives (.buShl u 0) i.d (x <<< n)) ∧
    (unitAt s u w 0x07 → gives (.buShr u 0) i.d (x >>> n)) ∧
    (unitAt s u w 0x08 → gives (.buAnd u 0) i.d (x &&& y)) ∧
    (unitAt s u w 0x09 → gives (.buOr u 0) i.d (x ||| y))

/-- The jumps, the loop, the yield point and the end of a program; an illegal word, a bad fetch and a program counter that
passes 511 trap the unit. -/
def Sys2Proof.Claims.UnitControlFlow : Prop :=
  ∀ (u : Fin 1024) (w : Word) (s : State),
    let i := buFields w
    let x := s.bug u i.a
    let y := s.bug u i.b
    let target := i.imm.toNat % 512
    let next := s.buPc u + 1
    let gives := fun (c : Instr) (d : Nat) (v : Word) (pc : Nat) => yields c s (unitDone u d v pc s)
    (next < 512 → unitAt s u w 0x0A → gives (.buBne u 0) 0 0 (if x ≠ y then target else next)) ∧
    (next < 512 → unitAt s u w 0x0B → gives (.buBltu u 0) 0 0 (if x.toNat < y.toNat then target else next)) ∧
    (unitAt s u w 0x0C → gives (.buJmp u 0) 0 0 target) ∧
    (next < 512 → unitAt s u w 0x0D → i.d ≠ 0 →
      gives (.buLoop u 0) i.d (s.bug u i.d - 1) (if s.bug u i.d - 1 ≠ 0 then target else next)) ∧
    (next < 512 → unitAt s u w 0x0E → s.heldAt u = [] → yields (.buYield u 0) s fun t =>
      t.buPc u = next ∧ t.yieldAtAt u = s.now ∧
      t.get (R.BU_YIELD_max_gap_ns (u / 8) (u % 8)) = max (s.get (R.BU_YIELD_max_gap_ns (u / 8) (u % 8))) (s.buGap u) ∧
      keepsRegs [R.BU_STATUS (u / 8) (u % 8), R.BU_PROGRESS (u / 8) (u % 8), R.BU_YIELD (u / 8) (u % 8)] s t ∧
      changesOnly [.regs, .yieldAt] s t) ∧
    (∀ (c : BuCmd) (rest : List BuCmd), unitAt s u w 0x0F → s.buQAt u = c :: rest → (∀ z ∈ rest, z.id ≠ c.id) → s.heldAt u = [] →
      c.kvt = none → yields (.buEnd u 0) s fun t =>
        t.buQAt u = rest ∧ t.bu u = BU_IDLE ∧
        t.get (R.BU_STATUS_last_status (u / 8) (u % 8)) =
          (if c.poisoned then ST_POISON else if c.forced then ST_BU_FORCED_YIELD else ST_OK) ∧
        t.get (R.BU_CMDS_count (u / 8) (u % 8)) =
          min (s.get (R.BU_CMDS_count (u / 8) (u % 8)) + 1) (2 ^ (R.BU_CMDS_count (u / 8) (u % 8)).w - 1) ∧
        (if c.flags % 2 = 1 then ∃ g, t.sigQ = s.sigQ ++ [g] ∧ g.pbx = c.donePbx ∧ g.add = 1 else t.sigQ = s.sigQ) ∧
        changesOnly [.buQ, .regs, .sigQ, .yieldAt, .msix, .mgmtQ, .out] s t) ∧
    (s.power ≠ .off → s.bu u = BU_RUN → (∃ c, s.buRunning u = some c ∧ c.svc = false) → s.heldAt u = [] →
      (buLegal (s.reg (R.BU_PROG (u / 8) (u % 8) (s.buPc u))) = false →
        yields (.buNop u 0) s (unitTrapped u 2 ST_BU_PROGRAM s)) ∧
      yields (.buNop u 2) s (unitTrapped u 1 ST_BU_FAULT s)) ∧
    (s.buPc u = 511 → unitAt s u w 0x00 → s.heldAt u = [] → yields (.buNop u 0) s (unitTrapped u 2 ST_BU_PROGRAM s))

/-- Scalar and control instructions of a bank unit. -/
def Obligations.UnitInstructions : Prop := Claims.UnitScalarResults ∧ Claims.UnitControlFlow

namespace Sys2Proof.Claims
open Sys2Proof.Machine

/-- The unit may use its banks: its pseudo-channel is in PROCESSOR mode and it holds a slot of its stack (R222). -/
def unitOwns (s : State) (u : Nat) : Prop := s.buMode u = true ∧ s.buSlotAt u = 1

/-- `n` bytes at local offset `l` lie in the unit's banks, no diagnostic lock covers them, and their words have no error. -/
def localReady (s : State) (u l n : Nat) : Prop :=
  l + n ≤ 0x3000000 ∧ ∀ j < n, s.diagLocked (buAddr u (l + j)) = false ∧ wordSound s (buAddr u (l + j) / 8 * 8)

/-- The byte at local offset `l` of the unit's banks (R203). -/
def localByte (s : State) (u l : Nat) : Byte := s.memAt (buAddr u l)

/-- `n` bytes at local offset `l`. -/
def localBytes (s : State) (u l n : Nat) : List Byte := (List.range n).map fun j => localByte s u (l + j)

/-- The bytes `bs` stand at local offset `l`, and every other byte of the device memory is as before. -/
def localStored (u l : Nat) (bs : List Byte) (s t : State) : Prop :=
  (∀ j < bs.length, localByte t u (l + j) = bs.getD j 0) ∧
  ∀ x, (∀ j < bs.length, x ≠ buAddr u (l + j)) → t.memAt x = s.memAt x

/-- The unit goes on to its next instruction without a new status, and no general register has changed but those named. -/
def unitNext (u : Nat) (gs : List Nat) (s t : State) : Prop :=
  t.buPc u = s.buPc u + 1 ∧ t.bu u = BU_RUN ∧ (t.buQAt u).length = (s.buQAt u).length ∧
  ∀ g, g ∉ gs → t.bug u g = s.bug u g

/-- The entries of a buffer hold the bits `vs` without a mark, and no entry of another buffer or behind them has changed. -/
def bufferHolds (u k : Nat) (vs : List Nat) (s t : State) : Prop :=
  (∀ j < vs.length, t.buf u k j = ⟨vs.getD j 0, false⟩) ∧
  ∀ key, (∀ j < vs.length, key ≠ bufKey u k j) → t.buBufAt key = s.buBufAt key

/-- Buffer `k` has no marked entry among its first `n`. -/
def bufferClean (s : State) (u k n : Nat) : Prop := ∀ j < n, (s.buf u k j).bad = false

/-- What the transfers of a unit in its own banks may change: registers, counters of free values, its buffers and books, memory. -/
def unitParts : List Part := [.regs, .freeCtr, .buBuf, .buBook, .mem, .check, .yieldAt]

/-- Record `j` of an operation over strided records: its local offset (R217). -/
def recordAt (s : State) (u : Nat) (i : BuInstr) (j : Nat) : Nat := (s.bug u i.a).toNat + j * (s.bug u i.b).toNat

/-- The strided records of an operation stay within R218 and can be read. -/
def recordsReady (s : State) (u : Nat) (i : BuInstr) (cnt : Nat) : Prop :=
  0 < i.n ∧ i.n ≤ 1024 ∧ (i.fmt = 3 → i.n % 2 = 0) ∧ 0 < cnt ∧ cnt ≤ 1024 ∧ i.aux % 2 = 0 ∧ i.y = false ∧
  ∀ j < cnt, recordAt s u i j < 2 ^ 64 ∧ recordAt s u i j % 8 = 0 ∧ recordAt s u i j % 1024 + buSize i.fmt i.n ≤ 1024 ∧
    localReady s u (recordAt s u i j) (buSize i.fmt i.n)

/-- Element `k` of record `j` as a number (R215). -/
def recordNum (s : State) (u : Nat) (i : BuInstr) (j k : Nat) : Machine.Num :=
  Fmt.fp32.decode (buElem u i.fmt [] (elemAt (buBits i.fmt) (localBytes s u (recordAt s u i j) (buSize i.fmt i.n)) k))

end Sys2Proof.Claims

/-- The loads and stores of a unit's buffers in its own banks. -/
def Obligations.UnitBuffers : Prop :=
  ∀ (u : Fin 1024) (w : Word) (s : State), s.buPc u < 511 → unitOwns s u →
    let i := buFields w
    let a := (s.bug u i.a).toNat
    let d := (s.bug u i.d).toNat
    let cnt := s.buCnt u i
    let word := fun j => leNat (localBytes s u (a + 4 * j) 4)
    (unitAt s u w 0x10 → i.sub = 0 → i.y = false → 0 < i.n → i.n ≤ 1024 → (i.fmt ≠ 3 ∧ i.fmt ≠ 4) → a % 8 = 0 →
      localReady s u a (buSize i.fmt i.n) → yields (.buLdq u 0) s fun t =>
        bufferHolds u BUF_Q ((List.range i.n).map fun j =>
          buElem u i.fmt [] (elemAt (buBits i.fmt) (localBytes s u a (buSize i.fmt i.n)) j)) s t ∧
        unitNext u [] s t ∧ changesOnly [.regs, .freeCtr, .buBuf] s t) ∧
    (0 < cnt → cnt ≤ 1024 → i.sub = 0 → i.y = false → a % 8 = 0 → localReady s u a (4 * cnt) →
      (unitAt s u w 0x11 → yields (.buLdi u 0) s fun t =>
        bufferHolds u BUF_I ((List.range cnt).map word) s t ∧ unitNext u [] s t ∧ changesOnly [.regs, .freeCtr, .buBuf] s t) ∧
      (unitAt s u w 0x12 → yields (.buLds u 0) s fun t =>
        bufferHolds u BUF_S ((List.range cnt).map word) s t ∧ unitNext u [] s t ∧ changesOnly [.regs, .freeCtr, .buBuf] s t)) ∧
    (unitAt s u w 0x13 → i.sub = 0 → i.y = false → a % 8 = 0 → localReady s u a 1024 → yields (.buLcb u 0) s fun t =>
      t.buBookAt (u * 4 + i.cbk) = (localBytes s u a 1024).map (fun b => (b, false)) ∧
      (∀ k, k ≠ u.val * 4 + i.cbk → t.buBookAt k = s.buBookAt k) ∧ unitNext u [] s t ∧
      changesOnly [.regs, .freeCtr, .buBook] s t) ∧
    (unitAt s u w 0x14 →
      let n := if i.aux = 2 then cnt else i.n
      0 < n → n ≤ 1024 → yields (.buClr u 0) s fun t =>
        bufferHolds u (if i.aux = 2 then BUF_S else BUF_VA) (List.replicate n (if i.aux = 1 then 0xFF800000 else 0)) s t ∧
        unitNext u [] s t ∧ changesOnly [.regs, .buBuf] s t) ∧
    (unitAt s u w 0x15 → i.sub = 0 → i.aux = 2 → i.y = false → 0 < cnt → cnt ≤ 1024 → d % 8 = 0 → localReady s u d (4 * cnt) →
      bufferClean s u BUF_S cnt → s.get (R.BU_CTRL_snoop_mask (u / 8) (u % 8)) = 0 → yields (.buStr u 0) s fun t =>
        localStored u d ((List.range cnt).flatMap fun j => toLE 4 (s.buf u BUF_S j).v) s t ∧ unitNext u [] s t ∧
        changesOnly [.regs, .freeCtr, .mem, .check] s t)

/-- The operations over records of a unit's banks, and the scan statistics. -/
def Sys2Proof.Claims.UnitOperations : Prop :=
  ∀ (u : Fin 1024) (w : Word) (s : State), s.buPc u < 511 → unitOwns s u →
    let i := buFields w
    let cnt := s.buCnt u i
    let d := (s.bug u i.d).toNat
    let acc := s.buAcc (u / 8)
    (unitAt s u w 0x22 → recordsReady s u i cnt → (i.fmt ≠ 3 ∧ i.fmt ≠ 4) → bufferClean s u BUF_Q i.n →
      yields (.buRowDot u 0) s fun t =>
        bufferHolds u BUF_S ((List.range cnt).map fun j =>
          bits32 ((buDot acc ((List.range i.n).map fun k => ((s.buf u BUF_Q k).num, recordNum s u i j k))).run Ev.zero).1) s t ∧
        unitNext u [] s t ∧ changesOnly [.regs, .freeCtr, .buBuf] s t) ∧
    (unitAt s u w 0x21 → recordsReady s u i cnt → cnt = 1 → (i.fmt ≠ 3 ∧ i.fmt ≠ 4) → bufferClean s u BUF_VA i.n →
      bufferClean s u BUF_S 1 → yields (.buGatherReduce u 0) s fun t =>
        bufferHolds u BUF_VA ((List.range i.n).map fun k =>
          bits32 ((buReduce acc i.sub (s.buf u BUF_VA k).num (recordNum s u i 0 k) (s.buf u BUF_S 0).num).run Ev.zero).1) s t ∧
        unitNext u [] s t ∧ changesOnly [.regs, .freeCtr, .buBuf] s t) ∧
    (unitAt s u w 0x20 → recordsReady s u i cnt → i.sub = 0 → d % 8 = 0 →
      let rb := buSize i.fmt i.n
      localReady s u d (cnt * rb) → (∀ j < cnt, apart (recordAt s u i j) rb d (cnt * rb)) →
      s.get (R.BU_CTRL_snoop_mask (u / 8) (u % 8)) = 0 → yields (.buGather u 0) s fun t =>
        localStored u d ((List.range cnt).flatMap fun j => localBytes s u (recordAt s u i j) rb) s t ∧ unitNext u [] s t ∧
        changesOnly [.regs, .freeCtr, .mem, .check] s t) ∧
    (unitAt s u w 0x23 → i.sub = 0 → 0 < cnt → cnt ≤ 1024 → bufferClean s u BUF_S cnt →
      let v := ((buScanCalc acc 0 (s.buM u) (s.buL u) ((List.range cnt).map fun j => (s.buf u BUF_S j).num) []).run Ev.zero).1
      yields (.buScanStats u 0) s fun t =>
        (t.bug u 46).toNat % 2 ^ 32 = bits32 v.1 ∧ (t.bug u 47).toNat % 2 ^ 32 = bits32 v.2.1 ∧
        bufferHolds u BUF_S (v.2.2.1.map bits32) s t ∧ unitNext u [46, 47] s t ∧ changesOnly [.regs, .buBuf] s t)

/-- COPY, FILL and CHECK in a unit's own banks, as instructions of a program and as service commands. -/
def Sys2Proof.Claims.UnitBlockMoves : Prop :=
  ∀ (u : Fin 1024) (w : Word) (s : State), s.power ≠ .off → s.get (R.BU_CTRL_snoop_mask (u / 8) (u % 8)) = 0 →
    let i := buFields w
    let copied := fun (l m cnt : Nat) (t : State) => localStored u m (localBytes s u l cnt) s t
    let filled := fun (l p cnt : Nat) (t : State) =>
      localStored u l ((List.range cnt).map fun j => BitVec.ofNat 8 (p / 2 ^ (8 * (j % 8)))) s t
    let blocks := fun (l cnt : Nat) => l % 64 = 0 ∧ cnt % 64 = 0 ∧ localReady s u l cnt
    (s.buPc u < 511 → unitOwns s u → i.y = false →
      let a := (s.bug u i.a).toNat
      let b := (s.bug u i.b).toNat
      let cnt := s.buCnt u i
      (unitAt s u w 0x24 → i.sub = 0 → blocks a cnt → blocks b cnt → apart a cnt b cnt →
        yields (.buCopy u 0) s fun t => copied a b cnt t ∧ unitNext u [] s t ∧ changesOnly unitParts s t) ∧
      (unitAt s u w 0x25 → blocks a cnt →
        yields (.buFill u 0) s fun t => filled a b cnt t ∧ unitNext u [] s t ∧ changesOnly unitParts s t) ∧
      (unitAt s u w 0x26 → blocks a cnt → yields (.buCheck u 0) s fun t =>
        t.bug u i.d = 0 ∧ (∀ x, t.memAt x = s.memAt x) ∧ unitNext u [i.d] s t ∧ changesOnly unitParts s t)) ∧
    (∀ (c : BuCmd) (rest : List BuCmd), s.buQAt u = c :: rest → (∀ z ∈ rest, z.id ≠ c.id) → c.running = true → c.svc = true →
      c.svcCtl / 8 % 4 = 0 → c.kvt = none → c.flags = 4 → c.poisoned = false → c.forced = false → s.heldAt u = [] →
      (s.buMode u = true → s.buSlotAt u = 1) →
      let ended := fun (t : State) => t.buQAt u = rest ∧ t.bu u = BU_IDLE ∧
        t.get (R.BU_STATUS_last_status (u / 8) (u % 8)) = ST_OK ∧ t.sigQ = s.sigQ
      (c.svcCtl % 8 = 0 → blocks (c.arg 0) (c.arg 2) → blocks (c.arg 1) (c.arg 2) → apart (c.arg 0) (c.arg 2) (c.arg 1) (c.arg 2) →
        yields (.buSvcCopy u) s fun t => copied (c.arg 0) (c.arg 1) (c.arg 2) t ∧ ended t) ∧
      (c.svcCtl % 8 = 1 → blocks (c.arg 0) (c.arg 2) →
        yields (.buSvcFill u) s fun t => filled (c.arg 0) (c.arg 1) (c.arg 2) t ∧ ended t) ∧
      (c.svcCtl % 8 = 2 → blocks (c.arg 0) (c.arg 2) →
        yields (.buSvcCheck u) s fun t => t.bug u 4 = 0 ∧ (∀ x, t.memAt x = s.memAt x) ∧ ended t))

/-- A bank unit's operations over records, and COPY, FILL and CHECK. -/
def Obligations.UnitDataMovement : Prop := Claims.UnitOperations ∧ Claims.UnitBlockMoves

/-- The modes of a pseudo-channel: asking for PROCESSOR mode, its grant, asking for MEMORY mode, the end of the drain, and an
abort of the drain. -/
def Sys2Proof.Claims.UnitModes : Prop :=
  ∀ (who : Agent) (u : Fin 1024) (s : State),
    let c := u.val / 8
    let p := u.val % 8
    let free := s.unitRetired u = false
    let eventParts : List Part := [.regs, .msix, .mgmtQ, .out]
    (writable who (c * 16 + 9) (p * 0x1000 + 0x10) s → s.bit (R.BU_MODE_req c p) = false →
      (free → s.bit R.LIC_FEATURES_bu_proc = true → yields (.buModeProcessor who u) s fun t =>
        t.bit (R.BU_MODE_req c p) = true ∧ t.bit (R.BU_MODE_pending c p) = (!s.buMode u) ∧
        t.get (R.BU_MODE_status c p) = ST_OK ∧ t.buMode u = s.buMode u ∧ keepsRegs [R.BU_MODE c p] s t ∧
        changesOnly [.regs, .out] s t) ∧
      (free → s.bit R.LIC_FEATURES_bu_proc = false → yields (.buModeProcessor who u) s fun t =>
        t.bit (R.BU_MODE_req c p) = false ∧ t.get (R.BU_MODE_status c p) = ST_FRANK_MISSING ∧
        keepsRegs [R.BU_MODE c p] s t ∧ changesOnly [.regs, .out] s t) ∧
      (s.unitRetired u = true → yields (.buModeProcessor who u) s fun t =>
        t.bit (R.BU_MODE_req c p) = false ∧ t.get (R.BU_MODE_status c p) = ST_UNIT_RETIRED ∧
        keepsRegs [R.BU_MODE c p] s t ∧ changesOnly [.regs, .out] s t) ∧
      (yields (.buModeMemory who u) s fun t => changesOnly [.out] s t)) ∧
    (s.power ≠ .off → s.bit (R.BU_MODE_pending c p) = true → s.bit (R.BU_MODE_req c p) = true →
      yields (.processorModeReady u) s fun t =>
        t.buMode u = true ∧ t.bit (R.BU_MODE_pending c p) = false ∧ t.yieldAtAt u = s.now ∧
        keepsRegs [R.BU_MODE c p, R.BU_STATUS c p] s t ∧ changesOnly [.regs, .yieldAt] s t) ∧
    (writable who (c * 16 + 9) (p * 0x1000 + 0x10) s → s.bit (R.BU_MODE_req c p) = true → s.buMode u = true → free →
      yields (.buModeMemory who u) s fun t =>
        t.bit (R.BU_MODE_req c p) = false ∧ t.bit (R.BU_MODE_pending c p) = true ∧ t.buMode u = true ∧
        t.get (R.BU_MODE_status c p) = ST_OK ∧ keepsRegs [R.BU_MODE c p] s t ∧ changesOnly [.regs, .out] s t) ∧
    (s.power ≠ .off → s.bit (R.BU_MODE_pending c p) = true → s.bit (R.BU_MODE_req c p) = false → s.heldAt u = [] →
      (s.buQAt u = [] → yields (.memoryModeDrained u) s fun t =>
        t.buMode u = false ∧ t.bit (R.BU_MODE_pending c p) = false ∧ t.bu u = BU_IDLE ∧ t.buSlotAt u = 0 ∧
        keepsRegs [R.BU_MODE c p, R.BU_STATUS c p] s t ∧ changesOnly [.regs, .buSlot, .held] s t) ∧
      (s.buQAt u ≠ [] → yields (.memoryModeDrained u) s fun t => changesOnly [] s t)) ∧
    (writable who (c * 16 + 9) (p * 0x1000 + 0x10) s → s.bit (R.BU_MODE_pending c p) = true → s.bit (R.BU_MODE_req c p) = false →
      s.heldAt u = [] → (∀ x ∈ s.buQAt u, x.kvt = none) → s.bu u ≠ BU_FAULTED → yields (.buAbortDrain who u) s fun t =>
        t.buQAt u = [] ∧ t.bu u = BU_IDLE ∧
        (s.buQAt u ≠ [] → t.get (R.BU_STATUS_last_status c p) = ST_ABORTED ∧ t.get (R.BU_FAULT_cause c p) = 6) ∧
        changesOnly ([.buQ, .sigQ, .yieldAt] ++ eventParts) s t)

/-- The start of a command, the clearing of a fault, the abort, writes of the micro-program store, and the windows that time
opens: a forced yield and the slots of a stack. -/
def Sys2Proof.Claims.UnitCommands : Prop :=
  ∀ (who : Agent) (u : Fin 1024) (s : State),
    let c := u.val / 8
    let p := u.val % 8
    (∀ (x : BuCmd) (rest : List BuCmd), s.power ≠ .off → s.buQAt u = x :: rest → s.bu u = BU_IDLE → x.running = false →
      (x.svc = true ∨ s.buMode u = true) → x.entry < 512 → yields (.buCommandStart u) s fun t =>
        t.buQAt u = { x with running := true } :: rest ∧ t.bu u = BU_RUN ∧ t.buPc u = x.entry ∧
        (∀ i < 7, t.bug u (i + 1) = BitVec.ofNat 64 (x.args.getD i 0)) ∧ (∀ g, 7 < g → t.bug u g = s.bug u g) ∧
        t.yieldAtAt u = s.now ∧ t.get (R.BU_STATUS_queued c p) = (rest.filter fun y => !y.running).length % 32 ∧
        changesOnly [.buQ, .regs, .yieldAt] s t) ∧
    (s.power ≠ .off → (s.buQAt u = [] ∨ s.bu u ≠ BU_IDLE) → yields (.buCommandStart u) s fun t => changesOnly [] s t) ∧
    (writable who (c * 16 + 9) (p * 0x1000) s →
      (yields (.buClearFault who u) s fun t =>
        t.bu u = (if s.bu u = BU_FAULTED then BU_IDLE else s.bu u) ∧
        keepsRegs [R.BU_CTRL c p, R.BU_STATUS c p] s t ∧ changesOnly [.regs, .out] s t) ∧
      (s.heldAt u = [] → (∀ x ∈ s.buQAt u, x.kvt = none) → yields (.buAbort who u) s fun t =>
        t.buQAt u = [] ∧ t.bu u = (if s.bu u = BU_FAULTED then BU_FAULTED else BU_IDLE) ∧
        t.get (R.BU_CMDS_count c p) =
          min (s.get (R.BU_CMDS_count c p) + (s.buQAt u).length) (2 ^ (R.BU_CMDS_count c p).w - 1) ∧
        t.sigQ.map (fun g => (g.pbx, g.add)) = (s.sigQ.map fun g => (g.pbx, g.add)) ++
          (((s.buQAt u).filter fun x => x.flags % 2 == 1).map fun x => (x.donePbx, 1)) ∧
        changesOnly [.buQ, .sigQ, .yieldAt, .regs, .msix, .mgmtQ, .out] s t)) ∧
    (∀ (i : Fin 512) (v : Word) (half : Fin 3), writable who (c * 16 + 10) (p * 0x1000 + i * 8) s →
      (s.bu u = BU_IDLE ∨ s.bu u = BU_FAULTED → yields (.buProgWrite who u i v half) s fun t =>
        t.reg (R.BU_PROG c p i) =
          BitVec.ofNat 64 (mergeHalf (s.reg (R.BU_PROG c p i)).toNat v.toNat half) ∧
        keepsRegs [R.BU_PROG c p i] s t ∧ changesOnly [.regs, .out] s t) ∧
      (s.bu u ≠ BU_IDLE → s.bu u ≠ BU_FAULTED → yields (.buProgWrite who u i v half) s fun t =>
        t.get (R.BU_STATUS_last_status c p) = ST_BUSY ∧ keepsRegs [R.BU_STATUS c p] s t ∧ changesOnly [.regs, .out] s t)) ∧
    (∀ (x : BuCmd) (rest : List BuCmd) (a n : Nat), s.power ≠ .off → s.buMode u = true → s.buQAt u = x :: rest → x.running = true →
      s.heldAt u = [⟨.core 0, 5, a, n, none, s.now, a, n⟩] → vaultOpen s a n → unitOf a = u.val → s.cached a = false → s.shared a = false →
      0 < n → a % 64 + n ≤ 64 → (∀ w ∈ wordsOf a n, wordSound s w) → yields (.forcedYield u) s fun t =>
        t.heldAt u = [] ∧ t.buQAt u = { x with forced := true } :: rest ∧ t.now = max s.now (s.yieldAtAt u + 8000) ∧
        t.get (R.BU_FORCED_count c p) = min (s.get (R.BU_FORCED_count c p) + 1) (2 ^ (R.BU_FORCED_count c p).w - 1) ∧
        .reply ST_OK (s.bytes a n) ∈ t.out) ∧
    (∀ stack : Fin 8, s.power ≠ .off → yields (.stackWindow stack) s fun t =>
      let us := (List.range 128).map fun i => stack.val * 128 + i
      t.tideTime % 1000 = 0 ∧ s.now ≤ t.now ∧ ((us.filter fun u => t.buSlotAt u == 1).length ≤ 96) ∧
      (∀ u ∈ us, s.buSlotAt u = 2 → t.buSlotAt u = 1 ∨ (us.filter fun u => t.buSlotAt u == 1).length = 96) ∧
      (∀ u ∈ us, s.buSlotAt u = 0 → t.buSlotAt u = 0) ∧ (∀ u, u ∉ us → t.buSlotAt u = s.buSlotAt u) ∧
      changesOnly [.now, .buSlot, .regs] s t)

/-- The modes of a pseudo-channel, a command's start, faults, aborts, the program store and the windows that time opens. -/
def Obligations.UnitControl : Prop := Claims.UnitModes ∧ Claims.UnitCommands

namespace Sys2Proof.Claims
open Sys2Proof.Machine

/-- The given writes have been made one after the other, and every other byte of the device memory is as before. -/
def storedAll (ws : List (Nat × List Byte)) (s t : State) : Prop :=
  ∀ x, t.memAt x = ws.foldl (fun b w => if w.1 ≤ x ∧ x < w.1 + w.2.length then w.2.getD (x - w.1) 0 else b) (s.memAt x)

/-- The sequence entry of sequence `q` as it stands in memory (R236). -/
def kvEntry (s : State) (c q : Nat) : KvSeq := kvSeqOf (s.kvSeqAddr c q) (s.bytes (s.kvSeqAddr c q) 32)

/-- The page table entry of block `b` of a layer-half (R237). -/
def kvPteOf (s : State) (e : KvSeq) (lh b : Nat) : Nat := leNat (s.bytes (e.pte lh b) 8)

/-- The reference count and its sat flag behind an entry (R251). -/
def kvCountOf (s : State) (c p : Nat) : Nat × Bool :=
  let bs := s.bytes (s.rcAddr c (ptRc p)) 4
  (leAt bs 0 2, leAt bs 2 1 % 2 == 1)

/-- Operation `x` is alone in the queue of a KVT and ready to start as opcode `code` on one page: block `b` of layer-half `lh`;
its descriptor, its sequence entry and its range are in order, and the tables it reads can be read (R239–R242, R268). -/
def kvStarts (s : State) (c : Fin 128) (code : Nat) (x : KvOp) (lh b : Nat) : Prop :=
  let e := kvEntry s c x.seq
  s.power ≠ .off ∧ s.kvtQAt c = [x] ∧ x.code = code ∧ x.phase = 0 ∧ x.copies = [] ∧ x.locks = [] ∧ x.res0 = 0 ∧ x.res1 = 0 ∧
  x.checked = false ∧ s.bit (R.KVT_CTRL_enable c) = true ∧ x.fieldStatus = ST_OK ∧ e.flags % 4 = 1 ∧ x.n = 1 ∧ x.lh = lh ∧
  lh < e.nLh ∧ lh < 128 ∧ s.kvLhStatus c x e lh = ST_OK ∧ s.kvBlocks c x e lh = [b] ∧ memReady s (.kvt c) (s.kvSeqAddr c x.seq) 32 ∧
  memReady s (.kvt c) (e.pte lh b) 8 ∧ s.kvtMovesAt c = []

/-- The operation has done all its pages without an error, with these results. -/
def kvDone (c : Nat) (x : KvOp) (r0 r1 : Nat) (checked : Bool) (t : State) : Prop :=
  t.kvtQAt c = [{ x with phase := 2, todo := [], copies := [], locks := [], status := ST_OK, res0 := r0, res1 := r1,
                         checked := checked }]

/-- Every granule of the page that an entry names can be reached and read, and none lies in the `n` bytes at `a`. -/
def pageReady (s : State) (c : Fin 128) (p a n : Nat) : Prop :=
  (ptExt p = true ∨ ptPpn p % 1024 < 768) ∧
  ∀ g < 1024, memReady s (.kvt c) (pageAt p (64 * g)) 64 ∧ apart (pageAt p (64 * g)) 64 a n

/-- The page of `new` holds what the page of `old` held. -/
def pageMoved (old new : Nat) (s t : State) : Prop := ∀ o < 65536, t.memAt (pageAt new o) = s.memAt (pageAt old o)

/-- What an operation of a KVT on pages in memory may change. -/
def kvParts : List Part := [.kvtQ, .regs, .mem, .check, .marks, .mon, .msix, .mgmtQ, .out]

end Sys2Proof.Claims

/-- Submission, completion and abort of KV operations, and the pushing of a free page. -/
def Obligations.KvtQueue : Prop :=
  ∀ (who : Agent) (c : Fin 128) (s : State),
    (∀ off : BitVec 22, writable who (c * 16 + 6) 0x10 s →
      let o := off.toNat / 32 * 32
      let cls := if (agentThread who).isNone then (9, 0xFF) else s.accClass who c
      (kvSubmitter c who = true → s.kvRoom c = true → o + 32 ≤ 0x300000 → sramReady s c o 32 cls →
        yields (.kvtSubmit who c off) s fun t =>
          t.kvtQAt c = s.kvtQAt c ++ [kvOp s.tagNext (some o) (agentThread who) cls (s.bytes (sramAddr c o) 32)] ∧
          t.tagNext = s.tagNext + 1 ∧ keepsRegs [R.KVT_STATUS c, R.KVT_MIG c] s t ∧
          changesOnly [.kvtQ, .tagNext, .regs, .out] s t) ∧
      (kvSubmitter c who = true → s.kvRoom c = false → yields (.kvtSubmit who c off) s fun t =>
        t.get (R.KVT_STATUS_last_status c) = ST_BUSY ∧ keepsRegs [R.KVT_STATUS c] s t ∧ changesOnly [.regs, .out] s t) ∧
      (kvSubmitter c who = false → yields (.kvtSubmit who c off) s fun t =>
        t.get (R.KVT_STATUS_last_status c) = ST_PAGE_PROTECTED ∧ t.kvtQAt c = s.kvtQAt c)) ∧
    (∀ (n : Fin 36) (x : KvOp) (off : Nat), s.power ≠ .off → (s.kvtQAt c)[n.val]? = some x → x.phase = 2 → x.code = 1 →
      x.off = some off → x.status < 256 → (s.gwOut.all fun p => p.queue != some (8 + x.id)) = true →
      sramReady s c (off + 3) 1 x.cls → sramReady s c (off + 24) 8 x.cls →
      yields (.kvtOperationComplete c n) s fun t =>
        t.kvtQAt c = (s.kvtQAt c).filter (fun y => y.id != x.id) ∧
        storedAll [(sramAddr c (off + 3), [BitVec.ofNat 8 x.status]),
          (sramAddr c (off + 24), toLE 4 x.res0 ++ toLE 4 x.res1)] s t ∧
        (x.status ≠ ST_OK → t.get (R.KVT_STATUS_last_status c) = x.status) ∧
        (if x.flags % 2 = 1 ∧ byteAt x.desc 2 < 48 then ∃ g, t.sigQ = s.sigQ ++ [g] ∧ g.pbx = c * 48 + byteAt x.desc 2 ∧ g.add = 1
         else t.sigQ = s.sigQ) ∧
        keepsRegs [R.KVT_STATUS c, R.KVT_MIG c] s t ∧ changesOnly [.kvtQ, .regs, .mem, .marks, .sigQ] s t) ∧
    (writable who (c * 16 + 6) 0 s → (s.kvtQAt c).Pairwise (fun x y => x.id ≠ y.id) → yields (.kvtAbort who c) s fun t =>
      (t.kvtQAt c).map (fun y => y.id) = ((s.kvtQAt c).filter fun y => y.phase != 0).map (fun y => y.id) ∧
      (∀ y ∈ t.kvtQAt c, y.phase ≠ 0 ∧ (y.phase = 1 → y.copies ≠ [] ∧ y.todo.length ≤ 1)) ∧
      ((s.kvtQAt c).any (fun y => y.phase == 0) = true → t.get (R.KVT_STATUS_last_status c) = ST_ABORTED)) ∧
    (∀ (i : Fin 9) (entry : Word), writable who (c * 16 + 6) (0x818 + i * 0x20) s →
      let a := s.flAddr c i (s.get (R.KVT_FL_STATE_tail c i))
      (s.flCount c i < s.flSize c i → memReady s (.kvt c) a 8 → yields (.kvtFlPush who c i entry) s fun t =>
        storedAll [(a, toLE 8 entry.toNat)] s t ∧
        t.get (R.KVT_FL_STATE_tail c i) = (s.get (R.KVT_FL_STATE_tail c i) + 1) % 2 ^ 32 ∧
        keepsRegs [R.KVT_FL_STATE c i] s t ∧ changesOnly [.mem, .check, .marks, .regs, .out] s t) ∧
      (s.flSize c i ≤ s.flCount c i → yields (.kvtFlPush who c i entry) s fun t =>
        t.get (R.KVT_STATUS_last_status c) = ST_BUSY ∧ keepsRegs [R.KVT_STATUS c] s t ∧ changesOnly [.regs, .out] s t))

/-- The operations on one page: walk, append into a present page and into a new one, stage of a vault page. -/
def Sys2Proof.Claims.KvtWalkAppendStage : Prop :=
  ∀ (c : Fin 128) (x : KvOp) (lh b : Nat) (s : State),
    let e := kvEntry s c x.seq
    let p := kvPteOf s e lh b
    let per := s.kvT c lh
    let r := s.kvR c lh
    let at' := x.t0 % per * r
    let record := s.bytes (sramAddr c x.buf) r
    let g := if ptGlobal p then 1 else 0
    let bufOk := 0 < x.bufMax ∧ x.buf + 16 ≤ 0x300000 ∧ sramReady s c x.buf 16 x.cls
    let recOk := fun (q : Nat) => x.buf + r ≤ 0x300000 ∧ sramReady s c x.buf r x.cls ∧ at' % 64 + r ≤ 64 ∧ memReady s (.kvt c) (pageAt q at') r
    (kvStarts s c 1 x lh b → bufOk → yields (.kvtWalk c 0) s fun t =>
      let first := max x.t0 (b * per)
      storedAll [(sramAddr c x.buf, walkRecord p first (min (x.endTok e) ((b + 1) * per) - first) lh)] s t ∧
      kvDone c x 1 0 false t ∧ changesOnly kvParts s t) ∧
    (kvStarts s c 6 x lh b → bufOk → (ptPresent p && ptExt p) = false → yields (.kvtStage c 0) s fun t =>
      storedAll [(sramAddr c x.buf, walkRecord p (b * per) (s.kvTokens c e lh b) lh)] s t ∧
      kvDone c x 1 0 false t ∧ changesOnly kvParts s t) ∧
    (kvStarts s c 2 x lh b → ptPresent p = true → ptCow p = false → recOk p → yields (.kvtAppend c 0) s fun t =>
      storedAll [(pageAt p at', record)] s t ∧ kvDone c x 0 0 false t ∧ changesOnly kvParts s t) ∧
    (kvStarts s c 2 x lh b → ptPresent p = false → e.nLh ≤ Nat.xor lh 1 →
      let i := s.kvHome c lh b
      let a := s.flAddr c i (s.get (R.KVT_FL_STATE_head c i))
      let q := leNat (s.bytes a 8)
      let new := ptMake q 1 0 g
      i < 8 → 0 < s.flCount c i → memReady s (.kvt c) a 8 → s.flCheck c i q = ST_OK → (kvCountOf s c q).1 = 0 →
      memReady s (.kvt c) (s.rcAddr c (ptRc q)) 4 → recOk q → yields (.kvtAppend c 0) s fun t =>
        storedAll [(s.rcAddr c (ptRc q), toLE 4 1), (e.pte lh b, toLE 8 new), (pageAt q at', record)] s t ∧
        t.get (R.KVT_FL_STATE_head c i) = (s.get (R.KVT_FL_STATE_head c i) + 1) % 2 ^ 32 ∧
        t.get (R.KVT_ALLOCS_count c) = min (s.get (R.KVT_ALLOCS_count c) + 1) (2 ^ (R.KVT_ALLOCS_count c).w - 1) ∧
        kvDone c x 1 0 false t ∧ changesOnly kvParts s t)

/-- Share, release, mark, migrate and evacuate of one page. -/
def Sys2Proof.Claims.KvtPageOperations : Prop :=
  ∀ (c : Fin 128) (x : KvOp) (lh b : Nat) (s : State),
    let e := kvEntry s c x.seq
    let p := kvPteOf s e lh b
    let rc := s.rcAddr c (ptRc p)
    let n := (kvCountOf s c p).1
    let sat := (kvCountOf s c p).2
    let rcOk := memReady s (.kvt c) rc 4 ∧ apart rc 4 (e.pte lh b) 8
    (kvStarts s c 3 x lh b → ptPresent p = false →
      let src := kvEntry s c x.aux
      let o := kvPteOf s src lh b
      let q := ptMake o 1 1 (if ptGlobal o then 1 else 0)
      let k := s.rcAddr c (ptRc o)
      let m := (kvCountOf s c o).1
      memReady s (.kvt c) (s.kvSeqAddr c x.aux) 32 → src.flags % 2 = 1 → src.nLh = e.nLh → src.ppl = e.ppl →
      memReady s (.kvt c) (src.pte lh b) 8 → ptPresent o = true → (kvCountOf s c o).2 = false → m < 0xFFFF →
      memReady s (.kvt c) k 4 → apart k 4 (e.pte lh b) 8 → apart k 4 (src.pte lh b) 8 →
      yields (.kvtShare c 0) s fun t =>
        storedAll [(src.pte lh b, toLE 8 q), (e.pte lh b, toLE 8 q), (k, toLE 4 (m + 1))] s t ∧
        kvDone c x 0 0 true t ∧ changesOnly kvParts s t) ∧
    (kvStarts s c 4 x lh b → ptPresent p = true → rcOk → sat = false →
      (1 < n → yields (.kvtRelease c 0) s fun t =>
        storedAll [(e.pte lh b, toLE 8 (p - 1)), (rc, toLE 4 (n - 1))] s t ∧ kvDone c x 1 0 false t ∧
        changesOnly kvParts s t) ∧
      (n = 1 →
        let i := flOf p
        let a := s.flAddr c i (s.get (R.KVT_FL_STATE_tail c i))
        s.flCount c i < s.flSize c i → memReady s (.kvt c) a 8 → yields (.kvtRelease c 0) s fun t =>
          storedAll [(e.pte lh b, toLE 8 (p - 1)), (rc, toLE 4 0), (a, toLE 8 (ptMake p 0 0 0))] s t ∧
          t.get (R.KVT_FL_STATE_tail c i) = (s.get (R.KVT_FL_STATE_tail c i) + 1) % 2 ^ 32 ∧
          t.get (R.KVT_FREES_count c) = min (s.get (R.KVT_FREES_count c) + 1) (2 ^ (R.KVT_FREES_count c).w - 1) ∧
          kvDone c x 1 0 false t ∧ changesOnly kvParts s t)) ∧
    (kvStarts s c 5 x lh b → ptPresent p = true → ptExt p = false → x.flags / 2 % 2 = 1 → e.globals < 256 →
      apart (s.kvSeqAddr c x.seq) 32 (e.pte lh b) 8 → yields (.kvtMark c 0) s fun t =>
        storedAll [(e.addr + 12, toLE 2 (e.globals + 1)),
          (e.pte lh b, toLE 8 (ptMake p 1 (if ptCow p then 1 else 0) 1 + p / 2 ^ 46 % 2 * 2 ^ 46))] s t ∧
        kvDone c x 0 0 true t ∧ changesOnly kvParts s t) ∧
    (kvStarts s c 7 x lh b → ptPresent p = true → rcOk → n ≤ 1 → ptExt p = !(x.aux % 2 == 1) → (x.aux % 2 = 1 → ptGlobal p = false) →
      yields (.kvtMigrate c 0) s fun t =>
        t.kvtMigQAt c = s.kvtMigQAt c ++ [⟨x.seq, lh, b, x.aux % 2, x.thread, p, 0⟩] ∧ kvDone c x 1 0 false t ∧
        changesOnly [.kvtQ, .kvtMigQ, .regs] s t) ∧
    (kvStarts s c 8 x lh b → x.dest = 0xFFFF → ptPresent p = true → rcOk →
      pageReady s c p (e.addr + 11) 1 →
      apart (e.addr + 11) 1 (e.pte lh b) 8 → apart (e.addr + 11) 1 rc 4 →
      memReady s (.kvt c) x.dst 65600 → (∃ v, regionOf x.dst = .vault v) → yields (.kvtEvacuate c 0) s fun t =>
        storedAll [(e.addr + 11, [BitVec.ofNat 8 (Nat.lor e.flags 2)]),
          (x.dst, s.evacHeader x ⟨lh, b, false⟩ p (decide (1 < n)) false),
          (x.dst + 64, (List.range 65536).map fun o => s.memAt (pageAt p o))] s t ∧
        kvDone c x 1 0 true t)

/-- The ends of page copies: of a copy on write, of a staged page and of a migrating page. -/
def Sys2Proof.Claims.KvtCopies : Prop :=
  ∀ (c : Fin 128) (s : State), s.power ≠ .off →
    (∀ (x : KvOp) (lh b old new cmd : Nat), s.kvtQAt c = [x] → x.code = 2 → x.phase = 1 → x.todo = [⟨lh, b, false⟩] →
      x.copies = [⟨lh, b, old, new, some cmd, some ST_OK⟩] → x.status = ST_OK → s.kvtMovesAt c = [] → x.lh = lh →
      let e := kvEntry s c x.seq
      let q := ptMake new 1 0 (if ptGlobal old then 1 else 0)
      let rc := s.rcAddr c (ptRc old)
      let n := (kvCountOf s c old).1
      let r := s.kvR c lh
      let at' := x.t0 % s.kvT c lh * r
      memReady s (.kvt c) (s.kvSeqAddr c x.seq) 32 → memReady s (.kvt c) (e.pte lh b) 8 → memReady s (.kvt c) rc 4 →
      memReady s (.kvt c) (pageAt old 0) 1 → memReady s (.kvt c) (pageAt new 0) 1 → apart rc 4 (e.pte lh b) 8 →
      (kvCountOf s c old).2 = false → 0 < n → x.buf + r ≤ 0x300000 → sramReady s c x.buf r x.cls → at' % 64 + r ≤ 64 →
      memReady s (.kvt c) (pageAt new at') r → yields (.cowCopyComplete c 0) s fun t =>
        storedAll [(e.pte lh b, toLE 8 q), (rc, toLE 4 (n - 1)), (pageAt new at', s.bytes (sramAddr c x.buf) r)] s t ∧
        kvDone c x x.res0 (x.res1 + 1) x.checked t) ∧
    (∀ (x : KvOp) (lh b old new : Nat), s.kvtQAt c = [x] → x.code = 6 → x.phase = 1 → x.todo = [⟨lh, b, false⟩] →
      x.copies = [⟨lh, b, old, new, none, none⟩] → x.status = ST_OK → x.res0 < x.bufMax →
      let e := kvEntry s c x.seq
      let a := x.buf + 16 * x.res0
      memReady s (.kvt c) (s.kvSeqAddr c x.seq) 32 → pageReady s c old 0 0 → pageReady s c new 0 0 →
      ptPage old ≠ ptPage new → a + 16 ≤ 0x300000 → sramReady s c a 16 x.cls → yields (.stageCopyComplete c 0) s fun t =>
        pageMoved old new s t ∧ t.bytes (sramAddr c a) 16 = walkRecord new (b * s.kvT c lh) (s.kvTokens c e lh b) lh ∧
        t.kvtStagedAt c = s.kvtStagedAt c ++ [⟨x.seq, lh, b, new, 0⟩] ∧
        t.get (R.KVT_STAGES_count c) = min (s.get (R.KVT_STAGES_count c) + 1) (2 ^ (R.KVT_STAGES_count c).w - 1) ∧
        kvDone c x (x.res0 + 1) x.res1 x.checked t) ∧
    (∀ (m : KvMove) (rest : List KvMove), s.kvtMovesAt c = m :: rest →
      let e := kvEntry s c m.seq
      let pte := e.pte m.lh m.block
      memReady s (.kvt c) (s.kvSeqAddr c m.seq) 32 → memReady s (.kvt c) pte 8 → pageReady s c m.old 0 0 →
      pageReady s c m.new pte 8 → pageReady s c m.new (s.kvSeqAddr c m.seq) 32 → ptPage m.old ≠ ptPage m.new →
      yields (.migrationCopyComplete c) s fun t =>
        pageMoved m.old m.new s t ∧ t.bytes pte 8 = toLE 8 (ptMake m.new 1 0 (if ptGlobal m.old then 1 else 0)) ∧
        t.kvtMovesAt c = rest ∧ t.kvtFreesAt c = s.kvtFreesAt c ++ [m.old] ∧
        t.get (R.KVT_MOVES_count c) = min (s.get (R.KVT_MOVES_count c) + 1) (2 ^ (R.KVT_MOVES_count c).w - 1))

/-- The KV operations on one page, and the ends of page copies. -/
def Obligations.KvtOperations : Prop := Claims.KvtWalkAppendStage ∧ Claims.KvtPageOperations ∧ Claims.KvtCopies

namespace Sys2Proof.Claims
open Sys2Proof.Machine

/-- The byte that the shared cache serves at `a`: from its line, or from memory (R269, R274). -/
def served (s : State) (a : Nat) : Byte :=
  match s.line a with
  | some l => l.data.getD (a % 128) 0
  | none => s.memAt a

/-- The bytes that the cache serves from `a` on. -/
def servedBytes (s : State) (a n : Nat) : List Byte := (List.range n).map fun i => served s (a + i)

/-- The line of `a` can be used: its tags are there, and its words have no error in the cache or in memory (R283). -/
def lineReady (s : State) (a : Nat) : Prop :=
  s.tagLostAt (setKey a) = false ∧
  match s.line a with
  | some l => l.marks = List.replicate 16 .good ∧ l.data.length = 128
  | none => ∀ w ∈ wordsOf (a / 128 * 128) 128, wordSound s w

/-- An access of `n` bytes at `a` that the shared cache serves from one line (R269, R270). -/
def cacheReady (s : State) (a n : Nat) : Prop :=
  s.power ≠ .off ∧ s.cached a = true ∧ 0 < n ∧ a % 128 + n ≤ 128 ∧ s.mapStatus a n = ST_OK ∧ s.touchesLock a n = false ∧
  ((∃ c, regionOf a = .vault c) ∨ regionOf a = .ext) ∧ lineReady s a

/-- The bytes `bs` are served at `a`; the other bytes of its line are served as before, and the line is in the cache. -/
def servedNow (a : Nat) (bs : List Byte) (s t : State) : Prop :=
  (∀ i < 128, let x := a / 128 * 128 + i
    served t x = if a ≤ x ∧ x < a + bs.length then bs.getD (x - a) 0 else served s x) ∧ (t.line a).isSome = true

/-- What an access of the cache may change. -/
def cacheParts : List Part := [.cache, .mem, .check, .regs, .freeCtr, .out, .mon, .msix, .mgmtQ]

/-- The result in memory of an integer atomic on `n` bytes, signed or not (R279). -/
def atomWanted (op n : Nat) (signed : Bool) (old v cmp : Nat) : Nat :=
  let less := if signed then decide ((BitVec.ofNat (8 * n) old).toInt < (BitVec.ofNat (8 * n) v).toInt) else decide (old < v)
  match op with
  | 0 => (old + v) % 2 ^ (8 * n)
  | 1 => if less then old else v
  | 2 => if less then v else old
  | 3 => Nat.land old v
  | 4 => Nat.lor old v
  | 5 => Nat.xor old v
  | 6 => v
  | _ => if old = cmp then v else old

/-- The commands of the scalar atomics with their codes (R279). -/
def atomRows (who : Agent) (i : Fin 2056) (v : Word) : List (Nat × Instr) := [
  (0, .atomAdd who i v), (1, .atomMin who i v), (2, .atomMax who i v), (3, .atomAnd who i v), (4, .atomOr who i v),
  (5, .atomXor who i v), (6, .atomSwap who i v), (7, .atomCas who i v)]

end Sys2Proof.Claims

/-- Accesses that the shared cache serves from one line. -/
def Sys2Proof.Claims.CacheAccesses : Prop :=
  ∀ (who : Agent) (addr : BitVec 48) (n : BitVec 13) (bs : List Byte) (ns : Nat) (s : State),
    let a := addr.toNat
    let key := setKey a
    (cacheReady s a n.toNat →
      (yields (.scAccess who .normal addr n none 0 none ns) s fun t =>
        (∃ rest, t.out = .reply ST_OK (servedBytes s a n.toNat) :: rest) ∧ servedNow a [] s t ∧
        ((s.cacheAt key).length < 16 → ∀ x, t.memAt x = s.memAt x) ∧ changesOnly cacheParts s t) ∧
      (yields (.scAccess who .stream addr n none 0 none ns) s fun t =>
        (∃ rest, t.out = .reply ST_OK (servedBytes s a n.toNat) :: rest) ∧
        changesOnly [.regs, .freeCtr, .out, .mon, .msix, .mgmtQ] s t) ∧
      (yields (.scAccess who .lastUse addr n none 0 none ns) s fun t =>
        (∃ rest, t.out = .reply ST_OK (servedBytes s a n.toNat) :: rest) ∧ t.line a = none ∧
        changesOnly [.cache, .regs, .freeCtr, .out, .mon, .msix, .mgmtQ] s t)) ∧
    (cacheReady s a bs.length → yields (.scAccess who .normal addr n (some bs) 0 none ns) s fun t =>
      (∃ rest, t.out = .reply ST_OK [] :: rest) ∧ servedNow a bs s t ∧ (∃ l, t.line a = some l ∧ l.dirty = true) ∧
      ((s.cacheAt key).length < 16 → ∀ x, t.memAt x = s.memAt x) ∧ changesOnly cacheParts s t) ∧
    (s.power ≠ .off → s.cached a = false → yields (.scAccess who .normal addr n none 0 none ns) s fun t => changesOnly [] s t)

/-- The flush of the cache, its end, and the release of a KEEP class. -/
def Sys2Proof.Claims.CacheMaintenance : Prop :=
  ∀ (who : Agent) (l : ScLine) (s : State),
    let lo := s.get R.SC_FLUSH_BASE_addr
    let hi := s.get R.SC_FLUSH_LIMIT_addr
    let alone := ∀ m ∈ s.cache.flatMap (fun e => e.2), m = l ∨ apart m.base 128 l.base 128
    (writable who 0x1020 0xD210 s → s.cacheAt (setKey l.base) = [l] → alone → s.flushStatus = ST_OK → l.base % 128 = 0 → lo ≤ l.base →
      l.base ≤ hi → l.dirty = true → l.marks = List.replicate 16 .good → l.data.length = 128 →
      (isExt l.base && s.gdFailed (extDev l.base)) = false → (∀ i < 16, (isExt l.base && s.gdFailed (extDev (l.base + 8 * i))) = false) →
      let wrote := fun (t : State) => (∀ i < 128, t.memAt (l.base + i) = l.data.getD i 0) ∧ t.bit R.SC_FLUSH_CTRL_busy = true ∧
        t.get R.SC_FLUSH_CTRL_last_status = ST_OK ∧ changesOnly [.mem, .check, .cache, .regs, .out] s t
      (yields (.scFlushStart who false) s fun t => wrote t ∧ t.cacheAt (setKey l.base) = [{ l with dirty := false }]) ∧
      (yields (.scFlushStart who true) s fun t => wrote t ∧ t.cacheAt (setKey l.base) = [])) ∧
    (∀ inv : Bool, writable who 0x1020 0xD210 s → s.flushStatus ≠ ST_OK → yields (.scFlushStart who inv) s fun t =>
      t.get R.SC_FLUSH_CTRL_last_status = s.flushStatus ∧ t.bit R.SC_FLUSH_CTRL_busy = s.bit R.SC_FLUSH_CTRL_busy ∧
      keepsRegs [R.SC_FLUSH_CTRL] s t ∧ changesOnly [.regs, .out] s t) ∧
    (s.power ≠ .off → s.bit R.SC_FLUSH_CTRL_busy = true → yields .scFlushDone s fun t =>
      t.bit R.SC_FLUSH_CTRL_busy = false ∧ keepsQuiet [R.SC_FLUSH_CTRL] s t ∧ changesOnly [.regs, .msix, .mgmtQ, .out] s t) ∧
    (∀ k : Fin 8, writable who 0x1020 (0xD040 + k * 8) s → s.cacheAt (setKey l.base) = [l] → alone →
      yields (.keepRelease who k) s fun t =>
        t.cacheAt (setKey l.base) = [{ l with sticky := if l.sticky = some k.val then none else l.sticky }] ∧
        changesOnly [.cache, .out] s t)

/-- The scalar atomics on integers, the vector add of INT32 elements, and the atomic operations of the host. -/
def Sys2Proof.Claims.CacheAtomics : Prop :=
  ∀ (who : Agent) (i : Fin 2056) (v : Word) (s : State),
    let a := s.get (R.SC_ATOM_CTL_target i)
    let op := s.get (R.SC_ATOM_CTL_op i)
    let ty := s.get (R.SC_ATOM_CTL_type i)
    let n := if ty = 1 ∨ ty = 3 then 8 else 4
    let counted := fun (a : Nat) (t : State) => t.get (R.SC_ATOMICS_count (sliceOf a)) =
      min (s.get (R.SC_ATOMICS_count (sliceOf a)) + 1) (2 ^ (R.SC_ATOMICS_count (sliceOf a)).w - 1)
    (∀ row ∈ atomRows who i v, op = row.1 → s.mapStatus (regAddr 0x1020 (i * 16 + 8)) 8 = ST_OK →
      (ty ≤ 3 → (op = 0 → ty ≤ 1) → a % n = 0 → cacheReady s a n →
        let old := leNat (servedBytes s a n)
        let new := atomWanted op n (decide (ty ≤ 1)) old (v.toNat % 2 ^ (8 * n)) (s.get (R.SC_ATOM_CMP_compare i) % 2 ^ (8 * n))
        yields row.2 s fun t =>
          servedNow a (toLE n new) s t ∧ counted a t ∧ t.get (R.SC_ATOM_CTL_last_status i) = ST_OK ∧
          ((∀ p : Fin 2, who ≠ .host p) → t.out = .reply ST_OK (toLE 8 old) :: s.out) ∧ changesOnly cacheParts s t) ∧
      (s.power ≠ .off → s.atomTarget a op ty ≠ ST_OK → yields row.2 s fun t =>
        t.get (R.SC_ATOM_CTL_last_status i) = s.atomTarget a op ty ∧ keepsRegs [R.SC_ATOM_CTL i] s t ∧
        changesOnly [.regs, .out] s t)) ∧
    (op = 8 → ty = 0 → s.mapStatus (regAddr 0x1020 (i * 16 + 8)) 8 = ST_OK → a % 128 = 0 → cacheReady s a 128 →
      ∀ c off, regionOf v.toNat = .sram c off → v.toNat % 16 = 0 → s.mapStatus v.toNat 128 = ST_OK → sramReady s c off 128 (9, 0xFF) →
      yields (.atomVadd who i v) s fun t =>
        (∀ k < 32, leNat (servedBytes t (a + 4 * k) 4) =
          (leNat (servedBytes s (a + 4 * k) 4) + leNat (s.bytes (v.toNat + 4 * k) 4)) % 2 ^ 32) ∧
        counted a t ∧ t.get (R.SC_ATOM_CTL_last_status i) = ST_OK ∧ changesOnly cacheParts s t) ∧
    (∀ (p : Fin 2) (kind size : Fin 3) (h : BitVec 38) (cmp : Word), s.linkUp p = true → size.val < 2 →
      let n := if size.val = 1 then 8 else 4
      h.toNat % n = 0 → cacheReady s h.toNat n →
      let old := leNat (servedBytes s h.toNat n)
      let new := atomWanted (if kind.val = 0 then 0 else if kind.val = 1 then 6 else 7) n true old (v.toNat % 2 ^ (8 * n))
        (cmp.toNat % 2 ^ (8 * n))
      yields (.pcieAtomicop p kind size h v cmp) s fun t =>
        servedNow h.toNat (toLE n new) s t ∧ counted h.toNat t ∧
        t.out = .reply ST_OK (toLE n old) :: s.out ∧ changesOnly cacheParts s t)

/-- Cache flush and KEEP release; atomics by slot and over PCIe. -/
def Obligations.CacheLinesAtomics : Prop := Claims.CacheMaintenance ∧ Claims.CacheAtomics

/-- Requests to the GDDR7 devices, their failure, refresh and retraining. -/
def Sys2Proof.Claims.ExternalMemory : Prop :=
  ∀ (addr : BitVec 48) (n : BitVec 9) (bs : List Byte) (ns : Nat) (s : State), s.power ≠ .off →
    let a := addr.toNat
    let g := extDev a
    let opened := fun (n : Nat) => isExt a = true ∧ n ≠ 0 ∧ s.mapStatus a n = ST_OK ∧ s.touchesLock a n = false ∧ (∀ w ∈ wordsOf a n, wordSound s w)
    (opened n.toNat → yields (.gddrRequest addr n none 0 true 0 0 ns) s fun t =>
      (∃ rest, t.out = .reply ST_OK (s.bytes a n.toNat) :: rest) ∧ (∀ x, t.memAt x = s.memAt x) ∧
      changesOnly sampleParts s t) ∧
    (opened bs.length → yields (.gddrRequest addr n (some bs) 0 true 0 0 ns) s fun t =>
      t.out = .reply ST_OK [] :: s.out ∧ stored a bs s t ∧ changesOnly [.mem, .check, .regs, .out] s t) ∧
    (opened n.toNat → yields (.gddrRequest addr n none 4 false 0 0 ns) s fun t =>
      t.gdFailed g = true ∧
      t.get (R.GD_LINK_CNT_crc_errors g) = min (s.get (R.GD_LINK_CNT_crc_errors g) + 4) (2 ^ (R.GD_LINK_CNT_crc_errors g).w - 1) ∧
      t.get (R.GD_LINK_CNT_retrains g) = min (s.get (R.GD_LINK_CNT_retrains g) + 1) (2 ^ (R.GD_LINK_CNT_retrains g).w - 1) ∧
      (∃ bytes rest, t.out = .reply ST_POISON bytes :: rest) ∧ ∀ x, t.memAt x = s.memAt x) ∧
    (isExt a = true → n.toNat ≠ 0 → s.mapStatus a n.toNat = ST_OK → s.touchesLock a n.toNat = true →
      yields (.gddrRequest addr n none 0 true 0 0 ns) s fun t =>
        t.out = .reply ST_BUSY (List.replicate n.toNat 0xFF) :: s.out ∧ changesOnly [.out] s t) ∧
    (∀ (d : Fin 24) (b : Fin 16), let k := (1024 + d.val) * 16 + b.val
      yields (.gddrRefresh d b) s fun t =>
        t.refRowAt k = (s.refRowAt k + 1) % 131072 ∧ (∀ k', k' ≠ k → t.refRowAt k' = s.refRowAt k') ∧ changesOnly [.refRow] s t) ∧
    (∀ d : Fin 24,
      (s.get (R.GD_STATUS_state d) = 1 → yields (.gddrPeriodicRetrain d) s fun t =>
        let due := max s.now (s.gdRetrainAt d + s.get R.GD_CFG_retrain_ms * 1000000)
        let busy : Nat → Prop := fun ms => ∃ h ∈ (List.finRange 24), h ≠ d ∧ s.get (R.GD_STATUS_state h) = 1 ∧ s.gdRetrainAt h / 1000000 = ms
        t.gdRetrainAt d = t.now ∧ due ≤ t.now ∧ ¬ busy (t.now / 1000000) ∧ (t.now = due ∨ t.now % 1000000 = 0) ∧
        (∀ ms < t.now / 1000000, due / 1000000 ≤ ms → busy ms) ∧
        changesOnly [.now, .gdRetrain] s t) ∧
      (s.get (R.GD_STATUS_state d) ≠ 1 → yields (.gddrPeriodicRetrain d) s fun t => changesOnly [] s t))

/-- Accesses that the shared cache serves, and requests to the GDDR7 devices. -/
def Obligations.CachedAccesses : Prop := Claims.CacheAccesses ∧ Claims.ExternalMemory

namespace Sys2Proof.Claims
open Sys2Proof.Machine

/-- The bytes `bs` stand at `a` in the memory of the host of port `p`; every other byte of host memory is as before. -/
def hostStored (p a : Nat) (bs : List Byte) (s t : State) : Prop :=
  ∀ k, t.hostMemAt k = if hostKey p a ≤ k ∧ k < hostKey p a + bs.length then bs.getD (k - hostKey p a) 0 else s.hostMemAt k

/-- The n-th command may start as opcode `op`, and nothing refuses it before its own checks (R360). -/
def startsAs (op n : Nat) (x : HCmd) (s : State) : Prop :=
  s.power ≠ .off ∧ s.cmdStartable n op = some x ∧ s.startStatus x = ST_OK

/-- The command with the identity of `x` has ended with a status and a result; no other command has changed. -/
def ended (x : HCmd) (st res : Nat) (s t : State) : Prop :=
  t.cmds = s.cmds.map fun y => if y.id = x.id then { y with phase := 2, status := st, result := res } else y

/-- What a command that only answers changes. -/
def answers (x : HCmd) (st res : Nat) (s t : State) : Prop := ended x st res s t ∧ changesOnly [.cmds] s t

/-- The commands of port `p` are gone and its queue pairs are disabled (R358). -/
def portDown (p : Nat) (s t : State) : Prop :=
  t.cmds = s.cmds.filter (fun x => x.port != p) ∧ t.get (R.HIF_CMDS_outstanding p) = 0 ∧ t.bit (R.HIF_PM_STATE_pm_hold p) = false ∧
  ∀ q < 64, t.bit (R.QUE_QP_CFG_enable p q) = false ∧ t.qpState p q = 0

/-- The registers that the end of a port's commands changes. -/
def portKeys (p : Nat) : List Nat :=
  [R.HIF_CMDS p, R.HIF_PM_STATE p] ++ (List.range 64).flatMap fun q => [R.QUE_QP_CFG p q, R.QUE_QP_STATUS p q]

/-- The registers of the control token. -/
def tokenKeys : List Nat := [R.HIF_TOKEN 0, R.HIF_TOKEN 1]

/-- Port `p` holds the token (R372). -/
def holderIs (p : Nat) (t : State) : Prop :=
  ∀ k < 2, t.get (R.HIF_TOKEN_holder k) = p ∧ t.bit (R.HIF_TOKEN_held k) = true ∧ t.bit (R.HIF_TOKEN_offer k) = false

end Sys2Proof.Claims

/-- Doorbells, the enabling of a queue pair, the fetch of a descriptor, and completions. -/
def Obligations.HostQueues : Prop :=
  ∀ (who : Agent) (p : Fin 2) (q : Fin 64) (i : BitVec 12) (n : Fin 2048) (s : State), s.power ≠ .off →
    let page := 0x1012 + p.val
    let quiet := changesOnly [.regs, .cqAgg, .out] s
    (writable who page (q * 0x40 + 0x20) s → yields (.sqTailDoorbell who p q i) s fun t =>
      t.get (R.QUE_QP_SQ_TAIL_index p q) = i.toNat ∧
      (if s.qpState p q = 1 ∧ 2 ^ s.get (R.QUE_QP_CFG_sq_log2 p q) ≤ i.toNat then
        t.qpState p q = 2 ∧ t.get (R.QUE_QP_STATUS_err_status p q) = ST_BAD_ARG
      else t.regsAt (R.QUE_QP_STATUS p q) = s.regsAt (R.QUE_QP_STATUS p q)) ∧
      keepsRegs [R.QUE_QP_SQ_TAIL p q, R.QUE_QP_STATUS p q] s t ∧ quiet t) ∧
    (writable who page (q * 0x40 + 0x28) s → yields (.cqHeadWrite who p q i) s fun t =>
      t.get (R.QUE_QP_CQ_HEAD_index p q) =
        (if i.toNat < 2 ^ s.get (R.QUE_QP_CFG_cq_log2 p q) then i.toNat else s.get (R.QUE_QP_CQ_HEAD_index p q)) ∧
      keepsRegs [R.QUE_QP_CQ_HEAD p q] s t ∧ quiet t) ∧
    (writable who page (q * 0x40 + 0x10) s →
      (s.bit (R.QUE_QP_CFG_enable p q) = false → yields (.queuePairEnable who p q true) s fun t =>
        t.bit (R.QUE_QP_CFG_enable p q) = true ∧ t.qpState p q = 1 ∧ t.get (R.QUE_QP_STATUS_err_status p q) = 0 ∧
        t.get (R.QUE_QP_STATUS_sq_head p q) = 0 ∧ t.get (R.QUE_QP_STATUS_cq_tail p q) = 0 ∧ t.get (R.QUE_QP_STATUS_phase p q) = 1 ∧
        keepsRegs [R.QUE_QP_CFG p q, R.QUE_QP_STATUS p q] s t ∧ quiet t) ∧
      yields (.queuePairEnable who p q false) s fun t =>
        t.bit (R.QUE_QP_CFG_enable p q) = false ∧
        t.qpState p q = (if s.cmds.any fun x => x.port == p.val && x.qp == q.val then s.qpState p q else 0) ∧
        keepsRegs [R.QUE_QP_CFG p q, R.QUE_QP_STATUS p q] s t ∧ quiet t) ∧
    (∀ (j c : Nat) (ext : List Byte), s.fetchPair p = some (j, c) → s.linkUp p = true → s.outstanding p < 1024 →
      let head := s.get (R.QUE_QP_STATUS_sq_head p j)
      let desc := s.sqHeadDesc p j
      let pm := byteAt desc 1 / 2 % 2 == 1
      let r := s.fetchStatus p desc ext
      (∀ a : Fin 3, a.val ≠ 0 → yields (.descriptorFetch p a) s fun t =>
        t.qpState p j = 2 ∧ t.get (R.QUE_QP_STATUS_err_status p j) = (if a.val = 1 then ST_TIMEOUT else ST_ADDR_UNMAPPED) ∧
        t.cmds = s.cmds ∧ keepsRegs [R.QUE_QP_STATUS p j] s t ∧ quiet t) ∧
      (ext = (if pm then s.hostBytes (hostKey p (s.sqAddr p j (head + 1))) 64 else []) → yields (.descriptorFetch p 0) s fun t =>
        (∃ x, t.cmds = s.cmds ++ [x] ∧ x.port = p.val ∧ x.qp = j ∧ x.desc = desc ∧ x.consumed = r.2 ∧ x.status = r.1 ∧
          x.phase = (if r.1 = ST_OK then 0 else 2)) ∧
        t.get (R.QUE_QP_STATUS_sq_head p j) = (head + if pm then 2 else 1) % 2 ^ s.get (R.QUE_QP_CFG_sq_log2 p j) ∧
        t.get (R.HIF_CMDS_outstanding p) = s.outstanding p + 1 ∧
        t.get (R.HIF_PM_LAST_counter p) = (if r.2 then leAt ext 0 8 else s.get (R.HIF_PM_LAST_counter p)) ∧
        keepsQuiet [R.QUE_QP_STATUS p j, R.HIF_CMDS p, R.HIF_PM_LAST p, R.HIF_PM_STATE p] s t ∧
        changesOnly [.regs, .cmds, .tagNext, .fetchAt, .msix, .mgmtQ, .out] s t)) ∧
    (∀ x, s.cmds.find? (fun y => y.port == p.val && y.mark.isSome) = some x →
      let m := min (x.mark.getD 0 + 2 ^ 20) (2 ^ 64 - 1)
      yields (.reserveMarkWritten p) s fun t => t.pmMarkAt p = m ∧
        (t.cmds = s.cmds.map fun y => if y.port = p.val ∧ y.mark.getD 0 ≤ m then { y with mark := none } else y) ∧
        changesOnly [.pmMark, .cmds] s t) ∧
    (∀ x, s.cmds[n.val]? = some x → s.linkUp x.port = true → s.cqFull x.port x.qp = false →
      let tail := s.get (R.QUE_QP_STATUS_cq_tail x.port x.qp)
      let size := 2 ^ s.get (R.QUE_QP_CFG_cq_log2 x.port x.qp)
      let entry := fun (st kind : Nat) (res : Nat) => toLE 2 x.tag ++ toLE 1 st ++
        toLE 1 (s.get (R.QUE_QP_STATUS_phase x.port x.qp) + kind + (if x.coll then 4 else 0) + (if x.consumed then 8 else 0)) ++
        toLE 2 (s.get (R.QUE_QP_STATUS_sq_head x.port x.qp)) ++ toLE 1 x.qp ++ toLE 1 x.op ++ toLE 8 res
      let posted := fun (st kind res : Nat) (t : State) =>
        hostStored x.port (s.get (R.QUE_QP_CQ_BASE_base x.port x.qp) * 4096 + tail * 16) (entry st kind res) s t ∧
        t.get (R.QUE_QP_STATUS_cq_tail x.port x.qp) = (tail + 1) % size ∧
        t.get (R.QUE_QP_STATUS_phase x.port x.qp) = (if tail + 1 = size then 1 - s.get (R.QUE_QP_STATUS_phase x.port x.qp)
          else s.get (R.QUE_QP_STATUS_phase x.port x.qp)) ∧
        keepsQuiet [R.QUE_QP_STATUS x.port x.qp, R.HIF_CMDS x.port] s t
      (x.interims = [] → x.phase = 2 → x.mark = none → x.status = ST_OK → yields (.completionPost n) s fun t =>
        posted ST_OK 0 x.result t ∧ (t.cmds = s.cmds.filter fun y => y.id != x.id) ∧
        t.get (R.HIF_CMDS_completed x.port) = (s.get (R.HIF_CMDS_completed x.port) + 1) % 2 ^ (R.HIF_CMDS_completed x.port).w ∧
        changesOnly [.hostMem, .regs, .cmds, .cqAgg, .mon, .msix, .mgmtQ, .out] s t) ∧
      (∀ st rest, x.interims = st :: rest → yields (.completionPost n) s fun t =>
        posted st 2 (Config.freeWord s.freeCtr).toNat t ∧
        (t.cmds = s.cmds.map fun y => if y.id = x.id then { y with interims := rest } else y) ∧
        changesOnly [.hostMem, .regs, .cmds, .cqAgg, .freeCtr, .msix, .out] s t)) ∧
    ((s.cqAggAt (p * 64 + q)).1 ≠ 0 → yields (.completionAggTimer p q) s fun t =>
      let v := p * 128 + s.get (R.QUE_QP_CFG_vector p q)
      t.now = max s.now ((s.cqAggAt (p * 64 + q)).2 + s.get (R.QUE_QP_CFG_agg_us p q) * 1000) ∧
      t.cqAggAt (p * 64 + q) = (0, 0) ∧
      (if (s.msixAt v).masked = false ∧ s.linkUp p = true then t.out = .msix p (s.get (R.QUE_QP_CFG_vector p q)) :: s.out
       else (t.msixAt v).pending = true ∧ t.out = s.out) ∧ changesOnly [.now, .cqAgg, .msix, .out] s t)

/-- The link of a host port goes down and comes up; its loss, its function level reset and its PERST# (R348, R358, R502). -/
def Sys2Proof.Claims.HostLinks : Prop :=
  ∀ (p : Fin 2) (s : State), s.power ≠ .off →
    let down := fun (t : State) => t.linkUp p = false ∧ t.get (R.HIF_LINK_width p) = 0 ∧ t.bit (R.HIF_LINK_flit p) = false ∧
      t.get (R.HIF_LINK_downs p) = min (s.get (R.HIF_LINK_downs p) + 1) (2 ^ (R.HIF_LINK_downs p).w - 1) ∧ t.linkDownAt p = s.now + 1
    (s.linkUp p = true → yields (.pcieLinkDown p) s fun t =>
      down t ∧ keepsRegs [R.HIF_LINK p] s t ∧ changesOnly [.regs, .linkDown] s t) ∧
    (∀ (speed : Fin 7) (width : Fin 9) (flit : Bool), s.linkUp p = false → s.perstAt p = false → 1 ≤ speed.val →
      width.val ∈ [1, 2, 4, 8] → yields (.pcieLinkUp p speed width flit) s fun t =>
        t.get (R.HIF_LINK_speed p) = speed.val ∧ t.get (R.HIF_LINK_width p) = width.val ∧ t.bit (R.HIF_LINK_flit p) = flit ∧
        t.linkDownAt p = 0 ∧
        (∀ v : Fin 128, let e := s.msixAt (p * 128 + v)
          (t.msixAt (p * 128 + v)).pending = (e.pending && e.masked) ∧
          ((Out.msix p v) ∈ t.out ↔ (Out.msix p v) ∈ s.out ∨ (e.pending = true ∧ e.masked = false))) ∧
        keepsRegs [R.HIF_LINK p] s t ∧ changesOnly [.regs, .linkDown, .msix, .out] s t) ∧
    (s.linkDownAt p ≠ 0 → yields (.linkLossTimeout p) s fun t =>
      t.now = max s.now (s.linkDownAt p - 1 + 100000000) ∧ portDown p s t ∧ keepsRegs (portKeys p) s t ∧
      changesOnly [.now, .cmds, .regs, .cqAgg, .seqs] s t) ∧
    (yields (.functionLevelReset p) s fun t =>
      portDown p s t ∧ keepsRegs (portKeys p) s t ∧ changesOnly [.cmds, .regs, .cqAgg, .seqs] s t) ∧
    (s.linkUp p = true → yields (.perstAssert p) s fun t =>
      t.perstAt p = true ∧ down t ∧ portDown p s t ∧ keepsRegs (R.HIF_LINK p :: portKeys p) s t ∧
      changesOnly [.perst, .linkDown, .cmds, .regs, .cqAgg, .seqs] s t) ∧
    (yields (.perstRelease p) s fun t => t.perstAt p = false ∧ (∀ k, k ≠ p.val → t.perstAt k = s.perstAt k) ∧
      changesOnly [.perst] s t)

/-- The control token: its offer, acceptance, expiry and takeover, and the takeover time (R372–R375). -/
def Sys2Proof.Claims.ControlToken : Prop :=
  ∀ (n : Fin 2048) (x : HCmd) (s : State),
    let shown := fun (v : Nat) (t : State) => ∀ k < 2, t.get (R.HIF_TOKEN_offer k) = v
    let wide := changesOnly [.cmds, .offer, .regs, .msix, .mgmtQ, .out] s
    let passed := fun (t : State) => holderIs x.port t ∧ t.offer = none ∧ (∀ k < 2,
      t.get (R.HIF_TOKEN_passes k) = (s.get (R.HIF_TOKEN_passes k) + 1) % 2 ^ (R.HIF_TOKEN_passes k).w) ∧
      (∀ y ∈ s.cmds, ∃ z ∈ t.cmds, z.id = y.id ∧
        (y.id = x.id ∨ (∃ o, s.offer = some o ∧ o.1 = y.id) → z.phase = 2 ∧ z.status = ST_OK ∧ z.result = 0)) ∧
      keepsQuiet tokenKeys s t ∧ wide t
    (startsAs 0x68 n x s →
      (s.offer = none → yields (.tokenGive n) s fun t =>
        t.offer = some (x.id, s.now) ∧ shown 1 t ∧ (t.cmds = s.cmds.map fun y => if y.id = x.id then { y with phase := 1 } else y) ∧
        keepsRegs tokenKeys s t ∧ wide t) ∧
      (s.offer ≠ none → yields (.tokenGive n) s (answers x ST_BUSY 0 s))) ∧
    (startsAs 0x69 n x s →
      (s.offer ≠ none → s.holdsToken x.port = false → x.port < 2 → yields (.tokenAccept n) s passed) ∧
      (s.offer = none ∨ s.holdsToken x.port = true → yields (.tokenAccept n) s (answers x ST_BAD_ARG 0 s))) ∧
    (∀ o, s.power ≠ .off → s.offer = some o → yields .tokenOfferExpiry s fun t =>
      t.now = max s.now (o.2 + 1000000000) ∧ t.offer = none ∧ shown 0 t ∧
      (t.cmds = s.cmds.map fun y => if y.id = o.1 then { y with phase := 2, status := ST_TIMEOUT, result := 0 } else y) ∧
      keepsRegs tokenKeys s t ∧ changesOnly [.now, .cmds, .offer, .regs] s t) ∧
    (startsAs 0x6A n x s →
      let h := s.get (R.HIF_TOKEN_holder 0)
      (s.holdsToken x.port = true → yields (.tokenTakeover n) s (answers x ST_BAD_ARG 0 s)) ∧
      (s.holdsToken x.port = false → x.port < 2 → s.bit (R.HIF_TOKEN_held 0) = true → s.linkDownAt h ≠ 0 →
        (s.linkDownAt h - 1 + s.get (R.HIF_TOKEN_takeover_ms 0) * 1000000 ≤ s.now → yields (.tokenTakeover n) s passed) ∧
        (s.now < s.linkDownAt h - 1 + s.get (R.HIF_TOKEN_takeover_ms 0) * 1000000 →
          yields (.tokenTakeover n) s (answers x ST_BUSY 0 s)))) ∧
    (startsAs 0x6B n x s →
      let v := leAt x.desc 8 4
      (100 ≤ v → v ≤ 60000 → yields (.tokenTimeout n) s fun t =>
        (∀ k < 2, t.get (R.HIF_TOKEN_takeover_ms k) = v) ∧ ended x ST_OK 0 s t ∧ keepsRegs tokenKeys s t ∧ wide t) ∧
      (v < 100 ∨ 60000 < v → yields (.tokenTimeout n) s (answers x ST_BAD_ARG 0 s)))

/-- A host port's link, and the control token. -/
def Obligations.HostLinkAndToken : Prop := Claims.HostLinks ∧ Claims.ControlToken

namespace Sys2Proof.Claims
open Sys2Proof.Machine

/-- The n-th command is a letterbox message of type `ty` whose bytes are `m`, and its turn has come (R426). -/
def letterIs (n : Nat) (x : HCmd) (ty : Nat) (m : List Byte) (s : State) : Prop :=
  startsAs 0x11 n x s ∧ s.linkUp x.port = true ∧ s.letterTurn n = true ∧ m = s.hostBytes (hostKey x.port (leAt x.desc 16 8)) (leAt x.desc 8 4) ∧
  16 ≤ m.length ∧ m.length ≤ 65536 ∧ m.length = leAt x.desc 8 4 ∧ leAt m 4 4 = m.length ∧ leAt m 0 2 = ty

/-- The reply of a letterbox message is written, and the command ends with its status and its length (R426). -/
def replied (x : HCmd) (ty st : Nat) (body : List Byte) (s t : State) : Prop :=
  hostStored x.port (leAt x.desc 24 8) (toLE 2 (ty + 0x8000) ++ toLE 1 st ++ toLE 1 0 ++ toLE 4 (16 + body.length) ++ toLE 8 0 ++ body) s t ∧
  ended x st (16 + body.length) s t

/-- The reply fits the room that the command names. -/
def fits (x : HCmd) (n : Nat) : Prop := 16 + n ≤ leAt x.desc 12 4

/-- The 192 bytes that MONITOR_READ gives of a unit (R450). -/
def monBytes (s : State) (u : Nat) : List Byte :=
  let m := s.monAt u
  toLE 1 u ++ toLE 1 (s.get (R.MON_BIND_enable u) + 2 * (if m.ovf then 1 else 0)) ++ toLE 2 (s.get (R.MON_BIND_measurement u)) ++
    toLE 4 (s.get (R.MON_BIND_instance u)) ++ toLE 8 (s.regsAt (R.MON_SETTING u)).toNat ++ toLE 4 (BitVec.ofInt 32 m.low).toNat ++
    toLE 4 (BitVec.ofInt 32 m.high).toNat ++ toLE 8 m.count ++ toLE 8 (BitVec.ofInt 64 m.sum).toNat ++
    ((List.range 32).flatMap fun j => toLE 4 (m.bins.getD j 0)) ++ toLE 8 s.tideTime ++ toLE 8 (s.get R.TIDE_EDGE_NUM_edge) ++ toLE 8 0

/-- The registers that a snap of a unit fills (R449). -/
def monKeys (u : Nat) : List Nat :=
  [R.MON_MINMAX u, R.MON_COUNT u, R.MON_SUM u, R.MON_SNAP_TIME u, R.MON_SNAP_EDGE u, R.MON_CTRL u] ++
    (List.range 16).map fun j => R.MON_HIST u j

/-- The registers that a HELLO of a port may fill. -/
def agreedKeys (p : Nat) : List Nat := (List.range 4).map fun i => R.FW_AGREED p i

/-- The registers that an accepted firmware image fills (R424). -/
def imageKeys : List Nat := [R.FW_VERSION, R.FW_IFACE, R.FW_LOAD_STATUS, R.FW_CORE 0, R.LCY_STATE] ++ tokenKeys ++
  ((List.range 4).map fun i => R.FW_FEAT i) ++ (List.range 8).map fun i => R.FW_DIGEST i

end Sys2Proof.Claims

/-- A command that is refused at its start ends with that status and no other effect; which status it is. -/
def Obligations.CommandGate : Prop :=
  ∀ (n : Fin 2048) (x : HCmd) (s : State), s.power ≠ .off →
    let rows : List (Nat × Instr) := [
      (0x00, .cmdNop n), (0x20, .chartLoad n), (0x21, .chartApply n), (0x22, .chartDisarm n), (0x43, .evacuate n), (0x44, .scrub n),
      (0x42, .kvOp n), (0x30, .seqAdmit n), (0x32, .seqRetire n), (0x61, .lifecycleSet n), (0x68, .tokenGive n), (0x69, .tokenAccept n),
      (0x6A, .tokenTakeover n), (0x6B, .tokenTimeout n), (0x70, .thermalSet n), (0x72, .reset n)]
    let ioRows : List (Nat × Instr) := [
      (0x01, .identify n), (0x10, .fwLoad n 0), (0x31, .stepSubmit n 0), (0x50, .monitorRead n), (0x51, .dispatchRead n),
      (0x60, .frankInstall n 0 false), (0x62, .keySet n 0), (0x63, .keyQuery n), (0x40, .copyToDevice n 0 0), (0x41, .copyFromDevice n none)]
    (∀ row ∈ rows ++ ioRows, (row ∈ ioRows → s.linkUp x.port = true) → s.cmdStartable n row.1 = some x →
      s.startStatus x ≠ ST_OK → yields row.2 s (answers x (s.startStatus x) 0 s)) ∧
    (s.cmds[n.val]? = some x → s.linkUp x.port = false →
      ∀ row ∈ ioRows, x.op = row.1 → yields row.2 s (changesOnly [] s)) ∧
    (s.ready = true → opCtl x.op = true → s.holdsToken x.port = false → s.startStatus x = ST_NOT_CONTROLLER) ∧
    (s.ready = false → s.get R.FW_STAGE_stage < 4 → x.op ∉ [0x00, 0x01, 0x10, 0x11, 0x51, 0x72] → s.startStatus x = ST_BUSY)

/-- Commands that report: NOP, IDENTIFY, DISPATCH_READ, MONITOR_READ, KEY_QUERY and the letterbox queries. -/
def Sys2Proof.Claims.HostQueries : Prop :=
  ∀ (n : Fin 2048) (x : HCmd) (m : List Byte) (s : State),
    let gives := fun (a : Nat) (bs : List Byte) (res : Nat) (t : State) =>
      hostStored x.port a bs s t ∧ ended x ST_OK res s t ∧ changesOnly [.hostMem, .cmds] s t
    (startsAs 0x00 n x s → yields (.cmdNop n) s (answers x ST_OK 0 s)) ∧
    (s.linkUp x.port = true →
      (startsAs 0x01 n x s → yields (.identify n) s (gives (leAt x.desc 16 8) (s.identifyPage x.port) 0)) ∧
      (startsAs 0x63 n x s → yields (.keyQuery n) s
        (gives (leAt x.desc 16 8) (toLE 512 Config.enrolKey.1 ++ toLE 4 Config.enrolKey.2 ++ List.replicate 508 0) 0)) ∧
      (startsAs 0x51 n x s → let first := leAt x.desc 8 4
        let count := min (leAt x.desc 12 4) (s.get R.SVC_DISPATCH_HEAD_next - first)
        yields (.dispatchRead n) s
          (gives (leAt x.desc 16 8) ((List.range count).flatMap fun i => s.dispatchRecord (first + i)) count)) ∧
      (startsAs 0x50 n x s → let u := leAt x.desc 8 1
        let count := leAt x.desc 9 1
        (count = 1 → u < 64 → (∀ j, (s.monAt u).bins.getD j 0 < 2 ^ 32) → yields (.monitorRead n) s fun t =>
          hostStored x.port (leAt x.desc 16 8) (monBytes s u) s t ∧ ended x ST_OK 1 s t ∧
          t.monAt u = (if s.regBit (R.MON_SETTING u) 5 then MonCap.zero else s.monAt u) ∧ (∀ k, k ≠ u → t.monAt k = s.monAt k) ∧
          keepsRegs (monKeys u) s t ∧ changesOnly [.hostMem, .cmds, .mon, .regs] s t) ∧
        (count = 0 ∨ 64 < u + count → yields (.monitorRead n) s (answers x ST_BAD_ARG 0 s)))) ∧
    (letterIs n x 3 m s → fits x 104 → yields (.fwInfo n 0) s fun t =>
      replied x 3 ST_OK (toLE 8 (s.get R.FW_VERSION_version) ++ s.digestBytes ++ s.featBytes R.FW_FEAT) s t ∧
      changesOnly [.hostMem, .cmds] s t) ∧
    (letterIs n x 3 m s → leAt x.desc 12 4 < 120 → yields (.fwInfo n 0) s (answers x ST_BAD_ARG 120 s)) ∧
    (letterIs n x 3 m s → yields (.fwInfo n 1) s fun t =>
      ended x ST_TIMEOUT (Config.freeWord s.freeCtr).toNat s t ∧ changesOnly [.cmds, .freeCtr] s t) ∧
    (letterIs n x 0x11 m s → 22 ≤ m.length → leAt m 16 1 ≤ 6 → let cls := leAt m 16 1
      let first := leAt m 18 2
      let count := leAt m 20 2
      (1 ≤ count → count ≤ 1024 → first + count ≤ ceUnits cls → fits x (8 * count) → yields (.ceRead n 0) s fun t =>
        replied x 0x11 ST_OK ((List.range count).flatMap fun i =>
          toLE 4 (s.ceNow cls (first + i)) ++ toLE 4 (s.ceCountAt (cls * 65536 + first + i)).total) s t ∧
        changesOnly [.hostMem, .cmds] s t) ∧
      (ceUnits cls < first + count → fits x 0 → yields (.ceRead n 0) s fun t =>
        replied x 0x11 ST_BAD_ARG [] s t ∧ changesOnly [.hostMem, .cmds] s t))

/-- Commands that set: THERMAL_SET, RESET, LIFECYCLE_SET, KEY_SET, FRANK_INSTALL, FW_LOAD and the letterbox settings. -/
def Sys2Proof.Claims.HostSettings : Prop :=
  ∀ (n : Fin 2048) (x : HCmd) (m : List Byte) (s : State),
    (startsAs 0x70 n x s → let grace := leAt x.desc 8 2
      let limit := leAt x.desc 10 2
      (5 ≤ grace → grace ≤ 100 → 1000 ≤ limit → limit ≤ 2600 → yields (.thermalSet n) s fun t =>
        t.get R.THM_GRACE_grace_ms = grace ∧ t.get R.PWR_LIMIT_limit_w = limit ∧ ended x ST_OK 0 s t ∧
        keepsRegs [R.THM_GRACE, R.PWR_LIMIT] s t ∧ changesOnly [.regs, .cmds] s t) ∧
      (grace < 5 ∨ 100 < grace ∨ limit < 1000 ∨ 2600 < limit → yields (.thermalSet n) s (answers x ST_BAD_ARG 0 s))) ∧
    (startsAs 0x72 n x s → yields (.reset n) s fun t =>
      t.resetAt = some s.now ∧ ended x ST_OK 0 s t ∧ changesOnly [.resetAt, .cmds] s t) ∧
    (startsAs 0x61 n x s → let target := leAt x.desc 8 1
      (s.lifecycleStatus target = ST_OK → target < 6 → yields (.lifecycleSet n) s fun t =>
        t.get R.LCY_STATE_state = target ∧ t.get R.LCY_STATE_last_status = ST_OK ∧ t.fuseLcy = (if target = 3 then 2 else target) ∧
        t.get R.LCY_STATE_wipes = min (s.get R.LCY_STATE_wipes + 1) (2 ^ R.LCY_STATE_wipes.w - 1) ∧
        (target = 4 → ∀ k, 1 ≤ k → k ≤ 5 → t.franksAt k = []) ∧
        (target = 5 → t.enrolled = false ∧ ∀ p < 2, t.pmFlashAt p = [] ∧ t.pmMarkAt p = 0) ∧
        (s.fwRuns = false ∨ s.tampered = true → ∀ p < 2, t.pmKeyAt p = []) ∧
        (s.fwRuns = true → s.tampered = false → ∀ p < 2, t.pmKeyAt p = t.pmFlashAt p) ∧
        ended x ST_OK 0 s t ∧ changesOnly [.regs, .cmds, .fuseLcy, .pmKey, .pmFlash, .pmMark, .franks, .enrolled] s t) ∧
      (s.lifecycleStatus target ≠ ST_OK → yields (.lifecycleSet n) s fun t =>
        t.get R.LCY_STATE_last_status = s.lifecycleStatus target ∧ ended x (s.lifecycleStatus target) 0 s t ∧
        keepsRegs [R.LCY_STATE] s t ∧ changesOnly [.regs, .cmds] s t)) ∧
    (startsAs 0x62 n x s → s.linkUp x.port = true → x.port < 2 →
      (s.keyAccept x = ST_OK → let w := s.hostBytes (hostKey x.port (leAt x.desc 8 8)) 512
        yields (.keySet n 0) s fun t =>
          let u := (if s.enrolled then Config.unwrapKey w else none).filter fun k => k.length == 64
          (∀ key, u = some key → t.pmFlashAt x.port = key ∧ t.pmKeyAt x.port = (if s.tampered then s.pmKeyAt x.port else key) ∧
            t.get (R.HIF_PM_LAST_counter x.port) = 0 ∧ ended x ST_OK 0 s t ∧
            keepsRegs [R.LCY_STATE, R.HIF_PM_LAST x.port] s t ∧ changesOnly [.pmFlash, .pmKey, .regs, .cmds] s t) ∧
          (u = none → answers x ST_BAD_ARG 0 s t)) ∧
      (s.keyAccept x ≠ ST_OK → yields (.keySet n 0) s (answers x (s.keyAccept x) 0 s))) ∧
    (startsAs 0x60 n x s → s.linkUp x.port = true → leAt x.desc 16 4 = 1152 →
      let f := s.hostBytes (hostKey x.port (leAt x.desc 8 8)) 1152
      ∀ bad : Bool, yields (.frankInstall n 0 bad) s fun t =>
        let st := if frankStatus f ≠ ST_OK then frankStatus f else if s.frankNew f ≠ ST_OK then s.frankNew f
          else if bad then ST_UNCORRECTABLE else ST_OK
        t.get R.LIC_STATUS_last_status = st ∧ t.get R.LIC_STATUS_last_kind = leAt f 6 1 ∧ ended x st 0 s t ∧
        (∀ k, t.franksAt k = if st = ST_OK ∧ k = leAt f 6 1 then f else s.franksAt k) ∧
        (∀ k, k / 0x10000 ≠ 0x1008 → t.regsAt k = s.regsAt k) ∧ changesOnly [.franks, .regs, .cmds] s t) ∧
    (startsAs 0x10 n x s → s.linkUp x.port = true → s.atStage 3 = true → s.fwRuns = false → x.port < 2 →
      let len := leAt x.desc 16 4
      let img := s.hostBytes (hostKey x.port (leAt x.desc 8 8)) len
      1152 ≤ len → len ≤ 12582912 → (∀ e < 16, s.bit (R.CRC_CTRL_running e) = false) → yields (.fwLoad n 0) s fun t =>
        t.get R.FW_LOAD_STATUS_status = imageStatus img len ∧ t.get R.FW_LOAD_STATUS_port = x.port ∧ t.get R.FW_LOAD_STATUS_length = len ∧
        ended x (imageStatus img len) 0 s t ∧
        (imageStatus img len = ST_OK → t.fwRuns = true ∧ holderIs x.port t ∧ t.get R.FW_VERSION_version = leAt img 8 8 ∧
          (∀ i < 4, t.get (R.FW_FEAT_bits i) = leAt img (32 + 8 * i) 8) ∧ t.fwAt = s.now ∧ keepsQuiet imageKeys s t)) ∧
    (letterIs n x 1 m s → 56 ≤ m.length → fits x 40 → s.get R.FW_IFACE_drv_min ≤ leAt m 16 2 → leAt m 16 2 ≤ s.get R.FW_IFACE_drv_max →
      yields (.hello n 0) s fun t =>
        (∀ i < 4, t.get (R.FW_AGREED_bits x.port i) = Nat.land (leAt m (24 + 8 * i) 8) (s.get (R.FW_FEAT_bits i))) ∧
        t.agreedAt x.port = 1 ∧
        t.hello = (if s.atStage 3 = true ∧ s.holdsToken x.port = true ∧ s.hello = none then
          some (if leAt m 24 1 % 2 = 1 ∧ s.get (R.FW_FEAT_bits 0) % 2 = 1 then ST_OK else ST_FW_INTERFACE, leAt m 16 2 * 2 ^ 16 + leAt m 18 2)
          else s.hello) ∧
        replied x 1 ST_OK (toLE 2 (s.get R.FW_IFACE_iface_major) ++ toLE 2 (s.get R.FW_IFACE_iface_minor) ++
          toLE 2 (s.get R.FW_IFACE_drv_min) ++ toLE 2 (s.get R.FW_IFACE_drv_max) ++ t.featBytes (R.FW_AGREED x.port)) s t ∧
        keepsRegs (agreedKeys x.port) s t ∧ changesOnly [.regs, .agreed, .hello, .hostMem, .cmds] s t) ∧
    (letterIs n x 2 m s → s.holdsToken x.port = true → s.agrees x.port 4 = true → fits x 0 → let peers := leAt m 20 2
      (peers ≤ 128 → 22 + 4 * peers ≤ m.length → yields (.jobSetup n 0) s fun t =>
        t.get R.GWL_NODE_fabric = leAt m 16 3 ∧
        (∀ k < peers, t.get (R.GWL_PEER_fabric k) = leAt m (22 + 4 * k) 3 ∧ t.get (R.GWL_PEER_valid k) = leAt m (25 + 4 * k) 1 % 2 ∧
          t.bit (R.GWL_PEER_reachable k) = true) ∧
        replied x 2 ST_OK [] s t ∧ keepsRegs (R.GWL_NODE :: (List.range peers).map fun k => R.GWL_PEER k) s t ∧
        changesOnly [.regs, .hostMem, .cmds] s t) ∧
      (128 < peers → yields (.jobSetup n 0) s fun t => replied x 2 ST_BAD_ARG [] s t ∧ changesOnly [.hostMem, .cmds] s t))

/-- Host commands and letterbox messages that report, and those that set. -/
def Obligations.HostInformation : Prop := Claims.HostQueries ∧ Claims.HostSettings

/-- SERVICE_TEST and the end of the test that it starts (R470, R471). -/
def Sys2Proof.Claims.LiveTests : Prop :=
  ∀ (n : Fin 2048) (x : HCmd) (m : List Byte) (s : State),
    (letterIs n x 0x10 m s → 20 ≤ m.length → fits x 0 → s.holdsToken x.port = true → let kind := leAt m 16 1
      let u := leAt m 18 2
      kind ≤ 3 → u < testUnits kind → s.testRetired kind u = false →
      (s.get R.SVC_TEST_state ≠ 1 → s.testable kind u = true → yields (.serviceTest n 0) s fun t =>
        t.get R.SVC_TEST_state = 1 ∧ t.get R.SVC_TEST_kind = kind ∧ t.get R.SVC_TEST_unit = u ∧ t.testFrom = s.now ∧
        replied x 0x10 ST_OK [] s t ∧ (kind = 2 → t.dl u = 6) ∧ (kind = 3 → t.gl u = GL_TRAINING) ∧
        (kind < 2 → keepsRegs [R.SVC_TEST] s t ∧ changesOnly [.regs, .testFrom, .hostMem, .cmds] s t)) ∧
      (s.get R.SVC_TEST_state = 1 ∨ s.testable kind u = false → yields (.serviceTest n 0) s fun t =>
        replied x 0x10 ST_BUSY [] s t ∧ changesOnly [.hostMem, .cmds] s t)) ∧
    (∀ (block : Fin 6) (us : BitVec 24), s.power ≠ .off → s.get R.SVC_TEST_state = 1 → let kind := s.get R.SVC_TEST_kind
      let u := s.get R.SVC_TEST_unit
      let st := if s.testRetired kind u then ST_UNIT_RETIRED else if kind = 3 then s.linkTestStatus u
        else if block.val = 0 then ST_OK else ST_SELFTEST
      kind ≤ 3 → u < testUnits kind → (kind = 3 → s.gl u ≠ GL_TRAINING) → yields (.serviceTestDone block us) s fun t =>
        t.now = max s.now (s.testFrom + us.toNat * 1000) ∧ t.get R.SVC_TEST_state = 2 ∧ t.get R.SVC_TEST_status = st ∧
        t.get R.SVC_TEST_detail = (if st = ST_SELFTEST ∧ kind ≠ 3 then block.val else 0) ∧
        t.get R.SVC_TEST_duration_ms = min ((t.now - s.testFrom) / 1000000) 65535 ∧
        (st = ST_SELFTEST → kind < 3 → t.testRetired kind u = true) ∧
        (kind = 3 ∨ s.testRetired kind u = true → keepsQuiet [R.SVC_TEST] s t ∧ changesOnly [.now, .regs, .msix, .mgmtQ, .out] s t))

namespace Sys2Proof.Claims
open Sys2Proof.Machine

/-- The n-th command runs: it has started and waits for something (R360). -/
def runsAs (op n : Nat) (x : HCmd) (s : State) : Prop :=
  s.power ≠ .off ∧ s.cmds[n]? = some x ∧ x.op = op ∧ x.phase = 1

/-- The command with the identity of `x` has become `f` of it; no other command has changed. -/
def became (x : HCmd) (f : HCmd → HCmd) (s t : State) : Prop := t.cmds = s.cmds.map fun y => if y.id = x.id then f y else y

/-- The registers in which the check-value engines take a stream. -/
def crcKeys : List Nat := (List.range 16).flatMap fun e => [R.CRC_VALUE e, R.CRC_STATUS e]

/-- The registers of a KVT that show its queues. -/
def kvtShown (c : Nat) : List Nat := [R.KVT_STATUS c, R.KVT_MIG c]

/-- What an access of memory, with its counters and events, may change beside the memory. -/
def besideMem : List Part := [.regs, .mon, .msix, .mgmtQ, .out]

end Sys2Proof.Claims

/-- COPY_TO_DEVICE, COPY_FROM_DEVICE, SCRUB, KV_OP and EVACUATE (R361, R364). -/
def Obligations.HostMemoryCommands : Prop :=
  ∀ (n : Fin 2048) (p : Fin 2) (x : HCmd) (s : State), x.port = p.val → s.linkUp p = true →
    let host := leAt x.desc 8 8
    let dev := leAt x.desc 16 8
    let len := leAt x.desc 24 8
    let granule := 1 ≤ len ∧ dev % 64 + len ≤ 64 ∧ leAt x.desc 32 1 < 32
    (startsAs 0x40 n x s → x.pos = 0 →
      (granule → memReady s (.host p) dev len → s.holder dev len = none → yields (.copyToDevice n 0 0) s fun t =>
        stored dev (s.hostBytes (hostKey p host) len) s t ∧
        became x (fun y => { y with phase := 2, status := ST_OK, result := len, pos := len }) s t ∧
        changesOnly ([.mem, .check, .marks, .cmds] ++ besideMem) s t) ∧
      (1 ≤ len → len ≤ 2 ^ 32 → leAt x.desc 32 1 < 32 → s.mapStatus dev (min len (64 - dev % 64)) ≠ ST_OK →
        yields (.copyToDevice n 0 0) s fun t =>
          ended x (s.mapStatus dev (min len (64 - dev % 64))) 0 s t ∧ changesOnly [.cmds] s t) ∧
      (granule → yields (.copyToDevice n 1 0) s fun t => ended x ST_TIMEOUT 0 s t ∧ changesOnly [.cmds] s t) ∧
      (len = 0 ∨ 2 ^ 32 < len → yields (.copyToDevice n 0 0) s (answers x ST_BAD_ARG 0 s))) ∧
    (startsAs 0x41 n x s → x.pos = 0 → granule → memReady s (.host p) dev len → s.holder dev len = none →
      yields (.copyFromDevice n none) s fun t =>
        hostStored p host (s.bytes dev len) s t ∧
        became x (fun y => { y with phase := 2, status := ST_OK, result := len, pos := len }) s t ∧
        changesOnly ([.hostMem, .cmds] ++ besideMem) s t) ∧
    (startsAs 0x44 n x s → ∀ u : Option (Fin 128), let lo := leAt x.desc 8 8
      let hi := leAt x.desc 16 8
      scrubUnit lo = some u → lo % 64 = 0 → hi % 64 = 63 → lo ≤ hi → inUnit u hi = true →
      1 ≤ leAt x.desc 25 1 → leAt x.desc 25 1 ≤ 16 → s.mapStatus lo 64 = ST_OK → s.mapStatus (hi / 64 * 64) 64 = ST_OK →
      (s.bit (scrubBusy u) = false → yields (.scrub n) s fun t =>
        t.bit (scrubBusy u) = true ∧ t.get (scrubBase u) = lo ∧ t.get (scrubLimit u) = hi ∧ became x (fun y => { y with phase := 1 }) s t) ∧
      (s.bit (scrubBusy u) = true → yields (.scrub n) s (answers x ST_BUSY 0 s))) ∧
    (runsAs 0x44 n x s → ∀ u : Option (Fin 128), scrubUnit (leAt x.desc 8 8) = some u → s.bit (scrubBusy u) = false →
      let record := (List.range 8).flatMap fun i => toLE 8 (s.regsAt (recordWord u i)).toNat
      yields (.scrub n) s fun t =>
        hostStored p (leAt x.desc 32 8) record s t ∧ ended x (leAt record 20 1) (leAt record 0 8) s t ∧ changesOnly [.hostMem, .cmds] s t) ∧
    (∀ c : Fin 128, leAt x.desc 8 1 = c.val → s.kvRoom c = true → startsAs 0x42 n x s →
      (s.cellRetired c = false → yields (.kvOp n) s fun t =>
        (∃ y, t.kvtQAt c = s.kvtQAt c ++ [y] ∧ y.id = s.tagNext ∧ y.dest = 0xFFFF ∧ y.off = none ∧ y.phase = 0 ∧
          ∀ i < 32, i ≠ 1 → byteAt y.desc i = byteAt x.desc (16 + i)) ∧
        became x (fun y => { y with phase := 1, ops := y.ops ++ [(c.val, s.tagNext)] }) s t ∧
        keepsRegs (kvtShown c) s t ∧ changesOnly [.kvtQ, .tagNext, .cmds, .regs] s t) ∧
      (s.cellRetired c = true → yields (.kvOp n) s (answers x ST_UNIT_RETIRED 0 s))) ∧
    (runsAs 0x42 n x s → ∀ c tag st r0 r1, x.ops = [(c, tag)] → s.kvtEndAt tag = some (st, r0, r1) →
      leAt x.desc 16 1 ∈ [1, 2, 6, 7] → yields (.kvOp n) s fun t =>
        became x (fun y => { y with phase := 2, status := worst ST_OK st, result := r0 % 2 ^ 32 + r1 % 2 ^ 32 * 2 ^ 32, ops := [] }) s t ∧
        t.kvtEndAt tag = none ∧ changesOnly [.kvtEnd, .cmds] s t) ∧
    (∀ r : SeqRec, s.seqsAt (leAt x.desc 8 2) = some r → let q := leAt x.desc 8 2
      let left := (s.seqCells r).filter fun c => decide (x.result ≤ c)
      (runsAs 0x43 n x s → x.ops = [] → x.result ≤ 128 →
        (left = [] → yields (.evacuate n) s fun t =>
          became x (fun _ => { x with phase := 2, result := x.pos, ops := [], status := worst x.status ST_OK }) s t ∧ changesOnly [.cmds] s t) ∧
        (∀ c rest, left = c :: rest → s.cellRetired c = false → s.kvRoom c = true → memReady s (.core 0) (s.kvSeqAddr c q) 32 →
          yields (.evacuate n) s fun t =>
            (∃ y, t.kvtQAt c = s.kvtQAt c ++ [y] ∧ y.id = s.tagNext ∧ y.dest = leAt x.desc 10 2 ∧ leAt y.desc 0 1 = 8 ∧
              leAt y.desc 4 2 = q ∧ leAt y.desc 7 1 = (s.memAt (s.kvSeqAddr c q + 10)).toNat ∧ leAt y.desc 8 4 = leAt x.desc 16 4 ∧
              leAt y.desc 12 4 = leAt x.desc 20 4 ∧ leAt y.desc 16 8 = (leAt x.desc 24 8 + x.pos) % 2 ^ 64) ∧
            (∃ z ∈ t.cmds, z.id = x.id ∧ z.phase = 1 ∧ z.result = c + 1 ∧ z.pos = x.pos ∧ z.ops = [(c, s.tagNext)]) ∧
            changesOnly ([.kvtQ, .tagNext, .cmds] ++ besideMem) s t))) ∧
    (startsAs 0x43 n x s → s.seqsAt (leAt x.desc 8 2) = none → yields (.evacuate n) s (answers x ST_KV_NOT_PRESENT 0 s)) ∧
    (startsAs 0x43 n x s → s.seqsAt (leAt x.desc 8 2) ≠ none → len % 64 ≠ 0 → yields (.evacuate n) s (answers x ST_ALIGN 0 s))

/-- Sequences: their admission, their submissions with the completion after the step, and their retirement (R365–R367). -/
def Obligations.Sequences : Prop :=
  ∀ (n : Fin 2048) (q : Fin 4096) (x : HCmd) (s : State),
    let named := leAt x.desc 8 2 = q.val
    (startsAs 0x30 n x s → named → leAt x.desc 12 1 % 2 = 0 →
      (s.admitStatus x = ST_OK → yields (.seqAdmit n) s fun t =>
        (∃ r, t.seqsAt q = some r ∧ r.districts = leAt x.desc 24 16 ∧ r.prio = leAt x.desc 10 1 ∧ r.out = leAt x.desc 11 1 ∧
          r.maxTok = leAt x.desc 16 4 ∧ r.pos = 0 ∧ r.sub = none ∧ r.retire = none) ∧
        (∀ k, k ≠ q.val → t.seqsAt k = s.seqsAt k) ∧ ended x ST_OK 0 s t) ∧
      (s.admitStatus x ≠ ST_OK → yields (.seqAdmit n) s (answers x (s.admitStatus x) 0 s)) ∧
      ((s.seqsAt q).isSome = true → leAt x.desc 11 1 ≤ 127 → 1 ≤ leAt x.desc 16 4 → leAt x.desc 16 4 ≤ 1048576 →
        s.admitStatus x = ST_BUSY)) ∧
    (runsAs 0x30 n x s → named → ∀ c tag st r0 r1, x.ops = [(c, tag)] → s.kvtEndAt tag = some (st, r0, r1) →
      worst ST_OK st = ST_OK → yields (.seqAdmit n) s fun t =>
        (∃ r, t.seqsAt q = some r ∧ r.pos = leAt x.desc 20 4 ∧ r.districts = leAt x.desc 24 16 ∧ r.sub = none) ∧
        (∀ k, k ≠ q.val → t.seqsAt k = s.seqsAt k) ∧
        became x (fun y => { y with phase := 2, status := ST_OK, result := leAt x.desc 20 4, ops := [] }) s t ∧
        changesOnly [.seqs, .kvtEnd, .cmds] s t) ∧
    (startsAs 0x31 n x s → s.linkUp x.port = true → named →
      (∀ r, s.seqsAt q = some r → s.submitStatus x = ST_OK → yields (.stepSubmit n 0) s fun t =>
        (∃ y, t.seqsAt q = some y ∧ y.sub = some (x.id, x.desc) ∧ y.input = s.hostBytes (hostKey x.port (leAt x.desc 24 8)) (leAt x.desc 10 2) ∧
          y.marks = [] ∧ y.pos = r.pos ∧ y.joined = r.joined ∧ y.retire = r.retire) ∧
        (∀ k, k ≠ q.val → t.seqsAt k = s.seqsAt k) ∧ became x (fun y => { y with phase := 1 }) s t ∧
        (s.districts = [] → changesOnly [.seqs, .cmds] s t)) ∧
      (s.submitStatus x ≠ ST_OK → yields (.stepSubmit n 0) s (answers x (s.submitStatus x) 0 s)) ∧
      (s.submitStatus x = ST_OK → leAt x.desc 10 2 ≠ 0 → yields (.stepSubmit n 1) s (answers x ST_TIMEOUT 0 s))) ∧
    (∀ (r : SeqRec) (id : Nat) (desc : List Byte) (d k a staged : Nat), s.power ≠ .off → s.seqsAt q = some r → r.sub = some (id, desc) →
      r.joined = [(d, k, a, staged)] → r.out = d → s.seqDone r = true → x ∈ s.cmds → (s.cmds.find? fun y => y.id == id) = some x →
      s.linkUp x.port = true → memReady s (.core 0) (a + 3) 1 → memReady s (.core 0) (a + 12) 4 → 0 < leAt desc 12 2 →
      memReady s (.core 0) (staged + 1024) (leAt desc 12 2) → byteAt (s.bytes (a + 3) 1) 0 / 4 % 2 = 0 →
      let advance := leNat (s.bytes (a + 12) 4)
      yields (.stepSubmitCompletion q) s fun t =>
        hostStored x.port (leAt desc 32 8) (s.bytes (staged + 1024) (leAt desc 12 2)) s t ∧
        ended x (([ST_SEQ_TRAP, ST_TIDE_OVERRUN, ST_THROTTLED].find? fun st => r.marks.contains st).getD ST_OK)
          (k % 2 ^ 32 + leAt desc 12 2 * 2 ^ 32 + advance % 2 ^ 16 * 2 ^ 48) s t ∧
        t.seqsAt q = some { r with sub := none, input := [], held := [], joined := [], marks := [], fresh := [], staged := []
                                   pos := (r.pos + advance) % 2 ^ 32 } ∧
        (∀ k, k ≠ q.val → t.seqsAt k = s.seqsAt k) ∧ changesOnly ([.hostMem, .cmds, .seqs] ++ besideMem) s t) ∧
    (named → ∀ r, s.seqsAt q = some r →
      (startsAs 0x32 n x s → r.retire = none → s.seqLeaving q = false → s.seqQuiet r = false → yields (.seqRetire n) s fun t =>
        t.seqsAt q = some { r with sub := none, retire := some x.id } ∧ (∀ k, k ≠ q.val → t.seqsAt k = s.seqsAt k) ∧
        (t.cmds = s.cmds.map fun y => if y.id = x.id then { (if (r.sub.map fun b => b.1) = some y.id then
            { y with phase := 2, status := ST_ABORTED, result := 0 } else y) with phase := 1 }
          else if (r.sub.map fun b => b.1) = some y.id then { y with phase := 2, status := ST_ABORTED, result := 0 } else y) ∧
        changesOnly [.seqs, .cmds] s t) ∧
      (startsAs 0x32 n x s → r.retire.isSome = true → yields (.seqRetire n) s (answers x ST_BUSY 0 s)) ∧
      (runsAs 0x32 n x s → x.pos = 1 → s.maskCells r.districts = [] → x.ops = [] → yields (.seqRetire n) s fun t =>
        t.seqsAt q = none ∧ (∀ k, k ≠ q.val → t.seqsAt k = s.seqsAt k) ∧ ended x ST_OK 0 s t ∧ changesOnly [.seqs, .cmds] s t)) ∧
    (startsAs 0x32 n x s → named → s.seqsAt q = none → yields (.seqRetire n) s (answers x ST_KV_NOT_PRESENT 0 s))

/-- The retirement of a cell, a bank unit, a die-link module and a link (R468, R469). -/
def Obligations.Retirements : Prop :=
  ∀ (n : Fin 2048) (x : HCmd) (s : State), startsAs 0x52 n x s →
    let kind := leAt x.desc 8 1
    let u := leAt x.desc 10 2
    let waits := fun (t : State) => t.retirePend = s.retirePend ++ [(x.id, kind, u)] ∧ became x (fun y => { y with phase := 1 }) s t
    (kind = 0 → u < 128 →
      (s.cellRetired u = true → yields (.retireCell n) s (answers x ST_UNIT_RETIRED 0 s)) ∧
      (s.cellRetired u = false →
        (chartDistrictOf s.chartLive u = none → yields (.retireCell n) s fun t => waits t ∧ changesOnly [.retirePend, .cmds] s t) ∧
        (chartDistrictOf s.chartLive u ≠ none → s.cellStandIn u = none → yields (.retireCell n) s (answers x ST_BUSY 0 s)) ∧
        (∀ m, chartDistrictOf s.chartLive u ≠ none → s.cellStandIn u = some m →
          let img := rotateImg (swapCells u m) s.chartLive
          s.rotationOk img = true → yields (.retireCell n) s fun t =>
            waits t ∧ t.chart = img ∧ t.bit R.CHT_STATUS_rotation = true ∧ t.get R.CHT_STATUS_state = CHT_STAGING ∧
            t.get R.CHT_STAGED_ID_chart_id = chartId img ∧ keepsQuiet [R.CHT_STATUS, R.CHT_STAGED_ID] s t))) ∧
    (kind = 1 → u < 1024 → s.unitRetired u = false →
      (s.unitNamed u = true → yields (.retireBankUnit n) s (answers x ST_BUSY 0 s)) ∧
      (s.unitNamed u = false → s.buMode u = false → (s.buQAt u).isEmpty = true → s.mapStatus (regAddr (u / 8 * 16 + 9) (u % 8 * 0x1000)) 8 = ST_OK →
        yields (.retireBankUnit n) s waits)) ∧
    (kind = 2 → u < 48 →
      let other := (List.range 6).any fun m => decide (u / 6 * 6 + m ≠ u) && s.dlUp (u / 6 * 6 + m)
      let plan := s.hashPlanOff (u / 6) (fun m => s.dlLeaving (u / 6) m || m == u % 6) (s.hashMap (u / 6))
      (s.dl u = 7 → yields (.retireDieLink n) s (answers x ST_UNIT_RETIRED 0 s)) ∧
      (s.dl u ≠ 7 → other = true → s.dlHolds u = false → yields (.retireDieLink n) s fun t =>
        t.dl u = 7 ∧ t.regBit R.SVC_RETIRED_DL u = true ∧ t.get (R.DL_STATUS_last_status (u / 6) (u % 6)) = ST_UNIT_RETIRED ∧
        ended x ST_OK 0 s t) ∧
      (s.dl u ≠ 7 → other = true → s.dlHolds u = true → yields (.retireDieLink n) s fun t =>
        waits t ∧ t.dl u = s.dl u ∧
        ((∀ m ∈ plan, m < 6 ∧ m ≠ u % 6 ∧ s.dlUp (u / 6 * 6 + m) = true) →
          ∀ k < 48, t.hashOf (u / 6) k = plan.getD k 0 ∧ t.hashOf (u / 6) k ≠ u % 6 ∧ t.slotModule (u / 6) k = s.slotModule (u / 6) k)) ∧
      (s.dl u ≠ 7 → other = false → yields (.retireDieLink n) s (answers x ST_BUSY 0 s))) ∧
    (kind = 3 → u < 48 →
      let other := (List.range 48).any fun i => decide (i ≠ u) && s.gwUp i
      (s.gl u = GL_RETIRED → yields (.retireLink n) s (answers x ST_UNIT_RETIRED 0 s)) ∧
      (s.gl u ≠ GL_RETIRED → other = true → yields (.retireLink n) s fun t =>
        t.gl u = GL_RETIRED ∧ t.gwUp u = false ∧ t.regBit R.SVC_RETIRED_LINK u = true ∧
        t.get (R.GWL_LINK_STATUS_last_status u) = ST_UNIT_RETIRED ∧ ended x ST_OK 0 s t) ∧
      (s.gl u ≠ GL_RETIRED → other = false → yields (.retireLink n) s (answers x ST_BUSY 0 s))) ∧
    (3 < kind → yields (.retireCell n) s (answers x ST_BAD_ARG 0 s))

/-- STANDBY: the commands that ask for it and for RUN, its entry and its exit (R477–R480). -/
def Obligations.PowerStates : Prop :=
  ∀ (n : Fin 2048) (x : HCmd) (tests : List DlTest) (s : State),
    let done := fun (t : State) => t.cmds = s.cmds.map fun y =>
      if y.op = 0x71 ∧ y.phase = 1 then { y with phase := 2, status := ST_OK, result := 0 } else y
    (startsAs 0x71 n x s → let v := leAt x.desc 8 1
      (v = 2 → s.standbyOk = true → yields (.powerStateStandby n) s fun t =>
        t.bit R.PWR_STATE_pending = true ∧ became x (fun y => { y with phase := 1 }) s t ∧
        (∀ k < 1024, t.qeQAt k = [] ∧ t.buQAt k = [] ∧ t.buMode k = false) ∧
        (∀ c < 128, t.kvtQAt c = [] ∧ t.kvtStagedAt c = [] ∧ t.kvtMovesAt c = [] ∧ t.kvtMigQAt c = [])) ∧
      (v = 2 → s.standbyOk = false → yields (.powerStateStandby n) s fun t =>
        t.get R.PWR_STATE_last_status = ST_BUSY ∧ ended x ST_BUSY 0 s t ∧ keepsRegs [R.PWR_STATE] s t ∧ changesOnly [.regs, .cmds] s t) ∧
      (v ≠ 2 → v ≠ 0 → yields (.powerStateStandby n) s fun t =>
        t.get R.PWR_STATE_last_status = ST_BAD_ARG ∧ ended x ST_BAD_ARG 0 s t ∧ keepsRegs [R.PWR_STATE] s t ∧ changesOnly [.regs, .cmds] s t) ∧
      (v = 0 → s.standby = false → yields (.powerStateRun n) s fun t =>
        t.get R.PWR_STATE_last_status = ST_OK ∧ ended x ST_OK 0 s t ∧ keepsRegs [R.PWR_STATE] s t ∧ changesOnly [.regs, .cmds] s t) ∧
      (v = 0 → s.standby = true → s.bit R.PWR_STATE_pending = false → yields (.powerStateRun n) s fun t =>
        t.bit R.PWR_STATE_pending = true ∧ t.get R.PWR_STATE_wake_cause = 0 ∧ became x (fun y => { y with phase := 1 }) s t ∧
        keepsRegs [R.PWR_STATE] s t ∧ changesOnly [.regs, .cmds] s t)) ∧
    (s.power ≠ .off → s.bit R.PWR_STATE_pending = true → s.get R.PWR_STATE_state < 2 → yields .standbyEntryComplete s fun t =>
      t.get R.PWR_STATE_state = 2 ∧ t.bit R.PWR_STATE_pending = false ∧
      t.get R.PWR_STATE_standby_entries = (s.get R.PWR_STATE_standby_entries + 1) % 2 ^ R.PWR_STATE_standby_entries.w ∧
      (∀ d < 8, t.bit (R.DL_DIE_ID_standby d) = true) ∧ t.get R.PWR_THROTTLE_level = 0 ∧ t.bit R.PWR_THROTTLE_request = false ∧
      (∀ k < 65536, t.cacheAt k = []) ∧ (∀ k < 1024, t.qeQAt k = [] ∧ t.buQAt k = []) ∧ done t) ∧
    (s.gov.banded = false → yields (.standbyExitComplete tests) s fun t => changesOnly [] s t) ∧
    (s.power ≠ .off → s.standby = true → s.bit R.PWR_STATE_pending = true → s.gov.banded = true → yields (.standbyExitComplete tests) s fun t =>
      t.get R.PWR_STATE_state = 0 ∧ t.bit R.PWR_STATE_pending = false ∧ (∀ d < 8, t.bit (R.DL_DIE_ID_standby d) = false) ∧
      t.restage = !s.chartLive.isEmpty ∧
      (∀ (c : Fin 128) (o : Nat), o < 0x380000 → t.memAt (sramAddr c o) = 0) ∧ done t) ∧
    (s.mgmtUp = true →
      (s.standby = true → s.bit R.PWR_STATE_pending = false → yields .standbyExit s fun t =>
        t.bit R.PWR_STATE_pending = true ∧ t.get R.PWR_STATE_wake_cause = 2 ∧ t.out = .mgmtReply [ST_OK] :: s.out ∧
        keepsRegs [R.PWR_STATE] s t ∧ changesOnly [.regs, .out] s t) ∧
      (s.standby = false → yields .standbyExit s fun t => t.out = .mgmtReply [ST_BUSY] :: s.out ∧ changesOnly [.out] s t))

namespace Sys2Proof.Claims
open Sys2Proof.Machine

/-- The shared cache serves `n` bytes from `a` on, line by line. -/
def spanReady (s : State) (a n : Nat) : Prop :=
  0 < n ∧ isExt a = true ∧ a + n ≤ 0x2200000000 ∧ s.mapStatus a n = ST_OK ∧ s.touchesLock a n = false ∧
  ∀ i < n, lineReady s (a + i) ∧ s.gdFailed (extDev (a + i)) = false

/-- The first check of R338 that an image fails. -/
def loadFail (s : State) (p : Nat) (img : List Byte) (len : Nat) : Option ChartFail :=
  firstFail [check01 img len, (s.chartHeadFail p img).1, s.chartRecordFail false img]

/-- The registers of the chart page. -/
def chartKeys : List Nat := [R.CHT_STATUS, R.CHT_STAGED_ID, R.CHT_ARM, R.CHT_COUNTS, R.CHT_FAULT, R.TIDE_STATUS]

/-- A CHART_APPLY that waits ends with a status and a result. -/
def appliesEnd (st res : Nat) (s t : State) : Prop :=
  t.cmds = s.cmds.map fun y => if y.op = 0x21 ∧ y.phase = 1 then { y with phase := 2, status := st, result := res } else y

/-- The time of the next edge is open, or is the nominal one, as TIDE_NEXT_EDGE shows it (R44). -/
def nextShown (t : State) : Prop := t.get R.TIDE_NEXT_EDGE_next_ns = (if t.nextOpen then 2 ^ 64 - 1 else t.tideNext % 2 ^ 64)

/-- What only shows the tide's state. -/
def tideKeys : List Nat := [R.TIDE_STATUS, R.TIDE_NEXT_EDGE, R.TIDE_CTRL]

end Sys2Proof.Claims

/-- A chart from its load to its arming (R336–R346). -/
def Obligations.ChartControl : Prop :=
  ∀ (n : Fin 2048) (x : HCmd) (who : Agent) (target : BitVec 32) (s : State),
    let st := s.get R.CHT_STATUS_state
    (startsAs 0x20 n x s → x.port < 2 → let a := leAt x.desc 8 8
      let len := leAt x.desc 16 4
      let img := servedBytes s a len
      (s.bit R.CHT_STATUS_rotation = false → st = CHT_LOADING ∨ st = CHT_STAGING ∨ st = CHT_ARMED →
        yields (.chartLoad n) s (answers x ST_BUSY 0 s)) ∧
      ((s.bit R.CHT_STATUS_rotation = true ∨ st = CHT_EMPTY ∨ st = CHT_STAGED) →
        (a % 64 ≠ 0 → yields (.chartLoad n) s (answers x ST_ALIGN 0 s)) ∧
        (a % 64 = 0 → 768 ≤ len → len ≤ 1048576 → spanReady s a len → yields (.chartLoad n) s fun t =>
          let head := s.chartHeadFail x.port img
          let fail := loadFail s x.port img len
          (∀ f, fail = some f → t.chart = [] ∧ t.get R.CHT_STATUS_state = CHT_EMPTY ∧ t.get R.CHT_STATUS_last_status = f.st ∧
            t.get R.CHT_STATUS_detail = f.check ∧ t.get R.CHT_FAULT_record = f.idx % 2 ^ R.CHT_FAULT_record.w ∧
            t.get R.CHT_COUNTS_rejects = min (s.get R.CHT_COUNTS_rejects + 1) (2 ^ R.CHT_COUNTS_rejects.w - 1) ∧
            (∃ z ∈ t.cmds, z.id = x.id ∧ z.phase = 2 ∧ z.status = f.st) ∧ t.chartLive = s.chartLive ∧
            ((check01 img len).isSome = true ∨ head.2 = false → t.regsAt (R.HIF_PM_LAST x.port) = s.regsAt (R.HIF_PM_LAST x.port))) ∧
          (fail = none → t.chart = img ∧ t.chartLoad = some x.id ∧ t.get R.CHT_STATUS_state = CHT_STAGING ∧
            t.get R.CHT_STAGED_ID_chart_id = chartId img ∧ t.bit (R.HIF_PM_STATE_pm_hold x.port) = true ∧
            t.get (R.HIF_PM_LAST_counter x.port) = leAt img (chartLen img - 640 + 576) 8 ∧
            (∃ z ∈ t.cmds, z.id = x.id ∧ z.phase = 1) ∧ t.chartLive = s.chartLive)))) ∧
    (s.power ≠ .off → st = CHT_STAGING →
      (s.bit R.CHT_STATUS_rotation = false → s.chartLoad = some x.id → x ∈ s.cmds → (s.cmds.find? fun y => y.id == x.id) = some x → x.port < 2 →
        yields .chartStagingDone s fun t =>
          t.get R.CHT_STATUS_state = CHT_STAGED ∧ t.get R.CHT_STATUS_last_status = ST_OK ∧ ended x ST_OK (chartId s.chart) s t ∧
          t.bit (R.HIF_PM_STATE_pm_hold x.port) = false ∧ t.chartLoad = none ∧ t.chart = s.chart ∧
          (cacheReady s (chartTable s.chart) (chartRegion s.chart).length →
            servedNow (chartTable s.chart) (chartRegion s.chart) s t)) ∧
      (s.bit R.CHT_STATUS_rotation = true → s.chartLoad = none → yields .chartStagingDone s fun t =>
        t.get R.CHT_STATUS_state = CHT_ARMED ∧ t.get R.CHT_ARM_target_edge = 0 ∧ t.bit R.TIDE_STATUS_apply_armed = true ∧
        keepsQuiet chartKeys s t ∧ changesOnly [.regs, .chartLoad, .applyNow, .msix, .mgmtQ, .out] s t)) ∧
    (startsAs 0x21 n x s → let want := leAt x.desc 8 4
      (s.bit R.CHT_STATUS_rotation = false → s.armStatus want = ST_OK → yields (.chartApply n) s fun t =>
        t.get R.CHT_STATUS_state = CHT_ARMED ∧ t.get R.CHT_ARM_target_edge = want ∧ t.bit R.TIDE_STATUS_apply_armed = true ∧
        became x (fun y => { y with phase := 1 }) s t ∧ keepsQuiet chartKeys s t ∧
        changesOnly [.regs, .cmds, .applyNow, .msix, .mgmtQ, .out] s t) ∧
      (s.bit R.CHT_STATUS_rotation = false → st ≠ CHT_STAGED → st ≠ CHT_ARMED → yields (.chartApply n) s fun t =>
        t.get R.CHT_STATUS_last_status = ST_CHART_NOT_STAGED ∧ ended x ST_CHART_NOT_STAGED 0 s t ∧ keepsRegs [R.CHT_STATUS] s t ∧
        changesOnly [.regs, .cmds] s t)) ∧
    (writable who 0x1001 0x10 s →
      (st = CHT_STAGED → (target.toNat = 0 ∨ s.edge % 2 ^ 32 < target.toNat) → target.toNat < s.edge % 2 ^ 32 + 2 ^ 31 →
        yields (.chtArm who target) s fun t =>
          t.get R.CHT_STATUS_state = CHT_ARMED ∧ t.get R.CHT_ARM_target_edge = target.toNat ∧ t.bit R.TIDE_STATUS_apply_armed = true ∧
          keepsQuiet chartKeys s t ∧ changesOnly [.regs, .applyNow, .msix, .mgmtQ, .out] s t) ∧
      (st = CHT_STAGED → 1 ≤ target.toNat → target.toNat ≤ s.edge → s.edge < 2 ^ 31 → yields (.chtArm who target) s fun t =>
        t.get R.CHT_STATUS_state = CHT_STAGED ∧ t.get R.CHT_STATUS_last_status = ST_BAD_ARG ∧ keepsRegs chartKeys s t ∧
        changesOnly [.regs, .out] s t) ∧
      (st = CHT_ARMED → yields (.chtDisarm who) s fun t =>
        t.get R.CHT_STATUS_state = CHT_STAGED ∧ t.bit R.TIDE_STATUS_apply_armed = false ∧ t.chart = s.chart ∧ appliesEnd ST_ABORTED 0 s t ∧
        keepsQuiet chartKeys s t ∧ changesOnly [.regs, .cmds, .applyNow, .msix, .mgmtQ, .out] s t)) ∧
    (startsAs 0x22 n x s →
      (st = CHT_ARMED → yields (.chartDisarm n) s fun t =>
        t.get R.CHT_STATUS_state = CHT_STAGED ∧ t.bit R.TIDE_STATUS_apply_armed = false ∧ t.chart = s.chart ∧
        (t.cmds = s.cmds.map fun y => if y.id = x.id then { y with phase := 2, status := ST_OK, result := 0 }
          else if s.cmds.any (fun z => z.op == 0x21 && z.phase == 1 && z.id == y.id)
            then { y with phase := 2, status := ST_ABORTED, result := 0 } else y) ∧
        keepsQuiet chartKeys s t ∧ changesOnly [.regs, .cmds, .applyNow, .msix, .mgmtQ, .out] s t) ∧
      (st ≠ CHT_ARMED → yields (.chartDisarm n) s (answers x ST_OK 0 s)))

/-- The tide controller: its start and stop, the slack check, halts, and what a follower does without an announcement. -/
def Sys2Proof.Claims.TideControl : Prop :=
  ∀ (n : Fin 2048) (x : HCmd) (who : Agent) (s : State),
    let started := fun (t : State) => t.bit R.TIDE_CTRL_run = true ∧ t.get R.TIDE_STATUS_state = 1 ∧ t.tideFirst = s.edge + 1 ∧
      t.tideNext = (s.tideTime + s.get R.TIDE_PERIOD_cutoff_us * 1000 + 999) / 1000 * 1000 ∧ t.tidePer = s.periodNs ∧
      t.edgeCut = s.edge ∧ t.slackFor = s.edge ∧ t.holdSince = none ∧ t.announced = none ∧ t.overrunOpen = false ∧ nextShown t
    let stopped := fun (state : Nat) (t : State) => t.get R.TIDE_STATUS_state = state ∧ t.edgeCut = s.edge ∧ t.applyNow = false ∧
      t.cutNew = false ∧ t.holdSince = none ∧ t.bit R.TIDE_STATUS_hold = false ∧ nextShown t ∧
      (∀ q r, t.seqsAt q = some r → ∀ j ∈ r.joined, j.2.1 ≠ s.edge + 1)
    (writable who 0x1000 0 s →
      (s.tideRuns = false → yields (.tideCtrlRun who true) s started) ∧
      (s.tideRuns = true → yields (.tideCtrlRun who true) s (changesOnly [.out] s)) ∧
      yields (.tideCtrlRun who false) s fun t => t.bit R.TIDE_CTRL_run = false ∧ stopped 0 t) ∧
    (startsAs 0x23 n x s →
      (leAt x.desc 8 1 % 2 = 1 → s.tideRuns = false → yields (.tideRunStart n) s fun t => started t ∧ ended x ST_OK s.edge s t) ∧
      (leAt x.desc 8 1 % 2 = 0 → yields (.tideRunStop n) s fun t => stopped 0 t ∧ ended x ST_OK s.edge s t)) ∧
    (s.power ≠ .off → s.slackFor < s.edge → let late := s.districts.filter fun d => !s.stepDone d (s.edge - 1)
      let reached := fun (t : State) => t.now = max s.now ((s.slackAt : Int) - s.tideOff).toNat ∧ t.slackFor = s.edge
      (s.edge = 1 ∨ late = [] → yields .slackCheck s fun t => reached t ∧ changesOnly [.now, .slackFor] s t) ∧
      (1 < s.edge → late ≠ [] → s.sheds = false → late.Nodup → yields .slackCheck s fun t => reached t ∧
        (∀ d ∈ late, t.overAtAt d = s.edge) ∧ (∀ d, d ∉ late → t.overAtAt d = s.overAtAt d) ∧
        t.get R.TIDE_COUNTS_overruns = min (s.get R.TIDE_COUNTS_overruns + late.length) (2 ^ R.TIDE_COUNTS_overruns.w - 1) ∧
        t.get R.TIDE_LAST_OVERRUN_district = late.foldl min 127 ∧ t.get R.TIDE_LAST_OVERRUN_edge_low = s.edge % 2 ^ 32 ∧
        nextShown t ∧ (s.role ≠ 2 → t.nextOpen = true))) ∧
    (s.power ≠ .off → s.tideRuns = true → s.sheds = false → s.role ≠ 2 → s.overrunOpen = true → yields .tideHalt s fun t =>
      t.now = max s.now (((s.tideNext + s.get R.TIDE_POLICY_stretch_max_us * 1000 : Nat) : Int) - s.tideOff).toNat ∧
      stopped 2 t ∧ t.get R.TIDE_STATUS_halt_cause = ST_TIDE_OVERRUN ∧ t.bit (R.EVC_ROUTE_asserted 0x701) = true) ∧
    (s.power ≠ .off → s.tideRuns = true → s.overrunOpen = false → s.holdSince = none → yields .tideHalt s (changesOnly [] s)) ∧
    (s.power ≠ .off → s.edgeDue = true → s.role = 2 → s.announced = none → s.holdSince = none →
      let m := s.get R.TIDE_STATUS_missed_announces
      (m = 4 → yields .announceMissed s fun t =>
        stopped 2 t ∧ t.get R.TIDE_STATUS_halt_cause = ST_REMOTE_UNREACHABLE ∧ t.get R.TIDE_STATUS_missed_announces = 5) ∧
      (m < 4 → (s.twoLive (s.edge + 1) || s.applyHold (s.edge + 1)) = true → yields .announceMissed s fun t =>
        t.get R.TIDE_STATUS_state = 3 ∧ t.get R.TIDE_STATUS_missed_announces = m + 1 ∧ t.holdSince = some s.tideNext ∧
        t.bit R.TIDE_STATUS_hold = true ∧ t.get R.TIDE_EDGE_NUM_edge = s.edge) ∧
      (m < 4 → (s.twoLive (s.edge + 1) || s.applyHold (s.edge + 1)) = false → s.applyNow = false → s.restage = false → s.tideInsts = [] →
        s.edge + 1 < 2 ^ R.TIDE_EDGE_NUM_edge.w → yields .announceMissed s fun t =>
          t.get R.TIDE_STATUS_state = 3 ∧ t.get R.TIDE_STATUS_missed_announces = m + 1 ∧ t.edge = s.edge + 1)) ∧
    (∀ l, s.power ≠ .off → s.syncLink = some l → s.role = 2 → let key := Config.masterModule * 4
      yields .syncTimer s fun t =>
        (∃ bytes, t.out = .packet l bytes :: s.out ∧ bytes.length = 44 ∧ leAt bytes 0 1 = 8 ∧ leAt bytes 16 4 = s.gwSeqAt key % 2 ^ 32 ∧
          leAt bytes 32 8 = s.tideNs % 2 ^ 64) ∧
        t.gwSeqAt key = (s.gwSeqAt key + 1) % 2 ^ 32 ∧ keepsRegs [R.GWL_LINK_TX l] s t ∧ changesOnly [.gwSeq, .regs, .out] s t)

/-- The cutoff, the tide edge with its holds, and the edge without the apply (R46, R47). -/
def Sys2Proof.Claims.TideEdges : Prop :=
  ∀ s : State, s.power ≠ .off →
    let n := s.edge + 1
    let at_ := max s.tideNext ((s.tideTime + 999) / 1000 * 1000)
    let calm := s.restage = false ∧ s.tideInsts = [] ∧ s.retirePend = [] ∧ n < 2 ^ 64 ∧ at_ < 2 ^ 64
    let fired := fun (t : State) => t.edge = n ∧ t.get R.TIDE_EDGE_TIME_edge_ns = at_ ∧ t.holdSince = none ∧ t.announced = none ∧
      t.now = max s.now ((at_ : Int) - s.tideOff).toNat
    let plain := fun (t : State) => t.tidePer = s.periodNs ∧ t.tideNext = at_ + s.periodNs ∧
      t.slackAt = at_ + s.get R.TIDE_PERIOD_slack_us * 1000 ∧ t.chartLive = s.chartLive ∧
      (∀ c < 128, ∀ th < 16, s.inStep c th = true → s.thr c th = THR_PARKED →
        t.thr c th = THR_RUN ∧ t.pc c th = s.get (R.SEQ_THR_CFG_head_pc c th) * 8 ∧ t.thrStepAt (c * 16 + th) = n ∧
        t.get (R.SEQ_THR_STATUS_section c th) = 0)
    (s.tideRuns = true → s.edgeCut ≠ n → s.nextOpen = false → let armed := s.appliesAt n
      let img := if armed then s.chart else s.chartLive
      yields .cutoff s fun t =>
        t.edgeCut = n ∧ t.applyNow = armed ∧ t.cutNew = armed ∧
        t.now = max s.now (((s.tideNext - s.get R.TIDE_PERIOD_cutoff_us * 1000 : Nat) : Int) - s.tideOff).toNat ∧
        (∀ d r0, chartRecs img 1 = [r0] → r0.u8 0 = d →
          (∀ (i : Nat) (e : Nat × SeqRec), (s.joiners img d)[i]? = some e → ∃ r, t.seqsAt e.1 = some r ∧
            r.joined = e.2.joined ++ [(d, n, batchTable img d n + 64 + 64 * i, seqStaging img d e.1)]) ∧
          (s.seqs = [] → s.role = 0 → cacheReady s (batchTable img d n) 64 →
            servedNow (batchTable img d n) (toLE 8 n ++ toLE 4 0 ++ toLE 2 d ++ toLE 2 0 ++ List.replicate 48 0) s t))) ∧
    (s.edgeDue = true → s.role ≠ 2 ∨ s.announced.isSome = true →
      (s.twoLive n = true ∨ s.applyHold n = true → s.holdSince = none → yields .tideEdge s fun t =>
        t.holdSince = some s.tideNext ∧ t.bit R.TIDE_STATUS_hold = true ∧ t.edge = s.edge ∧
        t.get R.TIDE_COUNTS_holds = min (s.get R.TIDE_COUNTS_holds + 1) (2 ^ R.TIDE_COUNTS_holds.w - 1) ∧ nextShown t ∧
        t.now = max s.now ((s.tideNext : Int) - s.tideOff).toNat) ∧
      (s.twoLive n = false → s.applyHold n = false → calm →
        (s.applyNow = false → s.cutNew = false → yields .tideEdge s fun t => fired t ∧ plain t) ∧
        (s.applyNow = true → s.bit R.CHT_STATUS_rotation = false → yields .tideEdge s fun t => fired t ∧
          t.chartLive = s.chart ∧ t.chart = [] ∧ t.bit R.CHT_STATUS_live = true ∧ t.get R.CHT_STATUS_state = CHT_EMPTY ∧
          t.get R.CHT_LIVE_EDGE_edge = n % 2 ^ R.CHT_LIVE_EDGE_edge.w ∧ t.get R.CHT_LIVE_ID_chart_id = chartId s.chart ∧
          t.get R.CHT_COUNTS_applies = min (s.get R.CHT_COUNTS_applies + 1) (2 ^ R.CHT_COUNTS_applies.w - 1) ∧
          t.get R.TIDE_PERIOD_period_us = (chartTide s.chart).u 0 2 ∧ t.get R.TIDE_CTRL_role = (chartTide s.chart).u8 10 % 4 ∧
          (∀ y ∈ s.cmds, y.op = 0x21 → y.phase = 1 → ∃ z ∈ t.cmds, z.id = y.id ∧ z.phase = 2 ∧ z.status = ST_OK ∧ z.result = n)))) ∧
    (∀ t0, s.holdSince = some t0 → s.edgeDue = true → s.applyHold n = true →
      yields .applyHoldTimeout s fun t =>
        t.get R.CHT_STATUS_last_status = ST_BUSY ∧ t.get R.CHT_STATUS_state = CHT_STAGED ∧ t.chart = s.chart ∧ t.chartLive = s.chartLive ∧
        t.get R.CHT_COUNTS_abandoned = min (s.get R.CHT_COUNTS_abandoned + 1) (2 ^ R.CHT_COUNTS_abandoned.w - 1) ∧
        (s.twoLive n = true → t.edge = s.edge ∧ t.holdSince = some t0) ∧
        (s.twoLive n = false → n < 2 ^ 64 → t.edge = n ∧ t.holdSince = none))

/-- The tide: start and stop, the cutoff, the edge with its holds, slack check, halts, and a follower's missed announcement. -/
def Obligations.Tide : Prop := Claims.TideControl ∧ Claims.TideEdges

namespace Sys2Proof.Claims
open Sys2Proof.Machine

/-- A frame without an error on its way. -/
def whole : BitVec 544 := 0

/-- Registers that the state of a module shows in (R376–R396). -/
def dlKeys (d : Nat) : List Nat :=
  R.DL_DIE_ID d :: (List.range 6).flatMap fun m => [R.DL_STATUS d m, R.DL_ERR d m, R.DL_CTRL d m]

/-- A module is in training, its state before remembered; nothing else of it has changed (R391). -/
def retraining (i : Nat) (s t : State) : Prop :=
  t.dl i = 1 ∧ t.dlOldAt i = s.dl i * 2 + s.get (R.DL_STATUS_half (i / 6) (i % 6)) ∧
  t.get (R.DL_ERR_retrains (i / 6) (i % 6)) =
    min (s.get (R.DL_ERR_retrains (i / 6) (i % 6)) + 1) (2 ^ (R.DL_ERR_retrains (i / 6) (i % 6)).w - 1) ∧
  (∀ k, k ≠ i → k < 48 → t.dl k = s.dl k) ∧ keepsQuiet (dlKeys (i / 6)) s t

/-- The packet at the head of what is sent out, on the link that the spray takes next: its type, its args and its payload (R403). -/
def packetOut (s : State) (kind args : Nat) (payload : List Byte) (t : State) : Prop :=
  ∃ l bytes rest, s.sprayPick none = some l ∧ t.out = .packet l bytes :: rest ∧ leAt bytes 0 1 = kind ∧
    leAt bytes 2 2 = payload.length ∧ leAt bytes 20 8 = args ∧ (bytes.drop 32).take payload.length = payload ∧
    leAt bytes (32 + payload.length) 4 = crc32 (bytes.take (32 + payload.length)) ∧ bytes.length = 36 + payload.length

/-- A packet that is due arrives from its peer on an up link, nothing behind it waits, and an ACK can leave (R407, R410). -/
def arrives (h : GwHdr) (vc : Nat) (s : State) : Prop :=
  s.power ≠ .off ∧ h.hop = .good ∧ s.gwUp h.link = true ∧ s.gwAccepts h = true ∧ s.gwNextAt (h.member * 4 + vc) = h.seq.toNat ∧
  s.gwHoldAt (h.member * 4 + vc) = [] ∧ (s.sprayPick none).isSome = true ∧ s.get (R.GWL_LINK_RX_bytes h.link) < 2 ^ 40

/-- A packet put on a link enters the hop replay buffer of that link, which keeps the newest 256 KiB (R405). -/
def keptFor (l : Nat) (vc : Nat) (bytes : List Byte) (s t : State) : Prop :=
  t.hopBufAt l = hopKeep (s.hopBufAt l ++ [(vc, bytes)]) ∧ ∀ k, k ≠ l → t.hopBufAt k = s.hopBufAt k

/-- The packet is taken and acknowledged with a status (R404, R407). -/
def taken (h : GwHdr) (vc st : Nat) (s t : State) : Prop :=
  t.gwNextAt (h.member * 4 + vc) = (h.seq.toNat + 1) % 2 ^ 32 ∧ t.gwRefusedAt (rxKey h.member vc h.seq.toNat) = st ∧
  packetOut s 2 (h.seq.toNat + vc * 2 ^ 32 + st * 2 ^ 40) [] t

/-- Registers in which Glewawin traffic counts. -/
def gwKeys : List Nat := R.GWL_E2E :: (List.range 48).flatMap fun l => [R.GWL_LINK_TX l, R.GWL_LINK_RX l]

/-- What a packet with an ACK changes beside its effect. -/
def gwParts : List Part := [.regs, .gwNext, .gwHold, .gwRefused, .gwSeq, .gwSpray, .hopBuf, .out, .msix, .mgmtQ]

/-- A link is in the spray with a configuration (R399, R408). -/
def joined (l lanes rate : Nat) (t : State) : Prop :=
  t.gl l = GL_UP ∧ t.gwUp l = true ∧ t.get (R.GWL_LINK_STATUS_lanes l) = lanes ∧ t.get (R.GWL_LINK_STATUS_width l) = glWidth lanes ∧
  t.get (R.GWL_LINK_STATUS_rate l) = rate ∧ t.get (R.GWL_LINK_STATUS_weight l) = glWidth lanes * (2 - rate) ∧
  t.get (R.GWL_LINK_STATUS_last_status l) = (if lanes = 15 ∧ rate = 0 then ST_OK else ST_LINK_NARROW)

/-- The packet of a transfer queue's descriptor that one WRITE carries (R413). -/
def queued (s : State) (x l : Nat) (desc : List Byte) (t : State) : Prop :=
  ∃ p, t.gwOut = s.gwOut ++ [p] ∧ p.kind = 1 ∧ p.vc = 3 ∧ p.dest = leAt desc 2 2 ∧ p.queue = some x ∧ p.link = l ∧ p.acked = false ∧
    p.args = leAt desc 16 8 + (if byteAt desc 1 % 2 = 1 then leAt desc 4 2 else 0xFFFF) * 2 ^ 48 ∧
    p.payload = s.bytes (leAt desc 8 8) (leAt desc 24 8)

end Sys2Proof.Claims

/-- Frames of a die link: delivery with an ack, a nak for a broken one, the release of acknowledged frames, and replay (R377, R378). -/
def Sys2Proof.Claims.DieLinkFrames : Prop :=
  ∀ (d : Fin 8) (m : Fin 6) (up : Bool) (vc : Fin 4) (dest : Fin 368) (flit : BitVec 512) (flip : BitVec 544) (s : State),
    let slot := dest.val % 48
    let i := d.val * 6 + m.val
    let r := if up then 1 else 0
    let k := i * 2 + r
    let j := i * 2 + (1 - r)
    let e := s.dlEndAt k
    let body := toLE 64 flit.toNat ++ toLE 2 (e.next % 1024 + vc * 2 ^ 10)
    let sent : DlEnd := { e with held := e.held ++ [⟨e.next, slot, body⟩], pos := e.pos + 1, next := (e.next + 1) % 1024,
                                   since := if e.held = [] then s.now else e.since }
    let only := fun (t : State) => (∀ x, x ≠ k → x ≠ j → t.dlEndAt x = s.dlEndAt x)
    s.power ≠ .off → s.dlUp i = true →
    (e.held[e.pos]? = none → e.held.length < 256 → e.todo = [] → s.hashOf d slot = m.val → s.slotModule d slot = m.val → e.next < 1024 →
      (e.expect = e.next → yields (.linkFrame d m up 0 vc dest flit whole) s fun t =>
        t.dlEndAt k = { sent with expect := (e.expect + 1) % 1024, back := e.back ++ [(false, e.expect)] } ∧ only t ∧
        changesOnly [.dlEnd] s t) ∧
      (frameGood (frameGot body flip) = false → (s.dlFailAt i).2 + 2 ≤ s.get (R.DL_CTRL_fail_threshold d m) →
        yields (.linkFrame d m up 0 vc dest flit flip) s fun t =>
          t.dlEndAt k = { sent with back := e.back ++ [(true, e.expect)] } ∧ only t ∧
          t.get (R.DL_ERR_crc_errors d m) = min (s.get (R.DL_ERR_crc_errors d m) + 1) (2 ^ (R.DL_ERR_crc_errors d m).w - 1) ∧
          keepsRegs [R.DL_ERR d m] s t ∧ changesOnly [.dlEnd, .dlFail, .regs] s t)) ∧
    (∀ (n : Nat) (rest : List (Bool × Nat)), let o := s.dlEndAt j
      o.back = (false, n) :: rest → yields (.linkFrame d m up 1 vc dest flit whole) s fun t =>
        (∀ p, (o.held.findIdx? fun f => f.seq == n) = some p → t.dlEndAt j = { o with
          back := rest, held := o.held.drop (p + 1), pos := o.pos - (p + 1), replays := 0, since := s.now }) ∧
        ((o.held.any fun f => f.seq == n) = false → t.dlEndAt j = { o with back := rest }) ∧
        (∀ x, x ≠ j → t.dlEndAt x = s.dlEndAt x) ∧ changesOnly [.dlEnd] s t) ∧
    (∀ (n : Nat) (rest : List (Bool × Nat)), let o := s.dlEndAt j
      o.back = (true, n) :: rest → o.held ≠ [] → o.replays < 15 → yields (.linkFrame d m up 2 vc dest flit whole) s fun t =>
        t.dlEndAt j = { o with back := rest, pos := 0, replays := o.replays + 1, since := s.now } ∧
        (∀ x, x ≠ j → t.dlEndAt x = s.dlEndAt x) ∧
        t.get (R.DL_ERR_replays d m) = min (s.get (R.DL_ERR_replays d m) + 1) (2 ^ (R.DL_ERR_replays d m).w - 1) ∧
        keepsRegs [R.DL_ERR d m] s t ∧ changesOnly [.dlEnd, .regs] s t) ∧
    (e.held ≠ [] → e.pos ≠ 0 → let now := max s.now (e.since + 1000)
      (e.replays < 15 → yields (.replayTimeout d m up) s fun t =>
        t.now = now ∧ t.dlEndAt k = { e with pos := 0, replays := e.replays + 1, since := now } ∧
        (∀ x, x ≠ k → t.dlEndAt x = s.dlEndAt x) ∧ keepsRegs [R.DL_ERR d m] s t ∧ changesOnly [.now, .dlEnd, .regs] s t) ∧
      (15 ≤ e.replays → yields (.replayTimeout d m up) s fun t => t.now = now ∧ retraining i s t))

/-- Die-link modules: retraining and its end, slots that move, a module out of use, and the stand-alone test (R381, R391–R395). -/
def Sys2Proof.Claims.DieLinkModules : Prop :=
  ∀ (who : Agent) (d : Fin 8) (m : Fin 6) (slot : Fin 48) (us : BitVec 16) (s : State), s.power ≠ .off →
    let i : Fin 48 := ⟨d * 6 + m, by omega⟩
    let bare := fun (x : DlTest) => x.module = i ∧ s.get (R.DL_SPARE_TX_spares d m) = 0 ∧ s.get (R.DL_SPARE_RX_spares d m) = 0 ∧
      s.get (R.DL_LANES_TX_failed d m) = 0 ∧ s.get (R.DL_LANES_RX_failed d m) = 0
    (s.dlUp i = true →
      yields (.laneLossOfLock d m) s (retraining i s) ∧
      (writable who (0x800 + d * 8 + m) 0 s → yields (.dlRetrain who d m) s (retraining i s))) ∧
    (s.dl i = 1 → s.dlOldAt i = 4 → bare ⟨i, 0, 0, us⟩ → s.fwRuns = false → yields (.dlRetrainComplete ⟨i, 0, 0, us⟩) s fun t =>
      t.dl i = 2 ∧ t.get (R.DL_STATUS_last_status d m) = ST_OK ∧ t.get (R.DL_STATUS_last_train_us d m) = us.toNat ∧
      (∀ r < 2, t.dlEndAt (i * 2 + r) = { s.dlEndAt (i * 2 + r) with pos := 0, replays := 0, since := s.now })) ∧
    (s.dl i = 1 → s.dlOldAt i = 4 → s.get (R.DL_CAPS_agreed d m) = 1 → bare ⟨i, 1, 0, us⟩ →
      yields (.dlRetrainComplete ⟨i, 1, 0, us⟩) s fun t =>
        t.dl i = 7 ∧ t.get (R.DL_STATUS_last_status d m) = ST_UNIT_RETIRED ∧ t.regBit R.SVC_RETIRED_DL i = true) ∧
    (s.dl i = 1 → s.dlOldAt i = 4 → s.get (R.DL_CAPS_agreed d m) = 0xF → bare ⟨i, 1, 0, us⟩ →
      yields (.dlRetrainComplete ⟨i, 1, 0, us⟩) s fun t =>
        t.dl i = 2 ∧ t.get (R.DL_STATUS_last_status d m) = ST_OK ∧ t.get (R.DL_LANES_TX_failed d m) = 1 ∧
        t.get (R.DL_SPARE_TX_spares d m) = 0x40 ∧ t.get (R.DL_SPARE_RX_spares d m) = 0) ∧
    (∀ x, s.dlMoves.find? (fun y => y.1 == d.val && y.2.1 == slot.val) = some x →
      let old := d * 6 + x.2.2.1
      s.dl old ≠ 1 → s.dl (d * 6 + x.2.2.2) ≠ 1 → s.dl old ≠ 7 →
      (∀ r < 2, (s.dlEndAt (old * 2 + r)).ofSlot slot = []) → yields (.slotMoveComplete d slot) s fun t =>
        t.dlMoves = s.dlMoves.erase x ∧ changesOnly [.dlMoves] s t) ∧
    (writable who (0x800 + d * 8 + m) 0 s → s.dl i ≠ 0 → s.dl i ≠ 7 →
      let held := (List.range 48).any fun k => s.hashOf d k == m.val || s.slotModule d k == m.val
      (s.bit (R.DL_CTRL_offline d m) = false →
        (held = true → yields (.dlOffline who d m true) s fun t =>
          t.get (R.DL_STATUS_last_status d m) = ST_BUSY ∧ keepsRegs [R.DL_STATUS d m] s t ∧ changesOnly [.regs, .out] s t) ∧
        (held = false → (∃ k : Fin 6, k ≠ m ∧ s.dl (d * 6 + k) < 6) → yields (.dlOffline who d m true) s fun t =>
          t.dl i = 6 ∧ t.bit (R.DL_CTRL_offline d m) = true ∧ t.get (R.DL_STATUS_last_status d m) = ST_OK ∧ keepsQuiet (dlKeys d) s t)) ∧
      (s.bit (R.DL_CTRL_offline d m) = true → s.dlForced i = false → yields (.dlOffline who d m false) s fun t =>
        t.dl i = 1 ∧ t.bit (R.DL_CTRL_offline d m) = false ∧ t.dlOldAt i = 4 ∧ keepsQuiet (dlKeys d) s t)) ∧
    (∀ (mode pattern : Fin 3) (cdEnd : Bool), writable who (0x800 + d * 8 + m) 0x48 s →
      let set := fun (t : State) => t.get (R.DL_TEST_mode d m) = mode.val ∧ t.get (R.DL_TEST_pattern d m) = pattern.val ∧
        t.bit (R.DL_TEST_end d m) = cdEnd ∧ keepsRegs [R.DL_TEST d m] s t ∧ changesOnly [.regs, .out] s t
      (6 ≤ s.dl i → s.bit (R.DL_TEST_busy d m) = false → (∃ k : Fin 6, s.dl (d * 6 + k) ≠ 6) →
        yields (.dlTestStart who d m mode pattern cdEnd) s fun t =>
          t.bit (R.DL_TEST_busy d m) = decide (mode.val ≠ 0) ∧ t.get (R.DL_TEST_status d m) = ST_OK ∧ set t) ∧
      (s.dl i < 6 → yields (.dlTestStart who d m mode pattern cdEnd) s fun t =>
        t.bit (R.DL_TEST_busy d m) = s.bit (R.DL_TEST_busy d m) ∧ t.get (R.DL_TEST_status d m) = ST_BUSY ∧ set t)) ∧
    (∀ (lanes : BitVec 64) (spares : BitVec 4), s.bit (R.DL_TEST_busy d m) = true → yields (.dlTestDone d m lanes spares) s fun t =>
      t.bit (R.DL_TEST_busy d m) = false ∧ t.get (R.DL_TEST_FAIL_lanes d m) = lanes.toNat ∧
      t.get (R.DL_TEST_FAIL_SP_spares d m) = spares.toNat ∧
      keepsRegs [R.DL_TEST d m, R.DL_TEST_FAIL d m, R.DL_TEST_FAIL_SP d m] s t ∧ changesOnly [.regs] s t)

/-- Die-link frames with their acks, naks and replay, and die-link modules. -/
def Obligations.DieLinks : Prop := Claims.DieLinkFrames ∧ Claims.DieLinkModules

/-- Glewawin packets that arrive: their order, their acknowledgement and what each type does (R403–R412). -/
def Obligations.GlewawinPackets : Prop :=
  ∀ (h : GwHdr) (addr : BitVec 48) (tag : BitVec 16) (data : List Byte) (pbx : BitVec 13) (amount : BitVec 16) (wall : Fin 64)
    (gen : BitVec 16) (edge time : BitVec 64) (report : Bool) (cause : BitVec 8) (s : State),
    let rows : List (Instr × Nat × Nat × Nat) := [
      (.gwWrite h addr tag data, 1, 3, data.length), (.gwSignal h pbx amount, 3, 2, 0), (.swArrive h wall gen, 4, 2, 0),
      (.swRelease h wall gen, 5, 2, 0), (.tideAnnounce h edge time, 6, 2, 8), (.overrun h report cause, 7, 2, 0)]
    let keeps := fun (t : State) => keepsQuiet gwKeys s t
    (∀ row ∈ rows, s.power ≠ .off → let key := h.member * 4 + row.2.2.1
      let ahead := (h.seq.toNat + 2 ^ 32 - s.gwNextAt key) % 2 ^ 32
      (s.gwUp h.link = false ∨ h.hop = .badCrc → yields row.1 s (changesOnly [] s)) ∧
      (s.gwUp h.link = true → h.hop = .badFec → yields row.1 s fun t =>
        t.get (R.GWL_LINK_ERR_uncorrectable h.link) =
          min (s.get (R.GWL_LINK_ERR_uncorrectable h.link) + 1) (2 ^ (R.GWL_LINK_ERR_uncorrectable h.link).w - 1) ∧
        keepsRegs [R.GWL_LINK_ERR h.link] s t ∧ changesOnly [.regs] s t) ∧
      (h.hop = .good → s.gwUp h.link = true → s.gwAccepts h = false → yields row.1 s fun t =>
        t.get R.GWL_E2E_foreign_drops = min (s.get R.GWL_E2E_foreign_drops + 1) (2 ^ R.GWL_E2E_foreign_drops.w - 1) ∧
        t.get (R.GWL_LINK_RX_bytes h.link) = (s.get (R.GWL_LINK_RX_bytes h.link) + 36 + row.2.2.2) % 2 ^ (R.GWL_LINK_RX_bytes h.link).w ∧
        keepsRegs [R.GWL_E2E, R.GWL_LINK_RX h.link] s t ∧ changesOnly [.regs] s t) ∧
      (h.hop = .good → s.gwUp h.link = true → s.gwAccepts h = true → 2 ^ 31 ≤ ahead → (s.sprayPick none).isSome = true → yields row.1 s fun t =>
        t.get R.GWL_E2E_dup_drops = min (s.get R.GWL_E2E_dup_drops + 1) (2 ^ R.GWL_E2E_dup_drops.w - 1) ∧
        packetOut s 2 ((h.seq.toNat + row.2.2.1 * 2 ^ 32 + s.gwRefusedAt (rxKey h.member row.2.2.1 h.seq.toNat) * 2 ^ 40) % 2 ^ 64) [] t ∧
        keepsRegs gwKeys s t ∧ changesOnly [.regs, .gwSeq, .gwSpray, .hopBuf, .out] s t) ∧
      (h.hop = .good → s.gwUp h.link = true → s.gwAccepts h = true → 0 < ahead → ahead < 2 ^ 31 → ((s.gwHoldAt key).any fun q => q.seq == h.seq.toNat) = false →
        s.rxHeld + 36 + row.2.2.2 ≤ 4194304 → yields row.1 s fun t =>
          (∃ p, t.gwHoldAt key = s.gwHoldAt key ++ [p] ∧ p.kind = row.2.1 ∧ p.seq = h.seq.toNat ∧ p.link = h.link.val ∧
            p.payload.length = row.2.2.2) ∧
          keepsRegs [R.GWL_LINK_RX h.link] s t ∧ changesOnly [.regs, .gwHold] s t)) ∧
    (arrives h 3 s → memReady s (.core 0) addr.toNat data.length → rxLands addr.toNat data.length = true →
      yields (.gwWrite h addr tag data) s fun t =>
        taken h 3 ST_OK s t ∧ stored addr.toNat data s t ∧
        t.landQ = s.landQ ++ (if tag.toNat ≠ 0xFFFF then [⟨s.landEnd addr.toNat, tag.toNat, data.length, s.now⟩] else []) ∧
        changesOnly (gwParts ++ [.mem, .check, .marks, .landQ, .mon]) s t) ∧
    (arrives h 3 s → s.mapStatus addr.toNat data.length ≠ ST_OK → yields (.gwWrite h addr tag data) s fun t =>
      taken h 3 (s.mapStatus addr.toNat data.length) s t ∧ (∀ x, t.memAt x = s.memAt x) ∧ keeps t ∧ changesOnly gwParts s t) ∧
    (arrives h 2 s → s.pbxStatus pbx.toNat = ST_OK → amount.toNat ≠ 0 → s.waitersAt pbx.toNat = [] → let c := pbx.toNat / 48
      let n := pbx.toNat % 48
      s.get (R.PBX_VALUE_value c n) + amount.toNat < 65536 → yields (.gwSignal h pbx amount) s fun t =>
        taken h 2 ST_OK s t ∧ t.get (R.PBX_VALUE_value c n) = s.get (R.PBX_VALUE_value c n) + amount.toNat ∧
        t.get (R.PBX_LAST_last_src c n) = 6 * 2 ^ 13 + h.link.val ∧
        keepsQuiet (gwKeys ++ [R.PBX_VALUE c n, R.PBX_LAST c n]) s t ∧ changesOnly gwParts s t) ∧
    (arrives h 2 s → s.pbxStatus pbx.toNat ≠ ST_OK → yields (.gwSignal h pbx amount) s fun t =>
      taken h 2 (s.pbxStatus pbx.toNat) s t ∧ keeps t ∧ changesOnly gwParts s t) ∧
    (arrives h 2 s → s.wallStatus wall (6 * 2 ^ 13 + h.link) = ST_OK →
      (s.bit (R.SWL_CFG_group wall) = true → s.bit (R.SWL_CFG_root wall) = true →
        s.get (R.SWL_STATE_branch_arrived wall) + 1 < s.get (R.SWL_CFG_branches wall) → yields (.swArrive h wall gen) s fun t =>
          taken h 2 ST_OK s t ∧ t.get (R.SWL_STATE_branch_arrived wall) = s.get (R.SWL_STATE_branch_arrived wall) + 1 ∧
          t.get (R.SWL_STATE_last_src wall) = 6 * 2 ^ 13 + h.link.val ∧ keepsQuiet (R.SWL_STATE wall :: gwKeys) s t ∧ changesOnly gwParts s t) ∧
      (yields (.swRelease h wall gen) s fun t =>
        taken h 2 ST_OK s t ∧ t.get (R.SWL_STATE_generation wall) = (s.get (R.SWL_STATE_generation wall) + 1) % 2 ^ (R.SWL_STATE_generation wall).w ∧
        t.get (R.SWL_STATE_arrived wall) = 0 ∧ t.get (R.SWL_STATE_branch_arrived wall) = 0 ∧
        t.relQ = s.relQ ++ (((List.range 128).filter fun c => s.wallMember wall c).map fun c => (c, wall.val)) ∧
        keepsQuiet (R.SWL_STATE wall :: gwKeys) s t ∧ changesOnly (.relQ :: gwParts) s t)) ∧
    (arrives h 2 s → s.role = 2 → s.tideRuns = true → edge.toNat = s.edge + 1 → s.tideNs ≤ time.toNat → yields (.tideAnnounce h edge time) s fun t =>
      taken h 2 ST_OK s t ∧ t.announced = some (edge.toNat, time.toNat) ∧ t.tideNext = time.toNat ∧ nextShown t ∧
      keepsQuiet (R.TIDE_NEXT_EDGE :: gwKeys) s t ∧ changesOnly (.announced :: .tideNext :: gwParts) s t) ∧
    (arrives h 2 s → s.role = 1 → let left := s.reports.filter fun k => k != h.member.val
      yields (.overrun h report cause) s fun t =>
        taken h 2 ST_OK s t ∧ t.reports = (if report then left ++ [h.member.val] else left) ∧ nextShown t ∧
        (report = true → t.tideNext = s.tideNext) ∧ changesOnly (.reports :: .tideNext :: gwParts) s t)

/-- Acknowledgements, resending, unreachable modules, and time sync (R404, R406, R412). -/
def Sys2Proof.Claims.GlewawinReplies : Prop :=
  ∀ (h : GwHdr) (seq : BitVec 32) (vc : Fin 4) (n : Nat) (t1 t2 t3 : BitVec 64) (p : GwPkt) (s : State), s.power ≠ .off →
    let here := h.hop = .good ∧ s.gwUp h.link = true ∧ s.gwAccepts h = true
    (here → s.gwOut.find? (fun q => q.dest == h.member.val && q.vc == vc.val && q.seq == seq.toNat && !q.acked) = some p →
      p.queue = none → (∀ u < 64, s.bit (R.MON_BIND_enable u) = false) →
      (yields (.gwAck h seq vc 0) s fun t =>
        t.gwOut = s.gwOut.erase p ∧ keepsRegs [R.GWL_LINK_RX h.link] s t ∧ changesOnly [.gwOut, .regs] s t) ∧
      (∀ c, p.cell = some c → c < 128 → yields (.gwAck h seq vc 5) s fun t =>
        t.gwOut = s.gwOut.erase p ∧ t.get (R.PBX_COUNTS_last_drop_status c) = 5 ∧
        t.get (R.PBX_COUNTS_signals_dropped c) = min (s.get (R.PBX_COUNTS_signals_dropped c) + 1) 65535)) ∧
    ((s.gwOut.filter fun q => !q.acked)[n]? = some p → p.resent < 3 → ∀ l, s.sprayPick (some p.link) = some l →
      yields (.ackTimeout n) s fun t =>
        t.now = max s.now (p.sentAt + 50000) ∧
        (t.gwOut = s.gwOut.map fun q => if q = p then { p with resent := p.resent + 1, sentAt := t.now, link := l } else q) ∧
        t.get R.GWL_E2E_resends = min (s.get R.GWL_E2E_resends + 1) (2 ^ R.GWL_E2E_resends.w - 1) ∧
        (∃ bytes, t.out = .packet l bytes :: s.out ∧ leAt bytes 0 1 = p.kind % 256 ∧ leAt bytes 16 4 = p.seq % 2 ^ 32 ∧ keptFor l p.vc bytes s t) ∧
        keepsRegs gwKeys s t ∧ changesOnly [.now, .gwOut, .hopBuf, .gwSpray, .regs, .out] s t) ∧
    ((s.gwOut.filter fun q => !q.acked)[n]? = some p → 3 ≤ p.resent → p.dest < 128 →
      yields (.ackTimeout n) s fun t =>
        t.bit (R.GWL_PEER_reachable p.dest) = false ∧ (∀ q ∈ t.gwOut, q.dest = p.dest → q.acked = true) ∧
        (∀ q ∈ s.gwOut, q.dest ≠ p.dest → q.queue = none → q ∈ t.gwOut)) ∧
    (here → s.role = 1 → yields (.syncReq h t1) s fun t =>
      (∃ bytes, t.out = .packet h.link bytes :: s.out ∧ leAt bytes 0 1 = 9 ∧ leAt bytes 32 8 = t1.toNat ∧ leAt bytes 40 8 = s.tideNs % 2 ^ 64 ∧
        leAt bytes 48 8 = s.tideNs % 2 ^ 64) ∧
      keepsRegs [R.GWL_LINK_RX h.link, R.GWL_LINK_TX h.link] s t ∧ changesOnly [.gwSeq, .hopBuf, .regs, .out] s t) ∧
    (here → s.role = 2 → let t4 : Int := s.tideNs
      let offset : Int := ((t2.toNat - t1.toNat : Int) + (t3.toNat - t4)) / 2
      (s.synced = false → yields (.syncRsp h t1 t2 t3) s fun t =>
        t.tideOff = s.tideOff + offset ∧ t.synced = true ∧ t.syncAt = t.tideNs ∧
        t.get R.TIDE_SYNC_offset_ns = ((-offset) % 2 ^ 32).toNat ∧
        t.get R.TIDE_SYNC_rtt_ns = min 65535 ((t4 - t1.toNat) - (t3.toNat - t2.toNat : Int)).toNat ∧
        keepsQuiet [R.TIDE_SYNC, R.GWL_LINK_RX h.link] s t ∧
        changesOnly [.regs, .tideOff, .synced, .syncAt, .msix, .mgmtQ, .out] s t) ∧
      (s.synced = true → yields (.syncRsp h t1 t2 t3) s fun t =>
        let most : Int := (2 * ((s.tideNs - s.syncAt) / 1000) : Nat)
        t.tideOff = s.tideOff + max (-most) (min most offset)))

/-- Glewawin links: a lane's failure, restart and requalification (R400, R401, R414). -/
def Sys2Proof.Claims.GlewawinLinks : Prop :=
  ∀ (who : Agent) (l : Fin 48) (lane : Fin 4) (unseen : Nat) (g : GwTrain) (s : State), s.power ≠ .off →
    (s.gwUp l = true → let failed := Nat.lor (s.get (R.GWL_LINK_STATUS_failed l)) (2 ^ lane.val)
      let lanes := glLanes (15 - failed)
      let st := if lanes = 0 then ST_LINK_DOWN else ST_LINK_NARROW
      yields (.gwLaneFailure l lane) s fun t =>
        t.gwUp l = false ∧ t.get (R.GWL_LINK_STATUS_failed l) = failed ∧ t.get (R.GWL_LINK_STATUS_last_status l) = st ∧
        t.gl l = (if lanes = 0 then GL_DOWN else GL_TRAINING) ∧ t.get (R.GWL_LINK_STATUS_lanes l) = lanes ∧
        t.get (R.GWL_LINK_STATUS_weight l) = 0 ∧
        t.get (R.GWL_LINK_ERR_width_drops l) = min (s.get (R.GWL_LINK_ERR_width_drops l) + 1) (2 ^ (R.GWL_LINK_ERR_width_drops l).w - 1) ∧
        (∀ k < 48, k ≠ l.val → t.gwUp k = s.gwUp k ∧ t.gl k = s.gl k)) ∧
    (s.gl l = GL_TRAINING → s.get (R.GWL_LINK_STATUS_lanes l) ≠ 0 → s.get (R.GWL_LINK_STATUS_rate l) < 2 → yields (.gwLinkRestarted ⟨l, unseen⟩) s fun t =>
      let again := (s.hopBufAt l).drop ((s.hopBufAt l).length - unseen)
      t.out = (again.map fun x => Out.packet l x.2).reverse ++ s.out ∧ (∀ k, t.hopBufAt k = s.hopBufAt k) ∧
      t.get (R.GWL_LINK_ERR_hop_replays l) =
        min (s.get (R.GWL_LINK_ERR_hop_replays l) + 1) (2 ^ (R.GWL_LINK_ERR_hop_replays l).w - 1) ∧
      t.get (R.GWL_LINK_TX_bytes l) =
        (s.get (R.GWL_LINK_TX_bytes l) + (again.map fun x => x.2.length).sum) % 2 ^ (R.GWL_LINK_TX_bytes l).w ∧
      joined l (s.get (R.GWL_LINK_STATUS_lanes l)) (s.get (R.GWL_LINK_STATUS_rate l)) t ∧
      keepsRegs [R.GWL_LINK_STATUS l, R.GWL_LINK_ERR l, R.GWL_LINK_TX l, R.GWL_UP, R.GWL_AGG] s t ∧ changesOnly [.regs, .gwSpray, .out] s t) ∧
    (writable who (0x10C0 + l) 0 s →
      (s.gl l = GL_UP ∨ s.gl l = GL_DOWN → (∃ k : Fin 48, k ≠ l ∧ s.gwUp k = true) → yields (.gwlRequalify who l) s fun t =>
        t.gl l = GL_TRAINING ∧ t.get (R.GWL_LINK_STATUS_lanes l) = 0 ∧ t.gwUp l = false) ∧
      (s.gl l ≠ GL_RETIRED → s.gwUp l = true → (∀ k : Fin 48, k ≠ l → s.gwUp k = false) → yields (.gwlRequalify who l) s fun t =>
        t.gl l = s.gl l ∧ t.gwUp l = true ∧ t.get (R.GWL_LINK_STATUS_last_status l) = ST_BUSY ∧
        keepsRegs [R.GWL_LINK_STATUS l] s t ∧ changesOnly [.regs, .out] s t)) ∧
    (s.gl g.link = GL_TRAINING → s.get (R.GWL_LINK_STATUS_lanes g.link) = 0 → g.up = true →
      let a := glQualified g.fastLock g.fastErrs
      let b := glQualified g.slowLock g.slowErrs
      (g.fast = true → s.bit (R.GWL_LINK_CTRL_force_rate g.link) = false → a ≠ 0 → yields (.requalifyComplete g) s fun t =>
        joined g.link (glLanes a) 0 t ∧ t.get (R.GWL_LINK_STATUS_failed g.link) = 15 - a) ∧
      (g.slow = true → g.fast = false ∨ a = 0 ∨ s.bit (R.GWL_LINK_CTRL_force_rate g.link) = true → b ≠ 0 → yields (.requalifyComplete g) s fun t =>
        joined g.link (glLanes b) 1 t ∧ t.get (R.GWL_LINK_STATUS_failed g.link) = 15 - b)) ∧
    (s.gl g.link = GL_TRAINING → s.get (R.GWL_LINK_STATUS_lanes g.link) = 0 → g.up = false → yields (.requalifyComplete g) s fun t =>
      t.gl g.link = GL_DOWN ∧ t.get (R.GWL_LINK_STATUS_last_status g.link) = ST_LINK_DOWN)

/-- Transfer queues: a descriptor starts, runs again after a halt, is skipped, and a queue is flushed (R413). -/
def Sys2Proof.Claims.TransferQueues : Prop :=
  ∀ (who : Agent) (x : Fin 8) (tail : BitVec 12) (l : Nat) (s : State), writable who 0x10A0 (0x808 + x * 0x20) s →
    let head := s.get (R.GWL_XQ_STATUS_head x)
    let state := s.get (R.GWL_XQ_STATUS_state x)
    let runs := fun (desc : List Byte) => xqDescOk desc = true ∧ leAt desc 24 8 ≤ 2048 ∧ s.gwReach (leAt desc 2 2) = true ∧ s.sprayPick none = some l ∧
      memReady s (.core 0) (leAt desc 8 8) (leAt desc 24 8)
    (state = 0 → (tail.toNat % s.xqSize x + s.xqSize x - head % s.xqSize x) % s.xqSize x ≠ 0 → s.xqDescAt x = [] →
      isExt (s.xqSlot x head) = true → cacheReady s (s.xqSlot x head) 64 → let desc := servedBytes s (s.xqSlot x head) 64
      runs desc → yields (.gwlXqTail who x tail) s fun t =>
        t.get (R.GWL_XQ_CTRL_tail x) = tail.toNat ∧ t.get (R.GWL_XQ_STATUS_state x) = 1 ∧ t.xqDescAt x = desc ∧ queued s x l desc t) ∧
    (state ≠ 0 → yields (.gwlXqTail who x tail) s fun t =>
      t.get (R.GWL_XQ_CTRL_tail x) = tail.toNat ∧ keepsRegs [R.GWL_XQ_CTRL x] s t ∧ changesOnly [.regs, .out] s t) ∧
    (state = 3 → let desc := s.xqDescAt x
      (s.get (R.GWL_XQ_STATUS_bytes_done x) = 0 → desc ≠ [] → runs desc → yields (.gwlXqResume who x) s fun t =>
        t.get (R.GWL_XQ_STATUS_state x) = 1 ∧ t.xqDescAt x = desc ∧ queued s x l desc t) ∧
      ((s.get (R.GWL_XQ_CTRL_tail x) % s.xqSize x) = (head + 1) % s.xqSize x → byteAt desc 1 / 2 % 2 = 0 → head < s.xqSize x →
        yields (.gwlXqSkip who x) s fun t =>
          t.get (R.GWL_XQ_STATUS_head x) = (head + 1) % s.xqSize x ∧ t.get (R.GWL_XQ_STATUS_state x) = 0 ∧ t.xqDescAt x = [] ∧
          t.get (R.GWL_XQ_STATUS_bytes_done x) = 0 ∧ keepsRegs [R.GWL_XQ_STATUS x, R.GWL_XQ_CTRL x] s t ∧
          changesOnly [.regs, .xqDesc, .out] s t)) ∧
    (yields (.gwlXqFlush who x) s fun t =>
      t.get (R.GWL_XQ_STATUS_head x) = s.get (R.GWL_XQ_CTRL_tail x) % s.xqSize x ∧ t.get (R.GWL_XQ_STATUS_state x) = 0 ∧ t.xqDescAt x = [] ∧
      (∀ p ∈ t.gwOut, p.queue ≠ some x.val))

/-- Acknowledgements, resending, time synchronisation, Glewawin links and transfer queues. -/
def Obligations.GlewawinLinksQueues : Prop := Claims.GlewawinReplies ∧ Claims.GlewawinLinks ∧ Claims.TransferQueues

namespace Sys2Proof.Claims
open Sys2Proof.Machine

/-- Registers whose write is no command of its own and whose value no further rule of their chapter holds back. -/
def plainReg (c : Cls) (off : Nat) : Bool :=
  match c with
  | .drn | .vec | .dlDie | .scSlice | .gdCtrl | .aow | .fw | .lic | .lcy | .thm | .pwr | .svc => true
  | .hif => decide (off < 0x40 ∨ 0x60 ≤ off)
  | .cell => decide (off < 0x10 ∨ 0x40 ≤ off)
  | .seq => decide (0x400 ≤ off ∧ off ≠ 0x2000) || (decide (off < 0x400) && off % 0x40 != 8)
  | .feed => off != 0 && off != 0x10
  | .que => !(decide (off < 0x800) && (off % 0x100 == 0 || off % 0x100 == 0x20))
  | .kvt => off != 0 && off != 0x10 && !(decide (0x800 ≤ off ∧ off < 0x920) && (off - 0x800) % 0x20 == 0x18)
  | .pbx => off != 0x600 && off != 0x608
  | .vlt | .gdCommon => off != 0x210 && off != 0x300 && off != 0x320
  | .bu => off % 0x1000 != 0 && off % 0x1000 != 0x10 && off % 0x1000 != 0x18
  | .buprog => false
  | .cbLo | .cbHi => !(off % 0x400 == 0x3F8 && decide (off < 0x8000))
  | .dl => off != 0 && off != 0x48
  | .qp => decide (0x1000 ≤ off)
  | .scCommon => decide (2056 * 16 ≤ off) && !decide (0xD040 ≤ off ∧ off < 0xD080) && off != 0xD210
  | .gwlCommon => !decide (0x100 ≤ off ∧ off < 0x500) && !(decide (0x808 ≤ off ∧ off < 0x908) && (off - 0x808) % 0x20 == 0)
  | .gwlLink => off != 0
  | .tide => off != 0
  | .cht => off != 0x10
  | .swl => off != 0x800
  | .evc => off != 0x4300 && off != 0x4308
  | .mon => !(decide (off < 0x4000) && off % 0x100 == 0x10)
  | .crc => decide (0x1000 ≤ off) || !([0, 8, 0x10, 0x18, 0x40].contains (off % 0x100))

/-- The bits of a field in a register's value. -/
def bitsOf (f : FieldSpec) (w : Word) : Nat := w.toNat / 2 ^ f.lo % 2 ^ f.w

/-- The register of a page at an 8-aligned offset, below the common page header. -/
def regIs (page off : Nat) (c : Cls) (n : Nat) (r : RegSpec) : Prop :=
  clsOf page = some (c, n) ∧ off < 0xFF00 ∧ off % 8 = 0 ∧ findSpec (specsOf c) off = some r

/-- The agent's register access goes to this offset of this page: a host's through its BAR0, or by page. -/
def names (who : Agent) (target : RegAt) (page off : Nat) (s : State) : Prop :=
  match who, target with
  | .host p, .bar0 x => s.bar0At p x.toNat = .page page off
  | _, .page q o => q.toNat = page ∧ o.toNat = off
  | _, .bar0 _ => False

/-- The response to a register write: a host's is posted. -/
def writeAnswer (who : Agent) (st : Nat) (s t : State) : Prop :=
  t.out = (match who with | .host _ => s.out | _ => .reply st (toLE 8 0) :: s.out)

/-- The access-fault record of a port after a refused access (R351). -/
def faultNoted (p st : Nat) (write bar2 : Bool) (s t : State) : Prop :=
  t.get (R.HIF_ACCESS_FAULT_status p) = st ∧ t.bit (R.HIF_ACCESS_FAULT_write p) = write ∧ t.bit (R.HIF_ACCESS_FAULT_bar p) = bar2 ∧
  t.bit (R.HIF_ACCESS_FAULT_atomic p) = false ∧ t.get (R.HIF_ACCESS_COUNT_count p) = min (s.get (R.HIF_ACCESS_COUNT_count p) + 1) (2 ^ (R.HIF_ACCESS_COUNT_count p).w - 1) ∧
  keepsQuiet [R.HIF_ACCESS_FAULT p, R.HIF_ACCESS_COUNT p] s t ∧ changesOnly [.regs, .msix, .mgmtQ, .out] s t

/-- What a refused register write leaves. -/
def writeRefused (who : Agent) (st : Nat) (s t : State) : Prop :=
  match who with
  | .host p => faultNoted p st true false s t
  | _ => t.out = .reply st (toLE 8 0) :: s.out ∧ changesOnly [.out] s t

/-- What a refused register read leaves: all ones, which a host gets in a normal completion (R28, R351). -/
def readRefused (who : Agent) (st n : Nat) (bar2 : Bool) (s t : State) : Prop :=
  match who with
  | .host p => (∃ rest, t.out = .reply ST_OK (List.replicate n 0xFF) :: rest) ∧ faultNoted p st false bar2 s t
  | _ => t.out = .reply st (List.replicate n 0xFF) :: s.out ∧ changesOnly [.out] s t

/-- What a refused access at a device address leaves: of a read (`n` = its length) or a write. -/
def mapRefused (who : Agent) (st : Nat) (n : Option Nat) (s t : State) : Prop :=
  match n, who with
  | some n, .host p => (∃ rest, t.out = .reply ST_OK (List.replicate n 0xFF) :: rest) ∧ faultNoted p st false true s t
  | some n, _ => t.out = .reply st (List.replicate n 0xFF) :: s.out ∧ changesOnly [.out] s t
  | none, .host p => faultNoted p st true true s t
  | none, _ => t.out = .reply st (toLE 8 0) :: s.out ∧ changesOnly [.out] s t

/-- An access of `n` bytes at an offset is one of a whole register or of one half (R32). -/
def halfAt (off n : Nat) : Prop := (n = 8 ∧ off % 8 = 0) ∨ (n = 4 ∧ off % 4 = 0)

/-- A word of the codebook RAM that holds no error, and any register that is none (R168). -/
def codeSound (page off : Nat) (s : State) : Prop := isCodebook page = true → s.marksAt (regAddr page off / 8) = .good

/-- A register that counts no ck, or one whose ck have all been counted (R113, R304). -/
def counted (page base : Nat) (s : State) : Prop :=
  rk page base ∉ feedKeys (page / 16) ∨ s.ckIn (s.now - s.feedAtAt (page / 16)) = 0

/-- A host is linked and the bytes lie in the window that it has set (R27); what it moves enters no running check value. Any other
agent reaches every device address. -/
def reaches (who : Agent) (a n : Nat) (s : State) : Prop :=
  ∀ p, who = .host p → s.linkUp p = true ∧ 0 < n ∧ a + n ≤ 2 ^ (28 + s.bar2At p) ∧ ∀ e < 16, s.bit (R.CRC_CTRL_running e) = false

/-- The word at an address reads as poison (R457). -/
def poisonedAt (t : State) (w : Nat) : Prop :=
  match regionOf w with
  | .sram _ _ => t.marksAt (w / 8) = .poison
  | _ => t.decode w = .poison

/-- The register's value with the written bytes in place. -/
def inPlace (old : Word) (off : Nat) (bs : List Byte) : Word := BitVec.ofNat 64 (leNat (patch (toLE 8 old.toNat) (off % 8) bs))

end Sys2Proof.Claims

/-- Writes of registers that are no commands: the fields of each access type, the protected pages, what a page refuses, offsets that
define nothing, sizes and alignments, and the windows that are holes. -/
def Sys2Proof.Claims.RegisterWrites : Prop :=
  ∀ (who : Agent) (target : RegAt) (page off : Nat) (bs : List Byte) (s : State),
    let key := rk page (off / 8 * 8)
    names who target page off s → s.power ≠ .off →
    (∀ c n r, regIs page (off / 8 * 8) c n r → plainReg c (off / 8 * 8) = true → halfAt off bs.length →
      s.regStatus page off bs.length = ST_OK → s.mapStatus (regAddr page (off / 8 * 8)) 8 = ST_OK → codeSound page (off / 8 * 8) s →
      let new := inPlace (s.regsAt key) off bs
      let shadow := (s.shadowsAt key).getD (s.regsAt key)
      let newShadow := inPlace shadow off bs
      (mayWrite who page (off / 8 * 8) = true → s.accepts who c n (off / 8 * 8) = true →
        yields (.registerWrite who target bs) s fun t => writeAnswer who ST_OK s t ∧
          (∀ f ∈ r.fields, bitsOf f (t.regsAt key) =
            if f.acc = .rw ∧ encOk f (bitsOf f new) = true then bitsOf f new else bitsOf f (s.regsAt key)) ∧
          (∀ f ∈ r.fields, f.acc = .stg → (∃ w, t.shadowsAt key = some w ∧
            bitsOf f w = if encOk f (bitsOf f newShadow) = true then bitsOf f newShadow else bitsOf f shadow) ∧
            t.get (stagePending page) = 1) ∧
          (∀ k, k ≠ key → t.shadowsAt k = s.shadowsAt k) ∧
          ((∀ f ∈ r.fields, f.acc ≠ .stg) → t.shadows = s.shadows ∧ keepsRegs [key] s t) ∧
          keepsRegs [key, stageKey page] s t ∧ changesOnly [.regs, .shadows, .out] s t) ∧
      (mayWrite who page (off / 8 * 8) = true → s.accepts who c n (off / 8 * 8) = false →
        yields (.registerWrite who target bs) s fun t => writeAnswer who ST_OK s t ∧ changesOnly [.out] s t) ∧
      (mayWrite who page (off / 8 * 8) = false → yields (.registerWrite who target bs) s (writeRefused who ST_PAGE_PROTECTED s))) ∧
    (∀ c n, clsOf page = some (c, n) → off / 8 * 8 < 0xFF00 → findSpec (specsOf c) (off / 8 * 8) = none → plainReg c (off / 8 * 8) = true →
      halfAt off bs.length → s.regStatus page off bs.length = ST_OK → writable who page (off / 8 * 8) s →
      yields (.registerWrite who target bs) s fun t => writeAnswer who ST_OK s t ∧ changesOnly [.out] s t) ∧
    ((clsOf page).isSome = true → ¬ (page = 0x1020 ∧ off < 2056 * 16 ∧ off % 16 / 8 = 1) → s.regStatus page off bs.length ≠ ST_OK →
      yields (.registerWrite who target bs) s (writeRefused who (s.regStatus page off bs.length) s)) ∧
    (clsOf page = none → halfAt off bs.length → off < 0x10000 → page < 0x10000 → yields (.registerWrite who target bs) s (writeRefused who ST_ADDR_UNMAPPED s)) ∧
    (off = 0xFFF0 → bs.length = 8 → instStaged page = true → s.regStatus page off 8 = ST_OK → writable who page off s →
      yields (.registerWrite who target bs) s fun t => writeAnswer who ST_OK s t ∧ t.get (stageAtTide page) = leNat bs % 2 ∧
        (∀ k, k ≠ stageKey page → t.regsAt k = s.regsAt k) ∧ changesOnly [.regs, .out] s t) ∧
    (∀ p (x : BitVec 26), who = .host p → s.bar0At p x.toNat = .hole →
      yields (.registerWrite who (.bar0 x) bs) s (faultNoted p ST_ADDR_UNMAPPED true false s))

/-- Reads of registers: each field's live value, write-only fields and offsets that define nothing as 0, fields that a read clears,
the page header, and refused reads as all ones. -/
def Sys2Proof.Claims.RegisterReads : Prop :=
  ∀ (who : Agent) (target : RegAt) (page off : Nat) (n : Fin 17) (s : State),
    let base := off / 8 * 8
    let shown := fun (w : Nat) (t : State) => t.out = .reply ST_OK (((toLE 8 w).drop (off % 8)).take n) :: s.out
    let also := if page < 0x800 then feedKeys (page / 16) else []
    names who target page off s → s.power ≠ .off → codeSound page off s →
    (∀ c i r, regIs page base c i r → counted page base s → s.derived c i base = none → halfAt off n → s.regStatus page off n = ST_OK →
      yields (.registerRead who target n) s fun t =>
        (∃ w, shown w t ∧ ∀ f ∈ r.fields, f.lo + f.w ≤ 64 → w / 2 ^ f.lo % 2 ^ f.w = if f.acc = .wo then 0 else bitsOf f (s.regsAt (rk page base))) ∧
        (∀ f ∈ r.fields, bitsOf f (t.regsAt (rk page base)) =
          if f.acc = .rc ∧ (n.val = 8 ∨ (off % 8 = 0 ∧ f.lo + f.w ≤ 32) ∨ (off % 8 = 4 ∧ 32 ≤ f.lo)) then 0 else bitsOf f (s.regsAt (rk page base))) ∧
        keepsRegs (rk page base :: also) s t ∧ ((∀ f ∈ r.fields, f.acc ≠ .rc) → changesOnly [.regs, .feedAt, .freeCtr, .out] s t) ∧
        changesOnly [.regs, .feedAt, .freeCtr, .stallSince, .out] s t) ∧
    (∀ c i v, clsOf page = some (c, i) → base < 0xFF00 → s.derived c i base = some v → halfAt off n → s.regStatus page off n = ST_OK →
      yields (.registerRead who target n) s fun t => shown v t ∧ keepsRegs (rk page base :: also) s t ∧
        changesOnly [.regs, .feedAt, .freeCtr, .out] s t) ∧
    (∀ c i, clsOf page = some (c, i) → base < 0xFF00 → s.derived c i base = none → findSpec (specsOf c) base = none → halfAt off n →
      s.regStatus page off n = ST_OK → yields (.registerRead who target n) s fun t => shown 0 t ∧ keepsRegs also s t ∧ changesOnly [.regs, .feedAt, .freeCtr, .out] s t) ∧
    (∀ c i, clsOf page = some (c, i) → halfAt off n → s.regStatus page off n = ST_OK →
      (base = 0xFF00 → yields (.registerRead who target n) s fun t => shown (clsType c + i * 2 ^ 8 + s.pageRev page * 2 ^ 24) t ∧ keepsRegs also s t ∧ changesOnly [.regs, .feedAt, .freeCtr, .out] s t) ∧
      (base = 0xFFF0 → yields (.registerRead who target n) s fun t =>
        shown (if instStaged page then (s.regsAt (stageKey page)).toNat else 0) t ∧ keepsRegs also s t ∧ changesOnly [.regs, .feedAt, .freeCtr, .out] s t)) ∧
    ((clsOf page).isSome = true → s.regStatus page off n ≠ ST_OK → let st := s.regStatus page off n
      yields (.registerRead who target n) s (readRefused who st n false s))

/-- Reads and writes of registers that are no commands, field by field. -/
def Obligations.RegisterAccesses : Prop := Claims.RegisterWrites ∧ Claims.RegisterReads

/-- A write of a command register is the command that it stands for, and a write of COMMIT is COMMIT. -/
def Sys2Proof.Claims.CommandRegisters : Prop :=
  ∀ (who : Agent) (c : Fin 128) (th : Fin 16) (k : Fin 64) (v : BitVec 16) (u : Fin 1024) (off : BitVec 22) (tgt : BitVec 32)
      (q : BitVec 16) (b : BitVec 48) (s : State),
    let rows : List (Nat × Nat × Nat × Instr) := [
      (c * 16 + 1, th * 0x40 + 8, 1, .threadHalt who c th), (c * 16 + 1, th * 0x40 + 8, 2, .threadResume who c th),
      (c * 16 + 1, th * 0x40 + 8, 4, .threadKill who c th), (c * 16 + 1, 0x2000, 1, .icacheInvalidate who c),
      (c * 16 + 7, 0x600, k + v.toNat * 2 ^ 16, .pbxSignal who c k v), (c * 16 + 7, 0x608, k + v.toNat * 2 ^ 16, .pbxReset who c k v),
      (c * 16 + 6, 0x10, off.toNat, .kvtSubmit who c off), (u / 8 * 16 + 9, u % 8 * 0x1000 + 0x18, b.toNat / 64 * 64, .buSubmit who u b),
      (0x1002, 0x800, k, .swlArrive who k), (0x1001, 0x10, 1 + tgt.toNat * 2 ^ 32, .chtArm who tgt), (q.toNat, 0xFFF8, 1, .commit who q)]
    ∀ row ∈ rows, s.power ≠ .off → (∀ p, who ≠ .host p) → s.regStatus row.1 row.2.1 8 = ST_OK →
      ∃ st rest, yields (.registerWrite who (.page (BitVec.ofNat 16 row.1) (BitVec.ofNat 16 row.2.1)) (toLE 8 row.2.2.1)) s fun t =>
        t.out = .reply st (toLE 8 0) :: rest ∧ yields row.2.2.2 s fun z => z = { t with out := .reply st [] :: rest }

/-- COMMIT: every staged field of the instance takes its shadow; what is out of its limits keeps its value (R8, R34, R55). -/
def Sys2Proof.Claims.Commits : Prop :=
  ∀ (who : Agent) (page : BitVec 16) (s : State),
    let pg := page.toNat
    let inst := instPage pg
    writable who pg 0xFFF8 s → s.wf = true →
    (instStaged pg = false → yields (.commit who page) s (changesOnly [.out] s)) ∧
    (instStaged pg = true → (∀ c n, clsOf inst = some (c, n) → c ∉ [.que, .swl, .tide, .dlDie]) →
      yields (.commit who page) s fun t =>
        (∀ key w c n r, s.shadowsAt key = some w → instPage (key / 0x10000) = inst → specAt key = some (c, n, r) → ∀ f ∈ r.fields,
          bitsOf f (t.regsAt key) = if f.acc = .stg ∧ encOk f (bitsOf f w) = true then bitsOf f w else bitsOf f (s.regsAt key)) ∧
        (∀ key, instPage (key / 0x10000) = inst → t.shadowsAt key = none) ∧
        (∀ key, instPage (key / 0x10000) ≠ inst → t.shadowsAt key = s.shadowsAt key ∧ t.regsAt key = s.regsAt key) ∧
        t.get (stagePending pg) = 0 ∧ t.get (stageCount pg) = (s.get (stageCount pg) + 1) % 2 ^ 32 ∧
        changesOnly [.regs, .shadows, .buRound, .mon, .out] s t) ∧
    (∀ w, pg = 0x1000 → s.shadowsAt R.TIDE_PERIOD = some w → yields (.commit who page) s fun t =>
      let p := w.toNat % 2 ^ 16
      let slack := w.toNat / 2 ^ 16 % 2 ^ 16
      let cut := w.toNat / 2 ^ 32 % 2 ^ 16
      let st := if p < s.get R.LIC_FEATURES_min_tide_us then ST_FRANK_MISSING
        else if 64000 < p ∨ p < 4 * slack ∨ cut < 5 ∨ 200 < cut then ST_BAD_ARG else ST_OK
      t.get R.TIDE_STATUS_cfg_status = st ∧
      t.get R.TIDE_PERIOD_period_us = (if st = ST_OK then p else s.get R.TIDE_PERIOD_period_us) ∧
      t.get R.TIDE_PERIOD_slack_us = (if st = ST_OK then slack else s.get R.TIDE_PERIOD_slack_us) ∧
      t.get R.TIDE_PERIOD_cutoff_us = (if st = ST_OK then cut else s.get R.TIDE_PERIOD_cutoff_us) ∧
      t.shadowsAt R.TIDE_PERIOD = none ∧ t.get (stagePending pg) = 0 ∧ t.get (stageCount pg) = (s.get (stageCount pg) + 1) % 2 ^ 32)

/-- A write of a command register is the command that it stands for; COMMIT. -/
def Obligations.RegisterCommands : Prop := Claims.CommandRegisters ∧ Claims.Commits

/-- Accesses of memory by device address and through BAR2. -/
def Obligations.MapAccesses : Prop :=
  ∀ (who : Agent) (p : Fin 2) (z : Option (Fin 11)) (a : BitVec 48) (x : BitVec 38) (n : BitVec 13) (bs : List Byte) (hit : Bool) (s : State),
    s.power ≠ .off →
    let parts : List Part := [.out, .mem, .marks, .check, .regs, .bar2]
    let size := 2 ^ (28 + (match z with | some v => v.val | none => s.bar2At p))
    let inside := fun (len : Nat) => s.linkUp p = true ∧ 0 < len ∧ x.toNat + len ≤ size
    let resized := fun (t : State) => ∀ k, t.bar2At k = (match z with | some v => if k = p.val then v.val else s.bar2At k | none => s.bar2At k)
    let quietCrc := ∀ e < 16, s.bit (R.CRC_CTRL_running e) = false
    (memReady s who a.toNat n.toNat → reaches who a.toNat n.toNat s → yields (.addressMapAccess who a n ⟨none, .good⟩) s fun t =>
      t.out = .reply ST_OK (s.bytes a.toNat n.toNat) :: s.out ∧ changesOnly [.out] s t) ∧
    (memReady s who a.toNat bs.length → reaches who a.toNat bs.length s → bs.length ≤ 512 →
      yields (.addressMapAccess who a n ⟨some bs, .good⟩) s fun t =>
        stored a.toNat bs s t ∧ changesOnly parts s t ∧ writeAnswer who ST_OK s t) ∧
    (let st := s.mapStatus a.toNat n.toNat
     st ≠ ST_OK → reaches who a.toNat n.toNat s → (∀ q o, regionOf a.toNat ≠ .regs q o) →
       yields (.addressMapAccess who a n ⟨none, .good⟩) s (mapRefused who st (some n.toNat) s)) ∧
    (let st := s.mapStatus a.toNat bs.length
     st ≠ ST_OK → reaches who a.toNat bs.length s → bs.length ≤ 512 → (∀ q o, regionOf a.toNat ≠ .regs q o) →
       yields (.addressMapAccess who a n ⟨some bs, .good⟩) s (mapRefused who st none s)) ∧
    (∀ q, who = .host q → (s.linkUp q = false ∨ 2 ^ (28 + s.bar2At q) < a.toNat + n.toNat) →
      yields (.addressMapAccess who a n ⟨none, .good⟩) s (changesOnly [] s)) ∧
    ((∀ q, who ≠ .host q) →
      (yields (.addressMapAccess who a n ⟨none, .header true⟩) s fun t =>
        t.out = .reply ST_PARITY (List.replicate n.toNat 0xFF) :: s.out ∧ changesOnly [.out] s t) ∧
      (yields (.addressMapAccess who a n ⟨none, .header false⟩) s fun t =>
        t.out = .reply ST_TIMEOUT (List.replicate n.toNat 0xFF) :: s.out ∧ t.now = s.now + 100000 ∧ changesOnly [.now, .out] s t) ∧
      (yields (.addressMapAccess who a n ⟨some bs, .header true⟩) s fun t =>
        t.out = .reply ST_PARITY [] :: s.out ∧ changesOnly [.out] s t) ∧
      (∀ (f : Fin 4096), memReady s who a.toNat n.toNat → f.val < n.toNat →
        yields (.addressMapAccess who a n ⟨none, .payload [f]⟩) s fun t =>
          t.out = .reply ST_POISON (s.bytes a.toNat n.toNat) :: s.out ∧
          t.parityCountAt (agentBlock who) = s.parityCountAt (agentBlock who) + 1 ∧ changesOnly [.out, .parityCount] s t) ∧
      (∀ (f : Fin 4096), memReady s who a.toNat bs.length → f.val < bs.length →
        yields (.addressMapAccess who a n ⟨some bs, .payload [f]⟩) s fun t =>
          let hit := (a.toNat + f) / 8 * 8
          poisonedAt t hit ∧ t.parityCountAt (parityBlock a.toNat) = s.parityCountAt (parityBlock a.toNat) + 1 ∧
          (∀ i < bs.length, (a.toNat + i) / 8 * 8 ≠ hit → t.memAt (a.toNat + i) = bs.getD i 0) ∧
          writeAnswer who ST_OK s t ∧ changesOnly (.parityCount :: parts) s t)) ∧
    (quietCrc → memReady s (.host p) x.toNat n.toNat → inside n.toNat → yields (.bar2Access p z x n none false) s fun t =>
      t.out = .reply ST_OK (s.bytes x.toNat n.toNat) :: s.out ∧ resized t ∧ changesOnly [.out, .bar2] s t) ∧
    (quietCrc → memReady s (.host p) x.toNat bs.length → inside bs.length → bs.length ≤ 512 →
      yields (.bar2Access p z x n (some bs) hit) s fun t => stored x.toNat bs s t ∧ resized t ∧ t.out = s.out ∧ changesOnly parts s t) ∧
    (¬ inside n.toNat → yields (.bar2Access p z x n none hit) s fun t => resized t ∧ changesOnly [.bar2] s t) ∧
    (¬ inside bs.length ∨ 512 < bs.length → yields (.bar2Access p z x n (some bs) hit) s fun t => resized t ∧ changesOnly [.bar2] s t) ∧
    (quietCrc → let st := s.mapStatus x.toNat n.toNat
      st ≠ ST_OK → (∀ q o, regionOf x.toNat ≠ .regs q o) → inside n.toNat → yields (.bar2Access p z x n none hit) s fun t =>
        (∃ rest, t.out = .reply ST_OK (List.replicate n.toNat 0xFF) :: rest) ∧ t.get (R.HIF_ACCESS_FAULT_status p) = st ∧
        t.get (R.HIF_ACCESS_COUNT_count p) = min (s.get (R.HIF_ACCESS_COUNT_count p) + 1) (2 ^ (R.HIF_ACCESS_COUNT_count p).w - 1) ∧
        (∀ k, t.memAt k = s.memAt k) ∧ resized t) ∧
    (quietCrc → ∀ c o, regionOf x.toNat = .sram c o → memReady s (.host p) x.toNat n.toNat → inside n.toNat →
      yields (.bar2Access p z x n none true) s fun t =>
        (∃ junk rest, junk.length = n.toNat ∧ t.out = .reply ST_OK junk :: rest) ∧ t.get (R.HIF_ACCESS_FAULT_status p) = ST_COLLISION ∧
        t.bit (R.HIF_ACCESS_FAULT_bar p) = true ∧
        t.get (R.CELL_COLLISION_count c) = min (s.get (R.CELL_COLLISION_count c) + 1) (2 ^ 32 - 1) ∧ (∀ k, t.memAt k = s.memAt k))

namespace Sys2Proof.Claims
open Sys2Proof.Machine

/-- A port's MSI-X message of a vector: the message that goes out, or none when the vector is masked or the link is down (R439). -/
def msixOut (s : State) (p v : Nat) : List Out :=
  if (s.msixAt (p * 128 + v)).masked || !s.linkUp p then [] else [.msix p v]

/-- The route names destination `d` and the source is not pending there. -/
def newlyPending (s : State) (d src : Nat) : Bool := s.evRouted d src && !s.evPending d src

/-- The vector that a source's route names for port `p`. -/
def routeVector (s : State) (p src : Nat) : Nat := if p = 0 then s.get (R.EVC_ROUTE_p0_vector src) else s.get (R.EVC_ROUTE_p1_vector src)

/-- What a delivery at destination `d` sends: nothing to the cores, whose line follows the pending bits. -/
def deliverOut (s : State) (d src : Nat) : List Out := if d = 0 then [] else msixOut s (d - 1) (routeVector s (d - 1) src)

/-- The events at destination `d` of every source but `src` are as before. -/
def otherPending (src : Nat) (s t : State) : Prop :=
  ∀ d < 3, ∀ x < 2048, x ≠ src → t.evPending d x = s.evPending d x

/-- The slot of the always-on watcher that names a source. -/
def watchSlot (s : State) (src : Nat) : Option Nat :=
  (List.range 32).find? fun i => s.bit (R.AOW_WATCH_valid i) && s.get (R.AOW_WATCH_source i) == src

/-- Every register but those of the event collector and of the watcher keeps its value, but PWR_STATE. -/
def eventsOnly (s t : State) : Prop := keepsQuiet [] s t ∧ changesOnly [.regs, .msix, .mgmtQ, .out] s t

/-- The corrected-error account of a unit after `n` more corrections at time `now` (R460, R461). -/
def ceNext (s : State) (now cls u n : Nat) : CeRec :=
  let r := s.ceCountAt (cls * 65536 + u)
  let fresh := r.since = 0 ∨ r.since - 1 + s.get (R.SVC_CE_CFG_window_s cls) * 1000000000 ≤ now
  let count := if fresh then n else r.count + n
  ⟨if fresh then now + 1 else r.since, count, min (r.total + n) (2 ^ 32 - 1),
    (if fresh then false else r.warned) || decide (s.get (R.SVC_CE_CFG_warn cls) ≤ count),
    (if fresh then false else r.replaced) || decide (s.get (R.SVC_CE_CFG_replace cls) ≤ count)⟩

/-- The sum of a unit's correction counters. -/
def ceSum (s : State) (cls u : Nat) : Nat := ((ceFields cls u).map fun f => s.get f).sum

end Sys2Proof.Claims

/-- A firing: its counts, its pending bits, its messages to the ports and the management port, and what the watcher notes; the end of
service; a vector unmasked. -/
def Obligations.EventDelivery : Prop :=
  ∀ (src : Fin 2048) (dest : Fin 3) (who : Agent) (p : Fin 2) (v : Fin 128) (s : State), s.power ≠ .off →
    let standby := s.get R.PWR_STATE_state = 2
    let sat := fun (f : Fld) => min (s.get f + 1) (2 ^ f.w - 1)
    let edge := s.get R.TIDE_EDGE_NUM_edge
    let message := Out.mgmtEvent src edge
    let merged := s.evRouted 0 src && s.evPending 0 src || s.evRouted 1 src && s.evPending 1 src || s.evRouted 2 src && s.evPending 2 src
    let always := s.bit (R.EVC_ROUTE_mgmt src) || src.val == 0x70B || src.val == 0x710 || src.val == 0x713 || src.val == 0x714
    (srcListed src = false → yields (.evcSet src) s fun t =>
      t.get R.EVC_COUNTS_fired = sat R.EVC_COUNTS_fired ∧ keepsRegs [R.EVC_COUNTS] s t ∧ changesOnly [.regs] s t) ∧
    (srcListed src = true → yields (.evcSet src) s fun t =>
      t.get R.EVC_COUNTS_fired = sat R.EVC_COUNTS_fired ∧
      t.get R.EVC_COUNTS_merged = (if merged then sat R.EVC_COUNTS_merged else s.get R.EVC_COUNTS_merged) ∧
      (∀ d < 3, t.evPending d src = (s.evPending d src || s.evRouted d src)) ∧ otherPending src s t ∧
      (let slot := watchSlot s src
       let seen := slot.isSome = true ∧ ¬(standby ∧ src.val < 0x400)
       let k := slot.getD 0
       let sent := (if always then [message] else []) ++ if seen ∧ standby ∧ s.bit (R.AOW_WATCH_mgmt k) = true then [message] else []
       t.out = sent ++ (if standby then [] else
         (if newlyPending s 2 src then deliverOut s 2 src else []) ++ if newlyPending s 1 src then deliverOut s 1 src else []) ++ s.out ∧
       t.mgmtQ = s.mgmtQ ++ sent.map (fun _ => ⟨src, edge, 0, s.now + 1000000000⟩) ∧
       t.get R.AOW_WAKE_slot = (if seen then k else s.get R.AOW_WAKE_slot) ∧
       t.get R.AOW_WAKE_firings = (if seen ∧ standby then sat R.AOW_WAKE_firings else s.get R.AOW_WAKE_firings) ∧
       t.bit R.PWR_STATE_pending = (s.bit R.PWR_STATE_pending || decide (seen ∧ standby ∧ s.bit (R.AOW_WATCH_wake k) = true))) ∧
      (∀ q < 2, ∀ x < 128, (t.msixAt (q * 128 + x)).pending = ((s.msixAt (q * 128 + x)).pending ||
        decide (¬standby ∧ newlyPending s (q + 1) src = true ∧ x = routeVector s q src ∧ msixOut s q x = []))) ∧
      eventsOnly s t) ∧
    ((∀ q, who ≠ .host q) ∨ (∃ q : Fin 2, who = .host q ∧ dest.val = q.val + 1) →
      let again := srcLevel src && s.bit (R.EVC_ROUTE_asserted src) && s.evRouted dest src
      yields (.evcEos who dest src) s fun t =>
        t.evPending dest src = again ∧ (∀ d < 3, d ≠ dest.val → t.evPending d src = s.evPending d src) ∧ otherPending src s t ∧
        t.out = (if again ∧ ¬standby then deliverOut s dest src else []) ++ s.out ∧
        keepsRegs [pendReg dest src] s t ∧ changesOnly [.regs, .msix, .out] s t) ∧
    (∀ q : Fin 2, who = .host q → dest.val ≠ q.val + 1 → yields (.evcEos who dest src) s (faultNoted q ST_PAGE_PROTECTED true false s)) ∧
    (yields (.msixUnmask p v) s fun t =>
      let e := s.msixAt (p * 128 + v)
      let goes := e.pending = true ∧ s.linkUp p = true
      t.msixAt (p * 128 + v) = { e with masked := false, pending := if goes then false else e.pending } ∧
      t.out = (if goes then [.msix p v] else []) ++ s.out ∧ (∀ k, k ≠ p.val * 128 + v.val → t.msixAt k = s.msixAt k) ∧
      changesOnly [.msix, .out] s t)

/-- The snapshot of a monitor unit, and the clear of its capture (R449). -/
def Obligations.MonitorUnits : Prop :=
  ∀ (u : Fin 64) (s : State), s.power ≠ .off →
    let m := s.monAt u
    (yields (.monSnap u) s fun t =>
      t.regsAt (R.MON_MINMAX u) = BitVec.ofInt 32 m.high ++ BitVec.ofInt 32 m.low ∧
      t.regsAt (R.MON_COUNT u) = BitVec.ofNat 64 m.count ∧ t.regsAt (R.MON_SUM u) = BitVec.ofInt 64 m.sum ∧
      t.regsAt (R.MON_SNAP_TIME u) = BitVec.ofNat 64 s.tideTime ∧ t.regsAt (R.MON_SNAP_EDGE u) = BitVec.ofNat 64 (s.get R.TIDE_EDGE_NUM_edge) ∧
      t.bit (R.MON_CTRL_overflow u) = m.ovf ∧
      (∀ j < 16, t.regsAt (R.MON_HIST u j) = BitVec.ofNat 64 (m.bins.getD (2 * j) 0 + m.bins.getD (2 * j + 1) 0 * 2 ^ 32)) ∧
      keepsRegs (monKeys u) s t ∧ changesOnly [.regs] s t) ∧
    (yields (.monClear u) s fun t =>
      (t.monAt u).low = 0 ∧ (t.monAt u).high = 0 ∧ (t.monAt u).count = 0 ∧ (t.monAt u).sum = 0 ∧ (t.monAt u).ovf = false ∧
      (t.monAt u).bins = List.replicate 32 0 ∧ (∀ k, k ≠ u.val → t.monAt k = s.monAt k) ∧ changesOnly [.mon] s t)

/-- The start, stop, resume and compare of a check-value engine (R463, R466). -/
def Sys2Proof.Claims.CheckEngines : Prop :=
  ∀ (who : Agent) (e : Fin 16) (s : State), writable who 0x1006 (e * 0x100 + 0x40) s →
    let runs := fun (b : Bool) (t : State) => t.bit (R.CRC_CTRL_running e) = b
    (yields (.crcStart who e) s fun t => runs true t ∧
      t.get (R.CRC_VALUE_value e) = s.get (R.CRC_INIT_value e) % 2 ^ s.get (R.CRC_CFG_width e) ∧ t.get (R.CRC_STATUS_bytes e) = 0 ∧
      keepsRegs [R.CRC_VALUE e, R.CRC_STATUS e, R.CRC_CTRL e] s t ∧ changesOnly [.regs, .out] s t) ∧
    (yields (.crcStop who e) s fun t => runs false t ∧ keepsRegs [R.CRC_CTRL e] s t ∧ changesOnly [.regs, .out] s t) ∧
    (yields (.crcResume who e) s fun t => runs true t ∧ keepsRegs [R.CRC_CTRL e] s t ∧ changesOnly [.regs, .out] s t) ∧
    (let same := s.crcResult e = s.get (R.CRC_EXPECT_value e) % 2 ^ s.get (R.CRC_CFG_width e)
     (same → yields (.crcCompare who e) s fun t =>
       t.get (R.CRC_STATUS_last_status e) = ST_OK ∧ t.bit (R.CRC_STATUS_mismatch e) = false ∧ t.crcResult e = s.crcResult e ∧
       keepsRegs [R.CRC_STATUS e, R.CRC_CTRL e] s t ∧ changesOnly [.regs, .out] s t) ∧
     (¬same → yields (.crcCompare who e) s fun t =>
       t.get (R.CRC_STATUS_last_status e) = ST_CHECK_MISMATCH ∧ t.bit (R.CRC_STATUS_mismatch e) = true ∧
       t.get R.EVC_COUNTS_fired = min (s.get R.EVC_COUNTS_fired + 1) (2 ^ R.EVC_COUNTS_fired.w - 1) ∧
       (∀ d < 3, t.evPending d (0x5A0 + e) = (s.evPending d (0x5A0 + e) || s.evRouted d (0x5A0 + e))) ∧ t.crcResult e = s.crcResult e ∧
       keepsQuiet [R.CRC_STATUS e, R.CRC_CTRL e] s t ∧ changesOnly [.regs, .msix, .mgmtQ, .out] s t))

/-- The check values of R463: an engine that snoops a port's BAR2 writes and takes the nine bytes "123456789". -/
def Sys2Proof.Claims.CheckValueTable : Prop :=
  ∀ (e : Fin 16) (p : Fin 2) (x : BitVec 38) (n : BitVec 13) (hit : Bool) (s : State), s.power ≠ .off →
    let text : List Byte := [0x31, 0x32, 0x33, 0x34, 0x35, 0x36, 0x37, 0x38, 0x39]
    let rows : List (Nat × Nat × Nat × Bool × Bool × Nat) := [
      (8, 0x07, 0, false, false, 0xF4), (16, 0x1021, 0xFFFF, false, false, 0x29B1),
      (32, 0x04C11DB7, 0xFFFFFFFF, true, true, 0xCBF43926), (32, 0x1EDC6F41, 0xFFFFFFFF, true, true, 0xE3069283),
      (64, 0x42F0E1EBA9EA3693, 0xFFFFFFFFFFFFFFFF, true, true, 0x995DC9BBDF1939FA)]
    ∀ row ∈ rows, s.get (R.CRC_CFG_width e) = row.1 → s.get (R.CRC_POLY_value e) = row.2.1 → s.get (R.CRC_VALUE_value e) = row.2.2.1 →
      s.bit (R.CRC_CFG_refin e) = row.2.2.2.1 → s.bit (R.CRC_CFG_refout e) = row.2.2.2.1 → s.bit (R.CRC_CFG_final_inv e) = row.2.2.2.2.1 →
      s.bit (R.CRC_CTRL_running e) = true → s.bit (R.CRC_CTRL_win_en e) = false →
      s.get (R.CRC_CFG_source e) = 2 → s.get (R.CRC_CFG_dir e) = 0 → s.get (R.CRC_CFG_instance e) = p →
      s.linkUp p = true → memReady s (.host p) x.toNat 9 → x.toNat + 9 ≤ 2 ^ (28 + s.bar2At p) →
      yields (.bar2Access p none x n (some text) hit) s fun t =>
        t.crcResult e = row.2.2.2.2.2 ∧ t.get (R.CRC_STATUS_bytes e) = (s.get (R.CRC_STATUS_bytes e) + 9) % 2 ^ (R.CRC_STATUS_bytes e).w

/-- Start, stop, resume and compare of a check-value engine, and the published check values. -/
def Obligations.CheckValueEngines : Prop := Claims.CheckEngines ∧ Claims.CheckValueTable

/-- The firmware's poll of the correction counters: the counters it reads are cleared, and each unit's account takes them. -/
def Sys2Proof.Claims.CorrectedErrorPoll : Prop :=
  ∀ s : State, s.power ≠ .off →
    let now := (s.now / 10000000 + 1) * 10000000
    let got := fun (cls u : Nat) => s.ceReach cls u = true ∧ ceSum s cls u ≠ 0
    let crossed := fun (cls u : Nat) => got cls u ∧ let r := s.ceCountAt (cls * 65536 + u)
      let z := ceNext s now cls u (ceSum s cls u)
      (z.warned = true ∧ (r.warned = false ∨ z.since ≠ r.since)) ∨ (z.replaced = true ∧ (r.replaced = false ∨ z.since ≠ r.since))
    (s.fwRuns = true → yields .cePoll s fun t =>
      t.now = max s.now now ∧
      (∀ cls < 7, ∀ u < ceUnits cls,
        (got cls u → t.ceCountAt (cls * 65536 + u) = ceNext s now cls u (ceSum s cls u) ∧ ∀ f ∈ ceFields cls u, t.get f = 0) ∧
        (¬ got cls u → t.ceCountAt (cls * 65536 + u) = s.ceCountAt (cls * 65536 + u) ∧ ∀ f ∈ ceFields cls u, t.get f = s.get f)) ∧
      ((∀ cls < 7, ∀ u < ceUnits cls, ¬ crossed cls u) →
        keepsRegs ((List.range 7).flatMap fun cls => (List.range (ceUnits cls)).flatMap fun u => (ceFields cls u).map fun f => f.key) s t ∧
        changesOnly [.now, .ceCount, .regs] s t)) ∧
    (s.fwRuns = false → yields .cePoll s (changesOnly [] s))

/-- Live tests of the host's letterbox, and the firmware's poll of the correction counters. -/
def Obligations.TestsAndErrorPolls : Prop := Claims.LiveTests ∧ Claims.CorrectedErrorPoll

namespace Sys2Proof.Claims
open Sys2Proof.Machine

/-- The input power of a round, and the coolant flow, where the reading is there (R484). -/
def roundPower (s : State) (rs : List (BitVec 32)) : Option Nat :=
  if (s.reading rs 209 1).missing then none else some (halfWord (s.chanWord rs 209) 1)
def roundFlow (s : State) (rs : List (BitVec 32)) : Option Nat :=
  if (s.reading rs 209 0).missing then none else some (halfWord (s.chanWord rs 209) 0)

/-- t_max of a round and its channel (R487). -/
def roundMax (s : State) (rs : List (BitVec 32)) : Option (Int × Nat) := hottest (tMaxOver (s.reading rs) s.diesOff)

/-- No reading of the round reaches a shutdown trip, or the shutdown is latched already (R487, R488). -/
def noTrip (s : State) (rs : List (BitVec 32)) : Prop :=
  s.bit R.THM_SHUTDOWN_latched = true ∨
  ((∀ x, roundMax s rs = some x → x.1 < 112 * 16) ∧ (∀ x, hottest (gddrOver (s.reading rs)) = some x → x.1 < 105 * 16) ∧
    ∀ x, hottest (stageOver (s.reading rs)) = some x → x.1 < 125 * 16)

/-- P_in of the last 10 rounds with this round's. -/
def powers (s : State) (rs : List (BitVec 32)) : List Nat :=
  match roundPower s rs with
  | some p => (p :: s.gov.pIn).take 10
  | none => s.gov.pIn

/-- P_gov > w after the round (R482). -/
def powerOver (s : State) (rs : List (BitVec 32)) (w : Nat) : Prop :=
  w * (powers s rs).length < (powers s rs).sum ∨ 100 * w < s.book100

/-- A condition has held since `was`, or begins at `now`, for at least `ns`. -/
def lasts (was : Option Nat) (now ns : Nat) : Prop := was.getD now + ns ≤ now

/-- The band that a reading calls for, and the band of a vault after a round with a valid reading (R189, R190). -/
def bandAfter (first : Bool) (old : Nat) (t : Int) : Nat :=
  let up := if t ≤ 85 * 16 then 0 else if t ≤ 95 * 16 then 1 else if t ≤ 105 * 16 then 2 else 3
  let fall := if old = 1 then 82 * 16 else if old = 2 then 92 * 16 else 102 * 16
  if first = true ∨ old < up then up else if 0 < old ∧ t ≤ fall then old - 1 else old

/-- The enforcement level is `n`, with the duty of R491 in every bank unit. -/
def enforced (n : Nat) (t : State) : Prop :=
  t.get R.PWR_THROTTLE_level = n ∧
  ∀ u < 1024, t.get (R.BU_DUTY_duty (u / 8) (u % 8)) = (if n = 0 then 16 else if n = 1 then 12 else if n = 2 then 8 else 4)

/-- No throttle request stands (R492). -/
def noRequest (t : State) : Prop :=
  t.bit R.PWR_THROTTLE_request = false ∧ t.get R.PWR_THROTTLE_causes = 0 ∧ t.bit (R.EVC_ROUTE_asserted 0x711) = false

end Sys2Proof.Claims

/-- A housekeeping round: its time, the readings that it publishes and their missing marks, the vault bands, the warnings, the
cooling flag and the soundings. -/
def Obligations.HousekeepingReadings : Prop :=
  ∀ (rs : List (BitVec 32)) (s : State), s.power = .on →
    let g := s.reading rs
    let word := fun (ch : Nat) => if s.diesOff = true ∧ ch < 192 ∨ 242 ≤ ch then 0x80008000 else (rs.getD ch 0x80008000).toNat
    let outside := fun (ch n : Nat) => n = 0x8000 ∨ ((ch < 209 ∨ 210 ≤ ch ∧ ch < 218) ∧ (signed16 n < -640 ∨ 2400 < signed16 n))
    yields (.housekeepingRound rs) s fun t =>
      t.now = max s.now (s.gov.roundAt + 1000000) ∧ t.gov.roundAt = t.now ∧
      t.get R.THM_STATUS_round = (s.get R.THM_STATUS_round + 1) % 2 ^ R.THM_STATUS_round.w ∧
      (∀ ch < 256, t.get (R.THM_CHAN_lo ch) = word ch % 2 ^ 16 ∧ t.get (R.THM_CHAN_hi ch) = word ch / 2 ^ 16 % 2 ^ 16 ∧
        (t.bit (R.THM_CHAN_lo_missing ch) = true ↔ outside ch (word ch % 2 ^ 16)) ∧
        (t.bit (R.THM_CHAN_hi_missing ch) = true ↔ outside ch (word ch / 2 ^ 16 % 2 ^ 16))) ∧
      (s.diesOff = false → ∀ c < 128,
        let ls := (List.range 4).map fun h => g (128 + c / 16 * 8 + quadrant c * 2 + h / 2) (h % 2)
        let worst := ls.any fun x => x.missing || x.suspect
        t.bit (R.VLT_BAND_forced_worst c) = worst ∧
        t.get (R.VLT_BAND_band c) = (if worst then 3
          else bandAfter (!s.gov.banded) (s.get (R.VLT_BAND_band c)) ((ls.map fun x => x.v).foldl max (-32768)))) ∧
      (∀ x, roundMax s rs = some x → t.get R.THM_STATUS_t_max = (x.1 % 2 ^ 16).toNat ∧ t.get R.THM_STATUS_t_max_chan = x.2) ∧
      (let warm := fun (bit : Nat) (x : Option (Int × Nat)) (trip clear : Int) =>
         (∃ y, x = some y ∧ trip ≤ y.1) ∨ (s.gov.warned.testBit bit = true ∧ ∀ y, x = some y → clear < y.1)
       let warning := warm 0 (roundMax s rs) (95 * 16) (90 * 16) ∨ warm 1 (hottest (gddrOver g)) (95 * 16) (90 * 16) ∨
         warm 2 (hottest (stageOver g)) (115 * 16) (110 * 16)
       s.gov.warned < 8 → (t.bit R.THM_STATUS_warning = true ↔ warning) ∧ (t.bit (R.EVC_ROUTE_asserted 0x712) = true ↔ warning)) ∧
      ((g 208 0).missing = false ∧ 16 * (s.get R.THM_COOL_CFG_inlet_max : Int) < (g 208 0).v ∨
          (∃ f, roundFlow s rs = some f ∧ f < s.get R.THM_COOL_CFG_flow_min) →
        t.bit R.THM_STATUS_cooling_degraded = true ∧ t.bit (R.EVC_ROUTE_asserted 0x714) = true) ∧
      (s.fwRuns = true → s.diesOff = false → noTrip s rs → ∀ c < 128, s.cellRetired c = false →
        let round := s.get R.THM_STATUS_round
        t.get (R.THM_SOUND_made_round c) = (round + 1) % 2 ^ (R.THM_SOUND_made_round c).w ∧
        ∀ x, usedCell g c = some x → (g 208 0).missing = false → round + 1 < 2 ^ R.THM_STATUS_round.w →
          let share := (Config.approach (round + 1) c (s.get R.THM_SOUND_CFG_horizon_ms) % 65537 : Nat)
          t.get (R.THM_SOUND_logic_pred c) =
            ((x + ((g 208 0).v + Config.heatRise (round + 1) c 0 - x) * share / 65536) % 2 ^ 16).toNat)

/-- The thermal shutdown of a round, and the throttle causes, request and levels (R487–R492). -/
def Sys2Proof.Claims.HousekeepingGovernor : Prop :=
  ∀ (rs : List (BitVec 32)) (s : State), s.power = .on →
    let g := s.reading rs
    let now := max s.now (s.gov.roundAt + 1000000)
    let limit := s.get R.PWR_LIMIT_limit_w
    let forced := noKind g s.diesOff = true
    let peak := s.gov.standing.testBit 2 = true
    let flowOut := roundFlow s rs = none ∨ ∃ f, roundFlow s rs = some f ∧ f < 1000 ∧ lasts s.gov.flowLow now 100000000
    let temp := forced ∨ (∃ x, roundMax s rs = some x ∧ 102 * 16 ≤ x.1) ∨
      (s.gov.standing.testBit 0 = true ∧ ∀ x, roundMax s rs = some x → 97 * 16 < x.1)
    let lv := s.get R.PWR_THROTTLE_level
    let calm := noTrip s rs ∧ s.gov.standing < 16
    let newTemp := temp ∧ s.gov.standing.testBit 0 = false
    let newLimit := powerOver s rs limit ∧ s.gov.standing.testBit 1 = false
    let newFlow := flowOut ∧ s.gov.standing.testBit 3 = false
    (∀ x, roundMax s rs = some x → 112 * 16 ≤ x.1 → s.bit R.THM_SHUTDOWN_latched = false → yields (.housekeepingRound rs) s fun t =>
      t.bit R.THM_SHUTDOWN_latched = true ∧ t.get R.THM_SHUTDOWN_cause = 1 ∧ t.get R.THM_SHUTDOWN_chan = x.2 ∧
      t.get R.THM_SHUTDOWN_reading = (x.1 % 2 ^ 16).toNat ∧ t.get R.PWR_STATE_state = 3 ∧ t.bit (R.EVC_ROUTE_asserted 0x713) = true ∧
      (∀ y ∈ t.cmds, y.phase = 2) ∧ (∀ y ∈ s.cmds, y.phase ≠ 2 → ∃ z ∈ t.cmds, z.id = y.id ∧ z.status = ST_SHUTDOWN) ∧
      (∀ a, t.memAt a = 0) ∧ (∀ k < 65536, t.cacheAt k = []) ∧ (∀ l < 48, t.gwUp l = false)) ∧
    (calm → (newTemp ∨ newLimit ∨ newFlow) → s.bit R.PWR_THROTTLE_request = false → yields (.housekeepingRound rs) s fun t =>
      let timed := (newTemp ∨ newLimit) ∧ ¬forced
      t.bit R.PWR_THROTTLE_request = true ∧ t.bit (R.EVC_ROUTE_asserted 0x711) = true ∧
      t.get R.PWR_COUNTS_requests = min (s.get R.PWR_COUNTS_requests + 1) (2 ^ R.PWR_COUNTS_requests.w - 1) ∧
      (newTemp → powers s rs ≠ [] → t.get R.PWR_LIMIT_target_w =
        max 1000 (min (85 * (powers s rs).sum / (100 * (powers s rs).length) / 10 * 10) limit)) ∧
      (¬newTemp → t.get R.PWR_LIMIT_target_w = limit) ∧
      (timed → t.bit R.PWR_THROTTLE_grace = true ∧ t.gov.graceEnd = some (now + s.get R.THM_GRACE_grace_ms * 1000000)) ∧
      (forced ∨ newFlow → t.get R.PWR_THROTTLE_level = 3 ∧ (lv ≠ 3 → enforced 3 t))) ∧
    (calm → lv = 0 → ¬forced → ¬newFlow → ¬newTemp → ¬newLimit → s.gov.graceEnd = none → s.bit R.PWR_THROTTLE_request = true →
      let stands := temp ∨ powerOver s rs limit ∨ peak ∨ flowOut
      (¬stands → yields (.housekeepingRound rs) s fun t => noRequest t ∧ t.get R.PWR_THROTTLE_level = 0) ∧
      (stands → powerOver s rs (s.get R.PWR_LIMIT_target_w) → yields (.housekeepingRound rs) s (enforced 1)) ∧
      (stands → ¬powerOver s rs (s.get R.PWR_LIMIT_target_w) → yields (.housekeepingRound rs) s fun t =>
        t.bit R.PWR_THROTTLE_request = true ∧ t.get R.PWR_THROTTLE_level = 0)) ∧
    (calm → 0 < lv → ¬forced → ¬newFlow →
      let hot := (∃ x, roundMax s rs = some x ∧ 102 * 16 ≤ x.1) ∨ powerOver s rs limit
      let cool := (∃ x, roundMax s rs = some x ∧ x.1 ≤ 97 * 16) ∧ 10 * (powers s rs).sum ≤ 9 * limit * (powers s rs).length ∧
        s.book100 ≤ 90 * limit ∧ (∃ f, roundFlow s rs = some f ∧ 2500 ≤ f) ∧ ¬peak
      let rises := hot ∧ max (s.gov.hotSince.getD now) s.gov.levelAt + 10000000 ≤ now
      let falls := cool ∧ max (s.gov.coolSince.getD now) s.gov.levelAt + 50000000 ≤ now
      (rises → lv < 3 → yields (.housekeepingRound rs) s (enforced (lv + 1))) ∧
      (falls → yields (.housekeepingRound rs) s fun t => enforced (lv - 1) t ∧ (lv = 1 → noRequest t)) ∧
      (¬(rises ∧ lv < 3) → ¬falls → yields (.housekeepingRound rs) s fun t => t.get R.PWR_THROTTLE_level = lv))

/-- The end of the grace time, and the fast loop on the input power (R483, R490). -/
def Sys2Proof.Claims.ThrottleTimers : Prop :=
  ∀ (p : BitVec 16) (s : State), s.power ≠ .off →
    (∀ e, s.gov.graceEnd = some e → yields .graceExpiry s fun t =>
      t.now = max s.now e ∧ t.gov.graceEnd = none ∧ t.bit R.PWR_THROTTLE_grace = false ∧ t.get R.PWR_THROTTLE_grace_left_ms = 0 ∧
      (s.gov.standing ≠ 0 → s.get R.PWR_THROTTLE_level = 0 → s.bit R.PWR_THROTTLE_request = true →
        if s.govAbove (s.get R.PWR_LIMIT_target_w) then enforced 1 t else t.get R.PWR_THROTTLE_level = 0) ∧
      (s.gov.standing = 0 ∨ s.get R.PWR_THROTTLE_level ≠ 0 → keepsRegs [R.PWR_THROTTLE] s t ∧ changesOnly [.now, .gov, .regs] s t)) ∧
    (s.gov.graceEnd = none → yields .graceExpiry s (changesOnly [] s)) ∧
    (s.gov.standing < 16 → let now := (s.now / 10000 + 1) * 10000
      let peak := 3000 < p.toNat ∧ lasts s.gov.over3000 now 20000 ∨ 2600 < p.toNat ∧ lasts s.gov.over2600 now 10000000
      let was := s.gov.standing.testBit 2
      yields (.fastLoopSample p) s fun t =>
        t.now = now ∧ t.gov.over3000 = (if 3000 < p.toNat then some (s.gov.over3000.getD now) else none) ∧
        t.gov.over2600 = (if 2600 < p.toNat then some (s.gov.over2600.getD now) else none) ∧
        (t.gov.standing.testBit 2 = true ↔ peak) ∧
        (peak → was = false → (t.get R.PWR_THROTTLE_level = 3 ∧ (s.get R.PWR_THROTTLE_level ≠ 3 → enforced 3 t)) ∧
          t.bit R.PWR_THROTTLE_request = true ∧ t.get R.PWR_THROTTLE_causes / 4 % 2 = 1 ∧
          t.get R.PWR_COUNTS_peak_events = min (s.get R.PWR_COUNTS_peak_events + 1) (2 ^ R.PWR_COUNTS_peak_events.w - 1) ∧
          (s.bit R.PWR_THROTTLE_request = false → t.get R.PWR_LIMIT_target_w = s.get R.PWR_LIMIT_limit_w)) ∧
        (¬peak ∨ was = true → changesOnly [.now, .gov] s t))

/-- Thermal shutdown, throttle causes, requests and levels, the grace time and the fast loop. -/
def Obligations.HousekeepingControl : Prop := Claims.HousekeepingGovernor ∧ Claims.ThrottleTimers

namespace Sys2Proof.Claims
open Sys2Proof.Machine

/-- A request at the management port is answered with these fields and does nothing else. -/
def mgmtSays (fields : List Nat) (s t : State) : Prop := t.out = .mgmtReply fields :: s.out ∧ changesOnly [.out] s t

/-- A temperature of a channel in °C, rounded down, as a 16-bit pattern; a missing one is unavailable (answer 1). -/
def tempAnswer (missing : Bool) (v : Nat) : List Nat :=
  if missing then [1] else [0, (((v : Int) - if v < 2 ^ 15 then 0 else 2 ^ 16) / 16 % 2 ^ 16).toNat]

/-- The value of a channel's reading, signed. -/
def chanValue (v : Nat) : Int := (v : Int) - if v < 2 ^ 15 then 0 else 2 ^ 16

/-- The ports hold no key, the wipe has been counted, and LCY_STATE shows no keys. -/
def wiped (s t : State) : Prop :=
  t.pmKeyAt 0 = [] ∧ t.pmKeyAt 1 = [] ∧ t.bit R.LCY_STATE_keys_loaded = false ∧
  t.get R.LCY_STATE_wipes = min (s.get R.LCY_STATE_wipes + 1) (2 ^ R.LCY_STATE_wipes.w - 1)

end Sys2Proof.Claims

/-- The management port: its control messages, the sensors, the vendor-defined commands and the resends of event messages. -/
def Obligations.ManagementPort : Prop :=
  ∀ (eid first8 count8 : BitVec 8) (id : BitVec 16) (k : Nat) (first : BitVec 32) (s : State), s.power ≠ .off →
    let up := s.power = .on ∨ s.power = .s0Failed
    let answered := fun (f : List Nat) => mgmtSays f s
    let bytes := fun (bs : List Byte) => bs.map fun b => b.toNat
    let rows : List Instr := [.pldmRequest (.setEndpoint eid), .pldmRequest .getEndpoint, .pldmRequest .messageTypes, .pldmRequest .pldmTypes,
      .pldmRequest (.sensor id), .pldmRequest .otherPldm, .pldmRequest (.eventAck k), .mgmtDispatchRead first count8, .replaceRead,
      .soundingRead first8 count8, .mgmtWarmReset, .mgmtStatus]
    (¬up → ∀ c ∈ rows, yields c s (changesOnly [] s)) ∧
    (up →
      (yields (.pldmRequest (.setEndpoint eid)) s fun t => t.eid = eid.toNat ∧ t.out = .mgmtReply [0, eid.toNat] :: s.out ∧ changesOnly [.eid, .out] s t) ∧
      yields (.pldmRequest .getEndpoint) s (answered [0, s.eid]) ∧ yields (.pldmRequest .messageTypes) s (answered [0, 0, 1, 0x7E]) ∧
      yields (.pldmRequest .pldmTypes) s (answered [0, 0, 2]) ∧ yields (.pldmRequest .otherPldm) s (answered [2]) ∧
      (yields (.pldmRequest (.eventAck k)) s fun t => t.mgmtQ = s.mgmtQ.take k ++ s.mgmtQ.drop (k + 1) ∧ changesOnly [.mgmtQ] s t) ∧
      yields (.pldmRequest (.sensor 0x0001)) s (answered (tempAnswer false (s.get R.THM_STATUS_t_max))) ∧
      yields (.pldmRequest (.sensor 0x0002)) s (answered [0, s.get R.PWR_INPUT_p_in]) ∧
      yields (.pldmRequest (.sensor 0x0003)) s (answered (tempAnswer (s.bit (R.THM_CHAN_lo_missing 208)) (s.get (R.THM_CHAN_lo 208)))) ∧
      yields (.pldmRequest (.sensor 0x0004)) s (answered (tempAnswer (s.bit (R.THM_CHAN_hi_missing 208)) (s.get (R.THM_CHAN_hi 208)))) ∧
      yields (.pldmRequest (.sensor 0x0005)) s (answered [0, s.get R.THM_COOL_flow_ml]) ∧
      (∀ ch < 242, ch ≠ 209 → id.toNat = 0x1000 + ch →
        let lo := s.get (R.THM_CHAN_lo ch)
        let hi := s.get (R.THM_CHAN_hi ch)
        let noLo := s.bit (R.THM_CHAN_lo_missing ch)
        let noHi := s.bit (R.THM_CHAN_hi_missing ch)
        yields (.pldmRequest (.sensor id)) s (answered (
          if 218 ≤ ch then (if noHi then [1] else [0, hi * 10])
          else if noLo ∧ noHi then [1]
          else [0, if noLo ∨ (¬noHi ∧ chanValue lo < chanValue hi) then hi else lo]))) ∧
      yields (.pldmRequest (.sensor 0x2001)) s (answered [0, s.powerState]) ∧
      yields (.pldmRequest (.sensor 0x2002)) s (answered [0, s.get R.PWR_THROTTLE_level]) ∧
      yields (.pldmRequest (.sensor 0x2003)) s (answered [0, s.get R.THM_STATUS_cooling_degraded]) ∧
      yields (.pldmRequest (.sensor 0x2004)) s (answered [0, if s.get R.SVC_REPLACE_flags = 0 then 0 else 1]) ∧
      yields (.pldmRequest (.sensor 0x2005)) s (answered [0, s.get R.LCY_STATE_state]) ∧
      (¬(1 ≤ id.toNat ∧ id.toNat ≤ 5) → ¬(0x1000 ≤ id.toNat ∧ id.toNat < 0x1100) → ¬(0x2001 ≤ id.toNat ∧ id.toNat ≤ 0x2005) →
        yields (.pldmRequest (.sensor id)) s (answered [2])) ∧
      (let count := count8.toNat
       let n := min count (s.get R.SVC_DISPATCH_HEAD_next - first.toNat)
       yields (.mgmtDispatchRead first count8) s (answered (
         if count = 0 ∨ 8 < count then [ST_BAD_ARG]
         else ST_OK :: bytes ((List.range n).flatMap fun i => s.dispatchRecord (first.toNat + i))))) ∧
      yields .replaceRead s (answered (ST_OK :: bytes (toLE 8 (s.regsAt R.SVC_REPLACE).toNat ++ toLE 8 (s.regsAt R.SVC_REPLACE_LAST).toNat))) ∧
      (let f := first8.toNat
       let n := count8.toNat
       yields (.soundingRead first8 count8) s (answered (
         if s.fwRuns = false then [ST_BUSY] else if n = 0 ∨ 16 < n ∨ 128 < f + n then [ST_BAD_ARG]
         else ST_OK :: bytes ((List.range n).flatMap fun i => toLE 8 (s.regsAt (R.THM_SOUND (f + i))).toNat)))) ∧
      (s.bit R.THM_SHUTDOWN_latched = false → yields .mgmtWarmReset s fun t =>
        t.resetAt = some (s.resetAt.getD s.now) ∧ t.out = .mgmtReply [ST_OK] :: s.out ∧ changesOnly [.resetAt, .out] s t) ∧
      (s.bit R.THM_SHUTDOWN_latched = true → yields .mgmtWarmReset s (answered [ST_SHUTDOWN])) ∧
      yields .mgmtStatus s (answered [ST_OK, s.stageNow, s.powerState,
        if s.bit (R.HIF_TOKEN_held 0) then s.get (R.HIF_TOKEN_holder 0) else 0xFF, s.mgmtDropped])) ∧
    (∀ m, s.mgmtQ[k]? = some m → yields (.mgmtEventRetry k) s fun t =>
      let now := max s.now m.due
      t.now = now ∧
      (if m.resent < 3 then t.mgmtQ = s.mgmtQ.set k { m with resent := m.resent + 1, due := now + 1000000000 } ∧
        t.out = .mgmtEvent m.source m.edge :: s.out ∧ t.mgmtDropped = s.mgmtDropped
      else t.mgmtQ = s.mgmtQ.take k ++ s.mgmtQ.drop (k + 1) ∧ t.out = s.out ∧ t.mgmtDropped = s.mgmtDropped + 1) ∧
      changesOnly [.now, .mgmtQ, .mgmtDropped, .out] s t)

/-- Tamper detections and the repeated wipe, and a firmware whose heartbeat has stopped (R425, R435). -/
def Obligations.TamperAndHeartbeat : Prop :=
  ∀ (source : Fin 3) (s : State), s.power ≠ .off →
    let fired := fun (t : State) => t.get R.EVC_COUNTS_fired = min (s.get R.EVC_COUNTS_fired + 1) (2 ^ R.EVC_COUNTS_fired.w - 1)
    let latch := if source.val = 0 then R.LCY_TAMPER_voltage else if source.val = 1 then R.LCY_TAMPER_clock else R.LCY_TAMPER_enclosure
    let keys := [R.LCY_STATE, R.LCY_TAMPER]
    (source.val < 2 ∨ s.get R.LCY_STATE_state ≠ 0 → yields (.tamperDetect source) s fun t =>
      wiped s t ∧ t.tampered = true ∧ t.bit latch = true ∧ (source.val = 2 → t.bit R.LCY_TAMPER_input_level = true) ∧ fired t ∧
      (∀ d < 3, s.evRouted d 0x70B = true → t.evPending d 0x70B = true) ∧
      (Out.mgmtEvent 0x70B (s.get R.TIDE_EDGE_NUM_edge)) ∈ t.out ∧ t.get R.LCY_STATE_state = s.get R.LCY_STATE_state ∧
      keepsQuiet keys s t ∧ changesOnly [.regs, .pmKey, .tampered, .msix, .mgmtQ, .out] s t) ∧
    (source.val = 2 → s.get R.LCY_STATE_state = 0 → yields (.tamperDetect source) s fun t =>
      t.bit R.LCY_TAMPER_input_level = true ∧ keepsRegs [R.LCY_TAMPER] s t ∧ changesOnly [.regs] s t) ∧
    (s.bit R.LCY_TAMPER_input_level = true →
      (s.get R.LCY_STATE_state ≠ 0 → yields (.tamperRewipe true) s fun t =>
        wiped s t ∧ keepsRegs [R.LCY_STATE] s t ∧ changesOnly [.regs, .pmKey] s t) ∧
      (s.get R.LCY_STATE_state = 0 → yields (.tamperRewipe true) s (changesOnly [] s)) ∧
      (yields (.tamperRewipe false) s fun t =>
        t.bit R.LCY_TAMPER_input_level = false ∧ keepsRegs [R.LCY_TAMPER] s t ∧ changesOnly [.regs] s t)) ∧
    (s.get (R.FW_CORE_state 0) ≠ 0 → yields .heartbeatTimeout s fun t =>
      fired t ∧ (∀ d < 3, s.evRouted d 0x706 = true → t.evPending d 0x706 = true) ∧ eventsOnly s t) ∧
    (s.get (R.FW_CORE_state 0) = 0 → yields .heartbeatTimeout s (changesOnly [] s))

namespace Sys2Proof.Claims
open Sys2Proof.Machine

/-- The time at which work of `us` µs in the stage under way ends. -/
def workEnds (s : State) (us : Nat) : Nat := max s.now (s.stageAt + us * 1000)

/-- Stage `k` is under way, work of `us` µs ends within its limit (R417), and the dispatch log has room to count on. -/
def inTime (s : State) (k us : Nat) : Prop :=
  s.inStage = true ∧ s.stageNow = k ∧ (∀ e, s.stageEnds k = some e → workEnds s us ≤ e) ∧ s.get R.SVC_DISPATCH_HEAD_next < 2 ^ 31

/-- The latest record of the dispatch log (R420). -/
def latestIs (t : State) (stage kind result detail unit value a b : Nat) : Prop :=
  let i := t.get R.SVC_DISPATCH_HEAD_next - 1
  0 < t.get R.SVC_DISPATCH_HEAD_next ∧ t.dispatchLogAt (i % 1024) = toLE 4 i ++ toLE 1 stage ++ toLE 1 kind ++ toLE 1 result ++ toLE 1 0 ++ toLE 2 detail ++
    toLE 2 unit ++ toLE 4 value ++ toLE 4 a ++ toLE 4 b ++ toLE 4 t.boot ++ toLE 4 0

/-- Stage `k` has closed with ST_OK at the time its work ended, and the next stage is under way (R417). -/
def stageClosed (k us a b : Nat) (s t : State) : Prop :=
  t.now = workEnds s us ∧ t.stageAt = t.now ∧ t.power = .on ∧ t.stageNow = k + 1 ∧ t.bit R.FW_STAGE_failed = false ∧
  t.get R.FW_STAGE_status = ST_OK ∧ latestIs t k 0 ST_OK 0 0xFFFF ((workEnds s us - s.stageAt) / 1000) a b

/-- Bring-up has stopped in stage `k` with a result and a detail (R418, R422). -/
def stageStopped (k result detail unit a b at_ : Nat) (s t : State) : Prop :=
  t.now = at_ ∧ t.inStage = false ∧ t.ready = false ∧ (if k = 0 then t.power = .s0Failed else t.power = .on ∧ t.stageNow = k ∧ t.bit R.FW_STAGE_failed = true) ∧
  t.get R.FW_STAGE_status = result ∧ t.get R.FW_STAGE_detail = detail ∧
  latestIs t k 0 result detail unit ((at_ - s.stageAt) / 1000) a b

/-- Everything that outlives the loss of power is as before: the service flash and the fuses (R481). -/
def flashKept (s t : State) : Prop :=
  t.dispatchFlash = s.dispatchFlash ∧ t.remapFlash = s.remapFlash ∧ t.replaceFlash = s.replaceFlash ∧ t.fuseLcy = s.fuseLcy ∧ t.boot = s.boot ∧
  (∀ k < 6, t.franksAt k = s.franksAt k) ∧ (∀ p < 2, t.pmFlashAt p = s.pmFlashAt p ∧ t.pmMarkAt p = s.pmMarkAt p)

/-- Power-on reset: every register at its reset value, every memory content lost, no work, no command. -/
def poweredClear (s t : State) : Prop :=
  (∀ k, t.regsAt k = regReset k) ∧ (∀ a, t.memAt a = 0) ∧ t.cmds = [] ∧ t.chart = [] ∧ t.chartLive = [] ∧ t.ready = false ∧ t.tampered = false ∧
  t.mgmtQ = [] ∧ t.resetAt = none ∧ (∀ k < 65536, t.cacheAt k = []) ∧ (∀ p < 2, t.pmKeyAt p = []) ∧ flashKept s t

/-- The registers' share of a warm reset (R7): the AON domain keeps its values, sticky fields keep theirs, every other field takes its
reset value. -/
def warmFields (s t : State) : Prop :=
  ∀ k c n r, specAt k = some (c, n, r) → ∀ f ∈ r.fields, bitsOf f (t.regsAt k) =
    if r.dom = .aon ∨ f.stk = true then bitsOf f (s.regsAt k) else bitsOf f (regReset k)

end Sys2Proof.Claims

/-- Power applied and lost, and the warm reset (R7, R418, R436, R498, R500). -/
def Obligations.PowerAndReset : Prop :=
  ∀ s : State,
    (s.power = .off → yields .powerApply s fun t =>
      t.power = .s0 ∧ t.now = s.now + 10000000 ∧ t.stageAt = t.now ∧ poweredClear s t) ∧
    (s.power ≠ .off → yields .powerApply s (changesOnly [] s)) ∧
    (let lost := fun (d : Nat) (t : State) => t.power = .off ∧ t.now = s.now + d ∧ poweredClear s t
     (s.power = .on → yields .inputUndervoltage s (lost 1000000) ∧ yields .inputOvervoltage s (lost 10000)) ∧
     (s.power ≠ .on → yields .inputUndervoltage s (changesOnly [] s) ∧ yields .inputOvervoltage s (changesOnly [] s)) ∧
     (s.power ≠ .off → yields .inputPowerRemoved s (lost 0))) ∧
    (∀ t0, s.power ≠ .off → s.resetAt = some t0 →
      let at_ := max s.now (t0 + 1000000)
      let reset := fun (t : State) => t.now = at_ ∧ t.stageAt = at_ ∧ t.power = s.power ∧ t.cmds = [] ∧ t.chart = [] ∧ t.chartLive = [] ∧
        t.ready = false ∧ t.resetAt = none ∧ (∀ p < 2, t.pmKeyAt p = []) ∧ (∀ k, t.shadowsAt k = none) ∧ (∀ a, t.memAt a = s.memAt a) ∧
        (∀ k < 1024, t.qeQAt k = [] ∧ t.buQAt k = []) ∧ t.tampered = s.tampered ∧ t.mgmtQ = s.mgmtQ
      (s.bit R.THM_SHUTDOWN_latched = true → yields .warmReset s fun t => t.resetAt = none ∧ changesOnly [.resetAt] s t) ∧
      (s.bit R.THM_SHUTDOWN_latched = false → s.ready = true ∨ s.bit R.FW_STAGE_failed = true → s.wf = true → yields .warmReset s fun t =>
        reset t ∧ warmFields s t ∧ t.dispatchLog = s.dispatchLog) ∧
      (s.bit R.THM_SHUTDOWN_latched = false → s.ready = false → s.bit R.FW_STAGE_failed = false → s.get R.SVC_DISPATCH_HEAD_next < 2 ^ 31 →
        s.wf = true → yields .warmReset s fun t => reset t ∧ t.get R.SVC_DISPATCH_HEAD_next = s.get R.SVC_DISPATCH_HEAD_next + 1 ∧
          latestIs t s.stageNow 0 ST_ABORTED 0x00FE 0xFFFF ((at_ - s.stageAt) / 1000) 0 0)) ∧
    (s.power ≠ .off → s.resetAt = none → yields .warmReset s (changesOnly [] s))

/-- The stages S0 to S3, and a stage that exceeds its limit. -/
def Sys2Proof.Claims.BringUpFirst : Prop :=
  ∀ (us0 : BitVec 18) (us1 : BitVec 16) (mv flow corrected : BitVec 32) (rail : Option (Fin 24)) (block word : Option (BitVec 16)) (s : State),
    (inTime s 0 us0.toNat → let stops := fun (d unit a : Nat) => stageStopped 0 ST_STAGE_FAIL d unit a 0 (workEnds s us0.toNat) s
      let badVolts := mv.toNat < 40000 ∨ 48000 < mv.toNat
      (badVolts → yields (.stageS0 us0 mv rail flow) s (stops 0x0001 0xFFFF mv.toNat)) ∧
      (¬badVolts → ∀ r, rail = some r → yields (.stageS0 us0 mv rail flow) s (stops 0x0002 r 0)) ∧
      (¬badVolts → rail = none → flow.toNat < 2500 → yields (.stageS0 us0 mv rail flow) s (stops 0x0003 0xFFFF flow.toNat)) ∧
      (¬badVolts → rail = none → 2500 ≤ flow.toNat → s.get R.FW_STAGE_stage = 1 → s.bit R.FW_STAGE_failed = false →
        yields (.stageS0 us0 mv rail flow) s (stageClosed 0 us0.toNat mv.toNat flow.toNat s))) ∧
    (inTime s 1 us1.toNat → let at_ := workEnds s us1.toNat
      let boot := fun (t : State) => t.boot = s.boot + 1 ∧ (s.boot + 1 < 2 ^ 32 → t.get R.FW_STAGE_boot = s.boot + 1)
      (∀ b, block = some b → yields (.stageS1 us1 block word corrected) s fun t => stageStopped 1 ST_STAGE_FAIL 0x0102 b.toNat 0 0 at_ s t ∧ boot t) ∧
      (∀ w, block = none → word = some w → yields (.stageS1 us1 block word corrected) s fun t =>
        stageStopped 1 ST_STAGE_FAIL 0x0101 w.toNat 0 0 at_ s t ∧ boot t) ∧
      (block = none → word = none → (∀ k, 1 ≤ k → k ≤ 5 → s.franksAt k = [] ∨ frankStatus (s.franksAt k) = ST_OK) →
        yields (.stageS1 us1 block word corrected) s fun t =>
          let held := (List.range 5).filter fun i => !(s.franksAt (i + 1)).isEmpty
          stageClosed 1 us1.toNat held.length corrected.toNat s t ∧ boot t ∧ t.get R.LCY_STATE_state = s.fuseLcy % 2 ^ R.LCY_STATE_state.w ∧
          t.bit R.LCY_TAMPER_armed = (s.fuseLcy != 0) ∧ (∀ p < 2, t.get (R.HIF_PM_LAST_counter p) = s.pmMarkAt p % 2 ^ 64) ∧
          t.get R.GWL_AGG_franked = t.get R.LIC_FEATURES_links ∧
          (s.franksAt 1 = [] → t.get R.LIC_FEATURES_links = 16) ∧ (s.franksAt 2 = [] → t.get R.LIC_FEATURES_ext_gib = 36) ∧
          (s.franksAt 4 = [] → t.get R.LIC_FEATURES_min_tide_us = 1000))) ∧
    (s.linkUp 0 = true → s.linkUp 1 = true → inTime s 2 0 → s.stageAt ≤ s.now → yields .stageS2 s fun t =>
      stageClosed 2 0 (s.linkBits 0) (s.linkBits 1) s t) ∧
    (¬(s.linkUp 0 = true ∧ s.linkUp 1 = true) → s.power ≠ .off → yields .stageS2 s (changesOnly [] s)) ∧
    (∀ st rev, s.hello = some (st, rev) → inTime s 3 0 → s.stageAt ≤ s.now → let holder := s.get (R.HIF_TOKEN_holder 0)
      (st = ST_OK → s.get R.LCY_STATE_state ≠ 5 → yields .stageS3 s (stageClosed 3 0 (s.get R.FW_LOAD_STATUS_length) holder s)) ∧
      (st = ST_OK → s.get R.LCY_STATE_state = 5 → yields .stageS3 s fun t => t.inStage = false ∧ t.stageNow = 4 ∧
        t.bit R.FW_STAGE_failed = true ∧ t.get R.FW_STAGE_status = ST_LIFECYCLE) ∧
      (st ≠ ST_OK → yields .stageS3 s fun t => t.inStage = false ∧ t.stageNow = 3 ∧ t.bit R.FW_STAGE_failed = true ∧
        t.get R.FW_STAGE_status = ST_FW_INTERFACE ∧ latestIs t 3 0 ST_FW_INTERFACE 0x0302 holder rev 0 0)) ∧
    (∀ e, s.inStage = true → s.get R.SVC_DISPATCH_HEAD_next < 2 ^ 31 → s.stageEnds s.stageNow = some e → let k := s.stageNow
      let at_ := max s.now e
      (k ≠ 2 → k ≠ 3 → yields .stageLimitExpiry s (stageStopped k ST_STAGE_FAIL 0x00FF 0xFFFF 0 0 at_ s)) ∧
      (k = 3 → yields .stageLimitExpiry s (stageStopped 3 ST_TIMEOUT 0x0303 (s.get (R.HIF_TOKEN_holder 0)) 0 0 at_ s)) ∧
      (k = 2 → s.linkUp 0 = false → s.linkUp 1 = false → yields .stageLimitExpiry s
        (stageStopped 2 ST_STAGE_FAIL 0x0202 0xFFFF (s.linkBits 0) (s.linkBits 1) at_ s)) ∧
      (k = 2 → s.linkUp 0 ≠ s.linkUp 1 → yields .stageLimitExpiry s fun t =>
        t.stageNow = 3 ∧ t.inStage = true ∧ t.now = at_ ∧ latestIs t 2 0 ST_OK 0 0xFFFF ((at_ - s.stageAt) / 1000) (s.linkBits 0) (s.linkBits 1) ∧
        t.get R.SVC_DISPATCH_HEAD_next = s.get R.SVC_DISPATCH_HEAD_next + 2))

/-- The stages S4 to S9. -/
def Sys2Proof.Claims.BringUpLast : Prop :=
  ∀ (us4 : BitVec 19) (us5 us9 : BitVec 16) (us6 : BitVec 20) (us7 : BitVec 17) (us8 : BitVec 22) (dls : List DlTrain) (gws : List GwTrain)
      (vrows : List (Fin 1024 × Fin 16 × Fin 3072)) (bins : List (Fin 24 × Fin 4)) (grows : List (Fin 24 × Fin 16 × BitVec 17))
      (fails : List (Fin 128 × Fin 5)) (s : State),
    (inTime s 4 us4.toNat → yields (.stageS4 us4 dls) s fun t =>
      let usable := ∀ d < 8, ∃ m < 6, t.dlUp (d * 6 + m) = true
      (∀ i < 48, s.regBit R.SVC_RETIRED_DL i = true → t.dl i = 7) ∧
      (∀ i : Fin 48, s.regBit R.SVC_RETIRED_DL i = false → (∀ x ∈ dls, x.module ≠ i) → s.dlForced i = false → t.dl i = 2) ∧
      (usable → t.stageNow = 5 ∧ t.inStage = true ∧ (∃ b, latestIs t 4 0 ST_OK 0 0xFFFF ((workEnds s us4.toNat - s.stageAt) / 1000)
        ((List.range 48).filter fun i => t.dl i == 2).length b) ∧ ∀ (c : Fin 128) (o : Nat), o < 0x380000 → t.memAt (sramAddr c o) = 0) ∧
      (¬usable → t.inStage = false ∧ t.stageNow = 4 ∧ t.get R.FW_STAGE_status = ST_STAGE_FAIL ∧ t.get R.FW_STAGE_detail = 0x0402)) ∧
    (inTime s 5 us5.toNat → let entry := Config.fuseSteer.length + (s.remapFlash.filter fun r => decide (r.unit < 1024)).length
      (vrows = [] → yields (.stageS5 us5 vrows) s fun t => stageClosed 5 us5.toNat entry 0 s t ∧ t.remapFlash = s.remapFlash ∧
        ∀ a < 0xC00000000, t.memAt a = 0) ∧
      (yields (.stageS5 us5 vrows) s fun t =>
        (t.stageNow = 6 ∧ t.inStage = true ∧ t.remapFlash.length = s.remapFlash.length + vrows.length ∧
          t.remapFlash.take s.remapFlash.length = s.remapFlash ∧
          ((t.remapFlash.drop s.remapFlash.length).map fun r => (r.unit, r.bank, r.row)) = vrows.map fun x => (x.1.val, x.2.1.val, x.2.2.val)) ∨
        (∃ x ∈ vrows, t.stageNow = 5 ∧ t.inStage = false ∧ t.regBit R.SVC_REPLACE 9 = true ∧
          latestIs t 5 0 ST_STAGE_FAIL 0x0501 x.1 x.2.2 x.2.1 0))) ∧
    (inTime s 6 us6.toNat → let binAt := fun (g : Nat) => match bins.find? fun b => b.1.val == g with | some b => b.2.val | none => 3
      (∀ g < 24, binAt g = 0 → (∀ h < g, binAt h ≠ 0) → yields (.stageS6 us6 bins grows) s
        (stageStopped 6 ST_STAGE_FAIL 0x0601 g 0 0 (workEnds s us6.toNat) s)) ∧
      ((∀ g < 24, binAt g ≠ 0) → grows = [] → yields (.stageS6 us6 bins grows) s fun t =>
        let bin := (List.range 24).foldl (fun m g => min m (binAt g)) 3
        stageClosed 6 us6.toNat bin ((List.range 24).foldl (fun n g => n + t.get (R.GD_REMAP_STATUS_used g)) 0) s t ∧ t.get R.GD_CFG_bin = bin ∧
        (∀ g < 24, t.get (R.GD_STATUS_state g) = 1) ∧ ∀ a, isExt a = true → t.memAt a = 0)) ∧
    (inTime s 7 us7.toNat → yields (.stageS7 us7 fails) s fun t =>
      let up := ((List.range 128).filter fun c => !t.cellRetired c).length
      (∀ c : Fin 128, t.cellRetired c = (s.cellRetired c || fails.any fun x => x.1 == c)) ∧
      (120 ≤ up → t.stageNow = 8 ∧ t.inStage = true ∧ latestIs t 7 0 ST_OK 0 0xFFFF ((workEnds s us7.toNat - s.stageAt) / 1000) up (128 - up)) ∧
      (up < 120 → t.stageNow = 7 ∧ t.inStage = false ∧
        latestIs t 7 0 ST_STAGE_FAIL 0x0702 0xFFFF ((workEnds s us7.toNat - s.stageAt) / 1000) up 0)) ∧
    (inTime s 8 us8.toNat → yields (.stageS8 us8 gws) s fun t =>
      let le := t.get R.GWL_AGG_up_weight / 2
      let enough := 6 * t.get R.GWL_AGG_franked ≤ t.get R.GWL_AGG_up_weight
      (∀ l < 48, s.regBit R.SVC_RETIRED_LINK l = true → t.gl l = GL_RETIRED) ∧
      (∀ l < 48, s.regBit R.SVC_RETIRED_LINK l = false → s.get R.GWL_AGG_franked / 8 ≤ l % 6 → t.gl l = GL_OFF) ∧
      (enough → t.stageNow = 9 ∧ t.inStage = true ∧ latestIs t 8 0 ST_OK 0 0xFFFF ((workEnds s us8.toNat - s.stageAt) / 1000) le
        ((List.range 48).filter fun l => t.gwUp l).length) ∧
      (¬enough → t.stageNow = 8 ∧ t.inStage = false ∧ t.regBit R.SVC_REPLACE 5 = true ∧
        latestIs t 8 0 ST_STAGE_FAIL 0x0803 0xFFFF ((workEnds s us8.toNat - s.stageAt) / 1000) le (3 * t.get R.GWL_AGG_franked))) ∧
    (inTime s 9 us9.toNat → yields (.stageS9 us9) s fun t =>
      t.ready = true ∧ t.inStage = false ∧ t.now = workEnds s us9.toNat ∧
      latestIs t 9 0 ST_OK 0 0xFFFF ((workEnds s us9.toNat - s.stageAt) / 1000) 0 0 ∧
      t.get R.EVC_COUNTS_fired = min (s.get R.EVC_COUNTS_fired + 1) (2 ^ R.EVC_COUNTS_fired.w - 1) ∧
      ∀ d < 3, s.evRouted d 0x707 = true → t.evPending d 0x707 = true)

/-- The bring-up stages S0 to S9 close, or stop with the detail and the record of their failure. -/
def Obligations.BringUp : Prop := Claims.BringUpFirst ∧ Claims.BringUpLast

/-- The state after power-on reset: registers at the values that the spec states for reset, no command, no work, bring-up at S0. -/
def Obligations.ResetState : Prop :=
  let s := State.reset
  s.pending = [] ∧ s.cmds = [] ∧ s.chart = [] ∧ s.chartLive = [] ∧ s.power = .s0 ∧ s.stageNow = 0 ∧ s.ready = false ∧
  (∀ k, s.regsAt k = regReset k) ∧ (∀ a, s.memAt a = 0) ∧
  s.get R.PWR_LIMIT_limit_w = 2600 ∧ s.get R.THM_GRACE_grace_ms = 20 ∧ s.get R.TIDE_STATUS_state = 0 ∧ s.get R.CHT_STATUS_state = CHT_EMPTY ∧
  (∀ cls < 7, s.get (R.SVC_CE_CFG_window_s cls) = 3600) ∧
  ((List.range 7).map fun cls => s.get (R.SVC_CE_CFG_warn cls)) = [64, 256, 16, 16, 4, 4096, 1024] ∧
  ((List.range 7).map fun cls => s.get (R.SVC_CE_CFG_replace cls)) = [1024, 4096, 256, 256, 64, 65535, 65535] ∧
  (∀ d < 8, ∀ k < 48, s.hashOf d k = k % 6) ∧ (∀ u < 1024, s.get (R.BU_DUTY_duty (u / 8) (u % 8)) = 16) ∧
  (∀ p < 2, s.linkUp p = false ∧ s.bar2At p = 0 ∧ s.qpState p 0 = 0) ∧ (∀ c < 128, ∀ th < 16, s.thr c th = THR_PARKED)

/-- The pages that only the control cores and the management core write (R33). -/
def Obligations.ProtectedPages : Prop :=
  ∀ (who : Agent) (target : RegAt) (page off : Nat) (bs : List Byte) (n : Fin 17) (s : State),
    0x1000 ≤ page ∧ page ≤ 0x1002 ∨ 0x1007 ≤ page ∧ page ≤ 0x100C → names who target page off s → s.power ≠ .off →
    let trusted := who = .mgmt ∨ ∃ k, who = .core k
    (s.regStatus page off bs.length = ST_OK →
      (¬trusted → yields (.registerWrite who target bs) s (writeRefused who ST_PAGE_PROTECTED s)) ∧
      (trusted → yields (.registerWrite who target bs) s fun t =>
        ∃ st rest, t.out = .reply st (toLE 8 0) :: rest ∧ st ≠ ST_PAGE_PROTECTED)) ∧
    (s.regStatus page off n = ST_OK → yields (.registerRead who target n) s fun t =>
      ∃ v, v.length = n.val ∧ t.out = .reply ST_OK v :: s.out)

/-- What a host may write of the event collector's page (R441). -/
def Obligations.HostEventWrites : Prop :=
  ∀ (p : Fin 2) (target : RegAt) (off : Nat) (bs : List Byte) (src : Fin 2048) (dest : Fin 3) (s : State),
    (off < 0x10000 → ∃ x : BitVec 26, s.bar0At p x.toNat = .page 0x1003 off) ∧
    (s.power ≠ .off → names (.host p) target 0x1003 off s →
      (s.regStatus 0x1003 off bs.length = ST_OK → off / 8 ≠ 0x4300 / 8 → off / 8 ≠ 0x4308 / 8 →
        yields (.registerWrite (.host p) target bs) s (faultNoted p ST_PAGE_PROTECTED true false s)) ∧
      (off = 0x4300 → s.regStatus 0x1003 off 8 = ST_OK →
        yields (.registerWrite (.host p) target (toLE 8 src)) s fun t => yields (.evcSet src) s fun z => t = z) ∧
      (off = 0x4308 → s.regStatus 0x1003 off 8 = ST_OK → let value := toLE 8 (src + dest * 2 ^ 12)
        (dest.val = p.val + 1 → yields (.registerWrite (.host p) target value) s fun t =>
          yields (.evcEos (.host p) dest src) s fun z => t = z) ∧
        (dest.val ≠ p.val + 1 → yields (.registerWrite (.host p) target value) s (faultNoted p ST_PAGE_PROTECTED true false s))))
end

