-- ==== Sys2Proof/Laws/Map.lean ====
section
/-! SUPPORT. The laws of sparse stores: what a read after a write gives, and that every operation keeps the canonical
form. -/

namespace Sys2Proof.Machine

variable {α : Type}

theorem Map.get_erase_self (d : Nat → α) (k : Nat) (m : Map α) : Map.get d (Map.erase k m) k = d k := by
  induction m with
  | nil => rfl
  | cons e rest ih =>
    obtain ⟨a, v⟩ := e
    by_cases h : a = k
    · simp [Map.erase, h, ih]
    · simp [Map.erase, Map.get, h, ih]

theorem Map.get_erase_ne (d : Nat → α) {k j : Nat} (h : j ≠ k) (m : Map α) :
    Map.get d (Map.erase k m) j = Map.get d m j := by
  induction m with
  | nil => rfl
  | cons e rest ih =>
    obtain ⟨a, v⟩ := e
    by_cases ha : a = k
    · subst ha
      simp [Map.erase, Map.get, ih, Ne.symm h]
    · simp [Map.erase, Map.get, ha, ih]

theorem Map.get_place_self (d : Nat → α) (k : Nat) (v : α) (m : Map α) (h : ∀ e ∈ m, e.1 ≠ k) :
    Map.get d (Map.place k v m) k = v := by
  induction m with
  | nil => simp [Map.place, Map.get]
  | cons e rest ih =>
    obtain ⟨a, w⟩ := e
    have ha : a ≠ k := h (a, w) (by simp)
    have hr : ∀ e ∈ rest, e.1 ≠ k := fun e he => h e (by simp [he])
    by_cases hk : k < a
    · simp [Map.place, Map.get, hk]
    · simp [Map.place, Map.get, hk, ha, ih hr]

theorem Map.get_place_ne (d : Nat → α) {k j : Nat} (h : j ≠ k) (v : α) (m : Map α) :
    Map.get d (Map.place k v m) j = Map.get d m j := by
  induction m with
  | nil => simp [Map.place, Map.get, Ne.symm h]
  | cons e rest ih =>
    obtain ⟨a, w⟩ := e
    by_cases hk : k < a
    · simp [Map.place, Map.get, hk, Ne.symm h]
    · simp [Map.place, Map.get, hk, ih]

theorem Map.erase_key_ne (k : Nat) (m : Map α) : ∀ e ∈ Map.erase k m, e.1 ≠ k := by
  induction m with
  | nil => simp [Map.erase]
  | cons e rest ih =>
    obtain ⟨a, w⟩ := e
    by_cases h : a = k
    · simpa [Map.erase, h] using ih
    · intro e he
      simp only [Map.erase, h, if_false, List.mem_cons] at he
      rcases he with rfl | he
      · exact h
      · exact ih e he

/-- Reading a key just written gives the value written. -/
@[simp] theorem Map.get_set_self [DecidableEq α] (d : Nat → α) (k : Nat) (v : α) (m : Map α) :
    Map.get d (Map.set d k v m) k = v := by
  unfold Map.set
  split
  · rename_i h; rw [Map.get_erase_self, h]
  · exact Map.get_place_self d k v _ (Map.erase_key_ne k m)

/-- Writing one key leaves every other key alone. -/
theorem Map.get_set_ne [DecidableEq α] (d : Nat → α) {k j : Nat} (h : j ≠ k) (v : α) (m : Map α) :
    Map.get d (Map.set d k v m) j = Map.get d m j := by
  unfold Map.set
  split
  · exact Map.get_erase_ne d h m
  · rw [Map.get_place_ne d h, Map.get_erase_ne d h]

theorem Map.wfFrom_mono [DecidableEq α] (d : Nat → α) {lo lo' : Nat} (h : lo ≤ lo') (m : Map α)
    (hm : Map.wfFrom d lo' m = true) : Map.wfFrom d lo m = true := by
  cases m with
  | nil => rfl
  | cons e rest =>
    obtain ⟨a, v⟩ := e
    simp only [Map.wfFrom, Bool.and_eq_true, decide_eq_true_eq] at hm ⊢
    exact ⟨⟨Nat.le_trans h hm.1.1, hm.1.2⟩, hm.2⟩

theorem Map.wfFrom_erase [DecidableEq α] (d : Nat → α) (k lo : Nat) (m : Map α)
    (hm : Map.wfFrom d lo m = true) : Map.wfFrom d lo (Map.erase k m) = true := by
  induction m generalizing lo with
  | nil => rfl
  | cons e rest ih =>
    obtain ⟨a, v⟩ := e
    simp only [Map.wfFrom, Bool.and_eq_true, decide_eq_true_eq] at hm
    by_cases h : a = k
    · simp only [Map.erase, h, if_true]
      exact Map.wfFrom_mono d (Nat.le_trans hm.1.1 (Nat.le_succ a)) _ (ih _ hm.2)
    · simp only [Map.erase, h, if_false, Map.wfFrom, Bool.and_eq_true, decide_eq_true_eq]
      exact ⟨hm.1, ih _ hm.2⟩

theorem Map.wfFrom_place [DecidableEq α] (d : Nat → α) (k : Nat) (v : α) (lo : Nat) (m : Map α) (hv : v ≠ d k)
    (hlo : lo ≤ k) (hk : ∀ e ∈ m, e.1 ≠ k) (hm : Map.wfFrom d lo m = true) :
    Map.wfFrom d lo (Map.place k v m) = true := by
  induction m generalizing lo with
  | nil => simp [Map.place, Map.wfFrom, hv, hlo]
  | cons e rest ih =>
    obtain ⟨a, w⟩ := e
    have ha : a ≠ k := hk (a, w) (by simp)
    simp only [Map.wfFrom, Bool.and_eq_true, decide_eq_true_eq] at hm
    by_cases h : k < a
    · simp only [Map.place, h, if_true, Map.wfFrom, Bool.and_eq_true, decide_eq_true_eq]
      exact ⟨⟨hlo, hv⟩, ⟨⟨h, hm.1.2⟩, hm.2⟩⟩
    · simp only [Map.place, h, if_false, Map.wfFrom, Bool.and_eq_true, decide_eq_true_eq]
      exact ⟨hm.1, ih _ (by omega) (fun e he => hk e (by simp [he])) hm.2⟩

/-- A write keeps the canonical form. -/
theorem Map.wf_set [DecidableEq α] (d : Nat → α) (k : Nat) (v : α) (m : Map α) (hm : Map.wf d m = true) :
    Map.wf d (Map.set d k v m) = true := by
  unfold Map.wf Map.set at *
  split
  · exact Map.wfFrom_erase d k 0 m hm
  · rename_i h
    exact Map.wfFrom_place d k v 0 _ h (Nat.zero_le k) (Map.erase_key_ne k m) (Map.wfFrom_erase d k 0 m hm)

theorem Map.wfFrom_drop [DecidableEq α] (d : Nat → α) (p : Nat → Bool) (lo : Nat) (m : Map α)
    (hm : Map.wfFrom d lo m = true) : Map.wfFrom d lo (Map.drop p m) = true := by
  induction m generalizing lo with
  | nil => rfl
  | cons e rest ih =>
    obtain ⟨a, v⟩ := e
    simp only [Map.wfFrom, Bool.and_eq_true, decide_eq_true_eq] at hm
    by_cases h : p a = true
    · simp only [Map.drop, List.filter, h, Bool.not_true]
      exact Map.wfFrom_mono d (Nat.le_trans hm.1.1 (Nat.le_succ a)) _ (ih _ hm.2)
    · simp only [Map.drop, List.filter, h, Bool.not_false, Map.wfFrom, Bool.and_eq_true, decide_eq_true_eq]
      exact ⟨hm.1, ih _ hm.2⟩

/-- Dropping entries keeps the canonical form. -/
theorem Map.wf_drop [DecidableEq α] (d : Nat → α) (p : Nat → Bool) (m : Map α) (hm : Map.wf d m = true) :
    Map.wf d (Map.drop p m) = true := Map.wfFrom_drop d p 0 m hm

end Sys2Proof.Machine
end

