-- ==== Sys2Proof/Laws/State.lean ====
section
/-! SUPPORT. The laws of primitive updates and effects: each update changes its own field and no other, no effect touches
the queue, and every effect keeps every store canonical. -/

namespace Sys2Proof.Machine

@[simp] theorem Upd.run_now (v : Nat) (s : State) : (Upd.run (.now v) s).now = v := rfl

@[simp] theorem Upd.run_tideOff (v : Int) (s : State) : (Upd.run (.tideOff v) s).tideOff = v := rfl

@[simp] theorem Upd.run_freeCtr (v : Nat) (s : State) : (Upd.run (.freeCtr v) s).freeCtr = v := rfl

@[simp] theorem Upd.run_out (v : List Out) (s : State) : (Upd.run (.out v) s).out = v := rfl

@[simp] theorem Upd.run_regs_same (k : Nat) (v : Word) (s : State) :
    (Upd.run (.regs k v) s).regsAt k = v := Map.get_set_self dfltRegs k v s.regs

theorem Upd.run_regs_other (k j : Nat) (h : j ≠ k) (v : Word) (s : State) :
    (Upd.run (.regs k v) s).regsAt j = s.regsAt j := Map.get_set_ne dfltRegs h v s.regs

@[simp] theorem Upd.run_shadows_same (k : Nat) (v : Option Word) (s : State) :
    (Upd.run (.shadows k v) s).shadowsAt k = v := Map.get_set_self dfltShadows k v s.shadows

theorem Upd.run_shadows_other (k j : Nat) (h : j ≠ k) (v : Option Word) (s : State) :
    (Upd.run (.shadows k v) s).shadowsAt j = s.shadowsAt j := Map.get_set_ne dfltShadows h v s.shadows

@[simp] theorem Upd.run_mem_same (k : Nat) (v : Byte) (s : State) :
    (Upd.run (.mem k v) s).memAt k = v := Map.get_set_self dfltMem k v s.mem

theorem Upd.run_mem_other (k j : Nat) (h : j ≠ k) (v : Byte) (s : State) :
    (Upd.run (.mem k v) s).memAt j = s.memAt j := Map.get_set_ne dfltMem h v s.mem

@[simp] theorem Upd.run_check_same (k : Nat) (v : BitVec 16) (s : State) :
    (Upd.run (.check k v) s).checkAt k = v := Map.get_set_self dfltCheck k v s.check

theorem Upd.run_check_other (k j : Nat) (h : j ≠ k) (v : BitVec 16) (s : State) :
    (Upd.run (.check k v) s).checkAt j = s.checkAt j := Map.get_set_ne dfltCheck h v s.check

@[simp] theorem Upd.run_marks_same (k : Nat) (v : SramMark) (s : State) :
    (Upd.run (.marks k v) s).marksAt k = v := Map.get_set_self dfltMarks k v s.marks

theorem Upd.run_marks_other (k j : Nat) (h : j ≠ k) (v : SramMark) (s : State) :
    (Upd.run (.marks k v) s).marksAt j = s.marksAt j := Map.get_set_ne dfltMarks h v s.marks

@[simp] theorem Upd.run_hostMem_same (k : Nat) (v : Byte) (s : State) :
    (Upd.run (.hostMem k v) s).hostMemAt k = v := Map.get_set_self dfltHostMem k v s.hostMem

theorem Upd.run_hostMem_other (k j : Nat) (h : j ≠ k) (v : Byte) (s : State) :
    (Upd.run (.hostMem k v) s).hostMemAt j = s.hostMemAt j := Map.get_set_ne dfltHostMem h v s.hostMem

@[simp] theorem Upd.run_msix_same (k : Nat) (v : MsixEntry) (s : State) :
    (Upd.run (.msix k v) s).msixAt k = v := Map.get_set_self dfltMsix k v s.msix

theorem Upd.run_msix_other (k j : Nat) (h : j ≠ k) (v : MsixEntry) (s : State) :
    (Upd.run (.msix k v) s).msixAt j = s.msixAt j := Map.get_set_ne dfltMsix h v s.msix

@[simp] theorem Upd.run_mgmtQ (v : List MgmtMsg) (s : State) : (Upd.run (.mgmtQ v) s).mgmtQ = v := rfl

@[simp] theorem Upd.run_mgmtDropped (v : Nat) (s : State) : (Upd.run (.mgmtDropped v) s).mgmtDropped = v := rfl

@[simp] theorem Upd.run_mon_same (k : Nat) (v : MonCap) (s : State) :
    (Upd.run (.mon k v) s).monAt k = v := Map.get_set_self dfltMon k v s.mon

theorem Upd.run_mon_other (k j : Nat) (h : j ≠ k) (v : MonCap) (s : State) :
    (Upd.run (.mon k v) s).monAt j = s.monAt j := Map.get_set_ne dfltMon h v s.mon

@[simp] theorem Upd.run_cache_same (k : Nat) (v : List ScLine) (s : State) :
    (Upd.run (.cache k v) s).cacheAt k = v := Map.get_set_self dfltCache k v s.cache

theorem Upd.run_cache_other (k j : Nat) (h : j ≠ k) (v : List ScLine) (s : State) :
    (Upd.run (.cache k v) s).cacheAt j = s.cacheAt j := Map.get_set_ne dfltCache h v s.cache

@[simp] theorem Upd.run_tagLost_same (k : Nat) (v : Bool) (s : State) :
    (Upd.run (.tagLost k v) s).tagLostAt k = v := Map.get_set_self dfltTagLost k v s.tagLost

theorem Upd.run_tagLost_other (k j : Nat) (h : j ≠ k) (v : Bool) (s : State) :
    (Upd.run (.tagLost k v) s).tagLostAt j = s.tagLostAt j := Map.get_set_ne dfltTagLost h v s.tagLost

@[simp] theorem Upd.run_tracker_same (k : Nat) (v : List TrackRow) (s : State) :
    (Upd.run (.tracker k v) s).trackerAt k = v := Map.get_set_self dfltTracker k v s.tracker

theorem Upd.run_tracker_other (k j : Nat) (h : j ≠ k) (v : List TrackRow) (s : State) :
    (Upd.run (.tracker k v) s).trackerAt j = s.trackerAt j := Map.get_set_ne dfltTracker h v s.tracker

@[simp] theorem Upd.run_spares_same (k : Nat) (v : List Nat) (s : State) :
    (Upd.run (.spares k v) s).sparesAt k = v := Map.get_set_self dfltSpares k v s.spares

theorem Upd.run_spares_other (k j : Nat) (h : j ≠ k) (v : List Nat) (s : State) :
    (Upd.run (.spares k v) s).sparesAt j = s.sparesAt j := Map.get_set_ne dfltSpares h v s.spares

@[simp] theorem Upd.run_remapNew (v : List Remap) (s : State) : (Upd.run (.remapNew v) s).remapNew = v := rfl

@[simp] theorem Upd.run_remapFlash (v : List Remap) (s : State) : (Upd.run (.remapFlash v) s).remapFlash = v := rfl

@[simp] theorem Upd.run_held_same (k : Nat) (v : List HeldReq) (s : State) :
    (Upd.run (.held k v) s).heldAt k = v := Map.get_set_self dfltHeld k v s.held

theorem Upd.run_held_other (k j : Nat) (h : j ≠ k) (v : List HeldReq) (s : State) :
    (Upd.run (.held k v) s).heldAt j = s.heldAt j := Map.get_set_ne dfltHeld h v s.held

@[simp] theorem Upd.run_granted_same (k : Nat) (v : List Agent) (s : State) :
    (Upd.run (.granted k v) s).grantedAt k = v := Map.get_set_self dfltGranted k v s.granted

theorem Upd.run_granted_other (k j : Nat) (h : j ≠ k) (v : List Agent) (s : State) :
    (Upd.run (.granted k v) s).grantedAt j = s.grantedAt j := Map.get_set_ne dfltGranted h v s.granted

@[simp] theorem Upd.run_heldParts_same (k : Nat) (v : List (Nat × Resp)) (s : State) :
    (Upd.run (.heldParts k v) s).heldPartsAt k = v := Map.get_set_self dfltHeldParts k v s.heldParts

theorem Upd.run_heldParts_other (k j : Nat) (h : j ≠ k) (v : List (Nat × Resp)) (s : State) :
    (Upd.run (.heldParts k v) s).heldPartsAt j = s.heldPartsAt j := Map.get_set_ne dfltHeldParts h v s.heldParts

@[simp] theorem Upd.run_rxWait_same (k : Nat) (v : Option (Nat × RxPkt)) (s : State) :
    (Upd.run (.rxWait k v) s).rxWaitAt k = v := Map.get_set_self dfltRxWait k v s.rxWait

theorem Upd.run_rxWait_other (k j : Nat) (h : j ≠ k) (v : Option (Nat × RxPkt)) (s : State) :
    (Upd.run (.rxWait k v) s).rxWaitAt j = s.rxWaitAt j := Map.get_set_ne dfltRxWait h v s.rxWait

@[simp] theorem Upd.run_boot (v : Nat) (s : State) : (Upd.run (.boot v) s).boot = v := rfl

@[simp] theorem Upd.run_replaceFlash (v : Nat) (s : State) : (Upd.run (.replaceFlash v) s).replaceFlash = v := rfl

@[simp] theorem Upd.run_gwOut (v : List GwPkt) (s : State) : (Upd.run (.gwOut v) s).gwOut = v := rfl

@[simp] theorem Upd.run_hopBuf_same (k : Nat) (v : List (Nat × List Byte)) (s : State) :
    (Upd.run (.hopBuf k v) s).hopBufAt k = v := Map.get_set_self dfltHopBuf k v s.hopBuf

theorem Upd.run_hopBuf_other (k j : Nat) (h : j ≠ k) (v : List (Nat × List Byte)) (s : State) :
    (Upd.run (.hopBuf k v) s).hopBufAt j = s.hopBufAt j := Map.get_set_ne dfltHopBuf h v s.hopBuf

@[simp] theorem Upd.run_parityCount_same (k : Nat) (v : Nat) (s : State) :
    (Upd.run (.parityCount k v) s).parityCountAt k = v := Map.get_set_self dfltParityCount k v s.parityCount

theorem Upd.run_parityCount_other (k j : Nat) (h : j ≠ k) (v : Nat) (s : State) :
    (Upd.run (.parityCount k v) s).parityCountAt j = s.parityCountAt j := Map.get_set_ne dfltParityCount h v s.parityCount

@[simp] theorem Upd.run_gwSeq_same (k : Nat) (v : Nat) (s : State) :
    (Upd.run (.gwSeq k v) s).gwSeqAt k = v := Map.get_set_self dfltGwSeq k v s.gwSeq

theorem Upd.run_gwSeq_other (k j : Nat) (h : j ≠ k) (v : Nat) (s : State) :
    (Upd.run (.gwSeq k v) s).gwSeqAt j = s.gwSeqAt j := Map.get_set_ne dfltGwSeq h v s.gwSeq

@[simp] theorem Upd.run_gwSpray_same (k : Nat) (v : Int) (s : State) :
    (Upd.run (.gwSpray k v) s).gwSprayAt k = v := Map.get_set_self dfltGwSpray k v s.gwSpray

theorem Upd.run_gwSpray_other (k j : Nat) (h : j ≠ k) (v : Int) (s : State) :
    (Upd.run (.gwSpray k v) s).gwSprayAt j = s.gwSprayAt j := Map.get_set_ne dfltGwSpray h v s.gwSpray

@[simp] theorem Upd.run_sigQ (v : List Sig) (s : State) : (Upd.run (.sigQ v) s).sigQ = v := rfl

@[simp] theorem Upd.run_landQ (v : List Landing) (s : State) : (Upd.run (.landQ v) s).landQ = v := rfl

@[simp] theorem Upd.run_arrQ (v : List Arrival) (s : State) : (Upd.run (.arrQ v) s).arrQ = v := rfl

@[simp] theorem Upd.run_relQ (v : List (Nat × Nat)) (s : State) : (Upd.run (.relQ v) s).relQ = v := rfl

@[simp] theorem Upd.run_waiters_same (k : Nat) (v : List Nat) (s : State) :
    (Upd.run (.waiters k v) s).waitersAt k = v := Map.get_set_self dfltWaiters k v s.waiters

theorem Upd.run_waiters_other (k j : Nat) (h : j ≠ k) (v : List Nat) (s : State) :
    (Upd.run (.waiters k v) s).waitersAt j = s.waitersAt j := Map.get_set_ne dfltWaiters h v s.waiters

@[simp] theorem Upd.run_waitSince_same (k : Nat) (v : Nat) (s : State) :
    (Upd.run (.waitSince k v) s).waitSinceAt k = v := Map.get_set_self dfltWaitSince k v s.waitSince

theorem Upd.run_waitSince_other (k j : Nat) (h : j ≠ k) (v : Nat) (s : State) :
    (Upd.run (.waitSince k v) s).waitSinceAt j = s.waitSinceAt j := Map.get_set_ne dfltWaitSince h v s.waitSince

@[simp] theorem Upd.run_buRound_same (k : Nat) (v : Nat) (s : State) :
    (Upd.run (.buRound k v) s).buRoundAt k = v := Map.get_set_self dfltBuRound k v s.buRound

theorem Upd.run_buRound_other (k j : Nat) (h : j ≠ k) (v : Nat) (s : State) :
    (Upd.run (.buRound k v) s).buRoundAt j = s.buRoundAt j := Map.get_set_ne dfltBuRound h v s.buRound

@[simp] theorem Upd.run_relSeen_same (k : Nat) (v : Nat) (s : State) :
    (Upd.run (.relSeen k v) s).relSeenAt k = v := Map.get_set_self dfltRelSeen k v s.relSeen

theorem Upd.run_relSeen_other (k j : Nat) (h : j ≠ k) (v : Nat) (s : State) :
    (Upd.run (.relSeen k v) s).relSeenAt j = s.relSeenAt j := Map.get_set_ne dfltRelSeen h v s.relSeen

@[simp] theorem Upd.run_tagNext (v : Nat) (s : State) : (Upd.run (.tagNext v) s).tagNext = v := rfl

@[simp] theorem Upd.run_loads_same (k : Nat) (v : List Access) (s : State) :
    (Upd.run (.loads k v) s).loadsAt k = v := Map.get_set_self dfltLoads k v s.loads

theorem Upd.run_loads_other (k j : Nat) (h : j ≠ k) (v : List Access) (s : State) :
    (Upd.run (.loads k v) s).loadsAt j = s.loadsAt j := Map.get_set_ne dfltLoads h v s.loads

@[simp] theorem Upd.run_icache_same (k : Nat) (v : List IcLine) (s : State) :
    (Upd.run (.icache k v) s).icacheAt k = v := Map.get_set_self dfltIcache k v s.icache

theorem Upd.run_icache_other (k j : Nat) (h : j ≠ k) (v : List IcLine) (s : State) :
    (Upd.run (.icache k v) s).icacheAt j = s.icacheAt j := Map.get_set_ne dfltIcache h v s.icache

@[simp] theorem Upd.run_rrLast_same (k : Nat) (v : Nat) (s : State) :
    (Upd.run (.rrLast k v) s).rrLastAt k = v := Map.get_set_self dfltRrLast k v s.rrLast

theorem Upd.run_rrLast_other (k j : Nat) (h : j ≠ k) (v : Nat) (s : State) :
    (Upd.run (.rrLast k v) s).rrLastAt j = s.rrLastAt j := Map.get_set_ne dfltRrLast h v s.rrLast

@[simp] theorem Upd.run_thrStep_same (k : Nat) (v : Nat) (s : State) :
    (Upd.run (.thrStep k v) s).thrStepAt k = v := Map.get_set_self dfltThrStep k v s.thrStep

theorem Upd.run_thrStep_other (k j : Nat) (h : j ≠ k) (v : Nat) (s : State) :
    (Upd.run (.thrStep k v) s).thrStepAt j = s.thrStepAt j := Map.get_set_ne dfltThrStep h v s.thrStep

@[simp] theorem Upd.run_vecQ_same (k : Nat) (v : List VecOp) (s : State) :
    (Upd.run (.vecQ k v) s).vecQAt k = v := Map.get_set_self dfltVecQ k v s.vecQ

theorem Upd.run_vecQ_other (k j : Nat) (h : j ≠ k) (v : List VecOp) (s : State) :
    (Upd.run (.vecQ k v) s).vecQAt j = s.vecQAt j := Map.get_set_ne dfltVecQ h v s.vecQ

@[simp] theorem Upd.run_qeQ_same (k : Nat) (v : List QeDesc) (s : State) :
    (Upd.run (.qeQ k v) s).qeQAt k = v := Map.get_set_self dfltQeQ k v s.qeQ

theorem Upd.run_qeQ_other (k j : Nat) (h : j ≠ k) (v : List QeDesc) (s : State) :
    (Upd.run (.qeQ k v) s).qeQAt j = s.qeQAt j := Map.get_set_ne dfltQeQ h v s.qeQ

@[simp] theorem Upd.run_qeSubs_same (k : Nat) (v : List QeSub) (s : State) :
    (Upd.run (.qeSubs k v) s).qeSubsAt k = v := Map.get_set_self dfltQeSubs k v s.qeSubs

theorem Upd.run_qeSubs_other (k j : Nat) (h : j ≠ k) (v : List QeSub) (s : State) :
    (Upd.run (.qeSubs k v) s).qeSubsAt j = s.qeSubsAt j := Map.get_set_ne dfltQeSubs h v s.qeSubs

@[simp] theorem Upd.run_qeFlush_same (k : Nat) (v : List Nat) (s : State) :
    (Upd.run (.qeFlush k v) s).qeFlushAt k = v := Map.get_set_self dfltQeFlush k v s.qeFlush

theorem Upd.run_qeFlush_other (k j : Nat) (h : j ≠ k) (v : List Nat) (s : State) :
    (Upd.run (.qeFlush k v) s).qeFlushAt j = s.qeFlushAt j := Map.get_set_ne dfltQeFlush h v s.qeFlush

@[simp] theorem Upd.run_segQ (v : List Segment) (s : State) : (Upd.run (.segQ v) s).segQ = v := rfl

@[simp] theorem Upd.run_creditQ (v : List Credit) (s : State) : (Upd.run (.creditQ v) s).creditQ = v := rfl

@[simp] theorem Upd.run_routeSlot_same (k : Nat) (v : Nat) (s : State) :
    (Upd.run (.routeSlot k v) s).routeSlotAt k = v := Map.get_set_self dfltRouteSlot k v s.routeSlot

theorem Upd.run_routeSlot_other (k j : Nat) (h : j ≠ k) (v : Nat) (s : State) :
    (Upd.run (.routeSlot k v) s).routeSlotAt j = s.routeSlotAt j := Map.get_set_ne dfltRouteSlot h v s.routeSlot

@[simp] theorem Upd.run_stallSince_same (k : Nat) (v : Nat) (s : State) :
    (Upd.run (.stallSince k v) s).stallSinceAt k = v := Map.get_set_self dfltStallSince k v s.stallSince

theorem Upd.run_stallSince_other (k j : Nat) (h : j ≠ k) (v : Nat) (s : State) :
    (Upd.run (.stallSince k v) s).stallSinceAt j = s.stallSinceAt j := Map.get_set_ne dfltStallSince h v s.stallSince

@[simp] theorem Upd.run_passQ_same (k : Nat) (v : List Pass) (s : State) :
    (Upd.run (.passQ k v) s).passQAt k = v := Map.get_set_self dfltPassQ k v s.passQ

theorem Upd.run_passQ_other (k j : Nat) (h : j ≠ k) (v : List Pass) (s : State) :
    (Upd.run (.passQ k v) s).passQAt j = s.passQAt j := Map.get_set_ne dfltPassQ h v s.passQ

@[simp] theorem Upd.run_feedAt_same (k : Nat) (v : Nat) (s : State) :
    (Upd.run (.feedAt k v) s).feedAtAt k = v := Map.get_set_self dfltFeedAt k v s.feedAt

theorem Upd.run_feedAt_other (k j : Nat) (h : j ≠ k) (v : Nat) (s : State) :
    (Upd.run (.feedAt k v) s).feedAtAt j = s.feedAtAt j := Map.get_set_ne dfltFeedAt h v s.feedAt

@[simp] theorem Upd.run_refRow_same (k : Nat) (v : Nat) (s : State) :
    (Upd.run (.refRow k v) s).refRowAt k = v := Map.get_set_self dfltRefRow k v s.refRow

theorem Upd.run_refRow_other (k j : Nat) (h : j ≠ k) (v : Nat) (s : State) :
    (Upd.run (.refRow k v) s).refRowAt j = s.refRowAt j := Map.get_set_ne dfltRefRow h v s.refRow

@[simp] theorem Upd.run_scrubRun_same (k : Nat) (v : Option (Nat × Nat × Nat)) (s : State) :
    (Upd.run (.scrubRun k v) s).scrubRunAt k = v := Map.get_set_self dfltScrubRun k v s.scrubRun

theorem Upd.run_scrubRun_other (k j : Nat) (h : j ≠ k) (v : Option (Nat × Nat × Nat)) (s : State) :
    (Upd.run (.scrubRun k v) s).scrubRunAt j = s.scrubRunAt j := Map.get_set_ne dfltScrubRun h v s.scrubRun

@[simp] theorem Upd.run_buQ_same (k : Nat) (v : List BuCmd) (s : State) :
    (Upd.run (.buQ k v) s).buQAt k = v := Map.get_set_self dfltBuQ k v s.buQ

theorem Upd.run_buQ_other (k j : Nat) (h : j ≠ k) (v : List BuCmd) (s : State) :
    (Upd.run (.buQ k v) s).buQAt j = s.buQAt j := Map.get_set_ne dfltBuQ h v s.buQ

@[simp] theorem Upd.run_buBuf_same (k : Nat) (v : BufWord) (s : State) :
    (Upd.run (.buBuf k v) s).buBufAt k = v := Map.get_set_self dfltBuBuf k v s.buBuf

theorem Upd.run_buBuf_other (k j : Nat) (h : j ≠ k) (v : BufWord) (s : State) :
    (Upd.run (.buBuf k v) s).buBufAt j = s.buBufAt j := Map.get_set_ne dfltBuBuf h v s.buBuf

@[simp] theorem Upd.run_buBook_same (k : Nat) (v : List (Byte × Bool)) (s : State) :
    (Upd.run (.buBook k v) s).buBookAt k = v := Map.get_set_self dfltBuBook k v s.buBook

theorem Upd.run_buBook_other (k j : Nat) (h : j ≠ k) (v : List (Byte × Bool)) (s : State) :
    (Upd.run (.buBook k v) s).buBookAt j = s.buBookAt j := Map.get_set_ne dfltBuBook h v s.buBook

@[simp] theorem Upd.run_buSlot_same (k : Nat) (v : Nat) (s : State) :
    (Upd.run (.buSlot k v) s).buSlotAt k = v := Map.get_set_self dfltBuSlot k v s.buSlot

theorem Upd.run_buSlot_other (k j : Nat) (h : j ≠ k) (v : Nat) (s : State) :
    (Upd.run (.buSlot k v) s).buSlotAt j = s.buSlotAt j := Map.get_set_ne dfltBuSlot h v s.buSlot

@[simp] theorem Upd.run_yieldAt_same (k : Nat) (v : Nat) (s : State) :
    (Upd.run (.yieldAt k v) s).yieldAtAt k = v := Map.get_set_self dfltYieldAt k v s.yieldAt

theorem Upd.run_yieldAt_other (k j : Nat) (h : j ≠ k) (v : Nat) (s : State) :
    (Upd.run (.yieldAt k v) s).yieldAtAt j = s.yieldAtAt j := Map.get_set_ne dfltYieldAt h v s.yieldAt

@[simp] theorem Upd.run_kvtQ_same (k : Nat) (v : List KvOp) (s : State) :
    (Upd.run (.kvtQ k v) s).kvtQAt k = v := Map.get_set_self dfltKvtQ k v s.kvtQ

theorem Upd.run_kvtQ_other (k j : Nat) (h : j ≠ k) (v : List KvOp) (s : State) :
    (Upd.run (.kvtQ k v) s).kvtQAt j = s.kvtQAt j := Map.get_set_ne dfltKvtQ h v s.kvtQ

@[simp] theorem Upd.run_kvtEnd_same (k : Nat) (v : Option (Nat × Nat × Nat)) (s : State) :
    (Upd.run (.kvtEnd k v) s).kvtEndAt k = v := Map.get_set_self dfltKvtEnd k v s.kvtEnd

theorem Upd.run_kvtEnd_other (k j : Nat) (h : j ≠ k) (v : Option (Nat × Nat × Nat)) (s : State) :
    (Upd.run (.kvtEnd k v) s).kvtEndAt j = s.kvtEndAt j := Map.get_set_ne dfltKvtEnd h v s.kvtEnd

@[simp] theorem Upd.run_kvtMigQ_same (k : Nat) (v : List KvMove) (s : State) :
    (Upd.run (.kvtMigQ k v) s).kvtMigQAt k = v := Map.get_set_self dfltKvtMigQ k v s.kvtMigQ

theorem Upd.run_kvtMigQ_other (k j : Nat) (h : j ≠ k) (v : List KvMove) (s : State) :
    (Upd.run (.kvtMigQ k v) s).kvtMigQAt j = s.kvtMigQAt j := Map.get_set_ne dfltKvtMigQ h v s.kvtMigQ

@[simp] theorem Upd.run_kvtMoves_same (k : Nat) (v : List KvMove) (s : State) :
    (Upd.run (.kvtMoves k v) s).kvtMovesAt k = v := Map.get_set_self dfltKvtMoves k v s.kvtMoves

theorem Upd.run_kvtMoves_other (k j : Nat) (h : j ≠ k) (v : List KvMove) (s : State) :
    (Upd.run (.kvtMoves k v) s).kvtMovesAt j = s.kvtMovesAt j := Map.get_set_ne dfltKvtMoves h v s.kvtMoves

@[simp] theorem Upd.run_kvtFrees_same (k : Nat) (v : List Nat) (s : State) :
    (Upd.run (.kvtFrees k v) s).kvtFreesAt k = v := Map.get_set_self dfltKvtFrees k v s.kvtFrees

theorem Upd.run_kvtFrees_other (k j : Nat) (h : j ≠ k) (v : List Nat) (s : State) :
    (Upd.run (.kvtFrees k v) s).kvtFreesAt j = s.kvtFreesAt j := Map.get_set_ne dfltKvtFrees h v s.kvtFrees

@[simp] theorem Upd.run_kvtStaged_same (k : Nat) (v : List KvStaged) (s : State) :
    (Upd.run (.kvtStaged k v) s).kvtStagedAt k = v := Map.get_set_self dfltKvtStaged k v s.kvtStaged

theorem Upd.run_kvtStaged_other (k j : Nat) (h : j ≠ k) (v : List KvStaged) (s : State) :
    (Upd.run (.kvtStaged k v) s).kvtStagedAt j = s.kvtStagedAt j := Map.get_set_ne dfltKvtStaged h v s.kvtStaged

@[simp] theorem Upd.run_gdRetrain_same (k : Nat) (v : Nat) (s : State) :
    (Upd.run (.gdRetrain k v) s).gdRetrainAt k = v := Map.get_set_self dfltGdRetrain k v s.gdRetrain

theorem Upd.run_gdRetrain_other (k j : Nat) (h : j ≠ k) (v : Nat) (s : State) :
    (Upd.run (.gdRetrain k v) s).gdRetrainAt j = s.gdRetrainAt j := Map.get_set_ne dfltGdRetrain h v s.gdRetrain

@[simp] theorem Upd.run_cmds (v : List HCmd) (s : State) : (Upd.run (.cmds v) s).cmds = v := rfl

@[simp] theorem Upd.run_fetchAt_same (k : Nat) (v : Nat) (s : State) :
    (Upd.run (.fetchAt k v) s).fetchAtAt k = v := Map.get_set_self dfltFetchAt k v s.fetchAt

theorem Upd.run_fetchAt_other (k j : Nat) (h : j ≠ k) (v : Nat) (s : State) :
    (Upd.run (.fetchAt k v) s).fetchAtAt j = s.fetchAtAt j := Map.get_set_ne dfltFetchAt h v s.fetchAt

@[simp] theorem Upd.run_cqAgg_same (k : Nat) (v : Nat × Nat) (s : State) :
    (Upd.run (.cqAgg k v) s).cqAggAt k = v := Map.get_set_self dfltCqAgg k v s.cqAgg

theorem Upd.run_cqAgg_other (k j : Nat) (h : j ≠ k) (v : Nat × Nat) (s : State) :
    (Upd.run (.cqAgg k v) s).cqAggAt j = s.cqAggAt j := Map.get_set_ne dfltCqAgg h v s.cqAgg

@[simp] theorem Upd.run_linkDown_same (k : Nat) (v : Nat) (s : State) :
    (Upd.run (.linkDown k v) s).linkDownAt k = v := Map.get_set_self dfltLinkDown k v s.linkDown

theorem Upd.run_linkDown_other (k j : Nat) (h : j ≠ k) (v : Nat) (s : State) :
    (Upd.run (.linkDown k v) s).linkDownAt j = s.linkDownAt j := Map.get_set_ne dfltLinkDown h v s.linkDown

@[simp] theorem Upd.run_pmKey_same (k : Nat) (v : List Byte) (s : State) :
    (Upd.run (.pmKey k v) s).pmKeyAt k = v := Map.get_set_self dfltPmKey k v s.pmKey

theorem Upd.run_pmKey_other (k j : Nat) (h : j ≠ k) (v : List Byte) (s : State) :
    (Upd.run (.pmKey k v) s).pmKeyAt j = s.pmKeyAt j := Map.get_set_ne dfltPmKey h v s.pmKey

@[simp] theorem Upd.run_pmFlash_same (k : Nat) (v : List Byte) (s : State) :
    (Upd.run (.pmFlash k v) s).pmFlashAt k = v := Map.get_set_self dfltPmFlash k v s.pmFlash

theorem Upd.run_pmFlash_other (k j : Nat) (h : j ≠ k) (v : List Byte) (s : State) :
    (Upd.run (.pmFlash k v) s).pmFlashAt j = s.pmFlashAt j := Map.get_set_ne dfltPmFlash h v s.pmFlash

@[simp] theorem Upd.run_pmMark_same (k : Nat) (v : Nat) (s : State) :
    (Upd.run (.pmMark k v) s).pmMarkAt k = v := Map.get_set_self dfltPmMark k v s.pmMark

theorem Upd.run_pmMark_other (k j : Nat) (h : j ≠ k) (v : Nat) (s : State) :
    (Upd.run (.pmMark k v) s).pmMarkAt j = s.pmMarkAt j := Map.get_set_ne dfltPmMark h v s.pmMark

@[simp] theorem Upd.run_tampered (v : Bool) (s : State) : (Upd.run (.tampered v) s).tampered = v := rfl

@[simp] theorem Upd.run_offer (v : Option (Nat × Nat)) (s : State) : (Upd.run (.offer v) s).offer = v := rfl

@[simp] theorem Upd.run_seqs_same (k : Nat) (v : Option SeqRec) (s : State) :
    (Upd.run (.seqs k v) s).seqsAt k = v := Map.get_set_self dfltSeqs k v s.seqs

theorem Upd.run_seqs_other (k j : Nat) (h : j ≠ k) (v : Option SeqRec) (s : State) :
    (Upd.run (.seqs k v) s).seqsAt j = s.seqsAt j := Map.get_set_ne dfltSeqs h v s.seqs

@[simp] theorem Upd.run_dispatchLog_same (k : Nat) (v : List Byte) (s : State) :
    (Upd.run (.dispatchLog k v) s).dispatchLogAt k = v := Map.get_set_self dfltDispatchLog k v s.dispatchLog

theorem Upd.run_dispatchLog_other (k j : Nat) (h : j ≠ k) (v : List Byte) (s : State) :
    (Upd.run (.dispatchLog k v) s).dispatchLogAt j = s.dispatchLogAt j := Map.get_set_ne dfltDispatchLog h v s.dispatchLog

@[simp] theorem Upd.run_dispatchFlash (v : List (List Byte)) (s : State) : (Upd.run (.dispatchFlash v) s).dispatchFlash = v := rfl

@[simp] theorem Upd.run_franks_same (k : Nat) (v : List Byte) (s : State) :
    (Upd.run (.franks k v) s).franksAt k = v := Map.get_set_self dfltFranks k v s.franks

theorem Upd.run_franks_other (k j : Nat) (h : j ≠ k) (v : List Byte) (s : State) :
    (Upd.run (.franks k v) s).franksAt j = s.franksAt j := Map.get_set_ne dfltFranks h v s.franks

@[simp] theorem Upd.run_fuseLcy (v : Nat) (s : State) : (Upd.run (.fuseLcy v) s).fuseLcy = v := rfl

@[simp] theorem Upd.run_ready (v : Bool) (s : State) : (Upd.run (.ready v) s).ready = v := rfl

@[simp] theorem Upd.run_stageAt (v : Nat) (s : State) : (Upd.run (.stageAt v) s).stageAt = v := rfl

@[simp] theorem Upd.run_agreed_same (k : Nat) (v : Nat) (s : State) :
    (Upd.run (.agreed k v) s).agreedAt k = v := Map.get_set_self dfltAgreed k v s.agreed

theorem Upd.run_agreed_other (k j : Nat) (h : j ≠ k) (v : Nat) (s : State) :
    (Upd.run (.agreed k v) s).agreedAt j = s.agreedAt j := Map.get_set_ne dfltAgreed h v s.agreed

@[simp] theorem Upd.run_perst_same (k : Nat) (v : Bool) (s : State) :
    (Upd.run (.perst k v) s).perstAt k = v := Map.get_set_self dfltPerst k v s.perst

theorem Upd.run_perst_other (k j : Nat) (h : j ≠ k) (v : Bool) (s : State) :
    (Upd.run (.perst k v) s).perstAt j = s.perstAt j := Map.get_set_ne dfltPerst h v s.perst

@[simp] theorem Upd.run_chart (v : List Byte) (s : State) : (Upd.run (.chart v) s).chart = v := rfl

@[simp] theorem Upd.run_chartLive (v : List Byte) (s : State) : (Upd.run (.chartLive v) s).chartLive = v := rfl

@[simp] theorem Upd.run_chartLoad (v : Option Nat) (s : State) : (Upd.run (.chartLoad v) s).chartLoad = v := rfl

@[simp] theorem Upd.run_applyNow (v : Bool) (s : State) : (Upd.run (.applyNow v) s).applyNow = v := rfl

@[simp] theorem Upd.run_flashAt (v : Nat) (s : State) : (Upd.run (.flashAt v) s).flashAt = v := rfl

@[simp] theorem Upd.run_fwAt (v : Nat) (s : State) : (Upd.run (.fwAt v) s).fwAt = v := rfl

@[simp] theorem Upd.run_hello (v : Option (Nat × Nat)) (s : State) : (Upd.run (.hello v) s).hello = v := rfl

@[simp] theorem Upd.run_enrolled (v : Bool) (s : State) : (Upd.run (.enrolled v) s).enrolled = v := rfl

@[simp] theorem Upd.run_resetAt (v : Option Nat) (s : State) : (Upd.run (.resetAt v) s).resetAt = v := rfl

@[simp] theorem Upd.run_dlEnd_same (k : Nat) (v : DlEnd) (s : State) :
    (Upd.run (.dlEnd k v) s).dlEndAt k = v := Map.get_set_self dfltDlEnd k v s.dlEnd

theorem Upd.run_dlEnd_other (k j : Nat) (h : j ≠ k) (v : DlEnd) (s : State) :
    (Upd.run (.dlEnd k v) s).dlEndAt j = s.dlEndAt j := Map.get_set_ne dfltDlEnd h v s.dlEnd

@[simp] theorem Upd.run_dlFail_same (k : Nat) (v : Nat × Nat) (s : State) :
    (Upd.run (.dlFail k v) s).dlFailAt k = v := Map.get_set_self dfltDlFail k v s.dlFail

theorem Upd.run_dlFail_other (k j : Nat) (h : j ≠ k) (v : Nat × Nat) (s : State) :
    (Upd.run (.dlFail k v) s).dlFailAt j = s.dlFailAt j := Map.get_set_ne dfltDlFail h v s.dlFail

@[simp] theorem Upd.run_dlOld_same (k : Nat) (v : Nat) (s : State) :
    (Upd.run (.dlOld k v) s).dlOldAt k = v := Map.get_set_self dfltDlOld k v s.dlOld

theorem Upd.run_dlOld_other (k j : Nat) (h : j ≠ k) (v : Nat) (s : State) :
    (Upd.run (.dlOld k v) s).dlOldAt j = s.dlOldAt j := Map.get_set_ne dfltDlOld h v s.dlOld

@[simp] theorem Upd.run_dlMoves (v : List (Nat × Nat × Nat × Nat)) (s : State) : (Upd.run (.dlMoves v) s).dlMoves = v := rfl

@[simp] theorem Upd.run_tideFirst (v : Nat) (s : State) : (Upd.run (.tideFirst v) s).tideFirst = v := rfl

@[simp] theorem Upd.run_tideNext (v : Nat) (s : State) : (Upd.run (.tideNext v) s).tideNext = v := rfl

@[simp] theorem Upd.run_tidePer (v : Nat) (s : State) : (Upd.run (.tidePer v) s).tidePer = v := rfl

@[simp] theorem Upd.run_slackAt (v : Nat) (s : State) : (Upd.run (.slackAt v) s).slackAt = v := rfl

@[simp] theorem Upd.run_edgeCut (v : Nat) (s : State) : (Upd.run (.edgeCut v) s).edgeCut = v := rfl

@[simp] theorem Upd.run_slackFor (v : Nat) (s : State) : (Upd.run (.slackFor v) s).slackFor = v := rfl

@[simp] theorem Upd.run_holdSince (v : Option Nat) (s : State) : (Upd.run (.holdSince v) s).holdSince = v := rfl

@[simp] theorem Upd.run_overAt_same (k : Nat) (v : Nat) (s : State) :
    (Upd.run (.overAt k v) s).overAtAt k = v := Map.get_set_self dfltOverAt k v s.overAt

theorem Upd.run_overAt_other (k j : Nat) (h : j ≠ k) (v : Nat) (s : State) :
    (Upd.run (.overAt k v) s).overAtAt j = s.overAtAt j := Map.get_set_ne dfltOverAt h v s.overAt

@[simp] theorem Upd.run_stepEnd_same (k : Nat) (v : Nat) (s : State) :
    (Upd.run (.stepEnd k v) s).stepEndAt k = v := Map.get_set_self dfltStepEnd k v s.stepEnd

theorem Upd.run_stepEnd_other (k j : Nat) (h : j ≠ k) (v : Nat) (s : State) :
    (Upd.run (.stepEnd k v) s).stepEndAt j = s.stepEndAt j := Map.get_set_ne dfltStepEnd h v s.stepEnd

@[simp] theorem Upd.run_stepAt_same (k : Nat) (v : Nat) (s : State) :
    (Upd.run (.stepAt k v) s).stepAtAt k = v := Map.get_set_self dfltStepAt k v s.stepAt

theorem Upd.run_stepAt_other (k j : Nat) (h : j ≠ k) (v : Nat) (s : State) :
    (Upd.run (.stepAt k v) s).stepAtAt j = s.stepAtAt j := Map.get_set_ne dfltStepAt h v s.stepAt

@[simp] theorem Upd.run_stepTime (v : Nat × Nat) (s : State) : (Upd.run (.stepTime v) s).stepTime = v := rfl

@[simp] theorem Upd.run_edgeNom (v : Option Nat) (s : State) : (Upd.run (.edgeNom v) s).edgeNom = v := rfl

@[simp] theorem Upd.run_stretchFor (v : Nat) (s : State) : (Upd.run (.stretchFor v) s).stretchFor = v := rfl

@[simp] theorem Upd.run_announced (v : Option (Nat × Nat)) (s : State) : (Upd.run (.announced v) s).announced = v := rfl

@[simp] theorem Upd.run_reports (v : List Nat) (s : State) : (Upd.run (.reports v) s).reports = v := rfl

@[simp] theorem Upd.run_reported (v : Bool) (s : State) : (Upd.run (.reported v) s).reported = v := rfl

@[simp] theorem Upd.run_synced (v : Bool) (s : State) : (Upd.run (.synced v) s).synced = v := rfl

@[simp] theorem Upd.run_syncAt (v : Nat) (s : State) : (Upd.run (.syncAt v) s).syncAt = v := rfl

@[simp] theorem Upd.run_retirePend (v : List (Nat × Nat × Nat)) (s : State) : (Upd.run (.retirePend v) s).retirePend = v := rfl

@[simp] theorem Upd.run_restage (v : Bool) (s : State) : (Upd.run (.restage v) s).restage = v := rfl

@[simp] theorem Upd.run_cutNew (v : Bool) (s : State) : (Upd.run (.cutNew v) s).cutNew = v := rfl

@[simp] theorem Upd.run_gwNext_same (k : Nat) (v : Nat) (s : State) :
    (Upd.run (.gwNext k v) s).gwNextAt k = v := Map.get_set_self dfltGwNext k v s.gwNext

theorem Upd.run_gwNext_other (k j : Nat) (h : j ≠ k) (v : Nat) (s : State) :
    (Upd.run (.gwNext k v) s).gwNextAt j = s.gwNextAt j := Map.get_set_ne dfltGwNext h v s.gwNext

@[simp] theorem Upd.run_gwHold_same (k : Nat) (v : List RxPkt) (s : State) :
    (Upd.run (.gwHold k v) s).gwHoldAt k = v := Map.get_set_self dfltGwHold k v s.gwHold

theorem Upd.run_gwHold_other (k j : Nat) (h : j ≠ k) (v : List RxPkt) (s : State) :
    (Upd.run (.gwHold k v) s).gwHoldAt j = s.gwHoldAt j := Map.get_set_ne dfltGwHold h v s.gwHold

@[simp] theorem Upd.run_gwRefused_same (k : Nat) (v : Nat) (s : State) :
    (Upd.run (.gwRefused k v) s).gwRefusedAt k = v := Map.get_set_self dfltGwRefused k v s.gwRefused

theorem Upd.run_gwRefused_other (k j : Nat) (h : j ≠ k) (v : Nat) (s : State) :
    (Upd.run (.gwRefused k v) s).gwRefusedAt j = s.gwRefusedAt j := Map.get_set_ne dfltGwRefused h v s.gwRefused

@[simp] theorem Upd.run_xqDesc_same (k : Nat) (v : List Byte) (s : State) :
    (Upd.run (.xqDesc k v) s).xqDescAt k = v := Map.get_set_self dfltXqDesc k v s.xqDesc

theorem Upd.run_xqDesc_other (k j : Nat) (h : j ≠ k) (v : List Byte) (s : State) :
    (Upd.run (.xqDesc k v) s).xqDescAt j = s.xqDescAt j := Map.get_set_ne dfltXqDesc h v s.xqDesc

@[simp] theorem Upd.run_bar2_same (k : Nat) (v : Nat) (s : State) :
    (Upd.run (.bar2 k v) s).bar2At k = v := Map.get_set_self dfltBar2 k v s.bar2

theorem Upd.run_bar2_other (k j : Nat) (h : j ≠ k) (v : Nat) (s : State) :
    (Upd.run (.bar2 k v) s).bar2At j = s.bar2At j := Map.get_set_ne dfltBar2 h v s.bar2

@[simp] theorem Upd.run_power (v : Power) (s : State) : (Upd.run (.power v) s).power = v := rfl

@[simp] theorem Upd.run_suspects_same (k : Nat) (v : List Nat) (s : State) :
    (Upd.run (.suspects k v) s).suspectsAt k = v := Map.get_set_self dfltSuspects k v s.suspects

theorem Upd.run_suspects_other (k j : Nat) (h : j ≠ k) (v : List Nat) (s : State) :
    (Upd.run (.suspects k v) s).suspectsAt j = s.suspectsAt j := Map.get_set_ne dfltSuspects h v s.suspects

@[simp] theorem Upd.run_disagreed_same (k : Nat) (v : Bool) (s : State) :
    (Upd.run (.disagreed k v) s).disagreedAt k = v := Map.get_set_self dfltDisagreed k v s.disagreed

theorem Upd.run_disagreed_other (k j : Nat) (h : j ≠ k) (v : Bool) (s : State) :
    (Upd.run (.disagreed k v) s).disagreedAt j = s.disagreedAt j := Map.get_set_ne dfltDisagreed h v s.disagreed

@[simp] theorem Upd.run_soundings_same (k : Nat) (v : List (Nat × Int)) (s : State) :
    (Upd.run (.soundings k v) s).soundingsAt k = v := Map.get_set_self dfltSoundings k v s.soundings

theorem Upd.run_soundings_other (k j : Nat) (h : j ≠ k) (v : List (Nat × Int)) (s : State) :
    (Upd.run (.soundings k v) s).soundingsAt j = s.soundingsAt j := Map.get_set_ne dfltSoundings h v s.soundings

@[simp] theorem Upd.run_residuals_same (k : Nat) (v : List Int) (s : State) :
    (Upd.run (.residuals k v) s).residualsAt k = v := Map.get_set_self dfltResiduals k v s.residuals

theorem Upd.run_residuals_other (k j : Nat) (h : j ≠ k) (v : List Int) (s : State) :
    (Upd.run (.residuals k v) s).residualsAt j = s.residualsAt j := Map.get_set_ne dfltResiduals h v s.residuals

@[simp] theorem Upd.run_foretold_same (k : Nat) (v : Bool) (s : State) :
    (Upd.run (.foretold k v) s).foretoldAt k = v := Map.get_set_self dfltForetold k v s.foretold

theorem Upd.run_foretold_other (k j : Nat) (h : j ≠ k) (v : Bool) (s : State) :
    (Upd.run (.foretold k v) s).foretoldAt j = s.foretoldAt j := Map.get_set_ne dfltForetold h v s.foretold

@[simp] theorem Upd.run_rotAt_same (k : Nat) (v : Nat) (s : State) :
    (Upd.run (.rotAt k v) s).rotAtAt k = v := Map.get_set_self dfltRotAt k v s.rotAt

theorem Upd.run_rotAt_other (k j : Nat) (h : j ≠ k) (v : Nat) (s : State) :
    (Upd.run (.rotAt k v) s).rotAtAt j = s.rotAtAt j := Map.get_set_ne dfltRotAt h v s.rotAt

@[simp] theorem Upd.run_ceCount_same (k : Nat) (v : CeRec) (s : State) :
    (Upd.run (.ceCount k v) s).ceCountAt k = v := Map.get_set_self dfltCeCount k v s.ceCount

theorem Upd.run_ceCount_other (k j : Nat) (h : j ≠ k) (v : CeRec) (s : State) :
    (Upd.run (.ceCount k v) s).ceCountAt j = s.ceCountAt j := Map.get_set_ne dfltCeCount h v s.ceCount

@[simp] theorem Upd.run_testFrom (v : Nat) (s : State) : (Upd.run (.testFrom v) s).testFrom = v := rfl

@[simp] theorem Upd.run_gov (v : Governor) (s : State) : (Upd.run (.gov v) s).gov = v := rfl

@[simp] theorem Upd.run_eid (v : Nat) (s : State) : (Upd.run (.eid v) s).eid = v := rfl

theorem Upd.run_pending (u : Upd) (s : State) : (u.run s).pending = s.pending := by cases u <;> rfl

/-- No effect touches the queue. -/
@[simp] theorem Eff.run_pending (p : Eff) (s : State) : (p.run s).pending = s.pending := by
  induction p generalizing s with
  | skip => rfl
  | upd u => exact Upd.run_pending u s
  | seq p q ihp ihq => simp only [Eff.run]; rw [ihq, ihp]
  | look k ih => exact ih s s

@[simp] theorem Eff.run_skip (s : State) : Eff.skip.run s = s := id rfl
@[simp] theorem Eff.run_upd (u : Upd) (s : State) : (Eff.upd u).run s = u.run s := id rfl
@[simp] theorem Eff.run_seq (p q : Eff) (s : State) : (Eff.seq p q).run s = q.run (p.run s) := id rfl
@[simp] theorem Eff.run_look (k : State → Eff) (s : State) : (Eff.look k).run s = (k s).run s := id rfl
@[simp] theorem Eff.run_all_nil (s : State) : (Eff.all []).run s = s := id rfl
@[simp] theorem Eff.run_all_cons (p : Eff) (ps : List Eff) (s : State) :
    (Eff.all (p :: ps)).run s = (Eff.all ps).run (p.run s) := by cases ps <;> rfl
@[simp] theorem Eff.run_when_true (p : Eff) (s : State) : (Eff.when true p).run s = p.run s := id rfl
@[simp] theorem Eff.run_when_false (p : Eff) (s : State) : (Eff.when false p).run s = s := id rfl
@[simp] theorem Eff.run_each_nil {α : Type} (f : α → Eff) (s : State) : (Eff.each [] f).run s = s := id rfl
@[simp] theorem Eff.run_each_cons {α : Type} (x : α) (xs : List α) (f : α → Eff) (s : State) :
    (Eff.each (x :: xs) f).run s = (Eff.each xs f).run ((f x).run s) := id rfl

/-- A property that every primitive update keeps is kept by every effect. -/
theorem Eff.run_keeps (P : State → Prop) (hu : ∀ u s, P s → P (Upd.run u s)) (p : Eff) (s : State) (h : P s) :
    P (p.run s) := by
  induction p generalizing s with
  | skip => exact h
  | upd u => exact hu u s h
  | seq p q ihp ihq => exact ihq _ (ihp _ h)
  | look k ih => exact ih s s h

end Sys2Proof.Machine
end

