-- ==== Sys2Proof/Laws/Effects.lean ====
section
/-! SUPPORT. What an effect can do at most (`Eff.Only`), and the laws of the operations on registers and their fields. -/

namespace Sys2Proof.Machine

/-- Every primitive update of the effect, in every state it may read, satisfies `W`. -/
def Eff.Only (W : Upd → Prop) : Eff → Prop
  | .skip => True
  | .upd u => W u
  | .seq p q => p.Only W ∧ q.Only W
  | .look k => ∀ s, (k s).Only W

variable {W : Upd → Prop}

@[simp] theorem Eff.only_skip : Eff.skip.Only W := trivial
@[simp] theorem Eff.only_upd (u : Upd) : (Eff.upd u).Only W ↔ W u := Iff.rfl
@[simp] theorem Eff.only_seq (p q : Eff) : (Eff.seq p q).Only W ↔ p.Only W ∧ q.Only W := Iff.rfl
@[simp] theorem Eff.only_look (k : State → Eff) : (Eff.look k).Only W ↔ ∀ s, (k s).Only W := Iff.rfl

@[simp] theorem Eff.only_all_nil : (Eff.all []).Only W := trivial
@[simp] theorem Eff.only_all_cons (p : Eff) (ps : List Eff) :
    (Eff.all (p :: ps)).Only W ↔ p.Only W ∧ (Eff.all ps).Only W := by
  cases ps <;> simp [Eff.all]

@[simp] theorem Eff.only_when (b : Bool) (p : Eff) : (Eff.when b p).Only W ↔ (b = true → p.Only W) := by
  cases b <;> simp [Eff.when]

@[simp] theorem Eff.only_each {α : Type} (xs : List α) (f : α → Eff) :
    (Eff.each xs f).Only W ↔ ∀ x ∈ xs, (f x).Only W := by
  induction xs <;> simp_all [Eff.each]

@[simp] theorem Eff.only_ite (c : Prop) [Decidable c] (p q : Eff) :
    (if c then p else q).Only W ↔ (c → p.Only W) ∧ (¬c → q.Only W) := by
  split <;> simp_all

/-- An effect whose updates all satisfy `W` satisfies every weaker bound. -/
theorem Eff.Only.mono {W V : Upd → Prop} (h : ∀ u, W u → V u) {p : Eff} (hp : p.Only W) : p.Only V := by
  induction p with
  | skip => trivial
  | upd u => exact h u hp
  | seq p q ihp ihq => exact ⟨ihp hp.1, ihq hp.2⟩
  | look k ih => exact fun s => ih s (hp s)

/-- What each allowed update keeps, the effect keeps. -/
theorem Eff.Only.keeps {p : Eff} (hp : p.Only W) (P : State → Prop) (hu : ∀ u s, W u → P s → P (u.run s)) (s : State)
    (h : P s) : P (p.run s) := by
  induction p generalizing s with
  | skip => exact h
  | upd u => exact hu u s hp h
  | seq p q ihp ihq => exact ihq hp.2 _ (ihp hp.1 _ h)
  | look k ih => exact ih s (hp s) s h

/-- What each allowed update leaves as it is, the effect leaves as it is. -/
theorem Eff.Only.same {α : Type} {p : Eff} (hp : p.Only W) (g : State → α) (hu : ∀ u s, W u → g (u.run s) = g s)
    (s : State) : g (p.run s) = g s :=
  hp.keeps (fun t => g t = g s) (fun u t hw h => (hu u t hw).trans h) s rfl

/-! Choosing between effects -/

@[simp] theorem Eff.run_ite (c : Prop) [Decidable c] (p q : Eff) (s : State) :
    (if c then p else q).run s = if c then p.run s else q.run s := by split <;> rfl

/-- An effect under a condition: it runs or nothing happens. -/
theorem Eff.run_when (b : Bool) (p : Eff) (s : State) : (Eff.when b p).run s = if b then p.run s else s := by
  cases b <;> rfl

/-- With power, a command's outcome is the state after its effect. -/
theorem Eff.done_on {p : Eff} {s : State} (h : s.power ≠ .off) : p.done s = .next (p.run s) := by
  simp [Eff.done, h]

/-- Without power, a command changes nothing. -/
theorem Eff.done_off {p : Eff} {s : State} (h : s.power = .off) : p.done s = .next s := by simp [Eff.done, h]

/-! Fields -/

/-- A field that has been written reads what its width keeps of the value. -/
theorem Fld.read_write (f : Fld) (v : Word) (x : Nat) (h : f.lo + f.w ≤ 64) : f.read (f.write v x) = x % 2 ^ f.w := by
  have hlo : v.toNat % 2 ^ f.lo < 2 ^ f.lo := Nat.mod_lt _ (by positivity)
  have hx : x % 2 ^ f.w < 2 ^ f.w := Nat.mod_lt _ (by positivity)
  have hsplit : (2 : Nat) ^ 64 = 2 ^ (f.lo + f.w) * 2 ^ (64 - (f.lo + f.w)) := by
    rw [← pow_add]; congr 1; omega
  have hv : v.toNat / 2 ^ (f.lo + f.w) < 2 ^ (64 - (f.lo + f.w)) := by
    rw [Nat.div_lt_iff_lt_mul (by positivity), mul_comm, ← hsplit]; exact v.isLt
  have hb : (x % 2 ^ f.w) * 2 ^ f.lo + v.toNat % 2 ^ f.lo < 2 ^ (f.lo + f.w) := by
    have : (x % 2 ^ f.w + 1) * 2 ^ f.lo ≤ 2 ^ f.w * 2 ^ f.lo := Nat.mul_le_mul_right _ hx
    rw [pow_add, mul_comm (2 ^ f.lo)]; nlinarith
  have hlt : putBits v.toNat f.lo f.w x < 2 ^ 64 := by
    unfold putBits
    have : (v.toNat / 2 ^ (f.lo + f.w) + 1) * 2 ^ (f.lo + f.w) ≤ 2 ^ 64 := by
      rw [hsplit, mul_comm (2 ^ (f.lo + f.w))]; exact Nat.mul_le_mul_right _ hv
    nlinarith
  unfold Fld.read Fld.write
  rw [BitVec.toNat_ofNat, Nat.mod_eq_of_lt hlt]
  unfold putBits
  rw [pow_add, show v.toNat / (2 ^ f.lo * 2 ^ f.w) * (2 ^ f.lo * 2 ^ f.w) + x % 2 ^ f.w * 2 ^ f.lo + v.toNat % 2 ^ f.lo
    = v.toNat % 2 ^ f.lo + 2 ^ f.lo * (v.toNat / (2 ^ f.lo * 2 ^ f.w) * 2 ^ f.w + x % 2 ^ f.w) by ring]
  rw [Nat.add_mul_div_left _ _ (by positivity), Nat.div_eq_of_lt hlo, zero_add, add_comm, Nat.add_mul_mod_self_right,
    Nat.mod_mod]

@[simp] theorem putReg_same (k : Nat) (v : Word) (s : State) : ((putReg k v).run s).regsAt k = v := by
  simp [putReg]

theorem putReg_other {k j : Nat} (h : j ≠ k) (v : Word) (s : State) : ((putReg k v).run s).regsAt j = s.regsAt j :=
  Upd.run_regs_other k j h v s

/-- A register write changes no other part of the state. -/
theorem putReg_rest (k : Nat) (v : Word) (s : State) : { (putReg k v).run s with regs := s.regs } = s := rfl

/-- A field write gives the field what its width keeps of the value. -/
theorem put_same (f : Fld) (x : Nat) (s : State) (h : f.lo + f.w ≤ 64) : ((put f x).run s).get f = x % 2 ^ f.w := by
  simp [put, State.get, Fld.read_write f _ x h]

/-- A field write changes no other register. -/
theorem put_other {f : Fld} {j : Nat} (h : j ≠ f.key) (x : Nat) (s : State) :
    ((put f x).run s).regsAt j = s.regsAt j := by
  simp [put, putReg_other h]

/-- A field write changes no other part of the state. -/
theorem put_rest (f : Fld) (x : Nat) (s : State) : { (put f x).run s with regs := s.regs } = s := rfl

@[simp] theorem only_putReg (k : Nat) (v : Word) : (putReg k v).Only W ↔ W (.regs k v) := Iff.rfl

theorem only_put (f : Fld) (x : Nat) (h : ∀ v, W (.regs f.key v)) : (put f x).Only W := fun _ => h _

theorem only_addSat (f : Fld) (n : Nat) (h : ∀ v, W (.regs f.key v)) : (addSat f n).Only W := fun _ _ => h _

theorem only_addWrap (f : Fld) (n : Nat) (h : ∀ v, W (.regs f.key v)) : (addWrap f n).Only W := fun _ _ => h _

/-- A saturating counter grows by `n`, up to all ones. -/
theorem addSat_same (f : Fld) (n : Nat) (s : State) (h : f.lo + f.w ≤ 64) :
    ((addSat f n).run s).get f = min (s.get f + n) (2 ^ f.w - 1) := by
  have hp : 0 < 2 ^ f.w := by positivity
  simp only [addSat, Eff.run_look, put_same f _ s h]
  exact Nat.mod_eq_of_lt (by omega)

/-- A wrapping counter grows by `n`. -/
theorem addWrap_same (f : Fld) (n : Nat) (s : State) (h : f.lo + f.w ≤ 64) :
    ((addWrap f n).run s).get f = (s.get f + n) % 2 ^ f.w := by
  simp only [addWrap, Eff.run_look, put_same f _ s h]

theorem addWrap_other {f : Fld} {j : Nat} (h : j ≠ f.key) (n : Nat) (s : State) :
    ((addWrap f n).run s).regsAt j = s.regsAt j := by simp [addWrap, put_other h]

theorem addSat_other {f : Fld} {j : Nat} (h : j ≠ f.key) (n : Nat) (s : State) :
    ((addSat f n).run s).regsAt j = s.regsAt j := by simp [addSat, put_other h]

/-! Bytes -/

/-- Storing bytes makes exactly the stored addresses read the bytes. -/
theorem pokeBytes_same (bs : List Byte) (a : Nat) (s : State) (i : Nat) (h : i < bs.length) :
    ((pokeBytes a bs).run s).memAt (a + i) = bs[i] := by
  induction bs generalizing a s i with
  | nil => simp at h
  | cons b rest ih =>
    have key : ∀ (t : State) (c : Nat) (xs : List Byte), a < c → ((pokeBytes c xs).run t).memAt a = t.memAt a := by
      intro t c xs
      induction xs generalizing t c with
      | nil => intro _; rfl
      | cons x xs ihx =>
        intro hc
        simp only [pokeBytes, Eff.run_seq, Eff.run_upd]
        rw [ihx _ _ (by omega), Upd.run_mem_other _ _ (by omega)]
    cases i with
    | zero => simp only [pokeBytes, Eff.run_seq, Eff.run_upd, Nat.add_zero]; rw [key _ _ _ (by omega)]; simp
    | succ i =>
      simp only [pokeBytes, Eff.run_seq, Eff.run_upd]
      rw [show a + (i + 1) = a + 1 + i by omega, ih _ _ _ (by simpa using h)]; simp

/-- Storing bytes leaves every other address. -/
theorem pokeBytes_other (bs : List Byte) (a : Nat) (s : State) (x : Nat) (h : x < a ∨ a + bs.length ≤ x) :
    ((pokeBytes a bs).run s).memAt x = s.memAt x := by
  induction bs generalizing a s with
  | nil => rfl
  | cons b rest ih =>
    simp only [List.length_cons] at h
    simp only [pokeBytes, Eff.run_seq, Eff.run_upd]
    rw [ih _ _ (by omega), Upd.run_mem_other _ _ (by omega)]

/-- Storing bytes writes nothing but bytes of the device memory. -/
theorem only_pokeBytes (bs : List Byte) (a : Nat) (h : ∀ k v, W (.mem k v)) : (pokeBytes a bs).Only W := by
  induction bs generalizing a with
  | nil => trivial
  | cons b rest ih => exact ⟨h _ _, ih _⟩

/-- Storing bytes in a host's memory writes nothing else. -/
theorem only_pokeHost (bs : List Byte) (p a : Nat) (h : ∀ k v, W (.hostMem k v)) : (pokeHost p a bs).Only W := by
  induction bs generalizing a with
  | nil => trivial
  | cons b rest ih => exact ⟨h _ _, ih _⟩

end Sys2Proof.Machine
end

