-- ==== Sys2Proof/Laws/Parts.lean ====
section
/-! SUPPORT. Which parts of the state an effect may write: `Upd.part` names the part that a primitive update writes,
`Eff.In ps` says that an effect writes parts of the list `ps` alone, and then it changes no other part. -/

namespace Sys2Proof.Machine

/-- The part that a primitive update writes. -/
def Upd.part (u : Upd) : Part :=
  match u with
  | .now _ => .now
  | .tideOff _ => .tideOff
  | .freeCtr _ => .freeCtr
  | .out _ => .out
  | .regs _ _ => .regs
  | .shadows _ _ => .shadows
  | .mem _ _ => .mem
  | .check _ _ => .check
  | .marks _ _ => .marks
  | .hostMem _ _ => .hostMem
  | .msix _ _ => .msix
  | .mgmtQ _ => .mgmtQ
  | .mgmtDropped _ => .mgmtDropped
  | .mon _ _ => .mon
  | .cache _ _ => .cache
  | .tagLost _ _ => .tagLost
  | .tracker _ _ => .tracker
  | .spares _ _ => .spares
  | .remapNew _ => .remapNew
  | .remapFlash _ => .remapFlash
  | .held _ _ => .held
  | .granted _ _ => .granted
  | .heldParts _ _ => .heldParts
  | .rxWait _ _ => .rxWait
  | .boot _ => .boot
  | .replaceFlash _ => .replaceFlash
  | .gwOut _ => .gwOut
  | .hopBuf _ _ => .hopBuf
  | .parityCount _ _ => .parityCount
  | .gwSeq _ _ => .gwSeq
  | .gwSpray _ _ => .gwSpray
  | .sigQ _ => .sigQ
  | .landQ _ => .landQ
  | .arrQ _ => .arrQ
  | .relQ _ => .relQ
  | .waiters _ _ => .waiters
  | .waitSince _ _ => .waitSince
  | .buRound _ _ => .buRound
  | .relSeen _ _ => .relSeen
  | .tagNext _ => .tagNext
  | .loads _ _ => .loads
  | .icache _ _ => .icache
  | .rrLast _ _ => .rrLast
  | .thrStep _ _ => .thrStep
  | .vecQ _ _ => .vecQ
  | .qeQ _ _ => .qeQ
  | .qeSubs _ _ => .qeSubs
  | .qeFlush _ _ => .qeFlush
  | .segQ _ => .segQ
  | .creditQ _ => .creditQ
  | .routeSlot _ _ => .routeSlot
  | .stallSince _ _ => .stallSince
  | .passQ _ _ => .passQ
  | .feedAt _ _ => .feedAt
  | .refRow _ _ => .refRow
  | .scrubRun _ _ => .scrubRun
  | .buQ _ _ => .buQ
  | .buBuf _ _ => .buBuf
  | .buBook _ _ => .buBook
  | .buSlot _ _ => .buSlot
  | .yieldAt _ _ => .yieldAt
  | .kvtQ _ _ => .kvtQ
  | .kvtEnd _ _ => .kvtEnd
  | .kvtMigQ _ _ => .kvtMigQ
  | .kvtMoves _ _ => .kvtMoves
  | .kvtFrees _ _ => .kvtFrees
  | .kvtStaged _ _ => .kvtStaged
  | .gdRetrain _ _ => .gdRetrain
  | .cmds _ => .cmds
  | .fetchAt _ _ => .fetchAt
  | .cqAgg _ _ => .cqAgg
  | .linkDown _ _ => .linkDown
  | .pmKey _ _ => .pmKey
  | .pmFlash _ _ => .pmFlash
  | .pmMark _ _ => .pmMark
  | .tampered _ => .tampered
  | .offer _ => .offer
  | .seqs _ _ => .seqs
  | .dispatchLog _ _ => .dispatchLog
  | .dispatchFlash _ => .dispatchFlash
  | .franks _ _ => .franks
  | .fuseLcy _ => .fuseLcy
  | .ready _ => .ready
  | .stageAt _ => .stageAt
  | .agreed _ _ => .agreed
  | .perst _ _ => .perst
  | .chart _ => .chart
  | .chartLive _ => .chartLive
  | .chartLoad _ => .chartLoad
  | .applyNow _ => .applyNow
  | .flashAt _ => .flashAt
  | .fwAt _ => .fwAt
  | .hello _ => .hello
  | .enrolled _ => .enrolled
  | .resetAt _ => .resetAt
  | .dlEnd _ _ => .dlEnd
  | .dlFail _ _ => .dlFail
  | .dlOld _ _ => .dlOld
  | .dlMoves _ => .dlMoves
  | .tideFirst _ => .tideFirst
  | .tideNext _ => .tideNext
  | .tidePer _ => .tidePer
  | .slackAt _ => .slackAt
  | .edgeCut _ => .edgeCut
  | .slackFor _ => .slackFor
  | .holdSince _ => .holdSince
  | .overAt _ _ => .overAt
  | .stepEnd _ _ => .stepEnd
  | .stepAt _ _ => .stepAt
  | .stepTime _ => .stepTime
  | .edgeNom _ => .edgeNom
  | .stretchFor _ => .stretchFor
  | .announced _ => .announced
  | .reports _ => .reports
  | .reported _ => .reported
  | .synced _ => .synced
  | .syncAt _ => .syncAt
  | .retirePend _ => .retirePend
  | .restage _ => .restage
  | .cutNew _ => .cutNew
  | .gwNext _ _ => .gwNext
  | .gwHold _ _ => .gwHold
  | .gwRefused _ _ => .gwRefused
  | .xqDesc _ _ => .xqDesc
  | .bar2 _ _ => .bar2
  | .power _ => .power
  | .suspects _ _ => .suspects
  | .disagreed _ _ => .disagreed
  | .soundings _ _ => .soundings
  | .residuals _ _ => .residuals
  | .foretold _ _ => .foretold
  | .rotAt _ _ => .rotAt
  | .ceCount _ _ => .ceCount
  | .testFrom _ => .testFrom
  | .gov _ => .gov
  | .eid _ => .eid
  | .regsDrop _ => .regs
  | .shadowsDrop _ => .shadows
  | .memDrop _ => .mem
  | .checkDrop _ => .check
  | .marksDrop _ => .marks
  | .hostMemDrop _ => .hostMem
  | .msixDrop _ => .msix
  | .monDrop _ => .mon
  | .cacheDrop _ => .cache
  | .tagLostDrop _ => .tagLost
  | .trackerDrop _ => .tracker
  | .sparesDrop _ => .spares
  | .heldDrop _ => .held
  | .grantedDrop _ => .granted
  | .heldPartsDrop _ => .heldParts
  | .rxWaitDrop _ => .rxWait
  | .hopBufDrop _ => .hopBuf
  | .parityCountDrop _ => .parityCount
  | .gwSeqDrop _ => .gwSeq
  | .gwSprayDrop _ => .gwSpray
  | .waitersDrop _ => .waiters
  | .waitSinceDrop _ => .waitSince
  | .buRoundDrop _ => .buRound
  | .relSeenDrop _ => .relSeen
  | .loadsDrop _ => .loads
  | .icacheDrop _ => .icache
  | .rrLastDrop _ => .rrLast
  | .thrStepDrop _ => .thrStep
  | .vecQDrop _ => .vecQ
  | .qeQDrop _ => .qeQ
  | .qeSubsDrop _ => .qeSubs
  | .qeFlushDrop _ => .qeFlush
  | .routeSlotDrop _ => .routeSlot
  | .stallSinceDrop _ => .stallSince
  | .passQDrop _ => .passQ
  | .feedAtDrop _ => .feedAt
  | .refRowDrop _ => .refRow
  | .scrubRunDrop _ => .scrubRun
  | .buQDrop _ => .buQ
  | .buBufDrop _ => .buBuf
  | .buBookDrop _ => .buBook
  | .buSlotDrop _ => .buSlot
  | .yieldAtDrop _ => .yieldAt
  | .kvtQDrop _ => .kvtQ
  | .kvtEndDrop _ => .kvtEnd
  | .kvtMigQDrop _ => .kvtMigQ
  | .kvtMovesDrop _ => .kvtMoves
  | .kvtFreesDrop _ => .kvtFrees
  | .kvtStagedDrop _ => .kvtStaged
  | .gdRetrainDrop _ => .gdRetrain
  | .fetchAtDrop _ => .fetchAt
  | .cqAggDrop _ => .cqAgg
  | .linkDownDrop _ => .linkDown
  | .pmKeyDrop _ => .pmKey
  | .pmFlashDrop _ => .pmFlash
  | .pmMarkDrop _ => .pmMark
  | .seqsDrop _ => .seqs
  | .dispatchLogDrop _ => .dispatchLog
  | .franksDrop _ => .franks
  | .agreedDrop _ => .agreed
  | .perstDrop _ => .perst
  | .dlEndDrop _ => .dlEnd
  | .dlFailDrop _ => .dlFail
  | .dlOldDrop _ => .dlOld
  | .overAtDrop _ => .overAt
  | .stepEndDrop _ => .stepEnd
  | .stepAtDrop _ => .stepAt
  | .gwNextDrop _ => .gwNext
  | .gwHoldDrop _ => .gwHold
  | .gwRefusedDrop _ => .gwRefused
  | .xqDescDrop _ => .xqDesc
  | .bar2Drop _ => .bar2
  | .suspectsDrop _ => .suspects
  | .disagreedDrop _ => .disagreed
  | .soundingsDrop _ => .soundings
  | .residualsDrop _ => .residuals
  | .foretoldDrop _ => .foretold
  | .rotAtDrop _ => .rotAt
  | .ceCountDrop _ => .ceCount

/-- The place of a part among the parts. -/
def Part.at : Part → Nat
  | .now => 0
  | .tideOff => 1
  | .freeCtr => 2
  | .out => 3
  | .regs => 4
  | .shadows => 5
  | .mem => 6
  | .check => 7
  | .marks => 8
  | .hostMem => 9
  | .msix => 10
  | .mgmtQ => 11
  | .mgmtDropped => 12
  | .mon => 13
  | .cache => 14
  | .tagLost => 15
  | .tracker => 16
  | .spares => 17
  | .remapNew => 18
  | .remapFlash => 19
  | .held => 20
  | .granted => 21
  | .heldParts => 22
  | .rxWait => 23
  | .boot => 24
  | .replaceFlash => 25
  | .gwOut => 26
  | .hopBuf => 27
  | .parityCount => 28
  | .gwSeq => 29
  | .gwSpray => 30
  | .sigQ => 31
  | .landQ => 32
  | .arrQ => 33
  | .relQ => 34
  | .waiters => 35
  | .waitSince => 36
  | .buRound => 37
  | .relSeen => 38
  | .tagNext => 39
  | .loads => 40
  | .icache => 41
  | .rrLast => 42
  | .thrStep => 43
  | .vecQ => 44
  | .qeQ => 45
  | .qeSubs => 46
  | .qeFlush => 47
  | .segQ => 48
  | .creditQ => 49
  | .routeSlot => 50
  | .stallSince => 51
  | .passQ => 52
  | .feedAt => 53
  | .refRow => 54
  | .scrubRun => 55
  | .buQ => 56
  | .buBuf => 57
  | .buBook => 58
  | .buSlot => 59
  | .yieldAt => 60
  | .kvtQ => 61
  | .kvtEnd => 62
  | .kvtMigQ => 63
  | .kvtMoves => 64
  | .kvtFrees => 65
  | .kvtStaged => 66
  | .gdRetrain => 67
  | .cmds => 68
  | .fetchAt => 69
  | .cqAgg => 70
  | .linkDown => 71
  | .pmKey => 72
  | .pmFlash => 73
  | .pmMark => 74
  | .tampered => 75
  | .offer => 76
  | .seqs => 77
  | .dispatchLog => 78
  | .dispatchFlash => 79
  | .franks => 80
  | .fuseLcy => 81
  | .ready => 82
  | .stageAt => 83
  | .agreed => 84
  | .perst => 85
  | .chart => 86
  | .chartLive => 87
  | .chartLoad => 88
  | .applyNow => 89
  | .flashAt => 90
  | .fwAt => 91
  | .hello => 92
  | .enrolled => 93
  | .resetAt => 94
  | .dlEnd => 95
  | .dlFail => 96
  | .dlOld => 97
  | .dlMoves => 98
  | .tideFirst => 99
  | .tideNext => 100
  | .tidePer => 101
  | .slackAt => 102
  | .edgeCut => 103
  | .slackFor => 104
  | .holdSince => 105
  | .overAt => 106
  | .stepEnd => 107
  | .stepAt => 108
  | .stepTime => 109
  | .edgeNom => 110
  | .stretchFor => 111
  | .announced => 112
  | .reports => 113
  | .reported => 114
  | .synced => 115
  | .syncAt => 116
  | .retirePend => 117
  | .restage => 118
  | .cutNew => 119
  | .gwNext => 120
  | .gwHold => 121
  | .gwRefused => 122
  | .xqDesc => 123
  | .bar2 => 124
  | .power => 125
  | .suspects => 126
  | .disagreed => 127
  | .soundings => 128
  | .residuals => 129
  | .foretold => 130
  | .rotAt => 131
  | .ceCount => 132
  | .testFrom => 133
  | .gov => 134
  | .eid => 135

/-- The values of the parts in their order. -/
def State.vals (s : State) : List ((α : Type) × α) := [
  ⟨_, s.now⟩,
  ⟨_, s.tideOff⟩,
  ⟨_, s.freeCtr⟩,
  ⟨_, s.out⟩,
  ⟨_, s.regs⟩,
  ⟨_, s.shadows⟩,
  ⟨_, s.mem⟩,
  ⟨_, s.check⟩,
  ⟨_, s.marks⟩,
  ⟨_, s.hostMem⟩,
  ⟨_, s.msix⟩,
  ⟨_, s.mgmtQ⟩,
  ⟨_, s.mgmtDropped⟩,
  ⟨_, s.mon⟩,
  ⟨_, s.cache⟩,
  ⟨_, s.tagLost⟩,
  ⟨_, s.tracker⟩,
  ⟨_, s.spares⟩,
  ⟨_, s.remapNew⟩,
  ⟨_, s.remapFlash⟩,
  ⟨_, s.held⟩,
  ⟨_, s.granted⟩,
  ⟨_, s.heldParts⟩,
  ⟨_, s.rxWait⟩,
  ⟨_, s.boot⟩,
  ⟨_, s.replaceFlash⟩,
  ⟨_, s.gwOut⟩,
  ⟨_, s.hopBuf⟩,
  ⟨_, s.parityCount⟩,
  ⟨_, s.gwSeq⟩,
  ⟨_, s.gwSpray⟩,
  ⟨_, s.sigQ⟩,
  ⟨_, s.landQ⟩,
  ⟨_, s.arrQ⟩,
  ⟨_, s.relQ⟩,
  ⟨_, s.waiters⟩,
  ⟨_, s.waitSince⟩,
  ⟨_, s.buRound⟩,
  ⟨_, s.relSeen⟩,
  ⟨_, s.tagNext⟩,
  ⟨_, s.loads⟩,
  ⟨_, s.icache⟩,
  ⟨_, s.rrLast⟩,
  ⟨_, s.thrStep⟩,
  ⟨_, s.vecQ⟩,
  ⟨_, s.qeQ⟩,
  ⟨_, s.qeSubs⟩,
  ⟨_, s.qeFlush⟩,
  ⟨_, s.segQ⟩,
  ⟨_, s.creditQ⟩,
  ⟨_, s.routeSlot⟩,
  ⟨_, s.stallSince⟩,
  ⟨_, s.passQ⟩,
  ⟨_, s.feedAt⟩,
  ⟨_, s.refRow⟩,
  ⟨_, s.scrubRun⟩,
  ⟨_, s.buQ⟩,
  ⟨_, s.buBuf⟩,
  ⟨_, s.buBook⟩,
  ⟨_, s.buSlot⟩,
  ⟨_, s.yieldAt⟩,
  ⟨_, s.kvtQ⟩,
  ⟨_, s.kvtEnd⟩,
  ⟨_, s.kvtMigQ⟩,
  ⟨_, s.kvtMoves⟩,
  ⟨_, s.kvtFrees⟩,
  ⟨_, s.kvtStaged⟩,
  ⟨_, s.gdRetrain⟩,
  ⟨_, s.cmds⟩,
  ⟨_, s.fetchAt⟩,
  ⟨_, s.cqAgg⟩,
  ⟨_, s.linkDown⟩,
  ⟨_, s.pmKey⟩,
  ⟨_, s.pmFlash⟩,
  ⟨_, s.pmMark⟩,
  ⟨_, s.tampered⟩,
  ⟨_, s.offer⟩,
  ⟨_, s.seqs⟩,
  ⟨_, s.dispatchLog⟩,
  ⟨_, s.dispatchFlash⟩,
  ⟨_, s.franks⟩,
  ⟨_, s.fuseLcy⟩,
  ⟨_, s.ready⟩,
  ⟨_, s.stageAt⟩,
  ⟨_, s.agreed⟩,
  ⟨_, s.perst⟩,
  ⟨_, s.chart⟩,
  ⟨_, s.chartLive⟩,
  ⟨_, s.chartLoad⟩,
  ⟨_, s.applyNow⟩,
  ⟨_, s.flashAt⟩,
  ⟨_, s.fwAt⟩,
  ⟨_, s.hello⟩,
  ⟨_, s.enrolled⟩,
  ⟨_, s.resetAt⟩,
  ⟨_, s.dlEnd⟩,
  ⟨_, s.dlFail⟩,
  ⟨_, s.dlOld⟩,
  ⟨_, s.dlMoves⟩,
  ⟨_, s.tideFirst⟩,
  ⟨_, s.tideNext⟩,
  ⟨_, s.tidePer⟩,
  ⟨_, s.slackAt⟩,
  ⟨_, s.edgeCut⟩,
  ⟨_, s.slackFor⟩,
  ⟨_, s.holdSince⟩,
  ⟨_, s.overAt⟩,
  ⟨_, s.stepEnd⟩,
  ⟨_, s.stepAt⟩,
  ⟨_, s.stepTime⟩,
  ⟨_, s.edgeNom⟩,
  ⟨_, s.stretchFor⟩,
  ⟨_, s.announced⟩,
  ⟨_, s.reports⟩,
  ⟨_, s.reported⟩,
  ⟨_, s.synced⟩,
  ⟨_, s.syncAt⟩,
  ⟨_, s.retirePend⟩,
  ⟨_, s.restage⟩,
  ⟨_, s.cutNew⟩,
  ⟨_, s.gwNext⟩,
  ⟨_, s.gwHold⟩,
  ⟨_, s.gwRefused⟩,
  ⟨_, s.xqDesc⟩,
  ⟨_, s.bar2⟩,
  ⟨_, s.power⟩,
  ⟨_, s.suspects⟩,
  ⟨_, s.disagreed⟩,
  ⟨_, s.soundings⟩,
  ⟨_, s.residuals⟩,
  ⟨_, s.foretold⟩,
  ⟨_, s.rotAt⟩,
  ⟨_, s.ceCount⟩,
  ⟨_, s.testFrom⟩,
  ⟨_, s.gov⟩,
  ⟨_, s.eid⟩]


theorem Upd.vals_now (v : _) (s : State) : ∃ w, (Upd.run (.now v) s).vals = s.vals.set 0 w := by
  dsimp only [Upd.run, State.vals, List.set]; exact ⟨_, rfl⟩
theorem Upd.vals_tideOff (v : _) (s : State) : ∃ w, (Upd.run (.tideOff v) s).vals = s.vals.set 1 w := by
  dsimp only [Upd.run, State.vals, List.set]; exact ⟨_, rfl⟩
theorem Upd.vals_freeCtr (v : _) (s : State) : ∃ w, (Upd.run (.freeCtr v) s).vals = s.vals.set 2 w := by
  dsimp only [Upd.run, State.vals, List.set]; exact ⟨_, rfl⟩
theorem Upd.vals_out (v : _) (s : State) : ∃ w, (Upd.run (.out v) s).vals = s.vals.set 3 w := by
  dsimp only [Upd.run, State.vals, List.set]; exact ⟨_, rfl⟩
theorem Upd.vals_regs (k : _) (v : _) (s : State) : ∃ w, (Upd.run (.regs k v) s).vals = s.vals.set 4 w := by
  dsimp only [Upd.run, State.vals, List.set]; exact ⟨_, rfl⟩
theorem Upd.vals_regsDrop (q : _) (s : State) : ∃ w, (Upd.run (.regsDrop q) s).vals = s.vals.set 4 w := by
  dsimp only [Upd.run, State.vals, List.set]; exact ⟨_, rfl⟩
theorem Upd.vals_shadows (k : _) (v : _) (s : State) : ∃ w, (Upd.run (.shadows k v) s).vals = s.vals.set 5 w := by
  dsimp only [Upd.run, State.vals, List.set]; exact ⟨_, rfl⟩
theorem Upd.vals_shadowsDrop (q : _) (s : State) : ∃ w, (Upd.run (.shadowsDrop q) s).vals = s.vals.set 5 w := by
  dsimp only [Upd.run, State.vals, List.set]; exact ⟨_, rfl⟩
theorem Upd.vals_mem (k : _) (v : _) (s : State) : ∃ w, (Upd.run (.mem k v) s).vals = s.vals.set 6 w := by
  dsimp only [Upd.run, State.vals, List.set]; exact ⟨_, rfl⟩
theorem Upd.vals_memDrop (q : _) (s : State) : ∃ w, (Upd.run (.memDrop q) s).vals = s.vals.set 6 w := by
  dsimp only [Upd.run, State.vals, List.set]; exact ⟨_, rfl⟩
theorem Upd.vals_check (k : _) (v : _) (s : State) : ∃ w, (Upd.run (.check k v) s).vals = s.vals.set 7 w := by
  dsimp only [Upd.run, State.vals, List.set]; exact ⟨_, rfl⟩
theorem Upd.vals_checkDrop (q : _) (s : State) : ∃ w, (Upd.run (.checkDrop q) s).vals = s.vals.set 7 w := by
  dsimp only [Upd.run, State.vals, List.set]; exact ⟨_, rfl⟩
theorem Upd.vals_marks (k : _) (v : _) (s : State) : ∃ w, (Upd.run (.marks k v) s).vals = s.vals.set 8 w := by
  dsimp only [Upd.run, State.vals, List.set]; exact ⟨_, rfl⟩
theorem Upd.vals_marksDrop (q : _) (s : State) : ∃ w, (Upd.run (.marksDrop q) s).vals = s.vals.set 8 w := by
  dsimp only [Upd.run, State.vals, List.set]; exact ⟨_, rfl⟩
theorem Upd.vals_hostMem (k : _) (v : _) (s : State) : ∃ w, (Upd.run (.hostMem k v) s).vals = s.vals.set 9 w := by
  dsimp only [Upd.run, State.vals, List.set]; exact ⟨_, rfl⟩
theorem Upd.vals_hostMemDrop (q : _) (s : State) : ∃ w, (Upd.run (.hostMemDrop q) s).vals = s.vals.set 9 w := by
  dsimp only [Upd.run, State.vals, List.set]; exact ⟨_, rfl⟩
theorem Upd.vals_msix (k : _) (v : _) (s : State) : ∃ w, (Upd.run (.msix k v) s).vals = s.vals.set 10 w := by
  dsimp only [Upd.run, State.vals, List.set]; exact ⟨_, rfl⟩
theorem Upd.vals_msixDrop (q : _) (s : State) : ∃ w, (Upd.run (.msixDrop q) s).vals = s.vals.set 10 w := by
  dsimp only [Upd.run, State.vals, List.set]; exact ⟨_, rfl⟩
theorem Upd.vals_mgmtQ (v : _) (s : State) : ∃ w, (Upd.run (.mgmtQ v) s).vals = s.vals.set 11 w := by
  dsimp only [Upd.run, State.vals, List.set]; exact ⟨_, rfl⟩
theorem Upd.vals_mgmtDropped (v : _) (s : State) : ∃ w, (Upd.run (.mgmtDropped v) s).vals = s.vals.set 12 w := by
  dsimp only [Upd.run, State.vals, List.set]; exact ⟨_, rfl⟩
theorem Upd.vals_mon (k : _) (v : _) (s : State) : ∃ w, (Upd.run (.mon k v) s).vals = s.vals.set 13 w := by
  dsimp only [Upd.run, State.vals, List.set]; exact ⟨_, rfl⟩
theorem Upd.vals_monDrop (q : _) (s : State) : ∃ w, (Upd.run (.monDrop q) s).vals = s.vals.set 13 w := by
  dsimp only [Upd.run, State.vals, List.set]; exact ⟨_, rfl⟩
theorem Upd.vals_cache (k : _) (v : _) (s : State) : ∃ w, (Upd.run (.cache k v) s).vals = s.vals.set 14 w := by
  dsimp only [Upd.run, State.vals, List.set]; exact ⟨_, rfl⟩
theorem Upd.vals_cacheDrop (q : _) (s : State) : ∃ w, (Upd.run (.cacheDrop q) s).vals = s.vals.set 14 w := by
  dsimp only [Upd.run, State.vals, List.set]; exact ⟨_, rfl⟩
theorem Upd.vals_tagLost (k : _) (v : _) (s : State) : ∃ w, (Upd.run (.tagLost k v) s).vals = s.vals.set 15 w := by
  dsimp only [Upd.run, State.vals, List.set]; exact ⟨_, rfl⟩
theorem Upd.vals_tagLostDrop (q : _) (s : State) : ∃ w, (Upd.run (.tagLostDrop q) s).vals = s.vals.set 15 w := by
  dsimp only [Upd.run, State.vals, List.set]; exact ⟨_, rfl⟩
theorem Upd.vals_tracker (k : _) (v : _) (s : State) : ∃ w, (Upd.run (.tracker k v) s).vals = s.vals.set 16 w := by
  dsimp only [Upd.run, State.vals, List.set]; exact ⟨_, rfl⟩
theorem Upd.vals_trackerDrop (q : _) (s : State) : ∃ w, (Upd.run (.trackerDrop q) s).vals = s.vals.set 16 w := by
  dsimp only [Upd.run, State.vals, List.set]; exact ⟨_, rfl⟩
theorem Upd.vals_spares (k : _) (v : _) (s : State) : ∃ w, (Upd.run (.spares k v) s).vals = s.vals.set 17 w := by
  dsimp only [Upd.run, State.vals, List.set]; exact ⟨_, rfl⟩
theorem Upd.vals_sparesDrop (q : _) (s : State) : ∃ w, (Upd.run (.sparesDrop q) s).vals = s.vals.set 17 w := by
  dsimp only [Upd.run, State.vals, List.set]; exact ⟨_, rfl⟩
theorem Upd.vals_remapNew (v : _) (s : State) : ∃ w, (Upd.run (.remapNew v) s).vals = s.vals.set 18 w := by
  dsimp only [Upd.run, State.vals, List.set]; exact ⟨_, rfl⟩
theorem Upd.vals_remapFlash (v : _) (s : State) : ∃ w, (Upd.run (.remapFlash v) s).vals = s.vals.set 19 w := by
  dsimp only [Upd.run, State.vals, List.set]; exact ⟨_, rfl⟩
theorem Upd.vals_held (k : _) (v : _) (s : State) : ∃ w, (Upd.run (.held k v) s).vals = s.vals.set 20 w := by
  dsimp only [Upd.run, State.vals, List.set]; exact ⟨_, rfl⟩
theorem Upd.vals_heldDrop (q : _) (s : State) : ∃ w, (Upd.run (.heldDrop q) s).vals = s.vals.set 20 w := by
  dsimp only [Upd.run, State.vals, List.set]; exact ⟨_, rfl⟩
theorem Upd.vals_granted (k : _) (v : _) (s : State) : ∃ w, (Upd.run (.granted k v) s).vals = s.vals.set 21 w := by
  dsimp only [Upd.run, State.vals, List.set]; exact ⟨_, rfl⟩
theorem Upd.vals_grantedDrop (q : _) (s : State) : ∃ w, (Upd.run (.grantedDrop q) s).vals = s.vals.set 21 w := by
  dsimp only [Upd.run, State.vals, List.set]; exact ⟨_, rfl⟩
theorem Upd.vals_heldParts (k : _) (v : _) (s : State) : ∃ w, (Upd.run (.heldParts k v) s).vals = s.vals.set 22 w := by
  dsimp only [Upd.run, State.vals, List.set]; exact ⟨_, rfl⟩
theorem Upd.vals_heldPartsDrop (q : _) (s : State) : ∃ w, (Upd.run (.heldPartsDrop q) s).vals = s.vals.set 22 w := by
  dsimp only [Upd.run, State.vals, List.set]; exact ⟨_, rfl⟩
theorem Upd.vals_rxWait (k : _) (v : _) (s : State) : ∃ w, (Upd.run (.rxWait k v) s).vals = s.vals.set 23 w := by
  dsimp only [Upd.run, State.vals, List.set]; exact ⟨_, rfl⟩
theorem Upd.vals_rxWaitDrop (q : _) (s : State) : ∃ w, (Upd.run (.rxWaitDrop q) s).vals = s.vals.set 23 w := by
  dsimp only [Upd.run, State.vals, List.set]; exact ⟨_, rfl⟩
theorem Upd.vals_boot (v : _) (s : State) : ∃ w, (Upd.run (.boot v) s).vals = s.vals.set 24 w := by
  dsimp only [Upd.run, State.vals, List.set]; exact ⟨_, rfl⟩
theorem Upd.vals_replaceFlash (v : _) (s : State) : ∃ w, (Upd.run (.replaceFlash v) s).vals = s.vals.set 25 w := by
  dsimp only [Upd.run, State.vals, List.set]; exact ⟨_, rfl⟩
theorem Upd.vals_gwOut (v : _) (s : State) : ∃ w, (Upd.run (.gwOut v) s).vals = s.vals.set 26 w := by
  dsimp only [Upd.run, State.vals, List.set]; exact ⟨_, rfl⟩
theorem Upd.vals_hopBuf (k : _) (v : _) (s : State) : ∃ w, (Upd.run (.hopBuf k v) s).vals = s.vals.set 27 w := by
  dsimp only [Upd.run, State.vals, List.set]; exact ⟨_, rfl⟩
theorem Upd.vals_hopBufDrop (q : _) (s : State) : ∃ w, (Upd.run (.hopBufDrop q) s).vals = s.vals.set 27 w := by
  dsimp only [Upd.run, State.vals, List.set]; exact ⟨_, rfl⟩
theorem Upd.vals_parityCount (k : _) (v : _) (s : State) : ∃ w, (Upd.run (.parityCount k v) s).vals = s.vals.set 28 w := by
  dsimp only [Upd.run, State.vals, List.set]; exact ⟨_, rfl⟩
theorem Upd.vals_parityCountDrop (q : _) (s : State) : ∃ w, (Upd.run (.parityCountDrop q) s).vals = s.vals.set 28 w := by
  dsimp only [Upd.run, State.vals, List.set]; exact ⟨_, rfl⟩
theorem Upd.vals_gwSeq (k : _) (v : _) (s : State) : ∃ w, (Upd.run (.gwSeq k v) s).vals = s.vals.set 29 w := by
  dsimp only [Upd.run, State.vals, List.set]; exact ⟨_, rfl⟩
theorem Upd.vals_gwSeqDrop (q : _) (s : State) : ∃ w, (Upd.run (.gwSeqDrop q) s).vals = s.vals.set 29 w := by
  dsimp only [Upd.run, State.vals, List.set]; exact ⟨_, rfl⟩
theorem Upd.vals_gwSpray (k : _) (v : _) (s : State) : ∃ w, (Upd.run (.gwSpray k v) s).vals = s.vals.set 30 w := by
  dsimp only [Upd.run, State.vals, List.set]; exact ⟨_, rfl⟩
theorem Upd.vals_gwSprayDrop (q : _) (s : State) : ∃ w, (Upd.run (.gwSprayDrop q) s).vals = s.vals.set 30 w := by
  dsimp only [Upd.run, State.vals, List.set]; exact ⟨_, rfl⟩
theorem Upd.vals_sigQ (v : _) (s : State) : ∃ w, (Upd.run (.sigQ v) s).vals = s.vals.set 31 w := by
  dsimp only [Upd.run, State.vals, List.set]; exact ⟨_, rfl⟩
theorem Upd.vals_landQ (v : _) (s : State) : ∃ w, (Upd.run (.landQ v) s).vals = s.vals.set 32 w := by
  dsimp only [Upd.run, State.vals, List.set]; exact ⟨_, rfl⟩
theorem Upd.vals_arrQ (v : _) (s : State) : ∃ w, (Upd.run (.arrQ v) s).vals = s.vals.set 33 w := by
  dsimp only [Upd.run, State.vals, List.set]; exact ⟨_, rfl⟩
theorem Upd.vals_relQ (v : _) (s : State) : ∃ w, (Upd.run (.relQ v) s).vals = s.vals.set 34 w := by
  dsimp only [Upd.run, State.vals, List.set]; exact ⟨_, rfl⟩
theorem Upd.vals_waiters (k : _) (v : _) (s : State) : ∃ w, (Upd.run (.waiters k v) s).vals = s.vals.set 35 w := by
  dsimp only [Upd.run, State.vals, List.set]; exact ⟨_, rfl⟩
theorem Upd.vals_waitersDrop (q : _) (s : State) : ∃ w, (Upd.run (.waitersDrop q) s).vals = s.vals.set 35 w := by
  dsimp only [Upd.run, State.vals, List.set]; exact ⟨_, rfl⟩
theorem Upd.vals_waitSince (k : _) (v : _) (s : State) : ∃ w, (Upd.run (.waitSince k v) s).vals = s.vals.set 36 w := by
  dsimp only [Upd.run, State.vals, List.set]; exact ⟨_, rfl⟩
theorem Upd.vals_waitSinceDrop (q : _) (s : State) : ∃ w, (Upd.run (.waitSinceDrop q) s).vals = s.vals.set 36 w := by
  dsimp only [Upd.run, State.vals, List.set]; exact ⟨_, rfl⟩
theorem Upd.vals_buRound (k : _) (v : _) (s : State) : ∃ w, (Upd.run (.buRound k v) s).vals = s.vals.set 37 w := by
  dsimp only [Upd.run, State.vals, List.set]; exact ⟨_, rfl⟩
theorem Upd.vals_buRoundDrop (q : _) (s : State) : ∃ w, (Upd.run (.buRoundDrop q) s).vals = s.vals.set 37 w := by
  dsimp only [Upd.run, State.vals, List.set]; exact ⟨_, rfl⟩
theorem Upd.vals_relSeen (k : _) (v : _) (s : State) : ∃ w, (Upd.run (.relSeen k v) s).vals = s.vals.set 38 w := by
  dsimp only [Upd.run, State.vals, List.set]; exact ⟨_, rfl⟩
theorem Upd.vals_relSeenDrop (q : _) (s : State) : ∃ w, (Upd.run (.relSeenDrop q) s).vals = s.vals.set 38 w := by
  dsimp only [Upd.run, State.vals, List.set]; exact ⟨_, rfl⟩
theorem Upd.vals_tagNext (v : _) (s : State) : ∃ w, (Upd.run (.tagNext v) s).vals = s.vals.set 39 w := by
  dsimp only [Upd.run, State.vals, List.set]; exact ⟨_, rfl⟩
theorem Upd.vals_loads (k : _) (v : _) (s : State) : ∃ w, (Upd.run (.loads k v) s).vals = s.vals.set 40 w := by
  dsimp only [Upd.run, State.vals, List.set]; exact ⟨_, rfl⟩
theorem Upd.vals_loadsDrop (q : _) (s : State) : ∃ w, (Upd.run (.loadsDrop q) s).vals = s.vals.set 40 w := by
  dsimp only [Upd.run, State.vals, List.set]; exact ⟨_, rfl⟩
theorem Upd.vals_icache (k : _) (v : _) (s : State) : ∃ w, (Upd.run (.icache k v) s).vals = s.vals.set 41 w := by
  dsimp only [Upd.run, State.vals, List.set]; exact ⟨_, rfl⟩
theorem Upd.vals_icacheDrop (q : _) (s : State) : ∃ w, (Upd.run (.icacheDrop q) s).vals = s.vals.set 41 w := by
  dsimp only [Upd.run, State.vals, List.set]; exact ⟨_, rfl⟩
theorem Upd.vals_rrLast (k : _) (v : _) (s : State) : ∃ w, (Upd.run (.rrLast k v) s).vals = s.vals.set 42 w := by
  dsimp only [Upd.run, State.vals, List.set]; exact ⟨_, rfl⟩
theorem Upd.vals_rrLastDrop (q : _) (s : State) : ∃ w, (Upd.run (.rrLastDrop q) s).vals = s.vals.set 42 w := by
  dsimp only [Upd.run, State.vals, List.set]; exact ⟨_, rfl⟩
theorem Upd.vals_thrStep (k : _) (v : _) (s : State) : ∃ w, (Upd.run (.thrStep k v) s).vals = s.vals.set 43 w := by
  dsimp only [Upd.run, State.vals, List.set]; exact ⟨_, rfl⟩
theorem Upd.vals_thrStepDrop (q : _) (s : State) : ∃ w, (Upd.run (.thrStepDrop q) s).vals = s.vals.set 43 w := by
  dsimp only [Upd.run, State.vals, List.set]; exact ⟨_, rfl⟩
theorem Upd.vals_vecQ (k : _) (v : _) (s : State) : ∃ w, (Upd.run (.vecQ k v) s).vals = s.vals.set 44 w := by
  dsimp only [Upd.run, State.vals, List.set]; exact ⟨_, rfl⟩
theorem Upd.vals_vecQDrop (q : _) (s : State) : ∃ w, (Upd.run (.vecQDrop q) s).vals = s.vals.set 44 w := by
  dsimp only [Upd.run, State.vals, List.set]; exact ⟨_, rfl⟩
theorem Upd.vals_qeQ (k : _) (v : _) (s : State) : ∃ w, (Upd.run (.qeQ k v) s).vals = s.vals.set 45 w := by
  dsimp only [Upd.run, State.vals, List.set]; exact ⟨_, rfl⟩
theorem Upd.vals_qeQDrop (q : _) (s : State) : ∃ w, (Upd.run (.qeQDrop q) s).vals = s.vals.set 45 w := by
  dsimp only [Upd.run, State.vals, List.set]; exact ⟨_, rfl⟩
theorem Upd.vals_qeSubs (k : _) (v : _) (s : State) : ∃ w, (Upd.run (.qeSubs k v) s).vals = s.vals.set 46 w := by
  dsimp only [Upd.run, State.vals, List.set]; exact ⟨_, rfl⟩
theorem Upd.vals_qeSubsDrop (q : _) (s : State) : ∃ w, (Upd.run (.qeSubsDrop q) s).vals = s.vals.set 46 w := by
  dsimp only [Upd.run, State.vals, List.set]; exact ⟨_, rfl⟩
theorem Upd.vals_qeFlush (k : _) (v : _) (s : State) : ∃ w, (Upd.run (.qeFlush k v) s).vals = s.vals.set 47 w := by
  dsimp only [Upd.run, State.vals, List.set]; exact ⟨_, rfl⟩
theorem Upd.vals_qeFlushDrop (q : _) (s : State) : ∃ w, (Upd.run (.qeFlushDrop q) s).vals = s.vals.set 47 w := by
  dsimp only [Upd.run, State.vals, List.set]; exact ⟨_, rfl⟩
theorem Upd.vals_segQ (v : _) (s : State) : ∃ w, (Upd.run (.segQ v) s).vals = s.vals.set 48 w := by
  dsimp only [Upd.run, State.vals, List.set]; exact ⟨_, rfl⟩
theorem Upd.vals_creditQ (v : _) (s : State) : ∃ w, (Upd.run (.creditQ v) s).vals = s.vals.set 49 w := by
  dsimp only [Upd.run, State.vals, List.set]; exact ⟨_, rfl⟩
theorem Upd.vals_routeSlot (k : _) (v : _) (s : State) : ∃ w, (Upd.run (.routeSlot k v) s).vals = s.vals.set 50 w := by
  dsimp only [Upd.run, State.vals, List.set]; exact ⟨_, rfl⟩
theorem Upd.vals_routeSlotDrop (q : _) (s : State) : ∃ w, (Upd.run (.routeSlotDrop q) s).vals = s.vals.set 50 w := by
  dsimp only [Upd.run, State.vals, List.set]; exact ⟨_, rfl⟩
theorem Upd.vals_stallSince (k : _) (v : _) (s : State) : ∃ w, (Upd.run (.stallSince k v) s).vals = s.vals.set 51 w := by
  dsimp only [Upd.run, State.vals, List.set]; exact ⟨_, rfl⟩
theorem Upd.vals_stallSinceDrop (q : _) (s : State) : ∃ w, (Upd.run (.stallSinceDrop q) s).vals = s.vals.set 51 w := by
  dsimp only [Upd.run, State.vals, List.set]; exact ⟨_, rfl⟩
theorem Upd.vals_passQ (k : _) (v : _) (s : State) : ∃ w, (Upd.run (.passQ k v) s).vals = s.vals.set 52 w := by
  dsimp only [Upd.run, State.vals, List.set]; exact ⟨_, rfl⟩
theorem Upd.vals_passQDrop (q : _) (s : State) : ∃ w, (Upd.run (.passQDrop q) s).vals = s.vals.set 52 w := by
  dsimp only [Upd.run, State.vals, List.set]; exact ⟨_, rfl⟩
theorem Upd.vals_feedAt (k : _) (v : _) (s : State) : ∃ w, (Upd.run (.feedAt k v) s).vals = s.vals.set 53 w := by
  dsimp only [Upd.run, State.vals, List.set]; exact ⟨_, rfl⟩
theorem Upd.vals_feedAtDrop (q : _) (s : State) : ∃ w, (Upd.run (.feedAtDrop q) s).vals = s.vals.set 53 w := by
  dsimp only [Upd.run, State.vals, List.set]; exact ⟨_, rfl⟩
theorem Upd.vals_refRow (k : _) (v : _) (s : State) : ∃ w, (Upd.run (.refRow k v) s).vals = s.vals.set 54 w := by
  dsimp only [Upd.run, State.vals, List.set]; exact ⟨_, rfl⟩
theorem Upd.vals_refRowDrop (q : _) (s : State) : ∃ w, (Upd.run (.refRowDrop q) s).vals = s.vals.set 54 w := by
  dsimp only [Upd.run, State.vals, List.set]; exact ⟨_, rfl⟩
theorem Upd.vals_scrubRun (k : _) (v : _) (s : State) : ∃ w, (Upd.run (.scrubRun k v) s).vals = s.vals.set 55 w := by
  dsimp only [Upd.run, State.vals, List.set]; exact ⟨_, rfl⟩
theorem Upd.vals_scrubRunDrop (q : _) (s : State) : ∃ w, (Upd.run (.scrubRunDrop q) s).vals = s.vals.set 55 w := by
  dsimp only [Upd.run, State.vals, List.set]; exact ⟨_, rfl⟩
theorem Upd.vals_buQ (k : _) (v : _) (s : State) : ∃ w, (Upd.run (.buQ k v) s).vals = s.vals.set 56 w := by
  dsimp only [Upd.run, State.vals, List.set]; exact ⟨_, rfl⟩
theorem Upd.vals_buQDrop (q : _) (s : State) : ∃ w, (Upd.run (.buQDrop q) s).vals = s.vals.set 56 w := by
  dsimp only [Upd.run, State.vals, List.set]; exact ⟨_, rfl⟩
theorem Upd.vals_buBuf (k : _) (v : _) (s : State) : ∃ w, (Upd.run (.buBuf k v) s).vals = s.vals.set 57 w := by
  dsimp only [Upd.run, State.vals, List.set]; exact ⟨_, rfl⟩
theorem Upd.vals_buBufDrop (q : _) (s : State) : ∃ w, (Upd.run (.buBufDrop q) s).vals = s.vals.set 57 w := by
  dsimp only [Upd.run, State.vals, List.set]; exact ⟨_, rfl⟩
theorem Upd.vals_buBook (k : _) (v : _) (s : State) : ∃ w, (Upd.run (.buBook k v) s).vals = s.vals.set 58 w := by
  dsimp only [Upd.run, State.vals, List.set]; exact ⟨_, rfl⟩
theorem Upd.vals_buBookDrop (q : _) (s : State) : ∃ w, (Upd.run (.buBookDrop q) s).vals = s.vals.set 58 w := by
  dsimp only [Upd.run, State.vals, List.set]; exact ⟨_, rfl⟩
theorem Upd.vals_buSlot (k : _) (v : _) (s : State) : ∃ w, (Upd.run (.buSlot k v) s).vals = s.vals.set 59 w := by
  dsimp only [Upd.run, State.vals, List.set]; exact ⟨_, rfl⟩
theorem Upd.vals_buSlotDrop (q : _) (s : State) : ∃ w, (Upd.run (.buSlotDrop q) s).vals = s.vals.set 59 w := by
  dsimp only [Upd.run, State.vals, List.set]; exact ⟨_, rfl⟩
theorem Upd.vals_yieldAt (k : _) (v : _) (s : State) : ∃ w, (Upd.run (.yieldAt k v) s).vals = s.vals.set 60 w := by
  dsimp only [Upd.run, State.vals, List.set]; exact ⟨_, rfl⟩
theorem Upd.vals_yieldAtDrop (q : _) (s : State) : ∃ w, (Upd.run (.yieldAtDrop q) s).vals = s.vals.set 60 w := by
  dsimp only [Upd.run, State.vals, List.set]; exact ⟨_, rfl⟩
theorem Upd.vals_kvtQ (k : _) (v : _) (s : State) : ∃ w, (Upd.run (.kvtQ k v) s).vals = s.vals.set 61 w := by
  dsimp only [Upd.run, State.vals, List.set]; exact ⟨_, rfl⟩
theorem Upd.vals_kvtQDrop (q : _) (s : State) : ∃ w, (Upd.run (.kvtQDrop q) s).vals = s.vals.set 61 w := by
  dsimp only [Upd.run, State.vals, List.set]; exact ⟨_, rfl⟩
theorem Upd.vals_kvtEnd (k : _) (v : _) (s : State) : ∃ w, (Upd.run (.kvtEnd k v) s).vals = s.vals.set 62 w := by
  dsimp only [Upd.run, State.vals, List.set]; exact ⟨_, rfl⟩
theorem Upd.vals_kvtEndDrop (q : _) (s : State) : ∃ w, (Upd.run (.kvtEndDrop q) s).vals = s.vals.set 62 w := by
  dsimp only [Upd.run, State.vals, List.set]; exact ⟨_, rfl⟩
theorem Upd.vals_kvtMigQ (k : _) (v : _) (s : State) : ∃ w, (Upd.run (.kvtMigQ k v) s).vals = s.vals.set 63 w := by
  dsimp only [Upd.run, State.vals, List.set]; exact ⟨_, rfl⟩
theorem Upd.vals_kvtMigQDrop (q : _) (s : State) : ∃ w, (Upd.run (.kvtMigQDrop q) s).vals = s.vals.set 63 w := by
  dsimp only [Upd.run, State.vals, List.set]; exact ⟨_, rfl⟩
theorem Upd.vals_kvtMoves (k : _) (v : _) (s : State) : ∃ w, (Upd.run (.kvtMoves k v) s).vals = s.vals.set 64 w := by
  dsimp only [Upd.run, State.vals, List.set]; exact ⟨_, rfl⟩
theorem Upd.vals_kvtMovesDrop (q : _) (s : State) : ∃ w, (Upd.run (.kvtMovesDrop q) s).vals = s.vals.set 64 w := by
  dsimp only [Upd.run, State.vals, List.set]; exact ⟨_, rfl⟩
theorem Upd.vals_kvtFrees (k : _) (v : _) (s : State) : ∃ w, (Upd.run (.kvtFrees k v) s).vals = s.vals.set 65 w := by
  dsimp only [Upd.run, State.vals, List.set]; exact ⟨_, rfl⟩
theorem Upd.vals_kvtFreesDrop (q : _) (s : State) : ∃ w, (Upd.run (.kvtFreesDrop q) s).vals = s.vals.set 65 w := by
  dsimp only [Upd.run, State.vals, List.set]; exact ⟨_, rfl⟩
theorem Upd.vals_kvtStaged (k : _) (v : _) (s : State) : ∃ w, (Upd.run (.kvtStaged k v) s).vals = s.vals.set 66 w := by
  dsimp only [Upd.run, State.vals, List.set]; exact ⟨_, rfl⟩
theorem Upd.vals_kvtStagedDrop (q : _) (s : State) : ∃ w, (Upd.run (.kvtStagedDrop q) s).vals = s.vals.set 66 w := by
  dsimp only [Upd.run, State.vals, List.set]; exact ⟨_, rfl⟩
theorem Upd.vals_gdRetrain (k : _) (v : _) (s : State) : ∃ w, (Upd.run (.gdRetrain k v) s).vals = s.vals.set 67 w := by
  dsimp only [Upd.run, State.vals, List.set]; exact ⟨_, rfl⟩
theorem Upd.vals_gdRetrainDrop (q : _) (s : State) : ∃ w, (Upd.run (.gdRetrainDrop q) s).vals = s.vals.set 67 w := by
  dsimp only [Upd.run, State.vals, List.set]; exact ⟨_, rfl⟩
theorem Upd.vals_cmds (v : _) (s : State) : ∃ w, (Upd.run (.cmds v) s).vals = s.vals.set 68 w := by
  dsimp only [Upd.run, State.vals, List.set]; exact ⟨_, rfl⟩
theorem Upd.vals_fetchAt (k : _) (v : _) (s : State) : ∃ w, (Upd.run (.fetchAt k v) s).vals = s.vals.set 69 w := by
  dsimp only [Upd.run, State.vals, List.set]; exact ⟨_, rfl⟩
theorem Upd.vals_fetchAtDrop (q : _) (s : State) : ∃ w, (Upd.run (.fetchAtDrop q) s).vals = s.vals.set 69 w := by
  dsimp only [Upd.run, State.vals, List.set]; exact ⟨_, rfl⟩
theorem Upd.vals_cqAgg (k : _) (v : _) (s : State) : ∃ w, (Upd.run (.cqAgg k v) s).vals = s.vals.set 70 w := by
  dsimp only [Upd.run, State.vals, List.set]; exact ⟨_, rfl⟩
theorem Upd.vals_cqAggDrop (q : _) (s : State) : ∃ w, (Upd.run (.cqAggDrop q) s).vals = s.vals.set 70 w := by
  dsimp only [Upd.run, State.vals, List.set]; exact ⟨_, rfl⟩
theorem Upd.vals_linkDown (k : _) (v : _) (s : State) : ∃ w, (Upd.run (.linkDown k v) s).vals = s.vals.set 71 w := by
  dsimp only [Upd.run, State.vals, List.set]; exact ⟨_, rfl⟩
theorem Upd.vals_linkDownDrop (q : _) (s : State) : ∃ w, (Upd.run (.linkDownDrop q) s).vals = s.vals.set 71 w := by
  dsimp only [Upd.run, State.vals, List.set]; exact ⟨_, rfl⟩
theorem Upd.vals_pmKey (k : _) (v : _) (s : State) : ∃ w, (Upd.run (.pmKey k v) s).vals = s.vals.set 72 w := by
  dsimp only [Upd.run, State.vals, List.set]; exact ⟨_, rfl⟩
theorem Upd.vals_pmKeyDrop (q : _) (s : State) : ∃ w, (Upd.run (.pmKeyDrop q) s).vals = s.vals.set 72 w := by
  dsimp only [Upd.run, State.vals, List.set]; exact ⟨_, rfl⟩
theorem Upd.vals_pmFlash (k : _) (v : _) (s : State) : ∃ w, (Upd.run (.pmFlash k v) s).vals = s.vals.set 73 w := by
  dsimp only [Upd.run, State.vals, List.set]; exact ⟨_, rfl⟩
theorem Upd.vals_pmFlashDrop (q : _) (s : State) : ∃ w, (Upd.run (.pmFlashDrop q) s).vals = s.vals.set 73 w := by
  dsimp only [Upd.run, State.vals, List.set]; exact ⟨_, rfl⟩
theorem Upd.vals_pmMark (k : _) (v : _) (s : State) : ∃ w, (Upd.run (.pmMark k v) s).vals = s.vals.set 74 w := by
  dsimp only [Upd.run, State.vals, List.set]; exact ⟨_, rfl⟩
theorem Upd.vals_pmMarkDrop (q : _) (s : State) : ∃ w, (Upd.run (.pmMarkDrop q) s).vals = s.vals.set 74 w := by
  dsimp only [Upd.run, State.vals, List.set]; exact ⟨_, rfl⟩
theorem Upd.vals_tampered (v : _) (s : State) : ∃ w, (Upd.run (.tampered v) s).vals = s.vals.set 75 w := by
  dsimp only [Upd.run, State.vals, List.set]; exact ⟨_, rfl⟩
theorem Upd.vals_offer (v : _) (s : State) : ∃ w, (Upd.run (.offer v) s).vals = s.vals.set 76 w := by
  dsimp only [Upd.run, State.vals, List.set]; exact ⟨_, rfl⟩
theorem Upd.vals_seqs (k : _) (v : _) (s : State) : ∃ w, (Upd.run (.seqs k v) s).vals = s.vals.set 77 w := by
  dsimp only [Upd.run, State.vals, List.set]; exact ⟨_, rfl⟩
theorem Upd.vals_seqsDrop (q : _) (s : State) : ∃ w, (Upd.run (.seqsDrop q) s).vals = s.vals.set 77 w := by
  dsimp only [Upd.run, State.vals, List.set]; exact ⟨_, rfl⟩
theorem Upd.vals_dispatchLog (k : _) (v : _) (s : State) : ∃ w, (Upd.run (.dispatchLog k v) s).vals = s.vals.set 78 w := by
  dsimp only [Upd.run, State.vals, List.set]; exact ⟨_, rfl⟩
theorem Upd.vals_dispatchLogDrop (q : _) (s : State) : ∃ w, (Upd.run (.dispatchLogDrop q) s).vals = s.vals.set 78 w := by
  dsimp only [Upd.run, State.vals, List.set]; exact ⟨_, rfl⟩
theorem Upd.vals_dispatchFlash (v : _) (s : State) : ∃ w, (Upd.run (.dispatchFlash v) s).vals = s.vals.set 79 w := by
  dsimp only [Upd.run, State.vals, List.set]; exact ⟨_, rfl⟩
theorem Upd.vals_franks (k : _) (v : _) (s : State) : ∃ w, (Upd.run (.franks k v) s).vals = s.vals.set 80 w := by
  dsimp only [Upd.run, State.vals, List.set]; exact ⟨_, rfl⟩
theorem Upd.vals_franksDrop (q : _) (s : State) : ∃ w, (Upd.run (.franksDrop q) s).vals = s.vals.set 80 w := by
  dsimp only [Upd.run, State.vals, List.set]; exact ⟨_, rfl⟩
theorem Upd.vals_fuseLcy (v : _) (s : State) : ∃ w, (Upd.run (.fuseLcy v) s).vals = s.vals.set 81 w := by
  dsimp only [Upd.run, State.vals, List.set]; exact ⟨_, rfl⟩
theorem Upd.vals_ready (v : _) (s : State) : ∃ w, (Upd.run (.ready v) s).vals = s.vals.set 82 w := by
  dsimp only [Upd.run, State.vals, List.set]; exact ⟨_, rfl⟩
theorem Upd.vals_stageAt (v : _) (s : State) : ∃ w, (Upd.run (.stageAt v) s).vals = s.vals.set 83 w := by
  dsimp only [Upd.run, State.vals, List.set]; exact ⟨_, rfl⟩
theorem Upd.vals_agreed (k : _) (v : _) (s : State) : ∃ w, (Upd.run (.agreed k v) s).vals = s.vals.set 84 w := by
  dsimp only [Upd.run, State.vals, List.set]; exact ⟨_, rfl⟩
theorem Upd.vals_agreedDrop (q : _) (s : State) : ∃ w, (Upd.run (.agreedDrop q) s).vals = s.vals.set 84 w := by
  dsimp only [Upd.run, State.vals, List.set]; exact ⟨_, rfl⟩
theorem Upd.vals_perst (k : _) (v : _) (s : State) : ∃ w, (Upd.run (.perst k v) s).vals = s.vals.set 85 w := by
  dsimp only [Upd.run, State.vals, List.set]; exact ⟨_, rfl⟩
theorem Upd.vals_perstDrop (q : _) (s : State) : ∃ w, (Upd.run (.perstDrop q) s).vals = s.vals.set 85 w := by
  dsimp only [Upd.run, State.vals, List.set]; exact ⟨_, rfl⟩
theorem Upd.vals_chart (v : _) (s : State) : ∃ w, (Upd.run (.chart v) s).vals = s.vals.set 86 w := by
  dsimp only [Upd.run, State.vals, List.set]; exact ⟨_, rfl⟩
theorem Upd.vals_chartLive (v : _) (s : State) : ∃ w, (Upd.run (.chartLive v) s).vals = s.vals.set 87 w := by
  dsimp only [Upd.run, State.vals, List.set]; exact ⟨_, rfl⟩
theorem Upd.vals_chartLoad (v : _) (s : State) : ∃ w, (Upd.run (.chartLoad v) s).vals = s.vals.set 88 w := by
  dsimp only [Upd.run, State.vals, List.set]; exact ⟨_, rfl⟩
theorem Upd.vals_applyNow (v : _) (s : State) : ∃ w, (Upd.run (.applyNow v) s).vals = s.vals.set 89 w := by
  dsimp only [Upd.run, State.vals, List.set]; exact ⟨_, rfl⟩
theorem Upd.vals_flashAt (v : _) (s : State) : ∃ w, (Upd.run (.flashAt v) s).vals = s.vals.set 90 w := by
  dsimp only [Upd.run, State.vals, List.set]; exact ⟨_, rfl⟩
theorem Upd.vals_fwAt (v : _) (s : State) : ∃ w, (Upd.run (.fwAt v) s).vals = s.vals.set 91 w := by
  dsimp only [Upd.run, State.vals, List.set]; exact ⟨_, rfl⟩
theorem Upd.vals_hello (v : _) (s : State) : ∃ w, (Upd.run (.hello v) s).vals = s.vals.set 92 w := by
  dsimp only [Upd.run, State.vals, List.set]; exact ⟨_, rfl⟩
theorem Upd.vals_enrolled (v : _) (s : State) : ∃ w, (Upd.run (.enrolled v) s).vals = s.vals.set 93 w := by
  dsimp only [Upd.run, State.vals, List.set]; exact ⟨_, rfl⟩
theorem Upd.vals_resetAt (v : _) (s : State) : ∃ w, (Upd.run (.resetAt v) s).vals = s.vals.set 94 w := by
  dsimp only [Upd.run, State.vals, List.set]; exact ⟨_, rfl⟩
theorem Upd.vals_dlEnd (k : _) (v : _) (s : State) : ∃ w, (Upd.run (.dlEnd k v) s).vals = s.vals.set 95 w := by
  dsimp only [Upd.run, State.vals, List.set]; exact ⟨_, rfl⟩
theorem Upd.vals_dlEndDrop (q : _) (s : State) : ∃ w, (Upd.run (.dlEndDrop q) s).vals = s.vals.set 95 w := by
  dsimp only [Upd.run, State.vals, List.set]; exact ⟨_, rfl⟩
theorem Upd.vals_dlFail (k : _) (v : _) (s : State) : ∃ w, (Upd.run (.dlFail k v) s).vals = s.vals.set 96 w := by
  dsimp only [Upd.run, State.vals, List.set]; exact ⟨_, rfl⟩
theorem Upd.vals_dlFailDrop (q : _) (s : State) : ∃ w, (Upd.run (.dlFailDrop q) s).vals = s.vals.set 96 w := by
  dsimp only [Upd.run, State.vals, List.set]; exact ⟨_, rfl⟩
theorem Upd.vals_dlOld (k : _) (v : _) (s : State) : ∃ w, (Upd.run (.dlOld k v) s).vals = s.vals.set 97 w := by
  dsimp only [Upd.run, State.vals, List.set]; exact ⟨_, rfl⟩
theorem Upd.vals_dlOldDrop (q : _) (s : State) : ∃ w, (Upd.run (.dlOldDrop q) s).vals = s.vals.set 97 w := by
  dsimp only [Upd.run, State.vals, List.set]; exact ⟨_, rfl⟩
theorem Upd.vals_dlMoves (v : _) (s : State) : ∃ w, (Upd.run (.dlMoves v) s).vals = s.vals.set 98 w := by
  dsimp only [Upd.run, State.vals, List.set]; exact ⟨_, rfl⟩
theorem Upd.vals_tideFirst (v : _) (s : State) : ∃ w, (Upd.run (.tideFirst v) s).vals = s.vals.set 99 w := by
  dsimp only [Upd.run, State.vals, List.set]; exact ⟨_, rfl⟩
theorem Upd.vals_tideNext (v : _) (s : State) : ∃ w, (Upd.run (.tideNext v) s).vals = s.vals.set 100 w := by
  dsimp only [Upd.run, State.vals, List.set]; exact ⟨_, rfl⟩
theorem Upd.vals_tidePer (v : _) (s : State) : ∃ w, (Upd.run (.tidePer v) s).vals = s.vals.set 101 w := by
  dsimp only [Upd.run, State.vals, List.set]; exact ⟨_, rfl⟩
theorem Upd.vals_slackAt (v : _) (s : State) : ∃ w, (Upd.run (.slackAt v) s).vals = s.vals.set 102 w := by
  dsimp only [Upd.run, State.vals, List.set]; exact ⟨_, rfl⟩
theorem Upd.vals_edgeCut (v : _) (s : State) : ∃ w, (Upd.run (.edgeCut v) s).vals = s.vals.set 103 w := by
  dsimp only [Upd.run, State.vals, List.set]; exact ⟨_, rfl⟩
theorem Upd.vals_slackFor (v : _) (s : State) : ∃ w, (Upd.run (.slackFor v) s).vals = s.vals.set 104 w := by
  dsimp only [Upd.run, State.vals, List.set]; exact ⟨_, rfl⟩
theorem Upd.vals_holdSince (v : _) (s : State) : ∃ w, (Upd.run (.holdSince v) s).vals = s.vals.set 105 w := by
  dsimp only [Upd.run, State.vals, List.set]; exact ⟨_, rfl⟩
theorem Upd.vals_overAt (k : _) (v : _) (s : State) : ∃ w, (Upd.run (.overAt k v) s).vals = s.vals.set 106 w := by
  dsimp only [Upd.run, State.vals, List.set]; exact ⟨_, rfl⟩
theorem Upd.vals_overAtDrop (q : _) (s : State) : ∃ w, (Upd.run (.overAtDrop q) s).vals = s.vals.set 106 w := by
  dsimp only [Upd.run, State.vals, List.set]; exact ⟨_, rfl⟩
theorem Upd.vals_stepEnd (k : _) (v : _) (s : State) : ∃ w, (Upd.run (.stepEnd k v) s).vals = s.vals.set 107 w := by
  dsimp only [Upd.run, State.vals, List.set]; exact ⟨_, rfl⟩
theorem Upd.vals_stepEndDrop (q : _) (s : State) : ∃ w, (Upd.run (.stepEndDrop q) s).vals = s.vals.set 107 w := by
  dsimp only [Upd.run, State.vals, List.set]; exact ⟨_, rfl⟩
theorem Upd.vals_stepAt (k : _) (v : _) (s : State) : ∃ w, (Upd.run (.stepAt k v) s).vals = s.vals.set 108 w := by
  dsimp only [Upd.run, State.vals, List.set]; exact ⟨_, rfl⟩
theorem Upd.vals_stepAtDrop (q : _) (s : State) : ∃ w, (Upd.run (.stepAtDrop q) s).vals = s.vals.set 108 w := by
  dsimp only [Upd.run, State.vals, List.set]; exact ⟨_, rfl⟩
theorem Upd.vals_stepTime (v : _) (s : State) : ∃ w, (Upd.run (.stepTime v) s).vals = s.vals.set 109 w := by
  dsimp only [Upd.run, State.vals, List.set]; exact ⟨_, rfl⟩
theorem Upd.vals_edgeNom (v : _) (s : State) : ∃ w, (Upd.run (.edgeNom v) s).vals = s.vals.set 110 w := by
  dsimp only [Upd.run, State.vals, List.set]; exact ⟨_, rfl⟩
theorem Upd.vals_stretchFor (v : _) (s : State) : ∃ w, (Upd.run (.stretchFor v) s).vals = s.vals.set 111 w := by
  dsimp only [Upd.run, State.vals, List.set]; exact ⟨_, rfl⟩
theorem Upd.vals_announced (v : _) (s : State) : ∃ w, (Upd.run (.announced v) s).vals = s.vals.set 112 w := by
  dsimp only [Upd.run, State.vals, List.set]; exact ⟨_, rfl⟩
theorem Upd.vals_reports (v : _) (s : State) : ∃ w, (Upd.run (.reports v) s).vals = s.vals.set 113 w := by
  dsimp only [Upd.run, State.vals, List.set]; exact ⟨_, rfl⟩
theorem Upd.vals_reported (v : _) (s : State) : ∃ w, (Upd.run (.reported v) s).vals = s.vals.set 114 w := by
  dsimp only [Upd.run, State.vals, List.set]; exact ⟨_, rfl⟩
theorem Upd.vals_synced (v : _) (s : State) : ∃ w, (Upd.run (.synced v) s).vals = s.vals.set 115 w := by
  dsimp only [Upd.run, State.vals, List.set]; exact ⟨_, rfl⟩
theorem Upd.vals_syncAt (v : _) (s : State) : ∃ w, (Upd.run (.syncAt v) s).vals = s.vals.set 116 w := by
  dsimp only [Upd.run, State.vals, List.set]; exact ⟨_, rfl⟩
theorem Upd.vals_retirePend (v : _) (s : State) : ∃ w, (Upd.run (.retirePend v) s).vals = s.vals.set 117 w := by
  dsimp only [Upd.run, State.vals, List.set]; exact ⟨_, rfl⟩
theorem Upd.vals_restage (v : _) (s : State) : ∃ w, (Upd.run (.restage v) s).vals = s.vals.set 118 w := by
  dsimp only [Upd.run, State.vals, List.set]; exact ⟨_, rfl⟩
theorem Upd.vals_cutNew (v : _) (s : State) : ∃ w, (Upd.run (.cutNew v) s).vals = s.vals.set 119 w := by
  dsimp only [Upd.run, State.vals, List.set]; exact ⟨_, rfl⟩
theorem Upd.vals_gwNext (k : _) (v : _) (s : State) : ∃ w, (Upd.run (.gwNext k v) s).vals = s.vals.set 120 w := by
  dsimp only [Upd.run, State.vals, List.set]; exact ⟨_, rfl⟩
theorem Upd.vals_gwNextDrop (q : _) (s : State) : ∃ w, (Upd.run (.gwNextDrop q) s).vals = s.vals.set 120 w := by
  dsimp only [Upd.run, State.vals, List.set]; exact ⟨_, rfl⟩
theorem Upd.vals_gwHold (k : _) (v : _) (s : State) : ∃ w, (Upd.run (.gwHold k v) s).vals = s.vals.set 121 w := by
  dsimp only [Upd.run, State.vals, List.set]; exact ⟨_, rfl⟩
theorem Upd.vals_gwHoldDrop (q : _) (s : State) : ∃ w, (Upd.run (.gwHoldDrop q) s).vals = s.vals.set 121 w := by
  dsimp only [Upd.run, State.vals, List.set]; exact ⟨_, rfl⟩
theorem Upd.vals_gwRefused (k : _) (v : _) (s : State) : ∃ w, (Upd.run (.gwRefused k v) s).vals = s.vals.set 122 w := by
  dsimp only [Upd.run, State.vals, List.set]; exact ⟨_, rfl⟩
theorem Upd.vals_gwRefusedDrop (q : _) (s : State) : ∃ w, (Upd.run (.gwRefusedDrop q) s).vals = s.vals.set 122 w := by
  dsimp only [Upd.run, State.vals, List.set]; exact ⟨_, rfl⟩
theorem Upd.vals_xqDesc (k : _) (v : _) (s : State) : ∃ w, (Upd.run (.xqDesc k v) s).vals = s.vals.set 123 w := by
  dsimp only [Upd.run, State.vals, List.set]; exact ⟨_, rfl⟩
theorem Upd.vals_xqDescDrop (q : _) (s : State) : ∃ w, (Upd.run (.xqDescDrop q) s).vals = s.vals.set 123 w := by
  dsimp only [Upd.run, State.vals, List.set]; exact ⟨_, rfl⟩
theorem Upd.vals_bar2 (k : _) (v : _) (s : State) : ∃ w, (Upd.run (.bar2 k v) s).vals = s.vals.set 124 w := by
  dsimp only [Upd.run, State.vals, List.set]; exact ⟨_, rfl⟩
theorem Upd.vals_bar2Drop (q : _) (s : State) : ∃ w, (Upd.run (.bar2Drop q) s).vals = s.vals.set 124 w := by
  dsimp only [Upd.run, State.vals, List.set]; exact ⟨_, rfl⟩
theorem Upd.vals_power (v : _) (s : State) : ∃ w, (Upd.run (.power v) s).vals = s.vals.set 125 w := by
  dsimp only [Upd.run, State.vals, List.set]; exact ⟨_, rfl⟩
theorem Upd.vals_suspects (k : _) (v : _) (s : State) : ∃ w, (Upd.run (.suspects k v) s).vals = s.vals.set 126 w := by
  dsimp only [Upd.run, State.vals, List.set]; exact ⟨_, rfl⟩
theorem Upd.vals_suspectsDrop (q : _) (s : State) : ∃ w, (Upd.run (.suspectsDrop q) s).vals = s.vals.set 126 w := by
  dsimp only [Upd.run, State.vals, List.set]; exact ⟨_, rfl⟩
theorem Upd.vals_disagreed (k : _) (v : _) (s : State) : ∃ w, (Upd.run (.disagreed k v) s).vals = s.vals.set 127 w := by
  dsimp only [Upd.run, State.vals, List.set]; exact ⟨_, rfl⟩
theorem Upd.vals_disagreedDrop (q : _) (s : State) : ∃ w, (Upd.run (.disagreedDrop q) s).vals = s.vals.set 127 w := by
  dsimp only [Upd.run, State.vals, List.set]; exact ⟨_, rfl⟩
theorem Upd.vals_soundings (k : _) (v : _) (s : State) : ∃ w, (Upd.run (.soundings k v) s).vals = s.vals.set 128 w := by
  dsimp only [Upd.run, State.vals, List.set]; exact ⟨_, rfl⟩
theorem Upd.vals_soundingsDrop (q : _) (s : State) : ∃ w, (Upd.run (.soundingsDrop q) s).vals = s.vals.set 128 w := by
  dsimp only [Upd.run, State.vals, List.set]; exact ⟨_, rfl⟩
theorem Upd.vals_residuals (k : _) (v : _) (s : State) : ∃ w, (Upd.run (.residuals k v) s).vals = s.vals.set 129 w := by
  dsimp only [Upd.run, State.vals, List.set]; exact ⟨_, rfl⟩
theorem Upd.vals_residualsDrop (q : _) (s : State) : ∃ w, (Upd.run (.residualsDrop q) s).vals = s.vals.set 129 w := by
  dsimp only [Upd.run, State.vals, List.set]; exact ⟨_, rfl⟩
theorem Upd.vals_foretold (k : _) (v : _) (s : State) : ∃ w, (Upd.run (.foretold k v) s).vals = s.vals.set 130 w := by
  dsimp only [Upd.run, State.vals, List.set]; exact ⟨_, rfl⟩
theorem Upd.vals_foretoldDrop (q : _) (s : State) : ∃ w, (Upd.run (.foretoldDrop q) s).vals = s.vals.set 130 w := by
  dsimp only [Upd.run, State.vals, List.set]; exact ⟨_, rfl⟩
theorem Upd.vals_rotAt (k : _) (v : _) (s : State) : ∃ w, (Upd.run (.rotAt k v) s).vals = s.vals.set 131 w := by
  dsimp only [Upd.run, State.vals, List.set]; exact ⟨_, rfl⟩
theorem Upd.vals_rotAtDrop (q : _) (s : State) : ∃ w, (Upd.run (.rotAtDrop q) s).vals = s.vals.set 131 w := by
  dsimp only [Upd.run, State.vals, List.set]; exact ⟨_, rfl⟩
theorem Upd.vals_ceCount (k : _) (v : _) (s : State) : ∃ w, (Upd.run (.ceCount k v) s).vals = s.vals.set 132 w := by
  dsimp only [Upd.run, State.vals, List.set]; exact ⟨_, rfl⟩
theorem Upd.vals_ceCountDrop (q : _) (s : State) : ∃ w, (Upd.run (.ceCountDrop q) s).vals = s.vals.set 132 w := by
  dsimp only [Upd.run, State.vals, List.set]; exact ⟨_, rfl⟩
theorem Upd.vals_testFrom (v : _) (s : State) : ∃ w, (Upd.run (.testFrom v) s).vals = s.vals.set 133 w := by
  dsimp only [Upd.run, State.vals, List.set]; exact ⟨_, rfl⟩
theorem Upd.vals_gov (v : _) (s : State) : ∃ w, (Upd.run (.gov v) s).vals = s.vals.set 134 w := by
  dsimp only [Upd.run, State.vals, List.set]; exact ⟨_, rfl⟩
theorem Upd.vals_eid (v : _) (s : State) : ∃ w, (Upd.run (.eid v) s).vals = s.vals.set 135 w := by
  dsimp only [Upd.run, State.vals, List.set]; exact ⟨_, rfl⟩

/-- An update replaces the value of its own part. -/
theorem Upd.vals (u : Upd) (s : State) : ∃ v, (u.run s).vals = s.vals.set u.part.at v :=
  match u with
  | .now v => Upd.vals_now v s
  | .tideOff v => Upd.vals_tideOff v s
  | .freeCtr v => Upd.vals_freeCtr v s
  | .out v => Upd.vals_out v s
  | .regs k v => Upd.vals_regs k v s
  | .regsDrop q => Upd.vals_regsDrop q s
  | .shadows k v => Upd.vals_shadows k v s
  | .shadowsDrop q => Upd.vals_shadowsDrop q s
  | .mem k v => Upd.vals_mem k v s
  | .memDrop q => Upd.vals_memDrop q s
  | .check k v => Upd.vals_check k v s
  | .checkDrop q => Upd.vals_checkDrop q s
  | .marks k v => Upd.vals_marks k v s
  | .marksDrop q => Upd.vals_marksDrop q s
  | .hostMem k v => Upd.vals_hostMem k v s
  | .hostMemDrop q => Upd.vals_hostMemDrop q s
  | .msix k v => Upd.vals_msix k v s
  | .msixDrop q => Upd.vals_msixDrop q s
  | .mgmtQ v => Upd.vals_mgmtQ v s
  | .mgmtDropped v => Upd.vals_mgmtDropped v s
  | .mon k v => Upd.vals_mon k v s
  | .monDrop q => Upd.vals_monDrop q s
  | .cache k v => Upd.vals_cache k v s
  | .cacheDrop q => Upd.vals_cacheDrop q s
  | .tagLost k v => Upd.vals_tagLost k v s
  | .tagLostDrop q => Upd.vals_tagLostDrop q s
  | .tracker k v => Upd.vals_tracker k v s
  | .trackerDrop q => Upd.vals_trackerDrop q s
  | .spares k v => Upd.vals_spares k v s
  | .sparesDrop q => Upd.vals_sparesDrop q s
  | .remapNew v => Upd.vals_remapNew v s
  | .remapFlash v => Upd.vals_remapFlash v s
  | .held k v => Upd.vals_held k v s
  | .heldDrop q => Upd.vals_heldDrop q s
  | .granted k v => Upd.vals_granted k v s
  | .grantedDrop q => Upd.vals_grantedDrop q s
  | .heldParts k v => Upd.vals_heldParts k v s
  | .heldPartsDrop q => Upd.vals_heldPartsDrop q s
  | .rxWait k v => Upd.vals_rxWait k v s
  | .rxWaitDrop q => Upd.vals_rxWaitDrop q s
  | .boot v => Upd.vals_boot v s
  | .replaceFlash v => Upd.vals_replaceFlash v s
  | .gwOut v => Upd.vals_gwOut v s
  | .hopBuf k v => Upd.vals_hopBuf k v s
  | .hopBufDrop q => Upd.vals_hopBufDrop q s
  | .parityCount k v => Upd.vals_parityCount k v s
  | .parityCountDrop q => Upd.vals_parityCountDrop q s
  | .gwSeq k v => Upd.vals_gwSeq k v s
  | .gwSeqDrop q => Upd.vals_gwSeqDrop q s
  | .gwSpray k v => Upd.vals_gwSpray k v s
  | .gwSprayDrop q => Upd.vals_gwSprayDrop q s
  | .sigQ v => Upd.vals_sigQ v s
  | .landQ v => Upd.vals_landQ v s
  | .arrQ v => Upd.vals_arrQ v s
  | .relQ v => Upd.vals_relQ v s
  | .waiters k v => Upd.vals_waiters k v s
  | .waitersDrop q => Upd.vals_waitersDrop q s
  | .waitSince k v => Upd.vals_waitSince k v s
  | .waitSinceDrop q => Upd.vals_waitSinceDrop q s
  | .buRound k v => Upd.vals_buRound k v s
  | .buRoundDrop q => Upd.vals_buRoundDrop q s
  | .relSeen k v => Upd.vals_relSeen k v s
  | .relSeenDrop q => Upd.vals_relSeenDrop q s
  | .tagNext v => Upd.vals_tagNext v s
  | .loads k v => Upd.vals_loads k v s
  | .loadsDrop q => Upd.vals_loadsDrop q s
  | .icache k v => Upd.vals_icache k v s
  | .icacheDrop q => Upd.vals_icacheDrop q s
  | .rrLast k v => Upd.vals_rrLast k v s
  | .rrLastDrop q => Upd.vals_rrLastDrop q s
  | .thrStep k v => Upd.vals_thrStep k v s
  | .thrStepDrop q => Upd.vals_thrStepDrop q s
  | .vecQ k v => Upd.vals_vecQ k v s
  | .vecQDrop q => Upd.vals_vecQDrop q s
  | .qeQ k v => Upd.vals_qeQ k v s
  | .qeQDrop q => Upd.vals_qeQDrop q s
  | .qeSubs k v => Upd.vals_qeSubs k v s
  | .qeSubsDrop q => Upd.vals_qeSubsDrop q s
  | .qeFlush k v => Upd.vals_qeFlush k v s
  | .qeFlushDrop q => Upd.vals_qeFlushDrop q s
  | .segQ v => Upd.vals_segQ v s
  | .creditQ v => Upd.vals_creditQ v s
  | .routeSlot k v => Upd.vals_routeSlot k v s
  | .routeSlotDrop q => Upd.vals_routeSlotDrop q s
  | .stallSince k v => Upd.vals_stallSince k v s
  | .stallSinceDrop q => Upd.vals_stallSinceDrop q s
  | .passQ k v => Upd.vals_passQ k v s
  | .passQDrop q => Upd.vals_passQDrop q s
  | .feedAt k v => Upd.vals_feedAt k v s
  | .feedAtDrop q => Upd.vals_feedAtDrop q s
  | .refRow k v => Upd.vals_refRow k v s
  | .refRowDrop q => Upd.vals_refRowDrop q s
  | .scrubRun k v => Upd.vals_scrubRun k v s
  | .scrubRunDrop q => Upd.vals_scrubRunDrop q s
  | .buQ k v => Upd.vals_buQ k v s
  | .buQDrop q => Upd.vals_buQDrop q s
  | .buBuf k v => Upd.vals_buBuf k v s
  | .buBufDrop q => Upd.vals_buBufDrop q s
  | .buBook k v => Upd.vals_buBook k v s
  | .buBookDrop q => Upd.vals_buBookDrop q s
  | .buSlot k v => Upd.vals_buSlot k v s
  | .buSlotDrop q => Upd.vals_buSlotDrop q s
  | .yieldAt k v => Upd.vals_yieldAt k v s
  | .yieldAtDrop q => Upd.vals_yieldAtDrop q s
  | .kvtQ k v => Upd.vals_kvtQ k v s
  | .kvtQDrop q => Upd.vals_kvtQDrop q s
  | .kvtEnd k v => Upd.vals_kvtEnd k v s
  | .kvtEndDrop q => Upd.vals_kvtEndDrop q s
  | .kvtMigQ k v => Upd.vals_kvtMigQ k v s
  | .kvtMigQDrop q => Upd.vals_kvtMigQDrop q s
  | .kvtMoves k v => Upd.vals_kvtMoves k v s
  | .kvtMovesDrop q => Upd.vals_kvtMovesDrop q s
  | .kvtFrees k v => Upd.vals_kvtFrees k v s
  | .kvtFreesDrop q => Upd.vals_kvtFreesDrop q s
  | .kvtStaged k v => Upd.vals_kvtStaged k v s
  | .kvtStagedDrop q => Upd.vals_kvtStagedDrop q s
  | .gdRetrain k v => Upd.vals_gdRetrain k v s
  | .gdRetrainDrop q => Upd.vals_gdRetrainDrop q s
  | .cmds v => Upd.vals_cmds v s
  | .fetchAt k v => Upd.vals_fetchAt k v s
  | .fetchAtDrop q => Upd.vals_fetchAtDrop q s
  | .cqAgg k v => Upd.vals_cqAgg k v s
  | .cqAggDrop q => Upd.vals_cqAggDrop q s
  | .linkDown k v => Upd.vals_linkDown k v s
  | .linkDownDrop q => Upd.vals_linkDownDrop q s
  | .pmKey k v => Upd.vals_pmKey k v s
  | .pmKeyDrop q => Upd.vals_pmKeyDrop q s
  | .pmFlash k v => Upd.vals_pmFlash k v s
  | .pmFlashDrop q => Upd.vals_pmFlashDrop q s
  | .pmMark k v => Upd.vals_pmMark k v s
  | .pmMarkDrop q => Upd.vals_pmMarkDrop q s
  | .tampered v => Upd.vals_tampered v s
  | .offer v => Upd.vals_offer v s
  | .seqs k v => Upd.vals_seqs k v s
  | .seqsDrop q => Upd.vals_seqsDrop q s
  | .dispatchLog k v => Upd.vals_dispatchLog k v s
  | .dispatchLogDrop q => Upd.vals_dispatchLogDrop q s
  | .dispatchFlash v => Upd.vals_dispatchFlash v s
  | .franks k v => Upd.vals_franks k v s
  | .franksDrop q => Upd.vals_franksDrop q s
  | .fuseLcy v => Upd.vals_fuseLcy v s
  | .ready v => Upd.vals_ready v s
  | .stageAt v => Upd.vals_stageAt v s
  | .agreed k v => Upd.vals_agreed k v s
  | .agreedDrop q => Upd.vals_agreedDrop q s
  | .perst k v => Upd.vals_perst k v s
  | .perstDrop q => Upd.vals_perstDrop q s
  | .chart v => Upd.vals_chart v s
  | .chartLive v => Upd.vals_chartLive v s
  | .chartLoad v => Upd.vals_chartLoad v s
  | .applyNow v => Upd.vals_applyNow v s
  | .flashAt v => Upd.vals_flashAt v s
  | .fwAt v => Upd.vals_fwAt v s
  | .hello v => Upd.vals_hello v s
  | .enrolled v => Upd.vals_enrolled v s
  | .resetAt v => Upd.vals_resetAt v s
  | .dlEnd k v => Upd.vals_dlEnd k v s
  | .dlEndDrop q => Upd.vals_dlEndDrop q s
  | .dlFail k v => Upd.vals_dlFail k v s
  | .dlFailDrop q => Upd.vals_dlFailDrop q s
  | .dlOld k v => Upd.vals_dlOld k v s
  | .dlOldDrop q => Upd.vals_dlOldDrop q s
  | .dlMoves v => Upd.vals_dlMoves v s
  | .tideFirst v => Upd.vals_tideFirst v s
  | .tideNext v => Upd.vals_tideNext v s
  | .tidePer v => Upd.vals_tidePer v s
  | .slackAt v => Upd.vals_slackAt v s
  | .edgeCut v => Upd.vals_edgeCut v s
  | .slackFor v => Upd.vals_slackFor v s
  | .holdSince v => Upd.vals_holdSince v s
  | .overAt k v => Upd.vals_overAt k v s
  | .overAtDrop q => Upd.vals_overAtDrop q s
  | .stepEnd k v => Upd.vals_stepEnd k v s
  | .stepEndDrop q => Upd.vals_stepEndDrop q s
  | .stepAt k v => Upd.vals_stepAt k v s
  | .stepAtDrop q => Upd.vals_stepAtDrop q s
  | .stepTime v => Upd.vals_stepTime v s
  | .edgeNom v => Upd.vals_edgeNom v s
  | .stretchFor v => Upd.vals_stretchFor v s
  | .announced v => Upd.vals_announced v s
  | .reports v => Upd.vals_reports v s
  | .reported v => Upd.vals_reported v s
  | .synced v => Upd.vals_synced v s
  | .syncAt v => Upd.vals_syncAt v s
  | .retirePend v => Upd.vals_retirePend v s
  | .restage v => Upd.vals_restage v s
  | .cutNew v => Upd.vals_cutNew v s
  | .gwNext k v => Upd.vals_gwNext k v s
  | .gwNextDrop q => Upd.vals_gwNextDrop q s
  | .gwHold k v => Upd.vals_gwHold k v s
  | .gwHoldDrop q => Upd.vals_gwHoldDrop q s
  | .gwRefused k v => Upd.vals_gwRefused k v s
  | .gwRefusedDrop q => Upd.vals_gwRefusedDrop q s
  | .xqDesc k v => Upd.vals_xqDesc k v s
  | .xqDescDrop q => Upd.vals_xqDescDrop q s
  | .bar2 k v => Upd.vals_bar2 k v s
  | .bar2Drop q => Upd.vals_bar2Drop q s
  | .power v => Upd.vals_power v s
  | .suspects k v => Upd.vals_suspects k v s
  | .suspectsDrop q => Upd.vals_suspectsDrop q s
  | .disagreed k v => Upd.vals_disagreed k v s
  | .disagreedDrop q => Upd.vals_disagreedDrop q s
  | .soundings k v => Upd.vals_soundings k v s
  | .soundingsDrop q => Upd.vals_soundingsDrop q s
  | .residuals k v => Upd.vals_residuals k v s
  | .residualsDrop q => Upd.vals_residualsDrop q s
  | .foretold k v => Upd.vals_foretold k v s
  | .foretoldDrop q => Upd.vals_foretoldDrop q s
  | .rotAt k v => Upd.vals_rotAt k v s
  | .rotAtDrop q => Upd.vals_rotAtDrop q s
  | .ceCount k v => Upd.vals_ceCount k v s
  | .ceCountDrop q => Upd.vals_ceCountDrop q s
  | .testFrom v => Upd.vals_testFrom v s
  | .gov v => Upd.vals_gov v s
  | .eid v => Upd.vals_eid v s

theorem Part.at_inj {p q : Part} (h : p.at = q.at) : p = q := by
  have key : ∀ p : Part, p.at = p.ctorIdx := fun p => by cases p <;> rfl
  have := (key p).symm.trans (h.trans (key q))
  exact Part.ofNat_ctorIdx p ▸ Part.ofNat_ctorIdx q ▸ congrArg Part.ofNat this

theorem State.vals_at (s : State) (p : Part) : s.vals[p.at]? = some (s.val p) := by cases p <;> rfl

/-- An update changes no other part. -/
theorem Upd.val_other (u : Upd) (s : State) (p : Part) (h : p ≠ u.part) : (u.run s).val p = s.val p := by
  obtain ⟨v, hv⟩ := u.vals s
  have : (u.run s).vals[p.at]? = s.vals[p.at]? := by
    rw [hv, List.getElem?_set_ne fun e => h (Part.at_inj e).symm]
  rw [State.vals_at, State.vals_at] at this
  exact Option.some.inj this

theorem changesOnly_refl (ps : List Part) (s : State) : changesOnly ps s s := ⟨rfl, fun _ _ => rfl⟩

theorem changesOnly_trans {ps : List Part} {s t u : State} (h : changesOnly ps s t) (h' : changesOnly ps t u) :
    changesOnly ps s u := ⟨h'.1.trans h.1, fun p hp => (h'.2 p hp).trans (h.2 p hp)⟩

theorem changesOnly_mono {ps qs : List Part} {s t : State} (h : ps ⊆ qs) (hc : changesOnly ps s t) : changesOnly qs s t :=
  ⟨hc.1, fun p hp => hc.2 p fun hm => hp (h hm)⟩

/-- The effect writes parts of the list alone. -/
structure Eff.In (ps : List Part) (p : Eff) : Prop where
  only : p.Only fun u => u.part ∈ ps

theorem Eff.In.mono {ps qs : List Part} (h : ps ⊆ qs) {p : Eff} (hp : p.In ps) : p.In qs :=
  ⟨Eff.Only.mono (fun _ hu => h hu) hp.only⟩

/-- An effect changes no part that it does not write. -/
theorem Eff.In.changes {ps : List Part} {p : Eff} (h : p.In ps) (s : State) : changesOnly ps s (p.run s) :=
  ⟨Eff.run_pending p s, fun q hq => h.only.keeps (fun t => t.val q = s.val q)
    (fun u t hu ht => (u.val_other t q fun e => hq (e ▸ hu)).trans ht) s rfl⟩

variable {ps : List Part}

theorem Eff.in_skip : Eff.skip.In ps := ⟨trivial⟩
theorem Eff.in_upd {u : Upd} (h : u.part ∈ ps) : (Eff.upd u).In ps := ⟨h⟩
theorem Eff.in_seq {p q : Eff} (hp : p.In ps) (hq : q.In ps) : (Eff.seq p q).In ps := ⟨⟨hp.only, hq.only⟩⟩
theorem Eff.in_look {k : State → Eff} (h : ∀ s, (k s).In ps) : (Eff.look k).In ps := ⟨fun s => (h s).only⟩
theorem Eff.in_all_nil : (Eff.all []).In ps := ⟨trivial⟩
theorem Eff.in_all_cons {p : Eff} {rest : List Eff} (hp : p.In ps) (hr : (Eff.all rest).In ps) :
    (Eff.all (p :: rest)).In ps := ⟨(Eff.only_all_cons p rest).2 ⟨hp.only, hr.only⟩⟩
theorem Eff.in_when {b : Bool} {p : Eff} (hp : p.In ps) : (Eff.when b p).In ps :=
  ⟨(Eff.only_when b p).2 fun _ => hp.only⟩
theorem Eff.in_each {α : Type} {xs : List α} {f : α → Eff} (h : ∀ x, (f x).In ps) : (Eff.each xs f).In ps :=
  ⟨(Eff.only_each xs f).2 fun x _ => (h x).only⟩

theorem putReg_in (k : Nat) (v : Word) (h : [Part.regs] ⊆ ps) : (putReg k v).In ps := ⟨h (by simp [Upd.part])⟩
theorem put_in (f : Fld) (x : Nat) (h : [Part.regs] ⊆ ps) : (put f x).In ps := ⟨only_put f x fun _ => h (by simp [Upd.part])⟩
theorem addSat_in (f : Fld) (x : Nat) (h : [Part.regs] ⊆ ps) : (addSat f x).In ps :=
  ⟨only_addSat f x fun _ => h (by simp [Upd.part])⟩
theorem addWrap_in (f : Fld) (x : Nat) (h : [Part.regs] ⊆ ps) : (addWrap f x).In ps :=
  ⟨only_addWrap f x fun _ => h (by simp [Upd.part])⟩
theorem pokeBytes_in (a : Nat) (bs : List Byte) (h : [Part.mem] ⊆ ps) : (pokeBytes a bs).In ps :=
  ⟨only_pokeBytes bs a fun _ _ => h (by simp [Upd.part])⟩
theorem pokeHost_in (p a : Nat) (bs : List Byte) (h : [Part.hostMem] ⊆ ps) : (pokeHost p a bs).In ps :=
  ⟨only_pokeHost bs p a fun _ _ => h (by simp [Upd.part])⟩

theorem changesOnly.same_now {ps : List Part} {s t : State} (h : changesOnly ps s t) (hn : Part.now ∉ ps) :
    t.now = s.now := eq_of_heq (Sigma.mk.inj (h.2 .now hn)).2
theorem changesOnly.same_tideOff {ps : List Part} {s t : State} (h : changesOnly ps s t) (hn : Part.tideOff ∉ ps) :
    t.tideOff = s.tideOff := eq_of_heq (Sigma.mk.inj (h.2 .tideOff hn)).2
theorem changesOnly.same_freeCtr {ps : List Part} {s t : State} (h : changesOnly ps s t) (hn : Part.freeCtr ∉ ps) :
    t.freeCtr = s.freeCtr := eq_of_heq (Sigma.mk.inj (h.2 .freeCtr hn)).2
theorem changesOnly.same_out {ps : List Part} {s t : State} (h : changesOnly ps s t) (hn : Part.out ∉ ps) :
    t.out = s.out := eq_of_heq (Sigma.mk.inj (h.2 .out hn)).2
theorem changesOnly.same_regs {ps : List Part} {s t : State} (h : changesOnly ps s t) (hn : Part.regs ∉ ps) :
    t.regs = s.regs := eq_of_heq (Sigma.mk.inj (h.2 .regs hn)).2
theorem changesOnly.same_shadows {ps : List Part} {s t : State} (h : changesOnly ps s t) (hn : Part.shadows ∉ ps) :
    t.shadows = s.shadows := eq_of_heq (Sigma.mk.inj (h.2 .shadows hn)).2
theorem changesOnly.same_mem {ps : List Part} {s t : State} (h : changesOnly ps s t) (hn : Part.mem ∉ ps) :
    t.mem = s.mem := eq_of_heq (Sigma.mk.inj (h.2 .mem hn)).2
theorem changesOnly.same_check {ps : List Part} {s t : State} (h : changesOnly ps s t) (hn : Part.check ∉ ps) :
    t.check = s.check := eq_of_heq (Sigma.mk.inj (h.2 .check hn)).2
theorem changesOnly.same_marks {ps : List Part} {s t : State} (h : changesOnly ps s t) (hn : Part.marks ∉ ps) :
    t.marks = s.marks := eq_of_heq (Sigma.mk.inj (h.2 .marks hn)).2
theorem changesOnly.same_hostMem {ps : List Part} {s t : State} (h : changesOnly ps s t) (hn : Part.hostMem ∉ ps) :
    t.hostMem = s.hostMem := eq_of_heq (Sigma.mk.inj (h.2 .hostMem hn)).2
theorem changesOnly.same_msix {ps : List Part} {s t : State} (h : changesOnly ps s t) (hn : Part.msix ∉ ps) :
    t.msix = s.msix := eq_of_heq (Sigma.mk.inj (h.2 .msix hn)).2
theorem changesOnly.same_mgmtQ {ps : List Part} {s t : State} (h : changesOnly ps s t) (hn : Part.mgmtQ ∉ ps) :
    t.mgmtQ = s.mgmtQ := eq_of_heq (Sigma.mk.inj (h.2 .mgmtQ hn)).2
theorem changesOnly.same_mgmtDropped {ps : List Part} {s t : State} (h : changesOnly ps s t) (hn : Part.mgmtDropped ∉ ps) :
    t.mgmtDropped = s.mgmtDropped := eq_of_heq (Sigma.mk.inj (h.2 .mgmtDropped hn)).2
theorem changesOnly.same_mon {ps : List Part} {s t : State} (h : changesOnly ps s t) (hn : Part.mon ∉ ps) :
    t.mon = s.mon := eq_of_heq (Sigma.mk.inj (h.2 .mon hn)).2
theorem changesOnly.same_cache {ps : List Part} {s t : State} (h : changesOnly ps s t) (hn : Part.cache ∉ ps) :
    t.cache = s.cache := eq_of_heq (Sigma.mk.inj (h.2 .cache hn)).2
theorem changesOnly.same_tagLost {ps : List Part} {s t : State} (h : changesOnly ps s t) (hn : Part.tagLost ∉ ps) :
    t.tagLost = s.tagLost := eq_of_heq (Sigma.mk.inj (h.2 .tagLost hn)).2
theorem changesOnly.same_tracker {ps : List Part} {s t : State} (h : changesOnly ps s t) (hn : Part.tracker ∉ ps) :
    t.tracker = s.tracker := eq_of_heq (Sigma.mk.inj (h.2 .tracker hn)).2
theorem changesOnly.same_spares {ps : List Part} {s t : State} (h : changesOnly ps s t) (hn : Part.spares ∉ ps) :
    t.spares = s.spares := eq_of_heq (Sigma.mk.inj (h.2 .spares hn)).2
theorem changesOnly.same_remapNew {ps : List Part} {s t : State} (h : changesOnly ps s t) (hn : Part.remapNew ∉ ps) :
    t.remapNew = s.remapNew := eq_of_heq (Sigma.mk.inj (h.2 .remapNew hn)).2
theorem changesOnly.same_remapFlash {ps : List Part} {s t : State} (h : changesOnly ps s t) (hn : Part.remapFlash ∉ ps) :
    t.remapFlash = s.remapFlash := eq_of_heq (Sigma.mk.inj (h.2 .remapFlash hn)).2
theorem changesOnly.same_held {ps : List Part} {s t : State} (h : changesOnly ps s t) (hn : Part.held ∉ ps) :
    t.held = s.held := eq_of_heq (Sigma.mk.inj (h.2 .held hn)).2
theorem changesOnly.same_granted {ps : List Part} {s t : State} (h : changesOnly ps s t) (hn : Part.granted ∉ ps) :
    t.granted = s.granted := eq_of_heq (Sigma.mk.inj (h.2 .granted hn)).2
theorem changesOnly.same_heldParts {ps : List Part} {s t : State} (h : changesOnly ps s t) (hn : Part.heldParts ∉ ps) :
    t.heldParts = s.heldParts := eq_of_heq (Sigma.mk.inj (h.2 .heldParts hn)).2
theorem changesOnly.same_rxWait {ps : List Part} {s t : State} (h : changesOnly ps s t) (hn : Part.rxWait ∉ ps) :
    t.rxWait = s.rxWait := eq_of_heq (Sigma.mk.inj (h.2 .rxWait hn)).2
theorem changesOnly.same_boot {ps : List Part} {s t : State} (h : changesOnly ps s t) (hn : Part.boot ∉ ps) :
    t.boot = s.boot := eq_of_heq (Sigma.mk.inj (h.2 .boot hn)).2
theorem changesOnly.same_replaceFlash {ps : List Part} {s t : State} (h : changesOnly ps s t) (hn : Part.replaceFlash ∉ ps) :
    t.replaceFlash = s.replaceFlash := eq_of_heq (Sigma.mk.inj (h.2 .replaceFlash hn)).2
theorem changesOnly.same_gwOut {ps : List Part} {s t : State} (h : changesOnly ps s t) (hn : Part.gwOut ∉ ps) :
    t.gwOut = s.gwOut := eq_of_heq (Sigma.mk.inj (h.2 .gwOut hn)).2
theorem changesOnly.same_hopBuf {ps : List Part} {s t : State} (h : changesOnly ps s t) (hn : Part.hopBuf ∉ ps) :
    t.hopBuf = s.hopBuf := eq_of_heq (Sigma.mk.inj (h.2 .hopBuf hn)).2
theorem changesOnly.same_parityCount {ps : List Part} {s t : State} (h : changesOnly ps s t) (hn : Part.parityCount ∉ ps) :
    t.parityCount = s.parityCount := eq_of_heq (Sigma.mk.inj (h.2 .parityCount hn)).2
theorem changesOnly.same_gwSeq {ps : List Part} {s t : State} (h : changesOnly ps s t) (hn : Part.gwSeq ∉ ps) :
    t.gwSeq = s.gwSeq := eq_of_heq (Sigma.mk.inj (h.2 .gwSeq hn)).2
theorem changesOnly.same_gwSpray {ps : List Part} {s t : State} (h : changesOnly ps s t) (hn : Part.gwSpray ∉ ps) :
    t.gwSpray = s.gwSpray := eq_of_heq (Sigma.mk.inj (h.2 .gwSpray hn)).2
theorem changesOnly.same_sigQ {ps : List Part} {s t : State} (h : changesOnly ps s t) (hn : Part.sigQ ∉ ps) :
    t.sigQ = s.sigQ := eq_of_heq (Sigma.mk.inj (h.2 .sigQ hn)).2
theorem changesOnly.same_landQ {ps : List Part} {s t : State} (h : changesOnly ps s t) (hn : Part.landQ ∉ ps) :
    t.landQ = s.landQ := eq_of_heq (Sigma.mk.inj (h.2 .landQ hn)).2
theorem changesOnly.same_arrQ {ps : List Part} {s t : State} (h : changesOnly ps s t) (hn : Part.arrQ ∉ ps) :
    t.arrQ = s.arrQ := eq_of_heq (Sigma.mk.inj (h.2 .arrQ hn)).2
theorem changesOnly.same_relQ {ps : List Part} {s t : State} (h : changesOnly ps s t) (hn : Part.relQ ∉ ps) :
    t.relQ = s.relQ := eq_of_heq (Sigma.mk.inj (h.2 .relQ hn)).2
theorem changesOnly.same_waiters {ps : List Part} {s t : State} (h : changesOnly ps s t) (hn : Part.waiters ∉ ps) :
    t.waiters = s.waiters := eq_of_heq (Sigma.mk.inj (h.2 .waiters hn)).2
theorem changesOnly.same_waitSince {ps : List Part} {s t : State} (h : changesOnly ps s t) (hn : Part.waitSince ∉ ps) :
    t.waitSince = s.waitSince := eq_of_heq (Sigma.mk.inj (h.2 .waitSince hn)).2
theorem changesOnly.same_buRound {ps : List Part} {s t : State} (h : changesOnly ps s t) (hn : Part.buRound ∉ ps) :
    t.buRound = s.buRound := eq_of_heq (Sigma.mk.inj (h.2 .buRound hn)).2
theorem changesOnly.same_relSeen {ps : List Part} {s t : State} (h : changesOnly ps s t) (hn : Part.relSeen ∉ ps) :
    t.relSeen = s.relSeen := eq_of_heq (Sigma.mk.inj (h.2 .relSeen hn)).2
theorem changesOnly.same_tagNext {ps : List Part} {s t : State} (h : changesOnly ps s t) (hn : Part.tagNext ∉ ps) :
    t.tagNext = s.tagNext := eq_of_heq (Sigma.mk.inj (h.2 .tagNext hn)).2
theorem changesOnly.same_loads {ps : List Part} {s t : State} (h : changesOnly ps s t) (hn : Part.loads ∉ ps) :
    t.loads = s.loads := eq_of_heq (Sigma.mk.inj (h.2 .loads hn)).2
theorem changesOnly.same_icache {ps : List Part} {s t : State} (h : changesOnly ps s t) (hn : Part.icache ∉ ps) :
    t.icache = s.icache := eq_of_heq (Sigma.mk.inj (h.2 .icache hn)).2
theorem changesOnly.same_rrLast {ps : List Part} {s t : State} (h : changesOnly ps s t) (hn : Part.rrLast ∉ ps) :
    t.rrLast = s.rrLast := eq_of_heq (Sigma.mk.inj (h.2 .rrLast hn)).2
theorem changesOnly.same_thrStep {ps : List Part} {s t : State} (h : changesOnly ps s t) (hn : Part.thrStep ∉ ps) :
    t.thrStep = s.thrStep := eq_of_heq (Sigma.mk.inj (h.2 .thrStep hn)).2
theorem changesOnly.same_vecQ {ps : List Part} {s t : State} (h : changesOnly ps s t) (hn : Part.vecQ ∉ ps) :
    t.vecQ = s.vecQ := eq_of_heq (Sigma.mk.inj (h.2 .vecQ hn)).2
theorem changesOnly.same_qeQ {ps : List Part} {s t : State} (h : changesOnly ps s t) (hn : Part.qeQ ∉ ps) :
    t.qeQ = s.qeQ := eq_of_heq (Sigma.mk.inj (h.2 .qeQ hn)).2
theorem changesOnly.same_qeSubs {ps : List Part} {s t : State} (h : changesOnly ps s t) (hn : Part.qeSubs ∉ ps) :
    t.qeSubs = s.qeSubs := eq_of_heq (Sigma.mk.inj (h.2 .qeSubs hn)).2
theorem changesOnly.same_qeFlush {ps : List Part} {s t : State} (h : changesOnly ps s t) (hn : Part.qeFlush ∉ ps) :
    t.qeFlush = s.qeFlush := eq_of_heq (Sigma.mk.inj (h.2 .qeFlush hn)).2
theorem changesOnly.same_segQ {ps : List Part} {s t : State} (h : changesOnly ps s t) (hn : Part.segQ ∉ ps) :
    t.segQ = s.segQ := eq_of_heq (Sigma.mk.inj (h.2 .segQ hn)).2
theorem changesOnly.same_creditQ {ps : List Part} {s t : State} (h : changesOnly ps s t) (hn : Part.creditQ ∉ ps) :
    t.creditQ = s.creditQ := eq_of_heq (Sigma.mk.inj (h.2 .creditQ hn)).2
theorem changesOnly.same_routeSlot {ps : List Part} {s t : State} (h : changesOnly ps s t) (hn : Part.routeSlot ∉ ps) :
    t.routeSlot = s.routeSlot := eq_of_heq (Sigma.mk.inj (h.2 .routeSlot hn)).2
theorem changesOnly.same_stallSince {ps : List Part} {s t : State} (h : changesOnly ps s t) (hn : Part.stallSince ∉ ps) :
    t.stallSince = s.stallSince := eq_of_heq (Sigma.mk.inj (h.2 .stallSince hn)).2
theorem changesOnly.same_passQ {ps : List Part} {s t : State} (h : changesOnly ps s t) (hn : Part.passQ ∉ ps) :
    t.passQ = s.passQ := eq_of_heq (Sigma.mk.inj (h.2 .passQ hn)).2
theorem changesOnly.same_feedAt {ps : List Part} {s t : State} (h : changesOnly ps s t) (hn : Part.feedAt ∉ ps) :
    t.feedAt = s.feedAt := eq_of_heq (Sigma.mk.inj (h.2 .feedAt hn)).2
theorem changesOnly.same_refRow {ps : List Part} {s t : State} (h : changesOnly ps s t) (hn : Part.refRow ∉ ps) :
    t.refRow = s.refRow := eq_of_heq (Sigma.mk.inj (h.2 .refRow hn)).2
theorem changesOnly.same_scrubRun {ps : List Part} {s t : State} (h : changesOnly ps s t) (hn : Part.scrubRun ∉ ps) :
    t.scrubRun = s.scrubRun := eq_of_heq (Sigma.mk.inj (h.2 .scrubRun hn)).2
theorem changesOnly.same_buQ {ps : List Part} {s t : State} (h : changesOnly ps s t) (hn : Part.buQ ∉ ps) :
    t.buQ = s.buQ := eq_of_heq (Sigma.mk.inj (h.2 .buQ hn)).2
theorem changesOnly.same_buBuf {ps : List Part} {s t : State} (h : changesOnly ps s t) (hn : Part.buBuf ∉ ps) :
    t.buBuf = s.buBuf := eq_of_heq (Sigma.mk.inj (h.2 .buBuf hn)).2
theorem changesOnly.same_buBook {ps : List Part} {s t : State} (h : changesOnly ps s t) (hn : Part.buBook ∉ ps) :
    t.buBook = s.buBook := eq_of_heq (Sigma.mk.inj (h.2 .buBook hn)).2
theorem changesOnly.same_buSlot {ps : List Part} {s t : State} (h : changesOnly ps s t) (hn : Part.buSlot ∉ ps) :
    t.buSlot = s.buSlot := eq_of_heq (Sigma.mk.inj (h.2 .buSlot hn)).2
theorem changesOnly.same_yieldAt {ps : List Part} {s t : State} (h : changesOnly ps s t) (hn : Part.yieldAt ∉ ps) :
    t.yieldAt = s.yieldAt := eq_of_heq (Sigma.mk.inj (h.2 .yieldAt hn)).2
theorem changesOnly.same_kvtQ {ps : List Part} {s t : State} (h : changesOnly ps s t) (hn : Part.kvtQ ∉ ps) :
    t.kvtQ = s.kvtQ := eq_of_heq (Sigma.mk.inj (h.2 .kvtQ hn)).2
theorem changesOnly.same_kvtEnd {ps : List Part} {s t : State} (h : changesOnly ps s t) (hn : Part.kvtEnd ∉ ps) :
    t.kvtEnd = s.kvtEnd := eq_of_heq (Sigma.mk.inj (h.2 .kvtEnd hn)).2
theorem changesOnly.same_kvtMigQ {ps : List Part} {s t : State} (h : changesOnly ps s t) (hn : Part.kvtMigQ ∉ ps) :
    t.kvtMigQ = s.kvtMigQ := eq_of_heq (Sigma.mk.inj (h.2 .kvtMigQ hn)).2
theorem changesOnly.same_kvtMoves {ps : List Part} {s t : State} (h : changesOnly ps s t) (hn : Part.kvtMoves ∉ ps) :
    t.kvtMoves = s.kvtMoves := eq_of_heq (Sigma.mk.inj (h.2 .kvtMoves hn)).2
theorem changesOnly.same_kvtFrees {ps : List Part} {s t : State} (h : changesOnly ps s t) (hn : Part.kvtFrees ∉ ps) :
    t.kvtFrees = s.kvtFrees := eq_of_heq (Sigma.mk.inj (h.2 .kvtFrees hn)).2
theorem changesOnly.same_kvtStaged {ps : List Part} {s t : State} (h : changesOnly ps s t) (hn : Part.kvtStaged ∉ ps) :
    t.kvtStaged = s.kvtStaged := eq_of_heq (Sigma.mk.inj (h.2 .kvtStaged hn)).2
theorem changesOnly.same_gdRetrain {ps : List Part} {s t : State} (h : changesOnly ps s t) (hn : Part.gdRetrain ∉ ps) :
    t.gdRetrain = s.gdRetrain := eq_of_heq (Sigma.mk.inj (h.2 .gdRetrain hn)).2
theorem changesOnly.same_cmds {ps : List Part} {s t : State} (h : changesOnly ps s t) (hn : Part.cmds ∉ ps) :
    t.cmds = s.cmds := eq_of_heq (Sigma.mk.inj (h.2 .cmds hn)).2
theorem changesOnly.same_fetchAt {ps : List Part} {s t : State} (h : changesOnly ps s t) (hn : Part.fetchAt ∉ ps) :
    t.fetchAt = s.fetchAt := eq_of_heq (Sigma.mk.inj (h.2 .fetchAt hn)).2
theorem changesOnly.same_cqAgg {ps : List Part} {s t : State} (h : changesOnly ps s t) (hn : Part.cqAgg ∉ ps) :
    t.cqAgg = s.cqAgg := eq_of_heq (Sigma.mk.inj (h.2 .cqAgg hn)).2
theorem changesOnly.same_linkDown {ps : List Part} {s t : State} (h : changesOnly ps s t) (hn : Part.linkDown ∉ ps) :
    t.linkDown = s.linkDown := eq_of_heq (Sigma.mk.inj (h.2 .linkDown hn)).2
theorem changesOnly.same_pmKey {ps : List Part} {s t : State} (h : changesOnly ps s t) (hn : Part.pmKey ∉ ps) :
    t.pmKey = s.pmKey := eq_of_heq (Sigma.mk.inj (h.2 .pmKey hn)).2
theorem changesOnly.same_pmFlash {ps : List Part} {s t : State} (h : changesOnly ps s t) (hn : Part.pmFlash ∉ ps) :
    t.pmFlash = s.pmFlash := eq_of_heq (Sigma.mk.inj (h.2 .pmFlash hn)).2
theorem changesOnly.same_pmMark {ps : List Part} {s t : State} (h : changesOnly ps s t) (hn : Part.pmMark ∉ ps) :
    t.pmMark = s.pmMark := eq_of_heq (Sigma.mk.inj (h.2 .pmMark hn)).2
theorem changesOnly.same_tampered {ps : List Part} {s t : State} (h : changesOnly ps s t) (hn : Part.tampered ∉ ps) :
    t.tampered = s.tampered := eq_of_heq (Sigma.mk.inj (h.2 .tampered hn)).2
theorem changesOnly.same_offer {ps : List Part} {s t : State} (h : changesOnly ps s t) (hn : Part.offer ∉ ps) :
    t.offer = s.offer := eq_of_heq (Sigma.mk.inj (h.2 .offer hn)).2
theorem changesOnly.same_seqs {ps : List Part} {s t : State} (h : changesOnly ps s t) (hn : Part.seqs ∉ ps) :
    t.seqs = s.seqs := eq_of_heq (Sigma.mk.inj (h.2 .seqs hn)).2
theorem changesOnly.same_dispatchLog {ps : List Part} {s t : State} (h : changesOnly ps s t) (hn : Part.dispatchLog ∉ ps) :
    t.dispatchLog = s.dispatchLog := eq_of_heq (Sigma.mk.inj (h.2 .dispatchLog hn)).2
theorem changesOnly.same_dispatchFlash {ps : List Part} {s t : State} (h : changesOnly ps s t) (hn : Part.dispatchFlash ∉ ps) :
    t.dispatchFlash = s.dispatchFlash := eq_of_heq (Sigma.mk.inj (h.2 .dispatchFlash hn)).2
theorem changesOnly.same_franks {ps : List Part} {s t : State} (h : changesOnly ps s t) (hn : Part.franks ∉ ps) :
    t.franks = s.franks := eq_of_heq (Sigma.mk.inj (h.2 .franks hn)).2
theorem changesOnly.same_fuseLcy {ps : List Part} {s t : State} (h : changesOnly ps s t) (hn : Part.fuseLcy ∉ ps) :
    t.fuseLcy = s.fuseLcy := eq_of_heq (Sigma.mk.inj (h.2 .fuseLcy hn)).2
theorem changesOnly.same_ready {ps : List Part} {s t : State} (h : changesOnly ps s t) (hn : Part.ready ∉ ps) :
    t.ready = s.ready := eq_of_heq (Sigma.mk.inj (h.2 .ready hn)).2
theorem changesOnly.same_stageAt {ps : List Part} {s t : State} (h : changesOnly ps s t) (hn : Part.stageAt ∉ ps) :
    t.stageAt = s.stageAt := eq_of_heq (Sigma.mk.inj (h.2 .stageAt hn)).2
theorem changesOnly.same_agreed {ps : List Part} {s t : State} (h : changesOnly ps s t) (hn : Part.agreed ∉ ps) :
    t.agreed = s.agreed := eq_of_heq (Sigma.mk.inj (h.2 .agreed hn)).2
theorem changesOnly.same_perst {ps : List Part} {s t : State} (h : changesOnly ps s t) (hn : Part.perst ∉ ps) :
    t.perst = s.perst := eq_of_heq (Sigma.mk.inj (h.2 .perst hn)).2
theorem changesOnly.same_chart {ps : List Part} {s t : State} (h : changesOnly ps s t) (hn : Part.chart ∉ ps) :
    t.chart = s.chart := eq_of_heq (Sigma.mk.inj (h.2 .chart hn)).2
theorem changesOnly.same_chartLive {ps : List Part} {s t : State} (h : changesOnly ps s t) (hn : Part.chartLive ∉ ps) :
    t.chartLive = s.chartLive := eq_of_heq (Sigma.mk.inj (h.2 .chartLive hn)).2
theorem changesOnly.same_chartLoad {ps : List Part} {s t : State} (h : changesOnly ps s t) (hn : Part.chartLoad ∉ ps) :
    t.chartLoad = s.chartLoad := eq_of_heq (Sigma.mk.inj (h.2 .chartLoad hn)).2
theorem changesOnly.same_applyNow {ps : List Part} {s t : State} (h : changesOnly ps s t) (hn : Part.applyNow ∉ ps) :
    t.applyNow = s.applyNow := eq_of_heq (Sigma.mk.inj (h.2 .applyNow hn)).2
theorem changesOnly.same_flashAt {ps : List Part} {s t : State} (h : changesOnly ps s t) (hn : Part.flashAt ∉ ps) :
    t.flashAt = s.flashAt := eq_of_heq (Sigma.mk.inj (h.2 .flashAt hn)).2
theorem changesOnly.same_fwAt {ps : List Part} {s t : State} (h : changesOnly ps s t) (hn : Part.fwAt ∉ ps) :
    t.fwAt = s.fwAt := eq_of_heq (Sigma.mk.inj (h.2 .fwAt hn)).2
theorem changesOnly.same_hello {ps : List Part} {s t : State} (h : changesOnly ps s t) (hn : Part.hello ∉ ps) :
    t.hello = s.hello := eq_of_heq (Sigma.mk.inj (h.2 .hello hn)).2
theorem changesOnly.same_enrolled {ps : List Part} {s t : State} (h : changesOnly ps s t) (hn : Part.enrolled ∉ ps) :
    t.enrolled = s.enrolled := eq_of_heq (Sigma.mk.inj (h.2 .enrolled hn)).2
theorem changesOnly.same_resetAt {ps : List Part} {s t : State} (h : changesOnly ps s t) (hn : Part.resetAt ∉ ps) :
    t.resetAt = s.resetAt := eq_of_heq (Sigma.mk.inj (h.2 .resetAt hn)).2
theorem changesOnly.same_dlEnd {ps : List Part} {s t : State} (h : changesOnly ps s t) (hn : Part.dlEnd ∉ ps) :
    t.dlEnd = s.dlEnd := eq_of_heq (Sigma.mk.inj (h.2 .dlEnd hn)).2
theorem changesOnly.same_dlFail {ps : List Part} {s t : State} (h : changesOnly ps s t) (hn : Part.dlFail ∉ ps) :
    t.dlFail = s.dlFail := eq_of_heq (Sigma.mk.inj (h.2 .dlFail hn)).2
theorem changesOnly.same_dlOld {ps : List Part} {s t : State} (h : changesOnly ps s t) (hn : Part.dlOld ∉ ps) :
    t.dlOld = s.dlOld := eq_of_heq (Sigma.mk.inj (h.2 .dlOld hn)).2
theorem changesOnly.same_dlMoves {ps : List Part} {s t : State} (h : changesOnly ps s t) (hn : Part.dlMoves ∉ ps) :
    t.dlMoves = s.dlMoves := eq_of_heq (Sigma.mk.inj (h.2 .dlMoves hn)).2
theorem changesOnly.same_tideFirst {ps : List Part} {s t : State} (h : changesOnly ps s t) (hn : Part.tideFirst ∉ ps) :
    t.tideFirst = s.tideFirst := eq_of_heq (Sigma.mk.inj (h.2 .tideFirst hn)).2
theorem changesOnly.same_tideNext {ps : List Part} {s t : State} (h : changesOnly ps s t) (hn : Part.tideNext ∉ ps) :
    t.tideNext = s.tideNext := eq_of_heq (Sigma.mk.inj (h.2 .tideNext hn)).2
theorem changesOnly.same_tidePer {ps : List Part} {s t : State} (h : changesOnly ps s t) (hn : Part.tidePer ∉ ps) :
    t.tidePer = s.tidePer := eq_of_heq (Sigma.mk.inj (h.2 .tidePer hn)).2
theorem changesOnly.same_slackAt {ps : List Part} {s t : State} (h : changesOnly ps s t) (hn : Part.slackAt ∉ ps) :
    t.slackAt = s.slackAt := eq_of_heq (Sigma.mk.inj (h.2 .slackAt hn)).2
theorem changesOnly.same_edgeCut {ps : List Part} {s t : State} (h : changesOnly ps s t) (hn : Part.edgeCut ∉ ps) :
    t.edgeCut = s.edgeCut := eq_of_heq (Sigma.mk.inj (h.2 .edgeCut hn)).2
theorem changesOnly.same_slackFor {ps : List Part} {s t : State} (h : changesOnly ps s t) (hn : Part.slackFor ∉ ps) :
    t.slackFor = s.slackFor := eq_of_heq (Sigma.mk.inj (h.2 .slackFor hn)).2
theorem changesOnly.same_holdSince {ps : List Part} {s t : State} (h : changesOnly ps s t) (hn : Part.holdSince ∉ ps) :
    t.holdSince = s.holdSince := eq_of_heq (Sigma.mk.inj (h.2 .holdSince hn)).2
theorem changesOnly.same_overAt {ps : List Part} {s t : State} (h : changesOnly ps s t) (hn : Part.overAt ∉ ps) :
    t.overAt = s.overAt := eq_of_heq (Sigma.mk.inj (h.2 .overAt hn)).2
theorem changesOnly.same_stepEnd {ps : List Part} {s t : State} (h : changesOnly ps s t) (hn : Part.stepEnd ∉ ps) :
    t.stepEnd = s.stepEnd := eq_of_heq (Sigma.mk.inj (h.2 .stepEnd hn)).2
theorem changesOnly.same_stepAt {ps : List Part} {s t : State} (h : changesOnly ps s t) (hn : Part.stepAt ∉ ps) :
    t.stepAt = s.stepAt := eq_of_heq (Sigma.mk.inj (h.2 .stepAt hn)).2
theorem changesOnly.same_stepTime {ps : List Part} {s t : State} (h : changesOnly ps s t) (hn : Part.stepTime ∉ ps) :
    t.stepTime = s.stepTime := eq_of_heq (Sigma.mk.inj (h.2 .stepTime hn)).2
theorem changesOnly.same_edgeNom {ps : List Part} {s t : State} (h : changesOnly ps s t) (hn : Part.edgeNom ∉ ps) :
    t.edgeNom = s.edgeNom := eq_of_heq (Sigma.mk.inj (h.2 .edgeNom hn)).2
theorem changesOnly.same_stretchFor {ps : List Part} {s t : State} (h : changesOnly ps s t) (hn : Part.stretchFor ∉ ps) :
    t.stretchFor = s.stretchFor := eq_of_heq (Sigma.mk.inj (h.2 .stretchFor hn)).2
theorem changesOnly.same_announced {ps : List Part} {s t : State} (h : changesOnly ps s t) (hn : Part.announced ∉ ps) :
    t.announced = s.announced := eq_of_heq (Sigma.mk.inj (h.2 .announced hn)).2
theorem changesOnly.same_reports {ps : List Part} {s t : State} (h : changesOnly ps s t) (hn : Part.reports ∉ ps) :
    t.reports = s.reports := eq_of_heq (Sigma.mk.inj (h.2 .reports hn)).2
theorem changesOnly.same_reported {ps : List Part} {s t : State} (h : changesOnly ps s t) (hn : Part.reported ∉ ps) :
    t.reported = s.reported := eq_of_heq (Sigma.mk.inj (h.2 .reported hn)).2
theorem changesOnly.same_synced {ps : List Part} {s t : State} (h : changesOnly ps s t) (hn : Part.synced ∉ ps) :
    t.synced = s.synced := eq_of_heq (Sigma.mk.inj (h.2 .synced hn)).2
theorem changesOnly.same_syncAt {ps : List Part} {s t : State} (h : changesOnly ps s t) (hn : Part.syncAt ∉ ps) :
    t.syncAt = s.syncAt := eq_of_heq (Sigma.mk.inj (h.2 .syncAt hn)).2
theorem changesOnly.same_retirePend {ps : List Part} {s t : State} (h : changesOnly ps s t) (hn : Part.retirePend ∉ ps) :
    t.retirePend = s.retirePend := eq_of_heq (Sigma.mk.inj (h.2 .retirePend hn)).2
theorem changesOnly.same_restage {ps : List Part} {s t : State} (h : changesOnly ps s t) (hn : Part.restage ∉ ps) :
    t.restage = s.restage := eq_of_heq (Sigma.mk.inj (h.2 .restage hn)).2
theorem changesOnly.same_cutNew {ps : List Part} {s t : State} (h : changesOnly ps s t) (hn : Part.cutNew ∉ ps) :
    t.cutNew = s.cutNew := eq_of_heq (Sigma.mk.inj (h.2 .cutNew hn)).2
theorem changesOnly.same_gwNext {ps : List Part} {s t : State} (h : changesOnly ps s t) (hn : Part.gwNext ∉ ps) :
    t.gwNext = s.gwNext := eq_of_heq (Sigma.mk.inj (h.2 .gwNext hn)).2
theorem changesOnly.same_gwHold {ps : List Part} {s t : State} (h : changesOnly ps s t) (hn : Part.gwHold ∉ ps) :
    t.gwHold = s.gwHold := eq_of_heq (Sigma.mk.inj (h.2 .gwHold hn)).2
theorem changesOnly.same_gwRefused {ps : List Part} {s t : State} (h : changesOnly ps s t) (hn : Part.gwRefused ∉ ps) :
    t.gwRefused = s.gwRefused := eq_of_heq (Sigma.mk.inj (h.2 .gwRefused hn)).2
theorem changesOnly.same_xqDesc {ps : List Part} {s t : State} (h : changesOnly ps s t) (hn : Part.xqDesc ∉ ps) :
    t.xqDesc = s.xqDesc := eq_of_heq (Sigma.mk.inj (h.2 .xqDesc hn)).2
theorem changesOnly.same_bar2 {ps : List Part} {s t : State} (h : changesOnly ps s t) (hn : Part.bar2 ∉ ps) :
    t.bar2 = s.bar2 := eq_of_heq (Sigma.mk.inj (h.2 .bar2 hn)).2
theorem changesOnly.same_power {ps : List Part} {s t : State} (h : changesOnly ps s t) (hn : Part.power ∉ ps) :
    t.power = s.power := eq_of_heq (Sigma.mk.inj (h.2 .power hn)).2
theorem changesOnly.same_suspects {ps : List Part} {s t : State} (h : changesOnly ps s t) (hn : Part.suspects ∉ ps) :
    t.suspects = s.suspects := eq_of_heq (Sigma.mk.inj (h.2 .suspects hn)).2
theorem changesOnly.same_disagreed {ps : List Part} {s t : State} (h : changesOnly ps s t) (hn : Part.disagreed ∉ ps) :
    t.disagreed = s.disagreed := eq_of_heq (Sigma.mk.inj (h.2 .disagreed hn)).2
theorem changesOnly.same_soundings {ps : List Part} {s t : State} (h : changesOnly ps s t) (hn : Part.soundings ∉ ps) :
    t.soundings = s.soundings := eq_of_heq (Sigma.mk.inj (h.2 .soundings hn)).2
theorem changesOnly.same_residuals {ps : List Part} {s t : State} (h : changesOnly ps s t) (hn : Part.residuals ∉ ps) :
    t.residuals = s.residuals := eq_of_heq (Sigma.mk.inj (h.2 .residuals hn)).2
theorem changesOnly.same_foretold {ps : List Part} {s t : State} (h : changesOnly ps s t) (hn : Part.foretold ∉ ps) :
    t.foretold = s.foretold := eq_of_heq (Sigma.mk.inj (h.2 .foretold hn)).2
theorem changesOnly.same_rotAt {ps : List Part} {s t : State} (h : changesOnly ps s t) (hn : Part.rotAt ∉ ps) :
    t.rotAt = s.rotAt := eq_of_heq (Sigma.mk.inj (h.2 .rotAt hn)).2
theorem changesOnly.same_ceCount {ps : List Part} {s t : State} (h : changesOnly ps s t) (hn : Part.ceCount ∉ ps) :
    t.ceCount = s.ceCount := eq_of_heq (Sigma.mk.inj (h.2 .ceCount hn)).2
theorem changesOnly.same_testFrom {ps : List Part} {s t : State} (h : changesOnly ps s t) (hn : Part.testFrom ∉ ps) :
    t.testFrom = s.testFrom := eq_of_heq (Sigma.mk.inj (h.2 .testFrom hn)).2
theorem changesOnly.same_gov {ps : List Part} {s t : State} (h : changesOnly ps s t) (hn : Part.gov ∉ ps) :
    t.gov = s.gov := eq_of_heq (Sigma.mk.inj (h.2 .gov hn)).2
theorem changesOnly.same_eid {ps : List Part} {s t : State} (h : changesOnly ps s t) (hn : Part.eid ∉ ps) :
    t.eid = s.eid := eq_of_heq (Sigma.mk.inj (h.2 .eid hn)).2

end Sys2Proof.Machine
end

