-- ==== Sys2Proof/Laws/Events.lean ====
section
/-! SUPPORT. What firing an event can do: it writes registers of module pages alone (page 0x1000 and above), so every register
of a cell, a bank unit, a vault or a die-link module keeps its value; and the state of a thread. -/

namespace Sys2Proof.Machine

/-- The update writes no register of a page below 0x1000. -/
def Upd.high : Upd → Prop
  | .regs k _ => 0x10000000 ≤ k
  | .regsDrop _ => False
  | _ => True

/-- An effect that writes no register of a page below 0x1000 leaves each of them. -/
theorem Eff.Only.low {p : Eff} (h : p.Only Upd.high) {k : Nat} (hk : k < 0x10000000) (s : State) :
    (p.run s).regsAt k = s.regsAt k :=
  h.same (fun t => t.regsAt k) (by
    intro u t hu
    cases u <;> first
      | rfl
      | exact Upd.run_regs_other _ _ (by simp only [Upd.high] at hu; omega) _ _
      | exact hu.elim) s

theorem put_high {f : Fld} (x : Nat) (h : 0x10000000 ≤ f.key) : (put f x).Only Upd.high := only_put f x fun _ => h

theorem putBit_high {f : Fld} (b : Bool) (h : 0x10000000 ≤ f.key) : (putBit f b).Only Upd.high := put_high _ h

theorem addSat_high {f : Fld} (n : Nat) (h : 0x10000000 ≤ f.key) : (addSat f n).Only Upd.high := only_addSat f n fun _ => h

theorem send_high (o : Out) : (send o).Only Upd.high := fun _ => trivial

theorem msixSend_high (p v : Nat) : (msixSend p v).Only Upd.high := by
  intro s
  dsimp only
  split
  · trivial
  · exact send_high _

theorem mgmtEvent_high (src : Nat) : (mgmtEvent src).Only Upd.high := by
  intro s
  exact (Eff.only_all_cons _ _).2 ⟨trivial, (Eff.only_all_cons _ _).2 ⟨send_high _, trivial⟩⟩

theorem evFireAt_high (dest src : Nat) : (evFireAt dest src).Only Upd.high := by
  intro s
  dsimp only
  split
  · refine ⟨put_high _ ?_, (Eff.only_when _ _).2 fun _ t => ?_⟩
    · unfold pendReg
      split <;> simp only [R.EVC_PEND_CORE, R.EVC_PEND_P0, R.EVC_PEND_P1, rk] <;> omega
    · dsimp only
      split
      · trivial
      · exact msixSend_high _ _
      · exact msixSend_high _ _
  · trivial

theorem watcherSee_high (src : Nat) : (watcherSee src).Only Upd.high := by
  intro s
  dsimp only
  split
  · trivial
  · split
    · trivial
    · simp only [Eff.only_all_cons, Eff.only_when]
      refine ⟨put_high _ (by decide), putBit_high _ (by decide), fun _ => addSat_high _ (by decide),
        fun _ => ⟨put_high _ (by decide), put_high _ (by decide), trivial⟩, fun _ => mgmtEvent_high _, trivial⟩

/-- A firing writes no register of a page below 0x1000. -/
theorem evFire_high (src : Nat) : (evFire src).Only Upd.high := by
  intro s
  simp only [Eff.only_all_cons, Eff.only_when]
  exact ⟨addSat_high _ (by decide), fun _ => ⟨fun _ => addSat_high _ (by decide), evFireAt_high _ _, evFireAt_high _ _,
    evFireAt_high _ _, fun _ => mgmtEvent_high _, watcherSee_high _, trivial⟩, trivial⟩

/-- The level of a source writes no register of a page below 0x1000. -/
theorem evLevel_high (src : Nat) (b : Bool) : (evLevel src b).Only Upd.high := by
  intro s
  dsimp only
  split
  · trivial
  · refine ⟨putBit_high _ ?_, (Eff.only_when _ _).2 fun _ => evFire_high _⟩
    simp only [R.EVC_ROUTE_asserted, R.EVC_ROUTE, rk]; omega

/-- What telling of events writes: registers of the event pages from the key `lo` on (0x1003 and 0x1004), PWR_STATE, the
MSI-X table, the management queue and what the block has sent out. -/
def Upd.event (lo : Nat) : Upd → Prop
  | .regs k _ => (lo ≤ k ∧ k < 0x10050000) ∨ k = 0x100B0000
  | .msix _ _ | .mgmtQ _ | .out _ => True
  | _ => False

theorem Upd.event_mono {a b : Nat} (h : b ≤ a) (u : Upd) (hu : u.event a) : u.event b := by
  cases u <;> simp only [Upd.event] at hu ⊢ <;> first | trivial | omega

theorem srcListed_lt {src : Nat} (h : srcListed src = true) : src < 2048 := by
  simp only [srcListed, Bool.or_eq_true, Bool.and_eq_true, decide_eq_true_eq] at h; omega

theorem put_event {lo : Nat} {f : Fld} (x : Nat) (h : (lo ≤ f.key ∧ f.key < 0x10050000) ∨ f.key = 0x100B0000) :
    (put f x).Only (Upd.event lo) := only_put f x fun _ => h

theorem msixSend_event (lo p v : Nat) : (msixSend p v).Only (Upd.event lo) := by
  intro s; dsimp only; split
  · trivial
  · exact fun _ => trivial

theorem mgmtEvent_event (lo src : Nat) : (mgmtEvent src).Only (Upd.event lo) := by
  intro s
  exact (Eff.only_all_cons _ _).2 ⟨trivial, (Eff.only_all_cons _ _).2 ⟨fun _ => trivial, trivial⟩⟩

theorem evFireAt_event (dest src : Nat) (hs : src < 2048) : (evFireAt dest src).Only (Upd.event 0x10034000) := by
  intro s
  dsimp only
  split
  · refine ⟨put_event _ ?_, (Eff.only_when _ _).2 fun _ t => ?_⟩
    · unfold pendReg
      split <;> simp only [R.EVC_PEND_CORE, R.EVC_PEND_P0, R.EVC_PEND_P1, rk] <;> omega
    · dsimp only
      split
      · trivial
      · exact msixSend_event _ _ _
      · exact msixSend_event _ _ _
  · trivial

theorem watcherSee_event (src : Nat) : (watcherSee src).Only (Upd.event 0x10034000) := by
  intro s
  dsimp only
  split
  · trivial
  · split
    · trivial
    · simp only [Eff.only_all_cons, Eff.only_when]
      refine ⟨put_event _ (by decide), put_event _ (by decide), fun _ => only_addSat _ _ fun _ => ?_,
        fun _ => ⟨put_event _ (by decide), put_event _ (by decide), trivial⟩, fun _ => mgmtEvent_event _ _, trivial⟩
      show (0x10034000 ≤ (R.AOW_WAKE_firings).key ∧ (R.AOW_WAKE_firings).key < 0x10050000) ∨ _
      exact .inl (by decide)

/-- A firing writes nothing but what tells of events, and no route. -/
theorem evFire_event (src : Nat) : (evFire src).Only (Upd.event 0x10034000) := by
  intro s
  simp only [Eff.only_all_cons, Eff.only_when]
  refine ⟨only_addSat _ _ fun _ => .inl ?_, fun hl => ?_, trivial⟩
  · show 0x10034000 ≤ (R.EVC_COUNTS_fired).key ∧ (R.EVC_COUNTS_fired).key < 0x10050000
    decide
  have hs := srcListed_lt hl
  refine ⟨fun _ => only_addSat _ _ fun _ => .inl ?_, evFireAt_event _ _ hs, evFireAt_event _ _ hs, evFireAt_event _ _ hs,
    fun _ => mgmtEvent_event _ _, watcherSee_event _, trivial⟩
  show 0x10034000 ≤ (R.EVC_COUNTS_merged).key ∧ (R.EVC_COUNTS_merged).key < 0x10050000
  decide

/-- The level of a source writes nothing but what tells of events. -/
theorem evLevel_event (src : Nat) (b : Bool) (hs : src < 2048) : (evLevel src b).Only (Upd.event 0x10030000) := by
  intro s
  dsimp only
  split
  · trivial
  · refine ⟨put_event _ ?_, (Eff.only_when _ _).2 fun _ => (evFire_event _).mono (Upd.event_mono (by decide))⟩
    simp only [R.EVC_ROUTE_asserted, R.EVC_ROUTE, rk]; omega

/-- Registers outside the event pages keep their values. -/
theorem Eff.Only.quiet {p : Eff} {lo : Nat} (h : p.Only (Upd.event lo)) {k : Nat}
    (hk : (k < lo ∨ 0x10050000 ≤ k) ∧ k ≠ 0x100B0000) (s : State) : (p.run s).regsAt k = s.regsAt k :=
  h.same (fun t => t.regsAt k) (by
    intro u t hu
    cases u <;> first
      | rfl
      | exact Upd.run_regs_other _ _ (by simp only [Upd.event] at hu; omega) _ _
      | exact hu.elim) s

/-- Telling of events changes no other part of the state. -/
theorem Eff.Only.eventRest {p : Eff} {lo : Nat} (h : p.Only (Upd.event lo)) (s : State) :
    { p.run s with regs := s.regs, msix := s.msix, mgmtQ := s.mgmtQ, out := s.out } = s :=
  h.keeps (fun t => { t with regs := s.regs, msix := s.msix, mgmtQ := s.mgmtQ, out := s.out } = s)
    (by intro u t hu ht; cases u <;> first | exact hu.elim | exact ht) s rfl

/-- A level source shows the value of its condition. -/
theorem evLevel_asserted (src : Nat) (b : Bool) (hs : src < 2048) (s : State) :
    ((evLevel src b).run s).bit (R.EVC_ROUTE_asserted src) = b := by
  simp only [evLevel, Eff.run_look]
  split
  · rename_i h; simpa using h
  · have hq : ∀ t : State, ((evFire src).run t).get (R.EVC_ROUTE_asserted src) = t.get (R.EVC_ROUTE_asserted src) := fun t =>
      congrArg (R.EVC_ROUTE_asserted src).read ((evFire_event src).quiet
        (by simp only [R.EVC_ROUTE_asserted, R.EVC_ROUTE, rk]; omega) t)
    have hp : ((putBit (R.EVC_ROUTE_asserted src) b).run s).get (R.EVC_ROUTE_asserted src) = (if b then 1 else 0) := by
      have := put_same (R.EVC_ROUTE_asserted src) (if b then 1 else 0) s (show 26 + 1 ≤ 64 by decide)
      rw [putBit, this]; cases b <;> rfl
    simp only [Eff.run_seq, Eff.run_when, State.bit]
    cases b <;> simp [hq, hp]

/-- A cell's register lies in a page below 0x1000. -/
theorem rk_low {page off : Nat} (hp : page < 0xFFF) (ho : off < 0x10000) : rk page off < 0x10000000 := by
  unfold rk; omega

/-! Threads -/

/-- A thread takes the state it is set to. -/
theorem putThr_thr (c t st : Nat) (hc : c < 128) (ht : t < 16) (hst : st < 8) (s : State) :
    ((putThr c t st).run s).thr c t = st := by
  have hk : R.SEQ_THR_STATUS c t < 0x10000000 := by unfold R.SEQ_THR_STATUS; exact rk_low (by omega) (by omega)
  simp only [putThr, Eff.run_all_cons, Eff.run_all_nil, Eff.run_look]
  have h1 : ∀ u : State, ((evLevel (c * 8) ((List.range 16).any fun i => u.thr c i == THR_TRAPPED)).run u).thr c t =
      u.thr c t := fun u => congrArg (R.SEQ_THR_STATUS_state c t).read ((evLevel_high _ _).low hk u)
  rw [h1]
  exact (put_same (R.SEQ_THR_STATUS_state c t) st s (show 0 + 3 ≤ 64 by decide)).trans (Nat.mod_eq_of_lt hst)

/-- Setting a thread's state changes no other register of a page below 0x1000. -/
theorem putThr_other (c t st : Nat) {k : Nat} (hk : k < 0x10000000) (hn : k ≠ R.SEQ_THR_STATUS c t) (s : State) :
    ((putThr c t st).run s).regsAt k = s.regsAt k := by
  simp only [putThr, Eff.run_all_cons, Eff.run_all_nil, Eff.run_look]
  rw [(evLevel_high _ _).low hk, put_other (f := R.SEQ_THR_STATUS_state c t) hn]

end Sys2Proof.Machine
end

