-- ==== Sys2Proof/Laws/Memory.lean ====
section
/-! SUPPORT. What reads and writes of sound memory do: a read of words without a mark or an error changes nothing and
returns the bytes; a write changes exactly the bytes written. -/

namespace Sys2Proof.Machine

/-! Bytes -/

theorem State.bytes_length (s : State) (a n : Nat) : (s.bytes a n).length = n := by
  induction n generalizing a with
  | zero => rfl
  | succ n ih => simp [State.bytes, ih]

theorem State.bytes_append (s : State) (a m n : Nat) : s.bytes a m ++ s.bytes (a + m) n = s.bytes a (m + n) := by
  induction m generalizing a with
  | zero => simp [State.bytes]
  | succ m ih =>
    rw [show m + 1 + n = (m + n) + 1 by omega]
    simp only [State.bytes, List.cons_append]
    rw [show a + (m + 1) = a + 1 + m by omega, ih]

theorem State.bytes_drop (s : State) (a m n : Nat) : (s.bytes a (m + n)).drop m = s.bytes (a + m) n := by
  rw [← State.bytes_append, List.drop_left' (State.bytes_length s a m)]

theorem State.bytes_take (s : State) (a m n : Nat) : (s.bytes a (m + n)).take m = s.bytes a m := by
  rw [← State.bytes_append, List.take_left' (State.bytes_length s a m)]

theorem State.bytes_getD (s : State) (a n i : Nat) (h : i < n) (d : Byte) : (s.bytes a n).getD i d = s.memAt (a + i) := by
  induction n generalizing a i with
  | zero => omega
  | succ n ih =>
    cases i with
    | zero => simp [State.bytes]
    | succ i =>
      simp only [State.bytes, List.getD_cons_succ]
      rw [ih _ _ (by omega)]; congr 1; omega

/-- Bytes and their little-endian value determine each other. -/
theorem toLE_leNat (bs : List Byte) : toLE bs.length (leNat bs) = bs := by
  induction bs with
  | nil => rfl
  | cons b rest ih =>
    simp only [List.length_cons, toLE, leNat]
    have hb : b.toNat < 256 := b.isLt
    rw [show (b.toNat + 256 * leNat rest) / 256 = leNat rest by omega, ih]
    congr 1
    apply BitVec.eq_of_toNat_eq
    simp only [BitVec.toNat_ofNat]; omega

theorem toLE_length (n v : Nat) : (toLE n v).length = n := by
  induction n generalizing v with
  | zero => rfl
  | succ n ih => simp [toLE, ih]

theorem State.toLE_word (s : State) (a : Nat) : toLE 8 (s.word a) = s.bytes a 8 := by
  have := toLE_leNat (s.bytes a 8)
  rwa [State.bytes_length] at this

/-! Reading words that are sound -/

/-- Words that each answer their data without a change are read together. -/
theorem readWords_good (rd : Nat → (Nat → Nat → Eff) → Eff) (s : State) (ws : List Nat)
    (h : ∀ w ∈ ws, ∀ k, (rd w k).run s = (k ST_OK (s.word w)).run s) (r : Resp) (hr : r.status = ST_OK) (k : Resp → Eff) :
    (readWords rd ws r k).run s = (k ⟨ST_OK, r.data ++ ws.flatMap (fun w => s.bytes w 8),
      r.bad ++ List.replicate (8 * ws.length) false⟩).run s := by
  induction ws generalizing r with
  | nil => simp [readWords, ← hr]
  | cons w rest ih =>
    simp only [readWords]
    rw [h w (by simp), ih (fun w' hw' => h w' (by simp [hw'])) _ (by simp [worst, hr])]
    simp only [List.flatMap_cons, State.toLE_word, List.append_assoc, bne_self_eq_false,
      List.replicate_append_replicate, List.length_cons]
    rw [show 8 + 8 * rest.length = 8 * (rest.length + 1) by omega]

/-- The words that an access touches, one after the other. -/
theorem wordsOf_bytes (s : State) (a m : Nat) :
    ((List.range m).map fun i => (a + i) * 8).flatMap (fun w => s.bytes w 8) = s.bytes (a * 8) (8 * m) := by
  induction m with
  | zero => simp [State.bytes]
  | succ m ih =>
    rw [List.range_succ, List.map_append, List.flatMap_append, ih]
    simp only [List.map_cons, List.map_nil, List.flatMap_cons, List.flatMap_nil, List.append_nil]
    rw [show (a + m) * 8 = a * 8 + 8 * m by omega, State.bytes_append, show 8 * m + 8 = 8 * (m + 1) by omega]

/-- The bytes of whole words cut down to an access are its bytes. -/
theorem cut_words (s : State) (a n : Nat) (hn : n ≠ 0) :
    (((wordsOf a n).flatMap fun w => s.bytes w 8).drop (a % 8)).take n = s.bytes a n := by
  simp only [wordsOf, if_neg hn]
  rw [wordsOf_bytes]
  obtain ⟨r, hr⟩ : ∃ r, 8 * ((a + n - 1) / 8 - a / 8 + 1) = a % 8 + (n + r) :=
    ⟨8 * ((a + n - 1) / 8 - a / 8 + 1) - a % 8 - n, by omega⟩
  rw [hr, State.bytes_drop, State.bytes_take, show a / 8 * 8 + a % 8 = a by omega]

/-- The answer for whole sound words, cut down to the bytes asked for. -/
theorem cut_good (s : State) (a n : Nat) (hn : n ≠ 0) :
    (⟨ST_OK, [] ++ (wordsOf a n).flatMap (fun w => s.bytes w 8), [] ++ List.replicate (8 * (wordsOf a n).length) false⟩
      : Resp).cut a n = ⟨ST_OK, s.bytes a n, List.replicate n false⟩ := by
  have hl : n + a % 8 ≤ 8 * (wordsOf a n).length := by
    simp only [wordsOf, if_neg hn, List.length_map, List.length_range]; omega
  simp only [Resp.cut, List.nil_append, cut_words s _ n hn, List.drop_replicate, List.take_replicate]
  rw [show min n (8 * (wordsOf a n).length - a % 8) = n by omega]

/-- A range of cell SRAM of which every word is sound (no SECDED error, no poison). -/
def State.sramSound (s : State) (a n : Nat) : Prop := ∀ w ∈ wordsOf a n, s.marksAt (w / 8) = .good

/-- A read of a sound SRAM word changes nothing and returns its data. -/
theorem sramWord_good (c b a : Nat) (s : State) (h : s.marksAt (a / 8) = .good) (k : Nat → Nat → Eff) :
    (sramWord c b a k).run s = (k ST_OK (s.word a)).run s := by
  simp only [sramWord, eccWord, Eff.run_look, h]

/-- A read of sound SRAM changes nothing and returns the bytes. -/
theorem sramReadRaw_good (s : State) (c off n : Nat) (hn : n ≠ 0) (h : s.sramSound (sramAddr c off) n) (k : Resp → Eff) :
    (sramReadRaw c off n k).run s =
      (k ⟨ST_OK, s.bytes (sramAddr c off) n, List.replicate n false⟩).run s := by
  have hw : ∀ w ∈ wordsOf (sramAddr c off) n, ∀ k : Nat → Nat → Eff,
      (sramWord c (bankOf (w - sramAddr c 0)) w k).run s = (k ST_OK (s.word w)).run s :=
    fun w hw k => sramWord_good c (bankOf (w - sramAddr c 0)) w s (h w hw) k
  rw [sramReadRaw, readWords_good (fun a => sramWord c (bankOf (a - sramAddr c 0)) a) s _ hw ⟨ST_OK, [], []⟩ rfl]
  exact congrArg (fun r => (k r).run s) (cut_good s (sramAddr c off) n hn)

/-- Where no bank of an access waits for its owner, none switches. -/
theorem ownSettle_settled (s : State) (c off n : Nat) (h : s.unsettled c off n = []) : (ownSettle c off n).run s = s := by
  simp only [ownSettle, Eff.run_look, h]
  rfl

/-- A read of sound SRAM that its class may reach, of banks that wait for no owner, changes nothing and returns the bytes. -/
theorem sramRead_good (s : State) (c off n : Nat) (cq : Nat × Nat) (hn : n ≠ 0) (ho : s.refusedBank c off n cq = none)
    (hu : s.unsettled c off n = []) (h : s.sramSound (sramAddr c off) n) (k : Resp → Eff) :
    (sramRead c off n cq k).run s =
      (k ⟨ST_OK, s.bytes (sramAddr c off) n, List.replicate n false⟩).run s := by
  simp only [sramRead, Eff.run_look, ho, Eff.run_seq, ownSettle_settled s c off n hu]
  exact sramReadRaw_good s c off n hn h k

/-- A read of SRAM whose bank another class owns is refused with all ones and counted. -/
theorem sramRead_refused (s : State) (c off n b : Nat) (cq : Nat × Nat) (ho : s.refusedBank c off n cq = some b)
    (k : Resp → Eff) :
    (sramRead c off n cq k).run s = (k (onesResp ST_NOT_OWNER n)).run ((ownFault c b cq.1).run s) := by
  simp only [sramRead, Eff.run_look, ho, Eff.run_seq]

/-! Writing words that are sound -/

theorem pokeSram_mem (w v : Nat) (s : State) (x : Nat) :
    ((pokeSram w v).run s).memAt x = if w ≤ x ∧ x < w + 8 then (toLE 8 v).getD (x - w) 0 else s.memAt x := by
  have hm : ((pokeSram w v).run s).memAt x = ((pokeBytes w (toLE 8 v)).run s).memAt x := by
    simp only [pokeSram, Eff.run_all_cons, Eff.run_all_nil]; rfl
  rw [hm]
  split
  · rename_i h
    have h8 : x - w < (toLE 8 v).length := by rw [toLE_length]; omega
    have := pokeBytes_same (toLE 8 v) w s (x - w) h8
    rw [show w + (x - w) = x by omega] at this
    rw [this, List.getD_eq_getElem _ _ h8]
  · rename_i h
    exact pokeBytes_other _ _ _ _ (by rw [toLE_length]; omega)

theorem pokeSram_marks (w v : Nat) (s : State) (j : Nat) :
    ((pokeSram w v).run s).marksAt j = if j = w / 8 then .good else s.marksAt j := by
  have h1 : ∀ t : State, (Upd.run (.marks (w / 8) .good) t).marksAt j = if j = w / 8 then .good else t.marksAt j := by
    intro t
    split
    · rename_i h; subst h; simp
    · rename_i h; exact Upd.run_marks_other _ _ h _ _
  have h2 : ((pokeBytes w (toLE 8 v)).run s).marksAt j = s.marksAt j :=
    (only_pokeBytes (W := fun u => ∃ k v, u = .mem k v) (toLE 8 v) w fun k v => ⟨k, v, rfl⟩).same
      (fun t => t.marksAt j) (by rintro u s ⟨k, v, rfl⟩; rfl) s
  simp only [pokeSram, Eff.run_all_cons, Eff.run_all_nil, Eff.run_upd, h1, h2]

/-- Storing a word of SRAM writes nothing but bytes and marks. -/
theorem only_pokeSram (w v : Nat) {W : Upd → Prop} (hm : ∀ k v, W (.mem k v)) (hk : ∀ k v, W (.marks k v)) :
    (pokeSram w v).Only W :=
  (Eff.only_all_cons _ _).2 ⟨only_pokeBytes _ _ hm, (Eff.only_all_cons _ _).2 ⟨hk _ _, Eff.only_all_nil⟩⟩

/-- Nothing but bytes and marks has changed. -/
def State.memKept (s t : State) : Prop := { t with mem := s.mem, marks := s.marks } = s

theorem State.memKept_trans {s u t : State} (h1 : u.memKept t) (h2 : s.memKept u) : s.memKept t := by
  unfold State.memKept at *
  exact (congrArg (fun z : State => { z with mem := s.mem, marks := s.marks }) h1).trans h2

/-- Storing a word of SRAM changes nothing but bytes and the word's mark. -/
theorem pokeSram_rest (w v : Nat) (s : State) : s.memKept ((pokeSram w v).run s) :=
  (only_pokeSram w v (W := fun u => (∃ k v, u = .mem k v) ∨ ∃ k v, u = .marks k v) (fun k v => .inl ⟨k, v, rfl⟩)
    fun k v => .inr ⟨k, v, rfl⟩).keeps s.memKept (by rintro u t (⟨k, v, rfl⟩ | ⟨k, v, rfl⟩) h <;> exact h) s rfl

theorem mergeWord_toLE (old : List Byte) (w a : Nat) (bs : List Byte) :
    toLE 8 (leNat (mergeWord old w a bs)) = mergeWord old w a bs := by
  have := toLE_leNat (mergeWord old w a bs)
  rwa [show (mergeWord old w a bs).length = 8 by simp [mergeWord]] at this

theorem mergeWord_getD (old : List Byte) (w a : Nat) (bs : List Byte) (i : Nat) (h : i < 8) :
    (mergeWord old w a bs).getD i 0 =
      if a ≤ w + i ∧ w + i < a + bs.length then bs.getD (w + i - a) 0 else old.getD i 0 := by
  have hl : i < (mergeWord old w a bs).length := by simp [mergeWord, h]
  rw [List.getD_eq_getElem _ _ hl]
  simp [mergeWord]

/-- What a write of sound SRAM leaves: the written bytes, every other byte as it was, sound words, nothing else changed. -/
structure SramWritten (s t : State) (a : Nat) (bs : List Byte) (ws : List Nat) : Prop where
  mem   : ∀ x, t.memAt x = if (∃ w ∈ ws, w ≤ x ∧ x < w + 8) ∧ a ≤ x ∧ x < a + bs.length then bs.getD (x - a) 0 else s.memAt x
  marks : ∀ j, s.marksAt j = .good → t.marksAt j = .good
  rest  : s.memKept t

theorem sramWriteWords_good (c a : Nat) (bs : List Byte) (ws : List Nat) (st : Nat) (k : Nat → Eff) (s : State)
    (h : ∀ w ∈ ws, s.marksAt (w / 8) = .good) (hst : st = ST_OK) :
    ∃ t, (sramWriteWords c a bs ws st k).run s = (k ST_OK).run t ∧ SramWritten s t a bs ws := by
  induction ws generalizing s st with
  | nil => exact ⟨s, by rw [hst]; rfl, by simp, fun j hj => hj, rfl⟩
  | cons w rest ih =>
    -- both ways of writing a sound word store the merge of the old bytes with the new ones
    obtain ⟨v, hv, he⟩ : ∃ v, (∀ x, w ≤ x ∧ x < w + 8 → (toLE 8 v).getD (x - w) 0 =
          if a ≤ x ∧ x < a + bs.length then bs.getD (x - a) 0 else s.memAt x) ∧
        (sramWriteWords c a bs (w :: rest) st k).run s =
          (sramWriteWords c a bs rest st k).run ((pokeSram w v).run s) := by
      simp only [sramWriteWords]
      split
      · rename_i hc
        refine ⟨_, ?_, rfl⟩
        intro x hx
        rw [mergeWord_toLE, mergeWord_getD _ _ _ _ _ (by omega), show w + (x - w) = x by omega]
        simp only [coversWord, Bool.and_eq_true, decide_eq_true_eq] at hc
        rw [if_pos ⟨by omega, by omega⟩, if_pos ⟨by omega, by omega⟩]
      · refine ⟨leNat (mergeWord (toLE 8 (s.word w)) w a bs), ?_, ?_⟩
        · intro x hx
          rw [mergeWord_toLE, mergeWord_getD _ _ _ _ _ (by omega), show w + (x - w) = x by omega, State.toLE_word,
            State.bytes_getD _ _ _ _ (by omega), show w + (x - w) = x by omega]
        · rw [sramWord_good _ _ _ _ (h w (by simp))]
          simp
    obtain ⟨t, ht, hw⟩ := ih st ((pokeSram w v).run s) (by
      intro w' hw'
      rw [pokeSram_marks]
      split
      · rfl
      · exact h w' (by simp [hw'])) hst
    refine ⟨t, by rw [he, ht], ?_, ?_, ?_⟩
    · intro x
      rw [hw.mem, pokeSram_mem]
      by_cases h1 : w ≤ x ∧ x < w + 8
      · rw [if_pos h1, hv x h1]
        by_cases h2 : a ≤ x ∧ x < a + bs.length
        · have : (∃ w' ∈ w :: rest, w' ≤ x ∧ x < w' + 8) := ⟨w, by simp, h1⟩
          have e : (if (∃ w' ∈ w :: rest, w' ≤ x ∧ x < w' + 8) ∧ a ≤ x ∧ x < a + bs.length then bs.getD (x - a) 0
              else s.memAt x) = bs.getD (x - a) 0 := if_pos ⟨this, h2⟩
          rw [if_pos h2, e]
          split <;> rfl
        · simp only [h2, and_false, if_false]
      · rw [if_neg h1]
        congr 1
        simp only [List.mem_cons, exists_eq_or_imp, h1, false_or]
    · intro j hj
      refine hw.marks j ?_
      rw [pokeSram_marks]; split
      · rfl
      · exact hj
    · exact State.memKept_trans hw.rest (pokeSram_rest w v s)

/-- A byte of an access lies in one of its words. -/
theorem mem_wordsOf (a n x : Nat) (h : a ≤ x ∧ x < a + n) : ∃ w ∈ wordsOf a n, w ≤ x ∧ x < w + 8 := by
  refine ⟨x / 8 * 8, ?_, by omega, by omega⟩
  have : n ≠ 0 := by omega
  simp only [wordsOf, if_neg this, List.mem_map, List.mem_range]
  exact ⟨x / 8 - a / 8, by omega, by omega⟩

/-- A write of sound SRAM that its class may reach, in banks that wait for no owner, stores the bytes, and nothing else changes. -/
theorem sramWrite_good (s : State) (c off : Nat) (bs : List Byte) (cq : Nat × Nat) (k : Nat → Eff)
    (ho : s.refusedBank c off bs.length cq = none) (hu : s.unsettled c off bs.length = [])
    (h : s.sramSound (sramAddr c off) bs.length) :
    ∃ t, (sramWrite c off bs cq k).run s = (k ST_OK).run t ∧
      (∀ x, t.memAt x = if sramAddr c off ≤ x ∧ x < sramAddr c off + bs.length then bs.getD (x - sramAddr c off) 0
        else s.memAt x) ∧
      (∀ j, s.marksAt j = .good → t.marksAt j = .good) ∧ s.memKept t := by
  simp only [sramWrite, Eff.run_look, ho, sramWriteRaw, Eff.run_seq, ownSettle_settled s c off _ hu]
  obtain ⟨t, ht, hw⟩ := sramWriteWords_good c (sramAddr c off) bs _ ST_OK k s h rfl
  refine ⟨t, ht, ?_, hw.marks, hw.rest⟩
  intro x
  rw [hw.mem]
  by_cases h2 : sramAddr c off ≤ x ∧ x < sramAddr c off + bs.length
  · rw [if_pos ⟨mem_wordsOf _ _ _ h2, h2⟩, if_pos h2]
  · rw [if_neg (by tauto), if_neg h2]

/-! DRAM -/

/-- A DRAM word reads without an error: its check bits fit its data, and its device has not failed. -/
def State.wordSound (s : State) (w : Nat) : Prop := s.decode w = .good ∧ (isExt w && s.gdFailed (extDev w)) = false

/-- A range of DRAM of which every word is sound. -/
def State.dramSound (s : State) (a n : Nat) : Prop := ∀ w ∈ wordsOf a n, s.wordSound w

/-- A read of a sound DRAM word changes nothing and returns its data. -/
theorem dramWord_good (a : Nat) (s : State) (h : s.wordSound a) (k : Nat → Nat → Eff) :
    (dramWord a k).run s = (k ST_OK (s.word a)).run s := by
  simp only [dramWord, Eff.run_look, h.1, h.2]
  rfl

/-- A read of sound DRAM changes nothing and returns the bytes. -/
theorem dramRead_good (s : State) (a n : Nat) (hn : n ≠ 0) (h : s.dramSound a n) (k : Resp → Eff) :
    (dramRead a n k).run s = (k ⟨ST_OK, s.bytes a n, List.replicate n false⟩).run s := by
  rw [dramRead, readWords_good dramWord s _ (fun w hw k => dramWord_good w s (h w hw) k) ⟨ST_OK, [], []⟩ rfl]
  exact congrArg (fun r => (k r).run s) (cut_good s a n hn)

/-- Nothing but bytes, check bits and registers has changed. -/
def State.dramKept (s t : State) : Prop := { t with mem := s.mem, check := s.check, regs := s.regs } = s

/-- What a write of sound DRAM leaves: the written bytes, every other byte as it was, and nothing else changed but check bits
and the count of narrow writes. -/
structure DramWritten (s t : State) (a : Nat) (bs : List Byte) (ws : List Nat) : Prop where
  mem  : ∀ x, t.memAt x = if (∃ w ∈ ws, w ≤ x ∧ x < w + 8) ∧ a ≤ x ∧ x < a + bs.length then bs.getD (x - a) 0 else s.memAt x
  rest : s.dramKept t

theorem State.dramKept_trans {s u t : State} (h1 : u.dramKept t) (h2 : s.dramKept u) : s.dramKept t := by
  unfold State.dramKept at *
  exact (congrArg (fun z : State => { z with mem := s.mem, check := s.check, regs := s.regs }) h1).trans h2

end Sys2Proof.Machine
end

