-- ==== Sys2Proof/WellFormed.lean ====
section
/-! DEFINITION. When a command is well formed: the conditions on its operands that their types do not carry. The meanings are
total, so an ill-formed command has an outcome too; the conditions say which commands the spec's agents can send. -/

namespace Sys2Proof

/-- Between one byte and the given largest number of them, and as many as the length says. -/
def sized (most n : Nat) (data : List Byte) : Bool := decide (1 ≤ n) && decide (n ≤ most) && data.length == n

/-- The length of an access, and the bytes of a write with it. -/
def payload (most n : Nat) : Option (List Byte) → Bool
  | none => decide (1 ≤ n) && decide (n ≤ most)
  | some data => sized most n data

/-- A training of a Glewawin link lists the errors of four lanes at each rate (R400). -/
def GwTrain.wf (t : GwTrain) : Bool := t.fastErrs.length == 4 && t.slowErrs.length == 4

/-- The condition on the operands: an access carries as many bytes as it says and no more than the largest of its kind (a packet: 
R403), a housekeeping round has 256 readings (R484), and a list of results names each unit once. -/
def Instr.wf : Instr → Bool
  | .powerApply => true
  | .inputUndervoltage => true
  | .inputOvervoltage => true
  | .inputPowerRemoved => true
  | .warmReset => true
  | .stageS0 _ _ _ _ => true
  | .stageS1 _ _ _ _ => true
  | .stageS2 => true
  | .stageS3 => true
  | .stageS4 _ trains => decide (trains.map (·.module)).Nodup
  | .stageS5 _ rows => decide rows.Nodup
  | .stageS6 _ bins rows => decide (bins.map (·.1)).Nodup && decide rows.Nodup
  | .stageS7 _ fails => decide (fails.map (·.1)).Nodup
  | .stageS8 _ trains => decide (trains.map (·.link)).Nodup && trains.all GwTrain.wf
  | .stageS9 _ => true
  | .stageLimitExpiry => true
  | .heartbeatTimeout => true
  | .tamperDetect _ => true
  | .tamperRewipe _ => true
  | .registerWrite _ _ data => sized 4096 data.length data
  | .commit _ _ => true
  | .addressMapAccess _ _ n data => payload 4096 n.toNat data.bytes
  | .cutoff => true
  | .tideEdge => true
  | .slackCheck => true
  | .applyHoldTimeout => true
  | .tideHalt => true
  | .tideCtrlRun _ _ => true
  | .announceMissed => true
  | .syncTimer => true
  | .creditReturn _ => true
  | .segmentLand => true
  | .codebookDescriptorWrite _ _ _ _ => true
  | .seqNop _ _ _ _ _ _ _ => true
  | .seqLi _ _ _ _ _ _ _ => true
  | .seqLih _ _ _ _ _ _ _ => true
  | .seqAdd _ _ _ _ _ _ _ => true
  | .seqSub _ _ _ _ _ _ _ => true
  | .seqMul _ _ _ _ _ _ _ => true
  | .seqAnd _ _ _ _ _ _ _ => true
  | .seqOr _ _ _ _ _ _ _ => true
  | .seqXor _ _ _ _ _ _ _ => true
  | .seqShl _ _ _ _ _ _ _ => true
  | .seqShr _ _ _ _ _ _ _ => true
  | .seqSra _ _ _ _ _ _ _ => true
  | .seqSlt _ _ _ _ _ _ _ => true
  | .seqSltu _ _ _ _ _ _ _ => true
  | .seqLd _ _ _ _ _ _ _ => true
  | .seqSt _ _ _ _ _ _ _ => true
  | .seqBeq _ _ _ _ _ _ _ => true
  | .seqBne _ _ _ _ _ _ _ => true
  | .seqBlt _ _ _ _ _ _ _ => true
  | .seqBge _ _ _ _ _ _ _ => true
  | .seqJal _ _ _ _ _ _ _ => true
  | .seqJr _ _ _ _ _ _ _ => true
  | .seqPass _ _ _ _ _ _ _ _ => true
  | .seqVop _ _ _ _ _ _ _ => true
  | .seqQe _ _ _ _ _ _ _ _ => true
  | .seqBuc _ _ _ _ _ _ _ _ => true
  | .seqSignal _ _ _ _ _ _ _ => true
  | .seqWait _ _ _ _ _ _ _ => true
  | .seqArrive _ _ _ _ _ _ _ => true
  | .seqOwn _ _ _ _ _ _ _ => true
  | .seqFence _ _ _ _ _ _ _ => true
  | .seqHeadEnd _ _ _ _ _ _ _ => true
  | .seqStepEnd _ _ _ _ _ _ _ => true
  | .seqRdstep _ _ _ _ _ _ _ => true
  | .seqRdtime _ _ _ _ _ _ _ => true
  | .seqTrap _ _ _ _ _ _ _ => true
  | .icacheFill _ _ _ => true
  | .loadResponse _ _ _ => true
  | .threadHalt _ _ _ => true
  | .threadResume _ _ _ => true
  | .threadKill _ _ _ => true
  | .icacheInvalidate _ _ => true
  | .vecAdd _ _ => true
  | .vecSub _ _ => true
  | .vecMul _ _ => true
  | .vecFma _ _ => true
  | .vecMax _ _ => true
  | .vecMin _ _ => true
  | .scale _ _ => true
  | .cvt _ _ => true
  | .exp _ _ => true
  | .rcp _ _ => true
  | .rsqrt _ _ => true
  | .tanh _ _ => true
  | .logistic _ _ => true
  | .rsum _ _ => true
  | .rmax _ _ => true
  | .softmax _ _ => true
  | .topk _ _ => true
  | .code _ _ => true
  | .scan _ _ => true
  | .rng _ _ => true
  | .sample _ _ => true
  | .merge _ _ => true
  | .feedIssue _ _ _ _ => true
  | .tileFetchStart _ _ => true
  | .zskipScanEnd _ _ => true
  | .metadataArrival _ => true
  | .passStart _ _ _ => true
  | .passComplete _ _ => true
  | .feedEnable _ _ _ => true
  | .feedAbort _ _ => true
  | .sramAccess _ _ _ _ n data _ => payload 512 n data
  | .ownerWrite _ _ _ _ _ => true
  | .ownerSwitch _ _ => true
  | .queChSubmit _ _ _ _ _ => true
  | .qeCopy _ _ _ => true
  | .qeSend _ _ _ => true
  | .qeFill _ _ => true
  | .qeGather _ _ _ => true
  | .qeScatter _ _ _ => true
  | .qeResponse _ _ => true
  | .queChPause _ _ _ _ => true
  | .queChResume _ _ _ => true
  | .queChSkip _ _ _ => true
  | .queChFlush _ _ _ => true
  | .vaultRequest _ n data _ => payload 64 n.val data
  | .remapPersist => true
  | .refresh _ _ => true
  | .trackerWindowExpiry _ => true
  | .scrubStart _ _ => true
  | .scrubAbort _ _ _ => true
  | .scrubDone _ => true
  | .diagLock _ _ _ => true
  | .diagLockGranted _ => true
  | .rawWrite _ _ _ => true
  | .rawRead _ _ => true
  | .buSubmit _ _ _ => true
  | .buCommandStart _ => true
  | .buSvcCopy _ => true
  | .buSvcFill _ => true
  | .buSvcCheck _ => true
  | .buNop _ _ => true
  | .buLi _ _ => true
  | .buLih _ _ => true
  | .buAdd _ _ => true
  | .buSub _ _ => true
  | .buMul _ _ => true
  | .buShl _ _ => true
  | .buShr _ _ => true
  | .buAnd _ _ => true
  | .buOr _ _ => true
  | .buBne _ _ => true
  | .buBltu _ _ => true
  | .buJmp _ _ => true
  | .buLoop _ _ => true
  | .buYield _ _ => true
  | .buEnd _ _ => true
  | .buLdq _ _ => true
  | .buLdi _ _ => true
  | .buLds _ _ => true
  | .buLcb _ _ => true
  | .buClr _ _ => true
  | .buStr _ _ => true
  | .buGather _ _ => true
  | .buGatherReduce _ _ => true
  | .buRowDot _ _ => true
  | .buScanStats _ _ => true
  | .buCopy _ _ => true
  | .buFill _ _ => true
  | .buCheck _ _ => true
  | .forcedYield _ => true
  | .stackWindow _ => true
  | .buModeProcessor _ _ => true
  | .processorModeReady _ => true
  | .buModeMemory _ _ => true
  | .memoryModeDrained _ => true
  | .buAbortDrain _ _ => true
  | .buClearFault _ _ => true
  | .buAbort _ _ => true
  | .buProgWrite _ _ _ _ _ => true
  | .kvtSubmit _ _ _ => true
  | .kvtWalk _ _ => true
  | .kvtAppend _ _ => true
  | .cowCopyComplete _ _ => true
  | .kvtShare _ _ => true
  | .kvtRelease _ _ => true
  | .kvtMark _ _ => true
  | .kvtStage _ _ => true
  | .stageCopyComplete _ _ => true
  | .kvtMigrate _ _ => true
  | .migrationCopyComplete _ => true
  | .kvtEvacuate _ _ => true
  | .kvtAbort _ _ => true
  | .kvtFlPush _ _ _ _ => true
  | .scAccess _ _ _ len write _ _ _ => payload 4096 len.toNat write
  | .atomAdd _ _ _ => true
  | .atomMin _ _ _ => true
  | .atomMax _ _ _ => true
  | .atomAnd _ _ _ => true
  | .atomOr _ _ _ => true
  | .atomXor _ _ _ => true
  | .atomSwap _ _ _ => true
  | .atomCas _ _ _ => true
  | .atomVadd _ _ _ => true
  | .pcieAtomicop _ _ _ _ _ _ => true
  | .scFlushStart _ _ => true
  | .scFlushDone => true
  | .keepRelease _ _ => true
  | .gddrRequest _ len write _ _ _ _ _ => payload 256 len.toNat write
  | .gddrRefresh _ _ => true
  | .gddrPeriodicRetrain _ => true
  | .postboxSignal => true
  | .landingNotice => true
  | .pbxSignal _ _ _ _ => true
  | .pbxReset _ _ _ _ => true
  | .seawallArrival => true
  | .swlArrive _ _ => true
  | .seawallRelease _ => true
  | .chartLoad _ => true
  | .chartStagingDone => true
  | .chartApply _ => true
  | .chtArm _ _ => true
  | .chtDisarm _ => true
  | .chartDisarm _ => true
  | .tideRunStart _ => true
  | .tideRunStop _ => true
  | .sqTailDoorbell _ _ _ _ => true
  | .cqHeadWrite _ _ _ _ => true
  | .queuePairEnable _ _ _ _ => true
  | .descriptorFetch _ _ => true
  | .reserveMarkWritten _ => true
  | .completionPost _ => true
  | .completionAggTimer _ _ => true
  | .cmdNop _ => true
  | .identify _ => true
  | .fwLoad _ _ => true
  | .seqAdmit _ => true
  | .stepSubmit _ _ => true
  | .stepSubmitCompletion _ => true
  | .seqRetire _ => true
  | .copyToDevice _ _ _ => true
  | .copyFromDevice _ _ => true
  | .kvOp _ => true
  | .evacuate _ => true
  | .scrub _ => true
  | .monitorRead _ => true
  | .dispatchRead _ => true
  | .retireCell _ => true
  | .retireBankUnit _ => true
  | .retireDieLink _ => true
  | .retireLink _ => true
  | .frankInstall _ _ _ => true
  | .lifecycleSet _ => true
  | .keySet _ _ => true
  | .keyQuery _ => true
  | .tokenGive _ => true
  | .tokenAccept _ => true
  | .tokenOfferExpiry => true
  | .tokenTakeover _ => true
  | .tokenTimeout _ => true
  | .thermalSet _ => true
  | .powerStateStandby _ => true
  | .powerStateRun _ => true
  | .reset _ => true
  | .hello _ _ => true
  | .jobSetup _ _ => true
  | .fwInfo _ _ => true
  | .serviceTest _ _ => true
  | .serviceTestDone _ _ => true
  | .ceRead _ _ => true
  | .bar2Access _ _ _ n data _ => payload 4096 n.toNat data
  | .pcieLinkDown _ => true
  | .pcieLinkUp _ _ _ _ => true
  | .linkLossTimeout _ => true
  | .functionLevelReset _ => true
  | .perstAssert _ => true
  | .perstRelease _ => true
  | .linkFrame _ _ _ _ _ _ _ _ => true
  | .replayTimeout _ _ _ => true
  | .laneLossOfLock _ _ => true
  | .dlRetrain _ _ _ => true
  | .dlRetrainComplete _ => true
  | .slotMoveComplete _ _ => true
  | .dlOffline _ _ _ _ => true
  | .dlTestStart _ _ _ _ _ _ => true
  | .dlTestDone _ _ _ _ => true
  | .gwWrite _ _ _ data => sized 2048 data.length data
  | .gwAck _ _ _ _ => true
  | .gwSignal _ _ _ => true
  | .swArrive _ _ _ => true
  | .swRelease _ _ _ => true
  | .tideAnnounce _ _ _ => true
  | .overrun _ _ _ => true
  | .syncReq _ _ => true
  | .syncRsp _ _ _ _ => true
  | .ackTimeout _ => true
  | .gwLaneFailure _ _ => true
  | .gwLinkRestarted _ => true
  | .gwlRequalify _ _ => true
  | .gwlXqTail _ _ _ => true
  | .gwlXqResume _ _ => true
  | .gwlXqSkip _ _ => true
  | .gwlXqFlush _ _ => true
  | .evcEos _ _ _ => true
  | .evcSet _ => true
  | .msixUnmask _ _ => true
  | .monSnap _ => true
  | .monClear _ => true
  | .crcStart _ _ => true
  | .crcStop _ _ => true
  | .crcResume _ _ => true
  | .crcCompare _ _ => true
  | .cePoll => true
  | .housekeepingRound readings => readings.length == 256
  | .graceExpiry => true
  | .fastLoopSample _ => true
  | .mgmtEventRetry _ => true
  | .pldmRequest _ => true
  | .mgmtDispatchRead _ _ => true
  | .replaceRead => true
  | .soundingRead _ _ => true
  | .mgmtWarmReset => true
  | .mgmtStatus => true
  | .standbyExit => true
  | .registerRead _ _ _ => true
  | .illegalInstruction _ _ => true
  | .kvtOperationComplete _ _ => true
  | .standbyEntryComplete => true
  | .standbyExitComplete tests => decide (tests.map (·.module)).Nodup
  | .requalifyComplete t => t.wf

end Sys2Proof
end

