-- ==== Sys2Proof/Tests/Slice0.lean ====
section
/-! SUPPORT. Small tests of the model, each expected value worked out from the spec, and for every statement concrete states
and operands that meet the hypotheses of its clauses. -/

namespace Sys2Proof.Tests

open Sys2Proof Sys2Proof.Machine Sys2Proof.Claims

set_option maxRecDepth 100000
set_option Elab.async false

def mk (ps : List Eff) : State := (Eff.all ps).run { State.reset with power := .on }
def up (p : Nat) := Eff.all [put (R.HIF_LINK_speed p) 5, put (R.HIF_LINK_width p) 8, putBit (R.HIF_LINK_flit p) true]
def cc (op : Nat) (args : List Byte := []) (id := 40) (port := 1) : HCmd := ⟨id, port, 5, ([BitVec.ofNat 8 op, 0, 0x34, 0x12, 0,0,0,0] ++ args ++ List.replicate 56 0).take 64, false, none, 0, 0, 0, false, [], 0, [], 100⟩
def sb (l : List Eff) := mk ([up 1, .upd (.ready true), putBit (R.HIF_TOKEN_held 0) true, putBit (R.HIF_TOKEN_held 1) true, put (R.HIF_TOKEN_holder 0) 1, put (R.HIF_TOKEN_holder 1) 1, .upd (.now 12345)] ++ l)
def sc (x : HCmd) (l : List Eff) := sb (.upd (.cmds [{cc 1 with id := 39, qp := 6}, x]) :: l)
def lt (m : List Byte) (room := 4000) : HCmd := cc 0x11 (toLE 4 m.length ++ toLE 4 room ++ toLE 8 0x7000 ++ toLE 8 0x9000)
def msg (ty : Nat) (body : List Byte) : List Byte := toLE 2 ty ++ [0,0] ++ toLE 4 (16 + body.length) ++ toLE 8 0 ++ body
def sl (m : List Byte) (l : List Eff) := sc (lt m) (pokeHost 1 0x7000 m :: l)
def sec (ty size : Nat) (rs : List (List Byte)) : List Byte := toLE 2 ty ++ toLE 2 size ++ toLE 4 rs.length ++ toLE 4 (16 + size * rs.length) ++ toLE 4 0 ++ rs.flatMap fun r => (r ++ List.replicate size 0).take size
def img (secs : List (List Byte)) (id : Nat := 0x77) : List Byte :=
  let body := secs.flatMap fun x => x
  let n := 64 + body.length
  let pad := (n + 63) / 64 * 64 - n
  toLE 4 0x4843565A ++ toLE 4 2 ++ toLE 4 (n + pad + 640) ++ toLE 2 secs.length ++ toLE 2 0 ++ List.replicate 16 0 ++ toLE 8 id ++ toLE 8 0x1000100000 ++ List.replicate 16 0 ++ body ++ List.replicate (pad + 640) 0
def dist (d cells lo hi area : Nat) : List Byte := toLE 1 d ++ toLE 3 0 ++ toLE 2 lo ++ toLE 2 hi ++ toLE 8 area ++ toLE 16 cells
def thrRec (c t fl pc : Nat) : List Byte := toLE 1 c ++ toLE 1 t ++ toLE 1 fl ++ toLE 5 0 ++ toLE 8 pc
def tideRec : List Byte := toLE 2 1000 ++ toLE 2 100 ++ toLE 2 20 ++ toLE 2 500 ++ [10, 0, 0, 0] ++ toLE 2 0 ++ toLE 2 1 ++ toLE 2 0x55
def I0 := img [sec 1 32 [dist 2 (2^3 + 2^4) 0 10 0x1000200000], sec 2 16 [thrRec 3 1 1 0x3000], sec 0xA 32 [tideRec]]
def plantW (s : State) (c th w : Nat) : State :=
  let pc := s.pc c th
  let base := pc / 128 * 128
  let k := c * 64 + pc / 128 % 64
  let bs := (List.replicate (pc % 128) (0 : Byte)) ++ toLE 8 w ++ List.replicate (120 - pc % 128) 0
  (Upd.icache k (⟨base, bs⟩ :: (s.icacheAt k).filter fun l => l.base != base)).run s
def plantI (i : Instr) (s : State) : State :=
  match encoded i with
  | some (c, th, w) => plantW s c th w
  | none => s
def readyB (s : State) (c th w : Nat) : Bool := s.power != .off && s.thr c th == THR_RUN && s.storeWait c th == false &&
   s.fetchWord c th == some w && s.engineTakes c w && ((wordUses w).all fun i => !s.regBusy c th i) && s.turn c th
def readyI (i : Instr) (s : State) : Bool :=
  match encoded i with
  | some (c, th, w) => readyB s c th w
  | none => false

theorem decode_good {s : State} (h : s.check = []) (a : Nat) : s.decode a = .good := by
  unfold State.decode State.checkAt
  rw [h]
  exact (by decide +kernel : bchDecode (0 : BitVec 16).toNat = .good)

/-- The words decode without an error. -/
def goodB (s : State) (l : List Nat) : Bool := decide (s.check = []) || l.all fun w => decide (s.decode w = .good)

theorem good_of {s : State} {l : List Nat} (h : goodB s l = true) : ∀ w ∈ l, s.decode w = .good := by
  unfold goodB at h
  rw [Bool.or_eq_true, decide_eq_true_eq, List.all_eq_true] at h
  intro w hw
  rcases h with h | h
  · exact decode_good h w
  · exact of_decide_eq_true (h w hw)

theorem wordsOf_below {a n w : Nat} (h : a + n ≤ 0x0C00000000) (hw : w ∈ wordsOf a n) : isExt w = false := by
  unfold wordsOf at hw
  split at hw
  · cases hw
  · simp only [List.mem_map, List.mem_range] at hw
    obtain ⟨i, hi, rfl⟩ := hw
    unfold isExt
    simp only [Bool.and_eq_false_iff, decide_eq_false_iff_not]
    omega

/-- A vault that no lock, shared range, PROCESSOR-mode unit or lost die stands before, over memory without an error. -/
def calmB (s : State) (c : Nat) : Bool :=
  decide (s.check = []) && !s.diesOff && !s.dieLost (c / 16) && !s.bit (R.VLT_DIAG_BASE_lock c) &&
  ((List.range 8).all fun r => !s.bit (R.SC_SHARED_BASE_valid r)) && (List.range 8).all fun u => !s.pcHolds (c * 8 + u)

theorem calm_shared {s : State} {c a : Nat} (h : calmB s c = true) : s.shared a = false := by
  unfold calmB at h
  simp only [Bool.and_eq_true, List.all_eq_true, Bool.not_eq_true'] at h
  unfold State.shared
  rw [Bool.and_eq_false_iff]
  refine .inr (List.any_eq_false.mpr fun r hr => ?_)
  rw [h.1.2 r hr]
  simp

theorem calm_lock {s : State} {c a : Nat} (h : calmB s c = true) (ha : a < 0x0C00000000) (hc : a / 0x18000000 = c) :
    s.lockBars a = false := by
  have hx : isExt a = false := by simp [isExt]; omega
  have h2 := h
  unfold calmB at h2
  simp only [Bool.and_eq_true, Bool.not_eq_true'] at h2
  simp [State.lockBars, State.cached, hx, calm_shared h, State.diagLocked, hc, h2.1.1.2]

theorem memReady_calm {s : State} {who : Agent} {a n c : Nat} (h : calmB s c = true) (hn : 0 < n)
    (ha : a / 0x18000000 = c) (hl : (a + n - 1) / 0x18000000 = c) (hb : a + n ≤ 0x0C00000000)
    (hg : ∀ p ∈ granules a n, p.1 / 0x18000000 = c ∧ p.1 < 0x0C00000000) : memReady s who a n := by
  have h2 := h
  unfold calmB at h2
  simp only [Bool.and_eq_true, Bool.not_eq_true', decide_eq_true_eq, List.all_eq_true, List.mem_range] at h2
  obtain ⟨⟨⟨⟨⟨h3, h4⟩, h5⟩, h6⟩, h7⟩, h8⟩ := h2
  have r1 : regionOf a = .vault c := by unfold regionOf; rw [if_pos (by omega), ha]
  have r2 : regionOf (a + n - 1) = .vault c := by unfold regionOf; rw [if_pos (by omega), hl]
  have hx : isExt a = false := by simp [isExt]; omega
  have hd : s.cached a = false := by simp [State.cached, hx, calm_shared h]
  refine ⟨by omega, ?_, ?_⟩
  · simp [State.mapStatus, r1, r2, h4, h5, sameRange]
  · rw [r1]
    refine ⟨?_, hd, ?_, fun w hw => ⟨decode_good h3 w, by rw [wordsOf_below hb hw]; rfl⟩⟩
    · unfold State.touchesLock
      exact List.any_eq_false.mpr fun p hp => by simp [calm_lock h (hg p hp).2 (hg p hp).1]
    · unfold State.holder State.holders
      rw [r1]
      simp only [hd, Bool.false_eq_true, if_false, List.flatMap_cons, List.flatMap_nil, List.append_nil]
      rw [List.filter_eq_nil_iff.mpr]
      · rfl
      · intro b hb2
        simp only [List.mem_map, List.mem_filter] at hb2
        obtain ⟨p, ⟨hp, _⟩, rfl⟩ := hb2
        have e : unitOf p.1 = c * 8 + vaultPc (p.1 % 0x18000000) := by unfold unitOf; rw [(hg p hp).1]
        rw [e, h8 _ (by unfold vaultPc; omega)]
        simp

/-- The bytes lie in vault `c`. -/
def inVaultB (c a n : Nat) : Bool :=
  decide (0 < n ∧ a / 0x18000000 = c ∧ (a + n - 1) / 0x18000000 = c ∧ a + n ≤ 0x0C00000000) &&
  (granules a n).all fun p => decide (p.1 / 0x18000000 = c ∧ p.1 < 0x0C00000000)

theorem memReady_in {s : State} {who : Agent} {a n c : Nat} (h : calmB s c = true) (hv : inVaultB c a n = true) :
    memReady s who a n := by
  unfold inVaultB at hv
  rw [Bool.and_eq_true, decide_eq_true_eq, List.all_eq_true] at hv
  exact memReady_calm h hv.1.1 hv.1.2.1 hv.1.2.2.1 hv.1.2.2.2 fun p hp => of_decide_eq_true (hv.2 p hp)

/-- `memReady` as a check. -/
def memReadyB (s : State) (who : Agent) (a n : Nat) : Bool :=
  (calmB s (a / 0x18000000) && inVaultB (a / 0x18000000) a n) ||
  decide (n ≠ 0 ∧ s.mapStatus a n = ST_OK) &&
  match regionOf a with
  | .sram c off => decide (s.refusedBank c off n (s.accClass who c) = none ∧ s.unsettled c off n = []) &&
      (decide (s.marks = []) || (wordsOf (sramAddr c off) n).all fun w => decide (s.marksAt (w / 8) = .good))
  | .vault _ => decide (a + n ≤ 0x0C00000000 ∧ s.touchesLock a n = false ∧ s.cached a = false ∧ s.holder a n = none) &&
      goodB s (wordsOf a n)
  | _ => false

theorem memReady_of {s : State} {who : Agent} {a n : Nat} (h : memReadyB s who a n = true) : memReady s who a n := by
  unfold memReadyB at h
  rw [Bool.or_eq_true] at h
  rcases h with h | h
  · exact memReady_in (Bool.and_eq_true _ _ ▸ h).1 (Bool.and_eq_true _ _ ▸ h).2
  unfold memReady
  rw [Bool.and_eq_true, decide_eq_true_eq] at h
  refine ⟨h.1.1, h.1.2, ?_⟩
  have h2 := h.2
  cases hr : regionOf a with
  | sram c off =>
    rw [hr] at h2
    simp only [Bool.and_eq_true, Bool.or_eq_true, decide_eq_true_eq, List.all_eq_true] at h2
    refine ⟨h.1.1, h2.1.1, h2.1.2, fun w hw => ?_⟩
    rcases h2.2 with h3 | h3
    · unfold State.marksAt; rw [h3]; rfl
    · exact h3 w hw
  | vault c =>
    rw [hr] at h2
    simp only [Bool.and_eq_true, decide_eq_true_eq] at h2
    exact ⟨h2.1.2.1, h2.1.2.2.1, h2.1.2.2.2, fun w hw => ⟨good_of h2.2 w hw, by rw [wordsOf_below h2.1.1 hw]; rfl⟩⟩
  | _ => rw [hr] at h2; exact absurd h2 Bool.false_ne_true

theorem pageReady_of {s : State} {c : Fin 128} {p a n : Nat}
    (h : (ptExt p = true ∨ ptPpn p % 1024 < 768) ∧
      ((calmB s (pageAt p 0 / 0x18000000) = true ∧ ∀ g < 1024, inVaultB (pageAt p 0 / 0x18000000) (pageAt p (64 * g)) 64 = true ∧
        (pageAt p (64 * g) + 64 ≤ a ∨ a + n ≤ pageAt p (64 * g))) ∨
      ∀ g < 1024, memReadyB s (.kvt c) (pageAt p (64 * g)) 64 = true ∧
        (pageAt p (64 * g) + 64 ≤ a ∨ a + n ≤ pageAt p (64 * g)))) : pageReady s c p a n := by
  refine ⟨h.1, fun g hg => ?_⟩
  rcases h.2 with h2 | h2
  · exact ⟨memReady_in h2.1 (h2.2 g hg).1, (h2.2 g hg).2⟩
  · exact ⟨memReady_of (h2 g hg).1, (h2 g hg).2⟩

theorem localReady_of {s : State} {u l n : Nat}
    (h : l + n ≤ 0x3000000 ∧ s.check = [] ∧ ∀ j < n, s.diagLocked (buAddr u (l + j)) = false ∧
      (isExt (buAddr u (l + j) / 8 * 8) && s.gdFailed (extDev (buAddr u (l + j) / 8 * 8))) = false) : localReady s u l n :=
  ⟨h.1, fun j hj => ⟨(h.2.2 j hj).1, decode_good h.2.1 _, (h.2.2 j hj).2⟩⟩

theorem kvStarts_of {s : State} {c : Fin 128} {code : Nat} {x : KvOp} {lh b : Nat}
    (h : s.power ≠ .off ∧ s.kvtQAt c = [x] ∧ x.code = code ∧ x.phase = 0 ∧ x.copies = [] ∧ x.locks = [] ∧ x.res0 = 0 ∧
      x.res1 = 0 ∧ x.checked = false ∧ s.bit (R.KVT_CTRL_enable c) = true ∧ x.fieldStatus = ST_OK ∧
      (Claims.kvEntry s c x.seq).flags % 4 = 1 ∧ x.n = 1 ∧ x.lh = lh ∧ lh < (Claims.kvEntry s c x.seq).nLh ∧ lh < 128 ∧
      s.kvLhStatus c x (Claims.kvEntry s c x.seq) lh = ST_OK ∧ s.kvBlocks c x (Claims.kvEntry s c x.seq) lh = [b] ∧
      memReadyB s (.kvt c) (s.kvSeqAddr c x.seq) 32 = true ∧
      memReadyB s (.kvt c) ((Claims.kvEntry s c x.seq).pte lh b) 8 = true ∧ s.kvtMovesAt c = []) :
    kvStarts s c code x lh b := by
  obtain ⟨h1, h2, h3, h4, h5, h6, h7, h8, h9, h10, h11, h12, h13, h14, h15, h16, h17, h18, h19, h20, h21⟩ := h
  exact ⟨h1, h2, h3, h4, h5, h6, h7, h8, h9, h10, h11, h12, h13, h14, h15, h16, h17, h18, memReady_of h19,
    memReady_of h20, h21⟩

/-- `lineReady` as a check. -/
def lineReadyB (s : State) (a : Nat) : Bool :=
  decide (s.tagLostAt (setKey a) = false) &&
  match s.line a with
  | some l => decide (l.marks = List.replicate 16 .good ∧ l.data.length = 128)
  | none => goodB s (wordsOf (a / 128 * 128) 128) &&
      (wordsOf (a / 128 * 128) 128).all fun w => !(isExt w && s.gdFailed (extDev w))

theorem lineReady_of {s : State} {a : Nat} (h : lineReadyB s a = true) : lineReady s a := by
  unfold lineReadyB at h
  rw [Bool.and_eq_true, decide_eq_true_eq] at h
  unfold lineReady
  refine ⟨h.1, ?_⟩
  have h2 := h.2
  cases hr : s.line a with
  | some l => rw [hr] at h2; simpa only [decide_eq_true_eq] using h2
  | none =>
    rw [hr] at h2
    simp only [Bool.and_eq_true, List.all_eq_true, Bool.not_eq_true'] at h2
    exact fun w hw => ⟨good_of h2.1 w hw, h2.2 w hw⟩

theorem cacheReady_of {s : State} {a n : Nat}
    (h : s.power ≠ .off ∧ s.cached a = true ∧ 0 < n ∧ a % 128 + n ≤ 128 ∧ s.mapStatus a n = ST_OK ∧ s.touchesLock a n = false ∧
      (match regionOf a with | .vault _ => true | .ext => true | _ => false) = true ∧ lineReadyB s a = true) :
    cacheReady s a n := by
  obtain ⟨h1, h2, h3, h4, h5, h6, h7, h8⟩ := h
  refine ⟨h1, h2, h3, h4, h5, h6, ?_, lineReady_of h8⟩
  cases hr : regionOf a with
  | vault c => exact .inl ⟨c, rfl⟩
  | ext => exact .inr rfl
  | _ => rw [hr] at h7; exact absurd h7 Bool.false_ne_true

/-- An empty shared cache before GDDR7 memory without an error. -/
def calmExtB (s : State) : Bool :=
  decide (s.check = [] ∧ s.cache = [] ∧ s.tagLost = []) && (List.range 24).all fun g => !s.gdFailed g

theorem calmExt_dev {s : State} (h : calmExtB s = true) (a : Nat) : s.gdFailed (extDev a) = false := by
  unfold calmExtB at h
  simp only [Bool.and_eq_true, List.all_eq_true, List.mem_range, Bool.not_eq_true'] at h
  exact h.2 _ (Nat.mod_lt _ (by decide))

theorem lineReady_calm {s : State} (h : calmExtB s = true) (a : Nat) : lineReady s a := by
  have h2 := h
  unfold calmExtB at h2
  rw [Bool.and_eq_true, decide_eq_true_eq] at h2
  have hl : s.line a = none := by simp [State.line, State.cacheAt, h2.1.2.1, Map.get, dfltCache]
  refine ⟨by simp [State.tagLostAt, h2.1.2.2, Map.get, dfltTagLost], ?_⟩
  rw [hl]
  exact fun w _ => ⟨decode_good h2.1.1 w, by simp [calmExt_dev h]⟩

theorem spanReady_of {s : State} {a n : Nat}
    (h : (0 < n ∧ isExt a = true ∧ a + n ≤ 0x2200000000 ∧ s.mapStatus a n = ST_OK ∧ s.touchesLock a n = false) ∧
      (calmExtB s = true ∨ ∀ i < n, lineReadyB s (a + i) = true ∧ s.gdFailed (extDev (a + i)) = false)) : spanReady s a n := by
  refine ⟨h.1.1, h.1.2.1, h.1.2.2.1, h.1.2.2.2.1, h.1.2.2.2.2, fun i hi => ?_⟩
  rcases h.2 with h2 | h2
  · exact ⟨lineReady_calm h2 _, calmExt_dev h2 _⟩
  · exact ⟨lineReady_of (h2 i hi).1, (h2 i hi).2⟩

theorem names_of {who : Agent} {target : RegAt} {page off : Nat} {s : State}
    (h : (match who, target with
      | .host p, .bar0 x => decide (s.bar0At p x.toNat = .page page off)
      | _, .page q o => decide (q.toNat = page ∧ o.toNat = off)
      | _, .bar0 _ => false) = true) : names who target page off s := by
  unfold names
  cases who <;> cases target <;> simp_all

theorem below_of {n m : Nat} {s : State} {who : Agent} {f : Nat → Nat} {Q : Nat → Prop}
    (h : ∀ i < n, memReadyB s who (f i) m = true ∧ Q i) : ∀ i < n, memReady s who (f i) m ∧ Q i :=
  fun i hi => ⟨memReady_of (h i hi).1, (h i hi).2⟩

theorem single_of {l : List Nat} {s : State}
    (h : (l.all fun w => match s.decode w with | .good | .single _ => true | _ => false) = true) :
    ∀ w ∈ l, s.decode w = .good ∨ ∃ i, s.decode w = .single i := by
  intro w hw
  have h1 := List.all_eq_true.mp h w hw
  cases hd : s.decode w with
  | good => exact .inl rfl
  | single i => exact .inr ⟨i, rfl⟩
  | _ => rw [hd] at h1; exact absurd h1 Bool.false_ne_true

theorem some_of {α β : Type} {o : Option (α × β)} {P : α → Prop} (h : ∀ x ∈ o, P x.1) : ∀ c n, o = some (c, n) → P c :=
  fun c n e => h (c, n) e

theorem tileReady_of {s : State} {c : Fin 128} {p : Pass}
    (h : p.sp24 = false ∧ p.cb = false ∧ p.tile = none ∧
      ∀ g < p.groups, p.fetches g = true → memReadyB s (.feeder c) (p.groupAt g) p.groupBytes = true) : tileReady s c p :=
  ⟨h.1, h.2.1, h.2.2.1, fun g a b => memReady_of (h.2.2.2 g a b)⟩

theorem getD_lt_of {l : List Nat} {b : Nat} (h : 0 < b ∧ ∀ x ∈ l, x < b) : ∀ j, l.getD j 0 < b := by
  intro j
  rw [List.getD_eq_getElem?_getD]
  cases hj : l[j]? with
  | none => exact h.1
  | some x => exact h.2 x (List.mem_of_getElem? hj)

theorem ready_of {i : Instr} {s : State} (h : readyI i s = true) : ∃ c th w, encoded i = some (c, th, w) ∧ ready s c th w := by
  unfold readyI at h
  split at h
  · rename_i c th w he
    refine ⟨c, th, w, he, ?_⟩
    simpa [readyB, ready, and_assoc] using h
  · cases h

theorem noRegs_of {a : Nat} (h : (match regionOf a with | .regs _ _ => false | _ => true) = true) :
    ∀ q o, regionOf a ≠ .regs q o := by
  intro q o e
  rw [e] at h
  exact Bool.false_ne_true h

theorem isSram_of {a : Nat} (h : (match regionOf a with | .sram _ _ => true | _ => false) = true) :
    ∃ c o, regionOf a = .sram c o := by
  cases hr : regionOf a with
  | sram c o => exact ⟨c, o, rfl⟩
  | _ => rw [hr] at h; exact absurd h Bool.false_ne_true

theorem applyHold_of {s : State} {n : Nat}
    (h : (s.applyNow = false ∨ (decide (1 < n) && !s.allDone (n - 1)) = false) ∧ s.segQ = [] ∧ s.creditQ = [] ∧ s.qeQ = []) :
    s.applyHold n = false := by
  have hm : ∀ x, s.routeMoving x = false := fun x => by
    cases x <;> simp [State.routeMoving, State.routeBusy, State.qeQAt, Map.get, dfltQeQ, h.2.1, h.2.2.1, h.2.2.2]
  have hr : s.routesBusy = false := by simp [State.routesBusy, hm]
  rcases h.1 with h1 | h1 <;> simp [State.applyHold, hr, h1]

theorem book_le (s : State) : s.book100 ≤ 252072 := by
  have h : ∀ (f : Nat → Nat → Nat), (∀ n c, f n c ≤ n + 13) → ∀ l : List Nat, ∀ n, l.foldl f n ≤ n + 13 * l.length := by
    intro f hf l
    induction l with
    | nil => intro n; simp
    | cons c l ih => intro n; have := ih (f n c); have := hf n c; simp only [List.foldl_cons, List.length_cons]; omega
  have h2 := h (fun n c => if s.cellRetired c then n else if s.cellGated c then n + 1 else n + 13)
    (fun n c => by repeat' split
                   all_goals omega) (List.range 128) 0
  unfold State.book100
  simp only [List.length_range] at h2
  omega

theorem powerOver_low {s : State} {rs : List (BitVec 32)} {w : Nat} (h : 2521 ≤ w) :
    powerOver s rs w = (w * (powers s rs).length < (powers s rs).sum) := by
  have hb := book_le s
  unfold powerOver
  exact propext ⟨fun x => x.resolve_right (by omega), .inl⟩

/-! Values worked out from the spec. -/

/-- R201: a right codeword decodes with no error. -/
theorem test_bch_good : bchDecode 0 = .good := by decide

/-- R201: flipping check[15] alone gives a single correction. -/
theorem test_bch_flip_a : bchDecode 0x8000 = .single 79 := by decide

/-- R201: flipping data bits 3 and 40 of a stored codeword gives a double correction of exactly those bits. -/
theorem test_bch_double :
    bchDecode (Nat.xor (checkOf 0 0) (checkOf (2 ^ 3 + 2 ^ 40) 0)) = .double 18 55 := by decide

/-- R403: the CRC-32 of the bytes "123456789". -/
theorem test_crc32 : crc32 [0x31, 0x32, 0x33, 0x34, 0x35, 0x36, 0x37, 0x38, 0x39] = 0xCBF43926 := by decide +kernel

/-- R157: ADD s1 ← s5 + s6 − 1, its fields at bits 0, 8, 13, 18 and 32. -/
theorem test_seq_word : seqWord 0x03 1 5 6 0 0xFFFFFFFF = 0xFFFFFFFF0018A103 ∧ wordOp 0xFFFFFFFF0018A103 = 0x03 := by decide

/-- R158: ADD of 7, 8 and −1 is 14; it wraps; s0 stays 0. -/
theorem test_add :
    (let s := plantI (.seqAdd 3 2 1 5 6 0 0xFFFFFFFF) (mk [put (R.SEQ_THR_STATUS_state 3 2) 1, put (R.SEQ_THR_PC_pc 3 2) 0x1000,
        putSreg 3 2 5 7, putSreg 3 2 6 8])
     ∃ t, exec (.seqAdd 3 2 1 5 6 0 0xFFFFFFFF) s = .next t ∧ t.sreg 3 2 1 = 14 ∧ t.pc 3 2 = 0x1008) :=
  ⟨_, rfl, by decide +kernel, by decide +kernel⟩

/-- R68: the largest finite E4M3 value is 448; 0x7F is NaN. -/
theorem test_e4m3 : Fmt.e4m3.decode 0x7E = .fin false 14 5 ∧ Fmt.e4m3.decode 0x7F = .nan := by decide

/-- R182, R285: granules go round the 8 pseudo-channels, external blocks of 256 bytes round the 24 devices. -/
theorem test_interleave : unitOf 0x180001C0 = 15 ∧ extDev 0x1000001800 = 0 ∧ extDev 0x10000017FF = 23 := by decide

/-- Without input power nothing but POWER_APPLY has an effect. -/
theorem test_off : ∃ t, exec .warmReset { State.reset with power := .off } = .next t ∧ t.power = .off := ⟨_, rfl, by decide +kernel⟩

/-- An ill-formed command for each condition of `Instr.wf`. -/
theorem test_ill_formed :
    let t : DlTrain := ⟨0, 0, 0, 0, 0, 0, 0, 0, 0, 0⟩
    let g : GwTrain := ⟨0, true, true, true, 0, [0, 0, 0, 0], 0, [0, 0, 0, 0]⟩
    let h : GwHdr := ⟨9, 0x1234, 0x777, 5, 0x55, 7, .good⟩
    Instr.wf (.registerWrite .mgmt (.page 0 0) []) = false ∧ Instr.wf (.addressMapAccess .mgmt 0 8 ⟨some [1], .good⟩) = false ∧
    Instr.wf (.addressMapAccess .mgmt 0 0 ⟨none, .good⟩) = false ∧ Instr.wf (.sramAccess .mgmt 0 0 0 513 none false) = false ∧
    Instr.wf (.vaultRequest 0 0 none 0) = false ∧ Instr.wf (.scAccess .mgmt .normal 0 4097 none 0 none 0) = false ∧
    Instr.wf (.gddrRequest 0 257 none 0 false 0 0 0) = false ∧ Instr.wf (.bar2Access 0 none 0 4 (some [1]) false) = false ∧
    Instr.wf (.gwWrite h 0 0 []) = false ∧ Instr.wf (.stageS4 0 [t, t]) = false ∧ Instr.wf (.stageS5 0 [(0, 0, 0), (0, 0, 0)]) = false ∧
    Instr.wf (.stageS6 0 [(0, 0), (0, 1)] []) = false ∧ Instr.wf (.stageS7 0 [(0, 0), (0, 1)]) = false ∧
    Instr.wf (.stageS8 0 [g, g]) = false ∧ Instr.wf (.stageS8 0 [{ g with fastErrs := [] }]) = false ∧
    Instr.wf (.housekeepingRound []) = false ∧ Instr.wf (.requalifyComplete { g with slowErrs := [] }) = false ∧
    Instr.wf (.standbyExitComplete [⟨0, 0, 0, 0⟩, ⟨0, 1, 0, 0⟩]) = false := by decide +kernel

namespace SeqCore

def th (l : List Eff) : State := mk ([put (R.SEQ_THR_STATUS_state 3 2) 1, put (R.SEQ_THR_PC_pc 3 2) 0x1000, .upd (.now 50), put R.TIDE_EDGE_NUM_edge 7, .upd (.thrStep 50 9)] ++ l)
def ab (x y : Word) (l : List Eff) := th ([putSreg 3 2 5 x, putSreg 3 2 6 y] ++ l)
def pb (v l : Nat) := Eff.all [put (R.PBX_VALUE_value 3 7) v, put (R.PBX_LANDED_landed 3 7) l]

def s_1 : State := ab 0xFFFFFFFFFFFFFFF0 0x13 []
/-- SeqScalarResults: states and operands that meet the hypotheses of its clauses. -/
theorem test_seq_scalar_results :
    ((readyI (Instr.seqNop 3 2 1 5 6 0#9 4294967284#32)
          (plantI (Instr.seqNop 3 2 1 5 6 0#9 4294967284#32) s_1) =
        true) ∧
      (readyI (Instr.seqLi 3 2 1 5 6 0#9 4294967284#32)
          (plantI (Instr.seqLi 3 2 1 5 6 0#9 4294967284#32) s_1) =
        true) ∧
      (readyI (Instr.seqLih 3 2 1 5 6 0#9 4294967284#32)
          (plantI (Instr.seqLih 3 2 1 5 6 0#9 4294967284#32) s_1) =
        true) ∧
      (readyI (Instr.seqAdd 3 2 1 5 6 0#9 4294967284#32)
          (plantI (Instr.seqAdd 3 2 1 5 6 0#9 4294967284#32) s_1) =
        true) ∧
      (readyI (Instr.seqSub 3 2 1 5 6 0#9 4294967284#32)
          (plantI (Instr.seqSub 3 2 1 5 6 0#9 4294967284#32) s_1) =
        true) ∧
      (readyI (Instr.seqMul 3 2 1 5 6 0#9 4294967284#32)
          (plantI (Instr.seqMul 3 2 1 5 6 0#9 4294967284#32) s_1) =
        true) ∧
      (readyI (Instr.seqAnd 3 2 1 5 6 0#9 4294967284#32)
          (plantI (Instr.seqAnd 3 2 1 5 6 0#9 4294967284#32) s_1) =
        true) ∧
      (readyI (Instr.seqOr 3 2 1 5 6 0#9 4294967284#32)
          (plantI (Instr.seqOr 3 2 1 5 6 0#9 4294967284#32) s_1) =
        true) ∧
      (readyI (Instr.seqXor 3 2 1 5 6 0#9 4294967284#32)
          (plantI (Instr.seqXor 3 2 1 5 6 0#9 4294967284#32) s_1) =
        true) ∧
      (readyI (Instr.seqShl 3 2 1 5 6 0#9 4294967284#32)
          (plantI (Instr.seqShl 3 2 1 5 6 0#9 4294967284#32) s_1) =
        true) ∧
      (readyI (Instr.seqShr 3 2 1 5 6 0#9 4294967284#32)
          (plantI (Instr.seqShr 3 2 1 5 6 0#9 4294967284#32) s_1) =
        true) ∧
      (readyI (Instr.seqSra 3 2 1 5 6 0#9 4294967284#32)
          (plantI (Instr.seqSra 3 2 1 5 6 0#9 4294967284#32) s_1) =
        true) ∧
      (readyI (Instr.seqSlt 3 2 1 5 6 0#9 4294967284#32)
          (plantI (Instr.seqSlt 3 2 1 5 6 0#9 4294967284#32) s_1) =
        true) ∧
      (readyI (Instr.seqSltu 3 2 1 5 6 0#9 4294967284#32)
          (plantI (Instr.seqSltu 3 2 1 5 6 0#9 4294967284#32) s_1) =
        true) ∧
      (readyI (Instr.seqRdstep 3 2 1 5 6 0#9 4294967284#32)
          (plantI (Instr.seqRdstep 3 2 1 5 6 0#9 4294967284#32) s_1) =
        true) ∧
      (readyI (Instr.seqRdtime 3 2 1 5 6 0#9 4294967284#32)
          (plantI (Instr.seqRdtime 3 2 1 5 6 0#9 4294967284#32) s_1) =
        true)) :=
    by decide +kernel

def s_2 : State := ab 0x8000000000000000 0x13 []
/-- SeqControlFlow: states and operands that meet the hypotheses of its clauses. -/
theorem test_seq_control_flow :
    ((readyI (Instr.seqBeq 3 2 5 5 6 0#9 4294967040#32)
          (plantI (Instr.seqBeq 3 2 5 5 6 0#9 4294967040#32) s_2) =
        true) ∧
      (readyI (Instr.seqBne 3 2 5 5 6 0#9 4294967040#32)
          (plantI (Instr.seqBne 3 2 5 5 6 0#9 4294967040#32) s_2) =
        true) ∧
      (readyI (Instr.seqBlt 3 2 5 5 6 0#9 4294967040#32)
          (plantI (Instr.seqBlt 3 2 5 5 6 0#9 4294967040#32) s_2) =
        true) ∧
      (readyI (Instr.seqBge 3 2 5 5 6 0#9 4294967040#32)
          (plantI (Instr.seqBge 3 2 5 5 6 0#9 4294967040#32) s_2) =
        true) ∧
      (readyI (Instr.seqJal 3 2 5 5 6 0#9 4294967040#32)
          (plantI (Instr.seqJal 3 2 5 5 6 0#9 4294967040#32) s_2) =
        true) ∧
      (BitVec.toNat
            ((plantI (Instr.seqJr 3 2 5 5 6 0#9 4294967040#32) s_2).sreg 3 2 5 +
              BitVec.signExtend 64 4294967040#32) %
          8 =
        0) ∧
      (readyI (Instr.seqJr 3 2 5 5 6 0#9 4294967040#32)
          (plantI (Instr.seqJr 3 2 5 5 6 0#9 4294967040#32) s_2) =
        true)) :=
    by decide +kernel

def s_3 : State := plantW (ab 0x40 0x40 []) 3 2 0xFF
/-- SeqTraps: states and operands that meet the hypotheses of its clauses. -/
theorem test_seq_traps :
    ((readyI (Instr.seqTrap 3 2 1 5 6 0#9 57#32) (plantI (Instr.seqTrap 3 2 1 5 6 0#9 57#32) s_3) =
        true) ∧
      (ready s_3 3 2 255) ∧
      (opKnown 255 = false) ∧
      (BitVec.toNat
            ((plantI (Instr.seqJr 3 2 1 5 6 0#9 57#32) s_3).sreg 3 2 5 + BitVec.signExtend 64 57#32) %
          8 ≠
        0) ∧
      (readyI (Instr.seqJr 3 2 1 5 6 0#9 57#32) (plantI (Instr.seqJr 3 2 1 5 6 0#9 57#32) s_3) = true) ∧
      (readyI (Instr.seqWait 3 2 1 5 6 0#9 57#32) (plantI (Instr.seqWait 3 2 1 5 6 0#9 57#32) s_3) =
        true) ∧
      (readyI (Instr.seqOwn 3 2 1 5 6 0#9 57#32) (plantI (Instr.seqOwn 3 2 1 5 6 0#9 57#32) s_3) = true)) :=
    by unfold ready; decide +kernel

def s_4 : State := ab 4 100 [pb 4 105]
def s_5 : State := ab 4 100 [pb 4 95]
/-- SeqWaitOutcomes: states and operands that meet the hypotheses of its clauses. -/
theorem test_seq_wait_outcomes :
    ((BitVec.toNat ((plantI (Instr.seqWait 3 2 1 5 6 0#9 7#32) s_4).sreg 3 2 5) % 65536 ≤
        (plantI (Instr.seqWait 3 2 1 5 6 0#9 7#32) s_4).get (R.PBX_VALUE_value 3 7)) ∧
      (BitVec.toNat ((plantI (Instr.seqWait 3 2 1 5 6 0#9 7#32) s_4).sreg 3 2 6) % 4294967296 ≤
        (plantI (Instr.seqWait 3 2 1 5 6 0#9 7#32) s_4).get (R.PBX_LANDED_landed 3 7)) ∧
      (readyI (Instr.seqWait 3 2 1 5 6 0#9 7#32)
          (plantI (Instr.seqWait 3 2 1 5 6 0#9 7#32) s_4) =
        true)) ∧
    ((¬(BitVec.toNat ((plantI (Instr.seqWait 3 2 1 5 6 0#9 7#32) s_5).sreg 3 2 5) % 65536 ≤
            (plantI (Instr.seqWait 3 2 1 5 6 0#9 7#32) s_5).get (R.PBX_VALUE_value 3 7) ∧
          BitVec.toNat ((plantI (Instr.seqWait 3 2 1 5 6 0#9 7#32) s_5).sreg 3 2 6) %
              4294967296 ≤
            (plantI (Instr.seqWait 3 2 1 5 6 0#9 7#32) s_5).get (R.PBX_LANDED_landed 3 7))) ∧
      (readyI (Instr.seqWait 3 2 1 5 6 0#9 7#32)
          (plantI (Instr.seqWait 3 2 1 5 6 0#9 7#32) s_5) =
        true)) :=
    ⟨(by decide +kernel),
    (by decide +kernel)⟩

def s_6 : State := ab 4 100 [pb 4 95]
def s_7 : State := ab 0x76004 100 [pb 4 95]
def s_8 : State := ab 0x16004 100 [pb 4 95, put R.GWL_GROUP_group_size 16, put (R.GWL_PEER_valid 5) 1, put (R.GWL_PEER_reachable 5) 1, putRegBit R.GWL_UP 9 true, put (R.GWL_LINK_STATUS_weight 9) 8]
/-- SeqSignalArrive: states and operands that meet the hypotheses of its clauses. -/
theorem test_seq_signal_arrive :
    ((BitVec.toNat ((plantI (Instr.seqSignal 3 2 1 5 6 0#9 7#32) s_6).sreg 3 2 5) / 8192 % 2 =
        0) ∧
      (readyI (Instr.seqSignal 3 2 1 5 6 0#9 7#32)
          (plantI (Instr.seqSignal 3 2 1 5 6 0#9 7#32) s_6) =
        true) ∧
      (readyI (Instr.seqArrive 3 2 1 5 6 0#9 7#32)
          (plantI (Instr.seqArrive 3 2 1 5 6 0#9 7#32) s_6) =
        true) ∧
      (readyI (Instr.seqArrive 3 2 1 5 6 1#9 7#32)
          (plantI (Instr.seqArrive 3 2 1 5 6 1#9 7#32) s_6) =
        true)) ∧
    ((BitVec.toNat ((plantI (Instr.seqSignal 3 2 1 5 6 0#9 7#32) s_7).sreg 3 2 5) / 8192 % 2 =
        1) ∧
      ((plantI (Instr.seqSignal 3 2 1 5 6 0#9 7#32) s_7).gwReach
          (BitVec.toNat ((plantI (Instr.seqSignal 3 2 1 5 6 0#9 7#32) s_7).sreg 3 2 5) /
              16384 %
            65536) =
        false) ∧
      (readyI (Instr.seqSignal 3 2 1 5 6 0#9 7#32)
          (plantI (Instr.seqSignal 3 2 1 5 6 0#9 7#32) s_7) =
        true)) ∧
    ((BitVec.toNat ((plantI (Instr.seqSignal 3 2 1 5 6 0#9 7#32) s_8).sreg 3 2 5) / 8192 % 2 =
        1) ∧
      ((plantI (Instr.seqSignal 3 2 1 5 6 0#9 7#32) s_8).gwReach
          (BitVec.toNat ((plantI (Instr.seqSignal 3 2 1 5 6 0#9 7#32) s_8).sreg 3 2 5) /
              16384 %
            65536) =
        true) ∧
      (readyI (Instr.seqSignal 3 2 1 5 6 0#9 7#32)
          (plantI (Instr.seqSignal 3 2 1 5 6 0#9 7#32) s_8) =
        true)) :=
    ⟨(by decide +kernel),
    (by decide +kernel),
    (by decide +kernel)⟩

end SeqCore

namespace Postbox

def ps (l : List Eff) : State := mk ([put R.TIDE_EDGE_NUM_edge 7, .upd (.now 40)] ++ l)
def g0 : Sig := ⟨50, 4, 3 * 48 + 7, 9, 40⟩
def g1 : Sig := { g0 with sent := 50 }
def l1 : Landing := ⟨some 4, 3 * 48 + 7, 100, 50⟩
def l0 : Landing := ⟨some 4, 3 * 48 + 7, 100, 40⟩
def pb (v l : Nat) := Eff.all [put (R.PBX_VALUE_value 3 7) v, put (R.PBX_LANDED_landed 3 7) l]
def wt (v b : Nat) := Eff.all [.upd (.waiters (3 * 48 + 7) [2]), put (R.PBX_THR_WAIT_target 3 2) 7, putBit (R.PBX_THR_WAIT_waiting 3 2) true, put (R.PBX_THR_WAIT_v 3 2) v, put (R.PBX_THR_WAIT_b 3 2) b, putThr 3 2 THR_WAIT, putRegBit (R.PBX_VALUE 3 7) 34 true, .upd (.waitSince 50 3), put (R.SEQ_THR_PC_pc 3 2) 0x1000]
def a0 : Arrival := ⟨5, 0x123, none⟩
def sw (n e : Nat) := Eff.all [put (R.SWL_CFG_expected 5) e, put (R.SWL_STATE_arrived 5) n, put (R.SWL_CFG_release_pbx 5) 63, .upd (.arrQ [a0, a0]), putBit (R.SWL_CFG_valid 5) true, putRegBit (R.SWL_MEMBERS_LO 5) 18 true, put (R.SWL_STATE_generation 5) 65535]
def sl1 := Eff.all [.upd (.relQ [(4,4),(3, 5), (3,6)]), putThr 3 2 THR_WAIT, putBit (R.PBX_THR_WAIT_sleeping 3 2) true, put (R.PBX_THR_WAIT_target 3 2) 5, put (R.SEQ_THR_PC_pc 3 2) 0x1000]

def s_1 : State := ps [pb 4 5, .upd (.sigQ [g0, g1]), .upd (.landQ [l0, l1])]
def g_1 : Sig := g0
def rest_1 : List Sig := [g1]
def s_2 : State := ps [pb 65530 0xFFFFFFFF, .upd (.sigQ [{g0 with add := 0}, g1]), .upd (.landQ [l0, l1])]
def g_2 : Sig := {g0 with add := 0}
def rest_2 : List Sig := [g1]
def s_3 : State := ps [pb 65530 0xFFFFFFFF, .upd (.sigQ [{g0 with pbx := 7000}, g1]), .upd (.landQ [l0, l1])]
def g_3 : Sig := {g0 with pbx := 7000}
def rest_3 : List Sig := [g1]
def s_4 : State := ps [pb 4 5, .upd (.landQ [l0, l1])]
def g_4 : Landing := (l0 : Landing)
def rest_4 : List Landing := ([l1] : List Landing)
def s_5 : State := ps [pb 4 5, put R.PWR_STATE_state 2, .upd (.landQ [l0, {l0 with cell := none}, l1])]
def g_5 : Landing := l0
def rest_5 : List Landing := ([{l0 with cell := none}, l1] : List Landing)
/-- PostboxDelivery: states and operands that meet the hypotheses of its clauses. -/
theorem test_postbox_delivery :
    ((s_1.power ≠ Power.off) ∧
      (s_1.sigQ = g_1 :: rest_1) ∧
      (s_1.pbxStatus g_1.pbx = ST_OK) ∧
      (0 < (List.map Sig.add (takeSame Sig.key g_1 s_1.sigQ).1).sum) ∧
      (s_1.waitersAt g_1.pbx = [])) ∧
    ((s_2.power ≠ Power.off) ∧
      (s_2.sigQ = g_2 :: rest_2) ∧
      (s_2.pbxStatus g_2.pbx = ST_OK) ∧
      ((List.map Sig.add (takeSame Sig.key g_2 s_2.sigQ).1).sum = 0)) ∧
    ((s_3.power ≠ Power.off) ∧
      (s_3.sigQ = g_3 :: rest_3) ∧
      (s_3.pbxStatus g_3.pbx ≠ ST_OK)) ∧
    ((s_4.power ≠ Power.off) ∧
      (s_4.landQ = g_4 :: rest_4) ∧
      (s_4.pbxStatus g_4.pbx = ST_OK) ∧
      (s_4.waitersAt g_4.pbx = [])) ∧
    ((s_5.power ≠ Power.off) ∧
      (s_5.landQ = g_5 :: rest_5) ∧
      (s_5.pbxStatus g_5.pbx ≠ ST_OK)) :=
    ⟨(by decide +kernel),
    (by decide +kernel),
    (by decide +kernel),
    (by decide +kernel),
    (by decide +kernel)⟩

def s_6 : State := ps [put R.PWR_STATE_state 2]
def s_7 : State := ps []
def s_8 : State := ps [putRegBit R.SVC_RETIRED_CELL_LO 2 true]
/-- PostboxReach: states and operands that meet the hypotheses of its clauses. -/
theorem test_postbox_reach :
    ((s_6.standby = true)) ∧
    ((s_7.diesOff = false) ∧
      (s_7.cellRetired 2 = false)) ∧
    ((s_8.diesOff = false) ∧
      (s_8.cellRetired 2 = true)) :=
    ⟨(by decide +kernel),
    (by decide +kernel),
    (by decide +kernel)⟩

def s_9 : State := ps [pb 4 5, .upd (.sigQ [g0, g1]), wt 13 5]
def g_6 : Sig := g0
def rest_6 : List Sig := [g1]
def s_10 : State := ps [pb 4 5, .upd (.sigQ [g0, g1]), wt 14 5]
def g_7 : Sig := g0
def rest_7 : List Sig := [g1]
/-- SignalReleasesWaiter: states and operands that meet the hypotheses of its clauses. -/
theorem test_signal_releases_waiter :
    ((s_9.power ≠ Power.off) ∧
      (s_9.sigQ = g_6 :: rest_6) ∧
      (s_9.pbxStatus g_6.pbx = ST_OK) ∧
      (0 <
        (List.map Sig.add
            (takeSame Sig.key g_6 s_9.sigQ).1).sum) ∧
      (s_9.waitersAt g_6.pbx = [2]) ∧
      (s_9.get (R.PBX_THR_WAIT_target (g_6.pbx / 48) 2) =
        g_6.pbx % 48) ∧
      (s_9.get
            (R.PBX_VALUE_value (g_6.pbx / 48)
              (g_6.pbx % 48)) +
          (List.map Sig.add
              (takeSame Sig.key g_6 s_9.sigQ).1).sum ≤
        65535) ∧
      (s_9.get (R.PBX_THR_WAIT_v (g_6.pbx / 48) 2) ≤
        s_9.get
            (R.PBX_VALUE_value (g_6.pbx / 48)
              (g_6.pbx % 48)) +
          (List.map Sig.add
              (takeSame Sig.key g_6 s_9.sigQ).1).sum) ∧
      (s_9.get (R.PBX_THR_WAIT_b (g_6.pbx / 48) 2) ≤
        s_9.get
          (R.PBX_LANDED_landed (g_6.pbx / 48) (g_6.pbx % 48)))) ∧
    ((s_10.power ≠ Power.off) ∧
      (s_10.sigQ = g_7 :: rest_7) ∧
      (s_10.pbxStatus g_7.pbx = ST_OK) ∧
      (0 <
        (List.map Sig.add
            (takeSame Sig.key g_7 s_10.sigQ).1).sum) ∧
      (s_10.waitersAt g_7.pbx = [2]) ∧
      (s_10.get (R.PBX_THR_WAIT_target (g_7.pbx / 48) 2) =
        g_7.pbx % 48) ∧
      (s_10.get
            (R.PBX_VALUE_value (g_7.pbx / 48)
              (g_7.pbx % 48)) +
          (List.map Sig.add
              (takeSame Sig.key g_7 s_10.sigQ).1).sum ≤
        65535) ∧
      (s_10.get
              (R.PBX_VALUE_value (g_7.pbx / 48)
                (g_7.pbx % 48)) +
            (List.map Sig.add
                (takeSame Sig.key g_7 s_10.sigQ).1).sum <
          s_10.get (R.PBX_THR_WAIT_v (g_7.pbx / 48) 2) ∨
        s_10.get
            (R.PBX_LANDED_landed (g_7.pbx / 48)
              (g_7.pbx % 48)) <
          s_10.get (R.PBX_THR_WAIT_b (g_7.pbx / 48) 2))) :=
    ⟨(by decide +kernel),
    (by decide +kernel)⟩

def s_11 : State := ps [pb 65500 5]
def s_12 : State := ps [pb 65500 5]
def s_13 : State := ps [pb 65500 5]
/-- PostboxRegisters: states and operands that meet the hypotheses of its clauses. -/
theorem test_postbox_registers :
    ((writable (Agent.core 2) 55 1536 s_11) ∧
      (outerAgent (Agent.core 2) = true) ∧
      (s_11.waitersAt 151 = []) ∧
      (writable (Agent.core 2) 55 1544 s_11) ∧
      (coreAgent (Agent.core 2) = true)) ∧
    ((writable (Agent.host 1) 55 1536 s_12) ∧
      (outerAgent (Agent.host 1) = true) ∧
      (writable (Agent.host 1) 55 1544 s_12) ∧
      (coreAgent (Agent.host 1) = false)) ∧
    ((writable (Agent.thread 4 2) 55 1536 s_13) ∧
      (outerAgent (Agent.thread 4 2) = false)) :=
    ⟨(by unfold writable; decide +kernel),
    (by unfold writable; decide +kernel),
    (by unfold writable; decide +kernel)⟩

def s_14 : State := ps [sw 3 8]
def a_1 : Arrival := a0
def rest_8 : List Arrival := [a0]
def s_15 : State := ps [sw 7 8, putBit (R.SWL_CFG_valid 5) false]
def a_2 : Arrival := a0
def rest_9 : List Arrival := [a0]
def s_16 : State := ps [sw 7 8, sl1]
/-- SeawallSteps: states and operands that meet the hypotheses of its clauses. -/
theorem test_seawall_steps :
    ((s_14.power ≠ Power.off) ∧
      (s_14.arrQ = a_1 :: rest_8) ∧
      (a_1.wall < 64) ∧
      (s_14.wallStatus a_1.wall a_1.src = ST_OK) ∧
      (s_14.bit (R.SWL_CFG_group a_1.wall) = false) ∧
      (s_14.get (R.SWL_STATE_arrived a_1.wall) < 4095) ∧
      (writable (Agent.core 2) 4098 2048 s_14) ∧
      (s_14.wallStatus 5 (srcWriter (Agent.core 2)) = ST_OK) ∧
      (s_14.bit (R.SWL_CFG_group 5) = false) ∧
      (s_14.get (R.SWL_STATE_arrived 5) + 1 < s_14.get (R.SWL_CFG_expected 5))) ∧
    ((s_15.power ≠ Power.off) ∧
      (s_15.arrQ = a_2 :: rest_9) ∧
      (a_2.wall < 64) ∧
      (s_15.wallStatus a_2.wall a_2.src ≠ ST_OK) ∧
      (a_2.sleeper = none)) ∧
    ((s_16.power ≠ Power.off) ∧
      (List.find? (fun r ↦ r.1 == 3) s_16.relQ = some (3, 5)) ∧
      (48 ≤ s_16.get (R.SWL_CFG_release_pbx 5))) :=
    ⟨(by unfold writable; decide +kernel),
    (by decide +kernel),
    (by decide +kernel)⟩

end Postbox

namespace SeqFlow

def th (l : List Eff) : State := mk ([put (R.SEQ_THR_STATUS_state 3 2) 1, put (R.SEQ_THR_PC_pc 3 2) 0x1000, .upd (.now 50), put R.TIDE_EDGE_NUM_edge 7, .upd (.thrStep 50 9), put (R.SEQ_THR_CFG_head_pc 3 2) 0x333] ++ l)
def ab (x y : Word) (l : List Eff) := th ([putSreg 3 2 5 x, putSreg 3 2 6 y] ++ l)
def ac := Eff.all [.upd (.chartLive I0), putBit (R.SEQ_THR_CFG_active 3 2) true]
def wt (v b : Nat) := Eff.all [.upd (.waiters (3 * 48 + 7) [4, 2]), put (R.PBX_THR_WAIT_target 3 2) 7, putBit (R.PBX_THR_WAIT_waiting 3 2) true, put (R.PBX_THR_WAIT_v 3 2) v, put (R.PBX_THR_WAIT_b 3 2) b, putThr 3 2 THR_WAIT, putRegBit (R.PBX_VALUE 3 7) 34 true, .upd (.waitSince 50 3)]

def s_1 : State := ab 4 100 []
def s_2 : State := ab 4 100 [ac, .upd (.loads 50 [⟨1, false, false, 0, 4, false, 4, 5, none⟩])]
def s_3 : State := ab 4 100 [ac, .upd (.thrStep 50 5), putBit (R.SEQ_THR_CFG_active 3 4) true, putThr 3 4 THR_RUN, .upd (.thrStep 52 4)]
def s_4 : State := ab 4 100 [ac, .upd (.thrStep 50 5), .upd (.vecQ 3 (List.replicate 16 ⟨2,0,0,0,0,0,0,0,0,0,0⟩))]
/-- SeqStepSections: states and operands that meet the hypotheses of its clauses. -/
theorem test_seq_step_sections :
    ((¬(Nat.testBit 31 0 = true ∧
            (plantI (Instr.seqFence 3 2 5 5 6 31#9 7#32) s_1).storesOut 3 2 = true ∨
          Nat.testBit 31 1 = true ∧
              ((plantI (Instr.seqFence 3 2 5 5 6 31#9 7#32) s_1).passesOut 3 2 fun x ↦ true) =
                true ∨
            Nat.testBit 31 2 = true ∧
                (plantI (Instr.seqFence 3 2 5 5 6 31#9 7#32) s_1).vecOut 3 2 = true ∨
              Nat.testBit 31 3 = true ∧
                  ((plantI (Instr.seqFence 3 2 5 5 6 31#9 7#32) s_1).qeOut 3 2 fun x ↦ true) =
                    true ∨
                Nat.testBit 31 4 = true ∧
                  ((plantI (Instr.seqFence 3 2 5 5 6 31#9 7#32) s_1).buWork 3 2 fun x ↦ true) =
                    true)) ∧
      (readyI (Instr.seqFence 3 2 5 5 6 31#9 7#32)
          (plantI (Instr.seqFence 3 2 5 5 6 31#9 7#32) s_1) =
        true) ∧
      (chartDistrictOf (plantI (Instr.seqHeadEnd 3 2 5 5 6 0#9 7#32) s_1).chartLive 3 = none ∨
        (plantI (Instr.seqHeadEnd 3 2 5 5 6 0#9 7#32) s_1).bit (R.SEQ_THR_CFG_active 3 2) =
          false) ∧
      (readyI (Instr.seqHeadEnd 3 2 5 5 6 0#9 7#32)
          (plantI (Instr.seqHeadEnd 3 2 5 5 6 0#9 7#32) s_1) =
        true) ∧
      (chartDistrictOf (plantI (Instr.seqStepEnd 3 2 5 5 6 0#9 7#32) s_1).chartLive 3 = none ∨
        (plantI (Instr.seqStepEnd 3 2 5 5 6 0#9 7#32) s_1).bit (R.SEQ_THR_CFG_active 3 2) =
          false) ∧
      (readyI (Instr.seqStepEnd 3 2 5 5 6 0#9 7#32)
          (plantI (Instr.seqStepEnd 3 2 5 5 6 0#9 7#32) s_1) =
        true)) ∧
    ((Nat.testBit 31 0 = true ∧
          (plantI (Instr.seqFence 3 2 5 5 6 31#9 7#32) s_2).storesOut 3 2 = true ∨
        Nat.testBit 31 1 = true ∧
            ((plantI (Instr.seqFence 3 2 5 5 6 31#9 7#32) s_2).passesOut 3 2 fun x ↦ true) =
              true ∨
          Nat.testBit 31 2 = true ∧
              (plantI (Instr.seqFence 3 2 5 5 6 31#9 7#32) s_2).vecOut 3 2 = true ∨
            Nat.testBit 31 3 = true ∧
                ((plantI (Instr.seqFence 3 2 5 5 6 31#9 7#32) s_2).qeOut 3 2 fun x ↦ true) =
                  true ∨
              Nat.testBit 31 4 = true ∧
                ((plantI (Instr.seqFence 3 2 5 5 6 31#9 7#32) s_2).buWork 3 2 fun x ↦ true) =
                  true) ∧
      (readyI (Instr.seqFence 3 2 5 5 6 31#9 7#32)
          (plantI (Instr.seqFence 3 2 5 5 6 31#9 7#32) s_2) =
        true) ∧
      (chartDistrictOf (plantI (Instr.seqHeadEnd 3 2 5 5 6 0#9 7#32) s_2).chartLive 3 = some 2) ∧
      ((plantI (Instr.seqHeadEnd 3 2 5 5 6 0#9 7#32) s_2).bit (R.SEQ_THR_CFG_active 3 2) = true) ∧
      ((plantI (Instr.seqHeadEnd 3 2 5 5 6 0#9 7#32) s_2).thrStepAt 50 =
          (plantI (Instr.seqHeadEnd 3 2 5 5 6 0#9 7#32) s_2).tideFirst ∨
        (plantI (Instr.seqHeadEnd 3 2 5 5 6 0#9 7#32) s_2).thrStepAt 50 = 0 ∨
          (plantI (Instr.seqHeadEnd 3 2 5 5 6 0#9 7#32) s_2).stepDone 2
              ((plantI (Instr.seqHeadEnd 3 2 5 5 6 0#9 7#32) s_2).thrStepAt 50 - 1) =
            true) ∧
      (readyI (Instr.seqHeadEnd 3 2 5 5 6 0#9 7#32)
          (plantI (Instr.seqHeadEnd 3 2 5 5 6 0#9 7#32) s_2) =
        true) ∧
      (chartDistrictOf (plantI (Instr.seqStepEnd 3 2 5 5 6 0#9 7#32) s_2).chartLive 3 = some 2) ∧
      ((plantI (Instr.seqStepEnd 3 2 5 5 6 0#9 7#32) s_2).bit (R.SEQ_THR_CFG_active 3 2) = true) ∧
      ((plantI (Instr.seqStepEnd 3 2 5 5 6 0#9 7#32) s_2).stepBusy 3 2
          ((plantI (Instr.seqStepEnd 3 2 5 5 6 0#9 7#32) s_2).thrStepAt 50) =
        false) ∧
      ((plantI (Instr.seqStepEnd 3 2 5 5 6 0#9 7#32) s_2).edge ≤
        (plantI (Instr.seqStepEnd 3 2 5 5 6 0#9 7#32) s_2).thrStepAt 50) ∧
      (readyI (Instr.seqStepEnd 3 2 5 5 6 0#9 7#32)
          (plantI (Instr.seqStepEnd 3 2 5 5 6 0#9 7#32) s_2) =
        true)) ∧
    ((chartDistrictOf (plantI (Instr.seqHeadEnd 3 2 5 5 6 0#9 7#32) s_3).chartLive 3 = some 2) ∧
      ((plantI (Instr.seqHeadEnd 3 2 5 5 6 0#9 7#32) s_3).bit (R.SEQ_THR_CFG_active 3 2) = true) ∧
      (¬((plantI (Instr.seqHeadEnd 3 2 5 5 6 0#9 7#32) s_3).thrStepAt 50 =
            (plantI (Instr.seqHeadEnd 3 2 5 5 6 0#9 7#32) s_3).tideFirst ∨
          (plantI (Instr.seqHeadEnd 3 2 5 5 6 0#9 7#32) s_3).thrStepAt 50 = 0 ∨
            (plantI (Instr.seqHeadEnd 3 2 5 5 6 0#9 7#32) s_3).stepDone 2
                ((plantI (Instr.seqHeadEnd 3 2 5 5 6 0#9 7#32) s_3).thrStepAt 50 - 1) =
              true)) ∧
      (readyI (Instr.seqHeadEnd 3 2 5 5 6 0#9 7#32)
          (plantI (Instr.seqHeadEnd 3 2 5 5 6 0#9 7#32) s_3) =
        true) ∧
      (chartDistrictOf (plantI (Instr.seqStepEnd 3 2 5 5 6 0#9 7#32) s_3).chartLive 3 = some 2) ∧
      ((plantI (Instr.seqStepEnd 3 2 5 5 6 0#9 7#32) s_3).bit (R.SEQ_THR_CFG_active 3 2) = true) ∧
      ((plantI (Instr.seqStepEnd 3 2 5 5 6 0#9 7#32) s_3).stepBusy 3 2
          ((plantI (Instr.seqStepEnd 3 2 5 5 6 0#9 7#32) s_3).thrStepAt 50) =
        false) ∧
      ((plantI (Instr.seqStepEnd 3 2 5 5 6 0#9 7#32) s_3).thrStepAt 50 <
        (plantI (Instr.seqStepEnd 3 2 5 5 6 0#9 7#32) s_3).edge) ∧
      (readyI (Instr.seqStepEnd 3 2 5 5 6 0#9 7#32)
          (plantI (Instr.seqStepEnd 3 2 5 5 6 0#9 7#32) s_3) =
        true)) ∧
    ((chartDistrictOf (plantI (Instr.seqStepEnd 3 2 5 5 6 0#9 7#32) s_4).chartLive 3 = some 2) ∧
      ((plantI (Instr.seqStepEnd 3 2 5 5 6 0#9 7#32) s_4).bit (R.SEQ_THR_CFG_active 3 2) = true) ∧
      ((plantI (Instr.seqStepEnd 3 2 5 5 6 0#9 7#32) s_4).stepBusy 3 2
          ((plantI (Instr.seqStepEnd 3 2 5 5 6 0#9 7#32) s_4).thrStepAt 50) =
        true) ∧
      (readyI (Instr.seqStepEnd 3 2 5 5 6 0#9 7#32)
          (plantI (Instr.seqStepEnd 3 2 5 5 6 0#9 7#32) s_4) =
        true)) :=
    ⟨(by decide +kernel),
    (by decide +kernel),
    (by decide +kernel),
    (by decide +kernel)⟩

def s_5 : State := ab 4 100 []
def s_6 : State := ab 4 100 [putThr 3 2 THR_TRAPPED]
def s_7 : State := ab 4 100 [wt 3 4]
def s_8 : State := ab 4 100 [putThr 3 2 THR_KILLED]
/-- ThreadControl: states and operands that meet the hypotheses of its clauses. -/
theorem test_thread_control :
    ((writable (Agent.core 2) 49 136 s_5) ∧
      (s_5.thr 3 2 = THR_RUN) ∧
      (s_5.bit (R.PBX_THR_WAIT_waiting 3 2) = false) ∧
      (s_5.thr 3 2 ≠ THR_TRAPPED) ∧
      (s_5.thr 3 2 ≠ THR_HALTED) ∧
      (s_5.thr 3 2 ≠ THR_KILLED)) ∧
    ((writable (Agent.host 1) 49 136 s_6) ∧
      (s_6.thr 3 2 ≠ THR_RUN) ∧
      (s_6.thr 3 2 ≠ THR_WAIT) ∧
      (s_6.thr 3 2 = THR_TRAPPED ∨ s_6.thr 3 2 = THR_HALTED)) ∧
    ((writable (Agent.core 2) 49 136 s_7) ∧
      (s_7.thr 3 2 = THR_WAIT) ∧
      (s_7.bit (R.PBX_THR_WAIT_waiting 3 2) = true) ∧
      (s_7.get (R.PBX_THR_WAIT_target 3 2) < 48)) ∧
    ((writable (Agent.host 1) 49 136 s_8) ∧
      (s_8.thr 3 2 = THR_KILLED)) :=
    ⟨(by unfold writable; decide +kernel),
    (by unfold writable; decide +kernel),
    (by unfold writable; decide +kernel),
    (by unfold writable; decide +kernel)⟩

end SeqFlow

namespace SeqMemory

def th (l : List Eff) : State := mk ([put (R.SEQ_THR_STATUS_state 3 2) 1, put (R.SEQ_THR_PC_pc 3 2) 0x1080, .upd (.now 50), put (ownFld 3 0) 1, pokeBytes (sramAddr 3 0x100) ((List.range 100).map fun i => BitVec.ofNat 8 (250 - i))] ++ l)
def ab (x y : Word) (l : List Eff) := th ([putSreg 3 2 5 x, putSreg 3 2 6 y] ++ l)
def x0 : Access := ⟨6, true, false, 4, 2, true, 0x77, 0x1070, some ⟨ST_OK, [1, 0x80], [false, false]⟩⟩
def x1 : Access := {x0 with answer := some ⟨ST_POISON, [1, 0x80], [false, false]⟩}
def x2 : Access := {x0 with addr := sramAddr 3 0x104}
def ln : IcLine := ⟨0x1080, List.replicate 128 3⟩

def s_1 : State := ab (BitVec.ofNat 64 (sramAddr 3 0x104)) 0x123456789abcdef []
def s_2 : State := ab (BitVec.ofNat 64 (sramAddr 3 0x105)) 0x123456789abcdef []
/-- SeqLoadStore: states and operands that meet the hypotheses of its clauses. -/
theorem test_seq_load_store :
    (((BitVec.toNat
            ((plantI (Instr.seqLd 3 2 1 5 6 7#9 4294967292#32) s_1).sreg 3 2 5 +
              BitVec.signExtend 64 4294967292#32) %
          8 =
        0) ∧
      (∀ x ∈ (plantI (Instr.seqLd 3 2 1 5 6 7#9 4294967292#32) s_1).loadsAt 50,
        x.tag ≤ (plantI (Instr.seqLd 3 2 1 5 6 7#9 4294967292#32) s_1).tagNext) ∧
      (readyI (Instr.seqLd 3 2 1 5 6 7#9 4294967292#32)
          (plantI (Instr.seqLd 3 2 1 5 6 7#9 4294967292#32) s_1) =
        true) ∧
      (BitVec.toNat
            ((plantI (Instr.seqSt 3 2 1 5 6 11#9 4294967292#32) s_1).sreg 3 2 5 +
              BitVec.signExtend 64 4294967292#32) %
          8 =
        0) ∧
      (∀ x ∈ (plantI (Instr.seqSt 3 2 1 5 6 11#9 4294967292#32) s_1).loadsAt 50,
        x.tag ≤ (plantI (Instr.seqSt 3 2 1 5 6 11#9 4294967292#32) s_1).tagNext) ∧
      (readyI (Instr.seqSt 3 2 1 5 6 11#9 4294967292#32)
          (plantI (Instr.seqSt 3 2 1 5 6 11#9 4294967292#32) s_1) =
        true)) ∧
      (memReady (plantI (Instr.seqLd 3 2 1 5 6 7#9 4294967292#32) s_1) (Agent.thread 3 2)
        (BitVec.toNat
          ((plantI (Instr.seqLd 3 2 1 5 6 7#9 4294967292#32) s_1).sreg 3 2 5 +
            BitVec.signExtend 64 4294967292#32))
        8) ∧
      (memReady (plantI (Instr.seqSt 3 2 1 5 6 11#9 4294967292#32) s_1) (Agent.thread 3 2)
        (BitVec.toNat
          ((plantI (Instr.seqSt 3 2 1 5 6 11#9 4294967292#32) s_1).sreg 3 2 5 +
            BitVec.signExtend 64 4294967292#32))
        8)) ∧
    ((BitVec.toNat
            ((plantI (Instr.seqLd 3 2 1 5 6 5#9 4294967292#32) s_2).sreg 3 2 5 +
              BitVec.signExtend 64 4294967292#32) %
          2 ≠
        0) ∧
      (readyI (Instr.seqLd 3 2 1 5 6 5#9 4294967292#32)
          (plantI (Instr.seqLd 3 2 1 5 6 5#9 4294967292#32) s_2) =
        true) ∧
      (BitVec.toNat
            ((plantI (Instr.seqSt 3 2 1 5 6 9#9 4294967292#32) s_2).sreg 3 2 5 +
              BitVec.signExtend 64 4294967292#32) %
          2 ≠
        0) ∧
      (readyI (Instr.seqSt 3 2 1 5 6 9#9 4294967292#32)
          (plantI (Instr.seqSt 3 2 1 5 6 9#9 4294967292#32) s_2) =
        true)) :=
    ⟨And.imp id (And.imp memReady_of memReady_of) (by decide +kernel),
    (by decide +kernel)⟩

def x_1 : Access := x0
def r_1 : Resp := ⟨ST_OK, [1, 0x80], [false, false]⟩
def s_3 : State := ab 4 4 [.upd (.loads 50 [{x0 with answer := none}, x0, x0])]
def x_2 : Access := {x0 with load := false, waits := true}
def r_2 : Resp := ⟨ST_OK, [1, 0x80], [false, false]⟩
def s_4 : State := ab 4 4 [.upd (.loads 50 [{x0 with answer := none}, {x0 with load := false, waits := true}, x0])]
def x_3 : Access := {x0 with load := false, waits := false}
def r_3 : Resp := ⟨ST_OK, [1, 0x80], [false, false]⟩
def s_5 : State := ab 4 4 [.upd (.loads 50 [{x0 with answer := none}, {x0 with load := false, waits := false}, x0])]
def x_4 : Access := x1
def r_4 : Resp := ⟨ST_POISON, [1, 0x80], [false, false]⟩
def s_6 : State := ab 4 4 [.upd (.loads 50 [{x0 with answer := none}, x1, x0])]
def x_5 : Access := x2
def r_5 : Resp := ⟨ST_OK, [1, 0x80], [false, false]⟩
def s_7 : State := ab 4 4 [.upd (.loads 50 [{x0 with answer := none}, x2, x0])]
/-- LoadResponses: states and operands that meet the hypotheses of its clauses. -/
theorem test_load_responses :
    ((s_3.power ≠ Power.off) ∧
      (x_1.dest < 32) ∧
      (List.find? (fun y ↦ y.answer.isSome) (s_3.loadsAt 50) = some x_1) ∧
      (x_1.answer = some r_1) ∧
      (r_1.status = ST_OK) ∧
      (x_1.load = true) ∧
      (x_1.load = true ∧ inSram x_1.addr = true ∧ 0 ≠ 0 → 0 < 5)) ∧
    ((s_4.power ≠ Power.off) ∧
      (x_2.dest < 32) ∧
      (List.find? (fun y ↦ y.answer.isSome) (s_4.loadsAt 50) = some x_2) ∧
      (x_2.answer = some r_2) ∧
      (r_2.status = ST_OK) ∧
      (x_2.load = false) ∧
      (x_2.waits = true)) ∧
    ((s_5.power ≠ Power.off) ∧
      (x_3.dest < 32) ∧
      (List.find? (fun y ↦ y.answer.isSome) (s_5.loadsAt 50) = some x_3) ∧
      (x_3.answer = some r_3) ∧
      (r_3.status = ST_OK) ∧
      (x_3.load = false) ∧
      (x_3.waits = false)) ∧
    ((s_6.power ≠ Power.off) ∧
      (x_4.dest < 32) ∧
      (List.find? (fun y ↦ y.answer.isSome) (s_6.loadsAt 50) = some x_4) ∧
      (x_4.answer = some r_4) ∧
      (r_4.status ≠ ST_OK) ∧
      (r_4.status < 256) ∧
      (s_6.thr 3 2 = THR_RUN) ∧
      (s_6.bit (R.PBX_THR_WAIT_waiting 3 2) = false)) ∧
    ((s_7.power ≠ Power.off) ∧
      (x_5.dest < 32) ∧
      (List.find? (fun y ↦ y.answer.isSome) (s_7.loadsAt 50) = some x_5) ∧
      (x_5.answer = some r_5) ∧
      (r_5.status = ST_OK) ∧
      (x_5.load = true) ∧
      (inSram x_5.addr = true) ∧
      (s_7.thr 3 2 = THR_RUN) ∧
      (s_7.bit (R.PBX_THR_WAIT_waiting 3 2) = false)) :=
    ⟨(by decide +kernel),
    (by decide +kernel),
    (by decide +kernel),
    (by decide +kernel),
    (by decide +kernel)⟩

def l_1 : IcLine := ln
def s_8 : State := ab 4 4 [.upd (.icache 225 [ln]), pokeBytes 0x1080 [1,2,3]]
def s_9 : State := ab 4 4 [.upd (.icache 200 [⟨0x3080, []⟩]), pokeBytes 0x1080 [1,2,3]]
/-- InstructionCache: states and operands that meet the hypotheses of its clauses. -/
theorem test_instruction_cache :
    (((s_8.power ≠ Power.off) ∧
      (s_8.thr 3 2 = THR_RUN) ∧
      (s_8.icLine 3 (s_8.pc 3 2) = some l_1) ∧
      (writable (Agent.core 1) 49 8192 s_8)) ∧
      ((s_8.icLine 3 (s_8.pc 3 2)).isSome = true ∨
        memReady s_8 (Agent.thread 3 2) (s_8.pc 3 2 / 128 * 128) 128)) ∧
    (((s_9.power ≠ Power.off) ∧
      (s_9.thr 3 2 = THR_RUN) ∧
      (s_9.icLine 3 (s_9.pc 3 2) = none)) ∧
      (memReady s_9 (Agent.thread 3 2) (s_9.pc 3 2 / 128 * 128) 128)) :=
    ⟨⟨by unfold writable; decide +kernel,
      Or.inl (by decide +kernel)⟩,
    And.imp id memReady_of (by decide +kernel)⟩

end SeqMemory

namespace Sram

def th (l : List Eff) : State := mk ([put (R.SEQ_THR_STATUS_state 3 2) 1, put (R.SEQ_THR_PC_pc 3 2) 0x1080, .upd (.now 50), pokeBytes (sramAddr 3 0x100) ((List.range 100).map fun i => BitVec.ofNat 8 (250 - i))] ++ l)
def ab (x y : Word) (l : List Eff) := th ([putSreg 3 2 5 x, putSreg 3 2 6 y] ++ l)
def cbs (hi d : Nat) := th [pokeBytes 0 [], .all ((List.range 128).map fun i => putReg (cbKey 3 7 i) (BitVec.ofNat 64 (i * 0x0101 + 1)))]

def s_1 : State := ab 0x1234 4 [put (ownFld 3 5) 1]
def s_2 : State := ab 0x123B 4 [put (ownFld 3 5) 10]
def s_3 : State := ab 0x1235 4 [put (ownFld 3 5) 0x5A]
/-- BankOwnership: states and operands that meet the hypotheses of its clauses. -/
theorem test_bank_ownership :
    (((plantI (Instr.seqOwn 3 2 1 5 6 0#9 5#32) s_1).mayOwn (Agent.thread 3 2) 3 5 = true) ∧
      (readyI (Instr.seqOwn 3 2 1 5 6 0#9 5#32) (plantI (Instr.seqOwn 3 2 1 5 6 0#9 5#32) s_1) =
        true) ∧
      (writable (Agent.core 3) 48 24 s_1)) ∧
    (((plantI (Instr.seqOwn 3 2 1 5 6 0#9 5#32) s_2).mayOwn (Agent.thread 3 2) 3 5 = false) ∧
      (readyI (Instr.seqOwn 3 2 1 5 6 0#9 5#32) (plantI (Instr.seqOwn 3 2 1 5 6 0#9 5#32) s_2) =
        true)) ∧
    ((s_3.power ≠ Power.off)) :=
    ⟨(by unfold writable; decide +kernel),
    (by decide +kernel),
    (by decide +kernel)⟩

def bs_1 : List Byte := [1,2,3,4]
def s_4 : State := th [put (ownFld 3 0) 0xFF9]
def bs_2 : List Byte := [1,2,3,4]
def s_5 : State := th [put (ownFld 3 0) 0x8]
/-- SramAccesses: states and operands that meet the hypotheses of its clauses. -/
theorem test_sram_accesses :
    ((s_4.power ≠ Power.off) ∧
      (s_4.mapStatus (sramAddr 3 260) 8 = ST_OK) ∧
      (sramReady s_4 3 260 8 (s_4.accClass (Agent.core 1) 3)) ∧
      (s_4.mapStatus (sramAddr 3 260) bs_1.length = ST_OK) ∧
      (sramReady s_4 3 260 bs_1.length
        (s_4.accClass (Agent.core 1) 3)) ∧
      (s_4.refusedBank 3 260 8 (s_4.accClass (Agent.core 1) 3) = none) ∧
      (∀ w ∈ wordsOf (sramAddr 3 260) 8, s_4.marksAt (w / 8) = SramMark.good) ∧
      (bs_1.length = 4 ∨ bs_1.length = 8) ∧
      (260 % bs_1.length = 0) ∧
      (s_4.mapStatus (sramWay 3 2 260) bs_1.length = ST_OK)) ∧
    ((s_5.power ≠ Power.off) ∧
      (s_5.mapStatus (sramAddr 3 260) 8 = ST_OK) ∧
      (s_5.refusedBank 3 260 8 (s_5.accClass (Agent.core 1) 3) = some 0) ∧
      (s_5.mapStatus (sramAddr 3 260) bs_2.length = ST_OK) ∧
      (s_5.refusedBank 3 260 bs_2.length
          (s_5.accClass (Agent.core 1) 3) =
        some 0)) :=
    ⟨(by unfold sramReady; decide +kernel),
    (by decide +kernel)⟩

def v_1 : Word := 0
def s_6 : State := cbs 0 0
def v_2 : Word := 1
def s_7 : State := th [.all ((List.range 2).map fun i => putReg (cbKey 3 7 i) (if i = 0 then 0x3028201810080400 else 0x7068605850484038))]
/-- CodebookDescriptors: states and operands that meet the hypotheses of its clauses. -/
theorem test_codebook_descriptors :
    (((writable (Agent.core 1) 59 8184 s_6)) ∧
      (¬((BitVec.toNat v_1 % 16 % 2 = 1 ∧
            BitVec.toNat v_1 % 16 / 4 ≠ 3 ∧
              (BitVec.toNat v_1 % 16 / 2 % 2 = 1 →
                BitVec.toNat v_1 % 16 / 4 = 2)) ∧
          ∀ (i : Nat),
            (i + 1 < if BitVec.toNat v_1 % 16 / 2 % 2 = 0 then 16 else 256) →
              (cbEntry
                      (if BitVec.toNat v_1 % 16 / 4 = 0 then Fmt.e4m3
                      else if BitVec.toNat v_1 % 16 / 4 = 1 then Fmt.e5m2 else Fmt.bf16)
                      (s_6.cbBytes 3 7) i).lt
                  (cbEntry
                    (if BitVec.toNat v_1 % 16 / 4 = 0 then Fmt.e4m3
                    else if BitVec.toNat v_1 % 16 / 4 = 1 then Fmt.e5m2 else Fmt.bf16)
                    (s_6.cbBytes 3 7) (i + 1)) =
                true))) ∧
    (((writable (Agent.core 1) 59 8184 s_7) ∧
      (BitVec.toNat v_2 % 16 % 2 = 1) ∧
      (BitVec.toNat v_2 % 16 / 4 ≠ 3) ∧
      (BitVec.toNat v_2 % 16 / 2 % 2 = 1 →
        BitVec.toNat v_2 % 16 / 4 = 2)) ∧
      (∀ (i : Nat),
        (i + 1 < if BitVec.toNat v_2 % 16 / 2 % 2 = 0 then 16 else 256) →
          (cbEntry
                  (if BitVec.toNat v_2 % 16 / 4 = 0 then Fmt.e4m3
                  else if BitVec.toNat v_2 % 16 / 4 = 1 then Fmt.e5m2 else Fmt.bf16)
                  (s_7.cbBytes 3 7) i).lt
              (cbEntry
                (if BitVec.toNat v_2 % 16 / 4 = 0 then Fmt.e4m3
                else if BitVec.toNat v_2 % 16 / 4 = 1 then Fmt.e5m2 else Fmt.bf16)
                (s_7.cbBytes 3 7) (i + 1)) =
            true)) :=
    ⟨⟨by unfold writable; decide +kernel,
      fun h => absurd h.1 (by decide +kernel)⟩,
    ⟨by unfold writable; decide +kernel,
      fun i hi => (by decide +kernel : ∀ i < 15, (cbEntry .e4m3 (s_7.cbBytes 3 7) i).lt (cbEntry .e4m3 (s_7.cbBytes 3 7) (i + 1)) = true) i (Nat.lt_sub_of_add_lt hi)⟩⟩

end Sram

namespace Vector

def src (k : Nat) : List Byte := (List.range 64).map fun i => BitVec.ofNat 8 ((i * 37 + k) % 0x60)
def vs (op : Nat) (sf df n mode b : Nat) : State := mk [.upd (.now 50), put (ownFld 3 0) 1, pokeBytes (sramAddr 3 0x100) (src 3), pokeBytes (sramAddr 3 0x200) (src 9), pokeBytes (sramAddr 3 0x400) (src 5), .upd (.vecQ 3 [⟨2, 0x1000, 1, op, mode, n, sf, df, 0x400, 0x100, b⟩, ⟨2,0,0,0,0,0,0,0,0,0,0⟩]), put (R.VEC_OPS_count 3) 4]

def s_1 : State := vs 0 2 2 8 0 0x200
/-- VectorCollisions: states and operands that meet the hypotheses of its clauses. -/
theorem test_vector_collisions :
    ((s_1.power ≠ Power.off)) :=
    by decide +kernel

end Vector

namespace Issue

def base := [put (R.SEQ_THR_STATUS_state 3 2) 1, put (R.SEQ_THR_PC_pc 3 2) 0x1000, putBit (R.FEED_CTRL_enable 3) true]
def desc : List Byte := [0,0,0,0, 3,0, 1,0] ++ toLE 8 0 ++ toLE 4 0 ++ toLE 4 128 ++ toLE 4 0 ++ [0xff,0,0,0xff] ++ toLE 4 0x400 ++ toLE 4 64 ++ toLE 4 0xffffffff ++ toLE 4 0 ++ toLE 4 0xffffffff ++ toLE 4 0xffffffff ++ toLE 8 0
def s1 (cls : Nat) (l : List Eff) := mk (base ++ [put (ownFld 3 0) cls, pokeBytes (sramAddr 3 0x100) desc, putSreg 3 2 5 0x100, putSreg 3 2 6 0] ++ l)
def a := s1 1 []
def b := s1 1 [pokeBytes (sramAddr 3 0x100) [0x77]]
def f := s1 1 [.upd (.passQ 3 (List.replicate 32 (passNew 1 0 0 none desc))), .upd (.vecQ 3 (List.replicate 16 ⟨0,0,0,0,0,0,0,0,0,0,0⟩)),
  .upd (.qeQ 24 (List.replicate 64 (qeParse desc 0 0 none)))]
def g := s1 1 [putBit (R.BU_STATUS_mode 8 0) true, pokeBytes (sramAddr 3 0x100) (List.replicate 8 0)]
def r6 := s1 6 []
def r6b := s1 6 [pokeBytes (sramAddr 3 0x100) [0x77]]
def r6c := s1 6 [putBit (R.FEED_CTRL_enable 3) false]
def r5 := s1 5 []
def r5c := s1 5 [.upd (.qeQ 25 (List.replicate 64 (qeParse desc 0 0 none)))]
def r9 := s1 (9 + 16 * 3) []
def r9b := s1 (9 + 16 * 3) [putBit (R.BU_STATUS_mode 3 0) true, pokeBytes (sramAddr 3 0x100) (List.replicate 8 0)]
def z1 := s1 1 [pokeBytes (sramAddr 3 0x100) (List.replicate 64 0)]
def z5 := s1 5 [pokeBytes (sramAddr 3 0x100) (List.replicate 64 0)]
def g2 := s1 1 [putBit (R.BU_STATUS_mode 8 0) true, pokeBytes (sramAddr 3 0x100) (List.replicate 8 0), .upd (.buQ 64 (List.replicate 16 (buParse desc 0 0 none false)))]

def s_1 : State := a
def s_2 : State := f
def s_3 : State := b
def s_4 : State := g
def s_5 : State := z1
def s_6 : State := g2
/-- SeqIssue: states and operands that meet the hypotheses of its clauses. -/
theorem test_seq_issue :
    ((descReady (plantI (Instr.seqPass 3 2 1 5 6 (0#9) (35651648#32) 0) s_1) 3 2
        (BitVec.toNat ((plantI (Instr.seqPass 3 2 1 5 6 (0#9) (35651648#32) 0) s_1).sreg 3 2 5)) 64) ∧
      ((plantI (Instr.seqPass 3 2 1 5 6 (0#9) (35651648#32) 0) s_1).passCheck 3
          (passNew (plantI (Instr.seqPass 3 2 1 5 6 (0#9) (35651648#32) 0) s_1).tagNext
            (sramAddr 3
              (BitVec.toNat
                ((plantI (Instr.seqPass 3 2 1 5 6 (0#9) (35651648#32) 0) s_1).sreg 3 2 5)))
            ((plantI (Instr.seqPass 3 2 1 5 6 (0#9) (35651648#32) 0) s_1).thrStepAt 50) (some 2)
            ((plantI (Instr.seqPass 3 2 1 5 6 (0#9) (35651648#32) 0) s_1).bytes
              (sramAddr 3
                (BitVec.toNat
                  ((plantI (Instr.seqPass 3 2 1 5 6 (0#9) (35651648#32) 0) s_1).sreg 3 2 5)))
              64)) =
        ST_OK) ∧
      (readyI (Instr.seqPass 3 2 1 5 6 (0#9) (35651648#32) 0)
          (plantI (Instr.seqPass 3 2 1 5 6 (0#9) (35651648#32) 0) s_1) =
        true) ∧
      (descReady (plantI (Instr.seqQe 3 2 1 5 6 (0#9) (35651648#32) 0) s_1) 3 2
        (BitVec.toNat ((plantI (Instr.seqQe 3 2 1 5 6 (0#9) (35651648#32) 0) s_1).sreg 3 2 5)) 64) ∧
      ((plantI (Instr.seqQe 3 2 1 5 6 (0#9) (35651648#32) 0) s_1).qeRejects 3
          ((plantI (Instr.seqQe 3 2 1 5 6 (0#9) (35651648#32) 0) s_1).bytes
            (sramAddr 3
              (BitVec.toNat ((plantI (Instr.seqQe 3 2 1 5 6 (0#9) (35651648#32) 0) s_1).sreg 3 2 5)))
            64)
          (qeParse
            ((plantI (Instr.seqQe 3 2 1 5 6 (0#9) (35651648#32) 0) s_1).bytes
              (sramAddr 3
                (BitVec.toNat
                  ((plantI (Instr.seqQe 3 2 1 5 6 (0#9) (35651648#32) 0) s_1).sreg 3 2 5)))
              64)
            (plantI (Instr.seqQe 3 2 1 5 6 (0#9) (35651648#32) 0) s_1).tagNext
            ((plantI (Instr.seqQe 3 2 1 5 6 (0#9) (35651648#32) 0) s_1).thrStepAt 50) (some 2)) =
        true) ∧
      (readyI (Instr.seqQe 3 2 1 5 6 (0#9) (35651648#32) 0)
          (plantI (Instr.seqQe 3 2 1 5 6 (0#9) (35651648#32) 0) s_1) =
        true) ∧
      (descReady
        (plantI (Instr.seqBuc 3 2 1 5 6 (if true = true then 1#9 else 0#9) (35651648#32) 0) s_1) 3 2
        (BitVec.toNat
          ((plantI (Instr.seqBuc 3 2 1 5 6 (if true = true then 1#9 else 0#9) (35651648#32) 0)
                s_1).sreg
            3 2 5))
        16) ∧
      ((plantI (Instr.seqBuc 3 2 1 5 6 (if true = true then 1#9 else 0#9) (35651648#32) 0)
              s_1).buStatus
          64
          (buParse
            ((plantI (Instr.seqBuc 3 2 1 5 6 (if true = true then 1#9 else 0#9) (35651648#32) 0)
                  s_1).bytes
              (sramAddr 3
                (BitVec.toNat
                  ((plantI (Instr.seqBuc 3 2 1 5 6 (if true = true then 1#9 else 0#9) (35651648#32) 0)
                        s_1).sreg
                    3 2 5)))
              64)
            (plantI (Instr.seqBuc 3 2 1 5 6 (if true = true then 1#9 else 0#9) (35651648#32) 0)
                s_1).tagNext
            ((plantI (Instr.seqBuc 3 2 1 5 6 (if true = true then 1#9 else 0#9) (35651648#32) 0)
                  s_1).thrStepAt
              50)
            (some (3, 2)) true) ≠
        ST_OK) ∧
      (readyI (Instr.seqBuc 3 2 1 5 6 (if true = true then 1#9 else 0#9) (35651648#32) 0)
          (plantI (Instr.seqBuc 3 2 1 5 6 (if true = true then 1#9 else 0#9) (35651648#32) 0) s_1) =
        true) ∧
      ((plantI (Instr.seqVop 3 2 1 5 6 0#9 35651648#32) s_1).vecCheck 3
          (vopOf (plantI (Instr.seqVop 3 2 1 5 6 0#9 35651648#32) s_1) 3 2 1 5 6 0 35651648) =
        ST_OK) ∧
      (readyI (Instr.seqVop 3 2 1 5 6 0#9 35651648#32)
          (plantI (Instr.seqVop 3 2 1 5 6 0#9 35651648#32) s_1) =
        true)) ∧
    ((s_2.passRoom 3 = false) ∧
      (s_2.vecRoom 3 = false) ∧
      (s_2.qeRoom 3 0 = false)) ∧
    ((descReady (plantI (Instr.seqPass 3 2 1 5 6 (0#9) (64#32) 0) s_3) 3 2
        (BitVec.toNat ((plantI (Instr.seqPass 3 2 1 5 6 (0#9) (64#32) 0) s_3).sreg 3 2 5)) 64) ∧
      ((plantI (Instr.seqPass 3 2 1 5 6 (0#9) (64#32) 0) s_3).passCheck 3
          (passNew (plantI (Instr.seqPass 3 2 1 5 6 (0#9) (64#32) 0) s_3).tagNext
            (sramAddr 3
              (BitVec.toNat ((plantI (Instr.seqPass 3 2 1 5 6 (0#9) (64#32) 0) s_3).sreg 3 2 5)))
            ((plantI (Instr.seqPass 3 2 1 5 6 (0#9) (64#32) 0) s_3).thrStepAt 50) (some 2)
            ((plantI (Instr.seqPass 3 2 1 5 6 (0#9) (64#32) 0) s_3).bytes
              (sramAddr 3
                (BitVec.toNat ((plantI (Instr.seqPass 3 2 1 5 6 (0#9) (64#32) 0) s_3).sreg 3 2 5)))
              64)) ≠
        ST_OK) ∧
      (readyI (Instr.seqPass 3 2 1 5 6 (0#9) (64#32) 0)
          (plantI (Instr.seqPass 3 2 1 5 6 (0#9) (64#32) 0) s_3) =
        true) ∧
      ((plantI (Instr.seqVop 3 2 1 5 6 52#9 64#32) s_3).vecCheck 3
          (vopOf (plantI (Instr.seqVop 3 2 1 5 6 52#9 64#32) s_3) 3 2 1 5 6 52 64) ≠
        ST_OK) ∧
      (readyI (Instr.seqVop 3 2 1 5 6 52#9 64#32) (plantI (Instr.seqVop 3 2 1 5 6 52#9 64#32) s_3) =
        true)) ∧
    ((descReady
        (plantI (Instr.seqBuc 3 2 1 5 6 (if false = true then 1#9 else 0#9) (35651648#32) 0) s_4) 3 2
        (BitVec.toNat
          ((plantI (Instr.seqBuc 3 2 1 5 6 (if false = true then 1#9 else 0#9) (35651648#32) 0)
                s_4).sreg
            3 2 5))
        16) ∧
      ((plantI (Instr.seqBuc 3 2 1 5 6 (if false = true then 1#9 else 0#9) (35651648#32) 0)
              s_4).buStatus
          64
          (buParse
            ((plantI (Instr.seqBuc 3 2 1 5 6 (if false = true then 1#9 else 0#9) (35651648#32) 0)
                  s_4).bytes
              (sramAddr 3
                (BitVec.toNat
                  ((plantI (Instr.seqBuc 3 2 1 5 6 (if false = true then 1#9 else 0#9) (35651648#32) 0)
                        s_4).sreg
                    3 2 5)))
              64)
            (plantI (Instr.seqBuc 3 2 1 5 6 (if false = true then 1#9 else 0#9) (35651648#32) 0)
                s_4).tagNext
            ((plantI (Instr.seqBuc 3 2 1 5 6 (if false = true then 1#9 else 0#9) (35651648#32) 0)
                  s_4).thrStepAt
              50)
            (some (3, 2)) false) =
        ST_OK) ∧
      (readyI (Instr.seqBuc 3 2 1 5 6 (if false = true then 1#9 else 0#9) (35651648#32) 0)
          (plantI (Instr.seqBuc 3 2 1 5 6 (if false = true then 1#9 else 0#9) (35651648#32) 0) s_4) =
        true)) ∧
    ((descReady (plantI (Instr.seqQe 3 2 1 5 6 (0#9) (35651650#32) 0) s_5) 3 2
        (BitVec.toNat ((plantI (Instr.seqQe 3 2 1 5 6 (0#9) (35651650#32) 0) s_5).sreg 3 2 5)) 64) ∧
      ((plantI (Instr.seqQe 3 2 1 5 6 (0#9) (35651650#32) 0) s_5).qeRejects 3
          ((plantI (Instr.seqQe 3 2 1 5 6 (0#9) (35651650#32) 0) s_5).bytes
            (sramAddr 3
              (BitVec.toNat ((plantI (Instr.seqQe 3 2 1 5 6 (0#9) (35651650#32) 0) s_5).sreg 3 2 5)))
            64)
          (qeParse
            ((plantI (Instr.seqQe 3 2 1 5 6 (0#9) (35651650#32) 0) s_5).bytes
              (sramAddr 3
                (BitVec.toNat
                  ((plantI (Instr.seqQe 3 2 1 5 6 (0#9) (35651650#32) 0) s_5).sreg 3 2 5)))
              64)
            (plantI (Instr.seqQe 3 2 1 5 6 (0#9) (35651650#32) 0) s_5).tagNext
            ((plantI (Instr.seqQe 3 2 1 5 6 (0#9) (35651650#32) 0) s_5).thrStepAt 50) (some 2)) =
        false) ∧
      (readyI (Instr.seqQe 3 2 1 5 6 (0#9) (35651650#32) 0)
          (plantI (Instr.seqQe 3 2 1 5 6 (0#9) (35651650#32) 0) s_5) =
        true)) ∧
    ((s_6.buRoom 64 = false)) :=
    ⟨(by unfold descReady sramReady; decide +kernel),
    (by decide +kernel),
    (by unfold descReady sramReady; decide +kernel),
    (by unfold descReady sramReady; decide +kernel),
    (by unfold descReady sramReady; decide +kernel),
    (by decide +kernel)⟩

def s_7 : State := r6
def s_8 : State := r6b
def s_9 : State := r6c
def s_10 : State := r5
def s_11 : State := r5c
def s_12 : State := r9
def s_13 : State := r9b
def s_14 : State := z5
def s_15 : State := r9
/-- RegisterIssue: states and operands that meet the hypotheses of its clauses. -/
theorem test_register_issue_1 :
    ((writable (Agent.core 0) 50 16 s_7) ∧
      (sramReady s_7 3 256 64 (6, 0)) ∧
      (s_7.passCount 3 < 32) ∧
      (s_7.bit (R.FEED_CTRL_enable 3) = true) ∧
      (s_7.passCheck 3
          (passNew s_7.tagNext (sramAddr 3 256) 0 none
            (s_7.bytes (sramAddr 3 256) 64)) =
        ST_OK)) ∧
    ((writable (Agent.core 0) 50 16 s_8) ∧
      (sramReady s_8 3 256 64 (6, 0)) ∧
      (s_8.passCount 3 < 32) ∧
      (s_8.bit (R.FEED_CTRL_enable 3) = true) ∧
      (s_8.passCheck 3
          (passNew s_8.tagNext (sramAddr 3 256) 0 none
            (s_8.bytes (sramAddr 3 256) 64)) ≠
        ST_OK)) ∧
    ((writable (Agent.host 1) 50 16 s_9) ∧
      (sramReady s_9 3 256 64 (6, 0)) ∧
      (s_9.passCount 3 = 32 ∨ s_9.bit (R.FEED_CTRL_enable 3) = false)) ∧
    ((writable (Agent.thread 3 3) 53 288 s_10) ∧
      (sramReady s_10 3 256 64 (5, 0)) ∧
      (s_10.qeRoom 3 1 = true) ∧
      (s_10.qeRejects 3 (s_10.bytes (sramAddr 3 256) 64)
          (qeParse (s_10.bytes (sramAddr 3 256) 64) s_10.tagNext 0 none) =
        true)) ∧
    ((writable (Agent.core 0) 53 288 s_11) ∧
      (sramReady s_11 3 256 64 (5, 0)) ∧
      (s_11.qeRoom 3 1 = false)) ∧
    ((writable (Agent.core 0) 57 24 s_12) ∧
      ((BitVec.ofNat 48 (sramAddr 3 256)).toNat % 64 = 0) ∧
      (regionOf (BitVec.ofNat 48 (sramAddr 3 256)).toNat = Region.sram 3 256) ∧
      (s_12.mapStatus (BitVec.ofNat 48 (sramAddr 3 256)).toNat 64 = ST_OK) ∧
      (sramReady s_12 3 256 64 (9, 3)) ∧
      (s_12.buStatus 24
            (buParse (s_12.bytes (BitVec.ofNat 48 (sramAddr 3 256)).toNat 64)
              s_12.tagNext 0 none false) ≠
          ST_OK ∨
        s_12.buRoom 24 = false)) ∧
    ((writable (Agent.core 0) 57 24 s_13) ∧
      ((BitVec.ofNat 48 (sramAddr 3 256)).toNat % 64 = 0) ∧
      (regionOf (BitVec.ofNat 48 (sramAddr 3 256)).toNat = Region.sram 3 256) ∧
      (s_13.mapStatus (BitVec.ofNat 48 (sramAddr 3 256)).toNat 64 = ST_OK) ∧
      (sramReady s_13 3 256 64 (9, 3)) ∧
      (s_13.buStatus 24
          (buParse (s_13.bytes (BitVec.ofNat 48 (sramAddr 3 256)).toNat 64)
            s_13.tagNext 0 none false) =
        ST_OK) ∧
      (s_13.buRoom 24 = true)) ∧
    ((writable (Agent.core 0) 53 288 s_14) ∧
      (sramReady s_14 3 256 64 (5, 0)) ∧
      (s_14.qeRoom 3 1 = true) ∧
      (s_14.qeRejects 3 (s_14.bytes (sramAddr 3 256) 64)
          (qeParse (s_14.bytes (sramAddr 3 256) 64) s_14.tagNext 0 none) =
        false)) :=
    ⟨(by unfold writable sramReady; decide +kernel),
    (by unfold writable sramReady; decide +kernel),
    (by unfold writable sramReady; decide +kernel),
    (by unfold writable sramReady; decide +kernel),
    (by unfold writable sramReady; decide +kernel),
    (by unfold writable sramReady; decide +kernel),
    (by unfold writable sramReady; decide +kernel),
    (by unfold writable sramReady; decide +kernel)⟩

/-- RegisterIssue: further clauses. -/
theorem test_register_issue_2 :
    ((writable (Agent.core 0) 57 24 s_15) ∧
      ((BitVec.ofNat 48 (sramAddr 3 264)).toNat % 64 ≠ 0)) :=
    by unfold writable; decide +kernel

end Issue

namespace Array

def desc (fmt fl m : Nat) (mask : Nat) (w : Nat) : List Byte := [BitVec.ofNat 8 fmt,BitVec.ofNat 8 fmt,BitVec.ofNat 8 fmt,0xff] ++ toLE 2 fl ++ toLE 2 m ++ toLE 8 w ++ toLE 4 0x1000 ++ toLE 4 128 ++ toLE 4 7 ++ [0xff,0,0,5] ++ toLE 4 0x400 ++ toLE 4 64 ++ toLE 4 mask ++ toLE 4 0x3F800000 ++ toLE 4 0xffffffff ++ toLE 4 0xffffffff ++ toLE 8 0x3F800000
def own := put (ownFld 3 0) 6
def p0 (fmt fl m mask w : Nat) := passNew 5 0 0 (some 2) (desc fmt fl m mask w)
def act := pokeBytes (sramAddr 3 0x1000) ((List.range 4).map fun i => BitVec.ofNat 8 (i * 7 + 1))
def a1 := mk [own, .upd (.passQ 3 [p0 8 1 2 noOffset 0])]
def a2 := mk [own, pokeBytes (sramAddr 3 0x2000) [0x5], .upd (.passQ 3 [p0 8 1 4 0x2000 0])]
def f (p : Pass) : Pass := { p with phase := 1, fed := [(0,0x1000),(1,0x1080)], bound := 9}
def pm := f (p0 8 5 2 noOffset 0x10000)
def b1 := mk [own, act, .upd (.passQ 3 [pm])]
def pz := f (p0 8 17 2 noOffset 0)
def b2 := mk [own, act, .upd (.passQ 3 [pz])]
def ps := f (p0 8 1 2 noOffset 0x10000)
def en := putBit (R.FEED_CTRL_enable 3) true
def wt2 := pokeBytes 0x10000 ((List.range 4).map fun i => BitVec.ofNat 8 (i * 13 + 1))
def c1 := mk [own, act, wt2, en, .upd (.passQ 3 [ps])]

def s_1 : State := a1
def p_1 : Pass := p0 8 1 2 noOffset 0
def s_2 : State := a2
def p_2 : Pass := p0 8 1 4 0x2000 0
def s_3 : State := mk []
/-- PassSampling: states and operands that meet the hypotheses of its clauses. -/
theorem test_pass_sampling :
    (((s_1.power ≠ Power.off) ∧
      (s_1.stagerUsed 3 < 36) ∧
      (List.find? (fun p ↦ p.phase == 0) (s_1.passQAt 3) = some p_1) ∧
      (p_1.mode = 0) ∧
      (p_1.maskBase = noOffset) ∧
      (0 < p_1.m) ∧
      (p_1.zskip = false) ∧
      (p_1.md = false)) ∧
      (tileReady s_1 3
        { id := p_1.id, desc := p_1.desc,
          addr := p_1.addr, thread := p_1.thread,
          step := p_1.step, phase := 1,
          fed :=
            List.map (fun m ↦ (m, p_1.aBase + m * p_1.aStride))
              (List.range p_1.m),
          rowsLost := p_1.rowsLost, bound := s_1.tagNext,
          mdata := p_1.mdata, metaIn := p_1.metaIn,
          occ := p_1.occ, run := p_1.run, fault := none,
          results := p_1.results, tile := p_1.tile })) ∧
    (((s_2.power ≠ Power.off) ∧
      (s_2.stagerUsed 3 < 36) ∧
      (List.find? (fun p ↦ p.phase == 0) (s_2.passQAt 3) = some p_2) ∧
      (p_2.mode = 0) ∧
      (p_2.maskBase ≠ noOffset) ∧
      (p_2.m ≤ 512) ∧
      (p_2.maskBase + (p_2.m + 7) / 8 ≤ 3145728) ∧
      (sramReady s_2 3 p_2.maskBase ((p_2.m + 7) / 8)
        (6, 0))) ∧
      (List.filter
              (fun m ↦
                !(BitVec.toNat
                        (s_2.memAt
                          (sramAddr 3 p_2.maskBase + m / 8))).testBit
                    (m % 8))
              (List.range p_2.m) ≠
            [] ∧
          p_2.zskip = false ∧ p_2.md = false →
        tileReady s_2 3
          { id := p_2.id, desc := p_2.desc,
            addr := p_2.addr, thread := p_2.thread,
            step := p_2.step,
            phase :=
              if
                  List.filter
                      (fun m ↦
                        !(BitVec.toNat
                                (s_2.memAt
                                  (sramAddr 3 p_2.maskBase + m / 8))).testBit
                            (m % 8))
                      (List.range p_2.m) =
                    [] then
                4
              else 1,
            fed :=
              List.map (fun m ↦ (m, p_2.aBase + m * p_2.aStride))
                (List.filter
                  (fun m ↦
                    !(BitVec.toNat
                            (s_2.memAt
                              (sramAddr 3 p_2.maskBase + m / 8))).testBit
                        (m % 8))
                  (List.range p_2.m)),
            rowsLost := p_2.rowsLost, bound := s_2.tagNext,
            mdata := p_2.mdata, metaIn := p_2.metaIn,
            occ := p_2.occ, run := p_2.run, fault := none,
            results := p_2.results, tile := p_2.tile })) ∧
    ((s_3.power ≠ Power.off) ∧
      (List.find? (fun p ↦ p.phase == 0) (s_3.passQAt 3) = none ∨
        36 ≤ s_3.stagerUsed 3)) :=
    ⟨And.imp id tileReady_of (by decide +kernel),
    ⟨by unfold sramReady; decide +kernel,
      fun _ => tileReady_of (by decide +kernel)⟩,
    (by decide +kernel)⟩

def s_4 : State := b1
def p_3 : Pass := pm
def s_5 : State := b2
def p_4 : Pass := pz
/-- PassInputs: states and operands that meet the hypotheses of its clauses. -/
theorem test_pass_inputs :
    (((s_4.power ≠ Power.off) ∧
      (List.find? (fun p ↦ p.md && !p.metaIn && (p.phase == 2 || p.phase == 1 && !p.zskip))
          (s_4.passQAt 3) =
        some p_3) ∧
      (p_3.mdata = none) ∧
      (p_3.fault = none) ∧
      (s_4.metaFault 3
          { id := p_3.id, desc := p_3.desc, addr := p_3.addr,
            thread := p_3.thread, step := p_3.step,
            phase := p_3.phase, fed := p_3.fed,
            rowsLost := p_3.rowsLost, bound := p_3.bound,
            mdata := some (s_4.bytes p_3.metaAddr 1024),
            metaIn := p_3.metaIn, occ := p_3.occ,
            run := p_3.run, fault := p_3.fault,
            results := p_3.results, tile := p_3.tile } =
        none)) ∧
      (memReady s_4 (Agent.feeder 3) p_3.metaAddr 1024) ∧
      (tileReady s_4 3
        { id := p_3.id, desc := p_3.desc, addr := p_3.addr,
          thread := p_3.thread, step := p_3.step,
          phase := p_3.phase, fed := p_3.fed,
          rowsLost := p_3.rowsLost, bound := p_3.bound,
          mdata := some (s_4.bytes p_3.metaAddr 1024), metaIn := true,
          occ := p_3.occ, run := p_3.run, fault := p_3.fault,
          results := p_3.results, tile := p_3.tile })) ∧
    (((s_5.power ≠ Power.off) ∧
      (List.find? (fun p ↦ p.phase == 1 && p.zskip) (s_5.passQAt 3) = some p_4) ∧
      (p_4.md = false) ∧
      (p_4.fault = none) ∧
      (p_4.mode = 0) ∧
      (p_4.cplx = 0) ∧
      (p_4.aSrc.bits = 8) ∧
      (p_4.sp24 = false) ∧
      (p_4.stored = 128) ∧
      (∀ r ∈ p_4.fed, r.2 + 128 ≤ 3145728 ∧ sramReady s_5 3 r.2 128 (6, 0))) ∧
      (tileReady s_5 3
        { id := p_4.id, desc := p_4.desc, addr := p_4.addr,
          thread := p_4.thread, step := p_4.step, phase := 2,
          fed := p_4.fed, rowsLost := p_4.rowsLost,
          bound := p_4.bound, mdata := p_4.mdata,
          metaIn := p_4.metaIn,
          occ :=
            List.map
              (fun g ↦
                p_4.fed.any fun r ↦
                  (List.range 8).any fun i ↦
                    (BitVec.toNat (s_5.memAt (sramAddr 3 (r.2 + 8 * g + i))) %
                        if p_4.aSrc.isInt = true then 256 else 128) !=
                      0)
              (List.range 16),
          run :=
            s_5.runFor 3
              { id := p_4.id, desc := p_4.desc,
                addr := p_4.addr, thread := p_4.thread,
                step := p_4.step, phase := 2, fed := p_4.fed,
                rowsLost := p_4.rowsLost, bound := p_4.bound,
                mdata := p_4.mdata, metaIn := p_4.metaIn,
                occ :=
                  List.map
                    (fun g ↦
                      p_4.fed.any fun r ↦
                        (List.range 8).any fun i ↦
                          (BitVec.toNat (s_5.memAt (sramAddr 3 (r.2 + 8 * g + i))) %
                              if p_4.aSrc.isInt = true then 256 else 128) !=
                            0)
                    (List.range 16),
                run := p_4.run, fault := p_4.fault,
                results := p_4.results, tile := p_4.tile },
          fault := p_4.fault, results := p_4.results,
          tile := p_4.tile })) :=
    ⟨And.imp id (And.imp memReady_of tileReady_of) (by decide +kernel),
    And.imp id tileReady_of (by unfold sramReady; decide +kernel)⟩

def s_6 : State := c1
def p_5 : Pass := ps
def x_1 : Tile := tileOf c1 3 ps
/-- MatrixPassResults: states and operands that meet the hypotheses of its clauses. -/
theorem test_matrix_pass_results :
    (((s_6.power ≠ Power.off) ∧
      (List.find? (fun q ↦ decide (q.phase < 3)) (s_6.passQAt 3) =
        some p_5) ∧
      (p_5.phase = 1) ∧
      (p_5.fault = none) ∧
      (p_5.mdata = none) ∧
      (plainInt8 p_5) ∧
      (p_5.run = p_5.id) ∧
      (s_6.runOf 3 p_5.id = [p_5]) ∧
      (s_6.bit (R.FEED_CTRL_enable 3) = true) ∧
      (s_6.feedHalted 3 = false) ∧
      (∀ r ∈ p_5.fed,
        r.2 + 128 ≤ 3145728 ∧ sramReady s_6 3 r.2 128 (6, 0))) ∧
      (p_5.tile = some x_1 ∧
          denseTile x_1 ∨
        x_1 = tileOf s_6 3 p_5 ∧
          tileReady s_6 3 p_5)) :=
    ⟨by unfold plainInt8 sramReady; decide +kernel,
      Or.inr ⟨rfl, tileReady_of (by decide +kernel)⟩⟩

end Array

namespace ArrayScan

def desc (fmt fl m : Nat) (mask : Nat) (w : Nat) : List Byte := [BitVec.ofNat 8 fmt,BitVec.ofNat 8 fmt,BitVec.ofNat 8 fmt,0xff] ++ toLE 2 fl ++ toLE 2 m ++ toLE 8 w ++ toLE 4 0x1000 ++ toLE 4 128 ++ toLE 4 7 ++ [0xff,0,0,5] ++ toLE 4 0x400 ++ toLE 4 64 ++ toLE 4 mask ++ toLE 4 0x3F800000 ++ toLE 4 0xffffffff ++ toLE 4 0xffffffff ++ toLE 8 0x3F800000
def p0 (fmt fl m mask w : Nat) := passNew 5 0 0 (some 2) (desc fmt fl m mask w)
def res (fl : Nat) : Pass := { p0 8 fl 2 noOffset 0 with phase := 3, run := 5, results := [(0, (List.range 64).map fun j : Nat => Num.ofScaled ((j : Int) * 77 - 500) 0), (1, (List.range 64).map fun j : Nat => Num.ofScaled ((j : Int) * 7 - 50) (-3))]}
def other := { p0 8 1 2 noOffset 0 with run := 77 }
def d1 := mk [.upd (.passQ 3 [res 1, { other with id := 77}])]
def e1 := mk [.upd (.passQ 3 [res 1, { other with id := 77}])]

def s_1 : State := d1
def p_1 : Pass := res 1
def rest_1 : List Pass := [{ other with id := 77}]
/-- AccumulatorWrites: states and operands that meet the hypotheses of its clauses. -/
theorem test_accumulator_writes :
    ((s_1.power ≠ Power.off) ∧
      (s_1.passQAt 3 = p_1 :: rest_1) ∧
      (p_1.phase = 3) ∧
      (p_1.fault = none) ∧
      (s_1.runOf 3 p_1.run = [p_1]) ∧
      (p_1.output = false) ∧
      (p_1.dual = false) ∧
      (p_1.neg = false) ∧
      (p_1.sp24 = false) ∧
      (∀ q ∈ rest_1, q.id ≠ p_1.id) ∧
      ((List.map (fun r ↦ r.1) p_1.results).Nodup) ∧
      (∀ r ∈ p_1.results,
        r.2.length = 64 ∧
          p_1.accRow + r.1 ≤ 1023 ∧
            ∀ j < 64,
              s_1.marksAt (accAddr 3 (p_1.accRow + r.1) j / 8) =
                SramMark.good)) :=
    by decide +kernel

def s_2 : State := e1
/-- FeedControl: states and operands that meet the hypotheses of its clauses. -/
theorem test_feed_control :
    ((writable (Agent.core 0) 50 0 s_2)) :=
    by unfold writable; decide +kernel

end ArrayScan

namespace Engines

def own := .all [put (ownFld 3 0) 9, put (ownFld 3 0) 6] |> fun (_ : Eff) => put (ownFld 3 0) 5
def D (op : Nat) (src dst len : Nat) : QeDesc := ⟨5, op, 4, 0, 7, 0, 0, src, dst, len, 0, 0, 0, 0x8877665544332211, none, 0, false, 0, none⟩
def data := pokeBytes (sramAddr 3 0x1000) ((List.range 8).map fun i => BitVec.ofNat 8 (i * 7 + 1))
def st (d : QeDesc) (l : List Eff) := mk ([own, data, .upd (.qeQ (3*8+2) [d, { D 0 0 0 0 with id := 9 }])] ++ l)
def cp := D 0 (sramAddr 3 0x1003) (sramAddr 3 0x3005) 200
def fl := D 2 0 (sramAddr 3 0x3005) 203
def ga := { D 3 0 (sramAddr 3 0x3005) 0 with count := 3, rowBytes := 35, list := 0x8000 }
def sc := { D 4 (sramAddr 3 0x1040) 0 0 with count := 3, rowBytes := 35, list := 0x8000 }
def rt (cr : Nat) := Eff.all [putBit (R.QUE_ROUTE_OUT_CFG_valid 3 4) true, put (R.QUE_ROUTE_OUT_CFG_dest_cell 3 4) 9, put (R.QUE_ROUTE_OUT_CFG_ring_base 3 4) 2,
  put (R.QUE_ROUTE_OUT_CFG_granule_log2 3 4) 10, put (R.QUE_ROUTE_OUT_CFG_credits 3 4) 8, put (R.QUE_ROUTE_OUT_STATE_credits_avail 3 4) cr]
def sd := { D 1 (sramAddr 3 0x1040) 0 300 with route := 4 }
def seg : Segment := ⟨3, 2, 4, 5, 0, 9, 0x2400, (List.range 300).map fun i => BitVec.ofNat 8 i, some 77⟩
def rin := Eff.all [putBit (R.QUE_ROUTE_IN_CFG_valid 9 6) true, put (R.QUE_ROUTE_IN_CFG_src_cell 9 6) 3, put (R.QUE_ROUTE_IN_CFG_ring_base 9 6) 2,
  put (R.QUE_ROUTE_IN_CFG_granule_log2 9 6) 10, put (R.QUE_ROUTE_IN_CFG_credits 9 6) 8, put (ownFld 9 0) (9 + 16 * 3)]
def cred : Credit := ⟨3, 2, 4, 5, 0, 9, some 6, 0⟩
def ended (d : QeDesc) (l : List Eff) := mk ([.upd (.qeQ (3*8+2) [d, { D 0 0 0 0 with id := 9 }])] ++ l)
def rs := { cp with started := true, pos := 200 }
def rf := { cp with started := true, pos := 0, fault := some (0x1234, 7) }
def halt := put (R.QUE_CH_STATUS_state 3 2) 3
def lst3 := pokeBytes (sramAddr 3 0x4000) (toLE 8 (sramAddr 3 0x2010) ++ toLE 8 (sramAddr 3 0x2101) ++ toLE 8 (sramAddr 3 0x2190))

def d_1 : QeDesc := cp
def s_1 : State := st cp []
def d_2 : QeDesc := {ga with list := sramAddr 3 0x4000}
def s_2 : State := st {ga with list := sramAddr 3 0x4000} [lst3]
def d_3 : QeDesc := {sc with list := sramAddr 3 0x4000}
def s_3 : State := st {sc with list := sramAddr 3 0x4000} [lst3]
def d_4 : QeDesc := fl
def s_4 : State := st fl []
/-- QueueEngineMoves: states and operands that meet the hypotheses of its clauses. -/
theorem test_queue_engine_moves :
    (((channelStarts s_1 3 2 0 d_1) ∧
      (apart d_1.src d_1.length d_1.dst
        d_1.length) ∧
      (0 < d_1.length)) ∧
      (memReady s_1 (Agent.engine 3 2) d_1.src
        d_1.length) ∧
      (memReady s_1 (Agent.engine 3 2) d_1.dst
        d_1.length) ∧
      (∃ c' o, regionOf d_1.src = Region.sram c' o)) ∧
    (((channelStarts s_2 3 2 3 d_2) ∧
      (0 < d_2.rowBytes) ∧
      (apart d_2.list (8 * d_2.count)
        d_2.dst d_2.total) ∧
      (0 < d_2.count)) ∧
      (memReady s_2 (Agent.engine 3 2) d_2.list
        (8 * d_2.count)) ∧
      (memReady s_2 (Agent.engine 3 2) d_2.dst
        d_2.total) ∧
      (∀ i < d_2.count,
        memReady s_2 (Agent.engine 3 2)
            (leNat (s_2.bytes (d_2.list + 8 * i) 8))
            d_2.rowBytes ∧
          apart (leNat (s_2.bytes (d_2.list + 8 * i) 8))
            d_2.rowBytes d_2.dst d_2.total) ∧
      (∃ c' o, regionOf d_2.list = Region.sram c' o)) ∧
    (((channelStarts s_3 3 2 4 d_3) ∧
      (0 < d_3.rowBytes) ∧
      (0 < d_3.count)) ∧
      (memReady s_3 (Agent.engine 3 2) d_3.list
        (8 * d_3.count)) ∧
      (memReady s_3 (Agent.engine 3 2) d_3.src
        d_3.total) ∧
      (∀ i < d_3.count,
        memReady s_3 (Agent.engine 3 2)
            (leNat (s_3.bytes (d_3.list + 8 * i) 8))
            d_3.rowBytes ∧
          apart (leNat (s_3.bytes (d_3.list + 8 * i) 8))
              d_3.rowBytes d_3.src
              d_3.total ∧
            apart (leNat (s_3.bytes (d_3.list + 8 * i) 8))
                d_3.rowBytes d_3.list
                (8 * d_3.count) ∧
              ∀ j < d_3.count,
                i ≠ j →
                  apart (leNat (s_3.bytes (d_3.list + 8 * i) 8))
                    d_3.rowBytes
                    (leNat (s_3.bytes (d_3.list + 8 * j) 8))
                    d_3.rowBytes) ∧
      (∃ c' o, regionOf d_3.list = Region.sram c' o)) ∧
    ((channelStarts s_4 3 2 2 d_4) ∧
      (memReady s_4 (Agent.engine 3 2) d_4.dst
        d_4.length)) :=
    ⟨And.imp id (And.imp memReady_of (And.imp memReady_of isSram_of)) (by unfold channelStarts apart; decide +kernel),
    And.imp id (And.imp memReady_of (And.imp memReady_of (And.imp below_of isSram_of))) (by unfold channelStarts apart; decide +kernel),
    And.imp id (And.imp memReady_of (And.imp memReady_of (And.imp below_of isSram_of))) (by unfold channelStarts apart; decide +kernel),
    And.imp id memReady_of (by unfold channelStarts; decide +kernel)⟩

def s_5 : State := mk [rt 3, rin, .upd (.stallSince (3*32+4) 5), put (R.QUE_ROUTE_IN_STATE_slots_held 9 6) 3, .upd (.creditQ [cred])]
def y_1 : Credit := cred
def later_1 : List Credit := ([] : List Credit)
def d_5 : QeDesc := sd
def s_6 : State := st sd [rt 1]
def d_6 : QeDesc := sd
def s_7 : State := st sd [rt 0]
def s_8 : State := mk [rin, .upd (.segQ [seg])]
def g_1 : Segment := seg
def rest_1 : List Segment := []
def s_9 : State := mk [.upd (.segQ [seg])]
def g_2 : Segment := seg
def rest_2 : List Segment := []
def s_10 : State := mk [rt 3, rin, putRegBit R.SVC_RETIRED_CELL_LO 9 true, .upd (.creditQ [cred])]
def y_2 : Credit := cred
def later_2 : List Credit := ([] : List Credit)
/-- RouteCredits: states and operands that meet the hypotheses of its clauses. -/
theorem test_route_credits :
    ((s_5.power ≠ Power.off) ∧
      (s_5.creditQ = y_1 :: later_1) ∧
      (y_1.slot = some 6) ∧
      (s_5.cellRetired y_1.dest = false) ∧
      (y_1.status = ST_OK) ∧
      (s_5.get
          (R.QUE_ROUTE_OUT_STATE_credits_avail y_1.cell y_1.route) ≤
        256) ∧
      (s_5.qeQAt (y_1.cell * 8 + y_1.chan) = [])) ∧
    (((s_6.power ≠ Power.off) ∧
      (channelStarts s_6 3 2 1 d_5) ∧
      (s_6.bit (R.QUE_ROUTE_OUT_CFG_valid 3 d_5.route) = true) ∧
      (s_6.bit (R.QUE_ROUTE_OUT_STATE_broken 3 d_5.route) = false) ∧
      (d_5.length ≤
        2 ^ s_6.get (R.QUE_ROUTE_OUT_CFG_granule_log2 3 d_5.route)) ∧
      (0 < s_6.get (R.QUE_ROUTE_OUT_STATE_credits_avail 3 d_5.route)) ∧
      (s_6.get (R.QUE_ROUTE_OUT_STATE_segs_in_flight 3 d_5.route) < 256)) ∧
      (memReady s_6 (Agent.engine 3 2) d_5.src
        d_5.length)) ∧
    (((s_7.power ≠ Power.off) ∧
      (channelStarts s_7 3 2 1 d_6) ∧
      (s_7.bit (R.QUE_ROUTE_OUT_CFG_valid 3 d_6.route) = true) ∧
      (s_7.bit (R.QUE_ROUTE_OUT_STATE_broken 3 d_6.route) = false) ∧
      (s_7.get (R.QUE_ROUTE_OUT_STATE_credits_avail 3 d_6.route) = 0) ∧
      (s_7.stallSinceAt (96 + d_6.route) = 0)) ∧
      (memReady s_7 (Agent.engine 3 2) d_6.src
        d_6.length)) ∧
    ((s_8.power ≠ Power.off) ∧
      (s_8.segQ = g_1 :: rest_1) ∧
      (s_8.cellRetired g_1.dest = false) ∧
      (s_8.qeFlushAt (g_1.cell * 8 + g_1.chan) = []) ∧
      (s_8.inRoute g_1 = some 6) ∧
      (sramReady s_8 g_1.dest g_1.off
        g_1.data.length (9, g_1.cell)) ∧
      (s_8.get (R.QUE_ROUTE_IN_STATE_slots_held g_1.dest 6) < 256)) ∧
    ((s_9.power ≠ Power.off) ∧
      (s_9.segQ = g_2 :: rest_2) ∧
      (s_9.cellRetired g_2.dest = false) ∧
      (s_9.qeFlushAt (g_2.cell * 8 + g_2.chan) = []) ∧
      (s_9.inRoute g_2 = none)) ∧
    ((s_10.power ≠ Power.off) ∧
      (s_10.creditQ = y_2 :: later_2) ∧
      (y_2.slot = some 6) ∧
      (s_10.cellRetired y_2.dest = true)) :=
    ⟨(by decide +kernel),
    And.imp id memReady_of (by unfold channelStarts; decide +kernel),
    And.imp id memReady_of (by unfold channelStarts; decide +kernel),
    (by unfold sramReady; decide +kernel),
    (by decide +kernel),
    (by decide +kernel)⟩

def d_7 : QeDesc := rs
def s_11 : State := ended rs []
def rest_3 : List QeDesc := [{ D 0 0 0 0 with id := 9 }]
def d_8 : QeDesc := rf
def s_12 : State := ended rf [halt]
def rest_4 : List QeDesc := [{ D 0 0 0 0 with id := 9 }]
def d_9 : QeDesc := rf
def s_13 : State := ended rf []
def rest_5 : List QeDesc := [{ D 0 0 0 0 with id := 9 }]
def s_14 : State := ended {rs with op := 1, id := 5} [.upd (.segQ [seg])]
/-- ChannelControl: states and operands that meet the hypotheses of its clauses. -/
theorem test_channel_control :
    ((s_11.power ≠ Power.off) ∧
      (s_11.qeQAt 26 = d_7 :: rest_3) ∧
      (∀ x ∈ rest_3, x.id ≠ d_7.id) ∧
      (s_11.chHalted 3 2 = false) ∧
      (d_7.started = true) ∧
      (d_7.fault = none) ∧
      (d_7.total ≤ d_7.pos) ∧
      (s_11.segsOut d_7 = false) ∧
      (writable (Agent.core 0) 53 512 s_11) ∧
      (∀ d ∈ s_11.qeQAt 26, s_11.segsOut d = false)) ∧
    ((writable (Agent.core 0) 53 512 s_12) ∧
      (s_12.chHalted 3 2 = true) ∧
      (s_12.qeQAt 26 = d_8 :: rest_4) ∧
      (∀ x ∈ rest_4, x.id ≠ d_8.id)) ∧
    ((s_13.power ≠ Power.off) ∧
      (s_13.qeQAt 26 = d_9 :: rest_5) ∧
      (∀ x ∈ rest_5, x.id ≠ d_9.id) ∧
      (s_13.chHalted 3 2 = false) ∧
      (d_9.started = true) ∧
      (d_9.fault = some (4660, 7))) ∧
    ((writable (Agent.core 0) 53 512 s_14) ∧
      (∃ d ∈ s_14.qeQAt 26, s_14.segsOut d = true)) :=
    ⟨(by unfold writable; decide +kernel),
    (by unfold writable; decide +kernel),
    (by decide +kernel),
    (by unfold writable; decide +kernel)⟩

end Engines

namespace Vault

def d := pokeBytes 0x1000 ((List.range 64).map fun i => BitVec.ofNat 8 (i*5+1))
def v1 := mk [d]
def v2 := mk [d, .upd (.check (0x1008/8) (BitVec.ofNat 16 (Nat.xor (checkOf 0 0) (checkOf (2 ^ 3) 0))))]
def v3 := mk [d, put ⟨rk 0x8 0x300, 6, 42⟩ (0x1000/64), put ⟨rk 0x8 0x308, 0, 48⟩ 0x1fff, putBit (diagLock (some 0)) true, putBit (diagLockOk (some 0)) true, put R.LCY_STATE_state 3]
def k1 := mk [.upd (.refRow 83 3071), .upd (.remapNew [⟨1,2,3,4⟩, ⟨1,2,3,5⟩]), .upd (.tracker 7 [⟨1,2,3,40⟩,⟨1,2,4,400⟩]), .upd (.now 30)]
def u0 : Option (Fin 128) := some 2
def setup (l : List Eff) := mk ([put (scrubBase u0) (2*0x18000000 + 0x1000), put (scrubLimit u0) (2*0x18000000 + 0x103f)] ++ l)
def dg (l : List Eff) := mk ([put ⟨rk 0x8 0x300, 6, 42⟩ (0x1000/64), put ⟨rk 0x8 0x308, 0, 48⟩ 0x1fff, putBit (diagLock (some 0)) true, putBit (diagLockOk (some 0)) true, put R.LCY_STATE_state 3, put ⟨rk 0x8 0x310, 3, 45⟩ (0x1018/8), putReg (rk 0x8 0x318) 0x1234567, .upd (.check (0x1018/8) 0x77), pokeBytes 0x1018 [5,6,7]] ++ l)

def bs_1 : List Byte := [1,2,3,4,5,6,7,8,9,10,11,12,13]
def s_1 : State := v1
def s_2 : State := v1
def s_3 : State := v2
def bs_2 : List Byte := [1,2,3,4,5,6,7,8,9,10,11,12,13]
def s_4 : State := v3
/-- VaultAccesses: states and operands that meet the hypotheses of its clauses. -/
theorem test_vault_accesses :
    (((s_1.power ≠ Power.off) ∧
      (oneGranule 4101 7 = true) ∧
      (∀ w ∈ wordsOf 4096 64, wordSound s_1 w) ∧
      (oneGranule 4101 bs_1.length = true) ∧
      (∀ w ∈ wordsOf 4101 bs_1.length, wordSound s_1 w)) ∧
      (vaultOpen s_1 4101 7) ∧
      (vaultOpen s_1 4101 bs_1.length)) ∧
    ((s_2.power ≠ Power.off) ∧
      (oneGranule 4133 64 = false)) ∧
    (((s_3.power ≠ Power.off) ∧
      (oneGranule 4101 7 = true) ∧
      (4104 ∈ wordsOf 4096 64) ∧
      (s_3.decode 4104 = Decoded.single 18) ∧
      (∀ v ∈ wordsOf 4096 64, v ≠ 4104 → wordSound s_3 v)) ∧
      (vaultOpen s_3 4101 7)) ∧
    (((s_4.power ≠ Power.off) ∧
      (oneGranule 4101 bs_2.length = true) ∧
      (s_4.mapStatus 4101 bs_2.length = ST_OK) ∧
      (s_4.touchesLock 4101 bs_2.length = true)) ∧
      (∃ c, regionOf 4101 = Region.vault c)) :=
    ⟨⟨by unfold wordSound; decide +kernel,
      ⟨⟨_, rfl⟩, by decide +kernel, by decide +kernel⟩,
      ⟨⟨_, rfl⟩, by decide +kernel, by decide +kernel⟩⟩,
    (by decide +kernel),
    ⟨by unfold wordSound; decide +kernel,
      ⟨⟨_, rfl⟩, by decide +kernel, by decide +kernel⟩⟩,
    ⟨by decide +kernel,
      ⟨_, rfl⟩⟩⟩

def s_5 : State := k1
def r_1 : Remap := ⟨1,2,3,4⟩
def x_1 : TrackRow := ⟨1,2,3,40⟩
def rest_1 : List Remap := ([⟨1,2,3,5⟩] : List Remap)
def rest_2 : List TrackRow := ([⟨1,2,4,400⟩] : List TrackRow)
/-- VaultUpkeep: states and operands that meet the hypotheses of its clauses. -/
theorem test_vault_upkeep :
    ((s_5.power ≠ Power.off) ∧
      (s_5.remapNew = r_1 :: rest_1) ∧
      (s_5.trackerAt 7 = x_1 :: rest_2) ∧
      (∀ y ∈ rest_2, x_1.first ≤ y.first)) :=
    by decide +kernel

def u_1 : Option (Fin 128) := u0
def s_6 : State := setup [.upd (.scrubRun 2 (some (2*0x18000000 + 0x1000, 2*0x18000000 + 0x103f, 0)))]
def u_2 : Option (Fin 128) := u0
def s_7 : State := setup [putBit (scrubBusy u0) true]
def u_3 : Option (Fin 128) := u0
def s_8 : State := setup [put (scrubLimit u0) 5]
/-- ScrubRuns: states and operands that meet the hypotheses of its clauses. -/
theorem test_scrub_runs :
    (((writable (Agent.core 0) (unitPage u_1) 528 s_6) ∧
      (s_6.bit (scrubBusy u_1) = false) ∧
      (s_6.get (scrubBase u_1) % 64 = 0) ∧
      (s_6.get (scrubLimit u_1) % 64 = 63) ∧
      (s_6.get (scrubBase u_1) ≤
        s_6.get (scrubLimit u_1)) ∧
      (inUnit u_1 (s_6.get (scrubBase u_1)) = true) ∧
      (inUnit u_1 (s_6.get (scrubLimit u_1)) = true) ∧
      (s_6.scrubRunAt (unitKey u_1) =
        some
          (s_6.get (scrubBase u_1),
            s_6.get (scrubLimit u_1), s_6.now)) ∧
      (s_6.get (scrubRecAddr u_1) = 0) ∧
      (s_6.power ≠ Power.off) ∧
      (s_6.scrubRunAt (unitKey u_1) =
        some
          (s_6.get (scrubBase u_1),
            s_6.get (scrubBase u_1) + 63, 0)) ∧
      (s_6.get (scrubBase u_1) + 64 ≤ 281474976710656) ∧
      (s_6.diagLocked (s_6.get (scrubBase u_1)) = false) ∧
      (∀ w ∈ wordsOf (s_6.get (scrubBase u_1)) 64,
        isExt w = false ∧ s_6.diagLocked w = false)) ∧
      (∀ w ∈ wordsOf (s_6.get (scrubBase u_1)) 64,
        s_6.decode w = Decoded.good ∨ ∃ i, s_6.decode w = Decoded.single i)) ∧
    ((writable (Agent.core 0) (unitPage u_2) 528 s_7) ∧
      (s_7.bit (scrubBusy u_2) = true)) ∧
    ((writable (Agent.core 0) (unitPage u_3) 528 s_8) ∧
      (s_8.bit (scrubBusy u_3) = false) ∧
      (¬(s_8.get (scrubBase u_3) % 64 = 0 ∧
          s_8.get (scrubLimit u_3) % 64 = 63 ∧
            s_8.get (scrubBase u_3) ≤
                s_8.get (scrubLimit u_3) ∧
              inUnit u_3 (s_8.get (scrubBase u_3)) = true ∧
                inUnit u_3 (s_8.get (scrubLimit u_3)) = true)) ∧
      (s_8.get (scrubRecAddr u_3) = 0)) :=
    ⟨And.imp id single_of (by unfold writable; decide +kernel),
    (by unfold writable; decide +kernel),
    (by unfold writable; decide +kernel)⟩

def v_1 : Word := 0x2041
def s_9 : State := dg []
def v_2 : Word := 0x2041
def s_10 : State := dg [put R.LCY_STATE_state 0]
def v_3 : Word := 0x2040
def s_11 : State := dg []
/-- DiagnosticAccess: states and operands that meet the hypotheses of its clauses. -/
theorem test_diagnostic_access :
    ((writable (Agent.core 0) (unitPage (some 0)) 768 s_9) ∧
      (BitVec.toNat v_1 % 2 = 1) ∧
      (s_9.diagnostic = true) ∧
      (s_9.power ≠ Power.off) ∧
      (writable (Agent.core 0) (unitPage (some 0)) 800 s_9) ∧
      (s_9.rawStatus (some 0) = ST_OK)) ∧
    ((writable (Agent.core 0) (unitPage (some 0)) 768 s_10) ∧
      (BitVec.toNat v_2 % 2 = 1) ∧
      (s_10.diagnostic = false) ∧
      (writable (Agent.core 0) (unitPage (some 0)) 800 s_10) ∧
      (s_10.rawStatus (some 0) ≠ ST_OK)) ∧
    ((writable (Agent.core 0) (unitPage (some 0)) 768 s_11) ∧
      (BitVec.toNat v_3 % 2 = 0)) :=
    ⟨(by unfold writable; decide +kernel),
    (by unfold writable; decide +kernel),
    (by unfold writable; decide +kernel)⟩

end Vault

namespace UnitScalar

def cmd : BuCmd := ⟨9, 0, 1, 0, 77, 0, [1,2,3,4,5,6,7], none, 0, false, true, false, false, none, none⟩
def word (op d a b : Nat) (imm : Nat) : Word := BitVec.ofNat 64 (op + d * 256 + a * 2^14 + b * 2^20 + imm * 2^32)
def st (w : Word) (pc : Nat) := mk [.upd (.buQ 21 [cmd, {cmd with id := 10, running := false}]), put (R.BU_STATUS_state 2 5) 1, putBit (R.BU_STATUS_mode 2 5) true, putBuPc 21 pc, putReg (R.BU_PROG 2 5 pc) w, putReg (R.BU_G 2 5 3) 0x1234567, putReg (R.BU_G 2 5 4) 0xffffffff99999999, putReg (R.BU_G 2 5 5) 1]
def rest := [{cmd with id := 10, running := false}]

def w_1 : Word := word 0 0 0 0 0
def s_1 : State := st (word 0 0 0 0 0) 7
def w_2 : Word := word 1 2 0 0 0x99999999
def s_2 : State := st (word 1 2 0 0 0x99999999) 7
def w_3 : Word := word 2 4 0 0 0x99999999
def s_3 : State := st (word 2 4 0 0 0x99999999) 7
def w_4 : Word := word 3 2 3 4 0x99999999
def s_4 : State := st (word 3 2 3 4 0x99999999) 7
def w_5 : Word := word 4 2 3 4 0x99999999
def s_5 : State := st (word 4 2 3 4 0x99999999) 7
def w_6 : Word := word 5 0 3 4 0x99999999
def s_6 : State := st (word 5 0 3 4 0x99999999) 7
def w_7 : Word := word 6 2 3 4 0x99999999
def s_7 : State := st (word 6 2 3 4 0x99999999) 7
def w_8 : Word := word 7 2 4 3 0x99999999
def s_8 : State := st (word 7 2 4 3 0x99999999) 7
def w_9 : Word := word 8 2 4 3 0x99999999
def s_9 : State := st (word 8 2 4 3 0x99999999) 7
def w_10 : Word := word 9 2 4 3 0x99999999
def s_10 : State := st (word 9 2 4 3 0x99999999) 7
/-- UnitScalarResults: states and operands that meet the hypotheses of its clauses. -/
theorem test_unit_scalar_results_1 :
    ((s_1.buPc 21 < 511) ∧
      (unitAt s_1 21 w_1 0)) ∧
    ((s_2.buPc 21 < 511) ∧
      (unitAt s_2 21 w_2 1)) ∧
    ((s_3.buPc 21 < 511) ∧
      (unitAt s_3 21 w_3 2)) ∧
    ((s_4.buPc 21 < 511) ∧
      (unitAt s_4 21 w_4 3)) ∧
    ((s_5.buPc 21 < 511) ∧
      (unitAt s_5 21 w_5 4)) ∧
    ((s_6.buPc 21 < 511) ∧
      (unitAt s_6 21 w_6 5)) ∧
    ((s_7.buPc 21 < 511) ∧
      (unitAt s_7 21 w_7 6)) ∧
    ((s_8.buPc 21 < 511) ∧
      (unitAt s_8 21 w_8 7)) :=
    ⟨(by unfold unitAt; decide +kernel),
    (by unfold unitAt; decide +kernel),
    (by unfold unitAt; decide +kernel),
    (by unfold unitAt; decide +kernel),
    (by unfold unitAt; decide +kernel),
    (by unfold unitAt; decide +kernel),
    (by unfold unitAt; decide +kernel),
    (by unfold unitAt; decide +kernel)⟩

/-- UnitScalarResults: further clauses. -/
theorem test_unit_scalar_results_2 :
    ((s_9.buPc 21 < 511) ∧
      (unitAt s_9 21 w_9 8)) ∧
    ((s_10.buPc 21 < 511) ∧
      (unitAt s_10 21 w_10 9)) :=
    ⟨(by unfold unitAt; decide +kernel),
    (by unfold unitAt; decide +kernel)⟩

def w_11 : Word := word 10 2 4 3 0x99999999
def s_11 : State := st (word 10 2 4 3 0x99999999) 7
def w_12 : Word := word 11 2 4 3 0x99999999
def s_12 : State := st (word 11 2 4 3 0x99999999) 7
def w_13 : Word := word 12 2 4 3 0x99999999
def s_13 : State := st (word 12 2 4 3 0x99999999) 511
def w_14 : Word := word 13 5 4 3 0x99999999
def s_14 : State := st (word 13 5 4 3 0x99999999) 7
def w_15 : Word := word 14 2 4 3 0x99999999
def s_15 : State := st (word 14 2 4 3 0x99999999) 7
def w_16 : Word := word 15 2 4 3 0x99999999
def s_16 : State := st (word 15 2 4 3 0x99999999) 7
def c_1 : BuCmd := cmd
def rest_1 : List BuCmd := rest
def w_17 : Word := word 0 2 4 3 0x99999999
def s_17 : State := st (word 0 2 4 3 0x99999999) 511
def s_18 : State := st (word 0 62 4 3 0x99999999) 7
/-- UnitControlFlow: states and operands that meet the hypotheses of its clauses. -/
theorem test_unit_control_flow :
    ((s_11.buPc 21 + 1 < 512) ∧
      (unitAt s_11 21 w_11 10) ∧
      (s_11.power ≠ Power.off) ∧
      (s_11.bu 21 = BU_RUN) ∧
      (∃ c, s_11.buRunning 21 = some c ∧ c.svc = false) ∧
      (s_11.heldAt 21 = [])) ∧
    ((s_12.buPc 21 + 1 < 512) ∧
      (unitAt s_12 21 w_12 11)) ∧
    ((unitAt s_13 21 w_13 12)) ∧
    ((s_14.buPc 21 + 1 < 512) ∧
      (unitAt s_14 21 w_14 13) ∧
      ((buFields w_14).d ≠ 0)) ∧
    ((s_15.buPc 21 + 1 < 512) ∧
      (unitAt s_15 21 w_15 14) ∧
      (s_15.heldAt 21 = [])) ∧
    ((unitAt s_16 21 w_16 15) ∧
      (s_16.buQAt 21 = c_1 :: rest_1) ∧
      (∀ z ∈ rest_1, z.id ≠ c_1.id) ∧
      (s_16.heldAt 21 = []) ∧
      (c_1.kvt = none)) ∧
    ((s_17.buPc 21 = 511) ∧
      (unitAt s_17 21 w_17 0) ∧
      (s_17.heldAt 21 = [])) ∧
    ((s_18.power ≠ Power.off) ∧
      (s_18.bu 21 = BU_RUN) ∧
      (∃ c, s_18.buRunning 21 = some c ∧ c.svc = false) ∧
      (s_18.heldAt 21 = []) ∧
      (buLegal (s_18.reg (R.BU_PROG 2 5 (s_18.buPc 21))) = false)) :=
    ⟨(by unfold unitAt; decide +kernel),
    (by unfold unitAt; decide +kernel),
    (by unfold unitAt; decide +kernel),
    (by unfold unitAt; decide +kernel),
    (by unfold unitAt; decide +kernel),
    (by unfold unitAt; decide +kernel),
    (by unfold unitAt; decide +kernel),
    (by decide +kernel)⟩

end UnitScalar

namespace UnitData

def cmd : BuCmd := ⟨9, 0, 0, 0, 77, 0, [1,2,3,4,5,6,7], none, 0, false, true, false, false, none, none⟩
def word (op d a b c fmt sub aux cbk n : Nat) : Word := BitVec.ofNat 64 (op + d * 256 + a * 2^14 + b * 2^20 + c * 2^26 + fmt * 2^32 + sub * 2^35 + aux * 2^37 + cbk * 2^39 + n * 2^42)
def putLocal (u l : Nat) (bs : List Byte) := Eff.each ((List.range bs.length).zip bs) fun p => pokeBytes (buAddr u (l + p.1)) [p.2]
def fp (x : Nat) := toLE 4 x
def st (w : Word) (l : List Eff) := mk ([.upd (.buQ 21 [cmd, {cmd with id := 10, running := false}]), put (R.BU_STATUS_state 2 5) 1, putBit (R.BU_STATUS_mode 2 5) true, .upd (.buSlot 21 1), putBuPc 21 7, putReg (R.BU_PROG 2 5 7) w,
  putReg (R.BU_G 2 5 3) 0x1038, putReg (R.BU_G 2 5 4) 3, putReg (R.BU_G 2 5 5) 0x200, putReg (R.BU_G 2 5 6) 0x2008, putReg (R.BU_G 2 5 7) 1, putReg (R.BU_G 2 5 46) 0xAAAAAAAA00000000,
  putLocal 21 0x1038 (fp 0x3F800000 ++ fp 0x40000000 ++ fp 0x40400000 ++ fp 0x3F000000 ++ (List.range 40).map fun i => BitVec.ofNat 8 (i*3)),
  putLocal 21 0x1238 (fp 0x3F900000 ++ fp 0x41000000 ++ fp 0x40500000 ++ fp 0xBF000000 ++ (List.range 40).map fun i => BitVec.ofNat 8 (i*5))] ++ l)
def t1 (op fmt sub aux n : Nat) := st (word op 6 3 5 4 fmt sub aux 2 n) []
def q := putBuf 21 BUF_Q [⟨0x3F800000,false⟩,⟨0x40800000,false⟩,⟨0xC0400000,false⟩,⟨0x3F000000,false⟩]
def va := putBuf 21 BUF_VA [⟨0x3F800000,false⟩,⟨0x40800000,false⟩,⟨0xC0400000,false⟩,⟨0x3F000000,false⟩]
def ss := putBuf 21 BUF_S [⟨0x3F800000,false⟩,⟨0x40800000,false⟩,⟨0xC0400000,false⟩,⟨0x3F000000,false⟩]
def w22b := word 0x22 6 3 5 4 0 0 0 2 4
def w21 := word 0x21 6 3 5 7 2 1 0 2 4
def w20 := word 0x20 6 3 5 4 0 0 0 2 4
def w23 := word 0x23 6 3 5 4 5 0 0 2 4
def blk (op fmt sub : Nat) := word op 6 3 5 4 fmt sub 0 0 0
def stb (op : Nat) (l : List Eff) := st (blk op 0 0) ([putReg (R.BU_G 2 5 3) 0x1200, putReg (R.BU_G 2 5 5) 0x3040, putReg (R.BU_G 2 5 4) 192] ++ l)
def svc (k : Nat) : BuCmd := { cmd with flags := 4, svcCtl := k, args := [0x1200, 0x3040, 192,0,0,0,0] }

def w_1 : Word := word 0x10 6 3 5 4 5 0 0 2 4
def s_1 : State := t1 0x10 5 0 0 4
def w_2 : Word := word 0x11 6 3 5 4 5 0 0 2 4
def s_2 : State := t1 0x11 5 0 0 4
def w_3 : Word := word 0x12 6 3 5 4 5 0 0 2 4
def s_3 : State := t1 0x12 5 0 0 4
def w_4 : Word := word 0x13 6 3 5 4 5 0 0 2 4
def s_4 : State := t1 0x13 5 0 0 4
def w_5 : Word := word 0x14 6 3 5 4 5 0 1 2 4
def s_5 : State := t1 0x14 5 0 1 4
def w_6 : Word := word 0x15 6 3 5 4 5 0 2 2 4
def s_6 : State := st (word 0x15 6 3 5 4 5 0 2 2 4) [putBuf 21 BUF_S [⟨0x11223344,false⟩,⟨0x55667788,false⟩,⟨0x99,false⟩]]
/-- UnitBuffers: states and operands that meet the hypotheses of its clauses. -/
theorem test_unit_buffers :
    (((s_1.buPc 21 < 511) ∧
      (unitOwns s_1 21) ∧
      (unitAt s_1 21 w_1 16) ∧
      ((buFields w_1).sub = 0) ∧
      ((buFields w_1).y = false) ∧
      (0 < (buFields w_1).n) ∧
      ((buFields w_1).n ≤ 1024) ∧
      ((buFields w_1).fmt ≠ 3) ∧
      ((buFields w_1).fmt ≠ 4) ∧
      (BitVec.toNat (s_1.bug 21 (buFields w_1).a) % 8 = 0)) ∧
      (localReady s_1 21
        (BitVec.toNat (s_1.bug 21 (buFields w_1).a))
        (buSize (buFields w_1).fmt (buFields w_1).n))) ∧
    (((s_2.buPc 21 < 511) ∧
      (unitOwns s_2 21) ∧
      (0 < s_2.buCnt 21 (buFields w_2)) ∧
      (s_2.buCnt 21 (buFields w_2) ≤ 1024) ∧
      ((buFields w_2).sub = 0) ∧
      ((buFields w_2).y = false) ∧
      (BitVec.toNat (s_2.bug 21 (buFields w_2).a) % 8 = 0) ∧
      (unitAt s_2 21 w_2 17)) ∧
      (localReady s_2 21
        (BitVec.toNat (s_2.bug 21 (buFields w_2).a))
        (4 * s_2.buCnt 21 (buFields w_2)))) ∧
    (((s_3.buPc 21 < 511) ∧
      (unitOwns s_3 21) ∧
      (0 < s_3.buCnt 21 (buFields w_3)) ∧
      (s_3.buCnt 21 (buFields w_3) ≤ 1024) ∧
      ((buFields w_3).sub = 0) ∧
      ((buFields w_3).y = false) ∧
      (BitVec.toNat (s_3.bug 21 (buFields w_3).a) % 8 = 0) ∧
      (unitAt s_3 21 w_3 18)) ∧
      (localReady s_3 21
        (BitVec.toNat (s_3.bug 21 (buFields w_3).a))
        (4 * s_3.buCnt 21 (buFields w_3)))) ∧
    (((s_4.buPc 21 < 511) ∧
      (unitOwns s_4 21) ∧
      (unitAt s_4 21 w_4 19) ∧
      ((buFields w_4).sub = 0) ∧
      ((buFields w_4).y = false) ∧
      (BitVec.toNat (s_4.bug 21 (buFields w_4).a) % 8 = 0)) ∧
      (localReady s_4 21
        (BitVec.toNat (s_4.bug 21 (buFields w_4).a)) 1024)) ∧
    ((s_5.buPc 21 < 511) ∧
      (unitOwns s_5 21) ∧
      (unitAt s_5 21 w_5 20) ∧
      (0 <
        if (buFields w_5).aux = 2 then
          s_5.buCnt 21 (buFields w_5)
        else (buFields w_5).n) ∧
      ((if (buFields w_5).aux = 2 then
          s_5.buCnt 21 (buFields w_5)
        else (buFields w_5).n) ≤
        1024)) ∧
    (((s_6.buPc 21 < 511) ∧
      (unitOwns s_6 21) ∧
      (unitAt s_6 21 w_6 21) ∧
      ((buFields w_6).sub = 0) ∧
      ((buFields w_6).aux = 2) ∧
      ((buFields w_6).y = false) ∧
      (0 < s_6.buCnt 21 (buFields w_6)) ∧
      (s_6.buCnt 21 (buFields w_6) ≤ 1024) ∧
      (BitVec.toNat (s_6.bug 21 (buFields w_6).d) % 8 = 0) ∧
      (bufferClean s_6 21 BUF_S
        (s_6.buCnt 21 (buFields w_6))) ∧
      (s_6.get (R.BU_CTRL_snoop_mask 2 5) = 0)) ∧
      (localReady s_6 21
        (BitVec.toNat (s_6.bug 21 (buFields w_6).d))
        (4 * s_6.buCnt 21 (buFields w_6)))) :=
    ⟨And.imp id localReady_of (by unfold unitOwns unitAt; decide +kernel),
    And.imp id localReady_of (by unfold unitOwns unitAt; decide +kernel),
    And.imp id localReady_of (by unfold unitOwns unitAt; decide +kernel),
    And.imp id localReady_of (by unfold unitOwns unitAt; decide +kernel),
    (by unfold unitOwns unitAt; decide +kernel),
    And.imp id localReady_of (by unfold unitOwns unitAt bufferClean; decide +kernel)⟩

def w_7 : Word := w22b
def s_7 : State := st w22b [q, putReg (R.BU_G 2 5 4) 2]
def w_8 : Word := w21
def s_8 : State := st w21 [ss, va]
def w_9 : Word := w20
def s_9 : State := st w20 [putReg (R.BU_G 2 5 4) 2]
def w_10 : Word := w23
def s_10 : State := st w23 [ss]
/-- UnitOperations: states and operands that meet the hypotheses of its clauses. -/
theorem test_unit_operations :
    ((s_7.buPc 21 < 511) ∧
      (unitOwns s_7 21) ∧
      (unitAt s_7 21 w_7 34) ∧
      (recordsReady s_7 21 (buFields w_7)
        (s_7.buCnt 21 (buFields w_7))) ∧
      ((buFields w_7).fmt ≠ 3) ∧
      ((buFields w_7).fmt ≠ 4) ∧
      (bufferClean s_7 21 BUF_Q (buFields w_7).n)) ∧
    ((s_8.buPc 21 < 511) ∧
      (unitOwns s_8 21) ∧
      (unitAt s_8 21 w_8 33) ∧
      (recordsReady s_8 21 (buFields w_8)
        (s_8.buCnt 21 (buFields w_8))) ∧
      (s_8.buCnt 21 (buFields w_8) = 1) ∧
      ((buFields w_8).fmt ≠ 3) ∧
      ((buFields w_8).fmt ≠ 4) ∧
      (bufferClean s_8 21 BUF_VA (buFields w_8).n) ∧
      (bufferClean s_8 21 BUF_S 1)) ∧
    (((s_9.buPc 21 < 511) ∧
      (unitOwns s_9 21) ∧
      (unitAt s_9 21 w_9 32) ∧
      (recordsReady s_9 21 (buFields w_9)
        (s_9.buCnt 21 (buFields w_9))) ∧
      ((buFields w_9).sub = 0) ∧
      (BitVec.toNat (s_9.bug 21 (buFields w_9).d) % 8 = 0) ∧
      (∀ j < s_9.buCnt 21 (buFields w_9),
        apart (recordAt s_9 21 (buFields w_9) j)
          (buSize (buFields w_9).fmt (buFields w_9).n)
          (BitVec.toNat (s_9.bug 21 (buFields w_9).d))
          (s_9.buCnt 21 (buFields w_9) *
            buSize (buFields w_9).fmt (buFields w_9).n)) ∧
      (s_9.get (R.BU_CTRL_snoop_mask 2 5) = 0)) ∧
      (localReady s_9 21
        (BitVec.toNat (s_9.bug 21 (buFields w_9).d))
        (s_9.buCnt 21 (buFields w_9) *
          buSize (buFields w_9).fmt (buFields w_9).n))) ∧
    ((s_10.buPc 21 < 511) ∧
      (unitOwns s_10 21) ∧
      (unitAt s_10 21 w_10 35) ∧
      ((buFields w_10).sub = 0) ∧
      (0 < s_10.buCnt 21 (buFields w_10)) ∧
      (s_10.buCnt 21 (buFields w_10) ≤ 1024) ∧
      (bufferClean s_10 21 BUF_S
        (s_10.buCnt 21 (buFields w_10)))) :=
    ⟨(by unfold unitOwns unitAt recordsReady recordAt localReady wordSound bufferClean; decide +kernel),
    (by unfold unitOwns unitAt recordsReady recordAt localReady wordSound bufferClean; decide +kernel),
    And.imp id localReady_of (by unfold unitOwns unitAt recordsReady recordAt localReady wordSound apart; decide +kernel),
    (by unfold unitOwns unitAt bufferClean; decide +kernel)⟩

def w_11 : Word := blk 0x24 0 0
def s_11 : State := stb 0x24 []
def w_12 : Word := blk 0x25 0 0
def s_12 : State := stb 0x25 []
def w_13 : Word := blk 0x26 0 0
def s_13 : State := stb 0x26 []
def s_14 : State := stb 0x24 [.upd (.buQ 21 [svc 0])]
def c_1 : BuCmd := svc 0
def rest_1 : List BuCmd := ([] : List BuCmd)
def s_15 : State := stb 0x24 [.upd (.buQ 21 [svc 1])]
def c_2 : BuCmd := svc 1
def rest_2 : List BuCmd := ([] : List BuCmd)
def s_16 : State := stb 0x24 [.upd (.buQ 21 [svc 2])]
def c_3 : BuCmd := svc 2
def rest_3 : List BuCmd := ([] : List BuCmd)
/-- UnitBlockMoves: states and operands that meet the hypotheses of its clauses. -/
theorem test_unit_block_moves :
    (((s_11.power ≠ Power.off) ∧
      (s_11.get (R.BU_CTRL_snoop_mask 2 5) = 0) ∧
      (s_11.buPc 21 < 511) ∧
      (unitOwns s_11 21) ∧
      ((buFields w_11).y = false) ∧
      (unitAt s_11 21 w_11 36) ∧
      ((buFields w_11).sub = 0) ∧
      (BitVec.toNat (s_11.bug 21 (buFields w_11).a) % 64 = 0) ∧
      (s_11.buCnt 21 (buFields w_11) % 64 = 0) ∧
      (BitVec.toNat (s_11.bug 21 (buFields w_11).b) % 64 = 0) ∧
      (apart (BitVec.toNat (s_11.bug 21 (buFields w_11).a))
        (s_11.buCnt 21 (buFields w_11))
        (BitVec.toNat (s_11.bug 21 (buFields w_11).b))
        (s_11.buCnt 21 (buFields w_11)))) ∧
      (localReady s_11 21
        (BitVec.toNat (s_11.bug 21 (buFields w_11).a))
        (s_11.buCnt 21 (buFields w_11))) ∧
      (localReady s_11 21
        (BitVec.toNat (s_11.bug 21 (buFields w_11).b))
        (s_11.buCnt 21 (buFields w_11)))) ∧
    (((s_12.power ≠ Power.off) ∧
      (s_12.get (R.BU_CTRL_snoop_mask 2 5) = 0) ∧
      (s_12.buPc 21 < 511) ∧
      (unitOwns s_12 21) ∧
      ((buFields w_12).y = false) ∧
      (unitAt s_12 21 w_12 37) ∧
      (BitVec.toNat (s_12.bug 21 (buFields w_12).a) % 64 = 0) ∧
      (s_12.buCnt 21 (buFields w_12) % 64 = 0)) ∧
      (localReady s_12 21
        (BitVec.toNat (s_12.bug 21 (buFields w_12).a))
        (s_12.buCnt 21 (buFields w_12)))) ∧
    (((s_13.power ≠ Power.off) ∧
      (s_13.get (R.BU_CTRL_snoop_mask 2 5) = 0) ∧
      (s_13.buPc 21 < 511) ∧
      (unitOwns s_13 21) ∧
      ((buFields w_13).y = false) ∧
      (unitAt s_13 21 w_13 38) ∧
      (BitVec.toNat (s_13.bug 21 (buFields w_13).a) % 64 = 0) ∧
      (s_13.buCnt 21 (buFields w_13) % 64 = 0)) ∧
      (localReady s_13 21
        (BitVec.toNat (s_13.bug 21 (buFields w_13).a))
        (s_13.buCnt 21 (buFields w_13)))) ∧
    (((s_14.power ≠ Power.off) ∧
      (s_14.get (R.BU_CTRL_snoop_mask 2 5) = 0) ∧
      (s_14.buQAt 21 = c_1 :: rest_1) ∧
      (∀ z ∈ rest_1, z.id ≠ c_1.id) ∧
      (c_1.running = true) ∧
      (c_1.svc = true) ∧
      (c_1.svcCtl / 8 % 4 = 0) ∧
      (c_1.kvt = none) ∧
      (c_1.flags = 4) ∧
      (c_1.poisoned = false) ∧
      (c_1.forced = false) ∧
      (s_14.heldAt 21 = []) ∧
      (s_14.buMode 21 = true → s_14.buSlotAt 21 = 1) ∧
      (c_1.svcCtl % 8 = 0) ∧
      (c_1.arg 0 % 64 = 0) ∧
      (c_1.arg 2 % 64 = 0) ∧
      (c_1.arg 1 % 64 = 0) ∧
      (apart (c_1.arg 0) (c_1.arg 2) (c_1.arg 1)
        (c_1.arg 2))) ∧
      (localReady s_14 21 (c_1.arg 0) (c_1.arg 2)) ∧
      (localReady s_14 21 (c_1.arg 1) (c_1.arg 2))) ∧
    (((s_15.power ≠ Power.off) ∧
      (s_15.get (R.BU_CTRL_snoop_mask 2 5) = 0) ∧
      (s_15.buQAt 21 = c_2 :: rest_2) ∧
      (∀ z ∈ rest_2, z.id ≠ c_2.id) ∧
      (c_2.running = true) ∧
      (c_2.svc = true) ∧
      (c_2.svcCtl / 8 % 4 = 0) ∧
      (c_2.kvt = none) ∧
      (c_2.flags = 4) ∧
      (c_2.poisoned = false) ∧
      (c_2.forced = false) ∧
      (s_15.heldAt 21 = []) ∧
      (s_15.buMode 21 = true → s_15.buSlotAt 21 = 1) ∧
      (c_2.svcCtl % 8 = 1) ∧
      (c_2.arg 0 % 64 = 0) ∧
      (c_2.arg 2 % 64 = 0)) ∧
      (localReady s_15 21 (c_2.arg 0) (c_2.arg 2))) ∧
    (((s_16.power ≠ Power.off) ∧
      (s_16.get (R.BU_CTRL_snoop_mask 2 5) = 0) ∧
      (s_16.buQAt 21 = c_3 :: rest_3) ∧
      (∀ z ∈ rest_3, z.id ≠ c_3.id) ∧
      (c_3.running = true) ∧
      (c_3.svc = true) ∧
      (c_3.svcCtl / 8 % 4 = 0) ∧
      (c_3.kvt = none) ∧
      (c_3.flags = 4) ∧
      (c_3.poisoned = false) ∧
      (c_3.forced = false) ∧
      (s_16.heldAt 21 = []) ∧
      (s_16.buMode 21 = true → s_16.buSlotAt 21 = 1) ∧
      (c_3.svcCtl % 8 = 2) ∧
      (c_3.arg 0 % 64 = 0) ∧
      (c_3.arg 2 % 64 = 0)) ∧
      (localReady s_16 21 (c_3.arg 0) (c_3.arg 2))) :=
    ⟨And.imp id (And.imp localReady_of localReady_of) (by unfold unitOwns unitAt apart; decide +kernel),
    And.imp id localReady_of (by unfold unitOwns unitAt; decide +kernel),
    And.imp id localReady_of (by unfold unitOwns unitAt; decide +kernel),
    And.imp id (And.imp localReady_of localReady_of) (by unfold apart; decide +kernel),
    And.imp id localReady_of (by decide +kernel),
    And.imp id localReady_of (by decide +kernel)⟩

end UnitData

namespace UnitMode

def cmd : BuCmd := ⟨9, 5, 1, 0, 77, 0, [1,2,3,4,5,6,7], none, 0, false, false, false, false, none, none⟩
def who : Agent := .core 1
def lic := putBit R.LIC_FEATURES_bu_proc true
def req := putBit (R.BU_MODE_req 2 5) true
def pend := putBit (R.BU_MODE_pending 2 5) true
def mode := putBit (R.BU_STATUS_mode 2 5) true
def q := Eff.upd (.buQ 21 [cmd, { cmd with id := 10 }])
def va := buAddr 21 0x1010
def hq := mk [mode, .upd (.buQ 21 [{ cmd with running := true }]), put (R.BU_STATUS_state 2 5) 1, .upd (.held 21 [⟨.core 0, 5, va, 16, none, 0, va, 16⟩]), pokeBytes va [1,2,3,4,5]]

def s_1 : State := mk [lic, pend, mode]
def s_2 : State := mk [putBit R.LIC_FEATURES_bu_proc false]
def s_3 : State := mk [lic, putRegBit (R.SVC_RETIRED_BU 0) 21 true]
def s_4 : State := mk [lic, req, pend]
def s_5 : State := mk [lic, req, mode]
def s_6 : State := mk [lic, pend, mode, .upd (.buQ 21 [cmd])]
/-- UnitModes: states and operands that meet the hypotheses of its clauses. -/
theorem test_unit_modes :
    ((writable (Agent.core 1) 41 20496 s_1) ∧
      (s_1.bit (R.BU_MODE_req 2 5) = false) ∧
      (s_1.unitRetired 21 = false) ∧
      (s_1.bit R.LIC_FEATURES_bu_proc = true) ∧
      (s_1.power ≠ Power.off) ∧
      (s_1.bit (R.BU_MODE_pending 2 5) = true) ∧
      (s_1.heldAt 21 = []) ∧
      (s_1.buQAt 21 = []) ∧
      (∀ x ∈ s_1.buQAt 21, x.kvt = none) ∧
      (s_1.bu 21 ≠ BU_FAULTED)) ∧
    ((writable (Agent.core 1) 41 20496 s_2) ∧
      (s_2.bit (R.BU_MODE_req 2 5) = false) ∧
      (s_2.unitRetired 21 = false) ∧
      (s_2.bit R.LIC_FEATURES_bu_proc = false)) ∧
    ((writable (Agent.core 1) 41 20496 s_3) ∧
      (s_3.bit (R.BU_MODE_req 2 5) = false) ∧
      (s_3.unitRetired 21 = true)) ∧
    ((s_4.power ≠ Power.off) ∧
      (s_4.bit (R.BU_MODE_pending 2 5) = true) ∧
      (s_4.bit (R.BU_MODE_req 2 5) = true)) ∧
    ((writable (Agent.core 1) 41 20496 s_5) ∧
      (s_5.bit (R.BU_MODE_req 2 5) = true) ∧
      (s_5.buMode 21 = true) ∧
      (s_5.unitRetired 21 = false)) ∧
    ((s_6.power ≠ Power.off) ∧
      (s_6.bit (R.BU_MODE_pending 2 5) = true) ∧
      (s_6.bit (R.BU_MODE_req 2 5) = false) ∧
      (s_6.heldAt 21 = []) ∧
      (s_6.buQAt 21 ≠ [])) :=
    ⟨(by unfold writable; decide +kernel),
    (by unfold writable; decide +kernel),
    (by unfold writable; decide +kernel),
    (by decide +kernel),
    (by unfold writable; decide +kernel),
    (by decide +kernel)⟩

def s_7 : State := mk [mode, q]
def x_1 : BuCmd := cmd
def rest_1 : List BuCmd := [{ cmd with id := 10 }]
def s_8 : State := hq
def x_2 : BuCmd := { cmd with running := true }
def rest_2 : List BuCmd := ([] : List BuCmd)
/-- UnitCommands: states and operands that meet the hypotheses of its clauses. -/
theorem test_unit_commands :
    ((s_7.power ≠ Power.off) ∧
      (s_7.buQAt 21 = x_1 :: rest_1) ∧
      (s_7.bu 21 = BU_IDLE) ∧
      (x_1.running = false) ∧
      (x_1.svc = true ∨ s_7.buMode 21 = true) ∧
      (x_1.entry < 512) ∧
      (writable (Agent.core 1) 41 20480 s_7) ∧
      (s_7.heldAt 21 = []) ∧
      (∀ x ∈ s_7.buQAt 21, x.kvt = none) ∧
      (writable (Agent.core 1) 42 20504 s_7) ∧
      (s_7.bu 21 = BU_IDLE ∨ s_7.bu 21 = BU_FAULTED)) ∧
    (((s_8.power ≠ Power.off) ∧
      (s_8.buQAt 21 = [] ∨ s_8.bu 21 ≠ BU_IDLE) ∧
      (writable (Agent.core 1) 42 20504 s_8) ∧
      (s_8.bu 21 ≠ BU_IDLE) ∧
      (s_8.bu 21 ≠ BU_FAULTED) ∧
      (s_8.buMode 21 = true) ∧
      (s_8.buQAt 21 = x_2 :: rest_2) ∧
      (x_2.running = true) ∧
      (s_8.heldAt 21 =
        [{ who := Agent.core 0, tag := 5, addr := va, len := 16, write := none, since := s_8.now,
            base := va, whole := 16 }]) ∧
      (unitOf va = 21) ∧
      (s_8.cached va = false) ∧
      (s_8.shared va = false) ∧
      (∀ w ∈ wordsOf va 16, wordSound s_8 w)) ∧
      (vaultOpen s_8 va 16)) :=
    ⟨(by unfold writable; decide +kernel),
    ⟨by unfold writable wordSound; decide +kernel,
      ⟨⟨_, rfl⟩, by decide +kernel, by decide +kernel⟩⟩⟩

end UnitMode

namespace KvtBasic

def V := 3 * 0x18000000
def setup := Eff.all [putBit (R.KVT_CTRL_enable 3) true, put (R.KVT_SEQ_BASE_base 3) ((V + 0x100000) / 64), put (R.KVT_RC_BASE_base 3) ((V + 0x200000)/64), put (R.KVT_RC_BASE_entries_log2 3) 12,
  put (R.KVT_LAYOUT_rec_log2 3 2) 6, putBit (R.KVT_LAYOUT_valid 3 2) true, put (R.KVT_LAYOUT_home_pc 3 2) 4,
  put (R.KVT_FL_BASE_base 3 4) ((V+0x300000)/8), put (R.KVT_FL_BASE_size_log2 3 4) 6]
def ent (a : Nat) (glob : Nat) := toLE 8 a ++ toLE 2 8 ++ [3, 1] ++ toLE 2 glob ++ toLE 2 0 ++ toLE 8 0 ++ toLE 4 4000 ++ toLE 4 0
def seqE (q a glob : Nat) := pokeBytes (V + 0x100000 + q * 32) (ent a glob)
def pte (a lh b p : Nat) := pokeBytes (a + 8 * (lh * 8 + b)) (toLE 8 p)
def rcp (i n : Nat) := pokeBytes (V + 0x200000 + 4 * i) (toLE 4 n)
def PT := V + 0x110000
def PT2 := V + 0x120000
def ppn (u k : Nat) := (24 + u) * 1024 + k
def mkp (pres ext cow glob pp rc : Nat) := pres + ext * 2 + cow * 4 + glob * 8 + pp * 16 + rc * 2^26
def desc (code flags lh n t0 t1 buf bufMax aux : Nat) (sq : Nat := 7) : List Byte := [BitVec.ofNat 8 code, BitVec.ofNat 8 flags, 5, 0] ++ toLE 2 sq ++ [BitVec.ofNat 8 lh, BitVec.ofNat 8 n] ++ toLE 4 t0 ++ toLE 4 t1 ++ toLE 4 buf ++ toLE 2 bufMax ++ toLE 2 aux ++ toLE 8 0
def op (d : List Byte) : KvOp := kvOp 55 (some 0x40) (some 2) (9, 0xFF) d
def own := put (ownFld 3 0) (9 + 16 * 0xFF)
def rec := pokeBytes (sramAddr 3 0x1000) ((List.range 64).map fun i => BitVec.ofNat 8 (i+3))
def st (x : KvOp) (l : List Eff) := mk ([setup, own, rec, seqE 7 PT 5, .upd (.kvtQ 3 [x])] ++ l)
def P := mkp 1 0 0 0 (ppn 4 9) 33
def xw := op (desc 1 0 2 1 100 200 0x1000 4 0)
def xs := op (desc 6 0 2 1 1030 0 0x1000 4 0)
def xa := op (desc 2 0 2 1 1030 0 0x1000 4 0)
def Q := mkp 0 0 0 0 (ppn 4 11) 34
def fl := Eff.all [put (R.KVT_FL_STATE_tail 3 4) 5, put (R.KVT_FL_STATE_head 3 4) 4, pokeBytes (V+0x300000+32) (toLE 8 Q)]
def xa2 := op (desc 2 0 0 1 1030 0 0x1000 4 0)
def lay0 := Eff.all [put (R.KVT_LAYOUT_rec_log2 3 0) 6, putBit (R.KVT_LAYOUT_valid 3 0) true, put (R.KVT_LAYOUT_home_pc 3 0) 4]
def entLow (a glob : Nat) := toLE 8 a ++ toLE 2 8 ++ [1, 1] ++ toLE 2 glob ++ toLE 2 0 ++ toLE 8 0 ++ toLE 4 4000 ++ toLE 4 0
def xr := op (desc 4 0 2 1 0 1024 0x1000 4 0)
def xsh := op (desc 3 0 2 1 0 1000 0x1000 4 8)
def xm := op (desc 5 2 2 1 1000 0 0 0 0)
def xg := op (desc 7 0 2 1 0 1024 0 0 1)

def x_1 : KvOp := xw
def s_1 : State := st xw [pte PT 2 0 P]
def x_2 : KvOp := xs
def s_2 : State := st xs [pte PT 2 1 P]
def x_3 : KvOp := xa
def s_3 : State := st xa [pte PT 2 1 P]
def x_4 : KvOp := xa2
def s_4 : State := st xa2 [lay0, fl, pokeBytes (V + 0x100000 + 7 * 32) (entLow PT 5)]
/-- KvtWalkAppendStage: states and operands that meet the hypotheses of its clauses. -/
theorem test_kvt_walk_append_stage :
    (((0 < x_1.bufMax) ∧
      (x_1.buf + 16 ≤ 3145728) ∧
      (sramReady s_1 3 x_1.buf 16
        x_1.cls)) ∧
      (kvStarts s_1 3 1 x_1 2 0)) ∧
    (((0 < x_2.bufMax) ∧
      (x_2.buf + 16 ≤ 3145728) ∧
      (sramReady s_2 3 x_2.buf 16
        x_2.cls) ∧
      ((ptPresent
            (kvPteOf s_2
              (Claims.kvEntry s_2 3 x_2.seq) 2 1) &&
          ptExt
            (kvPteOf s_2
              (Claims.kvEntry s_2 3 x_2.seq) 2 1)) =
        false)) ∧
      (kvStarts s_2 3 6 x_2 2 1)) ∧
    (((ptPresent
          (kvPteOf s_3
            (Claims.kvEntry s_3 3 x_3.seq) 2 1) =
        true) ∧
      (ptCow
          (kvPteOf s_3
            (Claims.kvEntry s_3 3 x_3.seq) 2 1) =
        false) ∧
      (x_3.buf + s_3.kvR 3 2 ≤ 3145728) ∧
      (sramReady s_3 3 x_3.buf
        (s_3.kvR 3 2) x_3.cls) ∧
      (x_3.t0 % s_3.kvT 3 2 *
              s_3.kvR 3 2 %
            64 +
          s_3.kvR 3 2 ≤
        64)) ∧
      (kvStarts s_3 3 2 x_3 2 1) ∧
      (memReady s_3 (Agent.kvt 3)
        (pageAt
          (kvPteOf s_3
            (Claims.kvEntry s_3 3 x_3.seq) 2 1)
          (x_3.t0 % s_3.kvT 3 2 *
            s_3.kvR 3 2))
        (s_3.kvR 3 2))) ∧
    (((ptPresent
          (kvPteOf s_4
            (Claims.kvEntry s_4 3 x_4.seq) 0 1) =
        false) ∧
      ((Claims.kvEntry s_4 3 x_4.seq).nLh ≤ 1) ∧
      (s_4.kvHome 3 0 1 < 8) ∧
      (0 < s_4.flCount 3 (s_4.kvHome 3 0 1)) ∧
      (s_4.flCheck 3 (s_4.kvHome 3 0 1)
          (leNat
            (s_4.bytes
              (s_4.flAddr 3 (s_4.kvHome 3 0 1)
                (s_4.get
                  (R.KVT_FL_STATE_head 3 (s_4.kvHome 3 0 1))))
              8)) =
        ST_OK) ∧
      ((kvCountOf s_4 3
            (leNat
              (s_4.bytes
                (s_4.flAddr 3 (s_4.kvHome 3 0 1)
                  (s_4.get
                    (R.KVT_FL_STATE_head 3 (s_4.kvHome 3 0 1))))
                8))).1 =
        0) ∧
      (x_4.buf + s_4.kvR 3 0 ≤ 3145728) ∧
      (sramReady s_4 3 x_4.buf
        (s_4.kvR 3 0) x_4.cls) ∧
      (x_4.t0 % s_4.kvT 3 0 *
              s_4.kvR 3 0 %
            64 +
          s_4.kvR 3 0 ≤
        64)) ∧
      (kvStarts s_4 3 2 x_4 0 1) ∧
      (memReady s_4 (Agent.kvt 3)
        (s_4.flAddr 3 (s_4.kvHome 3 0 1)
          (s_4.get (R.KVT_FL_STATE_head 3 (s_4.kvHome 3 0 1))))
        8) ∧
      (memReady s_4 (Agent.kvt 3)
        (s_4.rcAddr 3
          (ptRc
            (leNat
              (s_4.bytes
                (s_4.flAddr 3 (s_4.kvHome 3 0 1)
                  (s_4.get
                    (R.KVT_FL_STATE_head 3 (s_4.kvHome 3 0 1))))
                8))))
        4) ∧
      (memReady s_4 (Agent.kvt 3)
        (pageAt
          (leNat
            (s_4.bytes
              (s_4.flAddr 3 (s_4.kvHome 3 0 1)
                (s_4.get
                  (R.KVT_FL_STATE_head 3 (s_4.kvHome 3 0 1))))
              8))
          (x_4.t0 % s_4.kvT 3 0 *
            s_4.kvR 3 0))
        (s_4.kvR 3 0))) :=
    ⟨And.imp id kvStarts_of (by unfold sramReady; decide +kernel),
    And.imp id kvStarts_of (by unfold sramReady; decide +kernel),
    And.imp id (And.imp kvStarts_of memReady_of) (by unfold sramReady; decide +kernel),
    And.imp id (And.imp kvStarts_of (And.imp memReady_of (And.imp memReady_of memReady_of))) (by unfold sramReady; decide +kernel)⟩

def x_5 : KvOp := xr
def s_5 : State := st xr [pte PT 2 0 P, rcp 33 2]
def x_6 : KvOp := xr
def s_6 : State := st xr [pte PT 2 0 P, rcp 33 1, fl]
def x_7 : KvOp := xsh
def s_7 : State := st xsh [seqE 8 PT2 0, pte PT2 2 0 P, rcp 33 1, fl]
def x_8 : KvOp := xm
def s_8 : State := st xm [pte PT 2 0 P]
def x_9 : KvOp := xg
def s_9 : State := st xg [pte PT 2 0 P, rcp 33 1]
/-- KvtPageOperations: states and operands that meet the hypotheses of its clauses. -/
theorem test_kvt_page_operations :
    (((ptPresent
          (kvPteOf s_5
            (Claims.kvEntry s_5 3 x_5.seq) 2 0) =
        true) ∧
      (apart
        (s_5.rcAddr 3
          (ptRc
            (kvPteOf s_5
              (Claims.kvEntry s_5 3 x_5.seq) 2 0)))
        4 ((Claims.kvEntry s_5 3 x_5.seq).pte 2 0) 8) ∧
      ((kvCountOf s_5 3
            (kvPteOf s_5
              (Claims.kvEntry s_5 3 x_5.seq) 2 0)).2 =
        false) ∧
      (1 <
        (kvCountOf s_5 3
            (kvPteOf s_5
              (Claims.kvEntry s_5 3 x_5.seq) 2 0)).1)) ∧
      (kvStarts s_5 3 4 x_5 2 0) ∧
      (memReady s_5 (Agent.kvt 3)
        (s_5.rcAddr 3
          (ptRc
            (kvPteOf s_5
              (Claims.kvEntry s_5 3 x_5.seq) 2 0)))
        4)) ∧
    (((ptPresent
          (kvPteOf s_6
            (Claims.kvEntry s_6 3 x_6.seq) 2 0) =
        true) ∧
      (apart
        (s_6.rcAddr 3
          (ptRc
            (kvPteOf s_6
              (Claims.kvEntry s_6 3 x_6.seq) 2 0)))
        4 ((Claims.kvEntry s_6 3 x_6.seq).pte 2 0) 8) ∧
      ((kvCountOf s_6 3
            (kvPteOf s_6
              (Claims.kvEntry s_6 3 x_6.seq) 2 0)).2 =
        false) ∧
      ((kvCountOf s_6 3
            (kvPteOf s_6
              (Claims.kvEntry s_6 3 x_6.seq) 2 0)).1 =
        1) ∧
      (s_6.flCount 3
          (flOf
            (kvPteOf s_6
              (Claims.kvEntry s_6 3 x_6.seq) 2 0)) <
        s_6.flSize 3
          (flOf
            (kvPteOf s_6
              (Claims.kvEntry s_6 3 x_6.seq) 2 0)))) ∧
      (kvStarts s_6 3 4 x_6 2 0) ∧
      (memReady s_6 (Agent.kvt 3)
        (s_6.rcAddr 3
          (ptRc
            (kvPteOf s_6
              (Claims.kvEntry s_6 3 x_6.seq) 2 0)))
        4) ∧
      (memReady s_6 (Agent.kvt 3)
        (s_6.flAddr 3
          (flOf
            (kvPteOf s_6
              (Claims.kvEntry s_6 3 x_6.seq) 2 0))
          (s_6.get
            (R.KVT_FL_STATE_tail 3
              (flOf
                (kvPteOf s_6
                  (Claims.kvEntry s_6 3 x_6.seq) 2 0)))))
        8)) ∧
    (((ptPresent
          (kvPteOf s_7
            (Claims.kvEntry s_7 3 x_7.seq) 2 0) =
        false) ∧
      ((Claims.kvEntry s_7 3 x_7.aux).flags % 2 = 1) ∧
      ((Claims.kvEntry s_7 3 x_7.aux).nLh =
        (Claims.kvEntry s_7 3 x_7.seq).nLh) ∧
      ((Claims.kvEntry s_7 3 x_7.aux).ppl =
        (Claims.kvEntry s_7 3 x_7.seq).ppl) ∧
      (ptPresent
          (kvPteOf s_7
            (Claims.kvEntry s_7 3 x_7.aux) 2 0) =
        true) ∧
      ((kvCountOf s_7 3
            (kvPteOf s_7
              (Claims.kvEntry s_7 3 x_7.aux) 2 0)).2 =
        false) ∧
      ((kvCountOf s_7 3
            (kvPteOf s_7
              (Claims.kvEntry s_7 3 x_7.aux) 2 0)).1 <
        65535) ∧
      (apart
        (s_7.rcAddr 3
          (ptRc
            (kvPteOf s_7
              (Claims.kvEntry s_7 3 x_7.aux) 2 0)))
        4 ((Claims.kvEntry s_7 3 x_7.seq).pte 2 0) 8) ∧
      (apart
        (s_7.rcAddr 3
          (ptRc
            (kvPteOf s_7
              (Claims.kvEntry s_7 3 x_7.aux) 2 0)))
        4 ((Claims.kvEntry s_7 3 x_7.aux).pte 2 0) 8)) ∧
      (kvStarts s_7 3 3 x_7 2 0) ∧
      (memReady s_7 (Agent.kvt 3)
        (s_7.kvSeqAddr 3 x_7.aux) 32) ∧
      (memReady s_7 (Agent.kvt 3)
        ((Claims.kvEntry s_7 3 x_7.aux).pte 2 0) 8) ∧
      (memReady s_7 (Agent.kvt 3)
        (s_7.rcAddr 3
          (ptRc
            (kvPteOf s_7
              (Claims.kvEntry s_7 3 x_7.aux) 2 0)))
        4)) ∧
    (((ptPresent
          (kvPteOf s_8
            (Claims.kvEntry s_8 3 x_8.seq) 2 0) =
        true) ∧
      (ptExt
          (kvPteOf s_8
            (Claims.kvEntry s_8 3 x_8.seq) 2 0) =
        false) ∧
      (x_8.flags / 2 % 2 = 1) ∧
      ((Claims.kvEntry s_8 3 x_8.seq).globals < 256) ∧
      (apart (s_8.kvSeqAddr 3 x_8.seq) 32
        ((Claims.kvEntry s_8 3 x_8.seq).pte 2 0) 8)) ∧
      (kvStarts s_8 3 5 x_8 2 0)) ∧
    (((ptPresent
          (kvPteOf s_9
            (Claims.kvEntry s_9 3 x_9.seq) 2 0) =
        true) ∧
      (apart
        (s_9.rcAddr 3
          (ptRc
            (kvPteOf s_9
              (Claims.kvEntry s_9 3 x_9.seq) 2 0)))
        4 ((Claims.kvEntry s_9 3 x_9.seq).pte 2 0) 8) ∧
      ((kvCountOf s_9 3
            (kvPteOf s_9
              (Claims.kvEntry s_9 3 x_9.seq) 2 0)).1 ≤
        1) ∧
      (ptExt
          (kvPteOf s_9
            (Claims.kvEntry s_9 3 x_9.seq) 2 0) =
        !x_9.aux % 2 == 1) ∧
      (x_9.aux % 2 = 1 →
        ptGlobal
            (kvPteOf s_9
              (Claims.kvEntry s_9 3 x_9.seq) 2 0) =
          false)) ∧
      (kvStarts s_9 3 7 x_9 2 0) ∧
      (memReady s_9 (Agent.kvt 3)
        (s_9.rcAddr 3
          (ptRc
            (kvPteOf s_9
              (Claims.kvEntry s_9 3 x_9.seq) 2 0)))
        4)) :=
    ⟨And.imp id (And.imp kvStarts_of memReady_of) (by unfold apart kvPteOf Claims.kvEntry; decide +kernel),
    And.imp id (And.imp kvStarts_of (And.imp memReady_of memReady_of)) (by unfold apart kvPteOf Claims.kvEntry; decide +kernel),
    And.imp id (And.imp kvStarts_of (And.imp memReady_of (And.imp memReady_of memReady_of))) (by unfold apart kvPteOf Claims.kvEntry; decide +kernel),
    And.imp id kvStarts_of (by unfold apart Claims.kvEntry; decide +kernel),
    And.imp id (And.imp kvStarts_of memReady_of) (by unfold apart kvPteOf Claims.kvEntry; decide +kernel)⟩

end KvtBasic

namespace KvtPages

def V := 3 * 0x18000000
def setup := Eff.all [putBit (R.KVT_CTRL_enable 3) true, put (R.KVT_SEQ_BASE_base 3) ((V + 0x100000) / 64), put (R.KVT_RC_BASE_base 3) ((V + 0x200000)/64), put (R.KVT_RC_BASE_entries_log2 3) 12,
  put (R.KVT_LAYOUT_rec_log2 3 2) 6, putBit (R.KVT_LAYOUT_valid 3 2) true, put (R.KVT_LAYOUT_home_pc 3 2) 4,
  put (R.KVT_FL_BASE_base 3 4) ((V+0x300000)/8), put (R.KVT_FL_BASE_size_log2 3 4) 6]
def ent (a : Nat) (glob : Nat) := toLE 8 a ++ toLE 2 8 ++ [3, 1] ++ toLE 2 glob ++ toLE 2 0 ++ toLE 8 0 ++ toLE 4 4000 ++ toLE 4 0
def seqE (q a glob : Nat) := pokeBytes (V + 0x100000 + q * 32) (ent a glob)
def pte (a lh b p : Nat) := pokeBytes (a + 8 * (lh * 8 + b)) (toLE 8 p)
def rcp (i n : Nat) := pokeBytes (V + 0x200000 + 4 * i) (toLE 4 n)
def PT := V + 0x110000
def ppn (u k : Nat) := (24 + u) * 1024 + k
def mkp (pres ext cow glob pp rc : Nat) := pres + ext * 2 + cow * 4 + glob * 8 + pp * 16 + rc * 2^26
def desc (code flags lh n t0 t1 buf bufMax aux : Nat) (sq : Nat := 7) : List Byte := [BitVec.ofNat 8 code, BitVec.ofNat 8 flags, 5, 0] ++ toLE 2 sq ++ [BitVec.ofNat 8 lh, BitVec.ofNat 8 n] ++ toLE 4 t0 ++ toLE 4 t1 ++ toLE 4 buf ++ toLE 2 bufMax ++ toLE 2 aux ++ toLE 8 0
def op (d : List Byte) : KvOp := kvOp 55 (some 0x40) (some 2) (9, 0xFF) d
def own := put (ownFld 3 0) (9 + 16 * 0xFF)
def rec := pokeBytes (sramAddr 3 0x1000) ((List.range 64).map fun i => BitVec.ofNat 8 (i+3))
def st (x : KvOp) (l : List Eff) := mk ([setup, own, rec, seqE 7 PT 5, .upd (.kvtQ 3 [x])] ++ l)
def P := mkp 1 0 0 0 (ppn 4 9) 33
def xw := op (desc 1 0 2 1 100 200 0x1000 4 0)
def xe0 := op (desc 8 0 2 1 0 1024 0 0 0)
def xe := { xe0 with desc := (xe0.desc.take 16) ++ toLE 8 (V + 0x400000) }
def pd (p : Nat) := Eff.each (List.range 5) fun i => pokeBytes (pageAt p (i * 13000)) [BitVec.ofNat 8 (i+1)]
def se := st xe [pte PT 2 0 P, rcp 33 1, pd P]
def Q := mkp 1 0 0 0 (ppn 4 11) 34
def xc0 := op (desc 2 0 2 1 30 0 0x1000 4 0)
def xc := { xc0 with phase := 1, todo := [⟨2,0,false⟩], copies := [⟨2,0,P,Q,some 4, some ST_OK⟩], locks := [5] }
def xk0 := op (desc 6 0 2 1 30 0 0x1000 4 0)
def xk := { xk0 with phase := 1, todo := [⟨2,0,false⟩], copies := [⟨2,0,P,Q,none, none⟩], locks := [5] }
def xz := { xw with phase := 2, status := 7, res0 := 0x11223344, res1 := 5 }

def x_1 : KvOp := xe
def s_1 : State := se
/-- KvtPageOperations: states and operands that meet the hypotheses of its clauses. -/
theorem test_kvt_page_operations :
    ((((x_1.dest = 65535) ∧
      (ptPresent
          (kvPteOf s_1
            (Claims.kvEntry s_1 3 x_1.seq) 2 0) =
        true) ∧
      (apart
        (s_1.rcAddr 3
          (ptRc
            (kvPteOf s_1
              (Claims.kvEntry s_1 3 x_1.seq) 2 0)))
        4 ((Claims.kvEntry s_1 3 x_1.seq).pte 2 0) 8) ∧
      (apart ((Claims.kvEntry s_1 3 x_1.seq).addr + 11) 1
        ((Claims.kvEntry s_1 3 x_1.seq).pte 2 0) 8) ∧
      (apart ((Claims.kvEntry s_1 3 x_1.seq).addr + 11) 1
        (s_1.rcAddr 3
          (ptRc
            (kvPteOf s_1
              (Claims.kvEntry s_1 3 x_1.seq) 2 0)))
        4)) ∧
      (kvStarts s_1 3 8 x_1 2 0) ∧
      (memReady s_1 (Agent.kvt 3)
        (s_1.rcAddr 3
          (ptRc
            (kvPteOf s_1
              (Claims.kvEntry s_1 3 x_1.seq) 2 0)))
        4) ∧
      (pageReady s_1 3
        (kvPteOf s_1
          (Claims.kvEntry s_1 3 x_1.seq) 2 0)
        ((Claims.kvEntry s_1 3 x_1.seq).addr + 11) 1) ∧
      (memReady s_1 (Agent.kvt 3) x_1.dst 65600)) ∧
      (∃ v, regionOf x_1.dst = Region.vault v)) :=
    ⟨And.imp id (And.imp kvStarts_of (And.imp memReady_of (And.imp pageReady_of memReady_of))) (by unfold apart kvPteOf Claims.kvEntry; decide +kernel),
      ⟨_, rfl⟩⟩

def x_2 : KvOp := xc
def s_2 : State := st xc [pte PT 2 0 P, rcp 33 2, pd P]
def x_3 : KvOp := xk
def s_3 : State := st xk [pte PT 2 0 P, rcp 33 2, pd P]
def m_1 : KvMove := ⟨7,2,0,0,none,P,Q⟩
def s_4 : State := st xw [pte PT 2 0 P, rcp 33 2, pd P, .upd (.kvtMoves 3 [⟨7,2,0,0,none,P,Q⟩])]
def rest_1 : List KvMove := []
/-- KvtCopies: states and operands that meet the hypotheses of its clauses. -/
theorem test_kvt_copies :
    (((s_2.power ≠ Power.off) ∧
      (s_2.kvtQAt 3 = [x_2]) ∧
      (x_2.code = 2) ∧
      (x_2.phase = 1) ∧
      (x_2.todo = [{ lh := 2, block := 0, pair := false }]) ∧
      (x_2.copies = [{ lh := 2, block := 0, old := P, new := Q, cmd := some 4, done := some ST_OK }]) ∧
      (x_2.status = ST_OK) ∧
      (s_2.kvtMovesAt 3 = []) ∧
      (x_2.lh = 2) ∧
      (apart (s_2.rcAddr 3 (ptRc P)) 4
        ((Claims.kvEntry s_2 3 x_2.seq).pte 2 0) 8) ∧
      ((kvCountOf s_2 3 P).2 = false) ∧
      (0 < (kvCountOf s_2 3 P).1) ∧
      (x_2.buf + s_2.kvR 3 2 ≤ 3145728) ∧
      (sramReady s_2 3 x_2.buf (s_2.kvR 3 2)
        x_2.cls) ∧
      (x_2.t0 % s_2.kvT 3 2 * s_2.kvR 3 2 % 64 +
          s_2.kvR 3 2 ≤
        64)) ∧
      (memReady s_2 (Agent.kvt 3) (s_2.kvSeqAddr 3 x_2.seq) 32) ∧
      (memReady s_2 (Agent.kvt 3)
        ((Claims.kvEntry s_2 3 x_2.seq).pte 2 0) 8) ∧
      (memReady s_2 (Agent.kvt 3) (s_2.rcAddr 3 (ptRc P)) 4) ∧
      (memReady s_2 (Agent.kvt 3) (pageAt P 0) 1) ∧
      (memReady s_2 (Agent.kvt 3) (pageAt Q 0) 1) ∧
      (memReady s_2 (Agent.kvt 3)
        (pageAt Q (x_2.t0 % s_2.kvT 3 2 * s_2.kvR 3 2))
        (s_2.kvR 3 2))) ∧
    (((s_3.power ≠ Power.off) ∧
      (s_3.kvtQAt 3 = [x_3]) ∧
      (x_3.code = 6) ∧
      (x_3.phase = 1) ∧
      (x_3.todo = [{ lh := 2, block := 0, pair := false }]) ∧
      (x_3.copies = [{ lh := 2, block := 0, old := P, new := Q, cmd := none, done := none }]) ∧
      (x_3.status = ST_OK) ∧
      (x_3.res0 < x_3.bufMax) ∧
      (ptPage P ≠ ptPage Q) ∧
      (x_3.buf + 16 * x_3.res0 + 16 ≤ 3145728) ∧
      (sramReady s_3 3 (x_3.buf + 16 * x_3.res0) 16
        x_3.cls)) ∧
      (memReady s_3 (Agent.kvt 3) (s_3.kvSeqAddr 3 x_3.seq) 32) ∧
      (pageReady s_3 3 P 0 0) ∧
      (pageReady s_3 3 Q 0 0)) ∧
    (((s_4.power ≠ Power.off) ∧
      (s_4.kvtMovesAt 3 = m_1 :: rest_1) ∧
      (ptPage m_1.old ≠ ptPage m_1.new)) ∧
      (memReady s_4 (Agent.kvt 3) (s_4.kvSeqAddr 3 m_1.seq) 32) ∧
      (memReady s_4 (Agent.kvt 3)
        ((Claims.kvEntry s_4 3 m_1.seq).pte m_1.lh
          m_1.block)
        8) ∧
      (pageReady s_4 3 m_1.old 0 0) ∧
      (pageReady s_4 3 m_1.new
        ((Claims.kvEntry s_4 3 m_1.seq).pte m_1.lh
          m_1.block)
        8) ∧
      (pageReady s_4 3 m_1.new
        (s_4.kvSeqAddr 3 m_1.seq) 32)) :=
    ⟨And.imp id (And.imp memReady_of (And.imp memReady_of (And.imp memReady_of (And.imp memReady_of (And.imp memReady_of memReady_of))))) (by unfold apart Claims.kvEntry sramReady; decide +kernel),
    And.imp id (And.imp memReady_of (And.imp pageReady_of pageReady_of)) (by unfold sramReady; decide +kernel),
    And.imp id (And.imp memReady_of (And.imp memReady_of (And.imp pageReady_of (And.imp pageReady_of pageReady_of)))) (by decide +kernel)⟩

def s_5 : State := st xw [.upd (.kvtQ 3 [xz, {xw with id := 3}, {xc with id := 99}, {xw with phase := 1, id := 88}])]
def x_4 : KvOp := xz
def s_6 : State := st xw []
def s_7 : State := st xw [.upd (.kvtQ 3 (List.replicate 32 xw))]
def s_8 : State := st xw []
def s_9 : State := st xw [put (R.KVT_FL_STATE_tail 3 4) 64]
/-- KvtQueue: states and operands that meet the hypotheses of its clauses. -/
theorem test_kvt_queue :
    (((s_5.power ≠ Power.off) ∧
      ((s_5.kvtQAt 3)[0]? = some x_4) ∧
      (x_4.phase = 2) ∧
      (x_4.code = 1) ∧
      (x_4.off = some 64) ∧
      (x_4.status < 256) ∧
      ((s_5.gwOut.all fun p ↦ p.queue != some (8 + x_4.id)) = true) ∧
      (sramReady s_5 3 67 1 x_4.cls) ∧
      (sramReady s_5 3 88 8 x_4.cls) ∧
      (writable (Agent.core 0) 54 0 s_5) ∧
      (List.Pairwise (fun x y ↦ x.id ≠ y.id) (s_5.kvtQAt 3)) ∧
      (writable (Agent.core 0) 54 2200 s_5) ∧
      (s_5.flCount 3 4 < s_5.flSize 3 4)) ∧
      (memReady s_5 (Agent.kvt 3)
        (s_5.flAddr 3 4 (s_5.get (R.KVT_FL_STATE_tail 3 4))) 8)) ∧
    ((writable (Agent.core 0) 54 16 s_6) ∧
      (kvSubmitter 3 (Agent.core 0) = true) ∧
      (s_6.kvRoom 3 = true) ∧
      (sramReady s_6 3 4096 32
        (if (agentThread (Agent.core 0)).isNone = true then (9, 255)
        else s_6.accClass (Agent.core 0) 3))) ∧
    ((writable (Agent.core 0) 54 16 s_7) ∧
      (kvSubmitter 3 (Agent.core 0) = true) ∧
      (s_7.kvRoom 3 = false)) ∧
    ((writable (Agent.host 0) 54 16 s_8) ∧
      (kvSubmitter 3 (Agent.host 0) = false)) ∧
    ((writable (Agent.core 0) 54 2200 s_9) ∧
      (s_9.flSize 3 4 ≤ s_9.flCount 3 4)) :=
    ⟨And.imp id memReady_of (by unfold sramReady writable; decide +kernel),
    (by unfold writable sramReady; decide +kernel),
    (by unfold writable; decide +kernel),
    (by unfold writable; decide +kernel),
    (by unfold writable; decide +kernel)⟩

end KvtPages

namespace SharedCache

def A := 0x1000001080
def d := pokeBytes (A-16) ((List.range 64).map fun i => BitVec.ofNat 8 (i*5+1))
def L (a : Nat) (d : Bool) (st : Option Nat) : ScLine := ⟨a, d, st, (List.range 128).map fun i => BitVec.ofNat 8 (i*3+7), List.replicate 16 .good⟩
def full := Eff.upd (.cache (setKey A) ((List.range 16).map fun i => L (A + 128 * 65536 * 32 * (i+1)) (i % 2 == 1) none))
def s1 := mk [d]
def s3 := mk [d, full]
def fl := Eff.all [put R.SC_FLUSH_BASE_addr A, put R.SC_FLUSH_LIMIT_addr (A + 127)]
def ln2 := Eff.all [Eff.upd (.cache (setKey A) [L A true (some 3)]), .upd (.cache (setKey (A+0x1000)) [L (A+0x1000) true (some 3)])]
def slot (op ty a : Nat) := Eff.all [put (R.SC_ATOM_CTL_target 35) a, put (R.SC_ATOM_CTL_op 35) op, put (R.SC_ATOM_CTL_type 35) ty, put (R.SC_ATOM_CMP_compare 35) 0x40]
def st (op ty : Nat) (l : List Eff) := mk ([d, slot op ty (A + 16)] ++ l)
def S := sramAddr 3 0x1000
def vs := mk [d, slot 8 0 A, put (ownFld 3 0) (9 + 16 * 0xFF), pokeBytes S ((List.range 128).map fun i => BitVec.ofNat 8 (i*77))]
def lk := put (R.HIF_LINK_speed 1) 5

def bs_1 : List Byte := [1,2,3,4,5]
def s_1 : State := s1
def s_2 : State := s3
/-- CacheAccesses: states and operands that meet the hypotheses of its clauses. -/
theorem test_cache_accesses :
    ((cacheReady s_1 68719480965 30) ∧
      (cacheReady s_1 68719480965 bs_1.length)) ∧
    ((s_2.power ≠ Power.off) ∧
      (s_2.cached 4096 = false)) :=
    ⟨And.imp cacheReady_of cacheReady_of (by decide +kernel),
    (by decide +kernel)⟩

def l_1 : ScLine := L A true (some 3)
def s_3 : State := mk [fl, ln2]
def s_4 : State := mk [fl, ln2, putBit R.SC_FLUSH_CTRL_busy true]
/-- CacheMaintenance: states and operands that meet the hypotheses of its clauses. -/
theorem test_cache_maintenance :
    ((writable (Agent.core 0) 4128 53776 s_3) ∧
      (s_3.cacheAt (setKey l_1.base) = [l_1]) ∧
      (∀ m ∈ List.flatMap (fun e ↦ e.2) s_3.cache,
        m = l_1 ∨ apart m.base 128 l_1.base 128) ∧
      (s_3.flushStatus = ST_OK) ∧
      (l_1.base % 128 = 0) ∧
      (s_3.get R.SC_FLUSH_BASE_addr ≤ l_1.base) ∧
      (l_1.base ≤ s_3.get R.SC_FLUSH_LIMIT_addr) ∧
      (l_1.dirty = true) ∧
      (l_1.marks = List.replicate 16 SramMark.good) ∧
      (l_1.data.length = 128) ∧
      ((isExt l_1.base &&
          s_3.gdFailed (extDev l_1.base)) =
        false) ∧
      (∀ i < 16,
        (isExt l_1.base &&
            s_3.gdFailed (extDev (l_1.base + 8 * i))) =
          false) ∧
      (writable (Agent.core 0) 4128 53336 s_3)) ∧
    ((writable (Agent.core 0) 4128 53776 s_4) ∧
      (s_4.flushStatus ≠ ST_OK) ∧
      (s_4.power ≠ Power.off) ∧
      (s_4.bit R.SC_FLUSH_CTRL_busy = true)) :=
    ⟨(by unfold writable apart; decide +kernel),
    (by unfold writable; decide +kernel)⟩

def v_1 : Word := 0x91928384a5a6c7d8
def s_5 : State := st 0 0 []
def row_1 : Nat × Instr := (0, .atomAdd (.core 0) 35 0x91928384a5a6c7d8)
def v_2 : Word := 5
def s_6 : State := st 3 4 []
def row_2 : Nat × Instr := (3, .atomAnd (.core 0) 35 5)
def s_7 : State := vs
def s_8 : State := mk [d, lk]
/-- CacheAtomics: states and operands that meet the hypotheses of its clauses. -/
theorem test_cache_atomics :
    (((row_1 ∈ atomRows (Agent.core 0) 35 v_1) ∧
      (s_5.get (R.SC_ATOM_CTL_op 35) = row_1.1) ∧
      (s_5.mapStatus (regAddr 4128 568) 8 = ST_OK) ∧
      (s_5.get (R.SC_ATOM_CTL_type 35) ≤ 3) ∧
      (s_5.get (R.SC_ATOM_CTL_op 35) = 0 →
        s_5.get (R.SC_ATOM_CTL_type 35) ≤ 1) ∧
      ((s_5.get (R.SC_ATOM_CTL_target 35) %
          if
              s_5.get (R.SC_ATOM_CTL_type 35) = 1 ∨
                s_5.get (R.SC_ATOM_CTL_type 35) = 3 then
            8
          else 4) =
        0)) ∧
      (cacheReady s_5 (s_5.get (R.SC_ATOM_CTL_target 35))
        (if
            s_5.get (R.SC_ATOM_CTL_type 35) = 1 ∨
              s_5.get (R.SC_ATOM_CTL_type 35) = 3 then
          8
        else 4))) ∧
    ((row_2 ∈ atomRows (Agent.core 0) 35 v_2) ∧
      (s_6.get (R.SC_ATOM_CTL_op 35) = row_2.1) ∧
      (s_6.mapStatus (regAddr 4128 568) 8 = ST_OK) ∧
      (s_6.power ≠ Power.off) ∧
      (s_6.atomTarget (s_6.get (R.SC_ATOM_CTL_target 35))
          (s_6.get (R.SC_ATOM_CTL_op 35))
          (s_6.get (R.SC_ATOM_CTL_type 35)) ≠
        ST_OK)) ∧
    (((s_7.get (R.SC_ATOM_CTL_op 35) = 8) ∧
      (s_7.get (R.SC_ATOM_CTL_type 35) = 0) ∧
      (s_7.mapStatus (regAddr 4128 568) 8 = ST_OK) ∧
      (s_7.get (R.SC_ATOM_CTL_target 35) % 128 = 0) ∧
      (regionOf 206171017216 = Region.sram 3 4096) ∧
      (s_7.mapStatus 206171017216 128 = ST_OK) ∧
      (sramReady s_7 3 4096 128 (9, 255))) ∧
      (cacheReady s_7 (s_7.get (R.SC_ATOM_CTL_target 35)) 128)) ∧
    ((s_8.linkUp 1 = true) ∧
      (cacheReady s_8 68719480976 4)) :=
    ⟨And.imp id cacheReady_of (by decide +kernel),
    (by decide +kernel),
    And.imp id cacheReady_of (by unfold sramReady; decide +kernel),
    And.imp id cacheReady_of (by decide +kernel)⟩

def bs_2 : List Byte := [1,2,3,4]
def s_9 : State := mk [d, put (R.GD_STATUS_state 3) 1]
def s_10 : State := mk [d, putBit R.GD_DIAG_BASE_lock true, put R.GD_DIAG_BASE_base (A/64), put R.GD_DIAG_LIMIT_limit (A+0x1000)]
/-- ExternalMemory: states and operands that meet the hypotheses of its clauses. -/
theorem test_external_memory :
    ((s_9.power ≠ Power.off) ∧
      (isExt 68719480965 = true) ∧
      (s_9.mapStatus 68719480965 30 = ST_OK) ∧
      (s_9.touchesLock 68719480965 30 = false) ∧
      (∀ w ∈ wordsOf 68719480965 30, wordSound s_9 w) ∧
      (bs_2.length ≠ 0) ∧
      (s_9.mapStatus 68719480965 bs_2.length = ST_OK) ∧
      (s_9.touchesLock 68719480965 bs_2.length = false) ∧
      (∀ w ∈ wordsOf 68719480965 bs_2.length, wordSound s_9 w) ∧
      (s_9.get (R.GD_STATUS_state 3) = 1)) ∧
    ((s_10.power ≠ Power.off) ∧
      (isExt 68719480965 = true) ∧
      (s_10.mapStatus 68719480965 30 = ST_OK) ∧
      (s_10.touchesLock 68719480965 30 = true) ∧
      (s_10.get (R.GD_STATUS_state 4) ≠ 1)) :=
    ⟨(by unfold wordSound; decide +kernel),
    (by decide +kernel)⟩

end SharedCache

namespace Ports

def up (p : Nat) := Eff.all [put (R.HIF_LINK_speed p) 5, put (R.HIF_LINK_width p) 8, putBit (R.HIF_LINK_flit p) true]
def qp (p q : Nat) := Eff.all [putBit (R.QUE_QP_CFG_enable p q) true, put (R.QUE_QP_CFG_sq_log2 p q) 4, put (R.QUE_QP_CFG_cq_log2 p q) 4, put (R.QUE_QP_CFG_vector p q) 9, put (R.QUE_QP_CFG_agg_count p q) 3, put (R.QUE_QP_CFG_agg_us p q) 7, put (R.QUE_QP_STATUS_state p q) 1, put (R.QUE_QP_STATUS_phase p q) 1, put (R.QUE_QP_SQ_BASE_base p q) 0x55, put (R.QUE_QP_CQ_BASE_base p q) 0x66, put (R.QUE_QP_STATUS_sq_head p q) 15, put (R.QUE_QP_STATUS_cq_tail p q) 15, put (R.QUE_QP_CQ_HEAD_index p q) 7]
def c1 (op : Nat) (id := 40) (args : List Byte := []) (port := 1) : HCmd := ⟨id, port, 5, ([BitVec.ofNat 8 op, 0, 0x34, 0x12, 0,0,0,0] ++ args ++ List.replicate 56 0).take 64, false, none, 0, 0, 0, false, [], 0, [], 100⟩
def cs := [{c1 0x68 39 [] 0 with phase := 1}, c1 0x00 40, c1 0x01 41]
def s0 (l : List Eff) := mk ([up 1, qp 1 5, .upd (.cmds cs), .upd (.ready true), putBit (R.HIF_TOKEN_held 0) true, putBit (R.HIF_TOKEN_held 1) true, .upd (.now 12345)] ++ l)
def dsc (op fl : Nat) := pokeHost 1 (0x55000 + 15 * 64) ([BitVec.ofNat 8 op, BitVec.ofNat 8 fl, 0x34, 0x12] ++ List.replicate 60 0)
def cm := cs ++ [{c1 0 50 with mark := some 500}, {c1 0 51 with mark := some 5000}, {c1 0 52 with mark := some 5000000}]
def xf := {c1 0 50 with phase := 2, result := 0x1234567899, consumed := true}

def s_1 : State := s0 [put (R.QUE_QP_SQ_TAIL_index 1 5) 3, dsc 0 0]
def ext_1 : List Byte := ([] : List Byte)
def s_2 : State := s0 [.upd (.cmds cm)]
def x_1 : HCmd := {c1 0 50 with mark := some 500}
def s_3 : State := s0 [.upd (.cmds (cs ++ [xf]))]
def x_2 : HCmd := xf
def s_4 : State := s0 [.upd (.cmds (cs ++ [{xf with interims := [7,8]}]))]
def x_3 : HCmd := {xf with interims := [7,8]}
def rest_1 : List Nat := ([8] : List Nat)
def s_5 : State := s0 [.upd (.cqAgg (64+5) (2, 12000))]
/-- HostQueues: states and operands that meet the hypotheses of its clauses. -/
theorem test_host_queues :
    ((s_1.power ≠ Power.off) ∧
      (writable (Agent.host 1) 4115 416 s_1) ∧
      (writable (Agent.host 1) 4115 424 s_1) ∧
      (writable (Agent.host 1) 4115 400 s_1) ∧
      (s_1.bit (R.QUE_QP_CFG_enable 1 6) = false) ∧
      (s_1.fetchPair 1 = some (5, 1)) ∧
      (s_1.linkUp 1 = true) ∧
      (s_1.outstanding 1 < 1024) ∧
      (ext_1 =
        if (byteAt (s_1.sqHeadDesc 1 5) 1 / 2 % 2 == 1) = true then
          s_1.hostBytes
            (hostKey 1
              (s_1.sqAddr 1 5 (s_1.get (R.QUE_QP_STATUS_sq_head 1 5) + 1)))
            64
        else [])) ∧
    ((s_2.power ≠ Power.off) ∧
      (List.find? (fun y ↦ y.port == 1 && y.mark.isSome) s_2.cmds = some x_1)) ∧
    ((s_3.power ≠ Power.off) ∧
      (s_3.cmds[3]? = some x_2) ∧
      (s_3.linkUp x_2.port = true) ∧
      (s_3.cqFull x_2.port x_2.qp = false) ∧
      (x_2.interims = []) ∧
      (x_2.phase = 2) ∧
      (x_2.mark = none) ∧
      (x_2.status = ST_OK)) ∧
    ((s_4.power ≠ Power.off) ∧
      (s_4.cmds[3]? = some x_3) ∧
      (s_4.linkUp x_3.port = true) ∧
      (s_4.cqFull x_3.port x_3.qp = false) ∧
      (x_3.interims = 7 :: rest_1)) ∧
    ((s_5.power ≠ Power.off) ∧
      ((s_5.cqAggAt 69).1 ≠ 0)) :=
    ⟨(by unfold writable; decide +kernel),
    (by decide +kernel),
    (by decide +kernel),
    (by decide +kernel),
    (by decide +kernel)⟩

def s_6 : State := s0 [.upd (.msix (128+9) ⟨0, 0, false, true⟩)]
def s_7 : State := s0 [.upd (.msix 9 ⟨0, 0, false, true⟩), .upd (.msix 10 ⟨0, 0, true, true⟩), .upd (.linkDown 0 500)]
/-- HostLinks: states and operands that meet the hypotheses of its clauses. -/
theorem test_host_links :
    ((s_6.power ≠ Power.off) ∧
      (s_6.linkUp 1 = true)) ∧
    ((s_7.power ≠ Power.off) ∧
      (s_7.linkUp 0 = false) ∧
      (s_7.perstAt 0 = false) ∧
      (4 ∈ [1, 2, 4, 8]) ∧
      (s_7.linkDownAt 0 ≠ 0)) :=
    ⟨(by decide +kernel),
    (by decide +kernel)⟩

def x_4 : HCmd := c1 0x68
def s_8 : State := s0 [.upd (.cmds [c1 1 39, c1 0x68]), put (R.HIF_TOKEN_holder 0) 1, put (R.HIF_TOKEN_holder 1) 1, .upd (.offer (some (39, 5)))]
def o_1 : Nat × Nat := (39, 5)
def x_5 : HCmd := c1 0x68
def s_9 : State := s0 [.upd (.cmds [c1 1 39, c1 0x68]), put (R.HIF_TOKEN_holder 0) 1, put (R.HIF_TOKEN_holder 1) 1]
def x_6 : HCmd := c1 0x69
def s_10 : State := s0 [.upd (.cmds [c1 1 39, c1 0x69]), .upd (.offer (some (39, 5)))]
def x_7 : HCmd := c1 0x69
def s_11 : State := s0 [.upd (.cmds [c1 1 39, c1 0x69])]
def x_8 : HCmd := c1 0x6A
def s_12 : State := s0 [.upd (.cmds [c1 1 39, c1 0x6A]), .upd (.linkDown 0 500), .upd (.now 9000000000), put (R.HIF_TOKEN_takeover_ms 0) 800]
def x_9 : HCmd := c1 0x6A
def s_13 : State := s0 [.upd (.cmds [c1 1 39, c1 0x6A]), .upd (.linkDown 0 500), .upd (.now 900000000), put (R.HIF_TOKEN_takeover_ms 0) 1000]
def x_10 : HCmd := c1 0x6A
def s_14 : State := s0 [.upd (.cmds [c1 1 39, c1 0x6A]), put (R.HIF_TOKEN_holder 0) 1, put (R.HIF_TOKEN_holder 1) 1]
def x_11 : HCmd := c1 0x6B 40 (toLE 4 101)
def s_15 : State := s0 [.upd (.cmds [c1 1 39, c1 0x6B 40 (toLE 4 101)]), put (R.HIF_TOKEN_holder 0) 1, put (R.HIF_TOKEN_holder 1) 1]
def x_12 : HCmd := c1 0x6B 40 (toLE 4 99)
def s_16 : State := s0 [.upd (.cmds [c1 1 39, c1 0x6B 40 (toLE 4 99)]), put (R.HIF_TOKEN_holder 0) 1, put (R.HIF_TOKEN_holder 1) 1]
/-- ControlToken: states and operands that meet the hypotheses of its clauses. -/
theorem test_control_token_1 :
    ((startsAs 104 1 x_4 s_8) ∧
      (s_8.offer ≠ none) ∧
      (s_8.power ≠ Power.off) ∧
      (s_8.offer = some o_1)) ∧
    ((startsAs 104 1 x_5 s_9) ∧
      (s_9.offer = none)) ∧
    ((startsAs 105 1 x_6 s_10) ∧
      (s_10.offer ≠ none) ∧
      (s_10.holdsToken x_6.port = false) ∧
      (x_6.port < 2)) ∧
    ((startsAs 105 1 x_7 s_11) ∧
      (s_11.offer = none ∨ s_11.holdsToken x_7.port = true)) ∧
    ((startsAs 106 1 x_8 s_12) ∧
      (s_12.holdsToken x_8.port = false) ∧
      (x_8.port < 2) ∧
      (s_12.bit (R.HIF_TOKEN_held 0) = true) ∧
      (s_12.linkDownAt (s_12.get (R.HIF_TOKEN_holder 0)) ≠ 0) ∧
      (s_12.linkDownAt (s_12.get (R.HIF_TOKEN_holder 0)) - 1 +
          s_12.get (R.HIF_TOKEN_takeover_ms 0) * 1000000 ≤
        s_12.now)) ∧
    ((startsAs 106 1 x_9 s_13) ∧
      (s_13.holdsToken x_9.port = false) ∧
      (x_9.port < 2) ∧
      (s_13.bit (R.HIF_TOKEN_held 0) = true) ∧
      (s_13.linkDownAt (s_13.get (R.HIF_TOKEN_holder 0)) ≠ 0) ∧
      (s_13.now <
        s_13.linkDownAt (s_13.get (R.HIF_TOKEN_holder 0)) - 1 +
          s_13.get (R.HIF_TOKEN_takeover_ms 0) * 1000000)) ∧
    ((startsAs 106 1 x_10 s_14) ∧
      (s_14.holdsToken x_10.port = true)) ∧
    ((startsAs 107 1 x_11 s_15) ∧
      (100 ≤ leAt x_11.desc 8 4) ∧
      (leAt x_11.desc 8 4 ≤ 60000)) :=
    ⟨(by unfold startsAs; decide +kernel),
    (by unfold startsAs; decide +kernel),
    (by unfold startsAs; decide +kernel),
    (by unfold startsAs; decide +kernel),
    (by unfold startsAs; decide +kernel),
    (by unfold startsAs; decide +kernel),
    (by unfold startsAs; decide +kernel),
    (by unfold startsAs; decide +kernel)⟩

/-- ControlToken: further clauses. -/
theorem test_control_token_2 :
    ((startsAs 107 1 x_12 s_16) ∧
      (leAt x_12.desc 8 4 < 100 ∨ 60000 < leAt x_12.desc 8 4)) :=
    by unfold startsAs; decide +kernel

end Ports

namespace HostBasic

def s0 := sc (cc 0) []
def x51 := cc 0x51 (toLE 4 2 ++ toLE 4 5 ++ toLE 8 0x4000)
def x50 := cc 0x50 ([7, 1] ++ toLE 6 0 ++ toLE 8 0x4000)
def cap : MonCap := ⟨-77, 99, 3, -12345, true, (List.range 32), false⟩
def x50b := cc 0x50 ([63, 2] ++ toLE 6 0 ++ toLE 8 0x4000)
def mi := msg 3 [1,2,3]
def mr := msg 0x11 ([2, 0] ++ toLE 2 126 ++ toLE 2 2)
def mr2 := msg 0x11 ([2, 0] ++ toLE 2 127 ++ toLE 2 2)
def x70 := cc 0x70 (toLE 2 50 ++ toLE 2 1500)
def x70b := cc 0x70 (toLE 2 50 ++ toLE 2 150)
def keys := Eff.all [.upd (.pmKey 0 [1]), .upd (.pmKey 1 [2]), .upd (.pmFlash 0 [3]), .upd (.pmFlash 1 [4]), .upd (.franks 5 [7]), .upd (.pmMark 1 77), .upd (.enrolled true)]
def x60 := cc 0x60 (toLE 8 0x6000 ++ toLE 4 1152)
def x10 := cc 0x10 (toLE 8 0x6000 ++ toLE 4 1152)
def mh := msg 1 (toLE 2 5 ++ toLE 6 7 ++ (List.range 32).map fun i => BitVec.ofNat 8 (i * 7 + 1))
def fi := Eff.all [put R.FW_IFACE_drv_min 4, put R.FW_IFACE_drv_max 6, put R.FW_IFACE_iface_major 9, put (R.FW_FEAT_bits 0) 0xff11, put (R.FW_FEAT_bits 3) 0xff11ff]
def mj := msg 2 (toLE 4 0x99123456 ++ toLE 2 3 ++ toLE 4 0x01111111 ++ toLE 4 0x02222222 ++ toLE 4 0xff333333)
def mj2 := msg 2 (toLE 4 0x99123456 ++ toLE 2 129 ++ toLE 4 0x01111111 ++ toLE 4 0x02222222 ++ toLE 4 0xff333333)
def mtt (k u : Nat) := msg 0x10 ([BitVec.ofNat 8 k, 0] ++ toLE 2 u)
def ups := Eff.all [put (R.DL_STATUS_state 2 3) 3, put (R.DL_STATUS_state 2 4) 3, put (R.GWL_LINK_STATUS_state 5) GL_UP, put (R.GWL_LINK_STATUS_state 6) GL_UP, putRegBit R.GWL_UP 6 true, putRegBit R.GWL_UP 5 true]
def td (k u : Nat) (l : List Eff := []) := sl mi ([ups, put R.SVC_TEST_state 1, put R.SVC_TEST_kind k, put R.SVC_TEST_unit u, .upd (.testFrom 5000)] ++ l)

def x_1 : HCmd := cc 0x60 [] 40 0
def s_1 : State := sc (cc 0x60 [] 40 0) []
def x_2 : HCmd := cc 0x43
def s_2 : State := sc (cc 0x43) [.upd (.ready false)]
/-- CommandGate: states and operands that meet the hypotheses of its clauses. -/
theorem test_command_gate :
    ((s_1.power ≠ Power.off) ∧
      (s_1.cmds[1]? = some x_1) ∧
      (s_1.linkUp x_1.port = false) ∧
      (s_1.ready = true) ∧
      (opCtl x_1.op = true) ∧
      (s_1.holdsToken x_1.port = false)) ∧
    ((s_2.power ≠ Power.off) ∧
      (s_2.ready = false) ∧
      (s_2.get R.FW_STAGE_stage < 4) ∧
      (x_2.op ∉ [0, 1, 16, 17, 81, 114])) :=
    ⟨(by decide +kernel),
    (by decide +kernel)⟩

def x_3 : HCmd := lt mi
def m_1 : List Byte := mi
def s_3 : State := sl mi [put R.FW_VERSION_version 0x123456789]
def x_4 : HCmd := cc 0x00
def s_4 : State := s0
def x_5 : HCmd := cc 1 (toLE 8 0 ++ toLE 8 0x4000)
def s_5 : State := sc (cc 1 (toLE 8 0 ++ toLE 8 0x4000)) []
def x_6 : HCmd := cc 0x63 (toLE 8 0 ++ toLE 8 0x4000)
def s_6 : State := sc (cc 0x63 (toLE 8 0 ++ toLE 8 0x4000)) []
def x_7 : HCmd := x51
def s_7 : State := sc x51 [dispatchWrite 1 2 3 4 5 6 7 8, dispatchWrite 1 2 3 4 5 6 7 9, dispatchWrite 1 2 3 4 5 6 7 10, dispatchWrite 1 2 3 4 5 6 7 11]
def x_8 : HCmd := x50
def s_8 : State := sc x50 [.upd (.mon 7 cap), putReg (R.MON_SETTING 7) 0x21, putReg (R.MON_BIND 7) 0x12345]
def x_9 : HCmd := x50b
def s_9 : State := sc x50b []
def x_10 : HCmd := lt mi 100
def m_2 : List Byte := mi
def s_10 : State := sc (lt mi 100) [pokeHost 1 0x7000 mi]
def x_11 : HCmd := lt mr
def m_3 : List Byte := mr
def s_11 : State := sl mr [.upd (.ceCount (2 * 65536 + 127) ⟨100, 5, 77, false, false⟩), put (R.SVC_CE_CFG_window_s 2) 10]
def x_12 : HCmd := lt mr2
def m_4 : List Byte := mr2
def s_12 : State := sl mr2 []
-- settings
/-- HostQueries: states and operands that meet the hypotheses of its clauses. -/
theorem test_host_queries_1 :
    ((letterIs 1 x_3 3 m_1 s_3) ∧
      (fits x_3 104)) ∧
    ((startsAs 0 1 x_4 s_4)) ∧
    ((s_5.linkUp x_5.port = true) ∧
      (startsAs 1 1 x_5 s_5)) ∧
    ((s_6.linkUp x_6.port = true) ∧
      (startsAs 99 1 x_6 s_6)) ∧
    ((s_7.linkUp x_7.port = true) ∧
      (startsAs 81 1 x_7 s_7)) ∧
    (((s_8.linkUp x_8.port = true) ∧
      (startsAs 80 1 x_8 s_8) ∧
      (leAt x_8.desc 9 1 = 1) ∧
      (leAt x_8.desc 8 1 < 64)) ∧
      (∀ (j : Nat), (s_8.monAt (leAt x_8.desc 8 1)).bins.getD j 0 < 4294967296)) ∧
    ((s_9.linkUp x_9.port = true) ∧
      (startsAs 80 1 x_9 s_9) ∧
      (leAt x_9.desc 9 1 = 0 ∨
        64 < leAt x_9.desc 8 1 + leAt x_9.desc 9 1)) ∧
    ((letterIs 1 x_10 3 m_2 s_10) ∧
      (leAt x_10.desc 12 4 < 120)) :=
    ⟨(by unfold letterIs startsAs fits; decide +kernel),
    (by unfold startsAs; decide +kernel),
    (by unfold startsAs; decide +kernel),
    (by unfold startsAs; decide +kernel),
    (by unfold startsAs; decide +kernel),
    And.imp id getD_lt_of (by unfold startsAs; decide +kernel),
    (by unfold startsAs; decide +kernel),
    (by unfold letterIs startsAs; decide +kernel)⟩

/-- HostQueries: further clauses. -/
theorem test_host_queries_2 :
    ((letterIs 1 x_11 17 m_3 s_11) ∧
      (22 ≤ m_3.length) ∧
      (leAt m_3 16 1 ≤ 6) ∧
      (1 ≤ leAt m_3 20 2) ∧
      (leAt m_3 20 2 ≤ 1024) ∧
      (leAt m_3 18 2 + leAt m_3 20 2 ≤
        ceUnits (leAt m_3 16 1)) ∧
      (fits x_11 (8 * leAt m_3 20 2))) ∧
    ((letterIs 1 x_12 17 m_4 s_12) ∧
      (22 ≤ m_4.length) ∧
      (leAt m_4 16 1 ≤ 6) ∧
      (ceUnits (leAt m_4 16 1) <
        leAt m_4 18 2 + leAt m_4 20 2) ∧
      (fits x_12 0)) :=
    ⟨(by unfold letterIs startsAs fits; decide +kernel),
    (by unfold letterIs startsAs fits; decide +kernel)⟩

def x_13 : HCmd := x70
def s_13 : State := sc x70 []
def x_14 : HCmd := x70b
def s_14 : State := sc x70b []
def x_15 : HCmd := cc 0x72
def s_15 : State := sc (cc 0x72) []
def x_16 : HCmd := cc 0x61 [3]
def s_16 : State := sc (cc 0x61 [3]) [keys, put R.LCY_STATE_state 2, put (R.FW_CORE_state 0) 1]
def x_17 : HCmd := cc 0x61 [1]
def s_17 : State := sc (cc 0x61 [1]) [keys, put R.LCY_STATE_state 2]
-- key set
def x_18 : HCmd := cc 0x62 (toLE 8 0x6000)
def s_18 : State := sc (cc 0x62 (toLE 8 0x6000)) []
def x_19 : HCmd := cc 0x62 (toLE 8 0x6000)
def s_19 : State := sc (cc 0x62 (toLE 8 0x6000)) [keys]
def x_20 : HCmd := x60
def s_20 : State := sc x60 [pokeHost 1 0x6000 [1,2,3,4,5,6,7]]
def x_21 : HCmd := x10
def s_21 : State := sc x10 [.upd (.ready false), put R.FW_STAGE_stage 3, pokeHost 1 0x6000 [1,2,3,4,5,6,7]]
def x_22 : HCmd := lt mh
def m_5 : List Byte := mh
def s_22 : State := sl mh [fi]
def x_23 : HCmd := lt mj
def m_6 : List Byte := mj
def s_23 : State := sl mj [put (R.FW_AGREED_bits 1 0) 0x10]
def x_24 : HCmd := lt mj2
def m_7 : List Byte := mj2
def s_24 : State := sl mj2 [put (R.FW_AGREED_bits 1 0) 0x10]
-- tests
/-- HostSettings: states and operands that meet the hypotheses of its clauses. -/
theorem test_host_settings_1 :
    ((startsAs 112 1 x_13 s_13) ∧
      (5 ≤ leAt x_13.desc 8 2) ∧
      (leAt x_13.desc 8 2 ≤ 100) ∧
      (1000 ≤ leAt x_13.desc 10 2) ∧
      (leAt x_13.desc 10 2 ≤ 2600)) ∧
    ((startsAs 112 1 x_14 s_14) ∧
      (leAt x_14.desc 8 2 < 5 ∨
        100 < leAt x_14.desc 8 2 ∨
          leAt x_14.desc 10 2 < 1000 ∨ 2600 < leAt x_14.desc 10 2)) ∧
    ((startsAs 114 1 x_15 s_15)) ∧
    ((startsAs 97 1 x_16 s_16) ∧
      (s_16.lifecycleStatus (leAt x_16.desc 8 1) = ST_OK) ∧
      (leAt x_16.desc 8 1 < 6)) ∧
    ((startsAs 97 1 x_17 s_17) ∧
      (s_17.lifecycleStatus (leAt x_17.desc 8 1) ≠ ST_OK)) ∧
    ((startsAs 98 1 x_18 s_18) ∧
      (s_18.linkUp x_18.port = true) ∧
      (x_18.port < 2) ∧
      (s_18.keyAccept x_18 = ST_OK)) ∧
    ((startsAs 98 1 x_19 s_19) ∧
      (s_19.linkUp x_19.port = true) ∧
      (x_19.port < 2) ∧
      (s_19.keyAccept x_19 ≠ ST_OK)) ∧
    ((startsAs 96 1 x_20 s_20) ∧
      (s_20.linkUp x_20.port = true) ∧
      (leAt x_20.desc 16 4 = 1152)) :=
    ⟨(by unfold startsAs; decide +kernel),
    (by unfold startsAs; decide +kernel),
    (by unfold startsAs; decide +kernel),
    (by unfold startsAs; decide +kernel),
    (by unfold startsAs; decide +kernel),
    (by unfold startsAs; decide +kernel),
    (by unfold startsAs; decide +kernel),
    (by unfold startsAs; decide +kernel)⟩

/-- HostSettings: further clauses. -/
theorem test_host_settings_2 :
    ((startsAs 16 1 x_21 s_21) ∧
      (s_21.linkUp x_21.port = true) ∧
      (s_21.atStage 3 = true) ∧
      (s_21.fwRuns = false) ∧
      (x_21.port < 2) ∧
      (1152 ≤ leAt x_21.desc 16 4) ∧
      (leAt x_21.desc 16 4 ≤ 12582912) ∧
      (∀ e < 16, s_21.bit (R.CRC_CTRL_running e) = false)) ∧
    ((letterIs 1 x_22 1 m_5 s_22) ∧
      (56 ≤ m_5.length) ∧
      (fits x_22 40) ∧
      (s_22.get R.FW_IFACE_drv_min ≤ leAt m_5 16 2) ∧
      (leAt m_5 16 2 ≤ s_22.get R.FW_IFACE_drv_max)) ∧
    ((letterIs 1 x_23 2 m_6 s_23) ∧
      (s_23.holdsToken x_23.port = true) ∧
      (s_23.agrees x_23.port 4 = true) ∧
      (fits x_23 0) ∧
      (leAt m_6 20 2 ≤ 128) ∧
      (22 + 4 * leAt m_6 20 2 ≤ m_6.length)) ∧
    ((letterIs 1 x_24 2 m_7 s_24) ∧
      (s_24.holdsToken x_24.port = true) ∧
      (s_24.agrees x_24.port 4 = true) ∧
      (fits x_24 0) ∧
      (128 < leAt m_7 20 2)) :=
    ⟨(by unfold startsAs; decide +kernel),
    (by unfold letterIs startsAs fits; decide +kernel),
    (by unfold letterIs startsAs fits; decide +kernel),
    (by unfold letterIs startsAs fits; decide +kernel)⟩

def x_25 : HCmd := lt (mtt 0 5)
def m_8 : List Byte := mtt 0 5
def s_25 : State := sl (mtt 0 5) []
def x_26 : HCmd := lt (mtt 1 5)
def m_9 : List Byte := mtt 1 5
def s_26 : State := sl (mtt 1 5) [put R.SVC_TEST_state 1]
def s_27 : State := td 3 5
/-- LiveTests: states and operands that meet the hypotheses of its clauses. -/
theorem test_live_tests :
    ((letterIs 1 x_25 16 m_8 s_25) ∧
      (20 ≤ m_8.length) ∧
      (fits x_25 0) ∧
      (s_25.holdsToken x_25.port = true) ∧
      (leAt m_8 16 1 ≤ 3) ∧
      (leAt m_8 18 2 < testUnits (leAt m_8 16 1)) ∧
      (s_25.testRetired (leAt m_8 16 1) (leAt m_8 18 2) = false) ∧
      (s_25.get R.SVC_TEST_state ≠ 1) ∧
      (s_25.testable (leAt m_8 16 1) (leAt m_8 18 2) = true)) ∧
    ((letterIs 1 x_26 16 m_9 s_26) ∧
      (20 ≤ m_9.length) ∧
      (fits x_26 0) ∧
      (s_26.holdsToken x_26.port = true) ∧
      (leAt m_9 16 1 ≤ 3) ∧
      (leAt m_9 18 2 < testUnits (leAt m_9 16 1)) ∧
      (s_26.testRetired (leAt m_9 16 1) (leAt m_9 18 2) = false) ∧
      (s_26.get R.SVC_TEST_state = 1 ∨
        s_26.testable (leAt m_9 16 1) (leAt m_9 18 2) = false)) ∧
    ((s_27.power ≠ Power.off) ∧
      (s_27.get R.SVC_TEST_state = 1) ∧
      (s_27.get R.SVC_TEST_kind ≤ 3) ∧
      (s_27.get R.SVC_TEST_unit < testUnits (s_27.get R.SVC_TEST_kind)) ∧
      (s_27.get R.SVC_TEST_kind = 3 →
        s_27.gl (s_27.get R.SVC_TEST_unit) ≠ GL_TRAINING)) :=
    ⟨(by unfold letterIs startsAs fits; decide +kernel),
    (by unfold letterIs startsAs fits; decide +kernel),
    (by decide +kernel)⟩

end HostBasic

namespace HostWork

def cpy (op : Nat) (host dev len : Nat) := cc op (toLE 8 host ++ toLE 8 dev ++ toLE 8 len ++ [0])
def dat := pokeHost 1 0x5000 ((List.range 100).map fun i => BitVec.ofNat 8 (i * 3 + 1))
def X2 := cpy 0x40 0x5003 0x7fffffffff00 150
def X3 := cpy 0x40 0x5003 0x7fffffffff00 0
def mdat := pokeBytes 0x1000 ((List.range 100).map fun i => BitVec.ofNat 8 (i * 3 + 1))
def X5 := cc 0x44 (toLE 8 0x1000 ++ toLE 8 0x103f ++ [1, 4] ++ toLE 6 0 ++ toLE 8 0x9000)
def X6 := cc 0x42 ([3, 0] ++ toLE 6 0 ++ [4, 3, 2, 1] ++ (List.range 28).map fun i => BitVec.ofNat 8 i)
def X7 := {cc 0x42 ([3, 0] ++ toLE 6 0 ++ [1, 3, 2, 1]) with phase := 1, ops := [(3, 77)]}
def sec (ty size : Nat) (rs : List (List Byte)) : List Byte := toLE 2 ty ++ toLE 2 size ++ toLE 4 rs.length ++ toLE 4 (16 + size * rs.length) ++ toLE 4 0 ++ rs.flatMap fun r => (r ++ List.replicate size 0).take size
def img (secs : List (List Byte)) (id : Nat := 0x77) : List Byte :=
  let body := secs.flatMap fun x => x
  let n := 64 + body.length
  let pad := (n + 63) / 64 * 64 - n
  toLE 4 0x4843565A ++ toLE 4 2 ++ toLE 4 (n + pad + 640) ++ toLE 2 secs.length ++ toLE 2 0 ++ List.replicate 16 0 ++ toLE 8 id ++ toLE 8 0x1000100000 ++ List.replicate 16 0 ++ body ++ List.replicate (pad + 640) 0
def dist (d cells lo hi area : Nat) : List Byte := toLE 1 d ++ toLE 3 0 ++ toLE 2 lo ++ toLE 2 hi ++ toLE 8 area ++ toLE 16 cells
def thrRec (c t fl pc : Nat) : List Byte := toLE 1 c ++ toLE 1 t ++ toLE 1 fl ++ toLE 5 0 ++ toLE 8 pc
def tideRec : List Byte := toLE 2 1000 ++ toLE 2 100 ++ toLE 2 20 ++ toLE 2 500 ++ [10, 0, 0, 0] ++ toLE 2 0 ++ toLE 2 1 ++ toLE 2 0x55
def I0 := img [sec 1 32 [dist 2 (2^3 + 2^4) 0 10 0x1000200000], sec 2 16 [thrRec 3 1 1 0x3000], sec 0xA 32 [tideRec]]
def rr : SeqRec := ⟨4, 3, 2, 4000, 17, [2], none, [], [], [], [], [], none⟩
def ev0 := cc 0x43 (toLE 2 7 ++ toLE 2 0xffff ++ toLE 4 0 ++ toLE 4 100 ++ toLE 4 200 ++ toLE 8 0x9000 ++ toLE 8 100000)
def evs := Eff.all [.upd (.chartLive I0), .upd (.seqs 7 (some rr)), put (R.KVT_SEQ_BASE_base 3) (0x3 * 0x18000000 / 64), put (R.KVT_SEQ_BASE_base 4) (0x3 * 0x18000000 / 64), pokeBytes (3 * 0x18000000 + 32 * 7) (toLE 8 0x333333 ++ toLE 2 4 ++ [5, 1])]
def ev1 := cc 0x43 (toLE 2 7 ++ toLE 2 0xffff ++ toLE 4 0 ++ toLE 4 100 ++ toLE 4 200 ++ toLE 8 0x9010 ++ toLE 8 100000)
def adm (fork : Nat) (pos := 0) := cc 0x30 (toLE 2 8 ++ [9, 2] ++ toLE 2 fork ++ toLE 2 7 ++ toLE 4 4000 ++ toLE 4 pos ++ toLE 16 4)
def ad1 := { adm 1 11 with phase := 1, ops := [(3, 77)] }
def sub0 := cc 0x31 (toLE 2 7 ++ toLE 2 50 ++ toLE 2 40 ++ toLE 2 1 ++ toLE 4 0 ++ toLE 4 0 ++ toLE 8 0x5000 ++ toLE 8 0xA000 ++ toLE 8 0x99)
def r2 : SeqRec := { rr with sub := some (40, sub0.desc), joined := [(2, 5, 0x40000, 0x50000)], marks := [ST_THROTTLED] }
def sub1 := { sub0 with phase := 1 }
def ret := cc 0x32 (toLE 2 7)
def ret1 := { ret with phase := 1, pos := 1 }
def rt (k u : Nat) := cc 0x52 ([BitVec.ofNat 8 k, 0] ++ toLE 2 u)
def I1 := img [sec 1 32 [dist 2 (2^3 + 2^4) 0 10 0x1000200000], sec 2 16 [thrRec 3 1 1 0x1000003000], sec 0xA 32 [tideRec], sec 0xD 32 [[0, 2] ++ List.replicate 14 0 ++ [3, 4] ++ List.replicate 14 255]]
def I2 := img [sec 1 32 [dist 2 (2^3 + 2^4) 0 10 0x1000200000], sec 2 16 [thrRec 3 1 1 0x1000003000], sec 6 128 [List.replicate 128 255], sec 0xA 32 [tideRec]]
def dl3 := Eff.all [put (R.DL_STATUS_state 2 3) 2, put (R.DL_STATUS_state 2 4) 2, hashPut 2 ((List.range 48).map fun k => 3 + k % 2)]
def pw (v : Nat) := cc 0x71 [BitVec.ofNat 8 v]
def bq : BuCmd := ⟨9, 0, 1, 0, 77, 0, [1,2,3,4,5,6,7], none, 0, false, true, false, false, none, none⟩
def busy := Eff.all [.upd (.buQ 21 [bq]), putBit (R.BU_STATUS_mode 2 5) true, .upd (.kvtQ 3 [kvOp 5 none none (9, 0xFF) (List.replicate 32 1)])]
def l0 : ScLine := ⟨0x1000, true, none, List.replicate 128 5, List.replicate 16 .good⟩
def pw1 := { pw 2 with phase := 1 }

def x_1 : HCmd := cpy 0x40 0x5003 0x1005 50
def s_1 : State := sc (cpy 0x40 0x5003 0x1005 50) [dat]
def x_2 : HCmd := X2
def s_2 : State := sc X2 [dat]
def x_3 : HCmd := X3
def s_3 : State := sc X3 [dat]
def x_4 : HCmd := cpy 0x41 0x5003 0x1005 50
def s_4 : State := sc (cpy 0x41 0x5003 0x1005 50) [mdat]
def x_5 : HCmd := X5
def s_5 : State := sc X5 []
def u_1 : Option (Fin 128) := some (0 : Fin 128)
def x_6 : HCmd := X5
def s_6 : State := sc X5 [putBit (scrubBusy (some 0)) true]
def u_2 : Option (Fin 128) := some (0 : Fin 128)
def x_7 : HCmd := {X5 with phase := 1}
def s_7 : State := sc {X5 with phase := 1} [putReg (recordWord (some 0) 0) 0x1234, putReg (recordWord (some 0) 2) 0x12340000077]
def u_3 : Option (Fin 128) := some (0 : Fin 128)
def x_8 : HCmd := X6
def s_8 : State := sc X6 []
def x_9 : HCmd := X6
def s_9 : State := sc X6 [putRegBit R.SVC_RETIRED_CELL_LO 3 true]
def x_10 : HCmd := X7
def s_10 : State := sc X7 [.upd (.kvtEnd 77 (some (9, 123, 456)))]
def x_11 : HCmd := {ev0 with phase := 1, pos := 65600, result := 5, status := 3}
def s_11 : State := sc {ev0 with phase := 1, pos := 65600, result := 5, status := 3} [evs]
def r_1 : SeqRec := rr
def x_12 : HCmd := ev0
def s_12 : State := sc ev0 []
def x_13 : HCmd := ev1
def s_13 : State := sc ev1 [evs]
def x_14 : HCmd := {ev0 with phase := 1, pos := 65600}
def s_14 : State := sc {ev0 with phase := 1, pos := 65600} [evs]
def r_2 : SeqRec := rr
def rest_1 : List Nat := ([4] : List Nat)
/-- HostMemoryCommands: states and operands that meet the hypotheses of its clauses. -/
theorem test_host_memory_commands_1 :
    (((x_1.port = 1) ∧
      (s_1.linkUp 1 = true) ∧
      (startsAs 64 1 x_1 s_1) ∧
      (x_1.pos = 0) ∧
      (1 ≤ leAt x_1.desc 24 8) ∧
      (leAt x_1.desc 16 8 % 64 + leAt x_1.desc 24 8 ≤ 64) ∧
      (leAt x_1.desc 32 1 < 32) ∧
      (s_1.holder (leAt x_1.desc 16 8)
          (leAt x_1.desc 24 8) =
        none)) ∧
      (memReady s_1 (Agent.host 1) (leAt x_1.desc 16 8)
        (leAt x_1.desc 24 8))) ∧
    ((x_2.port = 1) ∧
      (s_2.linkUp 1 = true) ∧
      (startsAs 64 1 x_2 s_2) ∧
      (x_2.pos = 0) ∧
      (1 ≤ leAt x_2.desc 24 8) ∧
      (leAt x_2.desc 24 8 ≤ 4294967296) ∧
      (leAt x_2.desc 32 1 < 32) ∧
      (s_2.mapStatus (leAt x_2.desc 16 8)
          (min (leAt x_2.desc 24 8)
            (64 - leAt x_2.desc 16 8 % 64)) ≠
        ST_OK)) ∧
    ((x_3.port = 1) ∧
      (s_3.linkUp 1 = true) ∧
      (startsAs 64 1 x_3 s_3) ∧
      (x_3.pos = 0) ∧
      (leAt x_3.desc 24 8 = 0 ∨ 4294967296 < leAt x_3.desc 24 8)) ∧
    (((x_4.port = 1) ∧
      (s_4.linkUp 1 = true) ∧
      (startsAs 65 1 x_4 s_4) ∧
      (x_4.pos = 0) ∧
      (1 ≤ leAt x_4.desc 24 8) ∧
      (leAt x_4.desc 16 8 % 64 + leAt x_4.desc 24 8 ≤ 64) ∧
      (leAt x_4.desc 32 1 < 32) ∧
      (s_4.holder (leAt x_4.desc 16 8)
          (leAt x_4.desc 24 8) =
        none)) ∧
      (memReady s_4 (Agent.host 1) (leAt x_4.desc 16 8)
        (leAt x_4.desc 24 8))) ∧
    ((x_5.port = 1) ∧
      (s_5.linkUp 1 = true) ∧
      (startsAs 68 1 x_5 s_5) ∧
      (scrubUnit (leAt x_5.desc 8 8) = some u_1) ∧
      (leAt x_5.desc 8 8 % 64 = 0) ∧
      (leAt x_5.desc 16 8 % 64 = 63) ∧
      (leAt x_5.desc 8 8 ≤ leAt x_5.desc 16 8) ∧
      (inUnit u_1 (leAt x_5.desc 16 8) = true) ∧
      (1 ≤ leAt x_5.desc 25 1) ∧
      (leAt x_5.desc 25 1 ≤ 16) ∧
      (s_5.mapStatus (leAt x_5.desc 8 8) 64 = ST_OK) ∧
      (s_5.mapStatus (leAt x_5.desc 16 8 / 64 * 64) 64 = ST_OK) ∧
      (s_5.bit (scrubBusy u_1) = false)) ∧
    ((x_6.port = 1) ∧
      (s_6.linkUp 1 = true) ∧
      (startsAs 68 1 x_6 s_6) ∧
      (scrubUnit (leAt x_6.desc 8 8) = some u_2) ∧
      (leAt x_6.desc 8 8 % 64 = 0) ∧
      (leAt x_6.desc 16 8 % 64 = 63) ∧
      (leAt x_6.desc 8 8 ≤ leAt x_6.desc 16 8) ∧
      (inUnit u_2 (leAt x_6.desc 16 8) = true) ∧
      (1 ≤ leAt x_6.desc 25 1) ∧
      (leAt x_6.desc 25 1 ≤ 16) ∧
      (s_6.mapStatus (leAt x_6.desc 8 8) 64 = ST_OK) ∧
      (s_6.mapStatus (leAt x_6.desc 16 8 / 64 * 64) 64 = ST_OK) ∧
      (s_6.bit (scrubBusy u_2) = true)) ∧
    ((x_7.port = 1) ∧
      (s_7.linkUp 1 = true) ∧
      (runsAs 68 1 x_7 s_7) ∧
      (scrubUnit (leAt x_7.desc 8 8) = some u_3) ∧
      (s_7.bit (scrubBusy u_3) = false)) ∧
    ((x_8.port = 1) ∧
      (s_8.linkUp 1 = true) ∧
      (leAt x_8.desc 8 1 = 3) ∧
      (s_8.kvRoom 3 = true) ∧
      (startsAs 66 1 x_8 s_8) ∧
      (s_8.cellRetired 3 = false)) :=
    ⟨And.imp id memReady_of (by unfold startsAs; decide +kernel),
    (by unfold startsAs; decide +kernel),
    (by unfold startsAs; decide +kernel),
    And.imp id memReady_of (by unfold startsAs; decide +kernel),
    (by unfold startsAs; decide +kernel),
    (by unfold startsAs; decide +kernel),
    (by unfold runsAs; decide +kernel),
    (by unfold startsAs; decide +kernel)⟩

/-- HostMemoryCommands: further clauses. -/
theorem test_host_memory_commands_2 :
    ((x_9.port = 1) ∧
      (s_9.linkUp 1 = true) ∧
      (leAt x_9.desc 8 1 = 3) ∧
      (s_9.kvRoom 3 = true) ∧
      (startsAs 66 1 x_9 s_9) ∧
      (s_9.cellRetired 3 = true)) ∧
    ((x_10.port = 1) ∧
      (s_10.linkUp 1 = true) ∧
      (runsAs 66 1 x_10 s_10) ∧
      (x_10.ops = [(3, 77)]) ∧
      (s_10.kvtEndAt 77 = some (9, 123, 456)) ∧
      (leAt x_10.desc 16 1 ∈ [1, 2, 6, 7])) ∧
    ((x_11.port = 1) ∧
      (s_11.linkUp 1 = true) ∧
      (s_11.seqsAt (leAt x_11.desc 8 2) =
        some r_1) ∧
      (runsAs 67 1 x_11 s_11) ∧
      (x_11.ops = []) ∧
      (x_11.result ≤ 128) ∧
      (List.filter (fun c ↦ decide (x_11.result ≤ c))
          (s_11.seqCells r_1) =
        [])) ∧
    ((x_12.port = 1) ∧
      (s_12.linkUp 1 = true) ∧
      (startsAs 67 1 x_12 s_12) ∧
      (s_12.seqsAt (leAt x_12.desc 8 2) = none)) ∧
    ((x_13.port = 1) ∧
      (s_13.linkUp 1 = true) ∧
      (startsAs 67 1 x_13 s_13) ∧
      (s_13.seqsAt (leAt x_13.desc 8 2) ≠ none) ∧
      (leAt x_13.desc 24 8 % 64 ≠ 0)) ∧
    (((x_14.port = 1) ∧
      (s_14.linkUp 1 = true) ∧
      (s_14.seqsAt (leAt x_14.desc 8 2) =
        some r_2) ∧
      (runsAs 67 1 x_14 s_14) ∧
      (x_14.ops = []) ∧
      (x_14.result ≤ 128) ∧
      (List.filter (fun c ↦ decide (x_14.result ≤ c))
          (s_14.seqCells r_2) =
        3 :: rest_1) ∧
      (s_14.cellRetired 3 = false) ∧
      (s_14.kvRoom 3 = true)) ∧
      (memReady s_14 (Agent.core 0)
        (s_14.kvSeqAddr 3 (leAt x_14.desc 8 2)) 32)) :=
    ⟨(by unfold startsAs; decide +kernel),
    (by unfold runsAs; decide +kernel),
    (by unfold runsAs; decide +kernel),
    (by unfold startsAs; decide +kernel),
    (by unfold startsAs; decide +kernel),
    And.imp id memReady_of (by unfold runsAs; decide +kernel)⟩

def x_15 : HCmd := adm 0
def s_15 : State := sc (adm 0) [evs, .upd (.seqs 8 (some rr))]
def x_16 : HCmd := sub0
def s_16 : State := sc sub0 [evs, dat]
def r_3 : SeqRec := rr
def x_17 : HCmd := adm 0
def s_17 : State := sc (adm 0) [evs]
def x_18 : HCmd := ad1
def s_18 : State := sc ad1 [evs, .upd (.kvtEnd 77 (some (0, 123, 456)))]
def x_19 : HCmd := sub0
def s_19 : State := sc sub0 [dat]
def x_20 : HCmd := sub1
def s_20 : State := sc sub1 [evs, .upd (.seqs 7 (some r2)), put R.TIDE_EDGE_NUM_edge 6, pokeBytes 0x40000 ((List.range 64).map fun i => if i = 3 then 2 else BitVec.ofNat 8 i), pokeBytes 0x50400 [1,2,3,4,5]]
def r_4 : SeqRec := r2
def desc_1 : List Byte := sub0.desc
def x_21 : HCmd := ret
def s_21 : State := sc ret [evs, .upd (.seqs 7 (some { r2 with sub := some (39, []) }))]
def r_5 : SeqRec := { r2 with sub := some (39, []) }
def x_22 : HCmd := ret
def s_22 : State := sc ret [evs, .upd (.seqs 7 (some { r2 with retire := some 4 }))]
def r_6 : SeqRec := { r2 with retire := some 4 }
def x_23 : HCmd := ret
def s_23 : State := sc ret []
def x_24 : HCmd := ret1
def s_24 : State := sc ret1 [.upd (.seqs 7 (some rr))]
def r_7 : SeqRec := rr
-- retirements
/-- Sequences: states and operands that meet the hypotheses of its clauses. -/
theorem test_sequences_1 :
    ((startsAs 48 1 x_15 s_15) ∧
      (leAt x_15.desc 8 2 = 8) ∧
      (leAt x_15.desc 12 1 % 2 = 0) ∧
      (s_15.admitStatus x_15 ≠ ST_OK) ∧
      ((s_15.seqsAt 8).isSome = true) ∧
      (leAt x_15.desc 11 1 ≤ 127) ∧
      (1 ≤ leAt x_15.desc 16 4) ∧
      (leAt x_15.desc 16 4 ≤ 1048576)) ∧
    ((startsAs 49 1 x_16 s_16) ∧
      (s_16.linkUp x_16.port = true) ∧
      (leAt x_16.desc 8 2 = 7) ∧
      (s_16.seqsAt 7 = some r_3) ∧
      (s_16.submitStatus x_16 = ST_OK) ∧
      (leAt x_16.desc 10 2 ≠ 0)) ∧
    ((startsAs 48 1 x_17 s_17) ∧
      (leAt x_17.desc 8 2 = 8) ∧
      (leAt x_17.desc 12 1 % 2 = 0) ∧
      (s_17.admitStatus x_17 = ST_OK)) ∧
    ((runsAs 48 1 x_18 s_18) ∧
      (leAt x_18.desc 8 2 = 8) ∧
      (x_18.ops = [(3, 77)]) ∧
      (s_18.kvtEndAt 77 = some (0, 123, 456)) ∧
      (worst ST_OK 0 = ST_OK)) ∧
    ((startsAs 49 1 x_19 s_19) ∧
      (s_19.linkUp x_19.port = true) ∧
      (leAt x_19.desc 8 2 = 7) ∧
      (s_19.submitStatus x_19 ≠ ST_OK)) ∧
    (((s_20.power ≠ Power.off) ∧
      (s_20.seqsAt 7 = some r_4) ∧
      (r_4.sub = some (40, desc_1)) ∧
      (r_4.joined = [(2, 5, 262144, 327680)]) ∧
      (r_4.out = 2) ∧
      (s_20.seqDone r_4 = true) ∧
      (x_20 ∈ s_20.cmds) ∧
      (List.find? (fun y ↦ y.id == 40) s_20.cmds = some x_20) ∧
      (s_20.linkUp x_20.port = true) ∧
      (0 < leAt desc_1 12 2) ∧
      (byteAt (s_20.bytes 262147 1) 0 / 4 % 2 = 0)) ∧
      (memReady s_20 (Agent.core 0) 262147 1) ∧
      (memReady s_20 (Agent.core 0) 262156 4) ∧
      (memReady s_20 (Agent.core 0) 328704 (leAt desc_1 12 2))) ∧
    ((leAt x_21.desc 8 2 = 7) ∧
      (s_21.seqsAt 7 = some r_5) ∧
      (startsAs 50 1 x_21 s_21) ∧
      (r_5.retire = none) ∧
      (s_21.seqLeaving 7 = false) ∧
      (s_21.seqQuiet r_5 = false)) ∧
    ((leAt x_22.desc 8 2 = 7) ∧
      (s_22.seqsAt 7 = some r_6) ∧
      (startsAs 50 1 x_22 s_22) ∧
      (r_6.retire.isSome = true)) :=
    ⟨(by unfold startsAs; decide +kernel),
    (by unfold startsAs; decide +kernel),
    (by unfold startsAs; decide +kernel),
    (by unfold runsAs; decide +kernel),
    (by unfold startsAs; decide +kernel),
    And.imp id (And.imp memReady_of (And.imp memReady_of memReady_of)) (by decide +kernel),
    (by unfold startsAs; decide +kernel),
    (by unfold startsAs; decide +kernel)⟩

/-- Sequences: further clauses. -/
theorem test_sequences_2 :
    ((startsAs 50 1 x_23 s_23) ∧
      (leAt x_23.desc 8 2 = 7) ∧
      (s_23.seqsAt 7 = none)) ∧
    ((leAt x_24.desc 8 2 = 7) ∧
      (s_24.seqsAt 7 = some r_7) ∧
      (runsAs 50 1 x_24 s_24) ∧
      (x_24.pos = 1) ∧
      (s_24.maskCells r_7.districts = []) ∧
      (x_24.ops = [])) :=
    ⟨(by unfold startsAs; decide +kernel),
    (by unfold runsAs; decide +kernel)⟩

def x_25 : HCmd := rt 0 9
def s_25 : State := sc (rt 0 9) [evs]
def x_26 : HCmd := rt 0 9
def s_26 : State := sc (rt 0 9) [evs, putRegBit R.SVC_RETIRED_CELL_LO 9 true]
def x_27 : HCmd := rt 0 3
def s_27 : State := sc (rt 0 3) [evs]
def x_28 : HCmd := rt 0 3
def s_28 : State := sc (rt 0 3) [.upd (.chartLive I1), putBit R.CHT_STATUS_live true]
def x_29 : HCmd := rt 1 77
def s_29 : State := sc (rt 1 77) [evs]
def x_30 : HCmd := rt 1 77
def s_30 : State := sc (rt 1 77) [.upd (.chartLive I2)]
def x_31 : HCmd := rt 2 15
def s_31 : State := sc (rt 2 15) [dl3, put (R.FW_CORE_state 0) 1]
def x_32 : HCmd := rt 2 15
def s_32 : State := sc (rt 2 15) [put (R.DL_STATUS_state 2 3) 2]
def x_33 : HCmd := rt 2 15
def s_33 : State := sc (rt 2 15) [put (R.DL_STATUS_state 2 3) 7]
def x_34 : HCmd := rt 3 5
def s_34 : State := sc (rt 3 5) [putRegBit R.GWL_UP 5 true, putRegBit R.GWL_UP 6 true, put (R.GWL_LINK_STATUS_state 5) 4]
def x_35 : HCmd := rt 3 5
def s_35 : State := sc (rt 3 5) [putRegBit R.GWL_UP 5 true, put (R.GWL_LINK_STATUS_state 5) 4]
def x_36 : HCmd := rt 3 5
def s_36 : State := sc (rt 3 5) [putRegBit R.GWL_UP 5 true, put (R.GWL_LINK_STATUS_state 5) 5]
def x_37 : HCmd := rt 13 5
def s_37 : State := sc (rt 13 5) []
-- power states
/-- Retirements: states and operands that meet the hypotheses of its clauses. -/
theorem test_retirements_1 :
    ((startsAs 82 1 x_25 s_25) ∧
      (leAt x_25.desc 8 1 = 0) ∧
      (leAt x_25.desc 10 2 < 128) ∧
      (s_25.cellRetired (leAt x_25.desc 10 2) = false) ∧
      (chartDistrictOf s_25.chartLive (leAt x_25.desc 10 2) = none)) ∧
    ((startsAs 82 1 x_26 s_26) ∧
      (leAt x_26.desc 8 1 = 0) ∧
      (leAt x_26.desc 10 2 < 128) ∧
      (s_26.cellRetired (leAt x_26.desc 10 2) = true)) ∧
    ((startsAs 82 1 x_27 s_27) ∧
      (leAt x_27.desc 8 1 = 0) ∧
      (leAt x_27.desc 10 2 < 128) ∧
      (s_27.cellRetired (leAt x_27.desc 10 2) = false) ∧
      (chartDistrictOf s_27.chartLive (leAt x_27.desc 10 2) ≠ none) ∧
      (s_27.cellStandIn (leAt x_27.desc 10 2) = none)) ∧
    ((startsAs 82 1 x_28 s_28) ∧
      (leAt x_28.desc 8 1 = 0) ∧
      (leAt x_28.desc 10 2 < 128) ∧
      (s_28.cellRetired (leAt x_28.desc 10 2) = false) ∧
      (chartDistrictOf s_28.chartLive (leAt x_28.desc 10 2) ≠ none) ∧
      (s_28.cellStandIn (leAt x_28.desc 10 2) = some 4) ∧
      (s_28.rotationOk
          (rotateImg (swapCells (leAt x_28.desc 10 2) 4) s_28.chartLive) =
        true)) ∧
    ((startsAs 82 1 x_29 s_29) ∧
      (leAt x_29.desc 8 1 = 1) ∧
      (leAt x_29.desc 10 2 < 1024) ∧
      (s_29.unitRetired (leAt x_29.desc 10 2) = false) ∧
      (s_29.unitNamed (leAt x_29.desc 10 2) = false) ∧
      (s_29.buMode (leAt x_29.desc 10 2) = false) ∧
      ((s_29.buQAt (leAt x_29.desc 10 2)).isEmpty = true) ∧
      (s_29.mapStatus
          (regAddr (leAt x_29.desc 10 2 / 8 * 16 + 9)
            (leAt x_29.desc 10 2 % 8 * 4096))
          8 =
        ST_OK)) ∧
    ((startsAs 82 1 x_30 s_30) ∧
      (leAt x_30.desc 8 1 = 1) ∧
      (leAt x_30.desc 10 2 < 1024) ∧
      (s_30.unitRetired (leAt x_30.desc 10 2) = false) ∧
      (s_30.unitNamed (leAt x_30.desc 10 2) = true)) ∧
    ((startsAs 82 1 x_31 s_31) ∧
      (leAt x_31.desc 8 1 = 2) ∧
      (leAt x_31.desc 10 2 < 48) ∧
      (s_31.dl (leAt x_31.desc 10 2) ≠ 7) ∧
      (((List.range 6).any fun m ↦
          decide (leAt x_31.desc 10 2 / 6 * 6 + m ≠ leAt x_31.desc 10 2) &&
            s_31.dlUp (leAt x_31.desc 10 2 / 6 * 6 + m)) =
        true) ∧
      (s_31.dlHolds (leAt x_31.desc 10 2) = true)) ∧
    ((startsAs 82 1 x_32 s_32) ∧
      (leAt x_32.desc 8 1 = 2) ∧
      (leAt x_32.desc 10 2 < 48) ∧
      (s_32.dl (leAt x_32.desc 10 2) ≠ 7) ∧
      (((List.range 6).any fun m ↦
          decide (leAt x_32.desc 10 2 / 6 * 6 + m ≠ leAt x_32.desc 10 2) &&
            s_32.dlUp (leAt x_32.desc 10 2 / 6 * 6 + m)) =
        false)) :=
    ⟨(by unfold startsAs; decide +kernel),
    (by unfold startsAs; decide +kernel),
    (by unfold startsAs; decide +kernel),
    (by unfold startsAs; decide +kernel),
    (by unfold startsAs; decide +kernel),
    (by unfold startsAs; decide +kernel),
    (by unfold startsAs; decide +kernel),
    (by unfold startsAs; decide +kernel)⟩

/-- Retirements: further clauses. -/
theorem test_retirements_2 :
    ((startsAs 82 1 x_33 s_33) ∧
      (leAt x_33.desc 8 1 = 2) ∧
      (leAt x_33.desc 10 2 < 48) ∧
      (s_33.dl (leAt x_33.desc 10 2) = 7)) ∧
    ((startsAs 82 1 x_34 s_34) ∧
      (leAt x_34.desc 8 1 = 3) ∧
      (leAt x_34.desc 10 2 < 48) ∧
      (s_34.gl (leAt x_34.desc 10 2) ≠ GL_RETIRED) ∧
      (((List.range 48).any fun i ↦
          decide (i ≠ leAt x_34.desc 10 2) && s_34.gwUp i) =
        true)) ∧
    ((startsAs 82 1 x_35 s_35) ∧
      (leAt x_35.desc 8 1 = 3) ∧
      (leAt x_35.desc 10 2 < 48) ∧
      (s_35.gl (leAt x_35.desc 10 2) ≠ GL_RETIRED) ∧
      (((List.range 48).any fun i ↦
          decide (i ≠ leAt x_35.desc 10 2) && s_35.gwUp i) =
        false)) ∧
    ((startsAs 82 1 x_36 s_36) ∧
      (leAt x_36.desc 8 1 = 3) ∧
      (leAt x_36.desc 10 2 < 48) ∧
      (s_36.gl (leAt x_36.desc 10 2) = GL_RETIRED)) ∧
    ((startsAs 82 1 x_37 s_37) ∧
      (3 < leAt x_37.desc 8 1)) :=
    ⟨(by unfold startsAs; decide +kernel),
    (by unfold startsAs; decide +kernel),
    (by unfold startsAs; decide +kernel),
    (by unfold startsAs; decide +kernel),
    (by unfold startsAs; decide +kernel)⟩

def x_38 : HCmd := pw 2
def s_38 : State := sc (pw 2) [busy]
def x_39 : HCmd := pw 0
def s_39 : State := sc (pw 0) [put R.PWR_STATE_state 2]
def x_40 : HCmd := pw 2
def s_40 : State := sc (pw 2) [put R.TIDE_STATUS_state 1]
def x_41 : HCmd := pw 5
def s_41 : State := sc (pw 5) []
def x_42 : HCmd := pw 0
def s_42 : State := sc (pw 0) []
def s_43 : State := sc pw1 [busy, put R.PWR_THROTTLE_level 2, putBit R.PWR_THROTTLE_request true, putBit R.PWR_STATE_pending true, .upd (.cache 500 [l0])]
def s_44 : State := sc pw1 [put R.PWR_STATE_state 2, .look (fun s => .upd (.gov { s.gov with banded := true })), putBit R.PWR_STATE_pending true, dl3, pokeBytes (sramAddr 2 5) [1,2,3], put (R.DL_DIE_ID_standby 3) 1, .upd (.chartLive I0)]
/-- PowerStates: states and operands that meet the hypotheses of its clauses. -/
theorem test_power_states :
    ((startsAs 113 1 x_38 s_38) ∧
      (leAt x_38.desc 8 1 = 2) ∧
      (s_38.standbyOk = true) ∧
      (s_38.gov.banded = false) ∧
      (s_38.mgmtUp = true) ∧
      (s_38.standby = false)) ∧
    ((startsAs 113 1 x_39 s_39) ∧
      (leAt x_39.desc 8 1 = 0) ∧
      (s_39.standby = true) ∧
      (s_39.bit R.PWR_STATE_pending = false) ∧
      (s_39.mgmtUp = true)) ∧
    ((startsAs 113 1 x_40 s_40) ∧
      (leAt x_40.desc 8 1 = 2) ∧
      (s_40.standbyOk = false)) ∧
    ((startsAs 113 1 x_41 s_41) ∧
      (leAt x_41.desc 8 1 ≠ 2) ∧
      (leAt x_41.desc 8 1 ≠ 0)) ∧
    ((startsAs 113 1 x_42 s_42) ∧
      (leAt x_42.desc 8 1 = 0) ∧
      (s_42.standby = false)) ∧
    ((s_43.power ≠ Power.off) ∧
      (s_43.bit R.PWR_STATE_pending = true) ∧
      (s_43.get R.PWR_STATE_state < 2)) ∧
    ((s_44.power ≠ Power.off) ∧
      (s_44.standby = true) ∧
      (s_44.bit R.PWR_STATE_pending = true) ∧
      (s_44.gov.banded = true)) :=
    ⟨(by unfold startsAs; decide +kernel),
    (by unfold startsAs; decide +kernel),
    (by unfold startsAs; decide +kernel),
    (by unfold startsAs; decide +kernel),
    (by unfold startsAs; decide +kernel),
    (by decide +kernel),
    (by decide +kernel)⟩

end HostWork

namespace ChartTide

def I0b := img [sec 1 32 [dist 2 (2^3 + 2^4) 0 10 0x1000200000], sec 2 16 [thrRec 3 1 1 0x1000003000], sec 0xA 32 [tideRec]] 0x99
def I8 := img [sec 1 32 [dist 2 (2^3 + 2^4) 0 10 0x1000200000], sec 2 16 [thrRec 3 1 1 0x1000003000], sec 8 32 [toLE 2 3 ++ [2, 0] ++ toLE 4 100 ++ [4, 2, 1, 0] ++ toLE 4 5], sec 0xA 32 [tideRec]]
def ld (len : Nat) (a := 0x1000000000) := cc 0x20 (toLE 8 a ++ toLE 4 len)
def ld1 := { ld 800 with phase := 1 }
def ap := cc 0x21 (toLE 4 20)
def ds := cc 0x22
def ap1 := { cc 0x21 [] 38 with phase := 1 }
def tcfg := Eff.all [.upd (.chartLive I0), put R.TIDE_PERIOD_period_us 1000, put R.TIDE_PERIOD_slack_us 100, put R.TIDE_PERIOD_cutoff_us 20, put R.TIDE_POLICY_stretch_max_us 500, putBit R.CHT_STATUS_live true, put (R.SEQ_THR_CFG_active 3 1) 1, put (R.SEQ_THR_CFG_head_pc 3 1) 0x2000, putThr 3 1 THR_PARKED, .upd (.tideOff 1000)]
def rn (e : Nat) (st := 1) := Eff.all [tcfg, put R.TIDE_STATUS_state st, put R.TIDE_EDGE_NUM_edge e, .upd (.edgeCut e), .upd (.slackFor e), .upd (.tideNext 100000), .upd (.tidePer 1000000), .upd (.tideFirst 1), .upd (.slackAt 90000)]
def tc (b : Nat) := cc 0x23 [BitVec.ofNat 8 b]

def x_1 : HCmd := ap
def s_1 : State := sc ap [.upd (.chart I8), put R.CHT_STATUS_state 3, put R.TIDE_EDGE_NUM_edge 5]
def x_2 : HCmd := ds
def s_2 : State := sb [.upd (.cmds [ap1, ds]), .upd (.chart I8), put R.CHT_STATUS_state 4, put R.TIDE_STATUS_apply_armed 1]
def x_3 : HCmd := ld 800
def s_3 : State := sc (ld 800) []
def x_4 : HCmd := ld 800
def s_4 : State := sc (ld 800) [put R.CHT_STATUS_state 2]
def x_5 : HCmd := ld 800 0x1000000020
def s_5 : State := sc (ld 800 0x1000000020) []
def x_6 : HCmd := ld1
def s_6 : State := sc ld1 [.upd (.chart I8), .upd (.chartLoad (some 40)), put R.CHT_STATUS_state 2, putBit (R.HIF_PM_STATE_pm_hold 1) true]
def s_7 : State := sc ld1 [.upd (.chart I8), put R.CHT_STATUS_state 2, put R.CHT_STATUS_rotation 1]
def x_7 : HCmd := ap
def s_8 : State := sc ap []
def s_9 : State := sc ap [.upd (.chart I8), put R.CHT_STATUS_state 3, put R.TIDE_EDGE_NUM_edge 35]
def x_8 : HCmd := ds
def s_10 : State := sb [.upd (.cmds [ap1, ds]), .upd (.chart I8), put R.CHT_STATUS_state 3]
-- tide
/-- ChartControl: states and operands that meet the hypotheses of its clauses. -/
theorem test_chart_control_1 :
    ((startsAs 33 1 x_1 s_1) ∧
      (s_1.bit R.CHT_STATUS_rotation = false) ∧
      (s_1.armStatus (leAt x_1.desc 8 4) = ST_OK) ∧
      (writable (Agent.core 0) 4097 16 s_1) ∧
      (s_1.get R.CHT_STATUS_state = CHT_STAGED) ∧
      (30 = 0 ∨ s_1.edge % 4294967296 < 30) ∧
      (30 < s_1.edge % 4294967296 + 2147483648)) ∧
    ((writable (Agent.core 0) 4097 16 s_2) ∧
      (s_2.get R.CHT_STATUS_state = CHT_ARMED) ∧
      (startsAs 34 1 x_2 s_2)) ∧
    (((startsAs 32 1 x_3 s_3) ∧
      (x_3.port < 2) ∧
      (s_3.bit R.CHT_STATUS_rotation = true ∨
        s_3.get R.CHT_STATUS_state = CHT_EMPTY ∨
          s_3.get R.CHT_STATUS_state = CHT_STAGED) ∧
      (leAt x_3.desc 8 8 % 64 = 0) ∧
      (768 ≤ leAt x_3.desc 16 4) ∧
      (leAt x_3.desc 16 4 ≤ 1048576)) ∧
      (spanReady s_3 (leAt x_3.desc 8 8)
        (leAt x_3.desc 16 4))) ∧
    ((startsAs 32 1 x_4 s_4) ∧
      (x_4.port < 2) ∧
      (s_4.bit R.CHT_STATUS_rotation = false) ∧
      (s_4.get R.CHT_STATUS_state = CHT_LOADING ∨
        s_4.get R.CHT_STATUS_state = CHT_STAGING ∨
          s_4.get R.CHT_STATUS_state = CHT_ARMED)) ∧
    ((startsAs 32 1 x_5 s_5) ∧
      (x_5.port < 2) ∧
      (s_5.bit R.CHT_STATUS_rotation = true ∨
        s_5.get R.CHT_STATUS_state = CHT_EMPTY ∨
          s_5.get R.CHT_STATUS_state = CHT_STAGED) ∧
      (leAt x_5.desc 8 8 % 64 ≠ 0)) ∧
    ((s_6.power ≠ Power.off) ∧
      (s_6.get R.CHT_STATUS_state = CHT_STAGING) ∧
      (s_6.bit R.CHT_STATUS_rotation = false) ∧
      (s_6.chartLoad = some x_6.id) ∧
      (x_6 ∈ s_6.cmds) ∧
      (List.find? (fun y ↦ y.id == x_6.id) s_6.cmds =
        some x_6) ∧
      (x_6.port < 2)) ∧
    ((s_7.power ≠ Power.off) ∧
      (s_7.get R.CHT_STATUS_state = CHT_STAGING) ∧
      (s_7.bit R.CHT_STATUS_rotation = true) ∧
      (s_7.chartLoad = none)) ∧
    ((startsAs 33 1 x_7 s_8) ∧
      (s_8.bit R.CHT_STATUS_rotation = false) ∧
      (s_8.get R.CHT_STATUS_state ≠ CHT_STAGED) ∧
      (s_8.get R.CHT_STATUS_state ≠ CHT_ARMED)) :=
    ⟨(by unfold startsAs writable; decide +kernel),
    (by unfold writable startsAs; decide +kernel),
    And.imp id spanReady_of (by unfold startsAs; decide +kernel),
    (by unfold startsAs; decide +kernel),
    (by unfold startsAs; decide +kernel),
    (by decide +kernel),
    (by decide +kernel),
    (by unfold startsAs; decide +kernel)⟩

/-- ChartControl: further clauses. -/
theorem test_chart_control_2 :
    ((writable (Agent.core 0) 4097 16 s_9) ∧
      (s_9.get R.CHT_STATUS_state = CHT_STAGED) ∧
      (30 ≤ s_9.edge) ∧
      (s_9.edge < 2147483648)) ∧
    ((startsAs 34 1 x_8 s_10) ∧
      (s_10.get R.CHT_STATUS_state ≠ CHT_ARMED)) :=
    ⟨(by unfold writable; decide +kernel),
    (by unfold startsAs; decide +kernel)⟩

def x_9 : HCmd := tc 0
def s_11 : State := sc (tc 0) [rn 5, .upd (.slackFor 4)]
def x_10 : HCmd := tc 1
def s_12 : State := sc (tc 1) [tcfg, .upd (.overAt 2 5)]
def s_13 : State := sc (tc 0) [rn 5, .upd (.slackFor 4), putThr 3 1 THR_RUN, .upd (.thrStep 49 4)]
def s_14 : State := sc (tc 0) [rn 5, putThr 3 1 THR_RUN, .upd (.thrStep 49 4), .upd (.overAt 2 5)]
def s_15 : State := sc (tc 0) [rn 5, put R.TIDE_CTRL_role 2, .upd (.edgeCut 6), put R.TIDE_STATUS_missed_announces 4, putRegBit R.GWL_UP 9 true]
def s_16 : State := sc (tc 0) [rn 5, put R.TIDE_CTRL_role 2, .upd (.edgeCut 6), put R.TIDE_STATUS_missed_announces 2]
def s_17 : State := sc (tc 0) [rn 5, put R.TIDE_CTRL_role 2, .upd (.edgeCut 6), put R.TIDE_STATUS_missed_announces 2, putThr 3 1 THR_RUN, .upd (.thrStep 49 4)]
def s_18 : State := sc (tc 0) [rn 5, put R.TIDE_CTRL_role 2, putRegBit R.GWL_UP 9 true]
/-- TideControl: states and operands that meet the hypotheses of its clauses. -/
theorem test_tide_control :
    ((writable (Agent.core 0) 4096 0 s_11) ∧
      (s_11.tideRuns = true) ∧
      (startsAs 35 1 x_9 s_11) ∧
      (leAt x_9.desc 8 1 % 2 = 0) ∧
      (s_11.power ≠ Power.off) ∧
      (s_11.slackFor < s_11.edge) ∧
      (s_11.edge = 1 ∨
        List.filter (fun d ↦ !s_11.stepDone d (s_11.edge - 1))
            s_11.districts =
          []) ∧
      (s_11.overrunOpen = false) ∧
      (s_11.holdSince = none)) ∧
    ((writable (Agent.core 0) 4096 0 s_12) ∧
      (s_12.tideRuns = false) ∧
      (startsAs 35 1 x_10 s_12) ∧
      (leAt x_10.desc 8 1 % 2 = 1)) ∧
    ((s_13.power ≠ Power.off) ∧
      (s_13.slackFor < s_13.edge) ∧
      (1 < s_13.edge) ∧
      (List.filter (fun d ↦ !s_13.stepDone d (s_13.edge - 1))
          s_13.districts ≠
        []) ∧
      (s_13.sheds = false) ∧
      ((List.filter (fun d ↦ !s_13.stepDone d (s_13.edge - 1))
          s_13.districts).Nodup)) ∧
    ((s_14.power ≠ Power.off) ∧
      (s_14.tideRuns = true) ∧
      (s_14.sheds = false) ∧
      (s_14.role ≠ 2) ∧
      (s_14.overrunOpen = true)) ∧
    ((s_15.power ≠ Power.off) ∧
      (s_15.edgeDue = true) ∧
      (s_15.role = 2) ∧
      (s_15.announced = none) ∧
      (s_15.holdSince = none) ∧
      (s_15.get R.TIDE_STATUS_missed_announces = 4)) ∧
    ((s_16.power ≠ Power.off) ∧
      (s_16.edgeDue = true) ∧
      (s_16.role = 2) ∧
      (s_16.announced = none) ∧
      (s_16.holdSince = none) ∧
      (s_16.get R.TIDE_STATUS_missed_announces < 4) ∧
      ((s_16.twoLive (s_16.edge + 1) ||
          s_16.applyHold (s_16.edge + 1)) =
        false) ∧
      (s_16.applyNow = false) ∧
      (s_16.restage = false) ∧
      (s_16.tideInsts = []) ∧
      (s_16.edge + 1 < 2 ^ R.TIDE_EDGE_NUM_edge.w)) ∧
    ((s_17.power ≠ Power.off) ∧
      (s_17.edgeDue = true) ∧
      (s_17.role = 2) ∧
      (s_17.announced = none) ∧
      (s_17.holdSince = none) ∧
      (s_17.get R.TIDE_STATUS_missed_announces < 4) ∧
      ((s_17.twoLive (s_17.edge + 1) ||
          s_17.applyHold (s_17.edge + 1)) =
        true)) ∧
    ((s_18.power ≠ Power.off) ∧
      (s_18.syncLink = some 9) ∧
      (s_18.role = 2)) :=
    ⟨(by unfold writable startsAs; decide +kernel),
    (by unfold writable startsAs; decide +kernel),
    (by decide +kernel),
    (by decide +kernel),
    (by decide +kernel),
    (by decide +kernel),
    (by decide +kernel),
    (by decide +kernel)⟩

def s_19 : State := sc (tc 0) [rn 5]
def s_20 : State := sc (tc 0) [rn 5, .upd (.edgeCut 6)]
def s_21 : State := sc (tc 0) [rn 5, .upd (.edgeCut 6), .upd (.now 7777777), putThr 3 1 THR_RUN, .upd (.thrStep 49 4)]
def s_22 : State := sb [.upd (.cmds [ap1, ds]), rn 5, .upd (.edgeCut 6), put R.CHT_STATUS_state 4, .upd (.applyNow true), .upd (.cutNew true)]
def s_23 : State := sb [.upd (.cmds [ap1, ds]), rn 5, .upd (.edgeCut 6), .upd (.chart I0b), put R.CHT_STATUS_state 4, .upd (.applyNow true), .upd (.cutNew true), putThr 3 1 THR_RUN, .upd (.thrStep 49 5), .upd (.holdSince (some 95000))]
/-- TideEdges: states and operands that meet the hypotheses of its clauses. -/
theorem test_tide_edges :
    ((s_19.power ≠ Power.off) ∧
      (s_19.tideRuns = true) ∧
      (s_19.edgeCut ≠ s_19.edge + 1) ∧
      (s_19.nextOpen = false)) ∧
    (((s_20.power ≠ Power.off) ∧
      (s_20.edgeDue = true) ∧
      (s_20.role ≠ 2 ∨ s_20.announced.isSome = true) ∧
      (s_20.twoLive (s_20.edge + 1) = false) ∧
      (s_20.restage = false) ∧
      (s_20.tideInsts = []) ∧
      (s_20.retirePend = []) ∧
      (s_20.edge + 1 < 18446744073709551616) ∧
      (max s_20.tideNext ((s_20.tideTime + 999) / 1000 * 1000) < 18446744073709551616) ∧
      (s_20.applyNow = false) ∧
      (s_20.cutNew = false)) ∧
      (s_20.applyHold (s_20.edge + 1) = false)) ∧
    ((s_21.power ≠ Power.off) ∧
      (s_21.edgeDue = true) ∧
      (s_21.role ≠ 2 ∨ s_21.announced.isSome = true) ∧
      (s_21.twoLive (s_21.edge + 1) = true ∨
        s_21.applyHold (s_21.edge + 1) = true) ∧
      (s_21.holdSince = none)) ∧
    (((s_22.power ≠ Power.off) ∧
      (s_22.edgeDue = true) ∧
      (s_22.role ≠ 2 ∨ s_22.announced.isSome = true) ∧
      (s_22.twoLive (s_22.edge + 1) = false) ∧
      (s_22.restage = false) ∧
      (s_22.tideInsts = []) ∧
      (s_22.retirePend = []) ∧
      (s_22.edge + 1 < 18446744073709551616) ∧
      (max s_22.tideNext ((s_22.tideTime + 999) / 1000 * 1000) < 18446744073709551616) ∧
      (s_22.applyNow = true) ∧
      (s_22.bit R.CHT_STATUS_rotation = false)) ∧
      (s_22.applyHold (s_22.edge + 1) = false)) ∧
    ((s_23.power ≠ Power.off) ∧
      (s_23.holdSince = some 95000) ∧
      (s_23.edgeDue = true) ∧
      (s_23.applyHold (s_23.edge + 1) = true)) :=
    ⟨(by decide +kernel),
    And.imp id applyHold_of (by decide +kernel),
    (by decide +kernel),
    And.imp id applyHold_of (by decide +kernel),
    (by decide +kernel)⟩

end ChartTide

namespace Links

def e0 : DlEnd := ⟨[⟨1022, 3, []⟩], 1, 1023, 1023, 2, 500, [], [(true, 9)]⟩
def dm (st : Nat) (l : List Eff) := mk ([put (R.DL_STATUS_state 2 3) st, put (R.DL_STATUS_state 2 4) 2, put (R.DL_STATUS_half 2 3) 0, put ⟨R.DL_HASH 2 0, 20, 4⟩ 3, put (R.DL_CTRL_fail_threshold 2 3) 4, .upd (.dlEnd (15*2+1) e0), .upd (.now 77)] ++ l)
def e1 : DlEnd := ⟨[⟨1022, 3, []⟩, ⟨1023, 3, []⟩, ⟨0, 3, []⟩], 2, 1, 1023, 2, 500, [], [(false, 1023), (true, 4)]⟩
def e2 : DlEnd := ⟨[⟨1022, 3, []⟩, ⟨1023, 3, []⟩, ⟨0, 3, []⟩], 2, 1, 1023, 2, 500, [], [(true, 1023), (true, 4)]⟩
def gw := Eff.all [putRegBit R.GWL_UP 9 true, putRegBit R.GWL_UP 12 true, put (R.GWL_LINK_STATUS_weight 9) 8, put (R.GWL_LINK_STATUS_weight 12) 4, put (R.GWL_LINK_STATUS_state 9) 4, put (R.GWL_LINK_STATUS_state 12) 4, put R.GWL_NODE_fabric 0x1234, put R.GWL_GROUP_group_tag 0x55, put R.GWL_GROUP_member 3, put R.GWL_GROUP_group_size 8, put (R.GWL_PEER_valid 5) 1, put (R.GWL_PEER_reachable 5) 1, put (R.GWL_PEER_fabric 5) 0x777]
def hd (seq : Nat) : GwHdr := ⟨9, 0x1234, 0x777, 5, 0x55, BitVec.ofNat 32 seq, .good⟩
def gs (l : List Eff) := mk ([gw] ++ l)
def SS := gs [.upd (.gwNext 22 7), .upd (.gwNext 23 7)]
def dd : List Byte := (List.range 50).map fun i => BitVec.ofNat 8 (i+1)
def pk (q : Option Nat) (resent : Nat) : GwPkt := ⟨3, 2, 5, 44, 0x1234, [1,2], 9, 100, resent, some 6, q, 9, 100, false⟩
def pk2 : GwPkt := ⟨3, 2, 6, 44, 0x1234, [1,2], 9, 100, 0, some 6, none, 9, 100, false⟩
def gt (l : Fin 48) (up fast slow : Bool) (fl : Nat) : GwTrain := ⟨l, up, fast, slow, BitVec.ofNat 4 fl, [0,0,0,0], 15, [5, 300000, 0, 0]⟩
def xd (fl : Nat) (len := 50) : List Byte := [1, BitVec.ofNat 8 fl] ++ toLE 2 5 ++ toLE 2 77 ++ toLE 2 155 ++ toLE 8 0x6003 ++ toLE 8 0x9009 ++ toLE 8 len ++ List.replicate 32 0
def xs (l : List Eff) := gs ([put (R.GWL_XQ_BASE_base 2) (0x1000000000/64), put (R.GWL_XQ_BASE_size_log2 2) 4, put (R.GWL_XQ_STATUS_head 2) 15, pokeBytes (0x1000000000 + 15 * 64) (xd 3), pokeBytes 0x6003 dd] ++ l)

def s_1 : State := dm 2 []
def s_2 : State := dm 2 [.upd (.dlEnd (15*2+1) e1)]
def rest_1 : List (Bool × Nat) := [(true, 4)]
def s_3 : State := dm 2 [.upd (.dlEnd (15*2+1) e2)]
def rest_2 : List (Bool × Nat) := [(true, 4)]
def s_4 : State := dm 2 [.upd (.dlEnd (15*2+1) {e2 with replays := 15})]
/-- DieLinkFrames: states and operands that meet the hypotheses of its clauses. -/
theorem test_die_link_frames :
    ((s_1.power ≠ Power.off) ∧
      (s_1.dlUp 15 = true) ∧
      ((s_1.dlEndAt 31).held[(s_1.dlEndAt 31).pos]? = none) ∧
      ((s_1.dlEndAt 31).held.length < 256) ∧
      ((s_1.dlEndAt 31).todo = []) ∧
      (s_1.hashOf 2 5 = 3) ∧
      (s_1.slotModule 2 5 = 3) ∧
      ((s_1.dlEndAt 31).next < 1024) ∧
      ((s_1.dlEndAt 31).expect = (s_1.dlEndAt 31).next) ∧
      (frameGood
          (frameGot (toLE 64 4886718345 ++ toLE 2 ((s_1.dlEndAt 31).next % 1024 + 2048))
            1#544) =
        false) ∧
      ((s_1.dlFailAt 15).2 + 2 ≤ s_1.get (R.DL_CTRL_fail_threshold 2 3)) ∧
      ((s_1.dlEndAt 31).held ≠ []) ∧
      ((s_1.dlEndAt 31).pos ≠ 0) ∧
      ((s_1.dlEndAt 31).replays < 15)) ∧
    ((s_2.power ≠ Power.off) ∧
      (s_2.dlUp 15 = true) ∧
      ((s_2.dlEndAt 31).back = (false, 1023) :: rest_1)) ∧
    ((s_3.power ≠ Power.off) ∧
      (s_3.dlUp 15 = true) ∧
      ((s_3.dlEndAt 31).back = (true, 1023) :: rest_2) ∧
      ((s_3.dlEndAt 31).held ≠ []) ∧
      ((s_3.dlEndAt 31).replays < 15)) ∧
    ((s_4.power ≠ Power.off) ∧
      (s_4.dlUp 15 = true) ∧
      ((s_4.dlEndAt 31).held ≠ []) ∧
      ((s_4.dlEndAt 31).pos ≠ 0) ∧
      (15 ≤ (s_4.dlEndAt 31).replays)) :=
    ⟨(by decide +kernel),
    (by decide +kernel),
    (by decide +kernel),
    (by decide +kernel)⟩

def s_5 : State := dm 2 [.upd (.dlMoves [(2, 5, 3, 4)]), .upd (.dlEnd (15*2+1) {e1 with held := []})]
def x_1 : Nat × Nat × Nat × Nat := (2, 5, 3, 4)
def s_6 : State := dm 1 [.upd (.dlOld 15 4), put (R.DL_CAPS_agreed 2 3) 1]
def s_7 : State := dm 6 [put ⟨R.DL_HASH 2 0, 20, 4⟩ 4, putBit (R.DL_CTRL_offline 2 3) true]
def s_8 : State := dm 1 [.upd (.dlOld 15 4), put (R.DL_CAPS_agreed 2 3) 15]
def s_9 : State := dm 2 [put ⟨R.DL_HASH 2 0, 20, 4⟩ 4]
def s_10 : State := dm 6 [putBit (R.DL_TEST_busy 2 3) true]
/-- DieLinkModules: states and operands that meet the hypotheses of its clauses. -/
theorem test_die_link_modules :
    ((s_5.power ≠ Power.off) ∧
      (s_5.dlUp 15 = true) ∧
      (writable (Agent.core 0) 2067 0 s_5) ∧
      (List.find? (fun y ↦ y.1 == 2 && y.2.1 == 5) s_5.dlMoves = some x_1) ∧
      (s_5.dl (12 + x_1.2.2.1) ≠ 1) ∧
      (s_5.dl (12 + x_1.2.2.2) ≠ 1) ∧
      (s_5.dl (12 + x_1.2.2.1) ≠ 7) ∧
      (∀ r < 2, (s_5.dlEndAt ((12 + x_1.2.2.1) * 2 + r)).ofSlot 5 = []) ∧
      (s_5.dl 15 ≠ 0) ∧
      (s_5.dl 15 ≠ 7) ∧
      (s_5.bit (R.DL_CTRL_offline 2 3) = false) ∧
      (((List.range 48).any fun k ↦
          s_5.hashOf 2 k == 3 || s_5.slotModule 2 k == 3) =
        true)) ∧
    ((s_6.power ≠ Power.off) ∧
      (s_6.dl 15 = 1) ∧
      (s_6.dlOldAt 15 = 4) ∧
      (s_6.get (R.DL_SPARE_TX_spares 2 3) = 0) ∧
      (s_6.get (R.DL_SPARE_RX_spares 2 3) = 0) ∧
      (s_6.get (R.DL_LANES_TX_failed 2 3) = 0) ∧
      (s_6.get (R.DL_LANES_RX_failed 2 3) = 0) ∧
      (s_6.fwRuns = false) ∧
      (s_6.get (R.DL_CAPS_agreed 2 3) = 1)) ∧
    ((s_7.power ≠ Power.off) ∧
      (writable (Agent.core 0) 2067 0 s_7) ∧
      (s_7.dl 15 ≠ 0) ∧
      (s_7.dl 15 ≠ 7) ∧
      (s_7.bit (R.DL_CTRL_offline 2 3) = true) ∧
      (s_7.dlForced 15 = false) ∧
      (writable (Agent.core 0) 2067 72 s_7) ∧
      (6 ≤ s_7.dl 15) ∧
      (s_7.bit (R.DL_TEST_busy 2 3) = false) ∧
      (∃ k : Fin 6, s_7.dl (12 + (k : Nat)) ≠ 6)) ∧
    ((s_8.power ≠ Power.off) ∧
      (s_8.dl 15 = 1) ∧
      (s_8.dlOldAt 15 = 4) ∧
      (s_8.get (R.DL_CAPS_agreed 2 3) = 15) ∧
      (s_8.get (R.DL_SPARE_TX_spares 2 3) = 0) ∧
      (s_8.get (R.DL_SPARE_RX_spares 2 3) = 0) ∧
      (s_8.get (R.DL_LANES_TX_failed 2 3) = 0) ∧
      (s_8.get (R.DL_LANES_RX_failed 2 3) = 0)) ∧
    ((s_9.power ≠ Power.off) ∧
      (writable (Agent.core 0) 2067 72 s_9) ∧
      (s_9.dl 15 < 6)) ∧
    ((s_10.power ≠ Power.off) ∧
      (s_10.bit (R.DL_TEST_busy 2 3) = true)) :=
    ⟨(by unfold writable; decide +kernel),
    (by decide +kernel),
    (by unfold writable; decide +kernel),
    (by decide +kernel),
    (by unfold writable; decide +kernel),
    (by decide +kernel)⟩

def h_1 : GwHdr := hd 7
def data_1 : List Byte := dd
def s_11 : State := gs [.upd (.gwNext 22 7), .upd (.gwNext 23 7), put R.TIDE_CTRL_role 2, put R.TIDE_STATUS_state 1, put R.TIDE_EDGE_NUM_edge 8, put (R.SWL_CFG_valid 9) 1, put (R.SWL_CFG_group 9) 1, put (R.SWL_CFG_root 9) 1, put (R.SWL_CFG_branches 9) 5, put (R.SWL_CFG_expected 9) 5, put (R.SWL_MEMBERS_LO_members 9) 6]
def h_2 : GwHdr := hd 7
def data_2 : List Byte := dd
def s_12 : State := SS
def h_3 : GwHdr := hd 7
def s_13 : State := gs [.upd (.gwNext 22 7), .upd (.gwNext 23 7), put R.TIDE_CTRL_role 1, .upd (.reports [5, 6])]
/-- GlewawinPackets: states and operands that meet the hypotheses of its clauses. -/
theorem test_glewawin_packets :
    ((arrives h_1 3 s_11) ∧
      (s_11.mapStatus 281470681743360 data_1.length ≠ ST_OK) ∧
      (arrives h_1 2 s_11) ∧
      (s_11.pbxStatus 7145 ≠ ST_OK) ∧
      (s_11.wallStatus 9 (49152 + (↑h_1.link : Nat)) = ST_OK) ∧
      (s_11.bit (R.SWL_CFG_group 9) = true) ∧
      (s_11.bit (R.SWL_CFG_root 9) = true) ∧
      (s_11.get (R.SWL_STATE_branch_arrived 9) + 1 <
        s_11.get (R.SWL_CFG_branches 9)) ∧
      (s_11.role = 2) ∧
      (s_11.tideRuns = true) ∧
      (9 = s_11.edge + 1) ∧
      (s_11.tideNs ≤ 10000)) ∧
    (((arrives h_2 3 s_12) ∧
      (rxLands 20483 data_2.length = true) ∧
      (arrives h_2 2 s_12) ∧
      (s_12.pbxStatus 145 = ST_OK) ∧
      (s_12.waitersAt 145 = []) ∧
      (s_12.get (R.PBX_VALUE_value 3 1) + 77 < 65536)) ∧
      (memReady s_12 (Agent.core 0) 20483 data_2.length)) ∧
    ((arrives h_3 2 s_13) ∧
      (s_13.role = 1)) :=
    ⟨(by unfold arrives; decide +kernel),
    And.imp id memReady_of (by unfold arrives; decide +kernel),
    (by unfold arrives; decide +kernel)⟩

def h_4 : GwHdr := hd 7
def p_1 : GwPkt := pk none 3
def s_14 : State := gs [.upd (.gwOut [pk2, pk none 3]), put R.TIDE_CTRL_role 1]
def p_2 : GwPkt := pk none 1
def s_15 : State := gs [.upd (.gwOut [pk2, pk none 1])]
def h_5 : GwHdr := hd 7
def s_16 : State := gs [.upd (.now 5000), .upd (.gwOut [pk2, pk none 3]), put R.TIDE_CTRL_role 2]
def h_6 : GwHdr := hd 7
def s_17 : State := gs [.upd (.now 5000), .upd (.gwOut [pk2, pk none 3]), put R.TIDE_CTRL_role 2, .upd (.synced true)]
/-- GlewawinReplies: states and operands that meet the hypotheses of its clauses. -/
theorem test_glewawin_replies :
    ((s_14.power ≠ Power.off) ∧
      (h_4.hop = HopEnd.good) ∧
      (s_14.gwUp (↑h_4.link : Nat) = true) ∧
      (s_14.gwAccepts h_4 = true) ∧
      (List.find? (fun q ↦ q.dest == (↑h_4.member : Nat) && q.vc == 2 && q.seq == 44 && !q.acked)
          s_14.gwOut =
        some p_1) ∧
      (p_1.queue = none) ∧
      (∀ u < 64, s_14.bit (R.MON_BIND_enable u) = false) ∧
      (p_1.cell = some 6) ∧
      ((List.filter (fun q ↦ !q.acked) s_14.gwOut)[1]? = some p_1) ∧
      (3 ≤ p_1.resent) ∧
      (p_1.dest < 128) ∧
      (s_14.role = 1)) ∧
    ((s_15.power ≠ Power.off) ∧
      ((List.filter (fun q ↦ !q.acked) s_15.gwOut)[1]? = some p_2) ∧
      (p_2.resent < 3) ∧
      (s_15.sprayPick (some p_2.link) = some 12)) ∧
    ((s_16.power ≠ Power.off) ∧
      (h_5.hop = HopEnd.good) ∧
      (s_16.gwUp (↑h_5.link : Nat) = true) ∧
      (s_16.gwAccepts h_5 = true) ∧
      (s_16.role = 2) ∧
      (s_16.synced = false)) ∧
    ((s_17.power ≠ Power.off) ∧
      (h_6.hop = HopEnd.good) ∧
      (s_17.gwUp (↑h_6.link : Nat) = true) ∧
      (s_17.gwAccepts h_6 = true) ∧
      (s_17.role = 2) ∧
      (s_17.synced = true)) :=
    ⟨(by decide +kernel),
    (by decide +kernel),
    (by decide +kernel),
    (by decide +kernel)⟩

def g_1 : GwTrain := gt 10 true true true 13
def s_18 : State := gs [put (R.GWL_LINK_STATUS_state 10) 2, put (R.GWL_LINK_STATUS_lanes 9) 15]
def g_2 : GwTrain := gt 10 false true true 0
def s_19 : State := gs [put (R.GWL_LINK_STATUS_state 10) 2, put (R.GWL_LINK_STATUS_failed 9) 0xB, putRegBit R.GWL_UP 9 false]
def g_3 : GwTrain := gt 10 true true true 0
def s_20 : State := gs [put (R.GWL_LINK_STATUS_state 10) 2, put (R.GWL_LINK_STATUS_failed 9) 0xB]
def s_21 : State := gs [.upd (.hopBuf 13 [(2, [1,2,3]), (3, [5,6,7,8])]), put (R.GWL_LINK_STATUS_state 13) 2, put (R.GWL_LINK_STATUS_lanes 13) 12, put (R.GWL_LINK_STATUS_rate 13) 1]
-- xq
/-- GlewawinLinks: states and operands that meet the hypotheses of its clauses. -/
theorem test_glewawin_links :
    ((s_18.power ≠ Power.off) ∧
      (s_18.gwUp 9 = true) ∧
      (writable (Agent.core 0) 4297 0 s_18) ∧
      (s_18.gl 9 = GL_UP ∨ s_18.gl 9 = GL_DOWN) ∧
      (∃ k : Fin 48, k ≠ 9 ∧ s_18.gwUp (k : Nat) = true) ∧
      (s_18.gl (↑g_1.link : Nat) = GL_TRAINING) ∧
      (s_18.get (R.GWL_LINK_STATUS_lanes (↑g_1.link : Nat)) = 0) ∧
      (g_1.up = true) ∧
      (g_1.fast = true) ∧
      (s_18.bit (R.GWL_LINK_CTRL_force_rate (↑g_1.link : Nat)) = false) ∧
      (glQualified g_1.fastLock g_1.fastErrs ≠ 0)) ∧
    ((s_19.power ≠ Power.off) ∧
      (writable (Agent.host 0) 4300 0 s_19) ∧
      (s_19.gl 12 ≠ GL_RETIRED) ∧
      (s_19.gwUp 12 = true) ∧
      (∀ (k : Fin 48), k ≠ 12 → s_19.gwUp (↑k : Nat) = false) ∧
      (s_19.gl (↑g_2.link : Nat) = GL_TRAINING) ∧
      (s_19.get (R.GWL_LINK_STATUS_lanes (↑g_2.link : Nat)) = 0) ∧
      (g_2.up = false)) ∧
    ((s_20.power ≠ Power.off) ∧
      (s_20.gl (↑g_3.link : Nat) = GL_TRAINING) ∧
      (s_20.get (R.GWL_LINK_STATUS_lanes (↑g_3.link : Nat)) = 0) ∧
      (g_3.up = true) ∧
      (g_3.slow = true) ∧
      (g_3.fast = false ∨
        glQualified g_3.fastLock g_3.fastErrs = 0 ∨
          s_20.bit (R.GWL_LINK_CTRL_force_rate (↑g_3.link : Nat)) = true) ∧
      (glQualified g_3.slowLock g_3.slowErrs ≠ 0)) ∧
    ((s_21.power ≠ Power.off) ∧
      (s_21.gl 13 = GL_TRAINING) ∧
      (s_21.get (R.GWL_LINK_STATUS_lanes 13) ≠ 0) ∧
      (s_21.get (R.GWL_LINK_STATUS_rate 13) < 2)) :=
    ⟨(by unfold writable; decide +kernel),
    (by unfold writable; decide +kernel),
    (by decide +kernel),
    (by decide +kernel)⟩

def s_22 : State := xs [put (R.GWL_XQ_STATUS_state 2) 3, .upd (.xqDesc 2 (xd 0)), .upd (.gwOut [pk (some 2) 0, pk2])]
def s_23 : State := xs []
/-- TransferQueues: states and operands that meet the hypotheses of its clauses. -/
theorem test_transfer_queues :
    (((writable (Agent.core 0) 4256 2120 s_22) ∧
      (s_22.get (R.GWL_XQ_STATUS_state 2) ≠ 0) ∧
      (s_22.get (R.GWL_XQ_STATUS_state 2) = 3) ∧
      (s_22.get (R.GWL_XQ_STATUS_bytes_done 2) = 0) ∧
      (s_22.xqDescAt 2 ≠ []) ∧
      (xqDescOk (s_22.xqDescAt 2) = true) ∧
      (leAt (s_22.xqDescAt 2) 24 8 ≤ 2048) ∧
      (s_22.gwReach (leAt (s_22.xqDescAt 2) 2 2) = true) ∧
      (s_22.sprayPick none = some 9) ∧
      (s_22.get (R.GWL_XQ_CTRL_tail 2) % s_22.xqSize 2 =
        (s_22.get (R.GWL_XQ_STATUS_head 2) + 1) % s_22.xqSize 2) ∧
      (byteAt (s_22.xqDescAt 2) 1 / 2 % 2 = 0) ∧
      (s_22.get (R.GWL_XQ_STATUS_head 2) < s_22.xqSize 2)) ∧
      (memReady s_22 (Agent.core 0) (leAt (s_22.xqDescAt 2) 8 8)
        (leAt (s_22.xqDescAt 2) 24 8))) ∧
    (((writable (Agent.core 0) 4256 2120 s_23) ∧
      (s_23.get (R.GWL_XQ_STATUS_state 2) = 0) ∧
      ((0 % s_23.xqSize 2 + s_23.xqSize 2 -
            s_23.get (R.GWL_XQ_STATUS_head 2) % s_23.xqSize 2) %
          s_23.xqSize 2 ≠
        0) ∧
      (s_23.xqDescAt 2 = []) ∧
      (isExt (s_23.xqSlot 2 (s_23.get (R.GWL_XQ_STATUS_head 2))) = true) ∧
      (xqDescOk
          (servedBytes s_23
            (s_23.xqSlot 2 (s_23.get (R.GWL_XQ_STATUS_head 2))) 64) =
        true) ∧
      (leAt
          (servedBytes s_23
            (s_23.xqSlot 2 (s_23.get (R.GWL_XQ_STATUS_head 2))) 64)
          24 8 ≤
        2048) ∧
      (s_23.gwReach
          (leAt
            (servedBytes s_23
              (s_23.xqSlot 2 (s_23.get (R.GWL_XQ_STATUS_head 2))) 64)
            2 2) =
        true) ∧
      (s_23.sprayPick none = some 9)) ∧
      (cacheReady s_23
        (s_23.xqSlot 2 (s_23.get (R.GWL_XQ_STATUS_head 2))) 64) ∧
      (memReady s_23 (Agent.core 0)
        (leAt
          (servedBytes s_23
            (s_23.xqSlot 2 (s_23.get (R.GWL_XQ_STATUS_head 2))) 64)
          8 8)
        (leAt
          (servedBytes s_23
            (s_23.xqSlot 2 (s_23.get (R.GWL_XQ_STATUS_head 2))) 64)
          24 8))) :=
    ⟨And.imp id memReady_of (by unfold writable; decide +kernel),
    And.imp id (And.imp cacheReady_of memReady_of) (by unfold writable; decide +kernel)⟩

end Links

namespace LinksMore

def e0 : DlEnd := ⟨[⟨1022, 3, []⟩], 1, 1023, 1023, 2, 500, [], [(true, 9)]⟩
def dm (st : Nat) (l : List Eff) := mk ([put (R.DL_STATUS_state 2 3) st, put (R.DL_STATUS_state 2 4) 2, put (R.DL_STATUS_half 2 3) 0, put ⟨R.DL_HASH 2 0, 20, 4⟩ 3, put (R.DL_CTRL_fail_threshold 2 3) 4, .upd (.dlEnd (15*2+1) e0), .upd (.now 77)] ++ l)

def s_1 : State := dm 2 [hashPut 2 ((List.range 48).map fun _ => 4)]
/-- DieLinkModules: states and operands that meet the hypotheses of its clauses. -/
theorem test_die_link_modules :
    ((s_1.power ≠ Power.off) ∧
      (writable (Agent.core 0) 2067 0 s_1) ∧
      (s_1.dl 15 ≠ 0) ∧
      (s_1.dl 15 ≠ 7) ∧
      (s_1.bit (R.DL_CTRL_offline 2 3) = false) ∧
      (((List.range 48).any fun k ↦
          s_1.hashOf 2 k == 3 || s_1.slotModule 2 k == 3) =
        false) ∧
      (∃ k : Fin 6, k ≠ 3 ∧ s_1.dl (12 + (k : Nat)) < 6)) :=
    by unfold writable; decide +kernel

end LinksMore

namespace RegisterBus

def st0 (l : List Eff) := mk ([.upd (.now 777)] ++ l)
abbrev W (p o : Nat) : RegAt := .page (BitVec.ofNat 16 p) (BitVec.ofNat 16 o)
def sp (p o : Nat) : Cls × Nat × RegSpec := (specAt (rk p o)).getD (.cell, 0, ⟨0, [], .chip, []⟩)
abbrev bb (v : Nat) (n := 8) := toLE n v
def A : Agent := .core 2

def target_1 : RegAt := W 0x1000 0xC
def bs_1 : List Byte := bb 0x11223344 4
def s_1 : State := st0 []
def c_1 : Cls := (sp 0x1000 8).1
def r_1 : RegSpec := (sp 0x1000 0x8).2.2
def target_2 : RegAt := W 0x100C 0x20
def bs_2 : List Byte := bb 0x1122334455667788
def s_2 : State := st0 []
def c_2 : Cls := (sp 0x100C 0x20).1
def r_2 : RegSpec := (sp 0x100C 0x20).2.2
def target_3 : RegAt := .bar0 0x11000
def bs_3 : List Byte := bb 0x1122334455667788
def s_3 : State := st0 []
def c_3 : Cls := .qp
def target_4 : RegAt := W 0x25 0xFFF0
def bs_4 : List Byte := bb 1
def s_4 : State := st0 []
def target_5 : RegAt := W 0x25 0x12
def bs_5 : List Byte := bb 1
def s_5 : State := st0 []
def target_6 : RegAt := W 0xF 0x10
def bs_6 : List Byte := bb 1
def s_6 : State := st0 []
def target_7 : RegAt := W 0x41 0x1110
def bs_7 : List Byte := bb 1
def s_7 : State := st0 []
def c_4 : Cls := .seq
def r_3 : RegSpec := (sp 0x41 0x1110).2.2
/-- RegisterWrites: states and operands that meet the hypotheses of its clauses. -/
theorem test_register_writes :
    (((s_1.power ≠ Power.off) ∧
      (regIs 4096 8 c_1 (sp 4096 8).2.1 r_1) ∧
      (plainReg c_1 8 = true) ∧
      (halfAt 12 bs_1.length) ∧
      (s_1.regStatus 4096 12 bs_1.length = ST_OK) ∧
      (s_1.mapStatus (regAddr 4096 8) 8 = ST_OK) ∧
      (codeSound 4096 8 s_1) ∧
      (mayWrite (Agent.host 1) 4096 8 = false) ∧
      (Agent.host 1 = Agent.host 1) ∧
      (s_1.bar0At 1 5242880 = Bar0.hole)) ∧
      (names (Agent.host 1) target_1 4096 12 s_1)) ∧
    (((s_2.power ≠ Power.off) ∧
      (regIs 4108 32 c_2 (sp 4108 32).2.1 r_2) ∧
      (plainReg c_2 32 = true) ∧
      (halfAt 32 bs_2.length) ∧
      (s_2.regStatus 4108 32 bs_2.length = ST_OK) ∧
      (s_2.mapStatus (regAddr 4108 32) 8 = ST_OK) ∧
      (codeSound 4108 32 s_2) ∧
      (mayWrite A 4108 32 = true) ∧
      (s_2.accepts A c_2 (sp 4108 32).2.1 32 = true)) ∧
      (names A target_2 4108 32 s_2)) ∧
    (((s_3.power ≠ Power.off) ∧
      (clsOf 4115 = some (c_3, 1)) ∧
      (findSpec (specsOf c_3) 4096 = none) ∧
      (plainReg c_3 4096 = true) ∧
      (halfAt 4096 bs_3.length) ∧
      (s_3.regStatus 4115 4096 bs_3.length = ST_OK) ∧
      (writable (Agent.host 1) 4115 4096 s_3)) ∧
      (names (Agent.host 1) target_3 4115 4096 s_3)) ∧
    (((s_4.power ≠ Power.off) ∧
      (bs_4.length = 8) ∧
      (instStaged 37 = true) ∧
      (s_4.regStatus 37 65520 8 = ST_OK) ∧
      (writable A 37 65520 s_4)) ∧
      (names A target_4 37 65520 s_4)) ∧
    (((s_5.power ≠ Power.off) ∧
      ((clsOf 37).isSome = true) ∧
      (¬(37 = 4128 ∧ 18 < 32896 ∧ 0 = 1)) ∧
      (s_5.regStatus 37 18 bs_5.length ≠ ST_OK)) ∧
      (names A target_5 37 18 s_5)) ∧
    (((s_6.power ≠ Power.off) ∧
      (clsOf 15 = none) ∧
      (halfAt 16 bs_6.length)) ∧
      (names (Agent.host 0) target_6 15 16 s_6)) ∧
    (((s_7.power ≠ Power.off) ∧
      (regIs 65 4368 c_4 4 r_3) ∧
      (plainReg c_4 4368 = true) ∧
      (halfAt 4368 bs_7.length) ∧
      (s_7.regStatus 65 4368 bs_7.length = ST_OK) ∧
      (s_7.mapStatus (regAddr 65 4368) 8 = ST_OK) ∧
      (codeSound 65 4368 s_7) ∧
      (mayWrite A 65 4368 = true) ∧
      (s_7.accepts A c_4 4 4368 = false)) ∧
      (names A target_7 65 4368 s_7)) :=
    ⟨And.imp id names_of (by unfold regIs halfAt codeSound; decide +kernel),
    And.imp id names_of (by unfold regIs halfAt codeSound; decide +kernel),
    And.imp id names_of (by unfold halfAt writable; decide +kernel),
    And.imp id names_of (by unfold writable; decide +kernel),
    And.imp id names_of (by decide +kernel),
    And.imp id names_of (by unfold halfAt; decide +kernel),
    And.imp id names_of (by unfold regIs halfAt codeSound; decide +kernel)⟩

end RegisterBus

namespace RegisterBusMore

def st0 (l : List Eff) := mk ([.upd (.now 777)] ++ l)
abbrev W (p o : Nat) : RegAt := .page (BitVec.ofNat 16 p) (BitVec.ofNat 16 o)
def sp (p o : Nat) : Cls × Nat × RegSpec := (specAt (rk p o)).getD (.cell, 0, ⟨0, [], .chip, []⟩)
def A : Agent := .core 2
def ek := R.VLT_ECC_CNT 4 2
def e0 := st0 [putReg ek 0x123456789abcdef]
def C4 : Nat := sramAddr 4 0x1234
def own := Eff.all [pokeBytes C4 [1,2,3,4,5], put (ownFld 4 0) 0xFFA]

def z_1 : Option (Fin 11) := some 10
def bs_1 : List Byte := [7,8,9]
def s_1 : State := st0 [up 1]
def z_2 : Option (Fin 11) := some 2
def bs_2 : List Byte := [7,8,9]
def s_2 : State := st0 [own, up 1]
def z_3 : Option (Fin 11) := some 10
def s_3 : State := st0 [own, up 1]
/-- MapAccesses: states and operands that meet the hypotheses of its clauses. -/
theorem test_map_accesses :
    (((s_1.power ≠ Power.off) ∧
      (s_1.mapStatus 51539611648 64 ≠ ST_OK) ∧
      (reaches Agent.mgmt 51539611648 64 s_1) ∧
      (s_1.mapStatus 51539611648 bs_1.length ≠ ST_OK) ∧
      (reaches Agent.mgmt 51539611648 bs_1.length s_1) ∧
      (bs_1.length ≤ 512) ∧
      (∀ e < 16, s_1.bit (R.CRC_CTRL_running e) = false) ∧
      (s_1.linkUp 1 = true) ∧
      (51539611712 ≤
        2 ^
          (28 +
            match z_1 with
            | some v => (↑v : Nat)
            | none => s_1.bar2At 1))) ∧
      (∀ (q o : Nat), regionOf 51539611648 ≠ Region.regs q o)) ∧
    ((s_2.power ≠ Power.off) ∧
      (¬(s_2.linkUp 1 = true ∧
          0 < 5 ∧
            206175212089 ≤
              2 ^
                (28 +
                  match z_2 with
                  | some v => (↑v : Nat)
                  | none => s_2.bar2At 1))) ∧
      (¬(s_2.linkUp 1 = true ∧
            0 < bs_2.length ∧
              206175212084 + bs_2.length ≤
                2 ^
                  (28 +
                    match z_2 with
                    | some v => (↑v : Nat)
                    | none => s_2.bar2At 1)) ∨
        512 < bs_2.length)) ∧
    (((s_3.power ≠ Power.off) ∧
      (Agent.host 0 = Agent.host 0) ∧
      (s_3.linkUp 0 = false ∨ 2 ^ (28 + s_3.bar2At 0) < 206175212089) ∧
      (∀ e < 16, s_3.bit (R.CRC_CTRL_running e) = false) ∧
      (regionOf 206175212084 = Region.sram 4 4660) ∧
      (s_3.linkUp 1 = true) ∧
      (206175212089 ≤
        2 ^
          (28 +
            match z_3 with
            | some v => (↑v : Nat)
            | none => s_3.bar2At 1))) ∧
      (memReady s_3 (Agent.host 1) 206175212084 5)) :=
    ⟨And.imp id noRegs_of (by unfold reaches; decide +kernel),
    (by decide +kernel),
    And.imp id memReady_of (by decide +kernel)⟩

def target_1 : RegAt := W 0x1000 0x8
def s_4 : State := st0 [put R.TIDE_PERIOD_period_us 1000]
def c_1 : Cls := (sp 0x1000 8).1
def r_1 : RegSpec := (sp 0x1000 0x8).2.2
-- RC register with both halves: GD_ECC_CNT? VLT_ECC_CNT
def target_2 : RegAt := .bar0 0x1
def s_5 : State := e0
def target_3 : RegAt := W 0x1000 0x38
def s_6 : State := e0
def c_2 : Cls := .tide
def target_4 : RegAt := W 0x1000 0x8000
def s_7 : State := e0
def c_3 : Cls := .tide
def target_5 : RegAt := W 0x25 0xFF00
def s_8 : State := e0
def c_4 : Cls := .que
def target_6 : RegAt := W 0x25 0xFFF0
def s_9 : State := st0 [put (stageCount 0x25) 6]
def c_5 : Cls := .que
/-- RegisterReads: states and operands that meet the hypotheses of its clauses. -/
theorem test_register_reads :
    (((s_4.power ≠ Power.off) ∧
      (codeSound 4096 8 s_4) ∧
      (regIs 4096 8 c_1 (sp 4096 8).2.1 r_1) ∧
      (counted 4096 8 s_4) ∧
      (s_4.derived c_1 (sp 4096 8).2.1 8 = none) ∧
      (halfAt 8 8) ∧
      (s_4.regStatus 4096 8 8 = ST_OK)) ∧
      (names A target_1 4096 8 s_4)) ∧
    (((s_5.power ≠ Power.off) ∧
      (codeSound 4113 1 s_5) ∧
      ((clsOf 4113).isSome = true) ∧
      (s_5.regStatus 4113 1 4 ≠ ST_OK)) ∧
      (names (Agent.host 1) target_2 4113 1 s_5)) ∧
    (((s_6.power ≠ Power.off) ∧
      (codeSound 4096 56 s_6) ∧
      (clsOf 4096 = some (c_2, 0)) ∧
      (s_6.derived c_2 0 56 = some e0.tideTime) ∧
      (halfAt 56 4) ∧
      (s_6.regStatus 4096 56 4 = ST_OK)) ∧
      (names A target_3 4096 56 s_6)) ∧
    (((s_7.power ≠ Power.off) ∧
      (codeSound 4096 32768 s_7) ∧
      (clsOf 4096 = some (c_3, 0)) ∧
      (s_7.derived c_3 0 32768 = none) ∧
      (findSpec (specsOf c_3) 32768 = none) ∧
      (halfAt 32768 8) ∧
      (s_7.regStatus 4096 32768 8 = ST_OK)) ∧
      (names A target_4 4096 32768 s_7)) ∧
    (((s_8.power ≠ Power.off) ∧
      (codeSound 37 65280 s_8) ∧
      (clsOf 37 = some (c_4, 2)) ∧
      (halfAt 65280 8) ∧
      (s_8.regStatus 37 65280 8 = ST_OK)) ∧
      (names A target_5 37 65280 s_8)) ∧
    (((s_9.power ≠ Power.off) ∧
      (codeSound 37 65520 s_9) ∧
      (clsOf 37 = some (c_5, 2)) ∧
      (halfAt 65520 8) ∧
      (s_9.regStatus 37 65520 8 = ST_OK)) ∧
      (names A target_6 37 65520 s_9)) :=
    ⟨And.imp id names_of (by unfold codeSound regIs counted halfAt; decide +kernel),
    And.imp id names_of (by unfold codeSound; decide +kernel),
    And.imp id names_of (by unfold codeSound halfAt; decide +kernel),
    And.imp id names_of (by unfold codeSound halfAt; decide +kernel),
    And.imp id names_of (by unfold codeSound halfAt; decide +kernel),
    And.imp id names_of (by unfold codeSound halfAt; decide +kernel)⟩

def s_10 : State := st0 [put R.LIC_FEATURES_min_tide_us 500, .upd (.shadows R.TIDE_PERIOD (some (1000 + 100 * 65536 + 20 * 2^32))), put (stagePending 0x1000) 1, put (stageCount 0x1000) (2^32-1)]
def s_11 : State := st0 []
def s_12 : State := st0 [.upd (.shadows (R.MON_BIND 5) (some (0x123456789abcdef))), .upd (.shadows (R.MON_SETTING 7) (some (0xfff23456789abcdef))), .upd (.shadows (R.TIDE_PERIOD) (some (0x123456789abcdef))), put (R.MON_BIND_enable 3) 1, .upd (.mon 5 {MonCap.zero with count := 3})]
/-- Commits: states and operands that meet the hypotheses of its clauses. -/
theorem test_commits :
    ((writable A 4096 65528 s_10) ∧
      (s_10.wf = true) ∧
      (s_10.shadowsAt R.TIDE_PERIOD = some (1000#64 + 100#64 * 65536#64 + 20#64 * 2#64 ^ 32))) ∧
    ((writable A 4100 65528 s_11) ∧
      (s_11.wf = true) ∧
      (instStaged 4100 = false)) ∧
    (((writable A 4101 65528 s_12) ∧
      (s_12.wf = true) ∧
      (instStaged 4101 = true)) ∧
      (∀ (c : Cls) (n : Nat), clsOf (instPage 4101) = some (c, n) → c ∉ [Cls.que, Cls.swl, Cls.tide, Cls.dlDie])) :=
    ⟨(by unfold writable; decide +kernel),
    (by unfold writable; decide +kernel),
    And.imp id (some_of (P := fun c => c ∉ [Cls.que, Cls.swl, Cls.tide, Cls.dlDie])) (by unfold writable; decide +kernel)⟩

end RegisterBusMore

namespace RegisterBusMap

def st0 (l : List Eff) := mk ([.upd (.now 777)] ++ l)

def z_1 : Option (Fin 11) := none
def bs_1 : List Byte := [7,8,9,1,2,3,4,5,6,7,8,9,10,11,12,13,14]
def s_1 : State := st0 [pokeBytes 0x1000 [4,5,6], up 1]
/-- MapAccesses: states and operands that meet the hypotheses of its clauses. -/
theorem test_map_accesses :
    (((s_1.power ≠ Power.off) ∧
      (reaches (Agent.core 1) 4100 64 s_1) ∧
      (reaches (Agent.core 1) 4100 bs_1.length s_1) ∧
      (bs_1.length ≤ 512) ∧
      (∀ (q : Fin 2), Agent.core 1 ≠ Agent.host q) ∧
      (9 < bs_1.length) ∧
      (∀ e < 16, s_1.bit (R.CRC_CTRL_running e) = false) ∧
      (s_1.linkUp 1 = true) ∧
      (8256 ≤
        2 ^
          (28 +
            match z_1 with
            | some v => (↑v : Nat)
            | none => s_1.bar2At 1)) ∧
      (0 < bs_1.length) ∧
      (8192 + bs_1.length ≤
        2 ^
          (28 +
            match z_1 with
            | some v => (↑v : Nat)
            | none => s_1.bar2At 1))) ∧
      (memReady s_1 (Agent.core 1) 4100 64) ∧
      (memReady s_1 (Agent.core 1) 4100 bs_1.length) ∧
      (memReady s_1 (Agent.host 1) 8192 64) ∧
      (memReady s_1 (Agent.host 1) 8192 bs_1.length)) :=
    And.imp id (And.imp memReady_of (And.imp memReady_of (And.imp memReady_of memReady_of))) (by unfold reaches; decide +kernel)

end RegisterBusMap

namespace EventsChecks

def st0 (l : List Eff) := mk ([.upd (.now 777)] ++ l)
def A : Agent := .core 2
def r3 (src : Nat) := Eff.all [put (R.EVC_ROUTE_cores src) 5, putBit (R.EVC_ROUTE_p0_en src) true, putBit (R.EVC_ROUTE_p1_en src) true, put (R.EVC_ROUTE_p0_vector src) 9, put (R.EVC_ROUTE_p1_vector src) 11, put R.TIDE_EDGE_NUM_edge 77]
def w3 (src : Nat) (i := 6) := Eff.all [putBit (R.AOW_WATCH_valid i) true, put (R.AOW_WATCH_source i) src, putBit (R.AOW_WATCH_wake i) true, putBit (R.AOW_WATCH_mgmt i) true]
def ce (l : List Eff) := st0 ([put (R.CRC_CFG_width 5) 32, put (R.CRC_INIT_value 5) 0x1FFFFFFFF, put (R.CRC_VALUE_value 5) 0x55, put (R.CRC_STATUS_bytes 5) 8, put (R.CRC_CTRL_win_en 5) 1] ++ l)
def fwr (l : List Eff) := st0 ([put (R.FW_CORE_state 0) 1] ++ l)

def s_1 : State := st0 [r3 0x43A]
def s_2 : State := st0 [r3 0x434, w3 0x434, up 0, putRegBit (pendReg 2 0x434) (0x434 % 64) true]
/-- EventDelivery: states and operands that meet the hypotheses of its clauses. -/
theorem test_event_delivery :
    ((s_1.power ≠ Power.off) ∧
      (srcListed 1082 = false) ∧
      ((∀ (q : Fin 2), A ≠ Agent.host q) ∨ ∃ q, A = Agent.host q ∧ 1 = (↑q : Nat) + 1)) ∧
    ((s_2.power ≠ Power.off) ∧
      (srcListed 1076 = true) ∧
      (Agent.host 1 = Agent.host 1)) :=
    ⟨(by decide +kernel),
    (by decide +kernel)⟩

def s_3 : State := st0 [.upd (.mon 7 ⟨-5, 77, 12, -456, true, (List.range 32).map (· + 4), true⟩), put R.TIDE_EDGE_NUM_edge 77]
/-- MonitorUnits: states and operands that meet the hypotheses of its clauses. -/
theorem test_monitor_units :
    ((s_3.power ≠ Power.off)) :=
    by decide +kernel

def s_4 : State := ce []
def s_5 : State := ce [put (R.CRC_EXPECT_value 5) 0x55]
/-- CheckEngines: states and operands that meet the hypotheses of its clauses. -/
theorem test_check_engines :
    ((writable A 4102 1344 s_4) ∧
      (¬s_4.crcResult 5 =
          s_4.get (R.CRC_EXPECT_value 5) % 2 ^ s_4.get (R.CRC_CFG_width 5))) ∧
    ((writable A 4102 1344 s_5) ∧
      (s_5.crcResult 5 =
        s_5.get (R.CRC_EXPECT_value 5) % 2 ^ s_5.get (R.CRC_CFG_width 5))) :=
    ⟨(by unfold writable; decide +kernel),
    (by unfold writable; decide +kernel)⟩

def s_6 : State := fwr [put (R.VLT_ECC_CNT_single 4 3) 5, put (R.VLT_ECC_CNT_double 4 3) 2, put (R.CELL_ECC_gen_corr 6) 3, put (R.DL_ERR_crc_errors 3 4) 9, .upd (.ceCount (5 * 65536 + 22) ⟨3, 4, 5, false, false⟩)]
def s_7 : State := st0 []
/-- CorrectedErrorPoll: states and operands that meet the hypotheses of its clauses. -/
theorem test_corrected_error_poll :
    ((s_6.power ≠ Power.off) ∧
      (s_6.fwRuns = true)) ∧
    ((s_7.power ≠ Power.off) ∧
      (s_7.fwRuns = false)) :=
    ⟨(by decide +kernel),
    (by decide +kernel)⟩

end EventsChecks

namespace Management

def st0 (l : List Eff) := sb ([put (R.FW_CORE_state 0) 1, put R.TIDE_EDGE_NUM_edge 66, put R.THM_STATUS_t_max 700] ++ l)

def s_1 : State := st0 [put (R.THM_CHAN_lo 5) 0xFFF0, put (R.THM_CHAN_hi 5) 30, put (R.THM_CHAN_lo 208) 0xFFEE, .upd (.mgmtQ [⟨4, 5, 0, 88⟩, ⟨6, 7, 2, 99999⟩]), put (R.THM_SOUND_logic_pred 4) 77]
def s_2 : State := st0 [put (R.THM_CHAN_lo 5) 0xFFF0, put (R.THM_CHAN_hi 5) 30, .upd (.mgmtQ [⟨4, 5, 3, 88⟩, ⟨6, 7, 2, 99999⟩]), putBit R.THM_SHUTDOWN_latched true, put (R.FW_CORE_state 0) 0]
def s_3 : State := st0 [.upd (.power .s0)]
def s_4 : State := st0 [.upd (.mgmtQ [⟨4, 5, 0, 88⟩, ⟨6, 7, 2, 99999⟩])]
def m_1 : MgmtMsg := (⟨6, 7, 2, 99999⟩ : MgmtMsg)
/-- ManagementPort: states and operands that meet the hypotheses of its clauses. -/
theorem test_management_port :
    ((s_1.power ≠ Power.off) ∧
      (s_1.power = Power.on ∨ s_1.power = Power.s0Failed) ∧
      (s_1.bit R.THM_SHUTDOWN_latched = false)) ∧
    ((s_2.power ≠ Power.off) ∧
      (s_2.power = Power.on ∨ s_2.power = Power.s0Failed) ∧
      (¬(1 ≤ 4361 ∧ 4361 ≤ 5)) ∧
      (¬(4096 ≤ 4361 ∧ 4361 < 4352)) ∧
      (¬(8193 ≤ 4361 ∧ 4361 ≤ 8197)) ∧
      (s_2.bit R.THM_SHUTDOWN_latched = true)) ∧
    ((s_3.power ≠ Power.off) ∧
      (¬(s_3.power = Power.on ∨ s_3.power = Power.s0Failed))) ∧
    ((s_4.power ≠ Power.off) ∧
      (s_4.mgmtQ[1]? = some m_1)) :=
    ⟨(by decide +kernel),
    (by decide +kernel),
    (by decide +kernel),
    (by decide +kernel)⟩

def s_5 : State := st0 [.upd (.pmKey 1 [3]), put R.LCY_STATE_state 0, putBit R.LCY_TAMPER_input_level true, put (R.FW_CORE_state 0) 0]
def s_6 : State := st0 [.upd (.pmKey 1 [3]), put R.LCY_STATE_state 2, putBit R.LCY_STATE_keys_loaded true, putBit (R.EVC_ROUTE_p1_en 0x70B) true, putBit (R.EVC_ROUTE_p1_en 0x706) true]
def s_7 : State := st0 [.upd (.pmKey 1 [3]), put R.LCY_STATE_state 2, putBit R.LCY_TAMPER_input_level true, put (R.FW_CORE_state 0) 0]
/-- TamperAndHeartbeat: states and operands that meet the hypotheses of its clauses. -/
theorem test_tamper_and_heartbeat :
    ((s_5.power ≠ Power.off) ∧
      (s_5.get R.LCY_STATE_state = 0) ∧
      (s_5.bit R.LCY_TAMPER_input_level = true) ∧
      (s_5.get (R.FW_CORE_state 0) = 0)) ∧
    ((s_6.power ≠ Power.off) ∧
      (2 < 2 ∨ s_6.get R.LCY_STATE_state ≠ 0) ∧
      (s_6.get (R.FW_CORE_state 0) ≠ 0)) ∧
    ((s_7.power ≠ Power.off) ∧
      (s_7.bit R.LCY_TAMPER_input_level = true) ∧
      (s_7.get R.LCY_STATE_state ≠ 0)) :=
    ⟨(by decide +kernel),
    (by decide +kernel),
    (by decide +kernel)⟩

end Management

namespace PowerUp

def pw (p : Power) (l : List Eff) : State := (Eff.all ([.upd (.now 5000), .upd (.stageAt 3000), .upd (.boot 7)] ++ l ++ [.upd (.power p)])).run { State.reset with power := .on }
def stg (k : Nat) (l : List Eff) := pw .on ([put R.FW_STAGE_stage k] ++ l)
def junk := Eff.all [pokeBytes 0x1000 [1,2], put R.THM_STATUS_t_max 55, put R.TIDE_PERIOD_period_us 900, .upd (.cmds [cc 4]), .upd (.pmKey 1 [2]), .upd (.franks 3 [4]), .upd (.shadows R.TIDE_PERIOD (some 4)), .upd (.tampered true), .upd (.mgmtQ [⟨4, 5, 3, 88⟩]), put R.AOW_WAKE_slot 4, put R.LCY_TAMPER_voltage 1, put R.SVC_REPLACE_flags 5, put R.PWR_STATE_standby_entries 4, put R.PWR_LIMIT_limit_w 1500]

def s_1 : State := pw .on [junk, .upd (.resetAt (some 4000)), .upd (.ready true)]
def s_2 : State := pw .off [junk]
def s_3 : State := pw .on [junk, .upd (.resetAt (some 4000)), put R.FW_STAGE_stage 6]
def s_4 : State := pw .s0 [junk, .upd (.resetAt (some 4000)), put R.THM_SHUTDOWN_latched 1]
/-- PowerAndReset: states and operands that meet the hypotheses of its clauses. -/
theorem test_power_and_reset :
    ((s_1.power ≠ Power.off) ∧
      (s_1.power = Power.on) ∧
      (s_1.resetAt = some 4000) ∧
      (s_1.bit R.THM_SHUTDOWN_latched = false) ∧
      (s_1.ready = true ∨ s_1.bit R.FW_STAGE_failed = true) ∧
      (s_1.wf = true)) ∧
    ((s_2.power = Power.off) ∧
      (s_2.power ≠ Power.on)) ∧
    ((s_3.power ≠ Power.off) ∧
      (s_3.resetAt = some 4000) ∧
      (s_3.bit R.THM_SHUTDOWN_latched = false) ∧
      (s_3.ready = false) ∧
      (s_3.bit R.FW_STAGE_failed = false) ∧
      (s_3.get R.SVC_DISPATCH_HEAD_next < 2147483648) ∧
      (s_3.wf = true)) ∧
    ((s_4.power ≠ Power.off) ∧
      (s_4.resetAt = some 4000) ∧
      (s_4.bit R.THM_SHUTDOWN_latched = true)) :=
    ⟨(by decide +kernel),
    (by decide +kernel),
    (by decide +kernel),
    (by decide +kernel)⟩

def rail_1 : Option (Fin 24) := some 4
def s_5 : State := pw .s0 [.upd (.stageAt 0)]
def s_6 : State := stg 3 [.upd (.hello (some (ST_OK, 5))), put (R.FW_CORE_state 0) 1, .upd (.fwAt 4000), put R.FW_LOAD_STATUS_length 2000]
def rail_2 : Option (Fin 24) := none
def s_7 : State := pw .s0 [.upd (.stageAt 0)]
def s_8 : State := pw .s0 [.upd (.stageAt 0)]
def rail_3 : Option (Fin 24) := none
def s_9 : State := pw .s0 [.upd (.stageAt 0)]
def block_1 : Option (BitVec 16) := none
def word_1 : Option (BitVec 16) := none
def s_10 : State := stg 1 [.upd (.fuseLcy 2)]
def block_2 : Option (BitVec 16) := some 5
def s_11 : State := stg 1 [.upd (.fuseLcy 2)]
def block_3 : Option (BitVec 16) := none
def word_2 : Option (BitVec 16) := some 6
def s_12 : State := stg 1 [.upd (.fuseLcy 2)]
def s_13 : State := stg 2 [up 0, up 1]
def s_14 : State := stg 2 [up 0]
def s_15 : State := stg 2 []
def s_16 : State := stg 3 [.upd (.hello (some (ST_OK, 5))), put R.LCY_STATE_state 5]
def s_17 : State := stg 3 [.upd (.hello (some (ST_FW_INTERFACE, 5)))]
/-- BringUpFirst: states and operands that meet the hypotheses of its clauses. -/
theorem test_bring_up_first_1 :
    ((inTime s_5 0 700) ∧
      (¬(44000 < 40000 ∨ 48000 < 44000)) ∧
      (rail_1 = some 4) ∧
      (¬(s_5.linkUp 0 = true ∧ s_5.linkUp 1 = true)) ∧
      (s_5.power ≠ Power.off) ∧
      (s_5.inStage = true) ∧
      (s_5.get R.SVC_DISPATCH_HEAD_next < 2147483648) ∧
      (s_5.stageEnds s_5.stageNow = some 200000000) ∧
      (s_5.stageNow ≠ 2) ∧
      (s_5.stageNow ≠ 3)) ∧
    ((s_6.hello = some (ST_OK, 5)) ∧
      (inTime s_6 3 0) ∧
      (s_6.stageAt ≤ s_6.now) ∧
      (ST_OK = ST_OK) ∧
      (s_6.get R.LCY_STATE_state ≠ 5) ∧
      (s_6.inStage = true) ∧
      (s_6.get R.SVC_DISPATCH_HEAD_next < 2147483648) ∧
      (s_6.stageEnds s_6.stageNow = some 30000004000) ∧
      (s_6.stageNow = 3)) ∧
    ((inTime s_7 0 700) ∧
      (¬(44000 < 40000 ∨ 48000 < 44000)) ∧
      (rail_2 = none) ∧
      (s_7.get R.FW_STAGE_stage = 1) ∧
      (s_7.bit R.FW_STAGE_failed = false)) ∧
    ((inTime s_8 0 700)) ∧
    ((inTime s_9 0 700) ∧
      (¬(44000 < 40000 ∨ 48000 < 44000)) ∧
      (rail_3 = none)) ∧
    ((inTime s_10 1 500) ∧
      (block_1 = none) ∧
      (word_1 = none) ∧
      (∀ k < 6, 1 ≤ k → k ≤ 5 → s_10.franksAt k = [] ∨ frankStatus (s_10.franksAt k) = ST_OK)) ∧
    ((inTime s_11 1 500) ∧
      (block_2 = some 5#16)) ∧
    ((inTime s_12 1 500) ∧
      (block_3 = none) ∧
      (word_2 = some 6#16)) :=
    ⟨(by unfold inTime; decide +kernel),
    (by unfold inTime; decide +kernel),
    (by unfold inTime; decide +kernel),
    (by unfold inTime; decide +kernel),
    (by unfold inTime; decide +kernel),
    (by unfold inTime; decide +kernel),
    (by unfold inTime; decide +kernel),
    (by unfold inTime; decide +kernel)⟩

/-- BringUpFirst: further clauses. -/
theorem test_bring_up_first_2 :
    ((s_13.linkUp 0 = true) ∧
      (s_13.linkUp 1 = true) ∧
      (inTime s_13 2 0) ∧
      (s_13.stageAt ≤ s_13.now)) ∧
    ((s_14.inStage = true) ∧
      (s_14.get R.SVC_DISPATCH_HEAD_next < 2147483648) ∧
      (s_14.stageEnds s_14.stageNow = some 1000003000) ∧
      (s_14.stageNow = 2) ∧
      (s_14.linkUp 0 ≠ s_14.linkUp 1)) ∧
    ((s_15.inStage = true) ∧
      (s_15.get R.SVC_DISPATCH_HEAD_next < 2147483648) ∧
      (s_15.stageEnds s_15.stageNow = some 1000003000) ∧
      (s_15.stageNow = 2) ∧
      (s_15.linkUp 0 = false) ∧
      (s_15.linkUp 1 = false)) ∧
    ((s_16.hello = some (ST_OK, 5)) ∧
      (inTime s_16 3 0) ∧
      (s_16.stageAt ≤ s_16.now) ∧
      (ST_OK = ST_OK) ∧
      (s_16.get R.LCY_STATE_state = 5)) ∧
    ((s_17.hello = some (ST_FW_INTERFACE, 5)) ∧
      (inTime s_17 3 0) ∧
      (s_17.stageAt ≤ s_17.now) ∧
      (ST_FW_INTERFACE ≠ ST_OK)) :=
    ⟨(by unfold inTime; decide +kernel),
    (by decide +kernel),
    (by decide +kernel),
    (by unfold inTime; decide +kernel),
    (by unfold inTime; decide +kernel)⟩

end PowerUp

namespace BringUpStages

def pw (p : Power) (l : List Eff) : State := (Eff.all ([.upd (.now 5000), .upd (.stageAt 3000), .upd (.boot 7)] ++ l ++ [.upd (.power p)])).run { State.reset with power := .on }
def stg (k : Nat) (l : List Eff) := pw .on ([put R.FW_STAGE_stage k] ++ l)

def vrows_1 : List (Fin 1024 × Fin 16 × Fin 3072) := []
def s_1 : State := stg 5 [pokeBytes 0x1000 [1,2], .upd (.remapFlash [⟨4, 5, 6, 7⟩])]
def s_2 : State := stg 4 [pokeBytes (sramAddr 3 4) [1,2,3]]
def bins_1 : List (Fin 24 × Fin 4) := [(4, 2)]
def grows_1 : List (Fin 24 × Fin 16 × BitVec 17) := []
def s_3 : State := stg 6 [pokeBytes 0x1000000000 [1,2]]
def s_4 : State := stg 7 []
def s_5 : State := stg 8 [put R.GWL_AGG_franked 16, putReg R.SVC_RETIRED_LINK 2]
def s_6 : State := stg 9 [putBit (R.EVC_ROUTE_p0_en 0x707) true]
def bins_2 : List (Fin 24 × Fin 4) := [(4, 0)]
def s_7 : State := stg 6 [pokeBytes 0x1000000000 [1,2]]
/-- BringUpLast: states and operands that meet the hypotheses of its clauses. -/
theorem test_bring_up_last :
    ((inTime s_1 5 100) ∧
      (vrows_1 = [])) ∧
    ((inTime s_2 4 100)) ∧
    ((inTime s_3 6 100) ∧
      (∀ g < 24,
        (match List.find? (fun b ↦ (↑b.1 : Nat) == g) bins_1 with
          | some b => (↑b.2 : Nat)
          | none => 3) ≠
          0) ∧
      (grows_1 = [])) ∧
    ((inTime s_4 7 100)) ∧
    ((inTime s_5 8 100)) ∧
    ((inTime s_6 9 100)) ∧
    ((inTime s_7 6 100) ∧
      ((match List.find? (fun b ↦ (↑b.1 : Nat) == 4) bins_2 with
        | some b => (↑b.2 : Nat)
        | none => 3) =
        0) ∧
      (∀ h < 4,
        (match List.find? (fun b ↦ (↑b.1 : Nat) == h) bins_2 with
          | some b => (↑b.2 : Nat)
          | none => 3) ≠
          0)) :=
    ⟨(by unfold inTime; decide +kernel),
    (by unfold inTime; decide +kernel),
    (by unfold inTime; decide +kernel),
    (by unfold inTime; decide +kernel),
    (by unfold inTime; decide +kernel),
    (by unfold inTime; decide +kernel),
    (by unfold inTime; decide +kernel)⟩

end BringUpStages

namespace Thermal

def rd0 (ch : Nat) : Nat × Nat := if ch = 209 then (3000, 1500) else if ch = 208 then (480, 640) else if 218 ≤ ch then (44000, 100) else (640, 656)
def rd (f : List (Nat × Nat × Nat)) : List (BitVec 32) := (List.range 256).map fun ch =>
  let v := match f.find? fun x => x.1 == ch with
    | some x => x.2
    | none => rd0 ch
  BitVec.ofNat 32 (v.1 + v.2 * 65536)
def st0 (l : List Eff) := sb ([put (R.FW_CORE_state 0) 1, put R.PWR_LIMIT_limit_w 2600, put R.THM_COOL_CFG_inlet_max 40, put R.THM_GRACE_grace_ms 20, .upd (.gov {Governor.zero with roundAt := 50000000})] ++ l)
def x1 := cc 0x30
def rq (g : Governor) (l : List Eff) := st0 ([.upd (.gov {g with roundAt := 500000000}), putBit R.PWR_THROTTLE_request true, put R.PWR_LIMIT_target_w 1200] ++ l)

def s_1 : State := st0 []
/-- HousekeepingReadings: states and operands that meet the hypotheses of its clauses. -/
theorem test_housekeeping_readings :
    ((s_1.power = Power.on)) :=
    by decide +kernel

def rs_1 : List (BitVec 32) := rd [(9, 1640, 1640)]
def s_2 : State := st0 []
def rs_2 : List (BitVec 32) := rd []
def s_3 : State := st0 [putBit R.PWR_THROTTLE_request true]
def rs_3 : List (BitVec 32) := rd [(9, 1600, 1600)]
def s_4 : State := rq {Governor.zero with standing := 1} []
def rs_4 : List (BitVec 32) := rd [(9, 1600, 1600)]
def s_5 : State := rq {Governor.zero with standing := 1} [put R.PWR_LIMIT_target_w 2550]
def rs_5 : List (BitVec 32) := rd [(9, 1640, 1600)]
def s_6 : State := rq {Governor.zero with standing := 1, hotSince := some 3000} [put R.PWR_LIMIT_target_w 2550, put R.PWR_THROTTLE_level 1]
def rs_6 : List (BitVec 32) := rd [(9, 1400, 1400)]
def s_7 : State := rq {Governor.zero with standing := 1, coolSince := some 3000} [put R.PWR_LIMIT_target_w 2550, put R.PWR_THROTTLE_level 1]
def rs_7 : List (BitVec 32) := rd [(9, 1600, 1600)]
def s_8 : State := rq {Governor.zero with standing := 1, coolSince := some 3000} [put R.PWR_LIMIT_target_w 2550, put R.PWR_THROTTLE_level 3]
def rs_8 : List (BitVec 32) := rd [(9, 1800, 1800)]
def s_9 : State := st0 [.upd (.cmds [{x1 with phase := 1}])]
def x_1 : Int × Nat := ((1800, 9) : Int × Nat)
/-- HousekeepingGovernor: states and operands that meet the hypotheses of its clauses. -/
theorem test_housekeeping_governor :
    ((s_2.power = Power.on) ∧
      (noTrip s_2 rs_1) ∧
      (s_2.gov.standing < 16) ∧
      ((noKind (s_2.reading rs_1)
                s_2.diesOff =
              true ∨
            (∃ x,
                roundMax s_2 rs_1 = some x ∧
                  102 * 16 ≤ x.1) ∨
              s_2.gov.standing.testBit 0 = true ∧
                ∀ (x : Int × Nat),
                  roundMax s_2 rs_1 = some x →
                    97 * 16 < x.1) ∧
          s_2.gov.standing.testBit 0 = false ∨
        powerOver s_2 rs_1
              (s_2.get R.PWR_LIMIT_limit_w) ∧
            s_2.gov.standing.testBit 1 = false ∨
          (roundFlow s_2 rs_1 = none ∨
              ∃ f,
                roundFlow s_2 rs_1 = some f ∧
                  f < 1000 ∧
                    lasts s_2.gov.flowLow
                      (max s_2.now
                        (s_2.gov.roundAt + 1000000))
                      100000000) ∧
            s_2.gov.standing.testBit 3 = false) ∧
      (s_2.bit R.PWR_THROTTLE_request = false)) ∧
    ((s_3.power = Power.on) ∧
      (noTrip s_3 rs_2) ∧
      (s_3.gov.standing < 16) ∧
      (s_3.get R.PWR_THROTTLE_level = 0) ∧
      (¬noKind (s_3.reading rs_2)
            s_3.diesOff =
          true) ∧
      (¬((roundFlow s_3 rs_2 = none ∨
            ∃ f,
              roundFlow s_3 rs_2 = some f ∧
                f < 1000 ∧
                  lasts s_3.gov.flowLow
                    (max s_3.now
                      (s_3.gov.roundAt + 1000000))
                    100000000) ∧
          s_3.gov.standing.testBit 3 = false)) ∧
      (¬((noKind (s_3.reading rs_2)
                s_3.diesOff =
              true ∨
            (∃ x,
                roundMax s_3 rs_2 = some x ∧
                  102 * 16 ≤ x.1) ∨
              s_3.gov.standing.testBit 0 = true ∧
                ∀ (x : Int × Nat),
                  roundMax s_3 rs_2 = some x →
                    97 * 16 < x.1) ∧
          s_3.gov.standing.testBit 0 = false)) ∧
      (¬(powerOver s_3 rs_2
            (s_3.get R.PWR_LIMIT_limit_w) ∧
          s_3.gov.standing.testBit 1 = false)) ∧
      (s_3.gov.graceEnd = none) ∧
      (s_3.bit R.PWR_THROTTLE_request = true) ∧
      (¬((noKind (s_3.reading rs_2)
                s_3.diesOff =
              true ∨
            (∃ x,
                roundMax s_3 rs_2 = some x ∧
                  102 * 16 ≤ x.1) ∨
              s_3.gov.standing.testBit 0 = true ∧
                ∀ (x : Int × Nat),
                  roundMax s_3 rs_2 = some x →
                    97 * 16 < x.1) ∨
          powerOver s_3 rs_2
              (s_3.get R.PWR_LIMIT_limit_w) ∨
            s_3.gov.standing.testBit 2 = true ∨
              roundFlow s_3 rs_2 = none ∨
                ∃ f,
                  roundFlow s_3 rs_2 = some f ∧
                    f < 1000 ∧
                      lasts s_3.gov.flowLow
                        (max s_3.now
                          (s_3.gov.roundAt + 1000000))
                        100000000))) ∧
    ((s_4.power = Power.on) ∧
      (noTrip s_4 rs_3) ∧
      (s_4.gov.standing < 16) ∧
      (s_4.get R.PWR_THROTTLE_level = 0) ∧
      (¬noKind (s_4.reading rs_3)
            s_4.diesOff =
          true) ∧
      (¬((roundFlow s_4 rs_3 = none ∨
            ∃ f,
              roundFlow s_4 rs_3 = some f ∧
                f < 1000 ∧
                  lasts s_4.gov.flowLow
                    (max s_4.now
                      (s_4.gov.roundAt + 1000000))
                    100000000) ∧
          s_4.gov.standing.testBit 3 = false)) ∧
      (¬((noKind (s_4.reading rs_3)
                s_4.diesOff =
              true ∨
            (∃ x,
                roundMax s_4 rs_3 = some x ∧
                  102 * 16 ≤ x.1) ∨
              s_4.gov.standing.testBit 0 = true ∧
                ∀ (x : Int × Nat),
                  roundMax s_4 rs_3 = some x →
                    97 * 16 < x.1) ∧
          s_4.gov.standing.testBit 0 = false)) ∧
      (¬(powerOver s_4 rs_3
            (s_4.get R.PWR_LIMIT_limit_w) ∧
          s_4.gov.standing.testBit 1 = false)) ∧
      (s_4.gov.graceEnd = none) ∧
      (s_4.bit R.PWR_THROTTLE_request = true) ∧
      ((noKind (s_4.reading rs_3)
              s_4.diesOff =
            true ∨
          (∃ x,
              roundMax s_4 rs_3 = some x ∧ 102 * 16 ≤ x.1) ∨
            s_4.gov.standing.testBit 0 = true ∧
              ∀ (x : Int × Nat),
                roundMax s_4 rs_3 = some x →
                  97 * 16 < x.1) ∨
        powerOver s_4 rs_3
            (s_4.get R.PWR_LIMIT_limit_w) ∨
          s_4.gov.standing.testBit 2 = true ∨
            roundFlow s_4 rs_3 = none ∨
              ∃ f,
                roundFlow s_4 rs_3 = some f ∧
                  f < 1000 ∧
                    lasts s_4.gov.flowLow
                      (max s_4.now
                        (s_4.gov.roundAt + 1000000))
                      100000000) ∧
      (powerOver s_4 rs_3
        (s_4.get R.PWR_LIMIT_target_w))) ∧
    ((s_5.power = Power.on) ∧
      (noTrip s_5 rs_4) ∧
      (s_5.gov.standing < 16) ∧
      (s_5.get R.PWR_THROTTLE_level = 0) ∧
      (¬noKind (s_5.reading rs_4)
            s_5.diesOff =
          true) ∧
      (¬((roundFlow s_5 rs_4 = none ∨
            ∃ f,
              roundFlow s_5 rs_4 = some f ∧
                f < 1000 ∧
                  lasts s_5.gov.flowLow
                    (max s_5.now
                      (s_5.gov.roundAt + 1000000))
                    100000000) ∧
          s_5.gov.standing.testBit 3 = false)) ∧
      (¬((noKind (s_5.reading rs_4)
                s_5.diesOff =
              true ∨
            (∃ x,
                roundMax s_5 rs_4 = some x ∧
                  102 * 16 ≤ x.1) ∨
              s_5.gov.standing.testBit 0 = true ∧
                ∀ (x : Int × Nat),
                  roundMax s_5 rs_4 = some x →
                    97 * 16 < x.1) ∧
          s_5.gov.standing.testBit 0 = false)) ∧
      (¬(powerOver s_5 rs_4
            (s_5.get R.PWR_LIMIT_limit_w) ∧
          s_5.gov.standing.testBit 1 = false)) ∧
      (s_5.gov.graceEnd = none) ∧
      (s_5.bit R.PWR_THROTTLE_request = true) ∧
      ((noKind (s_5.reading rs_4)
              s_5.diesOff =
            true ∨
          (∃ x,
              roundMax s_5 rs_4 = some x ∧ 102 * 16 ≤ x.1) ∨
            s_5.gov.standing.testBit 0 = true ∧
              ∀ (x : Int × Nat),
                roundMax s_5 rs_4 = some x →
                  97 * 16 < x.1) ∨
        powerOver s_5 rs_4
            (s_5.get R.PWR_LIMIT_limit_w) ∨
          s_5.gov.standing.testBit 2 = true ∨
            roundFlow s_5 rs_4 = none ∨
              ∃ f,
                roundFlow s_5 rs_4 = some f ∧
                  f < 1000 ∧
                    lasts s_5.gov.flowLow
                      (max s_5.now
                        (s_5.gov.roundAt + 1000000))
                      100000000) ∧
      (¬powerOver s_5 rs_4
          (s_5.get R.PWR_LIMIT_target_w))) ∧
    ((s_6.power = Power.on) ∧
      (noTrip s_6 rs_5) ∧
      (s_6.gov.standing < 16) ∧
      (0 < s_6.get R.PWR_THROTTLE_level) ∧
      (¬noKind (s_6.reading rs_5)
            s_6.diesOff =
          true) ∧
      (¬((roundFlow s_6 rs_5 = none ∨
            ∃ f,
              roundFlow s_6 rs_5 = some f ∧
                f < 1000 ∧
                  lasts s_6.gov.flowLow
                    (max s_6.now
                      (s_6.gov.roundAt + 1000000))
                    100000000) ∧
          s_6.gov.standing.testBit 3 = false)) ∧
      ((∃ x, roundMax s_6 rs_5 = some x ∧ 102 * 16 ≤ x.1) ∨
        powerOver s_6 rs_5
          (s_6.get R.PWR_LIMIT_limit_w)) ∧
      (max
            (s_6.gov.hotSince.getD
              (max s_6.now (s_6.gov.roundAt + 1000000)))
            s_6.gov.levelAt +
          10000000 ≤
        max s_6.now (s_6.gov.roundAt + 1000000)) ∧
      (s_6.get R.PWR_THROTTLE_level < 3)) ∧
    ((s_7.power = Power.on) ∧
      (noTrip s_7 rs_6) ∧
      (s_7.gov.standing < 16) ∧
      (0 < s_7.get R.PWR_THROTTLE_level) ∧
      (¬noKind (s_7.reading rs_6)
            s_7.diesOff =
          true) ∧
      (¬((roundFlow s_7 rs_6 = none ∨
            ∃ f,
              roundFlow s_7 rs_6 = some f ∧
                f < 1000 ∧
                  lasts s_7.gov.flowLow
                    (max s_7.now
                      (s_7.gov.roundAt + 1000000))
                    100000000) ∧
          s_7.gov.standing.testBit 3 = false)) ∧
      (∃ x, roundMax s_7 rs_6 = some x ∧ x.1 ≤ 97 * 16) ∧
      (10 * (powers s_7 rs_6).sum ≤
        9 * s_7.get R.PWR_LIMIT_limit_w *
          (powers s_7 rs_6).length) ∧
      (s_7.book100 ≤ 90 * s_7.get R.PWR_LIMIT_limit_w) ∧
      (∃ f, roundFlow s_7 rs_6 = some f ∧ 2500 ≤ f) ∧
      (¬s_7.gov.standing.testBit 2 = true) ∧
      (max
            (s_7.gov.coolSince.getD
              (max s_7.now (s_7.gov.roundAt + 1000000)))
            s_7.gov.levelAt +
          50000000 ≤
        max s_7.now (s_7.gov.roundAt + 1000000))) ∧
    ((s_8.power = Power.on) ∧
      (noTrip s_8 rs_7) ∧
      (s_8.gov.standing < 16) ∧
      (0 < s_8.get R.PWR_THROTTLE_level) ∧
      (¬noKind (s_8.reading rs_7)
            s_8.diesOff =
          true) ∧
      (¬((roundFlow s_8 rs_7 = none ∨
            ∃ f,
              roundFlow s_8 rs_7 = some f ∧
                f < 1000 ∧
                  lasts s_8.gov.flowLow
                    (max s_8.now
                      (s_8.gov.roundAt + 1000000))
                    100000000) ∧
          s_8.gov.standing.testBit 3 = false)) ∧
      (¬((((∃ x,
                roundMax s_8 rs_7 = some x ∧
                  102 * 16 ≤ x.1) ∨
              powerOver s_8 rs_7
                (s_8.get R.PWR_LIMIT_limit_w)) ∧
            max
                  (s_8.gov.hotSince.getD
                    (max s_8.now
                      (s_8.gov.roundAt + 1000000)))
                  s_8.gov.levelAt +
                10000000 ≤
              max s_8.now (s_8.gov.roundAt + 1000000)) ∧
          s_8.get R.PWR_THROTTLE_level < 3)) ∧
      (¬(((∃ x, roundMax s_8 rs_7 = some x ∧ x.1 ≤ 97 * 16) ∧
            10 * (powers s_8 rs_7).sum ≤
                9 * s_8.get R.PWR_LIMIT_limit_w *
                  (powers s_8 rs_7).length ∧
              s_8.book100 ≤
                  90 * s_8.get R.PWR_LIMIT_limit_w ∧
                (∃ f,
                    roundFlow s_8 rs_7 = some f ∧
                      2500 ≤ f) ∧
                  ¬s_8.gov.standing.testBit 2 = true) ∧
          max
                (s_8.gov.coolSince.getD
                  (max s_8.now (s_8.gov.roundAt + 1000000)))
                s_8.gov.levelAt +
              50000000 ≤
            max s_8.now (s_8.gov.roundAt + 1000000)))) ∧
    ((s_9.power = Power.on) ∧
      (roundMax s_9 rs_8 =
        some x_1) ∧
      (112 * 16 ≤ x_1.1) ∧
      (s_9.bit R.THM_SHUTDOWN_latched = false)) :=
    ⟨(by unfold noTrip roundMax powerOver roundFlow lasts; decide +kernel),
    (by
      unfold noTrip roundFlow lasts roundMax
      rw [powerOver_low (w := s_3.get R.PWR_LIMIT_limit_w) (s := s_3) (by decide +kernel)]
      decide +kernel),
    (by
      unfold noTrip roundFlow lasts roundMax
      rw [powerOver_low (w := s_4.get R.PWR_LIMIT_limit_w) (s := s_4) (by decide +kernel)]
      unfold powerOver; decide +kernel),
    (by
      unfold noTrip roundFlow lasts roundMax
      rw [powerOver_low (w := s_5.get R.PWR_LIMIT_limit_w) (s := s_5) (by decide +kernel), powerOver_low (w := s_5.get R.PWR_LIMIT_target_w) (s := s_5) (by decide +kernel)]
      decide +kernel),
    (by unfold noTrip roundFlow lasts roundMax powerOver; decide +kernel),
    (by unfold noTrip roundFlow lasts; decide +kernel),
    (by
      unfold noTrip roundFlow lasts roundMax
      rw [powerOver_low (w := s_8.get R.PWR_LIMIT_limit_w) (s := s_8) (by decide +kernel)]
      decide +kernel),
    (by decide +kernel)⟩

def s_10 : State := st0 [.upd (.gov {Governor.zero with over3000 := some 1, over2600 := some 1, standing := 4}), .upd (.now 50000000), put R.PWR_LIMIT_target_w 1900, putBit R.PWR_THROTTLE_request true]
def s_11 : State := st0 [.upd (.gov {Governor.zero with graceEnd := some 99999999, over3000 := some 1}), .upd (.now 50000)]
/-- ThrottleTimers: states and operands that meet the hypotheses of its clauses. -/
theorem test_throttle_timers :
    ((s_10.power ≠ Power.off) ∧
      (s_10.gov.graceEnd = none) ∧
      (s_10.gov.standing < 16)) ∧
    ((s_11.power ≠ Power.off) ∧
      (s_11.gov.graceEnd = some 99999999)) :=
    ⟨(by decide +kernel),
    (by decide +kernel)⟩

end Thermal

namespace Manual

theorem test_queue_clauses :
    State.reset.pending = [] ∧ State.reset.wf = true ∧ (∃ t, step State.reset = .next t) ∧
    ({ State.reset with power := .off } : State).power = .off ∧ Instr.warmReset ≠ .powerApply :=
  ⟨rfl, by decide +kernel, ⟨_, rfl⟩, rfl, by simp⟩

def row9 (i : Nat) : Nat × Nat × Nat × Bool × Bool × Nat := [
  (8, 0x07, 0, false, false, 0xF4), (16, 0x1021, 0xFFFF, false, false, 0x29B1),
  (32, 0x04C11DB7, 0xFFFFFFFF, true, true, 0xCBF43926), (32, 0x1EDC6F41, 0xFFFFFFFF, true, true, 0xE3069283),
  (64, 0x42F0E1EBA9EA3693, 0xFFFFFFFFFFFFFFFF, true, true, 0x995DC9BBDF1939FA)].getD i (0, 0, 0, false, false, 0)

/-- Engine 5, armed with row `i` of the table of check values. -/
def armed9 (i : Nat) : State :=
  let r := row9 i
  mk [up 1, put (R.CRC_CFG_width 5) r.1, put (R.CRC_POLY_value 5) r.2.1, put (R.CRC_VALUE_value 5) r.2.2.1,
    putBit (R.CRC_CFG_refin 5) r.2.2.2.1, putBit (R.CRC_CFG_refout 5) r.2.2.2.1, putBit (R.CRC_CFG_final_inv 5) r.2.2.2.2.1,
    putBit (R.CRC_CTRL_running 5) true, put (R.CRC_CFG_source 5) 2, put (R.CRC_CFG_instance 5) 1]

/-- CheckValueTable: an engine that watches port 1, for each row. -/
theorem test_check_value_table : ∀ i < 5,
    ((armed9 i).power ≠ .off ∧ (armed9 i).get (R.CRC_CFG_width 5) = (row9 i).1 ∧ (armed9 i).get (R.CRC_POLY_value 5) = (row9 i).2.1 ∧
      (armed9 i).get (R.CRC_VALUE_value 5) = (row9 i).2.2.1 ∧ (armed9 i).bit (R.CRC_CFG_refin 5) = (row9 i).2.2.2.1 ∧
      (armed9 i).bit (R.CRC_CFG_refout 5) = (row9 i).2.2.2.1 ∧ (armed9 i).bit (R.CRC_CFG_final_inv 5) = (row9 i).2.2.2.2.1 ∧
      (armed9 i).bit (R.CRC_CTRL_running 5) = true ∧ (armed9 i).bit (R.CRC_CTRL_win_en 5) = false ∧
      (armed9 i).get (R.CRC_CFG_source 5) = 2 ∧ (armed9 i).get (R.CRC_CFG_dir 5) = 0 ∧ (armed9 i).get (R.CRC_CFG_instance 5) = 1 ∧
      (armed9 i).linkUp 1 = true ∧ 0x2000 + 9 ≤ 2 ^ (28 + (armed9 i).bar2At 1)) ∧
    memReady (armed9 i) (.host 1) 0x2000 9 := fun i hi =>
  And.imp id memReady_of ((by decide +kernel : ∀ i < 5,
    ((armed9 i).power ≠ .off ∧ (armed9 i).get (R.CRC_CFG_width 5) = (row9 i).1 ∧ (armed9 i).get (R.CRC_POLY_value 5) = (row9 i).2.1 ∧
      (armed9 i).get (R.CRC_VALUE_value 5) = (row9 i).2.2.1 ∧ (armed9 i).bit (R.CRC_CFG_refin 5) = (row9 i).2.2.2.1 ∧
      (armed9 i).bit (R.CRC_CFG_refout 5) = (row9 i).2.2.2.1 ∧ (armed9 i).bit (R.CRC_CFG_final_inv 5) = (row9 i).2.2.2.2.1 ∧
      (armed9 i).bit (R.CRC_CTRL_running 5) = true ∧ (armed9 i).bit (R.CRC_CTRL_win_en 5) = false ∧
      (armed9 i).get (R.CRC_CFG_source 5) = 2 ∧ (armed9 i).get (R.CRC_CFG_dir 5) = 0 ∧ (armed9 i).get (R.CRC_CFG_instance 5) = 1 ∧
      (armed9 i).linkUp 1 = true ∧ 0x2000 + 9 ≤ 2 ^ (28 + (armed9 i).bar2At 1)) ∧
    memReadyB (armed9 i) (.host 1) 0x2000 9 = true) i hi)

/-- ProtectedPages: the first and the last of the pages, a host through BAR0, a thread and a control core. -/
theorem test_protected_pages :
    names (.host 1) (.bar0 0x1000008) 0x1000 8 (mk []) ∧ names (.thread 3 2) (.page 0x100C 8) 0x100C 8 (mk []) ∧
    names (.core 1) (.page 0x1002 8) 0x1002 8 (mk []) ∧ names .mgmt (.page 0x1007 8) 0x1007 8 (mk []) ∧ (mk []).power ≠ .off ∧
    (∀ page ∈ [0x1000, 0x1002, 0x1007, 0x100C], (mk []).regStatus page 8 8 = ST_OK) ∧
    ¬(Agent.host 1 = .mgmt ∨ ∃ k, Agent.host 1 = .core k) ∧ ¬(Agent.thread 3 2 = .mgmt ∨ ∃ k, Agent.thread 3 2 = .core k) :=
  ⟨names_of (by decide +kernel), names_of (by decide +kernel), names_of (by decide +kernel), names_of (by decide +kernel),
    by decide +kernel, by decide +kernel, by simp, by simp⟩

/-- HostEventWrites: EVC_SET, EVC_EOS with either destination, and a register that no host may write. -/
theorem test_host_event_writes :
    names (.host 1) (.bar0 0x1034300) 0x1003 0x4300 (mk []) ∧ names (.host 1) (.bar0 0x1034308) 0x1003 0x4308 (mk []) ∧
    names (.host 1) (.bar0 0x1030008) 0x1003 8 (mk []) ∧ (mk []).power ≠ .off ∧
    (∀ off ∈ [8, 0x4300, 0x4308], (mk []).regStatus 0x1003 off 8 = ST_OK) ∧ (8 / 8 ≠ 0x4300 / 8 ∧ 8 / 8 ≠ 0x4308 / 8) ∧
    (2 : Fin 3).val = (1 : Fin 2).val + 1 ∧ (1 : Fin 3).val ≠ (1 : Fin 2).val + 1 :=
  ⟨names_of (by decide +kernel), names_of (by decide +kernel), names_of (by decide +kernel), by decide +kernel,
    by decide +kernel, by decide +kernel, by decide +kernel, by decide +kernel⟩

def running : State := mk [put (R.SEQ_THR_STATUS_state 3 2) 1, put (R.SEQ_THR_PC_pc 3 2) 0x1000,
  putBit (R.FEED_CTRL_enable 3) true]

/-- SeqTraps: each form with a function bit that it does not have. -/
theorem test_seq_forms_refused : ∀ row ∈ seqForms 3 2 1 5 6 0x100 0x57 3,
    Nat.land (0x100 : BitVec 9).toNat row.1 ≠ (0x100 : BitVec 9).toNat ∧ readyI row.2 (plantI row.2 running) = true := by
  decide +kernel

/-- CommandGate: commands before the module is READY, and a control command of a port that does not hold the token. -/
theorem test_command_gate_rows :
    (∀ op ∈ [0x20, 0x21, 0x22, 0x43, 0x44, 0x42, 0x30, 0x32, 0x61, 0x68, 0x69, 0x6A, 0x6B, 0x70, 0x31, 0x50, 0x60, 0x62, 0x63, 0x40, 0x41],
      let s := sc (cc op) [.upd (.ready false)]
      s.power ≠ .off ∧ s.linkUp 1 = true ∧ s.cmdStartable 1 op = some (cc op) ∧ s.startStatus (cc op) ≠ ST_OK) ∧
    (∀ op ∈ [0x52, 0x70, 0x72],
      let s := sc (cc op) [put (R.HIF_TOKEN_holder 0) 0]
      s.power ≠ .off ∧ s.linkUp 1 = true ∧ s.cmdStartable 1 op = some (cc op) ∧ s.startStatus (cc op) ≠ ST_OK) := by
  decide +kernel

def far : GwHdr := ⟨9, 0x1234, 0x777, 5, 0x55, 7, .good⟩
def net (l : List Eff) : State := mk ([putRegBit R.GWL_UP 9 true, put (R.GWL_LINK_STATUS_weight 9) 8, put (R.GWL_LINK_STATUS_state 9) 4,
  put R.GWL_NODE_fabric 0x1234, put R.GWL_GROUP_group_tag 0x55, put R.GWL_GROUP_member 3, put R.GWL_GROUP_group_size 8,
  put (R.GWL_PEER_valid 5) 1, put (R.GWL_PEER_reachable 5) 1,
  put (R.GWL_PEER_fabric 5) 0x777] ++ l)

/-- GlewawinPackets: a link that is down, a packet of another group, one sent twice, and one ahead of its turn. -/
theorem test_glewawin_rows : ∀ k ∈ [5 * 4 + 2, 5 * 4 + 3],
    (mk []).gwUp 9 = false ∧ (net []).gwUp 9 = true ∧ (net [put R.GWL_GROUP_group_tag 6]).gwAccepts far = false ∧
    (net []).gwAccepts far = true ∧ (net []).power ≠ .off ∧
    (let s := net [.upd (.gwNext k 8)]
     2 ^ 31 ≤ (far.seq.toNat + 2 ^ 32 - s.gwNextAt k) % 2 ^ 32 ∧ (s.sprayPick none).isSome = true) ∧
    (let s := net [.upd (.gwNext k 6)]
     0 < (far.seq.toNat + 2 ^ 32 - s.gwNextAt k) % 2 ^ 32 ∧ (far.seq.toNat + 2 ^ 32 - s.gwNextAt k) % 2 ^ 32 < 2 ^ 31 ∧
      ((s.gwHoldAt k).any fun q => q.seq == far.seq.toNat) = false ∧ s.rxHeld + 36 + 256 ≤ 4194304) := by
  decide +kernel

/-- ManagementPort: the first and the last channel of each kind of sensor. -/
theorem test_sensor_channels : ∀ ch ∈ [0, 208, 210, 217, 218, 241],
    ch < 242 ∧ ch ≠ 209 ∧ (BitVec.ofNat 16 (0x1000 + ch)).toNat = 0x1000 + ch := by
  decide

/-- An operation of 4 elements at the head of the queue of cell 3, whose thread owns bank 0. -/
def vop (op sf df b : Nat) : VecOp := ⟨2, 0x1000, 1, op, 0, 4, sf, df, 0x400, 0x100, b⟩
def vec (op sf df b : Nat) : State := mk [put (ownFld 3 0) 1, .upd (.vecQ 3 [vop op sf df b]),
  putReg (cbKey 3 7 0) 0x3028201810080400, putReg (cbKey 3 7 1) 0x7068605850484038, putReg (cbKey 3 7 127) 17]

/-- VectorResults: every operation from and to FP32, CODE through slot 7. -/
theorem test_vector_results :
    ∀ x ∈ [(0, 5, 0x200), (1, 5, 0x200), (2, 5, 0x200), (3, 5, 0x200), (4, 5, 0x200), (5, 5, 0x200), (6, 5, 0x200), (7, 5, 0x200),
      (8, 5, 0x200), (9, 5, 0x200), (10, 5, 0x200), (11, 5, 0x200), (12, 5, 0x200), (16, 5, 0x200), (17, 5, 0x200), (18, 5, 0x200),
      (19, 5, 0x200), (20, 5, 7), (21, 5, 0x200), (22, 5, 0x200), (23, 5, 0x200), (24, 5, 2)],
      let v := vop x.1 x.2.1 5 x.2.2
      let s := vec x.1 x.2.1 5 x.2.2
      let df := v.destFmt.getD .fp32
      s.power ≠ .off ∧ s.vecQAt 3 = [v] ∧ Fmt.ofCode v.sfmt = some .fp32 ∧ v.destFmt = some df ∧
      (v.op = 0x14 → s.codeSlotOk 3 (v.b % 64) = true ∧
        ∀ j ∈ s.bookWords 3 (v.b % 64), s.marksAt ((0x4000000000 + cbKey 3 (v.b % 64) j) / 8) = .good) ∧
      (∀ r ∈ vecReads v .fp32 df, sramReady s 3 r.1 r.2 (v.cls, 0)) ∧
      sramReady s 3 v.d (vecResult s 3 v .fp32 df).length (v.cls, 0) := by
  unfold sramReady
  decide +kernel

end Manual

end Sys2Proof.Tests
end

/-! Only the control cores and the management core write the protected pages; any agent reads them (R33). -/

namespace Sys2Proof.Proofs
open Sys2Proof.Machine Sys2Proof.Claims

/-! Fields that share no bit -/

/-- Two fields share no bit: they lie in different registers or in different bits of one. -/
def apart (f g : Fld) : Prop := g.key ≠ f.key ∨ f.lo + f.w ≤ g.lo ∨ g.lo + g.w ≤ f.lo

theorem putBits_testBit (v lo w x i : Nat) :
    (putBits v lo w x).testBit i = if lo ≤ i ∧ i < lo + w then x.testBit (i - lo) else v.testBit i := by
  have hv : v % 2 ^ lo < 2 ^ lo := Nat.mod_lt _ (by positivity)
  have hx : x % 2 ^ w < 2 ^ w := Nat.mod_lt _ (by positivity)
  have hlow : 2 ^ lo * (x % 2 ^ w) + v % 2 ^ lo < 2 ^ (lo + w) := by
    rw [pow_add]
    calc 2 ^ lo * (x % 2 ^ w) + v % 2 ^ lo < 2 ^ lo * (x % 2 ^ w + 1) := by rw [mul_add]; omega
      _ ≤ 2 ^ lo * 2 ^ w := Nat.mul_le_mul_left _ hx
  have hput : putBits v lo w x = 2 ^ (lo + w) * (v / 2 ^ (lo + w)) + (2 ^ lo * (x % 2 ^ w) + v % 2 ^ lo) := by
    unfold putBits; ring
  rw [hput, Nat.testBit_two_pow_mul_add _ hlow]
  by_cases hhi : i < lo + w
  · rw [if_pos hhi, Nat.testBit_two_pow_mul_add _ hv]
    by_cases hlo : i < lo
    · simp [hlo, Nat.testBit_mod_two_pow]
    · simp [hlo, hhi, show lo ≤ i by omega, show i - lo < w by omega, Nat.testBit_mod_two_pow]
  · simp [hhi, Nat.testBit_div_two_pow, show i - (lo + w) + (lo + w) = i by omega]

/-- A field keeps its value when a field that shares no bit with it is written. -/
theorem get_put_apart {f g : Fld} (h : apart f g) (hg : g.lo + g.w ≤ 64) (x : Nat) (s : State) :
    ((put f x).run s).get g = s.get g := by
  by_cases hk : g.key = f.key
  · have hbits : f.lo + f.w ≤ g.lo ∨ g.lo + g.w ≤ f.lo := h.resolve_left (not_not_intro hk)
    simp only [put, State.get, Eff.run_look, hk, putReg_same]
    apply Nat.eq_of_testBit_eq
    intro i
    simp only [Fld.read, Fld.write, BitVec.toNat_ofNat, Nat.testBit_mod_two_pow, Nat.testBit_div_two_pow, putBits_testBit]
    by_cases hi : i < g.w
    · rw [if_neg (by omega)]
      simp [hi, show i + g.lo < 64 by omega]
    · simp [hi]
  · exact congrArg g.read (put_other hk x s)

theorem get_addSat_apart {f g : Fld} (h : apart f g) (hg : g.lo + g.w ≤ 64) (n : Nat) (s : State) :
    ((addSat f n).run s).get g = s.get g := get_put_apart h hg _ s

/-! Firing an event -/

/-- A field outside the event pages keeps its value when a source fires. -/
theorem get_evFire {f : Fld} (h : 0x10050000 ≤ f.key ∧ f.key ≠ 0x100B0000) (src : Nat) (s : State) :
    ((evFire src).run s).get f = s.get f :=
  congrArg f.read ((evFire_event src).quiet ⟨.inr h.1, h.2⟩ s)

theorem evFire_in (src : Nat) : (evFire src).In [.regs, .msix, .mgmtQ, .out] :=
  ⟨(evFire_event src).mono fun u hu => by cases u <;> simp [Upd.event, Upd.part] at hu ⊢⟩

/-! The access-fault record of a port (R351) -/

theorem faultKey_far (p : Fin 2) : 0x10050000 ≤ R.HIF_ACCESS_FAULT p ∧ R.HIF_ACCESS_FAULT p ≠ 0x100B0000 := by
  simp only [R.HIF_ACCESS_FAULT, rk]; omega

theorem countKey_far (p : Fin 2) : 0x10050000 ≤ R.HIF_ACCESS_COUNT p ∧ R.HIF_ACCESS_COUNT p ≠ 0x100B0000 := by
  simp only [R.HIF_ACCESS_COUNT, rk]; omega

theorem faultKey_ne_countKey (p : Nat) : R.HIF_ACCESS_FAULT p ≠ R.HIF_ACCESS_COUNT p := by
  simp only [R.HIF_ACCESS_FAULT, R.HIF_ACCESS_COUNT, rk]; omega

theorem hostFault_in (p addr st : Nat) (write bar2 atomic : Bool) :
    (hostFault p addr st write bar2 atomic).In [.regs, .msix, .mgmtQ, .out] := by
  have hregs : [Part.regs] ⊆ [Part.regs, .msix, .mgmtQ, .out] := by simp
  exact Eff.in_all_cons (put_in _ _ hregs) <| Eff.in_all_cons (put_in _ _ hregs) <| Eff.in_all_cons (put_in _ _ hregs) <|
    Eff.in_all_cons (put_in _ _ hregs) <| Eff.in_all_cons (put_in _ _ hregs) <| Eff.in_all_cons (addSat_in _ _ hregs) <|
    Eff.in_all_cons (evFire_in _) Eff.in_all_nil

/-- Of the registers outside the event pages, a refused access of a host changes its port's record and count alone. -/
theorem hostFault_keepsQuiet (p addr st : Nat) (write bar2 atomic : Bool) (s : State) :
    keepsQuiet [R.HIF_ACCESS_FAULT p, R.HIF_ACCESS_COUNT p] s ((hostFault p addr st write bar2 atomic).run s) := by
  intro k hfar hpwr hk
  obtain ⟨hfault, hcount⟩ : k ≠ R.HIF_ACCESS_FAULT p ∧ k ≠ R.HIF_ACCESS_COUNT p := by simpa using hk
  have hput : ∀ (f : Fld) (x : Nat) (t : State), f.key = R.HIF_ACCESS_FAULT p → ((put f x).run t).regsAt k = t.regsAt k :=
    fun f x t hf => put_other (hf ▸ hfault) x t
  simp only [hostFault, putBit, Eff.run_all_cons, Eff.run_all_nil]
  rw [(evFire_event _).quiet ⟨hfar.imp_left (fun h => by omega), hpwr⟩, addSat_other (f := R.HIF_ACCESS_COUNT_count p) hcount,
    hput _ _ _ rfl, hput _ _ _ rfl, hput _ _ _ rfl, hput _ _ _ rfl, hput _ _ _ rfl]

/-- What a refused access of a host leaves is the record of its port, its count, and what the firing tells. -/
theorem hostFault_faultNoted (p : Fin 2) (addr st : Nat) (hst : st < 256) (write bar2 : Bool) (s : State) :
    faultNoted p st write bar2 s ((hostFault p addr st write bar2 false).run s) := by
  have hfault := faultKey_far p
  have hcount := countKey_far p
  have hne := faultKey_ne_countKey p
  refine ⟨?status, ?write, ?bar, ?atomic, ?count, hostFault_keepsQuiet p addr st write bar2 false s, (hostFault_in ..).changes s⟩
  all_goals
    simp only [hostFault, putBit, State.bit, Eff.run_all_cons, Eff.run_all_nil]
    simp (disch := (simp only [apart, R.HIF_ACCESS_FAULT_addr, R.HIF_ACCESS_FAULT_status, R.HIF_ACCESS_FAULT_write,
      R.HIF_ACCESS_FAULT_bar, R.HIF_ACCESS_FAULT_atomic, R.HIF_ACCESS_COUNT_count]; omega)) only
      [get_evFire, addSat_same, get_addSat_apart, get_put_apart, put_same]
  case status => exact Nat.mod_eq_of_lt hst
  case write => cases write <;> rfl
  case bar => cases bar2 <;> rfl
  case atomic => rfl

/-! The protected pages in the address map -/

/-- R33: the pages that only the control cores and the management core write. -/
def protectedPage (page : Nat) : Prop := 0x1000 ≤ page ∧ page ≤ 0x1002 ∨ 0x1007 ≤ page ∧ page ≤ 0x100C

/-- R33: the agents that write them. -/
def trusted (who : Agent) : Prop := who = .mgmt ∨ ∃ k, who = .core k

/-- The register blocks of the protected pages. -/
def protectedCls : List Cls := [.tide, .cht, .swl, .fw, .lic, .lcy, .thm, .pwr, .svc]

theorem clsOf_protected {page : Nat} (h : protectedPage page) : ∃ c ∈ protectedCls, clsOf page = some (c, 0) := by
  have hpages : ∀ q ∈ [0x1000, 0x1001, 0x1002, 0x1007, 0x1008, 0x1009, 0x100A, 0x100B, 0x100C],
      ∃ c ∈ protectedCls, clsOf q = some (c, 0) := by decide
  refine hpages page ?_
  simp only [protectedPage] at h
  simp only [List.mem_cons, List.not_mem_nil, or_false]
  omega

/-- A device address in the register range names a register of its page, when the page is assigned. -/
theorem regionOf_regAddr {page off : Nat} (hc : (clsOf page).isSome) (hp : page < 0x10000) (ho : off < 0x10000) :
    regionOf (regAddr page off) = .regs page off := by
  obtain ⟨x, hx⟩ := Option.isSome_iff_exists.1 hc
  have hpage : (regAddr page off - 0x4000000000) / 0x10000 = page := by unfold regAddr; omega
  have hoff : (regAddr page off - 0x4000000000) % 0x10000 = off := by unfold regAddr; omega
  have hlo : 0x4000000000 ≤ regAddr page off := by unfold regAddr; omega
  have hhi : regAddr page off < 0x4100000000 := by unfold regAddr; omega
  unfold regionOf
  rw [hpage, hoff, hx]
  repeat rw [if_neg (by omega)]
  rw [if_pos hhi]

theorem clsOf_protected_isSome {page : Nat} (h : protectedPage page) : (clsOf page).isSome := by
  obtain ⟨c, -, hc⟩ := clsOf_protected h
  rw [hc]; rfl

theorem regionOf_protected {page off : Nat} (h : protectedPage page) (ho : off < 0x10000) :
    regionOf (regAddr page off) = .regs page off :=
  regionOf_regAddr (clsOf_protected_isSome h) (by unfold protectedPage at h; omega) ho

/-- R28: no row of the table refuses an access that stays in a protected page. -/
theorem mapStatus_protected {page off n : Nat} (h : protectedPage page) (hn : 0 < n) (ho : off + n ≤ 0x10000) (s : State) :
    s.mapStatus (regAddr page off) n = ST_OK := by
  have hlow : ¬ page < 0x800 := by unfold protectedPage at h; omega
  have hlast : regionOf (regAddr page off + n - 1) = .regs page (off + n - 1) := by
    rw [← regionOf_protected h (by omega)]; congr 1; unfold regAddr; omega
  simp [State.mapStatus, regionOf_protected h (show off < 0x10000 by omega), hlast, sameRange, cellLogicPage, hlow]

/-- R28: a refusal by the address map never reports the protection of a page. -/
theorem mapStatus_ne_protected (s : State) (a n : Nat) : s.mapStatus a n ≠ ST_PAGE_PROTECTED := by
  dsimp only [State.mapStatus]
  repeat' split
  all_goals decide

/-! The register that an access names -/

theorem off_lt_of_bar0At {s : State} {p x page off : Nat} (h : s.bar0At p x = .page page off) : off < 0x10000 := by
  unfold State.bar0At at h
  split_ifs at h <;> simp only [Bar0.page.injEq] at h <;> omega

theorem off_lt_of_names {who : Agent} {target : RegAt} {page off : Nat} {s : State} (h : names who target page off s) :
    off < 0x10000 := by
  cases target with
  | page q o =>
    have ho : o.toNat = off := by cases who <;> exact h.2
    exact ho ▸ o.isLt
  | bar0 x =>
    cases who
    case host p => exact off_lt_of_bar0At h
    all_goals exact h.elim

/-- The response to a register write of an agent: a host's write is posted. -/
def writeReply (who : Agent) (st old : Nat) : Eff :=
  match who with
  | .host _ => .skip
  | _ => send (.reply st (toLE 8 old))

theorem busWrite_regAddr {page off : Nat} (hr : regionOf (regAddr page off) = .regs page off) (who : Agent) (bs : List Byte)
    (k : Nat → Nat → Eff) : busWrite who (regAddr page off) bs k = regWriteBus who page off bs k := by
  unfold busWrite hintWrite; rw [hr]

theorem busRead_regAddr {page off : Nat} (hr : regionOf (regAddr page off) = .regs page off) (who : Agent) (n : Nat)
    (k : Resp → Eff) : busRead who (regAddr page off) n k = regReadBus who page off n k := by
  unfold busRead hintRead; rw [hr]

/-- A write that names a protected page is a write of that page's register, through BAR0 or not. -/
theorem registerWrite_run {who : Agent} {target : RegAt} {page off : Nat} {s : State} (hp : protectedPage page)
    (hn : names who target page off s) (bs : List Byte) :
    (registerWrite who target bs).run s = (regWriteBus who page off bs (writeReply who)).run s := by
  have hr := regionOf_protected hp (off_lt_of_names hn)
  have hc : (clsOf page).isNone = false := by simp [clsOf_protected_isSome hp]
  cases target with
  | bar0 x =>
    cases who
    case host p =>
      have hx : s.bar0At p x.toNat = .page page off := hn
      simp only [registerWrite, bar0Write, Eff.run_look, hx, hc]
      rfl
    all_goals exact hn.elim
  | page q o =>
    cases who
    all_goals
      obtain ⟨rfl, rfl⟩ : q.toNat = page ∧ o.toNat = off := hn
      simp only [registerWrite, busWrite_regAddr hr, hc]
      rfl

/-- A read that names a protected page is a read of that page's register; where the register answers ST_OK, so does the response. -/
theorem registerRead_run {who : Agent} {target : RegAt} {page off : Nat} {s : State} (hp : protectedPage page)
    (hn : names who target page off s) (n : Nat) :
    ∃ answer : Nat → Nat, answer ST_OK = ST_OK ∧ (registerRead who target n).run s =
      (regReadBus who page off n fun r => send (.reply (answer r.status) r.data)).run s := by
  have hr := regionOf_protected hp (off_lt_of_names hn)
  have hc : (clsOf page).isNone = false := by simp [clsOf_protected_isSome hp]
  cases target with
  | bar0 x =>
    cases who
    case host p =>
      have hx : s.bar0At p x.toNat = .page page off := hn
      refine ⟨fun st => if hostStatus st = ST_POISON then ST_POISON else ST_OK, rfl, ?_⟩
      simp only [registerRead, bar0Read, Eff.run_look, hx, hc]
      rfl
    all_goals exact hn.elim
  | page q o =>
    cases who
    case host p =>
      obtain ⟨rfl, rfl⟩ : q.toNat = page ∧ o.toNat = off := hn
      refine ⟨fun _ => ST_OK, rfl, ?_⟩
      simp only [registerRead, hc]
      rfl
    all_goals
      obtain ⟨rfl, rfl⟩ : q.toNat = page ∧ o.toNat = off := hn
      exact ⟨id, rfl, by simp only [registerRead, busRead_regAddr hr]; rfl⟩

/-! Writes of the protected pages -/

theorem mayWrite_protected {who : Agent} {page : Nat} (h : protectedPage page) (off : Nat) (hw : ¬ trusted who) :
    mayWrite who page off = false := by
  have hlisted : (decide (0x1000 ≤ page ∧ page ≤ 0x1002) || decide (0x1007 ≤ page ∧ page ≤ 0x100C)) = true := by
    simpa [protectedPage] using h
  cases who
  case core k => exact absurd (.inr ⟨k, rfl⟩) hw
  case mgmt => exact absurd (.inl rfl) hw
  all_goals simp only [mayWrite, hlisted, Bool.not_true, Bool.false_and]

theorem mayWrite_trusted {who : Agent} (hw : trusted who) (page off : Nat) : mayWrite who page off = true := by
  obtain rfl | ⟨k, rfl⟩ := hw <;> rfl

/-- What the bus does with a write of a register that neither the address map nor its size and alignment refuse. -/
theorem regWriteBus_run {who : Agent} {page off : Nat} {bs : List Byte} {s : State} (ha : isAtomGo page off = false)
    (hst : s.regStatus page off bs.length = ST_OK) (k : Nat → Nat → Eff) :
    (regWriteBus who page off bs k).run s =
      let a := guardAct who page (off / 8 * 8) (writeAct who page (off / 8 * 8) (leNat bs) (halfOf off bs.length)) s
      (k a.1 0).run (a.2.run s) := by
  simp [regWriteBus, ha, hst]

theorem isAtomGo_protected {page : Nat} (h : protectedPage page) (off : Nat) : isAtomGo page off = false := by
  have : page ≠ 0x1020 := by unfold protectedPage at h; omega
  simp [isAtomGo, this]

theorem guardAct_protected {who : Agent} {page off : Nat} {s : State} (h : protectedPage page) (ho : off + 8 ≤ 0x10000)
    (hw : ¬ trusted who) (a : Act) : guardAct who page off a s = (ST_PAGE_PROTECTED, refuseWrite who page off ST_PAGE_PROTECTED) := by
  simp [guardAct, mapStatus_protected h (by omega) ho, mayWrite_protected h off hw]

theorem send_in {ps : List Part} (o : Out) (h : [Part.out] ⊆ ps) : (send o).In ps := ⟨fun _ => h (by simp [Upd.part])⟩

/-- R33: a refused write leaves the record of a host's port, and the response of any other agent. -/
theorem refuseWrite_writeRefused (who : Agent) (page off st : Nat) (hst : st < 256) (s : State) :
    writeRefused who st s ((writeReply who st 0).run ((refuseWrite who page off st).run s)) := by
  cases who
  case host p =>
    simp only [writeReply, refuseWrite, writeRefused, Eff.run_look, Eff.run_skip]
    exact hostFault_faultNoted p _ st hst true false s
  all_goals exact ⟨rfl, (send_in _ (List.Subset.refl _)).changes s⟩

/-- In no state does the write answer that its page refuses the agent. -/
def neverProtected (a : Act) : Prop := ∀ s, (a s).1 ≠ ST_PAGE_PROTECTED

theorem guardAct_neverProtected {who : Agent} (hw : trusted who) (page off : Nat) {a : Act} (ha : neverProtected a) :
    neverProtected (guardAct who page off a) := by
  intro s
  unfold guardAct
  simp only [mayWrite_trusted hw]
  split
  · exact mapStatus_ne_protected s _ 8
  · exact ha s

/-- An effect under the limits of its page that answers ST_OK. -/
theorem guardAct_ok_neverProtected {who : Agent} (hw : trusted who) (page off : Nat) {a : Act} (ha : ∀ s, (a s).1 = ST_OK) :
    neverProtected (guardAct who page off a) :=
  guardAct_neverProtected hw page off fun s => (ha s).trans_ne (by decide)

theorem actDo_neverProtected {who : Agent} (hw : trusted who) (page off : Nat) (e : Eff) : neverProtected (actDo who page off e) :=
  guardAct_ok_neverProtected hw page off fun _ => rfl

theorem actPlain_neverProtected {who : Agent} (hw : trusted who) (page off v half : Nat) :
    neverProtected (actPlain who page off v half) := guardAct_ok_neverProtected hw page off fun _ => rfl

theorem actCommit_neverProtected {who : Agent} (hw : trusted who) (page : Nat) : neverProtected (actCommit who page) :=
  guardAct_ok_neverProtected hw page 0xFFF8 fun _ => rfl

theorem actChtArm_neverProtected {who : Agent} (hw : trusted who) (v : Nat) : neverProtected (actChtArm who v) :=
  guardAct_ok_neverProtected hw 0x1001 0x10 fun _ => rfl

theorem actSwlArrive_neverProtected {who : Agent} (hw : trusted who) (w : Nat) : neverProtected (actSwlArrive who w) :=
  guardAct_ok_neverProtected hw 0x1002 0x800 fun _ => rfl

theorem actLow_neverProtected {who : Agent} (hw : trusted who) (page off half : Nat) {a : Act} (ha : neverProtected a) :
    neverProtected (actLow who page off half a) := by
  unfold actLow
  split
  · exact actDo_neverProtected hw page off .skip
  · exact ha

theorem worst_ne {st st' x : Nat} (h : st ≠ x) (h' : st' ≠ x) : worst st st' ≠ x := by
  unfold worst
  split
  · exact h'
  · exact h

theorem actSeq_neverProtected {as : List Act} (h : ∀ a ∈ as, neverProtected a) : neverProtected (actSeq as) := fun s =>
  List.foldlRecOn as (motive := (· ≠ ST_PAGE_PROTECTED)) _ (by decide) fun _ hst a ha => worst_ne hst (h a ha s)

/-- R33: no write of a protected page by a control core or the management core is answered with the status of a refused agent. -/
theorem writeAct_neverProtected {who : Agent} {page : Nat} (hp : protectedPage page) (hw : trusted who) (off v half : Nat) :
    neverProtected (writeAct who page off v half) := by
  intro s
  obtain ⟨c, hc, hpage⟩ := clsOf_protected hp
  have hplain := actPlain_neverProtected hw page off v half s
  by_cases hcommit : off = 0xFFF8
  · simp only [writeAct, hpage, if_pos hcommit]
    split
    · exact actCommit_neverProtected hw page s
    · exact actDo_neverProtected hw page off .skip s
  simp only [protectedCls, List.mem_cons, List.not_mem_nil, or_false] at hc
  rcases hc with rfl | rfl | rfl | hc
  case inl =>
    simp only [writeAct, hpage, if_neg hcommit]
    split
    · refine actSeq_neverProtected (fun a ha => ?_) s
      obtain rfl | rfl : a = _ ∨ a = _ := by simpa using ha
      · exact actPlain_neverProtected hw _ _ _ _
      · exact actDo_neverProtected hw _ _ _
    · exact hplain
  case inr.inl =>
    simp only [writeAct, hpage, if_neg hcommit]
    split
    · exact actChtArm_neverProtected hw _ s
    · exact hplain
  case inr.inr.inl =>
    simp only [writeAct, hpage, if_neg hcommit]
    split
    · exact actLow_neverProtected hw _ _ _ (actSwlArrive_neverProtected hw _) s
    · exact hplain
  case inr.inr.inr =>
    rcases hc with rfl | rfl | rfl | rfl | rfl | rfl <;> simpa only [writeAct, hpage, if_neg hcommit] using hplain

/-! Reads of the protected pages -/

theorem in_ite {ps : List Part} {c : Prop} [Decidable c] {p q : Eff} (hp : p.In ps) (hq : q.In ps) :
    (if c then p else q).In ps := by
  split
  · exact hp
  · exact hq

theorem clearRc_in (page off half : Nat) : (clearRc page off half).In [.regs] := by
  unfold clearRc
  split
  · exact in_ite Eff.in_skip (Eff.in_look fun _ => putReg_in _ _ (List.Subset.refl _))
  · exact Eff.in_skip

theorem stallRead_in (page off half : Nat) : (stallRead page off half).In [.stallSince] :=
  Eff.in_look fun _ => Eff.in_when (Eff.in_upd (by simp [Upd.part]))

/-- R32: an access of a size and alignment that a register has gets as many bytes as it asks for. -/
theorem cut_length {off n : Nat} (h : regAligned off n = true) (v : Nat) : (((toLE 8 v).drop (off % 8)).take n).length = n := by
  rw [List.length_take, List.length_drop, toLE_length]
  simp only [regAligned, Bool.or_eq_true, Bool.and_eq_true, beq_iff_eq] at h
  omega

/-- R28, R32: an access that is answered ST_OK has the size and alignment of a register access. -/
theorem regAligned_of_ok {s : State} {page off n : Nat} (h : s.regStatus page off n = ST_OK) : regAligned off n = true := by
  unfold State.regStatus at h
  dsimp only at h
  split_ifs at h with hmap hal
  · exact absurd h hmap
  · exact hal
  · exact absurd h (by decide)

/-- R33: a read of a protected page answers ST_OK with the bytes asked for. -/
theorem regReadBus_protected {who : Agent} {page off n : Nat} {s : State} (hp : protectedPage page)
    (hst : s.regStatus page off n = ST_OK) (answer : Nat → Nat) :
    ∃ v, v.length = n ∧ ((regReadBus who page off n fun r => send (.reply (answer r.status) r.data)).run s).out =
      .reply (answer ST_OK) v :: s.out := by
  have hlow : ¬ page < 0x800 := by unfold protectedPage at hp; omega
  have hcount : countRead page = .skip := by simp [countRead, hlow, Eff.when]
  have hbook : isCodebook page = false := by simp [isCodebook, hlow]
  let v := ((toLE 8 (s.regView page (off / 8 * 8))).drop (off % 8)).take n
  let t := (stallRead page (off / 8 * 8) (halfOf off n)).run ((clearRc page (off / 8 * 8) (halfOf off n)).run s)
  have hrun : (regReadBus who page off n fun r => send (.reply (answer r.status) r.data)).run s =
      (send (.reply (answer ST_OK) v)).run t := by
    cases who <;> simp [regReadBus, regRead, hcount, hst, hbook, v, t]
  have hout : t.out = s.out := by
    rw [((stallRead_in ..).changes _).same_out (by simp), ((clearRc_in ..).changes _).same_out (by simp)]
  refine ⟨v, cut_length (regAligned_of_ok hst) _, ?_⟩
  rw [hrun]
  simp only [send, Eff.run_look, Eff.run_upd, Upd.run_out, hout]

/-! The statement -/

theorem yields_registerWrite {who : Agent} {target : RegAt} {bs : List Byte} {s : State} {post : State → Prop}
    (hpow : s.power ≠ .off) (h : post ((registerWrite who target bs).run s)) : yields (.registerWrite who target bs) s post :=
  ⟨_, Eff.done_on (p := registerWrite who target bs) hpow, h⟩

theorem yields_registerRead {who : Agent} {target : RegAt} {n : Fin 17} {s : State} {post : State → Prop}
    (hpow : s.power ≠ .off) (h : post ((registerRead who target n).run s)) : yields (.registerRead who target n) s post :=
  ⟨_, Eff.done_on (p := registerRead who target n) hpow, h⟩

/-- R33: the write of any other agent is refused. -/
theorem registerWrite_untrusted {who : Agent} {target : RegAt} {page off : Nat} {bs : List Byte} {s : State}
    (hp : protectedPage page) (hn : names who target page off s) (hst : s.regStatus page off bs.length = ST_OK)
    (hw : ¬ trusted who) : writeRefused who ST_PAGE_PROTECTED s ((registerWrite who target bs).run s) := by
  have hoff := off_lt_of_names hn
  rw [registerWrite_run hp hn, regWriteBus_run (isAtomGo_protected hp off) hst, guardAct_protected hp (by omega) hw]
  exact refuseWrite_writeRefused who page _ _ (by decide) s

/-- R33: the write of a control core or the management core is answered with another status. -/
theorem registerWrite_trusted {who : Agent} {target : RegAt} {page off : Nat} {bs : List Byte} {s : State}
    (hp : protectedPage page) (hn : names who target page off s) (hst : s.regStatus page off bs.length = ST_OK)
    (hw : trusted who) :
    ∃ st rest, ((registerWrite who target bs).run s).out = .reply st (toLE 8 0) :: rest ∧ st ≠ ST_PAGE_PROTECTED := by
  have hanswer := guardAct_neverProtected hw page (off / 8 * 8)
    (writeAct_neverProtected hp hw (off / 8 * 8) (leNat bs) (halfOf off bs.length)) s
  rw [registerWrite_run hp hn, regWriteBus_run (isAtomGo_protected hp off) hst]
  obtain rfl | ⟨k, rfl⟩ := hw <;> exact ⟨_, _, rfl, hanswer⟩

/-- Settles O59: the guard of a register write looks at the agent before anything of the page is written (R33); a read has no
such guard. -/
theorem protectedPages : Obligations.ProtectedPages := by
  intro who target page off bs n s hpage hn hpow
  have hp : protectedPage page := hpage
  refine ⟨fun hst => ⟨fun hw => ?_, fun hw => ?_⟩, fun hst => ?_⟩
  · exact yields_registerWrite hpow (registerWrite_untrusted hp hn hst hw)
  · exact yields_registerWrite hpow (registerWrite_trusted hp hn hst hw)
  · obtain ⟨answer, hok, hrun⟩ := registerRead_run hp hn n
    obtain ⟨v, hlen, hout⟩ := regReadBus_protected (who := who) hp hst answer
    exact yields_registerRead hpow ⟨v, hlen, by rw [hrun, hout, hok]⟩

end Sys2Proof.Proofs

/-! A snap of a monitor unit fills the unit's read registers, a clear zeroes its capture, and neither changes anything else (R449). -/

namespace Sys2Proof.Proofs
open Sys2Proof.Machine Sys2Proof.Claims

/-- With power, a command leaves what its effect leaves. -/
theorem yields_done {i : Instr} {p : Eff} {s : State} {post : State → Prop} (hi : exec i s = p.done s)
    (hpow : s.power ≠ .off) (h : post (p.run s)) : yields i s post := ⟨_, hi.trans (Eff.done_on hpow), h⟩

/-! A family of registers written one after another -/

/-- A register outside the family keeps its value. -/
theorem each_putReg_other {α : Type} {xs : List α} {key : α → Nat} {k : Nat} (h : ∀ x ∈ xs, k ≠ key x) (v : α → Word)
    (s : State) : ((Eff.each xs fun x => putReg (key x) (v x)).run s).regsAt k = s.regsAt k := by
  induction xs generalizing s with
  | nil => rfl
  | cons x xs ih =>
    rw [Eff.run_each_cons, ih (fun y hy => h y (List.mem_cons_of_mem _ hy)), putReg_other (h x List.mem_cons_self)]

/-- When no two registers of the family coincide, each has the value written to it. -/
theorem each_putReg_same {α : Type} {xs : List α} {key : α → Nat} (hinj : Function.Injective key) {x : α} (hx : x ∈ xs)
    (v : α → Word) (s : State) : ((Eff.each xs fun y => putReg (key y) (v y)).run s).regsAt (key x) = v x := by
  induction xs generalizing s with
  | nil => exact absurd hx List.not_mem_nil
  | cons y ys ih =>
    rw [Eff.run_each_cons]
    by_cases hin : x ∈ ys
    · exact ih hin _
    · obtain rfl : x = y := (List.mem_cons.1 hx).resolve_right hin
      rw [each_putReg_other (key := key) fun z hz he => hin (by rwa [hinj he]), putReg_same]

/-! The snap -/

theorem monHist_injective (u : Nat) : Function.Injective (R.MON_HIST u) := by
  intro i j h
  simp only [R.MON_HIST, rk] at h
  omega

/-- R449: the bins lie beyond the other read registers of their unit. -/
theorem ne_monHist {u k : Nat} (hk : k < R.MON_HIST u 0) (xs : List Nat) : ∀ j ∈ xs, k ≠ R.MON_HIST u j := by
  intro j _
  simp only [R.MON_HIST, rk] at hk ⊢
  omega

theorem monSnap_in (u : Nat) : (monSnap u).In [.regs] := by
  have hregs : [Part.regs] ⊆ [Part.regs] := List.Subset.refl _
  exact Eff.in_look fun _ => Eff.in_all_cons (putReg_in _ _ hregs) <| Eff.in_all_cons (putReg_in _ _ hregs) <|
    Eff.in_all_cons (putReg_in _ _ hregs) <| Eff.in_all_cons (putReg_in _ _ hregs) <| Eff.in_all_cons (putReg_in _ _ hregs) <|
    Eff.in_all_cons (put_in _ _ hregs) <| Eff.in_all_cons (Eff.in_each fun _ => putReg_in _ _ hregs) Eff.in_all_nil

/-- A snap changes no register but the read registers of its unit. -/
theorem monSnap_keepsRegs (u : Nat) (s : State) : keepsRegs (monKeys u) s ((monSnap u).run s) := by
  intro k hk
  simp only [monKeys, List.cons_append, List.nil_append, List.mem_cons, List.mem_map, not_or, not_exists, not_and] at hk
  obtain ⟨hminmax, hcount, hsum, htime, hedge, hctrl, hhist⟩ := hk
  simp only [monSnap, putBit, Eff.run_look, Eff.run_all_cons, Eff.run_all_nil]
  rw [each_putReg_other fun j hj he => hhist j hj he.symm, put_other (f := R.MON_CTRL_overflow u) hctrl, putReg_other hedge,
    putReg_other htime, putReg_other hsum, putReg_other hcount, putReg_other hminmax]

/-- R449: the bins of the capture, two to a register. -/
theorem monSnap_hist (u : Nat) (s : State) {j : Nat} (hj : j < 16) :
    ((monSnap u).run s).regsAt (R.MON_HIST u j) =
      BitVec.ofNat 64 ((s.monAt u).bins.getD (2 * j) 0 + (s.monAt u).bins.getD (2 * j + 1) 0 * 2 ^ 32) := by
  simp only [monSnap, Eff.run_look, Eff.run_all_cons, Eff.run_all_nil]
  exact each_putReg_same (monHist_injective u) (List.mem_range.2 hj) _ _

/-- R449: the capture without its bins, the tide time and the latest edge number, in the registers below the bins. -/
theorem monSnap_values (u : Nat) (s : State) :
    let m := s.monAt u
    let t := (monSnap u).run s
    t.regsAt (R.MON_MINMAX u) = BitVec.ofInt 32 m.high ++ BitVec.ofInt 32 m.low ∧
    t.regsAt (R.MON_COUNT u) = BitVec.ofNat 64 m.count ∧ t.regsAt (R.MON_SUM u) = BitVec.ofInt 64 m.sum ∧
    t.regsAt (R.MON_SNAP_TIME u) = BitVec.ofNat 64 s.tideTime ∧
    t.regsAt (R.MON_SNAP_EDGE u) = BitVec.ofNat 64 (s.get R.TIDE_EDGE_NUM_edge) ∧ t.bit (R.MON_CTRL_overflow u) = m.ovf := by
  have hoverflow : ∀ t : State, ((putBit (R.MON_CTRL_overflow u) (s.monAt u).ovf).run t).bit (R.MON_CTRL_overflow u) =
      (s.monAt u).ovf := by
    intro t
    rw [State.bit, putBit, put_same (R.MON_CTRL_overflow u) _ t (show 2 + 1 ≤ 64 by decide)]
    cases (s.monAt u).ovf <;> rfl
  refine ⟨?minmax, ?count, ?sum, ?time, ?edge, ?overflow⟩
  all_goals
    simp only [monSnap, State.bit, State.get, Eff.run_look, Eff.run_all_cons, Eff.run_all_nil]
    rw [each_putReg_other (ne_monHist (by simp only [R.MON_CTRL_overflow, R.MON_CTRL, R.MON_MINMAX, R.MON_COUNT, R.MON_SUM,
      R.MON_SNAP_TIME, R.MON_SNAP_EDGE, R.MON_HIST, rk]; omega) _)]
  case overflow => exact hoverflow _
  all_goals
    simp (disch := (simp only [R.MON_CTRL_overflow, R.MON_CTRL, R.MON_MINMAX, R.MON_COUNT, R.MON_SUM, R.MON_SNAP_TIME,
      R.MON_SNAP_EDGE, rk]; omega)) only [putBit, putReg_same, putReg_other, put_other]

theorem monClear_in (u : Nat) : (monClear u).In [.mon] := Eff.in_upd (by simp [Upd.part])

/-- Settles O49: the read registers of a unit are registers of their own, so what each is given stands after the snap; a clear
writes the capture of its unit alone (R449). -/
theorem monitorUnits : Obligations.MonitorUnits := by
  intro u s hpow
  obtain ⟨hminmax, hcount, hsum, htime, hedge, hoverflow⟩ := monSnap_values u s
  have hzero : ((monClear u).run s).monAt u = MonCap.zero := Upd.run_mon_same _ _ _
  refine ⟨yields_done (p := monSnap u) rfl hpow ⟨hminmax, hcount, hsum, htime, hedge, hoverflow, fun j hj => monSnap_hist u s hj,
      monSnap_keepsRegs u s, (monSnap_in u).changes s⟩,
    yields_done (p := monClear u) rfl hpow ?_⟩
  rw [hzero]
  exact ⟨rfl, rfl, rfl, rfl, rfl, rfl, fun k hk => Upd.run_mon_other _ _ hk _ _, (monClear_in u).changes s⟩

end Sys2Proof.Proofs

/-! What a host may write of the event collector's page (R441). -/

namespace Sys2Proof.Proofs
open Sys2Proof.Machine Sys2Proof.Claims

theorem leNat_toLE (n v : Nat) : leNat (toLE n v) = v % 256 ^ n := by
  induction n generalizing v with
  | zero => simp [toLE, leNat, Nat.mod_one]
  | succ n ih =>
    rw [toLE, leNat, ih, BitVec.toNat_ofNat, pow_succ' 256, Nat.mod_mul]

/-! The page in the address map -/

theorem clsOf_evc : clsOf 0x1003 = some (.evc, 0) := rfl

/-- R28: no row of the table refuses an access that stays in the page. -/
theorem mapStatus_evc {off n : Nat} (hn : 0 < n) (ho : off + n ≤ 0x10000) (s : State) :
    s.mapStatus (regAddr 0x1003 off) n = ST_OK := by
  have hregion : ∀ o < 0x10000, regionOf (regAddr 0x1003 o) = .regs 0x1003 o :=
    fun o h => regionOf_regAddr (by rw [clsOf_evc]; rfl) (by decide) h
  have hlast : regionOf (regAddr 0x1003 off + n - 1) = .regs 0x1003 (off + n - 1) := by
    rw [← hregion _ (by omega)]; congr 1; unfold regAddr; omega
  simp [State.mapStatus, hregion off (by omega), hlast, sameRange, cellLogicPage]

/-- R350: the page stands in the block of the module's pages, at the same offset in either port's BAR0. -/
theorem bar0At_evc (s : State) (p : Nat) {off : Nat} (ho : off < 0x10000) : s.bar0At p (0x1030000 + off) = .page 0x1003 off := by
  unfold State.bar0At
  repeat rw [if_neg (by omega)]
  rw [if_pos (by omega)]
  congr 1 <;> omega

/-! A host's write of the page -/

/-- R441: the registers of the page that a host may write. -/
theorem mayWrite_host_evc (p : Fin 2) (off : Nat) :
    mayWrite (.host p) 0x1003 off = (off / 8 * 8 == 0x4300 || off / 8 * 8 == 0x4308) := by
  have hport : ¬ (0x1003 = 0x1010 + (1 - p.val)) ∧ ¬ (0x1003 = 0x1012 + (1 - p.val)) := by omega
  simp [mayWrite, peerReg, hport]

theorem guardAct_evc_allowed {p : Fin 2} {off : Nat} (ho : off = 0x4300 ∨ off = 0x4308) (a : Act) (s : State) :
    guardAct (.host p) 0x1003 off a s = a s := by
  have hmay : mayWrite (.host p) 0x1003 off = true := by rw [mayWrite_host_evc]; obtain rfl | rfl := ho <;> rfl
  simp [guardAct, mapStatus_evc (by decide) (show off + 8 ≤ 0x10000 by omega), hmay]

theorem guardAct_evc_refused {p : Fin 2} {off : Nat} (ho : off + 8 ≤ 0x10000) (hset : off / 8 ≠ 0x4300 / 8)
    (heos : off / 8 ≠ 0x4308 / 8) (a : Act) (s : State) :
    guardAct (.host p) 0x1003 off a s = (ST_PAGE_PROTECTED, refuseWrite (.host p) 0x1003 off ST_PAGE_PROTECTED) := by
  have hmay : mayWrite (.host p) 0x1003 off = false := by
    rw [mayWrite_host_evc, Bool.or_eq_false_iff, beq_eq_false_iff_ne, beq_eq_false_iff_ne]
    omega
  simp [guardAct, mapStatus_evc (by decide) ho, hmay]

/-- A host's write that names a register of the page is a write under the limits of the page, through BAR0 or not. -/
theorem registerWrite_evc {p : Fin 2} {target : RegAt} {off : Nat} {bs : List Byte} {s : State}
    (hn : names (.host p) target 0x1003 off s) (hst : s.regStatus 0x1003 off bs.length = ST_OK) :
    (registerWrite (.host p) target bs).run s = (guardAct (.host p) 0x1003 (off / 8 * 8)
      (writeAct (.host p) 0x1003 (off / 8 * 8) (leNat bs) (halfOf off bs.length)) s).2.run s := by
  refine Eq.trans ?_ (regWriteBus_run (who := .host p) (by simp [isAtomGo]) hst fun _ _ => .skip)
  cases target with
  | bar0 x =>
    have hx : s.bar0At p x.toNat = .page 0x1003 off := hn
    simp only [registerWrite, bar0Write, Eff.run_look, hx, clsOf_evc]
    rfl
  | page q o =>
    obtain ⟨hq, ho⟩ : q.toNat = 0x1003 ∧ o.toNat = off := hn
    simp only [registerWrite, hq, ho, clsOf_evc]
    rfl

/-- A whole value written to a register that a host may write goes to the register's command. -/
theorem registerWrite_evc_command {p : Fin 2} {target : RegAt} {off v : Nat} {s : State}
    (hn : names (.host p) target 0x1003 off s) (hst : s.regStatus 0x1003 off 8 = ST_OK)
    (ho : off = 0x4300 ∨ off = 0x4308) (hv : v < 2 ^ 64) :
    (registerWrite (.host p) target (toLE 8 v)).run s = (writeAct (.host p) 0x1003 off v 0 s).2.run s := by
  have hword : off / 8 * 8 = off := by omega
  rw [registerWrite_evc hn (by rwa [toLE_length]), hword, guardAct_evc_allowed ho, leNat_toLE, toLE_length,
    Nat.mod_eq_of_lt (show v < 256 ^ 8 by omega)]
  rfl

theorem writeAct_evcSet (p : Fin 2) (src : Fin 2048) (s : State) :
    (writeAct (.host p) 0x1003 0x4300 src 0 s).2 = evFire src := by
  simp [writeAct, clsOf_evc, actDo, guardAct_evc_allowed, mergeHalf, Eff.when, Nat.mod_eq_of_lt src.isLt]

theorem writeAct_evcEos (p : Fin 2) (dest : Fin 3) (src : Fin 2048) (s : State) :
    (writeAct (.host p) 0x1003 0x4308 (src + dest * 2 ^ 12) 0 s).2 = evcEos (.host p) dest src := by
  have hdest : (src.val + dest.val * 4096) % 2 ^ 64 / 4096 % 4 = dest.val := by omega
  have hsrc : (src.val + dest.val * 4096) % 2048 = src.val := by omega
  have hlt : (src.val + dest.val * 4096) % 2 ^ 64 / 4096 % 4 < 3 := by omega
  simp only [writeAct, clsOf_evc, Nat.reduceEqDiff, ↓reduceIte, actDo, mergeHalf, Nat.reducePow, Eff.when, Nat.reduceBNe,
    Nat.reduceDvd, Nat.mod_mod_of_dvd, ↓dreduceIte, or_true, guardAct_evc_allowed]
  exact (dif_pos hlt).trans (congrArg₂ (evcEos (.host p)) (Fin.ext hdest) (Fin.ext hsrc))

/-! The statement -/

/-- R441: a write of any other register is refused. -/
theorem registerWrite_evc_refused {p : Fin 2} {target : RegAt} {off : Nat} {bs : List Byte} {s : State}
    (hn : names (.host p) target 0x1003 off s) (hst : s.regStatus 0x1003 off bs.length = ST_OK)
    (hset : off / 8 ≠ 0x4300 / 8) (heos : off / 8 ≠ 0x4308 / 8) :
    faultNoted p ST_PAGE_PROTECTED true false s ((registerWrite (.host p) target bs).run s) := by
  have hoff := off_lt_of_names hn
  rw [registerWrite_evc hn hst, guardAct_evc_refused (by omega) (by omega) (by omega)]
  simp only [refuseWrite, Eff.run_look]
  exact hostFault_faultNoted p _ _ (by decide) true false s

/-- R441: a write of EVC_EOS for another destination is refused. -/
theorem evcEos_refused {p : Fin 2} {dest : Fin 3} (hd : dest.val ≠ p.val + 1) (src : Fin 2048) (s : State) :
    faultNoted p ST_PAGE_PROTECTED true false s ((evcEos (.host p) dest src).run s) := by
  rw [evcEos, if_neg hd]
  exact hostFault_faultNoted p _ _ (by decide) true false s

/-- Settles O60: the guard of the page lets a host's write reach EVC_SET and EVC_EOS alone, and EVC_EOS looks at the
destination itself (R441). -/
theorem hostEventWrites : Obligations.HostEventWrites := by
  intro p target off bs src dest s
  refine ⟨fun ho => ⟨BitVec.ofNat 26 (0x1030000 + off), ?bar0⟩, fun hpow hn => ⟨fun hst hset heos => ?refused, ?set, ?eos⟩⟩
  case bar0 =>
    rw [BitVec.toNat_ofNat, Nat.mod_eq_of_lt (by omega)]
    exact bar0At_evc s p ho
  case refused => exact yields_registerWrite hpow (registerWrite_evc_refused hn hst hset heos)
  case set =>
    rintro rfl hst
    refine yields_registerWrite hpow (yields_done (p := evFire src) rfl hpow ?_)
    rw [registerWrite_evc_command hn hst (.inl rfl) (by omega), writeAct_evcSet]
  case eos =>
    rintro rfl hst
    have hrun : (registerWrite (.host p) target (toLE 8 (src + dest * 2 ^ 12))).run s = (evcEos (.host p) dest src).run s := by
      rw [registerWrite_evc_command hn hst (.inr rfl) (by omega), writeAct_evcEos]
    refine ⟨fun _ => ?_, fun hd => ?_⟩
    · exact yields_registerWrite hpow (yields_done (p := evcEos (.host p) dest src) rfl hpow hrun)
    · exact yields_registerWrite hpow (hrun ▸ evcEos_refused hd src s)

end Sys2Proof.Proofs

/-! What a firing does to the counts and to the pending bits of its own source (R439, R442). -/

namespace Sys2Proof.Proofs
open Sys2Proof.Machine Sys2Proof.Claims

/-! Effects that leave a register -/

/-- A register that an effect leaves, it leaves too when it runs under a condition. -/
theorem when_regsAt {p : Eff} {k : Nat} {s : State} (b : Bool) (h : (p.run s).regsAt k = s.regsAt k) :
    ((Eff.when b p).run s).regsAt k = s.regsAt k := by
  cases b
  · rfl
  · exact h

theorem mgmtEvent_regsAt {k : Nat} (hk : k ≠ 0x100B0000) (src : Nat) (s : State) :
    ((mgmtEvent src).run s).regsAt k = s.regsAt k := (mgmtEvent_event 0x10050000 src).quiet ⟨by omega, hk⟩ s

theorem msixSend_regsAt {k : Nat} (hk : k ≠ 0x100B0000) (p v : Nat) (s : State) :
    ((msixSend p v).run s).regsAt k = s.regsAt k := (msixSend_event 0x10050000 p v).quiet ⟨by omega, hk⟩ s

theorem evDeliver_regsAt {k : Nat} (hk : k ≠ 0x100B0000) (d src : Nat) (s : State) :
    ((evDeliver d src).run s).regsAt k = s.regsAt k := by
  simp only [evDeliver, Eff.run_look]
  split
  · rfl
  · exact msixSend_regsAt hk _ _ s
  · exact msixSend_regsAt hk _ _ s

/-- R444, R445: the always-on watcher writes its own record and PWR_STATE, no register of the event collector. -/
theorem watcherSee_regsAt {k : Nat} (hk : k < 0x10040000) (src : Nat) (s : State) :
    ((watcherSee src).run s).regsAt k = s.regsAt k := by
  have hput : ∀ (f : Fld) (x : Nat) (t : State), 0x10040000 ≤ f.key → ((put f x).run t).regsAt k = t.regsAt k :=
    fun f x t hf => put_other (by omega) x t
  simp only [watcherSee, Eff.run_look]
  split
  · rfl
  split
  · rfl
  simp only [Eff.run_all_cons, Eff.run_all_nil, putBit]
  rw [when_regsAt _ (mgmtEvent_regsAt (by omega) src _), when_regsAt, when_regsAt, hput _ _ _ (by decide), hput _ _ _ (by decide)]
  · exact addSat_other (f := R.AOW_WAKE_firings) (ne_of_lt (hk.trans (by decide))) _ _
  · simp only [Eff.run_all_cons, Eff.run_all_nil]
    rw [hput _ _ _ (by decide), hput _ _ _ (by decide)]

/-! One destination's share of a firing (R439) -/

theorem pendReg_page {src : Nat} (hs : src < 2048) (d : Nat) : 0x10034000 ≤ pendReg d src ∧ pendReg d src < 0x10034300 := by
  unfold pendReg
  split <;> simp only [R.EVC_PEND_CORE, R.EVC_PEND_P0, R.EVC_PEND_P1, rk] <;> omega

theorem pendReg_eq {d : Nat} (hd : d < 3) (src : Nat) : pendReg d src = 0x10034000 + d * 0x100 + src / 64 * 8 := by
  interval_cases d <;> simp only [pendReg, R.EVC_PEND_CORE, R.EVC_PEND_P0, R.EVC_PEND_P1, rk] <;> omega

/-- The destinations keep their pending bits in registers of their own. -/
theorem pendReg_ne {d d' : Nat} (hd : d < 3) (hd' : d' < 3) (hne : d ≠ d') (src : Nat) : pendReg d src ≠ pendReg d' src := by
  rw [pendReg_eq hd, pendReg_eq hd']; omega

theorem evPending_congr {s t : State} {d src : Nat} (h : t.regsAt (pendReg d src) = s.regsAt (pendReg d src)) :
    t.evPending d src = s.evPending d src := by rw [State.evPending, State.evPending, State.regBit, State.regBit, h]

theorem evRouted_congr {s t : State} {src : Nat} (h : t.regsAt (R.EVC_ROUTE src) = s.regsAt (R.EVC_ROUTE src)) (d : Nat) :
    t.evRouted d src = s.evRouted d src := by
  have hget : ∀ f : Fld, f.key = R.EVC_ROUTE src → t.get f = s.get f := fun f hf => by rw [State.get, State.get, hf, h]
  unfold State.evRouted State.bit
  rw [hget _ rfl, hget (R.EVC_ROUTE_p0_en src) rfl, hget (R.EVC_ROUTE_p1_en src) rfl]

theorem evFireAt_regsAt {k d src : Nat} (hp : k ≠ pendReg d src) (hk : k ≠ 0x100B0000) (s : State) :
    ((evFireAt d src).run s).regsAt k = s.regsAt k := by
  simp only [evFireAt, Eff.run_look]
  split
  · rw [Eff.run_seq, when_regsAt _ (evDeliver_regsAt hk d src _)]
    exact put_other (f := ⟨pendReg d src, src % 64, 1⟩) hp _ s
  · rfl

/-- R439: a destination that the route enables has the source pending, and one that had it pending keeps it. -/
theorem evFireAt_pending {src : Nat} (hs : src < 2048) (d : Nat) (s : State) :
    ((evFireAt d src).run s).evPending d src = (s.evPending d src || s.evRouted d src) := by
  have hpage := pendReg_page hs d
  simp only [evFireAt, Eff.run_look]
  split
  case isTrue h =>
    obtain ⟨hroute, -⟩ : s.evRouted d src = true ∧ s.evPending d src = false := by simpa using h
    have hset := put_same ⟨pendReg d src, src % 64, 1⟩ 1 s (show src % 64 + 1 ≤ 64 by omega)
    rw [Eff.run_seq, evPending_congr (when_regsAt _ (evDeliver_regsAt (by omega) d src _)), hroute, Bool.or_true]
    exact beq_iff_eq.2 hset
  case isFalse h => cases hroute : s.evRouted d src <;> simp_all

/-! The firing -/

theorem evFire_fired (src : Nat) (s : State) :
    ((evFire src).run s).get R.EVC_COUNTS_fired = min (s.get R.EVC_COUNTS_fired + 1) (2 ^ R.EVC_COUNTS_fired.w - 1) := by
  have hfired := addSat_same R.EVC_COUNTS_fired 1 s (by decide)
  have hkey : R.EVC_COUNTS_fired.key = 0x10034318 := rfl
  simp only [evFire, Eff.run_look, Eff.run_all_cons, Eff.run_all_nil]
  cases hl : srcListed src
  case false => rw [Eff.run_when_false, hfired]
  case true =>
    have hs := srcListed_lt hl
    have hat : ∀ d t, ((evFireAt d src).run t).regsAt R.EVC_COUNTS_fired.key = t.regsAt R.EVC_COUNTS_fired.key := fun d t =>
      evFireAt_regsAt (by have := pendReg_page hs d; omega) (by decide) t
    simp only [Eff.run_when_true, Eff.run_all_cons, Eff.run_all_nil]
    rw [← hfired, State.get, State.get, watcherSee_regsAt (by decide), when_regsAt _ (mgmtEvent_regsAt (by decide) src _), hat, hat, hat,
      Eff.run_when]
    split
    · exact get_addSat_apart (f := R.EVC_COUNTS_merged) (g := R.EVC_COUNTS_fired) (.inr (by decide)) (by decide) 1 _
    · rfl

/-- R439: after a firing of a listed source it is pending at every destination that its route enables. -/
theorem evFire_pending {src d : Nat} (hl : srcListed src = true) (hd : d < 3) (s : State) :
    ((evFire src).run s).evPending d src = (s.evPending d src || s.evRouted d src) := by
  have hs := srcListed_lt hl
  have hpage := fun d => pendReg_page hs d
  have hroute : R.EVC_ROUTE src < 0x10034000 := by simp only [R.EVC_ROUTE, rk]; omega
  have hother : ∀ d' t, d' < 3 → d ≠ d' → ((evFireAt d' src).run t).evPending d src = t.evPending d src := fun d' t hd' hne =>
    evPending_congr (evFireAt_regsAt (pendReg_ne hd hd' hne src) (by have := hpage d; omega) t)
  have hrouted : ∀ d' t, ((evFireAt d' src).run t).evRouted d src = t.evRouted d src := fun d' t =>
    evRouted_congr (evFireAt_regsAt (by have := hpage d'; omega) (by omega) t) d
  have hshares : ∀ t, ((evFireAt 2 src).run ((evFireAt 1 src).run ((evFireAt 0 src).run t))).evPending d src =
      (t.evPending d src || t.evRouted d src) := by
    intro t
    obtain rfl | rfl | rfl : d = 0 ∨ d = 1 ∨ d = 2 := by omega
    · rw [hother 2 _ (by decide) (by decide), hother 1 _ (by decide) (by decide), evFireAt_pending hs]
    · rw [hother 2 _ (by decide) (by decide), evFireAt_pending hs, hother 0 _ (by decide) (by decide), hrouted]
    · rw [evFireAt_pending hs, hother 1 _ (by decide) (by decide), hother 0 _ (by decide) (by decide), hrouted, hrouted]
  have hcounts : ∀ k b t, k ≠ 0x10034318 →
      ((Eff.when b (addSat R.EVC_COUNTS_merged 1)).run ((addSat R.EVC_COUNTS_fired 1).run t)).regsAt k = t.regsAt k := by
    intro k b t hk
    rw [when_regsAt _ (addSat_other (f := R.EVC_COUNTS_merged) hk 1 _), addSat_other (f := R.EVC_COUNTS_fired) hk]
  simp only [evFire, Eff.run_look, Eff.run_all_cons, Eff.run_all_nil, hl, Eff.run_when_true]
  rw [evPending_congr (watcherSee_regsAt (by have := hpage d; omega) src _),
    evPending_congr (when_regsAt _ (mgmtEvent_regsAt (by have := hpage d; omega) src _)), hshares,
    evPending_congr (hcounts _ _ _ (by have := hpage d; omega)), evRouted_congr (hcounts _ _ _ (by omega))]

end Sys2Proof.Proofs

/-! The commands of a check-value engine: start, stop, resume and compare (R463, R465, R466). -/

namespace Sys2Proof.Proofs
open Sys2Proof.Machine Sys2Proof.Claims

theorem get_lt (s : State) (f : Fld) : s.get f < 2 ^ f.w := Nat.mod_lt _ (by positivity)

theorem bit_putBit (f : Fld) (h : f.lo + f.w ≤ 64) (hw : f.w = 1) (b : Bool) (s : State) : ((putBit f b).run s).bit f = b := by
  rw [State.bit, putBit, put_same f _ s h, hw]
  cases b <;> rfl

/-! The registers of the engines -/

/-- The registers of one engine lie at different offsets of its block. -/
theorem crcKey_ne {a b : Nat} (h : a ≠ b) (e : Nat) : rk 0x1006 (a + e * 0x100) ≠ rk 0x1006 (b + e * 0x100) := by
  simp only [rk]; omega

/-- The result of an engine depends on its settings and its running register alone. -/
theorem crcResult_congr {s t : State} {e : Nat} (hcfg : t.regsAt (R.CRC_CFG e) = s.regsAt (R.CRC_CFG e))
    (hval : t.get (R.CRC_VALUE_value e) = s.get (R.CRC_VALUE_value e)) : t.crcResult e = s.crcResult e := by
  have hget : ∀ f : Fld, f.key = R.CRC_CFG e → t.get f = s.get f := fun f hf => by rw [State.get, State.get, hf, hcfg]
  unfold State.crcResult State.bit
  rw [hval, hget (R.CRC_CFG_width e) rfl, hget (R.CRC_CFG_refout e) rfl, hget (R.CRC_CFG_final_inv e) rfl]

theorem crcResult_put {e : Nat} {f : Fld} (hcfg : R.CRC_CFG e ≠ f.key) (hval : R.CRC_VALUE e ≠ f.key) (x : Nat) (s : State) :
    ((put f x).run s).crcResult e = s.crcResult e :=
  crcResult_congr (put_other hcfg x s) (congrArg (R.CRC_VALUE_value e).read (put_other hval x s))

theorem crcResult_evFire {e : Nat} (he : e < 16) (src : Nat) (s : State) :
    ((evFire src).run s).crcResult e = s.crcResult e := by
  refine crcResult_congr ((evFire_event src).quiet ?_ s) (get_evFire ?_ src s) <;>
    simp only [R.CRC_CFG, R.CRC_VALUE_value, R.CRC_VALUE, rk] <;> omega

theorem keepsRegs_get {keys : List Nat} {s t : State} (h : keepsRegs keys s t) {f : Fld} (hf : f.key ∉ keys) : t.get f = s.get f :=
  congrArg f.read (h f.key hf)

/-! A write of one action bit of CRC_CTRL -/

/-- A write of CRC_CTRL sets win_en and does the actions of the bits below it. -/
theorem crcCtrl_run (e w : Nat) {b : Nat} (hb : b < 16) (s : State) :
    (crcCtrl e (w * 16 + b)).run s = (Eff.all [
      Eff.when (b % 2 == 1) (crcStart e),
      Eff.when (b / 2 % 2 == 1) (putBit (R.CRC_CTRL_running e) false),
      Eff.when (b / 4 % 2 == 1) (putBit (R.CRC_CTRL_running e) true),
      Eff.when (b / 8 % 2 == 1) (crcCompare e)]).run ((put (R.CRC_CTRL_win_en e) w).run s) := by
  rw [crcCtrl, Eff.run_all_cons, show (w * 16 + b) / 2 ^ 4 = w by omega, show (w * 16 + b) % 2 = b % 2 by omega,
    show (w * 16 + b) / 2 % 2 = b / 2 % 2 by omega, show (w * 16 + b) / 4 % 2 = b / 4 % 2 by omega,
    show (w * 16 + b) / 8 % 2 = b / 8 % 2 by omega]

/-- The write of action bit `bit` does the action `p`. -/
def actsAs (e bit : Nat) (p : Eff) : Prop :=
  ∀ w s, (crcCtrl e (w * 16 + 2 ^ bit)).run s = p.run ((put (R.CRC_CTRL_win_en e) w).run s)

theorem actsAs_start (e : Nat) : actsAs e 0 (crcStart e) := by
  intro w s
  rw [crcCtrl_run e w (by decide)]
  simp [Eff.when]

theorem actsAs_stop (e : Nat) : actsAs e 1 (putBit (R.CRC_CTRL_running e) false) := by
  intro w s
  rw [crcCtrl_run e w (by decide)]
  simp [Eff.when]

theorem actsAs_resume (e : Nat) : actsAs e 2 (putBit (R.CRC_CTRL_running e) true) := by
  intro w s
  rw [crcCtrl_run e w (by decide)]
  simp [Eff.when]

theorem actsAs_compare (e : Nat) : actsAs e 3 (crcCompare e) := by
  intro w s
  rw [crcCtrl_run e w (by decide)]
  simp [Eff.when]

/-- The answer to an agent's write: a host's write is posted. -/
def actAnswer : Agent → Eff
  | .host _ => .skip
  | _ => send (.reply ST_OK [])

theorem actAnswer_in (who : Agent) {ps : List Part} (h : [Part.out] ⊆ ps) : (actAnswer who).In ps := by
  cases who
  case host => exact Eff.in_skip
  all_goals exact send_in _ h

/-- The answer to a write changes no register. -/
theorem actAnswer_regsAt (who : Agent) (s : State) (k : Nat) : ((actAnswer who).run s).regsAt k = s.regsAt k := by
  cases who <;> rfl

theorem runAct_done {who : Agent} {a : Act} {p : Eff} {s : State} (h : a s = (ST_OK, p)) :
    (runAct who a).run s = (actAnswer who).run (p.run s) := by
  cases who <;> simp only [runAct, Eff.run_look, h] <;> rfl

theorem guardAct_writable {who : Agent} {page off : Nat} {s : State} (h : writable who page off s) (a : Act) :
    guardAct who page off a s = a s := by
  obtain ⟨-, hmap, hmay⟩ := h
  simp [guardAct, hmap, hmay]

/-- Where the page accepts the agent, a command that writes an action bit leaves in the registers what the action leaves there from
a state `u` that differs in CRC_CTRL at most, and changes no part but those that the action writes and what the block sends out. -/
theorem yields_crcAction {i : Instr} {who : Agent} {e bit : Nat} {p : Eff} {s : State} {ps : List Part} {post : State → Prop}
    (hi : exec i s = (runAct who (actCrcBit who e bit)).done s) (hw : writable who 0x1006 (e * 0x100 + 0x40) s)
    (hp : actsAs e bit p) (hin : ∀ u, keepsRegs [R.CRC_CTRL e] s u → changesOnly ps u (p.run u)) (hregs : [Part.regs] ⊆ ps)
    (hout : [Part.out] ⊆ ps)
    (h : ∀ u t, keepsRegs [R.CRC_CTRL e] s u → keepsRegs [] (p.run u) t → changesOnly ps s t → post t) :
    yields i s post := by
  let keep := put (R.CRC_CTRL_win_en e) (s.get (R.CRC_CTRL_win_en e))
  have hact : (runAct who (actCrcBit who e bit)).run s = (actAnswer who).run (p.run (keep.run s)) :=
    (runAct_done (guardAct_writable hw fun _ => (ST_OK, _))).trans (congrArg (actAnswer who).run (hp _ s))
  have hkeep : keepsRegs [R.CRC_CTRL e] s (keep.run s) := fun k hk =>
    put_other (f := R.CRC_CTRL_win_en e) (mt List.mem_singleton.2 hk) _ s
  refine yields_done hi hw.1 ?_
  rw [hact]
  refine h (keep.run s) _ hkeep (fun k _ => actAnswer_regsAt who _ k) ?_
  exact changesOnly_trans ((put_in _ _ hregs).changes s)
    (changesOnly_trans (hin _ hkeep) ((actAnswer_in who hout).changes _))

/-! Start, stop and resume -/

/-- What a start leaves in the registers (R463). -/
theorem crcStart_regs (e : Nat) (s : State) :
    let t := (crcStart e).run s
    t.bit (R.CRC_CTRL_running e) = true ∧
    t.get (R.CRC_VALUE_value e) = s.get (R.CRC_INIT_value e) % 2 ^ s.get (R.CRC_CFG_width e) ∧
    t.get (R.CRC_STATUS_bytes e) = 0 ∧ keepsRegs [R.CRC_VALUE e, R.CRC_STATUS e, R.CRC_CTRL e] s t := by
  have hinit : s.get (R.CRC_INIT_value e) % 2 ^ s.get (R.CRC_CFG_width e) < 2 ^ 64 :=
    (Nat.mod_le _ _).trans_lt (get_lt s (R.CRC_INIT_value e))
  have hvalue : R.CRC_VALUE e ≠ R.CRC_STATUS e ∧ R.CRC_VALUE e ≠ R.CRC_CTRL e :=
    ⟨crcKey_ne (by decide) e, crcKey_ne (by decide) e⟩
  have hstatus : R.CRC_STATUS e ≠ R.CRC_CTRL e := crcKey_ne (by decide) e
  simp only [crcStart, Eff.run_look, Eff.run_all_cons, Eff.run_all_nil]
  refine ⟨bit_putBit _ (show 5 + 1 ≤ 64 by decide) rfl true _, ?value, ?bytes, fun k hk => ?keeps⟩
  case value =>
    have hfits : (R.CRC_VALUE_value e).lo + (R.CRC_VALUE_value e).w ≤ 64 := le_refl 64
    rw [putBit, get_put_apart (.inl hvalue.2) hfits, get_put_apart (.inl hvalue.1) hfits, put_same _ _ _ hfits]
    exact Nat.mod_eq_of_lt hinit
  case bytes =>
    have hfits : (R.CRC_STATUS_bytes e).lo + (R.CRC_STATUS_bytes e).w ≤ 64 := show 0 + 48 ≤ 64 by decide
    rw [putBit, get_put_apart (.inl hstatus) hfits, put_same _ _ _ hfits, Nat.zero_mod]
  case keeps =>
    obtain ⟨hv, hs, hc⟩ : k ≠ R.CRC_VALUE e ∧ k ≠ R.CRC_STATUS e ∧ k ≠ R.CRC_CTRL e := by simpa using hk
    rw [putBit, put_other (f := R.CRC_CTRL_running e) hc, put_other (f := R.CRC_STATUS_bytes e) hs,
      put_other (f := R.CRC_VALUE_value e) hv]

theorem crcStart_in (e : Nat) : (crcStart e).In [.regs, .out] := by
  have hregs : [Part.regs] ⊆ [Part.regs, .out] := by simp
  exact Eff.in_look fun _ => Eff.in_all_cons (put_in _ _ hregs) <| Eff.in_all_cons (put_in _ _ hregs) <|
    Eff.in_all_cons (put_in _ _ hregs) Eff.in_all_nil

theorem yields_crcStart {who : Agent} {e : Fin 16} {s : State} (hw : writable who 0x1006 (e * 0x100 + 0x40) s) :
    yields (.crcStart who e) s fun t => t.bit (R.CRC_CTRL_running e) = true ∧
      t.get (R.CRC_VALUE_value e) = s.get (R.CRC_INIT_value e) % 2 ^ s.get (R.CRC_CFG_width e) ∧ t.get (R.CRC_STATUS_bytes e) = 0 ∧
      keepsRegs [R.CRC_VALUE e, R.CRC_STATUS e, R.CRC_CTRL e] s t ∧ changesOnly [.regs, .out] s t := by
  refine yields_crcAction rfl hw (actsAs_start e) (fun u _ => (crcStart_in e).changes u) (by simp) (by simp) fun u t hu ht hc => ?_
  obtain ⟨hrun, hvalue, hbytes, hkeeps⟩ := crcStart_regs e u
  rw [keepsRegs_get hu (f := R.CRC_INIT_value e) (mt List.mem_singleton.1 (crcKey_ne (by decide) e)),
    keepsRegs_get hu (f := R.CRC_CFG_width e) (mt List.mem_singleton.1 (crcKey_ne (by decide) e))] at hvalue
  refine ⟨?_, (keepsRegs_get ht (by simp)).trans hvalue, (keepsRegs_get ht (by simp)).trans hbytes, fun k hk => ?_, hc⟩
  · rw [State.bit, keepsRegs_get ht (by simp)]; exact hrun
  · exact (ht k (by simp)).trans ((hkeeps k hk).trans (hu k (by simp_all)))

/-- Stop and resume set the running bit and nothing else (R465). -/
theorem yields_crcRunning {i : Instr} {who : Agent} {e bit : Nat} {b : Bool} {s : State}
    (hi : exec i s = (runAct who (actCrcBit who e bit)).done s) (hw : writable who 0x1006 (e * 0x100 + 0x40) s)
    (hp : actsAs e bit (putBit (R.CRC_CTRL_running e) b)) :
    yields i s fun t => t.bit (R.CRC_CTRL_running e) = b ∧ keepsRegs [R.CRC_CTRL e] s t ∧ changesOnly [.regs, .out] s t := by
  refine yields_crcAction hi hw hp (fun u _ => (put_in _ _ (by simp)).changes u) (by simp) (by simp)
    fun u t hu ht hc => ⟨?_, fun k hk => ?_, hc⟩
  · rw [State.bit, keepsRegs_get ht (by simp)]
    exact bit_putBit _ (show 5 + 1 ≤ 64 by decide) rfl b u
  · exact (ht k (by simp)).trans ((put_other (f := R.CRC_CTRL_running e) (mt List.mem_singleton.2 hk) _ u).trans (hu k hk))

/-! Compare (R466) -/

/-- The result matches the expected value in the low bits of the engine's width. -/
def crcMatches (s : State) (e : Nat) : Prop := s.crcResult e = s.get (R.CRC_EXPECT_value e) % 2 ^ s.get (R.CRC_CFG_width e)

theorem crcMatches_congr {s u : State} {e : Nat} (hu : keepsRegs [R.CRC_CTRL e] s u) :
    u.crcResult e = s.crcResult e ∧ (crcMatches u e ↔ crcMatches s e) := by
  have hcfg : R.CRC_CFG e ∉ [R.CRC_CTRL e] := mt List.mem_singleton.1 (crcKey_ne (by decide) e)
  have hvalue : R.CRC_VALUE e ∉ [R.CRC_CTRL e] := mt List.mem_singleton.1 (crcKey_ne (by decide) e)
  have hexpect : R.CRC_EXPECT e ∉ [R.CRC_CTRL e] := mt List.mem_singleton.1 (crcKey_ne (by decide) e)
  have hresult : u.crcResult e = s.crcResult e := crcResult_congr (hu _ hcfg) (keepsRegs_get hu hvalue)
  refine ⟨hresult, ?_⟩
  unfold crcMatches
  rw [hresult, keepsRegs_get hu (f := R.CRC_EXPECT_value e) hexpect, keepsRegs_get hu (f := R.CRC_CFG_width e) hcfg]

/-- The outcome of a comparison in CRC_STATUS. -/
def crcVerdict (e st : Nat) (mismatch : Bool) : Eff :=
  .seq (put (R.CRC_STATUS_last_status e) st) (putBit (R.CRC_STATUS_mismatch e) mismatch)

theorem crcVerdict_regs (e : Nat) {st : Nat} (hst : st < 256) (mismatch : Bool) (s : State) :
    let t := (crcVerdict e st mismatch).run s
    t.get (R.CRC_STATUS_last_status e) = st ∧ t.bit (R.CRC_STATUS_mismatch e) = mismatch ∧ t.crcResult e = s.crcResult e ∧
    keepsRegs [R.CRC_STATUS e] s t := by
  have hcfg : R.CRC_CFG e ≠ R.CRC_STATUS e := crcKey_ne (by decide) e
  have hval : R.CRC_VALUE e ≠ R.CRC_STATUS e := crcKey_ne (by decide) e
  simp only [crcVerdict, Eff.run_seq]
  refine ⟨?status, bit_putBit _ (show 56 + 1 ≤ 64 by decide) rfl mismatch _, ?result, fun k hk => ?keeps⟩
  case status =>
    have hfits : (R.CRC_STATUS_last_status e).lo + (R.CRC_STATUS_last_status e).w ≤ 64 := show 48 + 8 ≤ 64 by decide
    have hbelow : (R.CRC_STATUS_last_status e).lo + (R.CRC_STATUS_last_status e).w ≤ (R.CRC_STATUS_mismatch e).lo :=
      show 48 + 8 ≤ 56 by decide
    rw [putBit, get_put_apart (.inr (.inr hbelow)) hfits, put_same _ _ _ hfits]
    exact Nat.mod_eq_of_lt hst
  case result => rw [putBit, crcResult_put hcfg hval, crcResult_put hcfg hval]
  case keeps =>
    have hstatus : k ≠ R.CRC_STATUS e := by simpa using hk
    rw [putBit, put_other (f := R.CRC_STATUS_mismatch e) hstatus, put_other (f := R.CRC_STATUS_last_status e) hstatus]

theorem crcCompare_match {e : Nat} {s : State} (h : crcMatches s e) : (crcCompare e).run s = (crcVerdict e ST_OK false).run s := by
  unfold crcMatches at h
  rw [crcCompare, Eff.run_look, if_pos h]; rfl

theorem crcCompare_mismatch {e : Nat} {s : State} (h : ¬ crcMatches s e) :
    (crcCompare e).run s = (evFire (0x5A0 + e)).run ((crcVerdict e ST_CHECK_MISMATCH true).run s) := by
  unfold crcMatches at h
  simp only [crcCompare, Eff.run_look, if_neg h, Eff.run_all_cons, Eff.run_all_nil, crcVerdict, Eff.run_seq]

theorem crcVerdict_in (e st : Nat) (mismatch : Bool) {ps : List Part} (h : [Part.regs] ⊆ ps) : (crcVerdict e st mismatch).In ps :=
  Eff.in_seq (put_in _ _ h) (put_in _ _ h)

/-- What a comparison that finds a mismatch leaves in the registers. -/
theorem crcCompare_mismatch_regs {e : Nat} (he : e < 16) {s : State} (h : ¬ crcMatches s e) :
    let t := (crcCompare e).run s
    let src := 0x5A0 + e
    t.get (R.CRC_STATUS_last_status e) = ST_CHECK_MISMATCH ∧ t.bit (R.CRC_STATUS_mismatch e) = true ∧
    t.get R.EVC_COUNTS_fired = min (s.get R.EVC_COUNTS_fired + 1) (2 ^ R.EVC_COUNTS_fired.w - 1) ∧
    (∀ d < 3, t.evPending d src = (s.evPending d src || s.evRouted d src)) ∧ t.crcResult e = s.crcResult e ∧
    keepsQuiet [R.CRC_STATUS e] s t := by
  obtain ⟨hstatus, hmismatch, hresult, hkeeps⟩ := crcVerdict_regs e (show ST_CHECK_MISMATCH < 256 by decide) true s
  have hkey : R.CRC_STATUS e = 0x10060048 + e * 0x100 := by simp only [R.CRC_STATUS, rk]; omega
  have hfar : 0x10050000 ≤ R.CRC_STATUS e ∧ R.CRC_STATUS e ≠ 0x100B0000 := by omega
  have hlisted : srcListed (0x5A0 + e) = true := by simp [srcListed]; omega
  have hold : ∀ k, k < 0x10050000 → ((crcVerdict e ST_CHECK_MISMATCH true).run s).regsAt k = s.regsAt k :=
    fun k hk => hkeeps k (by simp; omega)
  simp only [crcCompare_mismatch h]
  refine ⟨?status, ?mismatch, ?fired, fun d hd => ?pending, (crcResult_evFire he _ _).trans hresult, fun k hk hpwr hkey => ?keeps⟩
  case status => rw [get_evFire hfar, hstatus]
  case mismatch => rw [State.bit, get_evFire hfar]; exact hmismatch
  case fired =>
    have hcount : ((crcVerdict e ST_CHECK_MISMATCH true).run s).get R.EVC_COUNTS_fired = s.get R.EVC_COUNTS_fired :=
      congrArg R.EVC_COUNTS_fired.read (hold _ (by decide))
    rw [evFire_fired, hcount]
  case pending =>
    have hpend := pendReg_page (show 0x5A0 + e < 2048 by omega) d
    rw [evFire_pending hlisted hd, evPending_congr (hold _ (by omega)),
      evRouted_congr (hold _ (by simp only [R.EVC_ROUTE, rk]; omega))]
  case keeps =>
    exact ((evFire_event _).quiet ⟨hk.imp_left (fun h => by omega), hpwr⟩ _).trans (hkeeps k hkey)

theorem yields_crcCompare_match {who : Agent} {e : Fin 16} {s : State} (hw : writable who 0x1006 (e * 0x100 + 0x40) s)
    (h : crcMatches s e) : yields (.crcCompare who e) s fun t =>
      t.get (R.CRC_STATUS_last_status e) = ST_OK ∧ t.bit (R.CRC_STATUS_mismatch e) = false ∧ t.crcResult e = s.crcResult e ∧
      keepsRegs [R.CRC_STATUS e, R.CRC_CTRL e] s t ∧ changesOnly [.regs, .out] s t := by
  have hrun : ∀ u, keepsRegs [R.CRC_CTRL e] s u → (crcCompare e).run u = (crcVerdict e ST_OK false).run u := fun u hu =>
    crcCompare_match ((crcMatches_congr hu).2.2 h)
  refine yields_crcAction (ps := [.regs, .out]) rfl hw (actsAs_compare e) (fun u hu => ?_) (by simp) (by simp) fun u t hu ht hc => ?_
  · rw [hrun u hu]; exact (crcVerdict_in e _ _ (by simp)).changes u
  rw [hrun u hu] at ht
  obtain ⟨hstatus, hmismatch, hresult, hkeeps⟩ := crcVerdict_regs e (show ST_OK < 256 by decide) false u
  refine ⟨(keepsRegs_get ht (by simp)).trans hstatus, ?_, ?_, fun k hk => ?_, hc⟩
  · rw [State.bit, keepsRegs_get ht (by simp)]; exact hmismatch
  · rw [crcResult_congr (ht _ (by simp)) (keepsRegs_get ht (by simp)), hresult, (crcMatches_congr hu).1]
  · exact (ht k (by simp)).trans ((hkeeps k (by simp_all)).trans (hu k (by simp_all)))

theorem yields_crcCompare_mismatch {who : Agent} {e : Fin 16} {s : State} (hw : writable who 0x1006 (e * 0x100 + 0x40) s)
    (h : ¬ crcMatches s e) : yields (.crcCompare who e) s fun t =>
      t.get (R.CRC_STATUS_last_status e) = ST_CHECK_MISMATCH ∧ t.bit (R.CRC_STATUS_mismatch e) = true ∧
      t.get R.EVC_COUNTS_fired = min (s.get R.EVC_COUNTS_fired + 1) (2 ^ R.EVC_COUNTS_fired.w - 1) ∧
      (∀ d < 3, t.evPending d (0x5A0 + e) = (s.evPending d (0x5A0 + e) || s.evRouted d (0x5A0 + e))) ∧ t.crcResult e = s.crcResult e ∧
      keepsQuiet [R.CRC_STATUS e, R.CRC_CTRL e] s t ∧ changesOnly [.regs, .msix, .mgmtQ, .out] s t := by
  have hdiff : ∀ u, keepsRegs [R.CRC_CTRL e] s u → ¬ crcMatches u e := fun u hu => (crcMatches_congr hu).2.not.2 h
  refine yields_crcAction (ps := [.regs, .msix, .mgmtQ, .out]) rfl hw (actsAs_compare e) (fun u hu => ?_) (by simp) (by simp)
    fun u t hu ht hc => ?_
  · rw [crcCompare_mismatch (hdiff u hu)]
    exact changesOnly_trans ((crcVerdict_in e _ _ (by simp)).changes u) ((evFire_in _).changes _)
  obtain ⟨hstatus, hmismatch, hfired, hpending, hresult, hkeeps⟩ := crcCompare_mismatch_regs e.isLt (hdiff u hu)
  have hctrl : 0x10050000 ≤ R.CRC_CTRL e := by simp only [R.CRC_CTRL, rk]; omega
  have hold : ∀ k, k < 0x10050000 → u.regsAt k = s.regsAt k := fun k hk => hu k (by simp; omega)
  refine ⟨(keepsRegs_get ht (by simp)).trans hstatus, ?_, ?_, fun d hd => ?_, ?_, fun k hk hpwr hkey => ?_, hc⟩
  · rw [State.bit, keepsRegs_get ht (by simp)]; exact hmismatch
  · have hcount : u.get R.EVC_COUNTS_fired = s.get R.EVC_COUNTS_fired := congrArg R.EVC_COUNTS_fired.read (hold _ (by decide))
    rw [keepsRegs_get ht (by simp), hfired, hcount]
  · have hpend := pendReg_page (show 0x5A0 + e.val < 2048 by omega) d
    rw [evPending_congr (ht _ (by simp)), hpending d hd, evPending_congr (hold _ (by omega)),
      evRouted_congr (hold _ (by simp only [R.EVC_ROUTE, rk]; omega))]
  · rw [crcResult_congr (ht _ (by simp)) (keepsRegs_get ht (by simp)), hresult, (crcMatches_congr hu).1]
  · exact (ht k (by simp)).trans ((hkeeps k hk hpwr (by simp_all)).trans (hu k (by simp_all)))

/-- Each command writes the engine's control register under the limits of its page, so what it leaves is what its action bit does. -/
theorem checkEngines : Claims.CheckEngines := by
  intro who e s hw runs
  exact ⟨yields_crcStart hw, yields_crcRunning rfl hw (actsAs_stop e), yields_crcRunning rfl hw (actsAs_resume e),
    yields_crcCompare_match hw, yields_crcCompare_mismatch hw⟩

end Sys2Proof.Proofs

/-! What a snooped stream leaves as it is: of the registers it writes those of the check-value engines alone, so memory answers after it
as before (R463, R464). -/

namespace Sys2Proof.Proofs
open Sys2Proof.Machine Sys2Proof.Claims

/-- The registers of the check-value engines: page 0x1006. -/
def crcPage (k : Nat) : Prop := 0x10060000 ≤ k ∧ k < 0x10070000

theorem rk_not_crcPage {page off : Nat} (hp : page ≠ 0x1006) (ho : off < 0x10000) : ¬ crcPage (rk page off) := by
  unfold crcPage rk; omega

theorem rk_above_crcPage {page : Nat} (hp : 0x1006 < page) (off : Nat) : ¬ crcPage (rk page off) := by
  unfold crcPage rk; omega

theorem bankOf_le (off : Nat) : bankOf off ≤ 24 := by unfold bankOf; split <;> omega

theorem ownFld_not_crcPage (c off : Nat) : ¬ crcPage (ownFld c (bankOf off)).key := by
  have hbank := bankOf_le off
  exact rk_not_crcPage (by omega) (by omega)

/-- Nothing has changed but registers of the check-value engines. -/
structure CrcOnly (s t : State) : Prop where
  regs : ∀ k, ¬ crcPage k → t.regsAt k = s.regsAt k
  rest : changesOnly [.regs] s t

theorem crcTake_writes {e : Nat} (he : e < 16) (bytes : List (Nat × Byte)) :
    (crcTake e bytes).Only fun u => ∃ k v, u = .regs k v ∧ crcPage k := by
  intro s
  refine ⟨only_put _ _ fun v => ⟨R.CRC_VALUE e, v, rfl, ?_⟩, only_addWrap _ _ fun v => ⟨R.CRC_STATUS e, v, rfl, ?_⟩⟩
  all_goals simp only [crcPage, R.CRC_VALUE, R.CRC_STATUS, rk]; omega

theorem snoop_crcOnly (source dir inst : Nat) (bytes : List (Nat × Byte)) (s : State) :
    CrcOnly s ((snoop source dir inst bytes).run s) := by
  have honly : (snoop source dir inst bytes).Only fun u => ∃ k v, u = .regs k v ∧ crcPage k := by
    intro s
    simp only [Eff.only_each, Eff.only_when, List.mem_range]
    exact fun e he _ => crcTake_writes he bytes
  have hin : (snoop source dir inst bytes).In [.regs] := ⟨honly.mono (by rintro u ⟨k, v, rfl, -⟩; simp [Upd.part])⟩
  refine ⟨fun k hk => honly.same (fun t => t.regsAt k) ?_ s, hin.changes s⟩
  rintro u t ⟨j, v, rfl, hj⟩
  exact Upd.run_regs_other j k (fun he => hk (he ▸ hj)) v t

section
variable {s t : State} (h : CrcOnly s t)
include h

theorem CrcOnly.get {f : Fld} (hf : ¬ crcPage f.key) : t.get f = s.get f := congrArg f.read (h.regs f.key hf)

theorem CrcOnly.bit {f : Fld} (hf : ¬ crcPage f.key) : t.bit f = s.bit f := by rw [State.bit, State.bit, h.get hf]

/-! The address map (R28) -/

theorem CrcOnly.extEnd : t.extEnd = s.extEnd := by
  rw [State.extEnd, State.extEnd, h.get (f := R.LIC_FEATURES_ext_gib) (rk_above_crcPage (by decide) _)]

theorem CrcOnly.diesOff : t.diesOff = s.diesOff := by
  rw [State.diesOff, State.diesOff, h.get (f := R.PWR_STATE_state) (rk_above_crcPage (by decide) _)]

theorem CrcOnly.cellRetired (c : Nat) : t.cellRetired c = s.cellRetired c := by
  unfold State.cellRetired State.regBit
  rw [h.regs R.SVC_RETIRED_CELL_LO (rk_above_crcPage (by decide) _), h.regs R.SVC_RETIRED_CELL_HI (rk_above_crcPage (by decide) _)]

theorem CrcOnly.dieLost (d : Nat) : t.dieLost d = s.dieLost d := by
  have hmodule : ∀ m ∈ List.range 6, (t.get (R.DL_STATUS_state d m) == 7) = (s.get (R.DL_STATUS_state d m) == 7) := by
    intro m hm
    have hlt : m < 6 := List.mem_range.1 hm
    rw [h.get (f := R.DL_STATUS_state d m) (rk_not_crcPage (by omega) (by decide))]
  rw [State.dieLost, State.dieLost, Bool.eq_iff_iff, List.all_eq_true, List.all_eq_true]
  exact forall₂_congr fun m hm => by rw [hmodule m hm]

theorem CrcOnly.mapStatus (a n : Nat) : t.mapStatus a n = s.mapStatus a n := by
  unfold State.mapStatus
  simp only [h.extEnd, h.diesOff, h.cellRetired, h.dieLost]

/-! Cell SRAM (R169–R172) -/

theorem CrcOnly.refusedBank (c off n : Nat) (cq : Nat × Nat) : t.refusedBank c off n cq = s.refusedBank c off n cq := by
  refine List.find?_congr fun b hb => ?_
  obtain ⟨p, -, rfl⟩ := List.mem_map.1 hb
  rw [State.owns, State.owns, h.get (ownFld_not_crcPage c _)]

theorem CrcOnly.unsettled (c off n : Nat) : t.unsettled c off n = s.unsettled c off n := by
  refine List.filter_congr fun b hb => ?_
  obtain ⟨p, -, rfl⟩ := List.mem_map.1 hb
  rw [h.bit (f := ownPending c _) (ownFld_not_crcPage c _)]

theorem CrcOnly.sramReady {c off n : Nat} {cq : Nat × Nat} (hs : sramReady s c off n cq) : sramReady t c off n cq := by
  obtain ⟨hn, howns, hsettled, hmarks⟩ := hs
  refine ⟨hn, by rw [h.refusedBank, howns], by rw [h.unsettled, hsettled], fun w hw => ?_⟩
  rw [State.marksAt, h.rest.same_marks (by simp)]
  exact hmarks w hw

/-! Vault memory: the shared cache, the diagnostic locks, PROCESSOR mode and the code (R200, R205, R271) -/

theorem CrcOnly.cached (a : Nat) : t.cached a = s.cached a := by
  have hrange : ∀ r : Nat, t.bit (R.SC_SHARED_BASE_valid r) = s.bit (R.SC_SHARED_BASE_valid r) ∧
      t.get (R.SC_SHARED_BASE_mib r) = s.get (R.SC_SHARED_BASE_mib r) ∧
      t.get (R.SC_SHARED_LIMIT_mib r) = s.get (R.SC_SHARED_LIMIT_mib r) := fun r =>
    ⟨h.bit (rk_above_crcPage (by decide) _), h.get (rk_above_crcPage (by decide) _), h.get (rk_above_crcPage (by decide) _)⟩
  simp only [State.cached, State.shared, hrange]

theorem CrcOnly.touchesLock (a n : Nat) : t.touchesLock a n = s.touchesLock a n := by
  have hlocked : ∀ g, t.diagLocked g = s.diagLocked g := by
    intro g
    unfold State.diagLocked
    dsimp only
    rw [h.bit (f := R.GD_DIAG_BASE_lock) (rk_above_crcPage (by decide) _),
      h.get (f := R.GD_DIAG_BASE_base) (rk_above_crcPage (by decide) _),
      h.get (f := R.GD_DIAG_LIMIT_limit) (rk_above_crcPage (by decide) _),
      h.bit (f := R.VLT_DIAG_BASE_lock _) (rk_not_crcPage (by omega) (by decide)),
      h.get (f := R.VLT_DIAG_BASE_base _) (rk_not_crcPage (by omega) (by decide)),
      h.get (f := R.VLT_DIAG_LIMIT_limit _) (rk_not_crcPage (by omega) (by decide))]
  simp only [State.touchesLock, State.lockBars, h.cached, hlocked]

theorem CrcOnly.pcHolds (b : Nat) : t.pcHolds b = s.pcHolds b := by
  have hmode : b % 8 < 8 := Nat.mod_lt _ (by decide)
  unfold State.pcHolds
  rw [h.get (f := R.BU_STATUS_state _ _) (rk_not_crcPage (by omega) (by omega)),
    h.bit (f := R.BU_STATUS_mode _ _) (rk_not_crcPage (by omega) (by omega)),
    h.bit (f := R.BU_MODE_pending _ _) (rk_not_crcPage (by omega) (by omega)),
    h.bit (f := R.BU_MODE_req _ _) (rk_not_crcPage (by omega) (by omega))]

theorem CrcOnly.cacheNeeds (a n : Nat) : t.cacheNeeds a n = s.cacheNeeds a n := by
  have hcache : t.cache = s.cache := h.rest.same_cache (by simp)
  unfold State.cacheNeeds State.line State.cacheAt
  rw [hcache]

theorem CrcOnly.holder (a n : Nat) : t.holder a n = s.holder a n := by
  have hpc : t.pcHolds = s.pcHolds := funext h.pcHolds
  unfold State.holder State.holders
  rw [hpc, h.cached, h.cacheNeeds]

theorem CrcOnly.wordSound {w : Nat} (hs : wordSound s w) : wordSound t w := by
  obtain ⟨hgood, hdevice⟩ := hs
  refine ⟨?_, ?_⟩
  · rw [State.decode, State.checkAt, h.rest.same_check (by simp)]
    exact hgood
  · rw [State.gdFailed, h.get (f := R.GD_STATUS_state _) (rk_above_crcPage (by omega) _)]
    exact hdevice

/-- Memory that a host reaches at once and reads without an error stays so. -/
theorem CrcOnly.memReady {p : Fin 2} {a n : Nat} (hs : memReady s (.host p) a n) : memReady t (.host p) a n := by
  obtain ⟨hn, hmap, hregion⟩ := hs
  refine ⟨hn, by rw [h.mapStatus, hmap], ?_⟩
  split at hregion
  case h_1 c off hr => exact h.sramReady hregion
  case h_2 v hr =>
    obtain ⟨hlock, hcached, hholder, hsound⟩ := hregion
    exact ⟨by rw [h.touchesLock, hlock], by rw [h.cached, hcached], by rw [h.holder, hholder], fun w hw => h.wordSound (hsound w hw)⟩
  case h_3 => exact hregion.elim

end
end Sys2Proof.Proofs

/-! A host's write of memory that it reaches at once, and the engine that snoops it: the published check values (R463, R464). -/

namespace Sys2Proof.Proofs
open Sys2Proof.Machine Sys2Proof.Claims

/-! The write leaves the registers of the engines -/

/-- Every register of the check-value engines keeps its value. -/
def crcKept (s t : State) : Prop := ∀ k, crcPage k → t.regsAt k = s.regsAt k

/-- A word of a vault that decodes without an error (R201). -/
def vaultSound (s : State) (w : Nat) : Prop := isExt w = false ∧ s.decode w = .good

theorem vaultSound_congr {s t : State} (h : t.check = s.check) {w : Nat} (hs : vaultSound s w) : vaultSound t w := by
  unfold vaultSound State.decode State.checkAt at hs ⊢
  rwa [h]

/-- Storing a word with fresh check bits leaves every sound word sound. -/
theorem pokeWord_vaultSound (w v : Nat) {s : State} {x : Nat} (h : vaultSound s x) : vaultSound ((pokeWord w v 0).run s) x := by
  obtain ⟨hext, hgood⟩ := h
  have hbytes : ((pokeBytes w (toLE 8 v)).run s).checkAt (x / 8) = s.checkAt (x / 8) :=
    (only_pokeBytes (W := fun u => ∃ k v, u = .mem k v) (toLE 8 v) w fun k v => ⟨k, v, rfl⟩).same (fun t => t.checkAt (x / 8))
      (by rintro u s ⟨k, v, rfl⟩; rfl) s
  refine ⟨hext, ?_⟩
  simp only [State.decode, pokeWord, Eff.run_all_cons, Eff.run_all_nil, Eff.run_upd]
  by_cases hx : x / 8 = w / 8
  · rw [hx, Upd.run_check_same]; rfl
  · rw [Upd.run_check_other _ _ hx, hbytes]; exact hgood

theorem pokeWord_regsAt (w v δ k : Nat) (s : State) : ((pokeWord w v δ).run s).regsAt k = s.regsAt k := by
  have honly : (pokeWord w v δ).Only fun u => (∃ k v, u = .mem k v) ∨ ∃ k v, u = .check k v :=
    (Eff.only_all_cons _ _).2 ⟨only_pokeBytes _ _ fun k v => .inl ⟨k, v, rfl⟩, .inr ⟨_, _, rfl⟩⟩
  exact honly.same (fun t => t.regsAt k) (by rintro u s (⟨k, v, rfl⟩ | ⟨k, v, rfl⟩) <;> rfl) s

/-- One word of a write of sound vault memory: it is stored, after a count of the narrow write when it is written in part (R186). -/
theorem dramWriteWords_cons {a w : Nat} {bs : List Byte} {s : State} (h : vaultSound s w) (ws : List Nat) (k : Nat → Eff) :
    ∃ t, (dramWriteWords a bs (w :: ws) ST_OK k).run s = (dramWriteWords a bs ws ST_OK k).run t ∧ crcKept s t ∧
      ∀ x, vaultSound s x → vaultSound t x := by
  obtain ⟨hext, hgood⟩ := h
  by_cases hcovers : coversWord w a bs.length = true
  · refine ⟨(pokeWord w (leNat (mergeWord [] w a bs)) 0).run s, ?_, fun k _ => pokeWord_regsAt _ _ _ _ _,
      fun x hx => pokeWord_vaultSound _ _ hx⟩
    simp [dramWriteWords, hcovers, hext]
  · let u := (addSat (R.VLT_RMW_CNT_narrow_writes (unitOf w / 8) (unitOf w % 8)) 1).run s
    have hcount : ¬ crcPage (R.VLT_RMW_CNT_narrow_writes (unitOf w / 8) (unitOf w % 8)).key := rk_not_crcPage (by omega) (by omega)
    have hregs : crcKept s u := fun k hk => addSat_other (fun he => hcount (he ▸ hk)) 1 s
    have hcheck : u.check = s.check := ((addSat_in (ps := [.regs]) _ _ (by simp)).changes s).same_check (by simp)
    have hword : ∀ k, (dramWord w k).run u = (k ST_OK (u.word w)).run u := fun k =>
      dramWord_good w u ⟨(vaultSound_congr hcheck ⟨hext, hgood⟩).2, by rw [hext, Bool.false_and]⟩ k
    refine ⟨(pokeWord w (leNat (mergeWord (toLE 8 (u.word w)) w a bs)) 0).run u, ?_,
      fun k hk => (pokeWord_regsAt _ _ _ _ _).trans (hregs k hk), fun x hx => pokeWord_vaultSound _ _ (vaultSound_congr hcheck hx)⟩
    simp only [dramWriteWords, hcovers, hext, Bool.not_false, Eff.run_seq, Eff.run_when_true, Bool.false_eq_true, if_false]
    rw [hword, if_pos rfl, Eff.run_seq]

theorem dramWriteWords_sound {a : Nat} {bs : List Byte} (ws : List Nat) (k : Nat → Eff) {s : State} (h : ∀ w ∈ ws, vaultSound s w) :
    ∃ t, (dramWriteWords a bs ws ST_OK k).run s = (k ST_OK).run t ∧ crcKept s t := by
  induction ws generalizing s with
  | nil => exact ⟨s, rfl, fun k _ => rfl⟩
  | cons w ws ih =>
    obtain ⟨u, hrun, hkept, hsound⟩ := dramWriteWords_cons (a := a) (bs := bs) (h w List.mem_cons_self) ws k
    obtain ⟨t, hrest, hkept'⟩ := ih fun x hx => hsound x (h x (List.mem_cons_of_mem _ hx))
    exact ⟨t, hrun.trans hrest, fun k hk => (hkept' k hk).trans (hkept k hk)⟩

theorem ite_ne_vault {c : Prop} [Decidable c] {x y : Region} {v : Nat} (hx : x ≠ .vault v) (hy : y ≠ .vault v) :
    (if c then x else y) ≠ .vault v := by
  split
  · exact hx
  · exact hy

/-- R23: the vaults lie below the first hole of the map. -/
theorem regionOf_vault {a v : Nat} (h : regionOf a = .vault v) : a < 0x0C00000000 := by
  by_contra hge
  refine absurd h ?_
  rw [regionOf, if_neg hge]
  refine ite_ne_vault nofun <| ite_ne_vault nofun <| ite_ne_vault nofun <| ite_ne_vault (ite_ne_vault nofun nofun) <|
    ite_ne_vault nofun <| ite_ne_vault (ite_ne_vault nofun nofun) <| ite_ne_vault nofun <|
    ite_ne_vault (ite_ne_vault nofun nofun) <| ite_ne_vault nofun <| ite_ne_vault ?_ nofun
  split <;> nofun

/-- R28: an access that the address map serves ends in the range in which it begins. -/
theorem sameRange_of_ok {s : State} {a n : Nat} (h : s.mapStatus a n = ST_OK) :
    sameRange (regionOf a) (regionOf (a + n - 1)) = true := by
  by_contra hne
  rw [Bool.not_eq_true] at hne
  simp only [State.mapStatus, hne, Bool.not_false, if_true] at h
  split at h <;> exact absurd h (by decide)

theorem vault_end {s : State} {a n v : Nat} (hr : regionOf a = .vault v) (hmap : s.mapStatus a n = ST_OK) :
    a + n - 1 < 0x0C00000000 := by
  have hsame := sameRange_of_ok hmap
  rw [hr] at hsame
  cases hlast : regionOf (a + n - 1) with
  | vault v' => exact regionOf_vault hlast
  | _ => rw [hlast] at hsame; cases hsame

theorem isExt_of_vault {a n w : Nat} (hend : a + n - 1 < 0x0C00000000) (hw : w ∈ wordsOf a n) : isExt w = false := by
  have hle : w ≤ a + n - 1 := by
    unfold wordsOf at hw
    split at hw
    · simp at hw
    · obtain ⟨i, hi, rfl⟩ := List.mem_map.1 hw
      have := List.mem_range.1 hi
      omega
  unfold isExt
  rw [Bool.and_eq_false_iff, decide_eq_false_iff_not]
  omega

/-- A host's write of memory that it reaches at once and that holds no error answers ST_OK. -/
theorem memWrite_ready {p : Fin 2} {a : Nat} {bs : List Byte} {s : State} (h : memReady s (.host p) a bs.length) (k : Nat → Nat → Eff) :
    ∃ t, (memWrite (.host p) .normal a bs k).run s = (k ST_OK 0).run t ∧ crcKept s t := by
  obtain ⟨hn, hmap, hregion⟩ := h
  split at hregion
  case h_1 c off hr =>
    obtain ⟨-, howns, hsettled, hmarks⟩ := hregion
    obtain ⟨t, hrun, -, -, hkept⟩ := sramWrite_good s c off bs _ (fun st => k st 0) howns hsettled hmarks
    have hregs : t.regs = s.regs := by
      unfold State.memKept at hkept
      rw [← hkept]
    refine ⟨t, ?_, fun j _ => by rw [State.regsAt, State.regsAt, hregs]⟩
    simp only [memWrite, memWriteAs, Eff.run_look, hmap, hr, ne_eq, not_true_eq_false, if_false]
    exact hrun
  case h_2 v hr =>
    obtain ⟨hlock, hcached, -, hsound⟩ := hregion
    have hend := vault_end hr hmap
    obtain ⟨t, hrun, hkept⟩ := dramWriteWords_sound (a := a) (bs := bs) (wordsOf a bs.length) (fun st => k st 0) (s := s)
      fun w hw => ⟨isExt_of_vault hend hw, (hsound w hw).1⟩
    refine ⟨t, ?_, hkept⟩
    simp only [memWrite, memWriteAs, drWriteAll, drWrite, dramWrite, Eff.run_look, hmap, hr, hlock, hcached, ne_eq, not_true_eq_false,
      if_false, Bool.false_eq_true]
    exact hrun
  case h_3 => exact hregion.elim

/-- Memory that is ready is held by no unit. -/
theorem holder_ready {s : State} {p : Fin 2} {a n : Nat} (h : memReady s (.host p) a n) : s.holder a n = none := by
  obtain ⟨-, -, hregion⟩ := h
  split at hregion
  case h_1 c off hr => simp [State.holder, State.holders, hr]
  case h_2 v hr => exact hregion.2.2.1
  case h_3 => exact hregion.elim

theorem holdOr_ready {s : State} {p : Fin 2} {a n : Nat} (h : memReady s (.host p) a n) (w : Option (List Byte)) (k : Eff) :
    (holdOr (.host p) a n w k).run s = k.run s := by
  simp [holdOr, holder_ready h]

/-- A write of a host's BAR2 inside the size that the host has set, of ready memory: the engines snoop it, and nothing that follows
writes their registers (R352, R464). -/
theorem bar2Write_ready {p : Fin 2} {a n : Nat} {bs : List Byte} {hit : Bool} {s : State} (hup : s.linkUp p = true)
    (hlen : bs.length ≤ 512) (h : memReady s (.host p) a bs.length) (hsize : a + bs.length ≤ 2 ^ (28 + s.bar2At p)) :
    crcKept ((snoop 2 0 p (at_ a bs)).run s) ((bar2Access p none a n (some bs) hit).run s) := by
  have hpass : (!s.linkUp p || bs.length == 0 || decide (s.bar2Size p < a + bs.length)) = false := by
    have hn : (bs.length == 0) = false := beq_false_of_ne h.1
    rw [hup, hn, State.bar2Size, decide_eq_false (not_lt.2 hsize)]
    rfl
  have hready := (snoop_crcOnly 2 0 p (at_ a bs) s).memReady h
  obtain ⟨t, hrun, hkept⟩ := memWrite_ready hready fun st _ => Eff.when (st != ST_OK) (hostFault p a st true true false)
  have hall : (bar2Access p none a n (some bs) hit).run s = t := by
    simp only [bar2Access, Eff.run_all_cons, Eff.run_all_nil, Eff.run_look, Eff.run_skip, hpass, Bool.false_eq_true, if_false,
      if_neg (show ¬ 512 < bs.length by omega), Eff.run_seq, holdOr_ready hready, hrun]
    rfl
  rw [hall]
  exact hkept

/-! One engine among those that snoop -/

/-- The registers of one engine keep their values. -/
def engineKept (e : Nat) (s t : State) : Prop := ∀ o < 0x100, t.regsAt (rk 0x1006 (o + e * 0x100)) = s.regsAt (rk 0x1006 (o + e * 0x100))

theorem engineKept_trans {e : Nat} {s t u : State} (h : engineKept e s t) (h' : engineKept e t u) : engineKept e s u :=
  fun o ho => (h' o ho).trans (h o ho)

theorem engineKept_get {e : Nat} {s t : State} (h : engineKept e s t) {f : Fld} {o : Nat} (hf : f.key = rk 0x1006 (o + e * 0x100))
    (ho : o < 0x100) : t.get f = s.get f := by rw [State.get, State.get, hf, h o ho]

/-- What one engine takes changes no register of another. -/
theorem crcTake_engineKept {e e' : Nat} (hne : e ≠ e') (bytes : List (Nat × Byte)) (s : State) :
    engineKept e s ((crcTake e' bytes).run s) := by
  intro o ho
  have hvalue : rk 0x1006 (o + e * 0x100) ≠ R.CRC_VALUE e' := by simp only [R.CRC_VALUE, rk]; omega
  have hstatus : rk 0x1006 (o + e * 0x100) ≠ R.CRC_STATUS e' := by simp only [R.CRC_STATUS, rk]; omega
  simp only [crcTake, Eff.run_look, Eff.run_seq]
  rw [addWrap_other (f := R.CRC_STATUS_bytes e') hstatus, put_other (f := R.CRC_VALUE_value e') hvalue]

/-- Among effects of which each leaves the registers of every other engine, the engine `e` sees its own alone. -/
theorem each_engine {es : List Nat} (hnodup : es.Nodup) {e : Nat} (he : e ∈ es) (f : Nat → Eff)
    (hf : ∀ e', e ≠ e' → ∀ s, engineKept e s ((f e').run s)) (s : State) :
    ∃ u, engineKept e s u ∧ engineKept e ((f e).run u) ((Eff.each es f).run s) := by
  have hrest : ∀ xs : List Nat, e ∉ xs → ∀ t, engineKept e t ((Eff.each xs f).run t) := by
    intro xs hxs
    induction xs with
    | nil => exact fun t o _ => rfl
    | cons x xs ih =>
      obtain ⟨hx, hxs⟩ := not_or.1 (mt List.mem_cons.2 hxs)
      exact fun t => engineKept_trans (hf x hx t) (ih hxs _)
  induction es generalizing s with
  | nil => exact absurd he List.not_mem_nil
  | cons x xs ih =>
    obtain ⟨hx, hxs⟩ := List.nodup_cons.1 hnodup
    obtain rfl | hin := List.mem_cons.1 he
    · exact ⟨s, fun o _ => rfl, hrest xs hx _⟩
    · obtain ⟨u, hu, hend⟩ := ih hxs hin ((f x).run s)
      have hne : e ≠ x := fun heq => hx (heq ▸ hin)
      exact ⟨u, engineKept_trans (hf x hne s) hu, hend⟩

theorem crcResult_engineKept {e : Nat} {s t : State} (h : engineKept e s t) : t.crcResult e = s.crcResult e :=
  crcResult_congr (h 0 (by decide)) (engineKept_get h (f := R.CRC_VALUE_value e) (o := 0x18) rfl (by decide))

/-- The running register after bytes (R463). -/
def crcRun (w poly : Nat) (refin : Bool) (reg : Nat) (bs : List Byte) : Nat := bs.foldl (fun r b => crcByte w poly refin r b.toNat) reg

theorem at_bytes (a : Nat) (bs : List Byte) : (at_ a bs).map Prod.snd = bs := by
  rw [at_, List.map_map]
  refine List.ext_getElem (by simp) fun i _ hi => ?_
  simp [hi]

theorem at_length (a : Nat) (bs : List Byte) : (at_ a bs).length = bs.length := by simp [at_]

/-- An engine without a window takes every byte of its stream (R464). -/
theorem crcTake_regs {e a : Nat} {bs : List Byte} {s : State} (hwin : s.bit (R.CRC_CTRL_win_en e) = false) :
    let t := (crcTake e (at_ a bs)).run s
    let reg := crcRun (s.get (R.CRC_CFG_width e)) (s.get (R.CRC_POLY_value e)) (s.bit (R.CRC_CFG_refin e)) (s.get (R.CRC_VALUE_value e)) bs
    t.crcResult e = crcResult (s.get (R.CRC_CFG_width e)) (reg % 2 ^ 64) (s.bit (R.CRC_CFG_refout e)) (s.bit (R.CRC_CFG_final_inv e)) ∧
    t.get (R.CRC_STATUS_bytes e) = (s.get (R.CRC_STATUS_bytes e) + bs.length) % 2 ^ (R.CRC_STATUS_bytes e).w := by
  have hfits : (R.CRC_VALUE_value e).lo + (R.CRC_VALUE_value e).w ≤ 64 := le_refl 64
  have hcount : (R.CRC_STATUS_bytes e).lo + (R.CRC_STATUS_bytes e).w ≤ 64 := show 0 + 48 ≤ 64 by decide
  have hcfg : R.CRC_CFG e ≠ R.CRC_STATUS e := crcKey_ne (by decide) e
  have hcfg' : R.CRC_CFG e ≠ R.CRC_VALUE e := crcKey_ne (by decide) e
  have hvalue : R.CRC_VALUE e ≠ R.CRC_STATUS e := crcKey_ne (by decide) e
  have hreg : (at_ a bs).foldl (fun r b => crcByte (s.get (R.CRC_CFG_width e)) (s.get (R.CRC_POLY_value e)) (s.bit (R.CRC_CFG_refin e))
      r b.2.toNat) (s.get (R.CRC_VALUE_value e)) =
      crcRun (s.get (R.CRC_CFG_width e)) (s.get (R.CRC_POLY_value e)) (s.bit (R.CRC_CFG_refin e)) (s.get (R.CRC_VALUE_value e)) bs := by
    conv_rhs => rw [crcRun, ← at_bytes a bs, List.foldl_map]
  simp only [crcTake, Eff.run_look, hwin, Bool.false_eq_true, if_false, hreg, at_length, Eff.run_seq]
  refine ⟨?result, ?bytes⟩
  case result =>
    rw [addWrap, Eff.run_look, crcResult_put hcfg hvalue]
    have hset : ∀ f : Fld, f.key = R.CRC_CFG e → ∀ x, ((put (R.CRC_VALUE_value e) x).run s).get f = s.get f :=
      fun f hf x => congrArg f.read (put_other (hf ▸ hcfg') x s)
    simp only [State.crcResult, put_same _ _ _ hfits, State.bit, hset (R.CRC_CFG_width e) rfl, hset (R.CRC_CFG_refout e) rfl,
      hset (R.CRC_CFG_final_inv e) rfl]
    rfl
  case bytes =>
    rw [addWrap_same _ _ _ hcount, get_put_apart (.inl hvalue.symm) hcount]

/-- The nine bytes "123456789". -/
def nineDigits : List Byte := [0x31, 0x32, 0x33, 0x34, 0x35, 0x36, 0x37, 0x38, 0x39]

/-- The published configurations: width, polynomial, initial value, reflection of input and output, final inversion; and the check
value (R463). -/
def publishedRows : List (Nat × Nat × Nat × Bool × Bool × Nat) := [
  (8, 0x07, 0, false, false, 0xF4), (16, 0x1021, 0xFFFF, false, false, 0x29B1),
  (32, 0x04C11DB7, 0xFFFFFFFF, true, true, 0xCBF43926), (32, 0x1EDC6F41, 0xFFFFFFFF, true, true, 0xE3069283),
  (64, 0x42F0E1EBA9EA3693, 0xFFFFFFFFFFFFFFFF, true, true, 0x995DC9BBDF1939FA)]

theorem crcResult_publishedRows : ∀ row ∈ publishedRows,
    crcResult row.1 (crcRun row.1 row.2.1 row.2.2.2.1 row.2.2.1 nineDigits % 2 ^ 64) row.2.2.2.1 row.2.2.2.2.1 = row.2.2.2.2.2 := by
  intro row hrow
  simp only [publishedRows, List.mem_cons, List.not_mem_nil, or_false] at hrow
  rcases hrow with rfl | rfl | rfl | rfl | rfl <;> decide +kernel

/-- What engine `i` takes when the host of port `p` writes bytes to its BAR2, by the settings that `s` holds (R464). -/
def bar2Takes (s : State) (p : Fin 2) (bytes : List (Nat × Byte)) (i : Nat) : Eff :=
  Eff.when (s.bit (R.CRC_CTRL_running i) && s.get (R.CRC_CFG_source i) == 2 && s.get (R.CRC_CFG_instance i) == p &&
    s.get (R.CRC_CFG_dir i) == 0) (crcTake i bytes)

theorem snoop_bar2Write (p : Fin 2) (bytes : List (Nat × Byte)) (s : State) :
    (snoop 2 0 p bytes).run s = (Eff.each (List.range 16) (bar2Takes s p bytes)).run s := by
  simp only [snoop, Eff.run_look, Nat.reduceBEq, Bool.false_or, Bool.true_or, Bool.not_true]
  rfl

/-- An engine that snoops the writes of a port takes from what the port's host writes; the other engines leave its registers. -/
theorem bar2Write_engine {p : Fin 2} {e : Fin 16} {s : State} (bytes : List (Nat × Byte))
    (hrun : s.bit (R.CRC_CTRL_running e) = true) (hsource : s.get (R.CRC_CFG_source e) = 2) (hdir : s.get (R.CRC_CFG_dir e) = 0)
    (hinst : s.get (R.CRC_CFG_instance e) = p) :
    ∃ u, engineKept e s u ∧ engineKept e ((crcTake e bytes).run u) ((snoop 2 0 p bytes).run s) := by
  have hother : ∀ i, e.val ≠ i → ∀ t, engineKept e t ((bar2Takes s p bytes i).run t) := by
    intro i hne t
    rw [bar2Takes, Eff.run_when]
    split
    · exact crcTake_engineKept hne _ t
    · exact fun o _ => rfl
  have hown : bar2Takes s p bytes e = crcTake e bytes := by simp [bar2Takes, hrun, hsource, hdir, hinst, Eff.when]
  rw [snoop_bar2Write, ← hown]
  exact each_engine (List.nodup_range (n := 16)) (List.mem_range.2 e.isLt) _ hother s

/-- R463: an engine in a published configuration gives the published value. -/
theorem checkValueTable : Claims.CheckValueTable := by
  intro e p x n hit s hpow text rows row hrow hwidth hpoly hvalue hrefin hrefout hinv hrun hwin hsource hdir hinst hup hready hsize
  have hkept := bar2Write_ready (hit := hit) (n := n.toNat) hup (show text.length ≤ 512 by decide) hready hsize
  obtain ⟨u, hu, hsnoop⟩ := bar2Write_engine (at_ x.toNat text) hrun hsource hdir hinst
  have hend : engineKept e ((crcTake e (at_ x.toNat text)).run u) ((bar2Access p none x.toNat n.toNat (some text) hit).run s) :=
    engineKept_trans hsnoop fun o ho => hkept _ (by simp only [crcPage, rk]; omega)
  have hcfg : ∀ f : Fld, f.key = R.CRC_CFG e → u.get f = s.get f := fun f hf => engineKept_get hu (o := 0) hf (by decide)
  obtain ⟨hresult, hbytes⟩ := crcTake_regs (e := e) (a := x.toNat) (bs := text) (s := u) (by
    rw [State.bit, engineKept_get hu (f := R.CRC_CTRL_win_en e) (o := 0x40) rfl (by decide)]
    exact hwin)
  refine yields_done (p := bar2Access p none x.toNat n.toNat (some text) hit) rfl hpow ⟨?result, ?bytes⟩
  case result =>
    have hwidth' : u.get (R.CRC_CFG_width e) = row.1 := (hcfg _ rfl).trans hwidth
    have hpoly' : u.get (R.CRC_POLY_value e) = row.2.1 := (engineKept_get hu (o := 8) rfl (by decide)).trans hpoly
    have hvalue' : u.get (R.CRC_VALUE_value e) = row.2.2.1 := (engineKept_get hu (o := 0x18) rfl (by decide)).trans hvalue
    have hrefin' : u.bit (R.CRC_CFG_refin e) = row.2.2.2.1 := by rw [State.bit, hcfg _ rfl]; exact hrefin
    have hrefout' : u.bit (R.CRC_CFG_refout e) = row.2.2.2.1 := by rw [State.bit, hcfg _ rfl]; exact hrefout
    have hinv' : u.bit (R.CRC_CFG_final_inv e) = row.2.2.2.2.1 := by rw [State.bit, hcfg _ rfl]; exact hinv
    rw [crcResult_engineKept hend, hresult, hwidth', hpoly', hvalue', hrefin', hrefout', hinv']
    exact crcResult_publishedRows row hrow
  case bytes =>
    rw [engineKept_get hend (f := R.CRC_STATUS_bytes e) (o := 0x48) rfl (by decide), hbytes,
      engineKept_get hu (f := R.CRC_STATUS_bytes e) (o := 0x48) rfl (by decide)]
    rfl

/-- Settles O50: what a command leaves is what its bit of CRC_CTRL does; and of the effects of a host's write only what the engine
itself takes reaches its registers, so its result is the check-value arithmetic over the nine bytes (R463–R466). -/
theorem checkValueEngines : Obligations.CheckValueEngines := ⟨checkEngines, checkValueTable⟩

end Sys2Proof.Proofs

/-! Every command is an effect, so what every primitive update keeps is kept by every step: the queue, and the canonical form of
every store. -/

namespace Sys2Proof.Proofs
open Sys2Proof.Machine Sys2Proof.Claims

theorem done_runs (p : Eff) (s : State) : ∃ q : Eff, p.done s = .next (q.run s) := by
  by_cases h : s.power = .off
  · exact ⟨.skip, Eff.done_off h⟩
  · exact ⟨p, Eff.done_on h⟩

/-- Every command is an effect. -/
theorem exec_runs (c : Instr) (s : State) : ∃ q : Eff, exec c s = .next (q.run s) := by
  cases c
  case powerApply => exact ⟨_, rfl⟩
  all_goals exact done_runs _ s

/-- Settles O2: a command is an effect, and no effect touches the queue. -/
theorem commandsKeepQueue : Obligations.CommandsKeepQueue := by
  intro c s
  obtain ⟨q, hq⟩ := exec_runs c s
  exact ⟨_, hq, Eff.run_pending q s⟩

/-- Settles O1: the front command is taken off the queue before it runs. -/
theorem stepRunsFront : Obligations.StepRunsFront := fun _ _ _ => rfl

/-- R475: every command but POWER_APPLY asks for power first. -/
theorem offModuleIgnores : Claims.OffModuleIgnores := by
  intro c s hoff hc
  cases c
  case powerApply => exact absurd rfl hc
  all_goals exact Eff.done_off hoff

theorem step_empty {s : State} (h : s.pending = []) : step s = .next (idle s) := by
  unfold step
  split
  · rfl
  · next hp => exact absurd (h.symm.trans hp) nofun

/-- Settles O5: an empty queue lets 10 ns pass; without power every command but POWER_APPLY is passed over. -/
theorem idleAndOffSteps : Obligations.IdleAndOffSteps := ⟨fun _ h => step_empty h, offModuleIgnores⟩

/-! The canonical form of one store at a time -/

/-- The canonical form of the store that is the named part; a part that is no store has none to keep. -/
def partWf (s : State) : Part → Bool
  | .regs => Map.wf dfltRegs s.regs
  | .shadows => Map.wf dfltShadows s.shadows
  | .mem => Map.wf dfltMem s.mem
  | .check => Map.wf dfltCheck s.check
  | .marks => Map.wf dfltMarks s.marks
  | .hostMem => Map.wf dfltHostMem s.hostMem
  | .msix => Map.wf dfltMsix s.msix
  | .mon => Map.wf dfltMon s.mon
  | .cache => Map.wf dfltCache s.cache
  | .tagLost => Map.wf dfltTagLost s.tagLost
  | .tracker => Map.wf dfltTracker s.tracker
  | .spares => Map.wf dfltSpares s.spares
  | .held => Map.wf dfltHeld s.held
  | .granted => Map.wf dfltGranted s.granted
  | .heldParts => Map.wf dfltHeldParts s.heldParts
  | .rxWait => Map.wf dfltRxWait s.rxWait
  | .hopBuf => Map.wf dfltHopBuf s.hopBuf
  | .parityCount => Map.wf dfltParityCount s.parityCount
  | .gwSeq => Map.wf dfltGwSeq s.gwSeq
  | .gwSpray => Map.wf dfltGwSpray s.gwSpray
  | .waiters => Map.wf dfltWaiters s.waiters
  | .waitSince => Map.wf dfltWaitSince s.waitSince
  | .buRound => Map.wf dfltBuRound s.buRound
  | .relSeen => Map.wf dfltRelSeen s.relSeen
  | .loads => Map.wf dfltLoads s.loads
  | .icache => Map.wf dfltIcache s.icache
  | .rrLast => Map.wf dfltRrLast s.rrLast
  | .thrStep => Map.wf dfltThrStep s.thrStep
  | .vecQ => Map.wf dfltVecQ s.vecQ
  | .qeQ => Map.wf dfltQeQ s.qeQ
  | .qeSubs => Map.wf dfltQeSubs s.qeSubs
  | .qeFlush => Map.wf dfltQeFlush s.qeFlush
  | .routeSlot => Map.wf dfltRouteSlot s.routeSlot
  | .stallSince => Map.wf dfltStallSince s.stallSince
  | .passQ => Map.wf dfltPassQ s.passQ
  | .feedAt => Map.wf dfltFeedAt s.feedAt
  | .refRow => Map.wf dfltRefRow s.refRow
  | .scrubRun => Map.wf dfltScrubRun s.scrubRun
  | .buQ => Map.wf dfltBuQ s.buQ
  | .buBuf => Map.wf dfltBuBuf s.buBuf
  | .buBook => Map.wf dfltBuBook s.buBook
  | .buSlot => Map.wf dfltBuSlot s.buSlot
  | .yieldAt => Map.wf dfltYieldAt s.yieldAt
  | .kvtQ => Map.wf dfltKvtQ s.kvtQ
  | .kvtEnd => Map.wf dfltKvtEnd s.kvtEnd
  | .kvtMigQ => Map.wf dfltKvtMigQ s.kvtMigQ
  | .kvtMoves => Map.wf dfltKvtMoves s.kvtMoves
  | .kvtFrees => Map.wf dfltKvtFrees s.kvtFrees
  | .kvtStaged => Map.wf dfltKvtStaged s.kvtStaged
  | .gdRetrain => Map.wf dfltGdRetrain s.gdRetrain
  | .fetchAt => Map.wf dfltFetchAt s.fetchAt
  | .cqAgg => Map.wf dfltCqAgg s.cqAgg
  | .linkDown => Map.wf dfltLinkDown s.linkDown
  | .pmKey => Map.wf dfltPmKey s.pmKey
  | .pmFlash => Map.wf dfltPmFlash s.pmFlash
  | .pmMark => Map.wf dfltPmMark s.pmMark
  | .seqs => Map.wf dfltSeqs s.seqs
  | .dispatchLog => Map.wf dfltDispatchLog s.dispatchLog
  | .franks => Map.wf dfltFranks s.franks
  | .agreed => Map.wf dfltAgreed s.agreed
  | .perst => Map.wf dfltPerst s.perst
  | .dlEnd => Map.wf dfltDlEnd s.dlEnd
  | .dlFail => Map.wf dfltDlFail s.dlFail
  | .dlOld => Map.wf dfltDlOld s.dlOld
  | .overAt => Map.wf dfltOverAt s.overAt
  | .stepEnd => Map.wf dfltStepEnd s.stepEnd
  | .stepAt => Map.wf dfltStepAt s.stepAt
  | .gwNext => Map.wf dfltGwNext s.gwNext
  | .gwHold => Map.wf dfltGwHold s.gwHold
  | .gwRefused => Map.wf dfltGwRefused s.gwRefused
  | .xqDesc => Map.wf dfltXqDesc s.xqDesc
  | .bar2 => Map.wf dfltBar2 s.bar2
  | .suspects => Map.wf dfltSuspects s.suspects
  | .disagreed => Map.wf dfltDisagreed s.disagreed
  | .soundings => Map.wf dfltSoundings s.soundings
  | .residuals => Map.wf dfltResiduals s.residuals
  | .foretold => Map.wf dfltForetold s.foretold
  | .rotAt => Map.wf dfltRotAt s.rotAt
  | .ceCount => Map.wf dfltCeCount s.ceCount
  | _ => true

/-- The parts that are stores, without the registers. -/
def furtherStores : List Part :=
  [.shadows, .mem, .check, .marks, .hostMem, .msix, .mon, .cache, .tagLost, .tracker, .spares, .held, .granted,
   .heldParts, .rxWait, .hopBuf, .parityCount, .gwSeq, .gwSpray, .waiters, .waitSince, .buRound, .relSeen, .loads,
   .icache, .rrLast, .thrStep, .vecQ, .qeQ, .qeSubs, .qeFlush, .routeSlot, .stallSince, .passQ, .feedAt, .refRow,
   .scrubRun, .buQ, .buBuf, .buBook, .buSlot, .yieldAt, .kvtQ, .kvtEnd, .kvtMigQ, .kvtMoves, .kvtFrees, .kvtStaged,
   .gdRetrain, .fetchAt, .cqAgg, .linkDown, .pmKey, .pmFlash, .pmMark, .seqs, .dispatchLog, .franks, .agreed, .perst,
   .dlEnd, .dlFail, .dlOld, .overAt, .stepEnd, .stepAt, .gwNext, .gwHold, .gwRefused, .xqDesc, .bar2, .suspects,
   .disagreed, .soundings, .residuals, .foretold, .rotAt, .ceCount]

theorem wf_eq_foldl (s : State) : s.wf = furtherStores.foldl (fun b p => b && partWf s p) (partWf s .regs) := by
  simp only [State.wf, furtherStores, List.foldl_cons, List.foldl_nil, partWf]

theorem foldl_and_eq_all {α : Type} (f : α → Bool) (xs : List α) (b : Bool) :
    xs.foldl (fun b x => b && f x) b = (b && xs.all f) := by
  induction xs generalizing b with
  | nil => simp
  | cons x xs ih => rw [List.foldl_cons, ih, List.all_cons, Bool.and_assoc]

theorem wf_iff_parts (s : State) : s.wf = true ↔ ∀ p, partWf s p = true := by
  rw [wf_eq_foldl, foldl_and_eq_all, Bool.and_eq_true, List.all_eq_true]
  refine ⟨fun ⟨hregs, hrest⟩ p => ?_, fun h => ⟨h _, fun p _ => h p⟩⟩
  cases p
  case regs => exact hregs
  all_goals
    first
    | rfl
    | exact hrest _ (by simp [furtherStores])

theorem partWf_congr {s t : State} {p : Part} (h : t.val p = s.val p) : partWf t p = partWf s p := by
  cases p
  all_goals
    first
    | rfl
    | exact congrArg (Map.wf _) (eq_of_heq (Sigma.mk.inj h).2)

/-- A primitive update writes or drops entries of its store. -/
theorem partWf_run (u : Upd) {s : State} (h : partWf s u.part = true) : partWf (u.run s) u.part = true := by
  cases u
  all_goals
    first
    | exact Map.wf_set _ _ _ _ h
    | exact Map.wf_drop _ _ _ h
    | rfl

theorem wf_run (u : Upd) (s : State) (h : s.wf = true) : (u.run s).wf = true := by
  rw [wf_iff_parts] at h ⊢
  intro p
  by_cases hp : p = u.part
  · exact hp ▸ partWf_run u (hp ▸ h p)
  · rw [partWf_congr (u.val_other s p hp)]
    exact h p

/-- Settles O3: a step runs an effect, and every primitive update keeps every store canonical. -/
theorem stepKeepsCanonicalForm : Obligations.StepKeepsCanonicalForm := by
  intro s t hwf hstep
  have hkeeps : ∀ (q : Eff) (u : State), u.wf = true → (q.run u).wf = true := fun q u => q.run_keeps _ wf_run u
  unfold step at hstep
  split at hstep
  · obtain rfl : idle s = t := Host.Outcome.next.inj hstep
    exact hkeeps _ _ hwf
  · next c rest hp =>
    obtain ⟨q, hq⟩ := exec_runs c { s with pending := rest }
    obtain rfl : q.run { s with pending := rest } = t := Host.Outcome.next.inj (hq.symm.trans hstep)
    exact hkeeps _ _ hwf

/-- Settles O4: an empty store is canonical. -/
theorem resetCanonicalForm : Obligations.ResetCanonicalForm := rfl

end Sys2Proof.Proofs

/-! The state after power-on reset. -/

namespace Sys2Proof.Proofs
open Sys2Proof.Machine Sys2Proof.Claims

/-- R222: the duty of every bank unit. -/
theorem reset_duty : ∀ u < 1024, State.reset.get (R.BU_DUTY_duty (u / 8) (u % 8)) = 16 := by decide +kernel

/-- R396: the hash map of every die. -/
theorem reset_hash : ∀ d < 8, ∀ k < 48, State.reset.hashOf d k = k % 6 := by decide +kernel

/-- R160: every thread is parked. -/
theorem reset_thr : ∀ c < 128, ∀ th < 16, State.reset.thr c th = THR_PARKED := by decide +kernel

/-- Settles O58: an empty store of registers reads the table's reset values. -/
theorem resetState : Obligations.ResetState := by
  unfold Obligations.ResetState
  have hwindow : ∀ cls < 7, State.reset.get (R.SVC_CE_CFG_window_s cls) = 3600 := by decide +kernel
  have hwarn : (List.range 7).map (fun cls => State.reset.get (R.SVC_CE_CFG_warn cls)) = [64, 256, 16, 16, 4, 4096, 1024] := by
    decide +kernel
  have hreplace : (List.range 7).map (fun cls => State.reset.get (R.SVC_CE_CFG_replace cls)) =
      [1024, 4096, 256, 256, 64, 65535, 65535] := by decide +kernel
  have hports : ∀ p < 2, State.reset.linkUp p = false ∧ State.reset.bar2At p = 0 ∧ State.reset.qpState p 0 = 0 := by
    decide +kernel
  have hvalues : State.reset.get R.PWR_LIMIT_limit_w = 2600 ∧ State.reset.get R.THM_GRACE_grace_ms = 20 ∧
      State.reset.get R.TIDE_STATUS_state = 0 ∧ State.reset.get R.CHT_STATUS_state = CHT_EMPTY := by decide +kernel
  obtain ⟨hlimit, hgrace, htide, hchart⟩ := hvalues
  exact ⟨rfl, rfl, rfl, rfl, rfl, rfl, rfl, fun _ => rfl, fun _ => rfl, hlimit, hgrace, htide, hchart, hwindow, hwarn, hreplace,
    reset_hash, reset_duty, hports, reset_thr⟩

end Sys2Proof.Proofs

/-! Which registers and parts an effect may write at most, and what a field reads after it. -/

namespace Sys2Proof.Proofs
open Sys2Proof.Machine Sys2Proof.Claims

/-! The scope of an effect -/

/-- The key lies outside the registers in which events are recorded. -/
def farKey (k : Nat) : Prop := (k < 0x10030000 ∨ 0x10050000 ≤ k) ∧ k ≠ 0x100B0000

/-- One of the listed registers. -/
def oneOf (keys : List Nat) (k : Nat) : Prop := k ∈ keys

/-- One of the listed registers, or one in which events are recorded. -/
def oneOfQuiet (keys : List Nat) (k : Nat) : Prop := k ∈ keys ∨ ¬ farKey k

/-- The update writes a listed part, or a register whose key satisfies `K`. -/
def Upd.within (ps : List Part) (K : Nat → Prop) : Upd → Prop
  | .regs k _ => K k
  | .regsDrop p => ∀ k, p k = true → K k
  | u => u.part ∈ ps

theorem Upd.within_part {ps : List Part} {K : Nat → Prop} {u : Upd} (h : Upd.within ps K u) : u.part ∈ Part.regs :: ps := by
  cases u
  case regs => exact List.mem_cons_self
  case regsDrop => exact List.mem_cons_self
  all_goals exact List.mem_cons_of_mem _ h

theorem Map.get_drop {α : Type} (d : Nat → α) {p : Nat → Bool} {k : Nat} (h : p k = false) (m : Map α) :
    Map.get d (Map.drop p m) k = Map.get d m k := by
  induction m with
  | nil => rfl
  | cons e rest ih =>
    obtain ⟨a, v⟩ := e
    by_cases ha : p a = true
    · have hne : a ≠ k := fun he => by rw [he, h] at ha; cases ha
      rw [Map.drop, List.filter_cons_of_neg (by simpa using ha), Map.get, if_neg hne]
      exact ih
    · rw [Map.drop, List.filter_cons_of_pos (by simpa using ha), Map.get, Map.get]
      split
      · rfl
      · exact ih

section
variable {ps : List Part} {K : Nat → Prop} {p : Eff} (h : p.Only (Upd.within ps K)) (s : State)
include h

/-- Nothing changes but the registers and the listed parts. -/
theorem within_changes : changesOnly (.regs :: ps) s (p.run s) :=
  Eff.In.changes ⟨h.mono fun _ hu => Upd.within_part hu⟩ s

theorem within_regsAt {k : Nat} (hk : ¬ K k) : (p.run s).regsAt k = s.regsAt k := by
  refine h.same (fun t => t.regsAt k) (fun u t hu => ?_) s
  cases u
  case regs j v => exact Upd.run_regs_other j k (fun he => hk (he ▸ hu)) v t
  case regsDrop q =>
    have hq : q k = false := by
      cases hq : q k
      · rfl
      · exact absurd (hu k hq) hk
    exact Map.get_drop dfltRegs hq t.regs
  all_goals rfl

theorem within_get {f : Fld} (hf : ¬ K f.key) : (p.run s).get f = s.get f := congrArg f.read (within_regsAt h s hf)

end

theorem within_keepsRegs {ps : List Part} {keys : List Nat} {p : Eff} (h : p.Only (Upd.within ps (oneOf keys))) (s : State) :
    keepsRegs keys s (p.run s) := fun _ hk => within_regsAt h s hk

theorem within_keepsQuiet {ps : List Part} {keys : List Nat} {p : Eff} (h : p.Only (Upd.within ps (oneOfQuiet keys))) (s : State) :
    keepsQuiet keys s (p.run s) := by
  intro k hfar hpwr hk
  refine within_regsAt h s ?_
  rintro (hin | hnear)
  · exact hk hin
  · exact hnear ⟨hfar, hpwr⟩

section
variable {ps : List Part} {K : Nat → Prop}

@[simp] theorem within_putReg (k : Nat) (v : Word) : (putReg k v).Only (Upd.within ps K) ↔ K k := Iff.rfl

@[simp] theorem within_put (f : Fld) (x : Nat) : (put f x).Only (Upd.within ps K) ↔ K f.key :=
  ⟨fun h => h State.reset, fun h => only_put f x fun _ => h⟩

@[simp] theorem within_putBit (f : Fld) (b : Bool) : (putBit f b).Only (Upd.within ps K) ↔ K f.key := within_put f _

@[simp] theorem within_putRegBit (k i : Nat) (b : Bool) : (putRegBit k i b).Only (Upd.within ps K) ↔ K k := within_put ⟨k, i, 1⟩ _

@[simp] theorem within_addSat (f : Fld) (n : Nat) : (addSat f n).Only (Upd.within ps K) ↔ K f.key :=
  ⟨fun h => h State.reset State.reset, fun h => only_addSat f n fun _ => h⟩

@[simp] theorem within_addWrap (f : Fld) (n : Nat) : (addWrap f n).Only (Upd.within ps K) ↔ K f.key :=
  ⟨fun h => h State.reset State.reset, fun h => only_addWrap f n fun _ => h⟩

theorem within_send (o : Out) (h : Part.out ∈ ps) : (send o).Only (Upd.within ps K) := fun _ => h

/-- The parts that telling of events writes. -/
def tells (ps : List Part) : Prop := Part.msix ∈ ps ∧ Part.mgmtQ ∈ ps ∧ Part.out ∈ ps

theorem Upd.event_within {lo : Nat} {u : Upd} (hlo : 0x10030000 ≤ lo) (hps : tells ps) (hK : ∀ k, ¬ farKey k → K k)
    (h : u.event lo) : Upd.within ps K u := by
  obtain ⟨hmsix, hmgmt, hout⟩ := hps
  cases u
  case regs k v =>
    refine hK k fun hfar => ?_
    simp only [Upd.event] at h
    simp only [farKey] at hfar
    omega
  case msix => exact hmsix
  case mgmtQ => exact hmgmt
  case out => exact hout
  all_goals exact h.elim

theorem evFire_within {keys : List Nat} (src : Nat) (hps : tells ps) : (evFire src).Only (Upd.within ps (oneOfQuiet keys)) :=
  (evFire_event src).mono fun _ => Upd.event_within (by decide) hps fun _ hk => .inr hk

theorem evLevel_within {keys : List Nat} {src : Nat} (hs : src < 2048) (b : Bool) (hps : tells ps) :
    (evLevel src b).Only (Upd.within ps (oneOfQuiet keys)) :=
  (evLevel_event src b hs).mono fun _ => Upd.event_within (le_refl _) hps fun _ hk => .inr hk

end

/-! What a field reads -/

theorem get_addWrap_apart {f g : Fld} (h : apart f g) (hg : g.lo + g.w ≤ 64) (n : Nat) (s : State) :
    ((addWrap f n).run s).get g = s.get g := get_put_apart h hg _ s

theorem get_putReg_same (f : Fld) (v : Word) (s : State) : ((putReg f.key v).run s).get f = f.read v := by
  rw [State.get, putReg_same]

theorem get_putReg_other {f : Fld} {k : Nat} (h : f.key ≠ k) (v : Word) (s : State) : ((putReg k v).run s).get f = s.get f :=
  congrArg f.read (putReg_other h v s)

theorem regsAt_upd {u : Upd} (h : u.part ≠ .regs) (k : Nat) (s : State) : (u.run s).regsAt k = s.regsAt k := by
  cases u
  case regs => exact absurd rfl h
  case regsDrop => exact absurd rfl h
  all_goals rfl

theorem get_upd {u : Upd} (h : u.part ≠ .regs) (f : Fld) (s : State) : (u.run s).get f = s.get f :=
  congrArg f.read (regsAt_upd h f.key s)

theorem get_evLevel {f : Fld} {src : Nat} (hs : src < 2048) (hf : farKey f.key) (b : Bool) (s : State) :
    ((evLevel src b).run s).get f = s.get f := congrArg f.read ((evLevel_event src b hs).quiet hf s)

theorem regsAt_evLevel {k src : Nat} (hs : src < 2048) (hk : farKey k) (b : Bool) (s : State) :
    ((evLevel src b).run s).regsAt k = s.regsAt k := (evLevel_event src b hs).quiet hk s

theorem regsAt_evFire {k : Nat} (hk : farKey k) (src : Nat) (s : State) : ((evFire src).run s).regsAt k = s.regsAt k :=
  (evFire_event src).quiet ⟨hk.1.imp_left fun h => by omega, hk.2⟩ s

theorem get_evFire_far {f : Fld} (h : farKey f.key) (src : Nat) (s : State) : ((evFire src).run s).get f = s.get f :=
  congrArg f.read (regsAt_evFire h src s)

theorem put_same_of_lt {f : Fld} {x : Nat} (h : f.lo + f.w ≤ 64) (hx : x < 2 ^ f.w) (s : State) : ((put f x).run s).get f = x :=
  (put_same f x s h).trans (Nat.mod_eq_of_lt hx)

/-! The state of a thread -/

theorem putThr_within {ps : List Part} {keys : List Nat} {c t : Nat} (st : Nat) (hc : c < 128) (hps : tells ps)
    (hkey : R.SEQ_THR_STATUS c t ∈ keys) : (putThr c t st).Only (Upd.within ps (oneOfQuiet keys)) := by
  simp only [putThr, Eff.only_all_cons, Eff.only_all_nil, Eff.only_look, within_put, and_true]
  exact ⟨.inl hkey, fun s => evLevel_within (by omega) _ hps⟩

theorem get_putThr_apart {f : Fld} {c t : Nat} (hc : c < 128) (hf : farKey f.key) (h : apart (R.SEQ_THR_STATUS_state c t) f)
    (hw : f.lo + f.w ≤ 64) (st : Nat) (s : State) : ((putThr c t st).run s).get f = s.get f := by
  simp only [putThr, Eff.run_all_cons, Eff.run_all_nil, Eff.run_look]
  rw [get_evLevel (by omega) hf, get_put_apart h hw]

theorem regsAt_putThr_other {k c t : Nat} (hc : c < 128) (hk : farKey k) (h : k ≠ R.SEQ_THR_STATUS c t) (st : Nat) (s : State) :
    ((putThr c t st).run s).regsAt k = s.regsAt k := by
  simp only [putThr, Eff.run_all_cons, Eff.run_all_nil, Eff.run_look]
  rw [regsAt_evLevel (by omega) hk, put_other (f := R.SEQ_THR_STATUS_state c t) h]

end Sys2Proof.Proofs

/-! The issue of a sequencer instruction (R153, R157). -/

namespace Sys2Proof.Proofs
open Sys2Proof.Machine Sys2Proof.Claims

/-- The state in which an instruction of thread `th` of cell `c` has its effect: its line is the most recent of its set, and the thread
issued last. -/
def issued (s : State) (c th : Nat) : State := (Upd.rrLast c th).run ((touchIcache c (s.pc c th)).run s)

theorem touchIcache_in (c pc : Nat) : (touchIcache c pc).In [.icache] := Eff.in_look fun s => by
  dsimp only
  split
  · exact Eff.in_skip
  · exact Eff.in_upd (by simp [Upd.part])

theorem issued_changes (s : State) (c th : Nat) : changesOnly [.icache, .rrLast] s (issued s c th) :=
  changesOnly_trans (((touchIcache_in c _).mono (by simp)).changes s) ((Eff.in_upd (u := .rrLast c th) (by simp [Upd.part])).changes _)

@[simp] theorem issued_regsAt (s : State) (c th k : Nat) : (issued s c th).regsAt k = s.regsAt k := by
  rw [State.regsAt, (issued_changes s c th).same_regs (by simp), State.regsAt]

@[simp] theorem issued_get (s : State) (c th : Nat) (f : Fld) : (issued s c th).get f = s.get f :=
  congrArg f.read (issued_regsAt s c th f.key)

@[simp] theorem issued_bit (s : State) (c th : Nat) (f : Fld) : (issued s c th).bit f = s.bit f := by
  rw [State.bit, State.bit, issued_get]

@[simp] theorem issued_sreg (s : State) (c th c' t i : Nat) : (issued s c th).sreg c' t i = s.sreg c' t i := by
  simp only [State.sreg, State.reg, issued_regsAt]

@[simp] theorem issued_pc (s : State) (c th c' t : Nat) : (issued s c th).pc c' t = s.pc c' t := issued_get ..

@[simp] theorem issued_thr (s : State) (c th c' t : Nat) : (issued s c th).thr c' t = s.thr c' t := issued_get ..

theorem threadReady_of_ready {s : State} {c th w : Nat} (h : ready s c th w) : s.threadReady c th = true := by
  obtain ⟨-, hthr, hstore, hfetch, htakes, hbusy, -⟩ := h
  simp only [State.threadReady, hthr, hstore, hfetch, htakes, beq_self_eq_true, Bool.not_false, Bool.and_self, Bool.true_and,
    List.all_eq_true, Bool.not_eq_true']
  exact hbusy

/-- The word of a ready thread is the one it issues. -/
theorem fetched_ready {s : State} {c th w : Nat} (h : ready s c th w) (k : Eff) : (fetched c th w k).run s = k.run s := by
  obtain ⟨-, -, -, hfetch, -⟩ := h
  rw [fetched, Eff.run_look, if_pos hfetch]

/-- A ready thread issues the instruction, or traps when a function bit is set that the opcode does not define. -/
theorem issue_ready {s : State} {c th w : Nat} (h : ready s c th w) (mask : Nat) (fn : BitVec 9) (k : Eff) :
    (issue c th mask fn k).run s =
      (if Nat.land fn.toNat mask = fn.toNat then k else trapIllegal c th).run (issued s c th) := by
  obtain ⟨-, -, -, -, -, -, hturn⟩ := id h
  have hall : (s.threadReady c th && s.turn c th) = true := by rw [threadReady_of_ready h, hturn]; rfl
  rw [issue, Eff.run_look, if_pos hall, Eff.run_all_cons, Eff.run_all_cons, Eff.run_all_cons, Eff.run_all_nil]
  rfl

/-- An instruction whose word defines its function bits has its effect on the state of its issue. -/
theorem issues_effect {i : Instr} {s : State} {c th w mask : Nat} {fn : BitVec 9} {k : Eff} {post : State → Prop}
    (hword : encoded i = some (c, th, w)) (hi : exec i s = (fetched c th w (issue c th mask fn k)).done s)
    (hfn : Nat.land fn.toNat mask = fn.toNat) (h : ready s c th w → post (k.run (issued s c th))) : issues i s post := by
  intro c' th' w' hword' hready
  obtain ⟨rfl, rfl, rfl⟩ : c = c' ∧ th = th' ∧ w = w' := by simpa [hword] using hword'
  refine yields_done hi hready.1 ?_
  rw [fetched_ready hready, issue_ready hready, if_pos hfn]
  exact h hready

/-- Nothing has changed but what an instruction's issue and its effect change. -/
theorem issued_changesOnly {s : State} {c th : Nat} {ps : List Part} {p : Eff} {qs : List Part}
    (h : changesOnly ps (issued s c th) (p.run (issued s c th))) (hps : ps ⊆ qs) (hqs : [Part.icache, .rrLast] ⊆ qs) :
    changesOnly qs s (p.run (issued s c th)) :=
  changesOnly_trans (changesOnly_mono hqs (issued_changes s c th)) (changesOnly_mono hps h)

theorem issued_keepsRegs {s t : State} {c th : Nat} {keys : List Nat} (h : keepsRegs keys (issued s c th) t) : keepsRegs keys s t :=
  fun k hk => (h k hk).trans (issued_regsAt s c th k)

theorem issued_keepsQuiet {s t : State} {c th : Nat} {keys : List Nat} (h : keepsQuiet keys (issued s c th) t) :
    keepsQuiet keys s t := fun k hfar hpwr hk => (h k hfar hpwr hk).trans (issued_regsAt s c th k)

end Sys2Proof.Proofs

/-! The scalar sequencer instructions and the branches (R158). -/

namespace Sys2Proof.Proofs
open Sys2Proof.Machine Sys2Proof.Claims

/-- A result and the next pc, on the state of an issue: register `d` takes the result, the pc goes on, nothing else changes. -/
theorem seqDone_run {c th d : Nat} (ht : th < 16) (hd : d < 32) (v : Word) (pc : Nat) (s : State) :
    seqDone c th d v pc s ((put (R.SEQ_THR_PC_pc c th) pc).run ((putSreg c th d v).run (issued s c th))) := by
  have hkey : R.SEQ_THR_REG c th d ≠ R.SEQ_THR_PC c th := by
    simp only [R.SEQ_THR_REG, R.SEQ_THR_PC, rk]; omega
  refine ⟨?result, put_same _ _ _ (show 0 + 48 ≤ 64 by decide), fun k hpc hreg => ?frame, ?rest⟩
  case result =>
    simp only [State.sreg, State.reg, putSreg]
    split
    · rfl
    · rw [put_other (f := R.SEQ_THR_PC_pc c th) hkey, putReg_same]
  case frame =>
    rw [put_other (f := R.SEQ_THR_PC_pc c th) hpc, putSreg]
    split
    · exact issued_regsAt ..
    · next h0 => rw [putReg_other (hreg.resolve_right h0), issued_regsAt]
  case rest =>
    have hin : (Eff.seq (putSreg c th d v) (put (R.SEQ_THR_PC_pc c th) pc)).In [.regs] :=
      Eff.in_seq (in_ite Eff.in_skip (putReg_in _ _ (by simp))) (put_in _ _ (by simp))
    exact issued_changesOnly (hin.changes _) (by simp) (by simp)

/-- A pc and no result. -/
theorem seqDone_pc {c th : Nat} (ht : th < 16) (pc : Nat) (s : State) :
    seqDone c th 0 0 pc s ((put (R.SEQ_THR_PC_pc c th) pc).run (issued s c th)) := seqDone_run (d := 0) ht (by decide) 0 pc s

theorem nextPc_run (c th : Nat) (u : State) : (nextPc c th).run u = (put (R.SEQ_THR_PC_pc c th) (u.pc c th + 8)).run u := rfl

theorem pc_putSreg {c th d : Nat} (ht : th < 16) (hd : d < 32) (v : Word) (u : State) :
    ((putSreg c th d v).run u).pc c th = u.pc c th := by
  have hkey : R.SEQ_THR_PC c th ≠ R.SEQ_THR_REG c th d := by
    simp only [R.SEQ_THR_REG, R.SEQ_THR_PC, rk]; omega
  rw [putSreg]
  split
  · rfl
  · exact get_putReg_other (f := R.SEQ_THR_PC_pc c th) hkey v u

section
variable {i : Instr} {s : State} {c : Fin 128} {th : Fin 16} {w : Nat}

/-- An instruction whose whole effect is one register result. -/
theorem issues_scalar {d : Fin 32} {f : State → Word} {v : Word} (hword : encoded i = some (c.val, th.val, w))
    (hi : exec i s = (fetched c th w (scalar c th d 0 f)).done s) (hv : f (issued s c th) = v) :
    issues i s (seqDone c th d v (s.pc c th + 8) s) := by
  refine issues_effect hword hi rfl fun _ => ?_
  rw [Eff.run_look, Eff.run_seq, nextPc_run, pc_putSreg th.isLt d.isLt, hv, issued_pc]
  exact seqDone_run th.isLt d.isLt v _ s

/-- A branch goes by its immediate when its condition holds. -/
theorem issues_branch {a b : Fin 32} {imm : BitVec 32} {p : Word → Word → Bool} {q : Prop} [Decidable q]
    (hword : encoded i = some (c.val, th.val, w)) (hi : exec i s = (fetched c th w (branch c th a b 0 imm p)).done s)
    (hp : p (s.sreg c th a) (s.sreg c th b) = true ↔ q) :
    issues i s (seqDone c th 0 0 (if q then (((s.pc c th : Int) + imm.toInt * 8) % 2 ^ 48).toNat else s.pc c th + 8) s) := by
  refine issues_effect hword hi rfl fun _ => ?_
  simp only [Eff.run_look, issued_sreg, issued_pc, hp]
  split
  · exact seqDone_pc th.isLt _ s
  · rw [nextPc_run, issued_pc]
    exact seqDone_pc th.isLt _ s

end

theorem seqScalarResults : Claims.SeqScalarResults := by
  intro c th d a b imm s
  refine ⟨?nop, issues_scalar rfl rfl rfl, issues_scalar rfl rfl ?lih, issues_scalar rfl rfl ?add, issues_scalar rfl rfl ?sub,
    issues_scalar rfl rfl ?mul, issues_scalar rfl rfl ?and, issues_scalar rfl rfl ?or, issues_scalar rfl rfl ?xor,
    issues_scalar rfl rfl ?shl, issues_scalar rfl rfl ?shr, issues_scalar rfl rfl ?sra, issues_scalar rfl rfl ?slt,
    issues_scalar rfl rfl ?sltu, issues_scalar rfl rfl ?rdstep, issues_scalar rfl rfl ?rdtime⟩
  case nop =>
    refine issues_effect rfl rfl rfl fun _ => ?_
    rw [nextPc_run, issued_pc]
    exact seqDone_pc th.isLt _ s
  case slt => simp only [issued_sreg, BitVec.slt, decide_eq_true_eq]
  case sltu => simp only [issued_sreg, BitVec.ult, decide_eq_true_eq]
  case rdstep => rw [State.thrStepAt, (issued_changes s c th).same_thrStep (by simp), State.thrStepAt]
  case rdtime =>
    rw [State.tideTime, (issued_changes s c th).same_now (by simp), (issued_changes s c th).same_tideOff (by simp), State.tideTime]
  all_goals simp only [issued_sreg, shiftBy, immWord]

theorem seqControlFlow : Claims.SeqControlFlow := by
  intro c th d a b imm s
  refine ⟨issues_branch rfl rfl ?beq, issues_branch rfl rfl ?bne, issues_branch rfl rfl ?blt, issues_branch rfl rfl ?bge, ?jal, ?jr⟩
  case beq => rw [beq_iff_eq, BitVec.toInt_inj]
  case bne => rw [bne_iff_ne, Ne, Ne, BitVec.toInt_inj]
  case blt => exact BitVec.slt_iff_toInt_lt
  case bge => rw [Bool.not_eq_true', ← Bool.not_eq_true, BitVec.slt_iff_toInt_lt, not_lt]
  case jal =>
    refine issues_effect rfl rfl rfl fun _ => ?_
    rw [Eff.run_look, Eff.run_seq, issued_pc]
    exact seqDone_run th.isLt d.isLt _ _ s
  case jr =>
    intro htarget
    refine issues_effect rfl rfl rfl fun _ => ?_
    simp only [Eff.run_look, issued_sreg, issued_pc, immWord]
    rw [if_neg (not_not_intro htarget), Eff.run_seq]
    exact seqDone_run th.isLt d.isLt _ _ s

/-- Settles O6: an issued instruction has its effect on a state that differs in the instruction cache's order alone, and that effect is
one register result and one pc. -/
theorem seqScalarAndBranches : Obligations.SeqScalarAndBranches := ⟨seqScalarResults, seqControlFlow⟩

end Sys2Proof.Proofs

/-! What traps a thread at issue (R159). -/

namespace Sys2Proof.Proofs
open Sys2Proof.Machine Sys2Proof.Claims

theorem farKey_seq {c off : Nat} (hc : c < 128) (ho : off < 0x10000) (j : Nat) (hj : j < 16) : farKey (rk (c * 16 + j) off) := by
  simp only [farKey, rk]; omega

theorem putThr_asserted {c t : Nat} (hc : c < 128) (ht : t < 16) (s : State) :
    ((putThr c t THR_TRAPPED).run s).bit (R.EVC_ROUTE_asserted (c * 8)) = true := by
  simp only [putThr, Eff.run_all_cons, Eff.run_all_nil, Eff.run_look]
  rw [evLevel_asserted _ _ (by omega), List.any_eq_true]
  exact ⟨t, List.mem_range.2 ht, beq_iff_eq.2 (put_same_of_lt (show 0 + 3 ≤ 64 by decide) (show 4 < 2 ^ 3 by decide) s)⟩

theorem trapRecord_within {ps : List Part} {keys : List Nat} {c t : Nat} (hc : c < 128) (hps : tells ps)
    (hkeys : [R.SEQ_THR_STATUS c t, R.SEQ_THR_FAULT c t, R.SEQ_THR_NEXT c t] ⊆ keys) (cause st addr next : Nat) :
    (trapRecord c t cause st addr next).Only (Upd.within ps (oneOfQuiet keys)) := by
  have hstatus : R.SEQ_THR_STATUS c t ∈ keys := hkeys (by simp)
  simp only [trapRecord, Eff.only_all_cons, Eff.only_all_nil, within_put, and_true]
  exact ⟨.inl hstatus, .inl hstatus, .inl (hkeys (by simp [R.SEQ_THR_FAULT_addr])), .inl (hkeys (by simp [R.SEQ_THR_NEXT_next_pc])),
    putThr_within _ hc hps hstatus⟩

/-- What a trap records: its cause, status and address, and the pc as the first instruction not issued. -/
theorem trapRecord_gets {c t cause st : Nat} (hc : c < 128) (ht : t < 16) (hcause : cause < 256) (hst : st < 256) (addr next : Nat)
    (s : State) :
    let r := (trapRecord c t cause st addr next).run s
    r.thr c t = THR_TRAPPED ∧ r.get (R.SEQ_THR_STATUS_trap_cause c t) = cause ∧ r.get (R.SEQ_THR_STATUS_trap_status c t) = st ∧
    r.get (R.SEQ_THR_FAULT_addr c t) = addr % 2 ^ 48 ∧ r.get (R.SEQ_THR_NEXT_next_pc c t) = next % 2 ^ 48 ∧
    r.get (R.SEQ_THR_STATUS_trap_imm c t) = s.get (R.SEQ_THR_STATUS_trap_imm c t) ∧
    r.bit (R.EVC_ROUTE_asserted (c * 8)) = true := by
  simp only [trapRecord, Eff.run_all_cons, Eff.run_all_nil]
  refine ⟨putThr_thr c t _ hc ht (by decide) _, ?cause, ?status, ?addr, ?next, ?imm, putThr_asserted hc ht _⟩
  all_goals
    simp (disch := (
      try simp only [apart, farKey, R.SEQ_THR_STATUS_state, R.SEQ_THR_STATUS_trap_cause, R.SEQ_THR_STATUS_trap_status,
        R.SEQ_THR_STATUS_trap_imm, R.SEQ_THR_FAULT_addr, R.SEQ_THR_NEXT_next_pc, R.SEQ_THR_STATUS, R.SEQ_THR_FAULT, R.SEQ_THR_NEXT, rk]
      omega)) only [get_putThr_apart, get_put_apart, put_same]
  case cause => exact Nat.mod_eq_of_lt hcause
  case status => exact Nat.mod_eq_of_lt hst
  all_goals rfl

/-- A precise trap, after nothing but the issue and fields of the thread's status has changed. -/
theorem trapThread_trapped {c t cause st : Nat} (hc : c < 128) (ht : t < 16) (hcause : cause < 256) (hst : st < 256) (addr : Nat)
    {s u : State} (hq : keepsQuiet [R.SEQ_THR_STATUS c t] s u) (hr : changesOnly [.regs, .icache, .rrLast] s u) :
    trapped c t cause st addr s ((trapThread c t cause st addr).run u) := by
  have hfar : farKey (R.SEQ_THR_PC c t) := farKey_seq hc (by omega) 1 (by decide)
  have hpc : u.pc c t = s.pc c t := congrArg (R.SEQ_THR_PC_pc c t).read (hq _ hfar.1 hfar.2
    (by simp only [List.mem_singleton, R.SEQ_THR_PC_pc, R.SEQ_THR_PC, R.SEQ_THR_STATUS, rk]; omega))
  have hlt : s.pc c t < 2 ^ 48 := get_lt s _
  obtain ⟨hthr, hc', hs', haddr, hnext, -, hsrc⟩ := trapRecord_gets hc ht hcause hst addr (u.pc c t) u
  have hwithin := trapRecord_within (ps := [.msix, .mgmtQ, .out]) (t := t) hc (by simp [tells]) (List.Subset.refl _) cause st addr (u.pc c t)
  simp only [trapThread, Eff.run_look]
  refine ⟨hthr, hc', hs', haddr, ?pc, ?next, hsrc, fun k hk hpwr hkeys => ?quiet, ?rest⟩
  case pc =>
    have := within_get hwithin u (f := R.SEQ_THR_PC_pc c t) (by
      simp only [oneOfQuiet, not_or, not_not, List.mem_cons, List.not_mem_nil, or_false]
      refine ⟨?_, hfar⟩
      simp only [R.SEQ_THR_PC_pc, R.SEQ_THR_PC, R.SEQ_THR_STATUS, R.SEQ_THR_FAULT, R.SEQ_THR_NEXT, rk]; omega)
    exact this.trans hpc
  case next => rw [hnext, hpc]; exact Nat.mod_eq_of_lt hlt
  case quiet =>
    exact (within_keepsQuiet hwithin u k hk hpwr hkeys).trans (hq k hk hpwr fun h => hkeys (by simp_all))
  case rest =>
    exact changesOnly_trans (changesOnly_mono (by simp) hr) (changesOnly_mono (by simp) (within_changes hwithin u))

/-- A trap that the issue itself finds. -/
theorem trapThread_issued {c : Fin 128} {t : Fin 16} {cause st : Nat} (hcause : cause < 256) (hst : st < 256) (addr : Nat) (s : State) :
    trapped c t cause st addr s ((trapThread c t cause st addr).run (issued s c t)) :=
  trapThread_trapped c.isLt t.isLt hcause hst addr (fun k _ _ _ => issued_regsAt s c t k)
    (changesOnly_mono (by simp) (issued_changes s c t))

theorem trapIllegal_issued {c : Fin 128} {t : Fin 16} (s : State) :
    trapped c t 0x01 ST_BAD_ARG (s.pc c t) s ((trapIllegal c t).run (issued s c t)) := by
  rw [trapIllegal, Eff.run_look, issued_pc]
  exact trapThread_issued (by decide) (by decide) _ s

/-- R157: a function bit that the opcode does not define makes the instruction illegal. -/
theorem issues_undefined {i : Instr} {s : State} {c : Fin 128} {t : Fin 16} {w mask : Nat} {fn : BitVec 9} {k : Eff}
    (hword : encoded i = some (c.val, t.val, w)) (hi : exec i s = (fetched c t w (issue c t mask fn k)).done s)
    (hfn : Nat.land fn.toNat mask ≠ fn.toNat) : issues i s (trapped c t 0x01 ST_BAD_ARG (s.pc c t) s) := by
  intro c' t' w' hword' hready
  obtain ⟨rfl, rfl, rfl⟩ : c.val = c' ∧ t.val = t' ∧ w = w' := by simpa [hword] using hword'
  refine yields_done hi hready.1 ?_
  rw [fetched_ready hready, issue_ready hready, if_neg hfn]
  exact trapIllegal_issued s

/-- Every row of the table of forms defines the function bits that its instruction accepts. -/
theorem seqForms_issue {c : Fin 128} {t : Fin 16} {d a b : Fin 32} {fn : BitVec 9} {imm : BitVec 32} {x : Fin 6} {row : Nat × Instr}
    (h : row ∈ seqForms c t d a b fn imm x) (s : State) :
    ∃ w k, encoded row.2 = some (c.val, t.val, w) ∧ exec row.2 s = (fetched c t w (issue c t row.1 fn k)).done s := by
  simp only [seqForms, List.mem_cons, List.not_mem_nil, or_false] at h
  rcases h with rfl | rfl | rfl | rfl | rfl | rfl | rfl | rfl | rfl | rfl | rfl | rfl | rfl | rfl | rfl | rfl | rfl | rfl | rfl | rfl |
    rfl | rfl | rfl | rfl | rfl | rfl | rfl | rfl | rfl | rfl | rfl | rfl | rfl | rfl | rfl | rfl
  all_goals exact ⟨_, _, rfl, rfl⟩

/-- R159: an opcode of no instruction. -/
theorem yields_unlisted {c : Fin 128} {t : Fin 16} {w : Nat} {s : State} (hready : ready s c t w) (hop : opKnown (w % 2 ^ 8) = false) :
    yields (.illegalInstruction c t) s (trapped c t 0x01 ST_BAD_ARG (s.pc c t) s) := by
  obtain ⟨hpow, -, -, hfetch, -⟩ := id hready
  refine ⟨_, Eff.done_on (p := .look fun s => match s.fetchWord c t with
    | some w => Eff.when (!opKnown (wordOp w)) (issue c t 0 0 (trapIllegal c t))
    | none => .skip) hpow, ?_⟩
  simp only [Eff.run_look, hfetch, wordOp, hop, Bool.not_false, Eff.run_when_true]
  rw [issue_ready hready]
  exact trapIllegal_issued s

/-- Settles O7: each is found at the issue, on a state that differs in the instruction cache's order alone. -/
theorem seqTraps : Obligations.SeqTraps := by
  intro c th d a b fn imm x s
  refine ⟨?trap, fun w => yields_unlisted, fun row hrow hfn => ?undefined, fun htarget => ?jr, fun hbox => ?wait, fun hbank => ?own⟩
  case trap =>
    refine issues_effect rfl rfl rfl fun _ => ?_
    rw [Eff.run_look, Eff.run_seq, issued_pc]
    have hput : (put (R.SEQ_THR_STATUS_trap_imm c th) (imm.toNat % 256)).Only (Upd.within [] (oneOfQuiet [R.SEQ_THR_STATUS c th])) := by
      simp [oneOfQuiet, R.SEQ_THR_STATUS_trap_imm]
    refine ⟨trapThread_trapped c.isLt th.isLt (by decide) (by decide) _ (issued_keepsQuiet (within_keepsQuiet hput _))
      (issued_changesOnly (within_changes hput _) (by simp) (by simp)), ?_⟩
    rw [trapThread, Eff.run_look]
    obtain ⟨-, -, -, -, -, himm, -⟩ := trapRecord_gets c.isLt th.isLt (show 0x0A < 256 by decide) (show ST_SEQ_TRAP < 256 by decide)
      (s.pc c th) (((put (R.SEQ_THR_STATUS_trap_imm c th) (imm.toNat % 256)).run (issued s c th)).pc c th)
      ((put (R.SEQ_THR_STATUS_trap_imm c th) (imm.toNat % 256)).run (issued s c th))
    rw [himm]
    exact put_same_of_lt (show 24 + 8 ≤ 64 by decide) (Nat.mod_lt _ (Nat.two_pow_pos 8)) _
  case undefined =>
    obtain ⟨w, k, hword, hi⟩ := seqForms_issue hrow s
    exact issues_undefined hword hi hfn
  case jr =>
    refine issues_effect rfl rfl rfl fun _ => ?_
    simp only [Eff.run_look, issued_sreg, immWord]
    rw [if_pos htarget]
    exact trapThread_issued (by decide) (by decide) _ s
  case wait =>
    refine issues_effect rfl rfl rfl fun _ => ?_
    simp only [Eff.run_look]
    rw [if_pos hbox]
    exact trapIllegal_issued s
  case own =>
    refine issues_effect rfl rfl rfl fun _ => ?_
    simp only [Eff.run_look]
    rw [if_pos hbank]
    exact trapIllegal_issued s

end Sys2Proof.Proofs

/-! WAIT, SIGNAL and ARRIVE of a thread (R296, R298–R300, R306). -/

namespace Sys2Proof.Proofs
open Sys2Proof.Machine Sys2Proof.Claims

/-! Going into WAIT -/

theorem goWait_within {ps : List Part} {keys : List Nat} {c t : Nat} (hc : c < 128) (hps : tells ps) (hw : Part.waitSince ∈ ps)
    (hkeys : [R.PBX_THR_WAIT c t, R.SEQ_THR_STATUS c t] ⊆ keys) (target waiting sleeping v b : Nat) :
    (goWait c t target waiting sleeping v b).Only (Upd.within ps (oneOfQuiet keys)) := by
  simp only [goWait, Eff.only_look, Eff.only_all_cons, Eff.only_all_nil, within_putReg, Eff.only_upd, and_true]
  exact fun _ => ⟨.inl (hkeys (by simp)), hw, putThr_within _ hc hps (hkeys (by simp))⟩

/-- The thresholds of a waiting thread, and its state. -/
theorem goWait_gets {c t target waiting sleeping v b : Nat} (hc : c < 128) (ht : t < 16) (htarget : target < 64) (hwaiting : waiting < 2)
    (hsleeping : sleeping < 2) (hb : b < 2 ^ 32) (s : State) :
    let r := (goWait c t target waiting sleeping v b).run s
    r.thr c t = THR_WAIT ∧ r.get (R.PBX_THR_WAIT_target c t) = target ∧ r.get (R.PBX_THR_WAIT_waiting c t) = waiting ∧
    r.get (R.PBX_THR_WAIT_sleeping c t) = sleeping ∧ r.get (R.PBX_THR_WAIT_v c t) = v % 2 ^ 16 ∧
    r.get (R.PBX_THR_WAIT_b c t) = b ∧ r.waitSinceAt (c * 16 + t) = s.now := by
  simp only [goWait, Eff.run_look, Eff.run_all_cons, Eff.run_all_nil]
  refine ⟨putThr_thr c t _ hc ht (by decide) _, ?target, ?waiting, ?sleeping, ?v, ?b, ?since⟩
  case since =>
    have hin : (putThr c t THR_WAIT).Only (Upd.within [.msix, .mgmtQ, .out] (oneOfQuiet [R.SEQ_THR_STATUS c t])) :=
      putThr_within _ hc (by simp [tells]) (by simp)
    rw [State.waitSinceAt, (within_changes hin _).same_waitSince (by simp)]
    exact Upd.run_waitSince_same _ _ _
  all_goals
    have hreg : ∀ u : State, ((putThr c t THR_WAIT).run u).regsAt (R.PBX_THR_WAIT c t) = u.regsAt (R.PBX_THR_WAIT c t) := fun u =>
      regsAt_putThr_other hc (farKey_seq hc (by omega) 7 (by decide))
        (by simp only [R.SEQ_THR_STATUS, rk]; omega) _ u
    simp only [State.get, R.PBX_THR_WAIT_target, R.PBX_THR_WAIT_waiting, R.PBX_THR_WAIT_sleeping, R.PBX_THR_WAIT_v, R.PBX_THR_WAIT_b,
      hreg, Eff.run_upd]
    rw [regsAt_upd (by simp [Upd.part]), putReg_same]
    simp only [Fld.read, BitVec.toNat_ofNat]
    omega

/-! WAIT -/

theorem pbxMet_iff (s : State) (c n v b : Nat) :
    s.pbxMet c n v b = true ↔ v ≤ s.get (R.PBX_VALUE_value c n) ∧ b ≤ s.get (R.PBX_LANDED_landed c n) := by
  simp only [State.pbxMet, Bool.and_eq_true, decide_eq_true_eq]

theorem pbxMet_congr {s t : State} (h : t.get = s.get) (c n v b : Nat) : t.pbxMet c n v b = s.pbxMet c n v b := by
  simp only [State.pbxMet, h]

theorem pbxConsume_within {ps : List Part} {keys : List Nat} {c n : Nat} (hkeys : [R.PBX_VALUE c n, R.PBX_LANDED c n] ⊆ keys) (v b : Nat) :
    (pbxConsume c n v b).Only (Upd.within ps (oneOf keys)) := by
  simp only [pbxConsume, Eff.only_look, Eff.only_all_cons, Eff.only_all_nil, within_put, and_true]
  exact fun _ => ⟨hkeys (by simp [R.PBX_VALUE_value]), hkeys (by simp [R.PBX_LANDED_landed])⟩

/-- R298: a met wait subtracts its thresholds. -/
theorem pbxConsume_gets (c n v b : Nat) (s : State) :
    ((pbxConsume c n v b).run s).get (R.PBX_VALUE_value c n) = s.get (R.PBX_VALUE_value c n) - v ∧
    ((pbxConsume c n v b).run s).get (R.PBX_LANDED_landed c n) = s.get (R.PBX_LANDED_landed c n) - b := by
  have hvalue : s.get (R.PBX_VALUE_value c n) < 2 ^ 16 := get_lt s _
  have hlanded : s.get (R.PBX_LANDED_landed c n) < 2 ^ 32 := get_lt s _
  simp only [pbxConsume, Eff.run_look, Eff.run_all_cons, Eff.run_all_nil]
  constructor
  · rw [get_put_apart (.inl (by simp only [R.PBX_VALUE_value, R.PBX_LANDED_landed, R.PBX_VALUE, R.PBX_LANDED, rk]; omega))
      (show 0 + 16 ≤ 64 by decide)]
    exact put_same_of_lt (show 0 + 16 ≤ 64 by decide) (show _ < 2 ^ 16 by omega) s
  · exact put_same_of_lt (show 0 + 32 ≤ 64 by decide) (show _ < 2 ^ 32 by omega) _



/-- R298: a met wait is consumed, and the thread goes on. -/
theorem pbxConsume_nextPc (c n t v b : Nat) (s : State) :
    let r := (nextPc c t).run ((pbxConsume c n v b).run s)
    r.get (R.PBX_VALUE_value c n) = s.get (R.PBX_VALUE_value c n) - v ∧
    r.get (R.PBX_LANDED_landed c n) = s.get (R.PBX_LANDED_landed c n) - b ∧ r.pc c t = (s.pc c t + 8) % 2 ^ 48 ∧
    r.thr c t = s.thr c t := by
  obtain ⟨hvalue, hlanded⟩ := pbxConsume_gets c n v b s
  simp only [nextPc, State.pc, State.thr, ← hvalue, ← hlanded]
  simp (disch := (
    try simp only [apart, farKey, R.PBX_VALUE_value, R.PBX_LANDED_landed, R.SEQ_THR_PC_pc, R.SEQ_THR_STATUS_state, R.PBX_VALUE,
      R.PBX_LANDED, R.SEQ_THR_PC, R.SEQ_THR_STATUS, R.PBX_THR_WAIT, rk]
    omega)) only [get_addWrap_apart, addWrap_same, pbxConsume, Eff.run_look, Eff.run_all_cons, Eff.run_all_nil,
    get_put_apart]
  exact ⟨trivial, trivial, rfl, trivial⟩

/-- A WAIT whose thresholds are met. -/
theorem wait_met {c t : Nat} (n v b : Nat) {s : State} (hthr : s.thr c t = THR_RUN) :
    let r := (Eff.seq (pbxConsume c n v b) (nextPc c t)).run (issued s c t)
    r.get (R.PBX_VALUE_value c n) = s.get (R.PBX_VALUE_value c n) - v ∧
    r.get (R.PBX_LANDED_landed c n) = s.get (R.PBX_LANDED_landed c n) - b ∧ r.pc c t = (s.pc c t + 8) % 2 ^ 48 ∧
    r.thr c t = THR_RUN ∧ keepsRegs [R.PBX_VALUE c n, R.PBX_LANDED c n, R.SEQ_THR_PC c t] s r ∧ restKept s r := by
  have hboth : (Eff.seq (pbxConsume c n v b) (nextPc c t)).Only
      (Upd.within [] (oneOf [R.PBX_VALUE c n, R.PBX_LANDED c n, R.SEQ_THR_PC c t])) :=
    ⟨pbxConsume_within (by simp) v b, by simp [nextPc, oneOf, R.SEQ_THR_PC_pc]⟩
  have hgets := pbxConsume_nextPc c n t v b (issued s c t)
  simp only [issued_get, issued_pc, issued_thr, hthr] at hgets
  obtain ⟨hvalue, hlanded, hpc, hrun⟩ := hgets
  have hframe := issued_keepsRegs (within_keepsRegs hboth (issued s c t))
  have hrest : restKept s _ := issued_changesOnly (within_changes hboth (issued s c t)) (by simp) (by simp)
  rw [Eff.run_seq] at hframe hrest ⊢
  exact ⟨hvalue, hlanded, hpc, hrun, hframe, hrest⟩

/-- What a WAIT leaves whose thresholds are not met. -/
def waitBegins (c t n v b : Nat) (s : State) : Eff := .all [
  .upd (.waiters (c * 48 + n) (s.waitersAt (c * 48 + n) ++ [t])),
  putBit ⟨R.PBX_VALUE c n, 32 + t, 1⟩ true,
  goWait c t n 1 0 v b]

theorem waitBegins_within {c t : Nat} (hc : c < 128) (n v b : Nat) (s : State) : (waitBegins c t n v b s).Only
    (Upd.within [.waiters, .waitSince, .msix, .mgmtQ, .out] (oneOfQuiet [R.PBX_VALUE c n, R.PBX_THR_WAIT c t, R.SEQ_THR_STATUS c t])) := by
  simp only [waitBegins, Eff.only_all_cons, Eff.only_all_nil, Eff.only_upd, within_putBit, and_true]
  refine ⟨by simp [Upd.within, Upd.part], .inl (by simp), goWait_within hc ?_ ?_ ?_ _ _ _ _ _⟩ <;> simp [tells]

/-- A WAIT whose thresholds are not met. -/
theorem wait_unmet {c t n v b : Nat} (hc : c < 128) (ht : t < 16) (hn : n < 48) (hv : v < 2 ^ 16) (hb : b < 2 ^ 32) (s : State) :
    let r := (waitBegins c t n v b (issued s c t)).run (issued s c t)
    r.thr c t = THR_WAIT ∧ r.pc c t = s.pc c t ∧ r.waitersAt (c * 48 + n) = s.waitersAt (c * 48 + n) ++ [t] ∧
    r.regBit (R.PBX_VALUE c n) (32 + t) = true ∧ r.get (R.PBX_VALUE_value c n) = s.get (R.PBX_VALUE_value c n) ∧
    r.get (R.PBX_THR_WAIT_target c t) = n ∧ r.bit (R.PBX_THR_WAIT_waiting c t) = true ∧ r.bit (R.PBX_THR_WAIT_sleeping c t) = false ∧
    r.get (R.PBX_THR_WAIT_v c t) = v ∧ r.get (R.PBX_THR_WAIT_b c t) = b ∧ r.waitSinceAt (c * 16 + t) = s.now ∧
    keepsQuiet [R.PBX_VALUE c n, R.PBX_THR_WAIT c t, R.SEQ_THR_STATUS c t] s r ∧
    changesOnly [.regs, .icache, .rrLast, .waiters, .waitSince, .msix, .mgmtQ, .out] s r := by
  have hwithin := waitBegins_within hc n v b (issued s c t) (t := t)
  have hgo : (goWait c t n 1 0 v b).Only
      (Upd.within [.waitSince, .msix, .mgmtQ, .out] (oneOfQuiet [R.PBX_THR_WAIT c t, R.SEQ_THR_STATUS c t])) :=
    goWait_within hc (by simp [tells]) (by simp) (by simp) _ _ _ _ _
  have hnow : (issued s c t).now = s.now := (issued_changes s c t).same_now (by simp)
  have hwait : (issued s c t).waiters = s.waiters := (issued_changes s c t).same_waiters (by simp)
  have hbox : ∀ u : State, ((goWait c t n 1 0 v b).run u).regsAt (R.PBX_VALUE c n) = u.regsAt (R.PBX_VALUE c n) := fun u =>
    within_regsAt hgo u (by simp [oneOfQuiet, farKey, R.PBX_VALUE, R.PBX_THR_WAIT, R.SEQ_THR_STATUS, rk]; omega)
  refine ⟨?thr, ?pc, ?waiters, ?bit, ?value, ?target, ?waiting, ?sleeping, ?v, ?b, ?since, issued_keepsQuiet (within_keepsQuiet hwithin _),
    issued_changesOnly (within_changes hwithin _) (by simp) (by simp)⟩
  case pc =>
    rw [State.pc, within_get hwithin _ (by
      simp [oneOfQuiet, farKey, R.SEQ_THR_PC_pc, R.SEQ_THR_PC, R.PBX_VALUE, R.PBX_THR_WAIT, R.SEQ_THR_STATUS, rk]; omega), issued_get]
    rfl
  all_goals simp only [waitBegins, Eff.run_all_cons, Eff.run_all_nil, Eff.run_upd]
  case waiters =>
    rw [State.waitersAt, (within_changes hgo _).same_waiters (by simp)]
    refine (Upd.run_waiters_same _ _ _).trans ?_
    rw [State.waitersAt, hwait, State.waitersAt]
  case bit =>
    rw [State.regBit, hbox]
    exact bit_putBit ⟨R.PBX_VALUE c n, 32 + t, 1⟩ (by simp only; omega) rfl true _
  case value =>
    rw [State.get, show (R.PBX_VALUE_value c n).key = R.PBX_VALUE c n from rfl, hbox]
    refine (get_put_apart (f := ⟨R.PBX_VALUE c n, 32 + t, 1⟩) (g := R.PBX_VALUE_value c n) (.inr (.inr ?_)) (show 0 + 16 ≤ 64 by decide) _ _).trans ?_
    · show 0 + 16 ≤ 32 + t; omega
    · exact issued_get ..
  all_goals
    obtain ⟨hthr, htarget, hwaiting, hsleeping, hthv, hthb, hsince⟩ := goWait_gets (c := c) (t := t) (target := n) (waiting := 1)
      (sleeping := 0) (v := v) (b := b) hc ht (by omega) (by decide) (by decide) hb
      ((putBit ⟨R.PBX_VALUE c n, 32 + t, 1⟩ true).run ((Upd.waiters (c * 48 + n) ((issued s c t).waitersAt (c * 48 + n) ++ [t])).run
        (issued s c t)))
  case thr => exact hthr
  case target => exact htarget
  case waiting => exact beq_iff_eq.2 hwaiting
  case sleeping => rw [State.bit, hsleeping]; rfl
  case v => exact hthv.trans (Nat.mod_eq_of_lt hv)
  case b => exact hthb
  case since => exact hsince.trans hnow

theorem seqWaitOutcomes : Claims.SeqWaitOutcomes := by
  intro c th d a b imm s n v l hn
  have hnot : ¬ 47 < imm.toNat % 64 := Nat.not_lt.2 (Nat.le_of_lt_succ hn)
  have hmet : (issued s c th).pbxMet c n v l = s.pbxMet c n v l := pbxMet_congr (funext fun f => issued_get s c th f) ..
  refine ⟨fun h => issues_effect rfl rfl rfl fun hready => ?met, fun h => issues_effect rfl rfl rfl fun _ => ?unmet⟩
  case met =>
    simp only [Eff.run_look, issued_sreg]
    rw [if_neg hnot, if_pos (hmet.trans ((pbxMet_iff ..).2 h))]
    exact wait_met n v l hready.2.1
  case unmet =>
    simp only [Eff.run_look, issued_sreg]
    rw [if_neg hnot, if_neg (fun hm => h ((pbxMet_iff ..).1 (hmet.symm.trans hm)))]
    exact wait_unmet c.isLt th.isLt hn (Nat.mod_lt _ (Nat.two_pow_pos 16)) (Nat.mod_lt _ (Nat.two_pow_pos 32)) s

/-! SIGNAL -/

theorem gwLeave_high (l : Nat) (bs : List Byte) : (gwLeave l bs).Only Upd.high :=
  ⟨only_addWrap _ _ fun _ => by simp only [Upd.high, R.GWL_LINK_TX_bytes, R.GWL_LINK_TX, rk]; omega, send_high _⟩

theorem gwEmit_high (l : Nat) (k : GwPkt) : (gwEmit l k).Only Upd.high := fun _ => ⟨trivial, gwLeave_high l _⟩

theorem sprayTake_high (l : Nat) : (sprayTake l).Only Upd.high := fun _ => (Eff.only_each _ _).2 fun _ _ => trivial

theorem gwEmit_in (l : Nat) (k : GwPkt) : (gwEmit l k).In [.regs, .hopBuf, .out] :=
  Eff.in_look fun _ => Eff.in_seq (Eff.in_upd (by simp [Upd.part])) (Eff.in_seq (addWrap_in _ _ (by simp)) (send_in _ (by simp)))

theorem sprayTake_in (l : Nat) : (sprayTake l).In [.gwSpray] :=
  Eff.in_look fun _ => Eff.in_each fun _ => Eff.in_upd (by simp [Upd.part])

/-- R404–R409: a packet for a module that can be reached is kept until its acknowledgement and leaves on a link of the spray. -/
theorem gwSend_reached {kind vc k args : Nat} {payload : List Byte} {cell queue : Option Nat} {lost : Eff} {s : State}
    (h : s.gwReach k = true) :
    ∃ p : GwPkt, ∃ q : Eff, (gwSend kind vc k args payload cell queue lost).run s = q.run s ∧
      p.kind = kind ∧ p.vc = vc ∧ p.dest = k ∧ p.args = args ∧ p.payload = payload ∧ p.cell = cell ∧ p.queue = queue ∧
      (q.run s).gwOut = s.gwOut ++ [p] ∧ q.Only Upd.high ∧ q.In [.regs, .gwOut, .hopBuf, .gwSeq, .gwSpray, .out] := by
  have hpick : (s.sprayPick none).isSome = true := by
    simp only [State.gwReach, Bool.and_eq_true] at h
    exact h.2
  obtain ⟨l, hl⟩ := Option.isSome_iff_exists.1 hpick
  let p : GwPkt := ⟨kind, vc, k, s.gwSeqAt (k * 4 + vc), args, payload, l, s.now, 0, cell, queue, l, s.now, false⟩
  refine ⟨p, .all [
      .upd (.gwSeq (k * 4 + vc) ((s.gwSeqAt (k * 4 + vc) + 1) % 2 ^ 32)),
      .upd (.gwOut (s.gwOut ++ [p])), sprayTake l, gwEmit l p],
    ?run, rfl, rfl, rfl, rfl, rfl, rfl, rfl, ?out, ?high, ?parts⟩
  case run => rw [gwSend, Eff.run_look, h, hl]
  case out =>
    simp only [Eff.run_all_cons, Eff.run_all_nil]
    rw [((gwEmit_in l p).changes _).same_gwOut (by simp), ((sprayTake_in l).changes _).same_gwOut (by simp)]
    exact Upd.run_gwOut ..
  case high =>
    exact (Eff.only_all_cons _ _).2 ⟨trivial, (Eff.only_all_cons _ _).2 ⟨trivial, (Eff.only_all_cons _ _).2
      ⟨sprayTake_high l, (Eff.only_all_cons _ _).2 ⟨gwEmit_high l p, trivial⟩⟩⟩⟩
  case parts =>
    exact Eff.in_all_cons (Eff.in_upd (by simp [Upd.part])) <| Eff.in_all_cons (Eff.in_upd (by simp [Upd.part])) <|
      Eff.in_all_cons ((sprayTake_in l).mono (by simp)) <| Eff.in_all_cons ((gwEmit_in l p).mono (by simp)) Eff.in_all_nil

theorem gwSend_unreached {kind vc k args : Nat} {payload : List Byte} {cell queue : Option Nat} {lost : Eff} {s : State}
    (h : s.gwReach k = false) : (gwSend kind vc k args payload cell queue lost).run s = lost.run s := by
  rw [gwSend, Eff.run_look, h]

theorem gwReach_congr {s t : State} (hr : t.regs = s.regs) (hs : t.gwSpray = s.gwSpray) (k : Nat) : t.gwReach k = s.gwReach k := by
  have hregs : t.regsAt = s.regsAt := funext fun k => by rw [State.regsAt, State.regsAt, hr]
  have hget : t.get = s.get := funext fun f => by rw [State.get, State.get, hregs]
  have hspray : t.gwSprayAt = s.gwSprayAt := funext fun k => by rw [State.gwSprayAt, State.gwSprayAt, hs]
  have hup : t.gwUp = s.gwUp := funext fun l => by rw [State.gwUp, State.gwUp, State.regBit, State.regBit, hregs]
  simp only [State.gwReach, State.bit, State.sprayPick, hget, hspray, hup]

/-- Registers of a page below 0x1000 keep their fields. -/
theorem high_get {p : Eff} (h : p.Only Upd.high) {f : Fld} (hf : f.key < 0x10000000) (s : State) : (p.run s).get f = s.get f :=
  congrArg f.read (h.low hf s)

theorem seqPc_low {c t : Nat} (hc : c < 128) (ht : t < 16) : (R.SEQ_THR_PC_pc c t).key < 0x10000000 := by
  simp only [R.SEQ_THR_PC_pc, R.SEQ_THR_PC, rk]; omega

theorem nextPc_pc (c t : Nat) (u : State) : ((nextPc c t).run u).pc c t = (u.pc c t + 8) % 2 ^ 48 :=
  addWrap_same _ _ _ (show 0 + 48 ≤ 64 by decide)

/-- R314: a signal that is dropped is counted under its status. -/
theorem pbxDropped_gets {st : Nat} (hst : st < 256) (c : Nat) (s : State) :
    ((pbxDropped c st).run s).get (R.PBX_COUNTS_signals_dropped c) = min (s.get (R.PBX_COUNTS_signals_dropped c) + 1) 65535 ∧
    ((pbxDropped c st).run s).get (R.PBX_COUNTS_last_drop_status c) = st := by
  simp only [pbxDropped, Eff.run_all_cons, Eff.run_all_nil]
  constructor
  · rw [get_put_apart (.inr (.inr (show 0 + 16 ≤ 32 by decide))) (show 0 + 16 ≤ 64 by decide), addSat_same _ _ _ (show 0 + 16 ≤ 64 by decide)]
    rfl
  · exact put_same_of_lt (show 32 + 8 ≤ 64 by decide) hst _

theorem pbxDropped_within {ps : List Part} {keys : List Nat} {c : Nat} (h : R.PBX_COUNTS c ∈ keys) (st : Nat) :
    (pbxDropped c st).Only (Upd.within ps (oneOf keys)) := by
  simp only [pbxDropped, Eff.only_all_cons, Eff.only_all_nil, within_addSat, within_put, and_true]
  exact ⟨h, h⟩

section
variable {c : Fin 128} {t : Fin 16} {s : State}

/-- After an effect that keeps the pc, the thread goes on to the next instruction. -/
theorem pc_effect_nextPc {p : Eff} (h : (p.run (issued s c t)).pc c t = s.pc c t) :
    ((Eff.seq p (nextPc c t)).run (issued s c t)).pc c t = (s.pc c t + 8) % 2 ^ 48 := by
  rw [Eff.run_seq, nextPc_pc, h]

theorem signal_sent (src pbx add : Nat) :
    let r := (Eff.seq (sendSignal src c pbx add) (nextPc c t)).run (issued s c t)
    r.sigQ = s.sigQ ++ [⟨src, c, pbx, add, s.now⟩] ∧ r.pc c t = (s.pc c t + 8) % 2 ^ 48 ∧
    keepsRegs [R.SEQ_THR_PC c t] s r ∧ changesOnly [.regs, .icache, .rrLast, .sigQ] s r := by
  have hwithin : (Eff.seq (sendSignal src c pbx add) (nextPc c t)).Only (Upd.within [.sigQ] (oneOf [R.SEQ_THR_PC c t])) :=
    ⟨fun _ => by simp [Upd.within, Upd.part], by simp [nextPc, oneOf, R.SEQ_THR_PC_pc]⟩
  have hnow : (issued s c t).now = s.now := (issued_changes s c t).same_now (by simp)
  have hq : (issued s c t).sigQ = s.sigQ := (issued_changes s c t).same_sigQ (by simp)
  refine ⟨?_, pc_effect_nextPc (issued_pc ..), issued_keepsRegs (within_keepsRegs hwithin _),
    issued_changesOnly (within_changes hwithin _) (by simp) (by simp)⟩
  rw [Eff.run_seq, nextPc, ((addWrap_in (ps := [.regs]) _ _ (by simp)).changes _).same_sigQ (by simp), sendSignal, Eff.run_look, Eff.run_upd,
    Upd.run_sigQ, hnow, hq]

theorem signal_dropped {st : Nat} (hst : st < 256) :
    let r := (Eff.seq (pbxDropped c st) (nextPc c t)).run (issued s c t)
    r.get (R.PBX_COUNTS_signals_dropped c) = min (s.get (R.PBX_COUNTS_signals_dropped c) + 1) 65535 ∧
    r.get (R.PBX_COUNTS_last_drop_status c) = st ∧ r.pc c t = (s.pc c t + 8) % 2 ^ 48 ∧
    keepsRegs [R.PBX_COUNTS c, R.SEQ_THR_PC c t] s r ∧ restKept s r := by
  have hwithin : (Eff.seq (pbxDropped c st) (nextPc c t)).Only (Upd.within [] (oneOf [R.PBX_COUNTS c, R.SEQ_THR_PC c t])) :=
    ⟨pbxDropped_within (by simp) st, by simp [nextPc, oneOf, R.SEQ_THR_PC_pc]⟩
  have hdrop := pbxDropped_within (ps := []) (List.mem_singleton.2 (Eq.refl (R.PBX_COUNTS c))) st
  obtain ⟨hcount, hstatus⟩ := pbxDropped_gets hst c (issued s c t)
  have hpc : ((pbxDropped c st).run (issued s c t)).pc c t = s.pc c t := by
    rw [State.pc, within_get hdrop _ (by simp only [oneOf, List.mem_singleton, R.SEQ_THR_PC_pc, R.SEQ_THR_PC, R.PBX_COUNTS, rk]; omega)]
    exact issued_pc ..
  refine ⟨?_, ?_, pc_effect_nextPc hpc, issued_keepsRegs (within_keepsRegs hwithin _),
    issued_changesOnly (within_changes hwithin _) (by simp) (by simp)⟩
  all_goals rw [Eff.run_seq, nextPc]; simp (disch := (
    try simp only [apart, farKey, R.SEQ_THR_PC_pc, R.PBX_COUNTS_signals_dropped, R.PBX_COUNTS_last_drop_status, R.SEQ_THR_PC,
      R.PBX_COUNTS, rk]
    omega)) only [get_addWrap_apart]
  · rw [hcount, issued_get]
  · exact hstatus

theorem signal_packet {k args : Nat} {lost : Eff} (h : s.gwReach k = true) :
    let r := (Eff.seq (gwSend 0x03 2 k args [] (some c) none lost) (nextPc c t)).run (issued s c t)
    (∃ p, r.gwOut = s.gwOut ++ [p] ∧ p.kind = 0x03 ∧ p.vc = 2 ∧ p.dest = k ∧ p.args = args ∧ p.payload = []) ∧
    r.pc c t = (s.pc c t + 8) % 2 ^ 48 ∧ changesOnly [.regs, .icache, .rrLast, .gwOut, .hopBuf, .gwSeq, .gwSpray, .out] s r := by
  have hissue := issued_changes s c t
  have hreach : (issued s c t).gwReach k = true :=
    (gwReach_congr (hissue.same_regs (by simp)) (hissue.same_gwSpray (by simp)) k).trans h
  obtain ⟨p, q, hrun, hkind, hvc, hdest, hargs, hpayload, -, -, hout, hhigh, hin⟩ :=
    gwSend_reached (kind := 0x03) (vc := 2) (args := args) (payload := []) (cell := some c.val) (queue := none) (lost := lost) hreach
  have hpc : (q.run (issued s c t)).pc c t = s.pc c t := (high_get hhigh (seqPc_low c.isLt t.isLt) _).trans (issued_pc ..)
  have hboth : (Eff.seq q (nextPc c t)).In [.regs, .gwOut, .hopBuf, .gwSeq, .gwSpray, .out] := Eff.in_seq hin (addWrap_in _ _ (by simp))
  rw [Eff.run_seq, hrun, ← Eff.run_seq]
  refine ⟨⟨p, ?_, hkind, hvc, hdest, hargs, hpayload⟩, pc_effect_nextPc hpc, issued_changesOnly (hboth.changes _) (by simp) (by simp)⟩
  rw [Eff.run_seq, nextPc, ((addWrap_in (ps := [.regs]) _ _ (by simp)).changes _).same_gwOut (by simp), hout, hissue.same_gwOut (by simp)]

/-! ARRIVE -/

/-- R306: an arrival sets out. -/
def arrives (a : Arrival) (s : State) : Eff := .upd (.arrQ (s.arrQ ++ [a]))

theorem arrive_on (a : Arrival) :
    let r := (Eff.seq (arrives a (issued s c t)) (nextPc c t)).run (issued s c t)
    r.arrQ = s.arrQ ++ [a] ∧ r.pc c t = (s.pc c t + 8) % 2 ^ 48 ∧ keepsRegs [R.SEQ_THR_PC c t] s r ∧
    changesOnly [.regs, .icache, .rrLast, .arrQ] s r := by
  have hwithin : (Eff.seq (arrives a (issued s c t)) (nextPc c t)).Only (Upd.within [.arrQ] (oneOf [R.SEQ_THR_PC c t])) :=
    ⟨by simp [arrives, Upd.within, Upd.part], by simp [nextPc, oneOf, R.SEQ_THR_PC_pc]⟩
  refine ⟨?_, pc_effect_nextPc (issued_pc ..), issued_keepsRegs (within_keepsRegs hwithin _),
    issued_changesOnly (within_changes hwithin _) (by simp) (by simp)⟩
  rw [Eff.run_seq, nextPc, ((addWrap_in (ps := [.regs]) _ _ (by simp)).changes _).same_arrQ (by simp), arrives, Eff.run_upd,
    Upd.run_arrQ, (issued_changes s c t).same_arrQ (by simp)]

theorem arrive_sleeps (a : Arrival) {w : Nat} (hw : w < 64) (seen : Nat) :
    let r := (Eff.seq (arrives a (issued s c t)) (goWait c t w 0 1 seen 0)).run (issued s c t)
    r.arrQ = s.arrQ ++ [a] ∧ r.thr c t = THR_WAIT ∧ r.pc c t = s.pc c t ∧ r.bit (R.PBX_THR_WAIT_sleeping c t) = true ∧
    r.get (R.PBX_THR_WAIT_target c t) = w ∧ keepsQuiet [R.PBX_THR_WAIT c t, R.SEQ_THR_STATUS c t] s r ∧
    changesOnly [.regs, .icache, .rrLast, .arrQ, .waitSince, .msix, .mgmtQ, .out] s r := by
  have hgo : (goWait c t w 0 1 seen 0).Only
      (Upd.within [.waitSince, .msix, .mgmtQ, .out] (oneOfQuiet [R.PBX_THR_WAIT c t, R.SEQ_THR_STATUS c t])) :=
    goWait_within c.isLt (by simp [tells]) (by simp) (by simp) _ _ _ _ _
  have hwithin : (Eff.seq (arrives a (issued s c t)) (goWait c t w 0 1 seen 0)).Only
      (Upd.within [.arrQ, .waitSince, .msix, .mgmtQ, .out] (oneOfQuiet [R.PBX_THR_WAIT c t, R.SEQ_THR_STATUS c t])) := by
    refine ⟨?_, goWait_within c.isLt ?_ ?_ ?_ _ _ _ _ _⟩ <;> simp [arrives, tells, Upd.within, Upd.part]
  obtain ⟨hthr, htarget, -, hsleeping, -⟩ := goWait_gets (c := c) (t := t) (target := w) (waiting := 0) (sleeping := 1) (v := seen) (b := 0)
    c.isLt t.isLt hw (by decide) (by decide) (by decide) ((arrives a (issued s c t)).run (issued s c t))
  have hquiet := issued_keepsQuiet (within_keepsQuiet hwithin (issued s c t))
  have hfar : farKey (R.SEQ_THR_PC c t) := farKey_seq c.isLt (by omega) 1 (by decide)
  refine ⟨?_, ?_, ?_, ?_, ?_, hquiet, issued_changesOnly (within_changes hwithin _) (by simp) (by simp)⟩
  · rw [Eff.run_seq, (within_changes hgo _).same_arrQ (by simp), arrives, Eff.run_upd, Upd.run_arrQ,
      (issued_changes s c t).same_arrQ (by simp)]
  · rw [Eff.run_seq]; exact hthr
  · exact congrArg (R.SEQ_THR_PC_pc c t).read (hquiet _ hfar.1 hfar.2 (by
      simp only [List.mem_cons, List.not_mem_nil, or_false, R.SEQ_THR_PC_pc, R.SEQ_THR_PC, R.PBX_THR_WAIT, R.SEQ_THR_STATUS, rk]; omega))
  · rw [Eff.run_seq]; exact beq_iff_eq.2 hsleeping
  · rw [Eff.run_seq]; exact htarget

end

theorem seqSignalArrive : Claims.SeqSignalArrive := by
  intro c th d a b imm s x w next
  refine ⟨fun h => issues_effect rfl rfl rfl fun _ => ?signal, fun ⟨h, hreach⟩ => issues_effect rfl rfl rfl fun _ => ?lost,
    fun ⟨h, hreach⟩ => issues_effect rfl rfl rfl fun _ => ?packet, issues_effect rfl rfl rfl fun _ => ?arrive,
    issues_effect rfl rfl rfl fun _ => ?sleep⟩
  case signal =>
    simp only [Eff.run_look, issued_sreg]
    rw [if_pos h]
    exact signal_sent _ _ _
  case lost =>
    have hissue := issued_changes s c th
    have hlost : (issued s c th).gwReach (x / 2 ^ 14 % 2 ^ 16) = false :=
      (gwReach_congr (hissue.same_regs (by simp)) (hissue.same_gwSpray (by simp)) _).trans hreach
    simp only [Eff.run_look, issued_sreg]
    rw [if_neg (by rw [h]; decide), Eff.run_seq, gwSend_unreached hlost, ← Eff.run_seq]
    exact signal_dropped (by decide)
  case packet =>
    simp only [Eff.run_look, issued_sreg]
    rw [if_neg (by rw [h]; decide)]
    exact signal_packet hreach
  case arrive =>
    rw [Eff.run_look]
    exact arrive_on ⟨w, srcThread c th, none⟩
  case sleep =>
    have hseen : ∀ k, (issued s c th).relSeenAt k = s.relSeenAt k := fun k => by
      rw [State.relSeenAt, (issued_changes s c th).same_relSeen (by simp), State.relSeenAt]
    rw [Eff.run_look]
    exact arrive_sleeps ⟨w, srcThread c th, some (c, th)⟩ (Nat.mod_lt _ (by decide)) _

/-- Settles O8: what each instruction leaves on the state of its issue. -/
theorem seqSynchronisation : Obligations.SeqSynchronisation := ⟨seqWaitOutcomes, seqSignalArrive⟩

end Sys2Proof.Proofs

/-! Postboxes: additions, their overflow, the release of a waiter, and the registers that write them (R293–R299, R314). -/

namespace Sys2Proof.Proofs
open Sys2Proof.Machine Sys2Proof.Claims


/-! An addition -/

/-- A saturation is told of when there is one (R294). -/
def pbxSpill (c : Nat) (flag : Fld) (b : Bool) : Eff := Eff.when b (pbxOverflow c flag)

/-- What an addition to value does before the waiters are evaluated. -/
def pbxTake (c n v src edge : Nat) : Eff := .all [
  put (R.PBX_VALUE_value c n) (min v 0xFFFF),
  pbxSpill c (R.PBX_VALUE_ovf c n) (decide (0xFFFF < v)),
  put (R.PBX_LAST_last_src c n) src,
  put (R.PBX_LAST_last_edge c n) edge]

/-- What an addition to landed does before the waiters are evaluated. -/
def pbxTakeLanded (c n v : Nat) : Eff := .all [
  put (R.PBX_LANDED_landed c n) (min v 0xFFFFFFFF),
  pbxSpill c (R.PBX_VALUE_land_ovf c n) (decide (0xFFFFFFFF < v))]

theorem pbxAdd_run {add : Nat} (h : 0 < add) (c n src : Nat) (s : State) :
    (pbxAdd c n add src).run s = (pbxEval c n).run
      ((pbxTake c n (s.get (R.PBX_VALUE_value c n) + add) src (s.get R.TIDE_EDGE_NUM_edge)).run s) := by
  simp only [pbxAdd, if_neg (Nat.pos_iff_ne_zero.1 h), Eff.run_look, pbxTake, pbxSpill, Eff.run_all_cons, Eff.run_all_nil]

theorem pbxLand_run (c n bytes : Nat) (s : State) :
    (pbxLand c n bytes).run s = (pbxEval c n).run
      ((pbxTakeLanded c n (s.get (R.PBX_LANDED_landed c n) + bytes)).run s) := by
  simp only [pbxLand, Eff.run_look, pbxTakeLanded, pbxSpill, Eff.run_all_cons, Eff.run_all_nil]

theorem pbxEval_none {c n : Nat} {s : State} (h : s.waitersAt (c * 48 + n) = []) : (pbxEval c n).run s = s := by
  rw [pbxEval, Eff.run_look, h, Eff.run_each_nil]

theorem pbxSpill_within {ps : List Part} {keys : List Nat} {c : Nat} {flag : Fld} (hps : tells ps) (hflag : flag.key ∈ keys)
    (hcount : R.PBX_COUNTS c ∈ keys) (b : Bool) : (pbxSpill c flag b).Only (Upd.within ps (oneOfQuiet keys)) := by
  simp only [pbxSpill, pbxOverflow, Eff.only_when, Eff.only_all_cons, Eff.only_all_nil, within_putBit, within_addSat, and_true]
  exact fun _ => ⟨.inl hflag, .inl hcount, evFire_within _ hps⟩

theorem pbxTake_within {ps : List Part} {keys : List Nat} {c n : Nat} (hps : tells ps)
    (hkeys : [R.PBX_VALUE c n, R.PBX_LAST c n, R.PBX_COUNTS c] ⊆ keys) (v src edge : Nat) :
    (pbxTake c n v src edge).Only (Upd.within ps (oneOfQuiet keys)) := by
  have hvalue : R.PBX_VALUE c n ∈ keys := hkeys (by simp)
  have hlast : R.PBX_LAST c n ∈ keys := hkeys (by simp)
  simp only [pbxTake, Eff.only_all_cons, Eff.only_all_nil, within_put, and_true]
  exact ⟨.inl hvalue, pbxSpill_within hps hvalue (hkeys (by simp)) _, .inl hlast, .inl hlast⟩

theorem pbxTakeLanded_within {ps : List Part} {keys : List Nat} {c n : Nat} (hps : tells ps)
    (hkeys : [R.PBX_VALUE c n, R.PBX_LANDED c n, R.PBX_COUNTS c] ⊆ keys) (v : Nat) :
    (pbxTakeLanded c n v).Only (Upd.within ps (oneOfQuiet keys)) := by
  simp only [pbxTakeLanded, Eff.only_all_cons, Eff.only_all_nil, within_put, and_true]
  exact ⟨.inl (hkeys (by simp [R.PBX_LANDED_landed])), pbxSpill_within hps (hkeys (by simp [R.PBX_VALUE_land_ovf])) (hkeys (by simp)) _⟩

/-- A saturation sets its flag, counts and fires; it changes no other field of the postbox. -/
theorem pbxSpill_get {c : Nat} {flag f : Fld} (hf : farKey f.key) (hflag : apart flag f) (hcount : apart (R.PBX_COUNTS_overflows c) f)
    (hw : f.lo + f.w ≤ 64) (b : Bool) (s : State) : ((pbxSpill c flag b).run s).get f = s.get f := by
  cases b
  · rfl
  · simp only [pbxSpill, pbxOverflow, putBit, Eff.run_when_true, Eff.run_all_cons, Eff.run_all_nil]
    rw [get_evFire_far hf, get_addSat_apart hcount hw, get_put_apart hflag hw]

theorem pbxSpill_flag {c : Nat} {flag : Fld} (hf : farKey flag.key) (hcount : apart (R.PBX_COUNTS_overflows c) flag)
    (hw : flag.lo + flag.w ≤ 64) (h1 : flag.w = 1) (b : Bool) (s : State) :
    ((pbxSpill c flag b).run s).bit flag = (s.bit flag || b) := by
  cases b
  · rw [pbxSpill, Eff.run_when_false, Bool.or_false]
  · simp only [pbxSpill, pbxOverflow, Eff.run_when_true, Eff.run_all_cons, Eff.run_all_nil, Bool.or_true]
    rw [State.bit, get_evFire_far hf, get_addSat_apart hcount hw]
    exact bit_putBit flag hw h1 true s

theorem pbxSpill_count {c : Nat} {flag : Fld} (hc : c < 128) (hflag : apart flag (R.PBX_COUNTS_overflows c)) (b : Bool) (s : State) :
    ((pbxSpill c flag b).run s).get (R.PBX_COUNTS_overflows c) =
      min (s.get (R.PBX_COUNTS_overflows c) + if b then 1 else 0) 65535 := by
  have hlt : s.get (R.PBX_COUNTS_overflows c) < 2 ^ 16 := get_lt s _
  cases b
  · simp only [pbxSpill, Eff.run_when_false, Bool.false_eq_true, if_false]; omega
  · simp only [pbxSpill, pbxOverflow, putBit, Eff.run_when_true, Eff.run_all_cons, Eff.run_all_nil, if_true]
    rw [get_evFire_far (farKey_seq hc (by omega) 7 (by decide)), addSat_same _ _ _ (show 16 + 16 ≤ 64 by decide),
      get_put_apart hflag (show 16 + 16 ≤ 64 by decide)]
    rfl

theorem pbxKey_far {c n : Nat} (hc : c < 128) (hn : n < 48) :
    farKey (R.PBX_VALUE c n) ∧ farKey (R.PBX_LANDED c n) ∧ farKey (R.PBX_LAST c n) :=
  ⟨farKey_seq hc (by omega) 7 (by decide), farKey_seq hc (by omega) 7 (by decide), farKey_seq hc (by omega) 7 (by decide)⟩

/-- R294, R297: the postbox after an addition to value. -/
theorem pbxTake_gets {c n : Nat} (hc : c < 128) (hn : n < 48) (v src edge : Nat) (s : State) :
    let r := (pbxTake c n v src edge).run s
    postbox r c n (min v 65535) (s.get (R.PBX_LANDED_landed c n)) (s.bit (R.PBX_VALUE_ovf c n) || decide (65535 < v))
      (s.bit (R.PBX_VALUE_land_ovf c n)) (src % 2 ^ 16) (edge % 2 ^ 32) ∧
    r.get (R.PBX_COUNTS_overflows c) = min (s.get (R.PBX_COUNTS_overflows c) + if 65535 < v then 1 else 0) 65535 := by
  obtain ⟨hfv, hfl, hfs⟩ := pbxKey_far hc hn
  have hflag : ∀ u : State, ((pbxSpill c (R.PBX_VALUE_ovf c n) (decide (65535 < v))).run u).bit (R.PBX_VALUE_ovf c n) =
      (u.bit (R.PBX_VALUE_ovf c n) || decide (65535 < v)) := fun u =>
    pbxSpill_flag hfv (.inl
      (by simp only [R.PBX_VALUE_ovf, R.PBX_COUNTS_overflows, R.PBX_VALUE, R.PBX_COUNTS, rk]; omega)) (show 16 + 1 ≤ 64 by decide) rfl _ u
  have hcount : ∀ u : State, ((pbxSpill c (R.PBX_VALUE_ovf c n) (decide (65535 < v))).run u).get (R.PBX_COUNTS_overflows c) =
      min (u.get (R.PBX_COUNTS_overflows c) + if 65535 < v then 1 else 0) 65535 := fun u => by
    rw [pbxSpill_count hc (.inl (by simp only [R.PBX_VALUE_ovf, R.PBX_COUNTS_overflows, R.PBX_VALUE, R.PBX_COUNTS, rk]; omega))]
    simp only [decide_eq_true_eq]
  simp only [State.bit] at hflag
  simp only [pbxTake, Eff.run_all_cons, Eff.run_all_nil, postbox, State.bit]
  simp (disch := (
    try simp only [apart, farKey, R.PBX_VALUE_value, R.PBX_VALUE_ovf, R.PBX_VALUE_land_ovf, R.PBX_LANDED_landed,
      R.PBX_LAST_last_src, R.PBX_LAST_last_edge, R.PBX_COUNTS_overflows, R.PBX_VALUE, R.PBX_LANDED, R.PBX_LAST, R.PBX_COUNTS,
      rk]
    omega)) only
    [get_put_apart, pbxSpill_get, put_same, hflag, hcount, true_and, and_true]
  refine ⟨?_, rfl, rfl⟩
  simp only [R.PBX_VALUE_value, R.PBX_VALUE]; omega

/-- R294, R301: the postbox after an addition to landed. -/
theorem pbxTakeLanded_gets {c n : Nat} (hc : c < 128) (hn : n < 48) (v : Nat) (s : State) :
    let r := (pbxTakeLanded c n v).run s
    postbox r c n (s.get (R.PBX_VALUE_value c n)) (min v 0xFFFFFFFF) (s.bit (R.PBX_VALUE_ovf c n))
      (s.bit (R.PBX_VALUE_land_ovf c n) || decide (0xFFFFFFFF < v)) (s.get (R.PBX_LAST_last_src c n)) (s.get (R.PBX_LAST_last_edge c n)) ∧
    r.get (R.PBX_COUNTS_overflows c) = min (s.get (R.PBX_COUNTS_overflows c) + if 0xFFFFFFFF < v then 1 else 0) 65535 := by
  obtain ⟨hfv, hfl, hfs⟩ := pbxKey_far hc hn
  have hflag : ∀ u : State, ((pbxSpill c (R.PBX_VALUE_land_ovf c n) (decide (0xFFFFFFFF < v))).run u).bit (R.PBX_VALUE_land_ovf c n) =
      (u.bit (R.PBX_VALUE_land_ovf c n) || decide (0xFFFFFFFF < v)) := fun u =>
    pbxSpill_flag hfv (.inl
      (by simp only [R.PBX_VALUE_land_ovf, R.PBX_COUNTS_overflows, R.PBX_VALUE, R.PBX_COUNTS, rk]; omega)) (show 17 + 1 ≤ 64 by decide) rfl _ u
  have hcount : ∀ u : State, ((pbxSpill c (R.PBX_VALUE_land_ovf c n) (decide (0xFFFFFFFF < v))).run u).get (R.PBX_COUNTS_overflows c) =
      min (u.get (R.PBX_COUNTS_overflows c) + if 0xFFFFFFFF < v then 1 else 0) 65535 := fun u => by
    rw [pbxSpill_count hc (.inl
      (by simp only [R.PBX_VALUE_land_ovf, R.PBX_COUNTS_overflows, R.PBX_VALUE, R.PBX_COUNTS, rk]; omega))]
    simp only [decide_eq_true_eq]
  simp only [State.bit] at hflag
  simp only [pbxTakeLanded, Eff.run_all_cons, Eff.run_all_nil, postbox, State.bit]
  simp (disch := (
    try simp only [apart, farKey, R.PBX_VALUE_value, R.PBX_VALUE_ovf, R.PBX_VALUE_land_ovf, R.PBX_LANDED_landed,
      R.PBX_LAST_last_src, R.PBX_LAST_last_edge, R.PBX_COUNTS_overflows, R.PBX_VALUE, R.PBX_LANDED, R.PBX_LAST, R.PBX_COUNTS,
      rk]
    omega)) only
    [get_put_apart, pbxSpill_get, put_same, hflag, hcount, true_and, and_true]
  simp only [R.PBX_LANDED_landed, R.PBX_LANDED]; omega

/-! The delivery of additions -/

theorem get_of_regs {s t : State} (h : t.regs = s.regs) : t.get = s.get ∧ t.regsAt = s.regsAt := by
  have hregs : t.regsAt = s.regsAt := funext fun k => by rw [State.regsAt, State.regsAt, h]
  exact ⟨funext fun f => by rw [State.get, State.get, hregs], hregs⟩

theorem signalled_congr {c n add src : Nat} {s u t : State} (h : u.regs = s.regs) (hs : signalled c n add src u t) :
    signalled c n add src s t := by
  obtain ⟨hget, hregs⟩ := get_of_regs h
  simpa only [signalled, State.bit, keepsQuiet, hget, hregs] using hs

/-- A postbox without waiters takes a signal. -/
theorem pbxAdd_signalled {c n add src : Nat} (hc : c < 128) (hn : n < 48) (hadd : 0 < add) {s : State}
    (hw : s.waitersAt (c * 48 + n) = []) :
    signalled c n add src s ((pbxAdd c n add src).run s) ∧
    changesOnly [.regs, .msix, .mgmtQ, .out] s ((pbxAdd c n add src).run s) := by
  have hwithin := pbxTake_within (ps := [.msix, .mgmtQ, .out]) (c := c) (n := n)
    (by simp [tells]) (List.Subset.refl _) (s.get (R.PBX_VALUE_value c n) + add) src (s.get R.TIDE_EDGE_NUM_edge)
  have hchanges := within_changes hwithin s
  rw [pbxAdd_run hadd, pbxEval_none (by rw [State.waitersAt, hchanges.same_waiters (by simp)]; exact hw)]
  obtain ⟨hbox, hcount⟩ := pbxTake_gets hc hn (s.get (R.PBX_VALUE_value c n) + add) src (s.get R.TIDE_EDGE_NUM_edge) s
  exact ⟨⟨hbox, hcount, within_keepsQuiet hwithin s⟩, hchanges⟩

theorem pbxAdd_zero (c n src : Nat) (s : State) : (pbxAdd c n 0 src).run s = s := rfl

/-- A postbox without waiters takes a landing notice. -/
theorem pbxLand_landed {c n : Nat} (hc : c < 128) (hn : n < 48) (bytes : Nat) {s : State} (hw : s.waitersAt (c * 48 + n) = []) :
    let r := (pbxLand c n bytes).run s
    let v := s.get (R.PBX_LANDED_landed c n) + bytes
    postbox r c n (s.get (R.PBX_VALUE_value c n)) (min v 0xFFFFFFFF) (s.bit (R.PBX_VALUE_ovf c n))
      (s.bit (R.PBX_VALUE_land_ovf c n) || decide (0xFFFFFFFF < v)) (s.get (R.PBX_LAST_last_src c n)) (s.get (R.PBX_LAST_last_edge c n)) ∧
    r.get (R.PBX_COUNTS_overflows c) = min (s.get (R.PBX_COUNTS_overflows c) + if 0xFFFFFFFF < v then 1 else 0) 65535 ∧
    keepsQuiet [R.PBX_VALUE c n, R.PBX_LANDED c n, R.PBX_COUNTS c] s r ∧ changesOnly [.regs, .msix, .mgmtQ, .out] s r := by
  have hwithin := pbxTakeLanded_within (ps := [.msix, .mgmtQ, .out]) (c := c) (n := n)
    (by simp [tells]) (List.Subset.refl _) (s.get (R.PBX_LANDED_landed c n) + bytes)
  have hchanges := within_changes hwithin s
  rw [pbxLand_run, pbxEval_none (by rw [State.waitersAt, hchanges.same_waiters (by simp)]; exact hw)]
  obtain ⟨hbox, hcount⟩ := pbxTakeLanded_gets hc hn (s.get (R.PBX_LANDED_landed c n) + bytes) s
  exact ⟨hbox, hcount, within_keepsQuiet hwithin s, hchanges⟩

/-- Which postbox of which cell a global number names. -/
theorem pbx_split {g : Nat} (h : g ≤ 6143) : g / 48 < 128 ∧ g % 48 < 48 ∧ g / 48 * 48 + g % 48 = g := by omega

theorem pbx_exists {s : State} {g : Nat} (h : s.pbxStatus g = ST_OK) : g ≤ 6143 := by
  by_contra hg
  rw [State.pbxStatus, if_pos (by omega)] at h
  exact absurd h (by decide)

theorem pbxStatus_lt (s : State) (g : Nat) : s.pbxStatus g < 256 := by
  unfold State.pbxStatus
  split_ifs <;> decide

/-! Additions that are dropped (R314) -/

theorem pbxCounts_inj {c c' : Nat} (h : R.PBX_COUNTS c = R.PBX_COUNTS c') : c = c' := by
  simp only [R.PBX_COUNTS, rk] at h; omega

theorem pbxDropped_other {f : Fld} {c c' : Nat} (hf : f.key = R.PBX_COUNTS c') (h : c ≠ c') (st : Nat) (s : State) :
    ((pbxDropped c st).run s).get f = s.get f :=
  within_get (pbxDropped_within (ps := []) (List.mem_singleton.2 rfl) st) s fun hk =>
    h (pbxCounts_inj ((List.mem_singleton.1 hk).symm.trans hf))

theorem each_dropped_count {α : Type} (cell : α → Nat) {st : Nat} (hst : st < 256) (xs : List α) (c : Nat) (s : State) :
    ((Eff.each xs fun x => pbxDropped (cell x) st).run s).get (R.PBX_COUNTS_signals_dropped c) =
      min (s.get (R.PBX_COUNTS_signals_dropped c) + (xs.filter fun x => cell x == c).length) 65535 := by
  induction xs generalizing s with
  | nil =>
    have : s.get (R.PBX_COUNTS_signals_dropped c) < 2 ^ 16 := get_lt s _
    simp only [Eff.run_each_nil, List.filter_nil, List.length_nil]; omega
  | cons x xs ih =>
    rw [Eff.run_each_cons, ih]
    by_cases hx : cell x = c
    · subst hx
      rw [(pbxDropped_gets hst (cell x) s).1, List.filter_cons_of_pos (by simp), List.length_cons]; omega
    · rw [pbxDropped_other rfl hx, List.filter_cons_of_neg (by simpa using hx)]

theorem each_dropped_within {α : Type} (cell : α → Nat) (st : Nat) (xs : List α) :
    (Eff.each xs fun x => pbxDropped (cell x) st).Only (Upd.within [] (oneOf (xs.map fun x => R.PBX_COUNTS (cell x)))) :=
  (Eff.only_each _ _).2 fun x hx => pbxDropped_within (List.mem_map.2 ⟨x, hx, rfl⟩) st

theorem each_dropped_status {α : Type} (cell : α → Nat) {st : Nat} (hst : st < 256) {xs : List α} {c : Nat} {s : State}
    (h : s.get (R.PBX_COUNTS_last_drop_status c) = st ∨ ∃ x ∈ xs, cell x = c) :
    ((Eff.each xs fun x => pbxDropped (cell x) st).run s).get (R.PBX_COUNTS_last_drop_status c) = st := by
  induction xs generalizing s with
  | nil => exact h.resolve_right (by simp)
  | cons x xs ih =>
    rw [Eff.run_each_cons]
    apply ih
    by_cases hx : cell x = c
    · exact .inl (hx ▸ (pbxDropped_gets hst (cell x) s).2)
    · refine h.imp (fun h => ?_) fun ⟨y, hy, hc⟩ => ?_
      · rw [pbxDropped_other rfl hx]
        exact h
      · exact ⟨y, (List.mem_cons.1 hy).resolve_left fun he => hx (he ▸ hc), hc⟩

theorem postboxSignal_run {s : State} {g : Sig} {rest : List Sig} (hq : s.sigQ = g :: rest) :
    postboxSignal.run s = (if s.pbxStatus g.pbx = ST_OK then pbxAdd (g.pbx / 48) (g.pbx % 48)
        ((takeSame Sig.key g s.sigQ).1.map Sig.add).sum (sumSrc (takeSame Sig.key g s.sigQ).1)
      else Eff.each (takeSame Sig.key g s.sigQ).1 fun x => pbxDropped x.cell (s.pbxStatus g.pbx)).run
        ((Upd.sigQ (takeSame Sig.key g s.sigQ).2).run s) := by
  simp only [postboxSignal, Eff.run_look, hq, Eff.run_seq, Eff.run_upd]

theorem landingNotice_run {s : State} {g : Landing} {rest : List Landing} (hq : s.landQ = g :: rest) :
    landingNotice.run s = (if s.pbxStatus g.pbx = ST_OK then pbxLand (g.pbx / 48) (g.pbx % 48)
        ((takeSame Landing.key g s.landQ).1.map Landing.bytes).sum
      else Eff.each ((takeSame Landing.key g s.landQ).1.filterMap Landing.cell) fun c => pbxDropped c (s.pbxStatus g.pbx)).run
        ((Upd.landQ (takeSame Landing.key g s.landQ).2).run s) := by
  simp only [landingNotice, Eff.run_look, hq, Eff.run_seq, Eff.run_upd]

/-- Additions that are dropped: how often each sender's cell has counted, and what it shows. -/
theorem dropped_each {α : Type} {s u : State} (hu : u.regs = s.regs) (cell : α → Nat) (g : Nat) (xs : List α) :
    let t := (Eff.each xs fun x => pbxDropped (cell x) (s.pbxStatus g)).run u
    (∀ c, t.get (R.PBX_COUNTS_signals_dropped c) =
      min (s.get (R.PBX_COUNTS_signals_dropped c) + (xs.filter fun x => cell x == c).length) 65535) ∧
    (∀ x ∈ xs, t.get (R.PBX_COUNTS_last_drop_status (cell x)) = s.pbxStatus g) ∧
    keepsRegs (xs.map fun x => R.PBX_COUNTS (cell x)) s t ∧ changesOnly [.regs] u t := by
  obtain ⟨hget, hregs⟩ := get_of_regs hu
  have hwithin := each_dropped_within cell (s.pbxStatus g) xs
  have hframe := within_keepsRegs hwithin u
  simp only [keepsRegs, hregs] at hframe
  refine ⟨fun c => ?_, fun x hx => each_dropped_status cell (pbxStatus_lt s g) (.inr ⟨x, hx, rfl⟩), hframe, within_changes hwithin u⟩
  rw [each_dropped_count cell (pbxStatus_lt s g), hget]

theorem postboxDelivery : Claims.PostboxDelivery := by
  intro s hpow
  refine ⟨fun g rest hq => ?signals, fun g rest hq => ?landings⟩
  case signals =>
    have hsig : changesOnly [.sigQ] s ((Upd.sigQ (takeSame Sig.key g s.sigQ).2).run s) :=
      Eff.In.changes (Eff.in_upd (by simp [Upd.part])) s
    have hset : ((Upd.sigQ (takeSame Sig.key g s.sigQ).2).run s).sigQ = (takeSame Sig.key g s.sigQ).2 := Upd.run_sigQ ..
    have hregs := hsig.same_regs (by simp)
    refine ⟨fun hok hadd hw => ?taken, fun hok hzero => ?nothing, fun hdrop => ?dropped⟩
    all_goals
      refine yields_done (p := postboxSignal) rfl hpow ?_
      rw [postboxSignal_run hq]
    case taken =>
      obtain ⟨hc, hn, hg⟩ := pbx_split (pbx_exists hok)
      obtain ⟨hsum, hrest⟩ := pbxAdd_signalled hc hn hadd (src := sumSrc (takeSame Sig.key g s.sigQ).1)
        (s := (Upd.sigQ (takeSame Sig.key g s.sigQ).2).run s) (by
          rw [hg, State.waitersAt, hsig.same_waiters (by simp)]; exact hw)
      rw [if_pos hok]
      exact ⟨(hrest.same_sigQ (by simp)).trans hset, signalled_congr hregs hsum,
        changesOnly_trans (changesOnly_mono (by simp) hsig) (changesOnly_mono (by simp) hrest)⟩
    case nothing =>
      rw [if_pos hok, hzero, pbxAdd_zero]
      exact ⟨hset, hsig⟩
    case dropped =>
      rw [if_neg hdrop]
      obtain ⟨hcount, hstatus, hframe, hrest⟩ := dropped_each hregs Sig.cell g.pbx (takeSame Sig.key g s.sigQ).1
      exact ⟨(hrest.same_sigQ (by simp)).trans hset, hcount, hstatus, hframe,
        changesOnly_trans (changesOnly_mono (by simp) hsig) (changesOnly_mono (by simp) hrest)⟩
  case landings =>
    have hland : changesOnly [.landQ] s ((Upd.landQ (takeSame Landing.key g s.landQ).2).run s) :=
      Eff.In.changes (Eff.in_upd (by simp [Upd.part])) s
    have hset : ((Upd.landQ (takeSame Landing.key g s.landQ).2).run s).landQ = (takeSame Landing.key g s.landQ).2 := Upd.run_landQ ..
    have hregs := hland.same_regs (by simp)
    obtain ⟨hget, hregsAt⟩ := get_of_regs hregs
    refine ⟨fun hok hw => ?taken, fun hdrop => ?dropped⟩
    all_goals
      refine yields_done (p := landingNotice) rfl hpow ?_
      rw [landingNotice_run hq]
    case taken =>
      obtain ⟨hc, hn, hg⟩ := pbx_split (pbx_exists hok)
      obtain ⟨hbox, hcount, hframe, hrest⟩ := pbxLand_landed hc hn ((takeSame Landing.key g s.landQ).1.map Landing.bytes).sum
        (s := (Upd.landQ (takeSame Landing.key g s.landQ).2).run s) (by
          rw [hg, State.waitersAt, hland.same_waiters (by simp)]; exact hw)
      simp only [State.bit, hget, keepsQuiet, hregsAt] at hbox hcount hframe
      rw [if_pos hok]
      exact ⟨(hrest.same_landQ (by simp)).trans hset, hbox, hcount, hframe,
        changesOnly_trans (changesOnly_mono (by simp) hland) (changesOnly_mono (by simp) hrest)⟩
    case dropped =>
      rw [if_neg hdrop]
      obtain ⟨hcount, hstatus, hframe, hrest⟩ := dropped_each hregs id g.pbx ((takeSame Landing.key g s.landQ).1.filterMap Landing.cell)
      exact ⟨(hrest.same_landQ (by simp)).trans hset, hcount, hstatus, hframe,
        changesOnly_trans (changesOnly_mono (by simp) hland) (changesOnly_mono (by simp) hrest)⟩

theorem diesOff_of_standby {s : State} (h : s.standby = true) : s.diesOff = true := by
  simp only [State.standby, beq_iff_eq] at h
  simp only [State.diesOff, h, le_refl, decide_true]

theorem postboxReach : Claims.PostboxReach := by
  intro s g
  refine ⟨fun h => ?_, fun h hs => ?_, fun h hd hr => ?_, fun h hd hr => ?_⟩
  · rw [State.pbxStatus, if_pos h]
  · rw [State.pbxStatus, if_neg (Nat.not_lt.2 h), diesOff_of_standby hs]; rfl
  · rw [State.pbxStatus, if_neg (Nat.not_lt.2 h), hd, hr]; rfl
  · rw [State.pbxStatus, if_neg (Nat.not_lt.2 h), hd, hr]; rfl

/-! The release of a waiter (R299) -/

theorem monTake_within {ps : List Part} {keys : List Nat} (hps : tells ps) (hmon : Part.mon ∈ ps) (u : Nat) (w : Int) :
    (monTake u w).Only (Upd.within ps (oneOfQuiet keys)) :=
  fun _ => ⟨hmon, (Eff.only_when _ _).2 fun _ => evFire_within _ hps⟩

theorem monSample_within {ps : List Part} {keys : List Nat} (hps : tells ps) (hmon : Part.mon ∈ ps) (code inst : Nat) (v : Int) :
    (monSample code inst v).Only (Upd.within ps (oneOfQuiet keys)) := fun _ =>
  (Eff.only_each _ _).2 fun _ _ => (Eff.only_when _ _).2 fun _ => monTake_within hps hmon _ _

theorem leavePostbox_within {ps : List Part} {K : Nat → Prop} {c n : Nat} (hps : Part.waiters ∈ ps) (hkey : K (R.PBX_VALUE c n)) (t : Nat) :
    (leavePostbox c n t).Only (Upd.within ps K) := by
  simp only [leavePostbox, Eff.only_look, Eff.only_all_cons, Eff.only_all_nil, Eff.only_upd, within_putBit, and_true]
  exact fun _ => ⟨hps, hkey⟩

theorem waitOver_within {ps : List Part} {K : Nat → Prop} {c t : Nat} (hps : Part.waitSince ∈ ps) (hck : K (R.PBX_WAIT_CK c))
    (hwait : K (R.PBX_THR_WAIT c t)) : (waitOver c t).Only (Upd.within ps K) := by
  simp only [waitOver, Eff.only_look, Eff.only_all_cons, Eff.only_all_nil, Eff.only_upd, within_addSat, within_putReg, and_true]
  exact fun _ => ⟨hck, hps, hwait⟩

/-- The registers that the end of a thread's wait writes. -/
def wakeKeys (c t : Nat) : List Nat := [R.PBX_WAIT_CK c, R.PBX_THR_WAIT c t, R.SEQ_THR_STATUS c t, R.SEQ_THR_PC c t]

theorem wakeThread_within {ps : List Part} {keys : List Nat} {c t : Nat} (hc : c < 128) (hps : tells ps) (hw : Part.waitSince ∈ ps)
    (hkeys : wakeKeys c t ⊆ keys) : (wakeThread c t).Only (Upd.within ps (oneOfQuiet keys)) := by
  simp only [wakeThread, nextPc, Eff.only_all_cons, Eff.only_all_nil, within_addWrap, and_true]
  exact ⟨waitOver_within hw (.inl (hkeys (by simp [wakeKeys]))) (.inl (hkeys (by simp [wakeKeys]))),
    putThr_within _ hc hps (hkeys (by simp [wakeKeys])), .inl (hkeys (by simp [wakeKeys, R.SEQ_THR_PC_pc]))⟩

/-- A thread whose wait ends runs on behind its WAIT or ARRIVE. -/
theorem wakeThread_gets {c t : Nat} (hc : c < 128) (ht : t < 16) (s : State) :
    ((wakeThread c t).run s).thr c t = THR_RUN ∧ ((wakeThread c t).run s).pc c t = (s.pc c t + 8) % 2 ^ 48 := by
  have hover : (waitOver c t).Only (Upd.within [.waitSince] (oneOf [R.PBX_WAIT_CK c, R.PBX_THR_WAIT c t])) :=
    waitOver_within (by simp) (by simp [oneOf]) (by simp [oneOf])
  have hthr := putThr_thr c t THR_RUN hc ht (by decide) ((waitOver c t).run s)
  simp only [wakeThread, Eff.run_all_cons, Eff.run_all_nil, nextPc_pc]
  constructor
  · rw [nextPc, State.thr, get_addWrap_apart (.inl
    (by simp only [R.SEQ_THR_PC_pc, R.SEQ_THR_STATUS_state, R.SEQ_THR_PC, R.SEQ_THR_STATUS, rk]; omega)) (show 0 + 3 ≤ 64 by decide)]
    exact hthr
  · rw [State.pc, get_putThr_apart hc (farKey_seq hc (by omega) 1 (by decide))
      (.inl
        (by simp only [R.SEQ_THR_PC_pc, R.SEQ_THR_STATUS_state, R.SEQ_THR_PC, R.SEQ_THR_STATUS, rk]; omega)) (show 0 + 48 ≤ 64 by decide),
      within_get hover s
        (by simp only [oneOf, List.mem_cons, List.not_mem_nil, or_false, R.SEQ_THR_PC_pc, R.SEQ_THR_PC, R.PBX_WAIT_CK,
              R.PBX_THR_WAIT, rk]; omega)]
    rfl

/-- A waiter that what is left meets: its thresholds are consumed, it leaves the waiters and runs on. -/
def pbxRelease (c n t v b : Nat) (sample : Int) : Eff := .all [
  pbxConsume c n v b, leavePostbox c n t, monSample 0x0D c sample, wakeThread c t]

theorem pbxTry_run (c n t : Nat) (s : State) : ∃ sample, (pbxTry c n t).run s =
    if s.get (R.PBX_THR_WAIT_v c t) ≤ s.get (R.PBX_VALUE_value c n) ∧ s.get (R.PBX_THR_WAIT_b c t) ≤ s.get (R.PBX_LANDED_landed c n)
    then (pbxRelease c n t (s.get (R.PBX_THR_WAIT_v c t)) (s.get (R.PBX_THR_WAIT_b c t)) sample).run s else s := by
  refine ⟨(s.now : Int) - s.waitSinceAt (c * 16 + t), ?_⟩
  rw [pbxTry, Eff.run_look, Eff.run_when]
  simp only [pbxMet_iff]
  rfl

theorem pbxRelease_within {ps : List Part} {keys : List Nat} {c t : Nat} (hc : c < 128) (hps : tells ps) (hmon : Part.mon ∈ ps)
    (hw : Part.waitSince ∈ ps) (hq : Part.waiters ∈ ps) (n v b : Nat) (sample : Int)
    (hkeys : [R.PBX_VALUE c n, R.PBX_LANDED c n] ++ wakeKeys c t ⊆ keys) :
    (pbxRelease c n t v b sample).Only (Upd.within ps (oneOfQuiet keys)) := by
  have hvalue : R.PBX_VALUE c n ∈ keys := hkeys (by simp)
  simp only [pbxRelease, pbxConsume, Eff.only_all_cons, Eff.only_all_nil, Eff.only_look, within_put, and_true]
  exact ⟨fun _ => ⟨.inl hvalue, .inl (hkeys (by simp [R.PBX_LANDED_landed]))⟩, leavePostbox_within hq (.inl hvalue) t, monSample_within hps hmon _ _ _,
    wakeThread_within hc hps hw fun k hk => hkeys (List.mem_append_right _ hk)⟩

theorem pbxRelease_gets {c n t : Nat} (hc : c < 128) (hn : n < 48) (ht : t < 16) (v b : Nat) (sample : Int) (s : State) :
    let r := (pbxRelease c n t v b sample).run s
    r.get (R.PBX_VALUE_value c n) = s.get (R.PBX_VALUE_value c n) - v ∧
    r.get (R.PBX_LANDED_landed c n) = s.get (R.PBX_LANDED_landed c n) - b ∧
    r.waitersAt (c * 48 + n) = (s.waitersAt (c * 48 + n)).filter (fun i => i != t) ∧ r.thr c t = THR_RUN ∧
    r.pc c t = (s.pc c t + 8) % 2 ^ 48 := by
  obtain ⟨hfv, hfl, -⟩ := pbxKey_far hc hn
  have hfp : farKey (R.SEQ_THR_PC c t) := farKey_seq hc (by omega) 1 (by decide)
  have hconsume : (pbxConsume c n v b).Only (Upd.within [] (oneOf [R.PBX_VALUE c n, R.PBX_LANDED c n])) := pbxConsume_within (by simp) v b
  have hleave : (leavePostbox c n t).Only (Upd.within [.waiters] (oneOf [R.PBX_VALUE c n])) := leavePostbox_within (by simp) (by simp [oneOf]) t
  have hmon : (monSample 0x0D c sample).Only (Upd.within [.mon, .msix, .mgmtQ, .out] (oneOfQuiet [])) :=
    monSample_within (by simp [tells]) (by simp) _ _ _
  have hwake : (wakeThread c t).Only (Upd.within [.waitSince, .msix, .mgmtQ, .out] (oneOfQuiet (wakeKeys c t))) :=
    wakeThread_within hc (by simp [tells]) (by simp) (List.Subset.refl _)
  have hmget : ∀ {f : Fld} (u : State), farKey f.key → ((monSample 0x0D c sample).run u).get f = u.get f := fun u hf =>
    within_get hmon u (by simpa [oneOfQuiet] using hf)
  have hvl : ∀ u : State, ((leavePostbox c n t).run u).get (R.PBX_VALUE_value c n) = u.get (R.PBX_VALUE_value c n) := fun u => by
    simp only [leavePostbox, putBit, Eff.run_look, Eff.run_all_cons, Eff.run_all_nil, Eff.run_upd]
    rw [get_put_apart (.inr (.inr (show 0 + 16 ≤ 32 + t by omega))) (show 0 + 16 ≤ 64 by decide)]
    rfl
  have hne : R.PBX_LANDED c n ≠ R.PBX_VALUE c n ∧ R.SEQ_THR_PC c t ≠ R.PBX_VALUE c n ∧ R.SEQ_THR_PC c t ≠ R.PBX_LANDED c n := by
    simp only [R.PBX_LANDED, R.PBX_VALUE, R.SEQ_THR_PC, rk]; omega
  have hwk : R.PBX_VALUE c n ∉ wakeKeys c t ∧ R.PBX_LANDED c n ∉ wakeKeys c t := by
    simp only [wakeKeys, List.mem_cons, List.not_mem_nil, or_false, R.PBX_LANDED, R.PBX_VALUE, R.SEQ_THR_PC, R.PBX_WAIT_CK,
      R.PBX_THR_WAIT, R.SEQ_THR_STATUS, rk]
    omega
  obtain ⟨hvalue, hlanded⟩ := pbxConsume_gets c n v b s
  obtain ⟨hthr, hpc⟩ := wakeThread_gets hc ht ((monSample 0x0D c sample).run ((leavePostbox c n t).run ((pbxConsume c n v b).run s)))
  simp only [pbxRelease, Eff.run_all_cons, Eff.run_all_nil]
  refine ⟨?value, ?landed, ?waiters, hthr, ?pc⟩
  case value => rw [within_get hwake _ (not_or.2 ⟨hwk.1, not_not_intro hfv⟩), hmget _ hfv, hvl, hvalue]
  case landed =>
    rw [within_get hwake _ (not_or.2 ⟨hwk.2, not_not_intro hfl⟩), hmget _ hfl, within_get hleave _ (by
      simpa only [oneOf, List.mem_singleton, R.PBX_LANDED_landed] using hne.1), hlanded]
  case waiters =>
    rw [State.waitersAt, (within_changes hwake _).same_waiters (by simp), (within_changes hmon _).same_waiters (by simp)]
    simp only [leavePostbox, Eff.run_look, Eff.run_all_cons, Eff.run_all_nil, Eff.run_upd]
    have hput : ∀ (f : Fld) (x : Nat) (u : State), ((put f x).run u).waiters = u.waiters := fun f x u =>
      (Eff.In.changes (put_in (ps := [.regs]) f x (by simp)) u).same_waiters (by simp)
    rw [putBit, hput]
    refine (Upd.run_waiters_same _ _ _).trans ?_
    rw [State.waitersAt, (within_changes hconsume s).same_waiters (by simp), State.waitersAt]
  case pc =>
    rw [hpc, State.pc, hmget _ hfp, within_get hleave _ (by simpa only [oneOf, List.mem_singleton, R.SEQ_THR_PC_pc] using hne.2.1),
      within_get hconsume _ (by simpa [oneOf, R.SEQ_THR_PC_pc] using hne.2)]
    rfl

/-- An addition without overflow changes registers alone. -/
theorem pbxTake_quiet {c n v : Nat} (hv : v ≤ 65535) (src edge : Nat) : (pbxTake c n v src edge).Only
    (Upd.within [] (oneOf [R.PBX_VALUE c n, R.PBX_LAST c n])) := by
  have hno : decide (0xFFFF < v) = false := decide_eq_false (by omega)
  simp only [pbxTake, pbxSpill, hno, Eff.only_all_cons, Eff.only_all_nil, Eff.only_when, within_put, and_true]
  exact ⟨by simp [oneOf, R.PBX_VALUE_value], nofun, by simp [oneOf, R.PBX_LAST_last_src], by simp [oneOf, R.PBX_LAST_last_edge]⟩

theorem signalReleasesWaiter : Claims.SignalReleasesWaiter := by
  intro s g rest th hpow hq add hok hadd hw c n v want bytes htarget hv
  obtain ⟨hc, hn, hg⟩ := pbx_split (pbx_exists hok)
  have hsig : changesOnly [.sigQ] s ((Upd.sigQ (takeSame Sig.key g s.sigQ).2).run s) :=
    Eff.In.changes (Eff.in_upd (by simp [Upd.part])) s
  obtain ⟨hget, hregsAt⟩ := get_of_regs (hsig.same_regs (by simp))
  have hrun : ∃ src edge, postboxSignal.run s =
      (pbxEval c n).run ((pbxTake c n v src edge).run ((Upd.sigQ (takeSame Sig.key g s.sigQ).2).run s)) := by
    refine ⟨sumSrc (takeSame Sig.key g s.sigQ).1, s.get R.TIDE_EDGE_NUM_edge, ?_⟩
    rw [postboxSignal_run hq, if_pos hok, pbxAdd_run hadd, hget]
  obtain ⟨src, edge, hrun⟩ := hrun
  generalize (Upd.sigQ (takeSame Sig.key g s.sigQ).2).run s = u at hrun hsig hget hregsAt
  have hquiet := pbxTake_quiet (c := c) (n := n) hv src edge
  have htake := within_changes hquiet u
  obtain ⟨⟨hvalue, hlanded, -⟩, -⟩ := pbxTake_gets hc hn v src edge u
  rw [hget] at hlanded
  have hwait : ((pbxTake c n v src edge).run u).waitersAt (c * 48 + n) = [th.val] := by
    rw [State.waitersAt, htake.same_waiters (by simp), hsig.same_waiters (by simp)]
    exact (congrArg s.waitersAt hg).trans hw
  have hkeep : ∀ f : Fld, f.key ≠ R.PBX_VALUE c n → f.key ≠ R.PBX_LAST c n → ((pbxTake c n v src edge).run u).get f = s.get f :=
    fun f h1 h2 => (within_get hquiet u (by simpa [oneOf] using ⟨h1, h2⟩)).trans (by rw [hget])
  have hwant : ∀ f : Fld, f.key = R.PBX_THR_WAIT c th ∨ f.key = R.SEQ_THR_PC c th ∨ f.key = R.SEQ_THR_STATUS c th →
      ((pbxTake c n v src edge).run u).get f = s.get f := by
    refine fun f hf => hkeep f ?_ ?_
    all_goals
      rcases hf with hf | hf | hf
      all_goals rw [hf]; simp only [R.PBX_VALUE, R.PBX_LAST, R.PBX_THR_WAIT, R.SEQ_THR_PC, R.SEQ_THR_STATUS, rk]; omega
  have hall := changesOnly_trans (changesOnly_mono (qs := [.sigQ, .regs]) (by simp) hsig) (changesOnly_mono (by simp) htake)
  have heval : ∀ w : State, w.waitersAt (c * 48 + n) = [th.val] → (pbxEval c n).run w = (pbxTry c n th).run w := fun w h => by
    rw [pbxEval, Eff.run_look, h, Eff.run_each_cons, Eff.run_each_nil]
  rw [heval _ hwait] at hrun
  generalize (pbxTake c n v src edge).run u = r at *
  obtain ⟨sample, htry⟩ := pbxTry_run c n th r
  rw [hwant (R.PBX_THR_WAIT_v c th) (.inl rfl), hwant (R.PBX_THR_WAIT_b c th) (.inl rfl), hvalue, hlanded, Nat.min_eq_left hv] at htry
  refine ⟨fun hmv hmb => yields_done (p := postboxSignal) rfl hpow ?met, fun hno => yields_done (p := postboxSignal) rfl hpow ?unmet⟩
  case met =>
    rw [hrun, htry, if_pos ⟨hmv, hmb⟩]
    obtain ⟨hv', hl', hw', ht', hp'⟩ := pbxRelease_gets hc hn th.isLt want bytes sample r
    have hrel : (pbxRelease c n th want bytes sample).Only (Upd.within [.mon, .waitSince, .waiters, .msix, .mgmtQ, .out]
        (oneOfQuiet ([R.PBX_VALUE c n, R.PBX_LANDED c n] ++ wakeKeys c th))) :=
      pbxRelease_within hc (by simp [tells]) (by simp) (by simp) (by simp) _ _ _ _ (List.Subset.refl _)
    refine ⟨by rw [hv', hvalue, Nat.min_eq_left hv], by rw [hl', hlanded], ?_, ht', ?_,
      changesOnly_trans (changesOnly_mono (by simp) hall) (changesOnly_mono (by simp) (within_changes hrel r))⟩
    · rw [hwait] at hw'
      rw [← hg]
      exact hw'.trans (by simp)
    · rw [hp', State.pc, hwant _ (.inr (.inl rfl))]
      rfl
  case unmet =>
    rw [hrun, htry, if_neg fun hm => hno.elim (Nat.not_lt.2 hm.1) (Nat.not_lt.2 hm.2)]
    exact ⟨by rw [hvalue, Nat.min_eq_left hv], by rw [← hg]; exact hwait, hwant _ (.inr (.inr rfl)), hwant _ (.inr (.inl rfl)), hall⟩

/-! The registers PBX_SIGNAL and PBX_RESET -/

/-- The registers in which a refused write of an agent is recorded. -/
def refuseKeys : Agent → List Nat
  | .host p => [R.HIF_ACCESS_FAULT p, R.HIF_ACCESS_COUNT p]
  | _ => []

theorem hostFault_within {ps : List Part} {keys : List Nat} {p : Nat} (hps : tells ps)
    (hkeys : [R.HIF_ACCESS_FAULT p, R.HIF_ACCESS_COUNT p] ⊆ keys) (addr st : Nat) (write bar2 atomic : Bool) :
    (hostFault p addr st write bar2 atomic).Only (Upd.within ps (oneOfQuiet keys)) := by
  have hfault : oneOfQuiet keys (R.HIF_ACCESS_FAULT p) := .inl (hkeys (by simp))
  simp only [hostFault, Eff.only_all_cons, Eff.only_all_nil, within_put, within_putBit, within_addSat, and_true]
  exact ⟨hfault, hfault, hfault, hfault, hfault, .inl (hkeys (by simp [R.HIF_ACCESS_COUNT_count])), evFire_within _ hps⟩

/-- A refused write changes nothing but the access-fault record of a host's port. -/
theorem refuseWrite_within {ps : List Part} (hps : tells ps) (who : Agent) (page off st : Nat) :
    (refuseWrite who page off st).Only (Upd.within ps (oneOfQuiet (refuseKeys who))) := by
  cases who
  case host p => exact fun s => hostFault_within hps (List.Subset.refl _) _ _ _ _ _
  all_goals exact trivial

theorem refuseKeys_high {who : Agent} {k : Nat} (h : k ∈ refuseKeys who) : 0x10000000 ≤ k := by
  cases who
  case host p =>
    rcases List.mem_cons.1 h with rfl | h
    · simp only [R.HIF_ACCESS_FAULT, rk]; omega
    · rw [List.mem_singleton.1 h]; simp only [R.HIF_ACCESS_COUNT, rk]; omega
  all_goals exact absurd h List.not_mem_nil

theorem refuseWrite_get {f : Fld} (hf : f.key < 0x10000000) (who : Agent) (page off st : Nat) (s : State) :
    ((refuseWrite who page off st).run s).get f = s.get f :=
  within_get (refuseWrite_within (ps := [.msix, .mgmtQ, .out]) (by simp [tells]) who page off st) s
    (not_or.2 ⟨fun h => by have := refuseKeys_high h; omega, not_not_intro ⟨.inl (by omega), by omega⟩⟩)

theorem actAnswer_other {who : Agent} (st : Nat) (a : Act) {s : State} {p : Eff} (h : a s = (st, p)) :
    (∃ q, who = .host q ∧ (runAct who a).run s = p.run s) ∨
    (runAct who a).run s = (send (.reply st [])).run (p.run s) := by
  cases who
  case host q => exact .inl ⟨q, rfl, by simp only [runAct, Eff.run_look, h]⟩
  all_goals exact .inr (by simp only [runAct, Eff.run_look, h, Eff.run_seq])

/-- A command that an agent writes to a register: its effect, and the answer of any agent but a host. -/
theorem runAct_run {who : Agent} {st : Nat} {a : Act} {s : State} {p : Eff} (h : a s = (st, p)) :
    ∃ r : Eff, r.Only (Upd.within [.out] (oneOf [])) ∧ (runAct who a).run s = r.run (p.run s) := by
  rcases actAnswer_other (who := who) st a h with ⟨q, -, hrun⟩ | hrun
  · exact ⟨.skip, trivial, hrun⟩
  · exact ⟨_, within_send _ (by simp), hrun⟩

theorem postbox_congr {s t : State} {c n value landed : Nat} {ovf landOvf : Bool} {src edge : Nat} (h : t.get = s.get)
    (hs : postbox s c n value landed ovf landOvf src edge) : postbox t c n value landed ovf landOvf src edge := by
  simpa only [postbox, State.bit, h] using hs

theorem get_of_none {s t : State} (h : keepsRegs [] s t) : t.get = s.get ∧ t.regsAt = s.regsAt := by
  have hregs : t.regsAt = s.regsAt := funext fun k => h k List.not_mem_nil
  exact ⟨funext fun f => by rw [State.get, State.get, hregs], hregs⟩

theorem signalled_after {c n add src : Nat} {s u t : State} (hu : signalled c n add src s u) (h : t.get = u.get ∧ t.regsAt = u.regsAt) :
    signalled c n add src s t := by
  obtain ⟨hget, hregs⟩ := h
  simpa only [signalled, postbox, State.bit, keepsQuiet, hget, hregs] using hu

theorem coreAgent_not_host {who : Agent} (h : coreAgent who = true) : ∀ q, who ≠ .host q := by
  rintro q rfl; cases h

theorem outerAgent_not_host {who : Agent} (h : outerAgent who = false) : ∀ q, who ≠ .host q := by
  rintro q rfl; cases h

theorem runAct_agent {who : Agent} {st : Nat} {a : Act} {s : State} {p : Eff} (h : a s = (st, p)) (hw : ∀ q, who ≠ .host q) :
    (runAct who a).run s = (send (.reply st [])).run (p.run s) :=
  (actAnswer_other (who := who) st a h).resolve_left fun ⟨q, hq, _⟩ => hw q hq

/-- What a control core's write of PBX_RESET does before the waiters are evaluated. -/
def pbxSet (c n v : Nat) : Eff := .all [
  put (R.PBX_VALUE_value c n) v, putBit (R.PBX_VALUE_ovf c n) false, putBit (R.PBX_VALUE_land_ovf c n) false,
  put (R.PBX_LANDED_landed c n) 0]

theorem pbxSet_within {c n : Nat} (v : Nat) : (pbxSet c n v).Only (Upd.within [] (oneOf [R.PBX_VALUE c n, R.PBX_LANDED c n])) := by
  simp only [pbxSet, Eff.only_all_cons, Eff.only_all_nil, within_put, within_putBit, and_true]
  simp [oneOf, R.PBX_VALUE_value, R.PBX_VALUE_ovf, R.PBX_VALUE_land_ovf, R.PBX_LANDED_landed, R.PBX_VALUE, R.PBX_LANDED]

theorem pbxSet_gets {c n v : Nat} (hv : v < 2 ^ 16) (s : State) :
    postbox ((pbxSet c n v).run s) c n v 0 false false (s.get (R.PBX_LAST_last_src c n)) (s.get (R.PBX_LAST_last_edge c n)) := by
  have hbit : ∀ (f : Fld) (b : Bool) (u : State), f.lo + f.w ≤ 64 → f.w = 1 → ((putBit f b).run u).get f = if b then 1 else 0 :=
    fun f b u h hw => by rw [putBit, put_same f _ u h, hw]; cases b <;> rfl
  simp only [pbxSet, Eff.run_all_cons, Eff.run_all_nil, postbox, State.bit, putBit]
  simp (disch := (
    try simp only [apart, farKey, R.PBX_VALUE_value, R.PBX_VALUE_ovf, R.PBX_VALUE_land_ovf, R.PBX_LANDED_landed,
      R.PBX_LAST_last_src, R.PBX_LAST_last_edge, R.PBX_COUNTS_overflows, R.PBX_VALUE, R.PBX_LANDED, R.PBX_LAST, R.PBX_COUNTS,
      rk]
    omega)) only
    [get_put_apart, put_same, and_true]
  exact ⟨Nat.mod_eq_of_lt hv, rfl, rfl, rfl⟩

theorem postboxRegisters : Claims.PostboxRegisters := by
  intro who c n x s
  refine ⟨fun hw => ⟨fun hout hn hx hwait => ?signal, fun hout hn => ?beyond, fun hout => ?refused⟩,
    fun hw => ⟨fun hcore hn hwait => ?reset, fun hcore => ?noreset⟩⟩
  case signal =>
    have hact : actPbxSignal who c n x.toNat s = (ST_OK, pbxAdd c n x.toNat (srcWriter who)) := by
      simp only [actPbxSignal, guardAct_writable hw, hout, Bool.not_true, Bool.false_eq_true, if_false, hn, decide_true, Eff.when, if_true]
    obtain ⟨r, hr, hrun⟩ := runAct_run (who := who) hact
    obtain ⟨hsig, hrest⟩ := pbxAdd_signalled c.isLt hn hx (src := srcWriter who) hwait
    refine yields_done (p := runAct who (actPbxSignal who c n x.toNat)) rfl hw.1 ?_
    rw [hrun]
    exact ⟨signalled_after hsig (get_of_none (within_keepsRegs hr _)),
      changesOnly_trans hrest (changesOnly_mono (by simp) (within_changes hr _))⟩
  case beyond =>
    have hact : actPbxSignal who c n x.toNat s = (ST_OK, .skip) := by
      simp only [actPbxSignal, guardAct_writable hw, hout, Bool.not_true, Bool.false_eq_true, if_false, Eff.when,
        decide_eq_true_eq, Nat.not_lt.2 hn]
    refine yields_done (p := runAct who (actPbxSignal who c n x.toNat)) rfl hw.1 ?_
    rcases actAnswer_other (who := who) _ _ hact with ⟨q, -, hrun⟩ | hrun
    · rw [hrun]; exact changesOnly_refl _ _
    · rw [hrun]; exact Eff.In.changes (send_in _ (by simp)) _
  case refused =>
    have hact : actPbxSignal who c n x.toNat s = (ST_PAGE_PROTECTED, put (R.PBX_COUNTS_last_drop_status c) ST_PAGE_PROTECTED) := by
      simp only [actPbxSignal, guardAct_writable hw, hout, Bool.not_false, if_true]
    have hsend := within_send (ps := [.out]) (K := oneOf []) (.reply ST_PAGE_PROTECTED []) (by simp)
    have hput : (put (R.PBX_COUNTS_last_drop_status c) ST_PAGE_PROTECTED).Only (Upd.within [] (oneOf [R.PBX_COUNTS c])) := by
      simp [oneOf, R.PBX_COUNTS_last_drop_status]
    refine yields_done (p := runAct who (actPbxSignal who c n x.toNat)) rfl hw.1 ?_
    rw [runAct_agent hact (outerAgent_not_host hout)]
    obtain ⟨hget, hregs⟩ := get_of_none (within_keepsRegs hsend ((put (R.PBX_COUNTS_last_drop_status c) ST_PAGE_PROTECTED).run s))
    refine ⟨?_, fun k hk => ?_, ?_, changesOnly_trans (changesOnly_mono (by simp) (within_changes hput s))
      (changesOnly_mono (by simp) (within_changes hsend _))⟩
    · rw [hget]; exact put_same_of_lt (show 32 + 8 ≤ 64 by decide) (show _ < 2 ^ 8 by decide) s
    · rw [hregs]; exact within_keepsRegs hput s k hk
    · rw [send, Eff.run_look, Eff.run_upd, Upd.run_out, (within_changes hput s).same_out (by simp)]
  case reset =>
    have hact : actPbxReset who c n x.toNat s = (ST_OK, .all [
        put (R.PBX_VALUE_value c n) x.toNat, putBit (R.PBX_VALUE_ovf c n) false, putBit (R.PBX_VALUE_land_ovf c n) false,
        put (R.PBX_LANDED_landed c n) 0, pbxEval c n]) := by
      simp only [actPbxReset, guardAct_writable hw, hcore, Bool.not_true, Bool.false_eq_true, if_false, hn, decide_true, Eff.when, if_true]
    have hset := pbxSet_within (c := c) (n := n) x.toNat
    have hchanges := within_changes hset s
    have hsend := within_send (ps := [.out]) (K := oneOf []) (.reply ST_OK []) (by simp)
    have hrun : (runAct who (actPbxReset who c n x.toNat)).run s = (send (.reply ST_OK [])).run ((pbxSet c n x.toNat).run s) := by
      rw [runAct_agent hact (coreAgent_not_host hcore)]
      have hw' : ((pbxSet c n x.toNat).run s).waitersAt (c * 48 + n) = [] := by
        rw [State.waitersAt, hchanges.same_waiters (by simp)]; exact hwait
      have := pbxEval_none hw'
      simp only [pbxSet, Eff.run_all_cons, Eff.run_all_nil] at this ⊢
      rw [this]
    obtain ⟨hget, hregs⟩ := get_of_none (within_keepsRegs hsend ((pbxSet c n x.toNat).run s))
    refine yields_done (p := runAct who (actPbxReset who c n x.toNat)) rfl hw.1 ?_
    rw [hrun]
    refine ⟨postbox_congr hget (pbxSet_gets x.isLt s), fun k hk => ?_, ?_,
      changesOnly_trans (changesOnly_mono (by simp) hchanges) (changesOnly_mono (by simp) (within_changes hsend _))⟩
    · rw [hregs]; exact within_keepsRegs hset s k hk
    · rw [send, Eff.run_look, Eff.run_upd, Upd.run_out, hchanges.same_out (by simp)]
  case noreset =>
    have hact : actPbxReset who c n x.toNat s = (ST_PAGE_PROTECTED, .seq (put (R.PBX_COUNTS_last_drop_status c) ST_PAGE_PROTECTED)
        (refuseWrite who (c * 16 + 7) 0x608 ST_PAGE_PROTECTED)) := by
      simp only [actPbxReset, guardAct_writable hw, hcore, Bool.not_false, if_true]
    obtain ⟨r, hr, hrun⟩ := runAct_run (who := who) hact
    obtain ⟨hget, -⟩ := get_of_none (within_keepsRegs hr ((Eff.seq (put (R.PBX_COUNTS_last_drop_status c) ST_PAGE_PROTECTED)
        (refuseWrite who (c * 16 + 7) 0x608 ST_PAGE_PROTECTED)).run s))
    have hlow : R.PBX_COUNTS c < 0x10000000 ∧ R.PBX_VALUE c n < 0x10000000 ∧ R.PBX_VALUE c n ≠ R.PBX_COUNTS c := by
      simp only [R.PBX_COUNTS, R.PBX_VALUE, rk]; omega
    have hput : (put (R.PBX_COUNTS_last_drop_status c) ST_PAGE_PROTECTED).In [.regs] := put_in _ _ (by simp)
    have hrefuse := refuseWrite_within (ps := [.msix, .mgmtQ, .out]) (by simp [tells]) who (c * 16 + 7) 0x608 ST_PAGE_PROTECTED
    refine yields_done (p := runAct who (actPbxReset who c n x.toNat)) rfl hw.1 ?_
    rw [hrun]
    refine ⟨?_, ?_, changesOnly_trans ?_ (changesOnly_mono (by simp) (within_changes hr _))⟩
    · rw [hget, Eff.run_seq, refuseWrite_get (f := R.PBX_COUNTS_last_drop_status c) hlow.1]
      exact put_same_of_lt (show 32 + 8 ≤ 64 by decide) (show _ < 2 ^ 8 by decide) s
    · rw [hget, Eff.run_seq, refuseWrite_get (f := R.PBX_VALUE_value c n) hlow.2.1]
      exact congrArg (R.PBX_VALUE_value c n).read (put_other (f := R.PBX_COUNTS_last_drop_status c) hlow.2.2 _ s)
    · rw [Eff.run_seq]
      exact changesOnly_trans (changesOnly_mono (by simp) (hput.changes s)) (within_changes hrefuse _)

/-- Settles O9: an addition writes its postbox, and the waiters are evaluated on what it leaves. -/
theorem postboxes : Obligations.Postboxes := ⟨postboxDelivery, postboxReach, signalReleasesWaiter, postboxRegisters⟩

end Sys2Proof.Proofs

/-! Seawalls: arrivals, refusals and releases (R305–R308). -/

namespace Sys2Proof.Proofs
open Sys2Proof.Machine Sys2Proof.Claims


theorem wallMember_congr {s t : State} {w : Nat} (hlo : t.regsAt (R.SWL_MEMBERS_LO w) = s.regsAt (R.SWL_MEMBERS_LO w))
    (hhi : t.regsAt (R.SWL_MEMBERS_HI w) = s.regsAt (R.SWL_MEMBERS_HI w)) : t.wallMember w = s.wallMember w :=
  funext fun c => by simp only [State.wallMember, State.regBit, hlo, hhi]

theorem wallStatus_congr {s t : State} (h : t.regs = s.regs) (w src : Nat) : t.wallStatus w src = s.wallStatus w src := by
  obtain ⟨hget, hregs⟩ := get_of_regs h
  simp only [State.wallStatus, State.bit, hget, wallMember_congr (congrFun hregs _) (congrFun hregs _)]
  rfl

/-- R308: the releases that set out. -/
def wallReleases (s : State) (w : Nat) : List (Nat × Nat) :=
  ((List.range 128).filter fun c => s.wallMember w c).map fun c => (c, w)

/-- R305: the generation rises and the counts return to 0. -/
def wallTurn (w generation : Nat) : Eff := .all [
  put (R.SWL_STATE_generation w) generation, put (R.SWL_STATE_arrived w) 0, put (R.SWL_STATE_branch_arrived w) 0]

theorem wallTurn_within (w generation : Nat) : (wallTurn w generation).Only (Upd.within [] (oneOf [R.SWL_STATE w])) := by
  simp only [wallTurn, Eff.only_all_cons, Eff.only_all_nil, within_put, and_true]
  simp [oneOf, R.SWL_STATE_generation, R.SWL_STATE_arrived, R.SWL_STATE_branch_arrived, R.SWL_STATE]

theorem wallTurn_gets (w generation : Nat) (s : State) :
    let r := (wallTurn w generation).run s
    r.get (R.SWL_STATE_generation w) = generation % 2 ^ 16 ∧ r.get (R.SWL_STATE_arrived w) = 0 ∧
    r.get (R.SWL_STATE_last_src w) = s.get (R.SWL_STATE_last_src w) := by
  simp only [wallTurn, Eff.run_all_cons, Eff.run_all_nil]
  simp (disch := (
    try simp only [apart, farKey, R.SWL_STATE_generation, R.SWL_STATE_arrived, R.SWL_STATE_branch_arrived, R.SWL_STATE_last_src,
      R.SWL_CFG_expected, R.SWL_CFG_group, R.SWL_STATE, R.SWL_CFG, rk]
    omega)) only [get_put_apart, put_same, and_true]
  exact ⟨rfl, Nat.zero_mod _⟩

theorem wallNext_run (w : Nat) (s : State) :
    (wallNext w).run s = (wallBroadcast w).run ((wallTurn w (s.get (R.SWL_STATE_generation w) + 1)).run s) := by
  simp only [wallNext, wallTurn, Eff.run_look, Eff.run_all_cons, Eff.run_all_nil]

theorem wallNext_gets (w : Nat) (s : State) :
    let r := (wallNext w).run s
    r.get (R.SWL_STATE_generation w) = (s.get (R.SWL_STATE_generation w) + 1) % 2 ^ 16 ∧ r.get (R.SWL_STATE_arrived w) = 0 ∧
    r.get (R.SWL_STATE_last_src w) = s.get (R.SWL_STATE_last_src w) ∧ r.relQ = s.relQ ++ wallReleases s w := by
  have hwithin := wallTurn_within w (s.get (R.SWL_STATE_generation w) + 1)
  have hregs := within_keepsRegs hwithin s
  have hlo : R.SWL_MEMBERS_LO w ∉ [R.SWL_STATE w] := by simp only [List.mem_singleton, R.SWL_MEMBERS_LO, R.SWL_STATE, rk]; omega
  have hhi : R.SWL_MEMBERS_HI w ∉ [R.SWL_STATE w] := by simp only [List.mem_singleton, R.SWL_MEMBERS_HI, R.SWL_STATE, rk]; omega
  obtain ⟨hgen, harrived, hlast⟩ := wallTurn_gets w (s.get (R.SWL_STATE_generation w) + 1) s
  simp only [wallNext_run, wallBroadcast, Eff.run_look, Eff.run_upd]
  refine ⟨(get_upd (by simp [Upd.part]) _ _).trans hgen, (get_upd (by simp [Upd.part]) _ _).trans harrived,
    (get_upd (by simp [Upd.part]) _ _).trans hlast, ?_⟩
  rw [Upd.run_relQ, wallMember_congr (hregs _ hlo) (hregs _ hhi), (within_changes hwithin s).same_relQ (by simp), wallReleases]

theorem wallBroadcast_within (w : Nat) : (wallBroadcast w).Only (Upd.within [.relQ] (oneOf [])) := fun _ => by simp [Upd.within, Upd.part]

theorem wallNext_keeps (w : Nat) (s : State) :
    keepsRegs [R.SWL_STATE w] s ((wallNext w).run s) ∧ changesOnly [.regs, .relQ] s ((wallNext w).run s) := by
  have hturn := wallTurn_within w (s.get (R.SWL_STATE_generation w) + 1)
  have hsend := wallBroadcast_within w
  rw [wallNext_run]
  exact ⟨fun k hk => (within_keepsRegs hsend _ k List.not_mem_nil).trans (within_keepsRegs hturn s k hk),
    changesOnly_trans (changesOnly_mono (by simp) (within_changes hturn s)) (within_changes hsend _)⟩

/-- An arrival is counted and its source recorded. -/
def wallCount (w src n : Nat) : Eff := .seq (put (R.SWL_STATE_arrived w) n) (put (R.SWL_STATE_last_src w) src)

theorem wallCount_within (w src n : Nat) : (wallCount w src n).Only (Upd.within [] (oneOf [R.SWL_STATE w])) := by
  simp [wallCount, oneOf, R.SWL_STATE_arrived, R.SWL_STATE_last_src]

theorem wallCount_gets {w n : Nat} (hn : n < 4096) (src : Nat) (s : State) :
    let r := (wallCount w src n).run s
    r.get (R.SWL_STATE_arrived w) = n ∧ r.get (R.SWL_STATE_last_src w) = src % 2 ^ 16 ∧
    r.get (R.SWL_STATE_generation w) = s.get (R.SWL_STATE_generation w) ∧ r.get (R.SWL_CFG_expected w) = s.get (R.SWL_CFG_expected w) ∧
    r.bit (R.SWL_CFG_group w) = s.bit (R.SWL_CFG_group w) := by
  simp only [wallCount, Eff.run_seq, State.bit]
  simp (disch := (
    try simp only [apart, farKey, R.SWL_STATE_generation, R.SWL_STATE_arrived, R.SWL_STATE_branch_arrived, R.SWL_STATE_last_src,
      R.SWL_CFG_expected, R.SWL_CFG_group, R.SWL_STATE, R.SWL_CFG, rk]
    omega)) only [get_put_apart, put_same, and_true]
  exact ⟨Nat.mod_eq_of_lt hn, rfl⟩

/-- R305, R306: an accepted arrival at a seawall of this module is counted, and completes it or not. -/
theorem wallArrive_counted {w src : Nat} {s : State} (hst : s.wallStatus w src = ST_OK) (hgroup : s.bit (R.SWL_CFG_group w) = false)
    (hroom : s.get (R.SWL_STATE_arrived w) < 4095) (refused : Eff) :
    let n := s.get (R.SWL_STATE_arrived w) + 1
    let u := (wallCount w src n).run s
    (wallArrive w src refused).run s = if s.get (R.SWL_CFG_expected w) ≤ n then (wallNext w).run u else u := by
  obtain ⟨harrived, -, -, hexpected, hgroup'⟩ :=
    wallCount_gets (w := w) (n := s.get (R.SWL_STATE_arrived w) + 1) (by omega) src s
  simp only [wallCount, Eff.run_seq] at harrived hexpected hgroup'
  simp only [wallArrive, Eff.run_look, hst, ne_eq, not_true_eq_false, if_false, Eff.run_all_cons, Eff.run_all_nil, wallCheck, wallCount,
    Eff.run_seq, harrived, hexpected, hgroup', hgroup, Bool.not_false, if_true]
  split
  · simp only [decide_eq_true ‹_›, Eff.run_when_true]
  · simp only [decide_eq_false ‹_›, Eff.run_when_false]

theorem wallArrive_gets {w src : Nat} {s : State} (hst : s.wallStatus w src = ST_OK) (hgroup : s.bit (R.SWL_CFG_group w) = false)
    (hroom : s.get (R.SWL_STATE_arrived w) < 4095) (refused : Eff) :
    let n := s.get (R.SWL_STATE_arrived w) + 1
    let r := (wallArrive w src refused).run s
    r.get (R.SWL_STATE_last_src w) = src % 2 ^ 16 ∧
    (if s.get (R.SWL_CFG_expected w) ≤ n then
      r.get (R.SWL_STATE_arrived w) = 0 ∧
      r.get (R.SWL_STATE_generation w) = (s.get (R.SWL_STATE_generation w) + 1) % 2 ^ 16 ∧ r.relQ = s.relQ ++ wallReleases s w
    else r.get (R.SWL_STATE_arrived w) = n ∧ r.get (R.SWL_STATE_generation w) = s.get (R.SWL_STATE_generation w) ∧ r.relQ = s.relQ) ∧
    keepsRegs [R.SWL_STATE w] s r ∧ changesOnly [.regs, .relQ] s r := by
  have hcount := wallCount_within w src (s.get (R.SWL_STATE_arrived w) + 1)
  have hquiet := within_changes hcount s
  have hregs := within_keepsRegs hcount s
  have hlo : R.SWL_MEMBERS_LO w ∉ [R.SWL_STATE w] := by simp only [List.mem_singleton, R.SWL_MEMBERS_LO, R.SWL_STATE, rk]; omega
  have hhi : R.SWL_MEMBERS_HI w ∉ [R.SWL_STATE w] := by simp only [List.mem_singleton, R.SWL_MEMBERS_HI, R.SWL_STATE, rk]; omega
  obtain ⟨harrived, hlast, hgen, -⟩ := wallCount_gets (w := w) (n := s.get (R.SWL_STATE_arrived w) + 1) (by omega) src s
  obtain ⟨hgen', harrived', hlast', hrel'⟩ := wallNext_gets w ((wallCount w src (s.get (R.SWL_STATE_arrived w) + 1)).run s)
  intro n r
  have hrun := wallArrive_counted hst hgroup hroom refused
  dsimp only at hrun
  simp only [r, hrun]
  split
  · rw [wallReleases, wallMember_congr (hregs _ hlo) (hregs _ hhi)] at hrel'
    exact ⟨hlast'.trans hlast, ⟨harrived', by rw [hgen', hgen], by rw [hrel', hquiet.same_relQ (by simp)]; rfl⟩,
      fun k hk => ((wallNext_keeps w _).1 k hk).trans (hregs k hk), changesOnly_trans (changesOnly_mono (by simp) hquiet) (wallNext_keeps w _).2⟩
  · exact ⟨hlast, ⟨harrived, hgen, hquiet.same_relQ (by simp)⟩, hregs, changesOnly_mono (by simp) hquiet⟩

/-! Refusals -/

theorem wallStatus_lt (s : State) (w src : Nat) : s.wallStatus w src < 256 := by
  unfold State.wallStatus
  split_ifs <;> decide

theorem wallRefuse_within (w src st : Nat) :
    (wallRefuse w src st).Only (Upd.within [.msix, .mgmtQ, .out] (oneOfQuiet [R.SWL_FAULT])) := by
  simp only [wallRefuse, Eff.only_all_cons, Eff.only_all_nil, within_put, within_addSat, and_true]
  exact ⟨.inl (by simp [R.SWL_FAULT_refused]), .inl (by simp [R.SWL_FAULT_last_s]), .inl (by simp [R.SWL_FAULT_last_src]),
    .inl (by simp [R.SWL_FAULT_last_status]), evFire_within _ (by simp [tells])⟩

theorem wallRefuse_gets {w st : Nat} (hw : w < 64) (hst : st < 256) (src : Nat) (s : State) :
    let r := (wallRefuse w src st).run s
    r.get R.SWL_FAULT_refused = min (s.get R.SWL_FAULT_refused + 1) 65535 ∧ r.get R.SWL_FAULT_last_s = w ∧
    r.get R.SWL_FAULT_last_src = src % 2 ^ 16 ∧ r.get R.SWL_FAULT_last_status = st := by
  simp only [wallRefuse, Eff.run_all_cons, Eff.run_all_nil]
  simp (disch := (
    try simp only [apart, farKey, R.SWL_FAULT_refused, R.SWL_FAULT_last_s, R.SWL_FAULT_last_src, R.SWL_FAULT_last_status,
      R.SWL_FAULT, rk]
    omega)) only [get_evFire_far, get_put_apart, put_same, addSat_same]
  exact ⟨rfl, Nat.mod_eq_of_lt hw, rfl, Nat.mod_eq_of_lt hst⟩

/-! The release in a member cell -/

theorem each_wake_within {ps : List Part} (c : Nat) (ts : List Nat) {keys : List Nat} (hc : c < 128) (hps : tells ps)
    (hw : Part.waitSince ∈ ps) (hkeys : ∀ t ∈ ts, wakeKeys c t ⊆ keys) :
    (Eff.each ts fun t => wakeThread c t).Only (Upd.within ps (oneOfQuiet keys)) :=
  (Eff.only_each _ _).2 fun t ht => wakeThread_within hc hps hw (hkeys t ht)

theorem wakeThread_other {c t j : Nat} (hc : c < 128) (hj : j < 16) (h : t ≠ j) (ht : t < 16) (s : State) :
    ((wakeThread c t).run s).thr c j = s.thr c j ∧ ((wakeThread c t).run s).pc c j = s.pc c j := by
  have hwake : (wakeThread c t).Only (Upd.within [.waitSince, .msix, .mgmtQ, .out] (oneOfQuiet (wakeKeys c t))) :=
    wakeThread_within hc (by simp [tells]) (by simp) (List.Subset.refl _)
  have hfar : farKey (R.SEQ_THR_STATUS c j) ∧ farKey (R.SEQ_THR_PC c j) :=
    ⟨farKey_seq hc (by omega) 1 (by decide), farKey_seq hc (by omega) 1 (by decide)⟩
  have hne : R.SEQ_THR_STATUS c j ∉ wakeKeys c t ∧ R.SEQ_THR_PC c j ∉ wakeKeys c t := by
    simp only [wakeKeys, List.mem_cons, List.not_mem_nil, or_false, R.SEQ_THR_PC, R.PBX_WAIT_CK, R.PBX_THR_WAIT,
      R.SEQ_THR_STATUS, rk]
    omega
  exact ⟨within_get hwake s (not_or.2 ⟨hne.1, not_not_intro hfar.1⟩), within_get hwake s (not_or.2 ⟨hne.2, not_not_intro hfar.2⟩)⟩

/-- The listed threads run on, and no other thread of the cell changes. -/
theorem each_wake_gets {c j : Nat} (hc : c < 128) (hj : j < 16) (ts : List Nat) (hts : ∀ t ∈ ts, t < 16) (hnodup : ts.Nodup) (s : State) :
    let r := (Eff.each ts fun t => wakeThread c t).run s
    (j ∈ ts → r.thr c j = THR_RUN ∧ r.pc c j = (s.pc c j + 8) % 2 ^ 48) ∧ (j ∉ ts → r.thr c j = s.thr c j ∧ r.pc c j = s.pc c j) := by
  induction ts generalizing s with
  | nil => exact ⟨fun h => absurd h List.not_mem_nil, fun _ => ⟨rfl, rfl⟩⟩
  | cons t ts ih =>
    obtain ⟨hnot, hrest⟩ := List.nodup_cons.1 hnodup
    obtain ⟨hin, hout⟩ := ih (fun i hi => hts i (List.mem_cons_of_mem _ hi)) hrest ((wakeThread c t).run s)
    rw [Eff.run_each_cons]
    by_cases h : t = j
    · subst h
      obtain ⟨hthr, hpc⟩ := hout hnot
      obtain ⟨hthr', hpc'⟩ := wakeThread_gets hc hj s
      exact ⟨fun _ => ⟨hthr.trans hthr', hpc.trans hpc'⟩, fun hn => absurd List.mem_cons_self hn⟩
    · obtain ⟨hthr', hpc'⟩ := wakeThread_other hc hj h (hts t List.mem_cons_self) s
      refine ⟨fun hm => ?_, fun hm => ?_⟩
      · obtain ⟨hthr, hpc⟩ := hin ((List.mem_cons.1 hm).resolve_left (Ne.symm h))
        exact ⟨hthr, by rw [hpc, hpc']⟩
      · obtain ⟨hthr, hpc⟩ := hout fun hi => hm (List.mem_cons_of_mem _ hi)
        exact ⟨hthr.trans hthr', hpc.trans hpc'⟩

theorem wallRelease_steps {c : Fin 128} {w : Nat} {th : Fin 16} {s : State}
    (hq : s.relQ.find? (fun r => r.1 == c.val) = some (c.val, w)) (hpbx : 48 ≤ s.get (R.SWL_CFG_release_pbx w)) :
    let t := (seawallRelease c).run s
    t.relQ = s.relQ.erase (c.val, w) ∧ t.relSeenAt (c * 64 + w) = s.relSeenAt (c * 64 + w) + 1 ∧
    (s.sleepsAt c th w = true → t.thr c th = THR_RUN ∧ t.pc c th = (s.pc c th + 8) % 2 ^ 48) ∧
    (s.sleepsAt c th w = false → t.thr c th = s.thr c th ∧ t.pc c th = s.pc c th) := by
  have hrun : (seawallRelease c).run s = (Eff.each ((List.range 16).filter fun t => s.sleepsAt c t w) fun t => wakeThread c t).run
      ((Upd.relSeen (c * 64 + w) (s.relSeenAt (c * 64 + w) + 1)).run ((Upd.relQ (s.relQ.erase (c.val, w))).run s)) := by
    have hget : ((Upd.relQ (s.relQ.erase (c.val, w))).run s).get = s.get := (get_of_regs rfl).1
    have hsleeps : ((Upd.relQ (s.relQ.erase (c.val, w))).run s).sleepsAt = s.sleepsAt := by
      funext c' t' w'
      simp only [State.sleepsAt, State.bit, hget]
    simp only [seawallRelease, wallReleaseAt, Eff.run_look, hq, Eff.run_seq, Eff.run_upd, Eff.run_all_cons, Eff.run_all_nil, hget, hsleeps,
      decide_eq_false (Nat.not_lt.2 hpbx), Eff.run_when_false]
    rfl
  have hts : ∀ t ∈ (List.range 16).filter fun t => s.sleepsAt c t w, t < 16 := fun t ht =>
    List.mem_range.1 (List.mem_filter.1 ht).1
  have hmem : th.val ∈ ((List.range 16).filter fun t => s.sleepsAt c t w) ↔ s.sleepsAt c th w = true := by
    simp only [List.mem_filter, List.mem_range, th.isLt, true_and]
  have hwithin := each_wake_within (ps := [.waitSince, .msix, .mgmtQ, .out]) c ((List.range 16).filter fun t => s.sleepsAt c t w)
    (keys := (List.range 16).flatMap fun t => wakeKeys c t) c.isLt (by simp [tells]) (by simp)
    fun t ht k hk => List.mem_flatMap.2 ⟨t, List.mem_range.2 (hts t ht), hk⟩
  obtain ⟨hin, hout⟩ := each_wake_gets (j := th) c.isLt th.isLt _ hts (List.nodup_range.filter _)
    ((Upd.relSeen (c * 64 + w) (s.relSeenAt (c * 64 + w) + 1)).run ((Upd.relQ (s.relQ.erase (c.val, w))).run s))
  have hchanges := within_changes hwithin
    ((Upd.relSeen (c * 64 + w) (s.relSeenAt (c * 64 + w) + 1)).run ((Upd.relQ (s.relQ.erase (c.val, w))).run s))
  simp only [hrun]
  refine ⟨hchanges.same_relQ (by simp), ?_, fun h => hin (hmem.2 h), fun h => hout fun hm => by rw [hmem.1 hm] at h; cases h⟩
  rw [State.relSeenAt, hchanges.same_relSeen (by simp)]
  exact Upd.run_relSeen_same _ _ _

theorem srcWriter_lt (who : Agent) : srcWriter who < 2 ^ 16 := by
  cases who <;> simp only [srcWriter, srcThread, srcEngine, srcUnit, srcKvt, srcDrain, srcLink] <;> omega

/-- Settles O10: the branches of an arrival's status, and the wake-up of each sleeper. -/
theorem seawallSteps : Obligations.SeawallSteps := by
  intro s hpow
  refine ⟨fun a rest hq hw hst hgroup hroom => ?accepted, fun a rest hq hw hst hsleeper => ?refused,
    fun who w hwrite hst hgroup hroom => ?written, fun c w th hw hq hpbx => yields_done (p := seawallRelease c) rfl hpow
      (wallRelease_steps hq hpbx)⟩
  case accepted =>
    have hget : ((Upd.arrQ rest).run s).get = s.get := (get_of_regs rfl).1
    have h := wallArrive_gets (w := a.wall) (src := a.src) (s := (Upd.arrQ rest).run s) ((wallStatus_congr rfl ..).trans hst)
      (by rw [State.bit, hget]; exact hgroup) (by rw [hget]; exact hroom)
    have hrel : wallReleases ((Upd.arrQ rest).run s) a.wall = wallReleases s a.wall := by
      rw [wallReleases, wallMember_congr (s := s) (t := (Upd.arrQ rest).run s) rfl rfl, wallReleases]
    refine yields_done (p := seawallArrival) rfl hpow ?_
    simp only [seawallArrival, Eff.run_look, hq, Eff.run_seq, Eff.run_upd]
    simp only [hget, hrel] at h
    obtain ⟨hlast, hcount, hregs, hchanges⟩ := h (match a.sleeper with
       | some (c, t) => .look fun s => Eff.when (s.sleepsAt c t a.wall) (wakeThread c t)
       | none => .skip)
    exact ⟨hchanges.same_arrQ (by simp), hlast, hcount, hregs,
      changesOnly_trans (ps := [.arrQ, .regs, .relQ]) (Eff.In.changes (Eff.in_upd (u := .arrQ rest) (by simp [Upd.part])) s)
        (changesOnly_mono (by simp) hchanges)⟩
  case refused =>
    have hget : ((Upd.arrQ rest).run s).get = s.get := (get_of_regs rfl).1
    refine yields_done (p := seawallArrival) rfl hpow ?_
    simp only [seawallArrival, wallArrive, Eff.run_look, hq, Eff.run_seq, Eff.run_upd, hsleeper,
      wallStatus_congr (t := (Upd.arrQ rest).run s) (s := s) rfl, if_pos hst, Eff.run_skip]
    obtain ⟨hcount, hs, hsrc, hstatus⟩ := wallRefuse_gets hw (wallStatus_lt s a.wall a.src) a.src ((Upd.arrQ rest).run s)
    have hwithin := wallRefuse_within a.wall a.src (s.wallStatus a.wall a.src)
    have hchanges := within_changes hwithin ((Upd.arrQ rest).run s)
    rw [hget] at hcount
    exact ⟨hchanges.same_arrQ (by simp), hcount, hs, hsrc, hstatus, within_keepsQuiet hwithin _,
      changesOnly_trans (ps := [.arrQ, .regs, .msix, .mgmtQ, .out])
        (Eff.In.changes (Eff.in_upd (u := .arrQ rest) (by simp [Upd.part])) s) (changesOnly_mono (by simp) hchanges)⟩
  case written =>
    have hact : actSwlArrive who w s = (ST_OK, wallArrive w (srcWriter who) .skip) := guardAct_writable hwrite _
    have hexp : s.get (R.SWL_CFG_expected w) < 2 ^ 12 := get_lt s _
    have hcount := wallCount_within w (srcWriter who) (s.get (R.SWL_STATE_arrived w) + 1)
    obtain ⟨harrived, hlast, -⟩ := wallCount_gets (w := w) (n := s.get (R.SWL_STATE_arrived w) + 1) (by omega) (srcWriter who) s
    have harrive := wallArrive_counted hst hgroup (by omega) .skip
    dsimp only at harrive
    rw [if_neg (Nat.not_le.2 hroom)] at harrive
    obtain ⟨r, hr, hrun⟩ := runAct_run (who := who) hact
    refine yields_done (p := runAct who (actSwlArrive who w)) rfl hpow ?_
    rw [hrun, harrive]
    obtain ⟨hget, hregs⟩ := get_of_none (within_keepsRegs hr ((wallCount w (srcWriter who) (s.get (R.SWL_STATE_arrived w) + 1)).run s))
    refine ⟨by rw [hget, harrived], by rw [hget, hlast, Nat.mod_eq_of_lt (srcWriter_lt who)], fun k hk => ?_,
      changesOnly_trans (changesOnly_mono (by simp) (within_changes hcount s)) (within_changes hr _)⟩
    rw [hregs]; exact within_keepsRegs hcount s k hk

end Sys2Proof.Proofs

/-! FENCE, HEAD_END and STEP_END, and the control of a thread (R39, R40, R156, R158, R160). -/

namespace Sys2Proof.Proofs
open Sys2Proof.Machine Sys2Proof.Claims


/-! What concerns the module as a whole -/

/-- The key of a register above the pages of cells, bank units, vaults and die links. -/
@[reducible] def highKey (k : Nat) : Prop := 0x10000000 ≤ k

theorem Upd.within_mono {ps qs : List Part} {K L : Nat → Prop} (hps : ps ⊆ qs) (hK : ∀ k, K k → L k) {u : Upd} (h : Upd.within ps K u) :
    Upd.within qs L u := by
  cases u
  case regs k v => exact hK k h
  case regsDrop p => exact fun k hk => hK k (h k hk)
  all_goals exact hps h

theorem highKey_of_quiet {keys : List Nat} (h : ∀ k ∈ keys, highKey k) {k : Nat} (hk : oneOfQuiet keys k) : highKey k := by
  rcases hk with hk | hk
  · exact h k hk
  · simp only [farKey] at hk; simp only [highKey]; omega

theorem only_high {p : Eff} {ps qs : List Part} {keys : List Nat} (h : p.Only (Upd.within ps (oneOfQuiet keys)))
    (hkeys : ∀ k ∈ keys, highKey k) (hps : ps ⊆ qs) : p.Only (Upd.within qs highKey) :=
  h.mono fun _ => Upd.within_mono hps fun _ => highKey_of_quiet hkeys

theorem gwSend_within {ps : List Part} (hps : [Part.gwOut, .hopBuf, .gwSeq, .gwSpray, .out] ⊆ ps) (kind vc k args : Nat)
    (payload : List Byte) (cell queue : Option Nat) {lost : Eff} (hlost : lost.Only (Upd.within ps highKey)) :
    (gwSend kind vc k args payload cell queue lost).Only (Upd.within ps highKey) := fun s => by
  have hupd : ∀ {u : Upd}, u.part ∈ [Part.gwOut, .hopBuf, .gwSeq, .gwSpray, .out] → u.part ∈ ps := fun h => hps h
  dsimp only
  split
  · refine (Eff.only_all_cons _ _).2 ⟨hupd (u := .gwSeq _ _) (by simp [Upd.part]), (Eff.only_all_cons _ _).2
      ⟨hupd (u := .gwOut _) (by simp [Upd.part]), (Eff.only_all_cons _ _).2 ⟨fun _ => (Eff.only_each _ _).2 fun _ _ =>
        hupd (u := .gwSpray _ _) (by simp [Upd.part]), (Eff.only_all_cons _ _).2 ⟨fun _ => ⟨hupd (u := .hopBuf _ _) (by simp [Upd.part]),
          (within_addWrap _ _).2 ?_, within_send _ (hps (by simp))⟩, trivial⟩⟩⟩⟩
    simp only [highKey, R.GWL_LINK_TX_bytes, R.GWL_LINK_TX, rk]; omega
  · exact hlost

/-! The completion of a district's step -/

/-- The parts that the completion of a step writes. -/
def stepParts : List Part :=
  [.stepEnd, .stepAt, .stepTime, .mon, .overAt, .tideNext, .stretchFor, .reported, .gwOut, .hopBuf, .gwSeq, .gwSpray, .msix, .mgmtQ, .out]

theorem lastOverrun_within (ps : List Part) (d n late : Nat) : (lastOverrun d n late).Only (Upd.within ps highKey) := fun s => by
  simp only [Eff.only_when, Eff.only_all_cons, Eff.only_all_nil, within_put, and_true]
  exact fun _ => ⟨by decide, by decide, by decide⟩

theorem stretchEnd_within : stretchEnd.Only (Upd.within stepParts highKey) := fun s => by
  simp only [Eff.only_when, stretchTo, nextShow, Eff.only_look, Eff.only_all_cons, Eff.only_all_nil, Eff.only_upd, within_put, and_true]
  exact fun _ t => ⟨by simp [Upd.within, Upd.part, stepParts],
    fun _ => ⟨(within_addSat _ _).2 (by decide), by simp [Upd.within, Upd.part, stepParts]⟩, fun _ => by decide⟩

theorem followerReport_within (st : Nat) : (followerReport st).Only (Upd.within stepParts highKey) := fun s =>
  (Eff.only_when _ _).2 fun _ => ⟨gwSend_within (by simp [stepParts]) _ _ _ _ _ _ _ trivial, by simp [Upd.within, Upd.part, stepParts]⟩

theorem overrunEnd_within (d k : Nat) : (overrunEnd d k).Only (Upd.within stepParts highKey) := fun s => by
  simp only [Eff.only_when, Eff.only_all_cons, Eff.only_all_nil, Eff.only_upd, and_true]
  exact fun _ => ⟨lastOverrun_within _ _ _ _, by simp [Upd.within, Upd.part, stepParts], stretchEnd_within, followerReport_within _⟩

theorem stepSettle_within (d k : Nat) : (stepSettle d k).Only (Upd.within stepParts highKey) := fun s => by
  have hmon : (monSample 0x02 d ((s.deadline k - s.tideTime) / 1000)).Only (Upd.within stepParts highKey) :=
    only_high (keys := []) (monSample_within (ps := stepParts) (by simp [tells, stepParts]) (by simp [stepParts]) _ _ _) (by simp)
      (List.Subset.refl _)
  simp only [Eff.only_when, Eff.only_all_cons, Eff.only_all_nil, Eff.only_upd, and_true]
  exact fun _ => ⟨by simp [Upd.within, Upd.part, stepParts], by simp [Upd.within, Upd.part, stepParts],
    fun _ => by simp [Upd.within, Upd.part, stepParts], hmon, overrunEnd_within d k⟩

/-- A completed step is recorded outside the cells. -/
theorem stepCheck_within (c : Nat) : (stepCheck c).Only (Upd.within stepParts highKey) := fun s => by
  dsimp only
  split
  · trivial
  · simp only [Eff.only_when, Eff.only_all_cons, Eff.only_all_nil, doneShow, Eff.only_look, within_putRegBit, and_true]
    exact fun _ => ⟨fun _ => stepSettle_within _ _, stepSettle_within _ _, fun _ => by split <;> decide⟩

theorem stepCheck_get (c : Nat) {f : Fld} (hf : f.key < 0x10000000) (s : State) : ((stepCheck c).run s).get f = s.get f :=
  within_get (stepCheck_within c) s (Nat.not_le.2 hf)

/-! FENCE, HEAD_END and STEP_END -/

/-- The issue of an instruction changes nothing but the instruction cache and the thread that issued last. -/
theorem issued_eq (s : State) (c th : Nat) : ∃ m r, issued s c th = { s with icache := m, rrLast := r } := by
  rw [issued, touchIcache, Eff.run_look]
  split
  · exact ⟨s.icache, _, rfl⟩
  · exact ⟨_, _, rfl⟩

theorem issued_edge (s : State) (c th : Nat) : (issued s c th).edge = s.edge := issued_get ..

theorem issued_thrStepAt (s : State) (c th k : Nat) : (issued s c th).thrStepAt k = s.thrStepAt k := by
  rw [State.thrStepAt, (issued_changes s c th).same_thrStep (by simp), State.thrStepAt]

theorem issued_chartLive (s : State) (c th : Nat) : (issued s c th).chartLive = s.chartLive :=
  (issued_changes s c th).same_chartLive (by simp)

theorem issued_fenceBusy (s : State) (c th c' t fn : Nat) : (issued s c th).fenceBusy c' t fn = s.fenceBusy c' t fn := by
  obtain ⟨m, r, h⟩ := issued_eq s c th
  rw [h]
  rfl

theorem issued_stepBusy (s : State) (c th c' t k : Nat) : (issued s c th).stepBusy c' t k = s.stepBusy c' t k := by
  obtain ⟨m, r, h⟩ := issued_eq s c th
  rw [h]
  rfl

theorem issued_stepDone (s : State) (c th d k : Nat) : (issued s c th).stepDone d k = s.stepDone d k := by
  obtain ⟨m, r, h⟩ := issued_eq s c th
  rw [h]
  rfl

theorem fenceBusy_iff (s : State) (c t fn : Nat) : s.fenceBusy c t fn = true ↔
    (fn.testBit 0 = true ∧ s.storesOut c t = true) ∨ (fn.testBit 1 = true ∧ (s.passesOut c t fun _ => true) = true) ∨
    (fn.testBit 2 = true ∧ s.vecOut c t = true) ∨ (fn.testBit 3 = true ∧ (s.qeOut c t fun _ => true) = true) ∨
    (fn.testBit 4 = true ∧ (s.buWork c t fun _ => true) = true) := by
  simp only [State.fenceBusy, Bool.or_eq_true, Bool.and_eq_true, or_assoc]

section
variable {c : Fin 128} {t : Fin 16}

theorem headStart_gets (n : Nat) (s : State) :
    let r := (headStart c t n).run s
    r.thr c t = THR_RUN ∧ r.get (R.SEQ_THR_STATUS_section c t) = 0 ∧ r.pc c t = s.get (R.SEQ_THR_CFG_head_pc c t) * 8 ∧
    r.thrStepAt (c * 16 + t) = n := by
  have hlt : s.get (R.SEQ_THR_CFG_head_pc c t) < 2 ^ 45 := get_lt s _
  have hput : (putThr c t THR_RUN).Only (Upd.within [.msix, .mgmtQ, .out] (oneOfQuiet [R.SEQ_THR_STATUS c t])) :=
    putThr_within _ c.isLt (by simp [tells]) (by simp)
  have hstep : ∀ (u : State) (f : Fld), ((Upd.thrStep (c * 16 + t) n).run u).get f = u.get f := fun u f => get_upd (by simp [Upd.part]) f u
  simp only [headStart, Eff.run_look, Eff.run_all_cons, Eff.run_all_nil, Eff.run_upd]
  refine ⟨putThr_thr _ _ _ c.isLt t.isLt (by decide) _, ?sect, ?pc, ?step⟩
  case step =>
    rw [State.thrStepAt, (within_changes hput _).same_thrStep (by simp)]
    exact Upd.run_thrStep_same _ _ _
  case sect =>
    simp (disch := (
      try simp only [apart, farKey, R.SEQ_THR_STATUS_state, R.SEQ_THR_STATUS_section, R.SEQ_THR_PC_pc, R.SEQ_THR_CFG_head_pc,
        R.SEQ_THR_STATUS, R.SEQ_THR_PC, R.SEQ_THR_CFG, rk]
      omega)) only [get_putThr_apart, hstep, put_same]
    rfl
  case pc =>
    simp (disch := (
      try simp only [apart, farKey, R.SEQ_THR_STATUS_state, R.SEQ_THR_STATUS_section, R.SEQ_THR_PC_pc, R.SEQ_THR_CFG_head_pc,
        R.SEQ_THR_STATUS, R.SEQ_THR_PC, R.SEQ_THR_CFG, rk]
      omega)) only [State.pc, get_putThr_apart, hstep, get_put_apart, put_same]
    exact Nat.mod_eq_of_lt (show _ < 2 ^ 48 by omega)

/-- R39: what HEAD_END does once the step before is complete. -/
theorem headEnd_goes {d : Fin 32} {s : State} (hrun : s.thr c t = THR_RUN) (table : Nat) :
    let r := (Eff.all [putSreg c t d (BitVec.ofNat 64 table), put (R.SEQ_THR_STATUS_section c t) 1, nextPc c t]).run (issued s c t)
    r.sreg c t d = (if d.val = 0 then 0 else BitVec.ofNat 64 table) ∧
    r.get (R.SEQ_THR_STATUS_section c t) = 1 ∧ r.thr c t = THR_RUN ∧ r.pc c t = (s.pc c t + 8) % 2 ^ 48 ∧
    keepsRegs [R.SEQ_THR_REG c t d, R.SEQ_THR_STATUS c t, R.SEQ_THR_PC c t] s r ∧ restKept s r := by
  have hreg : (putSreg c t d (BitVec.ofNat 64 table)).Only (Upd.within [] (oneOf [R.SEQ_THR_REG c t d])) := by
    unfold putSreg
    split
    · trivial
    · exact (within_putReg _ _).2 (List.mem_singleton.2 rfl)
  have hwithin : (Eff.all [putSreg c t d (BitVec.ofNat 64 table), put (R.SEQ_THR_STATUS_section c t) 1, nextPc c t]).Only
      (Upd.within [] (oneOf [R.SEQ_THR_REG c t d, R.SEQ_THR_STATUS c t, R.SEQ_THR_PC c t])) := by
    simp only [Eff.only_all_cons, Eff.only_all_nil, nextPc, within_put, within_addWrap, and_true]
    exact ⟨hreg.mono fun _ => Upd.within_mono (List.Subset.refl _) fun _ hk => List.mem_cons.2 (.inl (List.mem_singleton.1 hk)),
      by simp [oneOf, R.SEQ_THR_STATUS_section], by simp [oneOf, R.SEQ_THR_PC_pc]⟩
  have hne : R.SEQ_THR_STATUS c t ≠ R.SEQ_THR_REG c t d ∧ R.SEQ_THR_PC c t ≠ R.SEQ_THR_REG c t d := by
    simp only [R.SEQ_THR_STATUS, R.SEQ_THR_PC, R.SEQ_THR_REG, rk]; omega
  refine ⟨?sreg, ?sect, ?thr, ?pc, issued_keepsRegs (within_keepsRegs hwithin _),
    issued_changesOnly (within_changes hwithin _) (by simp) (by simp)⟩
  all_goals simp only [Eff.run_all_cons, Eff.run_all_nil, nextPc]
  case sreg =>
    rw [State.sreg]
    split
    · rfl
    · rw [State.reg, addWrap_other (f := R.SEQ_THR_PC_pc c t) hne.2.symm, put_other (f := R.SEQ_THR_STATUS_section c t) hne.1.symm,
        putSreg, if_neg ‹_›, putReg_same]
  case sect =>
    simp (disch := (
      try simp only [apart, farKey, R.SEQ_THR_STATUS_state, R.SEQ_THR_STATUS_section, R.SEQ_THR_PC_pc, R.SEQ_THR_CFG_head_pc,
        R.SEQ_THR_STATUS, R.SEQ_THR_PC, R.SEQ_THR_CFG, rk]
      omega)) only [get_addWrap_apart, put_same]
    rfl
  case thr =>
    simp (disch := (
      try simp only [apart, farKey, R.SEQ_THR_STATUS_state, R.SEQ_THR_STATUS_section, R.SEQ_THR_PC_pc, R.SEQ_THR_CFG_head_pc,
        R.SEQ_THR_STATUS, R.SEQ_THR_PC, R.SEQ_THR_CFG, rk]
      omega)) only [State.thr, get_addWrap_apart, get_put_apart]
    exact (within_get hreg _ (f := R.SEQ_THR_STATUS_state c t) fun h => hne.1 (List.mem_singleton.1 h)).trans ((issued_thr ..).trans hrun)
  case pc =>
    simp (disch := (
      try simp only [apart, farKey, R.SEQ_THR_STATUS_state, R.SEQ_THR_STATUS_section, R.SEQ_THR_PC_pc, R.SEQ_THR_CFG_head_pc,
        R.SEQ_THR_STATUS, R.SEQ_THR_PC, R.SEQ_THR_CFG, rk]
      omega)) only [State.pc, addWrap_same, get_put_apart]
    rw [within_get hreg _ (f := R.SEQ_THR_PC_pc c t) fun h => hne.2 (List.mem_singleton.1 h)]
    exact congrArg (fun x => (x + 8) % 2 ^ 48) (issued_pc ..)

theorem seq_low : (R.SEQ_THR_STATUS c t) < 0x10000000 ∧ (R.SEQ_THR_PC c t) < 0x10000000 := by
  simp only [R.SEQ_THR_STATUS, R.SEQ_THR_PC, rk]; omega

/-- The section and the pc that a thread leaves STEP_END with. -/
def stepEnded (c t : Nat) : Eff := .seq (put (R.SEQ_THR_STATUS_section c t) 2) (nextPc c t)

theorem stepEnded_gets (s : State) :
    ((stepEnded c t).run s).get (R.SEQ_THR_STATUS_section c t) = 2 ∧ ((stepEnded c t).run s).pc c t = (s.pc c t + 8) % 2 ^ 48 ∧
    ((stepEnded c t).run s).get (R.SEQ_THR_CFG_head_pc c t) = s.get (R.SEQ_THR_CFG_head_pc c t) := by
  simp only [stepEnded, Eff.run_seq, nextPc, State.pc]
  simp (disch := (
    try simp only [apart, farKey, R.SEQ_THR_STATUS_state, R.SEQ_THR_STATUS_section, R.SEQ_THR_PC_pc, R.SEQ_THR_CFG_head_pc,
      R.SEQ_THR_STATUS, R.SEQ_THR_PC, R.SEQ_THR_CFG, rk]
    omega)) only [addWrap_same, get_addWrap_apart, get_put_apart, put_same, and_true]
  exact ⟨rfl, rfl⟩

/-- R40: the thread parks, and what the completion of the step leaves. -/
theorem stepEnd_parks (s : State) :
    let r := (stepCheck c).run ((putThr c t THR_PARKED).run ((stepEnded c t).run (issued s c t)))
    r.thr c t = THR_PARKED ∧ r.get (R.SEQ_THR_STATUS_section c t) = 2 ∧ r.pc c t = (s.pc c t + 8) % 2 ^ 48 := by
  obtain ⟨hsection, hpc, -⟩ := stepEnded_gets (c := c) (t := t) (issued s c t)
  have hthr := putThr_thr c t THR_PARKED c.isLt t.isLt (by decide) ((stepEnded c t).run (issued s c t))
  rw [issued_pc] at hpc
  refine ⟨(stepCheck_get c seq_low.1 _).trans hthr, (stepCheck_get c seq_low.1 _).trans ?_, (stepCheck_get c seq_low.2 _).trans ?_⟩
  all_goals simp (disch := (
    try simp only [apart, farKey, R.SEQ_THR_STATUS_state, R.SEQ_THR_STATUS_section, R.SEQ_THR_PC_pc, R.SEQ_THR_CFG_head_pc,
      R.SEQ_THR_STATUS, R.SEQ_THR_PC, R.SEQ_THR_CFG, rk]
    omega)) only [get_putThr_apart]
  · exact hsection
  · exact hpc

/-- R156: a thread that the next edge has passed starts that step at once. -/
theorem stepEnd_starts (n : Nat) (s : State) :
    let r := (stepCheck c).run ((headStart c t n).run ((stepEnded c t).run (issued s c t)))
    r.thr c t = THR_RUN ∧ r.get (R.SEQ_THR_STATUS_section c t) = 0 ∧ r.pc c t = s.get (R.SEQ_THR_CFG_head_pc c t) * 8 ∧
    r.thrStepAt (c * 16 + t) = n := by
  obtain ⟨-, -, hhead⟩ := stepEnded_gets (c := c) (t := t) (issued s c t)
  obtain ⟨hthr, hsection, hpc, hstep⟩ := headStart_gets (c := c) (t := t) n ((stepEnded c t).run (issued s c t))
  refine ⟨(stepCheck_get c seq_low.1 _).trans hthr, (stepCheck_get c seq_low.1 _).trans hsection, (stepCheck_get c seq_low.2 _).trans ?_, ?_⟩
  · rw [State.pc] at hpc
    rw [hpc, hhead, issued_get]
  · rw [State.thrStepAt, (within_changes (stepCheck_within c) _).same_thrStep (by simp [stepParts])]
    exact hstep

end

theorem seqStepSections : Claims.SeqStepSections := by
  intro c th d a b fn imm dist s n next busy
  have hbusy : busy ↔ s.fenceBusy c th fn.toNat = true := (fenceBusy_iff ..).symm
  have hmask : fn.toNat < 32 → Nat.land fn.toNat 31 = fn.toNat := fun h => by
    have := Nat.and_two_pow_sub_one_of_lt_two_pow (n := 5) (x := fn.toNat) h
    exact this
  refine ⟨fun hfn hidle => issues_effect rfl rfl (hmask hfn) fun _ => ?fence, fun hfn hb => issues_effect rfl rfl (hmask hfn) fun _ => ?fenced,
    fun hdist hactive => ⟨fun hdone => issues_effect rfl rfl rfl fun hready => ?head, fun hdone => issues_effect rfl rfl rfl fun _ => ?headWaits,
      fun hfree hedge => issues_effect rfl rfl rfl fun _ => ?parks, fun hfree hedge => issues_effect rfl rfl rfl fun _ => ?starts,
      fun hb => issues_effect rfl rfl rfl fun _ => ?endWaits⟩,
    fun hout => ⟨issues_effect rfl rfl rfl fun _ => ?headTraps, issues_effect rfl rfl rfl fun _ => ?endTraps⟩⟩
  case fence =>
    have hfree : s.fenceBusy c th fn.toNat = false := Bool.eq_false_iff.2 fun h => hidle (hbusy.2 h)
    rw [Eff.run_look, issued_fenceBusy, hfree, Bool.not_false, Eff.run_when_true]
    have hwithin : (nextPc c th).Only (Upd.within [] (oneOf [R.SEQ_THR_PC c th])) := by simp [nextPc, oneOf, R.SEQ_THR_PC_pc]
    refine ⟨?_, issued_keepsRegs (within_keepsRegs hwithin _), issued_changesOnly (within_changes hwithin _) (by simp) (by simp)⟩
    rw [nextPc_pc, issued_pc]
  case fenced =>
    rw [Eff.run_look, issued_fenceBusy, hbusy.1 hb, Bool.not_true, Eff.run_when_false]
    exact issued_changes ..
  case head =>
    have hgo : (s.thrStepAt (c * 16 + th) == s.tideFirst || s.thrStepAt (c * 16 + th) == 0 ||
        s.stepDone dist (s.thrStepAt (c * 16 + th) - 1)) = true := by
      simpa only [Bool.or_eq_true, beq_iff_eq, or_assoc] using hdone
    have hfirst : (issued s c th).tideFirst = s.tideFirst := (issued_changes s c th).same_tideFirst (by simp)
    simp only [Eff.run_look, issued_chartLive, hdist, issued_bit, hactive, Bool.not_true, Bool.false_eq_true, if_false, issued_thrStepAt,
      issued_stepDone, hfirst, hgo, Eff.run_when_true]
    exact headEnd_goes hready.2.1 _
  case headWaits =>
    have hstop : (s.thrStepAt (c * 16 + th) == s.tideFirst || s.thrStepAt (c * 16 + th) == 0 ||
        s.stepDone dist (s.thrStepAt (c * 16 + th) - 1)) = false := by
      refine Bool.eq_false_iff.2 fun h => hdone ?_
      simpa only [Bool.or_eq_true, beq_iff_eq, or_assoc] using h
    have hfirst : (issued s c th).tideFirst = s.tideFirst := (issued_changes s c th).same_tideFirst (by simp)
    simp only [Eff.run_look, issued_chartLive, hdist, issued_bit, hactive, Bool.not_true, Bool.false_eq_true, if_false, issued_thrStepAt,
      issued_stepDone, hfirst, hstop, Eff.run_when_false]
    exact issued_changes ..
  case parks =>
    have hfree : s.stepBusy c th (s.thrStepAt (c * 16 + th)) = false := hfree
    have hedge : s.edge ≤ s.thrStepAt (c * 16 + th) := hedge
    simp only [Eff.run_look, issued_chartLive, hdist, issued_bit, hactive, Bool.not_true, Option.isNone_some, Bool.or_self, Bool.false_eq_true,
      if_false, issued_thrStepAt, issued_stepBusy, hfree, Bool.not_false, Eff.run_when_true, issued_edge, if_neg (Nat.not_lt.2 hedge),
      Eff.run_all_cons, Eff.run_all_nil]
    have h := stepEnd_parks (c := c) (t := th) s
    simp only [stepEnded, Eff.run_seq] at h
    exact h
  case starts =>
    have hfree : s.stepBusy c th (s.thrStepAt (c * 16 + th)) = false := hfree
    have hedge : s.thrStepAt (c * 16 + th) < s.edge := hedge
    simp only [Eff.run_look, issued_chartLive, hdist, issued_bit, hactive, Bool.not_true, Option.isNone_some, Bool.or_self, Bool.false_eq_true,
      if_false, issued_thrStepAt, issued_stepBusy, hfree, Bool.not_false, Eff.run_when_true, issued_edge, if_pos hedge,
      Eff.run_all_cons, Eff.run_all_nil]
    have h := stepEnd_starts (c := c) (t := th) s.edge s
    simp only [stepEnded, Eff.run_seq] at h
    exact h
  case endWaits =>
    have hb : s.stepBusy c th (s.thrStepAt (c * 16 + th)) = true := hb
    simp only [Eff.run_look, issued_chartLive, hdist, issued_bit, hactive, Bool.not_true, Option.isNone_some, Bool.or_self, Bool.false_eq_true,
      if_false, issued_thrStepAt, issued_stepBusy, hb, Eff.run_when_false]
    exact issued_changes ..
  case headTraps =>
    simp only [Eff.run_look, issued_chartLive, issued_bit]
    split
    · exact trapIllegal_issued s
    · rename_i hsome
      have hactive := hout.resolve_left (by rw [hsome]; simp)
      simp only [hactive, Bool.not_false, if_true]
      exact trapIllegal_issued s
  case endTraps =>
    have hout' : (!s.bit (R.SEQ_THR_CFG_active c th) || (chartDistrictOf s.chartLive c).isNone) = true := by
      rcases hout with h | h
      · rw [h, Option.isNone_none, Bool.or_true]
      · rw [h]; rfl
    simp only [Eff.run_look, issued_chartLive, issued_bit, hout', if_true]
    exact trapIllegal_issued s

/-! Halt, resume and kill -/

/-- A command that an agent writes to a register and that is accepted: its effect, and the answer of any agent but a host. -/
theorem yields_act {i : Instr} {who : Agent} {a : Act} {s : State} {p : Eff} {post : State → Prop}
    (hi : exec i s = (runAct who a).done s) (hpow : s.power ≠ .off) (ha : a s = (ST_OK, p))
    (h : post ((actAnswer who).run (p.run s))) : yields i s post := yields_done hi hpow (runAct_done ha ▸ h)

theorem answer_get (who : Agent) (f : Fld) (s : State) : ((actAnswer who).run s).get f = s.get f :=
  congrArg f.read (actAnswer_regsAt who s f.key)

theorem answer_changes (who : Agent) (s : State) : changesOnly [.out] s ((actAnswer who).run s) :=
  (actAnswer_in who (List.Subset.refl _)).changes s

/-- What an answer adds leaves a frame as it is. -/
theorem changes_answer (who : Agent) {ps qs : List Part} {s t : State} (h : changesOnly ps s t) (hps : ps ⊆ qs) (hout : Part.out ∈ qs) :
    changesOnly qs s ((actAnswer who).run t) :=
  changesOnly_trans (changesOnly_mono hps h) (changesOnly_mono (by simpa using hout) (answer_changes who t))

theorem keepsQuiet_answer (who : Agent) {keys : List Nat} {s t : State} (h : keepsQuiet keys s t) :
    keepsQuiet keys s ((actAnswer who).run t) := fun k hfar hpwr hk => (actAnswer_regsAt who t k).trans (h k hfar hpwr hk)

theorem keepsRegs_answer (who : Agent) {keys : List Nat} {s t : State} (h : keepsRegs keys s t) :
    keepsRegs keys s ((actAnswer who).run t) := fun k hk => (actAnswer_regsAt who t k).trans (h k hk)

section
variable {c : Fin 128} {t : Fin 16}

theorem leaveWait_idle {s : State} (hw : s.bit (R.PBX_THR_WAIT_waiting c t) = false) (hthr : s.thr c t ≠ THR_WAIT) :
    (leaveWait c t).run s = s := by
  have hne : (s.thr c t == THR_WAIT) = false := beq_eq_false_iff_ne.2 hthr
  simp only [leaveWait, Eff.run_look, hw, hne, Eff.run_all_cons, Eff.run_all_nil, Eff.run_when_false]

/-- The registers of a cell's postbox block. -/
@[reducible] def pbxPage (c k : Nat) : Prop := k / 0x10000 = c * 16 + 7

/-- A thread that leaves its wait changes the postbox block alone. -/
theorem leaveWait_within : (leaveWait c t).Only (Upd.within [.waiters, .waitSince] (pbxPage c)) := fun s => by
  simp only [Eff.only_all_cons, Eff.only_all_nil, Eff.only_when, and_true]
  refine ⟨fun _ => leavePostbox_within (by simp) ?_ t, fun _ => waitOver_within (by simp) ?_ ?_⟩
  all_goals
    have htarget : s.get (R.PBX_THR_WAIT_target c t) < 2 ^ 6 := get_lt s _
    simp only [R.PBX_VALUE, R.PBX_WAIT_CK, R.PBX_THR_WAIT, rk]
    omega

theorem leaveWait_get {f : Fld} (hf : ¬ pbxPage c f.key) (s : State) : ((leaveWait c t).run s).get f = s.get f :=
  within_get leaveWait_within s hf

theorem regBit_eq_bit (s : State) (k i : Nat) : s.regBit k i = s.bit ⟨k, i, 1⟩ := rfl

/-- A thread leaves the waiters of its postbox, whose value and landed bytes stay. -/
theorem leaveWait_gets {s : State} (hw : s.bit (R.PBX_THR_WAIT_waiting c t) = true) (hn : s.get (R.PBX_THR_WAIT_target c t) < 48) :
    let n := s.get (R.PBX_THR_WAIT_target c t)
    let r := (leaveWait c t).run s
    r.waitersAt (c * 48 + n) = (s.waitersAt (c * 48 + n)).filter (fun i => i != t.val) ∧
    r.regBit (R.PBX_VALUE c n) (32 + t) = false ∧ r.get (R.PBX_VALUE_value c n) = s.get (R.PBX_VALUE_value c n) ∧
    r.get (R.PBX_LANDED_landed c n) = s.get (R.PBX_LANDED_landed c n) := by
  generalize hgen : s.get (R.PBX_THR_WAIT_target c t) = n at hn
  have hover : (Eff.when (s.thr c t == THR_WAIT) (waitOver c t)).Only
      (Upd.within [.waitSince] (oneOf [R.PBX_WAIT_CK c, R.PBX_THR_WAIT c t])) :=
    (Eff.only_when _ _).2 fun _ => waitOver_within (by simp) (by simp [oneOf]) (by simp [oneOf])
  have hne : ¬ oneOf [R.PBX_WAIT_CK c, R.PBX_THR_WAIT c t] (R.PBX_VALUE c n) ∧
      ¬ oneOf [R.PBX_WAIT_CK c, R.PBX_THR_WAIT c t] (R.PBX_LANDED c n) := by
    simp only [oneOf, List.mem_cons, List.not_mem_nil, or_false, R.PBX_VALUE, R.PBX_LANDED, R.PBX_WAIT_CK, R.PBX_THR_WAIT, rk]
    omega
  have hput : (putBit ⟨R.PBX_VALUE c n, 32 + t, 1⟩ false).Only (Upd.within [] (oneOf [R.PBX_VALUE c n])) := by simp [oneOf]
  have hup : ∀ (u : State) (f : Fld) (ws : List Nat), ((Upd.waiters (c * 48 + n) ws).run u).get f = u.get f := fun u f _ =>
    get_upd (by simp [Upd.part]) f u
  simp only [leaveWait, leavePostbox, Eff.run_look, Eff.run_all_cons, Eff.run_all_nil, hw, Eff.run_when_true, hgen, Eff.run_upd]
  refine ⟨?waiters, ?flag, ?value, ?landed⟩
  case waiters =>
    rw [State.waitersAt, (within_changes hover _).same_waiters (by simp), (within_changes hput _).same_waiters (by simp)]
    exact Upd.run_waiters_same _ _ _
  case flag =>
    rw [regBit_eq_bit, State.bit, within_get hover _ (f := ⟨R.PBX_VALUE c n, 32 + t, 1⟩) hne.1]
    exact bit_putBit ⟨R.PBX_VALUE c n, 32 + t, 1⟩ (show 32 + t.val + 1 ≤ 64 by omega) rfl false _
  case value =>
    rw [within_get hover _ (f := R.PBX_VALUE_value c n) hne.1, putBit,
      get_put_apart (.inr (.inr (show 0 + 16 ≤ 32 + t.val by omega))) (show 0 + 16 ≤ 64 by decide), hup]
  case landed =>
    rw [within_get hover _ (f := R.PBX_LANDED_landed c n) hne.2, putBit, get_put_apart (.inl
      (by simp only [R.PBX_LANDED_landed, R.PBX_LANDED, R.PBX_VALUE, rk]; omega))
      (show 0 + 32 ≤ 64 by decide), hup]

theorem markStep_in (d k st : Nat) : (markStep d k st).In [.seqs] := Eff.in_look fun _ => Eff.in_each fun e => by
  split
  · exact Eff.in_when (Eff.in_upd (by simp [Upd.part]))
  · exact Eff.in_skip

/-- The sequences in a thread's district are marked. -/
def killMarks (c t : Nat) (s : State) : Eff := match chartDistrictOf s.chartLive c with
  | some d => markStep d (s.currentStep c t) ST_SEQ_TRAP
  | none => .skip

theorem killMarks_in (s : State) : (killMarks c t s).In [.seqs] := by
  unfold killMarks
  split
  · exact markStep_in _ _ _
  · exact Eff.in_skip

theorem actThreadKill_eq {who : Agent} {s : State} (hw : writable who (c * 16 + 1) (t * 0x40 + 8) s) :
    actThreadKill who c t s = (ST_OK, Eff.when (s.thr c t != THR_KILLED) (.all [
      leaveWait c t, killMarks c t s, putThr c t THR_KILLED, stepCheck c])) := by
  (rw [actThreadKill, guardAct_writable hw, killMarks]) <;> rfl

theorem keepsRegs_in {p : Eff} {ps : List Part} (h : p.In ps) (hps : Part.regs ∉ ps) (s : State) : (p.run s).get = s.get :=
  (get_of_regs ((h.changes s).same_regs hps)).1

theorem putThr_pc (st : Nat) (s : State) : ((putThr c t st).run s).pc c t = s.pc c t := by
  simp (disch := (
    try simp only [apart, farKey, R.SEQ_THR_PC_pc, R.SEQ_THR_STATUS_state, R.SEQ_THR_PC, R.SEQ_THR_STATUS, rk]
    omega)) only [State.pc, get_putThr_apart]

end

theorem threadControl : Claims.ThreadControl := by
  intro who c th s hw n
  have hpage : ¬ pbxPage c (R.SEQ_THR_PC c th) := by simp only [R.SEQ_THR_PC, rk]; omega
  have hput : ∀ st, (putThr c th st).Only (Upd.within [.msix, .mgmtQ, .out] (oneOfQuiet [R.SEQ_THR_STATUS c th])) := fun st =>
    putThr_within st c.isLt (by simp [tells]) (by simp)
  have hset : ∀ st, st < 8 → ∀ u, ((actAnswer who).run ((putThr c th st).run u)).thr c th = st := fun st hst u => by
    rw [State.thr, answer_get]; exact putThr_thr c th st c.isLt th.isLt hst u
  refine ⟨fun hrun hwait => yields_act rfl hw.1 (guardAct_writable hw _) ?halt,
    fun hthr hwait hn => yields_act rfl hw.1 (guardAct_writable hw _) ?haltWait,
    fun hrun hwait => yields_act rfl hw.1 (guardAct_writable hw _) ?haltNot,
    fun hthr => yields_act rfl hw.1 (guardAct_writable hw _) ?resume,
    fun htrap hhalt => yields_act rfl hw.1 (guardAct_writable hw _) ?resumeNot,
    fun hthr => yields_act rfl hw.1 (actThreadKill_eq hw) ?kill, fun hthr => yields_act rfl hw.1 (actThreadKill_eq hw) ?killNot⟩
  case halt =>
    simp only [hrun, beq_self_eq_true, Bool.true_or, Eff.run_when_true, Eff.run_seq, leaveWait_idle hwait (by rw [hrun]; decide)]
    exact ⟨hset _ (by decide) s, keepsQuiet_answer who (within_keepsQuiet (hput _) s),
      changes_answer who (within_changes (hput _) s) (by simp) (by simp)⟩
  case haltWait =>
    obtain ⟨hwaiters, hflag, hvalue, hlanded⟩ := leaveWait_gets hwait hn
    have hfv : farKey (R.PBX_VALUE c n) := (pbxKey_far c.isLt hn).1
    have hfl : farKey (R.PBX_LANDED c n) := (pbxKey_far c.isLt hn).2.1
    have hne : R.PBX_VALUE c n ∉ [R.SEQ_THR_STATUS c th] ∧ R.PBX_LANDED c n ∉ [R.SEQ_THR_STATUS c th] := by
      simp only [List.mem_singleton, R.PBX_VALUE, R.PBX_LANDED, R.SEQ_THR_STATUS, rk]; omega
    simp only [hthr, beq_self_eq_true, Bool.or_true, Eff.run_when_true, Eff.run_seq]
    have hquiet := within_keepsQuiet (hput THR_HALTED) ((leaveWait c th).run s)
    refine ⟨hset _ (by decide) _, ?_, ?_, ?_, ?_, ?_,
      changesOnly_trans (changesOnly_mono (by simp) (within_changes leaveWait_within s))
        (changes_answer who (within_changes (hput _) _) (by simp) (by simp))⟩
    · rw [State.pc, answer_get]
      exact (putThr_pc _ _).trans (leaveWait_get hpage s)
    · rw [State.waitersAt, (answer_changes who _).same_waiters (by simp), (within_changes (hput _) _).same_waiters (by simp)]
      exact hwaiters
    · rw [regBit_eq_bit, State.bit, answer_get, within_get (hput _) _ (f := ⟨R.PBX_VALUE c n, 32 + th, 1⟩) (not_or.2 ⟨hne.1, not_not_intro hfv⟩)]
      exact hflag
    · rw [answer_get, within_get (hput _) _ (f := R.PBX_VALUE_value c n) (not_or.2 ⟨hne.1, not_not_intro hfv⟩)]
      exact hvalue
    · rw [answer_get, within_get (hput _) _ (f := R.PBX_LANDED_landed c n) (not_or.2 ⟨hne.2, not_not_intro hfl⟩)]
      exact hlanded
  case haltNot =>
    simp only [beq_eq_false_iff_ne.2 hrun, beq_eq_false_iff_ne.2 hwait, Bool.or_self, Eff.run_when_false]
    exact answer_changes who s
  case resume =>
    have hgo : (s.thr c th == THR_TRAPPED || s.thr c th == THR_HALTED) = true := by
      simpa only [Bool.or_eq_true, beq_iff_eq] using hthr
    simp only [hgo, Eff.run_when_true]
    exact ⟨hset _ (by decide) s, (answer_get ..).trans (putThr_pc _ _), keepsQuiet_answer who (within_keepsQuiet (hput _) s),
      changes_answer who (within_changes (hput _) s) (by simp) (by simp)⟩
  case resumeNot =>
    simp only [beq_eq_false_iff_ne.2 htrap, beq_eq_false_iff_ne.2 hhalt, Bool.or_self, Eff.run_when_false]
    exact answer_changes who s
  case kill =>
    have hgo : (s.thr c th != THR_KILLED) = true := bne_iff_ne.2 hthr
    simp only [hgo, Eff.run_when_true, Eff.run_all_cons, Eff.run_all_nil]
    have hmarks := killMarks_in (c := c) (t := th) s
    refine ⟨?_, ?_, fun hwait hn => ?_⟩
    · rw [State.thr, answer_get, stepCheck_get c seq_low.1]
      exact putThr_thr c th _ c.isLt th.isLt (by decide) _
    · rw [State.pc, answer_get, stepCheck_get c seq_low.2]
      refine (putThr_pc _ _).trans ?_
      rw [State.pc, keepsRegs_in hmarks (by simp)]
      exact leaveWait_get hpage s
    · obtain ⟨hwaiters, -⟩ := leaveWait_gets hwait hn
      rw [State.waitersAt, (answer_changes who _).same_waiters (by simp),
        (within_changes (stepCheck_within c) _).same_waiters (by simp [stepParts]), (within_changes (hput _) _).same_waiters (by simp),
        (hmarks.changes _).same_waiters (by simp)]
      rw [State.waitersAt] at hwaiters
      rw [hwaiters]
      simp
  case killNot =>
    simp only [hthr, bne_self_eq_false, Eff.run_when_false]
    exact answer_changes who s

/-- Settles O11: what a thread awaits at FENCE, HEAD_END and STEP_END, and what its control does in each of its states. -/
theorem seqThreads : Obligations.SeqThreads := ⟨seqStepSections, threadControl⟩

end Sys2Proof.Proofs

/-! An instruction fetch uses up the windows that served its thread (R225), which the statement on the instruction cache leaves out. -/

namespace Sys2Proof.Proofs
open Sys2Proof.Machine Sys2Proof.Claims

/-- What a command yields holds of the state that its effect leaves. -/
theorem post_of_yields {i : Instr} {p : Eff} {s : State} {post : State → Prop} (h : yields i s post) (hi : exec i s = p.done s)
    (hpow : s.power ≠ .off) : post (p.run s) := by
  obtain ⟨t, ht, hpost⟩ := h
  rw [hi, Eff.done_on hpow] at ht
  cases ht
  exact hpost

/-- A running thread at address 0, whose requests a memory window of bank unit 0 has served. -/
def windowServed : State :=
  (Upd.granted 0 [.thread 0 0]).run ((put (R.SEQ_THR_STATUS_state 0 0) THR_RUN).run State.reset)

theorem windowServed_ready : memReady windowServed (.thread 0 0) 0 128 := by
  have hwords : ∀ w ∈ wordsOf 0 128, windowServed.decode w = .good ∧ (isExt w && windowServed.gdFailed (extDev w)) = false := by decide
  have hregion : regionOf 0 = .vault 0 := by decide
  refine ⟨by decide, by decide, ?_⟩
  rw [hregion]
  exact ⟨by decide, by decide, by decide, hwords⟩

theorem windowServed_fills : ((icacheFill 0 0 0).run windowServed).granted = [] := by decide

theorem not_instructionCache : ¬ Claims.InstructionCache := by
  intro h
  have hpow : windowServed.power ≠ .off := by decide
  have hpc : windowServed.pc 0 0 = 0 := by decide
  have hmiss : windowServed.icLine 0 (windowServed.pc 0 0) = none := by decide
  obtain ⟨hfill, -⟩ := h 0 0 (.core 0) windowServed
  obtain ⟨-, -, -, -, hrest⟩ := post_of_yields (hfill hpow (by decide) hmiss (hpc ▸ windowServed_ready)) rfl hpow
  have hgranted := hrest.same_granted (by simp)
  rw [windowServed_fills] at hgranted
  exact absurd hgranted (by decide)

/-- Refutes O12: a fill of a missing line from vault memory that no unit holds also takes the thread from the windows that served
it, so `granted` changes with the instruction cache and the registers. -/
theorem not_seqMemoryOrder : ¬ Obligations.SeqMemoryOrder := fun ⟨_, _, hcache⟩ => not_instructionCache hcache

end Sys2Proof.Proofs

/-! While a last pass with output is in the array, what the feeder shows of the output-row credits is free (R125), which the statements
on the sampling of rows leave out. -/

namespace Sys2Proof.Proofs
open Sys2Proof.Machine Sys2Proof.Claims

/-- A pass of one row with zero-skip that has not been sampled. -/
def unsampledPass : Pass :=
  ⟨1, [0, 0, 0, 0, 16, 0, 1, 0] ++ List.replicate 32 0 ++ [0xFF, 0xFF, 0xFF, 0xFF], 0, none, 0, 0, [], false, 0, none, false, [], 0, none, [], none⟩

/-- A last pass with output that is in the array. -/
def outputPass : Pass :=
  ⟨0, [0, 0, 0, 1, 2, 0, 1, 0] ++ List.replicate 24 0, 0, none, 0, 3, [], false, 0, none, false, [], 0, none, [], none⟩

/-- A cell with both passes in its queue. -/
def outputAhead : State := (Upd.passQ 0 [outputPass, unsampledPass]).run State.reset

theorem outputAhead_sampled : ((fetchStart 0 false).run outputAhead).freeCtr ≠ outputAhead.freeCtr := by decide

theorem not_passSampling : ¬ Claims.PassSampling := by
  intro h
  have hpow : outputAhead.power ≠ .off := by decide
  obtain ⟨hstrided, -, -⟩ := h 0 outputAhead hpow
  obtain ⟨hwaits, -⟩ := hstrided unsampledPass (by decide) (by decide) (by decide) (by decide) (by decide)
  obtain ⟨-, -, hrest⟩ := post_of_yields (hwaits (.inl (by decide))) rfl hpow
  exact outputAhead_sampled (hrest.same_freeCtr (by simp))

/-- Refutes O17: the sampling of the rows of a pass behind a last pass with output also draws the free value that the feeder shows for
the output-row credits. -/
theorem not_passSources : ¬ Obligations.PassSources := fun ⟨hsampling, _⟩ => not_passSampling hsampling

end Sys2Proof.Proofs

/-! A pass whose tile is fetched at its start uses up the windows that served its feeder (R225), which the statement on its results leaves
out. -/

namespace Sys2Proof.Proofs

-- One evaluation after another: side by side each keeps a thread and its stack while it waits for the kernel.
set_option Elab.async false

open Sys2Proof.Machine Sys2Proof.Claims

/-- Memory into which no check bits have been written decodes without an error. -/
theorem decode_clean {s : State} (h : s.check = []) (w : Nat) : s.decode w = .good := by
  rw [State.decode, State.checkAt, h]
  rfl

/-- Vault memory without check bits of its own, which no lock, cache or bank unit stands before. -/
theorem memReady_clean {s : State} {who : Agent} {a n v : Nat} (hcheck : s.check = []) (hn : n ≠ 0) (hregion : regionOf a = .vault v)
    (hmap : s.mapStatus a n = ST_OK) (hlock : s.touchesLock a n = false) (hcached : s.cached a = false) (hholder : s.holder a n = none) :
    memReady s who a n := by
  refine ⟨hn, hmap, ?_⟩
  rw [hregion]
  exact ⟨hlock, hcached, hholder, fun w hw => ⟨decode_clean hcheck w, by rw [isExt_of_vault (vault_end hregion hmap) hw, Bool.false_and]⟩⟩

/-- A dense INT8 pass without a fed row whose tile lies at address 0. -/
def densePass : Pass :=
  ⟨1, [8, 8, 8, 0xFF] ++ List.replicate 52 0 ++ [0, 0, 0x80, 0x3F], 0, none, 0, 1, [], false, 0, none, false, [], 1, none, [], none⟩

/-- The pass is in the queue of an enabled feeder, which a memory window of bank unit 0 has served. -/
def feederServed : State :=
  (Upd.granted 0 [.feeder 0]).run ((Upd.passQ 0 [densePass]).run ((putBit (R.FEED_CTRL_enable 0) true).run State.reset))

theorem feederServed_tile : tileReady feederServed 0 densePass := by
  refine ⟨by decide, by decide, by decide, fun g hg _ => ?_⟩
  have hregion : ∀ g < 16, regionOf (densePass.groupAt g) = .vault 0 := by decide
  have hmap : ∀ g < 16, feederServed.mapStatus (densePass.groupAt g) 512 = ST_OK := by decide
  have hlock : ∀ g < 16, feederServed.touchesLock (densePass.groupAt g) 512 = false := by decide
  have hcached : ∀ g < 16, feederServed.cached (densePass.groupAt g) = false := by decide
  have hholder : ∀ g < 16, feederServed.holder (densePass.groupAt g) 512 = none := by decide
  exact memReady_clean (by decide) (by decide) (hregion g hg) (hmap g hg) (hlock g hg) (hcached g hg) (hholder g hg)

theorem feederServed_starts : ((passStart 0 false false).run feederServed).granted = [] := by decide +kernel

theorem densePass_plain : plainInt8 densePass := by unfold plainInt8; decide

theorem not_matrixPassResults : ¬ Claims.MatrixPassResults := by
  intro h
  have hpow : feederServed.power ≠ .off := by decide
  obtain ⟨-, -, -, hrest⟩ := post_of_yields (h 0 densePass (tileOf feederServed 0 densePass) feederServed hpow (by decide) rfl rfl rfl
    densePass_plain rfl (by decide) (by decide) (by decide) (.inr ⟨rfl, feederServed_tile⟩) (by simp [densePass])) rfl hpow
  have hgranted := hrest.same_granted (by simp)
  rw [feederServed_starts] at hgranted
  exact absurd hgranted (by decide)

/-- Refutes O18: a pass that fetches its tile at PASS_START also takes its feeder from the windows that served it. -/
theorem not_matrixPasses : ¬ Obligations.MatrixPasses := fun ⟨hresults, _⟩ => not_matrixPassResults hresults

end Sys2Proof.Proofs

/-! Two statements on the queue engines leave out what a step of theirs also does: a returned credit that halts a channel tells of its event
(R66, R437), and a request that a memory window has served uses the window up (R225). -/

namespace Sys2Proof.Proofs

-- One evaluation after another: side by side each keeps a thread and its stack while it waits for the kernel.
set_option Elab.async false

open Sys2Proof.Machine Sys2Proof.Claims

/-- A credit is on its way back, and the first cell's channel event goes to the management port. -/
def creditUnderWay : State :=
  (putBit (R.EVC_ROUTE_mgmt 1) true).run ((Upd.creditQ [⟨0, 0, 0, 0, 0, 0, some 0, ST_OK⟩]).run State.reset)

theorem creditUnderWay_tells : ((creditReturn true).run creditUnderWay).mgmtQ ≠ [] := by decide +kernel

/-- Refutes O20: a credit that fails parity halts its channel, and the event of the halt is a message of the management port. -/
theorem not_routeCredits : ¬ Obligations.RouteCredits := by
  intro h
  have hpow : creditUnderWay.power ≠ .off := by decide
  obtain ⟨-, -, hcredit⟩ := h 0 creditUnderWay hpow
  obtain ⟨-, -, hparity⟩ := hcredit _ [] 0 rfl rfl
  obtain ⟨-, -, -, -, hrest⟩ := post_of_yields (hparity (by decide) (by decide)) rfl hpow
  have hmsgs := hrest.same_mgmtQ (by simp)
  exact creditUnderWay_tells (hmsgs.trans (by decide))

/-- A FILL of the first eight bytes of the vaults. -/
def smallFill : QeDesc := ⟨1, 2, 0, 0, 0, 0, 0, 0, 0, 8, 0, 0, 0, 0, none, 0, false, 0, none⟩

/-- Channel 0 of cell 0 holds the FILL, and a memory window of bank unit 0 has served the channel. -/
def fillServed : State := (Upd.granted 0 [.engine 0 0]).run ((Upd.qeQ 0 [smallFill]).run State.reset)

theorem fillServed_starts : channelStarts fillServed 0 0 2 smallFill := by unfold channelStarts; decide

theorem fillServed_ready : memReady fillServed (.engine 0 0) smallFill.dst smallFill.length :=
  memReady_clean (v := 0) (by decide) (by decide) (by decide) (by decide) (by decide) (by decide) (by decide)

theorem fillServed_ends : ((qeStart (0 : Fin 128) (0 : Fin 8) 2 fun d => qeFillLoop 0 0 (d.length - d.pos) d).run fillServed).granted = [] := by decide +kernel

/-- Refutes O21: a FILL that a memory window has served uses the window up. -/
theorem not_queueEngines : ¬ Obligations.QueueEngines := by
  intro ⟨hmoves, _⟩
  have hpow : fillServed.power ≠ .off := by decide
  obtain ⟨-, hfill, -⟩ := hmoves 0 0 smallFill fillServed
  obtain ⟨-, -, -, hrest⟩ := post_of_yields (hfill fillServed_starts fillServed_ready) rfl hpow
  have hgranted := hrest.same_granted (by simp [channelParts])
  rw [fillServed_ends] at hgranted
  exact absurd hgranted (by decide)

end Sys2Proof.Proofs

/-! A bank unit's LDQ and COPY end by using up the windows that served the unit (R225), which the statements on its buffers and on its
block moves leave out. -/

namespace Sys2Proof.Proofs

-- One evaluation after another: side by side each keeps a thread and its stack while it waits for the kernel.
set_option Elab.async false

open Sys2Proof.Machine Sys2Proof.Claims

/-- A unit at a legal instruction fetched as stored executes it. -/
theorem buStep_at {s : State} {u op : Nat} {w : Word} (h : unitAt s u w op) (k : BuInstr → Eff) :
    (buStep u op (0 : Fin 3) k).run s = (k (buFields w)).run s := by
  obtain ⟨-, hrun, ⟨x, hx, hsvc⟩, hw, hlegal, hop⟩ := h
  have hword : s.reg (R.BU_PROG (buC u) (buP u) (s.buPc u)) = w := hw
  simp only [buStep, Eff.run_look, hx]
  simp only [hsvc, hrun, hword, hlegal, hop, beq_self_eq_true, Bool.true_or, Bool.not_true, Bool.or_self, Bool.false_eq_true, if_false,
    Fin.val_zero, OfNat.zero_ne_ofNat, ne_eq, not_true_eq_false, Eff.run_seq, Eff.run_when, Nat.reduceBEq]

/-- The state in which an instruction that needs the unit's banks uses them: its activations are counted (R222). -/
def unitActs (u : Nat) (s : State) : State :=
  (addSat (R.BU_ACTS_count (buC u) (buP u)) ((Config.freeWord s.freeCtr).toNat % 2 ^ 20)).run ((Upd.freeCtr (s.freeCtr + 1)).run s)

theorem buActive_owns {s : State} {u : Nat} (h : unitOwns s u) (k : Eff) : (buActive u k).run s = k.run (unitActs u s) := by
  obtain ⟨hmode, hslot⟩ := h
  simp only [buActive, Eff.run_look, hmode, hslot, bne_self_eq_false, Bool.and_false, Bool.false_eq_true, if_false, Eff.run_all_cons,
    Eff.run_all_nil, withFree, Eff.run_seq, Eff.run_upd, unitActs]

/-- No field but the count of activations is touched. -/
theorem get_unitActs {f : Fld} {u : Nat} (h : apart (R.BU_ACTS_count (buC u) (buP u)) f) (hf : f.lo + f.w ≤ 64) (s : State) :
    (unitActs u s).get f = s.get f :=
  (get_addSat_apart h hf _ _).trans (get_upd (by simp [Upd.part]) f s)

theorem unitActs_changes (u : Nat) (s : State) : changesOnly [.freeCtr, .regs] s (unitActs u s) :=
  (Eff.in_seq (ps := [.freeCtr, .regs]) (p := .upd (.freeCtr (s.freeCtr + 1))) (Eff.in_upd (by simp [Upd.part]))
    (addSat_in (R.BU_ACTS_count (buC u) (buP u)) ((Config.freeWord s.freeCtr).toNat % 2 ^ 20) (by simp))).changes s

theorem unitActs_bu (u : Nat) (s : State) : (unitActs u s).bu u = s.bu u :=
  get_unitActs (.inl (by simp only [R.BU_ACTS_count, R.BU_ACTS, R.BU_STATUS_state, R.BU_STATUS, rk]; omega)) (Nat.le_of_ble_eq_true rfl) s

theorem unitActs_pc (u : Nat) (s : State) : (unitActs u s).buPc u = s.buPc u :=
  get_unitActs (.inl (by simp only [R.BU_ACTS_count, R.BU_ACTS, R.BU_STATUS_pc, R.BU_STATUS, rk]; omega)) (Nat.le_of_ble_eq_true rfl) s

/-- A unit before its last instruction word goes to the next. -/
theorem buNext_below {s : State} {u : Nat} (h : s.buPc u ≠ 511) : (buNext u).run s = (putBuPc u (s.buPc u + 1)).run s := by
  simp only [buNext, Eff.run_look, if_neg h]

theorem putBuPc_in (u pc : Nat) : (putBuPc u pc).In [.regs] :=
  Eff.in_all_cons (put_in _ _ (by simp)) (Eff.in_all_cons (put_in _ _ (by simp)) Eff.in_all_nil)

/-- A read of sound banks in one granule that no diagnostic lock covers goes on with the bytes, and is counted. -/
theorem buRead_local {s : State} {u : Fin 1024} {l n : Nat} (hn : n ≠ 0) (hpart : buParts u l n = [(buAddr u l, n)])
    (hlock : s.diagLocked (buAddr u l) = false) (hsound : s.dramSound (buAddr u l) n) (k : Resp → Eff) :
    (buRead u 0 l n k).run s =
      (k ⟨ST_OK, s.bytes (buAddr u l) n, List.replicate n false⟩).run ((addSat (R.BU_RD_BYTES_count (buC u) (buP u)) n).run s) := by
  simp only [buRead, hpart, buReadLocal, Eff.run_look, hlock, Bool.false_eq_true, if_false]
  rw [dramRead_good s _ n hn hsound]
  simp only [Resp.join, worst, List.nil_append, if_true, true_or, Eff.run_all_cons, Eff.run_all_nil, buTaint, bne_self_eq_false,
    Eff.run_when_false]

/-- The running command of unit 0: a program from entry 0. -/
def unitProgram : BuCmd := ⟨1, 0, 0, 0, 0, 0, [], none, 0, false, true, false, false, none, none⟩

/-- Unit 0 is at the word `w` of its program, in PROCESSOR mode with a slot, and a memory window of unit 8 has served it. -/
def unitServed (w : Word) : State :=
  (Eff.all [.upd (.buQ 0 [unitProgram]), put (R.BU_STATUS_state 0 0) BU_RUN, putBit (R.BU_STATUS_mode 0 0) true, .upd (.buSlot 0 1),
    putReg (R.BU_PROG 0 0 0) w, .upd (.granted 8 [.bankUnit 0])]).run State.reset

/-- The last steps of an instruction: the unit's windows are used up, and it goes on. -/
theorem windowsUsed {s : State} (hgranted : s.granted = [(8, [.bankUnit 0])]) (hpc : s.buPc 0 = 0) :
    ((buNext 0).run ((ungate (.bankUnit (0 : Fin 1024))).run s)).granted = [] := by
  have hused : (ungate (.bankUnit (0 : Fin 1024))).run s = (Upd.granted 8 []).run s := by
    rw [ungate, Eff.run_look, hgranted]
    rfl
  have hpc' : ((Upd.granted 8 []).run s).buPc 0 = 0 := (get_upd (by simp [Upd.part]) _ s).trans hpc
  rw [hused, buNext_below (by rw [hpc']; decide), ((putBuPc_in 0 _).changes _).same_granted (by simp)]
  change Map.set dfltGranted 8 [] s.granted = []
  rw [hgranted]
  rfl

/-- Limits of which none is broken let the instruction go on. -/
theorem buLimits_met {u l : Nat} {limits : List (Bool × Nat)} (h : limits.all (fun e => !e.1) = true) (k : Eff) : buLimits u l limits k = k := by
  induction limits with
  | nil => rfl
  | cons e rest ih =>
    obtain ⟨b, st⟩ := e
    simp only [List.all_cons, Bool.and_eq_true, Bool.not_eq_true'] at h
    obtain ⟨rfl, hrest⟩ := h
    exact ih hrest

/-- An access of kind 0 waits for no other unit. -/
theorem buGates_none {s : State} {u : Fin 1024} (hrun : s.bu u ≠ BU_WAIT) (k : Eff) : (buGates u [] k).run s = k.run s := by
  simp only [buGates, Eff.run_look, State.gatesOpen, List.all_nil, if_true, Eff.run_all_cons, Eff.run_all_nil, beq_eq_false_iff_ne.2 hrun,
    Eff.run_when_false]

theorem putBuf_in (u k : Nat) (ws : List BufWord) : (putBuf u k ws).In [.buBuf] := Eff.in_each fun _ => Eff.in_upd (by simp [Upd.part])

/-- A transfer of one granule from the unit's own sound banks into a buffer. -/
theorem buLoad_local {s : State} {u : Fin 1024} {i : BuInstr} {a n : Nat} {limits : List (Bool × Nat)} (howns : unitOwns s u)
    (hrun : s.bu u ≠ BU_WAIT) (hsub : i.sub = 0) (hy : i.y = false) (ha : (s.bug u i.a).toNat = a)
    (hlimits : (limits ++ bufLimits 0 a n).all (fun e => !e.1) = true) (hn : n ≠ 0) (hpart : buParts u a n = [(buAddr u a, n)])
    (hlock : (unitActs u s).diagLocked (buAddr u a) = false) (hsound : (unitActs u s).dramSound (buAddr u a) n) (k : Resp → Eff) :
    (buLoad u i n limits k).run s =
      (Eff.all [k ⟨ST_OK, (unitActs u s).bytes (buAddr u a) n, List.replicate n false⟩, ungate (.bankUnit u), buNext u]).run
        ((addSat (R.BU_RD_BYTES_count (buC u) (buP u)) n).run (unitActs u s)) := by
  simp only [buLoad, Eff.run_look, ha, hsub]
  rw [buLimits_met hlimits, buActiveIf, if_pos (beq_self_eq_true 0), buActive_owns howns, if_neg (by decide), buGates_none (by rwa [unitActs_bu]),
    buRead_local hn hpart hlock hsound]
  simp only [Eff.run_all_cons, Eff.run_all_nil, hy, Bool.false_or, Nat.reduceBEq, Eff.run_when_false]

theorem windowsUsed_after {s : State} {p : Eff} (hp : p.In [.buBuf]) (hgranted : s.granted = [(8, [.bankUnit 0])]) (hpc : s.buPc 0 = 0) :
    ((buNext 0).run ((ungate (.bankUnit (0 : Fin 1024))).run (p.run s))).granted = [] := by
  have hkept := hp.changes s
  exact windowsUsed ((hkept.same_granted (by simp)).trans hgranted)
    ((congrFun (get_of_regs (hkept.same_regs (by simp))).1 _).trans hpc)

/-- LDQ of one FP32 element from local offset 0. -/
def loadOne : Word := 0x0000_0405_0000_0010

theorem loadOne_at : unitAt (unitServed loadOne) (0 : Fin 1024) loadOne 0x10 := by unfold unitAt; decide +kernel

theorem loadOne_owns : unitOwns (unitServed loadOne) (0 : Fin 1024) := by unfold unitOwns; decide +kernel

/-- The words of the first granule of unit 0 are sound. -/
theorem unitServed_ready {w : Word} (hcheck : (unitServed w).check = []) (hlock : ∀ j < 4, (unitServed w).diagLocked j = false) :
    localReady (unitServed w) (0 : Fin 1024) 0 4 := by
  refine ⟨by decide, fun j hj => ?_⟩
  have haddr : buAddr (0 : Fin 1024) (0 + j) = j := by
    rw [Fin.val_zero, Nat.zero_add, buAddr]
    omega
  rw [haddr]
  refine ⟨hlock j hj, decode_clean hcheck _, ?_⟩
  rw [show j / 8 * 8 = 0 by omega]
  rfl

theorem loadOne_ready : localReady (unitServed loadOne) (0 : Fin 1024) 0 4 := unitServed_ready (by decide +kernel) (by decide +kernel)

theorem loadOne_ends : ((buStep (0 : Fin 1024) 0x10 (0 : Fin 3) fun i => buLdq 0 i).run (unitServed loadOne)).granted = [] := by
  have hrun : (unitServed loadOne).bu (0 : Fin 1024) ≠ BU_WAIT := by decide +kernel
  have hpc := (unitActs_pc (0 : Fin 1024) (unitServed loadOne)).trans (c := 0) (by decide +kernel)
  have hsame := unitActs_changes (0 : Fin 1024) (unitServed loadOne)
  have hlock : (unitActs (0 : Fin 1024) (unitServed loadOne)).diagLocked 0 = false := by
    have hbit : (unitActs (0 : Fin 1024) (unitServed loadOne)).bit (R.VLT_DIAG_BASE_lock 0) = false := by
      rw [State.bit, get_unitActs (.inl (by decide)) (by decide)]
      decide +kernel
    exact Bool.and_eq_false_iff.2 (.inl (Bool.and_eq_false_iff.2 (.inl hbit)))
  have hsound : (unitActs (0 : Fin 1024) (unitServed loadOne)).dramSound 0 4 := fun w hw => by
    obtain rfl : w = 0 := by simpa [wordsOf] using hw
    exact ⟨decode_clean ((hsame.same_check (by simp)).trans (by decide +kernel)) 0, rfl⟩
  have hsize : buSize (buFields loadOne).fmt (buFields loadOne).n = 4 := by decide
  rw [buStep_at loadOne_at, buLdq, hsize, buLoad_local (a := 0) loadOne_owns hrun (by decide) (by decide) (by decide +kernel) (by decide)
    (by decide) (by decide) hlock hsound]
  simp only [Eff.run_all_cons, Eff.run_all_nil]
  refine windowsUsed_after (Eff.in_look fun _ => putBuf_in _ _ _) ?_ ?_
  · rw [((addSat_in (ps := [.regs]) _ _ (by simp)).changes _).same_granted (by simp), hsame.same_granted (by simp)]
    decide +kernel
  · exact (get_addSat_apart (.inl (by decide)) (by decide) _ _).trans hpc

/-- Refutes O25: an LDQ of a unit that a memory window has served uses the window up. -/
theorem not_unitBuffers : ¬ Obligations.UnitBuffers := by
  intro h
  have hpow : (unitServed loadOne).power ≠ .off := loadOne_at.1
  obtain ⟨hldq, -⟩ := h 0 loadOne (unitServed loadOne) (by decide +kernel) loadOne_owns
  obtain ⟨-, -, hrest⟩ := post_of_yields
    (hldq loadOne_at (by decide) (by decide) (by decide) (by decide) (by decide) (by decide +kernel) loadOne_ready) rfl hpow
  have hgranted := hrest.same_granted (by simp)
  rw [loadOne_ends] at hgranted
  exact absurd hgranted (by decide +kernel)

/-- COPY of no bytes. -/
def copyNone : Word := 0x0000_0000_0000_0024

theorem copyNone_at : unitAt (unitServed copyNone) (0 : Fin 1024) copyNone 0x24 := by unfold unitAt; decide +kernel

theorem copyNone_owns : unitOwns (unitServed copyNone) (0 : Fin 1024) := by unfold unitOwns; decide +kernel

/-- Unit 0 in its COPY, as the model runs it. -/
def copyNoneRun : Eff := buStep (0 : Fin 1024) 0x24 (0 : Fin 3) fun i => .look fun s =>
  buCopy 0 i.sub (s.bug (0 : Fin 1024) i.a).toNat (s.bug (0 : Fin 1024) i.b).toNat (s.buCnt (0 : Fin 1024) i) 64 i.y (buNext (0 : Fin 1024))

theorem copyNone_ends : (copyNoneRun.run (unitServed copyNone)).granted = [] := by
  have hrun : (unitActs (0 : Fin 1024) (unitServed copyNone)).bu (0 : Fin 1024) ≠ BU_WAIT := by
    rw [unitActs_bu]
    decide +kernel
  have hpc := (unitActs_pc (0 : Fin 1024) (unitServed copyNone)).trans (c := 0) (by decide +kernel)
  have hgranted := (unitActs_changes (0 : Fin 1024) (unitServed copyNone)).same_granted (by simp)
  have hzero : (unitServed copyNone).bug (0 : Fin 1024) 0 = 0 := if_pos rfl
  have hfields : buFields copyNone = ⟨0x24, 0, 0, 0, 0, 0, 0, 0, 0, 0, false, 0⟩ := by decide
  rw [copyNoneRun, buStep_at copyNone_at, Eff.run_look, hfields]
  rw [State.buCnt, hzero]
  change ((buCopy (0 : Fin 1024) 0 0 0 0 64 false (buNext (0 : Fin 1024))).run _).granted = []
  rw [buCopy, buLimits_met (by decide), buActive_owns copyNone_owns, if_neg (by decide), buGates_none hrun, Nat.zero_div, buCopyLoop,
    Eff.run_seq]
  exact windowsUsed (hgranted.trans (by decide +kernel)) hpc

/-- Refutes O26: a COPY of a unit that a memory window has served uses the window up. -/
theorem not_unitDataMovement : ¬ Obligations.UnitDataMovement := by
  intro ⟨_, h⟩
  have hpow : (unitServed copyNone).power ≠ .off := copyNone_at.1
  have hnone : localReady (unitServed copyNone) (0 : Fin 1024) 0 0 := ⟨by decide, fun j hj => absurd hj (Nat.not_lt_zero j)⟩
  obtain ⟨hprogram, -⟩ := h 0 copyNone (unitServed copyNone) hpow (by decide +kernel)
  obtain ⟨hcopy, -⟩ := hprogram (by decide +kernel) copyNone_owns (by decide)
  obtain ⟨-, -, hrest⟩ := post_of_yields (p := copyNoneRun)
    (hcopy copyNone_at (by decide) ⟨by decide, by decide, hnone⟩ ⟨by decide, by decide, hnone⟩ (.inl (by decide))) rfl hpow
  have hgranted := hrest.same_granted (by simp [unitParts])
  rw [copyNone_ends] at hgranted
  exact absurd hgranted (by decide +kernel)

end Sys2Proof.Proofs

/-! Every operation of a KVT uses up the windows that served the KVT (R225), which the statement on walks leaves out. -/

namespace Sys2Proof.Proofs

-- One evaluation after another: side by side each keeps a thread and its stack while it waits for the kernel.
set_option Elab.async false

open Sys2Proof.Machine Sys2Proof.Claims

/-- A WALK of sequence 0 from token 0 to token 1 in layer-half 0, with room for one record at offset 0 of cell SRAM. -/
def walkOne : KvOp :=
  ⟨1, none, none, (9, 0xFF), [1, 0, 0, 0, 0, 0, 0, 1] ++ toLE 4 0 ++ toLE 4 1 ++ toLE 4 0 ++ toLE 4 1 ++ toLE 8 0,
    0xFFFF, 0, [], false, [], [], ST_OK, 0, 0⟩

/-- The entry of sequence 0: one layer-half with one page, whose table lies at address 64, and one token. -/
def seqEntry : List Byte := toLE 8 64 ++ [1, 0, 1, 1] ++ toLE 4 0 ++ toLE 8 0 ++ toLE 4 1 ++ toLE 4 0

/-- The KVT of cell 0 holds the WALK, and a memory window of bank unit 8 has served it. -/
def walkServed : State :=
  (Eff.all [pokeBytes 0 seqEntry, put (ownFld 0 0) (9 + 16 * 0xFF), putBit (R.KVT_CTRL_enable 0) true, putBit (R.KVT_LAYOUT_valid 0 0) true, .upd (.kvtQ 0 [walkOne]),
    .upd (.granted 8 [.kvt 0])]).run State.reset

theorem walkServed_reads {a n : Nat} (hn : n ≠ 0) (hregion : regionOf a = .vault 0) (hmap : walkServed.mapStatus a n = ST_OK)
    (hlock : walkServed.touchesLock a n = false) (hcached : walkServed.cached a = false) (hholder : walkServed.holder a n = none) :
    memReady walkServed (.kvt 0) a n :=
  memReady_clean (by decide +kernel) hn hregion hmap hlock hcached hholder

theorem walkServed_entry : Claims.kvEntry walkServed (0 : Fin 128) walkOne.seq = ⟨0, 64, 1, 1, 1, 0, 1⟩ := by
  have haddr : walkServed.kvSeqAddr (0 : Fin 128) walkOne.seq = 0 := by decide +kernel
  have hbytes : walkServed.bytes 0 32 = seqEntry := by decide +kernel
  rw [Claims.kvEntry, haddr, hbytes]
  rfl

theorem walkServed_starts : kvStarts walkServed 0 1 walkOne 0 0 := by
  unfold kvStarts
  dsimp only
  rw [show walkServed.kvSeqAddr (0 : Fin 128) walkOne.seq = 0 by decide +kernel, walkServed_entry]
  refine ⟨by decide +kernel, by decide +kernel, by decide +kernel, by decide +kernel, by decide +kernel, by decide +kernel,
    by decide +kernel, by decide +kernel, by decide +kernel, by decide +kernel, by decide +kernel, by decide +kernel, by decide +kernel,
    by decide +kernel, by decide +kernel, by decide +kernel, by decide +kernel, by decide +kernel, ?_, ?_, by decide +kernel⟩
  · exact walkServed_reads (by decide) (by decide) (by decide +kernel) (by decide +kernel) (by decide +kernel) (by decide +kernel)
  · exact walkServed_reads (by decide) (by decide) (by decide +kernel) (by decide +kernel) (by decide +kernel) (by decide +kernel)

theorem walkServed_sram : sramReady walkServed (0 : Fin 128) walkOne.buf 16 walkOne.cls := by
  unfold sramReady
  decide +kernel

theorem walkServed_ends : ((kvRun (0 : Fin 128) (0 : Fin 36) 1 (kvWalkItem 0)).run walkServed).granted = [] := by decide +kernel


/-- Refutes O29: a WALK of a KVT that a memory window has served uses the window up. -/
theorem not_kvtOperations : ¬ Obligations.KvtOperations := by
  intro ⟨h, _⟩
  have hpow : walkServed.power ≠ .off := by decide +kernel
  obtain ⟨hwalk, -⟩ := h 0 walkOne 0 0 walkServed
  obtain ⟨-, -, hrest⟩ := post_of_yields (hwalk walkServed_starts ⟨by decide, by decide, walkServed_sram⟩) rfl hpow
  have hgranted := hrest.same_granted (by simp [kvParts])
  rw [walkServed_ends] at hgranted
  exact absurd hgranted (by decide +kernel)

end Sys2Proof.Proofs

/-! The owner entries of the banks of a cell (R169–R172): who may write them, and what a write leaves. -/

namespace Sys2Proof.Proofs
open Sys2Proof.Machine Sys2Proof.Claims


theorem whoMayOwn : Claims.WhoMayOwn := by
  intro c b s entry cls
  have hgroup : ∀ t, s.get (R.SEQ_THR_CFG_group c t) < 4 := fun t => get_lt s (R.SEQ_THR_CFG_group c t)
  have hother : ∀ {x : Nat}, x < 128 → x ≠ 0xFF := by omega
  refine ⟨fun k => Bool.or_true _, fun th => ?_, fun p => ?_, fun c' th hc => ?_⟩
  · have hg := hgroup th
    simp only [State.mayOwn, State.accClass, ownAdmits, if_true, bne_iff_ne, beq_iff_eq, Bool.or_eq_true, Bool.and_eq_true,
      decide_eq_true_eq, beq_self_eq_true, Bool.true_and]
    rw [if_neg (by omega), if_neg (by omega)]
    constructor
    · rintro (⟨⟨h, -⟩, -⟩ | h)
      · exact .inr (.inr h)
      · rcases h with h | h
        · exact .inl h
        · exact .inr (.inl h)
    · rintro (h | h | h)
      · exact .inr (.inl h)
      · exact .inr (.inr h)
      · exact .inl ⟨⟨h, by omega⟩, rfl⟩
  · simp only [State.mayOwn, State.accClass, ownAdmits, Bool.or_false, Nat.reduceBEq, Nat.reduceBNe, Bool.and_true, if_true,
      Bool.false_eq_true, if_false, Bool.and_eq_true, Bool.or_eq_true, beq_iff_eq]
    exact Iff.rfl
  · have hne : c'.val ≠ c.val := fun h => hc (Fin.ext h)
    simp only [State.mayOwn, State.accClass, if_neg hne, ownAdmits, beq_false_of_ne hne, Bool.false_and, Bool.or_false, Nat.reduceBEq,
      Nat.reduceBNe, Bool.and_true, if_true, Bool.and_eq_true, Bool.or_eq_true, beq_iff_eq, bne_iff_ne, ne_eq, hother c'.isLt,
      not_false_eq_true, and_true]
    exact Iff.rfl

section
variable {who : Agent} {c b : Nat}

/-- Who may write an entry depends on the entry and on the threads' groups. -/
theorem mayOwn_congr {s t : State} (hentry : t.get (ownFld c b) = s.get (ownFld c b))
    (hgroup : ∀ (c' : Fin 128) (k : Fin 16), t.get (R.SEQ_THR_CFG_group c' k) = s.get (R.SEQ_THR_CFG_group c' k)) : t.mayOwn who c b = s.mayOwn who c b := by
  have hclass : t.accClass who c = s.accClass who c := by
    cases who
    case thread c' k =>
      simp only [State.accClass]
      split
      · next h => rw [← h, hgroup]
      · rfl
    all_goals rfl
  simp only [State.mayOwn, hentry, hclass]

theorem ownWrite_within {ps : List Part} (v : Nat) :
    (ownWrite who c b v).Only (Upd.within ps (oneOf [R.CELL_BANK_OWN c (b / 4), R.CELL_OWN_FAULT c])) := by
  refine (Eff.only_look _).2 fun s => ?_
  split
  · refine ⟨(within_addSat _ _).2 ?_, (within_put _ _).2 ?_, (within_put _ _).2 ?_⟩ <;> exact List.mem_cons_of_mem _ List.mem_cons_self
  · split
    · trivial
    · exact (within_put _ _).2 List.mem_cons_self

/-- An entry keeps all but what is written to it. -/
theorem ownWrite_same (hb : b < 24) (v : Nat) (s : State) : ((ownWrite who c b v).run s).get (ownFld c b) =
    if s.mayOwn who c b = true ∧ v % 16 ≤ 10 then v % 2 ^ 12 + 2 ^ 15 else s.get (ownFld c b) := by
  have hw : (ownFld c b).lo + (ownFld c b).w ≤ 64 := by simp only [ownFld]; omega
  rw [ownWrite, Eff.run_look]
  cases hmay : s.mayOwn who c b
  · have hfar : (ownFld c b).key ≠ R.CELL_OWN_FAULT c := by simp only [R.CELL_OWN_FAULT, R.CELL_BANK_OWN, ownFld, rk]; omega
    simp only [Bool.not_false, if_true, Bool.false_eq_true, false_and, if_false, ownFault, Eff.run_all_cons, Eff.run_all_nil]
    rw [get_put_apart (.inl hfar) hw, get_put_apart (.inl hfar) hw, get_addSat_apart (.inl hfar) hw]
  · by_cases hv : 10 < v % 16
    · rw [if_neg (by decide), if_pos hv, if_neg (by omega), Eff.run_skip]
    · rw [if_neg (by decide), if_neg hv, if_pos ⟨rfl, by omega⟩, put_same_of_lt hw]
      simp only [ownFld]
      omega

theorem ownWrite_entry {b' : Nat} (hb' : b' < 24) (hne : b' ≠ b) (v : Nat) (s : State) :
    ((ownWrite who c b v).run s).get (ownFld c b') = s.get (ownFld c b') := by
  have hw : (ownFld c b').lo + (ownFld c b').w ≤ 64 := by simp only [ownFld]; omega
  have hfar : (ownFld c b').key ≠ R.CELL_OWN_FAULT c := by simp only [R.CELL_OWN_FAULT, R.CELL_BANK_OWN, ownFld, rk]; omega
  have hapart : apart (ownFld c b) (ownFld c b') := by
    simp only [apart, ownFld, R.CELL_BANK_OWN, rk]
    omega
  rw [ownWrite, Eff.run_look]
  split
  · simp only [ownFault, Eff.run_all_cons, Eff.run_all_nil]
    rw [get_put_apart (.inl hfar) hw, get_put_apart (.inl hfar) hw, get_addSat_apart (.inl hfar) hw]
  · split
    · rfl
    · exact get_put_apart hapart hw _ s

theorem ownWrite_mayOwn {b' : Nat} (hb : b < 24) (hb' : b' < 24) (hne : b' ≠ b) (v : Nat) (s : State) :
    ((ownWrite who c b v).run s).mayOwn who c b' = s.mayOwn who c b' := by
  refine mayOwn_congr (ownWrite_entry hb' hne v s) fun c' k => within_get (ownWrite_within (ps := []) v) s ?_
  simp only [oneOf, List.mem_cons, List.not_mem_nil, or_false, R.SEQ_THR_CFG_group, R.SEQ_THR_CFG, R.CELL_BANK_OWN,
    R.CELL_OWN_FAULT, rk]
  omega

/-- What a write of some entries of a register of entries leaves in each of them. -/
theorem each_ownWrite {i : Nat} (hi : i < 6) (x : Nat → Nat) {js : List Nat} (hnodup : js.Nodup) (hjs : ∀ j ∈ js, j < 4) {j : Nat} (hj : j < 4)
    (s : State) : ((Eff.each js fun j => ownWrite who c (4 * i + j) (x j)).run s).get (ownFld c (4 * i + j)) =
      if j ∈ js ∧ s.mayOwn who c (4 * i + j) = true ∧ x j % 16 ≤ 10 then x j % 2 ^ 12 + 2 ^ 15 else s.get (ownFld c (4 * i + j)) := by
  induction js generalizing s with
  | nil => simp only [Eff.run_each_nil, List.not_mem_nil, false_and, if_false]
  | cons k rest ih =>
    obtain ⟨hk, hrest⟩ := List.nodup_cons.1 hnodup
    have hk4 : k < 4 := hjs k List.mem_cons_self
    rw [Eff.run_each_cons, ih hrest fun l hl => hjs l (List.mem_cons_of_mem _ hl)]
    by_cases hjk : j = k
    · subst hjk
      rw [if_neg fun h => hk h.1, ownWrite_same (by omega)]
      simp only [List.mem_cons, true_or, true_and]
    · rw [ownWrite_mayOwn (by omega) (by omega) (by omega), ownWrite_entry (by omega) (by omega)]
      simp only [List.mem_cons, hjk, false_or]

end

/-- A field in two pieces. -/
theorem get_split (k lo a b : Nat) (s : State) : s.get ⟨k, lo, a + b⟩ = s.get ⟨k, lo, a⟩ + 2 ^ a * s.get ⟨k, lo + a, b⟩ := by
  simp only [State.get, Fld.read, Nat.pow_add, Nat.mod_mul, Nat.div_div_eq_div_mul]

/-- The switch clears the pending bit of an entry alone. -/
theorem ownSwitch_same {b : Nat} (c : Nat) (s : State) :
    ((putBit (ownPending c b) false).run s).get (ownFld c b) = s.get (ownFld c b) % 2 ^ 15 := by
  have hsplit := get_split (R.CELL_BANK_OWN c (b / 4)) (16 * (b % 4)) 15 1
  have hlow : s.get ⟨R.CELL_BANK_OWN c (b / 4), 16 * (b % 4), 15⟩ < 2 ^ 15 := get_lt s _
  have hpending : ((putBit (ownPending c b) false).run s).get (ownPending c b) = 0 :=
    (put_same _ _ s (by simp only [ownPending, ownFld]; omega)).trans rfl
  have hkept : ((putBit (ownPending c b) false).run s).get ⟨R.CELL_BANK_OWN c (b / 4), 16 * (b % 4), 15⟩ =
      s.get ⟨R.CELL_BANK_OWN c (b / 4), 16 * (b % 4), 15⟩ :=
    get_put_apart (.inr (.inr (Nat.le_refl _))) (by simp only; omega) _ s
  rw [show ownFld c b = ⟨R.CELL_BANK_OWN c (b / 4), 16 * (b % 4), 15 + 1⟩ from rfl, hsplit, hsplit, hkept]
  rw [show (⟨R.CELL_BANK_OWN c (b / 4), 16 * (b % 4) + 15, 1⟩ : Fld) = ownPending c b from rfl, hpending]
  omega

theorem ownSwitch_entry {b b' : Nat} (hne : b' ≠ b) (c : Nat) (s : State) :
    ((putBit (ownPending c b) false).run s).get (ownFld c b') = s.get (ownFld c b') := by
  refine get_put_apart ?_ (by simp only [ownFld]; omega) _ s
  simp only [apart, ownPending, ownFld, R.CELL_BANK_OWN, rk]
  omega

theorem ownWrite_accepted {who : Agent} {c b : Nat} {s : State} (h : s.mayOwn who c b = true) (v : Nat) :
    (ownWrite who c b v).run s = (Eff.when (decide (v % 16 ≤ 10)) (put (ownFld c b) (v % 2 ^ 12 + 2 ^ 15))).run s := by
  rw [ownWrite, Eff.run_look, h, if_neg (by decide)]
  by_cases hv : 10 < v % 16
  · rw [if_pos hv, decide_eq_false (by omega), Eff.run_when_false, Eff.run_skip]
  · rw [if_neg hv, decide_eq_true (by omega), Eff.run_when_true]

theorem ownWrite_refused {who : Agent} {c b : Nat} {s : State} (h : s.mayOwn who c b = false) (v : Nat) :
    (ownWrite who c b v).run s = (ownFault c b (s.accClass who c).1).run s := by
  rw [ownWrite, Eff.run_look, h, if_pos (by decide)]

/-- A refused access is counted with its bank and class. -/
theorem ownFault_gets {c b cls : Nat} (hb : b < 32) (hcls : cls < 16) (s : State) :
    let r := (ownFault c b cls).run s
    r.get (R.CELL_OWN_FAULT_count c) = min (s.get (R.CELL_OWN_FAULT_count c) + 1) (2 ^ 32 - 1) ∧
    r.get (R.CELL_OWN_FAULT_last_bank c) = b ∧ r.get (R.CELL_OWN_FAULT_last_class c) = cls := by
  dsimp only
  have hlt : b < 2 ^ (R.CELL_OWN_FAULT_last_bank c).w ∧ cls < 2 ^ (R.CELL_OWN_FAULT_last_class c).w := ⟨hb, hcls⟩
  simp only [ownFault, Eff.run_all_cons, Eff.run_all_nil]
  refine ⟨?_, ?_, ?_⟩
  all_goals simp (disch := (
    try simp only [apart, farKey, R.CELL_OWN_FAULT_count, R.CELL_OWN_FAULT_last_bank, R.CELL_OWN_FAULT_last_class,
      R.CELL_OWN_FAULT, rk]
    omega)) only [get_put_apart, get_addSat_apart, put_same,
    addSat_same, Nat.mod_eq_of_lt hlt.1, Nat.mod_eq_of_lt hlt.2]
  rfl

theorem ownFault_within {ps : List Part} (c b cls : Nat) : (ownFault c b cls).Only (Upd.within ps (oneOf [R.CELL_OWN_FAULT c])) :=
  ⟨(within_addSat _ _).2 List.mem_cons_self, (within_put _ _).2 List.mem_cons_self, (within_put _ _).2 List.mem_cons_self⟩

section
variable {c : Fin 128} {th : Fin 16} {s : State}

theorem own_accepted {bank : Nat} (v : Nat) (hbank : bank < 24) (h : s.mayOwn (.thread c th) c bank = true) :
    let r := (Eff.seq (ownWrite (.thread c th) c bank v) (nextPc c th)).run (issued s c th)
    r.get (ownFld c bank) = (if v % 16 ≤ 10 then v % 2 ^ 12 + 2 ^ 15 else s.get (ownFld c bank)) ∧ r.pc c th = (s.pc c th + 8) % 2 ^ 48 ∧
    keepsRegs [R.SEQ_THR_PC c th, R.CELL_BANK_OWN c (bank / 4)] s r ∧ restKept s r := by
  have hmay : (issued s c th).mayOwn (.thread c th) c bank = true := (mayOwn_congr (issued_get ..) fun _ _ => issued_get ..).trans h
  have hentry := ownWrite_same (who := .thread c th) (c := c) hbank v (issued s c th)
  have hwithin : (Eff.seq (Eff.when (decide (v % 16 ≤ 10)) (put (ownFld c bank) (v % 2 ^ 12 + 2 ^ 15))) (nextPc c th)).Only
      (Upd.within [] (oneOf [R.SEQ_THR_PC c th, R.CELL_BANK_OWN c (bank / 4)])) := by
    simp [nextPc, oneOf, ownFld, R.SEQ_THR_PC_pc]
  simp only [hmay, true_and, issued_get] at hentry
  dsimp only
  rw [Eff.run_seq, ownWrite_accepted hmay, ← Eff.run_seq]
  rw [ownWrite_accepted hmay] at hentry
  refine ⟨?_, pc_effect_nextPc ?_, issued_keepsRegs (within_keepsRegs hwithin _),
    issued_changesOnly (within_changes hwithin _) (by simp) (by simp)⟩
  · rw [Eff.run_seq, nextPc, get_addWrap_apart ?_ ?_, hentry]
    · simp only [apart, ownFld, R.SEQ_THR_PC_pc, R.SEQ_THR_PC, R.CELL_BANK_OWN, rk]
      omega
    · simp only [ownFld]
      omega
  · refine (within_get (ps := []) (K := oneOf [R.CELL_BANK_OWN c (bank / 4)]) (by simp [oneOf, ownFld]) _ ?_).trans (issued_pc ..)
    simp only [oneOf, List.mem_singleton, R.SEQ_THR_PC_pc, R.SEQ_THR_PC, R.CELL_BANK_OWN, rk]
    omega

theorem own_refused {bank : Nat} (v : Nat) (hbank : bank < 24) (h : s.mayOwn (.thread c th) c bank = false) :
    let r := (Eff.seq (ownWrite (.thread c th) c bank v) (nextPc c th)).run (issued s c th)
    r.get (R.CELL_OWN_FAULT_count c) = min (s.get (R.CELL_OWN_FAULT_count c) + 1) (2 ^ 32 - 1) ∧
    r.get (R.CELL_OWN_FAULT_last_bank c) = bank ∧ r.get (R.CELL_OWN_FAULT_last_class c) = 1 + s.get (R.SEQ_THR_CFG_group c th) ∧
    r.pc c th = (s.pc c th + 8) % 2 ^ 48 ∧ keepsRegs [R.SEQ_THR_PC c th, R.CELL_OWN_FAULT c] s r ∧ restKept s r := by
  have hmay : (issued s c th).mayOwn (.thread c th) c bank = false := (mayOwn_congr (issued_get ..) fun _ _ => issued_get ..).trans h
  have hclass : ((issued s c th).accClass (.thread c th) c).1 = 1 + s.get (R.SEQ_THR_CFG_group c th) := by
    simp only [State.accClass, if_true, issued_get]
  have hgroup : s.get (R.SEQ_THR_CFG_group c th) < 4 := get_lt s (R.SEQ_THR_CFG_group c th)
  obtain ⟨hcount, hlast, hcls⟩ := ownFault_gets (c := c) (b := bank) (cls := 1 + s.get (R.SEQ_THR_CFG_group c th)) (by omega) (by omega)
    (issued s c th)
  have hfault : (ownFault c bank (1 + s.get (R.SEQ_THR_CFG_group c th))).Only (Upd.within [] (oneOf [R.CELL_OWN_FAULT c])) :=
    ownFault_within _ _ _
  have hwithin : (Eff.seq (ownFault c bank (1 + s.get (R.SEQ_THR_CFG_group c th))) (nextPc c th)).Only
      (Upd.within [] (oneOf [R.SEQ_THR_PC c th, R.CELL_OWN_FAULT c])) :=
    ⟨hfault.mono fun _ => Upd.within_mono (by simp) (by simp [oneOf]), by simp [nextPc, oneOf, R.SEQ_THR_PC_pc]⟩
  dsimp only
  rw [Eff.run_seq, ownWrite_refused hmay, hclass, ← Eff.run_seq]
  refine ⟨?_, ?_, ?_, pc_effect_nextPc ?_, issued_keepsRegs (within_keepsRegs hwithin _),
    issued_changesOnly (within_changes hwithin _) (by simp) (by simp)⟩
  · rw [Eff.run_seq, nextPc]
    simp (disch := (
      try simp only [apart, farKey, R.SEQ_THR_PC_pc, R.CELL_OWN_FAULT_count, R.SEQ_THR_PC, R.CELL_OWN_FAULT, rk]
      omega)) only [get_addWrap_apart, hcount, issued_get]
  · rw [Eff.run_seq, nextPc]
    simp (disch := (
      try simp only [apart, farKey, R.SEQ_THR_PC_pc, R.CELL_OWN_FAULT_last_bank, R.SEQ_THR_PC, R.CELL_OWN_FAULT, rk]
      omega)) only [get_addWrap_apart, hlast]
  · rw [Eff.run_seq, nextPc]
    simp (disch := (
      try simp only [apart, farKey, R.SEQ_THR_PC_pc, R.CELL_OWN_FAULT_last_class, R.SEQ_THR_PC, R.CELL_OWN_FAULT, rk]
      omega)) only [get_addWrap_apart, hcls]
  · refine (within_get hfault _ ?_).trans (issued_pc ..)
    simp only [oneOf, List.mem_singleton, R.SEQ_THR_PC_pc, R.SEQ_THR_PC, R.CELL_OWN_FAULT, rk]
    omega

end

/-- The entries of a register that a write of both halves, of the low or of the high one reaches. -/
theorem half_entries (half : Fin 3) (j : Nat) (hj : j < 4) :
    j ∈ (if half.val = 0 then [0, 1, 2, 3] else if half.val = 1 then [0, 1] else [2, 3]) ↔
      half.val = 0 ∨ (half.val = 1 ↔ j < 2) := by
  revert half j
  decide

/-- What a write of a register of entries leaves: each entry that the write reaches is judged on its own. -/
theorem ownerWrite_written {who : Agent} {c : Fin 128} {i : Fin 6} {v : Word} {half : Fin 3} {s : State}
    (hw : writable who (c * 16) (0x10 + i * 8) s) : yields (.ownerWrite who c i v half) s fun t =>
      (∀ j : Fin 4, t.get (ownFld c (4 * i + j)) =
        (let x := v.toNat / 2 ^ (16 * j.val) % 2 ^ 16
         if (half.val = 0 ∨ (half.val = 1 ↔ j.val < 2)) ∧ s.mayOwn who c (4 * i + j) = true ∧ x % 16 ≤ 10
         then x % 2 ^ 12 + 2 ^ 15 else s.get (ownFld c (4 * i + j)))) ∧
      keepsRegs [R.CELL_BANK_OWN c i, R.CELL_OWN_FAULT c] s t ∧ changesOnly [.regs, .out] s t := by
  generalize hjs : (if half.val = 0 then [0, 1, 2, 3] else if half.val = 1 then [0, 1] else [2, 3]) = js
  have hreach : ∀ j < 4, (j ∈ js ↔ half.val = 0 ∨ (half.val = 1 ↔ j < 2)) := fun j hj => hjs ▸ half_entries half j hj
  have hlist : js.Nodup ∧ ∀ j ∈ js, j < 4 := by
    rw [← hjs]
    split
    · decide
    · split <;> decide
  have hwithin : (Eff.each js fun j => ownWrite who c (4 * i + j) (v.toNat / 2 ^ (16 * j) % 2 ^ 16)).Only
      (Upd.within [] (oneOf [R.CELL_BANK_OWN c i, R.CELL_OWN_FAULT c])) := by
    refine (Eff.only_each _ _).2 fun j hj => ?_
    have hreg : (4 * i.val + j) / 4 = i := by
      have := hlist.2 j hj
      omega
    have hone := ownWrite_within (ps := []) (who := who) (c := c) (b := 4 * i.val + j) (v.toNat / 2 ^ (16 * j) % 2 ^ 16)
    rwa [hreg] at hone
  obtain ⟨st, hact⟩ : ∃ st, actOwnerWrite who c i v.toNat half s =
      (st, Eff.each js fun j => ownWrite who c (4 * i + j) (v.toNat / 2 ^ (16 * j) % 2 ^ 16)) :=
    ⟨_, by rw [actOwnerWrite, guardAct_writable hw, ← hjs]⟩
  obtain ⟨r, hr, hrun⟩ := runAct_run (who := who) hact
  refine yields_done rfl hw.1 ?_
  rw [hrun]
  refine ⟨fun j => ?_, fun k hk => ?_, ?_⟩
  · rw [within_get hr _ (by simp [oneOf]), each_ownWrite i.isLt (fun j => v.toNat / 2 ^ (16 * j) % 2 ^ 16) hlist.1 hlist.2 j.isLt]
    simp only [hreach j j.isLt]
  · exact (within_regsAt hr _ (by simp [oneOf])).trans (within_regsAt hwithin s hk)
  · exact changesOnly_trans (changesOnly_mono (by simp) (within_changes hwithin s)) (within_changes hr _)

theorem bankOwnership : Claims.BankOwnership := by
  intro c s
  refine ⟨fun th d a b imm hbank => ⟨fun h => issues_effect rfl rfl rfl fun _ => ?accepted, fun h => issues_effect rfl rfl rfl fun _ => ?refused⟩,
    fun who i v half hw => ?write, fun b hpow => yields_done rfl hpow ⟨ownSwitch_same c s, fun b' hne => ?_, ?_⟩⟩
  case accepted =>
    simp only [Eff.run_look, issued_sreg]
    rw [if_neg (by omega)]
    have hv : (s.sreg c th a).toNat % 2 ^ 16 % 16 = (s.sreg c th a).toNat % 16 ∧
        (s.sreg c th a).toNat % 2 ^ 16 % 2 ^ 12 = (s.sreg c th a).toNat % 2 ^ 12 := by omega
    rw [hv.1, hv.2]
    exact own_accepted _ hbank h
  case refused =>
    simp only [Eff.run_look, issued_sreg]
    rw [if_neg (by omega)]
    exact own_refused _ hbank h
  case write =>
    exact ownerWrite_written hw
  · exact ownSwitch_entry (fun h => hne (Fin.ext h)) c s
  · have hwithin : (putBit (ownPending c b) false).Only (Upd.within [] (oneOf [R.CELL_BANK_OWN c (b / 4)])) := by
      simp [oneOf, ownPending, ownFld]
    exact ⟨within_keepsRegs hwithin s, within_changes hwithin s⟩

/-- Settles O13. -/
theorem bankOwners : Obligations.BankOwners := ⟨whoMayOwn, bankOwnership⟩

end Sys2Proof.Proofs

/-! Memory that an agent reaches at once: what its readiness depends on, and what a read and a write of it leave. -/

namespace Sys2Proof.Proofs
open Sys2Proof.Machine Sys2Proof.Claims

/-! What readiness depends on -/

/-- The registers on which an access of memory depends: the owner entries, the groups of threads, the diagnostic locks, the modes of the
pseudo-channels, the retired cells and modules, the feature word and the SHARED ranges. -/
def memKey (k : Nat) : Prop :=
  (k / 0x10000 % 16 = 0 ∧ 0x10 ≤ k % 0x10000 ∧ k % 0x10000 < 0x40) ∨ (k / 0x10000 % 16 = 1 ∧ k % 0x10000 < 0x400 ∧ k % 0x40 = 0) ∨
  (k / 0x10000 % 16 = 8 ∧ (k % 0x10000 = 0x300 ∨ k % 0x10000 = 0x308)) ∨
  (k / 0x10000 % 16 = 9 ∧ (k % 0x1000 = 8 ∨ k % 0x1000 = 0x10)) ∨ (0x8000000 ≤ k ∧ k < 0x8400000 ∧ k % 0x10000 = 8) ∨
  k = R.LIC_FEATURES ∨ k = R.SVC_RETIRED_CELL_LO ∨ k = R.SVC_RETIRED_CELL_HI ∨ (0x10200000 ≤ k ∧ k < 0x10210000) ∨
  k = R.GD_DIAG_BASE ∨ k = R.GD_DIAG_LIMIT

theorem memKey_own (c : Nat) {i : Nat} (hi : i < 6) : memKey (R.CELL_BANK_OWN c i) := by
  refine .inl ⟨?_, ?_, ?_⟩ <;>
  · simp only [R.CELL_BANK_OWN, rk]
    omega

theorem memKey_group (c : Nat) {t : Nat} (ht : t < 16) : memKey (R.SEQ_THR_CFG c t) := by
  refine .inr (.inl ⟨?_, ?_, ?_⟩) <;>
  · simp only [R.SEQ_THR_CFG, rk]
    omega

theorem memKey_lock (c : Nat) : memKey (R.VLT_DIAG_BASE c) ∧ memKey (R.VLT_DIAG_LIMIT c) := by
  refine ⟨.inr (.inr (.inl ⟨?_, .inl ?_⟩)), .inr (.inr (.inl ⟨?_, .inr ?_⟩))⟩ <;>
  · simp only [R.VLT_DIAG_BASE, R.VLT_DIAG_LIMIT, rk]
    omega

theorem memKey_mode (c : Nat) {p : Nat} (hp : p < 8) : memKey (R.BU_STATUS c p) ∧ memKey (R.BU_MODE c p) := by
  refine ⟨.inr (.inr (.inr (.inl ⟨?_, .inl ?_⟩))), .inr (.inr (.inr (.inl ⟨?_, .inr ?_⟩)))⟩ <;>
  · simp only [R.BU_STATUS, R.BU_MODE, rk]
    omega

theorem memKey_module {d m : Nat} (hd : d < 8) (hm : m < 6) : memKey (R.DL_STATUS d m) := by
  refine .inr (.inr (.inr (.inr (.inl ⟨?_, ?_, ?_⟩)))) <;>
  · simp only [R.DL_STATUS, rk]
    omega

theorem memKey_shared {r : Nat} (hr : r < 8) : memKey (R.SC_SHARED_BASE r) ∧ memKey (R.SC_SHARED_LIMIT r) := by
  refine ⟨.inr (.inr (.inr (.inr (.inr (.inr (.inr (.inr (.inl ⟨?_, ?_⟩)))))))),
    .inr (.inr (.inr (.inr (.inr (.inr (.inr (.inr (.inl ⟨?_, ?_⟩))))))))⟩ <;>
  · simp only [R.SC_SHARED_BASE, R.SC_SHARED_LIMIT, rk]
    omega

/-- Nothing on which an access of memory depends has changed. -/
structure MemSame (s t : State) : Prop where
  regs   : ∀ k, memKey k → t.regsAt k = s.regsAt k
  off    : t.diesOff = s.diesOff
  cache  : t.cache = s.cache
  marks  : ∀ j, s.marksAt j = .good → t.marksAt j = .good
  sound  : ∀ w, vaultSound s w → vaultSound t w

theorem MemSame.trans {s t u : State} (h : MemSame s t) (h' : MemSame t u) : MemSame s u where
  regs k hk := (h'.regs k hk).trans (h.regs k hk)
  off := h'.off.trans h.off
  cache := h'.cache.trans h.cache
  marks j hj := h'.marks j (h.marks j hj)
  sound w hw := h'.sound w (h.sound w hw)

/-- An effect that writes other registers and other parts. -/
theorem memSame_within {ps : List Part} {K : Nat → Prop} {p : Eff} (h : p.Only (Upd.within ps K)) (s : State)
    (hps : Part.cache ∉ ps ∧ Part.marks ∉ ps ∧ Part.check ∉ ps) (hK : ∀ k, K k → ¬ memKey k ∧ k ≠ R.PWR_STATE) : MemSame s (p.run s) := by
  obtain ⟨hcache, hmarks, hcheck⟩ := hps
  have hchanges := within_changes h s
  refine ⟨fun k hk => within_regsAt h s fun hin => (hK k hin).1 hk, ?_, hchanges.same_cache (by simpa using hcache), fun j hj => ?_,
    fun w => vaultSound_congr (hchanges.same_check (by simpa using hcheck))⟩
  · rw [State.diesOff, State.diesOff, within_get h s fun hin => (hK _ hin).2 rfl]
  · rwa [State.marksAt, hchanges.same_marks (by simpa using hmarks)]

section
variable {s t : State} (h : MemSame s t)
include h

theorem MemSame.get {f : Fld} (hf : memKey f.key) : t.get f = s.get f := congrArg f.read (h.regs f.key hf)

theorem MemSame.bit {f : Fld} (hf : memKey f.key) : t.bit f = s.bit f := by rw [State.bit, State.bit, h.get hf]

theorem MemSame.extEnd : t.extEnd = s.extEnd := by
  rw [State.extEnd, State.extEnd, h.get (f := R.LIC_FEATURES_ext_gib) (by simp [memKey, R.LIC_FEATURES_ext_gib])]

theorem MemSame.cellRetired (c : Nat) : t.cellRetired c = s.cellRetired c := by
  unfold State.cellRetired State.regBit
  rw [h.regs R.SVC_RETIRED_CELL_LO (by simp [memKey]), h.regs R.SVC_RETIRED_CELL_HI (by simp [memKey])]

theorem MemSame.dieLost {d : Nat} (hd : d < 8) : t.dieLost d = s.dieLost d := by
  have hmodule : ∀ m ∈ List.range 6, (t.get (R.DL_STATUS_state d m) == 7) = (s.get (R.DL_STATUS_state d m) == 7) := by
    intro m hm
    have hlt : m < 6 := List.mem_range.1 hm
    rw [h.get (f := R.DL_STATUS_state d m) (memKey_module hd hlt)]
  rw [State.dieLost, State.dieLost, Bool.eq_iff_iff, List.all_eq_true, List.all_eq_true]
  exact forall₂_congr fun m hm => by rw [hmodule m hm]

theorem MemSame.owns {c b : Nat} (hb : b ≤ 24) (cq : Nat × Nat) : t.owns c b cq = s.owns c b cq := by
  by_cases h24 : b = 24
  · rw [State.owns, State.owns, h24]
    rfl
  · rw [State.owns, State.owns, h.get (f := ownFld c b) (memKey_own c (by omega))]

theorem MemSame.refusedBank (c off n : Nat) (cq : Nat × Nat) : t.refusedBank c off n cq = s.refusedBank c off n cq := by
  refine List.find?_congr fun b hb => ?_
  obtain ⟨p, -, rfl⟩ := List.mem_map.1 hb
  rw [h.owns (bankOf_le _)]

theorem MemSame.unsettled (c off n : Nat) : t.unsettled c off n = s.unsettled c off n := by
  refine List.filter_congr fun b hb => ?_
  obtain ⟨p, -, rfl⟩ := List.mem_map.1 hb
  have hb := bankOf_le p.1
  by_cases h24 : bankOf p.1 = 24
  · simp only [h24, bne_self_eq_false, Bool.false_and]
  · rw [h.bit (f := ownPending c _) (memKey_own c (by omega))]

theorem MemSame.sramReady {c off n : Nat} {cq : Nat × Nat} (hs : sramReady s c off n cq) : sramReady t c off n cq := by
  obtain ⟨hn, howns, hsettled, hmarks⟩ := hs
  exact ⟨hn, by rw [h.refusedBank, howns], by rw [h.unsettled, hsettled], fun w hw => h.marks _ (hmarks w hw)⟩

theorem MemSame.cached (a : Nat) : t.cached a = s.cached a := by
  have hrange : ∀ r ∈ List.range 8, t.bit (R.SC_SHARED_BASE_valid r) = s.bit (R.SC_SHARED_BASE_valid r) ∧
      t.get (R.SC_SHARED_BASE_mib r) = s.get (R.SC_SHARED_BASE_mib r) ∧
      t.get (R.SC_SHARED_LIMIT_mib r) = s.get (R.SC_SHARED_LIMIT_mib r) := fun r hr => by
    obtain ⟨hbase, hlimit⟩ := memKey_shared (List.mem_range.1 hr)
    exact ⟨h.bit hbase, h.get hbase, h.get hlimit⟩
  have hany : t.shared a = s.shared a := by
    unfold State.shared
    congr 1
    rw [Bool.eq_iff_iff, List.any_eq_true, List.any_eq_true]
    refine exists_congr fun r => and_congr_right fun hr => ?_
    obtain ⟨hvalid, hbase, hlimit⟩ := hrange r hr
    rw [hvalid, hbase, hlimit]
  rw [State.cached, State.cached, hany]

theorem MemSame.touchesLock (a n : Nat) : t.touchesLock a n = s.touchesLock a n := by
  have hlocked : ∀ g, t.diagLocked g = s.diagLocked g := by
    intro g
    unfold State.diagLocked
    dsimp only
    have hgd : memKey R.GD_DIAG_BASE ∧ memKey R.GD_DIAG_LIMIT := by simp [memKey]
    obtain ⟨hbase, hlimit⟩ := memKey_lock (g / 0x18000000)
    rw [h.bit (f := R.GD_DIAG_BASE_lock) hgd.1,
      h.get (f := R.GD_DIAG_BASE_base) hgd.1,
      h.get (f := R.GD_DIAG_LIMIT_limit) hgd.2,
      h.bit (f := R.VLT_DIAG_BASE_lock _) hbase, h.get (f := R.VLT_DIAG_BASE_base _) hbase, h.get (f := R.VLT_DIAG_LIMIT_limit _) hlimit]
  simp only [State.touchesLock, State.lockBars, h.cached, hlocked]

theorem MemSame.pcHolds (b : Nat) : t.pcHolds b = s.pcHolds b := by
  obtain ⟨hstatus, hmode⟩ := memKey_mode (b / 8) (Nat.mod_lt b (by decide : 0 < 8))
  unfold State.pcHolds
  rw [h.get (f := R.BU_STATUS_state _ _) hstatus, h.bit (f := R.BU_STATUS_mode _ _) hstatus, h.bit (f := R.BU_MODE_pending _ _) hmode,
    h.bit (f := R.BU_MODE_req _ _) hmode]

theorem MemSame.holders (a n : Nat) : t.holders a n = s.holders a n := by
  have hpc : t.pcHolds = s.pcHolds := funext h.pcHolds
  have hneeds : t.cacheNeeds a n = s.cacheNeeds a n := by
    unfold State.cacheNeeds State.line State.cacheAt
    rw [h.cache]
  unfold State.holders
  rw [hpc, h.cached, hneeds]

theorem MemSame.holder (a n : Nat) : t.holder a n = s.holder a n := by rw [State.holder, State.holder, h.holders]

theorem MemSame.accClass (who : Agent) (c : Nat) : t.accClass who c = s.accClass who c := by
  cases who
  case thread c' k =>
    have hkey := memKey_group c' k.isLt
    simp only [State.accClass]
    split
    · next hc => rw [← hc, h.get (f := R.SEQ_THR_CFG_group c' k) hkey]
    · rfl
  all_goals rfl

end

theorem of_ite_eq {α : Type} {c : Prop} [Decidable c] {x y z : α} (h : (if c then x else y) = z) : c ∧ x = z ∨ ¬ c ∧ y = z := by
  by_cases hc : c
  · exact .inl ⟨hc, by rwa [if_pos hc] at h⟩
  · exact .inr ⟨hc, by rwa [if_neg hc] at h⟩

/-- The cell, window or vault that an address names is one of 128, and an address of cell SRAM is that of its offset (R23). -/
def inMap (a : Nat) : Region → Prop
  | .vault c => c < 128
  | .sram c off => c < 128 ∧ sramAddr c off = a
  | .setAlias c off => c < 128 ∧ sramAddr c off + 0x100000000 = a
  | .clrAlias c off => c < 128 ∧ sramAddr c off + 0x200000000 = a
  | _ => True

theorem regionOf_inMap (a : Nat) : inMap a (regionOf a) := by
  generalize hr : regionOf a = r
  rw [regionOf] at hr
  rcases of_ite_eq hr with ⟨ha, rfl⟩ | ⟨-, hr⟩
  · simp only [inMap]
    omega
  rcases of_ite_eq hr with ⟨-, rfl⟩ | ⟨-, hr⟩
  · trivial
  rcases of_ite_eq hr with ⟨-, rfl⟩ | ⟨-, hr⟩
  · trivial
  rcases of_ite_eq hr with ⟨-, rfl⟩ | ⟨hlow, hr⟩
  · trivial
  rcases of_ite_eq hr with ⟨hhigh, hr⟩ | ⟨-, hr⟩
  · rcases of_ite_eq hr with ⟨-, rfl⟩ | ⟨-, rfl⟩
    · simp only [inMap, sramAddr]
      omega
    · trivial
  rcases of_ite_eq hr with ⟨-, rfl⟩ | ⟨hlow, hr⟩
  · trivial
  rcases of_ite_eq hr with ⟨hhigh, hr⟩ | ⟨-, hr⟩
  · rcases of_ite_eq hr with ⟨-, rfl⟩ | ⟨-, rfl⟩
    · simp only [inMap, sramAddr]
      omega
    · trivial
  rcases of_ite_eq hr with ⟨-, rfl⟩ | ⟨hlow, hr⟩
  · trivial
  rcases of_ite_eq hr with ⟨hhigh, hr⟩ | ⟨-, hr⟩
  · rcases of_ite_eq hr with ⟨-, rfl⟩ | ⟨-, rfl⟩
    · simp only [inMap, sramAddr]
      omega
    · trivial
  rcases of_ite_eq hr with ⟨-, rfl⟩ | ⟨-, hr⟩
  · trivial
  rcases of_ite_eq hr with ⟨-, hr⟩ | ⟨-, rfl⟩
  · split at hr <;> subst hr <;> trivial
  · trivial

theorem regionOf_sram {a c off : Nat} (h : regionOf a = .sram c off) : c < 128 ∧ sramAddr c off = a := by
  have := regionOf_inMap a
  rwa [h] at this

section
variable {s t : State} (h : MemSame s t)
include h

theorem MemSame.mapStatus (a n : Nat) (hregion : ∀ page off, regionOf a ≠ .regs page off) : t.mapStatus a n = s.mapStatus a n := by
  unfold State.mapStatus
  dsimp only
  rw [h.extEnd, h.off]
  have hmap := regionOf_inMap a
  cases hr : regionOf a with
  | regs page off => exact absurd hr (hregion page off)
  | vault c =>
    rw [hr, inMap] at hmap
    simp only [h.dieLost (show c / 16 < 8 by omega)]
  | sram c off =>
    rw [hr, inMap] at hmap
    simp only [h.cellRetired, h.dieLost (show c / 16 < 8 by omega)]
  | setAlias c off =>
    rw [hr, inMap] at hmap
    simp only [h.cellRetired, h.dieLost (show c / 16 < 8 by omega)]
  | clrAlias c off =>
    rw [hr, inMap] at hmap
    simp only [h.cellRetired, h.dieLost (show c / 16 < 8 by omega)]
  | ext => rfl
  | hole => rfl

/-- Memory that an agent reaches at once and reads without an error stays so. -/
theorem MemSame.memReady {who : Agent} {a n : Nat} (hs : memReady s who a n) : memReady t who a n := by
  obtain ⟨hn, hmap, hregion⟩ := hs
  have hmap' : t.mapStatus a n = ST_OK := by
    rw [h.mapStatus a n fun page off hr => by simp only [hr] at hregion, hmap]
  refine ⟨hn, hmap', ?_⟩
  split at hregion
  case h_1 c off hr =>
    rw [h.accClass]
    exact h.sramReady hregion
  case h_2 v hr =>
    obtain ⟨hlock, hcached, hholder, hsound⟩ := hregion
    refine ⟨by rw [h.touchesLock, hlock], by rw [h.cached, hcached], by rw [h.holder, hholder], fun w hw => ?_⟩
    have hext := isExt_of_vault (vault_end hr hmap) hw
    exact ⟨(h.sound w ⟨hext, (hsound w hw).1⟩).2, by rw [hext, Bool.false_and]⟩
  case h_3 => exact hregion.elim

end

/-! Reads -/

/-- A vault's memory that is ready is reached past the cache and the locks. -/
theorem dramSound_ready {s : State} {who : Agent} {a n v : Nat} (hr : regionOf a = .vault v) (h : memReady s who a n) :
    s.touchesLock a n = false ∧ s.cached a = false ∧ s.dramSound a n := by
  obtain ⟨-, -, hregion⟩ := h
  rw [hr] at hregion
  obtain ⟨hlock, hcached, -, hsound⟩ := hregion
  exact ⟨hlock, hcached, hsound⟩

theorem memRead_ready {s : State} {who : Agent} {a n : Nat} (h : memReady s who a n) (hint : Hint) (k : Resp → Eff) :
    (memRead who hint a n k).run s = (k ⟨ST_OK, s.bytes a n, List.replicate n false⟩).run s := by
  obtain ⟨hn, hmap, hregion⟩ := id h
  split at hregion
  case h_1 c off hr =>
    obtain ⟨-, howns, hsettled, hmarks⟩ := hregion
    simp only [memRead, memReadAs, Eff.run_look, hmap, hr, ne_eq, not_true_eq_false, if_false, cellAt]
    rw [sramRead_good s c off n _ hn howns hsettled hmarks, (regionOf_sram hr).2]
  case h_2 v hr =>
    obtain ⟨hlock, hcached, hsound⟩ := dramSound_ready hr h
    simp only [memRead, memReadAs, drReadAll, drRead, Eff.run_look, hmap, hr, hlock, hcached, ne_eq, not_true_eq_false, if_false,
      Bool.false_eq_true]
    exact dramRead_good s a n hn hsound k
  case h_3 => exact hregion.elim

/-! Writes -/

/-- The counts of narrow writes, which a write in part of a vault's word changes (R186). -/
def rmwKey (k : Nat) : Prop := ∃ c p, p < 8 ∧ k = R.VLT_RMW_CNT c p

theorem rmwKey_not_memKey {k : Nat} (h : rmwKey k) : ¬ memKey k := by
  obtain ⟨c, p, hp, rfl⟩ := h
  have hpage : R.VLT_RMW_CNT c p / 0x10000 % 16 = 8 := by simp only [R.VLT_RMW_CNT, rk]; omega
  have hoff : R.VLT_RMW_CNT c p % 0x10000 = 0x110 + p * 0x20 := by simp only [R.VLT_RMW_CNT, rk]; omega
  generalize R.VLT_RMW_CNT c p = k at hpage hoff
  simp only [memKey, R.LIC_FEATURES, R.SVC_RETIRED_CELL_LO, R.SVC_RETIRED_CELL_HI, R.GD_DIAG_BASE, R.GD_DIAG_LIMIT, rk]
  rintro (h | h | h | h | h | h | h | h | h | h | h) <;> omega

/-- The bytes stand where they were written, nothing but memory and the counts of narrow writes has changed, and what could be reached
without an error still can. -/
structure Wrote (a : Nat) (bs : List Byte) (s t : State) : Prop where
  mem     : stored a bs s t
  changes : changesOnly [.regs, .mem, .check, .marks] s t
  regs    : ∀ k, ¬ rmwKey k → t.regsAt k = s.regsAt k
  same    : MemSame s t

/-- A write of SRAM changes bytes and marks. -/
theorem memKept_changes {s t : State} (h : s.memKept t) : changesOnly [.mem, .marks] s t := by
  unfold State.memKept at h
  rw [← h]
  refine ⟨rfl, fun q hq => ?_⟩
  cases q
  case mem => simp at hq
  case marks => simp at hq
  all_goals rfl

theorem wrote_sram {s t : State} {c off : Nat} {bs : List Byte}
    (hmem : ∀ x, t.memAt x = if sramAddr c off ≤ x ∧ x < sramAddr c off + bs.length then bs.getD (x - sramAddr c off) 0 else s.memAt x)
    (hmarks : ∀ j, s.marksAt j = .good → t.marksAt j = .good) (hkept : s.memKept t) : Wrote (sramAddr c off) bs s t := by
  have hchanges := memKept_changes hkept
  have hregs : ∀ k, t.regsAt k = s.regsAt k := fun k => congrFun (get_of_regs (hchanges.same_regs (by simp))).2 k
  refine ⟨hmem, changesOnly_mono (by simp) hchanges, fun k _ => hregs k, fun k _ => hregs k, ?_, hchanges.same_cache (by simp), hmarks,
    fun w => vaultSound_congr (hchanges.same_check (by simp))⟩
  rw [State.diesOff, State.diesOff, State.get, State.get, hregs]

theorem pokeWord_memAt (w v : Nat) (s : State) (x : Nat) :
    ((pokeWord w v 0).run s).memAt x = if w ≤ x ∧ x < w + 8 then (toLE 8 v).getD (x - w) 0 else s.memAt x := by
  have hpoke : ((pokeWord w v 0).run s).memAt x = ((pokeSram w v).run s).memAt x := by
    simp only [pokeWord, pokeSram, Eff.run_all_cons, Eff.run_all_nil]
    rfl
  rw [hpoke, pokeSram_mem]

theorem pokeWord_in (w v δ : Nat) : (pokeWord w v δ).In [.mem, .check] :=
  Eff.in_all_cons (pokeBytes_in _ _ (by simp)) (Eff.in_all_cons (Eff.in_upd (by simp [Upd.part])) Eff.in_all_nil)

/-- What a write of some words of a vault leaves. -/
structure VaultWritten (a : Nat) (bs : List Byte) (ws : List Nat) (s t : State) : Prop where
  mem     : ∀ x, t.memAt x = if (∃ w ∈ ws, w ≤ x ∧ x < w + 8) ∧ a ≤ x ∧ x < a + bs.length then bs.getD (x - a) 0 else s.memAt x
  changes : changesOnly [.regs, .mem, .check] s t
  regs    : ∀ k, ¬ rmwKey k → t.regsAt k = s.regsAt k
  sound   : ∀ w, vaultSound s w → vaultSound t w

/-- One word of a write: it takes the bytes of the write that lie in it and keeps the others. -/
theorem dramWriteWords_word {a w : Nat} {bs : List Byte} {s : State} (h : vaultSound s w) (ws : List Nat) (k : Nat → Eff) :
    ∃ t, (dramWriteWords a bs (w :: ws) ST_OK k).run s = (dramWriteWords a bs ws ST_OK k).run t ∧ VaultWritten a bs [w] s t := by
  obtain ⟨hext, hgood⟩ := h
  have hstored : ∀ (old : List Byte) (u x : _) , (∀ i < 8, ¬ (a ≤ w + i ∧ w + i < a + bs.length) → old.getD i 0 = s.memAt (w + i)) →
      u.memAt x = s.memAt x → ((pokeWord w (leNat (mergeWord old w a bs)) 0).run u).memAt x =
        if (∃ w' ∈ [w], w' ≤ x ∧ x < w' + 8) ∧ a ≤ x ∧ x < a + bs.length then bs.getD (x - a) 0 else s.memAt x := by
    intro old u x hold hu
    rw [pokeWord_memAt]
    simp only [List.mem_singleton, exists_eq_left]
    by_cases hx : w ≤ x ∧ x < w + 8
    · obtain ⟨i, rfl⟩ : ∃ i, x = w + i := ⟨x - w, by omega⟩
      rw [if_pos hx, Nat.add_sub_cancel_left, mergeWord_toLE, mergeWord_getD _ _ _ _ _ (by omega)]
      by_cases hin : a ≤ w + i ∧ w + i < a + bs.length
      · rw [if_pos hin, if_pos ⟨hx, hin⟩]
      · rw [if_neg hin, if_neg fun hall => hin hall.2, hold i (by omega) hin]
    · rw [if_neg hx, if_neg fun hall => hx hall.1, hu]
  by_cases hcovers : coversWord w a bs.length = true
  · have hall : ∀ i < 8, ¬ (a ≤ w + i ∧ w + i < a + bs.length) → ([] : List Byte).getD i 0 = s.memAt (w + i) := fun i hi hout => by
      simp only [coversWord, Bool.and_eq_true, decide_eq_true_eq] at hcovers
      omega
    refine ⟨(pokeWord w (leNat (mergeWord [] w a bs)) 0).run s, ?_, fun x => hstored [] s x hall rfl,
      changesOnly_mono (by simp) ((pokeWord_in _ _ _).changes s), fun k _ => pokeWord_regsAt _ _ _ _ _, fun x hx => pokeWord_vaultSound _ _ hx⟩
    simp [dramWriteWords, hcovers, hext]
  · let u := (addSat (R.VLT_RMW_CNT_narrow_writes (unitOf w / 8) (unitOf w % 8)) 1).run s
    have hu : changesOnly [.regs] s u := (addSat_in (ps := [.regs]) _ _ (by simp)).changes s
    have hregs : ∀ k, ¬ rmwKey k → u.regsAt k = s.regsAt k := fun k hk =>
      addSat_other (f := R.VLT_RMW_CNT_narrow_writes (unitOf w / 8) (unitOf w % 8)) (fun he => hk ⟨_, _, Nat.mod_lt _ (by decide), he⟩) 1 s
    have hsound : ∀ x, vaultSound s x → vaultSound u x := fun x => vaultSound_congr (hu.same_check (by simp))
    have hmem : ∀ x, u.memAt x = s.memAt x := fun x => by rw [State.memAt, State.memAt, hu.same_mem (by simp)]
    have hword : ∀ k, (dramWord w k).run u = (k ST_OK (u.word w)).run u := fun k =>
      dramWord_good w u ⟨(hsound w ⟨hext, hgood⟩).2, by rw [hext, Bool.false_and]⟩ k
    have hold : ∀ i < 8, ¬ (a ≤ w + i ∧ w + i < a + bs.length) → (toLE 8 (u.word w)).getD i 0 = s.memAt (w + i) := fun i hi _ => by
      rw [State.toLE_word, State.bytes_getD _ _ _ _ hi, hmem]
    refine ⟨(pokeWord w (leNat (mergeWord (toLE 8 (u.word w)) w a bs)) 0).run u, ?_, fun x => hstored _ u x hold (hmem x),
      changesOnly_trans (changesOnly_mono (by simp) hu) (changesOnly_mono (by simp) ((pokeWord_in _ _ _).changes u)),
      fun k hk => (pokeWord_regsAt _ _ _ _ _).trans (hregs k hk), fun x hx => pokeWord_vaultSound _ _ (hsound x hx)⟩
    simp only [dramWriteWords, hcovers, hext, Bool.not_false, Eff.run_seq, Eff.run_when_true, Bool.false_eq_true, if_false]
    rw [hword, if_pos rfl, Eff.run_seq]

theorem dramWriteWords_written {a : Nat} {bs : List Byte} (ws : List Nat) (k : Nat → Eff) {s : State} (h : ∀ w ∈ ws, vaultSound s w) :
    ∃ t, (dramWriteWords a bs ws ST_OK k).run s = (k ST_OK).run t ∧ VaultWritten a bs ws s t := by
  induction ws generalizing s with
  | nil => exact ⟨s, rfl, fun x => by simp, changesOnly_refl _ _, fun k _ => rfl, fun x hx => hx⟩
  | cons w ws ih =>
    obtain ⟨u, hrun, hword⟩ := dramWriteWords_word (a := a) (bs := bs) (h w List.mem_cons_self) ws k
    obtain ⟨t, hrest, hwords⟩ := ih fun x hx => hword.sound x (h x (List.mem_cons_of_mem _ hx))
    refine ⟨t, hrun.trans hrest, fun x => ?_, changesOnly_trans hword.changes hwords.changes,
      fun k hk => (hwords.regs k hk).trans (hword.regs k hk), fun x hx => hwords.sound x (hword.sound x hx)⟩
    rw [hwords.mem, hword.mem]
    have hone : (∃ w' ∈ [w], w' ≤ x ∧ x < w' + 8) ↔ w ≤ x ∧ x < w + 8 := by simp
    have hall : (∃ w' ∈ w :: ws, w' ≤ x ∧ x < w' + 8) ↔ (w ≤ x ∧ x < w + 8) ∨ ∃ w' ∈ ws, w' ≤ x ∧ x < w' + 8 := by simp
    rw [if_congr (and_congr_left' hone) rfl rfl, if_congr (and_congr_left' hall) rfl rfl]
    by_cases hin : a ≤ x ∧ x < a + bs.length
    · by_cases hlater : ∃ w' ∈ ws, w' ≤ x ∧ x < w' + 8
      · simp only [hlater, hin, or_true, and_self, if_true]
      · simp only [hlater, or_false, false_and, if_false]
    · simp only [hin, and_false, if_false]

theorem VaultWritten.wrote {a : Nat} {bs : List Byte} {s t : State} (h : VaultWritten a bs (wordsOf a bs.length) s t) : Wrote a bs s t := by
  refine ⟨fun x => ?_, changesOnly_mono (by simp) h.changes, h.regs, fun k hk => h.regs k fun hr => rmwKey_not_memKey hr hk, ?_,
    h.changes.same_cache (by simp), fun j hj => ?_, h.sound⟩
  · rw [h.mem]
    by_cases hin : a ≤ x ∧ x < a + bs.length
    · rw [if_pos ⟨mem_wordsOf a bs.length x hin, hin⟩, if_pos hin]
    · rw [if_neg fun hall => hin hall.2, if_neg hin]
  · have hpwr : ¬ rmwKey R.PWR_STATE := by
      rintro ⟨c, p, hp, h⟩
      simp only [R.VLT_RMW_CNT, R.PWR_STATE, rk] at h
      omega
    rw [State.diesOff, State.diesOff, State.get, State.get, h.regs R.PWR_STATE_state.key hpwr]
  · rwa [State.marksAt, h.changes.same_marks (by simp)]

/-- A write of memory that the agent reaches at once and that holds no error answers ST_OK. -/
theorem memWrite_wrote {s : State} {who : Agent} {a : Nat} {bs : List Byte} (h : memReady s who a bs.length) (hint : Hint)
    (k : Nat → Nat → Eff) : ∃ t, (memWrite who hint a bs k).run s = (k ST_OK 0).run t ∧ Wrote a bs s t := by
  obtain ⟨hn, hmap, hregion⟩ := id h
  split at hregion
  case h_1 c off hr =>
    obtain ⟨-, howns, hsettled, hmarks⟩ := hregion
    obtain ⟨t, hrun, hmem, hgood, hkept⟩ := sramWrite_good s c off bs _ (fun st => k st 0) howns hsettled hmarks
    refine ⟨t, ?_, (regionOf_sram hr).2 ▸ wrote_sram hmem hgood hkept⟩
    simp only [memWrite, memWriteAs, Eff.run_look, hmap, hr, ne_eq, not_true_eq_false, if_false, cellAt]
    exact hrun
  case h_2 v hr =>
    obtain ⟨hlock, hcached, -, hsound⟩ := hregion
    have hend := vault_end hr hmap
    obtain ⟨t, hrun, hwritten⟩ := dramWriteWords_written (a := a) (bs := bs) (wordsOf a bs.length) (fun st => k st 0) (s := s)
      fun w hw => ⟨isExt_of_vault hend hw, (hsound w hw).1⟩
    refine ⟨t, ?_, hwritten.wrote⟩
    simp only [memWrite, memWriteAs, drWriteAll, drWrite, dramWrite, Eff.run_look, hmap, hr, hlock, hcached, ne_eq, not_true_eq_false,
      if_false, Bool.false_eq_true]
    exact hrun
  case h_3 => exact hregion.elim

/-- A write of SRAM under a class that owns it. -/
theorem sramWrite_wrote {s : State} {c off : Nat} {cq : Nat × Nat} {bs : List Byte} (h : sramReady s c off bs.length cq) (k : Nat → Eff) :
    ∃ t, (sramWrite c off bs cq k).run s = (k ST_OK).run t ∧ Wrote (sramAddr c off) bs s t ∧ changesOnly [.mem, .marks] s t := by
  obtain ⟨-, howns, hsettled, hmarks⟩ := h
  obtain ⟨t, hrun, hmem, hgood, hkept⟩ := sramWrite_good s c off bs cq k howns hsettled hmarks
  exact ⟨t, hrun, wrote_sram hmem hgood hkept, memKept_changes hkept⟩

theorem sramRead_ready {s : State} {c off n : Nat} {cq : Nat × Nat} (h : sramReady s c off n cq) (k : Resp → Eff) :
    (sramRead c off n cq k).run s = (k ⟨ST_OK, s.bytes (sramAddr c off) n, List.replicate n false⟩).run s := by
  obtain ⟨hn, howns, hsettled, hmarks⟩ := h
  exact sramRead_good s c off n cq hn howns hsettled hmarks k

/-! Holding -/

/-- Memory that is ready is held by no unit. -/
theorem memReady_holders {s : State} {who : Agent} {a n : Nat} (h : memReady s who a n) : s.holders a n = [] := by
  obtain ⟨-, -, hregion⟩ := h
  split at hregion
  case h_1 c off hr => simp [State.holders, hr]
  case h_2 v hr => exact List.head?_eq_none_iff.1 hregion.2.2.1
  case h_3 => exact hregion.elim

theorem memReady_holder {s : State} {who : Agent} {a n : Nat} (h : memReady s who a n) : s.holder a n = none := by
  rw [State.holder, memReady_holders h, List.head?_nil]

theorem holdOr_passes {s : State} {who w' : Agent} {a n : Nat} (h : memReady s who a n) (w : Option (List Byte)) (k : Eff) :
    (holdOr w' a n w k).run s = k.run s := by
  simp [holdOr, memReady_holder h]

/-- Requests that no unit holds pass the gate. -/
theorem gates_pass {s : State} {who : Agent} {as : List (Nat × Nat)} (h : ∀ p ∈ as, ∃ w, memReady s w p.1 p.2) (k : Eff) :
    (gates who as k).run s = k.run s := by
  have hopen : s.gatesOpen who as = true := by
    rw [State.gatesOpen, List.all_eq_true]
    intro p hp
    obtain ⟨w, hw⟩ := h p hp
    rw [memReady_holders hw, ite_self, List.all_nil]
  rw [gates, Eff.run_look, if_pos hopen]

end Sys2Proof.Proofs

/-! Accesses of cell SRAM through its window and its aliases (R168–R175), and codebook descriptors (R78). -/

namespace Sys2Proof.Proofs
open Sys2Proof.Machine Sys2Proof.Claims

theorem send_run (o : Out) (s : State) : (send o).run s = (Upd.out (o :: s.out)).run s := rfl

theorem freeBytes_length (ctr n : Nat) : (freeBytes ctr n).length = n := by
  induction n generalizing ctr with
  | zero => rfl
  | succ n ih => simp [freeBytes, ih]

/-- States of the same memory hold the same bytes. -/
theorem bytes_of_mem {s t : State} (h : t.mem = s.mem) (a n : Nat) : t.bytes a n = s.bytes a n := by
  induction n generalizing a with
  | zero => rfl
  | succ n ih => rw [State.bytes, State.bytes, ih, State.memAt, State.memAt, h]

/-! The window of a cell and its aliases in the map (R23–R25) -/

theorem regionOf_window {c off : Nat} (hc : c < 128) (ho : off < 0x400000) :
    regionOf (sramAddr c off) = if off < 0x380000 then .sram c off else .hole := by
  have hbelow : sramAddr c off < 0x3020000000 := by rw [sramAddr]; omega
  have hoff : (sramAddr c off - 0x3000000000) % 0x400000 = off := by rw [sramAddr]; omega
  have hcell : (sramAddr c off - 0x3000000000) / 0x400000 = c := by rw [sramAddr]; omega
  have hfrom : 0x3000000000 ≤ sramAddr c off := by rw [sramAddr]; omega
  generalize sramAddr c off = a at *
  rw [regionOf, if_neg (by omega), if_neg (by omega), if_neg (by omega), if_neg (by omega), if_pos hbelow, hoff, hcell]

theorem regionOf_setAlias {c off : Nat} (hc : c < 128) (ho : off < 0x400000) :
    regionOf (sramAddr c off + 0x100000000) = if generalOff off then .setAlias c off else .hole := by
  have hbelow : sramAddr c off + 0x100000000 < 0x3120000000 := by rw [sramAddr]; omega
  have hoff : (sramAddr c off + 0x100000000 - 0x3100000000) % 0x400000 = off := by rw [sramAddr]; omega
  have hcell : (sramAddr c off + 0x100000000 - 0x3100000000) / 0x400000 = c := by rw [sramAddr]; omega
  have hfrom : 0x3100000000 ≤ sramAddr c off + 0x100000000 := by rw [sramAddr]; omega
  generalize sramAddr c off + 0x100000000 = a at *
  rw [regionOf, if_neg (by omega), if_neg (by omega), if_neg (by omega), if_neg (by omega), if_neg (by omega), if_neg (by omega),
    if_pos hbelow, hoff, hcell]

theorem regionOf_clrAlias {c off : Nat} (hc : c < 128) (ho : off < 0x400000) :
    regionOf (sramAddr c off + 0x200000000) = if generalOff off then .clrAlias c off else .hole := by
  have hbelow : sramAddr c off + 0x200000000 < 0x3220000000 := by rw [sramAddr]; omega
  have hoff : (sramAddr c off + 0x200000000 - 0x3200000000) % 0x400000 = off := by rw [sramAddr]; omega
  have hcell : (sramAddr c off + 0x200000000 - 0x3200000000) / 0x400000 = c := by rw [sramAddr]; omega
  have hfrom : 0x3200000000 ≤ sramAddr c off + 0x200000000 := by rw [sramAddr]; omega
  generalize sramAddr c off + 0x200000000 = a at *
  rw [regionOf, if_neg (by omega), if_neg (by omega), if_neg (by omega), if_neg (by omega), if_neg (by omega), if_neg (by omega),
    if_neg (by omega), if_neg (by omega), if_pos hbelow, hoff, hcell]

/-- No address of a hole is served. -/
theorem mapped_no_hole {s : State} {a n : Nat} (h : s.mapStatus a n = ST_OK) : regionOf a ≠ .hole := by
  intro hr
  simp only [State.mapStatus, hr, beq_self_eq_true, Bool.true_or, if_true] at h
  exact absurd h (by decide)

section
variable {s : State} {who : Agent} {c : Fin 128} {off : BitVec 22} {n : Nat}

/-- R23: an offset of a cell's window that the map serves is one of its SRAM. -/
theorem region_served (h : s.mapStatus (sramAddr c off.toNat) n = ST_OK) : regionOf (sramAddr c off.toNat) = .sram c off.toNat := by
  have hwindow := regionOf_window c.isLt (off := off.toNat) off.isLt
  split at hwindow
  · exact hwindow
  · exact absurd hwindow (mapped_no_hole h)

/-- Sound SRAM under the agent's class is memory that it reaches at once. -/
theorem memReady_served (h : s.mapStatus (sramAddr c off.toNat) n = ST_OK) (hs : sramReady s c off.toNat n (s.accClass who c)) :
    memReady s who (sramAddr c off.toNat) n := by
  refine ⟨hs.1, h, ?_⟩
  rw [region_served h]
  exact hs

/-- An access through the window itself. -/
theorem sramAccess_read (collided : Bool) : sramAccess who c (0 : Fin 3) off.toNat n none collided = .look fun s =>
    memRead who .normal (sramAddr c off.toNat) n fun r =>
      if collided && r.status == ST_OK then
        .seq (countCollisions (sramAddr c off.toNat) (s.accClass who c).1 1) (withFreeBytes n fun bs => send (.reply ST_COLLISION bs))
      else send (.reply r.status r.data) := rfl

theorem sramAccess_write (bs : List Byte) (collided : Bool) : sramAccess who c (0 : Fin 3) off.toNat n (some bs) collided = .look fun s =>
    memWrite who .normal (sramAddr c off.toNat) bs fun st old =>
      if collided && st == ST_OK then
        .seq (countCollisions (sramAddr c off.toNat) (s.accClass who c).1 1) (send (.reply ST_COLLISION (toLE 8 old)))
      else send (.reply st (toLE 8 old)) := rfl

/-- What the count of one collision in a cell's SRAM leaves (R174). -/
theorem countCollisions_gets {cls : Nat} (hcls : cls < 16) (hr : regionOf (sramAddr c off.toNat) = .sram c off.toNat) (s : State) :
    let r := (countCollisions (sramAddr c off.toNat) cls 1).run s
    r.get (R.CELL_COLLISION_count c) = min (s.get (R.CELL_COLLISION_count c) + 1) (2 ^ 32 - 1) ∧
    r.get (R.CELL_COLLISION_last_bank c) = bankOf off.toNat ∧ r.get (R.CELL_COLLISION_last_class c) = cls := by
  have hlt : bankOf off.toNat < 2 ^ (R.CELL_COLLISION_last_bank c).w ∧ cls < 2 ^ (R.CELL_COLLISION_last_class c).w := by
    have hle := bankOf_le off.toNat
    exact ⟨Nat.lt_of_le_of_lt hle (by show 24 < 32; decide), hcls⟩
  dsimp only
  simp only [countCollisions, hr, Eff.run_all_cons, Eff.run_all_nil]
  refine ⟨?_, ?_, ?_⟩
  all_goals simp (disch := (
    try simp only [apart, farKey, R.CELL_COLLISION_count, R.CELL_COLLISION_last_bank, R.CELL_COLLISION_last_word,
      R.CELL_COLLISION_last_class, R.CELL_COLLISION, rk]
    omega)) only [get_put_apart,
    get_addSat_apart, put_same, addSat_same, Nat.mod_eq_of_lt hlt.1, Nat.mod_eq_of_lt hlt.2]
  rfl

theorem countCollisions_within {ps : List Part} (cls : Nat) (hr : regionOf (sramAddr c off.toNat) = .sram c off.toNat) :
    (countCollisions (sramAddr c off.toNat) cls 1).Only (Upd.within ps (oneOf [R.CELL_COLLISION c])) := by
  simp only [countCollisions, hr]
  refine ⟨(within_addSat _ _).2 ?_, (within_put _ _).2 ?_, (within_put _ _).2 ?_, (within_put _ _).2 ?_⟩ <;> exact List.mem_cons_self

theorem accClass_lt (s : State) (who : Agent) (c : Nat) : (s.accClass who c).1 < 16 := by
  have hgroup : ∀ t, s.get (R.SEQ_THR_CFG_group c t) < 4 := fun t => get_lt s (R.SEQ_THR_CFG_group c t)
  cases who <;> grind [State.accClass]

theorem out_collided {cls : Nat} (hr : regionOf (sramAddr c off.toNat) = .sram c off.toNat) (s : State) :
    ((countCollisions (sramAddr c off.toNat) cls 1).run s).out = s.out :=
  (within_changes (countCollisions_within (ps := []) cls hr) s).same_out (by simp)

end

section
variable {s : State} {who : Agent} {c : Fin 128} {off : BitVec 22} {n : Nat} (hmap : s.mapStatus (sramAddr c off.toNat) n = ST_OK)
  (hready : sramReady s c off.toNat n (s.accClass who c))
include hmap hready

theorem read_plain : let t := (sramAccess who c (0 : Fin 3) off.toNat n none false).run s
    t.out = .reply ST_OK (s.bytes (sramAddr c off.toNat) n) :: s.out ∧ changesOnly [.out] s t := by
  dsimp only
  rw [sramAccess_read, Eff.run_look, memRead_ready (memReady_served hmap hready)]
  exact ⟨rfl, (send_in _ (List.Subset.refl _)).changes s⟩

theorem read_collided : let t := (sramAccess who c (0 : Fin 3) off.toNat n none true).run s
    (∃ junk, junk.length = n ∧ t.out = .reply ST_COLLISION junk :: s.out) ∧
    t.get (R.CELL_COLLISION_count c) = min (s.get (R.CELL_COLLISION_count c) + 1) (2 ^ 32 - 1) ∧
    t.get (R.CELL_COLLISION_last_bank c) = bankOf off.toNat ∧ t.get (R.CELL_COLLISION_last_class c) = (s.accClass who c).1 ∧
    keepsRegs [R.CELL_COLLISION c] s t ∧ changesOnly [.out, .regs, .freeCtr] s t := by
  have hr := region_served hmap
  obtain ⟨hcount, hbank, hclass⟩ := countCollisions_gets (accClass_lt s who c) hr s
  have hnoted := countCollisions_within (ps := []) (s.accClass who c).1 hr
  have hanswer : (withFreeBytes n fun bs => send (.reply ST_COLLISION bs)).Only (Upd.within [.out, .freeCtr] (oneOf [])) := by
    simp [withFreeBytes, send, Upd.within, Upd.part]
  dsimp only
  rw [sramAccess_read, Eff.run_look, memRead_ready (memReady_served hmap hready), Bool.true_and, if_pos (beq_self_eq_true _), Eff.run_seq]
  refine ⟨⟨freeBytes ((countCollisions (sramAddr c off.toNat) (s.accClass who c).1 1).run s).freeCtr n, freeBytes_length _ _, ?_⟩, ?_, ?_, ?_,
    fun k hk => ?_, ?_⟩
  · rw [withFreeBytes, Eff.run_look, Eff.run_seq, send_run, Eff.run_upd]
    exact congrArg _ (out_collided hr s)
  · rw [within_get hanswer _ (by simp [oneOf]), hcount]
  · rw [within_get hanswer _ (by simp [oneOf]), hbank]
  · rw [within_get hanswer _ (by simp [oneOf]), hclass]
  · exact (within_regsAt hanswer _ (by simp [oneOf])).trans (within_regsAt hnoted s hk)
  · exact changesOnly_trans (changesOnly_mono (by simp) (within_changes hnoted s)) (changesOnly_mono (by simp) (within_changes hanswer _))

end

section
variable {s : State} {who : Agent} {c : Fin 128} {off : BitVec 22} {n : Nat} {bs : List Byte}
  (hmap : s.mapStatus (sramAddr c off.toNat) bs.length = ST_OK)
  (hready : sramReady s c off.toNat bs.length (s.accClass who c))
include hmap hready

/-- The window's write under the agent's class. -/
theorem served_wrote (k : Nat → Nat → Eff) : ∃ t, (memWrite who .normal (sramAddr c off.toNat) bs k).run s = (k ST_OK 0).run t ∧
    Wrote (sramAddr c off.toNat) bs s t ∧ changesOnly [.mem, .marks] s t := by
  obtain ⟨t, hrun, hwrote, hkept⟩ := sramWrite_wrote hready fun st => k st 0
  refine ⟨t, ?_, hwrote, hkept⟩
  simp only [memWrite, memWriteAs, Eff.run_look, hmap, region_served hmap, ne_eq, not_true_eq_false, if_false, cellAt]
  exact hrun

/-- A write through the window: done, and then answered, with the flag of a collision when it meets a read (R174). -/
theorem sramAccess_wrote (collided : Bool) : ∃ t, (sramAccess who c (0 : Fin 3) off.toNat n (some bs) collided).run s =
      (Eff.seq (Eff.when collided (countCollisions (sramAddr c off.toNat) (s.accClass who c).1 1))
        (send (.reply (if collided then ST_COLLISION else ST_OK) (toLE 8 0)))).run t ∧
    Wrote (sramAddr c off.toNat) bs s t ∧ changesOnly [.mem, .marks] s t := by
  rw [sramAccess_write, Eff.run_look]
  obtain ⟨t, hrun, hwrote, hkept⟩ := served_wrote hmap hready fun st old =>
    if collided && st == ST_OK then
      .seq (countCollisions (sramAddr c off.toNat) (s.accClass who c).1 1) (send (.reply ST_COLLISION (toLE 8 old)))
    else send (.reply st (toLE 8 old))
  refine ⟨t, hrun.trans ?_, hwrote, hkept⟩
  cases collided <;> rfl

theorem write_plain : let t := (sramAccess who c (0 : Fin 3) off.toNat n (some bs) false).run s
    t.out = .reply ST_OK (toLE 8 0) :: s.out ∧ stored (sramAddr c off.toNat) bs s t ∧ changesOnly [.out, .mem, .marks] s t := by
  obtain ⟨t, hrun, hwrote, hkept⟩ := sramAccess_wrote (n := n) hmap hready false
  dsimp only
  rw [hrun, Eff.run_seq, Eff.run_when_false, send_run]
  exact ⟨congrArg _ (hkept.same_out (by simp)), hwrote.mem, changesOnly_trans (changesOnly_mono (by simp) hkept)
    (changesOnly_mono (by simp) ((send_in (ps := [.out]) (.reply ST_OK (toLE 8 0)) (List.Subset.refl _)).changes t))⟩

theorem write_collided : let t := (sramAccess who c (0 : Fin 3) off.toNat n (some bs) true).run s
    t.out = .reply ST_COLLISION (toLE 8 0) :: s.out ∧ stored (sramAddr c off.toNat) bs s t ∧
    t.get (R.CELL_COLLISION_count c) = min (s.get (R.CELL_COLLISION_count c) + 1) (2 ^ 32 - 1) ∧
    t.get (R.CELL_COLLISION_last_class c) = (s.accClass who c).1 ∧ keepsRegs [R.CELL_COLLISION c] s t ∧
    changesOnly [.out, .mem, .marks, .regs] s t := by
  have hr := region_served hmap
  obtain ⟨t, hrun, hwrote, hkept⟩ := sramAccess_wrote (n := n) hmap hready true
  obtain ⟨hcount, -, hclass⟩ := countCollisions_gets (accClass_lt s who c) hr t
  have hnoted := countCollisions_within (ps := []) (s.accClass who c).1 hr
  obtain ⟨hget, hregs⟩ := get_of_regs (hkept.same_regs (by simp))
  have hsent : (send (.reply ST_COLLISION (toLE 8 0))).Only (Upd.within [.out] (oneOf [])) := within_send _ (by simp)
  dsimp only
  rw [hrun, Eff.run_seq, Eff.run_when_true, if_pos rfl]
  refine ⟨?_, fun x => ?_, ?_, ?_, fun k hk => ?_, ?_⟩
  · rw [send_run]
    exact congrArg _ ((out_collided hr t).trans (hkept.same_out (by simp)))
  · rw [← hwrote.mem x, State.memAt, State.memAt, (within_changes hsent _).same_mem (by simp), (within_changes hnoted t).same_mem (by simp)]
  · rw [within_get hsent _ (by simp [oneOf]), hcount, hget]
  · rw [within_get hsent _ (by simp [oneOf]), hclass]
  · exact ((within_regsAt hsent _ (by simp [oneOf])).trans (within_regsAt hnoted t hk)).trans (congrFun hregs k)
  · exact changesOnly_trans (changesOnly_mono (by simp) hkept) (changesOnly_trans (changesOnly_mono (by simp) (within_changes hnoted t))
      (changesOnly_mono (by simp) (within_changes hsent _)))

end

/-! Banks that wait for their switch, and refusals (R172, R175) -/

section
variable {c : Nat}

theorem each_settle (banks : List Nat) (b : Nat) (s : State) :
    ((Eff.each banks fun b => putBit (ownPending c b) false).run s).get (ownFld c b) =
      if b ∈ banks then s.get (ownFld c b) % 2 ^ 15 else s.get (ownFld c b) := by
  induction banks generalizing s with
  | nil => rfl
  | cons k rest ih =>
    rw [Eff.run_each_cons, ih]
    by_cases hb : b = k
    · subst hb
      rw [ownSwitch_same, Nat.mod_mod, ite_self, if_pos List.mem_cons_self]
    · rw [ownSwitch_entry hb]
      simp only [List.mem_cons, hb, false_or]

/-- The switch of the banks of an access writes their entries. -/
theorem ownSettle_within {ps : List Part} (off n : Nat) (s : State) :
    (Eff.each (s.unsettled c off n) fun b => putBit (ownPending c b) false).Only
      (Upd.within ps (oneOf ((List.range 6).map fun i => R.CELL_BANK_OWN c i))) := by
  refine (Eff.only_each _ _).2 fun b hb => (within_putBit _ _).2 (List.mem_map.2 ⟨b / 4, ?_, rfl⟩)
  obtain ⟨hb, hne⟩ := List.mem_filter.1 hb
  obtain ⟨p, -, rfl⟩ := List.mem_map.1 hb
  have hle := bankOf_le p.1
  have h24 : bankOf p.1 ≠ 24 := by
    simp only [Bool.and_eq_true, bne_iff_ne] at hne
    exact hne.1
  rw [List.mem_range]
  omega

end

section
variable {s : State} {who : Agent} {c : Fin 128} {off : BitVec 22} {n : Nat}

theorem read_settles (hmap : s.mapStatus (sramAddr c off.toNat) n = ST_OK) (hn : n ≠ 0)
    (howns : s.refusedBank c off.toNat n (s.accClass who c) = none)
    (hmarks : ∀ w ∈ wordsOf (sramAddr c off.toNat) n, s.marksAt (w / 8) = .good) :
    let t := (sramAccess who c (0 : Fin 3) off.toNat n none false).run s
    t.out = .reply ST_OK (s.bytes (sramAddr c off.toNat) n) :: s.out ∧
    (∀ b ∈ s.unsettled c off.toNat n, t.get (ownFld c b) = s.get (ownFld c b) % 2 ^ 15) ∧
    keepsRegs ((List.range 6).map fun i => R.CELL_BANK_OWN c i) s t ∧ changesOnly [.out, .regs] s t := by
  have hsettle := ownSettle_within (ps := []) (c := c) off.toNat n s
  have hchanges := within_changes hsettle s
  have hsound : ((ownSettle c off.toNat n).run s).sramSound (sramAddr c off.toNat) n := fun w hw => by
    rw [State.marksAt, ownSettle, Eff.run_look, hchanges.same_marks (by simp)]
    exact hmarks w hw
  have hbytes : ((ownSettle c off.toNat n).run s).bytes (sramAddr c off.toNat) n = s.bytes (sramAddr c off.toNat) n := by
    rw [ownSettle, Eff.run_look, bytes_of_mem (hchanges.same_mem (by simp))]
  have hanswer : (send (.reply ST_OK (s.bytes (sramAddr c off.toNat) n))).Only (Upd.within [.out] (oneOf [])) := within_send _ (by simp)
  have hrun : (sramAccess who c (0 : Fin 3) off.toNat n none false).run s =
      (send (.reply ST_OK (s.bytes (sramAddr c off.toNat) n))).run ((ownSettle c off.toNat n).run s) := by
    rw [sramAccess_read, Eff.run_look]
    simp only [memRead, memReadAs, Eff.run_look, hmap, region_served hmap, ne_eq, not_true_eq_false, if_false, cellAt, sramRead, howns,
      Eff.run_seq]
    rw [sramReadRaw_good _ _ _ _ hn hsound, hbytes]
    simp only [Bool.false_and, Bool.false_eq_true, if_false]
  rw [ownSettle, Eff.run_look] at hrun
  dsimp only
  rw [hrun]
  refine ⟨?_, fun b hb => ?_, fun k hk => ?_, ?_⟩
  · rw [send_run]
    exact congrArg _ (hchanges.same_out (by simp))
  · rw [within_get hanswer _ (by simp [oneOf]), each_settle, if_pos hb]
  · exact (within_regsAt hanswer _ (by simp [oneOf])).trans (within_regsAt hsettle s hk)
  · exact changesOnly_trans (changesOnly_mono (by simp) hchanges) (changesOnly_mono (by simp) (within_changes hanswer _))

theorem read_refused {b : Nat} (hmap : s.mapStatus (sramAddr c off.toNat) n = ST_OK)
    (hb : s.refusedBank c off.toNat n (s.accClass who c) = some b) (hlt : b < 24) :
    let t := (sramAccess who c (0 : Fin 3) off.toNat n none false).run s
    t.out = .reply ST_NOT_OWNER (List.replicate n 0xFF) :: s.out ∧
    t.get (R.CELL_OWN_FAULT_count c) = min (s.get (R.CELL_OWN_FAULT_count c) + 1) (2 ^ 32 - 1) ∧
    t.get (R.CELL_OWN_FAULT_last_bank c) = b ∧ t.get (R.CELL_OWN_FAULT_last_class c) = (s.accClass who c).1 ∧
    keepsRegs [R.CELL_OWN_FAULT c] s t ∧ changesOnly [.out, .regs] s t := by
  obtain ⟨hcount, hbank, hclass⟩ := ownFault_gets (c := c) (b := b) (by omega) (accClass_lt s who c) s
  have hfault := ownFault_within (ps := []) c b (s.accClass who c).1
  have hchanges := within_changes hfault s
  have hanswer : (send (.reply ST_NOT_OWNER (List.replicate n 0xFF))).Only (Upd.within [.out] (oneOf [])) := within_send _ (by simp)
  have hrun : (sramAccess who c (0 : Fin 3) off.toNat n none false).run s =
      (send (.reply ST_NOT_OWNER (List.replicate n 0xFF))).run ((ownFault c b (s.accClass who c).1).run s) := by
    rw [sramAccess_read, Eff.run_look]
    simp only [memRead, memReadAs, Eff.run_look, hmap, region_served hmap, ne_eq, not_true_eq_false, if_false, cellAt]
    rw [sramRead_refused _ _ _ _ _ _ hb]
    simp only [onesResp, Bool.false_and, Bool.false_eq_true, if_false, Eff.run_seq]
  dsimp only
  rw [hrun]
  refine ⟨?_, ?_, ?_, ?_, fun k hk => ?_, ?_⟩
  · rw [send_run]
    exact congrArg _ (hchanges.same_out (by simp))
  · rw [within_get hanswer _ (by simp [oneOf]), hcount]
  · rw [within_get hanswer _ (by simp [oneOf]), hbank]
  · rw [within_get hanswer _ (by simp [oneOf]), hclass]
  · exact (within_regsAt hanswer _ (by simp [oneOf])).trans (within_regsAt hfault s hk)
  · exact changesOnly_trans (changesOnly_mono (by simp) hchanges) (changesOnly_mono (by simp) (within_changes hanswer _))

theorem write_refused {b : Nat} {bs : List Byte} (hmap : s.mapStatus (sramAddr c off.toNat) bs.length = ST_OK)
    (hb : s.refusedBank c off.toNat bs.length (s.accClass who c) = some b) :
    let t := (sramAccess who c (0 : Fin 3) off.toNat n (some bs) false).run s
    t.out = .reply ST_NOT_OWNER (toLE 8 0) :: s.out ∧ keepsRegs [R.CELL_OWN_FAULT c] s t ∧ changesOnly [.out, .regs] s t := by
  have hfault := ownFault_within (ps := []) c b (s.accClass who c).1
  have hchanges := within_changes hfault s
  have hanswer : (send (.reply ST_NOT_OWNER (toLE 8 0))).Only (Upd.within [.out] (oneOf [])) := within_send _ (by simp)
  have hrun : (sramAccess who c (0 : Fin 3) off.toNat n (some bs) false).run s =
      (send (.reply ST_NOT_OWNER (toLE 8 0))).run ((ownFault c b (s.accClass who c).1).run s) := by
    rw [sramAccess_write, Eff.run_look]
    simp only [memWrite, memWriteAs, Eff.run_look, hmap, region_served hmap, ne_eq, not_true_eq_false, if_false, cellAt, sramWrite, hb,
      Bool.false_and, Bool.false_eq_true, Eff.run_seq]
  dsimp only
  rw [hrun]
  refine ⟨?_, fun k hk => ?_, ?_⟩
  · rw [send_run]
    exact congrArg _ (hchanges.same_out (by simp))
  · exact (within_regsAt hanswer _ (by simp [oneOf])).trans (within_regsAt hfault s hk)
  · exact changesOnly_trans (changesOnly_mono (by simp) hchanges) (changesOnly_mono (by simp) (within_changes hanswer _))

/-! The aliases (R173) -/

/-- The value that a write through an alias leaves. -/
def aliasValue (set : Bool) (old new : Nat) : Nat := if set then Nat.lor old new else Nat.xor old (Nat.land old new)

/-- An aligned word of 4 or 8 bytes through an alias is read, combined and stored. -/
theorem aliasWrite_wrote {set : Bool} {off : Nat} {bs : List Byte} {cq : Nat × Nat} (hlen : bs.length = 4 ∨ bs.length = 8)
    (halign : off % bs.length = 0) (h : sramReady s c off bs.length cq) (k : Nat → Nat → Eff) :
    let old := leNat (s.bytes (sramAddr c off) bs.length)
    ∃ t, (aliasWrite set c off bs cq k).run s = (k ST_OK old).run t ∧
      Wrote (sramAddr c off) (toLE bs.length (aliasValue set old (leNat bs))) s t ∧ changesOnly [.mem, .marks] s t := by
  obtain ⟨hn, howns, hsettled, hmarks⟩ := id h
  intro old
  have hform : (!((bs.length == 4 || bs.length == 8) && off % bs.length == 0)) = false := by
    rw [halign]
    rcases hlen with hlen | hlen <;> rw [hlen] <;> rfl
  have hlen' : (toLE bs.length (aliasValue set old (leNat bs))).length = bs.length := toLE_length _ _
  obtain ⟨t, hrun, hwrote, hkept⟩ := sramWrite_wrote (bs := toLE bs.length (aliasValue set old (leNat bs))) (by rw [hlen']; exact h)
    fun st => k st old
  refine ⟨t, Eq.trans ?_ hrun, hwrote, hkept⟩
  simp only [aliasWrite, Eff.run_look, hform, Bool.false_eq_true, if_false, howns, Eff.run_seq, ownSettle_settled s c off _ hsettled, sramWrite,
    hlen']
  rw [sramReadRaw_good s c off _ hn hmarks, if_pos rfl]
  rfl

/-- A store through an alias: the combined word is stored and the old one returned. -/
theorem alias_access {who : Agent} {c : Fin 128} {way : Nat} {set : Bool} {off : BitVec 22} {n : Nat} {bs : List Byte} {s : State}
    (hregion : regionOf (sramWay c way off.toNat) = if set then .setAlias c off.toNat else .clrAlias c off.toNat)
    (hmap : s.mapStatus (sramWay c way off.toNat) bs.length = ST_OK) (hlen : bs.length = 4 ∨ bs.length = 8)
    (halign : off.toNat % bs.length = 0) (hready : sramReady s c off.toNat bs.length (s.accClass who c)) :
    let old := leNat (s.bytes (sramAddr c off.toNat) bs.length)
    let t := (sramAccess who c way off.toNat n (some bs) false).run s
    t.out = .reply ST_OK (toLE 8 old) :: s.out ∧
    stored (sramAddr c off.toNat) (toLE bs.length (aliasValue set old (leNat bs))) s t ∧ changesOnly [.out, .mem, .marks] s t := by
  intro old
  obtain ⟨t, hrun, hwrote, hkept⟩ := aliasWrite_wrote (set := set) hlen halign hready fun st old => send (.reply st (toLE 8 old))
  have haccess : (sramAccess who c way off.toNat n (some bs) false).run s = (send (.reply ST_OK (toLE 8 old))).run t := by
    rw [← hrun]
    simp only [sramAccess, Eff.run_look, memWrite, memWriteAs, hmap, ne_eq, not_true_eq_false, if_false, Bool.false_and,
      Bool.false_eq_true, cellAt, hregion]
    cases set <;> rfl
  dsimp only
  rw [haccess, send_run]
  exact ⟨congrArg _ (hkept.same_out (by simp)), hwrote.mem, changesOnly_trans (changesOnly_mono (by simp) hkept)
    (changesOnly_mono (by simp) ((send_in (ps := [.out]) (.reply ST_OK (toLE 8 old)) (List.Subset.refl _)).changes t))⟩

/-- R173: the two ways beside the window are the bit-set and the bit-clear alias. -/
theorem region_way {c : Fin 128} {off : BitVec 22} {way : Fin 3} (hway : way ≠ 0) (ho : off.toNat < 0x300000) :
    regionOf (sramWay c way off.toNat) = if way = 1 then .setAlias c off.toNat else .clrAlias c off.toNat := by
  have hgeneral : generalOff off.toNat = true := decide_eq_true ho
  fin_cases way
  · exact absurd rfl hway
  · exact (regionOf_setAlias c.isLt off.isLt).trans (if_pos hgeneral)
  · exact (regionOf_clrAlias c.isLt off.isLt).trans (if_pos hgeneral)

end

theorem sramAccesses : Claims.SramAccesses := by
  intro who c off n bs s o a cq old hpow
  refine ⟨fun hmap hready => ⟨?_, ?_⟩, fun hmap hready => ?_, fun hmap hready _ => ?_, fun hmap hn howns _ hmarks => ?_,
    fun way hway hlen halign ho hmap hready => ?_, fun b hmap hb hlt => ?_, fun b hmap hb _ => ?_⟩
  · exact yields_done rfl hpow (read_plain hmap hready)
  · exact yields_done rfl hpow (read_collided hmap hready)
  · exact yields_done rfl hpow (write_plain hmap hready)
  · exact yields_done rfl hpow (write_collided hmap hready)
  · exact yields_done rfl hpow (read_settles hmap hn howns hmarks)
  · refine yields_done rfl hpow ?_
    have h := alias_access (n := n) (set := decide (way = 1)) (by simpa using region_way hway ho) hmap hlen halign hready
    simpa only [aliasValue, decide_eq_true_eq] using h
  · exact yields_done rfl hpow (read_refused hmap hb hlt)
  · exact yields_done rfl hpow (write_refused hmap hb)

/-! Codebook descriptors (R78) -/

theorem not_nan_of_lt {a b : Machine.Num} (h : a.lt b = true) : b.isNan = false := by
  cases b with
  | nan => cases a <;> simp [Num.lt] at h
  | inf n => rfl
  | fin n m e => rfl

/-- Two or more entries ascend exactly when each lies below its successor. -/
theorem ascends_iff_chain (a b : Machine.Num) (rest : List Machine.Num) :
    ascends (a :: b :: rest) = true ↔ (a :: b :: rest).IsChain fun x y => x.lt y = true := by
  induction rest generalizing a b with
  | nil =>
    rw [ascends, ascends, Bool.and_eq_true, List.isChain_cons_cons]
    exact and_congr_right fun h => by simp [not_nan_of_lt h]
  | cons c rest ih => rw [ascends, Bool.and_eq_true, ih, List.isChain_cons_cons (a := a)]

theorem ascends_range (n : Nat) (entry : Nat → Machine.Num) :
    ascends ((List.range (n + 2)).map entry) = true ↔ ∀ i, i + 1 < n + 2 → (entry i).lt (entry (i + 1)) = true := by
  have hsplit : (List.range (n + 2)).map entry = entry 0 :: entry 1 :: (List.range n).map fun i => entry (i + 2) := by
    simp [List.range_succ_eq_map, Function.comp_def]
  rw [hsplit, ascends_iff_chain, ← hsplit, List.isChain_map, List.isChain_range]
  exact forall_congr' fun i => imp_congr_left (by omega)

theorem cbChecked_iff (size : Nat) (f : Fmt) (bs : List Byte) : cbChecked size f bs = true ↔
    ∀ i, i + 1 < (if size = 0 then 16 else 256) → (cbEntry f bs i).lt (cbEntry f bs (i + 1)) = true := by
  rw [cbChecked]
  split
  · exact ascends_range 14 _
  · exact ascends_range 254 _

/-- R78: the format of a slot's entries by the descriptor's code. -/
def cbFmt (fmt : Nat) : Fmt := if fmt = 0 then .e4m3 else if fmt = 1 then .e5m2 else .bf16

/-- R78: a descriptor of 4 bits names a usable slot when valid is set, its format is listed and only BF16 comes with 256 entries. -/
def cbGood (d : Nat) : Prop := d % 2 = 1 ∧ d / 4 ≠ 3 ∧ (d / 2 % 2 = 1 → d / 4 = 2)

/-- R78: the entries of the slot rise strictly. -/
def cbRising (s : State) (c k d : Nat) : Prop := ∀ i, i + 1 < (if d / 2 % 2 = 0 then 16 else 256) →
  (cbEntry (cbFmt (d / 4)) (s.cbBytes c k) i).lt (cbEntry (cbFmt (d / 4)) (s.cbBytes c k) (i + 1)) = true

section
variable {s : State} {c k d : Nat}

theorem cbUsable_good (hd : s.cbDesc c k = d) (hlt : d < 16) (h : cbGood d) : s.cbUsable c k = some (d / 2 % 2, cbFmt (d / 4)) := by
  obtain ⟨hvalid, hfmt, hsize⟩ := h
  simp only [State.cbUsable, hd]
  rw [if_neg (by omega)]
  interval_cases d <;> simp_all [cbFmt]

theorem cbUsable_bad (hd : s.cbDesc c k = d) (hlt : d < 16) (h : ¬ cbGood d) : s.cbUsable c k = none := by
  simp only [State.cbUsable, hd]
  interval_cases d <;> simp_all [cbGood]

end

/-- What the write of a descriptor of a slot with these entry bytes does beside its answer. -/
def cbStore (c k v : Nat) (bs : List Byte) : Eff := .seq (putReg (cbKey c k 127) (BitVec.ofNat 64 (v % 16))) (.look fun t =>
  match t.cbUsable c k with
  | some (size, fmt) => putRegBit (cbKey c k 127) 4 (cbChecked size fmt bs)
  | none => .skip)

section
variable {c k : Nat} {v : Nat} {s : State}

theorem cbDesc_stored : ((putReg (cbKey c k 127) (BitVec.ofNat 64 (v % 16))).run s).cbDesc c k = v % 16 := by
  rw [State.cbDesc, State.reg, putReg_same]
  exact Nat.mod_eq_of_lt (by omega)

/-- The checked bit above a descriptor of 4 bits. -/
theorem cbDesc_checked (b : Bool) (hd : s.cbDesc c k = v % 16) :
    ((putRegBit (cbKey c k 127) 4 b).run s).cbDesc c k = v % 16 + if b then 16 else 0 := by
  rw [State.cbDesc, State.reg] at hd ⊢
  rw [putRegBit, put, Eff.run_look, putReg_same, Fld.write, putBits, hd]
  have := Nat.mod_lt v (show 0 < 16 by decide)
  cases b <;> simp <;> omega

end

section
variable {c k v : Nat} {s : State} {bs : List Byte}

theorem cbStore_within : (cbStore c k v bs).Only (Upd.within [] (oneOf [cbKey c k 127])) := by
  refine ⟨(within_putReg _ _).2 List.mem_cons_self, fun t => ?_⟩
  dsimp only
  split
  · exact (within_putRegBit _ _ _).2 List.mem_cons_self
  · trivial

theorem cbStore_good (h : cbGood (v % 16)) :
    ((cbStore c k v bs).run s).cbDesc c k = v % 16 + if cbChecked (v % 16 / 2 % 2) (cbFmt (v % 16 / 4)) bs then 16 else 0 := by
  rw [cbStore, Eff.run_seq, Eff.run_look, cbUsable_good cbDesc_stored (Nat.mod_lt v (by decide)) h]
  exact cbDesc_checked _ cbDesc_stored

theorem cbStore_bad (h : ¬ cbGood (v % 16)) : ((cbStore c k v bs).run s).cbDesc c k = v % 16 := by
  rw [cbStore, Eff.run_seq, Eff.run_look, cbUsable_bad cbDesc_stored (Nat.mod_lt v (by decide)) h]
  exact cbDesc_stored

theorem cbStore_set (h : cbGood (v % 16)) (hr : cbRising s c k (v % 16)) :
    ((cbStore c k v (s.cbBytes c k)).run s).cbDesc c k = v % 16 + 16 := by
  rw [cbStore_good h, if_pos ((cbChecked_iff _ _ _).2 hr)]

theorem cbStore_plain (h : ¬ (cbGood (v % 16) ∧ cbRising s c k (v % 16))) :
    ((cbStore c k v (s.cbBytes c k)).run s).cbDesc c k = v % 16 := by
  by_cases hgood : cbGood (v % 16)
  · rw [cbStore_good hgood, if_neg fun hc => h ⟨hgood, (cbChecked_iff _ _ _).1 hc⟩, Nat.add_zero]
  · exact cbStore_bad hgood

end

theorem codebookDescriptors : Claims.CodebookDescriptors := by
  intro who c k v s hw d size fmt f entry usable rising
  have hact : actCodebookDesc who c k v.toNat s = (ST_OK, cbStore c k v.toNat (s.cbBytes c k)) := by
    rw [actCodebookDesc, guardAct_writable hw]
    rfl
  have hafter {x : Nat} (hx : ((cbStore c k v.toNat (s.cbBytes c k)).run s).cbDesc c k = x) :
      yields (.codebookDescriptorWrite who c k v) s fun t =>
        t.cbDesc c k = x ∧ keepsRegs [cbKey c k 127] s t ∧ changesOnly [.regs, .out] s t := by
    refine yields_act rfl hw.1 hact ⟨?_, keepsRegs_answer who (within_keepsRegs cbStore_within s),
      changes_answer who (within_changes cbStore_within s) (by simp) (by simp)⟩
    rw [State.cbDesc, State.reg, actAnswer_regsAt]
    exact hx
  exact ⟨fun hu hr => hafter (cbStore_set hu hr), fun h => hafter (cbStore_plain h)⟩

/-- Settles O14, by what memory that answers at once does through the window and its aliases, and by the check of a slot's entries. -/
theorem cellMemory : Obligations.CellMemory := ⟨sramAccesses, codebookDescriptors⟩

end Sys2Proof.Proofs

/-! The scrub of a vault waits where a pseudo-channel is in PROCESSOR mode (R198, R205). -/

namespace Sys2Proof.Proofs

-- One evaluation after another: side by side each keeps a thread and its stack while it waits for the kernel.
set_option Elab.async false

open Sys2Proof.Machine Sys2Proof.Claims

/-- A scrub of the first granule of vault 0 is under way, and bank unit 0, whose pseudo-channel serves it, is in PROCESSOR mode. -/
def heldScrub : State := (putBit (R.BU_STATUS_mode 0 0) true).run ((Upd.scrubRun 0 (some (0, 63, 0))).run State.reset)

theorem heldScrub_waits : ((scrubDone (some 0)).run heldScrub).scrubRunAt 0 = some (0, 63, 0) := by decide +kernel

/-- Refutes O23: the end of a scrub that a pseudo-channel in PROCESSOR mode holds comes later, and the scrub runs on until then. -/
theorem not_scrubAndDiagnostics : ¬ Obligations.ScrubAndDiagnostics := by
  intro ⟨hscrub, _⟩
  have hpow : heldScrub.power ≠ .off := by decide
  obtain ⟨-, hdone⟩ := hscrub .mgmt (some 0) heldScrub
  have hends := hdone 0 hpow (by decide) (by decide) (by decide) (by decide) (by decide) (by decide)
    fun w _ => .inl (decode_clean rfl w)
  obtain ⟨-, hrun, -⟩ := post_of_yields hends rfl hpow
  rw [show unitKey (some 0) = 0 from rfl, heldScrub_waits] at hrun
  exact absurd hrun (by decide)

end Sys2Proof.Proofs

/-! A frank whose kind byte exceeds 7 is refused, and LIC_STATUS keeps the low three bits of the byte alone (R430, R436). -/

namespace Sys2Proof.Proofs

-- One evaluation after another: side by side each keeps a thread and its stack while it waits for the kernel.
set_option Elab.async false

open Sys2Proof.Machine Sys2Proof.Claims

/-- FRANK_INSTALL of the 1,152 bytes at host address 0 of port 0. -/
def frankCmd : HCmd := ⟨0, 0, 0, [0x60] ++ List.replicate 15 0 ++ [0x80, 4] ++ List.replicate 46 0, false, none, 0, 0, 0, false, [], 0, [], 0⟩

/-- Port 0 is up and holds the token of a module past S3; the frank in its host's memory names kind 255. -/
def oddFrank : State := (Eff.all [put (R.HIF_LINK_speed 0) 5, putBit (R.HIF_TOKEN_held 0) true, put R.FW_STAGE_stage 4, .upd (.hostMem 6 0xFF),
  .upd (.cmds [frankCmd])]).run State.reset

theorem oddFrank_starts : startsAs 0x60 (0 : Fin 2048) frankCmd oddFrank := by
  unfold startsAs
  decide +kernel

theorem oddFrank_kind : leAt (oddFrank.hostBytes (hostKey frankCmd.port (leAt frankCmd.desc 8 8)) 1152) 6 1 = 255 := by decide +kernel

theorem oddFrank_kept : ((frankInstall 0 0 false).run oddFrank).get R.LIC_STATUS_last_kind = 7 := by decide +kernel

/-- Refutes O35: the field last_kind has three bits and cannot show the kind byte of every frank that is refused. -/
theorem not_hostInformation : ¬ Obligations.HostInformation := by
  intro ⟨_, hset⟩
  have hpow : oddFrank.power ≠ .off := by decide
  obtain ⟨-, -, -, -, hfrank, -⟩ := hset 0 frankCmd [] oddFrank
  have hinstall := hfrank oddFrank_starts (by decide +kernel) (by decide) false
  obtain ⟨-, hkind, -⟩ := post_of_yields hinstall rfl hpow
  have h : 7 = 255 := oddFrank_kept.symm.trans (hkind.trans oddFrank_kind)
  exact absurd h (by decide)

end Sys2Proof.Proofs

/-! A copy's access that a memory window has served uses the window up (R225), which the statement on COPY_TO_DEVICE leaves out. -/

namespace Sys2Proof.Proofs

-- One evaluation after another: side by side each keeps a thread and its stack while it waits for the kernel.
set_option Elab.async false

open Sys2Proof.Machine Sys2Proof.Claims

/-- COPY_TO_DEVICE of 8 bytes from host address 0 of port 0 to address 0. -/
def copyCmd : HCmd := ⟨0, 0, 0, [0x40] ++ List.replicate 23 0 ++ [8] ++ List.replicate 39 0, false, none, 0, 0, 0, false, [], 0, [], 0⟩

/-- The module is READY, port 0 is up, and a memory window of bank unit 0 has served the core that copies. -/
def copyServed : State := (Eff.all [put (R.HIF_LINK_speed 0) 5, .upd (.ready true), .upd (.granted 0 [.core 0]),
  .upd (.cmds [copyCmd])]).run State.reset

theorem copyServed_starts : startsAs 0x40 (0 : Fin 2048) copyCmd copyServed := by
  unfold startsAs
  decide +kernel

theorem copyServed_ready : memReady copyServed (.host 0) 0 8 :=
  memReady_clean (v := 0) (by decide) (by decide) (by decide) (by decide) (by decide) (by decide) (by decide)

theorem copyServed_ends : ((copyToDevice 0 0 0).run copyServed).granted = [] := by decide +kernel

/-- Refutes O36: COPY_TO_DEVICE to memory that a window has served uses the window up. -/
theorem not_hostMemoryCommands : ¬ Obligations.HostMemoryCommands := by
  intro h
  have hpow : copyServed.power ≠ .off := by decide
  obtain ⟨hcopy, -⟩ := h 0 0 copyCmd copyServed rfl (by decide +kernel)
  obtain ⟨hto, -⟩ := hcopy copyServed_starts rfl
  obtain ⟨-, -, hrest⟩ := post_of_yields (hto (by decide) copyServed_ready (by decide)) rfl hpow
  have hgranted := hrest.same_granted (by simp [besideMem])
  exact absurd (copyServed_ends.symm.trans hgranted) (by decide)

end Sys2Proof.Proofs

/-! The end of SEQ_RETIRE forgets the cell operations of every command that bears its identity (R367), while the statement lets it change
their phase, status and result alone. -/

namespace Sys2Proof.Proofs

-- One evaluation after another: side by side each keeps a thread and its stack while it waits for the kernel.
set_option Elab.async false

open Sys2Proof.Machine Sys2Proof.Claims

/-- SEQ_RETIRE of sequence 0, whose releases have ended. -/
def retireCmd : HCmd := ⟨0, 0, 0, [0x32], false, none, 1, 0, 0, false, [], 1, [], 0⟩

/-- A sequence of no district. -/
def idleSeq : SeqRec := ⟨0, 0, 0, 1, 0, [], none, [], [], [], [], [], none⟩

/-- The command runs, beside one of the same identity that waits for an operation of cell 0. -/
def retireShared : State := (Eff.all [.upd (.seqs 0 (some idleSeq)),
  .upd (.cmds [retireCmd, { retireCmd with ops := [(0, 0)] }])]).run State.reset

theorem retireShared_runs : runsAs 0x32 (0 : Fin 2048) retireCmd retireShared := by
  unfold runsAs
  decide +kernel

theorem retireShared_forgets : ((seqRetire 0).run retireShared).cmds.map HCmd.ops = [[], []] := by decide +kernel

/-- Refutes O37: the command's end empties the operations of the other command that bears its identity. -/
theorem not_sequences : ¬ Obligations.Sequences := by
  intro h
  have hpow : retireShared.power ≠ .off := by decide
  obtain ⟨-, -, -, -, hretire, -⟩ := h 0 0 retireCmd retireShared
  obtain ⟨-, -, hdone⟩ := hretire (by decide) idleSeq (by decide +kernel)
  obtain ⟨-, -, hended, -⟩ := post_of_yields (hdone retireShared_runs rfl (by decide +kernel) rfl) rfl hpow
  have hops := congrArg (List.map HCmd.ops) hended
  exact absurd (retireShared_forgets.symm.trans hops) (by decide +kernel)

end Sys2Proof.Proofs

/-! The retirement of a die-link module ends every RETIRE_UNIT that waits for it (R468), not the one that begins it alone. -/

namespace Sys2Proof.Proofs

-- One evaluation after another: side by side each keeps a thread and its stack while it waits for the kernel.
set_option Elab.async false

open Sys2Proof.Machine Sys2Proof.Claims

/-- RETIRE_UNIT of die-link module 0. -/
def dlRetireCmd : HCmd := ⟨0, 0, 0, [0x52] ++ List.replicate 7 0 ++ [2, 0, 0, 0], false, none, 0, 0, 0, false, [], 0, [], 0⟩

/-- The command of port 0, which holds the token, is to start; an earlier one waits for the same module, to which no slot belongs, and
module 1 is up. -/
def twiceRetired : State := (Eff.all [.upd (.ready true), putBit (R.HIF_TOKEN_held 0) true, put (R.DL_STATUS_state 0 1) 2,
  Eff.each (List.range 3) fun i => putReg (R.DL_HASH 0 i) 0x1111111111111111, .upd (.retirePend [(1, 2, 0)]),
  .upd (.cmds [dlRetireCmd, { dlRetireCmd with id := 1, phase := 1 }])]).run State.reset

theorem twiceRetired_starts : startsAs 0x52 (0 : Fin 2048) dlRetireCmd twiceRetired := by
  unfold startsAs
  decide +kernel

theorem twiceRetired_ends : ((retireDieLink 0).run twiceRetired).cmds.map HCmd.phase = [2, 2] := by decide +kernel

/-- Refutes O38: the retirement ends the earlier command too. -/
theorem not_retirements : ¬ Obligations.Retirements := by
  intro h
  have hpow : twiceRetired.power ≠ .off := by decide
  obtain ⟨-, -, hlink, -⟩ := h 0 dlRetireCmd twiceRetired twiceRetired_starts
  obtain ⟨-, hgone, -⟩ := hlink (by decide) (by decide)
  obtain ⟨-, -, -, hended⟩ := post_of_yields (hgone (by decide +kernel) (by decide +kernel) (by decide +kernel)) rfl hpow
  have hphases := congrArg (List.map HCmd.phase) hended
  exact absurd (twiceRetired_ends.symm.trans hphases) (by decide +kernel)

end Sys2Proof.Proofs

/-! A wake from STANDBY asks for a housekeeping round anew (R193, R478), which the statement on the exit leaves out. -/

namespace Sys2Proof.Proofs

-- One evaluation after another: side by side each keeps a thread and its stack while it waits for the kernel.
set_option Elab.async false

open Sys2Proof.Machine Sys2Proof.Claims

/-- A powered module in STANDBY whose vaults have had their bands since an earlier wake. -/
def bandedStandby : State := (Eff.all [.upd (.power .on), put R.PWR_STATE_state 2,
  .upd (.gov { State.reset.gov with banded := true })]).run State.reset

theorem bandedStandby_wakes : (mgmtStandbyExit.run bandedStandby).gov.banded = false := by decide +kernel

/-- Refutes O39: the wake by the management port takes back the mark of the housekeeping round. -/
theorem not_powerStates : ¬ Obligations.PowerStates := by
  intro h
  have hpow : bandedStandby.power ≠ .off := by decide
  obtain ⟨-, -, -, -, hexit⟩ := h 0 frankCmd [] bandedStandby
  obtain ⟨hwake, -⟩ := hexit (by decide +kernel)
  obtain ⟨-, -, -, -, hrest⟩ := post_of_yields (hwake (by decide +kernel) (by decide +kernel)) rfl hpow
  have hgov := congrArg Governor.banded (hrest.same_gov (by simp))
  exact absurd (bandedStandby_wakes.symm.trans hgov) (by decide +kernel)

end Sys2Proof.Proofs

/-! A completion ring of 2^15 entries has more than the twelve bits of cq_tail can count (R353, R356). -/

namespace Sys2Proof.Proofs

-- One evaluation after another: side by side each keeps a thread and its stack while it waits for the kernel.
set_option Elab.async false

open Sys2Proof.Machine Sys2Proof.Claims

/-- A NOP of pair 0 of port 0 that has finished. -/
def nopDone : HCmd := ⟨0, 0, 0, List.replicate 64 0, false, none, 2, 0, 0, false, [], 0, [], 0⟩

/-- Port 0 is up, and the tail of its pair stands at the last index that the field holds. -/
def longRing : State := (Eff.all [put (R.HIF_LINK_speed 0) 5, put (R.QUE_QP_CFG_cq_log2 0 0) 15, put (R.QUE_QP_STATUS_cq_tail 0 0) 4095,
  .upd (.cmds [nopDone])]).run State.reset

theorem longRing_wraps : ((completionPost 0).run longRing).get (R.QUE_QP_STATUS_cq_tail 0 0) = 0 := by decide +kernel

/-- Refutes O32: the tail of so long a ring wraps at 4,096, where the statement wraps it at the ring's size. -/
theorem not_hostQueues : ¬ Obligations.HostQueues := by
  intro h
  have hpow : longRing.power ≠ .off := by decide
  obtain ⟨-, -, -, -, -, hpost, -⟩ := h .mgmt 0 0 0 0 longRing hpow
  obtain ⟨hfinal, -⟩ := hpost nopDone (by decide +kernel) (by decide +kernel) (by decide +kernel)
  obtain ⟨⟨-, htail, -⟩, -⟩ := post_of_yields (hfinal rfl rfl rfl rfl) rfl hpow
  exact absurd (longRing_wraps.symm.trans htail) (by decide +kernel)

end Sys2Proof.Proofs

/-! A chart that is armed has the shared cache flushed where it ends a live SHARED range (R283, R340), which the statement on the arming
leaves out. -/

namespace Sys2Proof.Proofs

-- One evaluation after another: side by side each keeps a thread and its stack while it waits for the kernel.
set_option Elab.async false

open Sys2Proof.Machine Sys2Proof.Claims

/-- A clean line of zeroes from address 0 on. -/
def extLine : ScLine := ⟨0, false, none, List.replicate 128 0, List.replicate 16 .good⟩

/-- A rotation without SHARED ranges is being staged, the first MiB is one, and the cache holds a line of it. -/
def sharedLine : State := (Eff.all [put R.CHT_STATUS_state 2, putBit R.CHT_STATUS_rotation true, putBit (R.SC_SHARED_BASE_valid 0) true,
  .upd (.cache (setKey 0) [extLine])]).run State.reset

theorem sharedLine_flushed : (chartStagingDone.run sharedLine).cache = [] := by decide +kernel

/-- Refutes O40: the end of the staging of a rotation arms it, and the arming flushes the line. -/
theorem not_chartControl : ¬ Obligations.ChartControl := by
  intro h
  have hpow : sharedLine.power ≠ .off := by decide
  obtain ⟨-, hstaged, -⟩ := h 0 frankCmd .mgmt 0 sharedLine
  obtain ⟨-, hrotation⟩ := hstaged hpow (by decide +kernel)
  obtain ⟨-, -, -, -, hrest⟩ := post_of_yields (hrotation (by decide +kernel) (by decide +kernel)) rfl hpow
  have hcache := hrest.same_cache (by simp)
  exact absurd (sharedLine_flushed.symm.trans hcache) (by decide +kernel)

end Sys2Proof.Proofs

/-! The slack check of an edge forgets the nominal time of an edge that an apply hold delayed (R55), which the statement on a check without an
overrun leaves out. -/

namespace Sys2Proof.Proofs

-- One evaluation after another: side by side each keeps a thread and its stack while it waits for the kernel.
set_option Elab.async false

open Sys2Proof.Machine Sys2Proof.Claims

/-- Edge 1 was delayed by a hold of its apply, and its slack check is due. -/
def heldEdge : State := (Eff.all [put R.TIDE_EDGE_NUM_edge 1, .upd (.edgeNom (some 0))]).run State.reset

theorem heldEdge_forgotten : (slackCheck.run heldEdge).edgeNom = none := by decide +kernel

/-- Refutes O41: the check of edge 1 takes the nominal time back. -/
theorem not_tide : ¬ Obligations.Tide := by
  intro ⟨hcontrol, _⟩
  have hpow : heldEdge.power ≠ .off := by decide
  obtain ⟨-, -, hslack, -⟩ := hcontrol 0 frankCmd .mgmt heldEdge
  obtain ⟨hcalm, -⟩ := hslack hpow (by decide +kernel)
  obtain ⟨-, hrest⟩ := post_of_yields (hcalm (.inl (by decide +kernel))) rfl hpow
  exact absurd (heldEdge_forgotten.symm.trans (hrest.same_edgeNom (by simp))) (by decide +kernel)

end Sys2Proof.Proofs

/-! The last slot that leaves a die-link module which RETIRE_UNIT names retires the module (R381, R468), which the statement on slots that move
leaves out. -/

namespace Sys2Proof.Proofs

-- One evaluation after another: side by side each keeps a thread and its stack while it waits for the kernel.
set_option Elab.async false

open Sys2Proof.Machine Sys2Proof.Claims

/-- RETIRE_UNIT of module 0 waits while slot 0, the last one, moves to module 1. -/
def lastSlot : State := (Eff.all [put (R.DL_STATUS_state 0 0) 2, put (R.DL_STATUS_state 0 1) 2,
  Eff.each (List.range 3) fun i => putReg (R.DL_HASH 0 i) 0x1111111111111111, .upd (.retirePend [(0, 2, 0)]),
  .upd (.dlMoves [(0, 0, 0, 1)])]).run State.reset

theorem lastSlot_retires : ((slotMoveComplete 0 0).run lastSlot).retirePend = [] := by decide +kernel

/-- Refutes O42: the move of the slot ends the retirement that waited for it. -/
theorem not_dieLinks : ¬ Obligations.DieLinks := by
  intro ⟨_, hmodules⟩
  have hpow : lastSlot.power ≠ .off := by decide
  obtain ⟨-, -, -, -, hmove, -⟩ := hmodules .mgmt 0 0 0 0 lastSlot hpow
  have hmoved := hmove (0, 0, 0, 1) (by decide +kernel) (by decide +kernel) (by decide +kernel) (by decide +kernel) (by decide +kernel)
  obtain ⟨-, hrest⟩ := post_of_yields hmoved rfl hpow
  exact absurd (lastSlot_retires.symm.trans (hrest.same_retirePend (by simp))) (by decide +kernel)

end Sys2Proof.Proofs

/-! The last report at the master that clears has its next edge stretched (R49, R57), which is noted for the edge. -/

namespace Sys2Proof.Proofs

-- One evaluation after another: side by side each keeps a thread and its stack while it waits for the kernel.
set_option Elab.async false

open Sys2Proof.Machine Sys2Proof.Claims

/-- A sound packet of module 1 of the group on link 0. -/
def peerHdr : GwHdr := ⟨0, 0, 0, 1, 0, 0, .good⟩

/-- A master whose tide runs, with a report of module 1, on whose link 0 packets come. -/
def lastReport : State := (Eff.all [putRegBit R.GWL_UP 0 true, putBit (R.GWL_PEER_valid 1) true, put R.TIDE_CTRL_role 1,
  put R.TIDE_STATUS_state 1, put R.TIDE_PERIOD_cutoff_us 5, .upd (.reports [1])]).run State.reset

theorem lastReport_stretches : ((gwPacket peerHdr 7 2 0 []).run lastReport).stretchFor = 1 := by decide +kernel

/-- Refutes O43: the OVERRUN that clears the report marks the next edge as stretched. -/
theorem not_glewawinPackets : ¬ Obligations.GlewawinPackets := by
  intro h
  have hpow : lastReport.power ≠ .off := by decide
  obtain ⟨-, -, -, -, -, -, -, hoverrun⟩ := h peerHdr 0 0 [] 0 0 0 0 0 0 false 0 lastReport
  have hcomes : Claims.arrives peerHdr 2 lastReport := by
    unfold Claims.arrives
    decide +kernel
  obtain ⟨-, -, -, -, hrest⟩ := post_of_yields (hoverrun hcomes (by decide +kernel)) rfl hpow
  exact absurd (lastReport_stretches.symm.trans (hrest.same_stretchFor (by simp [gwParts]))) (by decide +kernel)

end Sys2Proof.Proofs

/-! A read of the feeder's page counts the clocks of the array up to its time before the page refuses it (R113), which the statement on refused
reads leaves out. -/

namespace Sys2Proof.Proofs

-- One evaluation after another: side by side each keeps a thread and its stack while it waits for the kernel.
set_option Elab.async false

open Sys2Proof.Machine Sys2Proof.Claims

/-- A microsecond has gone by since the latest count. -/
def microsecondOn : State := (Upd.now 1000).run State.reset

theorem microsecondOn_counts : ((registerRead .mgmt (.page 2 1) 4).run microsecondOn).feedAtAt 0 = 1000 := by decide +kernel

/-- Refutes O45: a misaligned read of cell 0's feeder has the clocks counted. -/
theorem not_registerAccesses : ¬ Obligations.RegisterAccesses := by
  intro ⟨_, hreads⟩
  have hpow : microsecondOn.power ≠ .off := by decide
  obtain ⟨-, -, -, -, hrefused⟩ := hreads .mgmt (.page 2 1) 2 1 4 microsecondOn ⟨rfl, rfl⟩ hpow fun h => absurd h (by decide)
  obtain ⟨-, hrest⟩ := post_of_yields (hrefused (by decide) (by decide)) rfl hpow
  have hsame : ((registerRead .mgmt (.page 2 1) 4).run microsecondOn).feedAtAt 0 = microsecondOn.feedAtAt 0 :=
    congrArg (fun m => Map.get dfltFeedAt m 0) (hrest.same_feedAt (by simp))
  exact absurd (microsecondOn_counts.symm.trans hsame) (by decide)

end Sys2Proof.Proofs

/-! A window of no length ends as soon as it begins (R461): each poll then opens a new one, at whose time the old one has begun. -/

namespace Sys2Proof.Proofs

-- One evaluation after another: side by side each keeps a thread and its stack while it waits for the kernel.
set_option Elab.async false

open Sys2Proof.Machine Sys2Proof.Claims

/-- The poll passes over a unit that has counted nothing. -/
theorem cePollUnit_idle {s : State} {cls u : Nat} (h : ceSum s cls u = 0) : (cePollUnit cls u).run s = s := by
  rw [ceSum, List.sum_eq_foldl, List.foldl_map] at h
  simp [cePollUnit, h]

theorem cePollUnits_idle {s : State} {cls : Nat} {us : List Nat} (h : ∀ u ∈ us, ceSum s cls u = 0) :
    (Eff.each us fun u => cePollUnit cls u).run s = s := by
  induction us with
  | nil => rfl
  | cons u rest ih =>
    rw [Eff.run_each_cons, cePollUnit_idle (h u List.mem_cons_self), ih fun v hv => h v (List.mem_cons_of_mem _ hv)]

theorem cePollClasses_idle {s : State} {classes : List Nat} (h : ∀ cls ∈ classes, ∀ u ∈ List.range (ceUnits cls), ceSum s cls u = 0) :
    (Eff.each classes fun cls => Eff.each (List.range (ceUnits cls)) fun u => cePollUnit cls u).run s = s := by
  induction classes with
  | nil => rfl
  | cons cls rest ih =>
    rw [Eff.run_each_cons, cePollUnits_idle (h cls List.mem_cons_self), ih fun c hc => h c (List.mem_cons_of_mem _ hc)]

theorem run_each_append {α : Type} (xs ys : List α) (f : α → Eff) (s : State) :
    (Eff.each (xs ++ ys) f).run s = (Eff.each ys f).run ((Eff.each xs f).run s) := by
  induction xs generalizing s with
  | nil => rfl
  | cons x rest ih => rw [List.cons_append, Eff.run_each_cons, Eff.run_each_cons, ih]

/-- The firmware runs, the windows of the links' counters have no length, link 0 has counted an error, its account has warned in a window that
begins at the next poll, and the event of a crossing goes to the management port. -/
def noWindow : State := (Eff.all [put (R.FW_CORE_state 0) 1, put (R.SVC_CE_CFG_window_s 6) 0, put (R.SVC_CE_CFG_warn 6) 1,
  put (R.SVC_CE_CFG_replace 6) 100, put (R.GWL_LINK_ERR_uncorrectable 0) 1, putBit (R.EVC_ROUTE_mgmt 0x7C0) true,
  .upd (.ceCount (6 * 65536) ⟨10000001, 5, 5, true, false⟩)]).run State.reset

/-- The time of the poll has come. -/
def noWindowAt : State := (reachTime 10000000).run noWindow

/-- Link 0 has been polled. -/
def noWindowPolled : State := (cePollUnit 6 0).run noWindowAt

theorem noWindowAt_alone : ∀ cls ∈ List.range 6, ∀ u ∈ List.range (ceUnits cls), ceSum noWindowAt cls u = 0 := by decide +kernel

theorem noWindowPolled_rest : ∀ u ∈ List.range' 1 47, ceSum noWindowPolled 6 u = 0 := by decide +kernel

theorem noWindow_polled : cePoll.run noWindow = noWindowPolled := by
  have htime : (noWindow.now / 10000000 + 1) * 10000000 = 10000000 := by decide +kernel
  rw [cePoll, Eff.run_look, show noWindow.fwRuns = true by decide +kernel, Eff.run_when_true, Eff.run_seq, htime, ← noWindowAt,
    show List.range 7 = List.range 6 ++ [6] from rfl, run_each_append, cePollClasses_idle noWindowAt_alone, Eff.run_each_cons,
    show List.range (ceUnits 6) = 0 :: List.range' 1 47 from rfl, Eff.run_each_cons, ← noWindowPolled,
    cePollUnits_idle noWindowPolled_rest, Eff.run_each_nil]

theorem noWindow_tells : noWindowPolled.mgmtQ ≠ [] := by decide +kernel

theorem noWindow_alone : ∀ cls < 7, ∀ u < ceUnits cls, ceSum noWindow cls u ≠ 0 → cls = 6 ∧ u = 0 := by decide +kernel

theorem noWindow_account : noWindow.ceCountAt (6 * 65536 + 0) = ⟨10000001, 5, 5, true, false⟩ := by decide +kernel

/-- The poll's new window begins where the account's own did, with its warning standing: no new crossing. -/
theorem noWindow_next : ceNext noWindow ((noWindow.now / 10000000 + 1) * 10000000) 6 0 (ceSum noWindow 6 0)
    = ⟨10000001, 1, 6, true, false⟩ := by decide +kernel

/-- Refutes O51: `CorrectedErrorPoll` says that a poll without a new crossing tells nobody, and takes a crossing for new when the record warned
of none before or its window began at another time. In a window of no length (R461) a poll begins a new one at its own time; when the account's
window began then too, the fresh crossing looks like the old one, and its event still reaches the management port. -/
theorem not_testsAndErrorPolls : ¬ Obligations.TestsAndErrorPolls := by
  unfold Obligations.TestsAndErrorPolls
  rintro ⟨-, h⟩
  have hpow : noWindow.power ≠ .off := by decide +kernel
  obtain ⟨-, -, hquiet⟩ := post_of_yields ((h noWindow hpow).1 (by decide +kernel)) rfl hpow
  obtain ⟨-, hrest⟩ := hquiet (by
    rintro cls hcls u hu ⟨⟨-, hsum⟩, hcross⟩
    obtain ⟨rfl, rfl⟩ := noWindow_alone cls hcls u hu hsum
    rw [noWindow_next, noWindow_account] at hcross
    simp at hcross)
  have hsame := hrest.same_mgmtQ (by simp)
  exact absurd (noWindow_polled ▸ hsame) noWindow_tells

end Sys2Proof.Proofs

/-! The feeder's writes show the credits of the drain's output rows too (R125). -/

namespace Sys2Proof.Proofs

-- One evaluation after another: side by side each keeps a thread and its stack while it waits for the kernel.
set_option Elab.async false

open Sys2Proof.Machine Sys2Proof.Claims

/-- The drain of cell 0 has lent out its output-row credits, and its queue is empty. -/
def creditsLent : State := (put (R.DRN_STATUS_out_credits 0) 0).run State.reset

theorem feedEnable_returns_credits :
    ((runAct (.core 0) (actFeedEnable (.core 0) 0 true)).run creditsLent).get (R.DRN_STATUS_out_credits 0) = 32 := by
  decide +kernel

/-- Refutes O19: the frame of the enable names FEED_CTRL, FEED_STATUS and the feeder's counters. The feeder then shows its queue, and with no
last pass in the array that includes the 32 free output-row credits in DRN_STATUS (R125), which that frame leaves out. -/
theorem not_feedControl : ¬ Obligations.FeedControl := by
  unfold Obligations.FeedControl
  intro h
  have hw : writable (.core 0) ((0 : Fin 128) * 16 + 2) 0 creditsLent := ⟨by decide +kernel, by decide +kernel, by decide +kernel⟩
  obtain ⟨-, -, -, hkeep, -⟩ := post_of_yields (h (.core 0) 0 true creditsLent hw).1 rfl hw.1
  have hsame := keepsRegs_get hkeep (f := R.DRN_STATUS_out_credits 0) (by decide +kernel)
  exact absurd (feedEnable_returns_credits.symm.trans hsame) (by decide +kernel)

end Sys2Proof.Proofs

/-! FEED_ISSUE shows the credits of the drain's output rows too (R125). -/

namespace Sys2Proof.Proofs

-- One evaluation after another: side by side each keeps a thread and its stack while it waits for the kernel.
set_option Elab.async false

open Sys2Proof.Machine Sys2Proof.Claims

/-- The feeder of cell 0 runs, the drain has lent out its output-row credits, and a descriptor of one activation row stands at offset 0. -/
def oneRow : State := (Eff.all [put (R.DRN_STATUS_out_credits 0) 0, putBit (R.FEED_CTRL_enable 0) true, put (ownFld 0 0) 6,
  .upd (.mem (sramAddr 0 0 + 6) 1)]).run State.reset

theorem feedIssue_returns_credits :
    ((runAct (.core 0) (actFeedIssue (.core 0) 0 0 false)).run oneRow).get (R.DRN_STATUS_out_credits 0) = 32 := by
  decide +kernel

/-- Refutes O16: the frame of a pass that FEED_ISSUE queues names FEED_STATUS and the feeder's counters. The feeder then shows its queue, and
with no last pass in the array that includes the 32 free output-row credits in DRN_STATUS (R125), which that frame leaves out. -/
theorem not_seqCompoundIssue : ¬ Obligations.SeqCompoundIssue := by
  intro ⟨_, h⟩
  have hw : writable (.core 0) ((0 : Fin 128) * 16 + 2) 0x10 oneRow := ⟨by decide +kernel, by decide +kernel, by decide +kernel⟩
  obtain ⟨hfeed, -⟩ := h (.core 0) 0 0 oneRow
  obtain ⟨hqueued, -⟩ := hfeed hw (by decide) (by unfold sramReady; decide +kernel)
  obtain ⟨-, -, hkeep, -⟩ := post_of_yields (hqueued (by decide +kernel) (by decide +kernel) (by decide +kernel)) rfl hw.1
  have hsame := keepsRegs_get hkeep (f := R.DRN_STATUS_out_credits 0) (by decide +kernel)
  exact absurd (feedIssue_returns_credits.symm.trans hsame) (by decide +kernel)

end Sys2Proof.Proofs

/-! A service command has no program to start at its entry (R209). -/

namespace Sys2Proof.Proofs

-- One evaluation after another: side by side each keeps a thread and its stack while it waits for the kernel.
set_option Elab.async false

open Sys2Proof.Machine Sys2Proof.Claims

/-- A service command whose block names entry 1. -/
def serviceAt1 : BuCmd := ⟨0, 1, 4, 0, 0, 0, [], none, 0, false, false, false, false, none, none⟩

/-- It waits at unit 0, whose program counter is 0. -/
def serviceWaits : State := (Eff.upd (.buQ 0 [serviceAt1])).run State.reset

theorem service_keeps_pc : ((buCommandStart 0).run serviceWaits).buPc 0 = 0 := by decide +kernel

/-- Refutes O27: the statement takes a service command to its entry too. Only a program starts at one; a service command leaves the program
counter as it is. -/
theorem not_unitControl : ¬ Obligations.UnitControl := by
  intro ⟨_, h⟩
  have hpow : serviceWaits.power ≠ .off := by decide +kernel
  obtain ⟨hstart, -⟩ := h (.core 0) 0 serviceWaits
  obtain ⟨-, -, hpc, -⟩ := post_of_yields
    (hstart serviceAt1 [] hpow (by decide +kernel) (by decide +kernel) rfl (.inl (by decide)) (by decide)) rfl hpow
  exact absurd (service_keeps_pc.symm.trans hpc) (by decide)

end Sys2Proof.Proofs

/-! A warm reset while the tide runs leaves a record of the work that it aborts (R55, R436). -/

namespace Sys2Proof.Proofs

-- One evaluation after another: side by side each keeps a thread and its stack while it waits for the kernel.
set_option Elab.async false

open Sys2Proof.Machine Sys2Proof.Claims

/-- The module is ready, its tide runs, and a reset is due. -/
def tideAtReset : State := (Eff.all [.upd (.power .on), .upd (.ready true), put R.TIDE_STATUS_state 1,
  .upd (.resetAt (some 0))]).run State.reset

theorem warmReset_records_abort : (warmResetDue.run tideAtReset).dispatchLog ≠ [] := by decide +kernel

/-- Refutes O56: the statement keeps the dispatch log through the warm reset of a module that is ready. When its tide runs, the reset first
writes the record of the aborted work (R436). -/
theorem not_powerAndReset : ¬ Obligations.PowerAndReset := by
  intro h
  have hpow : tideAtReset.power ≠ .off := by decide +kernel
  obtain ⟨-, -, -, hreset, -⟩ := h tideAtReset
  obtain ⟨-, hready, -⟩ := hreset 0 hpow (by decide +kernel)
  obtain ⟨-, -, hlog⟩ := post_of_yields (hready (by decide +kernel) (.inl (by decide +kernel)) (by decide +kernel)) rfl hpow
  exact warmReset_records_abort (hlog.trans (by decide +kernel))

end Sys2Proof.Proofs

/-! A stop of stage S0 leaves READY as it is (R418): the statement's state has it set although the module powers up. -/

namespace Sys2Proof.Proofs

-- One evaluation after another: side by side each keeps a thread and its stack while it waits for the kernel.
set_option Elab.async false

open Sys2Proof.Machine Sys2Proof.Claims

/-- Stage S0 of a module whose READY bit is set. -/
def readyInS0 : State := (Eff.upd (.ready true)).run State.reset

theorem stageS0_keeps_ready : ((stageS0 0 0 none 0).run readyInS0).ready = true := by decide +kernel

/-- Refutes O57: the statement has a stage that stops leave a module that is not READY, and takes every state whose power is in S0. The stop of
S0 at a bad input voltage does not write READY. -/
theorem not_bringUp : ¬ Obligations.BringUp := by
  intro ⟨h, _⟩
  have hpow : readyInS0.power ≠ .off := by decide +kernel
  obtain ⟨hS0, -⟩ := h 0 0 0 0 0 none none none readyInS0
  have htime : inTime readyInS0 0 0 := by
    refine ⟨by decide +kernel, by decide +kernel, fun e he => ?_, by decide +kernel⟩
    have hwork : workEnds readyInS0 0 = 0 := by decide +kernel
    exact hwork ▸ Nat.zero_le e
  obtain ⟨hvolts, -⟩ := hS0 htime
  obtain ⟨-, -, hready, -⟩ := post_of_yields (hvolts (.inl (by decide))) rfl hpow
  exact absurd (stageS0_keeps_ready.symm.trans hready) (by decide)

end Sys2Proof.Proofs

/-! A descriptor that the shared cache fetches may push a dirty line back to memory before the packet's bytes are read (R273). -/

namespace Sys2Proof.Proofs

-- One evaluation after another: side by side each keeps a thread and its stack while it waits for the kernel.
set_option Elab.async false

open Sys2Proof.Machine Sys2Proof.Claims

/-- A dirty line of the cache that belongs at address 0. -/
def strayLine : ScLine := ⟨0, true, none, List.replicate 128 0xFF, List.replicate 16 .good⟩

/-- Transfer queue 0 is idle with its ring at the bottom of the external memory; the first descriptor there sends the 8 bytes at address 0 to
module 1. The set of the cache in which the descriptor's line belongs is full of dirty lines of address 0. -/
def strayFull : State := (Eff.all [put (R.GWL_XQ_BASE_base 0) 0x40000000, put (R.GWL_XQ_BASE_size_log2 0) 1,
  put R.GWL_GROUP_group_size 2, putBit (R.GWL_PEER_valid 1) true, putBit (R.GWL_PEER_reachable 1) true,
  putRegBit R.GWL_UP 0 true, put (R.GWL_LINK_STATUS_weight 0) 1,
  .upd (.mem 0x1000000000 1), .upd (.mem 0x1000000002 1), .upd (.mem 0x1000000018 8),
  .upd (.cache (setKey 0x1000000000) (List.replicate 16 strayLine))]).run State.reset

theorem stray_payload : ((runAct (.core 0) (actXqCtrl (.core 0) (0 : Fin 8) (1 : BitVec 12).toNat)).run strayFull).gwOut.map (fun p => p.payload)
    = [List.replicate 8 0xFF] := by decide +kernel

theorem strayFull_served : cacheReady strayFull 0x1000000000 64 := by
  refine ⟨by decide +kernel, by decide +kernel, by decide, by decide, by decide +kernel, by decide +kernel, .inr (by decide),
    by decide +kernel, ?_⟩
  rw [show strayFull.line 0x1000000000 = none by decide +kernel]
  exact fun w hw => ⟨decode_clean (by decide +kernel) w, by
    revert w; decide +kernel⟩

theorem strayFull_source : memReady strayFull (.core 0) 0 8 :=
  memReady_clean (v := 0) (by decide +kernel) (by decide) (by decide) (by decide +kernel) (by decide +kernel) (by decide +kernel) (by decide +kernel)

/-- Refutes O44: the statement has the packet carry the bytes that stood at the source before. The descriptor is read through the shared cache,
whose victim is written back first (R273); a dirty line of the source's address then changes those bytes. -/
theorem not_glewawinLinksQueues : ¬ Obligations.GlewawinLinksQueues := by
  intro ⟨_, _, h⟩
  have hw : writable (.core 0) 0x10A0 (0x808 + (0 : Fin 8) * 0x20) strayFull := ⟨by decide +kernel, by decide +kernel, by decide +kernel⟩
  obtain ⟨htail, -⟩ := h (.core 0) 0 1 0 strayFull hw
  have hslot : strayFull.xqSlot (0 : Fin 8) (strayFull.get (R.GWL_XQ_STATUS_head (0 : Fin 8))) = 0x1000000000 := by decide +kernel
  rw [hslot] at htail
  have hdesc : leAt (servedBytes strayFull 0x1000000000 64) 8 8 = 0 := by decide +kernel
  have hlen : leAt (servedBytes strayFull 0x1000000000 64) 24 8 = 8 := by decide +kernel
  obtain ⟨-, -, -, p, hout, -, -, -, -, -, -, -, hpayload⟩ := post_of_yields
    (htail (by decide +kernel) (by decide +kernel) (by decide +kernel) (by decide) strayFull_served
      ⟨by decide +kernel, by decide +kernel, by decide +kernel, by decide +kernel, by rw [hdesc, hlen]; exact strayFull_source⟩) rfl hw.1
  have hsent := stray_payload
  rw [hout, show strayFull.gwOut = [] by decide +kernel, List.nil_append, List.map_singleton, hpayload, hdesc, hlen] at hsent
  exact absurd hsent (by decide +kernel)

end Sys2Proof.Proofs

/-! A block address that is not a multiple of 64 is no value of BU_SUBMIT (R210). -/

namespace Sys2Proof.Proofs

-- One evaluation after another: side by side each keeps a thread and its stack while it waits for the kernel.
set_option Elab.async false

open Sys2Proof.Machine Sys2Proof.Claims

/-- The module has power and its first cell is in use. -/
def submitState : State := (Eff.upd (.power .on)).run State.reset

theorem submit_misaligned :
    ((runAct (.core 0) (actBuSubmit (.core 0) (0 : Fin 1024) (1 : BitVec 48).toNat)).run submitState).get (R.BU_STATUS_last_status 0 0) = ST_ALIGN := by
  decide +kernel

/-- BU_SUBMIT of unit 0, the value that the statement writes for the address 1, and the command of that address. -/
def submitRow : Nat × Nat × Nat × Instr := (9, 0x18, 0, .buSubmit (.core 0) 0 1)

theorem submit_written :
    ((registerWrite (.core 0) (.page (BitVec.ofNat 16 submitRow.1) (BitVec.ofNat 16 submitRow.2.1)) (toLE 8 submitRow.2.2.1)).run
      submitState).get (R.BU_STATUS_last_status 0 0) = ST_BU_MODE := by
  decide +kernel

/-- Refutes O46: for BU_SUBMIT the statement compares the command of any block address with the register write of the 64-byte block below it.
A command whose address is not aligned records ST_ALIGN (R210), and the write submits that block. -/
theorem not_registerCommands : ¬ Obligations.RegisterCommands := by
  intro ⟨h, _⟩
  have hpow : submitState.power ≠ .off := by decide +kernel
  obtain ⟨st, rest, hwrite⟩ := h (.core 0) 0 0 0 0 0 0 0 0 1 submitState submitRow (by simp [submitRow]) hpow (by simp) (by decide +kernel)
  obtain ⟨-, z, hz, heq⟩ := post_of_yields hwrite rfl hpow
  have hregs := congrArg State.regs heq
  dsimp only at hregs
  have hstatus := post_of_yields (i := .buSubmit (.core 0) 0 1) (post := fun z => z.get (R.BU_STATUS_last_status 0 0) = ST_BU_MODE)
    ⟨z, hz, (congrFun (get_of_regs hregs).1 _).trans submit_written⟩ rfl hpow
  exact absurd (submit_misaligned.symm.trans hstatus) (by decide)

end Sys2Proof.Proofs

/-! The tamper inputs, and the heartbeat of core 0 (R425, R435). -/

namespace Sys2Proof.Proofs
open Sys2Proof.Machine Sys2Proof.Claims

/-! The message of a firing (R510) -/

theorem mgmtEvent_out (src : Nat) (s : State) :
    ((mgmtEvent src).run s).out = .mgmtEvent src (s.get R.TIDE_EDGE_NUM_edge) :: s.out := by
  rw [mgmtEvent, Eff.run_look, Eff.run_all_cons, Eff.run_all_cons, Eff.run_all_nil]
  rfl

theorem regs_out_mem {o : Out} {p : Eff} (hp : p.In [.regs]) {s : State} (h : o ∈ s.out) : o ∈ (p.run s).out :=
  ((hp.changes s).same_out (by simp)).symm ▸ h

/-- The watcher takes back nothing that the module has sent. -/
theorem watcherSee_out {o : Out} (src : Nat) {s : State} (h : o ∈ s.out) : o ∈ ((watcherSee src).run s).out := by
  have hput : ∀ f x, (put f x).In [.regs] := fun f x => put_in f x (List.Subset.refl _)
  rw [watcherSee, Eff.run_look]
  split
  · exact h
  · dsimp only
    split
    · exact h
    · simp only [Eff.run_all_cons, Eff.run_all_nil, putBit]
      have hkept := fun b b' f x y z i w => regs_out_mem (Eff.in_when (b := b) (Eff.in_all_cons (hput R.PWR_STATE_pending x)
        (Eff.in_all_cons (hput R.PWR_STATE_wake_cause y) Eff.in_all_nil))) (regs_out_mem (Eff.in_when (b := b')
          (addSat_in f z (List.Subset.refl _))) (regs_out_mem (hput R.AOW_WAKE_woke w) (regs_out_mem (hput R.AOW_WAKE_slot i) h)))
      rw [Eff.run_when]
      split
      · rw [mgmtEvent_out]
        exact List.mem_cons_of_mem _ (hkept ..)
      · exact hkept ..

/-- A source that always goes to the management port sends its message with the edge number. -/
theorem evFire_message {src : Nat} (hl : srcListed src = true) (ha : mgmtAlways src = true) (s : State) :
    Out.mgmtEvent src (s.get R.TIDE_EDGE_NUM_edge) ∈ ((evFire src).run s).out := by
  have hat : ∀ d (u : State), ((evFireAt d src).run u).get R.TIDE_EDGE_NUM_edge = u.get R.TIDE_EDGE_NUM_edge := fun d u =>
    congrArg R.TIDE_EDGE_NUM_edge.read (evFireAt_regsAt (ne_of_lt (lt_of_lt_of_le (by decide) (pendReg_page (srcListed_lt hl) d).1))
      (by decide) u)
  simp only [evFire, Eff.run_look, Eff.run_all_cons, Eff.run_all_nil, hl, ha, Bool.or_true, Eff.run_when_true]
  refine watcherSee_out src ?_
  rw [mgmtEvent_out, hat, hat, hat, Eff.run_when]
  split
  · rw [get_addSat_apart (.inl (by decide)) (by decide), get_addSat_apart (.inl (by decide)) (by decide)]
    exact List.mem_cons_self
  · rw [get_addSat_apart (.inl (by decide)) (by decide)]
    exact List.mem_cons_self

theorem tells_event : tells [.msix, .mgmtQ, .out] := by simp [tells]

theorem evFire_eventsOnly (src : Nat) (s : State) : eventsOnly s ((evFire src).run s) :=
  ⟨within_keepsQuiet (evFire_within src tells_event) s, (evFire_in src).changes s⟩

/-! The wipe -/

theorem secureWipe_wiped (s : State) : wiped s (secureWipe.run s) := by
  rw [secureWipe]
  simp only [Eff.run_all_cons, Eff.run_all_nil, Eff.run_upd, putBit]
  have hregs : ∀ {p : Eff}, p.In [.regs] → ∀ u : State, (p.run u).pmKey = u.pmKey := fun hp u => (hp.changes u).same_pmKey (by simp)
  have hkeys : ∀ p x, ((put R.LCY_STATE_keys_loaded x).run ((addSat R.LCY_STATE_wipes 1).run
      ((Upd.pmKey 1 []).run ((Upd.pmKey 0 []).run s)))).pmKeyAt p = ((Upd.pmKey 1 []).run ((Upd.pmKey 0 []).run s)).pmKeyAt p := fun p x => by
    rw [State.pmKeyAt, hregs (put_in _ _ (by simp)), hregs (addSat_in _ _ (by simp)), State.pmKeyAt]
  refine ⟨(hkeys 0 _).trans ?_, (hkeys 1 _).trans (Upd.run_pmKey_same ..), bit_putBit _ (by decide) rfl _ _,
    (get_put_apart (.inr (.inr (by decide))) (by decide) _ _).trans (addSat_same _ _ _ (by decide))⟩
  rw [Upd.run_pmKey_other _ _ (by decide)]
  exact Upd.run_pmKey_same ..

theorem secureWipe_within {ps : List Part} {K : Nat → Prop} (hps : Part.pmKey ∈ ps) (hK : K R.LCY_STATE) :
    secureWipe.Only (Upd.within ps K) := by
  simp only [secureWipe, Eff.only_all_cons, Eff.only_all_nil, Eff.only_upd, within_addSat, within_putBit, and_true]
  exact ⟨hps, hps, hK, hK⟩

theorem secureWipe_state (s : State) : (secureWipe.run s).get R.LCY_STATE_state = s.get R.LCY_STATE_state := by
  rw [secureWipe]
  simp only [Eff.run_all_cons, Eff.run_all_nil, Eff.run_upd]
  exact (get_put_apart (.inr (.inr (by decide))) (by decide) _ _).trans
    ((get_addSat_apart (.inr (.inr (by decide))) (by decide) _ _).trans
      ((get_upd (by simp [Upd.part]) _ _).trans (get_upd (by simp [Upd.part]) _ _)))

/-- Two states that agree on the keys and on the lifecycle register are wiped alike. -/
theorem wiped_congr {s s' t t' : State} (hs : s'.get R.LCY_STATE_wipes = s.get R.LCY_STATE_wipes) (hkeys : t'.pmKey = t.pmKey)
    (hreg : t'.regsAt R.LCY_STATE = t.regsAt R.LCY_STATE) (h : wiped s t) : wiped s' t' := by
  obtain ⟨h0, h1, hloaded, hwipes⟩ := h
  refine ⟨by rwa [State.pmKeyAt, hkeys], by rwa [State.pmKeyAt, hkeys], ?_, ?_⟩
  · rwa [State.bit, State.get, show R.LCY_STATE_keys_loaded.key = R.LCY_STATE from rfl, hreg]
  · rw [State.get, show R.LCY_STATE_wipes.key = R.LCY_STATE from rfl, hreg, hs]
    exact hwipes

/-! A detection -/

/-- What a detection through the latch bit `f` leaves. -/
def tamperLeaves (f : Fld) (s t : State) : Prop :=
  wiped s t ∧ t.tampered = true ∧ t.bit f = true ∧
  t.get R.EVC_COUNTS_fired = min (s.get R.EVC_COUNTS_fired + 1) (2 ^ R.EVC_COUNTS_fired.w - 1) ∧
  (∀ d < 3, s.evRouted d 0x70B = true → t.evPending d 0x70B = true) ∧
  Out.mgmtEvent 0x70B (s.get R.TIDE_EDGE_NUM_edge) ∈ t.out ∧ t.get R.LCY_STATE_state = s.get R.LCY_STATE_state ∧
  keepsQuiet [R.LCY_STATE, R.LCY_TAMPER] s t ∧ changesOnly [.regs, .pmKey, .tampered, .msix, .mgmtQ, .out] s t

/-- The wipe and the latch of a detection, before its source fires. -/
def tamperLatch (f : Fld) : Eff := .all [secureWipe, .upd (.tampered true), putBit f true]

/-- The other bits of the tamper register stay. -/
theorem tamper_get {f g : Fld} (hg : g.key = R.LCY_TAMPER) (h : apart f g) (hlo : g.lo + g.w ≤ 64) (s : State) :
    ((tamper f).run s).get g = s.get g := by
  simp only [tamper, Eff.run_all_cons, Eff.run_all_nil, Eff.run_upd]
  rw [get_evFire (by rw [hg]; decide), putBit, get_put_apart h hlo, get_upd (by simp [Upd.part]),
    within_get (K := fun k => k = R.LCY_STATE) (secureWipe_within (ps := [.pmKey]) (by simp) rfl) s (by rw [hg]; decide)]

section
variable {f : Fld} (hkey : f.key = R.LCY_TAMPER)
include hkey

theorem tamperLatch_within : (tamperLatch f).Only (Upd.within [.pmKey, .tampered] (oneOf [R.LCY_STATE, R.LCY_TAMPER])) := by
  simp only [tamperLatch, Eff.only_all_cons, Eff.only_all_nil, Eff.only_upd, within_putBit, and_true, hkey]
  exact ⟨secureWipe_within (by simp) (by simp [oneOf]), by simp [Upd.within, Upd.part], by simp [oneOf]⟩

theorem tamperLatch_leaves (hlo : f.lo + f.w ≤ 64) (hw : f.w = 1) (s : State) :
    wiped s ((tamperLatch f).run s) ∧ ((tamperLatch f).run s).tampered = true ∧ ((tamperLatch f).run s).bit f = true ∧
    ((tamperLatch f).run s).get R.LCY_STATE_state = s.get R.LCY_STATE_state := by
  have hrun : (tamperLatch f).run s = (putBit f true).run ((Upd.tampered true).run (secureWipe.run s)) := by
    simp only [tamperLatch, Eff.run_all_cons, Eff.run_all_nil, Eff.run_upd]
  have hwiped := secureWipe_wiped s
  have hstate := secureWipe_state s
  rw [hrun]
  generalize secureWipe.run s = u at hwiped hstate
  have hreg : ((putBit f true).run ((Upd.tampered true).run u)).regsAt R.LCY_STATE = u.regsAt R.LCY_STATE :=
    (put_other (by rw [hkey]; decide) _ _).trans (regsAt_upd (by simp [Upd.part]) _ _)
  have hregs : changesOnly [.regs] ((Upd.tampered true).run u) ((putBit f true).run ((Upd.tampered true).run u)) :=
    (put_in _ _ (by simp)).changes _
  have hkeys := (hregs.same_pmKey (by simp)).trans
    (((Eff.in_upd (u := .tampered true) List.mem_cons_self).changes u).same_pmKey (ps := [.tampered]) (by simp))
  exact ⟨wiped_congr rfl hkeys hreg hwiped, (hregs.same_tampered (by simp)).trans (Upd.run_tampered ..), bit_putBit f hlo hw true _,
    (congrArg R.LCY_STATE_state.read hreg).trans hstate⟩

theorem tamper_leaves (hlo : f.lo + f.w ≤ 64) (hw : f.w = 1) (s : State) : tamperLeaves f s ((tamper f).run s) := by
  have hrun : (tamper f).run s = (evFire 0x70B).run ((tamperLatch f).run s) := by
    simp only [tamper, tamperLatch, Eff.run_all_cons, Eff.run_all_nil]
  obtain ⟨hwiped, htampered, hlatch, hstate⟩ := tamperLatch_leaves hkey hlo hw s
  have hin : ∀ k, ¬ oneOf [R.LCY_STATE, R.LCY_TAMPER] k → ((tamperLatch f).run s).regsAt k = s.regsAt k := fun _ =>
    within_regsAt (tamperLatch_within hkey) s
  have hps := within_changes (tamperLatch_within hkey) s
  generalize (tamperLatch f).run s = u at hrun hwiped htampered hlatch hstate hin hps
  obtain ⟨hquiet, hparts⟩ := evFire_eventsOnly 0x70B u
  rw [hrun]
  have hlcy := hquiet R.LCY_STATE (.inr (by decide)) (by decide) List.not_mem_nil
  have hcount : u.get R.EVC_COUNTS_fired = s.get R.EVC_COUNTS_fired := congrArg R.EVC_COUNTS_fired.read
    (hin _ (show R.EVC_COUNTS ∉ [R.LCY_STATE, R.LCY_TAMPER] by decide))
  have hedge : u.get R.TIDE_EDGE_NUM_edge = s.get R.TIDE_EDGE_NUM_edge := congrArg R.TIDE_EDGE_NUM_edge.read
    (hin _ (show R.TIDE_EDGE_NUM ∉ [R.LCY_STATE, R.LCY_TAMPER] by decide))
  refine ⟨wiped_congr rfl (hparts.same_pmKey (by simp)) hlcy hwiped, (hparts.same_tampered (by simp)).trans htampered, ?_,
    (evFire_fired _ u).trans (by rw [hcount]), fun d hd hroute => ?_, ?_, (congrArg R.LCY_STATE_state.read hlcy).trans hstate,
    fun k hfar hpwr hk => (hquiet k hfar hpwr List.not_mem_nil).trans (hin k hk),
    changesOnly_trans (changesOnly_mono (by simp) hps) (changesOnly_mono (by simp) hparts)⟩
  · rwa [State.bit, State.get, hkey, hquiet R.LCY_TAMPER (.inr (by decide)) (by decide) List.not_mem_nil, ← hkey]
  · rw [evFire_pending (by decide) hd, evRouted_congr (hin _ (show R.EVC_ROUTE 0x70B ∉ [R.LCY_STATE, R.LCY_TAMPER] by decide)),
      hroute, Bool.or_true]
  · rw [← hedge]
    exact evFire_message (by decide) (by decide) u

end

/-! The open enclosure -/

/-- The input level of the enclosure's loop changes no other register, and no other bit of its own. -/
theorem inputLevel_leaves (b : Bool) (s : State) :
    ((putBit R.LCY_TAMPER_input_level b).run s).bit R.LCY_TAMPER_input_level = b ∧
    keepsRegs [R.LCY_TAMPER] s ((putBit R.LCY_TAMPER_input_level b).run s) ∧
    changesOnly [.regs] s ((putBit R.LCY_TAMPER_input_level b).run s) :=
  ⟨bit_putBit _ (by decide) rfl b s, within_keepsRegs (ps := []) ((within_putBit _ _).2 (by simp [oneOf, R.LCY_TAMPER_input_level])) s,
    (put_in _ _ (by simp)).changes s⟩

/-- What a detection leaves of a state it leaves too of an earlier one whose tamper register alone differs. -/
theorem tamperLeaves_of_regs {f : Fld} {s u t : State} (hregs : keepsRegs [R.LCY_TAMPER] s u) (hparts : changesOnly [.regs] s u)
    (h : tamperLeaves f u t) : tamperLeaves f s t := by
  obtain ⟨hwiped, htampered, hlatch, hfired, hpend, hmsg, hstate, hquiet, hrest⟩ := h
  have hget : ∀ g : Fld, g.key ∉ [R.LCY_TAMPER] → u.get g = s.get g := fun g hg => congrArg g.read (hregs g.key hg)
  refine ⟨wiped_congr (hget _ (by decide)).symm rfl rfl hwiped, htampered, hlatch, hget R.EVC_COUNTS_fired (by decide) ▸ hfired,
    fun d hd hroute => hpend d hd ((evRouted_congr (hregs _ (by decide)) d).trans hroute), hget R.TIDE_EDGE_NUM_edge (by decide) ▸ hmsg,
    hstate.trans (hget _ (by decide)), fun k hfar hpwr hk => (hquiet k hfar hpwr hk).trans (hregs k fun hin => hk ?_),
    changesOnly_trans (changesOnly_mono (by simp) hparts) hrest⟩
  simp_all

/-- The enclosure's detection, after its input level. -/
theorem enclosure_leaves (s : State) :
    tamperLeaves R.LCY_TAMPER_enclosure s ((tamper R.LCY_TAMPER_enclosure).run ((putBit R.LCY_TAMPER_input_level true).run s)) ∧
    ((tamper R.LCY_TAMPER_enclosure).run ((putBit R.LCY_TAMPER_input_level true).run s)).bit R.LCY_TAMPER_input_level = true := by
  obtain ⟨hlevel, hregs, hparts⟩ := inputLevel_leaves true s
  refine ⟨tamperLeaves_of_regs hregs hparts (tamper_leaves rfl (by decide) rfl _), ?_⟩
  rw [State.bit, tamper_get rfl (.inr (.inl (by decide))) (by decide)]
  exact hlevel

theorem tamperDetect_voltage : tamperDetect 0 = .look fun _ => tamper R.LCY_TAMPER_voltage := rfl

theorem tamperDetect_clock : tamperDetect 1 = .look fun _ => tamper R.LCY_TAMPER_clock := rfl

theorem tamperDetect_enclosure : tamperDetect 2 = .look fun s => .seq (putBit R.LCY_TAMPER_input_level true)
    (Eff.when (s.get R.LCY_STATE_state != 0) (tamper R.LCY_TAMPER_enclosure)) := rfl

/-- The detection of each detector: the latch that it uses, and the input level of the enclosure's loop. -/
theorem tamperDetect_leaves {source : Fin 3} {s : State} (h : source.val < 2 ∨ s.get R.LCY_STATE_state ≠ 0) :
    let t := (tamperDetect source.val).run s
    tamperLeaves (if source.val = 0 then R.LCY_TAMPER_voltage else if source.val = 1 then R.LCY_TAMPER_clock else
      R.LCY_TAMPER_enclosure) s t ∧ (source.val = 2 → t.bit R.LCY_TAMPER_input_level = true) := by
  obtain hsrc | hsrc | hsrc : source.val = 0 ∨ source.val = 1 ∨ source.val = 2 := by omega
  · have hrun : (tamperDetect 0).run s = (tamper R.LCY_TAMPER_voltage).run s := by rw [tamperDetect_voltage, Eff.run_look]
    rw [hsrc, hrun, if_pos rfl]
    exact ⟨tamper_leaves rfl (by decide) rfl s, fun h => absurd h (by decide)⟩
  · have hrun : (tamperDetect 1).run s = (tamper R.LCY_TAMPER_clock).run s := by rw [tamperDetect_clock, Eff.run_look]
    rw [hsrc, hrun, if_neg (by decide), if_pos rfl]
    exact ⟨tamper_leaves rfl (by decide) rfl s, fun h => absurd h (by decide)⟩
  · have hstate : (s.get R.LCY_STATE_state != 0) = true := by simpa [hsrc] using h
    have hrun : (tamperDetect 2).run s = (tamper R.LCY_TAMPER_enclosure).run ((putBit R.LCY_TAMPER_input_level true).run s) := by
      rw [tamperDetect_enclosure, Eff.run_look, Eff.run_seq, hstate, Eff.run_when_true]
    rw [hsrc, hrun, if_neg (by decide), if_neg (by decide)]
    exact ⟨(enclosure_leaves s).1, fun _ => (enclosure_leaves s).2⟩

theorem heartbeat_run {s : State} {post : State → Prop} (hpow : s.power ≠ .off)
    (h : post ((Eff.when (s.get (R.FW_CORE_state 0) != 0) (evFire 0x706)).run s)) : yields .heartbeatTimeout s post :=
  yields_done rfl hpow h

/-- Settles O55: a detection is a wipe, a latch and a firing; the firing's own laws give the rest. -/
theorem tamperAndHeartbeat : Obligations.TamperAndHeartbeat := by
  unfold Obligations.TamperAndHeartbeat
  intro source s hpow
  dsimp only
  refine ⟨fun hcase => ?_, fun hsrc hstate => ?_, fun hlevel => ⟨fun hstate => ?_, fun hstate => ?_, ?_⟩, fun hcore => ?_, fun hcore => ?_⟩
  · obtain ⟨⟨hwiped, htampered, hlatch, hfired, hpend, hmsg, hstate, hquiet, hrest⟩, hlevel⟩ := tamperDetect_leaves hcase
    exact yields_done rfl hpow ⟨hwiped, htampered, hlatch, hlevel, hfired, hpend, hmsg, hstate, hquiet, hrest⟩
  · refine yields_done (p := tamperDetect source.val) rfl hpow ?_
    rw [hsrc, tamperDetect_enclosure, Eff.run_look, Eff.run_seq, hstate, show ((0 : Nat) != 0) = false from rfl, Eff.run_when_false]
    exact inputLevel_leaves true s
  · refine yields_done (p := tamperRewipe true) rfl hpow ?_
    have hrun : (tamperRewipe true).run s = secureWipe.run s := by
      rw [tamperRewipe, Eff.run_look, hlevel, bne_iff_ne.2 hstate]
      rfl
    rw [hrun]
    have hin : secureWipe.Only (Upd.within [.pmKey] (oneOf [R.LCY_STATE])) := secureWipe_within (by simp) (by simp [oneOf])
    exact ⟨secureWipe_wiped s, within_keepsRegs hin s, within_changes hin s⟩
  · refine yields_done (p := tamperRewipe true) rfl hpow ?_
    have hrun : (tamperRewipe true).run s = s := by
      rw [tamperRewipe, Eff.run_look, hlevel, hstate]
      rfl
    rw [hrun]
    exact changesOnly_refl _ s
  · refine yields_done (p := tamperRewipe false) rfl hpow ?_
    have hrun : (tamperRewipe false).run s = (putBit R.LCY_TAMPER_input_level false).run s := by
      rw [tamperRewipe, Eff.run_look, hlevel]
      rfl
    rw [hrun]
    exact inputLevel_leaves false s
  · refine heartbeat_run hpow ?_
    rw [bne_iff_ne.2 hcore, Eff.run_when_true]
    exact ⟨evFire_fired _ s, fun d hd hroute => by rw [evFire_pending (by decide) hd, hroute, Bool.or_true], evFire_eventsOnly _ s⟩
  · refine heartbeat_run hpow ?_
    rw [hcore]
    exact changesOnly_refl _ s

end Sys2Proof.Proofs

/-! The management port (R508–R511). -/

namespace Sys2Proof.Proofs
open Sys2Proof.Machine Sys2Proof.Claims

/-! Requests and answers -/

theorem mgmtAnswer_says (fields : List Nat) (s : State) : mgmtSays fields s ((mgmtAnswer fields).run s) :=
  ⟨by rw [mgmtAnswer, send_run]; rfl, (send_in _ (List.Subset.refl _)).changes s⟩

theorem mgmtServe_run (k : Eff) (s : State) : (mgmtServe k).run s = if s.mgmtUp then k.run s else s := by
  rw [mgmtServe, Eff.run_look, Eff.run_when]

theorem mgmtUp_iff (s : State) : s.mgmtUp = true ↔ s.power = .on ∨ s.power = .s0Failed := by
  rw [State.mgmtUp]
  cases s.power <;> decide

/-- A request to a port that is not up does nothing. -/
theorem served_down {c : Instr} {k : Eff} {s : State} (hc : exec c s = (mgmtServe k).done s) (hpow : s.power ≠ .off)
    (hdown : ¬(s.power = .on ∨ s.power = .s0Failed)) : yields c s (changesOnly [] s) :=
  yields_done hc hpow (by rw [mgmtServe_run, if_neg (mt (mgmtUp_iff s).1 hdown)]; exact changesOnly_refl _ s)

section
variable {s : State} (hup : s.power = .on ∨ s.power = .s0Failed)
include hup

/-- A port that is up serves a request. -/
theorem served {c : Instr} {k : Eff} {post : State → Prop} (hc : exec c s = (mgmtServe k).done s) (h : post (k.run s)) :
    yields c s post :=
  yields_done hc (by rcases hup with h | h <;> rw [h] <;> decide)
    (by rw [mgmtServe_run, if_pos ((mgmtUp_iff s).2 hup)]; exact h)

/-- A request that is answered from the state. -/
theorem served_says {c : Instr} {k : Eff} {fields : List Nat} (hc : exec c s = (mgmtServe k).done s)
    (hk : k.run s = (mgmtAnswer fields).run s) : yields c s (mgmtSays fields s) :=
  served hup hc (by rw [hk]; exact mgmtAnswer_says fields s)

/-- The answer to a reading: 2 for no sensor, 1 for an unavailable one. -/
def readingAnswer : Option (Option Nat) → List Nat
  | none => [2]
  | some none => [1]
  | some (some v) => [0, v]

/-- A sensor is answered with its reading. -/
theorem sensor_says {id : BitVec 16} {fields : List Nat} (h : readingAnswer (s.sensor id.toNat) = fields) :
    yields (.pldmRequest (.sensor id)) s (mgmtSays fields s) := by
  refine served_says hup (k := mgmtRequest (.sensor id)) rfl ?_
  rw [← h, mgmtRequest, Eff.run_look]
  dsimp only
  rcases s.sensor id.toNat with _ | _ | v <;> rfl

end

/-! The sensors of the repository (R509) -/

theorem degrees_answer (missing : Bool) (v : Nat) :
    readingAnswer (some ((if missing then none else some v).map degrees)) = tempAnswer missing v := by
  cases missing <;> rfl

/-- The higher of two 16-bit temperatures is the higher of their signed values. -/
theorem hotter_eq {a b : Nat} (ha : a < 2 ^ 16) (hb : b < 2 ^ 16) : hotter a b = if chanValue a < chanValue b then b else a := by
  have hiff : (a + 2 ^ 15) % 2 ^ 16 < (b + 2 ^ 15) % 2 ^ 16 ↔ chanValue a < chanValue b := by
    simp only [chanValue]
    omega
  rw [hotter]
  exact if_congr hiff rfl rfl

/-- A temperature channel shows the higher of its readings that are not missing, a supply channel ten times its own. -/
theorem chanSensor_answer (s : State) {ch : Nat} (hlt : ch < 242) (h209 : ch ≠ 209) :
    readingAnswer (some (s.chanSensor ch)) =
      if 218 ≤ ch then (if s.bit (R.THM_CHAN_hi_missing ch) then [1] else [0, s.get (R.THM_CHAN_hi ch) * 10])
      else if s.bit (R.THM_CHAN_lo_missing ch) ∧ s.bit (R.THM_CHAN_hi_missing ch) then [1]
      else [0, if s.bit (R.THM_CHAN_lo_missing ch) ∨
          (¬s.bit (R.THM_CHAN_hi_missing ch) ∧ chanValue (s.get (R.THM_CHAN_lo ch)) < chanValue (s.get (R.THM_CHAN_hi ch))) then
        s.get (R.THM_CHAN_hi ch) else s.get (R.THM_CHAN_lo ch)] := by
  have hlo : s.get (R.THM_CHAN_lo ch) < 2 ^ 16 := get_lt s _
  have hhi : s.get (R.THM_CHAN_hi ch) < 2 ^ 16 := get_lt s _
  rw [State.chanSensor, if_neg (by omega)]
  simp only [State.chanHalf, if_true, Nat.one_ne_zero, if_false]
  cases s.bit (R.THM_CHAN_lo_missing ch) <;> cases s.bit (R.THM_CHAN_hi_missing ch) <;> split <;>
    simp [readingAnswer, hotter_eq hlo hhi]

/-- The sensors of the first range, and those of the module's state. -/
theorem sensor_channel (s : State) {ch : Nat} (hlt : ch < 242) : s.sensor (0x1000 + ch) = some (s.chanSensor ch) := by
  rw [State.sensor]
  repeat rw [if_neg (by omega)]
  rw [if_pos (by omega), Nat.add_sub_cancel_left]

theorem sensor_none (s : State) {id : Nat} (h1 : ¬(1 ≤ id ∧ id ≤ 5)) (h2 : ¬(0x1000 ≤ id ∧ id < 0x1100))
    (h3 : ¬(0x2001 ≤ id ∧ id ≤ 0x2005)) : s.sensor id = none := by
  rw [State.sensor]
  repeat rw [if_neg (by omega)]

/-! The resends of an event message (R510) -/

/-- What a second without an acknowledgement leaves of the `k`-th message. -/
def retried (k : Nat) (m : MgmtMsg) (s t : State) : Prop :=
  t.now = max s.now m.due ∧
  (if m.resent < 3 then t.mgmtQ = s.mgmtQ.set k { m with resent := m.resent + 1, due := max s.now m.due + 1000000000 } ∧
    t.out = .mgmtEvent m.source m.edge :: s.out ∧ t.mgmtDropped = s.mgmtDropped
  else t.mgmtQ = s.mgmtQ.take k ++ s.mgmtQ.drop (k + 1) ∧ t.out = s.out ∧ t.mgmtDropped = s.mgmtDropped + 1) ∧
  changesOnly [.now, .mgmtQ, .mgmtDropped, .out] s t

theorem reachTime_run (x : Nat) (s : State) : (reachTime x).run s = (Upd.now (max s.now x)).run s := by
  rw [reachTime, Eff.run_look, Eff.run_upd]

theorem mgmtRetry_in (k : Nat) : (mgmtRetry k).In [.now, .mgmtQ, .mgmtDropped, .out] := Eff.in_look fun s => by
  split
  · exact Eff.in_skip
  · refine Eff.in_seq (Eff.in_look fun _ => Eff.in_upd (by simp [Upd.part])) ?_
    split
    · exact Eff.in_look fun _ => Eff.in_seq (Eff.in_upd (by simp [Upd.part])) (send_in _ (by simp))
    · exact Eff.in_seq (Eff.in_upd (by simp [Upd.part])) (Eff.in_upd (by simp [Upd.part]))

theorem mgmtRetry_retried {k : Nat} {m : MgmtMsg} {s : State} (h : s.mgmtQ[k]? = some m) : retried k m s ((mgmtRetry k).run s) := by
  have hparts := (mgmtRetry_in k).changes s
  revert hparts
  rw [mgmtRetry, Eff.run_look, h]
  rw [Eff.run_seq, reachTime_run]
  by_cases hm : m.resent < 3
  · rw [if_pos hm, Eff.run_look, Eff.run_seq, Eff.run_upd, send_run]
    exact fun hparts => ⟨rfl, by rw [if_pos hm]; exact ⟨rfl, rfl, rfl⟩, hparts⟩
  · rw [if_neg hm, Eff.run_seq, Eff.run_upd, Eff.run_upd]
    exact fun hparts => ⟨rfl, by rw [if_neg hm]; exact ⟨List.eraseIdx_eq_take_drop_succ .., rfl, rfl⟩, hparts⟩

/-! The vendor-defined commands (R511) -/

section
variable {s : State} (hup : s.power = .on ∨ s.power = .s0Failed)
include hup

theorem dispatchRead_says (first : BitVec 32) (count : BitVec 8) :
    yields (.mgmtDispatchRead first count) s (mgmtSays (
      if count.toNat = 0 ∨ 8 < count.toNat then [ST_BAD_ARG]
      else ST_OK :: ((List.range (min count.toNat (s.get R.SVC_DISPATCH_HEAD_next - first.toNat))).flatMap fun i =>
        s.dispatchRecord (first.toNat + i)).map fun b => b.toNat) s) := by
  refine served_says hup (k := .look fun s => _) rfl ?_
  rw [Eff.run_look]
  by_cases h : count.toNat = 0 ∨ 8 < count.toNat
  · rw [if_pos h, if_pos h]
  · rw [if_neg h, if_neg h]
    rfl

theorem replaceRead_says : yields .replaceRead s (mgmtSays (
    ST_OK :: (toLE 8 (s.regsAt R.SVC_REPLACE).toNat ++ toLE 8 (s.regsAt R.SVC_REPLACE_LAST).toNat).map fun b => b.toNat) s) := by
  refine served_says hup (k := .look fun s => _) rfl ?_
  rw [Eff.run_look]
  rfl

theorem soundingRead_says (first count : BitVec 8) :
    yields (.soundingRead first count) s (mgmtSays (
      if s.fwRuns = false then [ST_BUSY] else if count.toNat = 0 ∨ 16 < count.toNat ∨ 128 < first.toNat + count.toNat then [ST_BAD_ARG]
      else ST_OK :: ((List.range count.toNat).flatMap fun i => toLE 8 (s.regsAt (R.THM_SOUND (first.toNat + i))).toNat).map
        fun b => b.toNat) s) := by
  refine served_says hup (k := .look fun s => _) rfl ?_
  rw [Eff.run_look]
  cases hf : s.fwRuns
  · rfl
  · rw [if_neg (show ¬(!true) = true from Bool.false_ne_true), if_neg (show ¬true = false from Bool.noConfusion)]
    by_cases h : count.toNat = 0 ∨ 16 < count.toNat ∨ 128 < first.toNat + count.toNat
    · rw [if_pos h, if_pos h]
    · rw [if_neg h, if_neg h]
      rfl

theorem warmReset_says (h : s.bit R.THM_SHUTDOWN_latched = true) : yields .mgmtWarmReset s (mgmtSays [ST_SHUTDOWN] s) := by
  refine served_says hup (k := .look fun s => _) rfl ?_
  rw [Eff.run_look, if_pos h]

theorem warmReset_starts (h : s.bit R.THM_SHUTDOWN_latched = false) : yields .mgmtWarmReset s fun t =>
    t.resetAt = some (s.resetAt.getD s.now) ∧ t.out = .mgmtReply [ST_OK] :: s.out ∧ changesOnly [.resetAt, .out] s t := by
  refine served hup (k := .look fun s => _) rfl ?_
  rw [Eff.run_look, h, if_neg (by decide), Eff.run_seq, Eff.run_upd, mgmtAnswer, send_run]
  refine ⟨rfl, rfl, ?_⟩
  exact changesOnly_trans ((Eff.in_upd (u := .resetAt _) (by simp [Upd.part])).changes s) ((Eff.in_upd (u := .out _) (by simp [Upd.part])).changes _)

theorem endpoint_set (eid : BitVec 8) : yields (.pldmRequest (.setEndpoint eid)) s fun t =>
    t.eid = eid.toNat ∧ t.out = .mgmtReply [0, eid.toNat] :: s.out ∧ changesOnly [.eid, .out] s t := by
  refine served hup (k := mgmtRequest (.setEndpoint eid)) rfl ?_
  rw [mgmtRequest, Eff.run_look]
  dsimp only
  rw [Eff.run_seq, Eff.run_upd, mgmtAnswer, send_run]
  refine ⟨rfl, rfl, ?_⟩
  exact changesOnly_trans ((Eff.in_upd (u := .eid _) (by simp [Upd.part])).changes s) ((Eff.in_upd (u := .out _) (by simp [Upd.part])).changes _)

theorem event_acknowledged (k : Nat) : yields (.pldmRequest (.eventAck k)) s fun t =>
    t.mgmtQ = s.mgmtQ.take k ++ s.mgmtQ.drop (k + 1) ∧ changesOnly [.mgmtQ] s t := by
  refine served hup (k := mgmtRequest (.eventAck k)) rfl ?_
  rw [mgmtRequest, Eff.run_look]
  dsimp only
  rw [Eff.run_upd]
  exact ⟨List.eraseIdx_eq_take_drop_succ .., (Eff.in_upd (u := .mgmtQ _) (by simp [Upd.part])).changes s⟩

end

/-- Settles O54: each request is answered from the state alone, and the messages leave the queue as R510 says. -/
theorem managementPort : Obligations.ManagementPort := by
  unfold Obligations.ManagementPort
  intro eid first8 count8 id k first s hpow
  dsimp only
  refine ⟨fun hdown c hc => ?_, fun hup => ⟨endpoint_set hup eid, served_says hup rfl rfl, served_says hup rfl rfl, served_says hup rfl rfl,
    served_says hup rfl rfl, event_acknowledged hup k, sensor_says hup rfl, sensor_says hup rfl, sensor_says hup ?_, sensor_says hup ?_,
    sensor_says hup rfl, fun ch hlt h209 hid => sensor_says hup ?_, sensor_says hup rfl, sensor_says hup rfl, sensor_says hup rfl,
    sensor_says hup rfl, sensor_says hup rfl, fun h1 h2 h3 => sensor_says hup ?_, dispatchRead_says hup first count8, replaceRead_says hup,
    soundingRead_says hup first8 count8, warmReset_starts hup, warmReset_says hup, served_says hup rfl rfl⟩,
    fun m hm => yields_done rfl hpow (mgmtRetry_retried hm)⟩
  · simp only [List.mem_cons, List.not_mem_nil, or_false] at hc
    rcases hc with rfl | rfl | rfl | rfl | rfl | rfl | rfl | rfl | rfl | rfl | rfl | rfl <;> exact served_down rfl hpow hdown
  · exact degrees_answer ..
  · exact degrees_answer ..
  · rw [hid, sensor_channel s hlt]
    exact chanSensor_answer s hlt h209
  · rw [sensor_none s h1 h2 h3]
    rfl

end Sys2Proof.Proofs

/-! The checks at the start of a host command (R355, R358, R360, R419). -/

namespace Sys2Proof.Proofs
open Sys2Proof.Machine Sys2Proof.Claims

/-! The end of a command -/

theorem hcFinish_answers (x : HCmd) (st res : Nat) (s : State) : answers x st res s ((hcFinish x.id st res).run s) := by
  have hin : (hcFinish x.id st res).In [.cmds] := Eff.in_look fun _ => Eff.in_upd (by simp [Upd.part])
  refine ⟨?_, hin.changes s⟩
  rw [hcFinish, hcSet, Eff.run_look, Eff.run_upd, ended, Upd.run_cmds]
  exact List.map_congr_left fun y _ => if_congr beq_iff_eq rfl rfl

/-! A command that may start -/

section
variable {s : State} {n op : Nat} {x : HCmd} (h : s.cmdStartable n op = some x)
include h

theorem startable_facts : s.cmds[n]? = some x ∧ x.op = op ∧ x.phase = 0 := by
  unfold State.cmdStartable at h
  split at h
  next y hy =>
    split at h
    next hc =>
      obtain rfl : y = x := by simpa using h
      simp only [Bool.and_eq_true, beq_iff_eq, decide_eq_true_eq] at hc
      exact ⟨hy, hc.1.1.1, hc.1.1.2⟩
    next => cases h
  next => cases h

theorem hostStart_run (k : HCmd → Eff) :
    (hostStart n op k).run s = if s.startStatus x ≠ ST_OK then (hcFinish x.id (s.startStatus x) 0).run s else (k x).run s := by
  rw [hostStart, Eff.run_look, h]
  dsimp only
  split <;> rfl

/-- A command whose start is refused ends with the status of the check. -/
theorem hostStart_refused (hst : s.startStatus x ≠ ST_OK) (k : HCmd → Eff) :
    answers x (s.startStatus x) 0 s ((hostStart n op k).run s) := by
  rw [hostStart_run h, if_pos hst]
  exact hcFinish_answers x _ 0 s

theorem hostStartIO_run (hup : s.linkUp x.port = true) (k : HCmd → Eff) :
    (hostStartIO n op k).run s = (hostStart n op k).run s := by
  rw [hostStartIO, Eff.run_look, h]
  dsimp only
  rw [hup, Eff.run_when_true]

theorem hostGo_run (start go : HCmd → Eff) : (hostGo n op start go).run s = (hostStart n op start).run s := by
  obtain ⟨hx, -, hphase⟩ := startable_facts h
  rw [hostGo, Eff.run_look, hx]
  dsimp only
  rw [if_neg (by rw [hphase]; simp)]

end

/-- A command that moves host data waits while its port's link is down. -/
theorem hostStartIO_down {s : State} {n op : Nat} {x : HCmd} (hx : s.cmds[n]? = some x) (hdown : s.linkUp x.port = false)
    (k : HCmd → Eff) : (hostStartIO n op k).run s = s := by
  rw [hostStartIO, Eff.run_look]
  cases h : s.cmdStartable n op with
  | none => rfl
  | some y =>
    obtain rfl : x = y := Option.some.inj (hx.symm.trans (startable_facts h).1)
    dsimp only
    rw [hdown, Eff.run_when_false]

/-! A copy is gated by its link, and goes on by itself once it has started -/

/-- A copy command: it waits while its port's link is down, and goes on by itself once it has started. -/
def linkGated (n op : Nat) (start go : HCmd → Eff) : Eff := .look fun s =>
  match s.cmds[n]? with
  | none => .skip
  | some y => Eff.when (s.linkUp y.port) (hostGo n op start go)

theorem linkGated_run {s : State} {n op : Nat} {x : HCmd} (h : s.cmdStartable n op = some x) (hup : s.linkUp x.port = true)
    (start go : HCmd → Eff) : (linkGated n op start go).run s = (hostStart n op start).run s := by
  rw [linkGated, Eff.run_look, (startable_facts h).1]
  dsimp only
  rw [hup, Eff.run_when_true, hostGo_run h]

theorem linkGated_down {s : State} {n : Nat} {x : HCmd} (hx : s.cmds[n]? = some x) (hdown : s.linkUp x.port = false) (op : Nat)
    (start go : HCmd → Eff) : (linkGated n op start go).run s = s := by
  rw [linkGated, Eff.run_look, hx]
  dsimp only
  rw [hdown, Eff.run_when_false]

theorem copyToDevice_gated (n answer upto : Nat) : ∃ start go, copyToDevice n answer upto = linkGated n 0x40 start go := ⟨_, _, rfl⟩

theorem copyFromDevice_gated (n : Nat) (coll : Option Nat) : ∃ start go, copyFromDevice n coll = linkGated n 0x41 start go := ⟨_, _, rfl⟩

/-! The gate, for each of the three forms of a command -/

section
variable {c : Instr} {s : State} {n op : Nat} {x : HCmd} (hpow : s.power ≠ .off)
include hpow

theorem refused_start {k : HCmd → Eff} (hc : exec c s = (hostStart n op k).done s) (h : s.cmdStartable n op = some x)
    (hst : s.startStatus x ≠ ST_OK) : yields c s (answers x (s.startStatus x) 0 s) :=
  yields_done hc hpow (hostStart_refused h hst k)

theorem refused_io {k : HCmd → Eff} (hc : exec c s = (hostStartIO n op k).done s) (h : s.cmdStartable n op = some x)
    (hst : s.startStatus x ≠ ST_OK) (hup : s.linkUp x.port = true) : yields c s (answers x (s.startStatus x) 0 s) :=
  yields_done hc hpow (by rw [hostStartIO_run h hup]; exact hostStart_refused h hst k)

theorem refused_go {start go : HCmd → Eff} (hc : exec c s = (hostGo n op start go).done s) (h : s.cmdStartable n op = some x)
    (hst : s.startStatus x ≠ ST_OK) : yields c s (answers x (s.startStatus x) 0 s) :=
  yields_done hc hpow (by rw [hostGo_run h]; exact hostStart_refused h hst start)

theorem refused_gated {start go : HCmd → Eff} (hc : exec c s = (linkGated n op start go).done s) (h : s.cmdStartable n op = some x)
    (hst : s.startStatus x ≠ ST_OK) (hup : s.linkUp x.port = true) : yields c s (answers x (s.startStatus x) 0 s) :=
  yields_done hc hpow (by rw [linkGated_run h hup]; exact hostStart_refused h hst start)

theorem waits_io {k : HCmd → Eff} (hc : exec c s = (hostStartIO n op k).done s) (hx : s.cmds[n]? = some x)
    (hdown : s.linkUp x.port = false) : yields c s (changesOnly [] s) :=
  yields_done hc hpow (by rw [hostStartIO_down hx hdown]; exact changesOnly_refl _ s)

theorem waits_gated {start go : HCmd → Eff} (hc : exec c s = (linkGated n op start go).done s) (hx : s.cmds[n]? = some x)
    (hdown : s.linkUp x.port = false) : yields c s (changesOnly [] s) :=
  yields_done hc hpow (by rw [linkGated_down hx hdown]; exact changesOnly_refl _ s)

end

/-! Which status refuses -/

theorem startStatus_noToken {s : State} {x : HCmd} (hready : s.ready = true) (hctl : opCtl x.op = true)
    (htoken : s.holdsToken x.port = false) : s.startStatus x = ST_NOT_CONTROLLER := by
  have hgate : s.gateStatus x.op = ST_OK := by rw [State.gateStatus, hready]; rfl
  rw [State.startStatus, hgate, if_neg (not_not_intro rfl), hctl, htoken]
  rfl

theorem startStatus_early {s : State} {x : HCmd} (hready : s.ready = false) (hstage : s.get R.FW_STAGE_stage < 4)
    (hop : x.op ∉ [0x00, 0x01, 0x10, 0x11, 0x51, 0x72]) : s.startStatus x = ST_BUSY := by
  have hopen : ([0x00, 0x01, 0x10, 0x51, 0x72].contains x.op || (x.op == 0x11 && s.fwRuns)) = false := by
    simp only [List.mem_cons, List.not_mem_nil, or_false, not_or] at hop
    simp [hop]
  have hgate : s.gateStatus x.op = ST_BUSY := by
    rw [State.gateStatus, hready, if_neg Bool.false_ne_true, if_pos hstage, hopen]
    rfl
  rw [State.startStatus, hgate, if_pos (by decide)]

/-- Settles O34: each command is one of three forms of a start, and every form refuses before the command's own work. -/
theorem commandGate : Obligations.CommandGate := by
  unfold Obligations.CommandGate
  intro n x s hpow
  dsimp only
  refine ⟨fun row hrow hup hx hst => ?_, fun hx hdown row hrow hop => ?_, startStatus_noToken, startStatus_early⟩
  · rw [List.mem_append] at hrow
    rcases hrow with hrow | hrow
    · clear hup
      simp only [List.mem_cons, List.not_mem_nil, or_false] at hrow
      rcases hrow with rfl | rfl | rfl | rfl | rfl | rfl | rfl | rfl | rfl | rfl | rfl | rfl | rfl | rfl | rfl | rfl
      iterate 4 exact refused_start hpow rfl hx hst
      iterate 5 exact refused_go hpow rfl hx hst
      iterate 7 exact refused_start hpow rfl hx hst
    · have hlink := hup hrow
      clear hup
      simp only [List.mem_cons, List.not_mem_nil, or_false] at hrow
      rcases hrow with rfl | rfl | rfl | rfl | rfl | rfl | rfl | rfl | rfl | rfl
      iterate 8 exact refused_io hpow rfl hx hst hlink
      iterate 2 exact refused_gated hpow rfl hx hst hlink
  · simp only [List.mem_cons, List.not_mem_nil, or_false] at hrow
    rcases hrow with rfl | rfl | rfl | rfl | rfl | rfl | rfl | rfl | rfl | rfl
    iterate 8 exact waits_io hpow rfl hx hdown
    iterate 2 exact waits_gated hpow rfl hx hdown

end Sys2Proof.Proofs

/-! The link of a host port, and the end of its commands (R348, R358, R502). -/

namespace Sys2Proof.Proofs
open Sys2Proof.Machine Sys2Proof.Claims

/-- What each effect of a family establishes for its own index, and no effect of it undoes, holds after all of them. -/
theorem run_each_establishes {α : Type} {P : α → State → Prop} {f : α → Eff} (hown : ∀ x s, P x ((f x).run s))
    (hkeep : ∀ x y s, P x s → P x ((f y).run s)) (xs : List α) (s : State) : ∀ x ∈ xs, P x ((Eff.each xs f).run s) := by
  have hstay : ∀ (ys : List α) x (t : State), P x t → P x ((Eff.each ys f).run t) := fun ys => by
    induction ys with
    | nil => exact fun _ _ h => h
    | cons y rest ih => exact fun x t h => by rw [Eff.run_each_cons]; exact ih x _ (hkeep x y t h)
  induction xs generalizing s with
  | nil => exact fun _ h => absurd h List.not_mem_nil
  | cons y rest ih =>
    intro x hx
    rw [Eff.run_each_cons]
    rcases List.mem_cons.1 hx with rfl | hx
    · exact hstay rest x _ (hown x s)
    · exact ih _ x hx

/-! The end of a port's commands -/

/-- The end of one queue pair. -/
def pairEnd (p q : Nat) : Eff := .all [
  putBit (R.QUE_QP_CFG_enable p q) false, put (R.QUE_QP_STATUS_state p q) 0, .upd (.cqAgg (p * 64 + q) (0, 0))]

theorem pairEnd_run (p q : Nat) (s : State) : (pairEnd p q).run s =
    (Upd.cqAgg (p * 64 + q) (0, 0)).run ((put (R.QUE_QP_STATUS_state p q) 0).run ((putBit (R.QUE_QP_CFG_enable p q) false).run s)) := by
  simp only [pairEnd, Eff.run_all_cons, Eff.run_all_nil, Eff.run_upd]

/-- A pair that has ended: disabled, in state DISABLED. -/
def pairOff (p q : Nat) (s : State) : Prop := s.bit (R.QUE_QP_CFG_enable p q) = false ∧ s.qpState p q = 0

theorem pairEnd_off (p q : Nat) (s : State) : pairOff p q ((pairEnd p q).run s) := by
  rw [pairEnd_run]
  refine ⟨?_, (get_upd (by simp [Upd.part]) _ _).trans (put_same _ _ _ (Nat.le_of_ble_eq_true rfl))⟩
  rw [State.bit, get_upd (by simp [Upd.part]), get_put_apart (.inl
    (by simp only [R.QUE_QP_CFG_enable, R.QUE_QP_STATUS_state, R.QUE_QP_CFG, R.QUE_QP_STATUS, rk]; omega))
    (Nat.le_of_ble_eq_true rfl)]
  exact bit_putBit _ (Nat.le_of_ble_eq_true rfl) rfl false s

theorem pairEnd_keeps {p q q' : Nat} {s : State} (h : pairOff p q s) : pairOff p q ((pairEnd p q').run s) := by
  by_cases hq : q = q'
  · exact hq ▸ pairEnd_off p q s
  · obtain ⟨henable, hstate⟩ := h
    rw [pairEnd_run]
    refine ⟨?_, (get_upd (by simp [Upd.part]) _ _).trans ?_⟩
    · rw [State.bit, get_upd (by simp [Upd.part]), putBit, get_put_apart
        (.inl
          (by simp only [R.QUE_QP_CFG_enable, R.QUE_QP_STATUS_state, R.QUE_QP_CFG, R.QUE_QP_STATUS, rk]; omega)) (Nat.le_of_ble_eq_true rfl), get_put_apart
        (.inl (by simp only [R.QUE_QP_CFG_enable, R.QUE_QP_CFG, rk]; omega)) (Nat.le_of_ble_eq_true rfl)]
      exact henable
    · rw [putBit, get_put_apart (.inl
      (by simp only [R.QUE_QP_STATUS_state, R.QUE_QP_STATUS, rk]; omega)) (Nat.le_of_ble_eq_true rfl), get_put_apart
        (.inl
          (by simp only [R.QUE_QP_CFG_enable, R.QUE_QP_STATUS_state, R.QUE_QP_CFG, R.QUE_QP_STATUS, rk]; omega)) (Nat.le_of_ble_eq_true rfl)]
      exact hstate

theorem portKeys_pair {p q : Nat} (hq : q < 64) : R.QUE_QP_CFG p q ∈ portKeys p ∧ R.QUE_QP_STATUS p q ∈ portKeys p := by
  have hmem : ∀ k ∈ [R.QUE_QP_CFG p q, R.QUE_QP_STATUS p q], k ∈ portKeys p := fun k hk =>
    List.mem_append_right _ (List.mem_flatMap.2 ⟨q, List.mem_range.2 hq, hk⟩)
  exact ⟨hmem _ (by simp), hmem _ (by simp)⟩

/-- The sequences whose submissions or retirements wait for a command of the port forget them. -/
def seqForget (gone : List HCmd) (e : Nat × Option SeqRec) : Eff :=
  match e.2 with
  | some r =>
    let mine := fun (id : Nat) => gone.any fun x => x.id == id
    Eff.when (r.sub.any (fun y => mine y.1) || r.retire.any mine) (.upd (.seqs e.1 (some { r with
      sub := if r.joined.isEmpty && r.sub.any (fun y => mine y.1) then none else r.sub
      retire := r.retire.filter fun id => !mine id })))
  | none => .skip

theorem seqForget_in (gone : List HCmd) (e : Nat × Option SeqRec) : (seqForget gone e).In [.seqs] := by
  unfold seqForget
  split
  · exact Eff.in_when (Eff.in_upd (by simp [Upd.part]))
  · exact Eff.in_skip

theorem portAbort_run (p : Nat) (s : State) : (portAbort p).run s =
    (Eff.each s.seqs (seqForget (s.cmds.filter fun x => x.port == p))).run ((Eff.each (List.range 64) (pairEnd p)).run
      ((putBit (R.HIF_PM_STATE_pm_hold p) false).run ((cmdShow p).run ((Upd.cmds (s.cmds.filter fun x => x.port != p)).run s)))) := by
  rw [portAbort, Eff.run_look]
  simp only [Eff.run_all_cons, Eff.run_all_nil, Eff.run_upd]
  rfl

theorem portAbort_within (p : Nat) : (portAbort p).Only (Upd.within [.cmds, .cqAgg, .seqs] (oneOf (portKeys p))) := fun s => by
  have hpairs : ∀ q ∈ List.range 64, (pairEnd p q).Only (Upd.within [.cmds, .cqAgg, .seqs] (oneOf (portKeys p))) := fun q hq => by
    obtain ⟨hcfg, hstatus⟩ := portKeys_pair (p := p) (List.mem_range.1 hq)
    simp only [pairEnd, Eff.only_all_cons, Eff.only_all_nil, Eff.only_upd, within_putBit, within_put, and_true]
    exact ⟨hcfg, hstatus, by simp [Upd.within, Upd.part]⟩
  have hseqs : ∀ gone e, (seqForget gone e).Only (Upd.within [.cmds, .cqAgg, .seqs] (oneOf (portKeys p))) := fun gone e => by
    unfold seqForget
    split
    · exact (Eff.only_when _ _).2 fun _ => by simp [Upd.within, Upd.part]
    · trivial
  refine (Eff.only_all_cons _ _).2 ⟨by simp [Upd.within, Upd.part], (Eff.only_all_cons _ _).2 ⟨fun t =>
    (within_put _ _).2 (by simp [oneOf, portKeys, R.HIF_CMDS_outstanding]), (Eff.only_all_cons _ _).2
    ⟨(within_putBit _ _).2 (by simp [oneOf, portKeys, R.HIF_PM_STATE_pm_hold]), (Eff.only_all_cons _ _).2
    ⟨(Eff.only_each _ _).2 hpairs, (Eff.only_all_cons _ _).2 ⟨(Eff.only_each _ _).2 fun e _ => hseqs _ e, trivial⟩⟩⟩⟩⟩

theorem filter_gone (p : Nat) (cmds : List HCmd) : ((cmds.filter fun x => x.port != p).filter fun x => x.port == p).length = 0 := by
  rw [List.length_eq_zero_iff, List.filter_filter, List.filter_eq_nil_iff]
  simp

/-- The commands of the port are gone, and no hold of its postmarks stands. -/
def portEmpty (p : Nat) (s t : State) : Prop :=
  t.cmds = s.cmds.filter (fun x => x.port != p) ∧ t.get (R.HIF_CMDS_outstanding p) = 0 ∧ t.bit (R.HIF_PM_STATE_pm_hold p) = false

theorem portEmpty_start (p : Nat) (s : State) : portEmpty p s ((putBit (R.HIF_PM_STATE_pm_hold p) false).run ((cmdShow p).run
    ((Upd.cmds (s.cmds.filter fun x => x.port != p)).run s))) := by
  have hregs : ∀ {q : Eff}, q.In [.regs] → ∀ u : State, (q.run u).cmds = u.cmds := fun hq u => (hq.changes u).same_cmds (by simp)
  refine ⟨(hregs (put_in _ _ (by simp)) _).trans ((hregs (Eff.in_look fun _ => put_in _ _ (by simp)) _).trans (Upd.run_cmds ..)), ?_,
    bit_putBit _ (Nat.le_of_ble_eq_true rfl) rfl false _⟩
  rw [putBit, get_put_apart (.inl
    (by simp only [R.HIF_PM_STATE_pm_hold, R.HIF_CMDS_outstanding, R.HIF_PM_STATE, R.HIF_CMDS, rk]; omega)) (Nat.le_of_ble_eq_true rfl),
    cmdShow, Eff.run_look, put_same _ _ _ (Nat.le_of_ble_eq_true rfl), State.outstanding, Upd.run_cmds, filter_gone]
  rfl

/-- The pairs of a port write their own registers. -/
theorem pairs_within (p : Nat) : (Eff.each (List.range 64) (pairEnd p)).Only
    (Upd.within [.cqAgg] fun k => 0x10120000 ≤ k) := by
  refine (Eff.only_each _ _).2 fun q _ => ?_
  simp only [pairEnd, Eff.only_all_cons, Eff.only_all_nil, Eff.only_upd, within_putBit, within_put, and_true]
  simp only [R.QUE_QP_CFG_enable, R.QUE_QP_STATUS_state, R.QUE_QP_CFG, R.QUE_QP_STATUS, rk]
  exact ⟨by omega, by omega, by simp [Upd.within, Upd.part]⟩

theorem pairs_empty {p : Nat} (hp : p < 2) {s t : State} (h : portEmpty p s t) :
    portEmpty p s ((Eff.each (List.range 64) (pairEnd p)).run t) := by
  obtain ⟨hcmds, hout, hhold⟩ := h
  have hget : ∀ f : Fld, f.key < 0x10120000 → ((Eff.each (List.range 64) (pairEnd p)).run t).get f = t.get f := fun f hf =>
    within_get (pairs_within p) t (Nat.not_le.2 hf)
  refine ⟨((within_changes (pairs_within p) t).same_cmds (by simp)).trans hcmds, (hget _ ?_).trans hout, ?_⟩
  · simp only [R.HIF_CMDS_outstanding, R.HIF_CMDS, rk]; omega
  · rw [State.bit, hget _ (by simp only [R.HIF_PM_STATE_pm_hold, R.HIF_PM_STATE, rk]; omega)]
    exact hhold

/-- R358: the port has no command left, and its pairs are disabled. -/
theorem portAbort_down {p : Nat} (hp : p < 2) (s : State) : portDown p s ((portAbort p).run s) := by
  have hempty := pairs_empty hp (portEmpty_start p s)
  rw [portAbort_run]
  generalize (putBit (R.HIF_PM_STATE_pm_hold p) false).run ((cmdShow p).run ((Upd.cmds (s.cmds.filter fun x => x.port != p)).run s)) = u
    at hempty
  have hpairs := run_each_establishes (P := pairOff p) (f := pairEnd p) (fun q => pairEnd_off p q) (fun _ _ _ => pairEnd_keeps)
    (List.range 64) u
  generalize (Eff.each (List.range 64) (pairEnd p)).run u = v at hempty hpairs
  obtain ⟨hcmds, hout, hhold⟩ := hempty
  have hseqs := (Eff.in_each (ps := [.seqs]) (xs := s.seqs) (seqForget_in (s.cmds.filter fun x => x.port == p))).changes v
  have hget := (get_of_regs (hseqs.same_regs (by simp))).1
  refine ⟨(hseqs.same_cmds (by simp)).trans hcmds, ?_, ?_, fun q hq => ?_⟩
  · rw [hget, hout]
  · rw [State.bit, hget]
    exact hhold
  · obtain ⟨henable, hstate⟩ := hpairs q (List.mem_range.2 hq)
    rw [State.bit, State.qpState, hget]
    exact ⟨henable, hstate⟩

/-! The link -/


/-- What the loss of a port's link at time `now` shows, with the count of such losses before it. -/
def linkDownShown (p now downs : Nat) (t : State) : Prop :=
  t.linkUp p = false ∧ t.get (R.HIF_LINK_width p) = 0 ∧ t.bit (R.HIF_LINK_flit p) = false ∧
  t.get (R.HIF_LINK_downs p) = min (downs + 1) (2 ^ (R.HIF_LINK_downs p).w - 1) ∧ t.linkDownAt p = now + 1

theorem linkGone_shown {p : Nat} {s : State} (h : s.linkUp p = true) :
    linkDownShown p s.now (s.get (R.HIF_LINK_downs p)) ((linkGone p).run s) := by
  rw [linkGone, Eff.run_look, h, Eff.run_when_true]
  simp only [Eff.run_all_cons, Eff.run_all_nil, Eff.run_upd]
  refine ⟨?_, ?_, ?_, ?_, Upd.run_linkDown_same ..⟩
  · rw [State.linkUp, get_upd (by simp [Upd.part])]
    simp (disch := (
      try simp only [apart, farKey, R.HIF_LINK_speed, R.HIF_LINK_width, R.HIF_LINK_flit, R.HIF_LINK_downs, R.HIF_LINK, rk]
      omega)) only [get_put_apart, get_addSat_apart, put_same]
    rfl
  · rw [get_upd (by simp [Upd.part])]
    simp (disch := (
      try simp only [apart, farKey, R.HIF_LINK_speed, R.HIF_LINK_width, R.HIF_LINK_flit, R.HIF_LINK_downs, R.HIF_LINK, rk]
      omega)) only [get_put_apart, get_addSat_apart, put_same]
    rfl
  · rw [State.bit, get_upd (by simp [Upd.part])]
    simp (disch := (
      try simp only [apart, farKey, R.HIF_LINK_speed, R.HIF_LINK_width, R.HIF_LINK_flit, R.HIF_LINK_downs, R.HIF_LINK, rk]
      omega)) only [get_put_apart, get_addSat_apart, put_same]
    rfl
  · rw [get_upd (by simp [Upd.part])]
    simp (disch := (
      try simp only [apart, farKey, R.HIF_LINK_speed, R.HIF_LINK_width, R.HIF_LINK_flit, R.HIF_LINK_downs, R.HIF_LINK, rk]
      omega)) only [get_put_apart, addSat_same]

theorem linkGone_within {ps : List Part} {K : Nat → Prop} {p : Nat} (hps : Part.linkDown ∈ ps) (hK : K (R.HIF_LINK p)) :
    (linkGone p).Only (Upd.within ps K) := fun s => by
  simp only [Eff.only_when, Eff.only_all_cons, Eff.only_all_nil, Eff.only_upd, within_put, within_addSat, and_true]
  exact fun _ => ⟨hK, hK, hK, hK, hps⟩

/-! Held messages go out (R443) -/

/-- An entry of the table after the release of its held message. -/
def released (e : MsixEntry) : MsixEntry := if e.pending && !e.masked then { e with pending := false } else e

section
variable {p : Nat} {s : State} (hup : s.linkUp p = true)
include hup

theorem msixRelease_at (v : Nat) : ((msixRelease p v).run s).msixAt (p * 128 + v) = released (s.msixAt (p * 128 + v)) := by
  rw [msixRelease, Eff.run_look]
  dsimp only
  rw [hup, Bool.and_true, released]
  split
  · rw [Eff.run_seq, Eff.run_upd, send_run]
    exact Upd.run_msix_same ..
  · rfl

theorem msixRelease_out {o : Out} (v : Nat) : o ∈ ((msixRelease p v).run s).out ↔
    o ∈ s.out ∨ (o = .msix p v ∧ (s.msixAt (p * 128 + v)).pending = true ∧ (s.msixAt (p * 128 + v)).masked = false) := by
  rw [msixRelease, Eff.run_look]
  dsimp only
  rw [hup, Bool.and_true]
  split
  next h =>
    have hout : (Eff.seq (.upd (.msix (p * 128 + v) { s.msixAt (p * 128 + v) with pending := false })) (send (.msix p v))).run s =
      (Upd.out (.msix p v :: s.out)).run ((Upd.msix (p * 128 + v) { s.msixAt (p * 128 + v) with pending := false }).run s) := by
      rw [Eff.run_seq, Eff.run_upd, send_run]
      rfl
    rw [hout, Upd.run_out, List.mem_cons]
    simp only [Bool.and_eq_true, Bool.not_eq_true'] at h
    simp [h, or_comm]
  next h =>
    simp only [Bool.and_eq_true, Bool.not_eq_true', not_and] at h
    exact ⟨.inl, fun ho => ho.resolve_right fun hv => h hv.2.1 hv.2.2⟩

end

theorem msixRelease_other {p v j : Nat} (h : j ≠ p * 128 + v) (s : State) : ((msixRelease p v).run s).msixAt j = s.msixAt j := by
  rw [msixRelease, Eff.run_look]
  dsimp only
  split
  · rw [Eff.run_seq, Eff.run_upd, send_run]
    exact Upd.run_msix_other _ _ h _ s
  · rfl

theorem msixRelease_in (p v : Nat) : (msixRelease p v).In [.msix, .out] := Eff.in_look fun s =>
  in_ite (Eff.in_seq (Eff.in_upd (by simp [Upd.part])) (send_in _ (by simp))) Eff.in_skip

theorem msixReleases_other {p j : Nat} {vs : List Nat} (h : ∀ v ∈ vs, j ≠ p * 128 + v) (s : State) :
    ((Eff.each vs fun v => msixRelease p v).run s).msixAt j = s.msixAt j := by
  induction vs generalizing s with
  | nil => rfl
  | cons v rest ih =>
    rw [Eff.run_each_cons, ih (fun w hw => h w (List.mem_cons_of_mem _ hw)), msixRelease_other (h v List.mem_cons_self)]

/-- The messages of a list of vectors that were held and are not masked go out, and stay held no longer. -/
theorem msixReleases {p : Nat} {vs : List Nat} (hvs : vs.Nodup) {s : State} (hup : s.linkUp p = true) :
    let t := (Eff.each vs fun v => msixRelease p v).run s
    (∀ v ∈ vs, t.msixAt (p * 128 + v) = released (s.msixAt (p * 128 + v))) ∧
    ∀ o, o ∈ t.out ↔ o ∈ s.out ∨ ∃ v ∈ vs, o = .msix p v ∧ (s.msixAt (p * 128 + v)).pending = true ∧ (s.msixAt (p * 128 + v)).masked = false := by
  dsimp only
  induction vs generalizing s with
  | nil => exact ⟨fun _ h => absurd h List.not_mem_nil, fun o => by simp [Eff.run_each_nil]⟩
  | cons v rest ih =>
    obtain ⟨hv, hrest⟩ := List.nodup_cons.1 hvs
    have hregs := (get_of_regs (((msixRelease_in p v).changes s).same_regs (by simp))).1
    have hup' : ((msixRelease p v).run s).linkUp p = true := by rw [State.linkUp, hregs]; exact hup
    have hother : ∀ w ∈ rest, ((msixRelease p v).run s).msixAt (p * 128 + w) = s.msixAt (p * 128 + w) := fun w hw =>
      msixRelease_other (fun he => hv (by rwa [show v = w by omega])) s
    obtain ⟨hat, hout⟩ := ih hrest hup'
    rw [Eff.run_each_cons]
    refine ⟨fun w hw => ?_, fun o => ?_⟩
    · rcases List.mem_cons.1 hw with rfl | hw
      · rw [msixReleases_other (fun u hu he => hv (by rwa [show w = u by omega])), msixRelease_at hup]
      · rw [hat w hw, hother w hw]
    · rw [hout, msixRelease_out hup, or_assoc, List.exists_mem_cons_iff]
      exact or_congr_right (or_congr_right (exists_congr fun w => and_congr_right fun hw => by rw [hother w hw]))

/-! The link comes up -/

/-- The registers of a link that comes up. -/
def linkSet (p speed width : Nat) (flit : Bool) : Eff := .all [
  put (R.HIF_LINK_speed p) speed, put (R.HIF_LINK_width p) width, putBit (R.HIF_LINK_flit p) flit, .upd (.linkDown p 0)]

theorem linkBack_run (p speed width : Nat) (flit : Bool) (s : State) : (linkBack p speed width flit).run s =
    (Eff.each (List.range 128) fun v => msixRelease p v).run ((linkSet p speed width flit).run s) := by
  rw [linkBack, linkSet]
  simp only [Eff.run_all_cons, Eff.run_all_nil]

theorem linkSet_gets {p speed width : Nat} (hspeed : speed < 7) (hwidth : width < 9) (flit : Bool) (s : State) :
    let t := (linkSet p speed width flit).run s
    t.get (R.HIF_LINK_speed p) = speed ∧ t.get (R.HIF_LINK_width p) = width ∧ t.bit (R.HIF_LINK_flit p) = flit ∧ t.linkDownAt p = 0 := by
  dsimp only
  rw [linkSet]
  simp only [Eff.run_all_cons, Eff.run_all_nil, Eff.run_upd]
  refine ⟨?_, ?_, ?_, Upd.run_linkDown_same ..⟩
  · rw [get_upd (by simp [Upd.part]), putBit]
    simp (disch := (
      try simp only [apart, farKey, R.HIF_LINK_speed, R.HIF_LINK_width, R.HIF_LINK_flit, R.HIF_LINK_downs, R.HIF_LINK, rk]
      omega)) only [get_put_apart]
    exact put_same_of_lt (Nat.le_of_ble_eq_true rfl) (hspeed.trans (show 7 < 2 ^ 3 by decide)) s
  · rw [get_upd (by simp [Upd.part]), putBit]
    simp (disch := (
      try simp only [apart, farKey, R.HIF_LINK_speed, R.HIF_LINK_width, R.HIF_LINK_flit, R.HIF_LINK_downs, R.HIF_LINK, rk]
      omega)) only [get_put_apart]
    exact put_same_of_lt (Nat.le_of_ble_eq_true rfl) (hwidth.trans (show 9 < 2 ^ 4 by decide)) _
  · rw [State.bit, get_upd (by simp [Upd.part])]
    exact bit_putBit _ (Nat.le_of_ble_eq_true rfl) rfl flit _

theorem linkSet_within (p speed width : Nat) (flit : Bool) :
    (linkSet p speed width flit).Only (Upd.within [.linkDown] (oneOf [R.HIF_LINK p])) := by
  simp only [linkSet, Eff.only_all_cons, Eff.only_all_nil, Eff.only_upd, within_put, within_putBit, and_true]
  exact ⟨List.mem_cons_self, List.mem_cons_self, List.mem_cons_self, by simp [Upd.within, Upd.part]⟩

theorem released_pending (e : MsixEntry) : (released e).pending = (e.pending && e.masked) := by
  rw [released]
  cases hp : e.pending <;> cases hm : e.masked <;> simp [hp]

theorem pcieLinkUp_run {p speed width : Nat} {flit : Bool} {s : State} (hlink : s.linkUp p = false) (hperst : s.perstAt p = false)
    (hspeed : 1 ≤ speed) (hwidth : width ∈ [1, 2, 4, 8]) :
    (pcieLinkUp p speed width flit).run s = (linkBack p speed width flit).run s := by
  rw [pcieLinkUp, Eff.run_look, hlink, hperst, decide_eq_true hspeed, List.contains_iff_mem.2 hwidth]
  rfl

theorem linkBack_released {p speed width : Nat} {flit : Bool} {s : State} (hspeed : speed < 7) (hpos : 1 ≤ speed) (hwidth : width < 9) :
    let t := (linkBack p speed width flit).run s
    t.get (R.HIF_LINK_speed p) = speed ∧ t.get (R.HIF_LINK_width p) = width ∧ t.bit (R.HIF_LINK_flit p) = flit ∧ t.linkDownAt p = 0 ∧
    (∀ v : Fin 128, (t.msixAt (p * 128 + v)).pending = ((s.msixAt (p * 128 + v)).pending && (s.msixAt (p * 128 + v)).masked) ∧
      ((Out.msix p v) ∈ t.out ↔
        (Out.msix p v) ∈ s.out ∨ ((s.msixAt (p * 128 + v)).pending = true ∧ (s.msixAt (p * 128 + v)).masked = false))) ∧
    keepsRegs [R.HIF_LINK p] s t ∧ changesOnly [.regs, .linkDown, .msix, .out] s t := by
  dsimp only
  rw [linkBack_run]
  obtain ⟨hs, hw, hf, hdown⟩ := linkSet_gets (p := p) hspeed hwidth flit s
  have hset := linkSet_within p speed width flit
  have hkeeps := within_keepsRegs hset s
  have hparts := within_changes hset s
  generalize (linkSet p speed width flit).run s = u at hs hw hf hdown hkeeps hparts
  have hup : u.linkUp p = true := by rw [State.linkUp, hs, bne_iff_ne]; omega
  obtain ⟨hat, hout⟩ := msixReleases List.nodup_range hup (vs := List.range 128)
  have hrel := (Eff.in_each (xs := List.range 128) (msixRelease_in p)).changes u
  obtain ⟨hget, hregs⟩ := get_of_regs (hrel.same_regs (by simp))
  have hmsix : ∀ j, u.msixAt j = s.msixAt j := fun j => by rw [State.msixAt, hparts.same_msix (by simp), State.msixAt]
  refine ⟨by rw [hget, hs], by rw [hget, hw], by rw [State.bit, hget]; exact hf, ?_, fun v => ⟨?_, ?_⟩, fun k hk => ?_,
    changesOnly_trans (changesOnly_mono (by simp) hparts) (changesOnly_mono (by simp) hrel)⟩
  · rw [State.linkDownAt, hrel.same_linkDown (by simp)]
    exact hdown
  · rw [hat v.val (List.mem_range.2 v.isLt), released_pending, hmsix]
  · rw [hout, hparts.same_out (by simp)]
    refine or_congr_right ⟨?_, fun h => ⟨v.val, List.mem_range.2 v.isLt, rfl, by rwa [hmsix]⟩⟩
    rintro ⟨w, -, he, hheld⟩
    obtain rfl : v.val = w := by simpa using he
    rwa [hmsix] at hheld
  · rw [hregs]
    exact hkeeps k hk

/-! The port's events -/

theorem linkLoss_run {p : Nat} {s : State} (h : s.linkDownAt p ≠ 0) :
    (linkLossTimeout p).run s = (portAbort p).run ((Upd.now (max s.now (s.linkDownAt p - 1 + 100000000))).run s) := by
  rw [linkLossTimeout, Eff.run_look, bne_iff_ne.2 h, Eff.run_when_true, Eff.run_seq, reachTime_run]

/-- The end of a port's commands shows in its own registers and the list of commands. -/
theorem portDown_congr {p : Nat} {s s' t t' : State} (hs : s'.cmds = s.cmds) (ht : t'.cmds = t.cmds)
    (hregs : ∀ k ∈ portKeys p, t'.regsAt k = t.regsAt k) (h : portDown p s t) : portDown p s' t' := by
  obtain ⟨hcmds, hout, hhold, hpairs⟩ := h
  have hget : ∀ f : Fld, f.key ∈ portKeys p → t'.get f = t.get f := fun f hf => congrArg f.read (hregs f.key hf)
  refine ⟨by rw [ht, hcmds, hs], (hget _ (by simp [portKeys, R.HIF_CMDS_outstanding])).trans hout, ?_, fun q hq => ?_⟩
  · rw [State.bit, hget _ (by simp [portKeys, R.HIF_PM_STATE_pm_hold])]
    exact hhold
  · obtain ⟨henable, hstate⟩ := hpairs q hq
    rw [State.bit, State.qpState, hget _ (portKeys_pair hq).1, hget _ (portKeys_pair hq).2]
    exact ⟨henable, hstate⟩

theorem linkKey_outside {p : Nat} (_hp : p < 2) : R.HIF_LINK p ∉ portKeys p := by
  simp only [portKeys, List.mem_append, List.mem_flatMap, List.mem_range, List.mem_cons, List.not_mem_nil, or_false, R.HIF_LINK, R.HIF_CMDS,
    R.HIF_PM_STATE, R.QUE_QP_CFG, R.QUE_QP_STATUS, rk]
  rintro ((h | h) | ⟨q, hq, h | h⟩) <;> omega

/-- The loss of a link after a part that only another event writes. -/
theorem abort_after {p : Nat} (hp : p < 2) {u : Upd} (hu : u.part ≠ .regs) {ps : List Part} (hps : u.part ∈ ps) (hcmds : Part.cmds ∉ ps)
    (s : State) :
    portDown p s ((portAbort p).run (u.run s)) ∧ keepsRegs (portKeys p) s ((portAbort p).run (u.run s)) ∧
    changesOnly [.regs, .cmds, .cqAgg, .seqs] (u.run s) ((portAbort p).run (u.run s)) ∧ changesOnly ps s (u.run s) := by
  have hfirst := (Eff.in_upd hps).changes s
  exact ⟨portDown_congr (hfirst.same_cmds hcmds).symm rfl (fun _ _ => rfl) (portAbort_down hp (u.run s)),
    fun k hk => (within_regsAt (portAbort_within p) (u.run s) hk).trans (regsAt_upd hu k s), within_changes (portAbort_within p) (u.run s), hfirst⟩

/-- PERST#: the commands end, and the link goes down. -/
theorem perst_leaves {p : Nat} (hp : p < 2) {s : State} (hup : s.linkUp p = true) :
    let t := (linkGone p).run ((portAbort p).run ((Upd.perst p true).run s))
    t.perstAt p = true ∧ linkDownShown p s.now (s.get (R.HIF_LINK_downs p)) t ∧ portDown p s t ∧
    keepsRegs (R.HIF_LINK p :: portKeys p) s t ∧ changesOnly [.perst, .linkDown, .cmds, .regs, .cqAgg, .seqs] s t := by
  dsimp only
  obtain ⟨hdown, hkeeps, habort, hperst⟩ := abort_after hp (u := .perst p true) (ps := [.perst]) (by simp [Upd.part]) (by simp [Upd.part])
    (by simp) s
  have hset : ((Upd.perst p true).run s).perstAt p = true := Upd.run_perst_same ..
  generalize (portAbort p).run ((Upd.perst p true).run s) = v at hdown hkeeps habort
  have hlink : ∀ f : Fld, f.key = R.HIF_LINK p → v.get f = s.get f := fun f hf => by
    rw [State.get, State.get, hf, hkeeps _ (linkKey_outside hp)]
  have hgone : (linkGone p).Only (Upd.within [.linkDown] (oneOf [R.HIF_LINK p])) := linkGone_within (by simp) (by simp [oneOf])
  have hparts := within_changes hgone v
  have hshown := linkGone_shown (p := p) (s := v) (by rw [State.linkUp, hlink _ rfl]; exact hup)
  rw [hlink _ rfl, habort.same_now (by simp), hperst.same_now (by simp)] at hshown
  refine ⟨?_, hshown, ?_, fun k hk => ?_, ?_⟩
  · rw [State.perstAt, hparts.same_perst (by simp), habort.same_perst (by simp)]
    exact hset
  · exact portDown_congr rfl (hparts.same_cmds (by simp))
      (fun k hk => within_keepsRegs hgone v k fun h => linkKey_outside hp (by rwa [List.mem_singleton.1 h] at hk)) hdown
  · obtain ⟨hne, hout⟩ := not_or.1 (mt List.mem_cons.2 hk)
    exact (within_keepsRegs hgone v k (by simpa using hne)).trans (hkeeps k hout)
  · exact changesOnly_trans (changesOnly_mono (by simp) hperst) (changesOnly_trans (changesOnly_mono (by simp) habort)
      (changesOnly_mono (by simp) hparts))

/-- The link of a host port, its loss, its function level reset and its PERST#. -/
theorem hostLinks : Claims.HostLinks := by
  intro p s hpow
  dsimp only
  refine ⟨fun hup => ?_, fun speed width flit hdown hperst hspeed hwidth => ?_, fun hdown => ?_, ?_, fun hup => ?_, ?_⟩
  · have hgone : (linkGone p).Only (Upd.within [.linkDown] (oneOf [R.HIF_LINK p])) := linkGone_within (by simp) (by simp [oneOf])
    exact yields_done (p := linkGone p) rfl hpow ⟨linkGone_shown hup, within_keepsRegs hgone s, within_changes hgone s⟩
  · refine yields_done (p := pcieLinkUp p speed width flit) rfl hpow ?_
    rw [pcieLinkUp_run hdown hperst hspeed hwidth]
    exact linkBack_released speed.isLt hspeed width.isLt
  · refine yields_done (p := linkLossTimeout p) rfl hpow ?_
    rw [linkLoss_run hdown]
    obtain ⟨hport, hkeeps, habort, hnow⟩ := abort_after p.isLt (u := .now (max s.now (s.linkDownAt p - 1 + 100000000))) (ps := [.now])
      (by simp [Upd.part]) (by simp [Upd.part]) (by simp) s
    exact ⟨(habort.same_now (by simp)).trans (Upd.run_now ..), hport, hkeeps,
      changesOnly_trans (changesOnly_mono (by simp) hnow) (changesOnly_mono (by simp) habort)⟩
  · exact yields_done (p := portAbort p) rfl hpow ⟨portAbort_down p.isLt s, within_keepsRegs (portAbort_within p) s,
      changesOnly_mono (by simp) (within_changes (portAbort_within p) s)⟩
  · refine yields_done (p := .all [.upd (.perst p true), portAbort p, linkGone p]) rfl hpow ?_
    simp only [Eff.run_all_cons, Eff.run_all_nil, Eff.run_upd]
    exact perst_leaves p.isLt hup
  · refine yields_done (p := .upd (.perst p false)) rfl hpow ?_
    rw [Eff.run_upd]
    exact ⟨Upd.run_perst_same .., fun k hk => Upd.run_perst_other _ _ hk _ s, (Eff.in_upd (by simp [Upd.part])).changes s⟩

end Sys2Proof.Proofs

/-! The control token (R372–R375). -/

namespace Sys2Proof.Proofs
open Sys2Proof.Machine Sys2Proof.Claims


/-- A command whose start nothing refuses does its own work. -/
theorem started_run {op n : Nat} {x : HCmd} {s : State} (h : startsAs op n x s) (k : HCmd → Eff) :
    (hostStart n op k).run s = (k x).run s := by
  obtain ⟨-, hx, hst⟩ := h
  rw [hostStart_run hx, if_neg (not_not_intro hst)]

/-! The fields of both ports -/

theorem tokenPut_run (f : Nat → Fld) (v : Nat) (s : State) : (tokenPut f v).run s = (put (f 1) v).run ((put (f 0) v).run s) := by
  rw [tokenPut, Eff.run_seq]

section
variable {f g : Nat → Fld} {v : Nat} {s : State}

theorem tokenPut_same (hf : f 0 = ⟨R.HIF_TOKEN 0, (f 0).lo, (f 0).w⟩ ∧ f 1 = ⟨R.HIF_TOKEN 1, (f 0).lo, (f 0).w⟩)
    (hw : (f 0).lo + (f 0).w ≤ 64) (hv : v < 2 ^ (f 0).w) : ∀ k < 2, ((tokenPut f v).run s).get (f k) = v := by
  obtain ⟨h0, h1⟩ := hf
  intro k hk
  rw [tokenPut_run]
  obtain rfl | rfl : k = 0 ∨ k = 1 := by omega
  · rw [get_put_apart (.inl (by rw [h0, h1]; exact (by decide : R.HIF_TOKEN 0 ≠ R.HIF_TOKEN 1))) hw]
    exact put_same_of_lt hw hv s
  · exact put_same_of_lt (by rw [h1]; exact hw) (by rw [h1]; exact hv) _

theorem tokenPut_apart (h : ∀ k < 2, ∀ j < 2, apart (f j) (g k)) (hw : ∀ k < 2, (g k).lo + (g k).w ≤ 64) :
    ∀ k < 2, ((tokenPut f v).run s).get (g k) = s.get (g k) := by
  intro k hk
  rw [tokenPut_run, get_put_apart (h k hk 1 (by decide)) (hw k hk), get_put_apart (h k hk 0 (by decide)) (hw k hk)]

theorem tokenPut_within {ps : List Part} {K : Nat → Prop} (hf : (f 0).key = R.HIF_TOKEN 0 ∧ (f 1).key = R.HIF_TOKEN 1)
    (hK : ∀ k ∈ tokenKeys, K k) : (tokenPut f v).Only (Upd.within ps K) :=
  ⟨(within_put _ _).2 (hf.1 ▸ hK _ (by simp [tokenKeys])), (within_put _ _).2 (hf.2 ▸ hK _ (by simp [tokenKeys]))⟩

end

/-! The end of an offer, and a pass -/

/-- A command after its end with a status. -/
def finished (id st : Nat) (y : HCmd) : HCmd := if y.id = id then { y with phase := 2, status := st, result := 0 } else y

theorem hcFinish_cmds (id st : Nat) (s : State) : ((hcFinish id st 0).run s).cmds = s.cmds.map (finished id st) := by
  rw [hcFinish, hcSet, Eff.run_look, Eff.run_upd, Upd.run_cmds]
  exact List.map_congr_left fun y _ => if_congr beq_iff_eq rfl rfl

theorem hcFinish_in (id st res : Nat) : (hcFinish id st res).In [.cmds] := Eff.in_look fun _ => Eff.in_upd (by simp [Upd.part])

theorem finished_id (id st : Nat) (y : HCmd) : (finished id st y).id = y.id := by
  rw [finished]
  split <;> rfl

theorem finished_of_id {id st : Nat} {y : HCmd} (h : y.id = id) :
    (finished id st y).phase = 2 ∧ (finished id st y).status = st ∧ (finished id st y).result = 0 := by
  rw [finished, if_pos h]
  exact ⟨rfl, rfl, rfl⟩

/-- A command that has ended with a status stays so when another, or itself, ends with it. -/
theorem finished_stays {id st : Nat} {y : HCmd} (h : y.phase = 2 ∧ y.status = st ∧ y.result = 0) :
    (finished id st y).phase = 2 ∧ (finished id st y).status = st ∧ (finished id st y).result = 0 := by
  rw [finished]
  split
  · exact ⟨rfl, rfl, rfl⟩
  · exact h

theorem offerEnd_within {ps : List Part} {K : Nat → Prop} (st : Nat) (hps : Part.cmds ∈ ps ∧ Part.offer ∈ ps)
    (hK : ∀ k ∈ tokenKeys, K k) : (offerEnd st).Only (Upd.within ps K) := fun s => by
  simp only [Eff.only_all_cons, Eff.only_all_nil, Eff.only_upd, and_true]
  refine ⟨?_, hps.2, tokenPut_within ⟨rfl, rfl⟩ hK⟩
  split
  · exact fun _ => hps.1
  · trivial

/-- The end of an offer: the commands and the offer first, then the flag of both ports. -/
theorem offerEnd_run (st : Nat) (s : State) : ∃ u : State, (offerEnd st).run s = (tokenPut R.HIF_TOKEN_offer 0).run u ∧
    u.regs = s.regs ∧ u.offer = none ∧ (∀ o, s.offer = some o → u.cmds = s.cmds.map (finished o.1 st)) ∧
    (s.offer = none → u.cmds = s.cmds) := by
  rw [offerEnd, Eff.run_look]
  simp only [Eff.run_all_cons, Eff.run_all_nil, Eff.run_upd]
  have hoffer : ∀ u : State, changesOnly [.offer] u ((Upd.offer none).run u) := fun u =>
    (Eff.in_upd (u := .offer none) (by simp [Upd.part])).changes u
  refine ⟨_, rfl, ?_, Upd.run_offer .., ?_, ?_⟩
  · rw [(hoffer _).same_regs (by simp)]
    split
    · exact ((hcFinish_in _ st 0).changes s).same_regs (by simp)
    · rfl
  · intro o ho
    rw [(hoffer _).same_cmds (by simp), ho]
    exact hcFinish_cmds ..
  · intro ho
    rw [(hoffer _).same_cmds (by simp), ho]
    rfl

theorem tokenPut_changes (f : Nat → Fld) (v : Nat) (s : State) : changesOnly [.regs] s ((tokenPut f v).run s) :=
  (Eff.in_seq (put_in _ _ (List.Subset.refl _)) (put_in _ _ (List.Subset.refl _))).changes s

/-- An offer that has ended: its flag is down, the other fields of the token stay, and the giver's command has ended. -/
theorem offerEnd_leaves (st : Nat) (s : State) :
    let t := (offerEnd st).run s
    t.offer = none ∧ (∀ k < 2, t.get (R.HIF_TOKEN_offer k) = 0) ∧
    (∀ k < 2, t.get (R.HIF_TOKEN_passes k) = s.get (R.HIF_TOKEN_passes k)) ∧
    (∀ o, s.offer = some o → t.cmds = s.cmds.map (finished o.1 st)) ∧ (s.offer = none → t.cmds = s.cmds) := by
  obtain ⟨u, hrun, hregs, hoffer, hcmds, hnone⟩ := offerEnd_run st s
  have hput := tokenPut_changes R.HIF_TOKEN_offer 0 u
  have hget := (get_of_regs hregs).1
  dsimp only
  rw [hrun]
  refine ⟨(hput.same_offer (by simp)).trans hoffer, tokenPut_same ⟨rfl, rfl⟩ (by decide) (by decide), fun k hk => ?_,
    fun o ho => (hput.same_cmds (by simp)).trans (hcmds o ho), fun ho => (hput.same_cmds (by simp)).trans (hnone ho)⟩
  rw [tokenPut_apart (g := R.HIF_TOKEN_passes) (fun _ _ _ _ => .inr (.inl (Nat.le_of_ble_eq_true rfl)))
    (fun _ _ => Nat.le_of_ble_eq_true rfl) k hk, hget]

/-- R372: the port holds the token, and the pass is counted. -/
theorem tokenPass_leaves {p : Nat} (hp : p < 2) (s : State) : ∀ k < 2,
    ((tokenPass p).run s).get (R.HIF_TOKEN_holder k) = p ∧ ((tokenPass p).run s).bit (R.HIF_TOKEN_held k) = true ∧
    ((tokenPass p).run s).get (R.HIF_TOKEN_offer k) = s.get (R.HIF_TOKEN_offer k) ∧
    ((tokenPass p).run s).get (R.HIF_TOKEN_passes k) = (s.get (R.HIF_TOKEN_passes k) + 1) % 2 ^ (R.HIF_TOKEN_passes k).w := by
  intro k hk
  rw [tokenPass]
  simp only [Eff.run_all_cons, Eff.run_all_nil, tokenPut_run]
  obtain rfl | rfl : k = 0 ∨ k = 1 := by omega
  · refine ⟨?_, ?_, ?_, ?_⟩
    · simp (disch := (
      try simp only [apart, farKey, R.HIF_TOKEN_holder, R.HIF_TOKEN_held, R.HIF_TOKEN_offer, R.HIF_TOKEN_passes,
        R.HIF_TOKEN_takeover_ms, R.HIF_TOKEN, rk]
      omega)) only [get_evFire_far, get_put_apart, get_addWrap_apart]
      exact put_same_of_lt (by decide) hp _
    · rw [State.bit]
      simp (disch := (
        try simp only [apart, farKey, R.HIF_TOKEN_holder, R.HIF_TOKEN_held, R.HIF_TOKEN_offer, R.HIF_TOKEN_passes,
          R.HIF_TOKEN_takeover_ms, R.HIF_TOKEN, rk]
        omega)) only [get_evFire_far, get_put_apart, get_addWrap_apart, put_same]
      rfl
    · simp (disch := (
      try simp only [apart, farKey, R.HIF_TOKEN_holder, R.HIF_TOKEN_held, R.HIF_TOKEN_offer, R.HIF_TOKEN_passes,
        R.HIF_TOKEN_takeover_ms, R.HIF_TOKEN, rk]
      omega)) only [get_evFire_far, get_put_apart, get_addWrap_apart]
    · simp (disch := (
      try simp only [apart, farKey, R.HIF_TOKEN_holder, R.HIF_TOKEN_held, R.HIF_TOKEN_offer, R.HIF_TOKEN_passes,
        R.HIF_TOKEN_takeover_ms, R.HIF_TOKEN, rk]
      omega)) only [get_evFire_far, get_put_apart, get_addWrap_apart, addWrap_same]
  · refine ⟨?_, ?_, ?_, ?_⟩
    · simp (disch := (
      try simp only [apart, farKey, R.HIF_TOKEN_holder, R.HIF_TOKEN_held, R.HIF_TOKEN_offer, R.HIF_TOKEN_passes,
        R.HIF_TOKEN_takeover_ms, R.HIF_TOKEN, rk]
      omega)) only [get_evFire_far, get_put_apart, get_addWrap_apart]
      exact put_same_of_lt (by decide) hp _
    · rw [State.bit]
      simp (disch := (
        try simp only [apart, farKey, R.HIF_TOKEN_holder, R.HIF_TOKEN_held, R.HIF_TOKEN_offer, R.HIF_TOKEN_passes,
          R.HIF_TOKEN_takeover_ms, R.HIF_TOKEN, rk]
        omega)) only [get_evFire_far, get_put_apart, get_addWrap_apart, put_same]
      rfl
    · simp (disch := (
      try simp only [apart, farKey, R.HIF_TOKEN_holder, R.HIF_TOKEN_held, R.HIF_TOKEN_offer, R.HIF_TOKEN_passes,
        R.HIF_TOKEN_takeover_ms, R.HIF_TOKEN, rk]
      omega)) only [get_evFire_far, get_put_apart, get_addWrap_apart]
    · simp (disch := (
      try simp only [apart, farKey, R.HIF_TOKEN_holder, R.HIF_TOKEN_held, R.HIF_TOKEN_offer, R.HIF_TOKEN_passes,
        R.HIF_TOKEN_takeover_ms, R.HIF_TOKEN, rk]
      omega)) only [get_evFire_far, get_put_apart, get_addWrap_apart, addWrap_same]

theorem tokenPass_within {ps : List Part} (p : Nat) (hps : tells ps) :
    (tokenPass p).Only (Upd.within ps (oneOfQuiet tokenKeys)) := by
  simp only [tokenPass, Eff.only_all_cons, Eff.only_all_nil, and_true]
  exact ⟨tokenPut_within ⟨rfl, rfl⟩ fun _ => .inl, tokenPut_within ⟨rfl, rfl⟩ fun _ => .inl,
    (within_addWrap _ _).2 (.inl (by simp [tokenKeys, R.HIF_TOKEN_passes])), (within_addWrap _ _).2 (.inl (by simp [tokenKeys, R.HIF_TOKEN_passes])),
    evFire_within _ hps⟩

/-- What the pass of the token to the port of `x` leaves. -/
def tokenPassed (x : HCmd) (s t : State) : Prop :=
  holderIs x.port t ∧ t.offer = none ∧
  (∀ k < 2, t.get (R.HIF_TOKEN_passes k) = (s.get (R.HIF_TOKEN_passes k) + 1) % 2 ^ (R.HIF_TOKEN_passes k).w) ∧
  (∀ y ∈ s.cmds, ∃ z ∈ t.cmds, z.id = y.id ∧
    (y.id = x.id ∨ (∃ o, s.offer = some o ∧ o.1 = y.id) → z.phase = 2 ∧ z.status = ST_OK ∧ z.result = 0)) ∧
  keepsQuiet tokenKeys s t ∧ changesOnly [.cmds, .offer, .regs, .msix, .mgmtQ, .out] s t

/-- The pass, after the offer that stood. -/
def passOn (x : HCmd) : Eff := .all [offerEnd ST_OK, tokenPass x.port, hcFinish x.id ST_OK 0]

theorem passOn_passed {x : HCmd} (hp : x.port < 2) (s : State) : tokenPassed x s ((passOn x).run s) := by
  have hwithin : (passOn x).Only (Upd.within [.cmds, .offer, .msix, .mgmtQ, .out] (oneOfQuiet tokenKeys)) := by
    simp only [passOn, Eff.only_all_cons, Eff.only_all_nil, and_true]
    exact ⟨offerEnd_within _ (by simp) fun _ => .inl, tokenPass_within _ (by simp [tells]), fun _ => by simp [Upd.within, Upd.part]⟩
  have hquiet := within_keepsQuiet hwithin s
  have hparts := within_changes hwithin s
  obtain ⟨hoffer, hflag, hpasses, hgiver, hnone⟩ := offerEnd_leaves ST_OK s
  have hrun : (passOn x).run s = (hcFinish x.id ST_OK 0).run ((tokenPass x.port).run ((offerEnd ST_OK).run s)) := by
    simp only [passOn, Eff.run_all_cons, Eff.run_all_nil]
  rw [hrun] at hquiet hparts ⊢
  generalize (offerEnd ST_OK).run s = u at hquiet hparts hoffer hflag hpasses hgiver hnone
  have hpass := tokenPass_leaves hp u
  have htells := within_changes (tokenPass_within (ps := [.msix, .mgmtQ, .out]) x.port (by simp [tells])) u
  generalize (tokenPass x.port).run u = v at hquiet hparts hpass htells
  have hfin := (hcFinish_in x.id ST_OK 0).changes v
  have hget := (get_of_regs (hfin.same_regs (by simp))).1
  have hcmds : ((hcFinish x.id ST_OK 0).run v).cmds = u.cmds.map (finished x.id ST_OK) := by
    rw [hcFinish_cmds, htells.same_cmds (by simp)]
  refine ⟨fun k hk => ?_, ?_, fun k hk => ?_, fun y hy => ?_, hquiet, changesOnly_mono (by simp) hparts⟩
  · obtain ⟨hholder, hheld, hoff, -⟩ := hpass k hk
    rw [State.bit, State.bit, hget]
    refine ⟨hholder, hheld, ?_⟩
    rw [hoff, hflag k hk]
    rfl
  · rw [hfin.same_offer (by simp), htells.same_offer (by simp)]
    exact hoffer
  · rw [hget, (hpass k hk).2.2.2, hpasses k hk]
  · rw [hcmds]
    cases ho : s.offer with
    | none =>
      rw [hnone ho]
      refine ⟨finished x.id ST_OK y, List.mem_map.2 ⟨y, hy, rfl⟩, finished_id .., ?_⟩
      rintro (hid | ⟨o, hso, -⟩)
      · exact finished_of_id hid
      · cases hso
    | some o =>
      rw [hgiver o ho]
      refine ⟨finished x.id ST_OK (finished o.1 ST_OK y), List.mem_map.2 ⟨_, List.mem_map.2 ⟨y, hy, rfl⟩, rfl⟩,
        (finished_id ..).trans (finished_id ..), ?_⟩
      rintro (hid | ⟨o', hso, hid⟩)
      · exact finished_of_id ((finished_id ..).trans hid)
      · obtain rfl : o = o' := by simpa using hso
        exact finished_stays (finished_of_id hid.symm)

/-! The commands of the token -/

section
variable {n : Nat} {x : HCmd} {s : State}

theorem tokenGive_busy (h : startsAs 0x68 n x s) (ho : s.offer ≠ none) : answers x ST_BUSY 0 s ((tokenGive n).run s) := by
  rw [tokenGive, started_run h, Eff.run_look, if_pos (Option.isSome_iff_ne_none.2 ho)]
  exact hcFinish_answers ..

theorem tokenGive_offers (h : startsAs 0x68 n x s) (ho : s.offer = none) :
    let t := (tokenGive n).run s
    t.offer = some (x.id, s.now) ∧ (∀ k < 2, t.get (R.HIF_TOKEN_offer k) = 1) ∧
    (t.cmds = s.cmds.map fun y => if y.id = x.id then { y with phase := 1 } else y) ∧
    keepsRegs tokenKeys s t ∧ changesOnly [.cmds, .offer, .regs, .msix, .mgmtQ, .out] s t := by
  have hrun : (tokenGive n).run s = (tokenPut R.HIF_TOKEN_offer 1).run ((Upd.offer (some (x.id, s.now))).run
      ((hcSet x.id fun y => { y with phase := 1 }).run s)) := by
    rw [tokenGive, started_run h, Eff.run_look, ho]
    simp only [Option.isSome_none, Bool.false_eq_true, if_false, Eff.run_all_cons, Eff.run_all_nil, Eff.run_upd]
  have hset : (hcSet x.id fun y => { y with phase := 1 }).In [.cmds] := Eff.in_look fun _ => Eff.in_upd (by simp [Upd.part])
  have hcmds : ((hcSet x.id fun y => { y with phase := 1 }).run s).cmds =
      s.cmds.map fun y => if y.id = x.id then { y with phase := 1 } else y := by
    rw [hcSet, Eff.run_look, Eff.run_upd, Upd.run_cmds]
    exact List.map_congr_left fun y _ => if_congr beq_iff_eq rfl rfl
  have hfirst := hset.changes s
  dsimp only
  rw [hrun]
  generalize (hcSet x.id fun y => { y with phase := 1 }).run s = u at hcmds hfirst
  have hoffer := (Eff.in_upd (u := .offer (some (x.id, s.now))) (ps := [.offer]) (by simp [Upd.part])).changes u
  rw [Eff.run_upd] at hoffer
  have hshown : ((Upd.offer (some (x.id, s.now))).run u).offer = some (x.id, s.now) := Upd.run_offer ..
  generalize (Upd.offer (some (x.id, s.now))).run u = v at hoffer hshown
  have hput := tokenPut_changes R.HIF_TOKEN_offer 1 v
  refine ⟨(hput.same_offer (by simp)).trans hshown, tokenPut_same ⟨rfl, rfl⟩ (by decide) (by decide), ?_, fun k hk => ?_, ?_⟩
  · rw [hput.same_cmds (by simp), hoffer.same_cmds (by simp), hcmds]
  · rw [within_keepsRegs (ps := []) (keys := tokenKeys) (tokenPut_within ⟨rfl, rfl⟩ fun _ => id) v k hk,
      (get_of_regs (hoffer.same_regs (by simp))).2, (get_of_regs (hfirst.same_regs (by simp))).2]
  · exact changesOnly_trans (changesOnly_mono (by simp) hfirst) (changesOnly_trans (changesOnly_mono (by simp) hoffer)
      (changesOnly_mono (by simp) hput))

theorem tokenAccept_passes (h : startsAs 0x69 n x s) (ho : s.offer ≠ none) (htoken : s.holdsToken x.port = false) (hp : x.port < 2) :
    tokenPassed x s ((tokenAccept n).run s) := by
  obtain ⟨o, ho⟩ := Option.ne_none_iff_exists'.1 ho
  have hrun : (tokenAccept n).run s = (passOn x).run s := by
    rw [tokenAccept, started_run h, Eff.run_look, ho, htoken]
    rfl
  rw [hrun]
  exact passOn_passed hp s

theorem tokenAccept_refused (h : startsAs 0x69 n x s) (hc : s.offer = none ∨ s.holdsToken x.port = true) :
    answers x ST_BAD_ARG 0 s ((tokenAccept n).run s) := by
  rw [tokenAccept, started_run h, Eff.run_look, if_pos (by simpa using hc)]
  exact hcFinish_answers ..

theorem tokenTakeover_holder (h : startsAs 0x6A n x s) (htoken : s.holdsToken x.port = true) :
    answers x ST_BAD_ARG 0 s ((tokenTakeover n).run s) := by
  rw [tokenTakeover, started_run h, Eff.run_look, if_pos htoken]
  exact hcFinish_answers ..

theorem mayTakeOver_eq (hheld : s.bit (R.HIF_TOKEN_held 0) = true) (hdown : s.linkDownAt (s.get (R.HIF_TOKEN_holder 0)) ≠ 0) :
    s.mayTakeOver = decide (s.linkDownAt (s.get (R.HIF_TOKEN_holder 0)) - 1 + s.get (R.HIF_TOKEN_takeover_ms 0) * 1000000 ≤ s.now) := by
  rw [State.mayTakeOver, hheld, bne_iff_ne.2 hdown, Bool.true_and, Bool.true_and]

theorem tokenTakeover_early (h : startsAs 0x6A n x s) (htoken : s.holdsToken x.port = false) (hmay : s.mayTakeOver = false) :
    answers x ST_BUSY 0 s ((tokenTakeover n).run s) := by
  rw [tokenTakeover, started_run h, Eff.run_look, htoken, hmay]
  exact hcFinish_answers ..

theorem tokenTakeover_passes (h : startsAs 0x6A n x s) (htoken : s.holdsToken x.port = false) (hmay : s.mayTakeOver = true)
    (hp : x.port < 2) : tokenPassed x s ((tokenTakeover n).run s) := by
  have hrun : (tokenTakeover n).run s = (passOn x).run s := by
    rw [tokenTakeover, started_run h, Eff.run_look, htoken, hmay]
    rfl
  rw [hrun]
  exact passOn_passed hp s

theorem tokenTimeout_sets (h : startsAs 0x6B n x s) (hlo : 100 ≤ leAt x.desc 8 4) (hhi : leAt x.desc 8 4 ≤ 60000) :
    let t := (tokenTimeout n).run s
    (∀ k < 2, t.get (R.HIF_TOKEN_takeover_ms k) = leAt x.desc 8 4) ∧ ended x ST_OK 0 s t ∧ keepsRegs tokenKeys s t ∧
    changesOnly [.cmds, .offer, .regs, .msix, .mgmtQ, .out] s t := by
  have hrun : (tokenTimeout n).run s = (hcFinish x.id ST_OK 0).run ((tokenPut R.HIF_TOKEN_takeover_ms (leAt x.desc 8 4)).run s) := by
    rw [tokenTimeout, started_run h]
    dsimp only
    rw [if_neg (by rw [HCmd.arg]; omega), Eff.run_seq]
    rfl
  have hput := tokenPut_changes R.HIF_TOKEN_takeover_ms (leAt x.desc 8 4) s
  have hkeeps := within_keepsRegs (ps := []) (keys := tokenKeys)
    (tokenPut_within (f := R.HIF_TOKEN_takeover_ms) (v := leAt x.desc 8 4) ⟨rfl, rfl⟩ fun _ => id) s
  have hset : ∀ k < 2, ((tokenPut R.HIF_TOKEN_takeover_ms (leAt x.desc 8 4)).run s).get (R.HIF_TOKEN_takeover_ms k) = leAt x.desc 8 4 :=
    tokenPut_same ⟨rfl, rfl⟩ (by decide) (lt_of_le_of_lt hhi (by decide))
  dsimp only
  rw [hrun]
  generalize (tokenPut R.HIF_TOKEN_takeover_ms (leAt x.desc 8 4)).run s = u at hput hkeeps hset
  obtain ⟨hended, hfin⟩ := hcFinish_answers x ST_OK 0 u
  obtain ⟨hget, hregs⟩ := get_of_regs (hfin.same_regs (by simp))
  refine ⟨fun k hk => by rw [hget, hset k hk], ?_, fun k hk => by rw [hregs]; exact hkeeps k hk,
    changesOnly_trans (changesOnly_mono (by simp) hput) (changesOnly_mono (by simp) hfin)⟩
  rw [ended, hended, hput.same_cmds (by simp)]

theorem tokenTimeout_refused (h : startsAs 0x6B n x s) (hc : leAt x.desc 8 4 < 100 ∨ 60000 < leAt x.desc 8 4) :
    answers x ST_BAD_ARG 0 s ((tokenTimeout n).run s) := by
  rw [tokenTimeout, started_run h]
  dsimp only
  rw [if_pos (by rw [HCmd.arg]; exact hc)]
  exact hcFinish_answers ..

end

/-- R373: the offer's end, 1,000 ms on. -/
theorem tokenOfferExpiry_ends {o : Nat × Nat} {s : State} (ho : s.offer = some o) :
    let t := tokenOfferExpiry.run s
    t.now = max s.now (o.2 + 1000000000) ∧ t.offer = none ∧ (∀ k < 2, t.get (R.HIF_TOKEN_offer k) = 0) ∧
    (t.cmds = s.cmds.map fun y => if y.id = o.1 then { y with phase := 2, status := ST_TIMEOUT, result := 0 } else y) ∧
    keepsRegs tokenKeys s t ∧ changesOnly [.now, .cmds, .offer, .regs] s t := by
  have hrun : tokenOfferExpiry.run s = (offerEnd ST_TIMEOUT).run ((Upd.now (max s.now (o.2 + 1000000000))).run s) := by
    rw [tokenOfferExpiry, Eff.run_look, ho]
    dsimp only
    rw [Eff.run_seq, reachTime_run]
  have hnow := (Eff.in_upd (u := .now (max s.now (o.2 + 1000000000))) (ps := [.now]) (by simp [Upd.part])).changes s
  rw [Eff.run_upd] at hnow
  have htime : ((Upd.now (max s.now (o.2 + 1000000000))).run s).now = max s.now (o.2 + 1000000000) := Upd.run_now ..
  dsimp only
  rw [hrun]
  generalize (Upd.now (max s.now (o.2 + 1000000000))).run s = u at hnow htime
  obtain ⟨hoffer, hflag, -, hgiver, -⟩ := offerEnd_leaves ST_TIMEOUT u
  have hwithin : (offerEnd ST_TIMEOUT).Only (Upd.within [.cmds, .offer] (oneOf tokenKeys)) := offerEnd_within _ (by simp) fun _ => id
  have hparts := within_changes hwithin u
  refine ⟨(hparts.same_now (by simp)).trans htime, hoffer, hflag, ?_, fun k hk => ?_,
    changesOnly_trans (changesOnly_mono (by simp) hnow) (changesOnly_mono (by simp) hparts)⟩
  · rw [hgiver o (by rw [hnow.same_offer (by simp), ho]), hnow.same_cmds (by simp)]
    rfl
  · rw [within_keepsRegs hwithin u k hk, (get_of_regs (hnow.same_regs (by simp))).2]

theorem controlToken : Claims.ControlToken := by
  intro n x s
  dsimp only
  refine ⟨fun h => ⟨fun ho => yields_done (p := tokenGive n) rfl h.1 (tokenGive_offers h ho),
      fun ho => yields_done (p := tokenGive n) rfl h.1 (tokenGive_busy h ho)⟩,
    fun h => ⟨fun ho htoken hp => yields_done (p := tokenAccept n) rfl h.1 (tokenAccept_passes h ho htoken hp),
      fun hc => yields_done (p := tokenAccept n) rfl h.1 (tokenAccept_refused h hc)⟩,
    fun o hpow ho => yields_done (p := tokenOfferExpiry) rfl hpow (tokenOfferExpiry_ends ho),
    fun h => ⟨fun htoken => yields_done (p := tokenTakeover n) rfl h.1 (tokenTakeover_holder h htoken), fun htoken hp hheld hdown => ?_⟩,
    fun h => ⟨fun hlo hhi => yields_done (p := tokenTimeout n) rfl h.1 (tokenTimeout_sets h hlo hhi),
      fun hc => yields_done (p := tokenTimeout n) rfl h.1 (tokenTimeout_refused h hc)⟩⟩
  have hmay := mayTakeOver_eq hheld hdown
  exact ⟨fun htime => yields_done (p := tokenTakeover n) rfl h.1 (tokenTakeover_passes h htoken (by rw [hmay]; exact decide_eq_true htime) hp),
    fun htime => yields_done (p := tokenTakeover n) rfl h.1
      (tokenTakeover_early h htoken (by rw [hmay]; exact decide_eq_false (Nat.not_le.2 htime)))⟩

/-- Settles O33, by the laws of a port's link and of the token. -/
theorem hostLinkAndToken : Obligations.HostLinkAndToken := ⟨hostLinks, controlToken⟩

end Sys2Proof.Proofs

/-! The scalar and control instructions of a bank unit (R211, R214, R216, R224, R231). -/

namespace Sys2Proof.Proofs
open Sys2Proof.Machine Sys2Proof.Claims


/-! A general register, and the next instruction -/

section
variable (u d : Nat) (v : Word) (s : State)

theorem putBug_within {ps : List Part} {K : Nat → Prop} (hK : d ≠ 0 → K (R.BU_G (buC u) (buP u) d)) :
    (putBug u d v).Only (Upd.within ps K) := by
  rw [putBug]
  split
  · trivial
  next h => exact hK h

theorem bug_putBug : ((putBug u d v).run s).bug u d = if d = 0 then 0 else v := by
  rw [State.bug, putBug]
  split
  · rfl
  · exact putReg_same ..

theorem bug_congr {s t : State} {u d : Nat} (h : t.regsAt (R.BU_G (buC u) (buP u) d) = s.regsAt (R.BU_G (buC u) (buP u) d)) :
    t.bug u d = s.bug u d := by rw [State.bug, State.bug, State.reg, State.reg, h]

end

theorem putBuPc_within {ps : List Part} {K : Nat → Prop} (u pc : Nat)
    (hK : K (R.BU_STATUS (buC u) (buP u)) ∧ K (R.BU_PROGRESS (buC u) (buP u))) : (putBuPc u pc).Only (Upd.within ps K) :=
  (Eff.only_all_cons _ _).2 ⟨(within_put _ _).2 hK.1, (Eff.only_all_cons _ _).2 ⟨(within_put _ _).2 hK.2, trivial⟩⟩

theorem putBuPc_gets {u pc : Nat} (hpc : pc < 512) (s : State) :
    ((putBuPc u pc).run s).buPc u = pc ∧ ((putBuPc u pc).run s).get (R.BU_PROGRESS_pc (buC u) (buP u)) = pc ∧
    ((putBuPc u pc).run s).bu u = s.bu u := by
  have hlt : pc < 2 ^ 9 := hpc
  rw [putBuPc, State.buPc, State.bu, State.bu]
  simp only [Eff.run_all_cons, Eff.run_all_nil]
  refine ⟨?_, ?_, ?_⟩
  · simp (disch := (
    try simp only [apart, farKey, R.BU_STATUS_state, R.BU_STATUS_pc, R.BU_STATUS_last_status, R.BU_STATUS_queued,
      R.BU_STATUS_held, R.BU_PROGRESS_pc, R.BU_YIELD_max_gap_ns, R.BU_CMDS_count, R.BU_FAULT_l_addr, R.BU_FAULT_pc,
      R.BU_FAULT_status, R.BU_FAULT_cause, R.BU_STATUS, R.BU_PROGRESS, R.BU_YIELD, R.BU_CMDS, R.BU_FAULT, rk]
    omega)) only [get_put_apart]
    exact put_same_of_lt (Nat.le_of_ble_eq_true rfl) hlt s
  · exact put_same_of_lt (Nat.le_of_ble_eq_true rfl) hlt _
  · simp (disch := (
    try simp only [apart, farKey, R.BU_STATUS_state, R.BU_STATUS_pc, R.BU_STATUS_last_status, R.BU_STATUS_queued,
      R.BU_STATUS_held, R.BU_PROGRESS_pc, R.BU_YIELD_max_gap_ns, R.BU_CMDS_count, R.BU_FAULT_l_addr, R.BU_FAULT_pc,
      R.BU_FAULT_status, R.BU_FAULT_cause, R.BU_STATUS, R.BU_PROGRESS, R.BU_YIELD, R.BU_CMDS, R.BU_FAULT, rk]
    omega)) only [get_put_apart]

/-- A result in a register, then the next instruction. -/
def bugThen (u d : Nat) (v : Word) (pc : Nat) : Eff := .seq (putBug u d v) (putBuPc u pc)

theorem bugThen_done {u d pc : Nat} {v : Word} {s : State} (hrun : s.bu u = BU_RUN) (hpc : pc < 512) :
    unitDone u d v pc s ((bugThen u d v pc).run s) := by
  have hwithin : (bugThen u d v pc).Only (Upd.within []
      fun k => k = R.BU_STATUS (u / 8) (u % 8) ∨ k = R.BU_PROGRESS (u / 8) (u % 8) ∨ (k = R.BU_G (u / 8) (u % 8) d ∧ d ≠ 0)) :=
    ⟨putBug_within u d v fun hd => .inr (.inr ⟨rfl, hd⟩), putBuPc_within u pc ⟨.inl rfl, .inr (.inl rfl)⟩⟩
  have hkept : ∀ k, k ≠ R.BU_STATUS (u / 8) (u % 8) → k ≠ R.BU_PROGRESS (u / 8) (u % 8) →
      (k ≠ R.BU_G (u / 8) (u % 8) d ∨ d = 0) → ((bugThen u d v pc).run s).regsAt k = s.regsAt k := fun k h1 h2 h3 =>
    within_regsAt hwithin s fun h => by
      rcases h with h | h | ⟨h, hd⟩
      · exact h1 h
      · exact h2 h
      · exact h3.elim (fun hne => hne h) hd
  have hparts := within_changes hwithin s
  rw [bugThen, Eff.run_seq] at hkept hparts ⊢
  have hput : (putBug u d v).Only (Upd.within [] fun k => k = R.BU_G (buC u) (buP u) d) := putBug_within u d v fun _ => rfl
  have hpcs : (putBuPc u pc).Only (Upd.within [] fun k => k = R.BU_STATUS (buC u) (buP u) ∨ k = R.BU_PROGRESS (buC u) (buP u)) :=
    putBuPc_within u pc ⟨.inl rfl, .inr rfl⟩
  obtain ⟨hat, hshown, hstate⟩ := putBuPc_gets (u := u) hpc ((putBug u d v).run s)
  refine ⟨?_, hat, hshown, hstate.trans (Eq.trans ?_ hrun), hkept, hparts⟩
  · rw [bug_congr (within_regsAt hpcs _ (by simp only [R.BU_G, R.BU_STATUS, R.BU_PROGRESS, rk]; omega)), bug_putBug]
  · exact within_get hput s (by simp only [R.BU_STATUS_state, R.BU_STATUS, R.BU_G, rk]; omega)

/-! A step of a running program -/

/-- A unit at a legal instruction, fetched as stored, yields what the instruction leaves. -/
theorem unit_yields {c : Instr} {s : State} {u op : Nat} {w : Word} {k : BuInstr → Eff} {post : State → Prop}
    (hc : exec c s = (buStep u op (0 : Fin 3) k).done s) (h : unitAt s u w op) (hpost : post ((k (buFields w)).run s)) : yields c s post :=
  yields_done hc h.1 (by rw [buStep_at h]; exact hpost)

/-- An instruction whose effect is a result in a register and a next instruction. -/
theorem unit_gives {c : Instr} {s : State} {u op d pc : Nat} {w v : Word} {k : BuInstr → Eff}
    (hc : exec c s = (buStep u op (0 : Fin 3) k).done s) (h : unitAt s u w op) (hpc : pc < 512)
    (hk : (k (buFields w)).run s = (bugThen u d v pc).run s) : yields c s (unitDone u d v pc s) :=
  unit_yields hc h (by rw [hk]; exact bugThen_done h.2.1 hpc)

theorem putBug_pc (u d : Nat) (v : Word) (s : State) : ((putBug u d v).run s).buPc u = s.buPc u :=
  within_get (ps := []) (K := fun k => k = R.BU_G (buC u) (buP u) d) (putBug_within u d v fun _ => rfl) s
    (by simp only [R.BU_STATUS_pc, R.BU_STATUS, R.BU_G, rk]; omega)

theorem bugThen_zero (u pc : Nat) (v : Word) (s : State) : (bugThen u 0 v pc).run s = (putBuPc u pc).run s := by
  rw [bugThen, Eff.run_seq]
  rfl

theorem scalar_gives {c : Instr} {s : State} {u op : Nat} {w : Word} {f : BuInstr → Word → Word → Word → Word} (hpc : s.buPc u < 511)
    (hc : exec c s = (buScalar u op (0 : Fin 3) f).done s) (h : unitAt s u w op) :
    yields c s (unitDone u (buFields w).d (f (buFields w) (s.bug u (buFields w).d) (s.bug u (buFields w).a) (s.bug u (buFields w).b))
      (s.buPc u + 1) s) :=
  unit_gives hc h (by omega) (by
    rw [Eff.run_look, Eff.run_seq, buNext_below (by rw [putBug_pc]; omega), putBug_pc, bugThen, Eff.run_seq])

theorem unitScalarResults : Claims.UnitScalarResults := by
  intro u w s hpc
  dsimp only
  refine ⟨fun h => unit_gives rfl h (by omega) ?_, scalar_gives (f := fun i _ _ _ => i.imm.signExtend 64) hpc rfl,
    scalar_gives (f := fun i d _ _ => i.imm ++ d.setWidth 32) hpc rfl, scalar_gives (f := fun i _ a b => a + b + i.imm.signExtend 64) hpc rfl,
    scalar_gives (f := fun _ _ a b => a - b) hpc rfl, scalar_gives (f := fun _ _ a b => a * b) hpc rfl,
    scalar_gives (f := fun i _ a b => a <<< buShift i b) hpc rfl, scalar_gives (f := fun i _ a b => a >>> buShift i b) hpc rfl,
    scalar_gives (f := fun _ _ a b => a &&& b) hpc rfl, scalar_gives (f := fun _ _ a b => a ||| b) hpc rfl⟩
  rw [bugThen_zero, buNext_below (by omega)]

/-! Jumps -/

theorem buBranch_run {u pc : Nat} {i : BuInstr} {b : Bool} {s : State} (hnext : s.buPc u + 1 < 512)
    (hpc : pc = if b then i.imm.toNat % 512 else s.buPc u + 1) : (buBranch u i b).run s = (putBuPc u pc).run s := by
  rw [buBranch, hpc]
  cases b
  · exact buNext_below (by omega)
  · rfl

theorem branch_gives {c : Instr} {s : State} {u op pc : Nat} {w : Word} {b : BuInstr → State → Bool} (hnext : s.buPc u + 1 < 512)
    (hc : exec c s = (buStep u op (0 : Fin 3) fun i => .look fun s => buBranch u i (b i s)).done s) (h : unitAt s u w op)
    (hpc : pc = if b (buFields w) s then (buFields w).imm.toNat % 512 else s.buPc u + 1) : yields c s (unitDone u 0 0 pc s) :=
  unit_gives hc h (by rw [hpc]; split <;> omega) (by rw [bugThen_zero, Eff.run_look, buBranch_run hnext hpc])

theorem loop_gives {s : State} {u : Fin 1024} {w : Word} (hnext : s.buPc u + 1 < 512) (h : unitAt s u w 0x0D) (hd : (buFields w).d ≠ 0) :
    let v := s.bug u (buFields w).d - 1
    yields (.buLoop u 0) s (unitDone u (buFields w).d v (if v ≠ 0 then (buFields w).imm.toNat % 512 else s.buPc u + 1) s) := by
  refine unit_gives rfl h (by split <;> omega) ?_
  dsimp only
  rw [Eff.run_look, Eff.run_seq, Eff.run_look, bug_putBug, if_neg hd, bugThen, Eff.run_seq, buBranch_run (by rw [putBug_pc]; exact hnext) ?_]
  rw [putBug_pc]
  exact if_congr bne_iff_ne.symm rfl rfl

/-! The yield point (R224) -/

theorem yieldPoint_run {u : Nat} {s : State} (h : s.heldAt u = []) : (yieldPoint u).run s =
    (Upd.yieldAt u s.now).run ((put (R.BU_YIELD_max_gap_ns (buC u) (buP u))
      (max (s.get (R.BU_YIELD_max_gap_ns (buC u) (buP u))) (s.buGap u))).run s) := by
  rw [yieldPoint, Eff.run_look]
  simp only [Eff.run_all_cons, Eff.run_all_nil, Eff.run_upd]
  have hput := (put_in (ps := [.regs]) (R.BU_YIELD_max_gap_ns (buC u) (buP u))
    (max (s.get (R.BU_YIELD_max_gap_ns (buC u) (buP u))) (s.buGap u)) (by simp)).changes s
  generalize (put _ _).run s = t at hput ⊢
  have hat := (Eff.in_upd (u := .yieldAt u s.now) (ps := [.yieldAt]) (by simp [Upd.part])).changes t
  rw [Eff.run_upd] at hat
  have hheld : ((Upd.yieldAt u s.now).run t).heldAt u = [] := by
    rw [State.heldAt, hat.same_held (by simp), hput.same_held (by simp)]
    exact h
  rw [memoryWindow, Eff.run_look, hheld]
  rfl

theorem maxGap_lt (u : Nat) (s : State) : max (s.get (R.BU_YIELD_max_gap_ns (buC u) (buP u))) (s.buGap u) < 2 ^ 14 :=
  max_lt (get_lt s _) (lt_of_le_of_lt (Nat.min_le_left _ _) (by decide))

theorem yieldPoint_leaves {u : Nat} {s : State} (h : s.heldAt u = []) :
    let t := (yieldPoint u).run s
    t.yieldAtAt u = s.now ∧
    t.get (R.BU_YIELD_max_gap_ns (buC u) (buP u)) = max (s.get (R.BU_YIELD_max_gap_ns (buC u) (buP u))) (s.buGap u) ∧
    keepsRegs [R.BU_YIELD (buC u) (buP u)] s t ∧ changesOnly [.regs, .yieldAt] s t := by
  dsimp only
  rw [yieldPoint_run h]
  refine ⟨Upd.run_yieldAt_same .., ?_, fun k hk => ?_, ?_⟩
  · exact (get_upd (by simp [Upd.part]) _ _).trans (put_same_of_lt (Nat.le_of_ble_eq_true rfl) (maxGap_lt u s) s)
  · exact (regsAt_upd (by simp [Upd.part]) k _).trans (put_other (f := R.BU_YIELD_max_gap_ns (buC u) (buP u)) (List.ne_of_not_mem_cons hk) _ s)
  · exact changesOnly_trans ((put_in _ _ (by simp)).changes s) ((Eff.in_upd (u := .yieldAt u s.now) (by simp [Upd.part])).changes _)

theorem yield_gives {s : State} {u : Fin 1024} {w : Word} (hnext : s.buPc u + 1 < 512) (h : unitAt s u w 0x0E) (hheld : s.heldAt u = []) :
    yields (.buYield u 0) s fun t =>
      t.buPc u = s.buPc u + 1 ∧ t.yieldAtAt u = s.now ∧
      t.get (R.BU_YIELD_max_gap_ns (buC u) (buP u)) = max (s.get (R.BU_YIELD_max_gap_ns (buC u) (buP u))) (s.buGap u) ∧
      keepsRegs [R.BU_STATUS (buC u) (buP u), R.BU_PROGRESS (buC u) (buP u), R.BU_YIELD (buC u) (buP u)] s t ∧
      changesOnly [.regs, .yieldAt] s t := by
  refine unit_yields rfl h ?_
  rw [Eff.run_seq]
  obtain ⟨hat, hgap, hregs, hparts⟩ := yieldPoint_leaves hheld
  generalize (yieldPoint u).run s = v at hat hgap hregs hparts
  have hpc : v.buPc u = s.buPc u := congrArg (R.BU_STATUS_pc (buC u) (buP u)).read
    (hregs _ (by simp only [List.mem_singleton, R.BU_STATUS_pc, R.BU_STATUS, R.BU_YIELD, rk]; omega))
  have hpcs : (putBuPc u (s.buPc u + 1)).Only (Upd.within [] (oneOf [R.BU_STATUS (buC u) (buP u), R.BU_PROGRESS (buC u) (buP u)])) :=
    putBuPc_within u _ ⟨by simp [oneOf], by simp [oneOf]⟩
  have hlast := within_changes hpcs v
  rw [buNext_below (by rw [hpc]; omega), hpc]
  refine ⟨(putBuPc_gets hnext v).1, ?_, ?_, fun k hk => ?_, changesOnly_trans hparts (changesOnly_mono (by simp) hlast)⟩
  · rw [State.yieldAtAt, hlast.same_yieldAt (by simp)]
    exact hat
  · rw [within_get hpcs v
    (by simp only [oneOf, List.mem_cons, List.not_mem_nil, or_false, R.BU_YIELD_max_gap_ns, R.BU_YIELD, R.BU_STATUS, R.BU_PROGRESS,
      rk]; omega)]
    exact hgap
  · simp only [List.mem_cons, List.not_mem_nil, or_false, not_or] at hk
    rw [within_keepsRegs hpcs v k (by simp [hk]), hregs k (by simp [hk])]

/-! The end of a command (R211, R231) -/

/-- The fault record and the event of a command that fails. -/
def completeFault (u : Nat) (x : BuCmd) (st l cause : Nat) : Eff := Eff.when (st != ST_OK && st != ST_BU_FORCED_YIELD) (.all [
  buFault u l st cause,
  Eff.when (st == ST_POISON) (match x.badAt with | some (_, pc) => put (R.BU_FAULT_pc (buC u) (buP u)) pc | none => .skip),
  evFire (buC u * 8 + 3)])

/-- A page copy that the command made learns its status. -/
def completeKvt (x : BuCmd) (st : Nat) : Eff :=
  match x.kvt with
  | some c => .look fun s => .upd (.kvtQ c ((s.kvtQAt c).map fun y =>
      { y with copies := y.copies.map fun z => if z.cmd == some x.id then { z with done := some st } else z }))
  | none => .skip

/-- The signal of a command that asks for one. -/
def completeSignal (u : Nat) (x : BuCmd) : Eff := Eff.when (x.flags % 2 == 1) (sendSignal (srcUnit u) (buC u) x.donePbx 1)

theorem buComplete_run (u : Nat) (x : BuCmd) (st l cause : Nat) (s : State) : (buComplete u x st l cause).run s =
    (buShow u).run ((completeKvt x st).run ((completeSignal u x).run ((completeFault u x st l cause).run
      ((addSat (R.BU_CMDS_count (buC u) (buP u)) 1).run ((buLast u st).run
        ((Upd.buQ u ((s.buQAt u).filter fun y => y.id != x.id)).run s)))))) := by
  rw [buComplete]
  simp only [Eff.run_all_cons, Eff.run_all_nil, Eff.run_look, Eff.run_upd]
  rfl

section
variable {ps : List Part} {K : Nat → Prop} {u : Nat} {x : BuCmd} {st l cause : Nat}

theorem completeFault_within {keys : List Nat} (hps : tells ps) (hkey : R.BU_FAULT (buC u) (buP u) ∈ keys) :
    (completeFault u x st l cause).Only (Upd.within ps (oneOfQuiet keys)) := by
  have hfault : (buFault u l st cause).Only (Upd.within ps (oneOfQuiet keys)) := fun s => by
    simp only [Eff.only_all_cons, Eff.only_all_nil, within_put, and_true]
    exact ⟨.inl hkey, .inl hkey, .inl hkey, .inl hkey⟩
  refine (Eff.only_when _ _).2 fun _ => (Eff.only_all_cons _ _).2 ⟨hfault, (Eff.only_all_cons _ _).2 ⟨(Eff.only_when _ _).2 fun _ => ?_,
    (Eff.only_all_cons _ _).2 ⟨evFire_within _ hps, trivial⟩⟩⟩
  split
  · exact (within_put _ _).2 (.inl hkey)
  · trivial

theorem completeSignal_within (hps : Part.sigQ ∈ ps) : (completeSignal u x).Only (Upd.within ps K) :=
  (Eff.only_when _ _).2 fun _ _ => hps

theorem completeKvt_within (hps : x.kvt = none ∨ Part.kvtQ ∈ ps) : (completeKvt x st).Only (Upd.within ps K) := by
  unfold completeKvt
  split
  next c hc => exact fun _ => hps.resolve_left (by rw [hc]; exact Option.some_ne_none c)
  next => trivial

theorem completeSignal_in (u : Nat) (x : BuCmd) : (completeSignal u x).In [.sigQ] :=
  Eff.in_when (Eff.in_look fun _ => Eff.in_upd (by simp [Upd.part]))

theorem completeKvt_in (x : BuCmd) (st : Nat) : (completeKvt x st).In [.kvtQ] := by
  unfold completeKvt
  split
  · exact Eff.in_look fun _ => Eff.in_upd (by simp [Upd.part])
  · exact Eff.in_skip

theorem buShow_within (hkey : K (R.BU_STATUS (buC u) (buP u))) : (buShow u).Only (Upd.within ps K) := fun _ => (within_put _ _).2 hkey

theorem buComplete_within {keys : List Nat} (hps : tells ps) (hparts : Part.buQ ∈ ps ∧ Part.sigQ ∈ ps) (hkvt : x.kvt = none ∨ Part.kvtQ ∈ ps)
    (hkeys : R.BU_STATUS (buC u) (buP u) ∈ keys ∧ R.BU_CMDS (buC u) (buP u) ∈ keys ∧ R.BU_FAULT (buC u) (buP u) ∈ keys) :
    (buComplete u x st l cause).Only (Upd.within ps (oneOfQuiet keys)) := by
  obtain ⟨hstatus, hcmds, hfault⟩ := hkeys
  exact (Eff.only_all_cons _ _).2 ⟨fun _ => hparts.1, (Eff.only_all_cons _ _).2 ⟨(within_put _ _).2 (.inl hstatus), (Eff.only_all_cons _ _).2
    ⟨(within_addSat _ _).2 (.inl hcmds), (Eff.only_all_cons _ _).2 ⟨completeFault_within hps hfault, (Eff.only_all_cons _ _).2
    ⟨completeSignal_within hparts.2, (Eff.only_all_cons _ _).2 ⟨completeKvt_within hkvt, (Eff.only_all_cons _ _).2
    ⟨buShow_within (.inl hstatus), trivial⟩⟩⟩⟩⟩⟩⟩

end

/-- The number of commands of the unit that are queued changes no other field of its status. -/
theorem buShow_get {u : Nat} {f : Fld} (h : apart (R.BU_STATUS_queued (buC u) (buP u)) f) (hf : f.lo + f.w ≤ 64) (s : State) :
    ((buShow u).run s).get f = s.get f := get_put_apart h hf _ s

section
variable {u : Nat} (hu : u < 1024)
include hu

/-- The registers of a unit lie outside those in which events are recorded. -/
theorem unitKey_far {off : Nat} (hoff : off < 0x1000) : farKey (rk (buC u * 16 + 9) (off + buP u * 0x1000)) := by
  simp only [farKey, buC, buP, rk]
  omega

theorem completeFault_get {x : BuCmd} {st l cause : Nat} {f : Fld} {off : Nat} (hoff : off < 0x1000)
    (hf : f.key = rk (buC u * 16 + 9) (off + buP u * 0x1000)) (hne : f.key ≠ R.BU_FAULT (buC u) (buP u)) (s : State) :
    ((completeFault u x st l cause).run s).get f = s.get f :=
  within_get (ps := [.msix, .mgmtQ, .out]) (completeFault_within (keys := [R.BU_FAULT (buC u) (buP u)]) (by simp [tells]) (by simp)) s
    (by rintro (h | h)
        · exact hne (List.mem_singleton.1 h)
        · exact h (hf ▸ unitKey_far hu hoff))

/-- What the end of one command leaves of the unit and of the signals under way. -/
theorem buComplete_leaves {x : BuCmd} {st l cause : Nat} (hst : st < 256) (s : State) :
    let t := (buComplete u x st l cause).run s
    t.buQAt u = (s.buQAt u).filter (fun y => y.id != x.id) ∧ t.get (R.BU_STATUS_last_status (buC u) (buP u)) = st ∧
    t.get (R.BU_CMDS_count (buC u) (buP u)) =
      min (s.get (R.BU_CMDS_count (buC u) (buP u)) + 1) (2 ^ (R.BU_CMDS_count (buC u) (buP u)).w - 1) ∧
    t.sigQ = (if x.flags % 2 = 1 then s.sigQ ++ [⟨srcUnit u, buC u, x.donePbx, 1, s.now⟩] else s.sigQ) ∧
    t.bu u = s.bu u ∧ t.buPc u = s.buPc u := by
  dsimp only
  rw [buComplete_run]
  have hq : ((Upd.buQ u ((s.buQAt u).filter fun y => y.id != x.id)).run s).buQAt u = (s.buQAt u).filter fun y => y.id != x.id :=
    Upd.run_buQ_same ..
  have hqparts := (Eff.in_upd (u := .buQ u ((s.buQAt u).filter fun y => y.id != x.id)) (ps := [.buQ]) (by simp [Upd.part])).changes s
  rw [Eff.run_upd] at hqparts
  generalize (Upd.buQ u _).run s = s1 at hq hqparts ⊢
  have hget1 := (get_of_regs (hqparts.same_regs (by simp))).1
  have hlast : ((addSat (R.BU_CMDS_count (buC u) (buP u)) 1).run ((buLast u st).run s1)).get (R.BU_STATUS_last_status (buC u) (buP u)) = st := by
    rw [buLast]
    simp (disch := (
      try simp only [apart, farKey, R.BU_STATUS_state, R.BU_STATUS_pc, R.BU_STATUS_last_status, R.BU_STATUS_queued,
        R.BU_STATUS_held, R.BU_PROGRESS_pc, R.BU_YIELD_max_gap_ns, R.BU_CMDS_count, R.BU_FAULT_l_addr, R.BU_FAULT_pc,
        R.BU_FAULT_status, R.BU_FAULT_cause, R.BU_STATUS, R.BU_PROGRESS, R.BU_YIELD, R.BU_CMDS, R.BU_FAULT, rk]
      omega)) only [get_addSat_apart]
    exact put_same_of_lt (Nat.le_of_ble_eq_true rfl) hst s1
  have hcount : ((addSat (R.BU_CMDS_count (buC u) (buP u)) 1).run ((buLast u st).run s1)).get (R.BU_CMDS_count (buC u) (buP u)) =
      min (s.get (R.BU_CMDS_count (buC u) (buP u)) + 1) (2 ^ (R.BU_CMDS_count (buC u) (buP u)).w - 1) := by
    rw [addSat_same _ _ _ (Nat.le_of_ble_eq_true rfl), buLast]
    simp (disch := (
      try simp only [apart, farKey, R.BU_STATUS_state, R.BU_STATUS_pc, R.BU_STATUS_last_status, R.BU_STATUS_queued,
        R.BU_STATUS_held, R.BU_PROGRESS_pc, R.BU_YIELD_max_gap_ns, R.BU_CMDS_count, R.BU_FAULT_l_addr, R.BU_FAULT_pc,
        R.BU_FAULT_status, R.BU_FAULT_cause, R.BU_STATUS, R.BU_PROGRESS, R.BU_YIELD, R.BU_CMDS, R.BU_FAULT, rk]
      omega)) only [get_put_apart]
    rw [hget1]
  have hstate : ((addSat (R.BU_CMDS_count (buC u) (buP u)) 1).run ((buLast u st).run s1)).bu u = s.bu u := by
    rw [State.bu, State.bu, buLast]
    simp (disch := (
      try simp only [apart, farKey, R.BU_STATUS_state, R.BU_STATUS_pc, R.BU_STATUS_last_status, R.BU_STATUS_queued,
        R.BU_STATUS_held, R.BU_PROGRESS_pc, R.BU_YIELD_max_gap_ns, R.BU_CMDS_count, R.BU_FAULT_l_addr, R.BU_FAULT_pc,
        R.BU_FAULT_status, R.BU_FAULT_cause, R.BU_STATUS, R.BU_PROGRESS, R.BU_YIELD, R.BU_CMDS, R.BU_FAULT, rk]
      omega)) only [get_put_apart, get_addSat_apart]
    rw [hget1]
  have hpc : ((addSat (R.BU_CMDS_count (buC u) (buP u)) 1).run ((buLast u st).run s1)).buPc u = s.buPc u := by
    rw [State.buPc, State.buPc, buLast]
    simp (disch := (
      try simp only [apart, farKey, R.BU_STATUS_state, R.BU_STATUS_pc, R.BU_STATUS_last_status, R.BU_STATUS_queued,
        R.BU_STATUS_held, R.BU_PROGRESS_pc, R.BU_YIELD_max_gap_ns, R.BU_CMDS_count, R.BU_FAULT_l_addr, R.BU_FAULT_pc,
        R.BU_FAULT_status, R.BU_FAULT_cause, R.BU_STATUS, R.BU_PROGRESS, R.BU_YIELD, R.BU_CMDS, R.BU_FAULT, rk]
      omega)) only [get_put_apart, get_addSat_apart]
    rw [hget1]
  have h2 : changesOnly [.regs] s1 ((addSat (R.BU_CMDS_count (buC u) (buP u)) 1).run ((buLast u st).run s1)) :=
    changesOnly_trans ((put_in _ _ (by simp)).changes s1) ((addSat_in _ _ (by simp)).changes _)
  generalize (addSat (R.BU_CMDS_count (buC u) (buP u)) 1).run ((buLast u st).run s1) = s2 at hlast hcount hstate hpc h2 ⊢
  have h3 := within_changes (ps := [.msix, .mgmtQ, .out]) (completeFault_within (u := u) (x := x) (st := st) (l := l) (cause := cause)
    (keys := [R.BU_FAULT (buC u) (buP u)]) (by simp [tells]) (by simp)) s2
  have hget3 : ∀ (f : Fld) (off : Nat), off < 0x1000 → f.key = rk (buC u * 16 + 9) (off + buP u * 0x1000) →
      f.key ≠ R.BU_FAULT (buC u) (buP u) → ((completeFault u x st l cause).run s2).get f = s2.get f := fun f off hoff hf hne =>
    completeFault_get hu hoff hf hne s2
  generalize (completeFault u x st l cause).run s2 = s3 at h3 hget3 ⊢
  have hsig : ((completeSignal u x).run s3).sigQ = if x.flags % 2 = 1 then s3.sigQ ++ [⟨srcUnit u, buC u, x.donePbx, 1, s3.now⟩] else s3.sigQ := by
    rw [completeSignal, Eff.run_when]
    by_cases hx : x.flags % 2 = 1
    · rw [if_pos (beq_iff_eq.2 hx), if_pos hx]
      rfl
    · rw [if_neg (mt beq_iff_eq.1 hx), if_neg hx]
  have h4 := (completeSignal_in u x).changes s3
  generalize (completeSignal u x).run s3 = s4 at hsig h4 ⊢
  have h5 := (completeKvt_in x st).changes s4
  generalize (completeKvt x st).run s4 = s5 at h5 ⊢
  have h6 : changesOnly [.regs] s5 ((buShow u).run s5) := (Eff.in_look fun _ => put_in _ _ (by simp)).changes s5
  have hget : ∀ (f : Fld) (off : Nat), off < 0x1000 → f.key = rk (buC u * 16 + 9) (off + buP u * 0x1000) → f.key ≠ R.BU_FAULT (buC u) (buP u) →
      apart (R.BU_STATUS_queued (buC u) (buP u)) f → f.lo + f.w ≤ 64 → ((buShow u).run s5).get f = s2.get f := fun f off hoff hf hne hap hw => by
    rw [buShow_get hap hw, (get_of_regs (h5.same_regs (by simp))).1, (get_of_regs (h4.same_regs (by simp))).1, hget3 f off hoff hf hne]
  refine ⟨?_, ?_, ?_, ?_, ?_, ?_⟩
  · rw [State.buQAt, h6.same_buQ (by simp), h5.same_buQ (by simp), h4.same_buQ (by simp), h3.same_buQ (by simp), h2.same_buQ (by simp)]
    exact hq
  · rw [hget _ 0x8 (by decide) rfl (by simp only [R.BU_STATUS_last_status, R.BU_STATUS, R.BU_FAULT, rk]; omega)
      (.inr (.inl (Nat.le_of_ble_eq_true rfl))) (Nat.le_of_ble_eq_true rfl), hlast]
  · rw [hget _ 0x40 (by decide) rfl (by simp only [R.BU_CMDS_count, R.BU_CMDS, R.BU_FAULT, rk]; omega)
      (.inl
        (by simp only [R.BU_CMDS_count, R.BU_STATUS_queued, R.BU_CMDS, R.BU_STATUS, rk]; omega)) (Nat.le_of_ble_eq_true rfl), hcount]
  · rw [h6.same_sigQ (by simp), h5.same_sigQ (by simp), hsig, h3.same_sigQ (by simp), h3.same_now (by simp), h2.same_sigQ (by simp),
      h2.same_now (by simp), hqparts.same_sigQ (by simp), hqparts.same_now (by simp)]
  · exact (hget _ 0x8 (by decide) rfl (by simp only [R.BU_STATUS_state, R.BU_STATUS, R.BU_FAULT, rk]; omega)
      (.inr (.inr (Nat.le_of_ble_eq_true rfl))) (Nat.le_of_ble_eq_true rfl)).trans hstate
  · exact (hget _ 0x8 (by decide) rfl (by simp only [R.BU_STATUS_pc, R.BU_STATUS, R.BU_FAULT, rk]; omega)
      (.inr (.inl (Nat.le_of_ble_eq_true rfl))) (Nat.le_of_ble_eq_true rfl)).trans hpc

/-- The fault record after the end of a command that fails (R231). -/
theorem buComplete_fault {x : BuCmd} {st cause : Nat} (hst : st < 256) (hcause : cause < 16) (hbad : (st != ST_OK && st != ST_BU_FORCED_YIELD) = true)
    (hpoison : (st == ST_POISON) = false) (s : State) :
    let t := (buComplete u x st 0 cause).run s
    t.get (R.BU_FAULT_cause (buC u) (buP u)) = cause ∧ t.get (R.BU_FAULT_status (buC u) (buP u)) = st ∧
    t.get (R.BU_FAULT_pc (buC u) (buP u)) = t.buPc u := by
  dsimp only
  have hpcs : ((buComplete u x st 0 cause).run s).buPc u = s.buPc u := (buComplete_leaves hu hst s).2.2.2.2.2
  rw [hpcs, buComplete_run]
  have hq := (Eff.in_upd (u := .buQ u ((s.buQAt u).filter fun y => y.id != x.id)) (ps := [.buQ]) (by simp [Upd.part])).changes s
  rw [Eff.run_upd] at hq
  generalize (Upd.buQ u _).run s = s1 at hq ⊢
  have hpc : ((addSat (R.BU_CMDS_count (buC u) (buP u)) 1).run ((buLast u st).run s1)).buPc u = s.buPc u := by
    rw [State.buPc, State.buPc, buLast]
    simp (disch := (
      try simp only [apart, farKey, R.BU_STATUS_state, R.BU_STATUS_pc, R.BU_STATUS_last_status, R.BU_STATUS_queued,
        R.BU_STATUS_held, R.BU_PROGRESS_pc, R.BU_YIELD_max_gap_ns, R.BU_CMDS_count, R.BU_FAULT_l_addr, R.BU_FAULT_pc,
        R.BU_FAULT_status, R.BU_FAULT_cause, R.BU_STATUS, R.BU_PROGRESS, R.BU_YIELD, R.BU_CMDS, R.BU_FAULT, rk]
      omega)) only [get_put_apart, get_addSat_apart]
    rw [(get_of_regs (hq.same_regs (by simp))).1]
  generalize (addSat (R.BU_CMDS_count (buC u) (buP u)) 1).run ((buLast u st).run s1) = s2 at hpc ⊢
  have hfar : farKey (R.BU_FAULT (buC u) (buP u)) := unitKey_far hu (off := 0x28) (by decide)
  have hrun : (completeFault u x st 0 cause).run s2 = (evFire (buC u * 8 + 3)).run ((buFault u 0 st cause).run s2) := by
    rw [completeFault, hbad, hpoison, Eff.run_when_true]
    simp only [Eff.run_all_cons, Eff.run_all_nil, Eff.run_when_false]
  have hpcLt : s2.buPc u < 2 ^ 9 := get_lt s2 _
  have h3 : ((completeFault u x st 0 cause).run s2).get (R.BU_FAULT_cause (buC u) (buP u)) = cause ∧
      ((completeFault u x st 0 cause).run s2).get (R.BU_FAULT_status (buC u) (buP u)) = st ∧
      ((completeFault u x st 0 cause).run s2).get (R.BU_FAULT_pc (buC u) (buP u)) = s2.buPc u := by
    rw [hrun, get_evFire_far hfar, get_evFire_far hfar, get_evFire_far hfar, buFault, Eff.run_look]
    simp only [Eff.run_all_cons, Eff.run_all_nil]
    refine ⟨put_same_of_lt (Nat.le_of_ble_eq_true rfl) hcause _, ?_, ?_⟩
    · simp (disch := (
      try simp only [apart, farKey, R.BU_STATUS_state, R.BU_STATUS_pc, R.BU_STATUS_last_status, R.BU_STATUS_queued,
        R.BU_STATUS_held, R.BU_PROGRESS_pc, R.BU_YIELD_max_gap_ns, R.BU_CMDS_count, R.BU_FAULT_l_addr, R.BU_FAULT_pc,
        R.BU_FAULT_status, R.BU_FAULT_cause, R.BU_STATUS, R.BU_PROGRESS, R.BU_YIELD, R.BU_CMDS, R.BU_FAULT, rk]
      omega)) only [get_put_apart]
      exact put_same_of_lt (Nat.le_of_ble_eq_true rfl) hst _
    · simp (disch := (
      try simp only [apart, farKey, R.BU_STATUS_state, R.BU_STATUS_pc, R.BU_STATUS_last_status, R.BU_STATUS_queued,
        R.BU_STATUS_held, R.BU_PROGRESS_pc, R.BU_YIELD_max_gap_ns, R.BU_CMDS_count, R.BU_FAULT_l_addr, R.BU_FAULT_pc,
        R.BU_FAULT_status, R.BU_FAULT_cause, R.BU_STATUS, R.BU_PROGRESS, R.BU_YIELD, R.BU_CMDS, R.BU_FAULT, rk]
      omega)) only [get_put_apart]
      exact put_same_of_lt (Nat.le_of_ble_eq_true rfl) hpcLt _
  generalize (completeFault u x st 0 cause).run s2 = s3 at h3 ⊢
  have hget : ∀ f : Fld, f.key = R.BU_FAULT (buC u) (buP u) → f.lo + f.w ≤ 64 →
      ((buShow u).run ((completeKvt x st).run ((completeSignal u x).run s3))).get f = s3.get f := fun f hf hw => by
    rw [buShow_get (.inl (by rw [hf]; simp only [R.BU_STATUS_queued, R.BU_STATUS, R.BU_FAULT, rk]; omega)) hw,
      (get_of_regs (((completeKvt_in x st).changes _).same_regs (by simp))).1,
      (get_of_regs (((completeSignal_in u x).changes _).same_regs (by simp))).1]
  obtain ⟨h1, h2, h4⟩ := h3
  exact ⟨(hget _ rfl (Nat.le_of_ble_eq_true rfl)).trans h1, (hget _ rfl (Nat.le_of_ble_eq_true rfl)).trans h2,
    (hget _ rfl (Nat.le_of_ble_eq_true rfl)).trans (h4.trans hpc)⟩

end

/-- What every effect of a family keeps, all of them keep. -/
theorem run_each_keeps {α : Type} {I : State → Prop} {f : α → Eff} (h : ∀ x s, I s → I ((f x).run s)) (xs : List α) {s : State}
    (hs : I s) : I ((Eff.each xs f).run s) := by
  induction xs generalizing s with
  | nil => exact hs
  | cons x rest ih =>
    rw [Eff.run_each_cons]
    exact ih (h x s hs)

/-! A trap (R231) -/

section
variable {u st cause : Nat} (hu : u < 1024) (hst : st < 256) (hcause : cause < 16)
  (hbad : (st != ST_OK && st != ST_BU_FORCED_YIELD) = true) (hpoison : (st == ST_POISON) = false)
include hu hst

/-- The commands of the unit end; the unit's own state, its place in the program, memory and what is held stay. -/
theorem buEndAll_keeps (s : State) :
    let t := (buEndAll u st cause).run s
    t.buQAt u = [] ∧ t.buPc u = s.buPc u ∧ t.mem = s.mem ∧ t.held = s.held := by
  have hkeep : ∀ (x : BuCmd) (v : State),
      (v.buPc u = s.buPc u ∧ v.mem = s.mem ∧ v.held = s.held ∧ ∀ y ∈ v.buQAt u, y ∈ s.buQAt u) →
      ((buComplete u x st 0 cause).run v).buPc u = s.buPc u ∧ ((buComplete u x st 0 cause).run v).mem = s.mem ∧
      ((buComplete u x st 0 cause).run v).held = s.held ∧ ∀ y ∈ ((buComplete u x st 0 cause).run v).buQAt u, y ∈ s.buQAt u := by
    rintro x v ⟨hpc, hmem, hheld, hsub⟩
    obtain ⟨hq, -, -, -, -, hpcs⟩ := buComplete_leaves (x := x) (l := 0) (cause := cause) hu hst v
    have hparts := within_changes (buComplete_within (u := u) (x := x) (st := st) (l := 0) (cause := cause)
      (ps := [.buQ, .sigQ, .kvtQ, .msix, .mgmtQ, .out]) (keys := [R.BU_STATUS (buC u) (buP u), R.BU_CMDS (buC u) (buP u),
        R.BU_FAULT (buC u) (buP u)]) (by simp [tells]) (by simp) (.inr (by simp)) (by simp)) v
    refine ⟨hpcs.trans hpc, (hparts.same_mem (by simp)).trans hmem, (hparts.same_held (by simp)).trans hheld, fun y hy => ?_⟩
    rw [hq] at hy
    exact hsub y (List.mem_of_mem_filter hy)
  have hgone := run_each_establishes (P := fun x v => ∀ y ∈ v.buQAt u, y.id ≠ x.id) (f := fun x => buComplete u x st 0 cause)
    (fun x v y hy => by
      rw [(buComplete_leaves hu hst v).1, List.mem_filter] at hy
      simpa using hy.2)
    (fun x z v hx y hy => by
      rw [(buComplete_leaves hu hst v).1] at hy
      exact hx y (List.mem_of_mem_filter hy)) (s.buQAt u) s
  have hall := run_each_keeps (I := fun v => v.buPc u = s.buPc u ∧ v.mem = s.mem ∧ v.held = s.held ∧ ∀ y ∈ v.buQAt u, y ∈ s.buQAt u)
    (f := fun x => buComplete u x st 0 cause) hkeep (s.buQAt u) ⟨rfl, rfl, rfl, fun _ => id⟩
  dsimp only
  rw [buEndAll, Eff.run_look]
  obtain ⟨hpc, hmem, hheld, hsub⟩ := hall
  exact ⟨List.eq_nil_iff_forall_not_mem.2 fun y hy => hgone y (hsub y hy) y hy rfl, hpc, hmem, hheld⟩

include hcause hbad hpoison

theorem buEndAll_fault {s : State} (hq : s.buQAt u ≠ []) :
    let t := (buEndAll u st cause).run s
    t.get (R.BU_STATUS_last_status (buC u) (buP u)) = st ∧ t.get (R.BU_FAULT_cause (buC u) (buP u)) = cause ∧
    t.get (R.BU_FAULT_status (buC u) (buP u)) = st ∧ t.get (R.BU_FAULT_pc (buC u) (buP u)) = s.buPc u := by
  dsimp only
  have hpc := (buEndAll_keeps (cause := cause) hu hst s).2.1
  obtain ⟨x, hx⟩ := List.exists_mem_of_ne_nil _ hq
  have hown : ∀ (x : BuCmd) (v : State), ((buComplete u x st 0 cause).run v).get (R.BU_STATUS_last_status (buC u) (buP u)) = st ∧
      ((buComplete u x st 0 cause).run v).get (R.BU_FAULT_cause (buC u) (buP u)) = cause ∧
      ((buComplete u x st 0 cause).run v).get (R.BU_FAULT_status (buC u) (buP u)) = st ∧
      ((buComplete u x st 0 cause).run v).get (R.BU_FAULT_pc (buC u) (buP u)) = ((buComplete u x st 0 cause).run v).buPc u := fun x v =>
    ⟨(buComplete_leaves hu hst v).2.1, buComplete_fault hu hst hcause hbad hpoison v⟩
  have hlast := run_each_establishes (f := fun x => buComplete u x st 0 cause)
    (P := fun _ v => v.get (R.BU_STATUS_last_status (buC u) (buP u)) = st ∧ v.get (R.BU_FAULT_cause (buC u) (buP u)) = cause ∧
      v.get (R.BU_FAULT_status (buC u) (buP u)) = st ∧ v.get (R.BU_FAULT_pc (buC u) (buP u)) = v.buPc u)
    hown (fun _ z v _ => hown z v) (s.buQAt u) s x hx
  rw [buEndAll, Eff.run_look] at hpc ⊢
  obtain ⟨h1, h2, h3, h4⟩ := hlast
  exact ⟨h1, h2, h3, h4.trans hpc⟩

theorem buTrap_trapped {s : State} (hq : s.buQAt u ≠ []) (hheld : s.heldAt u = []) :
    unitTrapped u cause st s ((buTrap u cause st).run s) := by
  obtain ⟨hqueue, hpc, hmem, hhelds⟩ := buEndAll_keeps (cause := cause) hu hst s
  obtain ⟨hlast, hcauses, hstatus, hfpc⟩ := buEndAll_fault hu hst hcause hbad hpoison hq
  rw [buTrap]
  simp only [Eff.run_all_cons, Eff.run_all_nil]
  generalize (buEndAll u st cause).run s = v at hqueue hpc hmem hhelds hlast hcauses hstatus hfpc ⊢
  have hput := (put_in (ps := [.regs]) (R.BU_STATUS_state (buC u) (buP u)) BU_FAULTED (by simp)).changes v
  have hnone : ((putBu u BU_FAULTED).run v).heldAt u = [] := by
    rw [putBu, State.heldAt, hput.same_held (by simp), hhelds]
    exact hheld
  have hserve : (serveAll u).run ((putBu u BU_FAULTED).run v) = (put (R.BU_STATUS_held (buC u) (buP u)) 0).run
      ((Upd.held u []).run ((putBu u BU_FAULTED).run v)) := by
    rw [serveAll, Eff.run_look, hnone]
    simp only [Eff.run_all_cons, Eff.run_all_nil, Eff.run_upd, List.filter_nil, Eff.run_each_nil]
  rw [hserve, putBu]
  have hparts : changesOnly [.regs, .held] v ((put (R.BU_STATUS_held (buC u) (buP u)) 0).run ((Upd.held u []).run
      ((put (R.BU_STATUS_state (buC u) (buP u)) BU_FAULTED).run v))) :=
    changesOnly_trans (changesOnly_mono (by simp) hput) (changesOnly_trans ((Eff.in_upd (u := .held u []) (by simp [Upd.part])).changes _)
      ((put_in _ _ (by simp)).changes _))
  have hget : ∀ f : Fld, apart (R.BU_STATUS_held (buC u) (buP u)) f → apart (R.BU_STATUS_state (buC u) (buP u)) f → f.lo + f.w ≤ 64 →
      ((put (R.BU_STATUS_held (buC u) (buP u)) 0).run ((Upd.held u []).run
        ((put (R.BU_STATUS_state (buC u) (buP u)) BU_FAULTED).run v))).get f = v.get f := fun f h1 h2 hw => by
    rw [get_put_apart h1 hw, get_upd (by simp [Upd.part]), get_put_apart h2 hw]
  have hfault : ∀ f : Fld, f.key = R.BU_FAULT (buC u) (buP u) → f.lo + f.w ≤ 64 → _ := fun f hf hw => hget f
    (.inl (by rw [hf]; simp only [R.BU_STATUS_held, R.BU_STATUS, R.BU_FAULT, rk]; omega))
    (.inl (by rw [hf]; simp only [R.BU_STATUS_state, R.BU_STATUS, R.BU_FAULT, rk]; omega)) hw
  refine ⟨?_, ?_, (hfault _ rfl (Nat.le_of_ble_eq_true rfl)).trans hcauses, (hfault _ rfl (Nat.le_of_ble_eq_true rfl)).trans hstatus,
    (hfault _ rfl (Nat.le_of_ble_eq_true rfl)).trans hfpc,
    (hget _ (.inr (.inr (Nat.le_of_ble_eq_true rfl))) (.inr (.inl (Nat.le_of_ble_eq_true rfl))) (Nat.le_of_ble_eq_true rfl)).trans hlast,
    fun a => ?_⟩
  · rw [State.bu, get_put_apart (.inr (.inr (Nat.le_of_ble_eq_true rfl))) (Nat.le_of_ble_eq_true rfl), get_upd (by simp [Upd.part])]
    exact put_same_of_lt (Nat.le_of_ble_eq_true rfl) (show 4 < 2 ^ 3 by decide) v
  · rw [State.buQAt, hparts.same_buQ (by simp)]
    exact hqueue
  · rw [State.memAt, hparts.same_mem (by simp), hmem, State.memAt]

end

/-! The end of a program, and a word that is none -/

theorem buRunning_head {s : State} {u : Nat} {x : BuCmd} (h : s.buRunning u = some x) : ∃ rest, s.buQAt u = x :: rest := by
  unfold State.buRunning at h
  split at h
  next y rest hq =>
    split at h
    · obtain rfl : y = x := by simpa using h
      exact ⟨rest, hq⟩
    · cases h
  next => cases h

theorem buFinish_run {s : State} {u : Nat} {x : BuCmd} (h : s.buRunning u = some x) : ∃ l cause, (buFinish u).run s =
    (yieldPoint u).run ((putBu u BU_IDLE).run ((buComplete u x x.endStatus l cause).run s)) := by
  refine ⟨if x.poisoned then (x.badAt.getD (0, 0)).1 else 0, if x.poisoned then 4 else 0, ?_⟩
  rw [buFinish, Eff.run_look, h]
  dsimp only
  rw [buEnd, Eff.run_look, h]
  simp only [Eff.run_all_cons, Eff.run_all_nil]

theorem endStatus_lt (x : BuCmd) : x.endStatus < 256 := by
  rw [BuCmd.endStatus]
  split
  · decide
  · split <;> decide

/-- R211: what END leaves of its unit. -/
theorem buFinish_ends {s : State} {u : Nat} (hu : u < 1024) {c : BuCmd} {rest : List BuCmd} (hrun : ∃ x, s.buRunning u = some x ∧ x.svc = false)
    (hq : s.buQAt u = c :: rest) (hids : ∀ z ∈ rest, z.id ≠ c.id) (hheld : s.heldAt u = []) (hkvt : c.kvt = none) :
    let t := (buFinish u).run s
    t.buQAt u = rest ∧ t.bu u = BU_IDLE ∧ t.get (R.BU_STATUS_last_status (buC u) (buP u)) = c.endStatus ∧
    t.get (R.BU_CMDS_count (buC u) (buP u)) =
      min (s.get (R.BU_CMDS_count (buC u) (buP u)) + 1) (2 ^ (R.BU_CMDS_count (buC u) (buP u)).w - 1) ∧
    (if c.flags % 2 = 1 then ∃ g, t.sigQ = s.sigQ ++ [g] ∧ g.pbx = c.donePbx ∧ g.add = 1 else t.sigQ = s.sigQ) ∧
    changesOnly [.buQ, .regs, .sigQ, .yieldAt, .msix, .mgmtQ, .out] s t := by
  obtain ⟨x, hx, -⟩ := hrun
  obtain ⟨rest', hq'⟩ := buRunning_head hx
  obtain ⟨rfl, rfl⟩ : c = x ∧ rest = rest' := by simpa using hq.symm.trans hq'
  obtain ⟨l, cause, hfin⟩ := buFinish_run hx
  obtain ⟨hqueue, hlast, hcount, hsig, -, -⟩ := buComplete_leaves (x := c) (l := l) (cause := cause) hu (endStatus_lt c) s
  have hparts := within_changes (buComplete_within (u := u) (x := c) (st := c.endStatus) (l := l) (cause := cause)
    (ps := [.buQ, .sigQ, .msix, .mgmtQ, .out]) (keys := [R.BU_STATUS (buC u) (buP u), R.BU_CMDS (buC u) (buP u),
      R.BU_FAULT (buC u) (buP u)]) (by simp [tells]) (by simp) (.inl hkvt) (by simp)) s
  have hfilter : (s.buQAt u).filter (fun y => y.id != c.id) = rest := by
    rw [hq, List.filter_cons_of_neg (by simp), List.filter_eq_self]
    exact fun z hz => bne_iff_ne.2 (hids z hz)
  dsimp only
  rw [hfin]
  generalize (buComplete u c c.endStatus l cause).run s = v at hqueue hlast hcount hsig hparts ⊢
  have hput := (put_in (ps := [.regs]) (R.BU_STATUS_state (buC u) (buP u)) BU_IDLE (by simp)).changes v
  have hidle : ((putBu u BU_IDLE).run v).bu u = BU_IDLE := put_same_of_lt (Nat.le_of_ble_eq_true rfl) (show 0 < 2 ^ 3 by decide) v
  have hget : ∀ f : Fld, apart (R.BU_STATUS_state (buC u) (buP u)) f → f.lo + f.w ≤ 64 → ((putBu u BU_IDLE).run v).get f = v.get f :=
    fun f h hw => get_put_apart h hw _ v
  have hheld' : ((putBu u BU_IDLE).run v).heldAt u = [] := by
    rw [putBu, State.heldAt, hput.same_held (by simp), hparts.same_held (by simp)]
    exact hheld
  rw [putBu] at hidle hget hheld' ⊢
  generalize (put (R.BU_STATUS_state (buC u) (buP u)) BU_IDLE).run v = w at hput hidle hget hheld' ⊢
  obtain ⟨-, -, hregs, hlastParts⟩ := yieldPoint_leaves hheld'
  have hkeep : ∀ f : Fld, f.key ≠ R.BU_YIELD (buC u) (buP u) → ((yieldPoint u).run w).get f = w.get f := fun f hf =>
    congrArg f.read (hregs f.key (by simpa using hf))
  refine ⟨?_, ?_, ?_, ?_, ?_, ?_⟩
  · rw [State.buQAt, hlastParts.same_buQ (by simp), hput.same_buQ (by simp), ← hfilter]
    exact hqueue
  · exact (hkeep _ (by simp only [R.BU_STATUS_state, R.BU_STATUS, R.BU_YIELD, rk]; omega)).trans hidle
  · rw [hkeep _
    (by simp only [R.BU_STATUS_last_status, R.BU_STATUS, R.BU_YIELD, rk]; omega), hget _ (.inr (.inl (Nat.le_of_ble_eq_true rfl)))
      (Nat.le_of_ble_eq_true rfl), hlast]
  · rw [hkeep _ (by simp only [R.BU_CMDS_count, R.BU_CMDS, R.BU_YIELD, rk]; omega), hget _
      (.inl
        (by simp only [R.BU_CMDS_count, R.BU_STATUS_state, R.BU_CMDS, R.BU_STATUS, rk]; omega)) (Nat.le_of_ble_eq_true rfl), hcount]
  · rw [hlastParts.same_sigQ (by simp), hput.same_sigQ (by simp), hsig]
    split
    · exact ⟨_, rfl, rfl, rfl⟩
    · rfl
  · exact changesOnly_trans (changesOnly_mono (by simp) hparts) (changesOnly_trans (changesOnly_mono (by simp) hput)
      (changesOnly_mono (by simp) hlastParts))

section
variable {s : State} {u : Nat} {x : BuCmd} (hrun : s.bu u = BU_RUN) (hx : s.buRunning u = some x) (hsvc : x.svc = false)
include hrun hx hsvc

theorem buStep_unreadable (op : Nat) (k : BuInstr → Eff) : (buStep u op (2 : Fin 3) k).run s = (buTrap u 1 ST_BU_FAULT).run s := by
  simp only [buStep, Eff.run_look, hx]
  simp only [hsvc, hrun, beq_self_eq_true, Bool.true_or, Bool.not_true, Bool.or_self, Bool.false_eq_true, if_false]
  rfl

theorem buStep_illegal (hw : buLegal (s.reg (R.BU_PROG (buC u) (buP u) (s.buPc u))) = false) (op : Nat) (k : BuInstr → Eff) :
    (buStep u op (0 : Fin 3) k).run s = (buTrap u 2 ST_BU_PROGRAM).run s := by
  simp only [buStep, Eff.run_look, hx]
  simp only [hsvc, hrun, hw, beq_self_eq_true, Bool.true_or, Bool.not_true, Bool.not_false, Bool.or_self, Bool.false_eq_true, if_false, if_true,
    Fin.val_zero, OfNat.zero_ne_ofNat, Eff.run_seq, Eff.run_when, Nat.reduceBEq]

end

theorem unitControlFlow : Claims.UnitControlFlow := by
  intro u w s
  dsimp only
  refine ⟨fun hnext h => branch_gives (b := fun i s => s.bug u i.a != s.bug u i.b) hnext rfl h (if_congr bne_iff_ne.symm rfl rfl),
    fun hnext h => branch_gives (b := fun i s => (s.bug u i.a).ult (s.bug u i.b)) hnext rfl h (if_congr BitVec.ult_iff_lt.symm rfl rfl),
    fun h => unit_gives rfl h (Nat.mod_lt _ (by decide)) (bugThen_zero _ _ _ s).symm, fun hnext h hd => loop_gives hnext h hd,
    fun hnext h hheld => yield_gives hnext h hheld,
    fun c rest h hq hids hheld hkvt => unit_yields rfl h (buFinish_ends u.isLt h.2.2.1 hq hids hheld hkvt),
    fun hpow hrun ⟨c, hc, hsvc⟩ hheld => ⟨fun hw => yields_done rfl hpow ?_, yields_done rfl hpow ?_⟩, fun hpc h hheld => unit_yields rfl h ?_⟩
  · obtain ⟨rest, hq⟩ := buRunning_head hc
    rw [buStep_illegal hrun hc hsvc hw]
    exact buTrap_trapped u.isLt (by decide) (by decide) (by decide) (by decide) (by rw [hq]; simp) hheld
  · obtain ⟨rest, hq⟩ := buRunning_head hc
    rw [buStep_unreadable hrun hc hsvc]
    exact buTrap_trapped u.isLt (by decide) (by decide) (by decide) (by decide) (by rw [hq]; simp) hheld
  · obtain ⟨-, -, ⟨c, hc, -⟩, -⟩ := h
    obtain ⟨rest, hq⟩ := buRunning_head hc
    rw [buNext, Eff.run_look, if_pos hpc]
    exact buTrap_trapped u.isLt (by decide) (by decide) (by decide) (by decide) (by rw [hq]; simp) hheld

/-- Settles O24, by the laws of a unit's steps and of the ends of its commands. -/
theorem unitInstructions : Obligations.UnitInstructions := ⟨unitScalarResults, unitControlFlow⟩

end Sys2Proof.Proofs

/-! What a write of a cell's memory can touch at most, and the queue of a KVT: submission, completion, abort, free pages (R240, R245, R247,
R268). -/

namespace Sys2Proof.Proofs
open Sys2Proof.Machine Sys2Proof.Claims


/-! The scope of a write of SRAM, whether it is served or refused -/

/-- The register lies in the page of cell `c` (page 0 of its sixteen). -/
def cellPage (c k : Nat) : Prop := k / 0x10000 = c * 16

theorem pokeSram_within {ps : List Part} {K : Nat → Prop} (hps : Part.mem ∈ ps ∧ Part.marks ∈ ps) (a v : Nat) :
    (pokeSram a v).Only (Upd.within ps K) :=
  (Eff.only_all_cons _ _).2 ⟨only_pokeBytes _ _ fun _ _ => hps.1, (Eff.only_all_cons _ _).2 ⟨hps.2, trivial⟩⟩

section
variable {ps : List Part} {K : Nat → Prop} {c : Nat} (hps : Part.mem ∈ ps ∧ Part.marks ∈ ps ∧ Part.freeCtr ∈ ps) (hK : ∀ k, cellPage c k → K k)
include hps hK

theorem eccWord_within {b key v : Nat} {k : Nat → Nat → Eff} (hk : ∀ st v, (k st v).Only (Upd.within ps K)) :
    (eccWord c b key v k).Only (Upd.within ps K) := fun s => by
  have hecc : K (R.CELL_ECC c) := hK _ (by simp only [cellPage, R.CELL_ECC, rk]; omega)
  have hfield : ∀ f : Fld, f.key = R.CELL_ECC c → (addSat f 1).Only (Upd.within ps K) := fun f hf => (within_addSat _ _).2 (hf ▸ hecc)
  dsimp only
  split
  · exact hk _ _
  · refine (Eff.only_all_cons _ _).2 ⟨hps.2.1, (Eff.only_all_cons _ _).2 ⟨hfield _ ?_, (Eff.only_all_cons _ _).2 ⟨(within_put _ _).2 hecc,
      (Eff.only_all_cons _ _).2 ⟨hk _ _, trivial⟩⟩⟩⟩
    split
    · rfl
    · split <;> rfl
  · exact (Eff.only_all_cons _ _).2 ⟨(within_addSat _ _).2 hecc, (Eff.only_all_cons _ _).2 ⟨(within_put _ _).2 hecc,
      (Eff.only_all_cons _ _).2 ⟨fun _ => ⟨hps.2.2, hk _ _⟩, trivial⟩⟩⟩
  · exact fun _ => ⟨hps.2.2, hk _ _⟩

theorem sramWriteWords_within {a : Nat} {bs : List Byte} {ws : List Nat} {st : Nat} {k : Nat → Eff}
    (hk : ∀ st, (k st).Only (Upd.within ps K)) : (sramWriteWords c a bs ws st k).Only (Upd.within ps K) := by
  induction ws generalizing st with
  | nil => exact hk st
  | cons w rest ih =>
    rw [sramWriteWords]
    split
    · exact ⟨pokeSram_within ⟨hps.1, hps.2.1⟩ _ _, ih⟩
    · refine fun s => eccWord_within hps hK fun st' v => ?_
      split
      · exact ⟨pokeSram_within ⟨hps.1, hps.2.1⟩ _ _, ih⟩
      · exact ih

/-- A write of SRAM writes bytes and their marks, and registers of the cell's own page. -/
theorem sramWrite_within {off : Nat} {bs : List Byte} {cq : Nat × Nat} {k : Nat → Eff} (hk : ∀ st, (k st).Only (Upd.within ps K)) :
    (sramWrite c off bs cq k).Only (Upd.within ps K) := fun s => by
  have hkey : ∀ off, off < 0x10000 → K (rk (c * 16 + 0) off) := fun off hoff => hK _ (by simp only [cellPage, rk]; omega)
  dsimp only
  split
  · refine ⟨?_, hk _⟩
    simp only [ownFault, Eff.only_all_cons, Eff.only_all_nil, within_put, within_addSat, and_true]
    exact ⟨hkey 0x48 (by decide), hkey 0x48 (by decide), hkey 0x48 (by decide)⟩
  · refine ⟨fun t => (ownSettle_within (c := c) off bs.length t).mono fun u hu => Upd.within_mono (fun _ => id) (fun k hk => ?_) hu,
      sramWriteWords_within hps hK hk⟩
    obtain ⟨i, hi, rfl⟩ := List.mem_map.1 hk
    exact hK _ (by simp only [cellPage, R.CELL_BANK_OWN, rk]; have := List.mem_range.1 hi; omega)

end

/-! The status register of a KVT -/

section
variable {ps : List Part} {K : Nat → Prop} (c : Nat)

theorem kvShow_within (hK : K (R.KVT_STATUS c) ∧ K (R.KVT_MIG c)) : (kvShow c).Only (Upd.within ps K) := fun s => by
  simp only [Eff.only_all_cons, Eff.only_all_nil, within_put, and_true]
  exact ⟨hK.1, hK.1, hK.2, hK.2⟩

theorem kvLast_within (thread : Option Nat) (st : Nat) (hK : K (R.KVT_STATUS c)) : (kvLast c thread st).Only (Upd.within ps K) := by
  simp only [kvLast, Eff.only_all_cons, Eff.only_all_nil, within_put, within_putBit, and_true]
  exact ⟨hK, hK, hK⟩

theorem kvShow_last (s : State) : ((kvShow c).run s).get (R.KVT_STATUS_last_status c) = s.get (R.KVT_STATUS_last_status c) := by
  rw [kvShow, Eff.run_look]
  simp only [Eff.run_all_cons, Eff.run_all_nil]
  simp (disch := (
    try simp only [apart, farKey, R.KVT_STATUS_queued, R.KVT_STATUS_running, R.KVT_STATUS_last_status, R.KVT_STATUS_last_thread,
      R.KVT_STATUS_last_via_core, R.KVT_MIG_queued, R.KVT_MIG_staged, R.KVT_STATUS, R.KVT_MIG, rk]
    omega)) only [get_put_apart]

theorem kvLast_status (thread : Option Nat) {st : Nat} (hst : st < 256) (s : State) :
    ((kvLast c thread st).run s).get (R.KVT_STATUS_last_status c) = st := by
  rw [kvLast]
  simp only [Eff.run_all_cons, Eff.run_all_nil, putBit]
  simp (disch := (
    try simp only [apart, farKey, R.KVT_STATUS_queued, R.KVT_STATUS_running, R.KVT_STATUS_last_status, R.KVT_STATUS_last_thread,
      R.KVT_STATUS_last_via_core, R.KVT_MIG_queued, R.KVT_MIG_staged, R.KVT_STATUS, R.KVT_MIG, rk]
    omega)) only [get_put_apart]
  exact put_same_of_lt (Nat.le_of_ble_eq_true rfl) hst s

end

/-! Submission -/

/-- The submission of an agent that may submit. -/
def kvTake (who : Agent) (c off : Nat) (s : State) : Eff :=
  if !s.kvRoom c then kvLast c (agentThread who) ST_BUSY
  else if 0x300000 < off + 32 then kvLast c (agentThread who) ST_ADDR_UNMAPPED
  else
    let cls := if (agentThread who).isNone then (9, 0xFF) else s.accClass who c
    sramRead c off 32 cls fun r => .look fun s =>
      if r.status ≠ ST_OK then kvLast c (agentThread who) r.status
      else kvEnqueue c (kvOp s.tagNext (some off) (agentThread who) cls r.data)

section
variable {who : Agent} {c : Fin 128} {off : BitVec 22} {s : State} (hw : writable who (c * 16 + 6) 0x10 s)
include hw

theorem actKvtSubmit_may (hmay : kvSubmitter c who = true) :
    actKvtSubmit who c off.toNat s = (ST_OK, kvTake who c (off.toNat / 32 * 32) s) := by
  have hoff : off.toNat / 32 % 2 ^ 17 = off.toNat / 32 := Nat.mod_eq_of_lt (by have := off.isLt; omega)
  rw [actKvtSubmit, guardAct_writable hw]
  dsimp only
  rw [hmay, hoff]
  rfl

theorem actKvtSubmit_mayNot (hmay : kvSubmitter c who = false) : actKvtSubmit who c off.toNat s = (ST_PAGE_PROTECTED,
    .seq (.seq (kvLast c (agentThread who) ST_PAGE_PROTECTED) (putBit (R.KVT_STATUS_last_via_core c) false))
      (refuseWrite who (c * 16 + 6) 0x10 ST_PAGE_PROTECTED)) := by
  rw [actKvtSubmit, guardAct_writable hw]
  dsimp only
  rw [hmay]
  rfl

/-- A full queue refuses the submission. -/
theorem kvSubmit_full (hmay : kvSubmitter c who = true) (hroom : s.kvRoom c = false) : yields (.kvtSubmit who c off) s fun t =>
    t.get (R.KVT_STATUS_last_status c) = ST_BUSY ∧ keepsRegs [R.KVT_STATUS c] s t ∧ changesOnly [.regs, .out] s t := by
  refine yields_act rfl hw.1 (actKvtSubmit_may hw hmay) ?_
  rw [kvTake, hroom, Bool.not_false, if_pos rfl]
  have hlast : (kvLast c (agentThread who) ST_BUSY).Only (Upd.within [] (oneOf [R.KVT_STATUS c])) := kvLast_within _ _ _ (by simp [oneOf])
  exact ⟨(answer_get ..).trans (kvLast_status _ _ (by decide) s), keepsRegs_answer who (within_keepsRegs hlast s),
    changes_answer who (within_changes hlast s) (by simp) (by simp)⟩

theorem kvSubmit_refused (hmay : kvSubmitter c who = false) : yields (.kvtSubmit who c off) s fun t =>
    t.get (R.KVT_STATUS_last_status c) = ST_PAGE_PROTECTED ∧ t.kvtQAt c = s.kvtQAt c := by
  obtain ⟨r, hr, hrun⟩ := runAct_run (who := who) (actKvtSubmit_mayNot (off := off) hw hmay)
  refine yields_done (p := runAct who (actKvtSubmit who c off.toNat)) rfl hw.1 ?_
  rw [hrun, Eff.run_seq, Eff.run_seq]
  have hkey : (R.KVT_STATUS_last_status c).key < 0x10000000 := by simp only [R.KVT_STATUS_last_status, R.KVT_STATUS, rk]; omega
  have hlast : (Eff.seq (kvLast c (agentThread who) ST_PAGE_PROTECTED) (putBit (R.KVT_STATUS_last_via_core c) false)).In [.regs] :=
    Eff.in_seq (Eff.in_all_cons (put_in _ _ (by simp)) (Eff.in_all_cons (put_in _ _ (by simp)) (Eff.in_all_cons (put_in _ _ (by simp))
      Eff.in_all_nil))) (put_in _ _ (by simp))
  have hfirst := hlast.changes s
  rw [Eff.run_seq] at hfirst
  have hrefuse := within_changes (ps := [.msix, .mgmtQ, .out]) (refuseWrite_within (by simp [tells]) who (c * 16 + 6) 0x10 ST_PAGE_PROTECTED)
  constructor
  · rw [within_get hr _ List.not_mem_nil, refuseWrite_get hkey, putBit, get_put_apart (.inr (.inr (Nat.le_of_ble_eq_true rfl)))
      (Nat.le_of_ble_eq_true rfl), kvLast_status _ _ (by decide)]
  · rw [State.kvtQAt, (within_changes hr _).same_kvtQ (by simp), (hrefuse _).same_kvtQ (by simp), hfirst.same_kvtQ (by simp), State.kvtQAt]

/-- An accepted submission joins the queue with its descriptor. -/
theorem kvSubmit_joins (hmay : kvSubmitter c who = true) (hroom : s.kvRoom c = true) (hend : off.toNat / 32 * 32 + 32 ≤ 0x300000)
    (hready : sramReady s c (off.toNat / 32 * 32) 32 (if (agentThread who).isNone then (9, 0xFF) else s.accClass who c)) :
    yields (.kvtSubmit who c off) s fun t =>
      t.kvtQAt c = s.kvtQAt c ++ [kvOp s.tagNext (some (off.toNat / 32 * 32)) (agentThread who)
        (if (agentThread who).isNone then (9, 0xFF) else s.accClass who c) (s.bytes (sramAddr c (off.toNat / 32 * 32)) 32)] ∧
      t.tagNext = s.tagNext + 1 ∧ keepsRegs [R.KVT_STATUS c, R.KVT_MIG c] s t ∧ changesOnly [.kvtQ, .tagNext, .regs, .out] s t := by
  refine yields_act rfl hw.1 (actKvtSubmit_may hw hmay) ?_
  rw [kvTake, hroom, Bool.not_true, if_neg Bool.false_ne_true, if_neg (Nat.not_lt.2 hend)]
  dsimp only
  rw [sramRead_ready hready, Eff.run_look, if_neg (not_not_intro rfl)]
  generalize kvOp s.tagNext _ _ _ _ = x
  have henq : (kvEnqueue c x).Only (Upd.within [.kvtQ, .tagNext] (oneOf [R.KVT_STATUS c, R.KVT_MIG c])) := fun u =>
    (Eff.only_all_cons _ _).2 ⟨by simp [Upd.within, Upd.part], (Eff.only_all_cons _ _).2 ⟨by simp [Upd.within, Upd.part],
      (Eff.only_all_cons _ _).2 ⟨kvShow_within _ ⟨by simp [oneOf], by simp [oneOf]⟩, trivial⟩⟩⟩
  have hrun : (kvEnqueue c x).run s = (kvShow c).run ((Upd.tagNext (s.tagNext + 1)).run ((Upd.kvtQ c (s.kvtQAt c ++ [x])).run s)) := by
    rw [kvEnqueue, Eff.run_look]
    simp only [Eff.run_all_cons, Eff.run_all_nil, Eff.run_upd]
  have hshow : ∀ u, changesOnly [.regs] u ((kvShow c).run u) := fun u =>
    within_changes (ps := []) (K := fun _ => True) (kvShow_within _ ⟨trivial, trivial⟩) u
  have hanswer := answer_changes who ((kvEnqueue c x).run s)
  refine ⟨?_, ?_, keepsRegs_answer who (within_keepsRegs henq s), changes_answer who (within_changes henq s) (by simp) (by simp)⟩
  · rw [State.kvtQAt, hanswer.same_kvtQ (by simp), hrun, (hshow _).same_kvtQ (by simp)]
    exact Upd.run_kvtQ_same c _ s
  · rw [hanswer.same_tagNext (by simp), hrun, (hshow _).same_tagNext (by simp)]
    rfl

end

/-! The completion of an operation -/

/-- The status and the results go to the descriptor of the operation, or to the command that waits for it. -/
def kvTell (c : Nat) (x : KvOp) (st : Nat) : Eff :=
  match x.off with
  | some off => kvResults x.code x.res0 x.res1 fun r0 r1 =>
      sramWrite c (off + 3) (toLE 1 st) x.cls fun _ => sramWrite c (off + 24) (toLE 4 r0 ++ toLE 4 r1) x.cls fun _ => .skip
  | none => .upd (.kvtEnd x.id (some (st, x.res0, x.res1)))

/-- The signal of an operation that asks for one. -/
def kvSignal (c : Nat) (x : KvOp) : Eff :=
  Eff.when (x.flags % 2 == 1 && decide (byteAt x.desc 2 < 48)) (sendSignal (srcKvt c) c (c * 48 + byteAt x.desc 2) 1)

theorem kvComplete_run (c : Nat) (x : KvOp) (st : Nat) (s : State) : (kvComplete c x st).run s =
    (kvShow c).run ((kvSignal c x).run ((kvTell c x st).run ((Eff.when (st != ST_OK) (kvLast c x.thread st)).run
      ((Upd.kvtQ c ((s.kvtQAt c).filter fun y => y.id != x.id)).run s)))) := by
  rw [kvComplete]
  simp only [Eff.run_all_cons, Eff.run_all_nil, Eff.run_look, Eff.run_upd]
  rfl

theorem kvSignal_in (c : Nat) (x : KvOp) : (kvSignal c x).In [.sigQ] := Eff.in_when (Eff.in_look fun _ => Eff.in_upd (by simp [Upd.part]))

theorem kvSignal_sigQ (c : Nat) (x : KvOp) (s : State) : ((kvSignal c x).run s).sigQ =
    if x.flags % 2 = 1 ∧ byteAt x.desc 2 < 48 then s.sigQ ++ [⟨srcKvt c, c, c * 48 + byteAt x.desc 2, 1, s.now⟩] else s.sigQ := by
  rw [kvSignal, Eff.run_when]
  have hiff : (x.flags % 2 == 1 && decide (byteAt x.desc 2 < 48)) = true ↔ x.flags % 2 = 1 ∧ byteAt x.desc 2 < 48 := by simp
  by_cases h : x.flags % 2 = 1 ∧ byteAt x.desc 2 < 48
  · rw [if_pos (hiff.2 h), if_pos h]
    rfl
  · rw [if_neg (mt hiff.1 h), if_neg h]

theorem kvResults_within {ps : List Part} {K : Nat → Prop} {code r0 r1 : Nat} {k : Nat → Nat → Eff} (hps : Part.freeCtr ∈ ps)
    (hk : ∀ a b, (k a b).Only (Upd.within ps K)) : (kvResults code r0 r1 k).Only (Upd.within ps K) := by
  unfold kvResults
  split
  case h_5 => exact fun _ => ⟨hps, hk _ _⟩
  case h_6 => exact fun _ => ⟨hps, fun _ => ⟨hps, hk _ _⟩⟩
  case h_7 => exact fun _ => ⟨hps, fun _ => ⟨hps, hk _ _⟩⟩
  all_goals exact hk _ _

theorem kvTell_within (c : Nat) (x : KvOp) (st : Nat) :
    (kvTell c x st).Only (Upd.within [.mem, .marks, .freeCtr, .kvtEnd] (cellPage c)) := by
  unfold kvTell
  split
  · exact kvResults_within (by simp) fun _ _ => sramWrite_within (by simp) (fun _ => id) fun _ =>
      sramWrite_within (by simp) (fun _ => id) fun _ => trivial
  · simp [Upd.within, Upd.part]

theorem kvLastKey_apart (c : Nat) : ¬ cellPage c (R.KVT_STATUS c) := by
  simp only [cellPage, R.KVT_STATUS, rk]
  omega

/-- An operation that completes leaves the queue, and its status is shown when it is an error. -/
theorem kvComplete_leaves (c : Nat) (x : KvOp) {st : Nat} (hst : st < 256) (s : State) :
    ((kvComplete c x st).run s).kvtQAt c = (s.kvtQAt c).filter (fun y => y.id != x.id) ∧
    (st ≠ ST_OK → ((kvComplete c x st).run s).get (R.KVT_STATUS_last_status c) = st) := by
  have hq : ((Upd.kvtQ c ((s.kvtQAt c).filter fun y => y.id != x.id)).run s).kvtQAt c = (s.kvtQAt c).filter fun y => y.id != x.id :=
    Upd.run_kvtQ_same ..
  rw [kvComplete_run]
  generalize (Upd.kvtQ c _).run s = s1 at hq ⊢
  have hlast : st ≠ ST_OK → ((Eff.when (st != ST_OK) (kvLast c x.thread st)).run s1).get (R.KVT_STATUS_last_status c) = st := fun h => by
    rw [bne_iff_ne.2 h, Eff.run_when_true, kvLast_status _ _ hst]
  have h2 : changesOnly [.regs] s1 ((Eff.when (st != ST_OK) (kvLast c x.thread st)).run s1) :=
    within_changes (ps := []) (K := fun _ => True) ((Eff.only_when _ _).2 fun _ => kvLast_within _ _ _ trivial) s1
  generalize (Eff.when (st != ST_OK) (kvLast c x.thread st)).run s1 = s2 at hlast h2 ⊢
  have h3 := within_changes (kvTell_within c x st) s2
  have hkept : ((kvTell c x st).run s2).get (R.KVT_STATUS_last_status c) = s2.get (R.KVT_STATUS_last_status c) :=
    within_get (kvTell_within c x st) s2 (kvLastKey_apart c)
  generalize (kvTell c x st).run s2 = s3 at h3 hkept ⊢
  have h4 := (kvSignal_in c x).changes s3
  have h5 := within_changes (ps := []) (K := fun _ => True) (kvShow_within c ⟨trivial, trivial⟩) ((kvSignal c x).run s3)
  constructor
  · rw [State.kvtQAt, h5.same_kvtQ (by simp), h4.same_kvtQ (by simp), h3.same_kvtQ (by simp), h2.same_kvtQ (by simp)]
    exact hq
  · intro h
    rw [kvShow_last, (get_of_regs (h4.same_regs (by simp))).1, hkept, hlast h]

section
variable {c : Fin 128} {x : KvOp} {off : Nat} {s : State} (hoff : x.off = some off) (hcode : x.code = 1)
  (hstatus : sramReady s c (off + 3) 1 x.cls) (hresults : sramReady s c (off + 24) 8 x.cls)
include hoff hcode hstatus hresults

/-- The status and the results of a WALK reach its descriptor in memory that its class owns. -/
theorem kvTell_stored (st : Nat) :
    storedAll [(sramAddr c (off + 3), [BitVec.ofNat 8 st]), (sramAddr c (off + 24), toLE 4 x.res0 ++ toLE 4 x.res1)] s
      ((kvTell c x st).run s) ∧ changesOnly [.mem, .marks] s ((kvTell c x st).run s) := by
  have hrun : (kvTell c x st).run s = (sramWrite c (off + 3) (toLE 1 st) x.cls fun _ =>
      sramWrite c (off + 24) (toLE 4 x.res0 ++ toLE 4 x.res1) x.cls fun _ => .skip).run s := by
    unfold kvTell
    rw [hoff]
    dsimp only
    rw [hcode]
    rfl
  obtain ⟨t, hfirst, hwrote, hparts⟩ := sramWrite_wrote (bs := toLE 1 st) hstatus fun _ =>
    sramWrite c (off + 24) (toLE 4 x.res0 ++ toLE 4 x.res1) x.cls fun _ => .skip
  obtain ⟨u, hsecond, hwrote', hparts'⟩ := sramWrite_wrote (bs := toLE 4 x.res0 ++ toLE 4 x.res1)
    (hwrote.same.sramReady hresults) fun _ => .skip
  rw [hrun, hfirst, hsecond, Eff.run_skip]
  refine ⟨fun a => ?_, changesOnly_trans hparts hparts'⟩
  rw [hwrote'.mem, hwrote.mem]
  rfl

end

theorem kvtOperationComplete_run {c : Fin 128} {n : Nat} {x : KvOp} {s : State} (hx : (s.kvtQAt c)[n]? = some x) (hphase : x.phase = 2)
    (hcode : x.code = 1) (hacked : (s.gwOut.all fun p => p.queue != some (8 + x.id)) = true) :
    (kvtOperationComplete c n).run s = (kvComplete c x x.status).run s := by
  have hnone : (s.gwOut.any fun p => p.queue == some (8 + x.id)) = false := by
    rw [List.any_eq_false]
    intro p hp
    simpa using List.all_eq_true.1 hacked p hp
  rw [kvtOperationComplete, Eff.run_look, hx]
  dsimp only
  rw [hphase, hnone, if_neg (by simp), Eff.run_seq, hcode]
  rfl

theorem kvComplete_completes {c : Fin 128} {x : KvOp} {off : Nat} {s : State} (hoff : x.off = some off) (hcode : x.code = 1)
    (hst : x.status < 256) (hstatus : sramReady s c (off + 3) 1 x.cls) (hresults : sramReady s c (off + 24) 8 x.cls) :
    let t := (kvComplete c x x.status).run s
    t.kvtQAt c = (s.kvtQAt c).filter (fun y => y.id != x.id) ∧
    storedAll [(sramAddr c (off + 3), [BitVec.ofNat 8 x.status]), (sramAddr c (off + 24), toLE 4 x.res0 ++ toLE 4 x.res1)] s t ∧
    (x.status ≠ ST_OK → t.get (R.KVT_STATUS_last_status c) = x.status) ∧
    (if x.flags % 2 = 1 ∧ byteAt x.desc 2 < 48 then ∃ g, t.sigQ = s.sigQ ++ [g] ∧ g.pbx = c * 48 + byteAt x.desc 2 ∧ g.add = 1
     else t.sigQ = s.sigQ) ∧
    keepsRegs [R.KVT_STATUS c, R.KVT_MIG c] s t ∧ changesOnly [.kvtQ, .regs, .mem, .marks, .sigQ] s t := by
  obtain ⟨hqueue, hlast⟩ := kvComplete_leaves c x hst s
  refine ⟨hqueue, ?_⟩
  rw [kvComplete_run] at hlast ⊢
  have hq := (Eff.in_upd (u := .kvtQ c ((s.kvtQAt c).filter fun y => y.id != x.id)) (ps := [.kvtQ]) (by simp [Upd.part])).changes s
  have hmem1 := memSame_within (ps := [.kvtQ]) (K := fun _ => False) (p := .upd (.kvtQ c ((s.kvtQAt c).filter fun y => y.id != x.id)))
    (by simp [Upd.within, Upd.part]) s (by simp) (fun _ h => h.elim)
  rw [Eff.run_upd] at hq hmem1
  generalize (Upd.kvtQ c _).run s = s1 at hlast hq hmem1 ⊢
  have hkeys : ∀ k, k = R.KVT_STATUS c → ¬ memKey k ∧ k ≠ R.PWR_STATE := by
    rintro k rfl
    simp only [memKey, R.KVT_STATUS, R.PWR_STATE, R.LIC_FEATURES, R.SVC_RETIRED_CELL_LO, R.SVC_RETIRED_CELL_HI, R.GD_DIAG_BASE,
      R.GD_DIAG_LIMIT, rk]
    omega
  have hlastWithin : (Eff.when (x.status != ST_OK) (kvLast c x.thread x.status)).Only (Upd.within [] fun k => k = R.KVT_STATUS c) :=
    (Eff.only_when _ _).2 fun _ => kvLast_within _ _ _ rfl
  have h2 := within_changes hlastWithin s1
  have hregs2 : ∀ k, k ≠ R.KVT_STATUS c → ((Eff.when (x.status != ST_OK) (kvLast c x.thread x.status)).run s1).regsAt k = s1.regsAt k :=
    fun k hk => within_regsAt hlastWithin s1 hk
  have hmem2 := hmem1.trans (memSame_within hlastWithin s1 (by simp) hkeys)
  generalize (Eff.when (x.status != ST_OK) (kvLast c x.thread x.status)).run s1 = s2 at hlast h2 hregs2 hmem2 ⊢
  obtain ⟨hstored, h3⟩ := kvTell_stored hoff hcode (hmem2.sramReady hstatus) (hmem2.sramReady hresults) x.status
  generalize (kvTell c x x.status).run s2 = s3 at hlast hstored h3 ⊢
  have h4 := (kvSignal_in c x).changes s3
  have hsig := kvSignal_sigQ c x s3
  generalize (kvSignal c x).run s3 = s4 at hlast h4 hsig ⊢
  have hshow : (kvShow c).Only (Upd.within [] (oneOf [R.KVT_STATUS c, R.KVT_MIG c])) := kvShow_within _ ⟨by simp [oneOf], by simp [oneOf]⟩
  have h5 := within_changes hshow s4
  refine ⟨fun a => ?_, hlast, ?_, fun k hk => ?_, ?_⟩
  · rw [State.memAt, h5.same_mem (by simp), h4.same_mem (by simp)]
    refine (hstored a).trans ?_
    rw [State.memAt, h2.same_mem (by simp), hq.same_mem (by simp), State.memAt]
  · rw [h5.same_sigQ (by simp), hsig, h3.same_sigQ (by simp), h2.same_sigQ (by simp), hq.same_sigQ (by simp)]
    split
    · exact ⟨_, rfl, rfl, rfl⟩
    · rfl
  · rw [within_keepsRegs hshow s4 k hk, (get_of_regs (h4.same_regs (by simp))).2, (get_of_regs (h3.same_regs (by simp))).2,
      hregs2 k (fun h => hk (by simp [h])), (get_of_regs (hq.same_regs (by simp))).2]
  · exact changesOnly_trans (changesOnly_mono (by simp) hq) (changesOnly_trans (changesOnly_mono (by simp) h2) (changesOnly_trans
      (changesOnly_mono (by simp) h3) (changesOnly_trans (changesOnly_mono (by simp) h4) (changesOnly_mono (by simp) h5))))

/-! Abort (R268) -/

/-- The unstarted operations complete: those of a list leave the queue, each with the status. -/
theorem kvEndList (c : Nat) {st : Nat} (hst : st < 256) (hbad : st ≠ ST_OK) (xs : List KvOp) (s : State) :
    let t := (Eff.each xs fun x => kvComplete c x st).run s
    t.kvtQAt c = (s.kvtQAt c).filter (fun y => xs.all fun x => y.id != x.id) ∧
    (xs ≠ [] → t.get (R.KVT_STATUS_last_status c) = st) := by
  dsimp only
  induction xs generalizing s with
  | nil => exact ⟨by simp [Eff.run_each_nil], fun h => absurd rfl h⟩
  | cons x rest ih =>
    obtain ⟨hq, hlast⟩ := kvComplete_leaves c x hst s
    obtain ⟨hrest, hshown⟩ := ih ((kvComplete c x st).run s)
    rw [Eff.run_each_cons]
    refine ⟨?_, fun _ => ?_⟩
    · rw [hrest, hq, List.filter_filter]
      exact List.filter_congr fun y _ => by simp [Bool.and_comm]
    · by_cases hr : rest = []
      · rw [hr, Eff.run_each_nil]
        exact hlast hbad
      · exact hshown hr

/-- A running operation after an abort: it stops, or ends with the page that it waits for. -/
def abortedOp (x y : KvOp) : KvOp :=
  if y.id = x.id then
    let z := { y with status := if y.status = ST_OK ∨ (y.status = ST_KV_REFCOUNT_SAT ∧ ST_ABORTED ≠ ST_OK) then ST_ABORTED else y.status }
    if x.copies.isEmpty then { z with phase := 2, todo := [], copies := [], locks := [] } else { z with todo := z.todo.take 1 }
  else y

/-- The abort of one running operation. -/
def abortRunning (c : Nat) (x : KvOp) : Eff := .seq (kvNote c x.id ST_ABORTED)
  (if x.copies.isEmpty then kvStop c x.id else kvSet c x.id fun y => { y with todo := y.todo.take 1 })

theorem kvSet_queue (c id : Nat) (f : KvOp → KvOp) (s : State) :
    ((kvSet c id f).run s).kvtQAt c = (s.kvtQAt c).map fun y => if y.id = id then f y else y := by
  rw [kvSet, Eff.run_look, Eff.run_upd, Upd.run_kvtQ_same]
  exact List.map_congr_left fun y _ => if_congr beq_iff_eq rfl rfl

theorem kvSet_in (c id : Nat) (f : KvOp → KvOp) : (kvSet c id f).In [.kvtQ] := Eff.in_look fun _ => Eff.in_upd (by simp [Upd.part])

theorem abortRunning_queue (c : Nat) (x : KvOp) (s : State) :
    ((abortRunning c x).run s).kvtQAt c = (s.kvtQAt c).map (abortedOp x) := by
  rw [abortRunning, Eff.run_seq]
  have hshow : ∀ u : State, ((kvShow c).run u).kvtQAt c = u.kvtQAt c := fun u => by
    rw [State.kvtQAt, (within_changes (ps := []) (K := fun _ => True) (kvShow_within c ⟨trivial, trivial⟩) u).same_kvtQ (by simp), State.kvtQAt]
  cases hx : x.copies.isEmpty
  · rw [if_neg Bool.false_ne_true, kvSet_queue, kvNote, kvSet_queue, List.map_map]
    refine List.map_congr_left fun y _ => ?_
    simp only [Function.comp_apply, abortedOp, hx]
    split <;> simp_all
  · rw [if_pos rfl, kvStop, Eff.run_seq, hshow, kvSet_queue, kvNote, kvSet_queue, List.map_map]
    refine List.map_congr_left fun y _ => ?_
    simp only [Function.comp_apply, abortedOp, hx]
    split <;> simp_all

theorem abortRunning_last (c : Nat) (x : KvOp) (s : State) :
    ((abortRunning c x).run s).get (R.KVT_STATUS_last_status c) = s.get (R.KVT_STATUS_last_status c) := by
  have hset : ∀ id f (u : State), ((kvSet c id f).run u).get = u.get := fun id f u =>
    (get_of_regs (((kvSet_in c id f).changes u).same_regs (by simp))).1
  rw [abortRunning, Eff.run_seq, kvNote]
  split
  · rw [kvStop, Eff.run_seq, kvShow_last, hset, hset]
  · rw [hset, hset]

/-- The aborts of a list of running operations, one operation of the queue at a time. -/
theorem abortList (c : Nat) (xs : List KvOp) (s : State) :
    let t := (Eff.each xs (abortRunning c)).run s
    t.kvtQAt c = (s.kvtQAt c).map (fun y => xs.foldl (fun y x => abortedOp x y) y) ∧
    t.get (R.KVT_STATUS_last_status c) = s.get (R.KVT_STATUS_last_status c) := by
  dsimp only
  induction xs generalizing s with
  | nil => exact ⟨by simp [Eff.run_each_nil], rfl⟩
  | cons x rest ih =>
    obtain ⟨hq, hlast⟩ := ih ((abortRunning c x).run s)
    rw [Eff.run_each_cons]
    refine ⟨?_, hlast.trans (abortRunning_last c x s)⟩
    rw [hq, abortRunning_queue, List.map_map]
    rfl

/-- An operation that an abort leaves: started, and with at most the page that it waits for. -/
def abortLeft (y : KvOp) : Prop := y.phase ≠ 0 ∧ (y.phase = 1 → y.copies ≠ [] ∧ y.todo.length ≤ 1)

theorem abortedOp_id (x y : KvOp) : (abortedOp x y).id = y.id := by
  unfold abortedOp
  split
  · dsimp only
    split <;> rfl
  · rfl

theorem abortedOp_other {x y : KvOp} (h : y.id ≠ x.id) : abortedOp x y = y := if_neg h

theorem abortedOp_self {y : KvOp} (h : y.phase ≠ 0) : abortLeft (abortedOp y y) := by
  unfold abortedOp abortLeft
  rw [if_pos rfl]
  dsimp only
  cases hc : y.copies.isEmpty
  · rw [if_neg Bool.false_ne_true]
    refine ⟨h, fun _ => ⟨by simpa using hc, ?_⟩⟩
    simp only [List.length_take]
    omega
  · rw [if_pos rfl]
    exact ⟨by simp, fun h => by simp at h⟩

theorem abortedOp_left {x y : KvOp} (h : abortLeft y) : abortLeft (abortedOp x y) := by
  by_cases hid : y.id = x.id
  · unfold abortedOp
    rw [if_pos hid]
    dsimp only
    split
    · exact ⟨by simp, fun h => by simp at h⟩
    · refine ⟨h.1, fun hp => ⟨(h.2 hp).1, ?_⟩⟩
      simp only [List.length_take]
      omega
  · rw [abortedOp_other hid]
    exact h

theorem abortFold_id (xs : List KvOp) (y : KvOp) : (xs.foldl (fun y x => abortedOp x y) y).id = y.id := by
  induction xs generalizing y with
  | nil => rfl
  | cons x rest ih => rw [List.foldl_cons, ih, abortedOp_id]

theorem abortFold_left (xs : List KvOp) {y : KvOp} (hy : abortLeft y ∨ (y ∈ xs ∧ y.phase ≠ 0)) (hids : ∀ x ∈ xs, x.id = y.id → x = y) :
    abortLeft (xs.foldl (fun y x => abortedOp x y) y) := by
  induction xs generalizing y with
  | nil => exact hy.elim id fun h => absurd h.1 List.not_mem_nil
  | cons x rest ih =>
    rw [List.foldl_cons]
    by_cases hid : y.id = x.id
    · obtain rfl := hids x List.mem_cons_self hid.symm
      have hleft : abortLeft (abortedOp x x) := hy.elim abortedOp_left fun h => abortedOp_self h.2
      have hstay : ∀ (zs : List KvOp) (z : KvOp), abortLeft z → abortLeft (zs.foldl (fun y x => abortedOp x y) z) := fun zs => by
        induction zs with
        | nil => exact fun _ h => h
        | cons w ws ihw => exact fun z hz => ihw _ (abortedOp_left hz)
      exact hstay rest _ hleft
    · rw [abortedOp_other hid]
      refine ih (hy.imp_right fun h => ⟨(List.mem_cons.1 h.1).resolve_left fun he => hid (he ▸ rfl), h.2⟩)
        fun z hz => hids z (List.mem_cons_of_mem _ hz)

theorem kvAbort_leaves {c : Nat} {s : State} (hids : (s.kvtQAt c).Pairwise fun x y => x.id ≠ y.id) :
    let t := (kvAbort c).run s
    (t.kvtQAt c).map (fun y => y.id) = ((s.kvtQAt c).filter fun y => y.phase != 0).map (fun y => y.id) ∧
    (∀ y ∈ t.kvtQAt c, abortLeft y) ∧
    ((s.kvtQAt c).any (fun y => y.phase == 0) = true → t.get (R.KVT_STATUS_last_status c) = ST_ABORTED) := by
  have hunique : ∀ x ∈ s.kvtQAt c, ∀ y ∈ s.kvtQAt c, x.id = y.id → x = y := fun x hx y hy hid => by
    have hsymm : Std.Symm fun x y : KvOp => x.id ≠ y.id := ⟨fun _ _ h => h.symm⟩
    by_contra hne
    exact hids.forall hx hy hne hid
  obtain ⟨hqueue, hlast⟩ := kvEndList c (st := ST_ABORTED) (by decide) (by decide) ((s.kvtQAt c).filter fun x => x.phase == 0) s
  have hstarted : (s.kvtQAt c).filter (fun y => ((s.kvtQAt c).filter fun x => x.phase == 0).all fun x => y.id != x.id) =
      (s.kvtQAt c).filter fun y => y.phase != 0 := by
    refine List.filter_congr fun y hy => ?_
    rw [Bool.eq_iff_iff, List.all_eq_true, bne_iff_ne]
    constructor
    · intro h h0
      exact absurd rfl (bne_iff_ne.1 (h y (List.mem_filter.2 ⟨hy, beq_iff_eq.2 h0⟩)))
    · intro h x hx
      obtain ⟨hx, h0⟩ := List.mem_filter.1 hx
      exact bne_iff_ne.2 fun hid => h (hunique y hy x hx hid ▸ beq_iff_eq.1 h0)
  dsimp only
  rw [kvAbort, Eff.run_seq, Eff.run_look, kvEndQueued, Eff.run_look]
  rw [hstarted] at hqueue
  generalize (Eff.each ((s.kvtQAt c).filter fun x => x.phase == 0) fun x => kvComplete c x ST_ABORTED).run s = u at hqueue hlast ⊢
  obtain ⟨hfold, hkept⟩ := abortList c ((u.kvtQAt c).filter fun x => x.phase == 1) u
  refine ⟨?_, ?_, ?_⟩
  · refine (congrArg (List.map fun y => y.id) hfold).trans ?_
    rw [List.map_map, hqueue]
    exact List.map_congr_left fun y _ => abortFold_id _ y
  · intro y hy
    obtain ⟨z, hz, rfl⟩ := List.mem_map.1 (hfold ▸ hy : y ∈ _)
    have hin : ∀ w ∈ u.kvtQAt c, w ∈ s.kvtQAt c ∧ w.phase ≠ 0 := fun w hw => by
      rw [hqueue, List.mem_filter] at hw
      exact ⟨hw.1, bne_iff_ne.1 hw.2⟩
    refine abortFold_left _ ?_ fun x hx hid => hunique x (hin x (List.mem_of_mem_filter hx)).1 z (hin z hz).1 hid
    by_cases h1 : z.phase = 1
    · exact .inr ⟨List.mem_filter.2 ⟨hz, beq_iff_eq.2 h1⟩, (hin z hz).2⟩
    · exact .inl ⟨(hin z hz).2, fun h => absurd h h1⟩
  · intro hany
    refine hkept.trans (hlast fun hnil => ?_)
    obtain ⟨x, hx, h0⟩ := List.any_eq_true.1 hany
    exact absurd (List.mem_filter.2 ⟨hx, h0⟩) (hnil ▸ List.not_mem_nil)

/-! A free page (R247) -/

/-- A write of whole words leaves the registers that its continuation leaves. -/
theorem memWrite_regsAt {ps : List Part} {K : Nat → Prop} {who : Agent} {a : Nat} {bs : List Byte} {s : State} {hint : Hint}
    {k : Nat → Nat → Eff} (h : memReady s who a bs.length) (ha : a % 8 = 0) (hlen : bs.length % 8 = 0)
    (hps : Part.mem ∈ ps ∧ Part.check ∈ ps) (hk : ∀ st x, (k st x).Only (Upd.within ps K)) {j : Nat} (hj : ¬ K j) :
    ((memWrite who hint a bs k).run s).regsAt j = s.regsAt j := by
  obtain ⟨hn, hmap, hregion⟩ := id h
  split at hregion
  case h_1 c off hr =>
    obtain ⟨t, hrun, -, hparts⟩ := sramWrite_wrote (bs := bs) hregion fun st => k st 0
    have hstart : (memWrite who hint a bs k).run s = (k ST_OK 0).run t := by
      simp only [memWrite, memWriteAs, Eff.run_look, hmap, hr, ne_eq, not_true_eq_false, if_false, cellAt]
      exact hrun
    rw [hstart, within_regsAt (hk _ _) t hj, (get_of_regs (hparts.same_regs (by simp))).2]
  case h_2 v hr =>
    obtain ⟨hlock, hcached, -, -⟩ := hregion
    have hcovers : ∀ w ∈ wordsOf a bs.length, coversWord w a bs.length = true := fun w hw => by
      rw [wordsOf, if_neg hn, List.mem_map] at hw
      obtain ⟨i, hi, rfl⟩ := hw
      rw [List.mem_range] at hi
      simp only [coversWord, Bool.and_eq_true, decide_eq_true_eq]
      omega
    have hwords : ∀ ws st, (∀ w ∈ ws, coversWord w a bs.length = true) →
        (dramWriteWords a bs ws st fun st => k st 0).Only (Upd.within ps K) := fun ws => by
      induction ws with
      | nil => exact fun st _ => hk _ _
      | cons w rest ih =>
        intro st hall
        rw [dramWriteWords, if_pos (hall w List.mem_cons_self)]
        refine ⟨fun _ => (Eff.only_when _ _).2 fun _ => (Eff.only_all_cons _ _).2 ⟨only_pokeBytes _ _ fun _ _ => hps.1,
          (Eff.only_all_cons _ _).2 ⟨hps.2, trivial⟩⟩, ih st fun x hx => hall x (List.mem_cons_of_mem _ hx)⟩
    have hstart : (memWrite who hint a bs k).run s = (dramWriteWords a bs (wordsOf a bs.length) ST_OK fun st => k st 0).run s := by
      simp only [memWrite, memWriteAs, drWriteAll, drWrite, dramWrite, Eff.run_look, hmap, hr, hlock, hcached, ne_eq, not_true_eq_false,
        if_false, Bool.false_eq_true]
    rw [hstart, within_regsAt (hwords _ _ hcovers) s hj]
  case h_3 => exact hregion.elim

section
variable {who : Agent} {c : Fin 128} {i : Fin 9} {s : State} (hw : writable who (c * 16 + 6) (0x818 + i * 0x20) s)
include hw

theorem actKvtFlPush_ends (entry : Word) : actKvtFlPush who c i entry.toNat s =
    (ST_OK, flPush c i entry.toNat fun ok => Eff.when (!ok) (kvLast c (agentThread who) ST_BUSY)) := by
  rw [actKvtFlPush, guardAct_writable hw]

/-- A full list refuses the entry. -/
theorem kvtFlPush_full (entry : Word) (hfull : s.flSize c i ≤ s.flCount c i) : yields (.kvtFlPush who c i entry) s fun t =>
    t.get (R.KVT_STATUS_last_status c) = ST_BUSY ∧ keepsRegs [R.KVT_STATUS c] s t ∧ changesOnly [.regs, .out] s t := by
  refine yields_act rfl hw.1 (actKvtFlPush_ends hw entry) ?_
  rw [flPush, Eff.run_look, if_pos hfull, Bool.not_false, Eff.run_when_true]
  have hlast : (kvLast c (agentThread who) ST_BUSY).Only (Upd.within [] (oneOf [R.KVT_STATUS c])) := kvLast_within _ _ _ (by simp [oneOf])
  exact ⟨(answer_get ..).trans (kvLast_status _ _ (by decide) s), keepsRegs_answer who (within_keepsRegs hlast s),
    changes_answer who (within_changes hlast s) (by simp) (by simp)⟩

/-- The entry goes in at the tail. -/
theorem kvtFlPush_room (entry : Word) (hroom : s.flCount c i < s.flSize c i)
    (hready : memReady s (.kvt c) (s.flAddr c i (s.get (R.KVT_FL_STATE_tail c i))) 8) : yields (.kvtFlPush who c i entry) s fun t =>
    storedAll [(s.flAddr c i (s.get (R.KVT_FL_STATE_tail c i)), toLE 8 entry.toNat)] s t ∧
    t.get (R.KVT_FL_STATE_tail c i) = (s.get (R.KVT_FL_STATE_tail c i) + 1) % 2 ^ 32 ∧
    keepsRegs [R.KVT_FL_STATE c i] s t ∧ changesOnly [.mem, .check, .marks, .regs, .out] s t := by
  refine yields_act rfl hw.1 (actKvtFlPush_ends hw entry) ?_
  rw [flPush, Eff.run_look, if_neg (Nat.not_le.2 hroom)]
  generalize hat : s.flAddr c i (s.get (R.KVT_FL_STATE_tail c i)) = a at hready ⊢
  have halign : a % 8 = 0 := by rw [← hat, State.flAddr]; omega
  have hready' : memReady s (.kvt c) a (toLE 8 entry.toNat).length := (toLE_length ..).symm ▸ hready
  have hregs := fun k (hk : ¬ oneOf [R.KVT_FL_STATE c i] k) => memWrite_regsAt (hint := .normal) (j := k) (ps := [.mem, .check])
    (k := fun _ _ => .seq (addWrap (R.KVT_FL_STATE_tail c i) 1) (Eff.when (!true) (kvLast c (agentThread who) ST_BUSY)))
    hready' halign (by rw [toLE_length]) (by simp)
    (fun _ _ => ⟨(within_addWrap _ _).2
      (by simp [oneOf, R.KVT_FL_STATE_tail, R.KVT_FL_STATE]), (Eff.only_when _ _).2 fun h => absurd h (by simp)⟩) hk
  obtain ⟨t, hrun, hwrote⟩ := memWrite_wrote hready' .normal fun _ _ =>
    .seq (addWrap (R.KVT_FL_STATE_tail c i) 1) (Eff.when (!true) (kvLast c (agentThread who) ST_BUSY))
  have htail : t.get (R.KVT_FL_STATE_tail c i) = s.get (R.KVT_FL_STATE_tail c i) := by
    refine congrArg (R.KVT_FL_STATE_tail c i).read (hwrote.regs _ ?_)
    rintro ⟨d, p, hp, hkey⟩
    simp only [R.KVT_FL_STATE_tail, R.KVT_FL_STATE, R.VLT_RMW_CNT, rk] at hkey
    omega
  have hadd := (addWrap_in (ps := [.regs]) (R.KVT_FL_STATE_tail c i) 1 (by simp)).changes t
  rw [hrun, Eff.run_seq, Bool.not_true, Eff.run_when_false] at hregs
  rw [hrun, Eff.run_seq, Bool.not_true, Eff.run_when_false]
  refine ⟨fun x => ?_, ?_, keepsRegs_answer who fun k hk => hregs k ?_,
    changes_answer who (changesOnly_trans hwrote.changes (changesOnly_mono (by simp) hadd)) (by simp) (by simp)⟩
  · rw [State.memAt, (answer_changes who _).same_mem (by simp), hadd.same_mem (by simp)]
    exact hwrote.mem x
  · rw [answer_get, addWrap_same _ _ _ (Nat.le_of_ble_eq_true rfl), htail]
    rfl
  · simpa [oneOf] using hk

end

/-- Settles O28: submission, completion, abort and the push of a free page, each by the rule of its own. -/
theorem kvtQueue : Obligations.KvtQueue := by
  unfold Obligations.KvtQueue
  intro who c s
  refine ⟨fun off hw => ⟨fun hmay hroom hend hready => kvSubmit_joins hw hmay hroom hend hready, fun hmay hroom => kvSubmit_full hw hmay hroom,
    fun hmay => kvSubmit_refused hw hmay⟩, ?_, ?_, fun i entry hw => ⟨fun hroom hready => kvtFlPush_room hw entry hroom hready,
    fun hfull => kvtFlPush_full hw entry hfull⟩⟩
  · intro n x off hpow hx hphase hcode hoff hst hacked hstatus hresults
    refine yields_done (p := kvtOperationComplete c n) rfl hpow ?_
    rw [kvtOperationComplete_run hx hphase hcode hacked]
    exact kvComplete_completes hoff hcode hst hstatus hresults
  · intro hw hids
    refine yields_act rfl hw.1 ((guardAct_writable hw _).trans rfl) ?_
    obtain ⟨hq, hleft, hlast⟩ := kvAbort_leaves hids
    have hsame : ∀ t : State, ((actAnswer who).run t).kvtQAt c = t.kvtQAt c := fun t => by
      rw [State.kvtQAt, (answer_changes who t).same_kvtQ (by simp), State.kvtQAt]
    rw [hsame, answer_get]
    exact ⟨hq, hleft, hlast⟩

end Sys2Proof.Proofs

/-! A write that runs into a SHARED range, which the statement on parity takes as a write of the vault alone. -/

namespace Sys2Proof.Proofs

-- One evaluation after another: side by side each keeps a thread and its stack while it waits for the kernel.
set_option Elab.async false

open Sys2Proof.Machine Sys2Proof.Claims

/-- The shared cache serves the second MiB of vault 0. -/
def secondMibShared : State := (Eff.all [put (R.SC_SHARED_BASE_valid 0) 1, put (R.SC_SHARED_BASE_mib 0) 1,
  put (R.SC_SHARED_LIMIT_mib 0) 1]).run State.reset

theorem secondMibShared_ready : memReady secondMibShared (.core 0) 0xFFFF8 16 :=
  memReady_clean (v := 0) (by decide) (by decide) (by decide) (by decide) (by decide) (by decide) (by decide)

/-- The poison marking stands in the line of the cache, which is not written back yet. -/
theorem secondMibShared_decode : ((addressMapAccess (.core 0) 0xFFFF8 0 (some (List.replicate 16 0xFF)) (.payload [8])).run
    secondMibShared).decode 0x100000 = .good := by decide +kernel

/-- Refutes O47: of a write that begins below a SHARED range and fails parity inside it, the marking goes to the shared cache. -/
theorem not_mapAccesses : ¬ Obligations.MapAccesses := by
  intro h
  have hpow : secondMibShared.power ≠ .off := by decide
  obtain ⟨-, -, -, -, -, hparity, -⟩ := h (.core 0) 0 none 0xFFFF8 0 0 (List.replicate 16 0xFF) false secondMibShared hpow
  obtain ⟨-, -, -, -, hwrite⟩ := hparity nofun
  obtain ⟨hpoison, -⟩ := post_of_yields (hwrite 8 secondMibShared_ready (by decide)) rfl hpow
  have hdecode : ((addressMapAccess (.core 0) 0xFFFF8 0 (some (List.replicate 16 0xFF)) (.payload [8])).run secondMibShared).decode
    0x100000 = .poison := hpoison
  exact absurd (secondMibShared_decode.symm.trans hdecode) (by decide)

end Sys2Proof.Proofs

/-! The vector unit: an operation whose operands its class owns, and one whose first source word collides five times (R161–R167, R174). -/

namespace Sys2Proof.Proofs
open Sys2Proof.Machine Sys2Proof.Claims


/-! The trap of an operation's thread -/

/-- Not the status of the vector unit, nor the collisions of its cell. -/
def vecSpared (c k : Nat) : Prop := k ≠ R.VEC_STATUS c ∧ k ≠ R.CELL_COLLISION c

theorem vecSpared_of_quiet {c k : Nat} {keys : List Nat} (hc : c < 128) (hkeys : ∀ k ∈ keys, vecSpared c k) (hk : oneOfQuiet keys k) :
    vecSpared c k := by
  rcases hk with h | h
  · exact hkeys k h
  · refine ⟨fun he => h ?_, fun he => h ?_⟩ <;>
    · subst he
      simp only [farKey, R.VEC_STATUS, R.CELL_COLLISION, rk]
      omega

theorem leaveWait_spares {ps : List Part} (c t : Nat) (hps : Part.waiters ∈ ps ∧ Part.waitSince ∈ ps) :
    (leaveWait c t).Only (Upd.within ps (vecSpared c)) := fun s => by
  have hpbx : ∀ off, vecSpared c (rk (c * 16 + 7) off) := fun off => by
    simp only [vecSpared, R.VEC_STATUS, R.CELL_COLLISION, rk]
    omega
  simp only [Eff.only_all_cons, Eff.only_all_nil, Eff.only_when, and_true]
  constructor
  · intro _ u
    simp only [Eff.only_all_cons, Eff.only_all_nil, within_putBit, and_true]
    exact ⟨hps.1, hpbx _⟩
  · intro _ u
    simp only [Eff.only_all_cons, Eff.only_all_nil, within_addSat, within_putReg, and_true]
    exact ⟨hpbx _, hps.2, hpbx _⟩

theorem responseTrap_within {ps : List Part} {c : Nat} (hc : c < 128) (t : Nat) (x : Access) (st : Nat)
    (hps : tells ps ∧ Part.waiters ∈ ps ∧ Part.waitSince ∈ ps) : (responseTrap c t x st).Only (Upd.within ps (vecSpared c)) := fun s => by
  dsimp only
  have hseq : vecSpared c (R.SEQ_THR_STATUS c t) ∧ vecSpared c (R.SEQ_THR_FAULT c t) ∧ vecSpared c (R.SEQ_THR_NEXT c t) ∧
      vecSpared c (R.SEQ_THR_PC c t) := by
    simp only [vecSpared, R.SEQ_THR_STATUS, R.SEQ_THR_FAULT, R.SEQ_THR_NEXT, R.SEQ_THR_PC, R.VEC_STATUS, R.CELL_COLLISION, rk]
    omega
  obtain ⟨hstatus, hfault, hnext, hpc⟩ := hseq
  split
  · trivial
  · refine ⟨leaveWait_spares c t hps.2, fun u => ?_⟩
    simp only [Eff.only_all_cons, Eff.only_all_nil, within_put, and_true]
    refine ⟨(trapRecord_within (keys := [R.SEQ_THR_STATUS c t, R.SEQ_THR_FAULT c t, R.SEQ_THR_NEXT c t]) hc hps.1 (by simp) ..).mono
      fun _ hu => Upd.within_mono (fun _ => id) (fun k hk => vecSpared_of_quiet hc ?_ hk) hu, hpc⟩
    simp [hstatus, hfault, hnext]

/-! The start of an operation: it leaves the queue, its time and its collisions are counted -/

/-- The collisions of an operation's reads; `hit`: where they collided. -/
def vecCollide (v : VecOp) (n : Nat) : Option Nat → Eff
  | some a => countCollisions a v.cls n
  | none => .skip

/-- What the operation at the front of the queue does first. -/
def vecStart (c : Nat) (v : VecOp) (rest : List VecOp) (ck n : Nat) (hit : Option Nat) : Eff := .all [
  .upd (.vecQ c rest), vecShow c, addSat (R.VEC_BUSY_CK_count c) ck, vecCollide v n hit]

/-- The registers that count an operation's time, collisions and numeric events, and the unit's status. -/
def vecKey (c k : Nat) : Prop :=
  k = R.VEC_STATUS c ∨ k = R.VEC_BUSY_CK c ∨ k = R.CELL_NUM_EVENTS c ∨ ∃ d < 128, k = R.CELL_COLLISION d

theorem vecKey_apart {c k : Nat} (hc : c < 128) (h : vecKey c k) : ¬ memKey k ∧ k ≠ R.PWR_STATE ∧ k ≠ R.VEC_OPS c := by
  rcases h with rfl | rfl | rfl | ⟨d, hd, rfl⟩ <;>
  · simp only [memKey, R.VEC_STATUS, R.VEC_BUSY_CK, R.CELL_NUM_EVENTS, R.CELL_COLLISION, R.VEC_OPS, R.PWR_STATE, R.LIC_FEATURES,
      R.SVC_RETIRED_CELL_LO, R.SVC_RETIRED_CELL_HI, R.GD_DIAG_BASE, R.GD_DIAG_LIMIT, rk]
    omega

theorem countCollisions_vecKey {ps : List Part} (c a cls n : Nat) : (countCollisions a cls n).Only (Upd.within ps (vecKey c)) := by
  have hmap := regionOf_inMap a
  unfold countCollisions
  split
  case h_4 => trivial
  all_goals
    rename_i d off hr
    rw [hr] at hmap
    have hkey : vecKey c (R.CELL_COLLISION d) := .inr (.inr (.inr ⟨d, hmap.1, rfl⟩))
    simp only [Eff.only_all_cons, Eff.only_all_nil, within_addSat, within_put, and_true]
    exact ⟨hkey, hkey, hkey, hkey⟩

theorem vecCollide_within {ps : List Part} (c : Nat) (v : VecOp) (n : Nat) (hit : Option Nat) :
    (vecCollide v n hit).Only (Upd.within ps (vecKey c)) := by
  cases hit
  case none => trivial
  case some a => exact countCollisions_vecKey ..

theorem vecShow_within {ps : List Part} (c : Nat) : (vecShow c).Only (Upd.within ps (vecKey c)) := fun s => by
  simp only [Eff.only_all_cons, Eff.only_all_nil, within_put, within_putBit, and_true]
  exact ⟨.inl rfl, .inl rfl⟩

theorem vecStart_within (c : Nat) (v : VecOp) (rest : List VecOp) (ck n : Nat) (hit : Option Nat) :
    (vecStart c v rest ck n hit).Only (Upd.within [.vecQ] (vecKey c)) := by
  simp only [vecStart, Eff.only_all_cons, Eff.only_all_nil, within_addSat, and_true]
  exact ⟨by simp [Upd.within, Upd.part], vecShow_within c, .inr (.inl rfl), vecCollide_within c v n hit⟩

theorem vecStart_queue (c : Nat) (v : VecOp) (rest : List VecOp) (ck n : Nat) (hit : Option Nat) (s : State) :
    ((vecStart c v rest ck n hit).run s).vecQAt c = rest := by
  have htail : (Eff.all [vecShow c, addSat (R.VEC_BUSY_CK_count c) ck, vecCollide v n hit]).Only (Upd.within [] (vecKey c)) := by
    simp only [Eff.only_all_cons, Eff.only_all_nil, within_addSat, and_true]
    exact ⟨vecShow_within c, .inr (.inl rfl), vecCollide_within c v n hit⟩
  rw [vecStart, Eff.run_all_cons, Eff.run_upd, State.vecQAt, (within_changes htail _).same_vecQ (by simp)]
  exact Upd.run_vecQ_same ..

/-- Collisions in the cell's own SRAM are counted there. -/
theorem vecStart_counts {c off : Nat} (hc : c < 128) (hoff : off < 0x300000) (v : VecOp) (rest : List VecOp) (ck n : Nat) (s : State) :
    ((vecStart c v rest ck n (some (sramAddr c off))).run s).get (R.CELL_COLLISION_count c) =
      min (s.get (R.CELL_COLLISION_count c) + n) (2 ^ 32 - 1) := by
  have hr : regionOf (sramAddr c off) = .sram c off := by rw [regionOf_window hc (by omega), if_pos (by omega)]
  simp only [vecStart, vecShow, vecCollide, countCollisions, hr, Eff.run_all_cons, Eff.run_all_nil, Eff.run_look, Eff.run_upd]
  simp (disch := (
    try simp only [apart, farKey, R.VEC_STATUS_queued, R.VEC_STATUS_busy, R.VEC_STATUS_last_status, R.VEC_STATUS_last_thread,
      R.VEC_OPS_count, R.VEC_BUSY_CK_count, R.CELL_COLLISION_count, R.CELL_COLLISION_last_bank, R.CELL_COLLISION_last_word,
      R.CELL_COLLISION_last_class, R.VEC_STATUS, R.VEC_OPS, R.VEC_BUSY_CK, R.CELL_COLLISION, rk]
    omega)) only [get_put_apart, get_addSat_apart, addSat_same, putBit]
  rfl

section
variable {c op : Nat} {v : VecOp} {rest : List VecOp} {sf df : Fmt} {s : State}
  (hq : s.vecQAt c = v :: rest) (hop : v.op = op) (hsf : Fmt.ofCode v.sfmt = some sf) (hdf : v.destFmt = some df)
include hq hop hsf hdf

theorem vecRun_struck {r : Nat × Nat} {rs : List (Nat × Nat)} (hreads : vecReads v sf df = r :: rs) : (vecRun c op 5).run s =
    (vecTrap c v ST_COLLISION (sramAddr c r.1)).run
      ((vecStart c v rest (vecCk v sf df (s.codeBits c (v.b % 64))) 5 (some (sramAddr c r.1))).run s) := by
  rw [vecRun, Eff.run_look, hq]
  dsimp only
  rw [if_neg (not_not_intro hop), hsf, hdf]
  dsimp only
  rw [hreads]
  simp only [vecStart, Eff.run_all_cons, Eff.run_all_nil]
  rfl

end

theorem vecTrap_leaves {c : Nat} (hc : c < 128) (v : VecOp) {st : Nat} (hst : st < 256) (addr : Nat) (s : State) :
    let t := (vecTrap c v st addr).run s
    t.get (R.VEC_STATUS_last_status c) = st ∧ t.get (R.CELL_COLLISION_count c) = s.get (R.CELL_COLLISION_count c) ∧
    changesOnly [.regs, .msix, .mgmtQ, .out, .waiters, .waitSince] s t := by
  have htrap := responseTrap_within (ps := [.msix, .mgmtQ, .out, .waiters, .waitSince]) hc v.thread
    ⟨0, true, false, 0, 0, false, addr, v.pc, none⟩ st (by simp [tells])
  simp only [vecTrap, Eff.run_all_cons, Eff.run_all_nil]
  refine ⟨?_, ?_, changesOnly_trans (changesOnly_mono (by simp) ((put_in (ps := [.regs]) _ _ (by simp)).changes s))
    (changesOnly_trans (changesOnly_mono (by simp) ((put_in (ps := [.regs]) _ _ (by simp)).changes _)) (within_changes htrap _))⟩
  · rw [within_get htrap _ (by simp [vecSpared, R.VEC_STATUS_last_status, R.VEC_STATUS])]
    simp (disch := (
      try simp only [apart, farKey, R.VEC_STATUS_queued, R.VEC_STATUS_busy, R.VEC_STATUS_last_status, R.VEC_STATUS_last_thread,
        R.VEC_OPS_count, R.VEC_BUSY_CK_count, R.CELL_COLLISION_count, R.CELL_COLLISION_last_bank, R.CELL_COLLISION_last_word,
        R.CELL_COLLISION_last_class, R.VEC_STATUS, R.VEC_OPS, R.VEC_BUSY_CK, R.CELL_COLLISION, rk]
      omega)) only [get_put_apart]
    exact put_same_of_lt (Nat.le_of_ble_eq_true rfl) hst s
  · rw [within_get htrap _ (by simp [vecSpared, R.CELL_COLLISION_count, R.CELL_COLLISION])]
    simp (disch := (
      try simp only [apart, farKey, R.VEC_STATUS_queued, R.VEC_STATUS_busy, R.VEC_STATUS_last_status, R.VEC_STATUS_last_thread,
        R.VEC_OPS_count, R.VEC_BUSY_CK_count, R.CELL_COLLISION_count, R.CELL_COLLISION_last_bank, R.CELL_COLLISION_last_word,
        R.CELL_COLLISION_last_class, R.VEC_STATUS, R.VEC_OPS, R.VEC_BUSY_CK, R.CELL_COLLISION, rk]
      omega)) only [get_put_apart]

/-- Five collisions of the first source word end an operation. -/
theorem vecStruck_ends {c : Fin 128} {op : Nat} {i : Instr} {s : State} (hpow : s.power ≠ .off) (hi : exec i s = (vecRun c op 5).done s) :
    vecStruck c op i s := by
  intro v rest sf df r rs hq hop hsf hdf hreads hoff
  refine yields_done hi hpow ?_
  rw [vecRun_struck hq hop hsf hdf hreads]
  have hstart := within_changes (vecStart_within c v rest (vecCk v sf df (s.codeBits c (v.b % 64))) 5 (some (sramAddr c r.1))) s
  have hcount := vecStart_counts c.isLt hoff v rest (vecCk v sf df (s.codeBits c (v.b % 64))) 5 s
  have hqueue := vecStart_queue c v rest (vecCk v sf df (s.codeBits c (v.b % 64))) 5 (some (sramAddr c r.1)) s
  generalize (vecStart _ _ _ _ _ _).run s = u at hstart hcount hqueue ⊢
  obtain ⟨hstatus, hkept, hchanges⟩ := vecTrap_leaves c.isLt v (st := ST_COLLISION) (by decide) (sramAddr c r.1) u
  refine ⟨?_, hstatus, hkept.trans hcount, fun x => ?_⟩
  · rw [State.vecQAt, hchanges.same_vecQ (by simp)]
    exact hqueue
  · rw [State.memAt, hchanges.same_mem (by simp), hstart.same_mem (by simp), State.memAt]

/-! An operation on memory that its class owns -/

/-- Where the reads of the first source word collided, if they did. -/
def vecHit (c : Nat) (reads : List (Nat × Nat)) (n : Nat) : Option Nat :=
  if n != 0 && !reads.isEmpty then some (sramAddr c (reads.getD 0 (0, 0)).1) else none

/-- The answer of a read that meets no error. -/
def soundResp (s : State) (c : Nat) (r : Nat × Nat) : Resp := ⟨ST_OK, s.bytes (sramAddr c r.1) r.2, List.replicate r.2 false⟩

theorem vecReadAll_ready {c : Nat} {v : VecOp} {s : State} (reads : List (Nat × Nat)) (rs : List Resp) (k : List Resp → Eff)
    (h : ∀ r ∈ reads, sramReady s c r.1 r.2 (v.cls, 0)) :
    (vecReadAll c v reads rs k).run s = (k (rs.reverse ++ reads.map (soundResp s c))).run s := by
  induction reads generalizing rs with
  | nil => rw [vecReadAll, List.map_nil, List.append_nil]
  | cons r rest ih =>
    obtain ⟨hr, hrest⟩ := List.forall_mem_cons.1 h
    rw [vecReadAll, sramRead_ready hr, if_pos (.inl rfl), ih _ hrest, List.reverse_cons, List.append_assoc]
    rfl

theorem readBook_good {c k : Nat} {s : State} (ws : List Nat) (go : Option (Nat × Nat) → Eff)
    (h : ∀ j ∈ ws, s.marksAt ((0x4000000000 + cbKey c k j) / 8) = .good) : (readBook c k ws go).run s = (go none).run s := by
  induction ws with
  | nil => rfl
  | cons j rest ih =>
    obtain ⟨hj, hrest⟩ := List.forall_mem_cons.1 h
    rw [readBook, eccWord, Eff.run_look, hj]
    dsimp only
    rw [if_pos rfl, ih hrest]

theorem countEv_within {ps : List Part} (c : Nat) (e : Ev) : (countEv c e).Only (Upd.within ps (vecKey c)) := by
  have hkey : vecKey c (R.CELL_NUM_EVENTS c) := .inr (.inr (.inl rfl))
  simp only [countEv, Eff.only_all_cons, Eff.only_all_nil, Eff.only_when, within_addSat, and_true]
  exact ⟨fun _ => hkey, fun _ => hkey, fun _ => hkey, fun _ => hkey⟩

/-- Sound sources leave no byte of the result bad. -/
theorem vecBad_sound {v : VecOp} {sf df : Fmt} {codeBits len c : Nat} {s : State} (reads : List (Nat × Nat)) :
    vecBad v sf df codeBits len (reads.map (soundResp s c)) = List.replicate len false := by
  have hnone : ((reads.map (soundResp s c)).any fun r => r.bad.any id) = false := by
    simp [soundResp, List.any_eq_false]
  rw [vecBad]
  dsimp only
  rw [hnone, if_neg Bool.false_ne_true]

theorem markBad_sound (a len : Nat) (s : State) : (markBad a (List.replicate len false)).run s = s := by
  have hwhen : ∀ (is : List Nat) (u : State), (Eff.each is fun i =>
      Eff.when ((List.replicate len false).getD i false) (.upd (.marks ((a + i) / 8) .poison))).run u = u := fun is => by
    induction is with
    | nil => exact fun u => Eff.run_each_nil ..
    | cons i rest ih =>
      intro u
      have hfalse : (List.replicate len false).getD i false = false := by
        simp [List.getD_eq_getElem?_getD, List.getElem?_replicate]
        split <;> rfl
      rw [Eff.run_each_cons, hfalse, Eff.run_when_false, ih]
  exact hwhen _ s

section
variable {c op : Nat} {v : VecOp} {rest : List VecOp} {sf df : Fmt} {s : State}
  (hq : s.vecQAt c = v :: rest) (hop : v.op = op) (hsf : Fmt.ofCode v.sfmt = some sf) (hdf : v.destFmt = some df)
include hq hop hsf hdf

/-- The end of an operation whose result has been written with status `st`; `bad`: the bytes of it that poison reaches. -/
def vecEnd (c : Nat) (v : VecOp) (bad : List Bool) (st : Nat) : Eff :=
  if st ≠ ST_OK then vecTrap c v st (sramAddr c v.d)
  else .all [
    markBad (sramAddr c v.d) bad,
    Eff.when (bad.any id) (.all [
      put (R.VEC_STATUS_last_status c) ST_POISON, put (R.VEC_STATUS_last_thread c) v.thread]),
    addSat (R.VEC_OPS_count c) 1]

omit hq hop hsf hdf in
theorem vecEnd_sound (len : Nat) (t : State) :
    (vecEnd c v (List.replicate len false) ST_OK).run t = (addSat (R.VEC_OPS_count c) 1).run t := by
  have hnone : (List.replicate len false).any id = false := by simp
  rw [vecEnd, if_neg (not_not_intro rfl), hnone]
  simp only [Eff.run_all_cons, Eff.run_all_nil, markBad_sound, Eff.run_when_false]

/-- What an operation does once it has left its queue. -/
def vecBody (c : Nat) (v : VecOp) (sf df : Fmt) (s : State) : Eff :=
  vecReadAll c v (vecReads v sf df) [] fun rs =>
    readBook c (v.b % 64) (if v.op = 0x14 then s.bookWords c (v.b % 64) else []) fun bf =>
    runCalc c (vecCompute (s.vset c) v sf df (s.vecEntries c v) (s.codeBits c (v.b % 64)) (rs.map fun r => r.data)) fun bs =>
      sramWrite c v.d bs (v.cls, 0) (vecEnd c v (if bf.isSome then List.replicate bs.length true
        else vecBad v sf df (s.codeBits c (v.b % 64)) bs.length rs))

theorem vecRun_body {n : Fin 6} (hn : n.val < 5) (hcode : op = 0x14 → s.codeSlotOk c (v.b % 64) = true) : (vecRun c op n).run s =
    (vecBody c v sf df s).run
      ((vecStart c v rest (vecCk v sf df (s.codeBits c (v.b % 64))) n (vecHit c (vecReads v sf df) n)).run s) := by
  have hfive : (n.val == 5) = false := beq_eq_false_iff_ne.2 (Nat.ne_of_lt hn)
  have hslot : ¬ (op = 0x14 && !s.codeSlotOk c (v.b % 64)) = true := by
    simpa using hcode
  have hcollide : (Eff.when (n.val != 0 && !(vecReads v sf df).isEmpty)
      (countCollisions (sramAddr c ((vecReads v sf df).getD 0 (0, 0)).1) v.cls n)).run = (vecCollide v n (vecHit c (vecReads v sf df) n)).run := by
    funext u
    rw [vecHit]
    cases n.val != 0 && !(vecReads v sf df).isEmpty <;> rfl
  rw [vecRun, Eff.run_look, hq]
  dsimp only
  rw [if_neg (not_not_intro hop), hsf, hdf]
  dsimp only
  simp only [Eff.run_all_cons, Eff.run_all_nil, vecStart]
  rw [hfive, Bool.false_and, if_neg Bool.false_ne_true, if_neg hslot, hcollide, ← hop]
  rfl

end

/-- The operation at the front of the queue, its operands owned and sound, leaves its result, leaves the queue and is counted. -/
theorem vecDone_ends {c : Fin 128} {op : Nat} {i : Instr} {n : Fin 6} {s : State} (hpow : s.power ≠ .off) (hn : n.val < 5)
    (hi : exec i s = (vecRun c op n).done s) : vecDone c op i s := by
  intro v rest sf df hq hop hsf hdf hcode hreads
  dsimp only
  intro hdest
  refine yields_done hi hpow ?_
  rw [vecRun_body hq hop hsf hdf hn fun h => (hcode h).1]
  have hwithin := vecStart_within c v rest (vecCk v sf df (s.codeBits c (v.b % 64))) n (vecHit c (vecReads v sf df) n)
  have hqueue := vecStart_queue c v rest (vecCk v sf df (s.codeBits c (v.b % 64))) n (vecHit c (vecReads v sf df) n) s
  have hkeys : ∀ k, vecKey c k → ¬ memKey k ∧ k ≠ R.PWR_STATE := fun k hk => ⟨(vecKey_apart c.isLt hk).1, (vecKey_apart c.isLt hk).2.1⟩
  have hops : ¬ vecKey c (R.VEC_OPS_count c).key := fun h => (vecKey_apart c.isLt h).2.2 rfl
  have hsame := memSame_within hwithin s (by simp) hkeys
  have hstart := within_changes hwithin s
  have hcount := within_get hwithin s hops
  generalize (vecStart _ _ _ _ _ _).run s = u at hqueue hsame hstart hcount ⊢
  have hbytes : soundResp u c = soundResp s c := by
    funext r
    rw [soundResp, soundResp, bytes_of_mem (hstart.same_mem (by simp))]
  have hbook : ∀ j ∈ (if v.op = 0x14 then s.bookWords c (v.b % 64) else []),
      u.marksAt ((0x4000000000 + cbKey c (v.b % 64) j) / 8) = .good := fun j hj => by
    split at hj
    · exact hsame.marks _ ((hcode (hop.symm.trans ‹_›)).2 j hj)
    · exact absurd hj List.not_mem_nil
  rw [vecBody, vecReadAll_ready _ _ _ fun r hr => hsame.sramReady (hreads r hr), hbytes, readBook_good _ _ hbook, runCalc]
  have hdata : (([] : List Resp).reverse ++ (vecReads v sf df).map (soundResp s c)).map (fun r => r.data) =
      (vecReads v sf df).map fun r => s.bytes (sramAddr c r.1) r.2 := by
    rw [List.reverse_nil, List.nil_append, List.map_map]
    rfl
  rw [hdata, Eff.run_seq]
  unfold vecResult at hdest ⊢
  generalize (vecCompute _ _ _ _ _ _ _).run Ev.zero = w at hdest ⊢
  have hev := countEv_within (ps := []) c w.2
  have hsame2 := hsame.trans (memSame_within hev u (by simp) hkeys)
  have hchanges2 := within_changes hev u
  have hcount2 := (within_get hev u hops).trans hcount
  generalize (countEv c w.2).run u = x at hsame2 hchanges2 hcount2 ⊢
  rw [List.reverse_nil, List.nil_append, vecBad_sound, Option.isSome_none, if_neg Bool.false_ne_true]
  obtain ⟨y, hrun, hwrote, hparts⟩ := sramWrite_wrote (hsame2.sramReady hdest) (vecEnd c v (List.replicate w.1.length false))
  have hadd := (addSat_in (ps := [.regs]) (R.VEC_OPS_count c) 1 (by simp)).changes y
  rw [hrun, vecEnd_sound]
  refine ⟨?_, ?_, fun a => ?_⟩
  · rw [State.vecQAt, hadd.same_vecQ (by simp), hparts.same_vecQ (by simp), hchanges2.same_vecQ (by simp)]
    exact hqueue
  · rw [addSat_same _ _ _ (Nat.le_of_ble_eq_true rfl), (get_of_regs (hparts.same_regs (by simp))).1, hcount2]
  · rw [State.memAt, hadd.same_mem (by simp)]
    refine (hwrote.mem a).trans ?_
    rw [State.memAt, hchanges2.same_mem (by simp), hstart.same_mem (by simp), State.memAt]

theorem vectorResults : Claims.VectorResults := by
  intro c n s hpow hn
  exact ⟨vecDone_ends hpow hn rfl, vecDone_ends hpow hn rfl, vecDone_ends hpow hn rfl, vecDone_ends hpow hn rfl, vecDone_ends hpow hn rfl,
    vecDone_ends hpow hn rfl, vecDone_ends hpow hn rfl, vecDone_ends hpow hn rfl, vecDone_ends hpow hn rfl, vecDone_ends hpow hn rfl,
    vecDone_ends hpow hn rfl, vecDone_ends hpow hn rfl, vecDone_ends hpow hn rfl, vecDone_ends hpow hn rfl, vecDone_ends hpow hn rfl,
    vecDone_ends hpow hn rfl, vecDone_ends hpow hn rfl, vecDone_ends hpow hn rfl, vecDone_ends hpow hn rfl, vecDone_ends hpow hn rfl,
    vecDone_ends hpow hn rfl, vecDone_ends hpow hn rfl⟩

theorem vectorCollisions : Claims.VectorCollisions := by
  intro c s hpow
  exact ⟨vecStruck_ends hpow rfl, vecStruck_ends hpow rfl, vecStruck_ends hpow rfl, vecStruck_ends hpow rfl, vecStruck_ends hpow rfl,
    vecStruck_ends hpow rfl, vecStruck_ends hpow rfl, vecStruck_ends hpow rfl, vecStruck_ends hpow rfl, vecStruck_ends hpow rfl,
    vecStruck_ends hpow rfl, vecStruck_ends hpow rfl, vecStruck_ends hpow rfl, vecStruck_ends hpow rfl, vecStruck_ends hpow rfl,
    vecStruck_ends hpow rfl, vecStruck_ends hpow rfl, vecStruck_ends hpow rfl, vecStruck_ends hpow rfl, vecStruck_ends hpow rfl,
    vecStruck_ends hpow rfl, vecStruck_ends hpow rfl⟩

/-- Settles O15: every operation runs by the one rule of `vecRun`. -/
theorem vectorOperations : Obligations.VectorOperations := ⟨vectorResults, vectorCollisions⟩

end Sys2Proof.Proofs

/-! Effects by the fields that they write: a round of housekeeping writes many fields of shared registers, and what it leaves of a field
follows from the fields that each of its steps writes. -/

namespace Sys2Proof.Proofs
open Sys2Proof.Machine Sys2Proof.Claims

/-- A field of at least one bit, inside its register. -/
def Fits (f : Fld) : Prop := 0 < f.w ∧ f.lo + f.w ≤ 64

/-- The effect changes listed parts and registers, and of these only the fields of `W`. -/
structure Writes (ps : List Part) (W : Fld → Prop) (p : Eff) : Prop where
  changes : ∀ s, changesOnly (.regs :: ps) s (p.run s)
  get     : ∀ {f}, Fits f → (∀ g, W g → apart g f) → ∀ s, (p.run s).get f = s.get f

section
variable {ps : List Part} {W : Fld → Prop} {p q : Eff}

theorem Writes.bit (h : Writes ps W p) {f : Fld} (hf : Fits f) (hW : ∀ g, W g → apart g f) (s : State) :
    (p.run s).bit f = s.bit f := by rw [State.bit, State.bit, h.get hf hW]

theorem Writes.mono {qs : List Part} {V : Fld → Prop} (h : Writes ps W p) (hps : ps ⊆ qs) (hW : ∀ g, W g → V g) : Writes qs V p where
  changes s := changesOnly_mono (List.cons_subset_cons _ hps) (h.changes s)
  get hf hV s := h.get hf (fun g hg => hV g (hW g hg)) s

/-- Two effects, one after the other. -/
theorem Writes.comp {r : Eff} (hp : Writes ps W p) (hq : Writes ps W q) (hrun : ∀ s, r.run s = q.run (p.run s)) : Writes ps W r where
  changes s := by
    rw [hrun]
    exact changesOnly_trans (hp.changes s) (hq.changes _)
  get hf hW s := by rw [hrun, hq.get hf hW, hp.get hf hW]

theorem writes_of_run (h : ∀ s, p.run s = s) : Writes ps W p where
  changes s := by
    rw [h]
    exact changesOnly_refl _ s
  get _ _ s := by rw [h]

theorem writes_skip : Writes ps W .skip := writes_of_run fun _ => rfl

theorem writes_nil : Writes ps W (.all []) := writes_of_run fun _ => rfl

theorem writes_seq (hp : Writes ps W p) (hq : Writes ps W q) : Writes ps W (.seq p q) := hp.comp hq (Eff.run_seq p q)

theorem writes_cons {rest : List Eff} (hp : Writes ps W p) (hrest : Writes ps W (.all rest)) : Writes ps W (.all (p :: rest)) :=
  hp.comp hrest (Eff.run_all_cons p rest)

theorem writes_look {k : State → Eff} (h : ∀ s, Writes ps W (k s)) : Writes ps W (.look k) where
  changes s := by
    rw [Eff.run_look]
    exact (h s).changes s
  get hf hW s := by rw [Eff.run_look, (h s).get hf hW]

theorem writes_when {b : Bool} (h : b = true → Writes ps W p) : Writes ps W (Eff.when b p) := by
  cases b
  case false => exact writes_of_run (Eff.run_when_false p)
  case true => exact (writes_skip (ps := ps) (W := W)).comp (h rfl) fun s => by rw [Eff.run_when_true, Eff.run_skip]

theorem writes_each {α : Type} {xs : List α} {f : α → Eff} (h : ∀ x ∈ xs, Writes ps W (f x)) : Writes ps W (Eff.each xs f) := by
  induction xs with
  | nil => exact writes_of_run (Eff.run_each_nil f)
  | cons x rest ih =>
    obtain ⟨hx, hrest⟩ := List.forall_mem_cons.1 h
    exact hx.comp (ih hrest) (Eff.run_each_cons x rest f)

theorem writes_put {g : Fld} (hg : W g) (x : Nat) : Writes ps W (put g x) where
  changes s := changesOnly_mono (by simp) ((put_in (ps := [.regs]) g x (by simp)).changes s)
  get hf hW s := get_put_apart (hW g hg) hf.2 x s

theorem writes_putBit {g : Fld} (hg : W g) (b : Bool) : Writes ps W (putBit g b) := writes_put hg _

theorem writes_addSat {g : Fld} (hg : W g) (n : Nat) : Writes ps W (addSat g n) := writes_look fun _ => writes_put hg _

theorem writes_addWrap {g : Fld} (hg : W g) (n : Nat) : Writes ps W (addWrap g n) := writes_look fun _ => writes_put hg _

/-- An effect on whole registers. -/
theorem writes_within {K : Nat → Prop} (h : p.Only (Upd.within ps K)) (hK : ∀ k, K k → W ⟨k, 0, 64⟩) : Writes ps W p where
  changes := within_changes h
  get {f} hf hW s := within_get h s fun hk => by
    obtain ⟨hw, hend⟩ := hf
    rcases hW _ (hK _ hk) with hkey | hlo | hhi
    · exact hkey rfl
    all_goals
      dsimp only at *
      omega

/-- An effect on other parts than the registers. -/
theorem writes_in {qs : List Part} (h : p.In qs) (hregs : Part.regs ∉ qs) (hqs : qs ⊆ ps) : Writes ps W p where
  changes s := changesOnly_mono (List.subset_cons_of_subset _ hqs) (h.changes s)
  get _ _ s := by rw [(get_of_regs ((h.changes s).same_regs hregs)).1]

theorem writes_upd {u : Upd} (hu : u.part ∈ ps) (hregs : u.part ≠ .regs) : Writes ps W (.upd u) :=
  writes_in (Eff.in_upd (ps := [u.part]) List.mem_cons_self) (by simpa using fun h => hregs h.symm) (by simpa using hu)

theorem writes_withFree {k : Word → Eff} (hps : Part.freeCtr ∈ ps) (h : ∀ w, Writes ps W (k w)) : Writes ps W (withFree k) :=
  writes_look fun _ => writes_seq (writes_upd hps (by simp [Upd.part])) (h _)

end

/-! Telling of events -/

/-- The fields that telling of an event writes: those of the event pages above the routes, and two of PWR_STATE. -/
def eventField (g : Fld) : Prop :=
  (0x10034000 ≤ g.key ∧ g.key < 0x10050000) ∨ g = R.PWR_STATE_pending ∨ g = R.PWR_STATE_wake_cause

section
variable {ps : List Part} {W : Fld → Prop} (hps : tells ps) (hW : ∀ g, eventField g → W g)
include hps

theorem writes_mgmtEvent (src : Nat) : Writes ps W (mgmtEvent src) :=
  writes_look fun _ => writes_cons (writes_upd hps.2.1 (by simp [Upd.part]))
    (writes_cons (writes_look fun _ => writes_upd hps.2.2 (by simp [Upd.part])) writes_nil)

theorem writes_msixSend (p v : Nat) : Writes ps W (msixSend p v) := writes_look fun s => by
  dsimp only
  split
  · exact writes_upd hps.1 (by simp [Upd.part])
  · exact writes_look fun _ => writes_upd hps.2.2 (by simp [Upd.part])

include hW

theorem writes_watcherSee (src : Nat) : Writes ps W (watcherSee src) := writes_look fun s => by
  have hwake : ∀ g : Fld, g.key = R.AOW_WAKE → W g := fun g hg => hW g (.inl (by simp only [hg, R.AOW_WAKE, rk]; omega))
  split
  · exact writes_skip
  · dsimp only
    split
    · exact writes_skip
    · exact writes_cons (writes_put (hwake _ rfl) _) (writes_cons (writes_putBit (hwake _ rfl) _)
        (writes_cons (writes_when fun _ => writes_addSat (hwake _ rfl) _) (writes_cons
          (writes_when fun _ => writes_cons (writes_put (hW _ (.inr (.inl rfl))) _) (writes_cons (writes_put (hW _ (.inr (.inr rfl))) _) writes_nil))
          (writes_cons (writes_when fun _ => writes_mgmtEvent hps src) writes_nil))))

theorem writes_evFireAt {dest src : Nat} (hs : src < 2048) : Writes ps W (evFireAt dest src) := writes_look fun s => by
  have hpend : 0x10034000 ≤ pendReg dest src ∧ pendReg dest src < 0x10050000 := by
    have hpage := pendReg_page hs dest
    omega
  split
  · refine writes_seq (writes_put (hW _ (.inl hpend)) _) (writes_when fun _ => writes_look fun _ => ?_)
    split
    · exact writes_skip
    · exact writes_msixSend hps _ _
    · exact writes_msixSend hps _ _
  · exact writes_skip

theorem writes_evFire (src : Nat) : Writes ps W (evFire src) := writes_look fun s => by
  have hcounts : ∀ g : Fld, g.key = R.EVC_COUNTS → W g := fun g hg => hW g (.inl (by simp only [hg, R.EVC_COUNTS, rk]; omega))
  refine writes_cons (writes_addSat (hcounts _ rfl) _) (writes_cons (writes_when fun hl => ?_) writes_nil)
  have hs := srcListed_lt hl
  exact writes_cons (writes_when fun _ => writes_addSat (hcounts _ rfl) _) (writes_cons (writes_evFireAt hps hW hs)
    (writes_cons (writes_evFireAt hps hW hs) (writes_cons (writes_evFireAt hps hW hs) (writes_cons (writes_when fun _ => writes_mgmtEvent hps src)
      (writes_cons (writes_watcherSee hps hW src) writes_nil)))))

theorem writes_evLevel {src : Nat} (hroute : W (R.EVC_ROUTE_asserted src)) (b : Bool) : Writes ps W (evLevel src b) := writes_look fun s => by
  split
  · exact writes_skip
  · exact writes_seq (writes_putBit hroute b) (writes_when fun _ => writes_evFire hps hW src)

end

end Sys2Proof.Proofs

/-! The fields that the steps of a housekeeping round write (R484–R497). -/

namespace Sys2Proof.Proofs
open Sys2Proof.Machine Sys2Proof.Claims

/-! Publishing (R484) -/

/-- What publishing writes. -/
def publishField (g : Fld) : Prop :=
  (∃ ch < 256, g = R.THM_CHAN_lo ch ∨ g = R.THM_CHAN_hi ch ∨ g = R.THM_CHAN_lo_missing ch ∨ g = R.THM_CHAN_hi_missing ch) ∨
  g = R.THM_STATUS_round ∨ g.key = R.THM_COOL ∨ g.key = R.PWR_INPUT ∨ (0x10800000 ≤ g.key ∧ g.key < 0x10980000) ∨ eventField g

/-- The parts that publishing writes beside the registers. -/
def publishParts : List Part := [.mon, .msix, .mgmtQ, .out]

theorem publishTells : tells publishParts := by simp [tells, publishParts]

section
variable {W : Fld → Prop} (hW : ∀ g, eventField g → W g)
include hW

theorem writes_monSample (code inst : Nat) (v : Int) : Writes publishParts W (monSample code inst v) :=
  writes_look fun _ => writes_each fun _ _ => writes_when fun _ => writes_look fun _ =>
    writes_seq (writes_upd (by simp [Upd.part, publishParts]) (by simp [Upd.part])) (writes_when fun _ => writes_evFire publishTells hW _)

theorem writes_roundSamples (g : Readings) : Writes publishParts W (roundSamples g) := by
  refine writes_cons (writes_each fun ch _ => ?_) (writes_cons (writes_each fun _ _ => writes_monSample hW ..)
    (writes_cons (writes_when fun _ => writes_monSample hW ..) writes_nil))
  split
  · exact writes_monSample hW ..
  · exact writes_skip

end

/-- The readings and their missing marks of one channel. -/
def chanPut (s : State) (rs : List (BitVec 32)) (g : Readings) (ch : Nat) : Eff := .all [
  put (R.THM_CHAN_lo ch) (halfWord (s.chanWord rs ch) 0), put (R.THM_CHAN_hi ch) (halfWord (s.chanWord rs ch) 1),
  putBit (R.THM_CHAN_lo_missing ch) (g ch 0).missing, putBit (R.THM_CHAN_hi_missing ch) (g ch 1).missing]

/-- What publishing does after the channels. -/
def publishRest (s : State) (rs : List (BitVec 32)) (g : Readings) : Eff := .all [
  addWrap R.THM_STATUS_round 1,
  Eff.each (List.range 24) fun d => put (R.GD_STATUS_temp d) ((g (196 + d / 2) (d % 2)).v / 16 % 256).toNat,
  put R.PWR_INPUT_v_in (halfWord (s.chanWord rs 218) 0 / 10),
  put R.THM_COOL_flow_ml (halfWord (s.chanWord rs 209) 0),
  roundSamples g]

theorem publish_run (s t : State) (rs : List (BitVec 32)) (g : Readings) :
    (publish s rs g).run t = (publishRest s rs g).run ((Eff.each (List.range 256) (chanPut s rs g)).run t) := by
  rw [publish, Eff.run_all_cons]
  rfl

theorem writes_chanPut (s : State) (rs : List (BitVec 32)) (g : Readings) {ch : Nat} (hch : ch < 256) :
    Writes publishParts publishField (chanPut s rs g ch) :=
  writes_cons (writes_put (.inl ⟨ch, hch, .inl rfl⟩) _) (writes_cons (writes_put (.inl ⟨ch, hch, .inr (.inl rfl)⟩) _)
    (writes_cons (writes_putBit (.inl ⟨ch, hch, .inr (.inr (.inl rfl))⟩) _)
      (writes_cons (writes_putBit (.inl ⟨ch, hch, .inr (.inr (.inr rfl))⟩) _) writes_nil)))

/-- What publishing writes after the channels. -/
def publishRestField (g : Fld) : Prop :=
  g = R.THM_STATUS_round ∨ g.key = R.THM_COOL ∨ g.key = R.PWR_INPUT ∨ (0x10800000 ≤ g.key ∧ g.key < 0x10980000) ∨ eventField g

theorem writes_publishRest (s : State) (rs : List (BitVec 32)) (g : Readings) : Writes publishParts publishRestField (publishRest s rs g) := by
  refine writes_cons (writes_addWrap (.inl rfl) _) (writes_cons (writes_each fun d hd => writes_put (.inr (.inr (.inr (.inl ?_)))) _)
    (writes_cons (writes_put (.inr (.inr (.inl rfl))) _) (writes_cons (writes_put (.inr (.inl rfl)) _)
      (writes_cons (writes_roundSamples (fun _ h => .inr (.inr (.inr (.inr h)))) g) writes_nil))))
  have hlt := List.mem_range.1 hd
  simp only [R.GD_STATUS_temp, R.GD_STATUS, rk]
  omega

theorem writes_publish (s : State) (rs : List (BitVec 32)) (g : Readings) : Writes publishParts publishField (publish s rs g) :=
  (writes_each fun _ hch => writes_chanPut s rs g (List.mem_range.1 hch)).comp
    ((writes_publishRest s rs g).mono (List.Subset.refl _) fun _ h => .inr h) fun t => publish_run s t rs g

/-! Suspects (R485, R486) -/

/-- The parts that the checks of suspects write beside the registers. -/
def suspectParts : List Part := [.suspects, .disagreed, .freeCtr, .replaceFlash, .msix, .mgmtQ, .out]

theorem suspectTells : tells suspectParts := by simp [tells, suspectParts]

/-- What the checks of suspects write. -/
def suspectField (g : Fld) : Prop :=
  (∃ ch < 256, g = R.THM_CHAN_lo_marked ch ∨ g = R.THM_CHAN_hi_marked ch ∨ g = R.THM_CHAN_pair_suspect ch ∨ g = R.THM_CHAN_disagree ch) ∨
  g.key = R.THM_COUNTS ∨ g.key = R.SVC_REPLACE ∨ g.key = R.SVC_REPLACE_LAST ∨ g = R.EVC_ROUTE_asserted 0x710 ∨ eventField g

theorem suspectField_event (g : Fld) (h : eventField g) : suspectField g := .inr (.inr (.inr (.inr (.inr h))))

theorem writes_setReplaceFree (flag unit : Nat) : Writes suspectParts suspectField (setReplaceFree flag unit) := by
  have hreplace : ∀ g : Fld, g.key = R.SVC_REPLACE → suspectField g := fun _ h => .inr (.inr (.inl h))
  have hlast : ∀ g : Fld, g.key = R.SVC_REPLACE_LAST → suspectField g := fun _ h => .inr (.inr (.inr (.inl h)))
  exact writes_withFree (by simp [suspectParts]) fun _ => writes_look fun _ => writes_cons (writes_put (hreplace _ rfl) _)
    (writes_cons (writes_upd (by simp [Upd.part, suspectParts]) (by simp [Upd.part])) (writes_cons (writes_put (hlast _ rfl) _)
      (writes_cons (writes_put (hlast _ rfl) _) (writes_cons (writes_put (hlast _ rfl) _) (writes_cons (writes_put (hlast _ rfl) _)
        (writes_cons (writes_evLevel suspectTells suspectField_event (.inr (.inr (.inr (.inr (.inl rfl))))) _) writes_nil))))))

theorem writes_suspectNote {ch : Nat} (hch : ch < 256) (half : Nat) : Writes suspectParts suspectField (suspectNote ch half) :=
  writes_look fun s => writes_seq (writes_upd (by simp [Upd.part, suspectParts]) (by simp [Upd.part])) (writes_when fun _ => by
    refine writes_seq (writes_putBit (.inl ⟨ch, hch, ?_⟩) _) (writes_setReplaceFree ..)
    split
    · exact .inl rfl
    · exact .inr (.inl rfl))

theorem writes_pairSuspect {c : Nat} (hc : c < 128) : Writes suspectParts suspectField (pairSuspect c) :=
  writes_look fun _ => writes_when fun _ => writes_seq (writes_putBit (.inl ⟨c, by omega, .inr (.inr (.inl rfl))⟩) _) (writes_setReplaceFree ..)

theorem writes_pairCheck (g : Readings) {c : Nat} (hc : c < 128) : Writes suspectParts suspectField (pairCheck g c) := writes_look fun s => by
  have hpair : suspectField (R.THM_CHAN_disagree c) := .inl ⟨c, by omega, .inr (.inr (.inr rfl))⟩
  dsimp only
  split
  · exact writes_putBit hpair _
  · split
    · exact writes_seq (writes_putBit hpair _) (writes_pairSuspect hc)
    · exact writes_cons (writes_putBit hpair _) (writes_cons (writes_when fun _ => writes_cons
        (writes_upd (by simp [Upd.part, suspectParts]) (by simp [Upd.part])) (writes_cons (writes_addSat (.inr (.inl rfl)) _)
          (writes_cons (writes_evFire suspectTells suspectField_event _) writes_nil)))
        (writes_cons (writes_when fun _ => writes_upd (by simp [Upd.part, suspectParts]) (by simp [Upd.part]))
          (writes_cons (writes_when fun _ => writes_pairSuspect hc) writes_nil)))

theorem writes_suspectStep (g : Readings) (off : Bool) : Writes suspectParts suspectField (suspectStep g off) :=
  writes_seq (writes_each fun k hk => writes_when fun _ => writes_suspectNote (by have := List.mem_range.1 hk; omega) _)
    (writes_when fun _ => writes_each fun _ hc => writes_pairCheck g (List.mem_range.1 hc))

/-! Bands (R189, R190) -/

/-- The parts that the steps of the governor write beside the registers. -/
def govParts : List Part := [.gov, .msix, .mgmtQ, .out]

theorem govTells : tells govParts := by simp [tells, govParts]

/-- What the bands of the vaults write. -/
def bandField (g : Fld) : Prop := (∃ c < 128, g.key = R.VLT_BAND c ∨ g = R.EVC_ROUTE_asserted (c * 8 + 4)) ∨ eventField g

/-- What the band of one vault writes. -/
def bandOne (c : Nat) (g : Fld) : Prop := g.key = R.VLT_BAND c ∨ g = R.EVC_ROUTE_asserted (c * 8 + 4) ∨ eventField g

theorem writes_bandOne (g : Readings) (c : Nat) : Writes [.msix, .mgmtQ, .out] (bandOne c) (bandSet g c) := writes_look fun s => by
  have hband : ∀ f : Fld, f.key = R.VLT_BAND c → bandOne c f := fun f hf => .inl hf
  exact writes_cons (writes_put (hband _ rfl) _) (writes_cons (writes_putBit (hband _ rfl) _) (writes_cons (writes_putBit (hband _ rfl) _)
    (writes_cons (writes_put (hband _ rfl) _) (writes_cons (writes_put (hband _ rfl) _) (writes_cons (writes_put (hband _ rfl) _)
      (writes_cons (writes_put (hband _ rfl) _) (writes_cons (writes_put (hband _ rfl) _)
        (writes_cons (writes_when fun _ => writes_addSat (hband _ rfl) _)
          (writes_cons (writes_evLevel (by simp [tells]) (fun _ h => .inr (.inr h)) (.inr (.inl rfl)) _) writes_nil)))))))))

theorem writes_bandSet (g : Readings) {c : Nat} (hc : c < 128) : Writes [.msix, .mgmtQ, .out] bandField (bandSet g c) :=
  (writes_bandOne g c).mono (List.Subset.refl _) fun _ hf => hf.elim (fun h => .inl ⟨c, hc, .inl h⟩) fun h =>
    h.elim (fun h => .inl ⟨c, hc, .inr h⟩) .inr

theorem writes_bandStep (g : Readings) : Writes govParts bandField (bandStep g) :=
  writes_look fun _ => writes_when fun _ => writes_seq
    (writes_each fun _ hc => (writes_bandSet g (List.mem_range.1 hc)).mono (by simp [govParts]) fun _ => id)
    (writes_look fun _ => writes_upd (by simp [Upd.part, govParts]) (by simp [Upd.part]))

/-! Thresholds (R487) -/

/-- What the thresholds write, when no shutdown trips. -/
def thresholdField (g : Fld) : Prop :=
  g = R.THM_STATUS_t_max ∨ g = R.THM_STATUS_t_max_chan ∨ g = R.THM_STATUS_warning ∨ g.key = R.THM_COUNTS ∨ g = R.EVC_ROUTE_asserted 0x712 ∨
  eventField g

theorem thresholdField_event (g : Fld) (h : eventField g) : thresholdField g := .inr (.inr (.inr (.inr (.inr h))))

theorem writes_warnStep (bit : Nat) (t : Option (Int × Nat)) (trip clear : Int) : Writes govParts thresholdField (warnStep bit t trip clear) :=
  writes_look fun _ => writes_seq (writes_upd (by simp [Upd.part, govParts]) (by simp [Upd.part]))
    (writes_when fun _ => writes_addSat (.inr (.inr (.inr (.inl rfl)))) _)

/-- t_max is shown with its channel. -/
def maxShow : Option (Int × Nat) → Eff
  | some (t, ch) => .seq (put R.THM_STATUS_t_max (t % 2 ^ 16).toNat) (put R.THM_STATUS_t_max_chan ch)
  | none => .skip

/-- The thresholds of a round but for the shutdown. -/
def thresholdSet (m d p : Option (Int × Nat)) : Eff := .all [
  maxShow m,
  warnStep 0 m (95 * 16) (90 * 16), warnStep 1 d (95 * 16) (90 * 16), warnStep 2 p (115 * 16) (110 * 16),
  .look fun s => .seq (putBit R.THM_STATUS_warning (s.gov.warned != 0)) (evLevel 0x712 (s.gov.warned != 0))]

/-- The shutdown of a round. -/
def tripStep (m d p : Option (Int × Nat)) : Eff := .look fun s => match shutdownTrip m d p with
  | some (k, t) => Eff.when (!s.bit R.THM_SHUTDOWN_latched) (shutdown k t)
  | none => .skip

theorem thresholdStep_run (m d p : Option (Int × Nat)) (s : State) :
    (thresholdStep m d p).run s = (tripStep m d p).run ((thresholdSet m d p).run s) := by
  unfold thresholdStep thresholdSet tripStep
  rcases m with _ | ⟨t, ch⟩ <;> simp only [Eff.run_all_cons, Eff.run_all_nil, maxShow] <;> rfl

theorem writes_thresholdSet (m d p : Option (Int × Nat)) : Writes govParts thresholdField (thresholdSet m d p) := by
  refine writes_cons ?_ (writes_cons (writes_warnStep ..) (writes_cons (writes_warnStep ..) (writes_cons (writes_warnStep ..) (writes_cons
    (writes_look fun _ => writes_seq (writes_putBit (.inr (.inr (.inl rfl))) _)
      (writes_evLevel govTells thresholdField_event (.inr (.inr (.inr (.inr (.inl rfl))))) _)) writes_nil))))
  cases m
  · exact writes_skip
  · exact writes_seq (writes_put (.inl rfl) _) (writes_put (.inr (.inl rfl)) _)

/-! Throttle (R482, R483, R489–R492) -/

/-- What the throttle writes. -/
def throttleField (g : Fld) : Prop :=
  g.key = R.PWR_LEVEL_MS ∨ g.key = R.PWR_INPUT ∨ g.key = R.PWR_THROTTLE ∨ g = R.PWR_LIMIT_target_w ∨ g.key = R.PWR_COUNTS ∨
  g = R.THM_STATUS_temp_cause ∨ g.key = R.THM_COUNTS ∨ (∃ u < 1024, g = R.BU_DUTY_duty (u / 8) (u % 8)) ∨ g = R.EVC_ROUTE_asserted 0x711 ∨
  eventField g

theorem throttleField_event (g : Fld) (h : eventField g) : throttleField g :=
  .inr (.inr (.inr (.inr (.inr (.inr (.inr (.inr (.inr h))))))))

section
variable {g : Fld}

theorem throttleField_throttle (h : g.key = R.PWR_THROTTLE) : throttleField g := .inr (.inr (.inl h))

theorem throttleField_counts (h : g.key = R.PWR_COUNTS) : throttleField g := .inr (.inr (.inr (.inr (.inl h))))

theorem throttleField_request (h : g = R.EVC_ROUTE_asserted 0x711) : throttleField g :=
  .inr (.inr (.inr (.inr (.inr (.inr (.inr (.inr (.inl h))))))))

end

/-- What the enforcement of a level writes. -/
def levelField (g : Fld) : Prop :=
  g = R.PWR_THROTTLE_level ∨ (∃ u < 1024, g = R.BU_DUTY_duty (u / 8) (u % 8)) ∨ g = R.PWR_COUNTS_enforcements ∨ g = R.PWR_COUNTS_escalations

theorem writes_levelPut (n : Nat) : Writes [.gov] levelField (levelPut n) :=
  writes_look fun _ => writes_when fun _ => writes_cons (writes_put (.inl rfl) _)
    (writes_cons (writes_each fun u hu => writes_put (.inr (.inl ⟨u, List.mem_range.1 hu, rfl⟩)) _)
      (writes_cons (writes_upd (by simp [Upd.part]) (by simp [Upd.part]))
        (writes_cons (writes_when fun _ => writes_addSat (.inr (.inr (.inl rfl))) _)
          (writes_cons (writes_when fun _ => writes_addSat (.inr (.inr (.inr rfl))) _) writes_nil))))

theorem levelPut_throttle (n : Nat) : Writes govParts throttleField (levelPut n) := by
  refine (writes_levelPut n).mono (by simp [govParts]) fun g hg => ?_
  rcases hg with rfl | hu | rfl | rfl
  · exact throttleField_throttle rfl
  · exact .inr (.inr (.inr (.inr (.inr (.inr (.inr (.inl hu)))))))
  · exact throttleField_counts rfl
  · exact throttleField_counts rfl

/-- What the end of a request writes. -/
def endField (g : Fld) : Prop :=
  g = R.PWR_THROTTLE_request ∨ g = R.PWR_THROTTLE_causes ∨ g = R.PWR_THROTTLE_grace ∨ g = R.PWR_THROTTLE_grace_left_ms ∨
  g = R.PWR_LIMIT_target_w ∨ g = R.EVC_ROUTE_asserted 0x711 ∨ eventField g

theorem writes_requestEnd : Writes govParts endField requestEnd :=
  writes_look fun _ => writes_cons (writes_putBit (.inl rfl) _) (writes_cons (writes_put (.inr (.inl rfl)) _)
    (writes_cons (writes_putBit (.inr (.inr (.inl rfl))) _) (writes_cons (writes_put (.inr (.inr (.inr (.inl rfl)))) _)
      (writes_cons (writes_put (.inr (.inr (.inr (.inr (.inl rfl))))) _)
        (writes_cons (writes_upd (by simp [Upd.part, govParts]) (by simp [Upd.part]))
          (writes_cons (writes_evLevel govTells (fun _ h => .inr (.inr (.inr (.inr (.inr (.inr h))))))
            (.inr (.inr (.inr (.inr (.inr (.inl rfl)))))) _) writes_nil))))))

/-- What the raising of causes writes. -/
def raiseField (g : Fld) : Prop := endField g ∨ g = R.PWR_COUNTS_requests

theorem raiseField_throttle (g : Fld) (hg : raiseField g) : throttleField g := by
  rcases hg with (rfl | rfl | rfl | rfl | rfl | rfl | hg) | rfl
  · exact throttleField_throttle rfl
  · exact throttleField_throttle rfl
  · exact throttleField_throttle rfl
  · exact throttleField_throttle rfl
  · exact .inr (.inr (.inr (.inl rfl)))
  · exact throttleField_request rfl
  · exact throttleField_event g hg
  · exact throttleField_counts rfl

theorem requestEnd_throttle : Writes govParts throttleField requestEnd :=
  writes_requestEnd.mono (List.Subset.refl _) fun g hg => raiseField_throttle g (.inl hg)

theorem writes_causeRaise (bits : Nat) (timed : Bool) : Writes govParts raiseField (causeRaise bits timed) :=
  writes_look fun _ => writes_seq (writes_put (.inl (.inr (.inl rfl))) _) (writes_when fun _ =>
    writes_cons (writes_putBit (.inl (.inl rfl)) _) (writes_cons (writes_put (.inl (.inr (.inr (.inr (.inr (.inl rfl)))))) _)
      (writes_cons (writes_addSat (.inr rfl) _) (writes_cons
        (writes_when fun _ => writes_cons (writes_putBit (.inl (.inr (.inr (.inl rfl)))) _)
          (writes_cons (writes_put (.inl (.inr (.inr (.inr (.inl rfl))))) _)
            (writes_cons (writes_upd (by simp [Upd.part, govParts]) (by simp [Upd.part])) writes_nil)))
        (writes_cons (writes_evLevel govTells (fun _ h => .inl (.inr (.inr (.inr (.inr (.inr (.inr h)))))))
          (.inl (.inr (.inr (.inr (.inr (.inr (.inl rfl))))))) _) writes_nil)))))

theorem writes_enforceFirst : Writes govParts throttleField enforceFirst := writes_look fun s => writes_when fun _ => by
  split
  · exact requestEnd_throttle
  · exact writes_when fun _ => levelPut_throttle 1

theorem writes_levelStep : Writes govParts throttleField levelStep := writes_look fun s => by
  dsimp only
  split
  · exact writes_enforceFirst
  · split
    · exact levelPut_throttle _
    · exact writes_when fun _ => writes_seq (levelPut_throttle _) (writes_when fun _ => requestEnd_throttle)

theorem writes_powerStep (pIn : Option Nat) : Writes govParts throttleField (powerStep pIn) := by
  have hinput : ∀ g : Fld, g.key = R.PWR_INPUT → throttleField g := fun _ h => .inr (.inl h)
  refine writes_seq (writes_look fun _ => ?_) (writes_look fun _ => writes_seq (writes_put (hinput _ rfl) _) (writes_put (hinput _ rfl) _))
  split
  · exact writes_seq (writes_put (hinput _ rfl) _) (writes_upd (by simp [Upd.part, govParts]) (by simp [Upd.part]))
  · exact writes_skip

theorem writes_throttleStep (t : Option (Int × Nat)) (forced : Bool) (flow pIn : Option Nat) :
    Writes govParts throttleField (throttleStep t forced flow pIn) := by
  have hms : ∀ g : Fld, g.key = R.PWR_LEVEL_MS → throttleField g := fun _ h => .inl h
  refine writes_cons (writes_look fun s => ?_) (writes_cons (writes_powerStep pIn) (writes_cons
    (writes_look fun _ => writes_upd (by simp [Upd.part, govParts]) (by simp [Upd.part])) (writes_cons (writes_look fun s => ?_)
      (writes_cons (writes_look fun s => ?_) writes_nil))))
  · split
    · exact writes_addSat (hms _ rfl) _
    · exact writes_addSat (hms _ rfl) _
    · exact writes_addSat (hms _ rfl) _
    · exact writes_skip
  · refine writes_cons (writes_upd (by simp [Upd.part, govParts]) (by simp [Upd.part])) (writes_cons
      (writes_putBit (.inr (.inr (.inr (.inr (.inr (.inl rfl)))))) _) (writes_cons
        (writes_when fun _ => writes_addSat (.inr (.inr (.inr (.inr (.inr (.inr (.inl rfl))))))) _)
        (writes_cons (writes_when fun _ => (writes_causeRaise ..).mono (List.Subset.refl _) raiseField_throttle) (writes_cons ?_ writes_nil))))
    split
    · exact levelPut_throttle 3
    · exact writes_levelStep
  · split
    · exact writes_put (throttleField_throttle rfl) _
    · exact writes_skip

/-! Soundings (R494–R496) -/

/-- The parts that the soundings write beside the registers. -/
def soundParts : List Part := [.freeCtr, .soundings, .residuals, .foretold, .rotAt, .chart, .chartLoad, .msix, .mgmtQ, .out]

theorem soundTells : tells soundParts := by simp [tells, soundParts]

/-- What the soundings write. -/
def soundField (g : Fld) : Prop :=
  (∃ c < 128, g.key = R.THM_SOUND c) ∨ g.key = R.CHT_STATUS ∨ g.key = R.CHT_STAGED_ID ∨ g.key = R.THM_COUNTS ∨ eventField g

theorem soundField_event (g : Fld) (h : eventField g) : soundField g := .inr (.inr (.inr (.inr h)))

theorem writes_forecastOf {W : Fld → Prop} (t inlet : Option Int) (rise approach : Nat) {k : Int → Eff} (h : ∀ x, Writes soundParts W (k x)) :
    Writes soundParts W (forecastOf t inlet rise approach k) := by
  unfold forecastOf
  split
  · exact h _
  · exact writes_withFree (by simp [soundParts]) fun _ => h _

/-- What the sounding of one cell writes. -/
def soundOne (c : Nat) (g : Fld) : Prop := g.key = R.THM_SOUND c ∨ eventField g

theorem residualNote_in (c round : Nat) (t : Option Int) : (residualNote c round t).In [.soundings, .residuals] := Eff.in_look fun s => by
  refine Eff.in_seq (Eff.in_upd (by simp [Upd.part])) ?_
  split
  · exact Eff.in_upd (by simp [Upd.part])
  · exact Eff.in_skip

/-- A cell's forecasts are shown, and what is foretold is told. -/
def soundShow (c round h : Nat) (logic dram : Int) : Eff := .look fun s => .all [
  put (R.THM_SOUND_logic_pred c) (logic % 2 ^ 16).toNat, put (R.THM_SOUND_dram_pred c) (dram % 2 ^ 16).toNat,
  put (R.THM_SOUND_made_round c) round,
  .upd (.soundings c (s.soundingsAt c ++ [(round + h, logic)])),
  Eff.when (decide (95 * 16 ≤ logic ∨ 95 * 16 ≤ dram) && !s.foretoldAt c) (.seq (.upd (.foretold c true))
    (Eff.when (s.agrees 0 3 || s.agrees 1 3) (evFire 0x7C3))),
  Eff.when (decide (logic < 90 * 16 ∧ dram < 90 * 16)) (.upd (.foretold c false))]

/-- A sounding from the inlet's reading, the round and the horizon. -/
def soundWith (g : Readings) (c round h : Nat) (inlet : Option Int) : Eff := .seq (residualNote c round (usedCell g c))
  (forecastOf (usedCell g c) inlet (Config.heatRise round c 0) (Config.approach round c h) fun logic =>
    forecastOf (usedHalf g (layerAt c 0).1 (layerAt c 0).2) inlet (Config.heatRise round c 1) (Config.approach round c h) fun dram =>
      soundShow c round h logic dram)

theorem sound_eq (g : Readings) (c : Nat) : sound g c = .look fun s =>
    soundWith g c (s.get R.THM_STATUS_round) (s.get R.THM_SOUND_CFG_horizon_ms) (if (g 208 0).missing then none else some (g 208 0).v) := rfl

theorem writes_soundOne (g : Readings) (c : Nat) : Writes soundParts (soundOne c) (sound g c) := by
  have hsound : ∀ f : Fld, f.key = R.THM_SOUND c → soundOne c f := fun _ h => .inl h
  rw [sound_eq]
  exact writes_look fun s => writes_seq (writes_in (residualNote_in ..) (by simp) (by simp [soundParts]))
    (writes_forecastOf _ _ _ _ fun _ => writes_forecastOf _ _ _ _ fun _ => writes_look fun _ =>
      writes_cons (writes_put (hsound _ rfl) _) (writes_cons (writes_put (hsound _ rfl) _) (writes_cons (writes_put (hsound _ rfl) _)
        (writes_cons (writes_upd (by simp [Upd.part, soundParts]) (by simp [Upd.part])) (writes_cons
          (writes_when fun _ => writes_seq (writes_upd (by simp [Upd.part, soundParts]) (by simp [Upd.part]))
            (writes_when fun _ => writes_evFire soundTells (fun _ h => .inr h) _))
          (writes_cons (writes_when fun _ => writes_upd (by simp [Upd.part, soundParts]) (by simp [Upd.part])) writes_nil))))))

theorem writes_sound (g : Readings) {c : Nat} (hc : c < 128) : Writes soundParts soundField (sound g c) :=
  (writes_soundOne g c).mono (List.Subset.refl _) fun f hf => hf.elim (fun h => .inl ⟨c, hc, h⟩) (soundField_event f)

/-- What a rotation writes. -/
def rotationField (g : Fld) : Prop := g.key = R.CHT_STATUS ∨ g.key = R.CHT_STAGED_ID ∨ g.key = R.THM_COUNTS ∨ eventField g

theorem writes_rotationStep : Writes soundParts rotationField rotationStep := writes_look fun s => writes_when fun _ => by
  split
  · exact writes_skip
  · exact writes_when fun _ => writes_cons (writes_upd (by simp [Upd.part, soundParts]) (by simp [Upd.part]))
      (writes_cons (writes_addSat (.inr (.inr (.inl rfl))) _) (writes_cons
        (writes_cons (writes_upd (by simp [Upd.part, soundParts]) (by simp [Upd.part])) (writes_cons (writes_put (.inl rfl) _)
          (writes_cons (writes_put (.inr (.inl rfl)) _) (writes_cons (writes_upd (by simp [Upd.part, soundParts]) (by simp [Upd.part]))
            (writes_cons (writes_look fun _ => writes_when fun _ => writes_seq (writes_put (.inl rfl) _)
              (writes_evFire soundTells (fun _ h => .inr (.inr (.inr h))) _)) writes_nil))))) writes_nil))

theorem writes_soundStep (g : Readings) : Writes soundParts soundField (soundStep g) :=
  writes_look fun _ => writes_when fun _ => writes_seq
    (writes_each fun _ hc => writes_sound g (List.mem_range.1 (List.mem_filter.1 hc).1))
    (writes_rotationStep.mono (List.Subset.refl _) fun _ h => .inr h)

/-! Cooling and the input (R497, R500) -/

/-- What the cooling checks write. -/
def coolField (g : Fld) : Prop :=
  g.key = R.THM_COOL ∨ g = R.THM_STATUS_cooling_degraded ∨ g = R.EVC_ROUTE_asserted 0x714 ∨ eventField g

theorem writes_coolStep (g : Readings) (flow pIn : Option Nat) : Writes govParts coolField (coolStep g flow pIn) := by
  refine writes_cons (writes_look fun s => ?_) (writes_cons (writes_look fun _ =>
    writes_cons (writes_upd (by simp [Upd.part, govParts]) (by simp [Upd.part])) (writes_cons (writes_put (.inl rfl) _)
      (writes_cons (writes_put (.inl rfl) _) (writes_cons (writes_put (.inl rfl) _) (writes_cons (writes_putBit (.inr (.inl rfl)) _)
        (writes_cons (writes_evLevel govTells (fun _ h => .inr (.inr (.inr h))) (.inr (.inr (.inl rfl))) _) writes_nil)))))) writes_nil)
  dsimp only
  split
  · exact writes_when fun _ => writes_upd (by simp [Upd.part, govParts]) (by simp [Upd.part])
  · exact writes_skip

theorem writes_marginal (s : State) (rs : List (BitVec 32)) : Writes [.msix, .mgmtQ, .out] eventField (marginal s rs) :=
  writes_when fun _ => writes_evFire (by simp [tells]) (fun _ h => h) _

end Sys2Proof.Proofs

/-! A housekeeping round as a chain of states (R493), and what its steps leave alone. -/

namespace Sys2Proof.Proofs
open Sys2Proof.Machine Sys2Proof.Claims

theorem fits {f : Fld} (h : (Nat.blt 0 f.w && Nat.ble (f.lo + f.w) 64) = true) : Fits f := by
  obtain ⟨hw, hend⟩ := (Bool.and_eq_true _ _).mp h
  exact ⟨Nat.le_of_ble_eq_true hw, Nat.le_of_ble_eq_true hend⟩

/-! Registers that the steps write -/

/-- A register in which events are recorded. -/
def eventKey (k : Nat) : Prop := 0x10034000 ≤ k ∧ k < 0x10050000

/-- A register that the steps of a round up to its thresholds write. -/
def earlyKey (k : Nat) : Prop :=
  (0x100A0000 ≤ k ∧ k ≤ 0x100A0800) ∨ k = R.THM_COOL ∨ k = R.PWR_INPUT ∨ k = R.THM_COUNTS ∨ k = R.SVC_REPLACE ∨ k = R.SVC_REPLACE_LAST ∨
  (0x10800000 ≤ k ∧ k < 0x10980000) ∨ (∃ c < 128, k = R.VLT_BAND c ∨ k = R.EVC_ROUTE (c * 8 + 4)) ∨ k = R.EVC_ROUTE 0x710 ∨
  k = R.EVC_ROUTE 0x712 ∨ eventKey k

/-- A register that the soundings, the cooling checks and what follows write. -/
def lateKey (k : Nat) : Prop :=
  (∃ c < 128, k = R.THM_SOUND c) ∨ k = R.CHT_STATUS ∨ k = R.CHT_STAGED_ID ∨ k = R.THM_COUNTS ∨ k = R.THM_COOL ∨ k = R.THM_STATUS ∨
  k = R.EVC_ROUTE 0x714 ∨ eventKey k

theorem apart_of_key {f g : Fld} (h : f.key ≠ g.key) : apart g f := .inl h

section
variable {f : Fld} (hstate : f.key = R.PWR_STATE → f = R.PWR_STATE_state)
include hstate

theorem eventField_apart (h : ¬ eventKey f.key) (g : Fld) (hg : eventField g) : apart g f := by
  rcases hg with hg | rfl | rfl
  · exact apart_of_key fun he => h (he ▸ hg)
  · by_cases hk : f.key = R.PWR_STATE
    · rw [hstate hk]
      exact .inr (.inr (by decide))
    · exact apart_of_key hk
  · by_cases hk : f.key = R.PWR_STATE
    · rw [hstate hk]
      exact .inr (.inr (by decide))
    · exact apart_of_key hk

theorem early_apart (h : ¬ earlyKey f.key) (g : Fld) (hg : publishField g ∨ suspectField g ∨ bandField g ∨ thresholdField g) : apart g f := by
  have hevent : eventField g → apart g f := eventField_apart hstate (fun he => h (by simp [earlyKey, he])) g
  have hout : earlyKey g.key → apart g f := fun hk => apart_of_key fun he => h (he ▸ hk)
  rcases hg with hg | hg | hg | hg
  · rcases hg with ⟨ch, hch, hf⟩ | rfl | hk | hk | hk | hg
    · refine hout (.inl ?_)
      rcases hf with rfl | rfl | rfl | rfl <;>
      · simp only [R.THM_CHAN_lo, R.THM_CHAN_hi, R.THM_CHAN_lo_missing, R.THM_CHAN_hi_missing, R.THM_CHAN, rk]
        omega
    · exact hout (.inl (by decide))
    · exact hout (.inr (.inl hk))
    · exact hout (.inr (.inr (.inl hk)))
    · exact hout (.inr (.inr (.inr (.inr (.inr (.inr (.inl hk)))))))
    · exact hevent hg
  · rcases hg with ⟨ch, hch, hf⟩ | hk | hk | hk | rfl | hg
    · refine hout (.inl ?_)
      rcases hf with rfl | rfl | rfl | rfl <;>
      · simp only [R.THM_CHAN_lo_marked, R.THM_CHAN_hi_marked, R.THM_CHAN_pair_suspect, R.THM_CHAN_disagree, R.THM_CHAN, rk]
        omega
    · exact hout (.inr (.inr (.inr (.inl hk))))
    · exact hout (.inr (.inr (.inr (.inr (.inl hk)))))
    · exact hout (.inr (.inr (.inr (.inr (.inr (.inl hk))))))
    · exact hout (.inr (.inr (.inr (.inr (.inr (.inr (.inr (.inr (.inl rfl)))))))))
    · exact hevent hg
  · rcases hg with ⟨c, hc, hk⟩ | hg
    · refine hout (.inr (.inr (.inr (.inr (.inr (.inr (.inr (.inl ⟨c, hc, ?_⟩))))))))
      rcases hk with hk | rfl
      · exact .inl hk
      · exact .inr rfl
    · exact hevent hg
  · rcases hg with rfl | rfl | rfl | hk | rfl | hg
    · exact hout (.inl (by decide))
    · exact hout (.inl (by decide))
    · exact hout (.inl (by decide))
    · exact hout (.inr (.inr (.inr (.inl hk))))
    · exact hout (.inr (.inr (.inr (.inr (.inr (.inr (.inr (.inr (.inr (.inl rfl))))))))))
    · exact hevent hg

theorem late_apart (h : ¬ lateKey f.key) (g : Fld) (hg : soundField g ∨ coolField g ∨ eventField g) : apart g f := by
  have hevent : eventField g → apart g f := eventField_apart hstate (fun he => h (by simp [lateKey, he])) g
  have hout : lateKey g.key → apart g f := fun hk => apart_of_key fun he => h (he ▸ hk)
  rcases hg with hg | hg | hg
  · rcases hg with hk | hk | hk | hk | hg
    · exact hout (.inl hk)
    · exact hout (.inr (.inl hk))
    · exact hout (.inr (.inr (.inl hk)))
    · exact hout (.inr (.inr (.inr (.inl hk))))
    · exact hevent hg
  · rcases hg with hk | rfl | rfl | hg
    · exact hout (.inr (.inr (.inr (.inr (.inl hk)))))
    · exact hout (.inr (.inr (.inr (.inr (.inr (.inl rfl))))))
    · exact hout (.inr (.inr (.inr (.inr (.inr (.inr (.inl rfl)))))))
    · exact hevent hg
  · exact hevent hg

end

/-! The chain of states -/

section
variable (rs : List (BitVec 32)) (s : State)

/-- The round begins: its time. -/
def roundClock : State := (Eff.seq (reachTime (s.gov.roundAt + 1000000)) (.look fun t => .upd (.gov { t.gov with roundAt := t.now }))).run s

def roundPublished : State := (publish s rs (s.reading rs)).run (roundClock s)

def roundSuspected : State := (suspectStep (s.reading rs) s.diesOff).run (roundPublished rs s)

def roundBanded : State := (bandStep (s.reading rs)).run (roundSuspected rs s)

/-- The thresholds have been set, and no shutdown has begun yet. -/
def roundWarned : State :=
  (thresholdSet (roundMax s rs) (hottest (gddrOver (s.reading rs))) (hottest (stageOver (s.reading rs)))).run (roundBanded rs s)

def roundTripped : State :=
  (tripStep (roundMax s rs) (hottest (gddrOver (s.reading rs))) (hottest (stageOver (s.reading rs)))).run (roundWarned rs s)

def roundThrottled : State :=
  (throttleStep (roundMax s rs) (noKind (s.reading rs) s.diesOff) (roundFlow s rs) (roundPower s rs)).run (roundTripped rs s)

def roundSounded : State := (soundStep (s.reading rs)).run (roundThrottled rs s)

def roundCooled : State := (coolStep (s.reading rs) (roundFlow s rs) (roundPower s rs)).run (roundSounded rs s)

end

section
variable {rs : List (BitVec 32)} {s : State}

theorem housekeeping_run (hon : s.power = .on) : (housekeeping rs).run s = (marginal s rs).run (roundCooled rs s) := by
  have hpower : (s.power == .on) = true := beq_iff_eq.2 hon
  rw [housekeeping, Eff.run_look, hpower, Eff.run_when_true]
  simp only [Eff.run_all_cons, Eff.run_all_nil, thresholdStep_run]
  rw [roundCooled, roundSounded, roundThrottled, roundTripped, roundWarned, roundBanded, roundSuspected, roundPublished, roundClock, Eff.run_seq]
  rfl

theorem roundClock_now : (roundClock s).now = max s.now (s.gov.roundAt + 1000000) := rfl

theorem roundClock_gov : (roundClock s).gov = { s.gov with roundAt := (roundClock s).now } := rfl

theorem roundClock_changes : changesOnly [.now, .gov] s (roundClock s) := by
  rw [roundClock, Eff.run_seq, Eff.run_look]
  exact changesOnly_trans (changesOnly_mono (by simp)
    ((Eff.in_look (ps := [.now]) fun _ => Eff.in_upd (by simp [Upd.part]) : (reachTime _).In [.now]).changes s))
    (changesOnly_mono (by simp) ((Eff.in_upd (ps := [.gov]) (by simp [Upd.part])).changes _))

theorem roundClock_get (f : Fld) : (roundClock s).get f = s.get f := by
  rw [(get_of_regs (roundClock_changes.same_regs (by simp))).1]

/-- What the steps up to the thresholds leave. -/
theorem roundWarned_get {f : Fld} (hf : Fits f) (hstate : f.key = R.PWR_STATE → f = R.PWR_STATE_state) (h : ¬ earlyKey f.key) :
    (roundWarned rs s).get f = s.get f := by
  have hapart := early_apart hstate h
  rw [roundWarned, (writes_thresholdSet ..).get hf fun g hg => hapart g (.inr (.inr (.inr hg))), roundBanded,
    (writes_bandStep _).get hf fun g hg => hapart g (.inr (.inr (.inl hg))), roundSuspected,
    (writes_suspectStep ..).get hf fun g hg => hapart g (.inr (.inl hg)), roundPublished,
    (writes_publish ..).get hf fun g hg => hapart g (.inl hg), roundClock_get]

/-- What the steps from the soundings on leave. -/
theorem housekeeping_get (hon : s.power = .on) {f : Fld} (hf : Fits f) (hstate : f.key = R.PWR_STATE → f = R.PWR_STATE_state)
    (h : ¬ lateKey f.key) : ((housekeeping rs).run s).get f = (roundThrottled rs s).get f := by
  have hapart := late_apart hstate h
  rw [housekeeping_run hon, (writes_marginal ..).get hf fun g hg => hapart g (.inr (.inr hg)), roundCooled,
    (writes_coolStep ..).get hf fun g hg => hapart g (.inr (.inl hg)), roundSounded,
    (writes_soundStep _).get hf fun g hg => hapart g (.inl hg)]

end

end Sys2Proof.Proofs

/-! The throttle: what the enforcement of a level, the end of a request and the raising of causes leave, and the two timers (R483,
R489–R492). -/

namespace Sys2Proof.Proofs
open Sys2Proof.Machine Sys2Proof.Claims


/-! A level (R491) -/

section
variable {f : Fld}

theorem levelField_apart (hlevel : apart R.PWR_THROTTLE_level f) (hcounts : apart R.PWR_COUNTS_enforcements f ∧ apart R.PWR_COUNTS_escalations f)
    (hduty : ∀ u < 1024, f.key ≠ R.BU_DUTY (u / 8) (u % 8)) (g : Fld) (hg : levelField g) : apart g f := by
  rcases hg with rfl | ⟨u, hu, rfl⟩ | rfl | rfl
  · exact hlevel
  · exact apart_of_key (hduty u hu)
  · exact hcounts.1
  · exact hcounts.2

end

/-- A field of the governor other than its level and the two counts of levels. -/
theorem levelPut_get (n : Nat) {f : Fld} (hf : Fits f) (hlevel : apart R.PWR_THROTTLE_level f)
    (hcounts : apart R.PWR_COUNTS_enforcements f ∧ apart R.PWR_COUNTS_escalations f) (hkey : 0x10000000 ≤ f.key) (s : State) :
    ((levelPut n).run s).get f = s.get f := by
  refine (writes_levelPut n).get hf (levelField_apart hlevel hcounts fun u hu => ?_) s
  simp only [R.BU_DUTY, rk]
  omega

theorem levelPut_gov (n : Nat) (s : State) : ∃ x, ((levelPut n).run s).gov = { s.gov with levelAt := x } := by
  rw [levelPut, Eff.run_look]
  dsimp only
  cases n != s.get R.PWR_THROTTLE_level
  · exact ⟨s.gov.levelAt, by rw [Eff.run_when_false]⟩
  · refine ⟨s.now, ?_⟩
    have hregs : ∀ e : Eff, e.In [.regs] → ∀ t : State, (e.run t).gov = t.gov := fun e he t => (he.changes t).same_gov (by simp)
    simp only [Eff.run_when_true, Eff.run_all_cons, Eff.run_all_nil]
    rw [hregs _ (Eff.in_when (addSat_in _ _ (by simp))), hregs _ (Eff.in_when (addSat_in _ _ (by simp))), Eff.run_upd]
    rfl

/-- The level is enforced; when it was so already, nothing happens. -/
theorem levelPut_same {n : Nat} {s : State} (h : s.get R.PWR_THROTTLE_level = n) : (levelPut n).run s = s := by
  rw [levelPut, Eff.run_look]
  dsimp only
  rw [h, bne_self_eq_false, Eff.run_when_false]

theorem levelPut_level {n : Nat} (hn : n < 4) (s : State) : ((levelPut n).run s).get R.PWR_THROTTLE_level = n := by
  by_cases h : s.get R.PWR_THROTTLE_level = n
  · rw [levelPut_same h, h]
  · have hbne : (n != s.get R.PWR_THROTTLE_level) = true := bne_iff_ne.2 fun he => h he.symm
    have hlater : ∀ e : Eff, Writes [.gov] (fun g => levelField g ∧ g ≠ R.PWR_THROTTLE_level) e → ∀ t : State,
        (e.run t).get R.PWR_THROTTLE_level = t.get R.PWR_THROTTLE_level := fun e he t => he.get (fits rfl) (fun g hg => by
      rcases hg.1 with rfl | ⟨u, hu, rfl⟩ | rfl | rfl
      · exact absurd rfl hg.2
      · exact apart_of_key (by simp only [R.PWR_THROTTLE_level, R.PWR_THROTTLE, R.BU_DUTY_duty, R.BU_DUTY, rk]; omega)
      · exact apart_of_key (by decide)
      · exact apart_of_key (by decide)) t
    rw [levelPut, Eff.run_look]
    dsimp only
    rw [hbne, Eff.run_when_true, Eff.run_all_cons]
    rw [hlater _ (writes_cons (writes_each fun u hu => writes_put ⟨.inr (.inl ⟨u, List.mem_range.1 hu, rfl⟩), by
        intro he
        have hkey := congrArg Fld.key he
        simp only [R.PWR_THROTTLE_level, R.PWR_THROTTLE, R.BU_DUTY_duty, R.BU_DUTY, rk] at hkey
        omega⟩ _)
      (writes_cons (writes_upd (by simp [Upd.part]) (by simp [Upd.part]))
        (writes_cons (writes_when fun _ => writes_addSat ⟨.inr (.inr (.inl rfl)), by decide⟩ _)
          (writes_cons (writes_when fun _ => writes_addSat ⟨.inr (.inr (.inr rfl)), by decide⟩ _) writes_nil))))]
    exact put_same_of_lt (by decide) (show n < 2 ^ 2 from hn) s

theorem levelPut_enforced {n : Nat} (hn : n < 4) {s : State} (h : s.get R.PWR_THROTTLE_level ≠ n) : enforced n ((levelPut n).run s) := by
  refine ⟨levelPut_level hn s, fun u hu => ?_⟩
  have hbne : (n != s.get R.PWR_THROTTLE_level) = true := bne_iff_ne.2 fun he => h he.symm
  have hduty : levelDuty n = (if n = 0 then 16 else if n = 1 then 12 else if n = 2 then 8 else 4) := by
    interval_cases n <;> rfl
  have hlt : levelDuty n < 2 ^ 5 := by interval_cases n <;> decide
  have heach : ∀ t : State, ∀ v ∈ List.range 1024, ((Eff.each (List.range 1024) fun u => put (R.BU_DUTY_duty (u / 8) (u % 8)) (levelDuty n)).run
      t).get (R.BU_DUTY_duty (v / 8) (v % 8)) = levelDuty n := fun t v hv =>
    run_each_establishes (P := fun v t => t.get (R.BU_DUTY_duty (v / 8) (v % 8)) = levelDuty n)
      (fun v t => put_same_of_lt (by simp [R.BU_DUTY_duty]) (by simpa [R.BU_DUTY_duty] using hlt) t) (fun v w t hv => by
        by_cases hvw : v = w
        · rw [hvw]
          exact put_same_of_lt (by simp [R.BU_DUTY_duty]) (by simpa [R.BU_DUTY_duty] using hlt) t
        · rwa [get_put_apart (apart_of_key (by simp only [R.BU_DUTY_duty, R.BU_DUTY, rk]; omega)) (by simp [R.BU_DUTY_duty])]) _ t v hv
  have hlater : Writes [.gov] (fun g => g.key = R.PWR_COUNTS) (.all [
      .upd (.gov { s.gov with levelAt := s.now }),
      Eff.when (s.get R.PWR_THROTTLE_level == 0) (addSat R.PWR_COUNTS_enforcements 1),
      Eff.when (decide (s.get R.PWR_THROTTLE_level < n)) (addSat R.PWR_COUNTS_escalations 1)]) :=
    writes_cons (writes_upd (by simp [Upd.part]) (by simp [Upd.part])) (writes_cons
      (writes_when fun _ => writes_addSat (W := fun g => g.key = R.PWR_COUNTS) rfl _)
      (writes_cons (writes_when fun _ => writes_addSat (W := fun g => g.key = R.PWR_COUNTS) rfl _) writes_nil))
  rw [levelPut, Eff.run_look]
  dsimp only
  rw [hbne, Eff.run_when_true, Eff.run_all_cons, Eff.run_all_cons, hlater.get (fits rfl) (fun g hg => apart_of_key (by
    simp only [hg, R.BU_DUTY_duty, R.BU_DUTY, R.PWR_COUNTS, rk]; omega)), heach _ u (List.mem_range.2 hu), hduty]

/-! The level of a source -/

theorem evLevel_kept {f : Fld} (h : R.PWR_STATE < f.key) {src : Nat} (hs : src < 2048) (b : Bool) (s : State) :
    ((evLevel src b).run s).get f = s.get f := by
  have hnum : R.PWR_STATE = 0x100B0000 := rfl
  exact get_evLevel hs ⟨.inr (by omega), by omega⟩ b s

theorem eventField_high {f g : Fld} (h : R.PWR_STATE < f.key) (hg : eventField g) : apart g f := by
  have hnum : R.PWR_STATE = 0x100B0000 := rfl
  exact eventField_apart (fun he => absurd he (Nat.ne_of_gt h)) (by rw [eventKey]; omega) g hg

theorem evLevel_changes (src : Nat) (b : Bool) (s : State) : changesOnly [.regs, .msix, .mgmtQ, .out] s ((evLevel src b).run s) :=
  (writes_evLevel (ps := [.msix, .mgmtQ, .out]) (W := fun _ => True) (by simp [tells]) (fun _ _ => trivial) trivial b).changes s

/-! The end of a request, and the raising of causes (R489, R492) -/

theorem requestEnd_leaves (s : State) : let t := requestEnd.run s
    noRequest t ∧ t.get R.PWR_THROTTLE_level = s.get R.PWR_THROTTLE_level ∧ t.gov = { s.gov with graceEnd := none } := by
  have hgov : requestEnd.run s = (evLevel 0x711 false).run ((Upd.gov { s.gov with graceEnd := none }).run
      ((put R.PWR_LIMIT_target_w 0).run ((put R.PWR_THROTTLE_grace_left_ms 0).run ((putBit R.PWR_THROTTLE_grace false).run
        ((put R.PWR_THROTTLE_causes 0).run ((putBit R.PWR_THROTTLE_request false).run s)))))) := by
    rw [requestEnd, Eff.run_look]
    simp only [Eff.run_all_cons, Eff.run_all_nil, Eff.run_upd]
  dsimp only
  rw [hgov]
  refine ⟨⟨?_, ?_, evLevel_asserted _ _ (by decide) _⟩, ?_, ?_⟩
  · rw [State.bit, evLevel_kept (by decide) (by decide), get_upd (by simp [Upd.part])]
    simp (disch := (
      try simp only [apart, farKey, R.PWR_THROTTLE_request, R.PWR_THROTTLE_level, R.PWR_THROTTLE_causes, R.PWR_THROTTLE_grace,
        R.PWR_THROTTLE_grace_left_ms, R.PWR_LIMIT_limit_w, R.PWR_LIMIT_target_w, R.PWR_COUNTS_requests,
        R.PWR_COUNTS_enforcements, R.PWR_COUNTS_escalations, R.PWR_COUNTS_peak_events, R.PWR_THROTTLE, R.PWR_LIMIT,
        R.PWR_COUNTS, rk]
      omega)) only [get_put_apart, putBit, put_same]
    rfl
  · rw [evLevel_kept (by decide) (by decide), get_upd (by simp [Upd.part])]
    simp (disch := (
      try simp only [apart, farKey, R.PWR_THROTTLE_request, R.PWR_THROTTLE_level, R.PWR_THROTTLE_causes, R.PWR_THROTTLE_grace,
        R.PWR_THROTTLE_grace_left_ms, R.PWR_LIMIT_limit_w, R.PWR_LIMIT_target_w, R.PWR_COUNTS_requests,
        R.PWR_COUNTS_enforcements, R.PWR_COUNTS_escalations, R.PWR_COUNTS_peak_events, R.PWR_THROTTLE, R.PWR_LIMIT,
        R.PWR_COUNTS, rk]
      omega)) only [get_put_apart, putBit, put_same]
    rfl
  · rw [evLevel_kept (by decide) (by decide), get_upd (by simp [Upd.part])]
    simp (disch := (
      try simp only [apart, farKey, R.PWR_THROTTLE_request, R.PWR_THROTTLE_level, R.PWR_THROTTLE_causes, R.PWR_THROTTLE_grace,
        R.PWR_THROTTLE_grace_left_ms, R.PWR_LIMIT_limit_w, R.PWR_LIMIT_target_w, R.PWR_COUNTS_requests,
        R.PWR_COUNTS_enforcements, R.PWR_COUNTS_escalations, R.PWR_COUNTS_peak_events, R.PWR_THROTTLE, R.PWR_LIMIT,
        R.PWR_COUNTS, rk]
      omega)) only [get_put_apart, putBit]
  · exact (evLevel_changes ..).same_gov (by simp)

/-- The grace time of a request that is timed begins. -/
def graceBegin (s : State) : Eff := .all [
  putBit R.PWR_THROTTLE_grace true, put R.PWR_THROTTLE_grace_left_ms (s.get R.THM_GRACE_grace_ms),
  .upd (.gov { s.gov with graceEnd := some (s.now + s.get R.THM_GRACE_grace_ms * 1000000) })]

theorem graceBegin_leaves (s t : State) (hgov : t.gov = s.gov) (b : Bool) : let u := (Eff.when b (graceBegin s)).run t
    (b = true → u.bit R.PWR_THROTTLE_grace = true) ∧
    u.gov = (if b then { s.gov with graceEnd := some (s.now + s.get R.THM_GRACE_grace_ms * 1000000) } else s.gov) ∧
    ∀ f, Fits f → apart R.PWR_THROTTLE_grace f → apart R.PWR_THROTTLE_grace_left_ms f → u.get f = t.get f := by
  cases b
  · exact ⟨nofun, hgov, fun _ _ _ _ => rfl⟩
  · dsimp only
    rw [Eff.run_when_true, graceBegin]
    simp only [Eff.run_all_cons, Eff.run_all_nil, Eff.run_upd]
    refine ⟨fun _ => ?_, rfl, fun f hf hgrace hleft => ?_⟩
    · rw [State.bit, get_upd (by simp [Upd.part]), get_put_apart
      (by simp [apart, R.PWR_THROTTLE_grace, R.PWR_THROTTLE_grace_left_ms, R.PWR_THROTTLE])
        (by decide)]
      exact beq_iff_eq.2 (put_same_of_lt (by decide) (by decide) t)
    · rw [get_upd (by simp [Upd.part]), get_put_apart hleft hf.2, putBit, get_put_apart hgrace hf.2]

theorem tempTarget_lt (s : State) : s.tempTarget < 2 ^ 16 := by
  have hlimit := get_lt s R.PWR_LIMIT_limit_w
  have hw : R.PWR_LIMIT_limit_w.w = 16 := rfl
  rw [hw] at hlimit
  rw [State.tempTarget]
  omega

/-- With no request standing, a cause begins one. -/
theorem causeRaise_begins {bits : Nat} {timed : Bool} {s : State} (hreq : s.bit R.PWR_THROTTLE_request = false) :
    let t := (causeRaise bits timed).run s
    t.bit R.PWR_THROTTLE_request = true ∧ t.bit (R.EVC_ROUTE_asserted 0x711) = true ∧
    t.get R.PWR_COUNTS_requests = min (s.get R.PWR_COUNTS_requests + 1) (2 ^ R.PWR_COUNTS_requests.w - 1) ∧
    t.get R.PWR_LIMIT_target_w = (if bits.testBit 0 then s.tempTarget else s.get R.PWR_LIMIT_limit_w) ∧
    (timed = true → t.bit R.PWR_THROTTLE_grace = true) ∧
    t.gov = (if timed then { s.gov with graceEnd := some (s.now + s.get R.THM_GRACE_grace_ms * 1000000) } else s.gov) ∧
    t.get R.PWR_THROTTLE_causes = Nat.lor (s.get R.PWR_THROTTLE_causes) bits % 2 ^ 4 := by
  have hrun : (causeRaise bits timed).run s = (evLevel 0x711 true).run ((Eff.when timed (graceBegin s)).run
      ((addSat R.PWR_COUNTS_requests 1).run ((put R.PWR_LIMIT_target_w (if bits.testBit 0 then s.tempTarget else s.get R.PWR_LIMIT_limit_w)).run
        ((putBit R.PWR_THROTTLE_request true).run ((put R.PWR_THROTTLE_causes (Nat.lor (s.get R.PWR_THROTTLE_causes) bits)).run s))))) := by
    rw [causeRaise, Eff.run_look, hreq, Bool.not_false, Eff.run_seq, Eff.run_when_true]
    simp only [Eff.run_all_cons, Eff.run_all_nil, graceBegin]
  have hlt : (if bits.testBit 0 then s.tempTarget else s.get R.PWR_LIMIT_limit_w) < 2 ^ 16 := by
    split
    · exact tempTarget_lt s
    · exact get_lt s R.PWR_LIMIT_limit_w
  dsimp only
  rw [hrun]
  generalize (if bits.testBit 0 then s.tempTarget else s.get R.PWR_LIMIT_limit_w) = x at hlt ⊢
  have hfirst : changesOnly [.regs] s ((addSat R.PWR_COUNTS_requests 1).run ((put R.PWR_LIMIT_target_w x).run
      ((putBit R.PWR_THROTTLE_request true).run ((put R.PWR_THROTTLE_causes (Nat.lor (s.get R.PWR_THROTTLE_causes) bits)).run s)))) :=
    changesOnly_trans ((put_in _ _ (by simp)).changes _) (changesOnly_trans ((put_in _ _ (by simp)).changes _)
      (changesOnly_trans ((put_in _ _ (by simp)).changes _) ((addSat_in _ _ (by simp)).changes _)))
  have hvalues : let u := (addSat R.PWR_COUNTS_requests 1).run ((put R.PWR_LIMIT_target_w x).run
      ((putBit R.PWR_THROTTLE_request true).run ((put R.PWR_THROTTLE_causes (Nat.lor (s.get R.PWR_THROTTLE_causes) bits)).run s)))
      u.get R.PWR_THROTTLE_request = 1 ∧ u.get R.PWR_LIMIT_target_w = x ∧
      u.get R.PWR_COUNTS_requests = min (s.get R.PWR_COUNTS_requests + 1) (2 ^ R.PWR_COUNTS_requests.w - 1) ∧
      u.get R.PWR_THROTTLE_causes = Nat.lor (s.get R.PWR_THROTTLE_causes) bits % 2 ^ 4 := by
    refine ⟨?_, ?_, ?_, ?_⟩
    · simp (disch := (
      try simp only [apart, farKey, R.PWR_THROTTLE_request, R.PWR_THROTTLE_level, R.PWR_THROTTLE_causes, R.PWR_THROTTLE_grace,
        R.PWR_THROTTLE_grace_left_ms, R.PWR_LIMIT_limit_w, R.PWR_LIMIT_target_w, R.PWR_COUNTS_requests,
        R.PWR_COUNTS_enforcements, R.PWR_COUNTS_escalations, R.PWR_COUNTS_peak_events, R.PWR_THROTTLE, R.PWR_LIMIT,
        R.PWR_COUNTS, rk]
      omega)) only [get_put_apart, get_addSat_apart, putBit]
      exact put_same_of_lt (by decide) (by decide) _
    · simp (disch := (
      try simp only [apart, farKey, R.PWR_THROTTLE_request, R.PWR_THROTTLE_level, R.PWR_THROTTLE_causes, R.PWR_THROTTLE_grace,
        R.PWR_THROTTLE_grace_left_ms, R.PWR_LIMIT_limit_w, R.PWR_LIMIT_target_w, R.PWR_COUNTS_requests,
        R.PWR_COUNTS_enforcements, R.PWR_COUNTS_escalations, R.PWR_COUNTS_peak_events, R.PWR_THROTTLE, R.PWR_LIMIT,
        R.PWR_COUNTS, rk]
      omega)) only [get_put_apart, get_addSat_apart, putBit]
      exact put_same_of_lt (by decide) hlt _
    · simp (disch := (
      try simp only [apart, farKey, R.PWR_THROTTLE_request, R.PWR_THROTTLE_level, R.PWR_THROTTLE_causes, R.PWR_THROTTLE_grace,
        R.PWR_THROTTLE_grace_left_ms, R.PWR_LIMIT_limit_w, R.PWR_LIMIT_target_w, R.PWR_COUNTS_requests,
        R.PWR_COUNTS_enforcements, R.PWR_COUNTS_escalations, R.PWR_COUNTS_peak_events, R.PWR_THROTTLE, R.PWR_LIMIT,
        R.PWR_COUNTS, rk]
      omega)) only [get_put_apart, putBit, addSat_same]
    · simp (disch := (
      try simp only [apart, farKey, R.PWR_THROTTLE_request, R.PWR_THROTTLE_level, R.PWR_THROTTLE_causes, R.PWR_THROTTLE_grace,
        R.PWR_THROTTLE_grace_left_ms, R.PWR_LIMIT_limit_w, R.PWR_LIMIT_target_w, R.PWR_COUNTS_requests,
        R.PWR_COUNTS_enforcements, R.PWR_COUNTS_escalations, R.PWR_COUNTS_peak_events, R.PWR_THROTTLE, R.PWR_LIMIT,
        R.PWR_COUNTS, rk]
      omega)) only [get_put_apart, get_addSat_apart, putBit]
      exact put_same _ _ _ (by decide)
  generalize (addSat R.PWR_COUNTS_requests 1).run _ = u at hfirst hvalues ⊢
  obtain ⟨hrequest, htarget, hcount, hcauses⟩ := hvalues
  obtain ⟨hgrace, hgov, hkept⟩ := graceBegin_leaves s u (hfirst.same_gov (by simp)) timed
  generalize (Eff.when timed (graceBegin s)).run u = v at hgrace hgov hkept ⊢
  refine ⟨?_, evLevel_asserted _ _ (by decide) _, ?_, ?_, fun ht => ?_, ((evLevel_changes ..).same_gov (by simp)).trans hgov, ?_⟩
  · rw [State.bit, evLevel_kept (by decide) (by decide), hkept _ (fits rfl) (.inr (.inr (by decide))) (.inr (.inr (by decide))), hrequest]
    rfl
  · rw [evLevel_kept (by decide) (by decide), hkept _ (fits rfl) (.inl (by decide)) (.inl (by decide)), hcount]
  · rw [evLevel_kept (by decide) (by decide), hkept _ (fits rfl) (.inl (by decide)) (.inl (by decide)), htarget]
  · rw [State.bit, evLevel_kept (by decide) (by decide)]
    exact hgrace ht
  · rw [evLevel_kept (by decide) (by decide), hkept _ (fits rfl) (.inr (.inr (by decide))) (.inr (.inr (by decide))), hcauses]

/-- With a request standing, a cause only joins it. -/
theorem causeRaise_joins {bits : Nat} {timed : Bool} {s : State} (hreq : s.bit R.PWR_THROTTLE_request = true) :
    (causeRaise bits timed).run s = (put R.PWR_THROTTLE_causes (Nat.lor (s.get R.PWR_THROTTLE_causes) bits)).run s := by
  rw [causeRaise, Eff.run_look, hreq, Bool.not_true, Eff.run_seq, Eff.run_when_false]

theorem causeRaise_level (bits : Nat) (timed : Bool) (s : State) :
    ((causeRaise bits timed).run s).get R.PWR_THROTTLE_level = s.get R.PWR_THROTTLE_level := by
  refine (writes_causeRaise bits timed).get (fits rfl) (fun g hg => ?_) s
  rcases hg with (rfl | rfl | rfl | rfl | rfl | rfl | hg) | rfl
  · exact .inr (.inl (by decide))
  · exact .inr (.inr (by decide))
  · exact .inr (.inr (by decide))
  · exact .inr (.inr (by decide))
  · exact .inl (by decide)
  · exact .inl (by decide)
  · exact eventField_high (by decide) hg
  · exact .inl (by decide)

end Sys2Proof.Proofs

/-! The end of the grace time and the fast loop (R483, R490). -/

namespace Sys2Proof.Proofs
open Sys2Proof.Machine Sys2Proof.Claims


/-! P_book (R482) -/

/-- A register on which the sum of the cells' powers depends: those of the threads and of the retired cells. -/
def bookKey (k : Nat) : Prop :=
  (k < 0x8000000 ∧ (k / 0x10000 % 16 = 1 ∨ k / 0x10000 % 16 = 7)) ∨ k = R.SVC_RETIRED_CELL_LO ∨ k = R.SVC_RETIRED_CELL_HI

section
variable {s t : State} (hget : ∀ f, Fits f → bookKey f.key → t.get f = s.get f)
include hget

theorem cellRetired_congr {c : Nat} (hc : c < 128) : t.cellRetired c = s.cellRetired c := by
  have hbit : ∀ k i, k = R.SVC_RETIRED_CELL_LO ∨ k = R.SVC_RETIRED_CELL_HI → i < 64 → t.regBit k i = s.regBit k i := fun k i hk hi => by
    rw [regBit_eq_bit, regBit_eq_bit, State.bit, State.bit, hget ⟨k, i, 1⟩ ⟨Nat.one_pos, Nat.succ_le_of_lt hi⟩ (.inr hk)]
  rw [State.cellRetired, State.cellRetired]
  split
  · exact hbit _ _ (.inl rfl) (by omega)
  · exact hbit _ _ (.inr rfl) (by omega)

variable (hparts : t.passQ = s.passQ ∧ t.vecQ = s.vecQ ∧ t.qeQ = s.qeQ ∧ t.kvtQ = s.kvtQ)
include hparts

theorem cellGated_congr {c : Nat} (hc : c < 128) : t.cellGated c = s.cellGated c := by
  obtain ⟨hpass, hvec, hqe, hkvt⟩ := hparts
  have hthread : ∀ th < 16, t.get (R.SEQ_THR_CFG_active c th) = s.get (R.SEQ_THR_CFG_active c th) ∧
      t.get (R.SEQ_THR_STATUS_state c th) = s.get (R.SEQ_THR_STATUS_state c th) ∧
      t.get (R.PBX_THR_WAIT_sleeping c th) = s.get (R.PBX_THR_WAIT_sleeping c th) := fun th hth =>
    ⟨hget _ (fits rfl) (.inl (by simp only [R.SEQ_THR_CFG_active, R.SEQ_THR_CFG, rk]; omega)),
      hget _ (fits rfl) (.inl (by simp only [R.SEQ_THR_STATUS_state, R.SEQ_THR_STATUS, rk]; omega)),
      hget _ (fits rfl) (.inl (by simp only [R.PBX_THR_WAIT_sleeping, R.PBX_THR_WAIT, rk]; omega))⟩
  have hballast : t.get (R.PBX_CFG_ballast c) = s.get (R.PBX_CFG_ballast c) :=
    hget _ (fits rfl) (.inl (by simp only [R.PBX_CFG_ballast, R.PBX_CFG, rk]; omega))
  have hall : ∀ p q : Nat → Bool, (∀ th < 16, p th = q th) → (List.range 16).all p = (List.range 16).all q := fun p q h => by
    rw [Bool.eq_iff_iff, List.all_eq_true, List.all_eq_true]
    exact forall₂_congr fun th hth => by rw [h th (List.mem_range.1 hth)]
  unfold State.cellGated
  rw [hall _ _ fun th hth => by rw [State.bit, State.bit, (hthread th hth).1, (hthread th hth).2.1, (hthread th hth).2.2, ← State.bit, ← State.bit]]
  rw [State.passQAt, State.vecQAt, State.kvtQAt, hpass, hvec, hkvt, State.bit, hballast]
  simp only [State.qeQAt, hqe]
  rfl

theorem book100_congr : t.book100 = s.book100 := by
  rw [State.book100, State.book100, List.foldl_ext _ _ _ fun n c hc => by
    rw [cellRetired_congr hget (List.mem_range.1 hc), cellGated_congr hget hparts (List.mem_range.1 hc)]]

end

theorem govAbove_congr {s t : State} (hp : t.gov.pIn = s.gov.pIn) (hbook : t.book100 = s.book100) (w : Nat) : t.govAbove w = s.govAbove w := by
  rw [State.govAbove, State.govAbove, State.pSum, State.pSum, hp, hbook]

/-! Enforcement after the grace time (R490) -/

/-- While a cause stands, level 1 is enforced once the power is above the target. -/
theorem enforceFirst_standing {s : State} (h : s.gov.standing ≠ 0) : enforceFirst.run s =
    (Eff.when (s.gov.graceEnd.isNone && s.bit R.PWR_THROTTLE_request && s.get R.PWR_THROTTLE_level == 0)
      (Eff.when (s.govAbove (s.get R.PWR_LIMIT_target_w)) (levelPut 1))).run s := by
  rw [enforceFirst, Eff.run_look, if_neg h]

/-- The grace time is over. -/
def graceDone (e : Nat) : Eff := .all [
  reachTime e,
  .look fun s => .upd (.gov { s.gov with graceEnd := none }),
  putBit R.PWR_THROTTLE_grace false, put R.PWR_THROTTLE_grace_left_ms 0]

theorem graceExpiry_run {s : State} {e : Nat} (he : s.gov.graceEnd = some e) : graceExpiry.run s =
    (Eff.look fun u => Eff.when (u.gov.standing != 0) enforceFirst).run ((graceDone e).run s) := by
  rw [graceExpiry, Eff.run_look, he]
  dsimp only
  rw [graceDone]
  simp only [Eff.run_all_cons, Eff.run_all_nil]

theorem graceDone_leaves (e : Nat) (s : State) : let t := (graceDone e).run s
    t.now = max s.now e ∧ t.gov = { s.gov with graceEnd := none } ∧ t.get R.PWR_THROTTLE_grace = 0 ∧ t.get R.PWR_THROTTLE_grace_left_ms = 0 ∧
    (∀ f, Fits f → apart R.PWR_THROTTLE_grace f → apart R.PWR_THROTTLE_grace_left_ms f → t.get f = s.get f) ∧
    keepsRegs [R.PWR_THROTTLE] s t ∧ changesOnly [.now, .gov, .regs] s t := by
  have hrun : (graceDone e).run s = (put R.PWR_THROTTLE_grace_left_ms 0).run ((putBit R.PWR_THROTTLE_grace false).run
      ((Upd.gov { s.gov with graceEnd := none }).run ((Upd.now (max s.now e)).run s))) := by
    rw [graceDone]
    simp only [Eff.run_all_cons, Eff.run_all_nil, Eff.run_look, Eff.run_upd, reachTime]
    rfl
  have hfirst : changesOnly [.now, .gov] s ((Upd.gov { s.gov with graceEnd := none }).run ((Upd.now (max s.now e)).run s)) :=
    changesOnly_trans (changesOnly_mono (by simp) ((Eff.in_upd (u := .now (max s.now e)) (ps := [.now]) (by simp [Upd.part])).changes s))
      (changesOnly_mono (by simp) ((Eff.in_upd (u := .gov { s.gov with graceEnd := none }) (ps := [.gov]) (by simp [Upd.part])).changes _))
  have hnow : ((Upd.gov { s.gov with graceEnd := none }).run ((Upd.now (max s.now e)).run s)).now = max s.now e := rfl
  have hgov : ((Upd.gov { s.gov with graceEnd := none }).run ((Upd.now (max s.now e)).run s)).gov = { s.gov with graceEnd := none } := rfl
  dsimp only
  rw [hrun]
  generalize (Upd.gov { s.gov with graceEnd := none }).run _ = u at hfirst hnow hgov ⊢
  have hregs := get_of_regs (hfirst.same_regs (by simp))
  have hputs : changesOnly [.regs] u ((put R.PWR_THROTTLE_grace_left_ms 0).run ((putBit R.PWR_THROTTLE_grace false).run u)) :=
    changesOnly_trans ((put_in _ _ (by simp)).changes u) ((put_in _ _ (by simp)).changes _)
  refine ⟨(hputs.same_now (by simp)).trans hnow, (hputs.same_gov (by simp)).trans hgov, ?_, put_same_of_lt (by decide) (by decide) _,
    fun f hf hgrace hleft => ?_, fun k hk => ?_, changesOnly_trans (changesOnly_mono (by simp) hfirst) (changesOnly_mono (by simp) hputs)⟩
  · simp (disch := (
    try simp only [apart, farKey, R.PWR_THROTTLE_request, R.PWR_THROTTLE_level, R.PWR_THROTTLE_causes, R.PWR_THROTTLE_grace,
      R.PWR_THROTTLE_grace_left_ms, R.PWR_LIMIT_limit_w, R.PWR_LIMIT_target_w, R.PWR_COUNTS_requests, R.PWR_COUNTS_enforcements,
      R.PWR_COUNTS_escalations, R.PWR_COUNTS_peak_events, R.PWR_THROTTLE, R.PWR_LIMIT, R.PWR_COUNTS, rk]
    omega)) only [get_put_apart, putBit]
    exact put_same_of_lt (by decide) (by decide) _
  · rw [get_put_apart hleft hf.2, putBit, get_put_apart hgrace hf.2, hregs.1]
  · have hne : k ≠ R.PWR_THROTTLE := by simpa using hk
    rw [put_other hne, putBit, put_other hne, hregs.2]

theorem graceExpiry_ends {s : State} {e : Nat} (he : s.gov.graceEnd = some e) : let t := graceExpiry.run s
    t.now = max s.now e ∧ t.gov.graceEnd = none ∧ t.bit R.PWR_THROTTLE_grace = false ∧ t.get R.PWR_THROTTLE_grace_left_ms = 0 ∧
    (s.gov.standing ≠ 0 → s.get R.PWR_THROTTLE_level = 0 → s.bit R.PWR_THROTTLE_request = true →
      if s.govAbove (s.get R.PWR_LIMIT_target_w) then enforced 1 t else t.get R.PWR_THROTTLE_level = 0) ∧
    (s.gov.standing = 0 ∨ s.get R.PWR_THROTTLE_level ≠ 0 → keepsRegs [R.PWR_THROTTLE] s t ∧ changesOnly [.now, .gov, .regs] s t) := by
  rw [graceExpiry_run he, Eff.run_look]
  obtain ⟨hnow, hgov, hgrace, hleft, hkept, hframe, hchanges⟩ := graceDone_leaves e s
  have hlevel := hkept R.PWR_THROTTLE_level (fits rfl) (.inr (.inr (by decide))) (.inr (.inr (by decide)))
  have hrequest := hkept R.PWR_THROTTLE_request (fits rfl) (.inr (.inr (by decide))) (.inr (.inr (by decide)))
  have htarget := hkept R.PWR_LIMIT_target_w (fits rfl) (.inl (by decide)) (.inl (by decide))
  have hbook : ((graceDone e).run s).book100 = s.book100 := by
    refine book100_congr (fun f hf hk => hkept f hf (apart_of_key fun h => ?_) (apart_of_key fun h => ?_))
      ⟨hchanges.same_passQ (by simp), hchanges.same_vecQ (by simp), hchanges.same_qeQ (by simp), hchanges.same_kvtQ (by simp)⟩
    all_goals
      rw [h] at hk
      simp only [bookKey, R.PWR_THROTTLE_grace, R.PWR_THROTTLE_grace_left_ms, R.PWR_THROTTLE, R.SVC_RETIRED_CELL_LO, R.SVC_RETIRED_CELL_HI, rk] at hk
      omega
  generalize (graceDone e).run s = u at *
  have hnone : u.gov.graceEnd = none := by rw [hgov]
  have hbit : u.bit R.PWR_THROTTLE_grace = false := by
    rw [State.bit, hgrace]
    rfl
  have hstanding : u.gov.standing = s.gov.standing := by rw [hgov]
  rw [hstanding]
  by_cases h0 : s.gov.standing = 0
  · rw [h0, bne_self_eq_false, Eff.run_when_false]
    exact ⟨hnow, hnone, hbit, hleft, fun h => absurd rfl h, fun _ => ⟨hframe, hchanges⟩⟩
  rw [bne_iff_ne.2 h0, Eff.run_when_true, enforceFirst_standing (hstanding.symm ▸ h0), hnone, Option.isNone_none, Bool.true_and, hlevel,
    htarget, State.bit, hrequest, ← State.bit, govAbove_congr (by rw [hgov]) hbook]
  by_cases hacts : s.bit R.PWR_THROTTLE_request = true ∧ s.get R.PWR_THROTTLE_level = 0
  · obtain ⟨hreq, hzero⟩ := hacts
    rw [hreq, hzero, beq_self_eq_true, Bool.and_self, Eff.run_when_true]
    cases s.govAbove (s.get R.PWR_LIMIT_target_w)
    · rw [Eff.run_when_false]
      exact ⟨hnow, hnone, hbit, hleft, fun _ _ _ => by rw [if_neg Bool.false_ne_true]; exact hlevel.trans hzero, fun h => absurd h (by simp [h0])⟩
    · rw [Eff.run_when_true]
      obtain ⟨x, hx⟩ := levelPut_gov 1 u
      have hput := (writes_levelPut 1).changes u
      refine ⟨(hput.same_now (by simp)).trans hnow, by rw [hx]; exact hnone, ?_, ?_, fun _ _ _ => ?_, fun h => absurd h (by simp [h0])⟩
      · rw [State.bit, levelPut_get 1 (fits rfl) (.inr (.inl (by decide))) ⟨.inl (by decide), .inl (by decide)⟩ (by decide)]
        exact hbit
      · rw [levelPut_get 1 (fits rfl) (.inr (.inl (by decide))) ⟨.inl (by decide), .inl (by decide)⟩ (by decide), hleft]
      · rw [if_pos rfl]
        exact levelPut_enforced (by decide) (by rw [hlevel, hzero]; decide)
  · have hidle : (s.bit R.PWR_THROTTLE_request && s.get R.PWR_THROTTLE_level == 0) = false := by
      rw [Bool.eq_false_iff]
      simpa using hacts
    rw [hidle, Eff.run_when_false]
    exact ⟨hnow, hnone, hbit, hleft, fun _ hz hr => absurd ⟨hr, hz⟩ hacts, fun _ => ⟨hframe, hchanges⟩⟩

theorem graceExpiry_idle {s : State} (he : s.gov.graceEnd = none) : graceExpiry.run s = s := by
  rw [graceExpiry, Eff.run_look, he, Eff.run_skip]

/-! The fast loop (R483) -/

/-- The time since which a power has been above a limit. -/
theorem sinceWhen_eq (was : Option Nat) (now : Nat) (p : Prop) [Decidable p] :
    sinceWhen was now (decide p) = if p then some (was.getD now) else none := by
  rw [sinceWhen]
  by_cases h : p <;> simp [h]

theorem heldFor_since (was : Option Nat) (now ns : Nat) (p : Prop) [Decidable p] :
    heldFor (sinceWhen was now (decide p)) 0 now ns = true ↔ p ∧ lasts was now ns := by
  rw [sinceWhen_eq]
  by_cases h : p
  · rw [if_pos h, heldFor, Nat.max_zero, decide_eq_true_eq, lasts]
    exact ⟨fun h' => ⟨h, h'⟩, fun h' => h'.2⟩
  · rw [if_neg h, heldFor]
    exact ⟨nofun, fun h' => absurd h'.1 h⟩

/-- The set of standing causes with the peak's bit set as it is now. -/
theorem standing_peak {n : Nat} (hn : n < 16) (peak : Bool) :
    (if peak == n.testBit 2 then n else if peak then n + 4 else n - 4).testBit 2 = peak := by
  interval_cases n <;> cases peak <;> decide

/-- The governor after a sample of the input power. -/
def sampled (g : Governor) (now p : Nat) (peak : Bool) : Governor :=
  { g with
    over3000 := sinceWhen g.over3000 now (decide (3000 < p)), over2600 := sinceWhen g.over2600 now (decide (2600 < p)),
    standing := if peak == g.standing.testBit 2 then g.standing else if peak then g.standing + 4 else g.standing - 4 }

/-- The input power has been above a limit for its time. -/
def peaks (g : Governor) (now p : Nat) : Bool :=
  heldFor (sinceWhen g.over3000 now (decide (3000 < p))) 0 now 20000 || heldFor (sinceWhen g.over2600 now (decide (2600 < p))) 0 now 10000000

theorem peaks_iff (g : Governor) (now p : Nat) :
    peaks g now p = true ↔ 3000 < p ∧ lasts g.over3000 now 20000 ∨ 2600 < p ∧ lasts g.over2600 now 10000000 := by
  rw [peaks, Bool.or_eq_true, heldFor_since, heldFor_since]

/-- A sample has been taken at its time. -/
def sampleTaken (p : Nat) (s : State) : State :=
  (Upd.gov (sampled s.gov ((s.now / 10000 + 1) * 10000) p (peaks s.gov ((s.now / 10000 + 1) * 10000) p))).run
    ((Upd.now ((s.now / 10000 + 1) * 10000)).run s)

theorem fastLoop_run (p : Nat) (s : State) : (fastLoop p).run s =
    (Eff.when (peaks s.gov ((s.now / 10000 + 1) * 10000) p && !s.gov.standing.testBit 2)
      (.all [addSat R.PWR_COUNTS_peak_events 1, causeRaise 4 false, levelPut 3])).run (sampleTaken p s) := by
  have hnow : max s.now ((s.now / 10000 + 1) * 10000) = (s.now / 10000 + 1) * 10000 := by omega
  have hreach : (Eff.look fun s => reachTime ((s.now / 10000 + 1) * 10000)).run s = (Upd.now ((s.now / 10000 + 1) * 10000)).run s := by
    rw [Eff.run_look, reachTime, Eff.run_look, Eff.run_upd, hnow]
  rw [fastLoop, Eff.run_seq, hreach, Eff.run_look]
  simp only [Eff.run_all_cons, Eff.run_all_nil, Eff.run_upd, sampleTaken]
  rfl

theorem sampleTaken_changes (p : Nat) (s : State) : changesOnly [.now, .gov] s (sampleTaken p s) :=
  changesOnly_trans (changesOnly_mono (by simp) ((Eff.in_upd (ps := [.now]) (by simp [Upd.part])).changes s))
    (changesOnly_mono (by simp) ((Eff.in_upd (ps := [.gov]) (by simp [Upd.part])).changes _))

/-- A cause of a power peak joins the causes, or begins a request without grace time. -/
theorem causeRaise_peak (u : State) : let t := (causeRaise 4 false).run u
    t.bit R.PWR_THROTTLE_request = true ∧ t.get R.PWR_THROTTLE_causes / 4 % 2 = 1 ∧ t.gov = u.gov ∧
    (u.bit R.PWR_THROTTLE_request = false → t.get R.PWR_LIMIT_target_w = u.get R.PWR_LIMIT_limit_w) := by
  have hcause : Nat.lor (u.get R.PWR_THROTTLE_causes) 4 % 2 ^ 4 / 4 % 2 = 1 := by
    have hlt : u.get R.PWR_THROTTLE_causes < 2 ^ 4 := get_lt u R.PWR_THROTTLE_causes
    generalize u.get R.PWR_THROTTLE_causes = x at hlt
    interval_cases x <;> rfl
  cases hreq : u.bit R.PWR_THROTTLE_request
  · obtain ⟨hrequest, -, -, htarget, -, hgov, hcauses⟩ := causeRaise_begins (bits := 4) (timed := false) hreq
    exact ⟨hrequest, by rw [hcauses]; exact hcause, hgov, fun _ => htarget⟩
  · dsimp only
    rw [causeRaise_joins hreq]
    refine ⟨?_, ?_, ((put_in (ps := [.regs]) _ _ (by simp)).changes u).same_gov (by simp), nofun⟩
    · rw [State.bit, get_put_apart (.inr (.inr (by decide))) (by decide), ← State.bit, hreq]
    · rw [put_same _ _ _ (by decide)]
      exact hcause

/-- What a power peak leaves (R483). -/
theorem peak_leaves (u : State) :
    let t := (Eff.all [addSat R.PWR_COUNTS_peak_events 1, causeRaise 4 false, levelPut 3]).run u
    t.now = u.now ∧ (∃ x, t.gov = { u.gov with levelAt := x }) ∧
    t.get R.PWR_THROTTLE_level = 3 ∧ (u.get R.PWR_THROTTLE_level ≠ 3 → enforced 3 t) ∧
    t.bit R.PWR_THROTTLE_request = true ∧ t.get R.PWR_THROTTLE_causes / 4 % 2 = 1 ∧
    t.get R.PWR_COUNTS_peak_events = min (u.get R.PWR_COUNTS_peak_events + 1) (2 ^ R.PWR_COUNTS_peak_events.w - 1) ∧
    (u.bit R.PWR_THROTTLE_request = false → t.get R.PWR_LIMIT_target_w = u.get R.PWR_LIMIT_limit_w) := by
  dsimp only
  simp only [Eff.run_all_cons, Eff.run_all_nil]
  have hcount := addSat_same R.PWR_COUNTS_peak_events 1 u (by decide)
  have hother : ∀ f, Fits f → f.key ≠ R.PWR_COUNTS → ((addSat R.PWR_COUNTS_peak_events 1).run u).get f = u.get f := fun f hf hk =>
    get_addSat_apart (apart_of_key hk) hf.2 1 u
  have hfirst := (addSat_in (ps := [.regs]) R.PWR_COUNTS_peak_events 1 (by simp)).changes u
  have hlevel := hother R.PWR_THROTTLE_level (fits rfl) (by decide)
  have hrequest : ((addSat R.PWR_COUNTS_peak_events 1).run u).bit R.PWR_THROTTLE_request = u.bit R.PWR_THROTTLE_request := by
    rw [State.bit, State.bit, hother _ (fits rfl) (by decide)]
  have hlimit := hother R.PWR_LIMIT_limit_w (fits rfl) (by decide)
  generalize (addSat R.PWR_COUNTS_peak_events 1).run u = v at *
  obtain ⟨hreq, hcauses, hgov, htarget⟩ := causeRaise_peak v
  have hraise := (writes_causeRaise 4 false).changes v
  have hkept := causeRaise_level 4 false v
  have hevents : ((causeRaise 4 false).run v).get R.PWR_COUNTS_peak_events = v.get R.PWR_COUNTS_peak_events :=
    (writes_causeRaise 4 false).get (fits rfl) (fun g hg => by
      rcases hg with (rfl | rfl | rfl | rfl | rfl | rfl | hg) | rfl
      case inr => exact .inr (.inl (by decide))
      case inl.inr.inr.inr.inr.inr.inr => exact eventField_high (by decide) hg
      all_goals exact .inl (by decide)) v
  generalize (causeRaise 4 false).run v = w at *
  have hput := (writes_levelPut 3).changes w
  have hstays : ∀ f, Fits f → apart R.PWR_THROTTLE_level f → apart R.PWR_COUNTS_enforcements f ∧ apart R.PWR_COUNTS_escalations f →
      0x10000000 ≤ f.key → ((levelPut 3).run w).get f = w.get f := fun f hf hl hc hk => levelPut_get 3 hf hl hc hk w
  obtain ⟨x, hx⟩ := levelPut_gov 3 w
  refine ⟨?_, ⟨x, ?_⟩, levelPut_level (by decide) w, fun h => levelPut_enforced (by decide) ?_, ?_, ?_, ?_, fun h => ?_⟩
  · rw [hput.same_now (by simp), hraise.same_now (by simp [govParts]), hfirst.same_now (by simp)]
  · rw [hx, hgov, hfirst.same_gov (by simp)]
  · rwa [hkept, hlevel]
  · rw [State.bit, hstays _ (fits rfl) (.inr (.inr (by decide))) ⟨.inl (by decide), .inl (by decide)⟩ (by decide)]
    exact hreq
  · rw [hstays _ (fits rfl) (.inr (.inl (by decide))) ⟨.inl (by decide), .inl (by decide)⟩ (by decide), hcauses]
  · rw [hstays _ (fits rfl) (.inl (by decide)) ⟨.inr (.inl (by decide)), .inr (.inl (by decide))⟩ (by decide), hevents, hcount]
  · rw [hstays _ (fits rfl) (.inl (by decide)) ⟨.inl (by decide), .inl (by decide)⟩ (by decide), htarget (hrequest.trans h), hlimit]

theorem fastLoop_samples {p : BitVec 16} {s : State} (hstanding : s.gov.standing < 16) :
    let now := (s.now / 10000 + 1) * 10000
    let peak := 3000 < p.toNat ∧ lasts s.gov.over3000 now 20000 ∨ 2600 < p.toNat ∧ lasts s.gov.over2600 now 10000000
    let was := s.gov.standing.testBit 2
    let t := (fastLoop p.toNat).run s
    t.now = now ∧ t.gov.over3000 = (if 3000 < p.toNat then some (s.gov.over3000.getD now) else none) ∧
    t.gov.over2600 = (if 2600 < p.toNat then some (s.gov.over2600.getD now) else none) ∧
    (t.gov.standing.testBit 2 = true ↔ peak) ∧
    (peak → was = false → (t.get R.PWR_THROTTLE_level = 3 ∧ (s.get R.PWR_THROTTLE_level ≠ 3 → enforced 3 t)) ∧
      t.bit R.PWR_THROTTLE_request = true ∧ t.get R.PWR_THROTTLE_causes / 4 % 2 = 1 ∧
      t.get R.PWR_COUNTS_peak_events = min (s.get R.PWR_COUNTS_peak_events + 1) (2 ^ R.PWR_COUNTS_peak_events.w - 1) ∧
      (s.bit R.PWR_THROTTLE_request = false → t.get R.PWR_LIMIT_target_w = s.get R.PWR_LIMIT_limit_w)) ∧
    (¬peak ∨ was = true → changesOnly [.now, .gov] s t) := by
  dsimp only
  rw [fastLoop_run, ← peaks_iff]
  have hchanges := sampleTaken_changes p.toNat s
  have hnow : (sampleTaken p.toNat s).now = (s.now / 10000 + 1) * 10000 := rfl
  have hgov : (sampleTaken p.toNat s).gov =
      sampled s.gov ((s.now / 10000 + 1) * 10000) p.toNat (peaks s.gov ((s.now / 10000 + 1) * 10000) p.toNat) := rfl
  generalize (s.now / 10000 + 1) * 10000 = now at *
  generalize peaks s.gov now p.toNat = peak at *
  generalize sampleTaken p.toNat s = u at *
  have hget := (get_of_regs (hchanges.same_regs (by simp))).1
  have hover3000 : u.gov.over3000 = if 3000 < p.toNat then some (s.gov.over3000.getD now) else none := by
    rw [hgov]
    exact sinceWhen_eq ..
  have hover2600 : u.gov.over2600 = if 2600 < p.toNat then some (s.gov.over2600.getD now) else none := by
    rw [hgov]
    exact sinceWhen_eq ..
  have hpeak : u.gov.standing.testBit 2 = peak := by
    rw [hgov]
    exact standing_peak hstanding peak
  by_cases hnew : peak = true ∧ s.gov.standing.testBit 2 = false
  · obtain ⟨rfl, hwas⟩ := hnew
    rw [hwas, Bool.not_false, Bool.and_self, Eff.run_when_true]
    obtain ⟨hlater, ⟨x, hx⟩, hlevel, henforced, hrequest, hcauses, hcount, htarget⟩ := peak_leaves u
    refine ⟨hlater.trans hnow, by rw [hx]; exact hover3000, by rw [hx]; exact hover2600, by rw [hx]; exact iff_of_true hpeak rfl, fun _ _ =>
      ⟨⟨hlevel, fun h => henforced (by rwa [hget])⟩, hrequest, hcauses, by rw [hcount, hget], fun h => ?_⟩, fun h => absurd h (by simp)⟩
    rw [htarget (by rwa [State.bit, hget, ← State.bit]), hget]
  · have hidle : (peak && !s.gov.standing.testBit 2) = false := by
      rw [Bool.eq_false_iff]
      simpa using hnew
    rw [hidle, Eff.run_when_false]
    exact ⟨hnow, hover3000, hover2600, by rw [hpeak], fun hp hw => absurd ⟨hp, hw⟩ hnew, fun _ => hchanges⟩

theorem throttleTimers : Claims.ThrottleTimers := by
  intro p s hpow
  exact ⟨fun e he => yields_done (p := graceExpiry) rfl hpow (graceExpiry_ends he),
    fun he => yields_done (p := graceExpiry) rfl hpow (by rw [graceExpiry_idle he]; exact changesOnly_refl _ s),
    fun hstanding => yields_done (p := fastLoop p.toNat) rfl hpow (fastLoop_samples hstanding)⟩

end Sys2Proof.Proofs

/-! The causes and the level of a round without a shutdown (R482, R489–R492). -/

namespace Sys2Proof.Proofs
open Sys2Proof.Machine Sys2Proof.Claims

/-! What the steps up to the thresholds leave of the governor -/

theorem bandStep_gov (g : Readings) (s : State) : ∃ b, ((bandStep g).run s).gov = { s.gov with banded := b } := by
  rw [bandStep, Eff.run_look]
  cases !s.diesOff || (s.standby && s.bit R.PWR_STATE_pending)
  · exact ⟨s.gov.banded, by rw [Eff.run_when_false]⟩
  · refine ⟨true, ?_⟩
    have hbands : Writes [.msix, .mgmtQ, .out] bandField (Eff.each (List.range 128) (bandSet g)) :=
      writes_each fun _ hc => writes_bandSet g (List.mem_range.1 hc)
    rw [Eff.run_when_true, Eff.run_seq, Eff.run_look, Eff.run_upd, Upd.run_gov, (hbands.changes s).same_gov (by simp)]

/-- An effect that changes the governor's warnings at most. -/
def WarnsOnly (p : Eff) : Prop := ∀ s, ∃ w, (p.run s).gov = { s.gov with warned := w }

theorem WarnsOnly.cons {p : Eff} {rest : List Eff} (hp : WarnsOnly p) (hrest : WarnsOnly (.all rest)) : WarnsOnly (.all (p :: rest)) := fun s => by
  obtain ⟨w, hw⟩ := hp s
  obtain ⟨x, hx⟩ := hrest (p.run s)
  exact ⟨x, by rw [Eff.run_all_cons, hx, hw]⟩

theorem warnsOnly_of_same {p : Eff} (h : ∀ s, (p.run s).gov = s.gov) : WarnsOnly p := fun s => ⟨s.gov.warned, h s⟩

theorem warnStep_gov (bit : Nat) (t : Option (Int × Nat)) (trip clear : Int) : WarnsOnly (warnStep bit t trip clear) := fun s => by
  rw [warnStep, Eff.run_look]
  dsimp only
  rw [Eff.run_seq, Eff.run_upd]
  have hcount : ∀ b u, ((Eff.when b (addSat R.THM_COUNTS_warnings 1)).run u).gov = u.gov := fun b u =>
    ((Eff.in_when (addSat_in (ps := [.regs]) _ _ (by simp))).changes u).same_gov (by simp)
  exact ⟨_, hcount _ _⟩

theorem thresholdSet_gov (m d p : Option (Int × Nat)) : WarnsOnly (thresholdSet m d p) := by
  have hshow : WarnsOnly (maxShow m) := warnsOnly_of_same fun s => by
    cases m
    · rfl
    · exact ((Eff.in_seq (put_in _ _ (by simp)) (put_in _ _ (by simp))).changes (ps := [.regs]) s).same_gov (by simp)
  have hlast : WarnsOnly (.look fun s => .seq (putBit R.THM_STATUS_warning (s.gov.warned != 0)) (evLevel 0x712 (s.gov.warned != 0))) :=
    warnsOnly_of_same fun s => by
      rw [Eff.run_look, Eff.run_seq, (evLevel_changes ..).same_gov (by simp)]
      exact ((put_in (ps := [.regs]) _ _ (by simp)).changes s).same_gov (by simp)
  exact hshow.cons ((warnStep_gov _ _ _ _).cons ((warnStep_gov _ _ _ _).cons ((warnStep_gov _ _ _ _).cons (hlast.cons (warnsOnly_of_same fun _ => rfl)))))

section
variable (rs : List (BitVec 32)) (s : State)

theorem roundPublished_changes : changesOnly [.now, .gov, .regs, .mon, .msix, .mgmtQ, .out] s (roundPublished rs s) :=
  changesOnly_trans (changesOnly_mono (by simp) roundClock_changes) (changesOnly_mono (by simp [publishParts]) ((writes_publish ..).changes _))

theorem roundSuspected_changes : changesOnly (.now :: .gov :: .mon :: .regs :: suspectParts) s (roundSuspected rs s) :=
  changesOnly_trans (changesOnly_mono (by simp [suspectParts]) (roundPublished_changes rs s))
    (changesOnly_mono (by simp [suspectParts]) ((writes_suspectStep ..).changes _))

theorem roundWarned_changes : changesOnly (.now :: .gov :: .mon :: .regs :: suspectParts) s (roundWarned rs s) :=
  changesOnly_trans (roundSuspected_changes rs s) (changesOnly_trans (changesOnly_mono (by simp [suspectParts, govParts])
    ((writes_bandStep _).changes _)) (changesOnly_mono (by simp [suspectParts, govParts]) ((writes_thresholdSet ..).changes _)))

/-- The parts of the steps from publishing on leave the clock. -/
theorem roundWarned_now : (roundWarned rs s).now = max s.now (s.gov.roundAt + 1000000) := by
  rw [roundWarned, ((writes_thresholdSet ..).changes _).same_now (by simp [govParts]), roundBanded,
    ((writes_bandStep _).changes _).same_now (by simp [govParts]), roundSuspected,
    ((writes_suspectStep ..).changes _).same_now (by simp [suspectParts]), roundPublished,
    ((writes_publish ..).changes _).same_now (by simp [publishParts]), roundClock_now]

theorem roundSuspected_gov : (roundSuspected rs s).gov = { s.gov with roundAt := max s.now (s.gov.roundAt + 1000000) } := by
  rw [roundSuspected, ((writes_suspectStep ..).changes _).same_gov (by simp [suspectParts]), roundPublished,
    ((writes_publish ..).changes _).same_gov (by simp [publishParts]), roundClock_gov, roundClock_now]

theorem roundWarned_gov : ∃ b w, (roundWarned rs s).gov =
    { s.gov with roundAt := max s.now (s.gov.roundAt + 1000000), banded := b, warned := w } := by
  obtain ⟨w, hw⟩ := thresholdSet_gov (roundMax s rs) (hottest (gddrOver (s.reading rs))) (hottest (stageOver (s.reading rs))) (roundBanded rs s)
  obtain ⟨b, hb⟩ := bandStep_gov (s.reading rs) (roundSuspected rs s)
  exact ⟨b, w, by rw [roundWarned, hw, roundBanded, hb, roundSuspected_gov]⟩

theorem bookKey_late {k : Nat} (h : bookKey k) : ¬ earlyKey k ∧ k ≠ R.PWR_STATE := by
  simp only [bookKey, R.SVC_RETIRED_CELL_LO, R.SVC_RETIRED_CELL_HI, rk] at h
  refine ⟨fun he => ?_, fun he => ?_⟩
  · rcases he with he | rfl | rfl | rfl | rfl | rfl | he | ⟨c, hc, rfl | rfl⟩ | rfl | rfl | he
    case inl => omega
    case inr.inr.inr.inr.inr.inr.inl => omega
    all_goals
      simp only [eventKey, R.THM_COOL, R.PWR_INPUT, R.THM_COUNTS, R.SVC_REPLACE, R.SVC_REPLACE_LAST, R.VLT_BAND, R.EVC_ROUTE, rk] at *
      omega
  · simp only [he, R.PWR_STATE, rk] at h
    omega

theorem roundWarned_book : (roundWarned rs s).book100 = s.book100 := by
  have hchanges := roundWarned_changes rs s
  exact book100_congr (fun f hf hk => roundWarned_get hf (fun h => absurd h (bookKey_late hk).2) (bookKey_late hk).1)
    ⟨hchanges.same_passQ (by simp [suspectParts]), hchanges.same_vecQ (by simp [suspectParts]), hchanges.same_qeQ (by simp [suspectParts]),
      hchanges.same_kvtQ (by simp [suspectParts])⟩

end

/-- A reading reaches a limit. -/
def reaches (x : Option (Int × Nat)) (limit : Int) : Bool := match x with
  | some t => decide (limit ≤ t.1)
  | none => false

/-- A trip names the first of the three readings that reaches its limit. -/
theorem shutdownTrip_eq (m d p : Option (Int × Nat)) : shutdownTrip m d p =
    (if reaches m (112 * 16) then m.map fun t => (1, t)
    else if reaches d (105 * 16) then d.map fun t => (2, t)
    else if reaches p (125 * 16) then p.map fun t => (3, t) else none) := by
  rw [shutdownTrip]
  cases hm : reaches m (112 * 16)
  case true =>
    rw [List.find?_cons_of_pos (by exact hm)]
    cases m <;> rfl
  rw [List.find?_cons_of_neg (by exact fun h => Bool.false_ne_true (hm.symm.trans h))]
  cases hd : reaches d (105 * 16)
  case true =>
    rw [List.find?_cons_of_pos (by exact hd)]
    cases d <;> rfl
  rw [List.find?_cons_of_neg (by exact fun h => Bool.false_ne_true (hd.symm.trans h))]
  cases hp : reaches p (125 * 16)
  case true =>
    rw [List.find?_cons_of_pos (by exact hp)]
    cases p <;> rfl
  rw [List.find?_cons_of_neg (by exact fun h => Bool.false_ne_true (hp.symm.trans h))]
  rfl

theorem roundWarned_latched (rs : List (BitVec 32)) (s : State) :
    (roundWarned rs s).bit R.THM_SHUTDOWN_latched = s.bit R.THM_SHUTDOWN_latched := by
  rw [State.bit, State.bit, roundWarned_get (fits rfl) (fun h => absurd h (by decide))]
  simp only [earlyKey, eventKey, R.THM_SHUTDOWN_latched, R.THM_SHUTDOWN, R.THM_COOL, R.PWR_INPUT, R.THM_COUNTS, R.SVC_REPLACE, R.SVC_REPLACE_LAST,
    R.VLT_BAND, R.EVC_ROUTE, rk]
  omega

/-- Without a trip, or with the shutdown latched already, the round goes on. -/
theorem roundTripped_calm {rs : List (BitVec 32)} {s : State} (h : noTrip s rs) : roundTripped rs s = roundWarned rs s := by
  rw [roundTripped, tripStep, Eff.run_look]
  rcases h with h | ⟨hm, hd, hp⟩
  · rw [roundWarned_latched, h, Bool.not_true]
    split
    · exact Eff.run_when_false ..
    · exact Eff.run_skip _
  · have hbelow : ∀ (x : Option (Int × Nat)) (limit : Int), (∀ y, x = some y → y.1 < limit) → reaches x limit = false := fun x limit hx => by
      cases x
      · rfl
      · exact decide_eq_false (Int.not_le.2 (hx _ rfl))
    have hnone : shutdownTrip (roundMax s rs) (hottest (gddrOver (s.reading rs))) (hottest (stageOver (s.reading rs))) = none := by
      rw [shutdownTrip_eq, hbelow _ _ hm, hbelow _ _ hd, hbelow _ _ hp]
      rfl
    rw [hnone]
    exact Eff.run_skip _

end Sys2Proof.Proofs

/-! The judgement of a round: the causes that stand, and the times since which the module is hot or cool (R482, R489, R492). -/

namespace Sys2Proof.Proofs
open Sys2Proof.Machine Sys2Proof.Claims

/-! The throttle step in its parts -/

/-- The level's time counts. -/
def levelCount : Eff := .look fun s => match s.get R.PWR_THROTTLE_level with
  | 1 => addSat R.PWR_LEVEL_MS_level1 1
  | 2 => addSat R.PWR_LEVEL_MS_level2 1
  | 3 => addSat R.PWR_LEVEL_MS_level3 1
  | _ => .skip

/-- The flow is below 1 l/min. -/
def flowPoor (flow : Option Nat) : Bool := match flow with | some f => decide (f < 1000) | none => false

/-- The time since which the flow is low. -/
def flowNote (flow : Option Nat) : Eff := .look fun s => .upd (.gov { s.gov with flowLow := sinceWhen s.gov.flowLow s.now (flowPoor flow) })

/-- The module is hot, by temperature or power. -/
def hotNow (causes : Nat) (t : Option (Int × Nat)) (forced : Bool) : Bool :=
  (causes.testBit 0 && (forced || warnNext false t (102 * 16) (102 * 16))) || causes.testBit 1

/-- The module is cool, by temperature, power and flow. -/
def coolNow (causes : Nat) (t : Option (Int × Nat)) (forced low : Bool) (flow : Option Nat) : Bool :=
  (match t with | some (v, _) => decide (v ≤ 97 * 16) | none => false) && !forced && low &&
    (match flow with | some f => decide (2500 ≤ f) | none => false) && !causes.testBit 2

/-- The governor after the judgement of a state. -/
def judgedGov (s : State) (t : Option (Int × Nat)) (forced : Bool) (flow : Option Nat) : Governor :=
  { s.gov with
    standing := s.causesNow t forced flow,
    hotSince := sinceWhen s.gov.hotSince s.now (hotNow (s.causesNow t forced flow) t forced),
    coolSince := sinceWhen s.gov.coolSince s.now (coolNow (s.causesNow t forced flow) t forced s.govLow flow) }

/-- The judgement is shown. -/
def judgeShow (causes raised : Nat) : Eff := .seq (putBit R.THM_STATUS_temp_cause (causes.testBit 0))
  (Eff.when (raised.testBit 0) (addSat R.THM_COUNTS_temp_raises 1))

/-- What follows from the causes that are raised. -/
def throttleAct (raised : Nat) (forced : Bool) : Eff := .seq (Eff.when (raised != 0) (causeRaise raised (raised % 4 != 0 && !forced)))
  (if forced || raised.testBit 3 then levelPut 3 else levelStep)

/-- The rest of the grace time is shown. -/
def graceShow : Eff := .look fun s => match s.gov.graceEnd with
  | some e => put R.PWR_THROTTLE_grace_left_ms ((e - s.now + 999999) / 1000000)
  | none => .skip

/-- The state that a round judges. -/
def measured (flow pIn : Option Nat) (s : State) : State := (flowNote flow).run ((powerStep pIn).run (levelCount.run s))

/-- The causes that a judgement raises. -/
def raisedNow (u : State) (t : Option (Int × Nat)) (forced : Bool) (flow : Option Nat) : Nat :=
  u.causesNow t forced flow - Nat.land (u.causesNow t forced flow) u.gov.standing

/-- The state after the judgement. -/
def judgedOf (u : State) (t : Option (Int × Nat)) (forced : Bool) (flow : Option Nat) : State :=
  (judgeShow (u.causesNow t forced flow) (raisedNow u t forced flow)).run ((Upd.gov (judgedGov u t forced flow)).run u)

theorem throttleStep_run (t : Option (Int × Nat)) (forced : Bool) (flow pIn : Option Nat) (s : State) :
    (throttleStep t forced flow pIn).run s =
      graceShow.run ((throttleAct (raisedNow (measured flow pIn s) t forced flow) forced).run (judgedOf (measured flow pIn s) t forced flow)) := by
  have hparts : throttleStep t forced flow pIn = .all [levelCount, powerStep pIn, flowNote flow,
      .look fun u => .all [.upd (.gov (judgedGov u t forced flow)),
        putBit R.THM_STATUS_temp_cause ((u.causesNow t forced flow).testBit 0),
        Eff.when ((raisedNow u t forced flow).testBit 0) (addSat R.THM_COUNTS_temp_raises 1),
        Eff.when (raisedNow u t forced flow != 0) (causeRaise (raisedNow u t forced flow) (raisedNow u t forced flow % 4 != 0 && !forced)),
        (if forced || (raisedNow u t forced flow).testBit 3 then levelPut 3 else levelStep)], graceShow] := rfl
  rw [hparts, measured]
  simp only [Eff.run_all_cons, Eff.run_all_nil]
  rw [Eff.run_look]
  simp only [Eff.run_all_cons, Eff.run_all_nil, Eff.run_upd, judgedOf, judgeShow, throttleAct, Eff.run_seq]

/-! What the measurements and the judgement leave -/

/-- P_in of the last ten rounds. -/
def powersNext (pIn : Option Nat) (ps : List Nat) : List Nat := match pIn with
  | some p => (p :: ps).take 10
  | none => ps

theorem powerStep_gov (pIn : Option Nat) (s : State) : ((powerStep pIn).run s).gov = { s.gov with pIn := powersNext pIn s.gov.pIn } := by
  have hregs : ∀ e : Eff, e.In [.regs] → ∀ t : State, (e.run t).gov = t.gov := fun e he t => (he.changes t).same_gov (by simp)
  rw [powerStep, Eff.run_seq, Eff.run_look, Eff.run_look, hregs _ (Eff.in_seq (put_in _ _ (by simp)) (put_in _ _ (by simp)))]
  cases pIn with
  | none => exact congrArg State.gov (Eff.run_skip s)
  | some p => rw [Eff.run_seq, Eff.run_upd, Upd.run_gov, powersNext]

/-- A field of another register than those that a round's measurements show. -/
def plainField (f : Fld) : Prop :=
  f.key ≠ R.PWR_LEVEL_MS ∧ f.key ≠ R.PWR_INPUT ∧ f.key ≠ R.THM_COUNTS ∧ f.key ≠ R.THM_STATUS

theorem writes_levelCount : Writes [] (fun g => g.key = R.PWR_LEVEL_MS) levelCount := writes_look fun s => by
  split
  · exact writes_addSat (W := fun g => g.key = R.PWR_LEVEL_MS) rfl _
  · exact writes_addSat (W := fun g => g.key = R.PWR_LEVEL_MS) rfl _
  · exact writes_addSat (W := fun g => g.key = R.PWR_LEVEL_MS) rfl _
  · exact writes_skip

theorem writes_powers (pIn : Option Nat) : Writes [.gov] (fun g => g.key = R.PWR_INPUT) (powerStep pIn) := by
  have hput : ∀ (f : Fld) (x : Nat), f.key = R.PWR_INPUT → Writes [.gov] (fun g => g.key = R.PWR_INPUT) (put f x) := fun f x h => writes_put h x
  refine writes_seq (writes_look fun _ => ?_) (writes_look fun _ => writes_seq (hput _ _ rfl) (hput _ _ rfl))
  split
  · exact writes_seq (hput _ _ rfl) (writes_upd (by simp [Upd.part]) (by simp [Upd.part]))
  · exact writes_skip

section
variable (flow pIn : Option Nat) (s : State)

theorem measured_gov : (measured flow pIn s).gov =
    { s.gov with pIn := powersNext pIn s.gov.pIn, flowLow := sinceWhen s.gov.flowLow s.now (flowPoor flow) } := by
  have hcount := writes_levelCount.changes s
  rw [measured, flowNote, Eff.run_look, Eff.run_upd, Upd.run_gov, powerStep_gov, hcount.same_gov (by simp),
    ((writes_powers pIn).changes _).same_now (by simp), hcount.same_now (by simp)]

theorem measured_changes : changesOnly [.regs, .gov] s (measured flow pIn s) := by
  rw [measured, flowNote, Eff.run_look]
  exact changesOnly_trans (changesOnly_mono (by simp) (writes_levelCount.changes s)) (changesOnly_trans (changesOnly_mono (by simp)
    ((writes_powers pIn).changes _)) (changesOnly_mono (by simp) ((Eff.in_upd (ps := [.gov]) (by simp [Upd.part])).changes _)))

theorem measured_get {f : Fld} (hf : Fits f) (h : plainField f) : (measured flow pIn s).get f = s.get f := by
  obtain ⟨hms, hinput, -, -⟩ := h
  rw [measured, flowNote, Eff.run_look, Eff.run_upd, get_upd (by simp [Upd.part]),
    (writes_powers pIn).get hf fun g hg => apart_of_key fun he => hinput (he.trans hg),
    writes_levelCount.get hf fun g hg => apart_of_key fun he => hms (he.trans hg)]

end

section
variable (u : State) (t : Option (Int × Nat)) (forced : Bool) (flow : Option Nat)

theorem writes_judgeShow (causes raised : Nat) : Writes [] (fun g => g.key = R.THM_STATUS ∨ g.key = R.THM_COUNTS) (judgeShow causes raised) :=
  writes_seq (writes_putBit (W := fun g => g.key = R.THM_STATUS ∨ g.key = R.THM_COUNTS) (.inl rfl) _)
    (writes_when fun _ => writes_addSat (W := fun g => g.key = R.THM_STATUS ∨ g.key = R.THM_COUNTS) (.inr rfl) _)

theorem judgedOf_gov : (judgedOf u t forced flow).gov = judgedGov u t forced flow := by
  rw [judgedOf, ((writes_judgeShow ..).changes _).same_gov (by simp), Upd.run_gov]

theorem judgedOf_changes : changesOnly [.regs, .gov] u (judgedOf u t forced flow) :=
  changesOnly_trans (changesOnly_mono (by simp) ((Eff.in_upd (ps := [.gov]) (u := .gov (judgedGov u t forced flow)) (by simp [Upd.part])).changes u))
    (changesOnly_mono (by simp) ((writes_judgeShow ..).changes _))

theorem judgedOf_get {f : Fld} (hf : Fits f) (h : plainField f) : (judgedOf u t forced flow).get f = u.get f := by
  obtain ⟨-, -, hcounts, hstatus⟩ := h
  rw [judgedOf, (writes_judgeShow ..).get hf fun g hg => apart_of_key fun he => hg.elim (fun hk => hstatus (he.trans hk)) fun hk =>
    hcounts (he.trans hk), get_upd (by simp [Upd.part])]

end

theorem bookKey_plain {f : Fld} (h : bookKey f.key) : plainField f := by
  simp only [bookKey, R.SVC_RETIRED_CELL_LO, R.SVC_RETIRED_CELL_HI, rk] at h
  simp only [plainField, R.PWR_LEVEL_MS, R.PWR_INPUT, R.THM_COUNTS, R.THM_STATUS, rk]
  omega

end Sys2Proof.Proofs

/-! What a round without a shutdown has judged (R482, R489, R492). -/

namespace Sys2Proof.Proofs
open Sys2Proof.Machine Sys2Proof.Claims

/-- The four causes as their bits. -/
def causeSum (temp power peak flow : Bool) : Nat :=
  (if temp then 1 else 0) + (if power then 2 else 0) + (if peak then 4 else 0) + (if flow then 8 else 0)

theorem causeSum_bits (a b c d : Bool) :
    (causeSum a b c d).testBit 0 = a ∧ (causeSum a b c d).testBit 1 = b ∧ (causeSum a b c d).testBit 2 = c ∧ (causeSum a b c d).testBit 3 = d ∧
    ((causeSum a b c d = 0) ↔ (a || b || c || d) = false) := by
  revert a b c d
  decide

/-- The causes that a judgement raises are those that did not stand before it. -/
theorem raised_bits {n : Nat} (hn : n < 16) (a b c d : Bool) : let r := causeSum a b c d - Nat.land (causeSum a b c d) n
    r.testBit 0 = (a && !n.testBit 0) ∧ r.testBit 3 = (d && !n.testBit 3) ∧
    (r % 4 != 0) = (a && !n.testBit 0 || b && !n.testBit 1) ∧
    (r != 0) = (a && !n.testBit 0 || b && !n.testBit 1 || c && !n.testBit 2 || d && !n.testBit 3) := by
  have hall : ∀ n : Fin 16, ∀ a b c d : Bool, let r := causeSum a b c d - Nat.land (causeSum a b c d) n.val
      r.testBit 0 = (a && !n.val.testBit 0) ∧ r.testBit 3 = (d && !n.val.testBit 3) ∧
      (r % 4 != 0) = (a && !n.val.testBit 0 || b && !n.val.testBit 1) ∧
      (r != 0) = (a && !n.val.testBit 0 || b && !n.val.testBit 1 || c && !n.val.testBit 2 || d && !n.val.testBit 3) := by
    decide
  exact hall ⟨n, hn⟩ a b c d

theorem warnNext_iff (was : Bool) (t : Option (Int × Nat)) {trip clear : Int} (_ : clear ≤ trip) :
    warnNext was t trip clear = true ↔ (∃ x, t = some x ∧ trip ≤ x.1) ∨ (was = true ∧ ∀ x, t = some x → clear < x.1) := by
  unfold warnNext
  rcases t with _ | ⟨v, ch⟩
  · exact ⟨fun hw => .inr ⟨hw, fun _ hx => absurd hx (by simp)⟩, fun hw => hw.elim (fun ⟨_, hx, _⟩ => absurd hx (by simp)) And.left⟩
  · dsimp only
    have hone : (∃ x, some (v, ch) = some x ∧ trip ≤ x.1) ↔ trip ≤ v :=
      ⟨fun ⟨_, hx, hle⟩ => by rwa [← Option.some.inj hx] at hle, fun hle => ⟨_, rfl, hle⟩⟩
    have hevery : (∀ x, some (v, ch) = some x → clear < x.1) ↔ clear < v :=
      ⟨fun hx => hx _ rfl, fun hlt _ hx => by rwa [← Option.some.inj hx]⟩
    rw [hone, hevery]
    split
    · simp [*]
    · split
      · simp only [Bool.false_eq_true, false_iff]
        omega
      · have hlt : clear < v := by omega
        simp [*]

theorem heldFor_iff (was : Option Nat) (start now ns : Nat) (b : Bool) :
    heldFor (sinceWhen was now b) start now ns = true ↔ b = true ∧ max (was.getD now) start + ns ≤ now := by
  rw [sinceWhen]
  cases b
  · exact ⟨nofun, fun h => absurd h.1 Bool.false_ne_true⟩
  · rw [if_pos rfl, heldFor, decide_eq_true_eq]
    exact ⟨fun h => ⟨rfl, h⟩, And.right⟩

/-! The judged state of a round -/

section
variable (rs : List (BitVec 32)) (s : State)

/-- The time of a round. -/
def roundTime : Nat := max s.now (s.gov.roundAt + 1000000)

def tempNow : Bool :=
  noKind (s.reading rs) s.diesOff || warnNext (s.gov.standing.testBit 0) (roundMax s rs) (102 * 16) (97 * 16)

/-- The power exceeds `w`. -/
def overNow (w : Nat) : Bool := decide (w * (powers s rs).length < (powers s rs).sum) || decide (100 * w < s.book100)

def flowNow : Bool :=
  (roundFlow s rs).isNone || heldFor (sinceWhen s.gov.flowLow (roundTime s) (flowPoor (roundFlow s rs))) 0 (roundTime s) 100000000

/-- The power is at most 90 % of the limit. -/
def lowNow : Bool :=
  decide (10 * (powers s rs).sum ≤ 9 * s.get R.PWR_LIMIT_limit_w * (powers s rs).length) && decide (s.book100 ≤ 90 * s.get R.PWR_LIMIT_limit_w)

/-- The causes of the round. -/
def roundCauses : Nat := causeSum (tempNow rs s) (overNow rs s (s.get R.PWR_LIMIT_limit_w)) (s.gov.standing.testBit 2) (flowNow rs s)

/-- The causes that the round raises. -/
def roundRaised : Nat := roundCauses rs s - Nat.land (roundCauses rs s) s.gov.standing

/-- What the round measures, and its judgement. -/
def roundMeasured : State := measured (roundFlow s rs) (roundPower s rs) (roundWarned rs s)

def roundJudged : State := judgedOf (roundMeasured rs s) (roundMax s rs) (noKind (s.reading rs) s.diesOff) (roundFlow s rs)

end

section
variable {rs : List (BitVec 32)} {s : State}

theorem tempNow_iff : tempNow rs s = true ↔ noKind (s.reading rs) s.diesOff = true ∨ (∃ x, roundMax s rs = some x ∧ 102 * 16 ≤ x.1) ∨
    (s.gov.standing.testBit 0 = true ∧ ∀ x, roundMax s rs = some x → 97 * 16 < x.1) := by
  rw [tempNow, Bool.or_eq_true, warnNext_iff _ _ (by decide)]

theorem overNow_iff (w : Nat) : overNow rs s w = true ↔ powerOver s rs w := by
  rw [overNow, Bool.or_eq_true, decide_eq_true_eq, decide_eq_true_eq, powerOver]

theorem flowNow_iff : flowNow rs s = true ↔
    roundFlow s rs = none ∨ ∃ f, roundFlow s rs = some f ∧ f < 1000 ∧ lasts s.gov.flowLow (roundTime s) 100000000 := by
  rw [flowNow, Bool.or_eq_true, Option.isNone_iff_eq_none, heldFor_iff]
  cases hflow : roundFlow s rs with
  | none => simp
  | some f => simp [flowPoor, lasts]

theorem powersNext_round : powersNext (roundPower s rs) s.gov.pIn = powers s rs := by
  unfold powers powersNext
  cases roundPower s rs <;> rfl

/-- What the judged state of a round holds. -/
structure Judged (rs : List (BitVec 32)) (s X : State) : Prop where
  now      : X.now = roundTime s
  pIn      : X.gov.pIn = powers s rs
  standing : X.gov.standing = roundCauses rs s
  hotSince : X.gov.hotSince = sinceWhen s.gov.hotSince (roundTime s)
    (hotNow (roundCauses rs s) (roundMax s rs) (noKind (s.reading rs) s.diesOff))
  coolSince : X.gov.coolSince = sinceWhen s.gov.coolSince (roundTime s)
    (coolNow (roundCauses rs s) (roundMax s rs) (noKind (s.reading rs) s.diesOff) (lowNow rs s) (roundFlow s rs))
  levelAt  : X.gov.levelAt = s.gov.levelAt
  graceEnd : X.gov.graceEnd = s.gov.graceEnd
  book     : X.book100 = s.book100
  get      : ∀ {f}, Fits f → f.key = R.PWR_THROTTLE ∨ f.key = R.PWR_LIMIT ∨ f.key = R.PWR_COUNTS ∨ f.key = R.THM_GRACE → X.get f = s.get f

/-- The governor that a round has measured. -/
theorem roundMeasured_gov : ∃ b w, (roundMeasured rs s).gov =
    { s.gov with
      roundAt := roundTime s, banded := b, warned := w, pIn := powers s rs,
      flowLow := sinceWhen s.gov.flowLow (roundTime s) (flowPoor (roundFlow s rs)) } := by
  obtain ⟨b, w, hgov⟩ := roundWarned_gov rs s
  refine ⟨b, w, ?_⟩
  rw [roundMeasured, measured_gov, roundWarned_now, hgov, powersNext_round]
  rfl

theorem roundMeasured_now : (roundMeasured rs s).now = roundTime s := by
  rw [roundMeasured, (measured_changes ..).same_now (by simp), roundWarned_now]
  rfl

theorem roundMeasured_book : (roundMeasured rs s).book100 = s.book100 := by
  have hchanges := measured_changes (roundFlow s rs) (roundPower s rs) (roundWarned rs s)
  rw [roundMeasured, book100_congr (fun f hf hk => measured_get _ _ _ hf (bookKey_plain hk))
    ⟨hchanges.same_passQ (by simp), hchanges.same_vecQ (by simp), hchanges.same_qeQ (by simp), hchanges.same_kvtQ (by simp)⟩, roundWarned_book]

theorem roundMeasured_get {f : Fld} (hf : Fits f) (h : f.key = R.PWR_THROTTLE ∨ f.key = R.PWR_LIMIT ∨ f.key = R.PWR_COUNTS ∨ f.key = R.THM_GRACE) :
    (roundMeasured rs s).get f = s.get f := by
  simp only [R.PWR_THROTTLE, R.PWR_LIMIT, R.PWR_COUNTS, R.THM_GRACE, rk] at h
  rw [roundMeasured, measured_get _ _ _ hf (by
      simp only [plainField, R.PWR_LEVEL_MS, R.PWR_INPUT, R.THM_COUNTS, R.THM_STATUS, rk]
      omega),
    roundWarned_get hf (fun hk => by
      simp only [R.PWR_STATE, rk] at hk
      omega)]
  rintro (he | he | he | he | he | he | he | ⟨c, hc, he | he⟩ | he | he | he)
  case inl => omega
  case inr.inr.inr.inr.inr.inr.inl => omega
  all_goals
    simp only [eventKey, R.THM_COOL, R.PWR_INPUT, R.THM_COUNTS, R.SVC_REPLACE, R.SVC_REPLACE_LAST, R.VLT_BAND, R.EVC_ROUTE, rk] at he
    omega

theorem roundMeasured_above (w : Nat) : (roundMeasured rs s).govAbove w = overNow rs s w := by
  obtain ⟨b, x, hgov⟩ := roundMeasured_gov (rs := rs) (s := s)
  rw [State.govAbove, State.pSum, roundMeasured_book, hgov, ← List.sum_eq_foldl]
  rfl

theorem roundMeasured_low : (roundMeasured rs s).govLow = lowNow rs s := by
  obtain ⟨b, x, hgov⟩ := roundMeasured_gov (rs := rs) (s := s)
  rw [State.govLow, State.pSum, roundMeasured_book, roundMeasured_get (fits rfl) (.inr (.inl rfl)), hgov, ← List.sum_eq_foldl]
  rfl

theorem roundMeasured_causes :
    (roundMeasured rs s).causesNow (roundMax s rs) (noKind (s.reading rs) s.diesOff) (roundFlow s rs) = roundCauses rs s := by
  obtain ⟨b, x, hgov⟩ := roundMeasured_gov (rs := rs) (s := s)
  rw [State.causesNow, roundMeasured_above, roundMeasured_get (fits rfl) (.inr (.inl rfl)), roundMeasured_now, hgov]
  rfl

theorem roundMeasured_raised :
    raisedNow (roundMeasured rs s) (roundMax s rs) (noKind (s.reading rs) s.diesOff) (roundFlow s rs) = roundRaised rs s := by
  obtain ⟨b, x, hgov⟩ := roundMeasured_gov (rs := rs) (s := s)
  rw [raisedNow, roundMeasured_causes, hgov]
  rfl

theorem roundJudged_judged (rs : List (BitVec 32)) (s : State) : Judged rs s (roundJudged rs s) := by
  obtain ⟨b, x, hmeasured⟩ := roundMeasured_gov (rs := rs) (s := s)
  have hgov := judgedOf_gov (roundMeasured rs s) (roundMax s rs) (noKind (s.reading rs) s.diesOff) (roundFlow s rs)
  have hchanges := judgedOf_changes (roundMeasured rs s) (roundMax s rs) (noKind (s.reading rs) s.diesOff) (roundFlow s rs)
  rw [judgedGov, roundMeasured_causes, roundMeasured_low, roundMeasured_now, hmeasured] at hgov
  refine ⟨?_, ?_, ?_, ?_, ?_, ?_, ?_, ?_, fun hf hk => ?_⟩
  · rw [roundJudged, hchanges.same_now (by simp), roundMeasured_now]
  · rw [roundJudged, hgov]
  · rw [roundJudged, hgov]
  · rw [roundJudged, hgov]
  · rw [roundJudged, hgov]
  · rw [roundJudged, hgov]
  · rw [roundJudged, hgov]
  · rw [roundJudged, book100_congr (fun f hf hk => judgedOf_get _ _ _ _ hf (bookKey_plain hk))
      ⟨hchanges.same_passQ (by simp), hchanges.same_vecQ (by simp), hchanges.same_qeQ (by simp), hchanges.same_kvtQ (by simp)⟩,
      roundMeasured_book]
  · rw [roundJudged, judgedOf_get _ _ _ _ hf, roundMeasured_get hf hk]
    simp only [R.PWR_THROTTLE, R.PWR_LIMIT, R.PWR_COUNTS, R.THM_GRACE, rk] at hk
    simp only [plainField, R.PWR_LEVEL_MS, R.PWR_INPUT, R.THM_COUNTS, R.THM_STATUS, rk]
    omega

/-- A round without a shutdown acts on its judgement. -/
theorem roundThrottled_calm (h : noTrip s rs) : roundThrottled rs s =
    graceShow.run ((throttleAct (roundRaised rs s) (noKind (s.reading rs) s.diesOff)).run (roundJudged rs s)) := by
  rw [roundThrottled, roundTripped_calm h, throttleStep_run, roundJudged, ← roundMeasured_raised, roundMeasured]

end

end Sys2Proof.Proofs

/-! What a round without a shutdown does on its judgement (R489–R492). -/

namespace Sys2Proof.Proofs
open Sys2Proof.Machine Sys2Proof.Claims

/-! The steps of a level -/

section
variable {s : State}

theorem levelStep_zero (h : s.get R.PWR_THROTTLE_level = 0) : levelStep.run s = enforceFirst.run s := by
  rw [levelStep, Eff.run_look]
  dsimp only
  rw [if_pos h]

theorem levelStep_rises (hpos : s.get R.PWR_THROTTLE_level ≠ 0) (hlt : s.get R.PWR_THROTTLE_level < 3)
    (hhot : heldFor s.gov.hotSince s.gov.levelAt s.now 10000000 = true) :
    levelStep.run s = (levelPut (s.get R.PWR_THROTTLE_level + 1)).run s := by
  rw [levelStep, Eff.run_look]
  dsimp only
  rw [if_neg hpos, if_pos (by rw [hhot, Bool.and_true]; exact decide_eq_true hlt)]

theorem levelStep_falls (hpos : s.get R.PWR_THROTTLE_level ≠ 0)
    (hhot : ¬(s.get R.PWR_THROTTLE_level < 3 ∧ heldFor s.gov.hotSince s.gov.levelAt s.now 10000000 = true))
    (hcool : heldFor s.gov.coolSince s.gov.levelAt s.now 50000000 = true) :
    levelStep.run s = (Eff.when (s.get R.PWR_THROTTLE_level == 1) requestEnd).run ((levelPut (s.get R.PWR_THROTTLE_level - 1)).run s) := by
  rw [levelStep, Eff.run_look]
  dsimp only
  rw [if_neg hpos, if_neg (by simpa using hhot), hcool, Eff.run_when_true, Eff.run_seq]

theorem levelStep_stays (hpos : s.get R.PWR_THROTTLE_level ≠ 0)
    (hhot : ¬(s.get R.PWR_THROTTLE_level < 3 ∧ heldFor s.gov.hotSince s.gov.levelAt s.now 10000000 = true))
    (hcool : heldFor s.gov.coolSince s.gov.levelAt s.now 50000000 = false) : levelStep.run s = s := by
  rw [levelStep, Eff.run_look]
  dsimp only
  rw [if_neg hpos, if_neg (by simpa using hhot), hcool, Eff.run_when_false]

/-- While a cause stands and the module is not cool, the round's step of the level enforces some level. -/
theorem levelStep_puts (hstanding : s.gov.standing ≠ 0) (hcool : heldFor s.gov.coolSince s.gov.levelAt s.now 50000000 = false) :
    ∃ k < 4, levelStep.run s = (levelPut k).run s := by
  have hlt : s.get R.PWR_THROTTLE_level < 2 ^ 2 := get_lt s R.PWR_THROTTLE_level
  have hsame : ∃ k < 4, s = (levelPut k).run s := ⟨_, hlt, (levelPut_same rfl).symm⟩
  by_cases hpos : s.get R.PWR_THROTTLE_level = 0
  · rw [levelStep_zero hpos, enforceFirst_standing hstanding]
    cases s.gov.graceEnd.isNone && s.bit R.PWR_THROTTLE_request && s.get R.PWR_THROTTLE_level == 0
    · rwa [Eff.run_when_false]
    · rw [Eff.run_when_true]
      cases s.govAbove (s.get R.PWR_LIMIT_target_w)
      · rwa [Eff.run_when_false]
      · exact ⟨1, by decide, Eff.run_when_true ..⟩
  · by_cases hhot : s.get R.PWR_THROTTLE_level < 3 ∧ heldFor s.gov.hotSince s.gov.levelAt s.now 10000000 = true
    · exact ⟨_, by omega, levelStep_rises hpos hhot.1 hhot.2⟩
    · rwa [levelStep_stays hpos hhot hcool]

end

/-! Hot and cool -/

section
variable {rs : List (BitVec 32)} {s : State}

theorem hotNow_iff (hforced : noKind (s.reading rs) s.diesOff = false) :
    hotNow (roundCauses rs s) (roundMax s rs) (noKind (s.reading rs) s.diesOff) = true ↔
      (∃ x, roundMax s rs = some x ∧ 102 * 16 ≤ x.1) ∨ powerOver s rs (s.get R.PWR_LIMIT_limit_w) := by
  obtain ⟨htemp, hpower, -⟩ := causeSum_bits (tempNow rs s) (overNow rs s (s.get R.PWR_LIMIT_limit_w)) (s.gov.standing.testBit 2) (flowNow rs s)
  rw [hotNow, roundCauses, htemp, hpower, hforced, Bool.false_or, Bool.or_eq_true, Bool.and_eq_true, warnNext_iff _ _ (le_refl _), overNow_iff,
    tempNow_iff]
  constructor
  · rintro (⟨-, hhot | hwas⟩ | hover)
    · exact .inl hhot
    · exact absurd hwas.1 Bool.false_ne_true
    · exact .inr hover
  · rintro (hhot | hover)
    · exact .inl ⟨.inr (.inl hhot), .inl hhot⟩
    · exact .inr hover

theorem coolNow_iff :
    coolNow (roundCauses rs s) (roundMax s rs) (noKind (s.reading rs) s.diesOff) (lowNow rs s) (roundFlow s rs) = true ↔
      (∃ x, roundMax s rs = some x ∧ x.1 ≤ 97 * 16) ∧ noKind (s.reading rs) s.diesOff = false ∧
      (10 * (powers s rs).sum ≤ 9 * s.get R.PWR_LIMIT_limit_w * (powers s rs).length ∧ s.book100 ≤ 90 * s.get R.PWR_LIMIT_limit_w) ∧
      (∃ f, roundFlow s rs = some f ∧ 2500 ≤ f) ∧ s.gov.standing.testBit 2 = false := by
  obtain ⟨-, -, hpeak, -⟩ := causeSum_bits (tempNow rs s) (overNow rs s (s.get R.PWR_LIMIT_limit_w)) (s.gov.standing.testBit 2) (flowNow rs s)
  unfold coolNow
  rw [roundCauses, hpeak, lowNow]
  simp only [Bool.and_eq_true, Bool.not_eq_true', decide_eq_true_eq]
  rcases roundMax s rs with _ | x <;> rcases roundFlow s rs with _ | f <;> simp [and_assoc]

/-- A cool module is not hot. -/
theorem cool_not_hot
    (h : coolNow (roundCauses rs s) (roundMax s rs) (noKind (s.reading rs) s.diesOff) (lowNow rs s) (roundFlow s rs) = true) :
    noKind (s.reading rs) s.diesOff = false ∧ (∀ x, roundMax s rs = some x → x.1 ≤ 97 * 16) ∧
    ¬powerOver s rs (s.get R.PWR_LIMIT_limit_w) := by
  obtain ⟨⟨x, hx, hle⟩, hforced, ⟨hsum, hbook⟩, -, -⟩ := coolNow_iff.1 h
  refine ⟨hforced, fun y hy => ?_, ?_⟩
  · rw [hx] at hy
    rwa [← Option.some.inj hy]
  · rintro (hover | hover)
    · have hscale : 10 * (s.get R.PWR_LIMIT_limit_w * (powers s rs).length) < 10 * (powers s rs).sum := by omega
      have hnine : 9 * s.get R.PWR_LIMIT_limit_w * (powers s rs).length ≤ 10 * (s.get R.PWR_LIMIT_limit_w * (powers s rs).length) := by
        rw [Nat.mul_assoc]
        omega
      omega
    · omega

/-! What follows the throttle -/

/-- The state after the actions of a round without a shutdown. -/
def roundActed (rs : List (BitVec 32)) (s : State) : State :=
  (throttleAct (roundRaised rs s) (noKind (s.reading rs) s.diesOff)).run (roundJudged rs s)

theorem writes_graceShow : Writes [] (fun g => g = R.PWR_THROTTLE_grace_left_ms) graceShow := writes_look fun s => by
  split
  · exact writes_put (W := fun g => g = R.PWR_THROTTLE_grace_left_ms) rfl _
  · exact writes_skip

/-- A field that neither the soundings nor what follows them write. -/
theorem round_get (hon : s.power = .on) (hcalm : noTrip s rs) {f : Fld} (hf : Fits f) (hstate : f.key ≠ R.PWR_STATE) (h : ¬ lateKey f.key)
    (hleft : apart R.PWR_THROTTLE_grace_left_ms f) : ((housekeeping rs).run s).get f = (roundActed rs s).get f := by
  rw [housekeeping_get hon hf (fun he => absurd he hstate) h, roundThrottled_calm hcalm,
    writes_graceShow.get hf (fun g hg => by rw [hg]; exact hleft), roundActed]

/-- The registers of the throttle are none that the soundings or what follows them write. -/
theorem throttle_late {k : Nat} (h : k = R.PWR_THROTTLE ∨ k = R.PWR_LIMIT ∨ k = R.PWR_COUNTS ∨ k = R.EVC_ROUTE 0x711 ∨ k < 0x10000000) :
    ¬ lateKey k ∧ k ≠ R.PWR_STATE := by
  simp only [R.PWR_THROTTLE, R.PWR_LIMIT, R.PWR_COUNTS, R.EVC_ROUTE, rk] at h
  refine ⟨?_, fun he => ?_⟩
  · simp only [lateKey, eventKey, R.THM_SOUND, R.CHT_STATUS, R.CHT_STAGED_ID, R.THM_COUNTS, R.THM_COOL, R.THM_STATUS, R.EVC_ROUTE, rk]
    omega
  · simp only [R.PWR_STATE, rk] at he
    omega

/-- What the statements about a round without a shutdown speak of. -/
structure SameThrottle (t u : State) : Prop where
  get : ∀ {f}, Fits f → f.key = R.PWR_THROTTLE ∨ f.key = R.PWR_LIMIT ∨ f.key = R.PWR_COUNTS ∨ f.key = R.EVC_ROUTE 0x711 ∨ f.key < 0x10000000 →
    apart R.PWR_THROTTLE_grace_left_ms f → t.get f = u.get f
  graceEnd : t.gov.graceEnd = u.gov.graceEnd

/-- The coolant's readings join the log. -/
def coolNote (g : Readings) (flow pIn : Option Nat) : Eff := .look fun s =>
  match flow, pIn with
  | some f, some p => Eff.when (!(g 208 0).missing && !(g 208 1).missing && f != 0 && s.get R.THM_COOL_CFG_cp != 0) (
      .upd (.gov { s.gov with coolLog :=
        (((g 208 1).v - (g 208 0).v, (dtExpected p f (s.get R.THM_COOL_CFG_cp) : Int)) :: s.gov.coolLog).take 1000 }))
  | _, _ => .skip

/-- The cooling checks show their figures and their verdict. -/
def coolShow (resid : Int) (on : Bool) (s : State) : Eff := .all [
  put R.THM_COOL_dt_meas (meanInt (s.gov.coolLog.map Prod.fst) % 2 ^ 16).toNat,
  put R.THM_COOL_dt_exp (meanInt (s.gov.coolLog.map Prod.snd) % 2 ^ 16).toNat,
  put R.THM_COOL_resid (resid % 2 ^ 16).toNat,
  putBit R.THM_STATUS_cooling_degraded on,
  evLevel 0x714 on]

/-- A condition of R497 holds in a round. -/
def coolFails (g : Readings) (flow : Option Nat) (s : State) : Bool := s.coolBad (if (g 208 0).missing then none else some (g 208 0).v) flow

/-- The time since which none does. -/
def goodSince (g : Readings) (flow : Option Nat) (s : State) : Option Nat := sinceWhen s.gov.coolGood s.now (!coolFails g flow s)

/-- The cooling checks judge that the coolant is degraded. -/
def coolOn (g : Readings) (flow : Option Nat) (s : State) : Bool :=
  coolFails g flow s || (s.bit R.THM_STATUS_cooling_degraded && !heldFor (goodSince g flow s) 0 s.now 10000000000)

/-- The highest mean residual of a cell. -/
def residMax (s : State) : Int := (highest ((List.range 128).map fun c => meanInt (s.residualsAt c))).getD 0

theorem coolStep_run (g : Readings) (flow pIn : Option Nat) (s : State) : ∃ resid good, (coolStep g flow pIn).run s =
    let u := (coolNote g flow pIn).run s
    (coolShow resid (coolOn g flow u) u).run ((Upd.gov { u.gov with coolGood := good }).run u) := by
  refine ⟨residMax ((coolNote g flow pIn).run s), goodSince g flow ((coolNote g flow pIn).run s), ?_⟩
  have hnote : coolStep g flow pIn = .all [coolNote g flow pIn, .look fun s => .all [
      .upd (.gov { s.gov with coolGood := goodSince g flow s }),
      put R.THM_COOL_dt_meas (meanInt (s.gov.coolLog.map Prod.fst) % 2 ^ 16).toNat,
      put R.THM_COOL_dt_exp (meanInt (s.gov.coolLog.map Prod.snd) % 2 ^ 16).toNat,
      put R.THM_COOL_resid (residMax s % 2 ^ 16).toNat,
      putBit R.THM_STATUS_cooling_degraded (coolOn g flow s), evLevel 0x714 (coolOn g flow s)]] := rfl
  rw [hnote, Eff.run_all_cons, Eff.run_all_cons, Eff.run_all_nil, Eff.run_look]
  generalize (coolNote g flow pIn).run s = u
  simp only [Eff.run_all_cons, Eff.run_all_nil, Eff.run_upd, coolShow]

theorem coolShow_changes (resid : Int) (on : Bool) (u v : State) : changesOnly [.regs, .msix, .mgmtQ, .out] v ((coolShow resid on u).run v) := by
  have hput : ∀ f x, Writes [.msix, .mgmtQ, .out] (fun _ => True) (put f x) := fun f x => writes_put trivial x
  exact (writes_cons (hput _ _) (writes_cons (hput _ _) (writes_cons (hput _ _) (writes_cons (hput _ _)
    (writes_cons (writes_evLevel (by simp [tells]) (fun _ _ => trivial) trivial _) writes_nil))))).changes v

theorem coolNote_gov (g : Readings) (flow pIn : Option Nat) (s : State) :
    ∃ log, ((coolNote g flow pIn).run s).gov = { s.gov with coolLog := log } := by
  rw [coolNote, Eff.run_look]
  rcases flow with _ | f
  · exact ⟨s.gov.coolLog, congrArg State.gov (Eff.run_skip s)⟩
  · rcases pIn with _ | p
    · exact ⟨s.gov.coolLog, congrArg State.gov (Eff.run_skip s)⟩
    · dsimp only
      cases !(g 208 0).missing && !(g 208 1).missing && f != 0 && s.get R.THM_COOL_CFG_cp != 0
      · exact ⟨s.gov.coolLog, congrArg State.gov (Eff.run_when_false _ s)⟩
      · exact ⟨_, by rw [Eff.run_when_true, Eff.run_upd, Upd.run_gov]⟩

/-- The cooling checks change the coolant's log and good time only. -/
theorem coolStep_gov (g : Readings) (flow pIn : Option Nat) (s : State) :
    ∃ log good, ((coolStep g flow pIn).run s).gov = { s.gov with coolLog := log, coolGood := good } := by
  obtain ⟨log, hlog⟩ := coolNote_gov g flow pIn s
  obtain ⟨resid, good, hrun⟩ := coolStep_run g flow pIn s
  refine ⟨log, good, ?_⟩
  dsimp only at hrun
  rw [hrun, (coolShow_changes ..).same_gov (by simp), Upd.run_gov, hlog]

theorem round_same (hon : s.power = .on) (hcalm : noTrip s rs) : SameThrottle ((housekeeping rs).run s) (roundActed rs s) where
  get hf hk hleft := round_get hon hcalm hf (throttle_late hk).2 (throttle_late hk).1 hleft
  graceEnd := by
    obtain ⟨log, good, hcool⟩ := coolStep_gov (s.reading rs) (roundFlow s rs) (roundPower s rs) (roundSounded rs s)
    rw [housekeeping_run hon, ((writes_marginal ..).changes _).same_gov (by simp), roundCooled, hcool, roundSounded,
      ((writes_soundStep _).changes _).same_gov (by simp [soundParts]), roundThrottled_calm hcalm, (writes_graceShow.changes _).same_gov (by simp),
      roundActed]

theorem SameThrottle.enforced {t u : State} (h : SameThrottle t u) {n : Nat} (hu : enforced n u) : enforced n t := by
  obtain ⟨hlevel, hduty⟩ := hu
  refine ⟨(h.get (fits rfl) (.inl rfl) (.inr (.inr (by decide)))).trans hlevel, fun v hv => ?_⟩
  have hkey : (R.BU_DUTY_duty (v / 8) (v % 8)).key < 0x10000000 := by
    simp only [R.BU_DUTY_duty, R.BU_DUTY, rk]
    omega
  rw [h.get (fits rfl) (.inr (.inr (.inr (.inr hkey)))) (apart_of_key fun he => by
    rw [he] at hkey
    exact absurd hkey (by decide)), hduty v hv]

theorem SameThrottle.noRequest {t u : State} (h : SameThrottle t u) (hu : noRequest u) : noRequest t := by
  obtain ⟨hrequest, hcauses, hasserted⟩ := hu
  refine ⟨?_, (h.get (fits rfl) (.inl rfl) (.inr (.inr (by decide)))).trans hcauses, ?_⟩
  · rwa [State.bit, h.get (fits rfl) (.inl rfl) (.inr (.inr (by decide)))]
  · rwa [State.bit, h.get (fits rfl) (.inr (.inr (.inr (.inl rfl)))) (.inl (by decide))]

end

end Sys2Proof.Proofs

/-! The throttle of a round without a shutdown: its requests and its levels (R489–R492). -/

namespace Sys2Proof.Proofs
open Sys2Proof.Machine Sys2Proof.Claims

section
variable {rs : List (BitVec 32)} {s : State}

/-! The causes that a round raises -/

theorem raised_iff (hstanding : s.gov.standing < 16) :
    ((roundRaised rs s).testBit 0 = true ↔ tempNow rs s = true ∧ s.gov.standing.testBit 0 = false) ∧
    ((roundRaised rs s).testBit 3 = true ↔ flowNow rs s = true ∧ s.gov.standing.testBit 3 = false) ∧
    ((roundRaised rs s % 4 != 0) = true ↔ (tempNow rs s = true ∧ s.gov.standing.testBit 0 = false) ∨
      (overNow rs s (s.get R.PWR_LIMIT_limit_w) = true ∧ s.gov.standing.testBit 1 = false)) ∧
    (roundRaised rs s ≠ 0 ↔ (tempNow rs s = true ∧ s.gov.standing.testBit 0 = false) ∨
      (overNow rs s (s.get R.PWR_LIMIT_limit_w) = true ∧ s.gov.standing.testBit 1 = false) ∨
      (flowNow rs s = true ∧ s.gov.standing.testBit 3 = false)) := by
  obtain ⟨hzero, hthree, hfour, hany⟩ := raised_bits hstanding (tempNow rs s) (overNow rs s (s.get R.PWR_LIMIT_limit_w)) (s.gov.standing.testBit 2)
    (flowNow rs s)
  rw [← bne_iff_ne, roundRaised, roundCauses, hzero, hthree, hfour, hany]
  simp [or_assoc]

theorem raised_causes (h : roundRaised rs s ≠ 0) : roundCauses rs s ≠ 0 := fun h0 => h (by rw [roundRaised, h0, Nat.zero_sub])

theorem causes_zero : roundCauses rs s = 0 ↔
    ¬(tempNow rs s = true ∨ overNow rs s (s.get R.PWR_LIMIT_limit_w) = true ∨ s.gov.standing.testBit 2 = true ∨ flowNow rs s = true) := by
  obtain ⟨-, -, -, -, hzero⟩ := causeSum_bits (tempNow rs s) (overNow rs s (s.get R.PWR_LIMIT_limit_w)) (s.gov.standing.testBit 2) (flowNow rs s)
  rw [roundCauses, hzero]
  simp [and_assoc]

/-- The module has been cool since some time up to the round. -/
def coolRound (rs : List (BitVec 32)) (s : State) : Bool :=
  coolNow (roundCauses rs s) (roundMax s rs) (noKind (s.reading rs) s.diesOff) (lowNow rs s) (roundFlow s rs)

/-- A cool module raises no cause. -/
theorem cool_raises_none (hstanding : s.gov.standing < 16) (h : coolRound rs s = true) : roundRaised rs s = 0 := by
  obtain ⟨⟨x, hx, hle⟩, -, -, ⟨f, hf, hmin⟩, -⟩ := coolNow_iff.1 h
  obtain ⟨hforced, -, hover⟩ := cool_not_hot h
  by_contra hraised
  rcases (raised_iff hstanding).2.2.2.1 hraised with ⟨htemp, -⟩ | ⟨hpower, -⟩ | ⟨hflow, -⟩
  · rcases tempNow_iff.1 htemp with hnone | ⟨y, hy, hhot⟩ | ⟨-, hwarm⟩
    · exact absurd (hforced.symm.trans hnone) Bool.false_ne_true
    · rw [hx] at hy
      rw [← Option.some.inj hy] at hhot
      omega
    · have hwarmer := hwarm x hx
      omega
  · exact hover ((overNow_iff _).1 hpower)
  · rcases flowNow_iff.1 hflow with hnone | ⟨g, hg, hlow, -⟩
    · rw [hf] at hnone
      exact absurd hnone (by simp)
    · rw [hf] at hg
      rw [← Option.some.inj hg] at hlow
      omega

/-! Raising the causes of a judged round -/

/-- The causes of the round have been raised. -/
def roundRaise (rs : List (BitVec 32)) (s : State) : State :=
  (Eff.when (roundRaised rs s != 0) (causeRaise (roundRaised rs s) (roundRaised rs s % 4 != 0 && !noKind (s.reading rs) s.diesOff))).run
    (roundJudged rs s)

theorem roundActed_run : roundActed rs s =
    (if noKind (s.reading rs) s.diesOff || (roundRaised rs s).testBit 3 then levelPut 3 else levelStep).run (roundRaise rs s) := by
  rw [roundActed, throttleAct, Eff.run_seq, roundRaise]

theorem causeRaise_gov (bits : Nat) (timed : Bool) (t : State) : ∃ e, ((causeRaise bits timed).run t).gov = { t.gov with graceEnd := e } := by
  cases hreq : t.bit R.PWR_THROTTLE_request
  · obtain ⟨-, -, -, -, -, hgov, -⟩ := causeRaise_begins (bits := bits) (timed := timed) hreq
    generalize (causeRaise bits timed).run t = u at hgov ⊢
    cases timed
    · exact ⟨t.gov.graceEnd, hgov⟩
    · exact ⟨some (t.now + t.get R.THM_GRACE_grace_ms * 1000000), by rw [hgov, if_pos rfl]⟩
  · have hgov : ((causeRaise bits timed).run t).gov = t.gov := by
      rw [causeRaise_joins hreq]
      exact ((put_in (ps := [.regs]) _ _ (by simp)).changes t).same_gov (by simp)
    exact ⟨t.gov.graceEnd, hgov⟩

theorem graceEnd_only {t u : State} {e : Option Nat} (h : u.gov = { t.gov with graceEnd := e }) : u.gov.standing = t.gov.standing ∧
    u.gov.hotSince = t.gov.hotSince ∧ u.gov.coolSince = t.gov.coolSince ∧ u.gov.levelAt = t.gov.levelAt := by
  rw [h]
  exact ⟨rfl, rfl, rfl, rfl⟩

theorem whenRaise_gov (b : Bool) (bits : Nat) (timed : Bool) (t : State) :
    ∃ e, ((Eff.when b (causeRaise bits timed)).run t).gov = { t.gov with graceEnd := e } := by
  cases b
  · exact ⟨t.gov.graceEnd, congrArg State.gov (Eff.run_when_false _ t)⟩
  · rw [Eff.run_when_true]
    exact causeRaise_gov ..

/-- What the raising of causes leaves of a judged round. -/
theorem roundRaise_kept :
    (roundRaise rs s).get R.PWR_THROTTLE_level = s.get R.PWR_THROTTLE_level ∧ (roundRaise rs s).gov.standing = roundCauses rs s ∧
    (∀ start ns, heldFor (roundRaise rs s).gov.hotSince start (roundRaise rs s).now ns = true ↔
      hotNow (roundCauses rs s) (roundMax s rs) (noKind (s.reading rs) s.diesOff) = true ∧
        max (s.gov.hotSince.getD (roundTime s)) start + ns ≤ roundTime s) ∧
    (∀ start ns, heldFor (roundRaise rs s).gov.coolSince start (roundRaise rs s).now ns = true ↔
      coolRound rs s = true ∧ max (s.gov.coolSince.getD (roundTime s)) start + ns ≤ roundTime s) ∧
    (roundRaise rs s).gov.levelAt = s.gov.levelAt := by
  have hjudged := roundJudged_judged rs s
  have hlevel : (roundRaise rs s).get R.PWR_THROTTLE_level = (roundJudged rs s).get R.PWR_THROTTLE_level := by
    rw [roundRaise]
    cases roundRaised rs s != 0
    · rw [Eff.run_when_false]
    · rw [Eff.run_when_true, causeRaise_level]
  have hgov : ∃ e, (roundRaise rs s).gov = { (roundJudged rs s).gov with graceEnd := e } := whenRaise_gov ..
  have hnow : (roundRaise rs s).now = roundTime s := by
    rw [roundRaise, ((writes_when (ps := govParts) (W := raiseField) fun _ => writes_causeRaise ..).changes _).same_now (by simp [govParts]),
      hjudged.now]
  obtain ⟨e, hgov⟩ := hgov
  obtain ⟨hstanding, hhot, hcool, hlevelAt⟩ := graceEnd_only hgov
  refine ⟨hlevel.trans (hjudged.get (fits rfl) (.inl rfl)), hstanding.trans hjudged.standing, fun start ns => ?_, fun start ns => ?_,
    hlevelAt.trans hjudged.levelAt⟩
  · rw [hnow, hhot, hjudged.hotSince, heldFor_iff]
  · rw [hnow, hcool, hjudged.coolSince, heldFor_iff, coolRound]

/-- A round that raises nothing acts on its judgement alone. -/
theorem roundRaise_none (h : roundRaised rs s = 0) : roundRaise rs s = roundJudged rs s := by
  rw [roundRaise, h, bne_self_eq_false, Eff.run_when_false]

/-! A request begins (R489) -/

/-- A round that raises a cause enforces some level: 3 without a sensor of a kind or with the flow lost. -/
theorem roundActed_puts (hstanding : s.gov.standing < 16) (hraised : roundRaised rs s ≠ 0) : ∃ k < 4, roundActed rs s = (levelPut k).run (roundRaise rs s) ∧
    ((noKind (s.reading rs) s.diesOff || (roundRaised rs s).testBit 3) = true → k = 3) := by
  rw [roundActed_run]
  obtain ⟨-, hcauses, -, hcool, hlevelAt⟩ := roundRaise_kept (rs := rs) (s := s)
  cases noKind (s.reading rs) s.diesOff || (roundRaised rs s).testBit 3
  · rw [if_neg Bool.false_ne_true]
    obtain ⟨k, hk, hrun⟩ := levelStep_puts (s := roundRaise rs s) (by rw [hcauses]; exact raised_causes hraised)
      (Bool.eq_false_iff.2 fun h => hraised (cool_raises_none hstanding ((hcool _ _).1 h).1))
    exact ⟨k, hk, hrun, nofun⟩
  · exact ⟨3, by decide, by rw [if_pos rfl], fun _ => rfl⟩

/-- The average power on which the target of a request depends, in steps of 10 W. -/
def powerMean (ps : List Nat) : Nat := if ps.isEmpty then 0 else 85 * ps.sum / (100 * ps.length) / 10 * 10

theorem round_begins (hon : s.power = .on) (hcalm : noTrip s rs) (hstanding : s.gov.standing < 16) (hreq : s.bit R.PWR_THROTTLE_request = false)
    (hraised : roundRaised rs s ≠ 0) : let t := (housekeeping rs).run s
    t.bit R.PWR_THROTTLE_request = true ∧ t.bit (R.EVC_ROUTE_asserted 0x711) = true ∧
    t.get R.PWR_COUNTS_requests = min (s.get R.PWR_COUNTS_requests + 1) (2 ^ R.PWR_COUNTS_requests.w - 1) ∧
    t.get R.PWR_LIMIT_target_w = (if (roundRaised rs s).testBit 0 then max 1000 (min (powerMean (powers s rs)) (s.get R.PWR_LIMIT_limit_w))
      else s.get R.PWR_LIMIT_limit_w) ∧
    ((roundRaised rs s % 4 != 0 && !noKind (s.reading rs) s.diesOff) = true → t.bit R.PWR_THROTTLE_grace = true ∧
      t.gov.graceEnd = some (roundTime s + s.get R.THM_GRACE_grace_ms * 1000000)) ∧
    ((noKind (s.reading rs) s.diesOff || (roundRaised rs s).testBit 3) = true →
      t.get R.PWR_THROTTLE_level = 3 ∧ (s.get R.PWR_THROTTLE_level ≠ 3 → enforced 3 t)) := by
  have hsame := round_same hon hcalm
  obtain ⟨k, hk, hacted, hthree⟩ := roundActed_puts hstanding hraised
  obtain ⟨hlevel, -⟩ := roundRaise_kept (rs := rs) (s := s)
  have hjudged := roundJudged_judged rs s
  have hraise : roundRaise rs s =
      (causeRaise (roundRaised rs s) (roundRaised rs s % 4 != 0 && !noKind (s.reading rs) s.diesOff)).run (roundJudged rs s) := by
    rw [roundRaise, bne_iff_ne.2 hraised, Eff.run_when_true]
  obtain ⟨hrequest, hasserted, hcount, htarget, hgrace, hgov, -⟩ := causeRaise_begins (bits := roundRaised rs s)
    (timed := roundRaised rs s % 4 != 0 && !noKind (s.reading rs) s.diesOff) (s := roundJudged rs s)
    (by rw [State.bit, hjudged.get (fits rfl) (.inl rfl), ← State.bit, hreq])
  rw [← hraise] at hrequest hasserted hcount htarget hgrace hgov
  rw [hjudged.get (fits rfl) (.inr (.inr (.inl rfl)))] at hcount
  rw [State.tempTarget, State.pSum, hjudged.pIn, hjudged.get (fits rfl) (.inr (.inl rfl)), ← List.sum_eq_foldl] at htarget
  rw [hjudged.now, hjudged.get (fits rfl) (.inr (.inr (.inr rfl)))] at hgov
  generalize roundRaise rs s = Y at *
  have hkept : ∀ f, Fits f → apart R.PWR_THROTTLE_level f → apart R.PWR_COUNTS_enforcements f ∧ apart R.PWR_COUNTS_escalations f →
      0x10000000 ≤ f.key → (roundActed rs s).get f = Y.get f := fun f hf hl hc hkey => by rw [hacted, levelPut_get k hf hl hc hkey]
  dsimp only
  refine ⟨?_, ?_, ?_, ?_, fun htimed => ⟨?_, ?_⟩, fun h => ?_⟩
  · rw [State.bit, hsame.get (fits rfl) (.inl rfl) (.inr (.inr (by decide))),
      hkept _ (fits rfl) (.inr (.inr (by decide))) ⟨.inl (by decide), .inl (by decide)⟩ (by decide)]
    exact hrequest
  · rw [State.bit, hsame.get (fits rfl) (.inr (.inr (.inr (.inl rfl)))) (.inl (by decide)),
      hkept _ (fits rfl) (.inl (by decide)) ⟨.inl (by decide), .inl (by decide)⟩ (by decide)]
    exact hasserted
  · rw [hsame.get (fits rfl) (.inr (.inr (.inl rfl))) (.inl (by decide)),
      hkept _ (fits rfl) (.inl (by decide)) ⟨.inr (.inr (by decide)), .inr (.inr (by decide))⟩ (by decide), hcount]
  · rw [hsame.get (fits rfl) (.inr (.inl rfl)) (.inl (by decide)),
      hkept _ (fits rfl) (.inl (by decide)) ⟨.inl (by decide), .inl (by decide)⟩ (by decide), htarget]
    rfl
  · rw [State.bit, hsame.get (fits rfl) (.inl rfl) (.inr (.inr (by decide))),
      hkept _ (fits rfl) (.inr (.inl (by decide))) ⟨.inl (by decide), .inl (by decide)⟩ (by decide)]
    exact hgrace htimed
  · obtain ⟨x, hx⟩ := levelPut_gov k Y
    rw [hsame.graceEnd, hacted, hx, hgov, htimed, if_pos rfl]
  · obtain rfl := hthree h
    refine ⟨?_, fun hne => hsame.enforced ?_⟩
    · rw [hsame.get (fits rfl) (.inl rfl) (.inr (.inr (by decide))), hacted, levelPut_level (by decide)]
    · rw [hacted]
      exact levelPut_enforced (by decide) (by rwa [hlevel])

end

end Sys2Proof.Proofs

/-! The enforcement of a standing request, and the levels of a round without a shutdown (R490–R492). -/

namespace Sys2Proof.Proofs
open Sys2Proof.Machine Sys2Proof.Claims

section
variable {rs : List (BitVec 32)} {s : State}

/-- The level that a round leaves. -/
theorem round_level (hon : s.power = .on) (hcalm : noTrip s rs) :
    ((housekeeping rs).run s).get R.PWR_THROTTLE_level = (roundActed rs s).get R.PWR_THROTTLE_level :=
  (round_same hon hcalm).get (fits rfl) (.inl rfl) (.inr (.inr (by decide)))

/-- A judged round's power against a limit. -/
theorem Judged.above {X : State} (h : Judged rs s X) (w : Nat) : X.govAbove w = overNow rs s w := by
  rw [State.govAbove, State.pSum, h.pIn, h.book, ← List.sum_eq_foldl]
  rfl

/-! A standing request without enforcement (R490) -/

/-- A round that raises nothing at level 0, with no grace time running, enforces level 1 or ends the request. -/
theorem roundActed_first (hraised : roundRaised rs s = 0) (hforced : noKind (s.reading rs) s.diesOff = false)
    (hlevel : s.get R.PWR_THROTTLE_level = 0) (hgrace : s.gov.graceEnd = none) (hreq : s.bit R.PWR_THROTTLE_request = true) :
    roundActed rs s = (if roundCauses rs s = 0 then requestEnd else Eff.when (overNow rs s (s.get R.PWR_LIMIT_target_w)) (levelPut 1)).run
      (roundJudged rs s) := by
  have hjudged := roundJudged_judged rs s
  rw [roundActed_run, hraised, hforced, Nat.zero_testBit, Bool.or_self, if_neg Bool.false_ne_true, roundRaise_none hraised]
  generalize roundJudged rs s = X at *
  have hzero : X.get R.PWR_THROTTLE_level = 0 := (hjudged.get (fits rfl) (.inl rfl)).trans hlevel
  have hrequest : X.bit R.PWR_THROTTLE_request = true := by rwa [State.bit, hjudged.get (fits rfl) (.inl rfl)]
  rw [levelStep_zero hzero, enforceFirst, Eff.run_look, hjudged.graceEnd, hgrace, Option.isNone_none, hrequest, hzero, beq_self_eq_true,
    Bool.and_self, Bool.and_self, Eff.run_when_true, hjudged.standing, hjudged.above, hjudged.get (fits rfl) (.inr (.inl rfl))]

theorem round_enforces (hon : s.power = .on) (hcalm : noTrip s rs) (hraised : roundRaised rs s = 0)
    (hforced : noKind (s.reading rs) s.diesOff = false) (hlevel : s.get R.PWR_THROTTLE_level = 0) (hgrace : s.gov.graceEnd = none)
    (hreq : s.bit R.PWR_THROTTLE_request = true) :
    (roundCauses rs s = 0 → noRequest ((housekeeping rs).run s) ∧ ((housekeeping rs).run s).get R.PWR_THROTTLE_level = 0) ∧
    (roundCauses rs s ≠ 0 → overNow rs s (s.get R.PWR_LIMIT_target_w) = true → enforced 1 ((housekeeping rs).run s)) ∧
    (roundCauses rs s ≠ 0 → overNow rs s (s.get R.PWR_LIMIT_target_w) = false →
      ((housekeeping rs).run s).bit R.PWR_THROTTLE_request = true ∧ ((housekeeping rs).run s).get R.PWR_THROTTLE_level = 0) := by
  have hjudged := roundJudged_judged rs s
  have hacted := roundActed_first hraised hforced hlevel hgrace hreq
  have hzero : (roundJudged rs s).get R.PWR_THROTTLE_level = 0 := (hjudged.get (fits rfl) (.inl rfl)).trans hlevel
  have hsame := round_same hon hcalm
  refine ⟨fun h0 => ?_, fun h0 hover => ?_, fun h0 hover => ⟨?_, ?_⟩⟩
  · obtain ⟨hnone, hkept, -⟩ := requestEnd_leaves (roundJudged rs s)
    rw [if_pos h0] at hacted
    rw [round_level hon hcalm]
    rw [← hacted] at hnone hkept
    exact ⟨hsame.noRequest hnone, hkept.trans hzero⟩
  · rw [if_neg h0, hover, Eff.run_when_true] at hacted
    refine hsame.enforced ?_
    rw [hacted]
    exact levelPut_enforced (by decide) (by rw [hzero]; decide)
  · rw [if_neg h0, hover, Eff.run_when_false] at hacted
    rw [State.bit, hsame.get (fits rfl) (.inl rfl) (.inr (.inr (by decide))), hacted, hjudged.get (fits rfl) (.inl rfl)]
    exact hreq
  · rw [if_neg h0, hover, Eff.run_when_false] at hacted
    rw [round_level hon hcalm, hacted, hzero]

/-! The level rises, falls or stays (R492) -/

theorem requestEnd_enforced {n : Nat} {t : State} (h : enforced n t) : enforced n (requestEnd.run t) := by
  obtain ⟨hlevel, hduty⟩ := h
  obtain ⟨-, hkept, -⟩ := requestEnd_leaves t
  refine ⟨hkept.trans hlevel, fun u hu => ?_⟩
  rw [writes_requestEnd.get (fits rfl) (fun g hg => ?_), hduty u hu]
  have hkey : (R.BU_DUTY_duty (u / 8) (u % 8)).key < 0x10000000 := by
    simp only [R.BU_DUTY_duty, R.BU_DUTY, rk]
    omega
  have hhigh : ∀ f : Fld, 0x10000000 ≤ f.key → apart f (R.BU_DUTY_duty (u / 8) (u % 8)) := fun f hf => apart_of_key (by omega)
  rcases hg with rfl | rfl | rfl | rfl | rfl | rfl | ⟨hg, -⟩ | rfl | rfl
  case inr.inr.inr.inr.inr.inr.inl => exact hhigh _ (by omega)
  all_goals exact hhigh _ (by decide)

/-- Above level 0, with every kind of sensor and the flow there, a round steps its level. -/
theorem roundActed_steps (hforced : noKind (s.reading rs) s.diesOff = false) (hflow : (roundRaised rs s).testBit 3 = false) :
    roundActed rs s = levelStep.run (roundRaise rs s) := by
  rw [roundActed_run, hforced, hflow, Bool.or_self, if_neg Bool.false_ne_true]

/-- The level may rise, or fall, in a round. -/
def mayRise (rs : List (BitVec 32)) (s : State) : Prop :=
  hotNow (roundCauses rs s) (roundMax s rs) (noKind (s.reading rs) s.diesOff) = true ∧
  max (s.gov.hotSince.getD (roundTime s)) s.gov.levelAt + 10000000 ≤ roundTime s

def mayFall (rs : List (BitVec 32)) (s : State) : Prop :=
  coolRound rs s = true ∧ max (s.gov.coolSince.getD (roundTime s)) s.gov.levelAt + 50000000 ≤ roundTime s

theorem fall_not_rise (h : mayFall rs s) : ¬ mayRise rs s := fun hrise => by
  obtain ⟨hforced, hmax, hover⟩ := cool_not_hot h.1
  rcases (hotNow_iff hforced).1 hrise.1 with ⟨x, hx, hhot⟩ | hpower
  · have hle := hmax x hx
    omega
  · exact hover hpower

theorem round_steps (hon : s.power = .on) (hcalm : noTrip s rs) (hpos : s.get R.PWR_THROTTLE_level ≠ 0)
    (hforced : noKind (s.reading rs) s.diesOff = false) (hflow : (roundRaised rs s).testBit 3 = false) :
    (mayRise rs s → s.get R.PWR_THROTTLE_level < 3 → enforced (s.get R.PWR_THROTTLE_level + 1) ((housekeeping rs).run s)) ∧
    (mayFall rs s → enforced (s.get R.PWR_THROTTLE_level - 1) ((housekeeping rs).run s) ∧
      (s.get R.PWR_THROTTLE_level = 1 → noRequest ((housekeeping rs).run s))) ∧
    (¬(mayRise rs s ∧ s.get R.PWR_THROTTLE_level < 3) → ¬ mayFall rs s →
      ((housekeeping rs).run s).get R.PWR_THROTTLE_level = s.get R.PWR_THROTTLE_level) := by
  have hsame := round_same hon hcalm
  have hacted := roundActed_steps hforced hflow
  have hlt : s.get R.PWR_THROTTLE_level < 2 ^ 2 := get_lt s R.PWR_THROTTLE_level
  obtain ⟨hlevel, -, hhot, hcool, hlevelAt⟩ := roundRaise_kept (rs := rs) (s := s)
  rw [round_level hon hcalm, hacted]
  rw [hacted] at hsame
  generalize roundRaise rs s = Y at *
  have hrise : heldFor Y.gov.hotSince Y.gov.levelAt Y.now 10000000 = true ↔ mayRise rs s := by rw [hhot, hlevelAt, mayRise]
  have hfall : heldFor Y.gov.coolSince Y.gov.levelAt Y.now 50000000 = true ↔ mayFall rs s := by rw [hcool, hlevelAt, mayFall]
  rw [← hlevel] at hpos hlt ⊢
  refine ⟨fun hr h3 => ?_, fun hf => ?_, fun hr hf => ?_⟩
  · rw [levelStep_rises hpos h3 (hrise.2 hr)] at hsame
    exact hsame.enforced (levelPut_enforced (by omega) (by omega))
  · have hfalls := levelStep_falls hpos (fun h => fall_not_rise hf (hrise.1 h.2)) (hfall.2 hf)
    have hput : enforced (Y.get R.PWR_THROTTLE_level - 1) ((levelPut (Y.get R.PWR_THROTTLE_level - 1)).run Y) :=
      levelPut_enforced (by omega) (by omega)
    by_cases h1 : Y.get R.PWR_THROTTLE_level = 1
    · rw [hfalls, beq_iff_eq.2 h1, Eff.run_when_true] at hsame
      exact ⟨hsame.enforced (requestEnd_enforced hput), fun _ => hsame.noRequest (requestEnd_leaves _).1⟩
    · rw [hfalls, beq_eq_false_iff_ne.2 h1, Eff.run_when_false] at hsame
      exact ⟨hsame.enforced hput, fun h => absurd h h1⟩
  · rw [levelStep_stays hpos (fun h => hr ⟨hrise.1 h.2, h.1⟩) (Bool.eq_false_iff.2 fun h => hf (hfall.1 h))]

end

end Sys2Proof.Proofs

/-! The thermal shutdown of a round (R487, R488). -/

namespace Sys2Proof.Proofs
open Sys2Proof.Machine Sys2Proof.Claims

/-! The parts of a shutdown -/

/-- The cause of a shutdown is shown. -/
def tripShow (cause : Nat) (t : Int × Nat) : Eff := .all [
  putBit R.THM_SHUTDOWN_latched true, put R.THM_SHUTDOWN_cause cause, put R.THM_SHUTDOWN_chan t.2,
  put R.THM_SHUTDOWN_reading (t.1 % 2 ^ 16).toNat]

/-- A command ends with the shutdown. -/
def cmdEnd (x : HCmd) : Eff := .seq (Eff.when (x.op == 0x71) (put R.PWR_STATE_last_status ST_SHUTDOWN)) (hcFinish x.id ST_SHUTDOWN 0)

/-- A bring-up stage stops with the shutdown. -/
def stageCut (s : State) : Eff := Eff.when s.inStage (.seq (closingRecord ST_SHUTDOWN 0x00FE 0xFFFF 0 0) stageStop)

/-- The contents of the memories are lost. -/
def contentsLost : Eff := .all [
  .upd (.cacheDrop fun _ => true), .upd (.memDrop fun _ => true), .upd (.checkDrop fun _ => true), .upd (.marksDrop fun _ => true)]

/-- The links go off. -/
def linksOff (s : State) : Eff := Eff.each (List.range 48) fun l => Eff.when (s.gl l != GL_RETIRED) (.all [
  put (R.GWL_LINK_STATUS_state l) GL_OFF, put (R.GWL_LINK_STATUS_weight l) 0])

/-- The module is shown as shut down. -/
def offShow : Eff := .all [
  putReg R.GWL_UP 0, put R.GWL_AGG_up_weight 0, put R.PWR_STATE_state 3, putBit R.PWR_STATE_pending false, evLevel 0x713 true]

theorem shutdown_run (cause : Nat) (t : Int × Nat) (s : State) : (shutdown cause t).run s =
    offShow.run ((linksOff s).run (contentsLost.run (diesDown.run ((stageCut s).run
      ((Eff.each (s.cmds.filter fun x => x.phase != 2) cmdEnd).run ((tripShow cause t).run s)))))) := by
  have hparts : shutdown cause t = .look fun s => .all [
      putBit R.THM_SHUTDOWN_latched true, put R.THM_SHUTDOWN_cause cause, put R.THM_SHUTDOWN_chan t.2,
      put R.THM_SHUTDOWN_reading (t.1 % 2 ^ 16).toNat,
      Eff.each (s.cmds.filter fun x => x.phase != 2) cmdEnd, stageCut s, diesDown,
      .upd (.cacheDrop fun _ => true), .upd (.memDrop fun _ => true), .upd (.checkDrop fun _ => true), .upd (.marksDrop fun _ => true),
      linksOff s,
      putReg R.GWL_UP 0, put R.GWL_AGG_up_weight 0, put R.PWR_STATE_state 3, putBit R.PWR_STATE_pending false, evLevel 0x713 true] := rfl
  rw [hparts, Eff.run_look, offShow, contentsLost, tripShow]
  simp only [Eff.run_all_cons, Eff.run_all_nil]

/-! What the parts of a shutdown write -/

/-- A register of the thermal page, of the bands or of the warnings' source: what a round shows. -/
def shownKey (k : Nat) : Prop := (0x100A0000 ≤ k ∧ k < 0x100B0000) ∨ (∃ c < 128, k = R.VLT_BAND c) ∨ k = R.EVC_ROUTE 0x712

/-- A register that is none of them. -/
abbrev otherKey (k : Nat) : Prop := (k < 0x100A0000 ∨ 0x100B0000 ≤ k) ∧ k % 0x100000 ≠ 0x80000 ∧ k ≠ 0x10033890

theorem shownKey_ne {k j : Nat} (h : shownKey k) (hj : otherKey j) : j ≠ k := by
  simp only [shownKey, R.VLT_BAND, R.EVC_ROUTE, rk] at h
  obtain ⟨hpage, hband, hroute⟩ := hj
  rcases h with h | ⟨c, hc, rfl⟩ | rfl <;> omega

/-- A field of another register than a round shows. -/
def otherField (g : Fld) : Prop := otherKey g.key

theorem otherField_apart {f g : Fld} (hf : shownKey f.key) (hg : otherField g) : apart g f := apart_of_key (shownKey_ne hf hg).symm

theorem eventField_other (g : Fld) (h : eventField g) : otherField g := by
  rcases h with h | rfl | rfl
  · rw [otherField]
    omega
  · exact show otherKey R.PWR_STATE by decide
  · exact show otherKey R.PWR_STATE by decide

/-- The parts that the loss of the dies writes beside the registers. -/
def lossParts : List Part := [.power, .dispatchLog, .dispatchFlash, .flashAt, .loads, .vecQ, .qeQ, .passQ, .buQ, .kvtQ, .kvtMigQ, .kvtMoves,
  .held, .waiters, .scrubRun, .segQ, .creditQ, .icache, .msix, .mgmtQ, .out]

theorem lossTells : tells lossParts := by simp [tells, lossParts]

theorem writes_stageCut (s : State) : Writes lossParts otherField (stageCut s) := by
  have hput : ∀ (f : Fld) (x : Nat), otherKey f.key → Writes lossParts otherField (put f x) := fun f x h => writes_put h x
  have hupd : ∀ u : Upd, u.part ∈ lossParts → u.part ≠ .regs → Writes lossParts otherField (.upd u) := fun u hu hr => writes_upd hu hr
  refine writes_when fun _ => writes_seq (writes_look fun _ => writes_look fun _ => writes_cons (writes_look fun _ => ?_)
    (writes_cons (hput _ _ (by decide)) (writes_cons (hput _ _ (by decide)) writes_nil))) (writes_look fun t => ?_)
  · exact writes_cons (hupd _ (by simp [Upd.part, lossParts]) (by simp [Upd.part])) (writes_cons (writes_look fun _ => hput _ _ (by decide))
      (writes_cons (writes_look fun _ => writes_when fun _ => writes_cons (hupd _ (by simp [Upd.part, lossParts]) (by simp [Upd.part]))
        (writes_cons (hupd _ (by simp [Upd.part, lossParts]) (by simp [Upd.part])) writes_nil)) writes_nil))
  · split
    · exact hput _ _ (by decide)
    · exact hupd _ (by simp [Upd.part, lossParts]) (by simp [Upd.part])

theorem route_other {src : Nat} (_ : src < 2048) (_ : src ≠ 0x712) : otherField (R.EVC_ROUTE_asserted src) := by
  simp only [otherField, otherKey, R.EVC_ROUTE_asserted, R.EVC_ROUTE, rk]
  omega

theorem writes_putThr {c t st : Nat} (_ : c < 128) (_ : t < 16) : Writes lossParts otherField (putThr c t st) :=
  writes_cons (writes_put (W := otherField)
    (by simp only [otherField, otherKey, R.SEQ_THR_STATUS_state, R.SEQ_THR_STATUS, rk]; omega) _)
    (writes_cons (writes_look fun _ => writes_evLevel lossTells eventField_other (route_other (by omega) (by omega)) _) writes_nil)

theorem writes_dieWorkLost {d : Nat} (hd : d < 8) : Writes lossParts otherField (dieWorkLost d) := by
  have hupd : ∀ u : Upd, u.part ∈ lossParts → u.part ≠ .regs → Writes lossParts otherField (.upd u) := fun u hu hr => writes_upd hu hr
  refine writes_cons (writes_each fun x hx => ?_) ?_
  · obtain ⟨j, hj, hx⟩ := List.mem_flatMap.1 hx
    obtain ⟨t, ht, rfl⟩ := List.mem_map.1 hx
    have hlt := List.mem_range.1 hj
    exact writes_putThr (by omega) (List.mem_range.1 ht)
  · refine writes_cons (hupd _ ?_ ?_) (writes_cons (hupd _ ?_ ?_) (writes_cons (hupd _ ?_ ?_) (writes_cons (hupd _ ?_ ?_)
      (writes_cons (hupd _ ?_ ?_) (writes_cons (hupd _ ?_ ?_) (writes_cons (hupd _ ?_ ?_) (writes_cons (hupd _ ?_ ?_)
        (writes_cons (hupd _ ?_ ?_) (writes_cons (hupd _ ?_ ?_) (writes_cons (hupd _ ?_ ?_) writes_nil)))))))))) <;>
      simp [Upd.part, lossParts]

theorem writes_diesDown : Writes lossParts otherField diesDown := by
  have hupd : ∀ u : Upd, u.part ∈ lossParts → u.part ≠ .regs → Writes lossParts otherField (.upd u) := fun u hu hr => writes_upd hu hr
  have hlevel : ∀ src b, src < 1024 → Writes lossParts otherField (evLevel src b) := fun src b hs =>
    writes_evLevel lossTells eventField_other (route_other (by omega) (by omega)) b
  exact writes_cons (writes_each fun d hd => writes_dieWorkLost (List.mem_range.1 hd))
    (writes_cons (hupd _ (by simp [Upd.part, lossParts]) (by simp [Upd.part])) (writes_cons (hupd _ (by simp [Upd.part, lossParts]) (by simp [Upd.part]))
      (writes_cons (hupd _ (by simp [Upd.part, lossParts]) (by simp [Upd.part])) (writes_cons
        (writes_each fun c hc => by
          have hlt := List.mem_range.1 hc
          exact writes_cons (hlevel _ _ (by omega)) (writes_cons (hlevel _ _ (by omega)) (writes_cons (hlevel _ _ (by omega)) writes_nil)))
        writes_nil))))

theorem writes_contentsLost : Writes [.cache, .mem, .check, .marks] otherField contentsLost :=
  writes_cons (writes_upd (by simp [Upd.part]) (by simp [Upd.part])) (writes_cons (writes_upd (by simp [Upd.part]) (by simp [Upd.part]))
    (writes_cons (writes_upd (by simp [Upd.part]) (by simp [Upd.part])) (writes_cons (writes_upd (by simp [Upd.part]) (by simp [Upd.part]))
      writes_nil)))

theorem writes_linksOff (s : State) : Writes [] otherField (linksOff s) := by
  refine writes_each fun l hl => writes_when fun _ => ?_
  have hlt := List.mem_range.1 hl
  have hput : ∀ (f : Fld) (x : Nat), f.key = R.GWL_LINK_STATUS l → Writes [] otherField (put f x) := fun f x h => writes_put (by
    simp only [otherField, otherKey, h, R.GWL_LINK_STATUS, rk]
    omega) x
  exact writes_cons (hput _ _ rfl) (writes_cons (hput _ _ rfl) writes_nil)

theorem writes_offShow : Writes [.msix, .mgmtQ, .out] otherField offShow := by
  have hput : ∀ (f : Fld) (x : Nat), otherKey f.key → Writes [.msix, .mgmtQ, .out] otherField (put f x) := fun f x h => writes_put h x
  exact writes_cons (writes_within (K := fun k => k = R.GWL_UP) ((within_putReg ..).2 rfl) (by
      rintro k rfl
      exact show otherKey R.GWL_UP by decide))
    (writes_cons (hput _ _ (by decide)) (writes_cons (hput _ _ (by decide)) (writes_cons (hput _ _ (by decide)) (writes_cons
      (writes_evLevel (by simp [tells]) eventField_other (route_other (by decide) (by decide)) _) writes_nil))))

end Sys2Proof.Proofs

/-! What a thermal shutdown leaves (R487, R488), and the governor of a round (R487–R492). -/

namespace Sys2Proof.Proofs
open Sys2Proof.Machine Sys2Proof.Claims


theorem tripShow_leaves {cause : Nat} {t : Int × Nat} (hcause : cause < 4) (hchan : t.2 < 256) (s : State) : let u := (tripShow cause t).run s
    u.bit R.THM_SHUTDOWN_latched = true ∧ u.get R.THM_SHUTDOWN_cause = cause ∧ u.get R.THM_SHUTDOWN_chan = t.2 ∧
    u.get R.THM_SHUTDOWN_reading = (t.1 % 2 ^ 16).toNat := by
  have hreading : (t.1 % 2 ^ 16).toNat < 2 ^ 16 := by omega
  rw [tripShow]
  simp only [Eff.run_all_cons, Eff.run_all_nil]
  refine ⟨?_, ?_, ?_, ?_⟩
  · rw [State.bit]
    simp (disch := (
      try simp only [apart, farKey, R.THM_SHUTDOWN_latched, R.THM_SHUTDOWN_cause, R.THM_SHUTDOWN_chan, R.THM_SHUTDOWN_reading,
        R.THM_SHUTDOWN, rk]
      omega)) only [get_put_apart, putBit]
    exact beq_iff_eq.2 (put_same_of_lt (by decide) (by decide) _)
  · simp (disch := (
    try simp only [apart, farKey, R.THM_SHUTDOWN_latched, R.THM_SHUTDOWN_cause, R.THM_SHUTDOWN_chan, R.THM_SHUTDOWN_reading,
      R.THM_SHUTDOWN, rk]
    omega)) only [get_put_apart]
    exact put_same_of_lt (by decide) hcause _
  · simp (disch := (
    try simp only [apart, farKey, R.THM_SHUTDOWN_latched, R.THM_SHUTDOWN_cause, R.THM_SHUTDOWN_chan, R.THM_SHUTDOWN_reading,
      R.THM_SHUTDOWN, rk]
    omega)) only [get_put_apart]
    exact put_same_of_lt (by decide) hchan _
  · exact put_same_of_lt (by decide) hreading _

theorem tripShow_changes (cause : Nat) (t : Int × Nat) (s : State) : changesOnly [.regs] s ((tripShow cause t).run s) :=
  Eff.In.changes (Eff.in_all_cons (put_in _ _ (by simp)) (Eff.in_all_cons (put_in _ _ (by simp)) (Eff.in_all_cons (put_in _ _ (by simp))
    (Eff.in_all_cons (put_in _ _ (by simp)) Eff.in_all_nil)))) s

theorem tripShow_get (cause : Nat) (t : Int × Nat) {f : Fld} (hf : Fits f) (hk : f.key ≠ R.THM_SHUTDOWN) (s : State) :
    ((tripShow cause t).run s).get f = s.get f := by
  have hput : ∀ g x, g.key = R.THM_SHUTDOWN → ∀ u : State, ((put g x).run u).get f = u.get f := fun g x hg u =>
    get_put_apart (apart_of_key fun he => hk (he.trans hg)) hf.2 x u
  rw [tripShow]
  simp only [Eff.run_all_cons, Eff.run_all_nil]
  rw [hput _ _ rfl, hput _ _ rfl, hput _ _ rfl, putBit, hput _ _ rfl]

/-! The commands -/

theorem cmdEnd_cmds (x : HCmd) (s : State) : ((cmdEnd x).run s).cmds = s.cmds.map (finished x.id ST_SHUTDOWN) := by
  rw [cmdEnd, Eff.run_seq, hcFinish_cmds, ((Eff.in_when (ps := [.regs]) (put_in _ _ (by simp))).changes s).same_cmds (by simp)]

theorem writes_cmdEnd (x : HCmd) : Writes [.cmds] otherField (cmdEnd x) :=
  writes_seq (writes_when fun _ => writes_put (W := otherField) (show otherField R.PWR_STATE_last_status from (by decide : otherKey R.PWR_STATE)) _)
    (writes_in (hcFinish_in ..) (by simp) (by simp))

/-- Commands of which each is one of `xs` or has ended, with its number. -/
def endedFrom (xs ys : List HCmd) : Prop :=
  ∃ h : HCmd → HCmd, ys = xs.map h ∧ ∀ y, (h y).id = y.id ∧ (y.phase = 2 → (h y).phase = 2)

theorem endedFrom_finished {xs ys : List HCmd} (id st : Nat) (h : endedFrom xs ys) : endedFrom xs (ys.map (finished id st)) := by
  obtain ⟨f, rfl, hf⟩ := h
  refine ⟨finished id st ∘ f, List.map_map .., fun y => ⟨(finished_id ..).trans (hf y).1, fun hy => ?_⟩⟩
  rw [Function.comp_apply, finished]
  split
  · rfl
  · exact (hf y).2 hy

/-- Every command has ended, and those that had not before have ended with the shutdown. -/
theorem cmds_end (s t : State) (ht : t.cmds = s.cmds) : let u := (Eff.each (s.cmds.filter fun x => x.phase != 2) cmdEnd).run t
    (∀ y ∈ u.cmds, y.phase = 2) ∧ ∀ y ∈ s.cmds, y.phase ≠ 2 → ∃ z ∈ u.cmds, z.id = y.id ∧ z.status = ST_SHUTDOWN := by
  have hended : ∀ x ∈ s.cmds.filter fun x => x.phase != 2, ∀ y ∈ ((Eff.each (s.cmds.filter fun x => x.phase != 2) cmdEnd).run t).cmds,
      y.id = x.id → y.phase = 2 ∧ y.status = ST_SHUTDOWN ∧ y.result = 0 :=
    run_each_establishes (P := fun (x : HCmd) u => ∀ y ∈ u.cmds, y.id = x.id → y.phase = 2 ∧ y.status = ST_SHUTDOWN ∧ y.result = 0)
      (fun x u y hy hid => by
        rw [cmdEnd_cmds] at hy
        obtain ⟨z, -, rfl⟩ := List.mem_map.1 hy
        exact finished_of_id ((finished_id ..).symm.trans hid))
      (fun x w u hu y hy hid => by
        rw [cmdEnd_cmds] at hy
        obtain ⟨z, hz, rfl⟩ := List.mem_map.1 hy
        exact finished_stays (hu z hz ((finished_id ..).symm.trans hid))) _ t
  have hfrom : endedFrom s.cmds ((Eff.each (s.cmds.filter fun x => x.phase != 2) cmdEnd).run t).cmds :=
    run_each_keeps (I := fun u => endedFrom s.cmds u.cmds) (fun x u hu => by rw [cmdEnd_cmds]; exact endedFrom_finished _ _ hu) _
      ⟨id, by rw [ht, List.map_id], fun _ => ⟨rfl, fun h => h⟩⟩
  generalize (Eff.each (s.cmds.filter fun x => x.phase != 2) cmdEnd).run t = u at *
  obtain ⟨h, hmap, hh⟩ := hfrom
  refine ⟨fun z hz => ?_, fun y hy hphase => ?_⟩
  · have hz' := hz
    rw [hmap] at hz'
    obtain ⟨y, hy, rfl⟩ := List.mem_map.1 hz'
    by_cases hphase : y.phase = 2
    · exact (hh y).2 hphase
    · exact (hended y (List.mem_filter.2 ⟨hy, bne_iff_ne.2 hphase⟩) _ hz (hh y).1).1
  · have hz : h y ∈ u.cmds := by
      rw [hmap]
      exact List.mem_map_of_mem hy
    exact ⟨h y, hz, (hh y).1, (hended y (List.mem_filter.2 ⟨hy, bne_iff_ne.2 hphase⟩) _ hz (hh y).1).2.1⟩

/-! The memories and the links -/

theorem drop_all {α : Type} (m : Map α) : Map.drop (fun _ => true) m = [] := List.filter_eq_nil_iff.2 fun _ _ => by simp

theorem contentsLost_leaves (s : State) : (contentsLost.run s).mem = [] ∧ (contentsLost.run s).cache = [] := by
  have hrun : contentsLost.run s = (Upd.marksDrop fun _ => true).run ((Upd.checkDrop fun _ => true).run
      ((Upd.memDrop fun _ => true).run ((Upd.cacheDrop fun _ => true).run s))) := by
    rw [contentsLost]
    simp only [Eff.run_all_cons, Eff.run_all_nil, Eff.run_upd]
  rw [hrun]
  exact ⟨drop_all s.mem, drop_all s.cache⟩

theorem offShow_leaves (s : State) : (offShow.run s).get R.PWR_STATE_state = 3 ∧ (offShow.run s).bit (R.EVC_ROUTE_asserted 0x713) = true ∧
    ∀ l < 48, (offShow.run s).get ⟨R.GWL_UP, l, 1⟩ = 0 := by
  have hshow : ∀ u : State, ∀ {f : Fld}, Fits f → (f.key = R.PWR_STATE → f = R.PWR_STATE_state) → ¬ eventKey f.key →
      f.key ≠ R.EVC_ROUTE 0x713 → ((evLevel 0x713 true).run u).get f = u.get f := fun u f hf hstate hkey hroute =>
    (writes_evLevel (ps := [.msix, .mgmtQ, .out]) (W := fun g => eventField g ∨ g.key = R.EVC_ROUTE 0x713) (by simp [tells]) (fun _ h => .inl h)
      (.inr rfl) true).get hf (fun g hg => hg.elim (eventField_apart hstate hkey g) fun h => apart_of_key fun he => hroute (he.trans h)) u
  rw [offShow]
  simp only [Eff.run_all_cons, Eff.run_all_nil]
  refine ⟨?_, evLevel_asserted _ _ (by decide) _, fun l hl => ?_⟩
  · rw [hshow _ (fits rfl) (fun _ => rfl) (fun h => absurd h.2 (by decide)) (by decide), putBit, get_put_apart (.inr (.inr (by decide))) (by decide)]
    exact put_same_of_lt (by decide) (by decide) _
  · have hin : l + 1 ≤ 64 := Nat.le_trans (Nat.succ_le_of_lt hl) (by decide)
    have hstate : R.GWL_UP ≠ R.PWR_STATE := by decide
    have hagg : R.GWL_UP ≠ R.GWL_AGG := by decide
    have hroute : R.GWL_UP ≠ R.EVC_ROUTE 0x713 := by decide
    have hevent : ¬ eventKey R.GWL_UP := fun h => absurd h.2 (by decide)
    rw [hshow _ ⟨Nat.one_pos, hin⟩ (fun h => absurd h hstate) hevent hroute, putBit, get_put_apart (.inl hstate) hin,
      get_put_apart (.inl hstate) hin, get_put_apart (.inl hagg) hin, State.get, putReg_same, Fld.read]
    simp

theorem shutdown_leaves {cause : Nat} {t : Int × Nat} (hcause : cause < 4) (hchan : t.2 < 256) (s : State) :
    (((shutdown cause t).run s).bit R.THM_SHUTDOWN_latched = true ∧ ((shutdown cause t).run s).get R.THM_SHUTDOWN_cause = cause ∧
      ((shutdown cause t).run s).get R.THM_SHUTDOWN_chan = t.2 ∧
      ((shutdown cause t).run s).get R.THM_SHUTDOWN_reading = (t.1 % 2 ^ 16).toNat) ∧
    (((shutdown cause t).run s).get R.PWR_STATE_state = 3 ∧ ((shutdown cause t).run s).bit (R.EVC_ROUTE_asserted 0x713) = true ∧
      ∀ l < 48, ((shutdown cause t).run s).get ⟨R.GWL_UP, l, 1⟩ = 0) ∧
    ((∀ y ∈ ((shutdown cause t).run s).cmds, y.phase = 2) ∧
      ∀ y ∈ s.cmds, y.phase ≠ 2 → ∃ z ∈ ((shutdown cause t).run s).cmds, z.id = y.id ∧ z.status = ST_SHUTDOWN) ∧
    (((shutdown cause t).run s).mem = [] ∧ ((shutdown cause t).run s).cache = []) := by
  rw [shutdown_run]
  have hshown := tripShow_leaves hcause hchan s
  have hcmds := cmds_end s _ ((tripShow_changes cause t s).same_cmds (by simp))
  generalize (tripShow cause t).run s = u at hshown hcmds ⊢
  have heach : Writes [.cmds] otherField (Eff.each (s.cmds.filter fun x => x.phase != 2) cmdEnd) := writes_each fun x _ => writes_cmdEnd x
  have hend := fun {f : Fld} (hf : Fits f) (hk : shownKey f.key) =>
    heach.get hf (fun _ => otherField_apart hk) u
  generalize (Eff.each (s.cmds.filter fun x => x.phase != 2) cmdEnd).run u = v at hcmds hend ⊢
  have hcut := fun {f : Fld} (hf : Fits f) (hk : shownKey f.key) =>
    (writes_stageCut s).get hf (fun _ => otherField_apart hk) v
  have hcutc := (writes_stageCut s).changes v
  generalize (stageCut s).run v = w at hcut hcutc ⊢
  have hdies := fun {f : Fld} (hf : Fits f) (hk : shownKey f.key) =>
    writes_diesDown.get hf (fun _ => otherField_apart hk) w
  have hdiesc := writes_diesDown.changes w
  generalize diesDown.run w = x at hdies hdiesc ⊢
  have hlost := fun {f : Fld} (hf : Fits f) (hk : shownKey f.key) =>
    writes_contentsLost.get hf (fun _ => otherField_apart hk) x
  have hlostc := writes_contentsLost.changes x
  have hempty := contentsLost_leaves x
  generalize contentsLost.run x = y at hlost hlostc hempty ⊢
  have hlinks := fun {f : Fld} (hf : Fits f) (hk : shownKey f.key) =>
    (writes_linksOff s).get hf (fun _ => otherField_apart hk) y
  have hlinksc := (writes_linksOff s).changes y
  generalize (linksOff s).run y = z at hlinks hlinksc ⊢
  have hoff := fun {f : Fld} (hf : Fits f) (hk : shownKey f.key) =>
    writes_offShow.get hf (fun _ => otherField_apart hk) z
  have hoffc := writes_offShow.changes z
  have hfinal := offShow_leaves z
  generalize offShow.run z = r at hoff hoffc hfinal ⊢
  have hall : ∀ {f : Fld}, Fits f → shownKey f.key → r.get f = u.get f := fun hf hk => by
    rw [hoff hf hk, hlinks hf hk, hlost hf hk, hdies hf hk, hcut hf hk, hend hf hk]
  have hkey : shownKey R.THM_SHUTDOWN := .inl (by decide)
  refine ⟨?_, hfinal, ?_, ?_, ?_⟩
  · rw [State.bit, hall (fits rfl) hkey, hall (fits rfl) hkey, hall (fits rfl) hkey, hall (fits rfl) hkey]
    exact hshown
  · rw [hoffc.same_cmds (by simp), hlinksc.same_cmds (by simp), hlostc.same_cmds (by simp), hdiesc.same_cmds (by simp [lossParts]),
      hcutc.same_cmds (by simp [lossParts])]
    exact hcmds
  · rw [hoffc.same_mem (by simp), hlinksc.same_mem (by simp)]
    exact hempty.1
  · rw [hoffc.same_cache (by simp), hlinksc.same_cache (by simp)]
    exact hempty.2

/-! The frame of a shutdown -/

theorem shutdown_changes (cause : Nat) (t : Int × Nat) (s : State) :
    changesOnly (.regs :: .cmds :: .cache :: .mem :: .check :: .marks :: lossParts) s ((shutdown cause t).run s) := by
  have heach : Writes [.cmds] otherField (Eff.each (s.cmds.filter fun x => x.phase != 2) cmdEnd) := writes_each fun x _ => writes_cmdEnd x
  rw [shutdown_run]
  exact changesOnly_trans (changesOnly_mono (by simp) (tripShow_changes cause t s)) (changesOnly_trans (changesOnly_mono (by simp)
    (heach.changes _)) (changesOnly_trans (changesOnly_mono (by simp [lossParts]) ((writes_stageCut s).changes _))
      (changesOnly_trans (changesOnly_mono (by simp [lossParts]) (writes_diesDown.changes _)) (changesOnly_trans (changesOnly_mono (by simp)
        (writes_contentsLost.changes _)) (changesOnly_trans (changesOnly_mono (by simp) ((writes_linksOff s).changes _))
          (changesOnly_mono (by simp [lossParts]) (writes_offShow.changes _)))))))

theorem shutdown_get (cause : Nat) (t : Int × Nat) {f : Fld} (hf : Fits f) (hk : shownKey f.key) (hne : f.key ≠ R.THM_SHUTDOWN) (s : State) :
    ((shutdown cause t).run s).get f = s.get f := by
  have heach : Writes [.cmds] otherField (Eff.each (s.cmds.filter fun x => x.phase != 2) cmdEnd) := writes_each fun x _ => writes_cmdEnd x
  have hapart : ∀ g, otherField g → apart g f := fun _ => otherField_apart hk
  rw [shutdown_run, writes_offShow.get hf hapart, (writes_linksOff s).get hf hapart, writes_contentsLost.get hf hapart,
    writes_diesDown.get hf hapart, (writes_stageCut s).get hf hapart, heach.get hf hapart, tripShow_get cause t hf hne]

end Sys2Proof.Proofs

/-! The governor of a round: its shutdown, and the causes, requests and levels of its throttle (R487–R492). -/

namespace Sys2Proof.Proofs
open Sys2Proof.Machine Sys2Proof.Claims

/-! The hottest reading -/

/-- The hottest of used readings is one of them. -/
theorem hottest_mem {xs : List (Option Int × Nat)} {x : Int × Nat} (h : hottest xs = some x) : (some x.1, x.2) ∈ xs := by
  have hfold : ∀ (ys : List (Option Int × Nat)) (m : Option (Int × Nat)), (∀ y, m = some y → (some y.1, y.2) ∈ xs) → (∀ y ∈ ys, y ∈ xs) →
      ∀ y, ys.foldl (fun m x => match x.1, m with
        | none, m => m
        | some t, none => some (t, x.2)
        | some t, some (u, ch) => if u < t then some (t, x.2) else some (u, ch)) m = some y → (some y.1, y.2) ∈ xs := by
    intro ys
    induction ys with
    | nil => exact fun m hm _ y hy => hm y hy
    | cons z rest ih =>
      intro m hm hall y hy
      obtain ⟨hz, hrest⟩ := List.forall_mem_cons.1 hall
      refine ih _ (fun w hw => ?_) hrest y hy
      obtain ⟨t, ch⟩ := z
      rcases t with _ | t
      · exact hm w hw
      · rcases m with _ | ⟨u, c⟩
        · rw [← Option.some.inj hw]
          exact hz
        · dsimp only at hw
          split at hw
          · rw [← Option.some.inj hw]
            exact hz
          · exact hm w hw
  exact hfold xs none (fun _ h => absurd h (by simp)) (fun _ h => h) x h

section
variable {rs : List (BitVec 32)} {s : State}

theorem roundMax_chan {x : Int × Nat} (h : roundMax s rs = some x) : x.2 < 256 := by
  have hmem := hottest_mem h
  simp only [tMaxOver, List.mem_append, List.mem_map, List.mem_range] at hmem
  rcases hmem with hmem | ⟨k, hk, he⟩
  · split at hmem
    · exact absurd hmem List.not_mem_nil
    · simp only [List.mem_append, List.mem_map, List.mem_range] at hmem
      rcases hmem with ⟨c, hc, he⟩ | ⟨k, hk, he⟩
      · rw [← (Prod.mk.inj he).2]
        omega
      · rw [← (Prod.mk.inj he).2]
        omega
  · rw [← (Prod.mk.inj he).2]
    omega

/-! A shutdown -/

/-- A round whose t_max reaches 112 °C shuts down. -/
theorem roundTripped_trips {x : Int × Nat} (hx : roundMax s rs = some x) (hhot : 112 * 16 ≤ x.1) (hlatched : s.bit R.THM_SHUTDOWN_latched = false) :
    roundTripped rs s = (shutdown 1 x).run (roundWarned rs s) := by
  have htrip : shutdownTrip (roundMax s rs) (hottest (gddrOver (s.reading rs))) (hottest (stageOver (s.reading rs))) = some (1, x) := by
    rw [shutdownTrip_eq, hx, show reaches (some x) (112 * 16) = true from decide_eq_true hhot]
    rfl
  rw [roundTripped, tripStep, Eff.run_look, htrip]
  dsimp only
  rw [roundWarned_latched, hlatched, Bool.not_false, Eff.run_when_true]

/-- A field that the throttle and what follows it leave. -/
theorem throttle_apart {f : Fld} (h : f.key = R.THM_SHUTDOWN ∨ f = R.PWR_STATE_state ∨ f.key = R.EVC_ROUTE 0x713 ∨ f.key = R.GWL_UP) :
    (f.key = R.PWR_STATE → f = R.PWR_STATE_state) ∧ ¬ lateKey f.key ∧ ∀ g, throttleField g → apart g f := by
  have hstate : f.key = R.PWR_STATE → f = R.PWR_STATE_state := fun hk => by
    rcases h with h | h | h | h
    · exact absurd (h.symm.trans hk) (by decide)
    · exact h
    · exact absurd (h.symm.trans hk) (by decide)
    · exact absurd (h.symm.trans hk) (by decide)
  have hkey : f.key = R.THM_SHUTDOWN ∨ f.key = R.PWR_STATE ∨ f.key = R.EVC_ROUTE 0x713 ∨ f.key = R.GWL_UP :=
    h.imp_right (Or.imp_left (congrArg Fld.key))
  have hevent : ¬ eventKey f.key := by
    simp only [R.THM_SHUTDOWN, R.PWR_STATE, R.EVC_ROUTE, R.GWL_UP, rk] at hkey
    rw [eventKey]
    omega
  refine ⟨hstate, ?_, fun g hg => ?_⟩
  · simp only [R.THM_SHUTDOWN, R.PWR_STATE, R.EVC_ROUTE, R.GWL_UP, rk] at hkey
    simp only [lateKey, eventKey, R.THM_SOUND, R.CHT_STATUS, R.CHT_STAGED_ID, R.THM_COUNTS, R.THM_COOL, R.THM_STATUS, R.EVC_ROUTE, rk]
    omega
  · have hout : ∀ k, g.key = k → k ≠ R.THM_SHUTDOWN ∧ k ≠ R.PWR_STATE ∧ k ≠ R.EVC_ROUTE 0x713 ∧ k ≠ R.GWL_UP → apart g f := fun k hk hne => by
      obtain ⟨hshutdown, hpower, hroute, hup⟩ := hne
      refine apart_of_key fun he => ?_
      rw [he, hk] at hkey
      exact hkey.elim hshutdown fun h => h.elim hpower fun h => h.elim hroute hup
    rcases hg with hk | hk | hk | rfl | hk | rfl | hk | ⟨u, hu, rfl⟩ | rfl | hg
    · exact hout _ hk (by decide)
    · exact hout _ hk (by decide)
    · exact hout _ hk (by decide)
    · exact hout _ rfl (by decide)
    · exact hout _ hk (by decide)
    · exact hout _ rfl (by decide)
    · exact hout _ hk (by decide)
    · exact hout _ rfl (by
        simp only [R.BU_DUTY_duty, R.BU_DUTY, R.THM_SHUTDOWN, R.PWR_STATE, R.EVC_ROUTE, R.GWL_UP, rk]
        omega)
    · exact hout _ rfl (by decide)
    · exact eventField_apart hstate hevent g hg

theorem round_after (hon : s.power = .on) : let t := (housekeeping rs).run s
    changesOnly (.regs :: .gov :: soundParts) (roundTripped rs s) t ∧
    ∀ f, Fits f → f.key = R.THM_SHUTDOWN ∨ f = R.PWR_STATE_state ∨ f.key = R.EVC_ROUTE 0x713 ∨ f.key = R.GWL_UP →
      t.get f = (roundTripped rs s).get f := by
  dsimp only
  refine ⟨?_, fun f hf hk => ?_⟩
  · rw [housekeeping_run hon, roundCooled, roundSounded, roundThrottled]
    exact changesOnly_trans (changesOnly_mono (by simp [govParts, soundParts]) ((writes_throttleStep ..).changes _))
      (changesOnly_trans (changesOnly_mono (by simp [soundParts]) ((writes_soundStep _).changes _))
        (changesOnly_trans (changesOnly_mono (by simp [govParts, soundParts]) ((writes_coolStep ..).changes _))
          (changesOnly_mono (by simp [soundParts]) ((writes_marginal ..).changes _))))
  · obtain ⟨hstate, hlate, hthrottle⟩ := throttle_apart hk
    rw [housekeeping_get hon hf hstate hlate, roundThrottled, (writes_throttleStep ..).get hf hthrottle]

theorem round_shuts (hon : s.power = .on) {x : Int × Nat} (hx : roundMax s rs = some x) (hhot : 112 * 16 ≤ x.1)
    (hlatched : s.bit R.THM_SHUTDOWN_latched = false) : let t := (housekeeping rs).run s
    t.bit R.THM_SHUTDOWN_latched = true ∧ t.get R.THM_SHUTDOWN_cause = 1 ∧ t.get R.THM_SHUTDOWN_chan = x.2 ∧
    t.get R.THM_SHUTDOWN_reading = (x.1 % 2 ^ 16).toNat ∧ t.get R.PWR_STATE_state = 3 ∧ t.bit (R.EVC_ROUTE_asserted 0x713) = true ∧
    (∀ y ∈ t.cmds, y.phase = 2) ∧ (∀ y ∈ s.cmds, y.phase ≠ 2 → ∃ z ∈ t.cmds, z.id = y.id ∧ z.status = ST_SHUTDOWN) ∧
    (∀ a, t.memAt a = 0) ∧ (∀ k < 65536, t.cacheAt k = []) ∧ (∀ l < 48, t.gwUp l = false) := by
  obtain ⟨hchanges, hget⟩ := round_after (rs := rs) hon
  have hcmds : (roundWarned rs s).cmds = s.cmds := (roundWarned_changes rs s).same_cmds (by simp [suspectParts])
  obtain ⟨⟨hlatch, hcause, hchan, hreading⟩, ⟨hstate, hasserted, hup⟩, ⟨hdone, hended⟩, hmem, hcache⟩ :=
    shutdown_leaves (cause := 1) (t := x) (by decide) (roundMax_chan hx) (roundWarned rs s)
  rw [roundTripped_trips hx hhot hlatched] at hchanges hget
  rw [hcmds] at hended
  generalize (shutdown 1 x).run (roundWarned rs s) = u at *
  generalize (housekeeping rs).run s = t at *
  dsimp only
  refine ⟨?_, (hget _ (fits rfl) (.inl rfl)).trans hcause, (hget _ (fits rfl) (.inl rfl)).trans hchan,
    (hget _ (fits rfl) (.inl rfl)).trans hreading, (hget _ (fits rfl) (.inr (.inl rfl))).trans hstate, ?_, ?_, ?_, fun a => ?_, fun k _ => ?_,
    fun l hl => ?_⟩
  · rw [State.bit, hget _ (fits rfl) (.inl rfl)]
    exact hlatch
  · rw [State.bit, hget _ (fits rfl) (.inr (.inr (.inl rfl)))]
    exact hasserted
  · rwa [hchanges.same_cmds (by simp [soundParts])]
  · rwa [hchanges.same_cmds (by simp [soundParts])]
  · rw [State.memAt, hchanges.same_mem (by simp [soundParts]), hmem]
    rfl
  · rw [State.cacheAt, hchanges.same_cache (by simp [soundParts]), hcache]
    rfl
  · rw [State.gwUp, regBit_eq_bit, State.bit, hget _ ⟨Nat.one_pos, Nat.le_trans (Nat.succ_le_of_lt hl) (by decide)⟩ (.inr (.inr (.inr rfl))),
      hup l hl]
    rfl

end

end Sys2Proof.Proofs

/-! Thermal shutdown and throttle (R482–R492). -/

namespace Sys2Proof.Proofs
open Sys2Proof.Machine Sys2Proof.Claims

section
variable {rs : List (BitVec 32)} {s : State}

/-- The causes of a round that had not stood before it. -/
def newTemp (rs : List (BitVec 32)) (s : State) : Prop := tempNow rs s = true ∧ s.gov.standing.testBit 0 = false

def newPower (rs : List (BitVec 32)) (s : State) : Prop :=
  overNow rs s (s.get R.PWR_LIMIT_limit_w) = true ∧ s.gov.standing.testBit 1 = false

def newFlow (rs : List (BitVec 32)) (s : State) : Prop := flowNow rs s = true ∧ s.gov.standing.testBit 3 = false

theorem governor_begins (hon : s.power = .on) (hcalm : noTrip s rs) (hstanding : s.gov.standing < 16)
    (hnew : newTemp rs s ∨ newPower rs s ∨ newFlow rs s) (hreq : s.bit R.PWR_THROTTLE_request = false) : let t := (housekeeping rs).run s
    let forced := noKind (s.reading rs) s.diesOff = true
    let limit := s.get R.PWR_LIMIT_limit_w
    t.bit R.PWR_THROTTLE_request = true ∧ t.bit (R.EVC_ROUTE_asserted 0x711) = true ∧
    t.get R.PWR_COUNTS_requests = min (s.get R.PWR_COUNTS_requests + 1) (2 ^ R.PWR_COUNTS_requests.w - 1) ∧
    (newTemp rs s → powers s rs ≠ [] → t.get R.PWR_LIMIT_target_w =
      max 1000 (min (85 * (powers s rs).sum / (100 * (powers s rs).length) / 10 * 10) limit)) ∧
    (¬newTemp rs s → t.get R.PWR_LIMIT_target_w = limit) ∧
    ((newTemp rs s ∨ newPower rs s) ∧ ¬forced → t.bit R.PWR_THROTTLE_grace = true ∧
      t.gov.graceEnd = some (roundTime s + s.get R.THM_GRACE_grace_ms * 1000000)) ∧
    (forced ∨ newFlow rs s → t.get R.PWR_THROTTLE_level = 3 ∧ (s.get R.PWR_THROTTLE_level ≠ 3 → enforced 3 t)) := by
  obtain ⟨htemp, hflow, htimed, hany⟩ := raised_iff (rs := rs) hstanding
  obtain ⟨hrequest, hasserted, hcount, htarget, hgrace, hlevel⟩ := round_begins hon hcalm hstanding hreq (hany.2 hnew)
  dsimp only
  refine ⟨hrequest, hasserted, hcount, fun h hne => ?_, fun h => ?_, fun ⟨h, hforced⟩ => hgrace ?_, fun h => hlevel ?_⟩
  · have hfull : (powers s rs).isEmpty = false := by rwa [List.isEmpty_eq_false_iff]
    rw [htarget, if_pos (htemp.2 h), powerMean, hfull, if_neg Bool.false_ne_true]
  · rw [htarget, if_neg fun hbit => h (htemp.1 hbit)]
  · rw [htimed.2 h, Bool.eq_false_iff.2 hforced]
    rfl
  · rw [Bool.or_eq_true]
    exact h.imp id fun h => hflow.2 h

theorem raised_none (hstanding : s.gov.standing < 16) (htemp : ¬newTemp rs s) (hpower : ¬newPower rs s) (hflow : ¬newFlow rs s) :
    roundRaised rs s = 0 := by
  by_contra h
  exact ((raised_iff hstanding).2.2.2.1 h).elim htemp fun h => h.elim hpower hflow

theorem housekeepingGovernor : Claims.HousekeepingGovernor := by
  intro rs s hon
  have hpow : s.power ≠ .off := by
    rw [hon]
    decide
  have hdone : ∀ {P : State → Prop}, P ((housekeeping rs).run s) → yields (.housekeepingRound rs) s P := fun h =>
    yields_done (p := housekeeping rs) rfl hpow h
  have hkinds : noKind (s.reading rs) s.diesOff ≠ true → noKind (s.reading rs) s.diesOff = false := Bool.eq_false_iff.2
  have hflows := flowNow_iff (rs := rs) (s := s)
  rw [roundTime] at hflows
  dsimp only
  rw [← overNow_iff, ← hflows, ← tempNow_iff (rs := rs) (s := s)]
  refine ⟨fun x hx hhot hlatched => hdone (round_shuts hon hx hhot hlatched),
    fun ⟨hcalm, hstanding⟩ hnew hreq => hdone (governor_begins hon hcalm hstanding hnew hreq),
    fun ⟨hcalm, hstanding⟩ hlevel hforced hflow htemp hpower hgrace hreq => ?_, fun ⟨hcalm, hstanding⟩ hpos hforced hflow => ?_⟩
  · obtain ⟨hends, henforces, hwaits⟩ := round_enforces hon hcalm (raised_none hstanding htemp hpower hflow) (hkinds hforced) hlevel hgrace hreq
    refine ⟨fun hnone => hdone (hends (causes_zero.2 ?_)), fun hstands hover => hdone (henforces ?_ ?_), fun hstands hover => hdone (hwaits ?_ ?_)⟩
    · exact hnone
    · exact fun h0 => causes_zero.1 h0 hstands
    · exact (overNow_iff _).2 hover
    · exact fun h0 => causes_zero.1 h0 hstands
    · exact Bool.eq_false_iff.2 fun h => hover ((overNow_iff _).1 h)
  · obtain ⟨hrises, hfalls, hstays⟩ := round_steps hon hcalm (Nat.ne_of_gt hpos) (hkinds hforced)
      (Bool.eq_false_iff.2 fun h => hflow ((raised_iff hstanding).2.1.1 h))
    have hrise : mayRise rs s ↔ ((∃ x, roundMax s rs = some x ∧ 102 * 16 ≤ x.1) ∨ overNow rs s (s.get R.PWR_LIMIT_limit_w) = true) ∧
        max (s.gov.hotSince.getD (roundTime s)) s.gov.levelAt + 10000000 ≤ roundTime s := by
      rw [mayRise, hotNow_iff (hkinds hforced), overNow_iff]
    have hfall : mayFall rs s ↔ ((∃ x, roundMax s rs = some x ∧ x.1 ≤ 97 * 16) ∧
        10 * (powers s rs).sum ≤ 9 * s.get R.PWR_LIMIT_limit_w * (powers s rs).length ∧ s.book100 ≤ 90 * s.get R.PWR_LIMIT_limit_w ∧
        (∃ f, roundFlow s rs = some f ∧ 2500 ≤ f) ∧ ¬s.gov.standing.testBit 2 = true) ∧
        max (s.gov.coolSince.getD (roundTime s)) s.gov.levelAt + 50000000 ≤ roundTime s := by
      rw [mayFall, coolRound, coolNow_iff, hkinds hforced, Bool.not_eq_true]
      simp only [true_and, and_assoc]
    exact ⟨fun hr h3 => hdone (hrises (hrise.2 hr) h3), fun hf => hdone (hfalls (hfall.2 hf)),
      fun hr hf => hdone (hstays (fun h => hr ⟨hrise.1 h.1, h.2⟩) fun h => hf (hfall.1 h))⟩

end

/-- Settles O53: a round is a chain of steps each of which writes its own fields; without a shutdown the throttle acts on the causes that
the measured state calls for, and the fields of the throttle stand to the end of the round. -/
theorem housekeepingControl : Obligations.HousekeepingControl := ⟨housekeepingGovernor, throttleTimers⟩

end Sys2Proof.Proofs

/-! What a housekeeping round shows stands to its end: the fields that its later steps leave (R493). -/

namespace Sys2Proof.Proofs
open Sys2Proof.Machine Sys2Proof.Claims

/-- A field of a register that a round shows, other than its counts, the coolant's figures, the soundings and the shutdown. -/
def shownField (f : Fld) : Prop :=
  shownKey f.key ∧ f.key ≠ R.THM_SHUTDOWN ∧ f.key ≠ R.THM_COUNTS ∧ f.key ≠ R.THM_COOL ∧ ∀ c < 128, f.key ≠ R.THM_SOUND c

/-- The fields of THM_STATUS that the throttle and the cooling checks write. -/
def statusApart (f : Fld) : Prop := apart R.THM_STATUS_temp_cause f ∧ apart R.THM_STATUS_cooling_degraded f

theorem statusApart_of_key {f : Fld} (h : f.key ≠ R.THM_STATUS) : statusApart f := ⟨apart_of_key h, apart_of_key h⟩

section
variable {f : Fld}

theorem shownKey_state (h : shownKey f.key) : f.key = R.PWR_STATE → f = R.PWR_STATE_state := fun he =>
  absurd he.symm (shownKey_ne h (show otherKey R.PWR_STATE by decide))

theorem shownKey_event (h : shownKey f.key) : ¬ eventKey f.key := fun he => by
  simp only [shownKey, R.VLT_BAND, R.EVC_ROUTE, eventKey, rk] at h he
  omega

theorem event_shown (h : shownKey f.key) (g : Fld) (hg : eventField g) : apart g f := eventField_apart (shownKey_state h) (shownKey_event h) g hg

theorem throttle_shown (h : shownField f) (htemp : apart R.THM_STATUS_temp_cause f) (g : Fld) (hg : throttleField g) : apart g f := by
  obtain ⟨hkey, -, hcounts, -, -⟩ := h
  have hother : otherKey g.key → apart g f := fun hk => otherField_apart hkey hk
  rcases hg with hg | hg | hg | rfl | hg | rfl | hg | ⟨u, hu, rfl⟩ | rfl | hg
  · exact hother (hg ▸ (by decide : otherKey R.PWR_LEVEL_MS))
  · exact hother (hg ▸ (by decide : otherKey R.PWR_INPUT))
  · exact hother (hg ▸ (by decide : otherKey R.PWR_THROTTLE))
  · exact hother (by decide : otherKey R.PWR_LIMIT)
  · exact hother (hg ▸ (by decide : otherKey R.PWR_COUNTS))
  · exact htemp
  · exact apart_of_key fun he => hcounts (he.trans hg)
  · refine hother ?_
    simp only [otherKey, R.BU_DUTY_duty, R.BU_DUTY, rk]
    omega
  · exact hother (by decide : otherKey (R.EVC_ROUTE 0x711))
  · exact event_shown hkey g hg

theorem sound_shown (h : shownField f) (g : Fld) (hg : soundField g) : apart g f := by
  obtain ⟨hkey, -, hcounts, -, hsound⟩ := h
  have hother : otherKey g.key → apart g f := fun hk => otherField_apart hkey hk
  rcases hg with ⟨c, hc, hg⟩ | hg | hg | hg | hg
  · exact apart_of_key fun he => hsound c hc (he.trans hg)
  · exact hother (hg ▸ (by decide : otherKey R.CHT_STATUS))
  · exact hother (hg ▸ (by decide : otherKey R.CHT_STAGED_ID))
  · exact apart_of_key fun he => hcounts (he.trans hg)
  · exact event_shown hkey g hg

theorem cool_shown (h : shownKey f.key) (hcool : f.key ≠ R.THM_COOL) (hdegraded : apart R.THM_STATUS_cooling_degraded f) (g : Fld)
    (hg : coolField g) : apart g f := by
  rcases hg with hg | rfl | rfl | hg
  · exact apart_of_key fun he => hcool (he.trans hg)
  · exact hdegraded
  · exact otherField_apart h (by decide : otherKey (R.EVC_ROUTE 0x714))
  · exact event_shown h g hg

/-- A field of the thermal page that the thresholds leave. -/
theorem threshold_shown (h : shownField f) (hroute : f.key ≠ R.EVC_ROUTE 0x712)
    (hstatus : apart R.THM_STATUS_t_max f ∧ apart R.THM_STATUS_t_max_chan f ∧ apart R.THM_STATUS_warning f) (g : Fld)
    (hg : thresholdField g) : apart g f := by
  obtain ⟨hkey, -, hcounts, -, -⟩ := h
  obtain ⟨hmax, hchan, hwarning⟩ := hstatus
  rcases hg with rfl | rfl | rfl | hg | rfl | hg
  · exact hmax
  · exact hchan
  · exact hwarning
  · exact apart_of_key fun he => hcounts (he.trans hg)
  · exact apart_of_key hroute
  · exact event_shown hkey g hg

theorem band_shown (h : 0x100A0000 ≤ f.key ∧ f.key < 0x100B0000) (g : Fld) (hg : bandField g) : apart g f := by
  rcases hg with ⟨c, hc, hg | rfl⟩ | hg
  · refine apart_of_key fun he => ?_
    rw [he, hg, R.VLT_BAND, rk] at h
    omega
  · refine apart_of_key fun he => ?_
    rw [he] at h
    simp only [R.EVC_ROUTE_asserted, R.EVC_ROUTE, rk] at h
    omega
  · exact event_shown (.inl h) g hg

/-- A field of the thermal page that the checks of suspects leave. -/
theorem suspect_shown (h : 0x100A0000 ≤ f.key ∧ f.key < 0x100B0000) (hcounts : f.key ≠ R.THM_COUNTS)
    (hchan : (∀ ch < 256, f.key ≠ R.THM_CHAN ch) ∨ f.lo + f.w ≤ 34) (g : Fld) (hg : suspectField g) : apart g f := by
  have hkey : shownKey f.key := .inl h
  have hother : otherKey g.key → apart g f := fun hk => otherField_apart hkey hk
  rcases hg with ⟨ch, hch, hg⟩ | hg | hg | hg | rfl | hg
  · have hlow : ∀ {n w : Nat}, 34 ≤ n → g = ⟨R.THM_CHAN ch, n, w⟩ → apart g f := fun hn he => by
      rw [he]
      exact hchan.elim (fun hne => .inl (hne ch hch)) fun hle => .inr (.inr (Nat.le_trans hle hn))
    rcases hg with hg | hg | hg | hg
    · exact hlow (by decide) hg
    · exact hlow (by decide) hg
    · exact hlow (by decide) hg
    · exact hlow (by decide) hg
  · exact apart_of_key fun he => hcounts (he.trans hg)
  · exact hother (hg ▸ (by decide : otherKey R.SVC_REPLACE))
  · exact hother (hg ▸ (by decide : otherKey R.SVC_REPLACE_LAST))
  · exact hother (by decide : otherKey (R.EVC_ROUTE 0x710))
  · exact event_shown hkey g hg

end

/-! From a step of the round to its end -/

section
variable {rs : List (BitVec 32)} {s : State} {f : Fld}

/-- A shutdown leaves what the round shows. -/
theorem roundTripped_get (hf : Fits f) (h : shownKey f.key) (hne : f.key ≠ R.THM_SHUTDOWN) : (roundTripped rs s).get f = (roundWarned rs s).get f := by
  rw [roundTripped, tripStep, Eff.run_look]
  cases htrip : shutdownTrip (roundMax s rs) (hottest (gddrOver (s.reading rs))) (hottest (stageOver (s.reading rs))) with
  | none => exact congrArg (fun u : State => u.get f) (Eff.run_skip _)
  | some x =>
    obtain ⟨cause, t⟩ := x
    dsimp only
    cases !(roundWarned rs s).bit R.THM_SHUTDOWN_latched
    · rw [Eff.run_when_false]
    · rw [Eff.run_when_true]
      exact shutdown_get cause t hf h hne _

theorem roundTripped_changes :
    changesOnly (.regs :: .cmds :: .cache :: .mem :: .check :: .marks :: lossParts) (roundWarned rs s) (roundTripped rs s) := by
  rw [roundTripped, tripStep, Eff.run_look]
  cases htrip : shutdownTrip (roundMax s rs) (hottest (gddrOver (s.reading rs))) (hottest (stageOver (s.reading rs))) with
  | none =>
    dsimp only
    rw [Eff.run_skip]
    exact changesOnly_refl _ _
  | some x =>
    obtain ⟨cause, t⟩ := x
    dsimp only
    cases !(roundWarned rs s).bit R.THM_SHUTDOWN_latched
    · rw [Eff.run_when_false]
      exact changesOnly_refl _ _
    · rw [Eff.run_when_true]
      exact shutdown_changes cause t _

theorem final_of_cooled (hon : s.power = .on) (hf : Fits f) (h : ∀ g, eventField g → apart g f) :
    ((housekeeping rs).run s).get f = (roundCooled rs s).get f := by
  rw [housekeeping_run hon, (writes_marginal ..).get hf h]

/-- The throttle leaves what the round shows, after a shutdown too. -/
theorem roundThrottled_get (hf : Fits f) (h : shownField f) (htemp : apart R.THM_STATUS_temp_cause f) :
    (roundThrottled rs s).get f = (roundWarned rs s).get f := by
  rw [roundThrottled, (writes_throttleStep ..).get hf (throttle_shown h htemp), roundTripped_get hf h.1 h.2.1]

theorem roundSounded_get (hf : Fits f) (h : shownField f) : (roundSounded rs s).get f = (roundThrottled rs s).get f := by
  rw [roundSounded, (writes_soundStep _).get hf (sound_shown h)]

theorem final_of_sounded (hon : s.power = .on) (hf : Fits f) (h : shownKey f.key) (hcool : f.key ≠ R.THM_COOL)
    (hdegraded : apart R.THM_STATUS_cooling_degraded f) : ((housekeeping rs).run s).get f = (roundSounded rs s).get f := by
  rw [final_of_cooled hon hf (event_shown h), roundCooled, (writes_coolStep ..).get hf (cool_shown h hcool hdegraded)]

theorem final_of_warned (hon : s.power = .on) (hf : Fits f) (h : shownField f) (hstatus : statusApart f) :
    ((housekeeping rs).run s).get f = (roundWarned rs s).get f := by
  rw [final_of_sounded hon hf h.1 h.2.2.2.1 hstatus.2, roundSounded_get hf h, roundThrottled_get hf h hstatus.1]

theorem final_of_banded (hon : s.power = .on) (hf : Fits f) (h : shownField f) (hstatus : statusApart f) (hroute : f.key ≠ R.EVC_ROUTE 0x712)
    (hmax : apart R.THM_STATUS_t_max f ∧ apart R.THM_STATUS_t_max_chan f ∧ apart R.THM_STATUS_warning f) :
    ((housekeeping rs).run s).get f = (roundBanded rs s).get f := by
  rw [final_of_warned hon hf h hstatus, roundWarned, (writes_thresholdSet ..).get hf (threshold_shown h hroute hmax)]

theorem final_of_published (hon : s.power = .on) (hf : Fits f) (hpage : 0x100A0000 ≤ f.key ∧ f.key < 0x100B0000) (h : shownField f)
    (hstatus : statusApart f) (hmax : apart R.THM_STATUS_t_max f ∧ apart R.THM_STATUS_t_max_chan f ∧ apart R.THM_STATUS_warning f)
    (hchan : (∀ ch < 256, f.key ≠ R.THM_CHAN ch) ∨ f.lo + f.w ≤ 34) : ((housekeeping rs).run s).get f = (roundPublished rs s).get f := by
  have hroute : f.key ≠ R.EVC_ROUTE 0x712 := fun he => by
    rw [he] at hpage
    exact absurd hpage.1 (by decide)
  rw [final_of_banded hon hf h hstatus hroute hmax, roundBanded, (writes_bandStep _).get hf (band_shown hpage), roundSuspected,
    (writes_suspectStep ..).get hf (suspect_shown hpage h.2.2.1 hchan)]

end

end Sys2Proof.Proofs

/-! The time of a round, its number and the readings that it publishes (R484, R493). -/

namespace Sys2Proof.Proofs
open Sys2Proof.Machine Sys2Proof.Claims


/-! The time of the round -/

/-- The effect leaves the time of the last round. -/
def KeepsRoundAt (p : Eff) : Prop := ∀ s, (p.run s).gov.roundAt = s.gov.roundAt

theorem KeepsRoundAt.seq {p q : Eff} (hp : KeepsRoundAt p) (hq : KeepsRoundAt q) : KeepsRoundAt (.seq p q) := fun s => by
  rw [Eff.run_seq, hq, hp]

theorem KeepsRoundAt.when {b : Bool} {p : Eff} (hp : KeepsRoundAt p) : KeepsRoundAt (Eff.when b p) := fun s => by
  cases b
  · rw [Eff.run_when_false]
  · rw [Eff.run_when_true, hp]

theorem keepsRoundAt_levelPut (n : Nat) : KeepsRoundAt (levelPut n) := fun s => by
  obtain ⟨x, hx⟩ := levelPut_gov n s
  rw [hx]

theorem keepsRoundAt_requestEnd : KeepsRoundAt requestEnd := fun s => by
  obtain ⟨-, -, hgov⟩ := requestEnd_leaves s
  rw [hgov]

theorem keepsRoundAt_causeRaise (bits : Nat) (timed : Bool) : KeepsRoundAt (causeRaise bits timed) := fun s => by
  obtain ⟨e, he⟩ := causeRaise_gov bits timed s
  rw [he]

theorem keepsRoundAt_enforceFirst : KeepsRoundAt enforceFirst := fun s => by
  rw [enforceFirst, Eff.run_look]
  refine KeepsRoundAt.when ?_ s
  split
  · exact keepsRoundAt_requestEnd
  · exact (keepsRoundAt_levelPut 1).when

theorem keepsRoundAt_levelStep : KeepsRoundAt levelStep := fun s => by
  rw [levelStep, Eff.run_look]
  dsimp only
  split
  · exact keepsRoundAt_enforceFirst s
  · split
    · exact keepsRoundAt_levelPut _ s
    · exact ((keepsRoundAt_levelPut _).seq keepsRoundAt_requestEnd.when).when s

theorem keepsRoundAt_throttleAct (raised : Nat) (forced : Bool) : KeepsRoundAt (throttleAct raised forced) := by
  refine (keepsRoundAt_causeRaise _ _).when.seq ?_
  split
  · exact keepsRoundAt_levelPut 3
  · exact keepsRoundAt_levelStep

theorem keepsRoundAt_throttleStep (t : Option (Int × Nat)) (forced : Bool) (flow pIn : Option Nat) :
    KeepsRoundAt (throttleStep t forced flow pIn) := fun s => by
  have hjudged := judgedOf_gov (measured flow pIn s) t forced flow
  have hmeasured := measured_gov flow pIn s
  rw [throttleStep_run, (writes_graceShow.changes _).same_gov (by simp), keepsRoundAt_throttleAct]
  generalize judgedOf (measured flow pIn s) t forced flow = X at *
  generalize measured flow pIn s = Y at *
  rw [hjudged, judgedGov, hmeasured]

section
variable {rs : List (BitVec 32)} {s : State}

theorem round_time (hon : s.power = .on) : ((housekeeping rs).run s).now = roundTime s ∧
    ((housekeeping rs).run s).gov.roundAt = roundTime s := by
  rw [housekeeping_run hon]
  refine ⟨?_, ?_⟩
  · rw [((writes_marginal ..).changes _).same_now (by simp), roundCooled, ((writes_coolStep ..).changes _).same_now (by simp [govParts]),
      roundSounded, ((writes_soundStep _).changes _).same_now (by simp [soundParts]), roundThrottled,
      ((writes_throttleStep ..).changes _).same_now (by simp [govParts]), roundTripped_changes.same_now (by simp [lossParts]), roundWarned_now]
    rfl
  · obtain ⟨log, good, hcool⟩ := coolStep_gov (s.reading rs) (roundFlow s rs) (roundPower s rs) (roundSounded rs s)
    obtain ⟨b, w, hgov⟩ := roundWarned_gov rs s
    rw [((writes_marginal ..).changes _).same_gov (by simp), roundCooled, hcool, roundSounded,
      ((writes_soundStep _).changes _).same_gov (by simp [soundParts]), roundThrottled, keepsRoundAt_throttleStep,
      roundTripped_changes.same_gov (by simp [lossParts]), hgov]
    rfl

/-! The number of the round -/

theorem shownField_thm {f : Fld} (h : 0x100A0000 ≤ f.key ∧ f.key < 0x100A0808) : shownField f := by
  refine ⟨.inl ⟨h.1, by omega⟩, fun he => ?_, fun he => ?_, fun he => ?_, fun c _ he => ?_⟩ <;>
  · simp only [he, R.THM_SHUTDOWN, R.THM_COUNTS, R.THM_COOL, R.THM_SOUND, rk] at h
    omega

/-- The rest of publishing leaves the thermal page but for the round's number and the flow. -/
theorem publishRest_get (t u : State) {f : Fld} (hf : Fits f) (hpage : 0x100A0000 ≤ f.key ∧ f.key < 0x100A0808)
    (hround : apart R.THM_STATUS_round f) : ((publishRest t rs (t.reading rs)).run u).get f = u.get f := by
  refine (writes_publishRest ..).get hf (fun g hg => ?_) u
  have hkey : shownKey f.key := (shownField_thm hpage).1
  rcases hg with rfl | hg | hg | hg | hg
  · exact hround
  · refine apart_of_key fun he => ?_
    simp only [he, hg, R.THM_COOL, rk] at hpage
    omega
  · exact otherField_apart hkey (show otherKey g.key from hg ▸ (by decide : otherKey R.PWR_INPUT))
  · exact apart_of_key (by omega)
  · exact event_shown hkey g hg

/-- What publishing does after the round's number. -/
def publishLast (s : State) (rs : List (BitVec 32)) (g : Readings) : Eff := .all [
  Eff.each (List.range 24) fun d => put (R.GD_STATUS_temp d) ((g (196 + d / 2) (d % 2)).v / 16 % 256).toNat,
  put R.PWR_INPUT_v_in (halfWord (s.chanWord rs 218) 0 / 10),
  put R.THM_COOL_flow_ml (halfWord (s.chanWord rs 209) 0),
  roundSamples g]

theorem writes_publishLast (s : State) (rs : List (BitVec 32)) (g : Readings) :
    Writes publishParts (fun f => f.key ≠ R.THM_STATUS) (publishLast s rs g) := by
  have hput : ∀ (f : Fld) (x : Nat), f.key ≠ R.THM_STATUS → Writes publishParts (fun f => f.key ≠ R.THM_STATUS) (put f x) := fun f x h =>
    writes_put (W := fun f => f.key ≠ R.THM_STATUS) h x
  refine writes_cons (writes_each fun d _ => hput _ _ ?_) (writes_cons (hput _ _ (by decide)) (writes_cons (hput _ _ (by decide))
    (writes_cons (writes_roundSamples (fun f hf => ?_) g) writes_nil)))
  · simp only [R.GD_STATUS_temp, R.GD_STATUS, R.THM_STATUS, rk]
    omega
  · exact (shownKey_ne (k := R.THM_STATUS) (.inl (by decide)) (eventField_other f hf))

theorem round_number (hon : s.power = .on) :
    ((housekeeping rs).run s).get R.THM_STATUS_round = (s.get R.THM_STATUS_round + 1) % 2 ^ R.THM_STATUS_round.w := by
  have hpage : 0x100A0000 ≤ R.THM_STATUS_round.key ∧ R.THM_STATUS_round.key < 0x100A0808 := by decide
  rw [final_of_published hon (fits rfl) ⟨hpage.1, by decide⟩ (shownField_thm hpage) ⟨.inr (.inl (by decide)), .inr (.inl (by decide))⟩
      ⟨.inr (.inl (by decide)), .inr (.inl (by decide)), .inr (.inl (by decide))⟩ (.inl fun ch hch => by
        simp only [R.THM_STATUS_round, R.THM_STATUS, R.THM_CHAN, rk]
        omega),
    roundPublished, publish_run, publishRest, Eff.run_all_cons]
  have hchans : Writes publishParts (fun f => f.key < R.THM_STATUS) (Eff.each (List.range 256) (chanPut s rs (s.reading rs))) :=
    writes_each fun ch hch => by
      have hlt := List.mem_range.1 hch
      have hput : ∀ (f : Fld) (x : Nat), f.key = R.THM_CHAN ch → Writes publishParts (fun f => f.key < R.THM_STATUS) (put f x) := fun f x h =>
        writes_put (W := fun f => f.key < R.THM_STATUS) (by
          simp only [h, R.THM_CHAN, R.THM_STATUS, rk]
          omega) x
      exact writes_cons (hput _ _ rfl) (writes_cons (hput _ _ rfl) (writes_cons (hput _ _ rfl) (writes_cons (hput _ _ rfl) writes_nil)))
  have hclock := roundClock_get (s := s) R.THM_STATUS_round
  have hkept := hchans.get (fits rfl : Fits R.THM_STATUS_round) (fun g hg => apart_of_key (Nat.ne_of_gt hg)) (roundClock s)
  generalize (Eff.each (List.range 256) (chanPut s rs (s.reading rs))).run (roundClock s) = u at *
  have hlast := (writes_publishLast s rs (s.reading rs)).get (fits rfl : Fits R.THM_STATUS_round) (fun g hg => apart_of_key fun he => hg he.symm)
    ((addWrap R.THM_STATUS_round 1).run u)
  rw [publishLast] at hlast
  rw [hlast, addWrap_same _ _ _ (by decide), hkept, hclock]

/-! The readings -/

/-- The readings of a channel and their missing marks, as published. -/
def chanShows (s : State) (rs : List (BitVec 32)) (ch : Nat) (t : State) : Prop :=
  t.get (R.THM_CHAN_lo ch) = halfWord (s.chanWord rs ch) 0 ∧ t.get (R.THM_CHAN_hi ch) = halfWord (s.chanWord rs ch) 1 ∧
  t.bit (R.THM_CHAN_lo_missing ch) = (s.reading rs ch 0).missing ∧ t.bit (R.THM_CHAN_hi_missing ch) = (s.reading rs ch 1).missing

theorem chanPut_shows (ch : Nat) (t : State) : chanShows s rs ch ((chanPut s rs (s.reading rs) ch).run t) := by
  have hlt : ∀ half, halfWord (s.chanWord rs ch) half < 2 ^ 16 := fun half => Nat.mod_lt _ (by decide)
  have hbit : ∀ b : Bool, (if b then 1 else 0) < 2 ^ 1 := by decide
  have hread : ∀ b : Bool, ((if b then 1 else 0) == 1) = b := by decide
  rw [chanPut]
  simp only [Eff.run_all_cons, Eff.run_all_nil]
  refine ⟨?_, ?_, ?_, ?_⟩
  · simp (disch := (
    try simp only [apart, farKey, R.THM_CHAN_lo, R.THM_CHAN_hi, R.THM_CHAN_lo_missing, R.THM_CHAN_hi_missing, R.THM_CHAN, rk]
    omega)) only [get_put_apart, putBit]
    exact put_same_of_lt (by simp [R.THM_CHAN_lo]) (hlt 0) _
  · simp (disch := (
    try simp only [apart, farKey, R.THM_CHAN_lo, R.THM_CHAN_hi, R.THM_CHAN_lo_missing, R.THM_CHAN_hi_missing, R.THM_CHAN, rk]
    omega)) only [get_put_apart, putBit]
    exact put_same_of_lt (by simp [R.THM_CHAN_hi]) (hlt 1) _
  · rw [State.bit]
    simp (disch := (
      try simp only [apart, farKey, R.THM_CHAN_lo, R.THM_CHAN_hi, R.THM_CHAN_lo_missing, R.THM_CHAN_hi_missing, R.THM_CHAN, rk]
      omega)) only [get_put_apart, putBit]
    rw [put_same_of_lt (by simp [R.THM_CHAN_lo_missing]) (hbit _)]
    exact hread _
  · rw [State.bit, putBit, put_same_of_lt (by simp [R.THM_CHAN_hi_missing]) (hbit _)]
    exact hread _

theorem chanShows_of_get {ch : Nat} {t u : State} (h : chanShows s rs ch t)
    (hget : ∀ f, Fits f → f.key = R.THM_CHAN ch → f.lo + f.w ≤ 34 → u.get f = t.get f) : chanShows s rs ch u := by
  obtain ⟨hlo, hhi, hlom, hhim⟩ := h
  refine ⟨(hget _ (fits rfl) rfl (by decide : 0 + 16 ≤ 34)).trans hlo, (hget _ (fits rfl) rfl (by decide : 16 + 16 ≤ 34)).trans hhi, ?_, ?_⟩
  · rwa [State.bit, hget _ (fits rfl) rfl (by decide : 32 + 1 ≤ 34)]
  · rwa [State.bit, hget _ (fits rfl) rfl (by decide : 33 + 1 ≤ 34)]

theorem chans_show (t : State) : ∀ ch ∈ List.range 256, chanShows s rs ch ((Eff.each (List.range 256) (chanPut s rs (s.reading rs))).run t) :=
  run_each_establishes (P := chanShows s rs) chanPut_shows (fun x y t hx => by
    by_cases hxy : x = y
    · rw [hxy]
      exact chanPut_shows y t
    · refine chanShows_of_get hx fun f hf hk _ => ?_
      have hput : ∀ g n, g.key = R.THM_CHAN y → ∀ u : State, ((put g n).run u).get f = u.get f := fun g n hg u =>
        get_put_apart (apart_of_key (by
          rw [hk, hg]
          simp only [R.THM_CHAN, rk]
          omega)) hf.2 n u
      rw [chanPut]
      simp only [Eff.run_all_cons, Eff.run_all_nil, putBit]
      rw [hput _ _ rfl, hput _ _ rfl, hput _ _ rfl, hput _ _ rfl]) _ t

theorem round_shows (hon : s.power = .on) {ch : Nat} (hch : ch < 256) : chanShows s rs ch ((housekeeping rs).run s) := by
  refine chanShows_of_get (chans_show (roundClock s) ch (List.mem_range.2 hch)) fun f hf hk hlow => ?_
  have hpage : 0x100A0000 ≤ f.key ∧ f.key < 0x100A0800 := by
    rw [hk]
    simp only [R.THM_CHAN, rk]
    omega
  have hstatus : ∀ g : Fld, g.key = R.THM_STATUS → apart g f := fun g hg => apart_of_key fun he => by
    simp only [he, hg, R.THM_STATUS, rk] at hpage
    omega
  have hwide : 0x100A0000 ≤ f.key ∧ f.key < 0x100A0808 := ⟨hpage.1, by omega⟩
  rw [final_of_published hon hf ⟨hpage.1, by omega⟩ (shownField_thm hwide) ⟨hstatus _ rfl, hstatus _ rfl⟩
      ⟨hstatus _ rfl, hstatus _ rfl, hstatus _ rfl⟩ (.inr hlow), roundPublished, publish_run, publishRest_get s _ hf hwide (hstatus _ rfl)]

end

end Sys2Proof.Proofs

/-! The bands, t_max and the warnings of a round (R189, R190, R487). -/

namespace Sys2Proof.Proofs
open Sys2Proof.Machine Sys2Proof.Claims

/-! One element of a list of effects -/

/-- When the effect of one element changes a view of the state and the others leave the view, all together change it once. -/
theorem run_each_once {α β : Type} {V : State → β} {F : β → β} {f : α → Eff} {x : α} {xs : List α} (hnodup : xs.Nodup) (hx : x ∈ xs)
    (hown : ∀ s, V ((f x).run s) = F (V s)) (hother : ∀ y ∈ xs, y ≠ x → ∀ s, V ((f y).run s) = V s) (s : State) :
    V ((Eff.each xs f).run s) = F (V s) := by
  have hstay : ∀ ys : List α, (∀ y ∈ ys, y ∈ xs ∧ y ≠ x) → ∀ t, V ((Eff.each ys f).run t) = V t := fun ys => by
    induction ys with
    | nil => exact fun _ _ => rfl
    | cons y rest ih =>
      intro hys t
      obtain ⟨⟨hy, hne⟩, hrest⟩ := List.forall_mem_cons.1 hys
      rw [Eff.run_each_cons, ih hrest, hother y hy hne]
  obtain ⟨pre, post, rfl⟩ := List.append_of_mem hx
  have hpre : ∀ y ∈ pre, y ≠ x := fun y hy he => (List.nodup_append.1 hnodup).2.2 y hy x List.mem_cons_self he
  have hpost : ∀ y ∈ post, y ≠ x := fun y hy he => (List.nodup_cons.1 (List.nodup_append.1 hnodup).2.1).1 (he ▸ hy)
  have hsplit : ∀ (ys zs : List α) (t : State), (Eff.each (ys ++ zs) f).run t = (Eff.each zs f).run ((Eff.each ys f).run t) := fun ys zs => by
    induction ys with
    | nil => exact fun _ => rfl
    | cons y rest ih => exact fun t => by rw [List.cons_append, Eff.run_each_cons, ih, Eff.run_each_cons]
  rw [hsplit, Eff.run_each_cons, hstay post fun y hy => ⟨List.mem_append_right _ (List.mem_cons_of_mem _ hy), hpost y hy⟩, hown,
    hstay pre fun y hy => ⟨List.mem_append_left _ hy, hpre y hy⟩]

/-! The band of a reading -/

theorem bandNext_eq (first : Bool) (old : Nat) (t : Int) : bandNext first old t = bandAfter first old t := by
  rw [bandNext, bandAfter, bandRise, bandFall]
  simp only [Bool.or_eq_true, decide_eq_true_eq]

theorem bandNext_lt {first : Bool} {old : Nat} {t : Int} (h : old < 4) : bandNext first old t < 4 := by
  have hrise : bandRise t < 4 := by
    rw [bandRise]
    split_ifs <;> decide
  rw [bandNext]
  split_ifs <;> omega

theorem highest_cons (x : Int) (xs : List Int) : highest (x :: xs) = some (xs.foldl max x) := by
  have hfold : ∀ (ys : List Int) (y : Int),
      ys.foldl (fun m t => match m with | none => some t | some x => some (max x t)) (some y) = some (ys.foldl max y) := fun ys => by
    induction ys with
    | nil => exact fun _ => rfl
    | cons z rest ih => exact fun y => ih (max y z)
  exact hfold xs x

/-- The highest of some readings that are all there. -/
theorem highest_layers {ls : List Temp} (hne : ls ≠ []) (hthere : (ls.any fun t => t.missing || t.suspect) = false) (hlow : ∀ t ∈ ls, -32768 ≤ t.v) :
    (highest (ls.filterMap fun t => if t.missing then none else some t.v)).getD 0 = (ls.map fun t => t.v).foldl max (-32768) := by
  have hall : ls.filterMap (fun t => if t.missing then none else some t.v) = ls.map fun t => t.v := by
    rw [← List.filterMap_eq_map]
    refine List.filterMap_congr fun t ht => ?_
    have hpresent := List.any_eq_false.1 hthere t ht
    rw [Bool.not_eq_true, Bool.or_eq_false_iff] at hpresent
    rw [hpresent.1, if_neg Bool.false_ne_true]
    rfl
  rw [hall]
  cases ls with
  | nil => exact absurd rfl hne
  | cons t rest => rw [List.map_cons, highest_cons, Option.getD_some, List.foldl_cons, max_eq_right (hlow t List.mem_cons_self)]

theorem signed16_low (n : Nat) : -32768 ≤ signed16 n := by
  rw [signed16]
  split <;> omega

/-- The four layers above a cell. -/
def layers (g : Readings) (c : Nat) : List Temp := (List.range 4).map fun h => g (layerAt c h).1 (layerAt c h).2

/-- The band of a vault from the readings of its layers. -/
def bandOf (g : Readings) (c : Nat) (first : Bool) (old : Nat) : Nat :=
  if (layers g c).any fun t => t.missing || t.suspect then 3
  else bandNext first old ((highest ((layers g c).filterMap fun t => if t.missing then none else some t.v)).getD 0)

/-- A vault's band, its mark and what they depend on. -/
def bandView (c : Nat) (s : State) : Nat × Bool × Bool := (s.get (R.VLT_BAND_band c), s.bit (R.VLT_BAND_forced_worst c), s.gov.banded)

/-- What a band's step does to its view. -/
def bandMove (g : Readings) (c : Nat) (x : Nat × Bool × Bool) : Nat × Bool × Bool :=
  (bandOf g c (!x.2.2) x.1, (layers g c).any fun t => t.missing || t.suspect, x.2.2)


theorem band_late {c : Nat} {f g : Fld} (hc : c < 128) (hf : f.key = R.VLT_BAND c) (hg : eventField g ∨ g.key = R.EVC_ROUTE (c * 8 + 4)) :
    apart g f := by
  rcases hg with hg | hg
  · exact event_shown (.inr (.inl ⟨c, hc, hf⟩)) g hg
  · refine apart_of_key ?_
    simp only [hf, hg, R.VLT_BAND, R.EVC_ROUTE, rk]
    omega

theorem bandSet_view (g : Readings) {c : Nat} (hc : c < 128) (s : State) : bandView c ((bandSet g c).run s) = bandMove g c (bandView c s) := by
  have hold : s.get (R.VLT_BAND_band c) < 2 ^ 2 := get_lt s (R.VLT_BAND_band c)
  have hnew : bandOf g c (!s.gov.banded) (s.get (R.VLT_BAND_band c)) < 4 := by
    rw [bandOf]
    split
    · decide
    · exact bandNext_lt hold
  have hgov : ((bandSet g c).run s).gov = s.gov := ((writes_bandSet g hc).changes s).same_gov (by simp)
  have hlevel : ∀ (b : Bool) {f : Fld}, Fits f → f.key = R.VLT_BAND c → ∀ u : State, ((evLevel (c * 8 + 4) b).run u).get f = u.get f :=
    fun b f hf hk u => (writes_evLevel (ps := [.msix, .mgmtQ, .out]) (W := fun g => eventField g ∨ g.key = R.EVC_ROUTE (c * 8 + 4))
      (by simp [tells]) (fun _ h => .inl h) (.inr rfl) b).get hf (fun _ => band_late hc hk) u
  have hrise : ∀ (b : Bool) {f : Fld}, f.key = R.VLT_BAND c → f.lo + f.w ≤ 48 → ∀ u : State,
      ((Eff.when b (addSat (R.VLT_BAND_band_rises c) 1)).run u).get f = u.get f := fun b f hk hle u => by
    cases b
    · rw [Eff.run_when_false]
    · rw [Eff.run_when_true, get_addSat_apart (.inr (.inr hle)) (by omega)]
  have hbit : ∀ b : Bool, (if b then 1 else 0) < 2 ^ 1 := by decide
  have hread : ∀ b : Bool, ((if b then 1 else 0) == 1) = b := by decide
  refine Prod.ext ?_ (Prod.ext ?_ (congrArg Governor.banded hgov))
  · show ((bandSet g c).run s).get (R.VLT_BAND_band c) = bandOf g c (!s.gov.banded) (s.get (R.VLT_BAND_band c))
    rw [bandSet, Eff.run_look]
    simp only [Eff.run_all_cons, Eff.run_all_nil]
    rw [hlevel _ (fits rfl) rfl, hrise _ rfl (by decide : 0 + 2 ≤ 48)]
    simp (disch := (
      try simp only [apart, farKey, R.VLT_BAND_band, R.VLT_BAND_timing_ext, R.VLT_BAND_forced_worst, R.VLT_BAND_t_used,
        R.VLT_BAND_t_layer0, R.VLT_BAND_t_layer1, R.VLT_BAND_t_layer2, R.VLT_BAND_t_layer3, R.VLT_BAND_band_rises, R.VLT_BAND,
        rk]
      omega)) only [get_put_apart, putBit]
    exact put_same_of_lt (by simp [R.VLT_BAND_band]) hnew s
  · show ((bandSet g c).run s).bit (R.VLT_BAND_forced_worst c) = (layers g c).any fun t => t.missing || t.suspect
    rw [State.bit, bandSet, Eff.run_look]
    simp only [Eff.run_all_cons, Eff.run_all_nil]
    rw [hlevel _ (fits rfl) rfl, hrise _ rfl (by decide : 3 + 1 ≤ 48)]
    simp (disch := (
      try simp only [apart, farKey, R.VLT_BAND_band, R.VLT_BAND_timing_ext, R.VLT_BAND_forced_worst, R.VLT_BAND_t_used,
        R.VLT_BAND_t_layer0, R.VLT_BAND_t_layer1, R.VLT_BAND_t_layer2, R.VLT_BAND_t_layer3, R.VLT_BAND_band_rises, R.VLT_BAND,
        rk]
      omega)) only [get_put_apart, putBit]
    rw [put_same_of_lt (by simp [R.VLT_BAND_forced_worst]) (hbit _)]
    exact hread _

theorem bandSet_other (g : Readings) {c y : Nat} (hc : c < 128) (hy : y < 128) (hne : y ≠ c) (s : State) :
    bandView c ((bandSet g y).run s) = bandView c s := by
  have hkept : ∀ {f : Fld}, Fits f → f.key = R.VLT_BAND c → ((bandSet g y).run s).get f = s.get f := fun hf hk => by
    refine (writes_bandOne g y).get hf (fun g hg => ?_) s
    rcases hg with hg | rfl | hg
    · refine apart_of_key ?_
      simp only [hk, hg, R.VLT_BAND, rk]
      omega
    · refine apart_of_key ?_
      simp only [hk, R.EVC_ROUTE_asserted, R.EVC_ROUTE, R.VLT_BAND, rk]
      omega
    · exact event_shown (.inr (.inl ⟨c, hc, hk⟩)) g hg
  rw [bandView, bandView, hkept (fits rfl) rfl, State.bit, hkept (fits rfl) rfl, ← State.bit, ((writes_bandSet g hy).changes s).same_gov (by simp)]

end Sys2Proof.Proofs

/-! The bands, t_max and the warnings that a round leaves (R189, R190, R487). -/

namespace Sys2Proof.Proofs
open Sys2Proof.Machine Sys2Proof.Claims

section
variable {rs : List (BitVec 32)} {s : State}

/-! The bands -/

theorem roundSuspected_get {f : Fld} (hf : Fits f) (h : ∀ g, publishField g ∨ suspectField g → apart g f) :
    (roundSuspected rs s).get f = s.get f := by
  rw [roundSuspected, (writes_suspectStep ..).get hf fun g hg => h g (.inr hg), roundPublished,
    (writes_publish ..).get hf fun g hg => h g (.inl hg), roundClock_get]

theorem roundSuspected_off : (roundSuspected rs s).diesOff = s.diesOff := by
  rw [State.diesOff, State.diesOff, roundSuspected_get (fits rfl) fun g hg => early_apart (fun _ => rfl) (fun h => ?_) g (hg.imp_right .inl)]
  simp only [earlyKey, eventKey, R.PWR_STATE_state, R.PWR_STATE, R.THM_COOL, R.PWR_INPUT, R.THM_COUNTS, R.SVC_REPLACE, R.SVC_REPLACE_LAST, R.VLT_BAND,
    R.EVC_ROUTE, rk] at h
  omega

/-- The steps before the bands leave the registers of the bands. -/
theorem early_band {c : Nat} (hc : c < 128) {f : Fld} (hf : f.key = R.VLT_BAND c) (g : Fld) (hg : publishField g ∨ suspectField g) : apart g f := by
  have hkey : shownKey f.key := .inr (.inl ⟨c, hc, hf⟩)
  have hpage : 0x10000000 ≤ g.key → apart g f := fun h => apart_of_key (by
    simp only [hf, R.VLT_BAND, rk]
    omega)
  have hother : otherKey g.key → apart g f := otherField_apart hkey
  have hchan : ∀ {ch n w : Nat}, g = ⟨R.THM_CHAN ch, n, w⟩ → apart g f := fun he => hpage (by
    rw [he]
    simp only [R.THM_CHAN, rk]
    omega)
  rcases hg with (⟨ch, -, hg | hg | hg | hg⟩ | rfl | hg | hg | hg | hg) | (⟨ch, -, hg | hg | hg | hg⟩ | hg | hg | hg | rfl | hg)
  · exact hchan hg
  · exact hchan hg
  · exact hchan hg
  · exact hchan hg
  · exact hpage (by decide)
  · exact hpage (hg ▸ (by decide : 0x10000000 ≤ R.THM_COOL))
  · exact hpage (hg ▸ (by decide : 0x10000000 ≤ R.PWR_INPUT))
  · exact hpage (by omega)
  · exact event_shown hkey g hg
  · exact hchan hg
  · exact hchan hg
  · exact hchan hg
  · exact hchan hg
  · exact hpage (hg ▸ (by decide : 0x10000000 ≤ R.THM_COUNTS))
  · exact hpage (hg ▸ (by decide : 0x10000000 ≤ R.SVC_REPLACE))
  · exact hpage (hg ▸ (by decide : 0x10000000 ≤ R.SVC_REPLACE_LAST))
  · exact hpage (by decide)
  · exact event_shown hkey g hg

theorem roundSuspected_view {c : Nat} (hc : c < 128) : bandView c (roundSuspected rs s) = bandView c s := by
  have hget : ∀ {f : Fld}, Fits f → f.key = R.VLT_BAND c → (roundSuspected rs s).get f = s.get f := fun hf hk =>
    roundSuspected_get hf (early_band hc hk)
  rw [bandView, bandView, hget (fits rfl) rfl, State.bit, hget (fits rfl) rfl, ← State.bit, roundSuspected_gov]

theorem roundBanded_view (hoff : s.diesOff = false) {c : Nat} (hc : c < 128) :
    (roundBanded rs s).get (R.VLT_BAND_band c) = bandOf (s.reading rs) c (!s.gov.banded) (s.get (R.VLT_BAND_band c)) ∧
    (roundBanded rs s).bit (R.VLT_BAND_forced_worst c) = (layers (s.reading rs) c).any fun t => t.missing || t.suspect := by
  have hview := run_each_once (V := bandView c) (f := bandSet (s.reading rs)) List.nodup_range (List.mem_range.2 hc)
    (bandSet_view (s.reading rs) hc) (fun y hy hne => bandSet_other _ hc (List.mem_range.1 hy) hne) (roundSuspected rs s)
  rw [roundSuspected_view hc] at hview
  obtain ⟨hband, hforced⟩ := Prod.ext_iff.1 hview
  have hrun : roundBanded rs s = (Eff.look fun s => .upd (.gov { s.gov with banded := true })).run
      ((Eff.each (List.range 128) (bandSet (s.reading rs))).run (roundSuspected rs s)) := by
    rw [roundBanded, bandStep, Eff.run_look, roundSuspected_off, hoff, Bool.not_false, Bool.true_or, Eff.run_when_true, Eff.run_seq]
  rw [hrun, Eff.run_look, Eff.run_upd, State.bit, get_upd (by simp [Upd.part]), get_upd (by simp [Upd.part])]
  exact ⟨hband, (Prod.ext_iff.1 hforced).1⟩

theorem shownField_band {c : Nat} (hc : c < 128) {f : Fld} (hf : f.key = R.VLT_BAND c) : shownField f := by
  refine ⟨.inr (.inl ⟨c, hc, hf⟩), fun he => ?_, fun he => ?_, fun he => ?_, fun d _ he => ?_⟩ <;>
  · rw [hf] at he
    simp only [R.VLT_BAND, R.THM_SHUTDOWN, R.THM_COUNTS, R.THM_COOL, R.THM_SOUND, rk] at he
    omega

/-- A round sets every vault's band. -/
theorem round_bands (hon : s.power = .on) (hoff : s.diesOff = false) {c : Nat} (hc : c < 128) :
    ((housekeeping rs).run s).get (R.VLT_BAND_band c) = bandOf (s.reading rs) c (!s.gov.banded) (s.get (R.VLT_BAND_band c)) ∧
    ((housekeeping rs).run s).bit (R.VLT_BAND_forced_worst c) = (layers (s.reading rs) c).any fun t => t.missing || t.suspect := by
  obtain ⟨hband, hforced⟩ := roundBanded_view (rs := rs) hoff hc
  have hlow : R.VLT_BAND c < 0x10000000 := by
    simp only [R.VLT_BAND, rk]
    omega
  have hne : ∀ g : Fld, 0x10000000 ≤ g.key → ∀ f : Fld, f.key = R.VLT_BAND c → apart g f := fun g hg f hf => apart_of_key (by omega)
  have hfinal : ∀ f, Fits f → f.key = R.VLT_BAND c → ((housekeeping rs).run s).get f = (roundBanded rs s).get f := fun f hf hk =>
    final_of_banded hon hf (shownField_band hc hk) ⟨hne _ (by decide) f hk, hne _ (by decide) f hk⟩
      (fun he => by
        have hroute : 0x10000000 ≤ R.EVC_ROUTE 0x712 := by decide
        omega) ⟨hne _ (by decide) f hk, hne _ (by decide) f hk, hne _ (by decide) f hk⟩
  rw [State.bit, hfinal _ (fits rfl) rfl, hfinal _ (fits rfl) rfl]
  exact ⟨hband, hforced⟩

theorem bandOf_eq {g : Readings} (hlow : ∀ ch half, -32768 ≤ (g ch half).v) (c : Nat) (first : Bool) (old : Nat) :
    bandOf g c first old = (if (layers g c).any fun t => t.missing || t.suspect then 3
      else bandAfter first old (((layers g c).map fun t => t.v).foldl max (-32768))) := by
  rw [bandOf]
  cases hworst : (layers g c).any fun t => t.missing || t.suspect
  · rw [if_neg Bool.false_ne_true, if_neg Bool.false_ne_true, bandNext_eq, highest_layers (ls := layers g c) (List.cons_ne_nil _ _) hworst fun t ht => by
      obtain ⟨h, -, rfl⟩ := List.mem_map.1 ht
      exact hlow _ _]
  · rfl

/-! Warnings -/

/-- The warnings with one of them set as it is now. -/
def warnedWith (bit was : Nat) (now : Bool) : Nat :=
  if was.testBit bit == now then was else if now then was + 2 ^ bit else was - 2 ^ bit

theorem warnedWith_all {w : Nat} (hw : w < 8) (a b c : Bool) :
    (warnedWith 0 w a).testBit 1 = w.testBit 1 ∧ (warnedWith 1 (warnedWith 0 w a) b).testBit 2 = w.testBit 2 ∧
    (warnedWith 2 (warnedWith 1 (warnedWith 0 w a) b) c != 0) = (a || b || c) := by
  revert a b c
  interval_cases w <;> decide

theorem warnStep_warned (bit : Nat) (t : Option (Int × Nat)) (trip clear : Int) (u : State) : ((warnStep bit t trip clear).run u).gov.warned =
    warnedWith bit u.gov.warned (warnNext (u.gov.warned.testBit bit) t trip clear) := by
  rw [warnStep, Eff.run_look]
  dsimp only
  rw [Eff.run_seq, ((Eff.in_when (ps := [.regs]) (addSat_in _ _ (by simp))).changes _).same_gov (by simp), Eff.run_upd, Upd.run_gov, warnedWith]

/-- The warnings are shown, and their source follows them. -/
def warnShow : Eff := .look fun s => .seq (putBit R.THM_STATUS_warning (s.gov.warned != 0)) (evLevel 0x712 (s.gov.warned != 0))

/-- What the warnings write. -/
def warnField (g : Fld) : Prop := g.key = R.THM_COUNTS ∨ g = R.THM_STATUS_warning ∨ g = R.EVC_ROUTE_asserted 0x712 ∨ eventField g

theorem writes_warnOne (bit : Nat) (t : Option (Int × Nat)) (trip clear : Int) : Writes govParts warnField (warnStep bit t trip clear) :=
  writes_look fun _ => writes_seq (writes_upd (by simp [Upd.part, govParts]) (by simp [Upd.part])) (writes_when fun _ => writes_addSat (.inl rfl) _)

theorem writes_warnShow : Writes govParts warnField warnShow :=
  writes_look fun _ => writes_seq (writes_putBit (.inr (.inl rfl)) _) (writes_evLevel govTells (fun _ h => .inr (.inr (.inr h)))
    (.inr (.inr (.inl rfl))) _)

theorem warnShow_leaves (u : State) : (warnShow.run u).bit R.THM_STATUS_warning = (u.gov.warned != 0) ∧
    (warnShow.run u).bit (R.EVC_ROUTE_asserted 0x712) = (u.gov.warned != 0) := by
  have hread : ∀ b : Bool, ((if b then 1 else 0) == 1) = b := by decide
  have hbit : ∀ b : Bool, (if b then 1 else 0) < 2 ^ 1 := by decide
  rw [warnShow, Eff.run_look, Eff.run_seq]
  generalize (u.gov.warned != 0) = b
  refine ⟨?_, evLevel_asserted _ _ (by decide) _⟩
  rw [State.bit, (writes_evLevel (ps := govParts) (W := fun g => eventField g ∨ g = R.EVC_ROUTE_asserted 0x712) govTells (fun _ h => .inl h)
    (.inr rfl) b).get (fits rfl) (fun g hg => hg.elim (event_shown (.inl (by decide)) g) fun h => by
      rw [h]
      exact .inl (by decide)), putBit, put_same_of_lt (by decide) (hbit b)]
  exact hread b

/-- A warning of a round, with the hysteresis of R487. -/
def warnRound (s : State) (bit : Nat) (t : Option (Int × Nat)) (trip clear : Int) : Bool := warnNext (s.gov.warned.testBit bit) t trip clear

theorem roundBanded_warned : (roundBanded rs s).gov.warned = s.gov.warned := by
  obtain ⟨b, hb⟩ := bandStep_gov (s.reading rs) (roundSuspected rs s)
  have hgov := congrArg Governor.warned (roundSuspected_gov rs s)
  rw [roundBanded, hb]
  exact hgov

theorem thresholdSet_run (m d p : Option (Int × Nat)) (u : State) : (thresholdSet m d p).run u = warnShow.run
    ((warnStep 2 p (115 * 16) (110 * 16)).run ((warnStep 1 d (95 * 16) (90 * 16)).run ((warnStep 0 m (95 * 16) (90 * 16)).run ((maxShow m).run u)))) := by
  rw [thresholdSet, warnShow]
  simp only [Eff.run_all_cons, Eff.run_all_nil]

/-- The warnings of a round. -/
def warnAny (rs : List (BitVec 32)) (s : State) : Bool :=
  warnRound s 0 (roundMax s rs) (95 * 16) (90 * 16) || warnRound s 1 (hottest (gddrOver (s.reading rs))) (95 * 16) (90 * 16) ||
    warnRound s 2 (hottest (stageOver (s.reading rs))) (115 * 16) (110 * 16)

theorem maxShow_gov (m : Option (Int × Nat)) (u : State) : ((maxShow m).run u).gov = u.gov := by
  rcases m with _ | ⟨t, ch⟩
  · exact congrArg State.gov (Eff.run_skip u)
  · exact ((Eff.in_seq (ps := [.regs]) (put_in _ _ (by simp)) (put_in _ _ (by simp))).changes u).same_gov (by simp)

theorem roundWarned_warns (hwarned : s.gov.warned < 8) : (roundWarned rs s).bit R.THM_STATUS_warning = warnAny rs s ∧
    (roundWarned rs s).bit (R.EVC_ROUTE_asserted 0x712) = warnAny rs s := by
  have hzero := warnStep_warned 0 (roundMax s rs) (95 * 16) (90 * 16) ((maxShow (roundMax s rs)).run (roundBanded rs s))
  rw [maxShow_gov, roundBanded_warned] at hzero
  rw [roundWarned, thresholdSet_run]
  generalize (warnStep 0 (roundMax s rs) (95 * 16) (90 * 16)).run ((maxShow (roundMax s rs)).run (roundBanded rs s)) = u at *
  have hone := warnStep_warned 1 (hottest (gddrOver (s.reading rs))) (95 * 16) (90 * 16) u
  rw [hzero] at hone
  generalize (warnStep 1 (hottest (gddrOver (s.reading rs))) (95 * 16) (90 * 16)).run u = v at *
  have htwo := warnStep_warned 2 (hottest (stageOver (s.reading rs))) (115 * 16) (110 * 16) v
  rw [hone] at htwo
  generalize (warnStep 2 (hottest (stageOver (s.reading rs))) (115 * 16) (110 * 16)).run v = w at *
  have hany : (w.gov.warned != 0) = warnAny rs s := by
    rw [htwo, (warnedWith_all hwarned _ false false).1, (warnedWith_all hwarned _ _ false).2.1, (warnedWith_all hwarned ..).2.2]
    rfl
  obtain ⟨hshow, hroute⟩ := warnShow_leaves w
  exact ⟨hshow.trans hany, hroute.trans hany⟩

theorem round_warns (hon : s.power = .on) (hwarned : s.gov.warned < 8) : ((housekeeping rs).run s).bit R.THM_STATUS_warning = warnAny rs s ∧
    ((housekeeping rs).run s).bit (R.EVC_ROUTE_asserted 0x712) = warnAny rs s := by
  obtain ⟨hshow, hroute⟩ := roundWarned_warns (rs := rs) hwarned
  have hfield : shownField (R.EVC_ROUTE_asserted 0x712) := by
    refine ⟨.inr (.inr rfl), by decide, by decide, by decide, fun c _ he => ?_⟩
    simp only [R.EVC_ROUTE_asserted, R.EVC_ROUTE, R.THM_SOUND, rk] at he
    omega
  rw [State.bit, State.bit, final_of_warned hon (fits rfl) (shownField_thm (by decide)) ⟨.inr (.inr (by decide)), .inr (.inr (by decide))⟩,
    final_of_warned hon (fits rfl) hfield (statusApart_of_key (by decide))]
  exact ⟨hshow, hroute⟩

/-! t_max -/

theorem roundWarned_max {x : Int × Nat} (hx : roundMax s rs = some x) :
    (roundWarned rs s).get R.THM_STATUS_t_max = (x.1 % 2 ^ 16).toNat ∧ (roundWarned rs s).get R.THM_STATUS_t_max_chan = x.2 := by
  have hkept : ∀ {f : Fld}, Fits f → f.key = R.THM_STATUS → apart R.THM_STATUS_warning f → (roundWarned rs s).get f =
      ((put R.THM_STATUS_t_max_chan x.2).run ((put R.THM_STATUS_t_max (x.1 % 2 ^ 16).toNat).run (roundBanded rs s))).get f := fun {f} hf hk hw => by
    have hapart : ∀ g, warnField g → apart g f := fun g hg => by
      rcases hg with hg | rfl | rfl | hg
      · exact apart_of_key (by
          rw [hk, hg]
          decide)
      · exact hw
      · exact apart_of_key (by
          rw [hk]
          decide)
      · exact event_shown (.inl (by
          rw [hk]
          decide)) g hg
    obtain ⟨t, ch⟩ := x
    rw [roundWarned, thresholdSet_run, writes_warnShow.get hf hapart, (writes_warnOne ..).get hf hapart, (writes_warnOne ..).get hf hapart,
      (writes_warnOne ..).get hf hapart, hx, maxShow, Eff.run_seq]
  have hchan := roundMax_chan hx
  rw [hkept (fits rfl) rfl (.inr (.inr (by decide))), hkept (fits rfl) rfl (.inr (.inr (by decide)))]
  refine ⟨?_, put_same_of_lt (by decide) hchan _⟩
  rw [get_put_apart (.inr (.inr (by decide))) (by decide)]
  exact put_same_of_lt (by decide) (by
    have hmod : (x.1 % 2 ^ 16).toNat < 2 ^ 16 := by omega
    exact hmod) _

theorem round_max (hon : s.power = .on) {x : Int × Nat} (hx : roundMax s rs = some x) :
    ((housekeeping rs).run s).get R.THM_STATUS_t_max = (x.1 % 2 ^ 16).toNat ∧ ((housekeeping rs).run s).get R.THM_STATUS_t_max_chan = x.2 := by
  rw [final_of_warned hon (fits rfl) (shownField_thm (by decide)) ⟨.inr (.inr (by decide)), .inr (.inr (by decide))⟩,
    final_of_warned hon (fits rfl) (shownField_thm (by decide)) ⟨.inr (.inr (by decide)), .inr (.inr (by decide))⟩]
  exact roundWarned_max hx

end

end Sys2Proof.Proofs

/-! The cooling flag and the soundings of a round (R494, R497), and all that a round publishes. -/

namespace Sys2Proof.Proofs
open Sys2Proof.Machine Sys2Proof.Claims

/-! The cooling flag -/

theorem coolNote_get (g : Readings) (flow pIn : Option Nat) (s : State) (f : Fld) : ((coolNote g flow pIn).run s).get f = s.get f := by
  have hgov : (coolNote g flow pIn).In [.gov] := Eff.in_look fun s => by
    split
    · exact Eff.in_when (Eff.in_upd (by simp [Upd.part]))
    · exact Eff.in_skip
  rw [(get_of_regs ((hgov.changes s).same_regs (by simp))).1]

theorem coolShow_leaves (resid : Int) (on : Bool) (u v : State) : ((coolShow resid on u).run v).bit R.THM_STATUS_cooling_degraded = on ∧
    ((coolShow resid on u).run v).bit (R.EVC_ROUTE_asserted 0x714) = on := by
  have hread : ∀ b : Bool, ((if b then 1 else 0) == 1) = b := by decide
  have hbit : ∀ b : Bool, (if b then 1 else 0) < 2 ^ 1 := by decide
  rw [coolShow]
  simp only [Eff.run_all_cons, Eff.run_all_nil]
  refine ⟨?_, evLevel_asserted _ _ (by decide) _⟩
  rw [State.bit, (writes_evLevel (ps := govParts) (W := fun g => eventField g ∨ g = R.EVC_ROUTE_asserted 0x714) govTells (fun _ h => .inl h)
    (.inr rfl) on).get (fits rfl) (fun g hg => hg.elim (event_shown (.inl (by decide)) g) fun h => by
      rw [h]
      exact .inl (by decide)), putBit, put_same_of_lt (by decide) (hbit on)]
  exact hread on

section
variable {rs : List (BitVec 32)} {s : State}

theorem coolCfg_kept {f : Fld} (hf : Fits f) (hk : f.key = R.THM_COOL_CFG) : (roundSounded rs s).get f = s.get f := by
  have hnum : f.key = 0x100A0828 := hk
  have hshown : shownField f := by
    refine ⟨.inl ⟨by omega, by omega⟩, fun he => ?_, fun he => ?_, fun he => ?_, fun c _ he => ?_⟩ <;>
    · rw [hnum] at he
      simp only [R.THM_SHUTDOWN, R.THM_COUNTS, R.THM_COOL, R.THM_SOUND, rk] at he
      omega
  have hearly : ¬ earlyKey f.key := by
    simp only [hnum, earlyKey, eventKey, R.THM_COOL, R.PWR_INPUT, R.THM_COUNTS, R.SVC_REPLACE, R.SVC_REPLACE_LAST, R.VLT_BAND, R.EVC_ROUTE, rk]
    omega
  rw [roundSounded_get hf hshown, roundThrottled_get hf hshown (apart_of_key (by
      rw [hk]
      decide)),
    roundWarned_get hf (fun he => absurd (hk.symm.trans he) (by decide)) hearly]

/-- The inlet is too warm, or the flow too low. -/
theorem coolFails_of (u : State) (hinlet : u.get R.THM_COOL_CFG_inlet_max = s.get R.THM_COOL_CFG_inlet_max)
    (hflow : u.get R.THM_COOL_CFG_flow_min = s.get R.THM_COOL_CFG_flow_min)
    (h : ((s.reading rs 208 0).missing = false ∧ 16 * (s.get R.THM_COOL_CFG_inlet_max : Int) < (s.reading rs 208 0).v) ∨
      ∃ f, roundFlow s rs = some f ∧ f < s.get R.THM_COOL_CFG_flow_min) : coolFails (s.reading rs) (roundFlow s rs) u = true := by
  unfold coolFails State.coolBad
  rw [hinlet, hflow]
  simp only [Bool.or_eq_true]
  rcases h with ⟨hthere, hwarm⟩ | ⟨f, hf, hlow⟩
  · rw [hthere, if_neg Bool.false_ne_true]
    exact .inl (.inl (.inl (decide_eq_true hwarm)))
  · rw [hf]
    exact .inl (.inl (.inr (decide_eq_true hlow)))

theorem round_cools (hon : s.power = .on)
    (h : ((s.reading rs 208 0).missing = false ∧ 16 * (s.get R.THM_COOL_CFG_inlet_max : Int) < (s.reading rs 208 0).v) ∨
      ∃ f, roundFlow s rs = some f ∧ f < s.get R.THM_COOL_CFG_flow_min) :
    ((housekeeping rs).run s).bit R.THM_STATUS_cooling_degraded = true ∧
    ((housekeeping rs).run s).bit (R.EVC_ROUTE_asserted 0x714) = true := by
  obtain ⟨resid, good, hrun⟩ := coolStep_run (s.reading rs) (roundFlow s rs) (roundPower s rs) (roundSounded rs s)
  dsimp only at hrun
  have hnote := coolNote_get (s.reading rs) (roundFlow s rs) (roundPower s rs) (roundSounded rs s)
  have hinlet := (hnote R.THM_COOL_CFG_inlet_max).trans (coolCfg_kept (fits rfl) rfl)
  have hflow := (hnote R.THM_COOL_CFG_flow_min).trans (coolCfg_kept (fits rfl) rfl)
  have hlow : ∀ g, eventField g → apart g (R.EVC_ROUTE_asserted 0x714) := eventField_apart (fun he => absurd he (by decide)) (by
    simp only [eventKey, R.EVC_ROUTE_asserted, R.EVC_ROUTE, rk]
    omega)
  rw [State.bit, State.bit, final_of_cooled hon (fits rfl) (event_shown (.inl (by decide))), final_of_cooled hon (fits rfl) hlow, roundCooled, hrun]
  generalize (coolNote (s.reading rs) (roundFlow s rs) (roundPower s rs)).run (roundSounded rs s) = u at *
  have hon : coolOn (s.reading rs) (roundFlow s rs) u = true := by rw [coolOn, coolFails_of u hinlet hflow h, Bool.true_or]
  rw [hon]
  exact coolShow_leaves ..

end

/-! One cell's sounding -/

/-- What a forecast gives: the formula's value where the reading and the inlet are there. -/
theorem forecastOf_run (t inlet : Option Int) (rise approach : Nat) (k : Int → Eff) (s : State) : ∃ x u,
    (forecastOf t inlet rise approach k).run s = (k x).run u ∧ (∀ f, u.get f = s.get f) ∧
    ∀ a b, t = some a → inlet = some b → x = forecast a b rise approach := by
  have hfree : ∃ x u, (withFree fun w => k (signed16 w.toNat)).run s = (k x).run u ∧ ∀ f, u.get f = s.get f :=
    ⟨signed16 (Config.freeWord s.freeCtr).toNat, (Upd.freeCtr (s.freeCtr + 1)).run s, by
      rw [withFree, Eff.run_look, Eff.run_seq, Eff.run_upd], fun f => get_upd (u := .freeCtr (s.freeCtr + 1)) (by simp [Upd.part]) f s⟩
  unfold forecastOf
  rcases t with _ | a
  · obtain ⟨x, u, hrun, hget⟩ := hfree
    exact ⟨x, u, hrun, hget, fun _ _ h => absurd h (by simp)⟩
  · rcases inlet with _ | b
    · obtain ⟨x, u, hrun, hget⟩ := hfree
      exact ⟨x, u, hrun, hget, fun _ _ _ h => absurd h (by simp)⟩
    · exact ⟨forecast a b rise approach, s, rfl, fun _ => rfl, fun _ _ ha hb => by rw [← Option.some.inj ha, ← Option.some.inj hb]⟩


theorem soundShow_leaves {c round : Nat} (hc : c < 128) (hround : round < 2 ^ 32) (h : Nat) (logic dram : Int) (s : State) :
    ((soundShow c round h logic dram).run s).get (R.THM_SOUND_made_round c) = round ∧
    ((soundShow c round h logic dram).run s).get (R.THM_SOUND_logic_pred c) = (logic % 2 ^ 16).toNat := by
  have hlogic : (logic % 2 ^ 16).toNat < 2 ^ 16 := by omega
  have hlast : ∀ {f : Fld}, Fits f → f.key = R.THM_SOUND c → ∀ u : State, ((Eff.all [
      .upd (.soundings c (s.soundingsAt c ++ [(round + h, logic)])),
      Eff.when (decide (95 * 16 ≤ logic ∨ 95 * 16 ≤ dram) && !s.foretoldAt c) (.seq (.upd (.foretold c true))
        (Eff.when (s.agrees 0 3 || s.agrees 1 3) (evFire 0x7C3))),
      Eff.when (decide (logic < 90 * 16 ∧ dram < 90 * 16)) (.upd (.foretold c false))]).run u).get f = u.get f := fun {f} hf hk u => by
    have hsound : R.PWR_STATE ≠ f.key ∧ ¬ eventKey f.key := by
      simp only [hk, eventKey, R.PWR_STATE, R.THM_SOUND, rk]
      omega
    exact (writes_cons (writes_upd (by simp [Upd.part, soundParts]) (by simp [Upd.part])) (writes_cons
      (writes_when fun _ => writes_seq (writes_upd (by simp [Upd.part, soundParts]) (by simp [Upd.part]))
        (writes_when fun _ => writes_evFire soundTells (fun _ h => h) _))
      (writes_cons (writes_when fun _ => writes_upd (by simp [Upd.part, soundParts]) (by simp [Upd.part])) writes_nil))).get hf
      (eventField_apart (fun he => absurd he.symm hsound.1) hsound.2) u
  have hkept : ∀ {f : Fld}, Fits f → f.key = R.THM_SOUND c → ((soundShow c round h logic dram).run s).get f =
      ((put (R.THM_SOUND_made_round c) round).run ((put (R.THM_SOUND_dram_pred c) (dram % 2 ^ 16).toNat).run
        ((put (R.THM_SOUND_logic_pred c) (logic % 2 ^ 16).toNat).run s))).get f := fun {f} hf hk => by
    rw [soundShow, Eff.run_look, Eff.run_all_cons, Eff.run_all_cons, Eff.run_all_cons]
    exact hlast hf hk _
  rw [hkept (fits rfl) rfl, hkept (fits rfl) rfl]
  refine ⟨put_same_of_lt (by simp [R.THM_SOUND_made_round]) hround _, ?_⟩
  simp (disch := (
    try simp only [apart, farKey, R.THM_SOUND_logic_pred, R.THM_SOUND_dram_pred, R.THM_SOUND_made_round, R.THM_SOUND, rk]
    omega)) only [get_put_apart]
  exact put_same_of_lt (by simp [R.THM_SOUND_logic_pred]) hlogic _

/-- The sounding of a cell: the round it was made in, and its forecast where the readings are there. -/
theorem sound_leaves (g : Readings) {c : Nat} (hc : c < 128) (s : State) :
    ((sound g c).run s).get (R.THM_SOUND_made_round c) = s.get R.THM_STATUS_round ∧
    ∀ x, usedCell g c = some x → (g 208 0).missing = false → ((sound g c).run s).get (R.THM_SOUND_logic_pred c) =
      (forecast x (g 208 0).v (Config.heatRise (s.get R.THM_STATUS_round) c 0)
        (Config.approach (s.get R.THM_STATUS_round) c (s.get R.THM_SOUND_CFG_horizon_ms)) % 2 ^ 16).toNat := by
  have hround : s.get R.THM_STATUS_round < 2 ^ 32 := get_lt s R.THM_STATUS_round
  rw [sound_eq, Eff.run_look, soundWith, Eff.run_seq]
  obtain ⟨logic, u, hfirst, -, hlogic⟩ := forecastOf_run (usedCell g c) (if (g 208 0).missing then none else some (g 208 0).v)
    (Config.heatRise (s.get R.THM_STATUS_round) c 0)
    (Config.approach (s.get R.THM_STATUS_round) c (s.get R.THM_SOUND_CFG_horizon_ms)) (fun logic =>
      forecastOf (usedHalf g (layerAt c 0).1 (layerAt c 0).2) (if (g 208 0).missing then none else some (g 208 0).v)
        (Config.heatRise (s.get R.THM_STATUS_round) c 1)
        (Config.approach (s.get R.THM_STATUS_round) c (s.get R.THM_SOUND_CFG_horizon_ms)) fun dram =>
          soundShow c (s.get R.THM_STATUS_round) (s.get R.THM_SOUND_CFG_horizon_ms) logic dram)
    ((residualNote c (s.get R.THM_STATUS_round) (usedCell g c)).run s)
  obtain ⟨dram, v, hsecond, -, -⟩ := forecastOf_run (usedHalf g (layerAt c 0).1 (layerAt c 0).2)
    (if (g 208 0).missing then none else some (g 208 0).v) (Config.heatRise (s.get R.THM_STATUS_round) c 1)
    (Config.approach (s.get R.THM_STATUS_round) c (s.get R.THM_SOUND_CFG_horizon_ms)) (fun dram =>
      soundShow c (s.get R.THM_STATUS_round) (s.get R.THM_SOUND_CFG_horizon_ms) logic dram) u
  obtain ⟨hmade, hpred⟩ := soundShow_leaves hc hround (s.get R.THM_SOUND_CFG_horizon_ms) logic dram v
  rw [hfirst, hsecond]
  refine ⟨hmade, fun x hx hthere => ?_⟩
  rw [hpred, hlogic x (g 208 0).v hx (by rw [hthere, if_neg Bool.false_ne_true])]

end Sys2Proof.Proofs

/-! All that a housekeeping round publishes (R189, R190, R484–R497). -/

namespace Sys2Proof.Proofs
open Sys2Proof.Machine Sys2Proof.Claims

section
variable {rs : List (BitVec 32)} {s : State}

/-! The soundings of a round -/

/-- What the soundings depend on stands to their step: the firmware's state, the power state and the retired cells. -/
theorem roundThrottled_plain (hcalm : noTrip s rs) {f : Fld} (hf : Fits f)
    (hk : f = R.PWR_STATE_state ∨ f.key = R.FW_CORE 0 ∨ f.key = R.SVC_RETIRED_CELL_LO ∨ f.key = R.SVC_RETIRED_CELL_HI) :
    (roundThrottled rs s).get f = s.get f := by
  have hstate : f.key = R.PWR_STATE → f = R.PWR_STATE_state := fun he => by
    rcases hk with h | h | h | h
    · exact h
    · exact absurd (h.symm.trans he) (by decide)
    · exact absurd (h.symm.trans he) (by decide)
    · exact absurd (h.symm.trans he) (by decide)
  have hkey : f.key = R.PWR_STATE ∨ f.key = R.FW_CORE 0 ∨ f.key = R.SVC_RETIRED_CELL_LO ∨ f.key = R.SVC_RETIRED_CELL_HI :=
    hk.imp_left (congrArg Fld.key)
  have hnum : ¬ eventKey f.key ∧ ¬ earlyKey f.key := by
    simp only [R.PWR_STATE, R.FW_CORE, R.SVC_RETIRED_CELL_LO, R.SVC_RETIRED_CELL_HI, rk] at hkey
    simp only [earlyKey, eventKey, R.THM_COOL, R.PWR_INPUT, R.THM_COUNTS, R.SVC_REPLACE, R.SVC_REPLACE_LAST, R.VLT_BAND, R.EVC_ROUTE, rk]
    omega
  have hthrottle : ∀ g, throttleField g → apart g f := fun g hg => by
    have hout : ∀ k, g.key = k → k ≠ R.PWR_STATE ∧ k ≠ R.FW_CORE 0 ∧ k ≠ R.SVC_RETIRED_CELL_LO ∧ k ≠ R.SVC_RETIRED_CELL_HI → apart g f :=
      fun k hg hne => by
        obtain ⟨hpower, hcore, hlo, hhi⟩ := hne
        refine apart_of_key fun he => ?_
        rw [he, hg] at hkey
        exact hkey.elim hpower fun h => h.elim hcore fun h => h.elim hlo hhi
    rcases hg with hg | hg | hg | rfl | hg | rfl | hg | ⟨u, hu, rfl⟩ | rfl | hg
    · exact hout _ hg (by decide)
    · exact hout _ hg (by decide)
    · exact hout _ hg (by decide)
    · exact hout _ rfl (by decide)
    · exact hout _ hg (by decide)
    · exact hout _ rfl (by decide)
    · exact hout _ hg (by decide)
    · exact hout _ rfl (by
        simp only [R.BU_DUTY_duty, R.BU_DUTY, R.PWR_STATE, R.FW_CORE, R.SVC_RETIRED_CELL_LO, R.SVC_RETIRED_CELL_HI, rk]
        omega)
    · exact hout _ rfl (by decide)
    · exact eventField_apart hstate hnum.1 g hg
  rw [roundThrottled, (writes_throttleStep ..).get hf hthrottle, roundTripped_calm hcalm, roundWarned_get hf hstate hnum.2]

theorem roundThrottled_horizon : (roundThrottled rs s).get R.THM_SOUND_CFG_horizon_ms = s.get R.THM_SOUND_CFG_horizon_ms := by
  have hfield : shownField R.THM_SOUND_CFG_horizon_ms := by
    refine ⟨.inl (by decide), by decide, by decide, by decide, fun c _ he => ?_⟩
    simp only [R.THM_SOUND_CFG_horizon_ms, R.THM_SOUND_CFG, R.THM_SOUND, rk] at he
    omega
  rw [roundThrottled_get (fits rfl) hfield (.inl (by decide)), roundWarned_get (fits rfl) (fun he => absurd he (by decide)) (by
    simp only [earlyKey, eventKey, R.THM_SOUND_CFG_horizon_ms, R.THM_SOUND_CFG, R.THM_COOL, R.PWR_INPUT, R.THM_COUNTS, R.SVC_REPLACE, R.SVC_REPLACE_LAST,
      R.VLT_BAND, R.EVC_ROUTE, rk]
    omega)]

theorem roundThrottled_round (hon : s.power = .on) :
    (roundThrottled rs s).get R.THM_STATUS_round = (s.get R.THM_STATUS_round + 1) % 2 ^ R.THM_STATUS_round.w := by
  have hfield : shownField R.THM_STATUS_round := shownField_thm (by decide)
  rw [← round_number (rs := rs) hon, final_of_sounded hon (fits rfl) hfield.1 hfield.2.2.2.1 (.inr (.inl (by decide))),
    roundSounded_get (fits rfl) hfield]

/-- A cell's sounding and what it depends on. -/
def soundView (c : Nat) (t : State) : Nat × Nat × Nat × Nat :=
  (t.get (R.THM_SOUND_made_round c), t.get (R.THM_SOUND_logic_pred c), t.get R.THM_STATUS_round, t.get R.THM_SOUND_CFG_horizon_ms)

/-- A field outside the soundings stands while a cell's sounding is made, and so does another cell's sounding. -/
theorem sound_kept (g : Readings) {y : Nat} {f : Fld} (hf : Fits f) (hkey : shownKey f.key) (hne : f.key ≠ R.THM_SOUND y) (t : State) :
    ((sound g y).run t).get f = t.get f :=
  (writes_soundOne g y).get hf (fun h hh => hh.elim (fun he => apart_of_key fun hk => hne (hk.trans he)) (event_shown hkey h)) t

theorem sound_key (c : Nat) (hc : c < 128) : shownKey (R.THM_SOUND c) ∧ R.THM_STATUS ≠ R.THM_SOUND c ∧ R.THM_SOUND_CFG ≠ R.THM_SOUND c := by
  refine ⟨.inl ?_, ?_, ?_⟩ <;>
  · simp only [R.THM_SOUND, R.THM_STATUS, R.THM_SOUND_CFG, rk]
    omega

/-- What follows a cell's sounding in the round leaves it. -/
theorem final_sound (hon : s.power = .on) (hfw : s.fwRuns = true) (hoff : s.diesOff = false) (hcalm : noTrip s rs) {c : Nat} (hc : c < 128)
    {f : Fld} (hf : Fits f) (hk : f.key = R.THM_SOUND c) : ((housekeeping rs).run s).get f =
      ((Eff.each ((List.range 128).filter fun c => !(roundThrottled rs s).cellRetired c) (sound (s.reading rs))).run (roundThrottled rs s)).get f := by
  have hkey : shownKey f.key := hk ▸ (sound_key c hc).1
  have hpage : f.key = 0x100A1000 + c * 8 := by
    rw [hk, R.THM_SOUND, rk]
    omega
  have hruns : (roundThrottled rs s).fwRuns = true := by
    rw [State.fwRuns, roundThrottled_plain hcalm (fits rfl) (.inr (.inl rfl))]
    exact hfw
  have hdies : (roundThrottled rs s).diesOff = false := by
    rw [State.diesOff, roundThrottled_plain hcalm (fits rfl) (.inl rfl)]
    exact hoff
  rw [final_of_sounded hon hf hkey (by
      rw [hpage, R.THM_COOL, rk]
      omega) (apart_of_key (by
      simp only [hpage, R.THM_STATUS_cooling_degraded, R.THM_STATUS, rk]
      omega)), roundSounded, soundStep, Eff.run_look, hruns, hdies, Bool.not_false, Bool.and_self, Eff.run_when_true, Eff.run_seq]
  refine writes_rotationStep.get hf (fun g hg => ?_) _
  rcases hg with hg | hg | hg | hg
  · exact otherField_apart hkey (show otherKey g.key from hg ▸ (by decide : otherKey R.CHT_STATUS))
  · exact otherField_apart hkey (show otherKey g.key from hg ▸ (by decide : otherKey R.CHT_STAGED_ID))
  · exact apart_of_key (by
      rw [hg, hpage, R.THM_COUNTS, rk]
      omega)
  · exact event_shown hkey g hg

theorem round_sounds (hon : s.power = .on) (hfw : s.fwRuns = true) (hoff : s.diesOff = false) (hcalm : noTrip s rs) {c : Nat} (hc : c < 128)
    (hlive : s.cellRetired c = false) : let round := (s.get R.THM_STATUS_round + 1) % 2 ^ R.THM_STATUS_round.w
    ((housekeeping rs).run s).get (R.THM_SOUND_made_round c) = round ∧
    ∀ x, usedCell (s.reading rs) c = some x → (s.reading rs 208 0).missing = false → ((housekeeping rs).run s).get (R.THM_SOUND_logic_pred c) =
      (forecast x (s.reading rs 208 0).v (Config.heatRise round c 0)
        (Config.approach round c (s.get R.THM_SOUND_CFG_horizon_ms)) % 2 ^ 16).toNat := by
  have hlive' : (roundThrottled rs s).cellRetired c = false := by
    have hbit : ∀ k i, k = R.SVC_RETIRED_CELL_LO ∨ k = R.SVC_RETIRED_CELL_HI → i < 64 → (roundThrottled rs s).regBit k i = s.regBit k i :=
      fun k i hk hi => by
        rw [regBit_eq_bit, regBit_eq_bit, State.bit, State.bit, roundThrottled_plain hcalm (f := ⟨k, i, 1⟩)
          ⟨Nat.one_pos, Nat.succ_le_of_lt hi⟩ (.inr (.inr hk))]
    rw [← hlive, State.cellRetired, State.cellRetired]
    split
    · exact hbit _ _ (.inl rfl) (by omega)
    · exact hbit _ _ (.inr rfl) (by omega)
  have hmem : c ∈ (List.range 128).filter fun c => !(roundThrottled rs s).cellRetired c :=
    List.mem_filter.2 ⟨List.mem_range.2 hc, by rw [hlive']; rfl⟩
  have hnodup : ((List.range 128).filter fun c => !(roundThrottled rs s).cellRetired c).Nodup := List.nodup_range.filter _
  obtain ⟨hsound, hstatus, hcfg⟩ := sound_key c hc
  have hown := fun t => sound_leaves (s.reading rs) hc t
  have hkeep : ∀ y, ∀ t : State, ((sound (s.reading rs) y).run t).get R.THM_STATUS_round = t.get R.THM_STATUS_round ∧
      ((sound (s.reading rs) y).run t).get R.THM_SOUND_CFG_horizon_ms = t.get R.THM_SOUND_CFG_horizon_ms := fun y t =>
    ⟨sound_kept _ (fits rfl) (.inl (by decide)) (by
      simp only [R.THM_STATUS_round, R.THM_STATUS, R.THM_SOUND, rk]
      omega) t, sound_kept _ (fits rfl) (.inl (by decide)) (by
      simp only [R.THM_SOUND_CFG_horizon_ms, R.THM_SOUND_CFG, R.THM_SOUND, rk]
      omega) t⟩
  have hothers : ∀ y, y ≠ c → ∀ t : State, soundView c ((sound (s.reading rs) y).run t) = soundView c t := fun y hne t => by
    have hapart : R.THM_SOUND c ≠ R.THM_SOUND y := by
      simp only [R.THM_SOUND, rk]
      omega
    rw [soundView, soundView, (hkeep y t).1, (hkeep y t).2, sound_kept _ (fits rfl) hsound hapart, sound_kept _ (fits rfl) hsound hapart]
  have hround := roundThrottled_round (rs := rs) hon
  have hhorizon := roundThrottled_horizon (rs := rs) (s := s)
  dsimp only
  rw [final_sound hon hfw hoff hcalm hc (fits rfl) rfl, final_sound hon hfw hoff hcalm hc (fits rfl) rfl, ← hround, ← hhorizon]
  generalize (List.range 128).filter (fun c => !(roundThrottled rs s).cellRetired c) = xs at *
  generalize roundThrottled rs s = v at *
  refine ⟨?_, fun x hx hthere => ?_⟩
  · exact congrArg Prod.fst (run_each_once (V := fun t => (t.get (R.THM_SOUND_made_round c), t.get R.THM_STATUS_round))
      (F := fun z => (z.2, z.2)) hnodup hmem (fun t => Prod.ext (hown t).1 (hkeep c t).1) (fun y _ hne t => by
        obtain ⟨hmade, -, hround', -⟩ : _ ∧ _ ∧ _ ∧ _ := by simpa only [soundView, Prod.mk.injEq] using hothers y hne t
        exact Prod.ext hmade hround') v)
  · exact congrArg Prod.fst (run_each_once
      (V := fun t => (t.get (R.THM_SOUND_logic_pred c), t.get R.THM_STATUS_round, t.get R.THM_SOUND_CFG_horizon_ms))
      (F := fun z => ((forecast x (s.reading rs 208 0).v (Config.heatRise z.2.1 c 0) (Config.approach z.2.1 c z.2.2) % 2 ^ 16).toNat, z.2))
      hnodup hmem (fun t => Prod.ext ((hown t).2 x hx hthere) (Prod.ext (hkeep c t).1 (hkeep c t).2)) (fun y _ hne t => by
        obtain ⟨-, hlogic, hround', hhor⟩ : _ ∧ _ ∧ _ ∧ _ := by simpa only [soundView, Prod.mk.injEq] using hothers y hne t
        exact Prod.ext hlogic (Prod.ext hround' hhor)) v)

/-! Readings -/

theorem missing16_iff (ch n : Nat) : missing16 ch n = true ↔
    n = 0x8000 ∨ ((ch < 209 ∨ 210 ≤ ch ∧ ch < 218) ∧ (signed16 n < -640 ∨ 2400 < signed16 n)) := by
  rw [missing16, tempChan]
  simp only [Bool.or_eq_true, Bool.and_eq_true, beq_iff_eq, decide_eq_true_eq]

theorem chanWord_eq (ch : Nat) : s.chanWord rs ch =
    (if s.diesOff = true ∧ ch < 192 ∨ 242 ≤ ch then 0x80008000 else (rs.getD ch 0x80008000).toNat) := by
  rw [State.chanWord]
  simp only [Bool.or_eq_true, Bool.and_eq_true, decide_eq_true_eq]

end

end Sys2Proof.Proofs

/-! What a housekeeping round publishes, as one statement (R189, R190, R484–R497). -/

namespace Sys2Proof.Proofs
open Sys2Proof.Machine Sys2Proof.Claims

section
variable {rs : List (BitVec 32)} {s : State}

theorem halfWord_zero (w : Nat) : halfWord w 0 = w % 2 ^ 16 := by rw [halfWord, Nat.mul_zero, Nat.pow_zero, Nat.div_one]

theorem halfWord_one (w : Nat) : halfWord w 1 = w / 2 ^ 16 % 2 ^ 16 := rfl

theorem reading_missing (ch half : Nat) : (s.reading rs ch half).missing = missing16 ch (halfWord (s.chanWord rs ch) half) := rfl

theorem reading_low (ch half : Nat) : -32768 ≤ (s.reading rs ch half).v := signed16_low _

/-- The warning of a round as R487 says it. -/
theorem warnRound_iff (bit : Nat) (t : Option (Int × Nat)) {trip clear : Int} (h : clear ≤ trip) : warnRound s bit t trip clear = true ↔
    (∃ y, t = some y ∧ trip ≤ y.1) ∨ (s.gov.warned.testBit bit = true ∧ ∀ y, t = some y → clear < y.1) := warnNext_iff _ t h

theorem warnAny_iff : warnAny rs s = true ↔
    warnRound s 0 (roundMax s rs) (95 * 16) (90 * 16) = true ∨ warnRound s 1 (hottest (gddrOver (s.reading rs))) (95 * 16) (90 * 16) = true ∨
      warnRound s 2 (hottest (stageOver (s.reading rs))) (115 * 16) (110 * 16) = true := by
  rw [warnAny, Bool.or_eq_true, Bool.or_eq_true, or_assoc]

/-- The channels of a round, with the words that the statement gives them. -/
theorem round_channels (hon : s.power = .on) {ch : Nat} (hch : ch < 256) : let t := (housekeeping rs).run s
    let word := if s.diesOff = true ∧ ch < 192 ∨ 242 ≤ ch then 0x80008000 else (rs.getD ch 0x80008000).toNat
    let outside := fun n : Nat => n = 0x8000 ∨ ((ch < 209 ∨ 210 ≤ ch ∧ ch < 218) ∧ (signed16 n < -640 ∨ 2400 < signed16 n))
    t.get (R.THM_CHAN_lo ch) = word % 2 ^ 16 ∧ t.get (R.THM_CHAN_hi ch) = word / 2 ^ 16 % 2 ^ 16 ∧
    (t.bit (R.THM_CHAN_lo_missing ch) = true ↔ outside (word % 2 ^ 16)) ∧
    (t.bit (R.THM_CHAN_hi_missing ch) = true ↔ outside (word / 2 ^ 16 % 2 ^ 16)) := by
  obtain ⟨hlo, hhi, hlom, hhim⟩ := round_shows (rs := rs) hon hch
  dsimp only
  rw [hlo, hhi, hlom, hhim, reading_missing, reading_missing, missing16_iff, missing16_iff, halfWord_zero, halfWord_one, chanWord_eq]
  exact ⟨rfl, rfl, Iff.rfl, Iff.rfl⟩

end

/-- Settles O52: a round is a chain of steps each of which writes its own fields, and what a step shows stands to the end of the round. -/
theorem housekeepingReadings : Obligations.HousekeepingReadings := by
  intro rs s hon
  have hpow : s.power ≠ .off := by
    rw [hon]
    decide
  refine yields_done (p := housekeeping rs) rfl hpow ?_
  obtain ⟨hnow, hroundAt⟩ := round_time (rs := rs) hon
  refine ⟨hnow, hroundAt.trans hnow.symm, round_number hon, fun ch hch => round_channels hon hch, fun hoff c hc => ?_,
    fun x hx => round_max hon hx, fun hwarned => ?_, fun hbad => round_cools hon hbad, fun hfw hoff hcalm c hc hlive => ?_⟩
  · obtain ⟨hband, hforced⟩ := round_bands (rs := rs) hon hoff hc
    rw [bandOf_eq reading_low] at hband
    exact ⟨hforced, hband⟩
  · obtain ⟨hshow, hroute⟩ := round_warns (rs := rs) hon hwarned
    have hwarning := warnAny_iff (rs := rs) (s := s)
    rw [warnRound_iff _ _ (by decide), warnRound_iff _ _ (by decide), warnRound_iff _ _ (by decide)] at hwarning
    rw [hshow, hroute]
    exact ⟨hwarning, hwarning⟩
  · obtain ⟨hmade, hpred⟩ := round_sounds hon hfw hoff hcalm hc hlive
    refine ⟨hmade, fun x hx hthere hlt => ?_⟩
    rw [Nat.mod_eq_of_lt hlt] at hpred
    exact hpred x hx hthere

end Sys2Proof.Proofs
